-- ==== Sys2Proof/Word.lean ====
section
/-!
DEFINITION. The word and byte types of the KVX-7300 and their plainest arithmetic (chapter 00: registers are 32 bits wide,
all multi-byte values are little-endian, R5).
-/

namespace Sys2Proof

/-- One byte of a record, a packet or the unified map range. -/
abbrev Byte := BitVec 8

/-- One 32-bit register (chapter 00, "Registers and access types"). -/
abbrev Word := BitVec 32

/-- The byte that holds the low eight bits of `n`. -/
def byteOf (n : Nat) : Byte := BitVec.ofNat 8 n

end Sys2Proof
end

