-- ==== Sys2Proof/Syntax.lean ====
section
/-!
DEFINITION. The commands the block takes (opcode_table.json), with the data each brings from outside, and the plain data that a
command can carry: a flash image, a staged object, a start step's findings.
-/

namespace Sys2Proof.Machine

/-- What a loss of supplies cuts off half done (R30, R54, Table 17-6): nothing, a directory write, or the programming of an OTP
field whose valid bit is not yet programmed. -/
inductive Cut where
  | none
  | directory
  | keySlot (n : Nat)
  | revoke (n : Nat)
  | counter
  | debugLock
  | cascade
  | retire
deriving DecidableEq, Repr

/-- One request of the OTP request block (R439). -/
structure OtpReq where
  op : Nat := 0
  slot : Nat := 0
  value : List Nat := []
deriving DecidableEq, Repr

/-- A wait of a task graph (Table 13-2): kind 0 COUNT, 1 AFTER, 2 AT_OR_AFTER. -/
structure Wait where
  tally : Nat
  kind : Nat := 0
  stride : Nat := 0
  base : Nat := 0
deriving DecidableEq, Repr

/-- An advance of a task graph (Table 13-2). -/
structure Adv where
  tally : Nat
  amount : Nat := 1
deriving DecidableEq, Repr

/-- A node of a task graph (Table 13-2). -/
structure Node where
  block : Nat
  op : Nat := 0
  cls : Nat := 0
  home : Nat := 0
  lookahead : Nat := 1
  deadlineUs : Nat := 0
  limitUs : Nat := 0
  param : Nat := 0
  waits : List Wait := []
  advs : List Adv := []
deriving DecidableEq, Repr

/-- An entry of the Tally table (Table 13-2): flags bit 0 HOST_ADV, bit 1 CASCADE; producers bit n for BAR0 window n, bit 31 for
the host. -/
structure TallyEnt where
  index : Nat
  flags : Nat := 0
  producers : Nat := 0
deriving DecidableEq, Repr

/-- A buffer in cluster SRAM that the task graphs name for a sensor's networks (the Mill-to-cluster tile path, R157, R177). -/
structure PathBuf where
  sensor : Nat
  addr : Nat
  len : Nat
deriving DecidableEq, Repr

/-- The task graphs section (R364). -/
structure Graph where
  tallies : List TallyEnt := []
  nodes : List Node := []
  paths : List PathBuf := []
deriving DecidableEq, Repr

/-- An SM2 signature as the model holds it: the SM3 digest of the public key it verifies with, and the SM3 digest it was made over (the
standard is named and not restated: log entry 19). -/
structure Sig where
  key : Nat := 0
  msg : Nat := 0
deriving DecidableEq, Repr

/-- A section of an image: its table entry (Table 2-5), what follows at its place (the digest of its body, the signature after it), how
many reads fail before a clean one (R28), its length and digest once converted (R48), and the settings its body carries as writes of
BL registers. -/
structure Sect where
  typ : Nat
  fmt : Nat
  flags : Nat := 0
  inst : Nat := 0
  off : Nat := 4096
  len : Nat := 0
  digest : Nat := 0
  bodyDigest : Nat := 0
  sig : Sig := {}
  badReads : Nat := 0
  convLen : Nat := 0
  convDigest : Nat := 0
  cfg : List (Nat × Nat) := []
deriving DecidableEq, Repr

/-- What Wyrax decided for a layer: its residency class (R178: 0 CORE, 1 CLUSTER, 2 HOPPER, 3 DDR), its weights in KiB, their uses per second (R196), the
unified-map pages of their copies below the SRAM (R224), and where a CORE, CLUSTER or pinned copy begins in the window of its core or cluster. -/
structure LayerPlan where
  cls : Nat := 0
  kib : Nat := 0
  uses : Nat := 0
  pages : List Nat := []
  addr : Nat := 0
deriving DecidableEq, Repr

/-- A layer entry of a weight section (Table 7-9), field by field: operator (Table 7-7), activation (Table 7-8), the format numbers of weights and
activations (Table 7-1), kernel, stride, dilation, channels, groups, the producing layers of its inputs (0xFF: the network input, or none), the place
and length of its weight tiles and the place of its parameters in the body, the zero point, BLOCK, the clamp range; and beside the entry what Wyrax decided
for the layer (`LayerPlan`). -/
structure Layer where
  op : Nat := 1
  act : Nat := 0
  wfmt : Nat := 3
  afmt : Nat := 3
  kh : Nat := 1
  kw : Nat := 1
  stride : Nat := 1
  dil : Nat := 1
  cin : Nat := 1
  cout : Nat := 1
  groups : Nat := 1
  in0 : Nat := 0xFF
  in1 : Nat := 0xFF
  woff : Nat := 0
  wlen : Nat := 0
  poff : Nat := 0
  zero : Int := 0
  block : Bool := false
  lo : Int := 0
  hi : Int := 0
  cls : Nat := 0
  kib : Nat := 0
  uses : Nat := 0
  pages : List Nat := []
  addr : Nat := 0
deriving DecidableEq, Repr

/-- A weight or fallback section body: its format (1 or 2), its bytes, and what Wyrax decided for each layer. -/
structure WBody where
  fmt : Nat := 2
  bytes : List Byte := []
  plan : List LayerPlan := []
deriving DecidableEq, Repr

/-- A network: its two section bodies (R189), the shape of its output (stride, channels, format number of Table 7-1: R182 names them and Table 7-9 has
no field for them), and the pinned fallback weights in KiB (R177, R178). -/
structure Net where
  stride : Nat := 8
  chans : Nat := 1
  fmt : Nat := 13
  main : WBody := {}
  fb : WBody := {}
  pin : Nat := 0
deriving DecidableEq, Repr

/-- Block parameters of a session's nodes (Table 13-2) that no register holds: the pose and keyframe Tallies, the rings of keyframe
records and observation lists with the bytes of one list, the Cask queues of its place queries and of its inserts. -/
structure SesParam where
  pose : Nat := 0
  kf : Nat := 0
  kfBase : Nat := 0
  kfSlots : Nat := 1
  obsBase : Nat := 0
  obsSize : Nat := 65536
  queue : Nat := 0xFF
  insQueue : Nat := 0xFF
deriving DecidableEq, Repr

/-- An image as it lies in a slot: the header of Table 2-4 (its four reserved fields by offset), its section table, and the parts of its
settings that are not registers: the Kettles and Cask walkers they call for (R3), the warp maps by sensor, each a list of nodes (source x and y in
Q16.16, row by row: R132), the parent of each link of the body tables (R300), the header and the entries of the transform tables (R232). -/
structure Image where
  magic : Nat := 0x4B584243
  cver : Nat := 3
  hsize : Nat := 512
  seq : Nat := 0
  secver : Nat := 0
  keySlot : Nat := 0
  partMask : Nat := 7
  res19 : Nat := 0
  count : Nat := 0
  res22 : Nat := 0
  len : Nat := 4096
  res28 : Nat := 0
  pubKey : List Byte := []
  res96 : Nat := 0
  hdrSig : Sig := {}
  sects : List Sect := []
  otpReqs : List OtpReq := []
  graph : Graph := {}
  layout : Nat := 0
  kettles : Nat := 0
  walkers : Nat := 0
  warps : List (Nat × List (Nat × Nat)) := []
  bodies : List (List Nat) := []
  imuSeq : List (Nat × List (List Byte)) := []
  nets : List Net := []
  staging : Nat := 512
  ses : List SesParam := []
  tt : List (List Byte) := []
  ttFormat : Nat := 3
  ttHead : List Byte := []
  ktlSlot : List Nat := []
  ktlSim3 : List Nat := []
  books : List (List Byte) := []
  cascDigest : Nat := 0
deriving DecidableEq, Repr

/-- What host software stages (R447, R455), and its length: a full image, or a section package naming the base it modifies and the entry whose
body it carries. -/
structure Staged where
  word0 : Nat := 0x4B584243
  base : Nat := 0
  index : Nat := 0
  len : Nat := 4096
  img : Image := {}
deriving DecidableEq, Repr

/-- What a start step finds outside the part (R40): the junction temperature and the DDR5 channels that fail their check or their
training (step 3); the units that fail self-test, the Hopper bond lanes mapped onto spares, and the Hopper dies beyond lane repair
(step 4); the identity value each IMU answers (when step 4 ends and step 5 begins). -/
structure StepFind where
  jt : Int := 0
  cacheBad : Nat := 0
  trainBad : Nat := 0
  failed : List (Nat × Nat) := []
  lanes : List (Nat × Nat) := []
  dies : Nat := 0
  ids : List (Nat × Nat) := []
deriving DecidableEq, Repr

/-- An Announce message (R65): grandmaster, the IEEE 1588 data set it is compared by, and the UTC data it carries. -/
structure Announce where
  gm : Nat := 0
  prio1 : Nat := 128
  cls : Nat := 6
  acc : Nat := 0x21
  var : Nat := 0
  prio2 : Nat := 128
  steps : Nat := 0
  ptpScale : Bool := true
  utc : Nat := 37
  utcValid : Bool := true
  leap61 : Bool := false
  leap59 : Bool := false
deriving DecidableEq, Repr

/-- What a Sync (or its Follow_Up) brings: sequence number, origin time in nanoseconds, correction in 2⁻¹⁶ ns, the receive stamp of the
Sync at the PCS boundary in eighths of a nanosecond (R63), and what the domain's servo makes of it: its estimate of the offset (2⁻¹⁶ ns) and of
the rate (ppt), for which the spec gives no formula. -/
structure SyncMsg where
  seq : Nat := 0
  origin : Int := 0
  corr : Int := 0
  rx : Int := 0
  est : Int := 0
  ppt : Int := 0
deriving DecidableEq, Repr

/-- One pixel as unpacked d-bit samples (R92, step 1): mono and Bayer use the first; YCbCr holds Y, Cb, Cr (4:2:2: those of the
pair); RGB holds R, G, B. -/
structure Px where
  a : Nat := 0
  b : Nat := 0
  c : Nat := 0
deriving DecidableEq, Repr

/-- A sample row data segment of an ST 2110-20 packet: row, offset in pixels, pixels. -/
structure StSeg where
  row : Nat
  off : Nat
  px : List Px := []
deriving DecidableEq, Repr

/-- An ST 2110-20 packet as a port receives it. -/
structure StPacket where
  port : Nat := 0
  dst : Nat := 0
  src : Nat := 0
  dport : Nat := 0
  pt : Nat := 96
  seq : Nat := 0
  rtp : Nat := 0
  marker : Bool := false
  segs : List StSeg := []
deriving DecidableEq, Repr

/-- A task in flight as its results name it: node, iteration, placement epoch (R370). -/
structure TaskRef where
  node : Nat
  k : Nat
  epoch : Nat := 0
deriving DecidableEq, Repr

/-- How Wyrax split K for one output row of a layer, and the order in which the parts completed (R170): the layer, the row, and the parts in that
order, each with its K tiles. A row with no entry is not split. -/
structure KSplit where
  layer : Nat
  row : Nat
  parts : List (List Nat)
deriving DecidableEq, Repr

/-- A Cellar superblock (R215): version, digest of the device identity, whether pages are encrypted, P, which checkpoint is in force,
its sequence number, the journal head (the first record written after that checkpoint), and whether its CRC passes. -/
structure Super where
  version : Nat := 1
  ident : Nat := 0
  enc : Bool := false
  p : Nat := 0
  ckpt : Bool := false
  seq : Nat := 0
  head : Nat := 0
  crcOk : Bool := true
deriving DecidableEq, Repr

/-- What stands at a location of the page store (R216): the trailer's fields of Table 8-7 (`page` the map page, or the section digest's bits 63:0 of a
replica), the CRCs of the 16 data LBAs as stored, the length of the page's region (log entry 63), and the page's bytes that are not 0, by offset, before
encryption. -/
structure CellarPage where
  page : Nat
  key : Nat := 0
  len : Nat := 0
  gen : Nat := 0
  flags : Nat := 0
  index : Nat := 0
  crc : List Nat := []
  data : List Host.Cell := []
deriving DecidableEq, Repr

/-- The SSD (Table 8-6): its LBAs, its superblocks, its two checkpoints (the locations that hold a page's last version), its journal (the number of
its first record; each record a location and whether it is taken into use or released), its page store by location. -/
structure Ssd where
  lbas : Nat := 0
  sb0 : Option Super := none
  sb1 : Option Super := none
  ckptA : List Nat := []
  ckptB : List Nat := []
  first : Nat := 0
  journal : List (Nat × Bool) := []
  store : List (Nat × CellarPage) := []
deriving DecidableEq, Repr

/-- What Cellar bring-up finds (R213, R218): an SSD or none, the link it comes up at, and its contents where they are not what the part
last wrote there. -/
structure CellarFind where
  present : Bool := true
  gen : Nat := 5
  width : Nat := 4
  lbas : Nat := 0
  swap : Option Ssd := none
deriving DecidableEq, Repr

/-- A delta entry (Table 10-4) of a Kettle problem: its op and identifier; type, variables, values or measurement and information as
FP64 patterns; `marg` of a VAR_REMOVE; and of a SOLVE its trigger time (ns), key, solution record to warm-start from, and whether it posts
a loop candidate; of a RELPOSE solve its correspondences (keypoint x and y in Q16.16, landmark index, camera slot); of a BODY solve its
body, its tip link and its inputs (R296, R301 give these no place in Table 10-4). -/
structure Delta where
  op : Nat
  id : Nat := 0
  typ : Nat := 0
  vars : List Nat := []
  val : List Nat := []
  info : List Nat := []
  marg : Bool := false
  ts : Nat := 0
  key : Nat := 0
  warm : Option Nat := none
  loop : Bool := false
  corr : List (Nat × Nat × Nat × Nat) := []
  inp : List Nat := []
deriving DecidableEq, Repr

/-- A shard's answer to a query (R354): the shard, its placement epoch, its first entries (identifier, exact distance, attribute
word), the flags BUDGET, DEADLINE, FILTERED and REPLICA of Table 12-7, and its counts; or no answer, the shard missing. -/
structure ShardAns where
  shard : Nat
  epoch : Nat := 0
  ents : List (Nat × Nat × Nat) := []
  flags : Nat := 0
  nodes : Nat := 0
  dangling : Nat := 0
  revised : Nat := 0
  missing : Bool := false
deriving DecidableEq, Repr


/-- A TILE_REQ packet (R410) as it reached a port: source address, UDP ports, whether it came to a multicast address, whether it is well
formed, request_id, map_id, since_epoch, tile ids. -/
structure TileReq where
  port : Nat
  src : Nat
  sport : Nat
  dport : Nat := 0
  multicast : Bool := false
  ok : Bool := true
  id : Nat := 0
  map : Nat := 0
  since : Nat := 0
  tiles : List Nat := []
deriving DecidableEq, Repr

/-- What a Ramhel message says (R353, R354, R430): a query sent on to the master, the walk of a shard, a shard's answer, a result for its
origin; an insert, replace or delete for a shard's holder and its acknowledgement; a remote read or write of a SHARED region and
its answer; delta entries and solutions of a shared map's pose graph (R426). Ages are in nanoseconds; tags name the sender's request. -/
inductive Msg where
  | query (tag age : Nat) (req : List Byte)
  | walk (tag shard age epoch : Nat) (req : List Byte)
  | answer (tag : Nat) (a : ShardAns)
  | result (tag : Nat) (rec : List Byte)
  | change (tag op shard : Nat) (req : List Byte)
  | changed (tag code status node : Nat)
  | read (tag addr len : Nat)
  | data (tag : Nat) (bytes : List Byte) (poison : Bool)
  | write (tag op addr : Nat) (bytes : List Byte)
  | wrote (tag : Nat)
  | delta (p : Nat) (l : List Delta)
  | solution (p seq digest : Nat) (values : List Byte)
deriving DecidableEq, Repr

/-- The header of a Ramhel frame (Table 15-1) as it crosses a port: identities, ring epoch (bits 7:0), link sequence number and
acknowledgement, links still to cross, and whether its CRC-32 passes. -/
structure FrameHdr where
  port : Nat
  src : Nat
  dst : Nat := 0xFF
  epoch : Nat := 0
  seq : Nat := 0
  ack : Nat := 0
  links : Nat := 0
  crcOk : Bool := true
deriving DecidableEq, Repr

/-- What a CONTROL frame says (R424, R431): a member lost or joined, at a ring epoch; a wish to join; the Tally snapshot of a join (index, value, stamp),
an advance forwarded to the joining member. -/
inductive Ctl where
  | memberLost (id epoch : Nat)
  | memberJoined (id epoch : Nat)
  | join (id : Nat)
  | snapshot (l : List (Nat × Nat × Nat))
  | forward (index amount : Nat) (stamp : Option Nat)
deriving DecidableEq, Repr

/-- The data of a frame (Table 15-1). -/
inductive Body where
  | heartbeat (reach : Nat)
  | control (c : Ctl)
  | time (dev state corr : Nat)
  | tally (e2e index amount : Nat) (stamp : Option Nat)
  | msg (e2e cls : Nat) (m : Msg)
  | page (e2e cls addr : Nat) (bytes : List Byte)
  | e2eAck (cls e2e : Nat)
deriving DecidableEq, Repr

/-- What a bring-up step finds (Table 15-2): both laser inputs in 0.1 dBm, the receive lanes with signal and CDR lock, their power in
0.1 dBm, the measured link delay in ns. -/
structure LinkFind where
  in0 : Nat := 160
  in1 : Nat := 160
  lanes : Nat := 0xFF
  dbm : List Int := []
  delay : Nat := 0
deriving DecidableEq, Repr

end Sys2Proof.Machine

namespace Sys2Proof
open Machine


/-- The commands: one constructor per row of the spec's table of operations and events (opcode_table.json). -/
inductive Instr where
  /-- SUPPLY_RAMP (R459): rail 0–9 of Table 17-1 reaches 90 % of its nominal value -/
  | supplyRamp (rail : Nat)
  /-- PWRGD_ASSERT (R459).  -/
  | pwrgdAssert
  /-- SYS_RESET_RELEASE (R459).  -/
  | sysResetRelease (strap pufFails : Nat)
  /-- SYS_RESET_ASSERT (R465).  -/
  | sysResetAssert (ns : Nat)
  /-- PWRGD_FALL (R465).  -/
  | pwrgdFall
  /-- SUPPLY_LOSS (R460).  -/
  | supplyLoss (cut : Cut)
  /-- PERST_N (R43).  -/
  | perstN
  /-- SELF_RESTART (R466).  -/
  | selfRestart (cause : Nat)
  /-- TEMP_SENSOR_READ (R469).  -/
  | tempSensorRead (sensor : Nat) (t : Int)
  /-- THERMTRIP (R470).  -/
  | thermtrip (sensor : Nat) (t : Int)
  /-- AVS_UPDATE (R461).  -/
  | avsUpdate (ack : Bool)
  /-- AVS_TELEMETRY (R461).  -/
  | avsTelemetry (ack : Bool) (vout iout temp pkg peak : Nat)
  /-- SMB_READ_BOOT_STATUS (R484).  -/
  | smbReadBootStatus (pecBad : Bool)
  /-- SMB_READ_COMPUTE_TEMP (R484).  -/
  | smbReadComputeTemp (pecBad : Bool)
  /-- SMB_READ_HOPPER_TEMP (R484).  -/
  | smbReadHopperTemp (pecBad : Bool)
  /-- SMB_READ_PKG_POWER (R484).  -/
  | smbReadPkgPower (pecBad : Bool)
  /-- SMB_READ_PWR_STATUS (R484).  -/
  | smbReadPwrStatus (pecBad : Bool)
  /-- SMB_READ_PART (R484).  -/
  | smbReadPart (pecBad : Bool)
  /-- SMB_UNKNOWN_COMMAND (R484).  -/
  | smbUnknownCommand (code : Nat) (pecBad : Bool)
  /-- START_STEP_DONE (R40): step 1 to 7, and what it finds -/
  | startStepDone (step : Nat) (find : StepFind)
  /-- START_STEP_LIMIT (R44).  -/
  | startStepLimit (step : Nat)
  /-- PTP_WAIT_EXPIRE (R42).  -/
  | ptpWaitExpire
  /-- SENSOR_CHECK_EXPIRE (R42).  -/
  | sensorCheckExpire (sensor : Nat)
  /-- TRAINING_CACHE_WRITE (R45).  -/
  | trainingCacheWrite
  /-- TRIAL_CONFIRM (R37).  -/
  | trialConfirm
  /-- CELLAR_BRINGUP_DONE (R218).  -/
  | cellarBringupDone (found : CellarFind)
  /-- DEVICE_TIME_TICK (R57).  -/
  | deviceTimeTick
  /-- PTP_ANNOUNCE_RX (R65).  -/
  | ptpAnnounceRx (n port : Nat) (a : Announce)
  /-- PTP_SYNC_RX (R65).  -/
  | ptpSyncRx (n port : Nat) (twoStep : Bool) (m : SyncMsg)
  /-- PTP_FOLLOW_UP_RX (R62).  -/
  | ptpFollowUpRx (n port : Nat) (m : SyncMsg)
  /-- PTP_DELAY_RESP_RX (R62).  -/
  | ptpDelayRespRx (n seq : Nat) (t4 : Int)
  /-- PTP_DELAY_REQ_TX (R64).  -/
  | ptpDelayReqTx (n : Nat)
  /-- PTP_PDELAY_REQ_RX (R64).  -/
  | ptpPdelayReqRx (port seq : Nat)
  /-- PTP_PDELAY_RESP_RX (R62).  -/
  | ptpPdelayRespRx (n seq : Nat) (t4 turn : Int)
  /-- PTP_MANAGEMENT_GET (R62).  -/
  | ptpManagementGet (port seq : Nat)
  /-- PTP_MANAGEMENT_SET (R62).  -/
  | ptpManagementSet (port seq : Nat)
  /-- PTP_MANAGEMENT_COMMAND (R62).  -/
  | ptpManagementCommand (port seq : Nat)
  /-- ANNOUNCE_RECEIPT_TIMEOUT (R65).  -/
  | announceReceiptTimeout (n port : Nat)
  /-- SELECTION_EVAL (R66).  -/
  | selectionEval
  /-- HOLD_ERR_UPDATE (R70).  -/
  | holdErrUpdate
  /-- HOLDOVER_LIMIT_EXPIRE (R70).  -/
  | holdoverLimitExpire
  /-- PPS_EDGE (R69).  -/
  | ppsEdge (err off : Int)
  /-- REF10M_EDGE (R69).  -/
  | ref10mEdge (err ppt : Int)
  /-- EXPOSURE_TRIGGER_EDGE (R74).  -/
  | exposureTriggerEdge (n : Nat)
  /-- CONVERSION_STROBE_EDGE (R101).  -/
  | conversionStrobeEdge (n : Nat)
  /-- CONTROL_CYCLE_EDGE (R71).  -/
  | controlCycleEdge (n : Nat)
  /-- CAPTURE_EDGE (R75).  -/
  | captureEdge (n start stop : Nat) (rising : Bool)
  /-- SLIP_HOLD_EXPIRE (R81).  -/
  | slipHoldExpire (n : Nat)
  /-- HELD_CLEAR (R81).  -/
  | heldClear (n : Nat)
  /-- CSI2_FRAME_START (R88): ecc 0 clean, 1 corrected, 2 uncorrectable -/
  | csi2FrameStart (port vc ecc : Nat)
  /-- CSI2_FRAME_END (R88).  -/
  | csi2FrameEnd (port vc ecc : Nat)
  /-- CSI2_LONG_PACKET (R85): a data packet of a virtual channel and data type, its samples unpacked -/
  | csi2LongPacket (port vc dt ecc : Nat) (crcOk : Bool) (px : List Px)
  /-- CSI2_IGNORED_PACKET (R83).  -/
  | csi2IgnoredPacket (port vc dt ecc : Nat)
  /-- BAND_SLOT_FREE (R94).  -/
  | bandSlotFree (n : Nat)
  /-- ST2110_PACKET_RX (R87).  -/
  | st2110PacketRx (p : StPacket)
  /-- FRAME_TIMEOUT (R89).  -/
  | frameTimeout (n : Nat)
  /-- SPI_DATA_READY (R101).  -/
  | spiDataReady (p : Nat)
  /-- SPI_WAIT_EXPIRE (R101).  -/
  | spiWaitExpire (p : Nat)
  /-- SPI_TRANSACTION_DONE (R102): the bytes read -/
  | spiTransactionDone (p : Nat) (data : List Byte)
  /-- IMU_IDENTITY_READ (R103).  -/
  | imuIdentityRead (p value : Nat)
  /-- SSI_READ_DONE (R104): the bits of the frame in their order, the data line before the first clock edge and after the last bit, and the first data transition minus the first clock edge where there is one (R485) -/
  | ssiReadDone (p : Nat) (bits : List Bool) (high low : Bool) (first : Option Int)
  /-- QUAD_TRANSITION (R105): the new levels of the lines, and how long they stood (ns) -/
  | quadTransition (q : Nat) (a b : Bool) (ns : Nat)
  /-- QUAD_SAMPLE (R105).  -/
  | quadSample (q : Nat)
  /-- CAN_FRAME_RX (R107): fd: an FD frame; ago: how long ago its start-of-frame bit came (ns) -/
  | canFrameRx (ctl : Nat) (ext fd : Bool) (id ago : Nat) (data : List Byte)
  /-- CAN_TX_DONE (R107).  -/
  | canTxDone (ctl : Nat)
  /-- CAN_BUSOFF_RECOVER (R106).  -/
  | canBusoffRecover (ctl : Nat)
  /-- CHANNEL_TIMEOUT (R110).  -/
  | channelTimeout (c : Nat)
  /-- CHANNEL_ABSENT_INSTANT (R110).  -/
  | channelAbsentInstant (c : Nat)
  /-- TALLY_ADVANCE (R360): stores, deltas: the bytes and the delta entries the producer wrote before the advance -/
  | tallyAdvance (src tally amount : Nat) (stamp : Option Nat) (task : Option TaskRef) (stores : List (Nat × List Byte)) (deltas : List Delta)
  /-- TASK_LIMIT_EXPIRE (R367): the task, and the physical unit of a class it ran on -/
  | taskLimitExpire (node k cls unit : Nat)
  /-- UNIT_FAULT (R367): physical unit of a class, and the task in flight on it -/
  | unitFault (cls unit : Nat) (task : Option TaskRef)
  /-- TASK_FAILED (R368): cause 2 poison, 3 address fault, 4 NoC -/
  | taskFailed (node k cause : Nat)
  /-- WAIT_LIMIT_EXPIRE (R369).  -/
  | waitLimitExpire (node k : Nat)
  /-- HOST_TALLY_ADVANCE (R363).  -/
  | hostTallyAdvance (index amount : Nat)
  /-- HOST_WAIT_ARM (R363).  -/
  | hostWaitArm (slot index : Nat)
  /-- HOST_WAIT_DISARM (R363).  -/
  | hostWaitDisarm (slot index : Nat)
  /-- SPARE_VISIT (R372): the Hopper bond lanes that the rotation maps onto spares (die, lanes), and a die found beyond lane repair (R206) -/
  | spareVisit (cls group : Nat) (lanes : List (Nat × Nat)) (die : Option Nat)
  /-- SELF_TEST_DONE (R373): physical unit of a class -/
  | selfTestDone (cls unit : Nat) (pass : Bool)
  /-- UNIT_SWAP (R374): the visit of a spare of a class reaches its boundary -/
  | unitSwap (cls spare : Nat)
  /-- RETEST (R375): physical unit of a class -/
  | retest (cls unit : Nat) (pass : Bool)
  /-- VISIT_WAIT_WARNING (R377).  -/
  | visitWaitWarning (cls group : Nat)
  /-- CALIB_POST (R378).  -/
  | calibPost (n : Nat)
  /-- COOPER_LOAD_EVAL (R382).  -/
  | cooperLoadEval (l0 l1 l2 : Nat)
  /-- FIRMWARE_WATCHDOG (R384).  -/
  | firmwareWatchdog (core : Nat)
  /-- EVENT_FOLD_FLUSH (R387).  -/
  | eventFoldFlush (src code unit : Nat)
  /-- MILL_BAND_DONE (R127): band b of sensor job n; held: a tile of it finds no space in cluster SRAM -/
  | millBandDone (n b lane : Nat)
  /-- SGM_BAND_DONE (R155).  -/
  | sgmBandDone (p b : Nat)
  /-- FLOW_LEVEL_DONE (R146).  -/
  | flowLevelDone (f level : Nat)
  /-- PATH_SPACE_FREED (R157): after a hold of so many microseconds -/
  | pathSpaceFreed (n : Nat)
  /-- NETWORK_BAND_DONE (R182): the band's last task ran on logical core `core` (four to a cluster); splits: where K was split, in completion order -/
  | networkBandDone (i b core : Nat) (splits : List KSplit)
  /-- NETWORK_DEADLINE (R192): frame f of instance i -/
  | networkDeadline (i f : Nat)
  /-- WEIGHTS_STAGED (R179) -/
  | weightsStaged (net layer cluster : Nat)
  /-- MIGRATION_PASS (R220): the access counters: page, accesses since the last pass, whether any wrote -/
  | migrationPass (counts : List (Nat × Nat × Bool))
  /-- PAGE_MIGRATE_SWITCH (R221).  -/
  | pageMigrateSwitch (page : Nat)
  /-- DEMAND_FILL_DONE (R221): the page (address bits 47:16), and how many reads of it failed their CRCs -/
  | demandFillDone (page fails : Nat)
  /-- SCRUB_STEP (R211).  -/
  | scrubStep (tier unit addr : Nat) (fixed : Bool)
  /-- CORRECTED_ERROR (R211): tier and unit of MEM_ERR_INFO; kind 1 corrected, 3 a transfer or write retried -/
  | correctedError (tier unit kind addr : Nat)
  /-- CHANNEL_DRAIN_DONE (R212).  -/
  | channelDrainDone (ch : Nat)
  /-- UNCORRECTABLE_ERROR (R223): tier, unit, kind and requester of MEM_ERR_INFO, and the address -/
  | uncorrectableError (tier unit kind addr block : Nat)
  /-- PHY_LOCK_LOSS (R212).  -/
  | phyLockLoss (ch : Nat)
  /-- RETRAIN_TIMEOUT (R212).  -/
  | retrainTimeout (ch : Nat)
  /-- REFILL_DONE (R225): bad: bit 0 DDR replica, 1 Cellar replica, 2 flash original found bad -/
  | refillDone (page bad : Nat)
  /-- ADDRESS_FAULT (R205).  -/
  | addressFault (addr block : Nat)
  /-- DDR_DQS_TRACK (R209).  -/
  | ddrDqsTrack (ch : Nat) (drift : Int)
  /-- DDR_ZQ_CAL (R209).  -/
  | ddrZqCal (ch : Nat)
  /-- DDR_MR4_READ (R209).  -/
  | ddrMr4Read (ch : Nat) (hot : Bool)
  /-- NVME_COMPLETION (R214): op 0 Read, 1 Write, 2 Flush, 3 Dataset Management, 4 Get Log Page, 5 Identify, 6 Create I/O Queue, 7 Delete I/O Queue,
  8 Set Features, 9 Abort (Table 8-5); err: Unrecovered Read Error; the SMART data of a log page -/
  | nvmeCompletion (op page : Nat) (err : Bool) (warn used : Nat)
  /-- NVME_TIMEOUT (R214).  -/
  | nvmeTimeout (op page : Nat) (abortOk : Bool)
  /-- CELLAR_CHECKPOINT (R217).  -/
  | cellarCheckpoint
  /-- CELLAR_WRITEBACK (R217).  -/
  | cellarWriteback (page : Nat)
  /-- VISION_STEP (R235).  -/
  | visionStep (n : Nat)
  /-- PROPAGATED_RECORD (R238).  -/
  | propagatedRecord (n : Nat)
  /-- FOLD_IN (R257): session n; kind 0 window, 1 pose graph, 2 calibration, 3 loop candidate, with the keyframe that was verified; the address of the solution record -/
  | foldIn (n kind record kf : Nat)
  /-- INIT_TIMEOUT (R230).  -/
  | initTimeout (n : Nat)
  /-- COAST_EXPIRE (R258).  -/
  | coastExpire (n : Nat)
  /-- RELOC_QUERY_POST (R259).  -/
  | relocQueryPost (n : Nat)
  /-- KETTLE_ITERATION_DONE (R283).  -/
  | kettleIterationDone (p : Nat) (bad1 bad2 : Bool)
  /-- SOLVE_DEADLINE (R289): the running solve of problem p, or its n-th ready one; inside: an iteration is under way -/
  | solveDeadline (p n : Nat)
  /-- SOLVE_COMPLETE (R302).  -/
  | solveComplete (p : Nat)
  /-- BODY_SOLVE_DONE (R301).  -/
  | bodySolveDone (p : Nat)
  /-- POSEGRAPH_POST (R298).  -/
  | posegraphPost (p : Nat)
  /-- VIEW_PASS_DEADLINE (R316).  -/
  | viewPassDeadline (v : Nat)
  /-- KILN_BINNING_DONE (R330): logical Kiln u; the blocks its frustum test keeps, and what it projects -/
  | kilnBinningDone (u : Nat)
  /-- KILN_COMPOSITING_DONE (R330).  -/
  | kilnCompositingDone (u : Nat)
  /-- KILN_BACKWARD_DONE (R322): reduced gradients, valid pixels and loss of the view -/
  | kilnBackwardDone (u : Nat)
  /-- KILN_COMMIT (R324): for each primitive that splits, the offset of one standard deviation along its largest axis (FP32) -/
  | kilnCommit (m : Nat)
  /-- REFINE_JOB_DONE (R326).  -/
  | refineJobDone (m : Nat)
  /-- ACTIVE_SET_UPDATE (R327).  -/
  | activeSetUpdate (m : Nat)
  /-- BLOCK_LOAD_DONE (R327).  -/
  | blockLoadDone (m b : Nat)
  /-- BLOCK_EVICT (R327).  -/
  | blockEvict (m : Nat)
  /-- KILN_RELOC_DONE (R329).  -/
  | kilnRelocDone
  /-- NODE_READ_RETURN (R342): walk w -/
  | nodeReadReturn (w node : Nat)
  /-- CASK_QUERY_DEADLINE (R342).  -/
  | caskQueryDeadline (w : Nat)
  /-- CASK_QUERY_DONE (R351).  -/
  | caskQueryDone (w : Nat)
  /-- CASK_INSERT (R346): the next request of insert queue q -/
  | caskInsert (q : Nat)
  /-- CASK_DELETE (R347).  -/
  | caskDelete (q : Nat)
  /-- CASK_REPLACE (R346).  -/
  | caskReplace (q : Nat)
  /-- CASK_COMPACT_NODE (R348): the next node of index i, or of the replica of index i − 8 -/
  | caskCompactNode (i : Nat)
  /-- SHARD_ANSWER_RX (R354): the answer to the query tag -/
  | shardAnswerRx (tag : Nat) (a : ShardAns)
  /-- SHARD_MERGE_TIMEOUT (R354).  -/
  | shardMergeTimeout (tag : Nat)
  /-- REG_WRITE (R6): BAR0 address and value; the rows below are for the writes they name -/
  | regWrite (addr v : Nat)
  /-- EVENT_BITS_CLEAR (R7): same: the bits that the part sets in the same clock -/
  | eventBitsClear (addr v same : Nat)
  /-- BL_REGISTER_WRITE (R51).  -/
  | blRegisterWrite (addr v : Nat)
  /-- REG64_LO_WRITE (R9).  -/
  | reg64LoWrite (addr v : Nat)
  /-- REG64_HI_WRITE (R9).  -/
  | reg64HiWrite (addr v : Nat)
  /-- REG64_LO_READ (R9): a read of BAR0; the row names a pair's _LO half -/
  | reg64LoRead (addr : Nat)
  /-- TIME_NOW_CAPTURE (R60).  -/
  | timeNowCapture (fn : Nat)
  /-- BAR0_BAD_ACCESS (R392).  -/
  | bar0BadAccess (write : Bool) (addr len v : Nat)
  /-- MSIX_TABLE_WRITE (R392).  -/
  | msixTableWrite (fn off v : Nat)
  /-- HST_RING_RD_WRITE (R399).  -/
  | hstRingRdWrite (n seq : Nat)
  /-- RING_RECORD_COPY (R395): the oldest uncopied record of a kind and source (Table 14-6) -/
  | ringRecordCopy (kind source : Nat)
  /-- RING_IRQ_TIMER (R405).  -/
  | ringIrqTimer (n : Nat)
  /-- HOLD_RELEASE (R398).  -/
  | holdRelease
  /-- SLOT_REQUEST_WRITE (R402): function, slot, offset in the request area -/
  | slotRequestWrite (fn n off : Nat) (bytes : List Byte)
  /-- SLOT_POST (R402).  -/
  | slotPost (fn n : Nat)
  /-- SLOT_RELEASE (R402).  -/
  | slotRelease (fn n : Nat)
  /-- BAR4_READ (R400): function, BAR4 offset, bytes -/
  | bar4Read (fn off len : Nat)
  /-- BAR4_SLOW (R401): the read of function fn at BAR4 offset off -/
  | bar4Slow (fn off : Nat)
  /-- MBX_STATUS (R404).  -/
  | mbxStatus (tag : Nat)
  /-- MBX_ATTEST (R446).  -/
  | mbxAttest (tag : Nat)
  /-- MBX_SESSION_START (R229).  -/
  | mbxSessionStart (tag : Nat)
  /-- MBX_SESSION_STOP (R229).  -/
  | mbxSessionStop (tag : Nat)
  /-- MBX_SELFTEST (R376).  -/
  | mbxSelftest (tag : Nat)
  /-- MBX_STAGE_BEGIN (R447).  -/
  | mbxStageBegin (tag : Nat)
  /-- MBX_STAGE_DATA (R447): dma: whether the host memory has come within TIMEOUT_MS -/
  | mbxStageData (tag : Nat) (dma : Bool)
  /-- MBX_STAGE_END (R448).  -/
  | mbxStageEnd (tag : Nat)
  /-- MBX_STAGE_ABORT (R447).  -/
  | mbxStageAbort (tag : Nat)
  /-- MBX_ACTIVATE (R449).  -/
  | mbxActivate (tag : Nat)
  /-- MBX_BAD_COMMAND (R404).  -/
  | mbxBadCommand (tag : Nat)
  /-- MBX_DMA_TIMEOUT (R404).  -/
  | mbxDmaTimeout
  /-- STAGE_ERASE_DONE (R447).  -/
  | stageEraseDone
  /-- STAGE_DATA_DONE (R447).  -/
  | stageDataDone
  /-- STAGE_VERIFY_DONE (R448): what the staging area holds, read back -/
  | stageVerifyDone (o : Staged)
  /-- ACTIVATE_COPY_DONE (R449): whether the slot reads back against its digests -/
  | activateCopyDone (ok : Bool)
  /-- PF_RESET (R406).  -/
  | pfReset
  /-- VF_FLR (R406).  -/
  | vfFlr (fn : Nat)
  /-- ARP_REQUEST_RX (R407): the address asked for and the asker -/
  | arpRequestRx (port target sender : Nat)
  /-- ICMP_ECHO_RX (R407).  -/
  | icmpEchoRx (port dst src : Nat) (payload : List Byte)
  /-- ARP_RETRY (R407).  -/
  | arpRetry (port ip : Nat)
  /-- TILE_REQ_DENSE (R411).  -/
  | tileReqDense (r : TileReq)
  /-- TILE_REQ_DIRECTORY (R411).  -/
  | tileReqDirectory (r : TileReq)
  /-- TILE_REQ_LANDMARK (R411).  -/
  | tileReqLandmark (r : TileReq)
  /-- POSE_STREAM_SEND (R409).  -/
  | poseStreamSend (n : Nat)
  /-- POSE_BATCH_TIMEOUT (R409).  -/
  | poseBatchTimeout (n : Nat)
  /-- STREAM_HEARTBEAT (R409).  -/
  | streamHeartbeat (n : Nat)
  /-- LINK_BRINGUP_STEP (R421).  -/
  | linkBringupStep (port step : Nat) (x : LinkFind)
  /-- HELLO_RX (R414): the peer's identity, port, part and cascade digest; dup: the identity has joined elsewhere -/
  | helloRx (port id peer part digest : Nat) (dup : Bool)
  /-- LINK_STEP_LIMIT (R421).  -/
  | linkStepLimit (port : Nat)
  /-- LINK_RETRAIN (R421).  -/
  | linkRetrain (port : Nat)
  /-- HEARTBEAT_TX (R424).  -/
  | heartbeatTx
  /-- HEARTBEAT_RX (R424).  -/
  | heartbeatRx (h : FrameHdr) (reach : Nat)
  /-- RAMHEL_CONTROL_RX (R431).  -/
  | ramhelControlRx (h : FrameHdr) (c : Ctl)
  /-- RAMHEL_TIME_RX (R427): device time of the master in 2^-16 ns, its time state, residence and link delay so far in ns; the frequency correction the servo gives (ppt) -/
  | ramhelTimeRx (h : FrameHdr) (dev state corr : Nat) (ppt : Int)
  /-- RAMHEL_TALLY_RX (R428).  -/
  | ramhelTallyRx (h : FrameHdr) (e2e index amount : Nat) (stamp : Option Nat)
  /-- RAMHEL_MSG_RX (R419).  -/
  | ramhelMsgRx (h : FrameHdr) (e2e cls : Nat) (m : Msg)
  /-- RAMHEL_PAGE_RX (R419).  -/
  | ramhelPageRx (h : FrameHdr) (e2e cls addr : Nat) (bytes : List Byte)
  /-- RAMHEL_E2E_ACK_RX (R419).  -/
  | ramhelE2eAckRx (h : FrameHdr) (cls e2e : Nat)
  /-- LINK_RETRY_TIMEOUT (R417).  -/
  | linkRetryTimeout (port : Nat)
  /-- TIME_TX (R427).  -/
  | timeTx
  /-- LINK_SILENCE (R423).  -/
  | linkSilence (port : Nat)
  /-- MEMBER_UNREACHABLE (R424).  -/
  | memberUnreachable (id : Nat)
  /-- MASTER_TAKEOVER (R425).  -/
  | masterTakeover
  /-- MEMBER_ISOLATED (R425).  -/
  | memberIsolated
  /-- TIME_FRAME_LOSS (R427).  -/
  | timeFrameLoss
  /-- RESYNC_DONE (R431).  -/
  | resyncDone (id : Nat)
  /-- LASER_INPUT_LOW (R435).  -/
  | laserInputLow (port input dbm : Nat)
  /-- HANDOVER_LOAD_DONE (R450): whether every section verified again -/
  | handoverLoadDone (ok : Bool)
  /-- STANDBY_BOOT_DONE (R450).  -/
  | standbyBootDone
  /-- HANDOVER_TAKE (R450).  -/
  | handoverTake
  /-- CORE_RELOAD_DONE (R450).  -/
  | coreReloadDone (core : Nat) (pass : Bool)
  /-- GROUP_UNIT_RELOAD (R451).  -/
  | groupUnitReload (cls : Nat)
  /-- ROLLOUT_LIMIT (R453).  -/
  | rolloutLimit
  /-- JTAG_PRIVATE_INSTRUCTION (R441).  -/
  | jtagPrivateInstruction
  /-- PPS_INPUT_LOST (R69).  -/
  | ppsInputLost
  /-- CSI2_LANE_SYNC_LOSS (R83).  -/
  | csi2LaneSyncLoss (port lane : Nat)
  /-- CAN_BUS_ERROR (R106): a transmit or a receive error; dominant: a dominant bit after the error flag (receive) or during it (transmit); kind: 1 an
ACK error, 2 a stuff error in arbitration at a recessive bit read as dominant, 0 any other (ISO 11898-1) -/
  | canBusError (ctl : Nat) (tx dominant : Bool) (kind : Nat)
  /-- DDR_RETRAIN_DONE (R212).  -/
  | ddrRetrainDone (ch : Nat)
  /-- CELLAR_RESET_DONE (R214).  -/
  | cellarResetDone
  /-- ARP_REPLY_RX (R407).  -/
  | arpReplyRx (port ip mac : Nat)
  /-- UNCORRECTABLE_CODEWORD (R423).  -/
  | uncorrectableCodeword (port : Nat)
  /-- PCIE_POWER_STATE_CHANGE (R389): to D3hot, or to D0 -/
  | pciePowerStateChange (fn : Nat) (d3 : Bool)
deriving DecidableEq, Repr

end Sys2Proof
end

