-- ==== Sys2Proof/Decode.lean ====
section
/-!
DEFINITION. The words that spell commands: none. Every row of opcode_table.json has an empty list of bit fields, since the part takes
operations and events and no instruction words.
-/

namespace Sys2Proof

/-- The command that a word spells by the table's bits: none, for no row of the table gives bits. -/
def decodeTableWord (_nbits _w : Nat) : Option Instr := none

end Sys2Proof
end

