-- ==== Sys2Proof/Machine/Bits.lean ====
section
/-!
DEFINITION. Byte order (R5), bit fields, sign extension and saturation: the helpers every meaning uses.
-/

namespace Sys2Proof

/-- `n` bytes of `v`, lowest byte first (R5). -/
def leBytes : Nat → Nat → List Byte
  | 0, _ => []
  | n + 1, v => byteOf v :: leBytes n (v / 256)

/-- The value of a byte list, lowest byte first (R5). -/
def leValue : List Byte → Nat
  | [] => 0
  | b :: bs => b.toNat + 256 * leValue bs

/-- The value of a byte list, highest byte first (network order, where a statement names a standard that fixes it). -/
def beValue (bs : List Byte) : Nat := bs.foldl (fun a b => a * 256 + b.toNat) 0

/-- `n` zero bytes. -/
def zeroBytes (n : Nat) : List Byte := List.replicate n 0#8

/-- A byte list cut or zero-padded to `n` bytes. -/
def fitBytes (n : Nat) (bs : List Byte) : List Byte := (bs ++ zeroBytes n).take n

/-- The bits `hi` to `lo` of a number. -/
def bitsOf (v hi lo : Nat) : Nat := v / 2 ^ lo % 2 ^ (hi - lo + 1)

/-- Bit `n` of a number. -/
def bitOf (v n : Nat) : Bool := v / 2 ^ n % 2 == 1

/-- One for true. -/
def b2n (b : Bool) : Nat := if b then 1 else 0

/-- Two's complement reading of the low `w` bits. -/
def sgn (w v : Nat) : Int :=
  let u := v % 2 ^ w
  if u < 2 ^ (w - 1) then (u : Int) else (u : Int) - (2 ^ w : Nat)

/-- Two's complement coding in `w` bits. -/
def uns (w : Nat) (i : Int) : Nat := (i % ((2 ^ w : Nat) : Int)).toNat

/-- An integer held to the range of `w` signed bits. -/
def satS (w : Nat) (i : Int) : Int :=
  let m : Int := ((2 ^ (w - 1) : Nat) : Int)
  if i < -m then -m else if i > m - 1 then m - 1 else i

/-- A number held to `w` unsigned bits. -/
def satU (w v : Nat) : Nat := if v < 2 ^ w then v else 2 ^ w - 1

/-- An integer held to the range of `w` unsigned bits. -/
def clampU (w : Nat) (i : Int) : Nat := if i < 0 then 0 else satU w i.toNat

/-- The quotient rounded up. -/
def ceilDiv (a b : Nat) : Nat := (a + b - 1) / b

/-- How many bits of the low `n` are set. -/
def popCount : Nat → Nat → Nat
  | 0, _ => 0
  | n + 1, v => v % 2 + popCount n (v / 2)

/-- The number with bit `n` set. -/
def setBit (v n : Nat) : Nat := v ||| 2 ^ n

/-- The number with bit `n` clear. -/
def clrBit (v n : Nat) : Nat := if bitOf v n then v - 2 ^ n else v

/-- The number with bit `n` as `b` says. -/
def putBit (v n : Nat) (b : Bool) : Nat := if b then setBit v n else clrBit v n

/-- Element `i` of a list, or `d` past its end. -/
def nth (d : α) : List α → Nat → α
  | [], _ => d
  | x :: _, 0 => x
  | _ :: xs, i + 1 => nth d xs i

/-- The list with element `i` replaced (unchanged past its end). -/
def setNth : List α → Nat → α → List α
  | [], _, _ => []
  | _ :: xs, 0, v => v :: xs
  | x :: xs, i + 1, v => x :: setNth xs i v

/-- The sum of a list of numbers. -/
def sumN (l : List Nat) : Nat := l.foldl (· + ·) 0

/-- The sum of a list of integers. -/
def sumZ (l : List Int) : Int := l.foldl (· + ·) 0

/-- Integer division rounding to nearest, halves to even. -/
def rneDiv (a : Int) (b : Nat) : Int :=
  let q := a / (b : Int)
  let r := (a % (b : Int)).toNat
  if 2 * r < b then q else if 2 * r > b then q + 1 else if q % 2 = 0 then q else q + 1

/-- Integer division rounding to nearest, halves upward. -/
def rhuDiv (a : Int) (b : Nat) : Int := (2 * a + b) / (2 * b : Int)

/-- Insertion of `x` into a list sorted by `lt`, after its equals. -/
def insertBy (lt : α → α → Bool) (x : α) : List α → List α
  | [] => [x]
  | y :: ys => if lt x y then x :: y :: ys else y :: insertBy lt x ys

/-- A stable sort by `lt`. -/
def sortBy (lt : α → α → Bool) (l : List α) : List α := l.foldl (fun acc x => insertBy lt x acc) []

/-- The first element for which no other is before it by `lt`. -/
def bestBy (lt : α → α → Bool) : List α → Option α
  | [] => none
  | x :: xs => some (xs.foldl (fun b y => if lt y b then y else b) x)

/-- CRC-32C: one bit, and over bytes. -/
def crcBit (c : Nat) : Nat := if c % 2 = 1 then (c / 2) ^^^ 0x82F63B78 else c / 2
def crc32c (bs : List Byte) : Nat :=
  (bs.foldl (fun c b => (List.range 8).foldl (fun c _ => crcBit c) (c ^^^ b.toNat)) 0xFFFFFFFF) ^^^ 0xFFFFFFFF

/-! ## Fractions -/

/-- The sum of two fractions, reduced. -/
def addFrac (a b : Nat × Nat) : Nat × Nat :=
  let n := a.1 * b.2 + b.1 * a.2
  let d := a.2 * b.2
  let g := Nat.max 1 (Nat.gcd n d)
  (n / g, d / g)

/-- Whether a ≤ b. -/
def leFrac (a b : Nat × Nat) : Bool := decide (a.1 * b.2 ≤ b.1 * a.2)

end Sys2Proof
end

