-- ==== Sys2Proof/Machine/RegMap.lean ====
section
/-!
DEFINITION. The register map: one descriptor per register of the spec's register tables (BAR0 address, array strides and counts,
reset word, and which bits a host write reaches by type, Table 0-4), and one field descriptor per named field.
-/

namespace Sys2Proof.Machine

/-- A register, or an array of registers: instance `i` (and inner element `j`) lies at `base + stride * i + stride2 * j` of
BAR0. `rw`, `w1c`, `wo`, `bl` and `otp` hold the bits of each access type of Table 0-4; every other bit is RO or reserved. `ix` is its place among
all registers. -/
structure Reg where
  base : Nat
  stride : Nat
  count : Nat
  stride2 : Nat
  count2 : Nat
  reset : Nat
  rw : Nat
  w1c : Nat
  wo : Nat
  bl : Nat
  otp : Nat
  ix : Nat
deriving DecidableEq, Repr

/-- A named field: bits `hi` to `lo` of a register. -/
structure Fld where
  reg : Reg
  hi : Nat
  lo : Nat
deriving DecidableEq, Repr

/-- The BAR0 address of an instance; indexes count modulo the array's size, so that no index leaves the register's own array. -/
def Reg.addr (r : Reg) (i j : Nat) : Nat := r.base + r.stride * (i % r.count) + r.stride2 * (j % r.count2)

/-! Table 2-12. -/

def R.BOOT_STATUS : Reg := ⟨0x100000, 0x0, 1, 0, 1, 0xFFC0, 0x0, 0x0, 0x0, 0x0, 0x0, 4⟩
def F.BOOT_STATUS_STAGE : Fld := ⟨R.BOOT_STATUS, 31, 28⟩
def F.BOOT_STATUS_ERROR : Fld := ⟨R.BOOT_STATUS, 23, 16⟩
def F.BOOT_STATUS_SECTION : Fld := ⟨R.BOOT_STATUS, 15, 8⟩
def F.BOOT_STATUS_SLOT : Fld := ⟨R.BOOT_STATUS, 7, 6⟩
def F.BOOT_STATUS_RECOVERY : Fld := ⟨R.BOOT_STATUS, 5, 5⟩
def F.BOOT_STATUS_TRAIN_CACHED : Fld := ⟨R.BOOT_STATUS, 4, 4⟩
def F.BOOT_STATUS_MIGRATED : Fld := ⟨R.BOOT_STATUS, 3, 3⟩
def F.BOOT_STATUS_FIT_REDUCED : Fld := ⟨R.BOOT_STATUS, 2, 2⟩
def F.BOOT_STATUS_DEGRADED : Fld := ⟨R.BOOT_STATUS, 1, 1⟩
def F.BOOT_STATUS_RUNNING : Fld := ⟨R.BOOT_STATUS, 0, 0⟩
def R.BOOT_MISSING : Reg := ⟨0x100004, 0x0, 1, 0, 1, 0x0, 0x0, 0x0, 0x0, 0x0, 0x0, 5⟩
def F.BOOT_MISSING_UNIT : Fld := ⟨R.BOOT_MISSING, 15, 8⟩
def F.BOOT_MISSING_NEEDED : Fld := ⟨R.BOOT_MISSING, 7, 0⟩
def R.BOOT_IMAGE_SEQ_LO : Reg := ⟨0x100008, 0x0, 1, 0, 1, 0x0, 0x0, 0x0, 0x0, 0x0, 0x0, 6⟩
def F.BOOT_IMAGE_SEQ_LO_SEQ : Fld := ⟨R.BOOT_IMAGE_SEQ_LO, 31, 0⟩
def R.BOOT_IMAGE_SEQ_HI : Reg := ⟨0x10000C, 0x0, 1, 0, 1, 0x0, 0x0, 0x0, 0x0, 0x0, 0x0, 7⟩
def F.BOOT_IMAGE_SEQ_HI_SEQ : Fld := ⟨R.BOOT_IMAGE_SEQ_HI, 31, 0⟩
def R.BOOT_IMAGE_VER : Reg := ⟨0x100010, 0x0, 1, 0, 1, 0x0, 0x0, 0x0, 0x0, 0x0, 0x0, 8⟩
def F.BOOT_IMAGE_VER_CONTAINER : Fld := ⟨R.BOOT_IMAGE_VER, 31, 16⟩
def F.BOOT_IMAGE_VER_SECURITY : Fld := ⟨R.BOOT_IMAGE_VER, 7, 0⟩
def R.BOOT_TIME : Reg := ⟨0x100020, 0x4, 7, 0, 1, 0x0, 0x0, 0x0, 0x0, 0x0, 0x0, 9⟩
def F.BOOT_TIME_MS : Fld := ⟨R.BOOT_TIME, 31, 0⟩
def R.BOOT_FIT : Reg := ⟨0x100040, 0x0, 1, 0, 1, 0x10000, 0x0, 0x0, 0x0, 0x0, 0x0, 10⟩
def F.BOOT_FIT_RATE : Fld := ⟨R.BOOT_FIT, 16, 0⟩
def R.BOOT_SPILL : Reg := ⟨0x100044, 0x0, 1, 0, 1, 0x0, 0x0, 0x0, 0x0, 0x0, 0x0, 11⟩
def F.BOOT_SPILL_MIB : Fld := ⟨R.BOOT_SPILL, 31, 0⟩
def R.BOOT_SLOTS : Reg := ⟨0x100050, 0x0, 1, 0, 1, 0x0, 0x0, 0x0, 0x0, 0x0, 0x0, 12⟩
def F.BOOT_SLOTS_B_STATE : Fld := ⟨R.BOOT_SLOTS, 15, 13⟩
def F.BOOT_SLOTS_B_TRIALS : Fld := ⟨R.BOOT_SLOTS, 12, 10⟩
def F.BOOT_SLOTS_A_STATE : Fld := ⟨R.BOOT_SLOTS, 7, 5⟩
def F.BOOT_SLOTS_A_TRIALS : Fld := ⟨R.BOOT_SLOTS, 4, 2⟩
def R.BOOT_FLASH : Reg := ⟨0x100054, 0x0, 1, 0, 1, 0x0, 0x0, 0x0, 0x0, 0x0, 0x0, 13⟩
def F.BOOT_FLASH_SIZE_MIB : Fld := ⟨R.BOOT_FLASH, 31, 16⟩
def F.BOOT_FLASH_MODE : Fld := ⟨R.BOOT_FLASH, 15, 8⟩
def F.BOOT_FLASH_REREADS : Fld := ⟨R.BOOT_FLASH, 7, 0⟩
def R.BOOT_MIG_COUNT : Reg := ⟨0x100058, 0x0, 1, 0, 1, 0x0, 0x0, 0x0, 0x0, 0x0, 0x0, 14⟩
def F.BOOT_MIG_COUNT_COUNT : Fld := ⟨R.BOOT_MIG_COUNT, 6, 0⟩
def R.BOOT_OTP_SVC : Reg := ⟨0x100060, 0x0, 1, 0, 1, 0x0, 0x0, 0x0, 0x0, 0x0, 0x7F, 15⟩
def F.BOOT_OTP_SVC_COUNTER : Fld := ⟨R.BOOT_OTP_SVC, 6, 0⟩
def R.BOOT_OTP_KEYS : Reg := ⟨0x100064, 0x0, 1, 0, 1, 0x0, 0x0, 0x0, 0x0, 0x0, 0xFF, 16⟩
def F.BOOT_OTP_KEYS_SLOTS : Fld := ⟨R.BOOT_OTP_KEYS, 7, 0⟩
def R.BOOT_OTP_DEBUG : Reg := ⟨0x100068, 0x0, 1, 0, 1, 0x0, 0x0, 0x0, 0x0, 0x0, 0x1, 17⟩
def F.BOOT_OTP_DEBUG_LOCKED : Fld := ⟨R.BOOT_OTP_DEBUG, 0, 0⟩
def R.BOOT_OTP_CASCADE : Reg := ⟨0x10006C, 0x0, 1, 0, 1, 0x0, 0x0, 0x0, 0x0, 0x0, 0xF1F, 18⟩
def F.BOOT_OTP_CASCADE_USED : Fld := ⟨R.BOOT_OTP_CASCADE, 11, 8⟩
def F.BOOT_OTP_CASCADE_VALID : Fld := ⟨R.BOOT_OTP_CASCADE, 4, 4⟩
def F.BOOT_OTP_CASCADE_ID : Fld := ⟨R.BOOT_OTP_CASCADE, 3, 0⟩
def R.BOOT_OTP_RETIRE : Reg := ⟨0x100070, 0x0, 1, 0, 1, 0x0, 0x0, 0x0, 0x0, 0x0, 0x3F, 19⟩
def F.BOOT_OTP_RETIRE_USED : Fld := ⟨R.BOOT_OTP_RETIRE, 5, 0⟩
def R.BOOT_SESSION_AUTO : Reg := ⟨0x100080, 0x0, 1, 0, 1, 0x0, 0x0, 0x0, 0x0, 0xFFFFFFFF, 0x0, 20⟩
def F.BOOT_SESSION_AUTO_MASK : Fld := ⟨R.BOOT_SESSION_AUTO, 31, 0⟩
def R.BOOT_SESSION_HOST : Reg := ⟨0x100084, 0x0, 1, 0, 1, 0x0, 0x0, 0x0, 0x0, 0xFFFFFFFF, 0x0, 21⟩
def F.BOOT_SESSION_HOST_MASK : Fld := ⟨R.BOOT_SESSION_HOST, 31, 0⟩
def R.BOOT_PTP_WAIT : Reg := ⟨0x100088, 0x0, 1, 0, 1, 0x3E8, 0x0, 0x0, 0x0, 0xFFFFFFFF, 0x0, 22⟩
def F.BOOT_PTP_WAIT_MS : Fld := ⟨R.BOOT_PTP_WAIT, 31, 0⟩
def R.BOOT_EVT : Reg := ⟨0x1000C0, 0x0, 1, 0, 1, 0x0, 0x0, 0x3F, 0x0, 0x0, 0x0, 23⟩
def F.BOOT_EVT_ACCESS : Fld := ⟨R.BOOT_EVT, 5, 5⟩
def F.BOOT_EVT_OTP : Fld := ⟨R.BOOT_EVT, 4, 4⟩
def F.BOOT_EVT_TRAIN_WRITTEN : Fld := ⟨R.BOOT_EVT, 3, 3⟩
def F.BOOT_EVT_MIG_WRITTEN : Fld := ⟨R.BOOT_EVT, 2, 2⟩
def F.BOOT_EVT_SLOT_REJECTED : Fld := ⟨R.BOOT_EVT, 1, 1⟩
def F.BOOT_EVT_STAGE : Fld := ⟨R.BOOT_EVT, 0, 0⟩
/-! Table 3-6. -/

def R.TIME_STATUS : Reg := ⟨0x200000, 0x0, 1, 0, 1, 0x0, 0x0, 0x0, 0x0, 0x0, 0x0, 24⟩
def F.TIME_STATUS_STEPPED : Fld := ⟨R.TIME_STATUS, 7, 7⟩
def F.TIME_STATUS_PPS_OK : Fld := ⟨R.TIME_STATUS, 6, 6⟩
def F.TIME_STATUS_REF10M_OK : Fld := ⟨R.TIME_STATUS, 5, 5⟩
def F.TIME_STATUS_SEC_LOCKED : Fld := ⟨R.TIME_STATUS, 4, 4⟩
def F.TIME_STATUS_PRI_LOCKED : Fld := ⟨R.TIME_STATUS, 3, 3⟩
def F.TIME_STATUS_SELECTED : Fld := ⟨R.TIME_STATUS, 2, 2⟩
def F.TIME_STATUS_STATE : Fld := ⟨R.TIME_STATUS, 1, 0⟩
def R.TIME_NOW_SEC_LO : Reg := ⟨0x200010, 0x0, 1, 0, 1, 0x0, 0x0, 0x0, 0x0, 0x0, 0x0, 25⟩
def F.TIME_NOW_SEC_LO_SEC : Fld := ⟨R.TIME_NOW_SEC_LO, 31, 0⟩
def R.TIME_NOW_SEC_HI : Reg := ⟨0x200014, 0x0, 1, 0, 1, 0x0, 0x0, 0x0, 0x0, 0x0, 0x0, 26⟩
def F.TIME_NOW_SEC_HI_SEC : Fld := ⟨R.TIME_NOW_SEC_HI, 31, 0⟩
def R.TIME_NOW_NS : Reg := ⟨0x200018, 0x0, 1, 0, 1, 0x0, 0x0, 0x0, 0x0, 0x0, 0x0, 27⟩
def F.TIME_NOW_NS_NS : Fld := ⟨R.TIME_NOW_NS, 31, 0⟩
def R.TIME_NOW_FRAC : Reg := ⟨0x20001C, 0x0, 1, 0, 1, 0x0, 0x0, 0x0, 0x0, 0x0, 0x0, 28⟩
def F.TIME_NOW_FRAC_FRAC : Fld := ⟨R.TIME_NOW_FRAC, 15, 0⟩
def R.TIME_RATE : Reg := ⟨0x200020, 0x0, 1, 0, 1, 0x0, 0x0, 0x0, 0x0, 0x0, 0x0, 29⟩
def F.TIME_RATE_PPT : Fld := ⟨R.TIME_RATE, 31, 0⟩
def R.TIME_SLEW_REMAIN : Reg := ⟨0x200024, 0x0, 1, 0, 1, 0x0, 0x0, 0x0, 0x0, 0x0, 0x0, 30⟩
def F.TIME_SLEW_REMAIN_NS : Fld := ⟨R.TIME_SLEW_REMAIN, 31, 0⟩
def R.TIME_HOLD_ERR : Reg := ⟨0x200028, 0x0, 1, 0, 1, 0xFFFFFFFF, 0x0, 0x0, 0x0, 0x0, 0x0, 31⟩
def F.TIME_HOLD_ERR_NS : Fld := ⟨R.TIME_HOLD_ERR, 31, 0⟩
def R.TIME_UTC : Reg := ⟨0x20002C, 0x0, 1, 0, 1, 0x0, 0x0, 0x0, 0x0, 0x0, 0x0, 32⟩
def F.TIME_UTC_LEAP59 : Fld := ⟨R.TIME_UTC, 18, 18⟩
def F.TIME_UTC_LEAP61 : Fld := ⟨R.TIME_UTC, 17, 17⟩
def F.TIME_UTC_VALID : Fld := ⟨R.TIME_UTC, 16, 16⟩
def F.TIME_UTC_OFFSET : Fld := ⟨R.TIME_UTC, 15, 0⟩
def R.TIME_PPS_OFFSET : Reg := ⟨0x200030, 0x0, 1, 0, 1, 0x0, 0x0, 0x0, 0x0, 0x0, 0x0, 33⟩
def F.TIME_PPS_OFFSET_NS : Fld := ⟨R.TIME_PPS_OFFSET, 31, 0⟩
def R.TIME_SWITCH_COUNT : Reg := ⟨0x200034, 0x0, 1, 0, 1, 0x0, 0x0, 0x0, 0x0, 0x0, 0x0, 34⟩
def F.TIME_SWITCH_COUNT_COUNT : Fld := ⟨R.TIME_SWITCH_COUNT, 31, 0⟩
def R.TIME_D_CFG : Reg := ⟨0x200040, 0x40, 2, 0, 1, 0xD0030000, 0x0, 0x0, 0x0, 0xFFF3FFFF, 0x0, 35⟩
def F.TIME_D_CFG_LOG_DELAY : Fld := ⟨R.TIME_D_CFG, 31, 28⟩
def F.TIME_D_CFG_LOG_ANNOUNCE : Fld := ⟨R.TIME_D_CFG, 27, 24⟩
def F.TIME_D_CFG_LOG_SYNC : Fld := ⟨R.TIME_D_CFG, 23, 20⟩
def F.TIME_D_CFG_ANN_TIMEOUT : Fld := ⟨R.TIME_D_CFG, 17, 16⟩
def F.TIME_D_CFG_ENABLE : Fld := ⟨R.TIME_D_CFG, 15, 15⟩
def F.TIME_D_CFG_HYBRID : Fld := ⟨R.TIME_D_CFG, 14, 14⟩
def F.TIME_D_CFG_PORT_MASK : Fld := ⟨R.TIME_D_CFG, 13, 10⟩
def F.TIME_D_CFG_PROFILE : Fld := ⟨R.TIME_D_CFG, 9, 8⟩
def F.TIME_D_CFG_DOMAIN : Fld := ⟨R.TIME_D_CFG, 7, 0⟩
def R.TIME_D_QUAL : Reg := ⟨0x200044, 0x40, 2, 0, 1, 0x7F, 0x0, 0x0, 0x0, 0xFF, 0x0, 36⟩
def F.TIME_D_QUAL_CLASS_MAX : Fld := ⟨R.TIME_D_QUAL, 7, 0⟩
def R.TIME_D_STATUS : Reg := ⟨0x200048, 0x40, 2, 0, 1, 0xFF00, 0x0, 0x0, 0x0, 0x0, 0x0, 37⟩
def F.TIME_D_STATUS_STEPS : Fld := ⟨R.TIME_D_STATUS, 23, 16⟩
def F.TIME_D_STATUS_CLASS : Fld := ⟨R.TIME_D_STATUS, 15, 8⟩
def F.TIME_D_STATUS_PORT : Fld := ⟨R.TIME_D_STATUS, 5, 4⟩
def F.TIME_D_STATUS_STATE : Fld := ⟨R.TIME_D_STATUS, 1, 0⟩
def R.TIME_D_GMID_LO : Reg := ⟨0x20004C, 0x40, 2, 0, 1, 0x0, 0x0, 0x0, 0x0, 0x0, 0x0, 38⟩
def F.TIME_D_GMID_LO_ID : Fld := ⟨R.TIME_D_GMID_LO, 31, 0⟩
def R.TIME_D_GMID_HI : Reg := ⟨0x200050, 0x40, 2, 0, 1, 0x0, 0x0, 0x0, 0x0, 0x0, 0x0, 39⟩
def F.TIME_D_GMID_HI_ID : Fld := ⟨R.TIME_D_GMID_HI, 31, 0⟩
def R.TIME_D_OFFSET_LO : Reg := ⟨0x200054, 0x40, 2, 0, 1, 0x0, 0x0, 0x0, 0x0, 0x0, 0x0, 40⟩
def F.TIME_D_OFFSET_LO_NS : Fld := ⟨R.TIME_D_OFFSET_LO, 31, 0⟩
def R.TIME_D_OFFSET_HI : Reg := ⟨0x200058, 0x40, 2, 0, 1, 0x0, 0x0, 0x0, 0x0, 0x0, 0x0, 41⟩
def F.TIME_D_OFFSET_HI_NS : Fld := ⟨R.TIME_D_OFFSET_HI, 31, 0⟩
def R.TIME_D_MPD : Reg := ⟨0x20005C, 0x40, 2, 0, 1, 0x0, 0x0, 0x0, 0x0, 0x0, 0x0, 42⟩
def F.TIME_D_MPD_NS : Fld := ⟨R.TIME_D_MPD, 31, 0⟩
def R.TIME_D_LOSS_COUNT : Reg := ⟨0x200060, 0x40, 2, 0, 1, 0x0, 0x0, 0x0, 0x0, 0x0, 0x0, 43⟩
def F.TIME_D_LOSS_COUNT_COUNT : Fld := ⟨R.TIME_D_LOSS_COUNT, 31, 0⟩
def R.TIME_SWITCH_CFG : Reg := ⟨0x2000C0, 0x0, 1, 0, 1, 0x1000A, 0x0, 0x0, 0x0, 0x1FFFF, 0x0, 44⟩
def F.TIME_SWITCH_CFG_REVERTIVE : Fld := ⟨R.TIME_SWITCH_CFG, 16, 16⟩
def F.TIME_SWITCH_CFG_HOLDOFF_S : Fld := ⟨R.TIME_SWITCH_CFG, 15, 0⟩
def R.TIME_HOLD_CFG : Reg := ⟨0x2000C4, 0x0, 1, 0, 1, 0x258, 0x0, 0x0, 0x0, 0x3FFFFFF, 0x0, 45⟩
def F.TIME_HOLD_CFG_USE_PPS : Fld := ⟨R.TIME_HOLD_CFG, 25, 25⟩
def F.TIME_HOLD_CFG_USE_10M : Fld := ⟨R.TIME_HOLD_CFG, 24, 24⟩
def F.TIME_HOLD_CFG_LIMIT_S : Fld := ⟨R.TIME_HOLD_CFG, 23, 0⟩
def R.TIME_EVT : Reg := ⟨0x2000F0, 0x0, 1, 0, 1, 0x0, 0x0, 0x3FF, 0x0, 0x0, 0x0, 46⟩
def F.TIME_EVT_OFFSET_STATE : Fld := ⟨R.TIME_EVT, 9, 9⟩
def F.TIME_EVT_LEAP : Fld := ⟨R.TIME_EVT, 8, 8⟩
def F.TIME_EVT_REF_LOST : Fld := ⟨R.TIME_EVT, 7, 7⟩
def F.TIME_EVT_OVERRUN : Fld := ⟨R.TIME_EVT, 6, 6⟩
def F.TIME_EVT_HELD : Fld := ⟨R.TIME_EVT, 5, 5⟩
def F.TIME_EVT_SLIP : Fld := ⟨R.TIME_EVT, 4, 4⟩
def F.TIME_EVT_FREE_RUN : Fld := ⟨R.TIME_EVT, 3, 3⟩
def F.TIME_EVT_HOLDOVER : Fld := ⟨R.TIME_EVT, 2, 2⟩
def F.TIME_EVT_SWITCH : Fld := ⟨R.TIME_EVT, 1, 1⟩
def F.TIME_EVT_LOCK : Fld := ⟨R.TIME_EVT, 0, 0⟩
/-! Table 3-7. -/

def R.TIME_TRIG_CTL : Reg := ⟨0x200400, 0x20, 48, 0, 1, 0x0, 0x0, 0x0, 0x0, 0xF, 0x0, 47⟩
def F.TIME_TRIG_CTL_TALLY_EN : Fld := ⟨R.TIME_TRIG_CTL, 3, 3⟩
def F.TIME_TRIG_CTL_WIDTH_EXPOSE : Fld := ⟨R.TIME_TRIG_CTL, 2, 2⟩
def F.TIME_TRIG_CTL_POLARITY : Fld := ⟨R.TIME_TRIG_CTL, 1, 1⟩
def F.TIME_TRIG_CTL_ENABLE : Fld := ⟨R.TIME_TRIG_CTL, 0, 0⟩
def R.TIME_TRIG_NUM : Reg := ⟨0x200404, 0x20, 48, 0, 1, 0x0, 0x0, 0x0, 0x0, 0xFFFFFFFF, 0x0, 48⟩
def F.TIME_TRIG_NUM_NUM : Fld := ⟨R.TIME_TRIG_NUM, 31, 0⟩
def R.TIME_TRIG_DEN : Reg := ⟨0x200408, 0x20, 48, 0, 1, 0x1, 0x0, 0x0, 0x0, 0xFFFF, 0x0, 49⟩
def F.TIME_TRIG_DEN_DEN : Fld := ⟨R.TIME_TRIG_DEN, 15, 0⟩
def R.TIME_TRIG_PHASE : Reg := ⟨0x20040C, 0x20, 48, 0, 1, 0x0, 0x0, 0x0, 0x0, 0xFFFFFFFF, 0x0, 50⟩
def F.TIME_TRIG_PHASE_NS : Fld := ⟨R.TIME_TRIG_PHASE, 31, 0⟩
def R.TIME_TRIG_WIDTH : Reg := ⟨0x200410, 0x20, 48, 0, 1, 0x64, 0x0, 0x0, 0x0, 0xFFFFFFFF, 0x0, 51⟩
def F.TIME_TRIG_WIDTH_NS : Fld := ⟨R.TIME_TRIG_WIDTH, 31, 0⟩
def R.TIME_TRIG_DELAY : Reg := ⟨0x200414, 0x20, 48, 0, 1, 0x0, 0x0, 0x0, 0x0, 0xFFFFFFFF, 0x0, 52⟩
def F.TIME_TRIG_DELAY_NS : Fld := ⟨R.TIME_TRIG_DELAY, 31, 0⟩
def R.TIME_TRIG_EXPOSE : Reg := ⟨0x200418, 0x20, 48, 0, 1, 0x0, 0x0, 0x0, 0x0, 0xFFFFFFFF, 0x0, 53⟩
def F.TIME_TRIG_EXPOSE_NS : Fld := ⟨R.TIME_TRIG_EXPOSE, 31, 0⟩
def R.TIME_TRIG_COUNT : Reg := ⟨0x20041C, 0x20, 48, 0, 1, 0x0, 0x0, 0x0, 0x0, 0x0, 0x0, 54⟩
def F.TIME_TRIG_COUNT_COUNT : Fld := ⟨R.TIME_TRIG_COUNT, 31, 0⟩
def R.TIME_CAP_CTL : Reg := ⟨0x200A00, 0x20, 16, 0, 1, 0x2, 0x0, 0x0, 0x0, 0xFF0F, 0x0, 55⟩
def F.TIME_CAP_CTL_FILTER : Fld := ⟨R.TIME_CAP_CTL, 15, 8⟩
def F.TIME_CAP_CTL_POLARITY : Fld := ⟨R.TIME_CAP_CTL, 3, 3⟩
def F.TIME_CAP_CTL_EDGE : Fld := ⟨R.TIME_CAP_CTL, 2, 1⟩
def F.TIME_CAP_CTL_ENABLE : Fld := ⟨R.TIME_CAP_CTL, 0, 0⟩
def R.TIME_CAP_SEC_LO : Reg := ⟨0x200A04, 0x20, 16, 0, 1, 0x0, 0x0, 0x0, 0x0, 0x0, 0x0, 56⟩
def F.TIME_CAP_SEC_LO_SEC : Fld := ⟨R.TIME_CAP_SEC_LO, 31, 0⟩
def R.TIME_CAP_SEC_HI : Reg := ⟨0x200A08, 0x20, 16, 0, 1, 0x0, 0x0, 0x0, 0x0, 0x0, 0x0, 57⟩
def F.TIME_CAP_SEC_HI_SEC : Fld := ⟨R.TIME_CAP_SEC_HI, 31, 0⟩
def R.TIME_CAP_NS : Reg := ⟨0x200A0C, 0x20, 16, 0, 1, 0x0, 0x0, 0x0, 0x0, 0x0, 0x0, 58⟩
def F.TIME_CAP_NS_NS : Fld := ⟨R.TIME_CAP_NS, 31, 0⟩
def R.TIME_CAP_INFO : Reg := ⟨0x200A10, 0x20, 16, 0, 1, 0x0, 0x0, 0x0, 0x0, 0x0, 0x0, 59⟩
def F.TIME_CAP_INFO_OVERRUNS : Fld := ⟨R.TIME_CAP_INFO, 31, 16⟩
def F.TIME_CAP_INFO_COUNT : Fld := ⟨R.TIME_CAP_INFO, 15, 1⟩
def F.TIME_CAP_INFO_RISING : Fld := ⟨R.TIME_CAP_INFO, 0, 0⟩
def R.TIME_SNS_OFFSET : Reg := ⟨0x200C00, 0x10, 50, 0, 1, 0x0, 0x0, 0x0, 0x0, 0x0, 0x0, 60⟩
def F.TIME_SNS_OFFSET_NS : Fld := ⟨R.TIME_SNS_OFFSET, 31, 0⟩
def R.TIME_SNS_SPAN : Reg := ⟨0x200C04, 0x10, 50, 0, 1, 0x0, 0x0, 0x0, 0x0, 0x0, 0x0, 61⟩
def F.TIME_SNS_SPAN_NS : Fld := ⟨R.TIME_SNS_SPAN, 31, 0⟩
def R.TIME_SNS_STATE : Reg := ⟨0x200C08, 0x10, 50, 0, 1, 0x2000, 0x0, 0x0, 0x0, 0xFF00, 0x0, 62⟩
def F.TIME_SNS_STATE_SLIPS : Fld := ⟨R.TIME_SNS_STATE, 31, 16⟩
def F.TIME_SNS_STATE_BOUND : Fld := ⟨R.TIME_SNS_STATE, 15, 8⟩
def F.TIME_SNS_STATE_HELD : Fld := ⟨R.TIME_SNS_STATE, 1, 1⟩
def F.TIME_SNS_STATE_SLIP : Fld := ⟨R.TIME_SNS_STATE, 0, 0⟩
def R.TIME_SNS_RATE : Reg := ⟨0x200C0C, 0x10, 50, 0, 1, 0x0, 0x0, 0x0, 0x0, 0x0, 0x0, 63⟩
def F.TIME_SNS_RATE_PPB : Fld := ⟨R.TIME_SNS_RATE, 31, 0⟩
def R.TIME_SNS_NOMINAL : Reg := ⟨0x201000, 0x8, 50, 0, 1, 0x0, 0x0, 0x0, 0x0, 0xFFFFFFFF, 0x0, 64⟩
def F.TIME_SNS_NOMINAL_NS : Fld := ⟨R.TIME_SNS_NOMINAL, 31, 0⟩
def R.TIME_SNS_LATENCY : Reg := ⟨0x201004, 0x8, 50, 0, 1, 0x0, 0x0, 0x0, 0x0, 0xFFFFFFFF, 0x0, 65⟩
def F.TIME_SNS_LATENCY_NS : Fld := ⟨R.TIME_SNS_LATENCY, 31, 0⟩
/-! Table 4-6. -/

def R.ING_ACTIVE : Reg := ⟨0x300000, 0x0, 1, 0, 1, 0x0, 0x0, 0x0, 0x0, 0x0, 0x0, 66⟩
def F.ING_ACTIVE_MASK : Fld := ⟨R.ING_ACTIVE, 31, 0⟩
def R.ING_EVT : Reg := ⟨0x300004, 0x0, 1, 0, 1, 0x0, 0x0, 0xFF, 0x0, 0x0, 0x0, 67⟩
def F.ING_EVT_ORPHAN : Fld := ⟨R.ING_EVT, 7, 7⟩
def F.ING_EVT_STALE : Fld := ⟨R.ING_EVT, 6, 6⟩
def F.ING_EVT_EARLY : Fld := ⟨R.ING_EVT, 5, 5⟩
def F.ING_EVT_OVERFLOW : Fld := ⟨R.ING_EVT, 4, 4⟩
def F.ING_EVT_ABSENT : Fld := ⟨R.ING_EVT, 3, 3⟩
def F.ING_EVT_BAD_FRAME : Fld := ⟨R.ING_EVT, 2, 2⟩
def F.ING_EVT_PHY : Fld := ⟨R.ING_EVT, 1, 1⟩
def F.ING_EVT_ECC_CORR : Fld := ⟨R.ING_EVT, 0, 0⟩
def R.ING_PORT_CTL : Reg := ⟨0x301000, 0x40, 16, 0, 1, 0x0, 0x0, 0x0, 0x0, 0xFFFF008F, 0x0, 68⟩
def F.ING_PORT_CTL_RATE : Fld := ⟨R.ING_PORT_CTL, 31, 16⟩
def F.ING_PORT_CTL_SCRAMBLE : Fld := ⟨R.ING_PORT_CTL, 7, 7⟩
def F.ING_PORT_CTL_LANES : Fld := ⟨R.ING_PORT_CTL, 3, 2⟩
def F.ING_PORT_CTL_PHY : Fld := ⟨R.ING_PORT_CTL, 1, 1⟩
def F.ING_PORT_CTL_ENABLE : Fld := ⟨R.ING_PORT_CTL, 0, 0⟩
def R.ING_PORT_STATUS : Reg := ⟨0x301004, 0x40, 16, 0, 1, 0x0, 0x0, 0x0, 0x0, 0x0, 0x0, 69⟩
def F.ING_PORT_STATUS_HS_ACTIVE : Fld := ⟨R.ING_PORT_STATUS, 8, 8⟩
def F.ING_PORT_STATUS_SYNC : Fld := ⟨R.ING_PORT_STATUS, 3, 0⟩
def R.ING_PORT_ECC : Reg := ⟨0x301008, 0x40, 16, 0, 1, 0x0, 0x0, 0x0, 0x0, 0x0, 0x0, 70⟩
def F.ING_PORT_ECC_UNCORR : Fld := ⟨R.ING_PORT_ECC, 31, 16⟩
def F.ING_PORT_ECC_CORR : Fld := ⟨R.ING_PORT_ECC, 15, 0⟩
def R.ING_PORT_CRC : Reg := ⟨0x30100C, 0x40, 16, 0, 1, 0x0, 0x0, 0x0, 0x0, 0x0, 0x0, 71⟩
def F.ING_PORT_CRC_ORPHAN : Fld := ⟨R.ING_PORT_CRC, 31, 16⟩
def F.ING_PORT_CRC_CRC : Fld := ⟨R.ING_PORT_CRC, 15, 0⟩
def R.ING_PORT_OTHER : Reg := ⟨0x301010, 0x40, 16, 0, 1, 0x0, 0x0, 0x0, 0x0, 0x0, 0x0, 72⟩
def F.ING_PORT_OTHER_UNMAPPED : Fld := ⟨R.ING_PORT_OTHER, 31, 16⟩
def F.ING_PORT_OTHER_FIFO_PEAK : Fld := ⟨R.ING_PORT_OTHER, 7, 0⟩
def R.ING_ST_CTL : Reg := ⟨0x303000, 0x40, 16, 0, 1, 0x6000, 0x0, 0x0, 0x0, 0x80307F07, 0x0, 73⟩
def F.ING_ST_CTL_ENABLE : Fld := ⟨R.ING_ST_CTL, 31, 31⟩
def F.ING_ST_CTL_PORT : Fld := ⟨R.ING_ST_CTL, 21, 20⟩
def F.ING_ST_CTL_PT : Fld := ⟨R.ING_ST_CTL, 14, 8⟩
def F.ING_ST_CTL_DEPTH : Fld := ⟨R.ING_ST_CTL, 2, 2⟩
def F.ING_ST_CTL_SAMPLING : Fld := ⟨R.ING_ST_CTL, 1, 0⟩
def R.ING_ST_GROUP : Reg := ⟨0x303004, 0x40, 16, 0, 1, 0x0, 0x0, 0x0, 0x0, 0xFFFFFFFF, 0x0, 74⟩
def F.ING_ST_GROUP_ADDR : Fld := ⟨R.ING_ST_GROUP, 31, 0⟩
def R.ING_ST_SOURCE : Reg := ⟨0x303008, 0x40, 16, 0, 1, 0x0, 0x0, 0x0, 0x0, 0xFFFFFFFF, 0x0, 75⟩
def F.ING_ST_SOURCE_ADDR : Fld := ⟨R.ING_ST_SOURCE, 31, 0⟩
def R.ING_ST_UDP : Reg := ⟨0x30300C, 0x40, 16, 0, 1, 0x0, 0x0, 0x0, 0x0, 0xFFFF, 0x0, 76⟩
def F.ING_ST_UDP_PORT : Fld := ⟨R.ING_ST_UDP, 15, 0⟩
def R.ING_ST_PACKETS : Reg := ⟨0x303010, 0x40, 16, 0, 1, 0x0, 0x0, 0x0, 0x0, 0x0, 0x0, 77⟩
def F.ING_ST_PACKETS_COUNT : Fld := ⟨R.ING_ST_PACKETS, 31, 0⟩
def R.ING_ST_SEQ_GAPS : Reg := ⟨0x303014, 0x40, 16, 0, 1, 0x0, 0x0, 0x0, 0x0, 0x0, 0x0, 78⟩
def F.ING_ST_SEQ_GAPS_COUNT : Fld := ⟨R.ING_ST_SEQ_GAPS, 31, 0⟩
def R.ING_ST_REJECT : Reg := ⟨0x303018, 0x40, 16, 0, 1, 0x0, 0x0, 0x0, 0x0, 0x0, 0x0, 79⟩
def F.ING_ST_REJECT_COUNT : Fld := ⟨R.ING_ST_REJECT, 31, 0⟩
/-! Table 4-7. -/

def R.ING_SNS_SRC : Reg := ⟨0x302000, 0x40, 32, 0, 1, 0x0, 0x0, 0x0, 0x0, 0xF0FF3F1F, 0x0, 80⟩
def F.ING_SNS_SRC_ENABLE : Fld := ⟨R.ING_SNS_SRC, 31, 31⟩
def F.ING_SNS_SRC_KIND : Fld := ⟨R.ING_SNS_SRC, 30, 30⟩
def F.ING_SNS_SRC_TIMING : Fld := ⟨R.ING_SNS_SRC, 29, 28⟩
def F.ING_SNS_SRC_SOURCE : Fld := ⟨R.ING_SNS_SRC, 23, 20⟩
def F.ING_SNS_SRC_VC : Fld := ⟨R.ING_SNS_SRC, 19, 16⟩
def F.ING_SNS_SRC_DT : Fld := ⟨R.ING_SNS_SRC, 13, 8⟩
def F.ING_SNS_SRC_TRIGGER : Fld := ⟨R.ING_SNS_SRC, 4, 0⟩
def R.ING_SNS_GEOM : Reg := ⟨0x302004, 0x40, 32, 0, 1, 0x0, 0x0, 0x0, 0x0, 0xFFFFFFFF, 0x0, 81⟩
def F.ING_SNS_GEOM_HEIGHT : Fld := ⟨R.ING_SNS_GEOM, 31, 16⟩
def F.ING_SNS_GEOM_WIDTH : Fld := ⟨R.ING_SNS_GEOM, 15, 0⟩
def R.ING_SNS_FMT : Reg := ⟨0x302008, 0x40, 32, 0, 1, 0x10000000, 0x0, 0x0, 0x0, 0xFFFF00FF, 0x0, 82⟩
def F.ING_SNS_FMT_GAIN : Fld := ⟨R.ING_SNS_FMT, 31, 16⟩
def F.ING_SNS_FMT_KEEP_C : Fld := ⟨R.ING_SNS_FMT, 7, 7⟩
def F.ING_SNS_FMT_CFA : Fld := ⟨R.ING_SNS_FMT, 6, 4⟩
def F.ING_SNS_FMT_DEPTH : Fld := ⟨R.ING_SNS_FMT, 3, 0⟩
def R.ING_SNS_BLACK : Reg := ⟨0x30200C, 0x40, 32, 0, 1, 0x0, 0x0, 0x0, 0x0, 0xFFFF, 0x0, 83⟩
def F.ING_SNS_BLACK_BLACK : Fld := ⟨R.ING_SNS_BLACK, 15, 0⟩
def R.ING_SNS_PERIOD : Reg := ⟨0x302010, 0x40, 32, 0, 1, 0x0, 0x0, 0x0, 0x0, 0xFFFFFFFF, 0x0, 84⟩
def F.ING_SNS_PERIOD_NS : Fld := ⟨R.ING_SNS_PERIOD, 31, 0⟩
def R.ING_SNS_TIMEOUT : Reg := ⟨0x302014, 0x40, 32, 0, 1, 0x0, 0x0, 0x0, 0x0, 0xFFFFFFFF, 0x0, 85⟩
def F.ING_SNS_TIMEOUT_NS : Fld := ⟨R.ING_SNS_TIMEOUT, 31, 0⟩
def R.ING_SNS_RING_LO : Reg := ⟨0x302018, 0x40, 32, 0, 1, 0x0, 0x0, 0x0, 0x0, 0xFFFFFFFF, 0x0, 86⟩
def F.ING_SNS_RING_LO_ADDR : Fld := ⟨R.ING_SNS_RING_LO, 31, 0⟩
def R.ING_SNS_RING_HI : Reg := ⟨0x30201C, 0x40, 32, 0, 1, 0x0, 0x0, 0x0, 0x0, 0xFFFFFFFF, 0x0, 87⟩
def F.ING_SNS_RING_HI_ADDR : Fld := ⟨R.ING_SNS_RING_HI, 31, 0⟩
def R.ING_SNS_RING_CFG : Reg := ⟨0x302020, 0x40, 32, 0, 1, 0x8, 0x0, 0x0, 0x0, 0x7F, 0x0, 88⟩
def F.ING_SNS_RING_CFG_SLOTS : Fld := ⟨R.ING_SNS_RING_CFG, 6, 0⟩
def R.ING_SNS_TALLY : Reg := ⟨0x302024, 0x40, 32, 0, 1, 0x0, 0x0, 0x0, 0x0, 0xFFFFFFFF, 0x0, 89⟩
def F.ING_SNS_TALLY_RELEASE : Fld := ⟨R.ING_SNS_TALLY, 31, 16⟩
def F.ING_SNS_TALLY_INGEST : Fld := ⟨R.ING_SNS_TALLY, 15, 0⟩
def R.ING_SNS_DESC_LO : Reg := ⟨0x302028, 0x40, 32, 0, 1, 0x0, 0x0, 0x0, 0x0, 0xFFFFFFFF, 0x0, 90⟩
def F.ING_SNS_DESC_LO_ADDR : Fld := ⟨R.ING_SNS_DESC_LO, 31, 0⟩
def R.ING_SNS_DESC_HI : Reg := ⟨0x30202C, 0x40, 32, 0, 1, 0x0, 0x0, 0x0, 0x0, 0xFFFFFFFF, 0x0, 91⟩
def F.ING_SNS_DESC_HI_ADDR : Fld := ⟨R.ING_SNS_DESC_HI, 31, 0⟩
def R.ING_SNS_LAST : Reg := ⟨0x302030, 0x40, 32, 0, 1, 0x0, 0x0, 0x0, 0x0, 0x0, 0x0, 92⟩
def F.ING_SNS_LAST_FLAGS : Fld := ⟨R.ING_SNS_LAST, 31, 16⟩
def F.ING_SNS_LAST_STATUS : Fld := ⟨R.ING_SNS_LAST, 15, 8⟩
def R.ING_SNS_FRAME_ID : Reg := ⟨0x302034, 0x40, 32, 0, 1, 0x0, 0x0, 0x0, 0x0, 0x0, 0x0, 93⟩
def F.ING_SNS_FRAME_ID_ID : Fld := ⟨R.ING_SNS_FRAME_ID, 31, 0⟩
def R.ING_SNS_BAD : Reg := ⟨0x302038, 0x40, 32, 0, 1, 0x0, 0x0, 0x0, 0x0, 0x0, 0x0, 94⟩
def F.ING_SNS_BAD_ABSENT : Fld := ⟨R.ING_SNS_BAD, 31, 16⟩
def F.ING_SNS_BAD_BAD : Fld := ⟨R.ING_SNS_BAD, 15, 0⟩
def R.ING_SNS_DISCARD : Reg := ⟨0x30203C, 0x40, 32, 0, 1, 0x0, 0x0, 0x0, 0x0, 0x0, 0x0, 95⟩
def F.ING_SNS_DISCARD_EARLY : Fld := ⟨R.ING_SNS_DISCARD, 31, 24⟩
def F.ING_SNS_DISCARD_STALE : Fld := ⟨R.ING_SNS_DISCARD, 23, 16⟩
def F.ING_SNS_DISCARD_OVERFLOW : Fld := ⟨R.ING_SNS_DISCARD, 15, 8⟩
def F.ING_SNS_DISCARD_STROBE_MISS : Fld := ⟨R.ING_SNS_DISCARD, 7, 0⟩
/-! Table 5-6. -/

def R.SPG_VALID : Reg := ⟨0x400000, 0x4, 3, 0, 1, 0x0, 0x0, 0x0, 0x0, 0x0, 0x0, 96⟩
def F.SPG_VALID_MASK : Fld := ⟨R.SPG_VALID, 31, 0⟩
def R.SPG_EVT : Reg := ⟨0x400010, 0x0, 1, 0, 1, 0x0, 0x0, 0x1FF, 0x0, 0x0, 0x0, 97⟩
def F.SPG_EVT_ID_FAIL : Fld := ⟨R.SPG_EVT, 8, 8⟩
def F.SPG_EVT_BUSOFF : Fld := ⟨R.SPG_EVT, 7, 7⟩
def F.SPG_EVT_QUAD : Fld := ⟨R.SPG_EVT, 6, 6⟩
def F.SPG_EVT_SSI : Fld := ⟨R.SPG_EVT, 5, 5⟩
def F.SPG_EVT_CHECK : Fld := ⟨R.SPG_EVT, 4, 4⟩
def F.SPG_EVT_SPIKE : Fld := ⟨R.SPG_EVT, 3, 3⟩
def F.SPG_EVT_RANGE : Fld := ⟨R.SPG_EVT, 2, 2⟩
def F.SPG_EVT_TIMEOUT : Fld := ⟨R.SPG_EVT, 1, 1⟩
def F.SPG_EVT_RESTART : Fld := ⟨R.SPG_EVT, 0, 0⟩
def R.SPG_CH_CTL : Reg := ⟨0x401000, 0x40, 88, 0, 1, 0x4000040, 0x0, 0x0, 0x0, 0xFFFFBFFC, 0x0, 98⟩
def F.SPG_CH_CTL_ENABLE : Fld := ⟨R.SPG_CH_CTL, 31, 31⟩
def F.SPG_CH_CTL_MEDIAN : Fld := ⟨R.SPG_CH_CTL, 30, 28⟩
def F.SPG_CH_CTL_ORDER : Fld := ⟨R.SPG_CH_CTL, 27, 26⟩
def F.SPG_CH_CTL_RATIO : Fld := ⟨R.SPG_CH_CTL, 25, 23⟩
def F.SPG_CH_CTL_FIR_A : Fld := ⟨R.SPG_CH_CTL, 22, 19⟩
def F.SPG_CH_CTL_FIR_B : Fld := ⟨R.SPG_CH_CTL, 18, 15⟩
def F.SPG_CH_CTL_DEC_PHASE : Fld := ⟨R.SPG_CH_CTL, 13, 10⟩
def F.SPG_CH_CTL_XFADE : Fld := ⟨R.SPG_CH_CTL, 9, 2⟩
def R.SPG_CH_SRC : Reg := ⟨0x401004, 0x40, 88, 0, 1, 0x80000, 0x0, 0x0, 0x0, 0xFFFFFF00, 0x0, 99⟩
def F.SPG_CH_SRC_BYTE : Fld := ⟨R.SPG_CH_SRC, 31, 24⟩
def F.SPG_CH_SRC_BIT : Fld := ⟨R.SPG_CH_SRC, 23, 21⟩
def F.SPG_CH_SRC_WIDTH : Fld := ⟨R.SPG_CH_SRC, 20, 15⟩
def F.SPG_CH_SRC_SIGNED : Fld := ⟨R.SPG_CH_SRC, 14, 14⟩
def F.SPG_CH_SRC_BIG_ENDIAN : Fld := ⟨R.SPG_CH_SRC, 13, 13⟩
def F.SPG_CH_SRC_WRAP : Fld := ⟨R.SPG_CH_SRC, 12, 12⟩
def F.SPG_CH_SRC_KIND : Fld := ⟨R.SPG_CH_SRC, 11, 8⟩
def R.SPG_CH_ID : Reg := ⟨0x401008, 0x40, 88, 0, 1, 0x0, 0x0, 0x0, 0x0, 0xDFFFFFFF, 0x0, 100⟩
def F.SPG_CH_ID_EXT : Fld := ⟨R.SPG_CH_ID, 31, 31⟩
def F.SPG_CH_ID_CTRL : Fld := ⟨R.SPG_CH_ID, 30, 30⟩
def F.SPG_CH_ID_ID : Fld := ⟨R.SPG_CH_ID, 28, 0⟩
def R.SPG_CH_MIN : Reg := ⟨0x40100C, 0x40, 88, 0, 1, 0x80000000, 0x0, 0x0, 0x0, 0xFFFFFFFF, 0x0, 101⟩
def F.SPG_CH_MIN_MIN : Fld := ⟨R.SPG_CH_MIN, 31, 0⟩
def R.SPG_CH_MAX : Reg := ⟨0x401010, 0x40, 88, 0, 1, 0x7FFFFFFF, 0x0, 0x0, 0x0, 0xFFFFFFFF, 0x0, 102⟩
def F.SPG_CH_MAX_MAX : Fld := ⟨R.SPG_CH_MAX, 31, 0⟩
def R.SPG_CH_SPIKE : Reg := ⟨0x401014, 0x40, 88, 0, 1, 0xFFFFFFFF, 0x0, 0x0, 0x0, 0xFFFFFFFF, 0x0, 103⟩
def F.SPG_CH_SPIKE_THR : Fld := ⟨R.SPG_CH_SPIKE, 31, 0⟩
def R.SPG_CH_SCALE : Reg := ⟨0x401018, 0x40, 88, 0, 1, 0x3F800000, 0x0, 0x0, 0x0, 0xFFFFFFFF, 0x0, 104⟩
def F.SPG_CH_SCALE_SCALE : Fld := ⟨R.SPG_CH_SCALE, 31, 0⟩
def R.SPG_CH_OFFSET : Reg := ⟨0x40101C, 0x40, 88, 0, 1, 0x0, 0x0, 0x0, 0x0, 0xFFFFFFFF, 0x0, 105⟩
def F.SPG_CH_OFFSET_OFFSET : Fld := ⟨R.SPG_CH_OFFSET, 31, 0⟩
def R.SPG_CH_PERIOD : Reg := ⟨0x401020, 0x40, 88, 0, 1, 0x0, 0x0, 0x0, 0x0, 0xFFFFFFFF, 0x0, 106⟩
def F.SPG_CH_PERIOD_NS : Fld := ⟨R.SPG_CH_PERIOD, 31, 0⟩
def R.SPG_CH_TIMEOUT : Reg := ⟨0x401024, 0x40, 88, 0, 1, 0x0, 0x0, 0x0, 0x0, 0xFFFFFFFF, 0x0, 107⟩
def F.SPG_CH_TIMEOUT_NS : Fld := ⟨R.SPG_CH_TIMEOUT, 31, 0⟩
def R.SPG_CH_RING_LO : Reg := ⟨0x401028, 0x40, 88, 0, 1, 0x0, 0x0, 0x0, 0x0, 0xFFFFFFFF, 0x0, 108⟩
def F.SPG_CH_RING_LO_ADDR : Fld := ⟨R.SPG_CH_RING_LO, 31, 0⟩
def R.SPG_CH_RING_HI : Reg := ⟨0x40102C, 0x40, 88, 0, 1, 0x0, 0x0, 0x0, 0x0, 0xFFFFFFFF, 0x0, 109⟩
def F.SPG_CH_RING_HI_ADDR : Fld := ⟨R.SPG_CH_RING_HI, 31, 0⟩
def R.SPG_CH_RING_CFG : Reg := ⟨0x401030, 0x40, 88, 0, 1, 0x4, 0x0, 0x0, 0x0, 0xFFFF0007, 0x0, 110⟩
def F.SPG_CH_RING_CFG_TALLY : Fld := ⟨R.SPG_CH_RING_CFG, 31, 16⟩
def F.SPG_CH_RING_CFG_LEN : Fld := ⟨R.SPG_CH_RING_CFG, 2, 0⟩
def R.SPG_CH_SWITCH : Reg := ⟨0x401034, 0x40, 88, 0, 1, 0x0, 0x0, 0x0, 0x0, 0xFFFF, 0x0, 111⟩
def F.SPG_CH_SWITCH_SET_B : Fld := ⟨R.SPG_CH_SWITCH, 31, 31⟩
def F.SPG_CH_SWITCH_FADING : Fld := ⟨R.SPG_CH_SWITCH, 30, 30⟩
def F.SPG_CH_SWITCH_TALLY : Fld := ⟨R.SPG_CH_SWITCH, 15, 0⟩
def R.SPG_CH_DELAY : Reg := ⟨0x401038, 0x40, 88, 0, 1, 0x0, 0x0, 0x0, 0x0, 0x0, 0x0, 112⟩
def F.SPG_CH_DELAY_NS : Fld := ⟨R.SPG_CH_DELAY, 31, 0⟩
def R.SPG_CH_COUNT : Reg := ⟨0x40103C, 0x40, 88, 0, 1, 0x0, 0x0, 0x0, 0x0, 0x0, 0x0, 113⟩
def F.SPG_CH_COUNT_TIMEOUTS : Fld := ⟨R.SPG_CH_COUNT, 31, 24⟩
def F.SPG_CH_COUNT_SUBST : Fld := ⟨R.SPG_CH_COUNT, 23, 16⟩
def F.SPG_CH_COUNT_SPIKES : Fld := ⟨R.SPG_CH_COUNT, 15, 8⟩
def F.SPG_CH_COUNT_SATURATED : Fld := ⟨R.SPG_CH_COUNT, 7, 0⟩
def R.SPG_FIR_LEN : Reg := ⟨0x403000, 0x100, 8, 0, 1, 0x3, 0x0, 0x0, 0x0, 0x3F, 0x0, 114⟩
def F.SPG_FIR_LEN_M : Fld := ⟨R.SPG_FIR_LEN, 5, 0⟩
def R.SPG_FIR_COEF : Reg := ⟨0x403004, 0x100, 8, 4, 32, 0x0, 0x0, 0x0, 0x0, 0xFFFFFFFF, 0x0, 115⟩
def F.SPG_FIR_COEF_H : Fld := ⟨R.SPG_FIR_COEF, 31, 0⟩
/-! Table 5-8. -/

def R.SPG_SPI_CTL : Reg := ⟨0x404000, 0x40, 8, 0, 1, 0x90000, 0x0, 0x0, 0x0, 0xFFFFFFFF, 0x0, 116⟩
def F.SPG_SPI_CTL_ENABLE : Fld := ⟨R.SPG_SPI_CTL, 31, 31⟩
def F.SPG_SPI_CTL_STROBED : Fld := ⟨R.SPG_SPI_CTL, 30, 30⟩
def F.SPG_SPI_CTL_DRDY : Fld := ⟨R.SPG_SPI_CTL, 29, 29⟩
def F.SPG_SPI_CTL_DRDY_POL : Fld := ⟨R.SPG_SPI_CTL, 28, 28⟩
def F.SPG_SPI_CTL_MODE : Fld := ⟨R.SPG_SPI_CTL, 27, 26⟩
def F.SPG_SPI_CTL_CHECK : Fld := ⟨R.SPG_SPI_CTL, 25, 24⟩
def F.SPG_SPI_CTL_CLK_DIV : Fld := ⟨R.SPG_SPI_CTL, 23, 16⟩
def F.SPG_SPI_CTL_LEN : Fld := ⟨R.SPG_SPI_CTL, 15, 8⟩
def F.SPG_SPI_CTL_CHECK_OFF : Fld := ⟨R.SPG_SPI_CTL, 7, 0⟩
def R.SPG_SPI_CMD : Reg := ⟨0x404004, 0x40, 8, 0, 1, 0x0, 0x0, 0x0, 0x0, 0xFFFFFFFF, 0x0, 117⟩
def F.SPG_SPI_CMD_BYTES : Fld := ⟨R.SPG_SPI_CMD, 31, 0⟩
def R.SPG_SPI_WAIT : Reg := ⟨0x404008, 0x40, 8, 0, 1, 0x0, 0x0, 0x0, 0x0, 0xFFFFFF, 0x0, 118⟩
def F.SPG_SPI_WAIT_CMD_LEN : Fld := ⟨R.SPG_SPI_WAIT, 23, 21⟩
def F.SPG_SPI_WAIT_WAIT_NS : Fld := ⟨R.SPG_SPI_WAIT, 20, 0⟩
def R.SPG_SPI_LATENCY : Reg := ⟨0x40400C, 0x40, 8, 0, 1, 0x0, 0x0, 0x0, 0x0, 0xFFFFFFFF, 0x0, 119⟩
def F.SPG_SPI_LATENCY_NS : Fld := ⟨R.SPG_SPI_LATENCY, 31, 0⟩
def R.SPG_SPI_ID : Reg := ⟨0x404010, 0x40, 8, 0, 1, 0xFF00, 0x0, 0x0, 0x0, 0xFFFFFF00, 0x0, 120⟩
def F.SPG_SPI_ID_ADDR : Fld := ⟨R.SPG_SPI_ID, 31, 24⟩
def F.SPG_SPI_ID_ID_VALUE : Fld := ⟨R.SPG_SPI_ID, 23, 16⟩
def F.SPG_SPI_ID_ID_MASK : Fld := ⟨R.SPG_SPI_ID, 15, 8⟩
def R.SPG_SPI_STAT : Reg := ⟨0x404014, 0x40, 8, 0, 1, 0x0, 0x0, 0x0, 0x0, 0x0, 0x0, 121⟩
def F.SPG_SPI_STAT_MISSED : Fld := ⟨R.SPG_SPI_STAT, 31, 16⟩
def F.SPG_SPI_STAT_CHECK_FAIL : Fld := ⟨R.SPG_SPI_STAT, 15, 8⟩
def F.SPG_SPI_STAT_REINITS : Fld := ⟨R.SPG_SPI_STAT, 7, 1⟩
def F.SPG_SPI_STAT_ID_OK : Fld := ⟨R.SPG_SPI_STAT, 0, 0⟩
def R.SPG_SSI_CTL : Reg := ⟨0x404400, 0x20, 8, 0, 1, 0x0, 0x0, 0x0, 0x0, 0xFFF00FFF, 0x0, 122⟩
def F.SPG_SSI_CTL_ENABLE : Fld := ⟨R.SPG_SSI_CTL, 31, 31⟩
def F.SPG_SSI_CTL_GRAY : Fld := ⟨R.SPG_SSI_CTL, 30, 30⟩
def F.SPG_SSI_CTL_PARITY : Fld := ⟨R.SPG_SSI_CTL, 29, 29⟩
def F.SPG_SSI_CTL_ERR_BITS : Fld := ⟨R.SPG_SSI_CTL, 28, 26⟩
def F.SPG_SSI_CTL_BITS : Fld := ⟨R.SPG_SSI_CTL, 25, 20⟩
def F.SPG_SSI_CTL_CLK_KHZ : Fld := ⟨R.SPG_SSI_CTL, 11, 0⟩
def R.SPG_SSI_TM : Reg := ⟨0x404404, 0x20, 8, 0, 1, 0x14, 0x0, 0x0, 0x0, 0xFF, 0x0, 123⟩
def F.SPG_SSI_TM_TM_US : Fld := ⟨R.SPG_SSI_TM, 7, 0⟩
def R.SPG_SSI_LATENCY : Reg := ⟨0x404408, 0x20, 8, 0, 1, 0x0, 0x0, 0x0, 0x0, 0xFFFFFFFF, 0x0, 124⟩
def F.SPG_SSI_LATENCY_NS : Fld := ⟨R.SPG_SSI_LATENCY, 31, 0⟩
def R.SPG_SSI_STAT : Reg := ⟨0x40440C, 0x20, 8, 0, 1, 0x0, 0x0, 0x0, 0x0, 0x0, 0x0, 125⟩
def F.SPG_SSI_STAT_FRAME_ERR : Fld := ⟨R.SPG_SSI_STAT, 31, 16⟩
def F.SPG_SSI_STAT_ALARMS : Fld := ⟨R.SPG_SSI_STAT, 15, 0⟩
def R.SPG_QUAD_CTL : Reg := ⟨0x404600, 0x10, 8, 0, 1, 0x0, 0x0, 0x0, 0x0, 0xC00000FF, 0x0, 126⟩
def F.SPG_QUAD_CTL_ENABLE : Fld := ⟨R.SPG_QUAD_CTL, 31, 31⟩
def F.SPG_QUAD_CTL_SWAP : Fld := ⟨R.SPG_QUAD_CTL, 30, 30⟩
def F.SPG_QUAD_CTL_FILTER : Fld := ⟨R.SPG_QUAD_CTL, 7, 0⟩
def R.SPG_QUAD_PERIOD : Reg := ⟨0x404604, 0x10, 8, 0, 1, 0x0, 0x0, 0x0, 0x0, 0xFFFFFFFF, 0x0, 127⟩
def F.SPG_QUAD_PERIOD_NS : Fld := ⟨R.SPG_QUAD_PERIOD, 31, 0⟩
def R.SPG_QUAD_STAT : Reg := ⟨0x404608, 0x10, 8, 0, 1, 0x0, 0x0, 0x0, 0x0, 0x0, 0x0, 128⟩
def F.SPG_QUAD_STAT_ILLEGAL : Fld := ⟨R.SPG_QUAD_STAT, 31, 16⟩
def R.SPG_QUAD_COUNT : Reg := ⟨0x40460C, 0x10, 8, 0, 1, 0x0, 0x0, 0x0, 0x0, 0x0, 0x0, 129⟩
def F.SPG_QUAD_COUNT_COUNT : Fld := ⟨R.SPG_QUAD_COUNT, 31, 0⟩
def R.SPG_CAN_CTL : Reg := ⟨0x404800, 0x40, 2, 0, 1, 0x0, 0x0, 0x0, 0x0, 0xF0000000, 0x0, 130⟩
def F.SPG_CAN_CTL_ENABLE : Fld := ⟨R.SPG_CAN_CTL, 31, 31⟩
def F.SPG_CAN_CTL_FD : Fld := ⟨R.SPG_CAN_CTL, 30, 30⟩
def F.SPG_CAN_CTL_BRS : Fld := ⟨R.SPG_CAN_CTL, 29, 29⟩
def F.SPG_CAN_CTL_LISTEN : Fld := ⟨R.SPG_CAN_CTL, 28, 28⟩
def R.SPG_CAN_RATE : Reg := ⟨0x404804, 0x40, 2, 0, 1, 0x7D001F4, 0x0, 0x0, 0x0, 0xFFFFFFFF, 0x0, 131⟩
def F.SPG_CAN_RATE_DATA_KBPS : Fld := ⟨R.SPG_CAN_RATE, 31, 16⟩
def F.SPG_CAN_RATE_NOM_KBPS : Fld := ⟨R.SPG_CAN_RATE, 15, 0⟩
def R.SPG_CAN_LATENCY : Reg := ⟨0x404808, 0x40, 2, 0, 1, 0x0, 0x0, 0x0, 0x0, 0xFFFFFFFF, 0x0, 132⟩
def F.SPG_CAN_LATENCY_NS : Fld := ⟨R.SPG_CAN_LATENCY, 31, 0⟩
def R.SPG_CAN_TX_ID : Reg := ⟨0x40480C, 0x40, 2, 0, 1, 0x0, 0x0, 0x0, 0x0, 0xDFFFFFFF, 0x0, 133⟩
def F.SPG_CAN_TX_ID_EXT : Fld := ⟨R.SPG_CAN_TX_ID, 31, 31⟩
def F.SPG_CAN_TX_ID_TX_EN : Fld := ⟨R.SPG_CAN_TX_ID, 30, 30⟩
def F.SPG_CAN_TX_ID_ID : Fld := ⟨R.SPG_CAN_TX_ID, 28, 0⟩
def R.SPG_CAN_TX_DATA_LO : Reg := ⟨0x404810, 0x40, 2, 0, 1, 0x0, 0x0, 0x0, 0x0, 0xFFFFFFFF, 0x0, 134⟩
def F.SPG_CAN_TX_DATA_LO_DATA : Fld := ⟨R.SPG_CAN_TX_DATA_LO, 31, 0⟩
def R.SPG_CAN_TX_DATA_HI : Reg := ⟨0x404814, 0x40, 2, 0, 1, 0x0, 0x0, 0x0, 0x0, 0xFFFFFFFF, 0x0, 135⟩
def F.SPG_CAN_TX_DATA_HI_DATA : Fld := ⟨R.SPG_CAN_TX_DATA_HI, 31, 0⟩
def R.SPG_CAN_TX_DLC : Reg := ⟨0x404818, 0x40, 2, 0, 1, 0x0, 0x0, 0x0, 0x0, 0xF, 0x0, 136⟩
def F.SPG_CAN_TX_DLC_DLC : Fld := ⟨R.SPG_CAN_TX_DLC, 3, 0⟩
def R.SPG_CAN_STAT : Reg := ⟨0x40481C, 0x40, 2, 0, 1, 0x0, 0x0, 0x0, 0x0, 0x0, 0x0, 137⟩
def F.SPG_CAN_STAT_TEC : Fld := ⟨R.SPG_CAN_STAT, 31, 24⟩
def F.SPG_CAN_STAT_REC : Fld := ⟨R.SPG_CAN_STAT, 23, 16⟩
def F.SPG_CAN_STAT_BUSOFF : Fld := ⟨R.SPG_CAN_STAT, 15, 8⟩
def F.SPG_CAN_STAT_STATE : Fld := ⟨R.SPG_CAN_STAT, 1, 0⟩
def R.SPG_CAN_RX : Reg := ⟨0x404820, 0x40, 2, 0, 1, 0x0, 0x0, 0x0, 0x0, 0x0, 0x0, 138⟩
def F.SPG_CAN_RX_COUNT : Fld := ⟨R.SPG_CAN_RX, 31, 0⟩
def R.SPG_CAN_ERR : Reg := ⟨0x404824, 0x40, 2, 0, 1, 0x0, 0x0, 0x0, 0x0, 0x0, 0x0, 139⟩
def F.SPG_CAN_ERR_COUNT : Fld := ⟨R.SPG_CAN_ERR, 31, 0⟩
/-! Table 6-12. -/

def R.MILL_STATUS : Reg := ⟨0x500000, 0x0, 1, 0, 1, 0x4924, 0x0, 0x0, 0x0, 0x0, 0x0, 140⟩
def F.MILL_STATUS_DEGRADED : Fld := ⟨R.MILL_STATUS, 31, 31⟩
def F.MILL_STATUS_SGM : Fld := ⟨R.MILL_STATUS, 14, 12⟩
def F.MILL_STATUS_TRACK : Fld := ⟨R.MILL_STATUS, 11, 9⟩
def F.MILL_STATUS_CORNER : Fld := ⟨R.MILL_STATUS, 8, 6⟩
def F.MILL_STATUS_PYR : Fld := ⟨R.MILL_STATUS, 5, 3⟩
def F.MILL_STATUS_RECT : Fld := ⟨R.MILL_STATUS, 2, 0⟩
def R.MILL_EVT : Reg := ⟨0x500004, 0x0, 1, 0, 1, 0x0, 0x0, 0xFF, 0x0, 0x0, 0x0, 141⟩
def F.MILL_EVT_SWAP : Fld := ⟨R.MILL_EVT, 7, 7⟩
def F.MILL_EVT_ORDER : Fld := ⟨R.MILL_EVT, 6, 6⟩
def F.MILL_EVT_UNPAIRED : Fld := ⟨R.MILL_EVT, 5, 5⟩
def F.MILL_EVT_BAND_INVALID : Fld := ⟨R.MILL_EVT, 4, 4⟩
def F.MILL_EVT_CORNER_CAP : Fld := ⟨R.MILL_EVT, 3, 3⟩
def F.MILL_EVT_PATH_HOLD : Fld := ⟨R.MILL_EVT, 2, 2⟩
def F.MILL_EVT_DEGRADED : Fld := ⟨R.MILL_EVT, 1, 1⟩
def F.MILL_EVT_SKIP : Fld := ⟨R.MILL_EVT, 0, 0⟩
def R.MILL_SPARE : Reg := ⟨0x500008, 0x0, 1, 0, 1, 0x4924, 0x0, 0x0, 0x0, 0x0, 0x0, 142⟩
def F.MILL_SPARE_SGM : Fld := ⟨R.MILL_SPARE, 14, 12⟩
def F.MILL_SPARE_TRACK : Fld := ⟨R.MILL_SPARE, 11, 9⟩
def F.MILL_SPARE_CORNER : Fld := ⟨R.MILL_SPARE, 8, 6⟩
def F.MILL_SPARE_PYR : Fld := ⟨R.MILL_SPARE, 5, 3⟩
def F.MILL_SPARE_RECT : Fld := ⟨R.MILL_SPARE, 2, 0⟩
def R.MILL_PATH_HOLD : Reg := ⟨0x500010, 0x0, 1, 0, 1, 0x0, 0x0, 0x0, 0x0, 0x0, 0x0, 143⟩
def F.MILL_PATH_HOLD_US : Fld := ⟨R.MILL_PATH_HOLD, 31, 0⟩
def R.MILL_SKIPS : Reg := ⟨0x500014, 0x0, 1, 0, 1, 0x0, 0x0, 0x0, 0x0, 0x0, 0x0, 144⟩
def F.MILL_SKIPS_CLASS1 : Fld := ⟨R.MILL_SKIPS, 31, 16⟩
def F.MILL_SKIPS_CLASS0 : Fld := ⟨R.MILL_SKIPS, 15, 0⟩
def R.MILL_PIXELS_LO : Reg := ⟨0x500018, 0x0, 1, 0, 1, 0x0, 0x0, 0x0, 0x0, 0x0, 0x0, 145⟩
def F.MILL_PIXELS_LO_COUNT : Fld := ⟨R.MILL_PIXELS_LO, 31, 0⟩
def R.MILL_PIXELS_HI : Reg := ⟨0x50001C, 0x0, 1, 0, 1, 0x0, 0x0, 0x0, 0x0, 0x0, 0x0, 146⟩
def F.MILL_PIXELS_HI_COUNT : Fld := ⟨R.MILL_PIXELS_HI, 31, 0⟩
def R.MILL_BUSY : Reg := ⟨0x500020, 0x4, 5, 0, 1, 0x0, 0x0, 0x0, 0x0, 0x0, 0x0, 147⟩
def F.MILL_BUSY_PERMILLE : Fld := ⟨R.MILL_BUSY, 9, 0⟩
/-! Table 6-13. -/

def R.MILL_SNS_CTL : Reg := ⟨0x501000, 0x80, 32, 0, 1, 0x128000, 0x0, 0x0, 0x0, 0xFFFFFF00, 0x0, 148⟩
def F.MILL_SNS_CTL_ENABLE : Fld := ⟨R.MILL_SNS_CTL, 31, 31⟩
def F.MILL_SNS_CTL_PATH_EN : Fld := ⟨R.MILL_SNS_CTL, 30, 30⟩
def F.MILL_SNS_CTL_PATH_C : Fld := ⟨R.MILL_SNS_CTL, 29, 29⟩
def F.MILL_SNS_CTL_CORNER_EN : Fld := ⟨R.MILL_SNS_CTL, 28, 28⟩
def F.MILL_SNS_CTL_KLT_EN : Fld := ⟨R.MILL_SNS_CTL, 27, 27⟩
def F.MILL_SNS_CTL_LEVELS : Fld := ⟨R.MILL_SNS_CTL, 26, 24⟩
def F.MILL_SNS_CTL_CORNER_LEVEL : Fld := ⟨R.MILL_SNS_CTL, 23, 22⟩
def F.MILL_SNS_CTL_GRID : Fld := ⟨R.MILL_SNS_CTL, 21, 20⟩
def F.MILL_SNS_CTL_OUT_FRAMES : Fld := ⟨R.MILL_SNS_CTL, 19, 16⟩
def F.MILL_SNS_CTL_PRIORITY : Fld := ⟨R.MILL_SNS_CTL, 15, 8⟩
def R.MILL_SNS_GEOM : Reg := ⟨0x501004, 0x80, 32, 0, 1, 0x0, 0x0, 0x0, 0x0, 0x1FFF, 0x0, 149⟩
def F.MILL_SNS_GEOM_OUT_W : Fld := ⟨R.MILL_SNS_GEOM, 12, 0⟩
def R.MILL_SNS_MAP_LO : Reg := ⟨0x501008, 0x80, 32, 0, 1, 0x0, 0x0, 0x0, 0x0, 0xFFFFFFFF, 0x0, 150⟩
def F.MILL_SNS_MAP_LO_ADDR : Fld := ⟨R.MILL_SNS_MAP_LO, 31, 0⟩
def R.MILL_SNS_MAP_HI : Reg := ⟨0x50100C, 0x80, 32, 0, 1, 0x0, 0x0, 0x0, 0x0, 0xFFFFFFFF, 0x0, 151⟩
def F.MILL_SNS_MAP_HI_ADDR : Fld := ⟨R.MILL_SNS_MAP_HI, 31, 0⟩
def R.MILL_SNS_OUT_LO : Reg := ⟨0x501010, 0x80, 32, 0, 1, 0x0, 0x0, 0x0, 0x0, 0xFFFFFFFF, 0x0, 152⟩
def F.MILL_SNS_OUT_LO_ADDR : Fld := ⟨R.MILL_SNS_OUT_LO, 31, 0⟩
def R.MILL_SNS_OUT_HI : Reg := ⟨0x501014, 0x80, 32, 0, 1, 0x0, 0x0, 0x0, 0x0, 0xFFFFFFFF, 0x0, 153⟩
def F.MILL_SNS_OUT_HI_ADDR : Fld := ⟨R.MILL_SNS_OUT_HI, 31, 0⟩
def R.MILL_SNS_TALLY : Reg := ⟨0x501018, 0x80, 32, 0, 1, 0x0, 0x0, 0x0, 0x0, 0xFFFFFFFF, 0x0, 154⟩
def F.MILL_SNS_TALLY_FRONT : Fld := ⟨R.MILL_SNS_TALLY, 31, 16⟩
def F.MILL_SNS_TALLY_RELEASE : Fld := ⟨R.MILL_SNS_TALLY, 15, 0⟩
def R.MILL_SNS_TRK_TALLY : Reg := ⟨0x50101C, 0x80, 32, 0, 1, 0x0, 0x0, 0x0, 0x0, 0xFFFF0000, 0x0, 155⟩
def F.MILL_SNS_TRK_TALLY_LIST : Fld := ⟨R.MILL_SNS_TRK_TALLY, 31, 16⟩
def R.MILL_SNS_TRK_LO : Reg := ⟨0x501020, 0x80, 32, 0, 1, 0x0, 0x0, 0x0, 0x0, 0xFFFFFFFF, 0x0, 156⟩
def F.MILL_SNS_TRK_LO_ADDR : Fld := ⟨R.MILL_SNS_TRK_LO, 31, 0⟩
def R.MILL_SNS_TRK_HI : Reg := ⟨0x501024, 0x80, 32, 0, 1, 0x0, 0x0, 0x0, 0x0, 0xFFFFFFFF, 0x0, 157⟩
def F.MILL_SNS_TRK_HI_ADDR : Fld := ⟨R.MILL_SNS_TRK_HI, 31, 0⟩
def R.MILL_SNS_CORNER : Reg := ⟨0x501028, 0x80, 32, 0, 1, 0xC009080, 0x0, 0x0, 0x0, 0xFFFFFFC0, 0x0, 158⟩
def F.MILL_SNS_CORNER_THR : Fld := ⟨R.MILL_SNS_CORNER, 31, 16⟩
def F.MILL_SNS_CORNER_ARC : Fld := ⟨R.MILL_SNS_CORNER, 15, 12⟩
def F.MILL_SNS_CORNER_CELL : Fld := ⟨R.MILL_SNS_CORNER, 11, 10⟩
def F.MILL_SNS_CORNER_PER_CELL : Fld := ⟨R.MILL_SNS_CORNER, 9, 6⟩
def R.MILL_SNS_CORNER_MAX : Reg := ⟨0x50102C, 0x80, 32, 0, 1, 0x1000, 0x0, 0x0, 0x0, 0xFFFF3FFF, 0x0, 159⟩
def F.MILL_SNS_CORNER_MAX_MIN : Fld := ⟨R.MILL_SNS_CORNER_MAX, 31, 16⟩
def F.MILL_SNS_CORNER_MAX_MAX : Fld := ⟨R.MILL_SNS_CORNER_MAX, 13, 0⟩
def R.MILL_SNS_KLT : Reg := ⟨0x501030, 0x80, 32, 0, 1, 0x7C500080, 0x0, 0x0, 0x0, 0xFFF8FFFF, 0x0, 160⟩
def F.MILL_SNS_KLT_WIN : Fld := ⟨R.MILL_SNS_KLT, 31, 27⟩
def F.MILL_SNS_KLT_KLT_LEVELS : Fld := ⟨R.MILL_SNS_KLT, 26, 24⟩
def F.MILL_SNS_KLT_ITER_MAX : Fld := ⟨R.MILL_SNS_KLT, 23, 19⟩
def F.MILL_SNS_KLT_MARGIN : Fld := ⟨R.MILL_SNS_KLT, 15, 0⟩
def R.MILL_SNS_KLT_THR : Reg := ⟨0x501034, 0x80, 32, 0, 1, 0x400800, 0x0, 0x0, 0x0, 0xFFFFFFFF, 0x0, 161⟩
def F.MILL_SNS_KLT_THR_EIG_THR : Fld := ⟨R.MILL_SNS_KLT_THR, 31, 16⟩
def F.MILL_SNS_KLT_THR_RES_THR : Fld := ⟨R.MILL_SNS_KLT_THR, 15, 0⟩
def R.MILL_SNS_KLT_EPS : Reg := ⟨0x501038, 0x80, 32, 0, 1, 0x400, 0x0, 0x0, 0x0, 0xFFFF, 0x0, 162⟩
def F.MILL_SNS_KLT_EPS_EPS : Fld := ⟨R.MILL_SNS_KLT_EPS, 15, 0⟩
def R.MILL_SNS_KLT_MAXTRK : Reg := ⟨0x50103C, 0x80, 32, 0, 1, 0x400, 0x0, 0x0, 0x0, 0x1FFF, 0x0, 163⟩
def F.MILL_SNS_KLT_MAXTRK_TRACK_MAX : Fld := ⟨R.MILL_SNS_KLT_MAXTRK, 12, 0⟩
def R.MILL_SNS_LAST : Reg := ⟨0x501040, 0x80, 32, 0, 1, 0x0, 0x0, 0x0, 0x0, 0x0, 0x0, 164⟩
def F.MILL_SNS_LAST_STATUS : Fld := ⟨R.MILL_SNS_LAST, 31, 24⟩
def F.MILL_SNS_LAST_FLAGS : Fld := ⟨R.MILL_SNS_LAST, 7, 0⟩
def R.MILL_SNS_FRAME_ID : Reg := ⟨0x501044, 0x80, 32, 0, 1, 0x0, 0x0, 0x0, 0x0, 0x0, 0x0, 165⟩
def F.MILL_SNS_FRAME_ID_ID : Fld := ⟨R.MILL_SNS_FRAME_ID, 31, 0⟩
def R.MILL_SNS_CORNERS : Reg := ⟨0x501048, 0x80, 32, 0, 1, 0x0, 0x0, 0x0, 0x0, 0x0, 0x0, 166⟩
def F.MILL_SNS_CORNERS_FOUND : Fld := ⟨R.MILL_SNS_CORNERS, 31, 16⟩
def F.MILL_SNS_CORNERS_LISTED : Fld := ⟨R.MILL_SNS_CORNERS, 15, 0⟩
def R.MILL_SNS_TRACKS : Reg := ⟨0x50104C, 0x80, 32, 0, 1, 0x0, 0x0, 0x0, 0x0, 0x0, 0x0, 167⟩
def F.MILL_SNS_TRACKS_TRACKED : Fld := ⟨R.MILL_SNS_TRACKS, 31, 16⟩
def F.MILL_SNS_TRACKS_OTHER : Fld := ⟨R.MILL_SNS_TRACKS, 15, 0⟩
def R.MILL_SNS_SKIPS : Reg := ⟨0x501050, 0x80, 32, 0, 1, 0x0, 0x0, 0x0, 0x0, 0x0, 0x0, 168⟩
def F.MILL_SNS_SKIPS_COUNT : Fld := ⟨R.MILL_SNS_SKIPS, 31, 0⟩
/-! Table 6-14. -/

def R.MILL_SGM_CTL : Reg := ⟨0x503000, 0x80, 16, 0, 1, 0x61000010, 0x0, 0x0, 0x0, 0xFFC0FFF8, 0x0, 169⟩
def F.MILL_SGM_CTL_ENABLE : Fld := ⟨R.MILL_SGM_CTL, 31, 31⟩
def F.MILL_SGM_CTL_PATHS : Fld := ⟨R.MILL_SGM_CTL, 30, 30⟩
def F.MILL_SGM_CTL_LR_EN : Fld := ⟨R.MILL_SGM_CTL, 29, 29⟩
def F.MILL_SGM_CTL_DEPTH_EN : Fld := ⟨R.MILL_SGM_CTL, 28, 28⟩
def F.MILL_SGM_CTL_ADAPT : Fld := ⟨R.MILL_SGM_CTL, 27, 27⟩
def F.MILL_SGM_CTL_LR_TOL : Fld := ⟨R.MILL_SGM_CTL, 26, 24⟩
def F.MILL_SGM_CTL_LEVEL : Fld := ⟨R.MILL_SGM_CTL, 23, 22⟩
def F.MILL_SGM_CTL_LEFT : Fld := ⟨R.MILL_SGM_CTL, 15, 11⟩
def F.MILL_SGM_CTL_RIGHT : Fld := ⟨R.MILL_SGM_CTL, 10, 6⟩
def F.MILL_SGM_CTL_OUT_FRAMES : Fld := ⟨R.MILL_SGM_CTL, 5, 3⟩
def R.MILL_SGM_RANGE : Reg := ⟨0x503004, 0x80, 16, 0, 1, 0x80, 0x0, 0x0, 0x0, 0x3FF07FF, 0x0, 170⟩
def F.MILL_SGM_RANGE_DMIN : Fld := ⟨R.MILL_SGM_RANGE, 25, 16⟩
def F.MILL_SGM_RANGE_DNUM : Fld := ⟨R.MILL_SGM_RANGE, 10, 0⟩
def R.MILL_SGM_PEN : Reg := ⟨0x503008, 0x80, 16, 0, 1, 0x86008, 0x0, 0x0, 0x0, 0xFFFFF, 0x0, 171⟩
def F.MILL_SGM_PEN_P2_SHIFT : Fld := ⟨R.MILL_SGM_PEN, 19, 16⟩
def F.MILL_SGM_PEN_P2 : Fld := ⟨R.MILL_SGM_PEN, 15, 8⟩
def F.MILL_SGM_PEN_P1 : Fld := ⟨R.MILL_SGM_PEN, 7, 0⟩
def R.MILL_SGM_UNIQ : Reg := ⟨0x50300C, 0x80, 16, 0, 1, 0xA, 0x0, 0x0, 0x0, 0x7F, 0x0, 172⟩
def F.MILL_SGM_UNIQ_UNIQ : Fld := ⟨R.MILL_SGM_UNIQ, 6, 0⟩
def R.MILL_SGM_TEX : Reg := ⟨0x503010, 0x80, 16, 0, 1, 0x8000, 0x0, 0x0, 0x0, 0xFFFFFFFF, 0x0, 173⟩
def F.MILL_SGM_TEX_TEX_THR : Fld := ⟨R.MILL_SGM_TEX, 31, 0⟩
def R.MILL_SGM_FB : Reg := ⟨0x503014, 0x80, 16, 0, 1, 0x0, 0x0, 0x0, 0x0, 0xFFFFFFFF, 0x0, 174⟩
def F.MILL_SGM_FB_FB : Fld := ⟨R.MILL_SGM_FB, 31, 0⟩
def R.MILL_SGM_PAIR : Reg := ⟨0x503018, 0x80, 16, 0, 1, 0x64, 0x0, 0x0, 0x0, 0xFFFF, 0x0, 175⟩
def F.MILL_SGM_PAIR_PAIR_TOL : Fld := ⟨R.MILL_SGM_PAIR, 15, 0⟩
def R.MILL_SGM_TALLY : Reg := ⟨0x50301C, 0x80, 16, 0, 1, 0x0, 0x0, 0x0, 0x0, 0xFFFFFFFF, 0x0, 176⟩
def F.MILL_SGM_TALLY_OUT : Fld := ⟨R.MILL_SGM_TALLY, 31, 16⟩
def F.MILL_SGM_TALLY_RELEASE : Fld := ⟨R.MILL_SGM_TALLY, 15, 0⟩
def R.MILL_SGM_OUT_LO : Reg := ⟨0x503020, 0x80, 16, 0, 1, 0x0, 0x0, 0x0, 0x0, 0xFFFFFFFF, 0x0, 177⟩
def F.MILL_SGM_OUT_LO_ADDR : Fld := ⟨R.MILL_SGM_OUT_LO, 31, 0⟩
def R.MILL_SGM_OUT_HI : Reg := ⟨0x503024, 0x80, 16, 0, 1, 0x0, 0x0, 0x0, 0x0, 0xFFFFFFFF, 0x0, 178⟩
def F.MILL_SGM_OUT_HI_ADDR : Fld := ⟨R.MILL_SGM_OUT_HI, 31, 0⟩
def R.MILL_SGM_FWD_LO : Reg := ⟨0x503028, 0x80, 16, 0, 1, 0x0, 0x0, 0x0, 0x0, 0xFFFFFFFF, 0x0, 179⟩
def F.MILL_SGM_FWD_LO_ADDR : Fld := ⟨R.MILL_SGM_FWD_LO, 31, 0⟩
def R.MILL_SGM_FWD_HI : Reg := ⟨0x50302C, 0x80, 16, 0, 1, 0x0, 0x0, 0x0, 0x0, 0xFFFFFFFF, 0x0, 180⟩
def F.MILL_SGM_FWD_HI_ADDR : Fld := ⟨R.MILL_SGM_FWD_HI, 31, 0⟩
def R.MILL_SGM_LAST : Reg := ⟨0x503030, 0x80, 16, 0, 1, 0x0, 0x0, 0x0, 0x0, 0x0, 0x0, 181⟩
def F.MILL_SGM_LAST_STATUS : Fld := ⟨R.MILL_SGM_LAST, 31, 24⟩
def F.MILL_SGM_LAST_FLAGS : Fld := ⟨R.MILL_SGM_LAST, 7, 0⟩
def R.MILL_SGM_VALID : Reg := ⟨0x503034, 0x80, 16, 0, 1, 0x0, 0x0, 0x0, 0x0, 0x0, 0x0, 182⟩
def F.MILL_SGM_VALID_COUNT : Fld := ⟨R.MILL_SGM_VALID, 31, 0⟩
def R.MILL_SGM_CODES : Reg := ⟨0x503038, 0x80, 16, 0, 1, 0x0, 0x0, 0x0, 0x0, 0x0, 0x0, 183⟩
def F.MILL_SGM_CODES_NO_TEXTURE : Fld := ⟨R.MILL_SGM_CODES, 31, 24⟩
def F.MILL_SGM_CODES_OCCLUDED : Fld := ⟨R.MILL_SGM_CODES, 23, 16⟩
def F.MILL_SGM_CODES_RANGE : Fld := ⟨R.MILL_SGM_CODES, 15, 8⟩
def F.MILL_SGM_CODES_INVALID : Fld := ⟨R.MILL_SGM_CODES, 7, 0⟩
def R.MILL_SGM_SKIPS : Reg := ⟨0x50303C, 0x80, 16, 0, 1, 0x0, 0x0, 0x0, 0x0, 0x0, 0x0, 184⟩
def F.MILL_SGM_SKIPS_COUNT : Fld := ⟨R.MILL_SGM_SKIPS, 31, 0⟩
def R.MILL_FLOW_CTL : Reg := ⟨0x504000, 0x40, 16, 0, 1, 0x10820000, 0x0, 0x0, 0x0, 0x9FFF001F, 0x0, 185⟩
def F.MILL_FLOW_CTL_ENABLE : Fld := ⟨R.MILL_FLOW_CTL, 31, 31⟩
def F.MILL_FLOW_CTL_LEVELS : Fld := ⟨R.MILL_FLOW_CTL, 28, 26⟩
def F.MILL_FLOW_CTL_LEVEL : Fld := ⟨R.MILL_FLOW_CTL, 25, 24⟩
def F.MILL_FLOW_CTL_ITER : Fld := ⟨R.MILL_FLOW_CTL, 23, 20⟩
def F.MILL_FLOW_CTL_OUT_FRAMES : Fld := ⟨R.MILL_FLOW_CTL, 19, 16⟩
def F.MILL_FLOW_CTL_SENSOR : Fld := ⟨R.MILL_FLOW_CTL, 4, 0⟩
def R.MILL_FLOW_THR : Reg := ⟨0x504004, 0x40, 16, 0, 1, 0x201000, 0x0, 0x0, 0x0, 0xFFFFFFFF, 0x0, 186⟩
def F.MILL_FLOW_THR_EIG_THR : Fld := ⟨R.MILL_FLOW_THR, 31, 16⟩
def F.MILL_FLOW_THR_RES_THR : Fld := ⟨R.MILL_FLOW_THR, 15, 0⟩
def R.MILL_FLOW_TALLY : Reg := ⟨0x504008, 0x40, 16, 0, 1, 0x0, 0x0, 0x0, 0x0, 0xFFFFFFFF, 0x0, 187⟩
def F.MILL_FLOW_TALLY_OUT : Fld := ⟨R.MILL_FLOW_TALLY, 31, 16⟩
def F.MILL_FLOW_TALLY_RELEASE : Fld := ⟨R.MILL_FLOW_TALLY, 15, 0⟩
def R.MILL_FLOW_OUT_LO : Reg := ⟨0x50400C, 0x40, 16, 0, 1, 0x0, 0x0, 0x0, 0x0, 0xFFFFFFFF, 0x0, 188⟩
def F.MILL_FLOW_OUT_LO_ADDR : Fld := ⟨R.MILL_FLOW_OUT_LO, 31, 0⟩
def R.MILL_FLOW_OUT_HI : Reg := ⟨0x504010, 0x40, 16, 0, 1, 0x0, 0x0, 0x0, 0x0, 0xFFFFFFFF, 0x0, 189⟩
def F.MILL_FLOW_OUT_HI_ADDR : Fld := ⟨R.MILL_FLOW_OUT_HI, 31, 0⟩
def R.MILL_FLOW_SCR_LO : Reg := ⟨0x504014, 0x40, 16, 0, 1, 0x0, 0x0, 0x0, 0x0, 0xFFFFFFFF, 0x0, 190⟩
def F.MILL_FLOW_SCR_LO_ADDR : Fld := ⟨R.MILL_FLOW_SCR_LO, 31, 0⟩
def R.MILL_FLOW_SCR_HI : Reg := ⟨0x504018, 0x40, 16, 0, 1, 0x0, 0x0, 0x0, 0x0, 0xFFFFFFFF, 0x0, 191⟩
def F.MILL_FLOW_SCR_HI_ADDR : Fld := ⟨R.MILL_FLOW_SCR_HI, 31, 0⟩
def R.MILL_FLOW_LAST : Reg := ⟨0x50401C, 0x40, 16, 0, 1, 0x0, 0x0, 0x0, 0x0, 0x0, 0x0, 192⟩
def F.MILL_FLOW_LAST_STATUS : Fld := ⟨R.MILL_FLOW_LAST, 31, 24⟩
def F.MILL_FLOW_LAST_FLAGS : Fld := ⟨R.MILL_FLOW_LAST, 7, 0⟩
def R.MILL_FLOW_INVALID : Reg := ⟨0x504020, 0x40, 16, 0, 1, 0x0, 0x0, 0x0, 0x0, 0x0, 0x0, 193⟩
def F.MILL_FLOW_INVALID_COUNT : Fld := ⟨R.MILL_FLOW_INVALID, 31, 0⟩
def R.MILL_FLOW_SKIPS : Reg := ⟨0x504024, 0x40, 16, 0, 1, 0x0, 0x0, 0x0, 0x0, 0x0, 0x0, 194⟩
def F.MILL_FLOW_SKIPS_COUNT : Fld := ⟨R.MILL_FLOW_SKIPS, 31, 0⟩
/-! Table 7-12. -/

def R.TNS_STATUS : Reg := ⟨0x600000, 0x0, 1, 0, 1, 0x0, 0x0, 0x0, 0x0, 0x0, 0x0, 195⟩
def F.TNS_STATUS_DEGRADED : Fld := ⟨R.TNS_STATUS, 31, 31⟩
def F.TNS_STATUS_FIT_REDUCED : Fld := ⟨R.TNS_STATUS, 30, 30⟩
def F.TNS_STATUS_CORES : Fld := ⟨R.TNS_STATUS, 15, 8⟩
def F.TNS_STATUS_CLUSTERS : Fld := ⟨R.TNS_STATUS, 3, 0⟩
def R.TNS_EVT : Reg := ⟨0x600004, 0x0, 1, 0, 1, 0x0, 0x0, 0xFF, 0x0, 0x0, 0x0, 196⟩
def F.TNS_EVT_REFIT : Fld := ⟨R.TNS_EVT, 7, 7⟩
def F.TNS_EVT_SWAP : Fld := ⟨R.TNS_EVT, 6, 6⟩
def F.TNS_EVT_NAN : Fld := ⟨R.TNS_EVT, 5, 5⟩
def F.TNS_EVT_SAT : Fld := ⟨R.TNS_EVT, 4, 4⟩
def F.TNS_EVT_DEGRADED : Fld := ⟨R.TNS_EVT, 3, 3⟩
def F.TNS_EVT_REDUCED : Fld := ⟨R.TNS_EVT, 2, 2⟩
def F.TNS_EVT_LATE_OTHER : Fld := ⟨R.TNS_EVT, 1, 1⟩
def F.TNS_EVT_LATE_WEIGHTS : Fld := ⟨R.TNS_EVT, 0, 0⟩
def R.TNS_CLUSTER_MAP : Reg := ⟨0x600008, 0x0, 1, 0, 1, 0x0, 0x0, 0x0, 0x0, 0x0, 0x0, 197⟩
def F.TNS_CLUSTER_MAP_SPARE : Fld := ⟨R.TNS_CLUSTER_MAP, 26, 16⟩
def F.TNS_CLUSTER_MAP_ACTIVE : Fld := ⟨R.TNS_CLUSTER_MAP, 10, 0⟩
def R.TNS_CLUSTER_PHYS : Reg := ⟨0x60000C, 0x0, 1, 0, 1, 0x0, 0x0, 0x0, 0x0, 0x0, 0x0, 198⟩
def F.TNS_CLUSTER_PHYS_MAP : Fld := ⟨R.TNS_CLUSTER_PHYS, 31, 0⟩
def R.TNS_FIT : Reg := ⟨0x600010, 0x0, 1, 0, 1, 0x10000, 0x0, 0x0, 0x0, 0x0, 0x0, 199⟩
def F.TNS_FIT_RATE : Fld := ⟨R.TNS_FIT, 16, 0⟩
def R.TNS_FIT_LIMIT : Reg := ⟨0x600014, 0x0, 1, 0, 1, 0xF852, 0x0, 0x0, 0x0, 0xFFFF, 0x0, 200⟩
def F.TNS_FIT_LIMIT_LIMIT : Fld := ⟨R.TNS_FIT_LIMIT, 15, 0⟩
def R.TNS_SPILL_BW : Reg := ⟨0x600018, 0x0, 1, 0, 1, 0x40, 0x0, 0x0, 0x0, 0xFF, 0x0, 201⟩
def F.TNS_SPILL_BW_GBPS : Fld := ⟨R.TNS_SPILL_BW, 7, 0⟩
def R.TNS_HOPPER_WEIGHTS : Reg := ⟨0x60001C, 0x0, 1, 0, 1, 0x80, 0x0, 0x0, 0x0, 0xFF, 0x0, 202⟩
def F.TNS_HOPPER_WEIGHTS_MIB : Fld := ⟨R.TNS_HOPPER_WEIGHTS, 7, 0⟩
def R.TNS_LATE_WEIGHTS : Reg := ⟨0x600020, 0x0, 1, 0, 1, 0x0, 0x0, 0x0, 0x0, 0x0, 0x0, 203⟩
def F.TNS_LATE_WEIGHTS_COUNT : Fld := ⟨R.TNS_LATE_WEIGHTS, 31, 0⟩
def R.TNS_LATE_OTHER : Reg := ⟨0x600024, 0x0, 1, 0, 1, 0x0, 0x0, 0x0, 0x0, 0x0, 0x0, 204⟩
def F.TNS_LATE_OTHER_COUNT : Fld := ⟨R.TNS_LATE_OTHER, 31, 0⟩
def R.TNS_REDUCED_FRAMES : Reg := ⟨0x600028, 0x0, 1, 0, 1, 0x0, 0x0, 0x0, 0x0, 0x0, 0x0, 205⟩
def F.TNS_REDUCED_FRAMES_COUNT : Fld := ⟨R.TNS_REDUCED_FRAMES, 31, 0⟩
def R.TNS_SAT_COUNT : Reg := ⟨0x60002C, 0x0, 1, 0, 1, 0x0, 0x0, 0x0, 0x0, 0x0, 0x0, 206⟩
def F.TNS_SAT_COUNT_COUNT : Fld := ⟨R.TNS_SAT_COUNT, 31, 0⟩
def R.TNS_NAN_COUNT : Reg := ⟨0x600030, 0x0, 1, 0, 1, 0x0, 0x0, 0x0, 0x0, 0x0, 0x0, 207⟩
def F.TNS_NAN_COUNT_COUNT : Fld := ⟨R.TNS_NAN_COUNT, 31, 0⟩
def R.TNS_STALL_US : Reg := ⟨0x600034, 0x0, 1, 0, 1, 0x0, 0x0, 0x0, 0x0, 0x0, 0x0, 208⟩
def F.TNS_STALL_US_US : Fld := ⟨R.TNS_STALL_US, 31, 0⟩
def R.TNS_OPS_LO : Reg := ⟨0x600038, 0x0, 1, 0, 1, 0x0, 0x0, 0x0, 0x0, 0x0, 0x0, 209⟩
def F.TNS_OPS_LO_GOP : Fld := ⟨R.TNS_OPS_LO, 31, 0⟩
def R.TNS_OPS_HI : Reg := ⟨0x60003C, 0x0, 1, 0, 1, 0x0, 0x0, 0x0, 0x0, 0x0, 0x0, 210⟩
def F.TNS_OPS_HI_GOP : Fld := ⟨R.TNS_OPS_HI, 31, 0⟩
def R.TNS_BUSY : Reg := ⟨0x600040, 0x4, 8, 0, 1, 0x0, 0x0, 0x0, 0x0, 0x0, 0x0, 211⟩
def F.TNS_BUSY_PERMILLE : Fld := ⟨R.TNS_BUSY, 9, 0⟩
def R.TNS_NET_CTL : Reg := ⟨0x601000, 0x40, 16, 0, 1, 0x10000000, 0x0, 0x0, 0x0, 0xF8FF00FF, 0x0, 212⟩
def F.TNS_NET_CTL_ENABLE : Fld := ⟨R.TNS_NET_CTL, 31, 31⟩
def F.TNS_NET_CTL_PREFETCH : Fld := ⟨R.TNS_NET_CTL, 30, 27⟩
def F.TNS_NET_CTL_GROUP : Fld := ⟨R.TNS_NET_CTL, 23, 16⟩
def F.TNS_NET_CTL_LAYERS : Fld := ⟨R.TNS_NET_CTL, 7, 0⟩
def R.TNS_NET_MOP : Reg := ⟨0x601004, 0x40, 16, 0, 1, 0x0, 0x0, 0x0, 0x0, 0xFFFFFFFF, 0x0, 213⟩
def F.TNS_NET_MOP_MOP : Fld := ⟨R.TNS_NET_MOP, 31, 0⟩
def R.TNS_NET_FB_MOP : Reg := ⟨0x601008, 0x40, 16, 0, 1, 0x0, 0x0, 0x0, 0x0, 0xFFFFFFFF, 0x0, 214⟩
def F.TNS_NET_FB_MOP_MOP : Fld := ⟨R.TNS_NET_FB_MOP, 31, 0⟩
def R.TNS_NET_EFF : Reg := ⟨0x60100C, 0x40, 16, 0, 1, 0x0, 0x0, 0x0, 0x0, 0xFFFFFFFF, 0x0, 215⟩
def F.TNS_NET_EFF_FB : Fld := ⟨R.TNS_NET_EFF, 31, 16⟩
def F.TNS_NET_EFF_MAIN : Fld := ⟨R.TNS_NET_EFF, 15, 0⟩
def R.TNS_NET_RES_CORE : Reg := ⟨0x601010, 0x40, 16, 0, 1, 0x0, 0x0, 0x0, 0x0, 0x0, 0x0, 216⟩
def F.TNS_NET_RES_CORE_KIB : Fld := ⟨R.TNS_NET_RES_CORE, 31, 0⟩
def R.TNS_NET_RES_CLUSTER : Reg := ⟨0x601014, 0x40, 16, 0, 1, 0x0, 0x0, 0x0, 0x0, 0x0, 0x0, 217⟩
def F.TNS_NET_RES_CLUSTER_KIB : Fld := ⟨R.TNS_NET_RES_CLUSTER, 31, 0⟩
def R.TNS_NET_RES_HOPPER : Reg := ⟨0x601018, 0x40, 16, 0, 1, 0x0, 0x0, 0x0, 0x0, 0x0, 0x0, 218⟩
def F.TNS_NET_RES_HOPPER_KIB : Fld := ⟨R.TNS_NET_RES_HOPPER, 31, 0⟩
def R.TNS_NET_RES_DDR : Reg := ⟨0x60101C, 0x40, 16, 0, 1, 0x0, 0x0, 0x0, 0x0, 0x0, 0x0, 219⟩
def F.TNS_NET_RES_DDR_KIB : Fld := ⟨R.TNS_NET_RES_DDR, 31, 0⟩
def R.TNS_NET_FB_PIN : Reg := ⟨0x601020, 0x40, 16, 0, 1, 0x0, 0x0, 0x0, 0x0, 0x0, 0x0, 220⟩
def F.TNS_NET_FB_PIN_KIB : Fld := ⟨R.TNS_NET_FB_PIN, 31, 0⟩
/-! Table 7-13. -/

def R.TNS_INS_CTL : Reg := ⟨0x602000, 0x40, 64, 0, 1, 0x20, 0x0, 0x0, 0x0, 0xC0F01FF0, 0x0, 221⟩
def F.TNS_INS_CTL_ENABLE : Fld := ⟨R.TNS_INS_CTL, 31, 31⟩
def F.TNS_INS_CTL_KEYPOINTS : Fld := ⟨R.TNS_INS_CTL, 30, 30⟩
def F.TNS_INS_CTL_NET : Fld := ⟨R.TNS_INS_CTL, 23, 20⟩
def F.TNS_INS_CTL_SENSOR : Fld := ⟨R.TNS_INS_CTL, 12, 8⟩
def F.TNS_INS_CTL_OUT_FRAMES : Fld := ⟨R.TNS_INS_CTL, 7, 4⟩
def R.TNS_INS_DEADLINE : Reg := ⟨0x602004, 0x40, 64, 0, 1, 0x0, 0x0, 0x0, 0x0, 0xFFFFFF, 0x0, 222⟩
def F.TNS_INS_DEADLINE_US : Fld := ⟨R.TNS_INS_DEADLINE, 23, 0⟩
def R.TNS_INS_TALLY : Reg := ⟨0x602008, 0x40, 64, 0, 1, 0x0, 0x0, 0x0, 0x0, 0xFFFFFFFF, 0x0, 223⟩
def F.TNS_INS_TALLY_OUT : Fld := ⟨R.TNS_INS_TALLY, 31, 16⟩
def F.TNS_INS_TALLY_RELEASE : Fld := ⟨R.TNS_INS_TALLY, 15, 0⟩
def R.TNS_INS_OUT_LO : Reg := ⟨0x60200C, 0x40, 64, 0, 1, 0x0, 0x0, 0x0, 0x0, 0xFFFFFFFF, 0x0, 224⟩
def F.TNS_INS_OUT_LO_ADDR : Fld := ⟨R.TNS_INS_OUT_LO, 31, 0⟩
def R.TNS_INS_OUT_HI : Reg := ⟨0x602010, 0x40, 64, 0, 1, 0x0, 0x0, 0x0, 0x0, 0xFFFFFFFF, 0x0, 225⟩
def F.TNS_INS_OUT_HI_ADDR : Fld := ⟨R.TNS_INS_OUT_HI, 31, 0⟩
def R.TNS_INS_INPUT : Reg := ⟨0x602014, 0x40, 64, 0, 1, 0x3C000000, 0x0, 0x0, 0x0, 0xFFFFFFFF, 0x0, 226⟩
def F.TNS_INS_INPUT_IN_SCALE : Fld := ⟨R.TNS_INS_INPUT, 31, 16⟩
def F.TNS_INS_INPUT_IN_BIAS : Fld := ⟨R.TNS_INS_INPUT, 15, 0⟩
def R.TNS_INS_KP : Reg := ⟨0x602018, 0x40, 64, 0, 1, 0x1484100, 0x0, 0x0, 0x0, 0xFFFFFFFF, 0x0, 227⟩
def F.TNS_INS_KP_SCORE_THR : Fld := ⟨R.TNS_INS_KP, 31, 16⟩
def F.TNS_INS_KP_NMS : Fld := ⟨R.TNS_INS_KP, 15, 12⟩
def F.TNS_INS_KP_MAX_BAND : Fld := ⟨R.TNS_INS_KP, 11, 0⟩
def R.TNS_INS_LAST : Reg := ⟨0x60201C, 0x40, 64, 0, 1, 0xFF0000, 0x0, 0x0, 0x0, 0x0, 0x0, 228⟩
def F.TNS_INS_LAST_STATUS : Fld := ⟨R.TNS_INS_LAST, 31, 24⟩
def F.TNS_INS_LAST_FB_FROM : Fld := ⟨R.TNS_INS_LAST, 23, 16⟩
def F.TNS_INS_LAST_FLAGS : Fld := ⟨R.TNS_INS_LAST, 8, 0⟩
def R.TNS_INS_FRAME_ID : Reg := ⟨0x602020, 0x40, 64, 0, 1, 0x0, 0x0, 0x0, 0x0, 0x0, 0x0, 229⟩
def F.TNS_INS_FRAME_ID_ID : Fld := ⟨R.TNS_INS_FRAME_ID, 31, 0⟩
def R.TNS_INS_LAT : Reg := ⟨0x602024, 0x40, 64, 0, 1, 0x0, 0x0, 0x0, 0x0, 0x0, 0x0, 230⟩
def F.TNS_INS_LAT_US : Fld := ⟨R.TNS_INS_LAT, 31, 0⟩
def R.TNS_INS_FALLBACKS : Reg := ⟨0x602028, 0x40, 64, 0, 1, 0x0, 0x0, 0x0, 0x0, 0x0, 0x0, 231⟩
def F.TNS_INS_FALLBACKS_LATE_WEIGHTS : Fld := ⟨R.TNS_INS_FALLBACKS, 31, 16⟩
def F.TNS_INS_FALLBACKS_FRAMES : Fld := ⟨R.TNS_INS_FALLBACKS, 15, 0⟩
def R.TNS_INS_KP_COUNT : Reg := ⟨0x60202C, 0x40, 64, 0, 1, 0x0, 0x0, 0x0, 0x0, 0x0, 0x0, 232⟩
def F.TNS_INS_KP_COUNT_FOUND : Fld := ⟨R.TNS_INS_KP_COUNT, 31, 16⟩
def F.TNS_INS_KP_COUNT_LISTED : Fld := ⟨R.TNS_INS_KP_COUNT, 15, 0⟩
/-! Table 8-12. -/

def R.MEM_STATUS : Reg := ⟨0x700000, 0x0, 1, 0, 1, 0x0, 0x0, 0x0, 0x0, 0x0, 0x0, 233⟩
def F.MEM_STATUS_CELLAR_READY : Fld := ⟨R.MEM_STATUS, 31, 31⟩
def F.MEM_STATUS_CELLAR_FAILED : Fld := ⟨R.MEM_STATUS, 30, 30⟩
def F.MEM_STATUS_CELLAR_ENCRYPTED : Fld := ⟨R.MEM_STATUS, 29, 29⟩
def F.MEM_STATUS_CELLAR_FOREIGN : Fld := ⟨R.MEM_STATUS, 28, 28⟩
def F.MEM_STATUS_HOPPER_OK : Fld := ⟨R.MEM_STATUS, 25, 24⟩
def F.MEM_STATUS_CH_OK : Fld := ⟨R.MEM_STATUS, 23, 20⟩
def F.MEM_STATUS_REFILLS : Fld := ⟨R.MEM_STATUS, 7, 0⟩
def R.MEM_EVT : Reg := ⟨0x700004, 0x0, 1, 0, 1, 0x0, 0x0, 0x7FF, 0x0, 0x0, 0x0, 234⟩
def F.MEM_EVT_HOT_AS_DEEP : Fld := ⟨R.MEM_EVT, 10, 10⟩
def F.MEM_EVT_PAGE_LOST : Fld := ⟨R.MEM_EVT, 9, 9⟩
def F.MEM_EVT_CH_RETIRED : Fld := ⟨R.MEM_EVT, 8, 8⟩
def F.MEM_EVT_CELLAR_FAIL : Fld := ⟨R.MEM_EVT, 7, 7⟩
def F.MEM_EVT_CELLAR_RESET : Fld := ⟨R.MEM_EVT, 6, 6⟩
def F.MEM_EVT_REFILL_FLASH : Fld := ⟨R.MEM_EVT, 5, 5⟩
def F.MEM_EVT_REFILL : Fld := ⟨R.MEM_EVT, 4, 4⟩
def F.MEM_EVT_UE : Fld := ⟨R.MEM_EVT, 3, 3⟩
def F.MEM_EVT_CE : Fld := ⟨R.MEM_EVT, 2, 2⟩
def F.MEM_EVT_LINK_RETRY : Fld := ⟨R.MEM_EVT, 1, 1⟩
def F.MEM_EVT_ADDR_FAULT : Fld := ⟨R.MEM_EVT, 0, 0⟩
def R.MEM_DDR_CFG : Reg := ⟨0x700008, 0x0, 1, 0, 1, 0xF240, 0x0, 0x0, 0x0, 0xFFFF, 0x0, 235⟩
def F.MEM_DDR_CFG_CH_MASK : Fld := ⟨R.MEM_DDR_CFG, 15, 12⟩
def F.MEM_DDR_CFG_RANKS : Fld := ⟨R.MEM_DDR_CFG, 11, 10⟩
def F.MEM_DDR_CFG_DENSITY : Fld := ⟨R.MEM_DDR_CFG, 9, 8⟩
def F.MEM_DDR_CFG_RATE : Fld := ⟨R.MEM_DDR_CFG, 7, 0⟩
def R.MEM_DDR_TRAIN : Reg := ⟨0x70000C, 0x0, 1, 0, 1, 0x0, 0x0, 0x0, 0x0, 0x0, 0x0, 236⟩
def F.MEM_DDR_TRAIN_RESULT : Fld := ⟨R.MEM_DDR_TRAIN, 15, 0⟩
def R.MEM_DDR_SIZE_LO : Reg := ⟨0x700010, 0x0, 1, 0, 1, 0x0, 0x0, 0x0, 0x0, 0x0, 0x0, 237⟩
def F.MEM_DDR_SIZE_LO_BYTES : Fld := ⟨R.MEM_DDR_SIZE_LO, 31, 0⟩
def R.MEM_DDR_SIZE_HI : Reg := ⟨0x700014, 0x0, 1, 0, 1, 0x0, 0x0, 0x0, 0x0, 0x0, 0x0, 238⟩
def F.MEM_DDR_SIZE_HI_BYTES : Fld := ⟨R.MEM_DDR_SIZE_HI, 31, 0⟩
def R.MEM_SCRUB : Reg := ⟨0x700018, 0x0, 1, 0, 1, 0x1800000A, 0x0, 0x0, 0x0, 0xFF00FFFF, 0x0, 239⟩
def F.MEM_SCRUB_DDR_HOURS : Fld := ⟨R.MEM_SCRUB, 31, 24⟩
def F.MEM_SCRUB_SRAM_S : Fld := ⟨R.MEM_SCRUB, 15, 0⟩
def R.MEM_CE_LIMIT : Reg := ⟨0x70001C, 0x0, 1, 0, 1, 0x400, 0x0, 0x0, 0x0, 0xFFFF, 0x0, 240⟩
def F.MEM_CE_LIMIT_LIMIT : Fld := ⟨R.MEM_CE_LIMIT, 15, 0⟩
def R.MEM_MIG_CFG : Reg := ⟨0x700020, 0x0, 1, 0, 1, 0x408203E8, 0x0, 0x0, 0x0, 0xFFFFFFFF, 0x0, 241⟩
def F.MEM_MIG_CFG_MIG_BW : Fld := ⟨R.MEM_MIG_CFG, 31, 24⟩
def F.MEM_MIG_CFG_HYST : Fld := ⟨R.MEM_MIG_CFG, 23, 20⟩
def F.MEM_MIG_CFG_LOW_WATER : Fld := ⟨R.MEM_MIG_CFG, 19, 16⟩
def F.MEM_MIG_CFG_PERIOD_US : Fld := ⟨R.MEM_MIG_CFG, 15, 0⟩
def R.MEM_WB_AGE : Reg := ⟨0x700024, 0x0, 1, 0, 1, 0xA, 0x0, 0x0, 0x0, 0xFFFF, 0x0, 242⟩
def F.MEM_WB_AGE_S : Fld := ⟨R.MEM_WB_AGE, 15, 0⟩
def R.MEM_MIG_COUNT : Reg := ⟨0x700028, 0x0, 1, 0, 1, 0x0, 0x0, 0x0, 0x0, 0x0, 0x0, 243⟩
def F.MEM_MIG_COUNT_DEMOTED : Fld := ⟨R.MEM_MIG_COUNT, 31, 16⟩
def F.MEM_MIG_COUNT_PROMOTED : Fld := ⟨R.MEM_MIG_COUNT, 15, 0⟩
def R.MEM_MIG_SKIPPED : Reg := ⟨0x70002C, 0x0, 1, 0, 1, 0x0, 0x0, 0x0, 0x0, 0x0, 0x0, 244⟩
def F.MEM_MIG_SKIPPED_COUNT : Fld := ⟨R.MEM_MIG_SKIPPED, 31, 0⟩
def R.MEM_MIG_BYTES_LO : Reg := ⟨0x700030, 0x0, 1, 0, 1, 0x0, 0x0, 0x0, 0x0, 0x0, 0x0, 245⟩
def F.MEM_MIG_BYTES_LO_BYTES : Fld := ⟨R.MEM_MIG_BYTES_LO, 31, 0⟩
def R.MEM_MIG_BYTES_HI : Reg := ⟨0x700034, 0x0, 1, 0, 1, 0x0, 0x0, 0x0, 0x0, 0x0, 0x0, 246⟩
def F.MEM_MIG_BYTES_HI_BYTES : Fld := ⟨R.MEM_MIG_BYTES_HI, 31, 0⟩
def R.MEM_PT_PAGES : Reg := ⟨0x700038, 0x0, 1, 0, 1, 0x0, 0x0, 0x0, 0x0, 0x0, 0x0, 247⟩
def F.MEM_PT_PAGES_PAGES : Fld := ⟨R.MEM_PT_PAGES, 31, 0⟩
def R.MEM_ERR_ADDR_LO : Reg := ⟨0x700040, 0x0, 1, 0, 1, 0x0, 0x0, 0x0, 0x0, 0x0, 0x0, 248⟩
def F.MEM_ERR_ADDR_LO_ADDR : Fld := ⟨R.MEM_ERR_ADDR_LO, 31, 0⟩
def R.MEM_ERR_ADDR_HI : Reg := ⟨0x700044, 0x0, 1, 0, 1, 0x0, 0x0, 0x0, 0x0, 0x0, 0x0, 249⟩
def F.MEM_ERR_ADDR_HI_ADDR : Fld := ⟨R.MEM_ERR_ADDR_HI, 31, 0⟩
def R.MEM_ERR_INFO : Reg := ⟨0x700048, 0x0, 1, 0, 1, 0x0, 0x0, 0x0, 0x0, 0x0, 0x0, 250⟩
def F.MEM_ERR_INFO_BLOCK : Fld := ⟨R.MEM_ERR_INFO, 31, 24⟩
def F.MEM_ERR_INFO_TIER : Fld := ⟨R.MEM_ERR_INFO, 15, 12⟩
def F.MEM_ERR_INFO_KIND : Fld := ⟨R.MEM_ERR_INFO, 11, 8⟩
def F.MEM_ERR_INFO_UNIT : Fld := ⟨R.MEM_ERR_INFO, 7, 0⟩
def R.MEM_REFILL_DDR : Reg := ⟨0x700050, 0x0, 1, 0, 1, 0x0, 0x0, 0x0, 0x0, 0x0, 0x0, 251⟩
def F.MEM_REFILL_DDR_COUNT : Fld := ⟨R.MEM_REFILL_DDR, 31, 0⟩
def R.MEM_REFILL_CELLAR : Reg := ⟨0x700054, 0x0, 1, 0, 1, 0x0, 0x0, 0x0, 0x0, 0x0, 0x0, 252⟩
def F.MEM_REFILL_CELLAR_COUNT : Fld := ⟨R.MEM_REFILL_CELLAR, 31, 0⟩
def R.MEM_REFILL_FLASH : Reg := ⟨0x700058, 0x0, 1, 0, 1, 0x0, 0x0, 0x0, 0x0, 0x0, 0x0, 253⟩
def F.MEM_REFILL_FLASH_COUNT : Fld := ⟨R.MEM_REFILL_FLASH, 31, 0⟩
def R.MEM_PAGES_LOST : Reg := ⟨0x70005C, 0x0, 1, 0, 1, 0x0, 0x0, 0x0, 0x0, 0x0, 0x0, 254⟩
def F.MEM_PAGES_LOST_COUNT : Fld := ⟨R.MEM_PAGES_LOST, 31, 0⟩
def R.MEM_SRAM_CE : Reg := ⟨0x700060, 0x0, 1, 0, 1, 0x0, 0x0, 0x0, 0x0, 0x0, 0x0, 255⟩
def F.MEM_SRAM_CE_COUNT : Fld := ⟨R.MEM_SRAM_CE, 31, 0⟩
def R.MEM_SRAM_UE : Reg := ⟨0x700064, 0x0, 1, 0, 1, 0x0, 0x0, 0x0, 0x0, 0x0, 0x0, 256⟩
def F.MEM_SRAM_UE_COUNT : Fld := ⟨R.MEM_SRAM_UE, 31, 0⟩
def R.MEM_NOC_CRC : Reg := ⟨0x700068, 0x0, 1, 0, 1, 0x0, 0x0, 0x0, 0x0, 0x0, 0x0, 257⟩
def F.MEM_NOC_CRC_UE : Fld := ⟨R.MEM_NOC_CRC, 31, 16⟩
def F.MEM_NOC_CRC_RETRIES : Fld := ⟨R.MEM_NOC_CRC, 15, 0⟩
def R.MEM_ADDR_FAULTS : Reg := ⟨0x70006C, 0x0, 1, 0, 1, 0x0, 0x0, 0x0, 0x0, 0x0, 0x0, 258⟩
def F.MEM_ADDR_FAULTS_COUNT : Fld := ⟨R.MEM_ADDR_FAULTS, 31, 0⟩
def R.MEM_HOP_CE : Reg := ⟨0x700100, 0x20, 2, 0, 1, 0x0, 0x0, 0x0, 0x0, 0x0, 0x0, 259⟩
def F.MEM_HOP_CE_COUNT : Fld := ⟨R.MEM_HOP_CE, 31, 0⟩
def R.MEM_HOP_UE : Reg := ⟨0x700104, 0x20, 2, 0, 1, 0x0, 0x0, 0x0, 0x0, 0x0, 0x0, 260⟩
def F.MEM_HOP_UE_COUNT : Fld := ⟨R.MEM_HOP_UE, 31, 0⟩
def R.MEM_HOP_LINK : Reg := ⟨0x700108, 0x20, 2, 0, 1, 0x0, 0x0, 0x0, 0x0, 0x0, 0x0, 261⟩
def F.MEM_HOP_LINK_LANES : Fld := ⟨R.MEM_HOP_LINK, 31, 16⟩
def F.MEM_HOP_LINK_RETRIES : Fld := ⟨R.MEM_HOP_LINK, 15, 0⟩
def R.MEM_HOP_FRAMES : Reg := ⟨0x70010C, 0x20, 2, 0, 1, 0x0, 0x0, 0x0, 0x0, 0x0, 0x0, 262⟩
def F.MEM_HOP_FRAMES_RETIRED : Fld := ⟨R.MEM_HOP_FRAMES, 31, 16⟩
def F.MEM_HOP_FRAMES_IN_USE : Fld := ⟨R.MEM_HOP_FRAMES, 15, 0⟩
def R.MEM_HOP_BUSY : Reg := ⟨0x700110, 0x20, 2, 0, 1, 0x0, 0x0, 0x0, 0x0, 0x0, 0x0, 263⟩
def F.MEM_HOP_BUSY_PERMILLE : Fld := ⟨R.MEM_HOP_BUSY, 9, 0⟩
def R.MEM_CH_STATE : Reg := ⟨0x700200, 0x20, 4, 0, 1, 0x0, 0x0, 0x0, 0x0, 0x0, 0x0, 264⟩
def F.MEM_CH_STATE_CAUSE : Fld := ⟨R.MEM_CH_STATE, 7, 4⟩
def F.MEM_CH_STATE_HOT_REFRESH : Fld := ⟨R.MEM_CH_STATE, 2, 2⟩
def F.MEM_CH_STATE_STATE : Fld := ⟨R.MEM_CH_STATE, 1, 0⟩
def R.MEM_CH_CE : Reg := ⟨0x700204, 0x20, 4, 0, 1, 0x0, 0x0, 0x0, 0x0, 0x0, 0x0, 265⟩
def F.MEM_CH_CE_COUNT : Fld := ⟨R.MEM_CH_CE, 31, 0⟩
def R.MEM_CH_UE : Reg := ⟨0x700208, 0x20, 4, 0, 1, 0x0, 0x0, 0x0, 0x0, 0x0, 0x0, 266⟩
def F.MEM_CH_UE_COUNT : Fld := ⟨R.MEM_CH_UE, 31, 0⟩
def R.MEM_CH_WCRC : Reg := ⟨0x70020C, 0x20, 4, 0, 1, 0x0, 0x0, 0x0, 0x0, 0x0, 0x0, 267⟩
def F.MEM_CH_WCRC_COUNT : Fld := ⟨R.MEM_CH_WCRC, 31, 0⟩
def R.MEM_CH_BUSY : Reg := ⟨0x700210, 0x20, 4, 0, 1, 0x0, 0x0, 0x0, 0x0, 0x0, 0x0, 268⟩
def F.MEM_CH_BUSY_PERMILLE : Fld := ⟨R.MEM_CH_BUSY, 9, 0⟩
def R.MEM_CH_FRAMES : Reg := ⟨0x700214, 0x20, 4, 0, 1, 0x0, 0x0, 0x0, 0x0, 0x0, 0x0, 269⟩
def F.MEM_CH_FRAMES_IN_USE : Fld := ⟨R.MEM_CH_FRAMES, 20, 0⟩
/-! Table 8-13. -/

def R.MEM_CELLAR_CFG : Reg := ⟨0x700300, 0x0, 1, 0, 1, 0x1007D0, 0x0, 0x0, 0x0, 0xE0FFFFFF, 0x0, 270⟩
def F.MEM_CELLAR_CFG_ENABLE : Fld := ⟨R.MEM_CELLAR_CFG, 31, 31⟩
def F.MEM_CELLAR_CFG_ENCRYPT : Fld := ⟨R.MEM_CELLAR_CFG, 30, 30⟩
def F.MEM_CELLAR_CFG_FOREIGN_INIT : Fld := ⟨R.MEM_CELLAR_CFG, 29, 29⟩
def F.MEM_CELLAR_CFG_QUEUES : Fld := ⟨R.MEM_CELLAR_CFG, 23, 16⟩
def F.MEM_CELLAR_CFG_TIMEOUT_MS : Fld := ⟨R.MEM_CELLAR_CFG, 15, 0⟩
def R.MEM_CELLAR_STATUS : Reg := ⟨0x700304, 0x0, 1, 0, 1, 0x0, 0x0, 0x0, 0x0, 0x0, 0x0, 271⟩
def F.MEM_CELLAR_STATUS_STATE : Fld := ⟨R.MEM_CELLAR_STATUS, 31, 28⟩
def F.MEM_CELLAR_STATUS_GEN : Fld := ⟨R.MEM_CELLAR_STATUS, 27, 24⟩
def F.MEM_CELLAR_STATUS_WIDTH : Fld := ⟨R.MEM_CELLAR_STATUS, 23, 20⟩
def F.MEM_CELLAR_STATUS_RESETS : Fld := ⟨R.MEM_CELLAR_STATUS, 7, 0⟩
def R.MEM_CELLAR_CAP_LO : Reg := ⟨0x700308, 0x0, 1, 0, 1, 0x0, 0x0, 0x0, 0x0, 0x0, 0x0, 272⟩
def F.MEM_CELLAR_CAP_LO_PAGES : Fld := ⟨R.MEM_CELLAR_CAP_LO, 31, 0⟩
def R.MEM_CELLAR_CAP_HI : Reg := ⟨0x70030C, 0x0, 1, 0, 1, 0x0, 0x0, 0x0, 0x0, 0x0, 0x0, 273⟩
def F.MEM_CELLAR_CAP_HI_PAGES : Fld := ⟨R.MEM_CELLAR_CAP_HI, 31, 0⟩
def R.MEM_CELLAR_USED_LO : Reg := ⟨0x700310, 0x0, 1, 0, 1, 0x0, 0x0, 0x0, 0x0, 0x0, 0x0, 274⟩
def F.MEM_CELLAR_USED_LO_PAGES : Fld := ⟨R.MEM_CELLAR_USED_LO, 31, 0⟩
def R.MEM_CELLAR_USED_HI : Reg := ⟨0x700314, 0x0, 1, 0, 1, 0x0, 0x0, 0x0, 0x0, 0x0, 0x0, 275⟩
def F.MEM_CELLAR_USED_HI_PAGES : Fld := ⟨R.MEM_CELLAR_USED_HI, 31, 0⟩
def R.MEM_CELLAR_CRC : Reg := ⟨0x700318, 0x0, 1, 0, 1, 0x0, 0x0, 0x0, 0x0, 0x0, 0x0, 276⟩
def F.MEM_CELLAR_CRC_COUNT : Fld := ⟨R.MEM_CELLAR_CRC, 31, 0⟩
def R.MEM_CELLAR_TIMEOUTS : Reg := ⟨0x70031C, 0x0, 1, 0, 1, 0x0, 0x0, 0x0, 0x0, 0x0, 0x0, 277⟩
def F.MEM_CELLAR_TIMEOUTS_COUNT : Fld := ⟨R.MEM_CELLAR_TIMEOUTS, 31, 0⟩
def R.MEM_CELLAR_RATE : Reg := ⟨0x700320, 0x0, 1, 0, 1, 0x0, 0x0, 0x0, 0x0, 0x0, 0x0, 278⟩
def F.MEM_CELLAR_RATE_READ_MBPS : Fld := ⟨R.MEM_CELLAR_RATE, 31, 16⟩
def F.MEM_CELLAR_RATE_WRITE_MBPS : Fld := ⟨R.MEM_CELLAR_RATE, 15, 0⟩
def R.MEM_CELLAR_HEALTH : Reg := ⟨0x700324, 0x0, 1, 0, 1, 0x0, 0x0, 0x0, 0x0, 0x0, 0x0, 279⟩
def F.MEM_CELLAR_HEALTH_WARNING : Fld := ⟨R.MEM_CELLAR_HEALTH, 15, 8⟩
def F.MEM_CELLAR_HEALTH_USED_PCT : Fld := ⟨R.MEM_CELLAR_HEALTH, 7, 0⟩
def R.MEM_RGN_BASE : Reg := ⟨0x704000, 0x10, 1024, 0, 1, 0x0, 0x0, 0x0, 0x0, 0xFFFFFFFF, 0x0, 280⟩
def F.MEM_RGN_BASE_PAGE : Fld := ⟨R.MEM_RGN_BASE, 31, 0⟩
def R.MEM_RGN_PAGES : Reg := ⟨0x704004, 0x10, 1024, 0, 1, 0x0, 0x0, 0x0, 0x0, 0xFFFFFFFF, 0x0, 281⟩
def F.MEM_RGN_PAGES_PAGES : Fld := ⟨R.MEM_RGN_PAGES, 31, 0⟩
def R.MEM_RGN_CTL : Reg := ⟨0x704008, 0x10, 1024, 0, 1, 0x0, 0x0, 0x0, 0x0, 0xFFFFFFFF, 0x0, 282⟩
def F.MEM_RGN_CTL_ENABLE : Fld := ⟨R.MEM_RGN_CTL, 31, 31⟩
def F.MEM_RGN_CTL_PERSIST : Fld := ⟨R.MEM_RGN_CTL, 30, 30⟩
def F.MEM_RGN_CTL_AFFINITY : Fld := ⟨R.MEM_RGN_CTL, 29, 29⟩
def F.MEM_RGN_CTL_DIE : Fld := ⟨R.MEM_RGN_CTL, 28, 28⟩
def F.MEM_RGN_CTL_CLASS : Fld := ⟨R.MEM_RGN_CTL, 27, 24⟩
def F.MEM_RGN_CTL_OWNER : Fld := ⟨R.MEM_RGN_CTL, 23, 16⟩
def F.MEM_RGN_CTL_KEY : Fld := ⟨R.MEM_RGN_CTL, 15, 0⟩
def R.MEM_RGN_HOPPER : Reg := ⟨0x70400C, 0x10, 1024, 0, 1, 0x0, 0x0, 0x0, 0x0, 0x0, 0x0, 283⟩
def F.MEM_RGN_HOPPER_PAGES : Fld := ⟨R.MEM_RGN_HOPPER, 12, 0⟩
/-! Table 9-13. -/

def R.FRM_STATUS : Reg := ⟨0x800000, 0x0, 1, 0, 1, 0x0, 0x0, 0x0, 0x0, 0x0, 0x0, 284⟩
def F.FRM_STATUS_LOST : Fld := ⟨R.FRM_STATUS, 23, 16⟩
def F.FRM_STATUS_TRACKING : Fld := ⟨R.FRM_STATUS, 15, 8⟩
def F.FRM_STATUS_DEFINED : Fld := ⟨R.FRM_STATUS, 7, 0⟩
def R.FRM_EVT : Reg := ⟨0x800004, 0x0, 1, 0, 1, 0x0, 0x0, 0x7FF, 0x0, 0x0, 0x0, 285⟩
def F.FRM_EVT_INIT_TIMEOUT : Fld := ⟨R.FRM_EVT, 10, 10⟩
def F.FRM_EVT_MAILBOX_REFUSED : Fld := ⟨R.FRM_EVT, 9, 9⟩
def F.FRM_EVT_LM_FULL : Fld := ⟨R.FRM_EVT, 8, 8⟩
def F.FRM_EVT_CHECKPOINT : Fld := ⟨R.FRM_EVT, 7, 7⟩
def F.FRM_EVT_GATE_RESET : Fld := ⟨R.FRM_EVT, 6, 6⟩
def F.FRM_EVT_TIME_SLIP : Fld := ⟨R.FRM_EVT, 5, 5⟩
def F.FRM_EVT_HELD : Fld := ⟨R.FRM_EVT, 4, 4⟩
def F.FRM_EVT_OUTVOTED : Fld := ⟨R.FRM_EVT, 3, 3⟩
def F.FRM_EVT_CONFLICT : Fld := ⟨R.FRM_EVT, 2, 2⟩
def F.FRM_EVT_RELOCALISED : Fld := ⟨R.FRM_EVT, 1, 1⟩
def F.FRM_EVT_LOST : Fld := ⟨R.FRM_EVT, 0, 0⟩
def R.FRM_LM_CACHE : Reg := ⟨0x800008, 0x0, 1, 0, 1, 0x0, 0x0, 0x0, 0x0, 0xFFFFFFFF, 0x0, 286⟩
def F.FRM_LM_CACHE_ENTRIES : Fld := ⟨R.FRM_LM_CACHE, 31, 0⟩
def R.FRM_LM_CAP : Reg := ⟨0x80000C, 0x0, 1, 0, 1, 0x0, 0x0, 0x0, 0x0, 0xFFFFFFFF, 0x0, 287⟩
def F.FRM_LM_CAP_ENTRIES : Fld := ⟨R.FRM_LM_CAP, 31, 0⟩
def R.FRM_LM_CACHE_LO : Reg := ⟨0x800010, 0x0, 1, 0, 1, 0x0, 0x0, 0x0, 0x0, 0xFFFFFFFF, 0x0, 288⟩
def F.FRM_LM_CACHE_LO_ADDR : Fld := ⟨R.FRM_LM_CACHE_LO, 31, 0⟩
def R.FRM_LM_CACHE_HI : Reg := ⟨0x800014, 0x0, 1, 0, 1, 0x0, 0x0, 0x0, 0x0, 0xFFFFFFFF, 0x0, 289⟩
def F.FRM_LM_CACHE_HI_ADDR : Fld := ⟨R.FRM_LM_CACHE_HI, 31, 0⟩
def R.FRM_LM_STORE_LO : Reg := ⟨0x800018, 0x0, 1, 0, 1, 0x0, 0x0, 0x0, 0x0, 0xFFFFFFFF, 0x0, 290⟩
def F.FRM_LM_STORE_LO_ADDR : Fld := ⟨R.FRM_LM_STORE_LO, 31, 0⟩
def R.FRM_LM_STORE_HI : Reg := ⟨0x80001C, 0x0, 1, 0, 1, 0x0, 0x0, 0x0, 0x0, 0xFFFFFFFF, 0x0, 291⟩
def F.FRM_LM_STORE_HI_ADDR : Fld := ⟨R.FRM_LM_STORE_HI, 31, 0⟩
def R.FRM_LM_USED : Reg := ⟨0x800020, 0x0, 1, 0, 1, 0x0, 0x0, 0x0, 0x0, 0x0, 0x0, 292⟩
def F.FRM_LM_USED_ENTRIES : Fld := ⟨R.FRM_LM_USED, 31, 0⟩
def R.FRM_LM_FULL : Reg := ⟨0x800024, 0x0, 1, 0, 1, 0x0, 0x0, 0x0, 0x0, 0x0, 0x0, 293⟩
def F.FRM_LM_FULL_COUNT : Fld := ⟨R.FRM_LM_FULL, 31, 0⟩
def R.FRM_BUSY : Reg := ⟨0x800028, 0x0, 1, 0, 1, 0x0, 0x0, 0x0, 0x0, 0x0, 0x0, 294⟩
def F.FRM_BUSY_PERMILLE : Fld := ⟨R.FRM_BUSY, 9, 0⟩
def R.FRM_TT_COUNT : Reg := ⟨0x80002C, 0x0, 1, 0, 1, 0x0, 0x0, 0x0, 0x0, 0x0, 0x0, 295⟩
def F.FRM_TT_COUNT_ENTRIES : Fld := ⟨R.FRM_TT_COUNT, 11, 0⟩
def R.FRM_TT_VERSION : Reg := ⟨0x800030, 0x0, 1, 0, 1, 0x0, 0x0, 0x0, 0x0, 0x0, 0x0, 296⟩
def F.FRM_TT_VERSION_FORMAT : Fld := ⟨R.FRM_TT_VERSION, 31, 16⟩
def F.FRM_TT_VERSION_CHANGES : Fld := ⟨R.FRM_TT_VERSION, 15, 0⟩
def R.FRM_LM_TAG_LO : Reg := ⟨0x800034, 0x0, 1, 0, 1, 0x0, 0x0, 0x0, 0x0, 0xFFFFFFFF, 0x0, 297⟩
def F.FRM_LM_TAG_LO_ADDR : Fld := ⟨R.FRM_LM_TAG_LO, 31, 0⟩
def R.FRM_LM_TAG_HI : Reg := ⟨0x800038, 0x0, 1, 0, 1, 0x0, 0x0, 0x0, 0x0, 0xFFFFFFFF, 0x0, 298⟩
def F.FRM_LM_TAG_HI_ADDR : Fld := ⟨R.FRM_LM_TAG_HI, 31, 0⟩
def R.FRM_LM_EVICTED : Reg := ⟨0x80003C, 0x0, 1, 0, 1, 0x0, 0x0, 0x0, 0x0, 0x0, 0x0, 299⟩
def F.FRM_LM_EVICTED_COUNT : Fld := ⟨R.FRM_LM_EVICTED, 31, 0⟩
/-! Table 9-14. -/

def R.FRM_SES_CTL : Reg := ⟨0x801000, 0x100, 32, 0, 1, 0x29800100, 0x0, 0x0, 0x0, 0xFFF0FF00, 0x0, 300⟩
def F.FRM_SES_CTL_ENABLE : Fld := ⟨R.FRM_SES_CTL, 31, 31⟩
def F.FRM_SES_CTL_INIT_MODE : Fld := ⟨R.FRM_SES_CTL, 30, 28⟩
def F.FRM_SES_CTL_ESTIMATE_TD : Fld := ⟨R.FRM_SES_CTL, 27, 27⟩
def F.FRM_SES_CTL_CORR_SLEW : Fld := ⟨R.FRM_SES_CTL, 26, 26⟩
def F.FRM_SES_CTL_BIRTH_SRC : Fld := ⟨R.FRM_SES_CTL, 25, 24⟩
def F.FRM_SES_CTL_WINDOW : Fld := ⟨R.FRM_SES_CTL, 23, 20⟩
def F.FRM_SES_CTL_PROP_DIV : Fld := ⟨R.FRM_SES_CTL, 15, 8⟩
def R.FRM_SES_CAM0 : Reg := ⟨0x801004, 0x100, 32, 0, 1, 0x0, 0x0, 0x0, 0x0, 0xFFFFFFFF, 0x0, 301⟩
def F.FRM_SES_CAM0_SLOTS : Fld := ⟨R.FRM_SES_CAM0, 31, 0⟩
def R.FRM_SES_CAM1 : Reg := ⟨0x801008, 0x100, 32, 0, 1, 0x0, 0x0, 0x0, 0x0, 0xFFFFFFFF, 0x0, 302⟩
def F.FRM_SES_CAM1_SLOTS : Fld := ⟨R.FRM_SES_CAM1, 31, 0⟩
def R.FRM_SES_FRAME : Reg := ⟨0x80100C, 0x100, 32, 0, 1, 0x0, 0x0, 0x0, 0x0, 0xFFFFFFFF, 0x0, 303⟩
def F.FRM_SES_FRAME_OUTPUT : Fld := ⟨R.FRM_SES_FRAME, 31, 16⟩
def F.FRM_SES_FRAME_REFERENCE : Fld := ⟨R.FRM_SES_FRAME, 15, 0⟩
def R.FRM_SES_SRC : Reg := ⟨0x801010, 0x100, 32, 0, 1, 0xFFFFFFFF, 0x0, 0x0, 0x0, 0xFFFFFFFF, 0x0, 304⟩
def F.FRM_SES_SRC_IMU : Fld := ⟨R.FRM_SES_SRC, 31, 16⟩
def F.FRM_SES_SRC_CHAIN : Fld := ⟨R.FRM_SES_SRC, 15, 0⟩
def R.FRM_SES_WHEEL : Reg := ⟨0x801014, 0x100, 32, 0, 1, 0xFFFF, 0x0, 0x0, 0x0, 0xFFFF, 0x0, 305⟩
def F.FRM_SES_WHEEL_ENTRY : Fld := ⟨R.FRM_SES_WHEEL, 15, 0⟩
def R.FRM_SES_MAP : Reg := ⟨0x801018, 0x100, 32, 0, 1, 0x0, 0x0, 0x0, 0x0, 0xFFFFFFFF, 0x0, 306⟩
def F.FRM_SES_MAP_MAP_ID : Fld := ⟨R.FRM_SES_MAP, 31, 0⟩
def R.FRM_SES_TRACK : Reg := ⟨0x80101C, 0x100, 32, 0, 1, 0x3E84020A, 0x0, 0x0, 0x0, 0xFFFFFFFF, 0x0, 307⟩
def F.FRM_SES_TRACK_TRACKS_MAX : Fld := ⟨R.FRM_SES_TRACK, 31, 20⟩
def F.FRM_SES_TRACK_CELL_TRACKS : Fld := ⟨R.FRM_SES_TRACK, 19, 16⟩
def F.FRM_SES_TRACK_MISS_MAX : Fld := ⟨R.FRM_SES_TRACK, 15, 8⟩
def F.FRM_SES_TRACK_CONFIRM_FRAMES : Fld := ⟨R.FRM_SES_TRACK, 7, 0⟩
def R.FRM_SES_ASSOC : Reg := ⟨0x801020, 0x100, 32, 0, 1, 0x400A0148, 0x0, 0x0, 0x0, 0xFFFFFFFF, 0x0, 308⟩
def F.FRM_SES_ASSOC_DESC_THR : Fld := ⟨R.FRM_SES_ASSOC, 31, 24⟩
def F.FRM_SES_ASSOC_PARALLAX : Fld := ⟨R.FRM_SES_ASSOC, 23, 16⟩
def F.FRM_SES_ASSOC_BIRTH_SCORE : Fld := ⟨R.FRM_SES_ASSOC, 15, 0⟩
def R.FRM_SES_KF : Reg := ⟨0x801024, 0x100, 32, 0, 1, 0x4320064, 0x0, 0x0, 0x0, 0xFFFFFFFF, 0x0, 309⟩
def F.FRM_SES_KF_KF_MIN_FRAMES : Fld := ⟨R.FRM_SES_KF, 31, 24⟩
def F.FRM_SES_KF_KF_ANGLE : Fld := ⟨R.FRM_SES_KF, 23, 16⟩
def F.FRM_SES_KF_KF_DIST_MM : Fld := ⟨R.FRM_SES_KF, 15, 0⟩
def R.FRM_SES_KF2 : Reg := ⟨0x801028, 0x100, 32, 0, 1, 0x3E89A00, 0x0, 0x0, 0x0, 0xFFFFFF00, 0x0, 310⟩
def F.FRM_SES_KF2_KF_MAX_MS : Fld := ⟨R.FRM_SES_KF2, 31, 16⟩
def F.FRM_SES_KF2_KF_OVERLAP : Fld := ⟨R.FRM_SES_KF2, 15, 8⟩
def R.FRM_SES_LOST : Reg := ⟨0x80102C, 0x100, 32, 0, 1, 0x50C01F4, 0x0, 0x0, 0x0, 0xFFFFFFFF, 0x0, 311⟩
def F.FRM_SES_LOST_LOST_STEPS : Fld := ⟨R.FRM_SES_LOST, 31, 24⟩
def F.FRM_SES_LOST_LOST_MIN : Fld := ⟨R.FRM_SES_LOST, 23, 16⟩
def F.FRM_SES_LOST_COAST_MS : Fld := ⟨R.FRM_SES_LOST, 15, 0⟩
def R.FRM_SES_LOST_SIGMA : Reg := ⟨0x801030, 0x100, 32, 0, 1, 0x3F000000, 0x0, 0x0, 0x0, 0xFFFFFFFF, 0x0, 312⟩
def F.FRM_SES_LOST_SIGMA_M : Fld := ⟨R.FRM_SES_LOST_SIGMA, 31, 0⟩
def R.FRM_SES_RELOC : Reg := ⟨0x801034, 0x100, 32, 0, 1, 0x51E8000, 0x0, 0x0, 0x0, 0xFFFFFBF0, 0x0, 313⟩
def F.FRM_SES_RELOC_RELOC_HZ : Fld := ⟨R.FRM_SES_RELOC, 31, 24⟩
def F.FRM_SES_RELOC_RELOC_INLIERS : Fld := ⟨R.FRM_SES_RELOC, 23, 16⟩
def F.FRM_SES_RELOC_RELOC_K : Fld := ⟨R.FRM_SES_RELOC, 15, 12⟩
def F.FRM_SES_RELOC_RELOC_KILN : Fld := ⟨R.FRM_SES_RELOC, 11, 11⟩
def F.FRM_SES_RELOC_PLACE_INS : Fld := ⟨R.FRM_SES_RELOC, 9, 4⟩
def R.FRM_SES_QUAL : Reg := ⟨0x801038, 0x100, 32, 0, 1, 0x19003E8, 0x0, 0x0, 0x0, 0xFFFFFFFF, 0x0, 314⟩
def F.FRM_SES_QUAL_QUAL_N : Fld := ⟨R.FRM_SES_QUAL, 31, 16⟩
def F.FRM_SES_QUAL_QUAL_SIGMA : Fld := ⟨R.FRM_SES_QUAL, 15, 0⟩
def R.FRM_SES_GATE : Reg := ⟨0x80103C, 0x100, 32, 0, 1, 0x5000032, 0x0, 0x0, 0x0, 0xFF00FFFF, 0x0, 315⟩
def F.FRM_SES_GATE_GATE_RESET : Fld := ⟨R.FRM_SES_GATE, 31, 24⟩
def F.FRM_SES_GATE_CORR_RATE : Fld := ⟨R.FRM_SES_GATE, 15, 0⟩
def R.FRM_SES_INIT : Reg := ⟨0x801040, 0x100, 32, 0, 1, 0x7D00000, 0x0, 0x0, 0x0, 0xFFFF0000, 0x0, 316⟩
def F.FRM_SES_INIT_INIT_MS : Fld := ⟨R.FRM_SES_INIT, 31, 16⟩
def R.FRM_SES_STATE : Reg := ⟨0x801044, 0x100, 32, 0, 1, 0x0, 0x0, 0x0, 0x0, 0x0, 0x0, 317⟩
def F.FRM_SES_STATE_STATUS : Fld := ⟨R.FRM_SES_STATE, 31, 24⟩
def F.FRM_SES_STATE_FLAGS : Fld := ⟨R.FRM_SES_STATE, 23, 16⟩
def F.FRM_SES_STATE_STATE : Fld := ⟨R.FRM_SES_STATE, 2, 0⟩
def R.FRM_SES_SEQ_LO : Reg := ⟨0x801048, 0x100, 32, 0, 1, 0x0, 0x0, 0x0, 0x0, 0x0, 0x0, 318⟩
def F.FRM_SES_SEQ_LO_SEQ : Fld := ⟨R.FRM_SES_SEQ_LO, 31, 0⟩
def R.FRM_SES_SEQ_HI : Reg := ⟨0x80104C, 0x100, 32, 0, 1, 0x0, 0x0, 0x0, 0x0, 0x0, 0x0, 319⟩
def F.FRM_SES_SEQ_HI_SEQ : Fld := ⟨R.FRM_SES_SEQ_HI, 31, 0⟩
def R.FRM_SES_COND : Reg := ⟨0x801050, 0x100, 32, 0, 1, 0x0, 0x0, 0x0, 0x0, 0x0, 0x0, 320⟩
def F.FRM_SES_COND_CODES : Fld := ⟨R.FRM_SES_COND, 13, 1⟩
def R.FRM_SES_SOURCES : Reg := ⟨0x801054, 0x100, 32, 0, 1, 0x0, 0x0, 0x0, 0x0, 0x0, 0x0, 321⟩
def F.FRM_SES_SOURCES_PROBATION : Fld := ⟨R.FRM_SES_SOURCES, 31, 16⟩
def F.FRM_SES_SOURCES_USED : Fld := ⟨R.FRM_SES_SOURCES, 15, 0⟩
def R.FRM_SES_EXCLUDED : Reg := ⟨0x801058, 0x100, 32, 0, 1, 0x0, 0x0, 0x0, 0x0, 0x0, 0x0, 322⟩
def F.FRM_SES_EXCLUDED_HELD : Fld := ⟨R.FRM_SES_EXCLUDED, 31, 16⟩
def F.FRM_SES_EXCLUDED_WITHHELD : Fld := ⟨R.FRM_SES_EXCLUDED, 15, 0⟩
def R.FRM_SES_TRACKS : Reg := ⟨0x80105C, 0x100, 32, 0, 1, 0x0, 0x0, 0x0, 0x0, 0x0, 0x0, 323⟩
def F.FRM_SES_TRACKS_CONFIRMED : Fld := ⟨R.FRM_SES_TRACKS, 31, 16⟩
def F.FRM_SES_TRACKS_TENTATIVE : Fld := ⟨R.FRM_SES_TRACKS, 15, 0⟩
def R.FRM_SES_OBS : Reg := ⟨0x801060, 0x100, 32, 0, 1, 0x0, 0x0, 0x0, 0x0, 0x0, 0x0, 324⟩
def F.FRM_SES_OBS_REJECTED : Fld := ⟨R.FRM_SES_OBS, 31, 16⟩
def F.FRM_SES_OBS_ACCEPTED : Fld := ⟨R.FRM_SES_OBS, 15, 0⟩
def R.FRM_SES_LAT : Reg := ⟨0x801064, 0x100, 32, 0, 1, 0x0, 0x0, 0x0, 0x0, 0x0, 0x0, 325⟩
def F.FRM_SES_LAT_P99_US : Fld := ⟨R.FRM_SES_LAT, 31, 16⟩
def F.FRM_SES_LAT_MAX_US : Fld := ⟨R.FRM_SES_LAT, 15, 0⟩
def R.FRM_SES_COUNTS : Reg := ⟨0x801068, 0x100, 32, 0, 1, 0x0, 0x0, 0x0, 0x0, 0x0, 0x0, 326⟩
def F.FRM_SES_COUNTS_CONFLICTS : Fld := ⟨R.FRM_SES_COUNTS, 31, 16⟩
def F.FRM_SES_COUNTS_LOSSES : Fld := ⟨R.FRM_SES_COUNTS, 15, 0⟩
def R.FRM_SES_RELOCS : Reg := ⟨0x80106C, 0x100, 32, 0, 1, 0x0, 0x0, 0x0, 0x0, 0x0, 0x0, 327⟩
def F.FRM_SES_RELOCS_RELOCALISED : Fld := ⟨R.FRM_SES_RELOCS, 31, 16⟩
def F.FRM_SES_RELOCS_QUERIES : Fld := ⟨R.FRM_SES_RELOCS, 15, 0⟩
def R.FRM_SES_KEYFRAMES : Reg := ⟨0x801070, 0x100, 32, 0, 1, 0x0, 0x0, 0x0, 0x0, 0x0, 0x0, 328⟩
def F.FRM_SES_KEYFRAMES_COUNT : Fld := ⟨R.FRM_SES_KEYFRAMES, 31, 0⟩
def R.FRM_SES_SCORE : Reg := ⟨0x801074, 0x100, 32, 4, 7, 0xFFFFFFFF, 0x0, 0x0, 0x0, 0x0, 0x0, 329⟩
def F.FRM_SES_SCORE_ODD : Fld := ⟨R.FRM_SES_SCORE, 31, 16⟩
def F.FRM_SES_SCORE_EVEN : Fld := ⟨R.FRM_SES_SCORE, 15, 0⟩
def R.FRM_SES_TD : Reg := ⟨0x801090, 0x100, 32, 4, 8, 0x0, 0x0, 0x0, 0x0, 0x0, 0x0, 330⟩
def F.FRM_SES_TD_NS : Fld := ⟨R.FRM_SES_TD, 31, 0⟩
/-! Table 10-13. -/

def R.KTL_STATUS : Reg := ⟨0x900000, 0x0, 1, 0, 1, 0x0, 0x0, 0x0, 0x0, 0x0, 0x0, 331⟩
def F.KTL_STATUS_DEGRADED : Fld := ⟨R.KTL_STATUS, 31, 31⟩
def F.KTL_STATUS_ENABLED : Fld := ⟨R.KTL_STATUS, 7, 4⟩
def F.KTL_STATUS_WORKING : Fld := ⟨R.KTL_STATUS, 3, 0⟩
def R.KTL_EVT : Reg := ⟨0x900004, 0x0, 1, 0, 1, 0x0, 0x0, 0x1FFF, 0x0, 0x0, 0x0, 332⟩
def F.KTL_EVT_STORE_FULL : Fld := ⟨R.KTL_EVT, 12, 12⟩
def F.KTL_EVT_QUEUE_FULL : Fld := ⟨R.KTL_EVT, 11, 11⟩
def F.KTL_EVT_DEGRADED : Fld := ⟨R.KTL_EVT, 10, 10⟩
def F.KTL_EVT_SWAP : Fld := ⟨R.KTL_EVT, 9, 9⟩
def F.KTL_EVT_INPUT_DROPPED : Fld := ⟨R.KTL_EVT, 8, 8⟩
def F.KTL_EVT_BAND_DROP : Fld := ⟨R.KTL_EVT, 7, 7⟩
def F.KTL_EVT_FX_SAT : Fld := ⟨R.KTL_EVT, 6, 6⟩
def F.KTL_EVT_REANALYSE : Fld := ⟨R.KTL_EVT, 5, 5⟩
def F.KTL_EVT_CHECK_FAIL : Fld := ⟨R.KTL_EVT, 4, 4⟩
def F.KTL_EVT_COLD : Fld := ⟨R.KTL_EVT, 3, 3⟩
def F.KTL_EVT_LATE : Fld := ⟨R.KTL_EVT, 2, 2⟩
def F.KTL_EVT_NOT_CONVERGED : Fld := ⟨R.KTL_EVT, 1, 1⟩
def F.KTL_EVT_PARTIAL : Fld := ⟨R.KTL_EVT, 0, 0⟩
def R.KTL_SPARE : Reg := ⟨0x900008, 0x0, 1, 0, 1, 0x3F, 0x0, 0x0, 0x0, 0x0, 0x0, 333⟩
def F.KTL_SPARE_SPARE : Fld := ⟨R.KTL_SPARE, 5, 4⟩
def F.KTL_SPARE_UNIT1 : Fld := ⟨R.KTL_SPARE, 3, 2⟩
def F.KTL_SPARE_UNIT0 : Fld := ⟨R.KTL_SPARE, 1, 0⟩
def R.KTL_SOLVES_LO : Reg := ⟨0x900010, 0x0, 1, 0, 1, 0x0, 0x0, 0x0, 0x0, 0x0, 0x0, 334⟩
def F.KTL_SOLVES_LO_COUNT : Fld := ⟨R.KTL_SOLVES_LO, 31, 0⟩
def R.KTL_SOLVES_HI : Reg := ⟨0x900014, 0x0, 1, 0, 1, 0x0, 0x0, 0x0, 0x0, 0x0, 0x0, 335⟩
def F.KTL_SOLVES_HI_COUNT : Fld := ⟨R.KTL_SOLVES_HI, 31, 0⟩
def R.KTL_PARTIAL : Reg := ⟨0x900018, 0x0, 1, 0, 1, 0x0, 0x0, 0x0, 0x0, 0x0, 0x0, 336⟩
def F.KTL_PARTIAL_COUNT : Fld := ⟨R.KTL_PARTIAL, 31, 0⟩
def R.KTL_NOT_CONVERGED : Reg := ⟨0x90001C, 0x0, 1, 0, 1, 0x0, 0x0, 0x0, 0x0, 0x0, 0x0, 337⟩
def F.KTL_NOT_CONVERGED_COUNT : Fld := ⟨R.KTL_NOT_CONVERGED, 31, 0⟩
def R.KTL_LATE : Reg := ⟨0x900020, 0x0, 1, 0, 1, 0x0, 0x0, 0x0, 0x0, 0x0, 0x0, 338⟩
def F.KTL_LATE_COUNT : Fld := ⟨R.KTL_LATE, 31, 0⟩
def R.KTL_CHECK_FAIL : Reg := ⟨0x900024, 0x0, 1, 0, 1, 0x0, 0x0, 0x0, 0x0, 0x0, 0x0, 339⟩
def F.KTL_CHECK_FAIL_SECOND : Fld := ⟨R.KTL_CHECK_FAIL, 31, 16⟩
def F.KTL_CHECK_FAIL_FIRST : Fld := ⟨R.KTL_CHECK_FAIL, 15, 0⟩
def R.KTL_FX_SAT : Reg := ⟨0x900028, 0x0, 1, 0, 1, 0x0, 0x0, 0x0, 0x0, 0x0, 0x0, 340⟩
def F.KTL_FX_SAT_COUNT : Fld := ⟨R.KTL_FX_SAT, 31, 0⟩
def R.KTL_REANALYSE : Reg := ⟨0x90002C, 0x0, 1, 0, 1, 0x0, 0x0, 0x0, 0x0, 0x0, 0x0, 341⟩
def F.KTL_REANALYSE_COUNT : Fld := ⟨R.KTL_REANALYSE, 31, 0⟩
def R.KTL_BAND_DROP : Reg := ⟨0x900030, 0x0, 1, 0, 1, 0x0, 0x0, 0x0, 0x0, 0x0, 0x0, 342⟩
def F.KTL_BAND_DROP_COUNT : Fld := ⟨R.KTL_BAND_DROP, 31, 0⟩
def R.KTL_INPUT_DROPPED : Reg := ⟨0x900034, 0x0, 1, 0, 1, 0x0, 0x0, 0x0, 0x0, 0x0, 0x0, 343⟩
def F.KTL_INPUT_DROPPED_COUNT : Fld := ⟨R.KTL_INPUT_DROPPED, 31, 0⟩
def R.KTL_PREEMPT : Reg := ⟨0x900038, 0x0, 1, 0, 1, 0x0, 0x0, 0x0, 0x0, 0x0, 0x0, 344⟩
def F.KTL_PREEMPT_COUNT : Fld := ⟨R.KTL_PREEMPT, 31, 0⟩
def R.KTL_COALESCED : Reg := ⟨0x90003C, 0x0, 1, 0, 1, 0x0, 0x0, 0x0, 0x0, 0x0, 0x0, 345⟩
def F.KTL_COALESCED_COUNT : Fld := ⟨R.KTL_COALESCED, 31, 0⟩
def R.KTL_BUSY : Reg := ⟨0x900040, 0x4, 2, 0, 1, 0x0, 0x0, 0x0, 0x0, 0x0, 0x0, 346⟩
def F.KTL_BUSY_PERMILLE : Fld := ⟨R.KTL_BUSY, 9, 0⟩
def R.KTL_QUEUE : Reg := ⟨0x900050, 0x0, 1, 0, 1, 0x0, 0x0, 0x0, 0x0, 0x0, 0x0, 347⟩
def F.KTL_QUEUE_QUEUED : Fld := ⟨R.KTL_QUEUE, 15, 8⟩
def F.KTL_QUEUE_READY : Fld := ⟨R.KTL_QUEUE, 7, 0⟩
def R.KTL_CHECK : Reg := ⟨0x900060, 0x0, 1, 0, 1, 0x1E, 0x0, 0x0, 0x0, 0x3F, 0x0, 348⟩
def F.KTL_CHECK_CHECK : Fld := ⟨R.KTL_CHECK, 5, 0⟩
def R.KTL_REFINE : Reg := ⟨0x900064, 0x0, 1, 0, 1, 0x3, 0x0, 0x0, 0x0, 0xF, 0x0, 349⟩
def F.KTL_REFINE_REFINE_MAX : Fld := ⟨R.KTL_REFINE, 3, 0⟩
def R.KTL_GRAVITY : Reg := ⟨0x900068, 0x0, 1, 0, 1, 0x411CF5C3, 0x0, 0x0, 0x0, 0xFFFFFFFF, 0x0, 350⟩
def F.KTL_GRAVITY_G : Fld := ⟨R.KTL_GRAVITY, 31, 0⟩
def R.KTL_PG_GAP : Reg := ⟨0x90006C, 0x0, 1, 0, 1, 0x1F4, 0x0, 0x0, 0x0, 0xFFFF, 0x0, 351⟩
def F.KTL_PG_GAP_MS : Fld := ⟨R.KTL_PG_GAP, 15, 0⟩
/-! Table 10-14. -/

def R.KTL_PROB_CTL : Reg := ⟨0x901000, 0x80, 64, 0, 1, 0x44AFF40, 0x0, 0x0, 0x0, 0xFFFFFFF0, 0x0, 352⟩
def F.KTL_PROB_CTL_ENABLE : Fld := ⟨R.KTL_PROB_CTL, 31, 31⟩
def F.KTL_PROB_CTL_KIND : Fld := ⟨R.KTL_PROB_CTL, 30, 28⟩
def F.KTL_PROB_CTL_CLASS : Fld := ⟨R.KTL_PROB_CTL, 27, 25⟩
def F.KTL_PROB_CTL_STEP : Fld := ⟨R.KTL_PROB_CTL, 24, 24⟩
def F.KTL_PROB_CTL_FACTOR : Fld := ⟨R.KTL_PROB_CTL, 23, 23⟩
def F.KTL_PROB_CTL_WARM : Fld := ⟨R.KTL_PROB_CTL, 22, 22⟩
def F.KTL_PROB_CTL_ITER_MAX : Fld := ⟨R.KTL_PROB_CTL, 21, 16⟩
def F.KTL_PROB_CTL_SESSION : Fld := ⟨R.KTL_PROB_CTL, 15, 8⟩
def F.KTL_PROB_CTL_OUT_FRAMES : Fld := ⟨R.KTL_PROB_CTL, 7, 4⟩
def R.KTL_DEADLINE : Reg := ⟨0x901004, 0x80, 64, 0, 1, 0x0, 0x0, 0x0, 0x0, 0xFFFFFF, 0x0, 353⟩
def F.KTL_DEADLINE_US : Fld := ⟨R.KTL_DEADLINE, 23, 0⟩
def R.KTL_PROB_TOL : Reg := ⟨0x901008, 0x80, 64, 0, 1, 0x51850A00, 0x0, 0x0, 0x0, 0xFFFFFF00, 0x0, 354⟩
def F.KTL_PROB_TOL_TOL_G : Fld := ⟨R.KTL_PROB_TOL, 31, 26⟩
def F.KTL_PROB_TOL_TOL_X : Fld := ⟨R.KTL_PROB_TOL, 25, 20⟩
def F.KTL_PROB_TOL_TOL_F : Fld := ⟨R.KTL_PROB_TOL, 19, 14⟩
def F.KTL_PROB_TOL_LAMBDA0 : Fld := ⟨R.KTL_PROB_TOL, 13, 8⟩
def R.KTL_PROB_KERNEL : Reg := ⟨0x90100C, 0x80, 64, 0, 1, 0x40003E00, 0x0, 0x0, 0x0, 0xC000FFFF, 0x0, 355⟩
def F.KTL_PROB_KERNEL_KERNEL : Fld := ⟨R.KTL_PROB_KERNEL, 31, 30⟩
def F.KTL_PROB_KERNEL_SCALE : Fld := ⟨R.KTL_PROB_KERNEL, 15, 0⟩
def R.KTL_PROB_WINDOW : Reg := ⟨0x901010, 0x80, 64, 0, 1, 0x140C8032, 0x0, 0x0, 0x0, 0xFFFFFFFF, 0x0, 356⟩
def F.KTL_PROB_WINDOW_BAND : Fld := ⟨R.KTL_PROB_WINDOW, 31, 24⟩
def F.KTL_PROB_WINDOW_WINDOW_KF : Fld := ⟨R.KTL_PROB_WINDOW, 23, 12⟩
def F.KTL_PROB_WINDOW_WINDOW_MIN : Fld := ⟨R.KTL_PROB_WINDOW, 11, 0⟩
def R.KTL_PROB_RANSAC : Reg := ⟨0x901014, 0x80, 64, 0, 1, 0x2803C200, 0x0, 0x0, 0x0, 0xFFFFFFF0, 0x0, 357⟩
def F.KTL_PROB_RANSAC_HYP_MAX : Fld := ⟨R.KTL_PROB_RANSAC, 31, 20⟩
def F.KTL_PROB_RANSAC_LOOP_INLIERS : Fld := ⟨R.KTL_PROB_RANSAC, 19, 12⟩
def F.KTL_PROB_RANSAC_INLIER_PX : Fld := ⟨R.KTL_PROB_RANSAC, 11, 4⟩
def R.KTL_PROB_SEED : Reg := ⟨0x901018, 0x80, 64, 0, 1, 0x1, 0x0, 0x0, 0x0, 0xFFFFFFFF, 0x0, 358⟩
def F.KTL_PROB_SEED_SEED : Fld := ⟨R.KTL_PROB_SEED, 31, 0⟩
def R.KTL_PROB_TALLY : Reg := ⟨0x90101C, 0x80, 64, 0, 1, 0x0, 0x0, 0x0, 0x0, 0xFFFFFFFF, 0x0, 359⟩
def F.KTL_PROB_TALLY_IN : Fld := ⟨R.KTL_PROB_TALLY, 31, 16⟩
def F.KTL_PROB_TALLY_OUT : Fld := ⟨R.KTL_PROB_TALLY, 15, 0⟩
def R.KTL_PROB_STORE_LO : Reg := ⟨0x901020, 0x80, 64, 0, 1, 0x0, 0x0, 0x0, 0x0, 0xFFFFFFFF, 0x0, 360⟩
def F.KTL_PROB_STORE_LO_ADDR : Fld := ⟨R.KTL_PROB_STORE_LO, 31, 0⟩
def R.KTL_PROB_STORE_HI : Reg := ⟨0x901024, 0x80, 64, 0, 1, 0x0, 0x0, 0x0, 0x0, 0xFFFFFFFF, 0x0, 361⟩
def F.KTL_PROB_STORE_HI_ADDR : Fld := ⟨R.KTL_PROB_STORE_HI, 31, 0⟩
def R.KTL_PROB_OUT_LO : Reg := ⟨0x901028, 0x80, 64, 0, 1, 0x0, 0x0, 0x0, 0x0, 0xFFFFFFFF, 0x0, 362⟩
def F.KTL_PROB_OUT_LO_ADDR : Fld := ⟨R.KTL_PROB_OUT_LO, 31, 0⟩
def R.KTL_PROB_OUT_HI : Reg := ⟨0x90102C, 0x80, 64, 0, 1, 0x0, 0x0, 0x0, 0x0, 0xFFFFFFFF, 0x0, 363⟩
def F.KTL_PROB_OUT_HI_ADDR : Fld := ⟨R.KTL_PROB_OUT_HI, 31, 0⟩
def R.KTL_PROB_MAP : Reg := ⟨0x901030, 0x80, 64, 0, 1, 0x0, 0x0, 0x0, 0x0, 0xFFFFFFFF, 0x0, 364⟩
def F.KTL_PROB_MAP_MAP_ID : Fld := ⟨R.KTL_PROB_MAP, 31, 0⟩
def R.KTL_PROB_REORDER : Reg := ⟨0x901034, 0x80, 64, 0, 1, 0x180, 0x0, 0x0, 0x0, 0xFFFF, 0x0, 365⟩
def F.KTL_PROB_REORDER_REORDER : Fld := ⟨R.KTL_PROB_REORDER, 15, 0⟩
def R.KTL_PROB_LAST : Reg := ⟨0x901038, 0x80, 64, 0, 1, 0x0, 0x0, 0x0, 0x0, 0x0, 0x0, 366⟩
def F.KTL_PROB_LAST_STATUS : Fld := ⟨R.KTL_PROB_LAST, 31, 24⟩
def F.KTL_PROB_LAST_ITERATIONS : Fld := ⟨R.KTL_PROB_LAST, 23, 16⟩
def F.KTL_PROB_LAST_FLAGS : Fld := ⟨R.KTL_PROB_LAST, 15, 0⟩
def R.KTL_PROB_SEQ : Reg := ⟨0x90103C, 0x80, 64, 0, 1, 0x0, 0x0, 0x0, 0x0, 0x0, 0x0, 367⟩
def F.KTL_PROB_SEQ_SEQ : Fld := ⟨R.KTL_PROB_SEQ, 31, 0⟩
def R.KTL_PROB_VARS : Reg := ⟨0x901040, 0x80, 64, 0, 1, 0x0, 0x0, 0x0, 0x0, 0x0, 0x0, 368⟩
def F.KTL_PROB_VARS_COUNT : Fld := ⟨R.KTL_PROB_VARS, 31, 0⟩
def R.KTL_PROB_FACTORS : Reg := ⟨0x901044, 0x80, 64, 0, 1, 0x0, 0x0, 0x0, 0x0, 0x0, 0x0, 369⟩
def F.KTL_PROB_FACTORS_COUNT : Fld := ⟨R.KTL_PROB_FACTORS, 31, 0⟩
def R.KTL_PROB_F : Reg := ⟨0x901048, 0x80, 64, 0, 1, 0x0, 0x0, 0x0, 0x0, 0x0, 0x0, 370⟩
def F.KTL_PROB_F_KFMA : Fld := ⟨R.KTL_PROB_F, 31, 0⟩
def R.KTL_PROB_NNZ : Reg := ⟨0x90104C, 0x80, 64, 0, 1, 0x0, 0x0, 0x0, 0x0, 0x0, 0x0, 371⟩
def F.KTL_PROB_NNZ_ENTRIES : Fld := ⟨R.KTL_PROB_NNZ, 31, 0⟩
def R.KTL_PROB_SUPERNODES : Reg := ⟨0x901050, 0x80, 64, 0, 1, 0x0, 0x0, 0x0, 0x0, 0x0, 0x0, 372⟩
def F.KTL_PROB_SUPERNODES_COUNT : Fld := ⟨R.KTL_PROB_SUPERNODES, 31, 0⟩
def R.KTL_PROB_TIME : Reg := ⟨0x901054, 0x80, 64, 0, 1, 0x0, 0x0, 0x0, 0x0, 0x0, 0x0, 373⟩
def F.KTL_PROB_TIME_US : Fld := ⟨R.KTL_PROB_TIME, 31, 0⟩
def R.KTL_PROB_WAIT : Reg := ⟨0x901058, 0x80, 64, 0, 1, 0x0, 0x0, 0x0, 0x0, 0x0, 0x0, 374⟩
def F.KTL_PROB_WAIT_US : Fld := ⟨R.KTL_PROB_WAIT, 31, 0⟩
def R.KTL_PROB_COUNTS : Reg := ⟨0x90105C, 0x80, 64, 0, 1, 0x0, 0x0, 0x0, 0x0, 0x0, 0x0, 375⟩
def F.KTL_PROB_COUNTS_PARTIAL : Fld := ⟨R.KTL_PROB_COUNTS, 31, 16⟩
def F.KTL_PROB_COUNTS_COLD : Fld := ⟨R.KTL_PROB_COUNTS, 15, 0⟩
def R.KTL_PROB_DIGEST_LO : Reg := ⟨0x901060, 0x80, 64, 0, 1, 0x0, 0x0, 0x0, 0x0, 0x0, 0x0, 376⟩
def F.KTL_PROB_DIGEST_LO_DIGEST : Fld := ⟨R.KTL_PROB_DIGEST_LO, 31, 0⟩
def R.KTL_PROB_DIGEST_HI : Reg := ⟨0x901064, 0x80, 64, 0, 1, 0x0, 0x0, 0x0, 0x0, 0x0, 0x0, 377⟩
def F.KTL_PROB_DIGEST_HI_DIGEST : Fld := ⟨R.KTL_PROB_DIGEST_HI, 31, 0⟩
def R.KTL_BODY_CTL : Reg := ⟨0x904000, 0x40, 8, 0, 1, 0x0, 0x0, 0x0, 0x0, 0x8000007F, 0x0, 378⟩
def F.KTL_BODY_CTL_ENABLE : Fld := ⟨R.KTL_BODY_CTL, 31, 31⟩
def F.KTL_BODY_CTL_LINKS : Fld := ⟨R.KTL_BODY_CTL, 6, 0⟩
def R.KTL_BODY_TABLE_LO : Reg := ⟨0x904004, 0x40, 8, 0, 1, 0x0, 0x0, 0x0, 0x0, 0xFFFFFFFF, 0x0, 379⟩
def F.KTL_BODY_TABLE_LO_ADDR : Fld := ⟨R.KTL_BODY_TABLE_LO, 31, 0⟩
def R.KTL_BODY_TABLE_HI : Reg := ⟨0x904008, 0x40, 8, 0, 1, 0x0, 0x0, 0x0, 0x0, 0xFFFFFFFF, 0x0, 380⟩
def F.KTL_BODY_TABLE_HI_ADDR : Fld := ⟨R.KTL_BODY_TABLE_HI, 31, 0⟩
def R.KTL_BODY_LAST : Reg := ⟨0x90400C, 0x40, 8, 0, 1, 0x0, 0x0, 0x0, 0x0, 0x0, 0x0, 381⟩
def F.KTL_BODY_LAST_STATUS : Fld := ⟨R.KTL_BODY_LAST, 31, 24⟩
def F.KTL_BODY_LAST_SOLVES : Fld := ⟨R.KTL_BODY_LAST, 23, 0⟩
/-! Table 11-7. -/

def R.KLN_STATUS : Reg := ⟨0xA00000, 0x0, 1, 0, 1, 0x0, 0x0, 0x0, 0x0, 0x0, 0x0, 382⟩
def F.KLN_STATUS_DEGRADED : Fld := ⟨R.KLN_STATUS, 31, 31⟩
def F.KLN_STATUS_ENABLED : Fld := ⟨R.KLN_STATUS, 7, 4⟩
def F.KLN_STATUS_WORKING : Fld := ⟨R.KLN_STATUS, 3, 0⟩
def R.KLN_EVT : Reg := ⟨0xA00004, 0x0, 1, 0, 1, 0x0, 0x0, 0x3FF, 0x0, 0x0, 0x0, 383⟩
def F.KLN_EVT_RELOC_REJECT : Fld := ⟨R.KLN_EVT, 9, 9⟩
def F.KLN_EVT_DEGRADED : Fld := ⟨R.KLN_EVT, 8, 8⟩
def F.KLN_EVT_SWAP : Fld := ⟨R.KLN_EVT, 7, 7⟩
def F.KLN_EVT_NAN : Fld := ⟨R.KLN_EVT, 6, 6⟩
def F.KLN_EVT_MAP_FULL : Fld := ⟨R.KLN_EVT, 5, 5⟩
def F.KLN_EVT_CELL_FULL : Fld := ⟨R.KLN_EVT, 4, 4⟩
def F.KLN_EVT_CAP : Fld := ⟨R.KLN_EVT, 3, 3⟩
def F.KLN_EVT_BLOCKS_MISSING : Fld := ⟨R.KLN_EVT, 2, 2⟩
def F.KLN_EVT_SKIP : Fld := ⟨R.KLN_EVT, 1, 1⟩
def F.KLN_EVT_LATE : Fld := ⟨R.KLN_EVT, 0, 0⟩
def R.KLN_SPARE : Reg := ⟨0xA00008, 0x0, 1, 0, 1, 0x3F, 0x0, 0x0, 0x0, 0x0, 0x0, 384⟩
def F.KLN_SPARE_SPARE : Fld := ⟨R.KLN_SPARE, 5, 4⟩
def F.KLN_SPARE_UNIT1 : Fld := ⟨R.KLN_SPARE, 3, 2⟩
def F.KLN_SPARE_UNIT0 : Fld := ⟨R.KLN_SPARE, 1, 0⟩
def R.KLN_BLENDS_LO : Reg := ⟨0xA00010, 0x0, 1, 0, 1, 0x0, 0x0, 0x0, 0x0, 0x0, 0x0, 385⟩
def F.KLN_BLENDS_LO_COUNT : Fld := ⟨R.KLN_BLENDS_LO, 31, 0⟩
def R.KLN_BLENDS_HI : Reg := ⟨0xA00014, 0x0, 1, 0, 1, 0x0, 0x0, 0x0, 0x0, 0x0, 0x0, 386⟩
def F.KLN_BLENDS_HI_COUNT : Fld := ⟨R.KLN_BLENDS_HI, 31, 0⟩
def R.KLN_BUSY : Reg := ⟨0xA00018, 0x4, 2, 0, 1, 0x0, 0x0, 0x0, 0x0, 0x0, 0x0, 387⟩
def F.KLN_BUSY_PERMILLE : Fld := ⟨R.KLN_BUSY, 9, 0⟩
def R.KLN_SKIPS : Reg := ⟨0xA00020, 0x0, 1, 0, 1, 0x0, 0x0, 0x0, 0x0, 0x0, 0x0, 388⟩
def F.KLN_SKIPS_COUNT : Fld := ⟨R.KLN_SKIPS, 31, 0⟩
def R.KLN_NAN : Reg := ⟨0xA00024, 0x0, 1, 0, 1, 0x0, 0x0, 0x0, 0x0, 0x0, 0x0, 389⟩
def F.KLN_NAN_COUNT : Fld := ⟨R.KLN_NAN, 31, 0⟩
def R.KLN_LOAD_BW : Reg := ⟨0xA00028, 0x0, 1, 0, 1, 0x20, 0x0, 0x0, 0x0, 0xFF, 0x0, 390⟩
def F.KLN_LOAD_BW_GBPS : Fld := ⟨R.KLN_LOAD_BW, 7, 0⟩
def R.KLN_RELOC : Reg := ⟨0xA00040, 0x0, 1, 0, 1, 0x5800C000, 0x0, 0x0, 0x0, 0xFC00FFFF, 0x0, 391⟩
def F.KLN_RELOC_REL_ITERS : Fld := ⟨R.KLN_RELOC, 31, 28⟩
def F.KLN_RELOC_REL_LEVEL : Fld := ⟨R.KLN_RELOC, 27, 26⟩
def F.KLN_RELOC_REL_GAIN : Fld := ⟨R.KLN_RELOC, 15, 0⟩
def R.KLN_RELOC_TALLY : Reg := ⟨0xA00044, 0x0, 1, 0, 1, 0x0, 0x0, 0x0, 0x0, 0xFFFFFFFF, 0x0, 392⟩
def F.KLN_RELOC_TALLY_OUT : Fld := ⟨R.KLN_RELOC_TALLY, 31, 16⟩
def F.KLN_RELOC_TALLY_IN : Fld := ⟨R.KLN_RELOC_TALLY, 15, 0⟩
def R.KLN_RELOC_RING_LO : Reg := ⟨0xA00048, 0x0, 1, 0, 1, 0x0, 0x0, 0x0, 0x0, 0xFFFFFFFF, 0x0, 393⟩
def F.KLN_RELOC_RING_LO_ADDR : Fld := ⟨R.KLN_RELOC_RING_LO, 31, 0⟩
def R.KLN_RELOC_RING_HI : Reg := ⟨0xA0004C, 0x0, 1, 0, 1, 0x0, 0x0, 0x0, 0x0, 0xFFFFFFFF, 0x0, 394⟩
def F.KLN_RELOC_RING_HI_ADDR : Fld := ⟨R.KLN_RELOC_RING_HI, 31, 0⟩
/-! Table 11-8. -/

def R.KLN_MAP_CTL : Reg := ⟨0xA01000, 0x80, 8, 0, 1, 0x2400A00, 0x0, 0x0, 0x0, 0xFFFFFFFF, 0x0, 395⟩
def F.KLN_MAP_CTL_ENABLE : Fld := ⟨R.KLN_MAP_CTL, 31, 31⟩
def F.KLN_MAP_CTL_FROZEN : Fld := ⟨R.KLN_MAP_CTL, 30, 30⟩
def F.KLN_MAP_CTL_DEPTH_LOSS : Fld := ⟨R.KLN_MAP_CTL, 29, 29⟩
def F.KLN_MAP_CTL_SEG_EN : Fld := ⟨R.KLN_MAP_CTL, 28, 28⟩
def F.KLN_MAP_CTL_REFINE_ITERS : Fld := ⟨R.KLN_MAP_CTL, 27, 24⟩
def F.KLN_MAP_CTL_REFINE_LEVEL : Fld := ⟨R.KLN_MAP_CTL, 23, 22⟩
def F.KLN_MAP_CTL_SEG_INS : Fld := ⟨R.KLN_MAP_CTL, 21, 16⟩
def F.KLN_MAP_CTL_DENSIFY_KF : Fld := ⟨R.KLN_MAP_CTL, 15, 8⟩
def F.KLN_MAP_CTL_GROUP : Fld := ⟨R.KLN_MAP_CTL, 7, 0⟩
def R.KLN_MAP_ID : Reg := ⟨0xA01004, 0x80, 8, 0, 1, 0x0, 0x0, 0x0, 0x0, 0xFFFFFFFF, 0x0, 396⟩
def F.KLN_MAP_ID_MAP_ID : Fld := ⟨R.KLN_MAP_ID, 31, 0⟩
def R.KLN_MAP_ANCHOR : Reg := ⟨0xA01008, 0x80, 8, 0, 1, 0x0, 0x0, 0x0, 0x0, 0xFFFF, 0x0, 397⟩
def F.KLN_MAP_ANCHOR_ENTRY : Fld := ⟨R.KLN_MAP_ANCHOR, 15, 0⟩
def R.KLN_MAP_BASE_LO : Reg := ⟨0xA0100C, 0x80, 8, 0, 1, 0x0, 0x0, 0x0, 0x0, 0xFFFFFFFF, 0x0, 398⟩
def F.KLN_MAP_BASE_LO_ADDR : Fld := ⟨R.KLN_MAP_BASE_LO, 31, 0⟩
def R.KLN_MAP_BASE_HI : Reg := ⟨0xA01010, 0x80, 8, 0, 1, 0x0, 0x0, 0x0, 0x0, 0xFFFFFFFF, 0x0, 399⟩
def F.KLN_MAP_BASE_HI_ADDR : Fld := ⟨R.KLN_MAP_BASE_HI, 31, 0⟩
def R.KLN_MAP_STATE_LO : Reg := ⟨0xA01014, 0x80, 8, 0, 1, 0x0, 0x0, 0x0, 0x0, 0xFFFFFFFF, 0x0, 400⟩
def F.KLN_MAP_STATE_LO_ADDR : Fld := ⟨R.KLN_MAP_STATE_LO, 31, 0⟩
def R.KLN_MAP_STATE_HI : Reg := ⟨0xA01018, 0x80, 8, 0, 1, 0x0, 0x0, 0x0, 0x0, 0xFFFFFFFF, 0x0, 401⟩
def F.KLN_MAP_STATE_HI_ADDR : Fld := ⟨R.KLN_MAP_STATE_HI, 31, 0⟩
def R.KLN_MAP_ACTIVE_LO : Reg := ⟨0xA0101C, 0x80, 8, 0, 1, 0x0, 0x0, 0x0, 0x0, 0xFFFFFFFF, 0x0, 402⟩
def F.KLN_MAP_ACTIVE_LO_ADDR : Fld := ⟨R.KLN_MAP_ACTIVE_LO, 31, 0⟩
def R.KLN_MAP_ACTIVE_HI : Reg := ⟨0xA01020, 0x80, 8, 0, 1, 0x0, 0x0, 0x0, 0x0, 0xFFFFFFFF, 0x0, 403⟩
def F.KLN_MAP_ACTIVE_HI_ADDR : Fld := ⟨R.KLN_MAP_ACTIVE_HI, 31, 0⟩
def R.KLN_MAP_SIZE : Reg := ⟨0xA01024, 0x80, 8, 0, 1, 0x0, 0x0, 0x0, 0x0, 0xFFFFFFFF, 0x0, 404⟩
def F.KLN_MAP_SIZE_ACTIVE_BLOCKS : Fld := ⟨R.KLN_MAP_SIZE, 31, 16⟩
def F.KLN_MAP_SIZE_MAP_BLOCKS : Fld := ⟨R.KLN_MAP_SIZE, 15, 0⟩
def R.KLN_MAP_CELL : Reg := ⟨0xA01028, 0x80, 8, 0, 1, 0x640032, 0x0, 0x0, 0x0, 0xFFFFFFFF, 0x0, 405⟩
def F.KLN_MAP_CELL_CELL_CM : Fld := ⟨R.KLN_MAP_CELL, 31, 16⟩
def F.KLN_MAP_CELL_RANGE_M : Fld := ⟨R.KLN_MAP_CELL, 15, 0⟩
def R.KLN_MAP_LR_A : Reg := ⟨0xA0102C, 0x80, 8, 0, 1, 0xA8E1A8F, 0x0, 0x0, 0x0, 0xFFFFFFFF, 0x0, 406⟩
def F.KLN_MAP_LR_A_LR_POS : Fld := ⟨R.KLN_MAP_LR_A, 31, 16⟩
def F.KLN_MAP_LR_A_LR_ROT : Fld := ⟨R.KLN_MAP_LR_A, 15, 0⟩
def R.KLN_MAP_LR_B : Reg := ⟨0xA01030, 0x80, 8, 0, 1, 0x1E662A66, 0x0, 0x0, 0x0, 0xFFFFFFFF, 0x0, 407⟩
def F.KLN_MAP_LR_B_LR_SCALE : Fld := ⟨R.KLN_MAP_LR_B, 31, 16⟩
def F.KLN_MAP_LR_B_LR_OPACITY : Fld := ⟨R.KLN_MAP_LR_B, 15, 0⟩
def R.KLN_MAP_LR_C : Reg := ⟨0xA01034, 0x80, 8, 0, 1, 0x1C0A3266, 0x0, 0x0, 0x0, 0xFFFFFFFF, 0x0, 408⟩
def F.KLN_MAP_LR_C_LR_COLOUR : Fld := ⟨R.KLN_MAP_LR_C, 31, 16⟩
def F.KLN_MAP_LR_C_DEPTH_W : Fld := ⟨R.KLN_MAP_LR_C, 15, 0⟩
def R.KLN_MAP_DENSIFY : Reg := ⟨0xA01038, 0x80, 8, 0, 1, 0x1A8F0100, 0x0, 0x0, 0x0, 0xFFFFFF00, 0x0, 409⟩
def F.KLN_MAP_DENSIFY_GRAD_THR : Fld := ⟨R.KLN_MAP_DENSIFY, 31, 16⟩
def F.KLN_MAP_DENSIFY_PRUNE_ALPHA : Fld := ⟨R.KLN_MAP_DENSIFY, 15, 8⟩
def R.KLN_MAP_SCALE : Reg := ⟨0xA0103C, 0x80, 8, 0, 1, 0x1401F4, 0x0, 0x0, 0x0, 0xFFFFFFFF, 0x0, 410⟩
def F.KLN_MAP_SCALE_SPLIT_MM : Fld := ⟨R.KLN_MAP_SCALE, 31, 16⟩
def F.KLN_MAP_SCALE_PRUNE_MM : Fld := ⟨R.KLN_MAP_SCALE, 15, 0⟩
def R.KLN_MAP_SEED : Reg := ⟨0xA01040, 0x80, 8, 0, 1, 0x40101000, 0x0, 0x0, 0x0, 0xFFFFFFFF, 0x0, 411⟩
def F.KLN_MAP_SEED_SEED_ALPHA : Fld := ⟨R.KLN_MAP_SEED, 31, 24⟩
def F.KLN_MAP_SEED_SEED_STRIDE : Fld := ⟨R.KLN_MAP_SEED, 23, 16⟩
def F.KLN_MAP_SEED_SEED_MAX : Fld := ⟨R.KLN_MAP_SEED, 15, 0⟩
def R.KLN_MAP_TALLY : Reg := ⟨0xA01044, 0x80, 8, 0, 1, 0x0, 0x0, 0x0, 0x0, 0xFFFFFFFF, 0x0, 412⟩
def F.KLN_MAP_TALLY_EPOCH : Fld := ⟨R.KLN_MAP_TALLY, 31, 16⟩
def F.KLN_MAP_TALLY_OUT : Fld := ⟨R.KLN_MAP_TALLY, 15, 0⟩
def R.KLN_MAP_SESSIONS : Reg := ⟨0xA01048, 0x80, 8, 0, 1, 0x0, 0x0, 0x0, 0x0, 0xFFFFFFFF, 0x0, 413⟩
def F.KLN_MAP_SESSIONS_MASK : Fld := ⟨R.KLN_MAP_SESSIONS, 31, 0⟩
def R.KLN_MAP_OUT_LO : Reg := ⟨0xA0104C, 0x80, 8, 0, 1, 0x0, 0x0, 0x0, 0x0, 0xFFFFFFFF, 0x0, 414⟩
def F.KLN_MAP_OUT_LO_ADDR : Fld := ⟨R.KLN_MAP_OUT_LO, 31, 0⟩
def R.KLN_MAP_OUT_HI : Reg := ⟨0xA01050, 0x80, 8, 0, 1, 0x0, 0x0, 0x0, 0x0, 0xFFFFFFFF, 0x0, 415⟩
def F.KLN_MAP_OUT_HI_ADDR : Fld := ⟨R.KLN_MAP_OUT_HI, 31, 0⟩
def R.KLN_MAP_PRIMS : Reg := ⟨0xA01054, 0x80, 8, 0, 1, 0x0, 0x0, 0x0, 0x0, 0x0, 0x0, 416⟩
def F.KLN_MAP_PRIMS_COUNT : Fld := ⟨R.KLN_MAP_PRIMS, 31, 0⟩
def R.KLN_MAP_EPOCH : Reg := ⟨0xA01058, 0x80, 8, 0, 1, 0x0, 0x0, 0x0, 0x0, 0x0, 0x0, 417⟩
def F.KLN_MAP_EPOCH_EPOCH : Fld := ⟨R.KLN_MAP_EPOCH, 31, 0⟩
def R.KLN_MAP_RESIDENT : Reg := ⟨0xA0105C, 0x80, 8, 0, 1, 0x0, 0x0, 0x0, 0x0, 0x0, 0x0, 418⟩
def F.KLN_MAP_RESIDENT_LOADING : Fld := ⟨R.KLN_MAP_RESIDENT, 31, 16⟩
def F.KLN_MAP_RESIDENT_RESIDENT : Fld := ⟨R.KLN_MAP_RESIDENT, 15, 0⟩
def R.KLN_MAP_COUNTS : Reg := ⟨0xA01060, 0x80, 8, 0, 1, 0x0, 0x0, 0x0, 0x0, 0x0, 0x0, 419⟩
def F.KLN_MAP_COUNTS_CELL_FULL : Fld := ⟨R.KLN_MAP_COUNTS, 31, 16⟩
def F.KLN_MAP_COUNTS_MAP_FULL : Fld := ⟨R.KLN_MAP_COUNTS, 15, 0⟩
def R.KLN_MAP_LOSS : Reg := ⟨0xA01064, 0x80, 8, 0, 1, 0x0, 0x0, 0x0, 0x0, 0x0, 0x0, 420⟩
def F.KLN_MAP_LOSS_LOSS : Fld := ⟨R.KLN_MAP_LOSS, 31, 0⟩
def R.KLN_VIEW_CTL : Reg := ⟨0xA03000, 0x40, 16, 0, 1, 0x20000, 0x0, 0x0, 0x0, 0xFFFFFF00, 0x0, 421⟩
def F.KLN_VIEW_CTL_ENABLE : Fld := ⟨R.KLN_VIEW_CTL, 31, 31⟩
def F.KLN_VIEW_CTL_COLOUR : Fld := ⟨R.KLN_VIEW_CTL, 30, 30⟩
def F.KLN_VIEW_CTL_DEPTH : Fld := ⟨R.KLN_VIEW_CTL, 29, 29⟩
def F.KLN_VIEW_CTL_MATTE : Fld := ⟨R.KLN_VIEW_CTL, 28, 28⟩
def F.KLN_VIEW_CTL_MAP : Fld := ⟨R.KLN_VIEW_CTL, 27, 25⟩
def F.KLN_VIEW_CTL_SESSION : Fld := ⟨R.KLN_VIEW_CTL, 24, 20⟩
def F.KLN_VIEW_CTL_OUT_FRAMES : Fld := ⟨R.KLN_VIEW_CTL, 19, 16⟩
def F.KLN_VIEW_CTL_RATE_DIV : Fld := ⟨R.KLN_VIEW_CTL, 15, 8⟩
def R.KLN_VIEW_CAMERA : Reg := ⟨0xA03004, 0x40, 16, 0, 1, 0x0, 0x0, 0x0, 0x0, 0xFFFF, 0x0, 422⟩
def F.KLN_VIEW_CAMERA_ENTRY : Fld := ⟨R.KLN_VIEW_CAMERA, 15, 0⟩
def R.KLN_VIEW_GEOM : Reg := ⟨0xA03008, 0x40, 16, 0, 1, 0x0, 0x0, 0x0, 0x0, 0xFFFFFFFF, 0x0, 423⟩
def F.KLN_VIEW_GEOM_HEIGHT : Fld := ⟨R.KLN_VIEW_GEOM, 31, 16⟩
def F.KLN_VIEW_GEOM_WIDTH : Fld := ⟨R.KLN_VIEW_GEOM, 15, 0⟩
def R.KLN_VIEW_MATTE : Reg := ⟨0xA0300C, 0x40, 16, 0, 1, 0x0, 0x0, 0x0, 0x0, 0xFFFFFFFF, 0x0, 424⟩
def F.KLN_VIEW_MATTE_MASK_B : Fld := ⟨R.KLN_VIEW_MATTE, 31, 16⟩
def F.KLN_VIEW_MATTE_MASK_A : Fld := ⟨R.KLN_VIEW_MATTE, 15, 0⟩
def R.KLN_VIEW_DEADLINE : Reg := ⟨0xA03010, 0x40, 16, 0, 1, 0x0, 0x0, 0x0, 0x0, 0xFFFFFF, 0x0, 425⟩
def F.KLN_VIEW_DEADLINE_US : Fld := ⟨R.KLN_VIEW_DEADLINE, 23, 0⟩
def R.KLN_VIEW_TALLY : Reg := ⟨0xA03014, 0x40, 16, 0, 1, 0x0, 0x0, 0x0, 0x0, 0xFFFFFFFF, 0x0, 426⟩
def F.KLN_VIEW_TALLY_OUT : Fld := ⟨R.KLN_VIEW_TALLY, 31, 16⟩
def F.KLN_VIEW_TALLY_RELEASE : Fld := ⟨R.KLN_VIEW_TALLY, 15, 0⟩
def R.KLN_VIEW_OUT_LO : Reg := ⟨0xA03018, 0x40, 16, 0, 1, 0x0, 0x0, 0x0, 0x0, 0xFFFFFFFF, 0x0, 427⟩
def F.KLN_VIEW_OUT_LO_ADDR : Fld := ⟨R.KLN_VIEW_OUT_LO, 31, 0⟩
def R.KLN_VIEW_OUT_HI : Reg := ⟨0xA0301C, 0x40, 16, 0, 1, 0x0, 0x0, 0x0, 0x0, 0xFFFFFFFF, 0x0, 428⟩
def F.KLN_VIEW_OUT_HI_ADDR : Fld := ⟨R.KLN_VIEW_OUT_HI, 31, 0⟩
def R.KLN_VIEW_SCR_LO : Reg := ⟨0xA03020, 0x40, 16, 0, 1, 0x0, 0x0, 0x0, 0x0, 0xFFFFFFFF, 0x0, 429⟩
def F.KLN_VIEW_SCR_LO_ADDR : Fld := ⟨R.KLN_VIEW_SCR_LO, 31, 0⟩
def R.KLN_VIEW_SCR_HI : Reg := ⟨0xA03024, 0x40, 16, 0, 1, 0x0, 0x0, 0x0, 0x0, 0xFFFFFFFF, 0x0, 430⟩
def F.KLN_VIEW_SCR_HI_ADDR : Fld := ⟨R.KLN_VIEW_SCR_HI, 31, 0⟩
def R.KLN_VIEW_LIMIT : Reg := ⟨0xA03028, 0x40, 16, 0, 1, 0x8001000, 0x0, 0x0, 0x0, 0xFFFFFFFF, 0x0, 431⟩
def F.KLN_VIEW_LIMIT_TILE_MAX : Fld := ⟨R.KLN_VIEW_LIMIT, 31, 16⟩
def F.KLN_VIEW_LIMIT_INST_K : Fld := ⟨R.KLN_VIEW_LIMIT, 15, 0⟩
def R.KLN_VIEW_LAST : Reg := ⟨0xA0302C, 0x40, 16, 0, 1, 0x0, 0x0, 0x0, 0x0, 0x0, 0x0, 432⟩
def F.KLN_VIEW_LAST_STATUS : Fld := ⟨R.KLN_VIEW_LAST, 31, 24⟩
def F.KLN_VIEW_LAST_FLAGS : Fld := ⟨R.KLN_VIEW_LAST, 5, 0⟩
def R.KLN_VIEW_LAT : Reg := ⟨0xA03030, 0x40, 16, 0, 1, 0x0, 0x0, 0x0, 0x0, 0x0, 0x0, 433⟩
def F.KLN_VIEW_LAT_US : Fld := ⟨R.KLN_VIEW_LAT, 31, 0⟩
def R.KLN_VIEW_COUNT : Reg := ⟨0xA03034, 0x40, 16, 0, 1, 0x0, 0x0, 0x0, 0x0, 0x0, 0x0, 434⟩
def F.KLN_VIEW_COUNT_COUNT : Fld := ⟨R.KLN_VIEW_COUNT, 31, 0⟩
/-! Table 12-10. -/

def R.CSK_STATUS : Reg := ⟨0xB00000, 0x0, 1, 0, 1, 0x0, 0x0, 0x0, 0x0, 0x0, 0x0, 435⟩
def F.CSK_STATUS_DEGRADED : Fld := ⟨R.CSK_STATUS, 31, 31⟩
def F.CSK_STATUS_PREFETCH : Fld := ⟨R.CSK_STATUS, 30, 30⟩
def F.CSK_STATUS_ENABLED : Fld := ⟨R.CSK_STATUS, 7, 4⟩
def F.CSK_STATUS_WORKING : Fld := ⟨R.CSK_STATUS, 3, 0⟩
def R.CSK_EVT : Reg := ⟨0xB00004, 0x0, 1, 0, 1, 0x0, 0x0, 0x3FF, 0x0, 0x0, 0x0, 436⟩
def F.CSK_EVT_INVALID : Fld := ⟨R.CSK_EVT, 9, 9⟩
def F.CSK_EVT_QUEUE_FULL : Fld := ⟨R.CSK_EVT, 8, 8⟩
def F.CSK_EVT_SWAP : Fld := ⟨R.CSK_EVT, 7, 7⟩
def F.CSK_EVT_SHARD_MISSING : Fld := ⟨R.CSK_EVT, 6, 6⟩
def F.CSK_EVT_INSERT_REFUSED : Fld := ⟨R.CSK_EVT, 5, 5⟩
def F.CSK_EVT_INDEX_FULL : Fld := ⟨R.CSK_EVT, 4, 4⟩
def F.CSK_EVT_DANGLING : Fld := ⟨R.CSK_EVT, 3, 3⟩
def F.CSK_EVT_DEGRADED : Fld := ⟨R.CSK_EVT, 2, 2⟩
def F.CSK_EVT_LATE : Fld := ⟨R.CSK_EVT, 1, 1⟩
def F.CSK_EVT_SHORT : Fld := ⟨R.CSK_EVT, 0, 0⟩
def R.CSK_SPARE : Reg := ⟨0xB00008, 0x0, 1, 0, 1, 0x7FFF, 0x0, 0x0, 0x0, 0x0, 0x0, 437⟩
def F.CSK_SPARE_SPARE : Fld := ⟨R.CSK_SPARE, 14, 12⟩
def F.CSK_SPARE_UNITS : Fld := ⟨R.CSK_SPARE, 11, 0⟩
def R.CSK_QUERIES_LO : Reg := ⟨0xB00010, 0x0, 1, 0, 1, 0x0, 0x0, 0x0, 0x0, 0x0, 0x0, 438⟩
def F.CSK_QUERIES_LO_COUNT : Fld := ⟨R.CSK_QUERIES_LO, 31, 0⟩
def R.CSK_QUERIES_HI : Reg := ⟨0xB00014, 0x0, 1, 0, 1, 0x0, 0x0, 0x0, 0x0, 0x0, 0x0, 439⟩
def F.CSK_QUERIES_HI_COUNT : Fld := ⟨R.CSK_QUERIES_HI, 31, 0⟩
def R.CSK_INSERTS : Reg := ⟨0xB00018, 0x0, 1, 0, 1, 0x0, 0x0, 0x0, 0x0, 0x0, 0x0, 440⟩
def F.CSK_INSERTS_COUNT : Fld := ⟨R.CSK_INSERTS, 31, 0⟩
def R.CSK_DANGLING : Reg := ⟨0xB0001C, 0x0, 1, 0, 1, 0x0, 0x0, 0x0, 0x0, 0x0, 0x0, 441⟩
def F.CSK_DANGLING_COUNT : Fld := ⟨R.CSK_DANGLING, 31, 0⟩
def R.CSK_REVISED : Reg := ⟨0xB00020, 0x0, 1, 0, 1, 0x0, 0x0, 0x0, 0x0, 0x0, 0x0, 442⟩
def F.CSK_REVISED_COUNT : Fld := ⟨R.CSK_REVISED, 31, 0⟩
def R.CSK_SHORT : Reg := ⟨0xB00024, 0x0, 1, 0, 1, 0x0, 0x0, 0x0, 0x0, 0x0, 0x0, 443⟩
def F.CSK_SHORT_COUNT : Fld := ⟨R.CSK_SHORT, 31, 0⟩
def R.CSK_LATE : Reg := ⟨0xB00028, 0x0, 1, 0, 1, 0x0, 0x0, 0x0, 0x0, 0x0, 0x0, 444⟩
def F.CSK_LATE_COUNT : Fld := ⟨R.CSK_LATE, 31, 0⟩
def R.CSK_LATE_SHARD : Reg := ⟨0xB0002C, 0x0, 1, 0, 1, 0x0, 0x0, 0x0, 0x0, 0x0, 0x0, 445⟩
def F.CSK_LATE_SHARD_COUNT : Fld := ⟨R.CSK_LATE_SHARD, 31, 0⟩
def R.CSK_BUSY : Reg := ⟨0xB00030, 0x4, 4, 0, 1, 0x0, 0x0, 0x0, 0x0, 0x0, 0x0, 446⟩
def F.CSK_BUSY_PERMILLE : Fld := ⟨R.CSK_BUSY, 9, 0⟩
def R.CSK_CONTEXTS : Reg := ⟨0xB00040, 0x0, 1, 0, 1, 0x0, 0x0, 0x0, 0x0, 0x0, 0x0, 447⟩
def F.CSK_CONTEXTS_PEAK : Fld := ⟨R.CSK_CONTEXTS, 31, 16⟩
def F.CSK_CONTEXTS_IN_USE : Fld := ⟨R.CSK_CONTEXTS, 15, 0⟩
def R.CSK_DDR_BW : Reg := ⟨0xB00044, 0x0, 1, 0, 1, 0x40, 0x0, 0x0, 0x0, 0xFF, 0x0, 448⟩
def F.CSK_DDR_BW_GBPS : Fld := ⟨R.CSK_DDR_BW, 7, 0⟩
def R.CSK_COMPACT : Reg := ⟨0xB00048, 0x0, 1, 0, 1, 0x400, 0x0, 0x0, 0x0, 0xFFFF, 0x0, 449⟩
def F.CSK_COMPACT_RATE : Fld := ⟨R.CSK_COMPACT, 15, 0⟩
def R.CSK_LOOP : Reg := ⟨0xB0004C, 0x0, 1, 0, 1, 0x800012C, 0x0, 0x0, 0x0, 0xFFFFFFFF, 0x0, 450⟩
def F.CSK_LOOP_LOOP_K : Fld := ⟨R.CSK_LOOP, 31, 24⟩
def F.CSK_LOOP_LOOP_RECENT : Fld := ⟨R.CSK_LOOP, 23, 0⟩
/-! Table 12-11. -/

def R.CSK_IDX_CTL : Reg := ⟨0xB01000, 0x80, 8, 0, 1, 0x800, 0x0, 0x0, 0x0, 0xFF80FF00, 0x0, 451⟩
def F.CSK_IDX_CTL_ENABLE : Fld := ⟨R.CSK_IDX_CTL, 31, 31⟩
def F.CSK_IDX_CTL_FORM : Fld := ⟨R.CSK_IDX_CTL, 30, 29⟩
def F.CSK_IDX_CTL_SHARDED : Fld := ⟨R.CSK_IDX_CTL, 28, 28⟩
def F.CSK_IDX_CTL_REPLICAS : Fld := ⟨R.CSK_IDX_CTL, 27, 27⟩
def F.CSK_IDX_CTL_SHARDS_M1 : Fld := ⟨R.CSK_IDX_CTL, 26, 23⟩
def F.CSK_IDX_CTL_ENTRY : Fld := ⟨R.CSK_IDX_CTL, 15, 8⟩
def R.CSK_IDX_MAP : Reg := ⟨0xB01004, 0x80, 8, 0, 1, 0x0, 0x0, 0x0, 0x0, 0xFFFFFFFF, 0x0, 452⟩
def F.CSK_IDX_MAP_MAP_ID : Fld := ⟨R.CSK_IDX_MAP, 31, 0⟩
def R.CSK_IDX_NODE_LO : Reg := ⟨0xB01008, 0x80, 8, 0, 1, 0x0, 0x0, 0x0, 0x0, 0xFFFFFFFF, 0x0, 453⟩
def F.CSK_IDX_NODE_LO_ADDR : Fld := ⟨R.CSK_IDX_NODE_LO, 31, 0⟩
def R.CSK_IDX_NODE_HI : Reg := ⟨0xB0100C, 0x80, 8, 0, 1, 0x0, 0x0, 0x0, 0x0, 0xFFFFFFFF, 0x0, 454⟩
def F.CSK_IDX_NODE_HI_ADDR : Fld := ⟨R.CSK_IDX_NODE_HI, 31, 0⟩
def R.CSK_IDX_ENTRY_LO : Reg := ⟨0xB01010, 0x80, 8, 0, 1, 0x0, 0x0, 0x0, 0x0, 0xFFFFFFFF, 0x0, 455⟩
def F.CSK_IDX_ENTRY_LO_ADDR : Fld := ⟨R.CSK_IDX_ENTRY_LO, 31, 0⟩
def R.CSK_IDX_ENTRY_HI : Reg := ⟨0xB01014, 0x80, 8, 0, 1, 0x0, 0x0, 0x0, 0x0, 0xFFFFFFFF, 0x0, 456⟩
def F.CSK_IDX_ENTRY_HI_ADDR : Fld := ⟨R.CSK_IDX_ENTRY_HI, 31, 0⟩
def R.CSK_IDX_LOC_LO : Reg := ⟨0xB01018, 0x80, 8, 0, 1, 0x0, 0x0, 0x0, 0x0, 0xFFFFFFFF, 0x0, 457⟩
def F.CSK_IDX_LOC_LO_ADDR : Fld := ⟨R.CSK_IDX_LOC_LO, 31, 0⟩
def R.CSK_IDX_LOC_HI : Reg := ⟨0xB0101C, 0x80, 8, 0, 1, 0x0, 0x0, 0x0, 0x0, 0xFFFFFFFF, 0x0, 458⟩
def F.CSK_IDX_LOC_HI_ADDR : Fld := ⟨R.CSK_IDX_LOC_HI, 31, 0⟩
def R.CSK_IDX_CAP : Reg := ⟨0xB01020, 0x80, 8, 0, 1, 0x0, 0x0, 0x0, 0x0, 0xFFFFFFF, 0x0, 459⟩
def F.CSK_IDX_CAP_MAX_NODES : Fld := ⟨R.CSK_IDX_CAP, 27, 0⟩
def R.CSK_IDX_SEARCH : Reg := ⟨0xB01024, 0x80, 8, 0, 1, 0x20460800, 0x0, 0x0, 0x0, 0xFFFFFFFF, 0x0, 460⟩
def F.CSK_IDX_SEARCH_EF : Fld := ⟨R.CSK_IDX_SEARCH, 31, 24⟩
def F.CSK_IDX_SEARCH_WIDTH : Fld := ⟨R.CSK_IDX_SEARCH, 23, 20⟩
def F.CSK_IDX_SEARCH_LUT_SHIFT : Fld := ⟨R.CSK_IDX_SEARCH, 19, 16⟩
def F.CSK_IDX_SEARCH_NODE_MAX : Fld := ⟨R.CSK_IDX_SEARCH, 15, 0⟩
def R.CSK_IDX_INSERT : Reg := ⟨0xB01028, 0x80, 8, 0, 1, 0x40000400, 0x0, 0x0, 0x0, 0xFF00FFFF, 0x0, 461⟩
def F.CSK_IDX_INSERT_EF_INS : Fld := ⟨R.CSK_IDX_INSERT, 31, 24⟩
def F.CSK_IDX_INSERT_JOIN_DIST : Fld := ⟨R.CSK_IDX_INSERT, 15, 0⟩
def R.CSK_IDX_DEADLINE : Reg := ⟨0xB0102C, 0x80, 8, 0, 1, 0x7D0, 0x0, 0x0, 0x0, 0xFFFFFF, 0x0, 462⟩
def F.CSK_IDX_DEADLINE_US : Fld := ⟨R.CSK_IDX_DEADLINE, 23, 0⟩
def R.CSK_IDX_TIMEOUT : Reg := ⟨0xB01030, 0x80, 8, 0, 1, 0x3E8, 0x0, 0x0, 0x0, 0x1FFFF, 0x0, 463⟩
def F.CSK_IDX_TIMEOUT_SHARD_US : Fld := ⟨R.CSK_IDX_TIMEOUT, 16, 0⟩
def R.CSK_IDX_LIVE_LO : Reg := ⟨0xB01034, 0x80, 8, 0, 1, 0x0, 0x0, 0x0, 0x0, 0x0, 0x0, 464⟩
def F.CSK_IDX_LIVE_LO_COUNT : Fld := ⟨R.CSK_IDX_LIVE_LO, 31, 0⟩
def R.CSK_IDX_LIVE_HI : Reg := ⟨0xB01038, 0x80, 8, 0, 1, 0x0, 0x0, 0x0, 0x0, 0x0, 0x0, 465⟩
def F.CSK_IDX_LIVE_HI_COUNT : Fld := ⟨R.CSK_IDX_LIVE_HI, 31, 0⟩
def R.CSK_IDX_NODES : Reg := ⟨0xB0103C, 0x80, 8, 0, 1, 0x0, 0x0, 0x0, 0x0, 0x0, 0x0, 466⟩
def F.CSK_IDX_NODES_COUNT : Fld := ⟨R.CSK_IDX_NODES, 31, 0⟩
def R.CSK_IDX_TOMB_LO : Reg := ⟨0xB01040, 0x80, 8, 0, 1, 0x0, 0x0, 0x0, 0x0, 0x0, 0x0, 467⟩
def F.CSK_IDX_TOMB_LO_COUNT : Fld := ⟨R.CSK_IDX_TOMB_LO, 31, 0⟩
def R.CSK_IDX_TOMB_HI : Reg := ⟨0xB01044, 0x80, 8, 0, 1, 0x0, 0x0, 0x0, 0x0, 0x0, 0x0, 468⟩
def F.CSK_IDX_TOMB_HI_COUNT : Fld := ⟨R.CSK_IDX_TOMB_HI, 31, 0⟩
def R.CSK_IDX_SHARD : Reg := ⟨0xB01048, 0x80, 8, 0, 1, 0x0, 0x0, 0x0, 0x0, 0x0, 0x0, 469⟩
def F.CSK_IDX_SHARD_OWN : Fld := ⟨R.CSK_IDX_SHARD, 23, 20⟩
def F.CSK_IDX_SHARD_REPLICA_OF : Fld := ⟨R.CSK_IDX_SHARD, 19, 16⟩
def F.CSK_IDX_SHARD_MISSING : Fld := ⟨R.CSK_IDX_SHARD, 15, 0⟩
def R.CSK_IDX_REFUSED : Reg := ⟨0xB0104C, 0x80, 8, 0, 1, 0x0, 0x0, 0x0, 0x0, 0x0, 0x0, 470⟩
def F.CSK_IDX_REFUSED_FULL : Fld := ⟨R.CSK_IDX_REFUSED, 31, 16⟩
def F.CSK_IDX_REFUSED_DUPLICATE : Fld := ⟨R.CSK_IDX_REFUSED, 15, 0⟩
/-! Table 12-12. -/

def R.CSK_Q_CTL : Reg := ⟨0xB02000, 0x40, 16, 0, 1, 0x6, 0x0, 0x0, 0x0, 0x87F0000F, 0x0, 471⟩
def F.CSK_Q_CTL_ENABLE : Fld := ⟨R.CSK_Q_CTL, 31, 31⟩
def F.CSK_Q_CTL_INDEX : Fld := ⟨R.CSK_Q_CTL, 26, 24⟩
def F.CSK_Q_CTL_KIND : Fld := ⟨R.CSK_Q_CTL, 23, 20⟩
def F.CSK_Q_CTL_LOG2_LEN : Fld := ⟨R.CSK_Q_CTL, 3, 0⟩
def R.CSK_Q_TALLY : Reg := ⟨0xB02004, 0x40, 16, 0, 1, 0x0, 0x0, 0x0, 0x0, 0xFFFFFFFF, 0x0, 472⟩
def F.CSK_Q_TALLY_OUT : Fld := ⟨R.CSK_Q_TALLY, 31, 16⟩
def F.CSK_Q_TALLY_IN : Fld := ⟨R.CSK_Q_TALLY, 15, 0⟩
def R.CSK_Q_IN_LO : Reg := ⟨0xB02008, 0x40, 16, 0, 1, 0x0, 0x0, 0x0, 0x0, 0xFFFFFFFF, 0x0, 473⟩
def F.CSK_Q_IN_LO_ADDR : Fld := ⟨R.CSK_Q_IN_LO, 31, 0⟩
def R.CSK_Q_IN_HI : Reg := ⟨0xB0200C, 0x40, 16, 0, 1, 0x0, 0x0, 0x0, 0x0, 0xFFFFFFFF, 0x0, 474⟩
def F.CSK_Q_IN_HI_ADDR : Fld := ⟨R.CSK_Q_IN_HI, 31, 0⟩
def R.CSK_Q_OUT_LO : Reg := ⟨0xB02010, 0x40, 16, 0, 1, 0x0, 0x0, 0x0, 0x0, 0xFFFFFFFF, 0x0, 475⟩
def F.CSK_Q_OUT_LO_ADDR : Fld := ⟨R.CSK_Q_OUT_LO, 31, 0⟩
def R.CSK_Q_OUT_HI : Reg := ⟨0xB02014, 0x40, 16, 0, 1, 0x0, 0x0, 0x0, 0x0, 0xFFFFFFFF, 0x0, 476⟩
def F.CSK_Q_OUT_HI_ADDR : Fld := ⟨R.CSK_Q_OUT_HI, 31, 0⟩
def R.CSK_Q_COUNT : Reg := ⟨0xB02018, 0x40, 16, 0, 1, 0x0, 0x0, 0x0, 0x0, 0x0, 0x0, 477⟩
def F.CSK_Q_COUNT_WAITING : Fld := ⟨R.CSK_Q_COUNT, 31, 16⟩
def F.CSK_Q_COUNT_DONE : Fld := ⟨R.CSK_Q_COUNT, 15, 0⟩
def R.CSK_Q_FULL : Reg := ⟨0xB0201C, 0x40, 16, 0, 1, 0x0, 0x0, 0x0, 0x0, 0x0, 0x0, 478⟩
def F.CSK_Q_FULL_COUNT : Fld := ⟨R.CSK_Q_FULL, 31, 0⟩
/-! Table 13-9. -/

def R.DSP_STATUS : Reg := ⟨0xC00000, 0x0, 1, 0, 1, 0x0, 0x0, 0x0, 0x0, 0x0, 0x0, 479⟩
def F.DSP_STATUS_DEGRADED : Fld := ⟨R.DSP_STATUS, 31, 31⟩
def F.DSP_STATUS_IN_FLIGHT : Fld := ⟨R.DSP_STATUS, 12, 0⟩
def R.DSP_EVT : Reg := ⟨0xC00004, 0x0, 1, 0, 1, 0x0, 0x0, 0x7FF, 0x0, 0x0, 0x0, 480⟩
def F.DSP_EVT_HOST_ADV_REFUSED : Fld := ⟨R.DSP_EVT, 10, 10⟩
def F.DSP_EVT_STUCK : Fld := ⟨R.DSP_EVT, 9, 9⟩
def F.DSP_EVT_WATCHDOG : Fld := ⟨R.DSP_EVT, 8, 8⟩
def F.DSP_EVT_SHED : Fld := ⟨R.DSP_EVT, 7, 7⟩
def F.DSP_EVT_SPARES_OUT : Fld := ⟨R.DSP_EVT, 6, 6⟩
def F.DSP_EVT_RETIRED : Fld := ⟨R.DSP_EVT, 5, 5⟩
def F.DSP_EVT_ST_FAIL : Fld := ⟨R.DSP_EVT, 4, 4⟩
def F.DSP_EVT_SWAP : Fld := ⟨R.DSP_EVT, 3, 3⟩
def F.DSP_EVT_DEGRADED : Fld := ⟨R.DSP_EVT, 2, 2⟩
def F.DSP_EVT_MIGRATED : Fld := ⟨R.DSP_EVT, 1, 1⟩
def F.DSP_EVT_TASK_FAILED : Fld := ⟨R.DSP_EVT, 0, 0⟩
def R.DSP_CAPACITY : Reg := ⟨0xC00008, 0x0, 1, 0, 1, 0x0, 0x0, 0x0, 0x0, 0x0, 0x0, 481⟩
def F.DSP_CAPACITY_PEAK : Fld := ⟨R.DSP_CAPACITY, 31, 16⟩
def F.DSP_CAPACITY_MAX : Fld := ⟨R.DSP_CAPACITY, 15, 0⟩
def R.DSP_PENDING : Reg := ⟨0xC0000C, 0x0, 1, 0, 1, 0x0, 0x0, 0x0, 0x0, 0x0, 0x0, 482⟩
def F.DSP_PENDING_PEAK : Fld := ⟨R.DSP_PENDING, 31, 16⟩
def F.DSP_PENDING_WAITS : Fld := ⟨R.DSP_PENDING, 15, 0⟩
def R.DSP_STALE_EPOCH : Reg := ⟨0xC00010, 0x0, 1, 0, 1, 0x0, 0x0, 0x0, 0x0, 0x0, 0x0, 483⟩
def F.DSP_STALE_EPOCH_COUNT : Fld := ⟨R.DSP_STALE_EPOCH, 31, 0⟩
def R.DSP_TASK_FAILED : Reg := ⟨0xC00014, 0x0, 1, 0, 1, 0x0, 0x0, 0x0, 0x0, 0x0, 0x0, 484⟩
def F.DSP_TASK_FAILED_COUNT : Fld := ⟨R.DSP_TASK_FAILED, 31, 0⟩
def R.DSP_MIGRATIONS : Reg := ⟨0xC00018, 0x0, 1, 0, 1, 0x0, 0x0, 0x0, 0x0, 0x0, 0x0, 485⟩
def F.DSP_MIGRATIONS_COUNT : Fld := ⟨R.DSP_MIGRATIONS, 31, 0⟩
def R.DSP_TASK_LIMIT : Reg := ⟨0xC0001C, 0x0, 1, 0, 1, 0x186A0, 0x0, 0x0, 0x0, 0xFFFFFF, 0x0, 486⟩
def F.DSP_TASK_LIMIT_US : Fld := ⟨R.DSP_TASK_LIMIT, 23, 0⟩
def R.DSP_WAIT_LIMIT : Reg := ⟨0xC00020, 0x0, 1, 0, 1, 0xA, 0x0, 0x0, 0x0, 0x3FF, 0x0, 487⟩
def F.DSP_WAIT_LIMIT_S : Fld := ⟨R.DSP_WAIT_LIMIT, 9, 0⟩
def R.DSP_STUCK : Reg := ⟨0xC00024, 0x0, 1, 0, 1, 0x0, 0x0, 0x0, 0x0, 0x0, 0x0, 488⟩
def F.DSP_STUCK_COUNT : Fld := ⟨R.DSP_STUCK, 31, 0⟩
def R.DSP_ST_CFG : Reg := ⟨0xC00028, 0x0, 1, 0, 1, 0x25803E8, 0x0, 0x0, 0x0, 0xFFFFFFFF, 0x0, 489⟩
def F.DSP_ST_CFG_CYCLE_S : Fld := ⟨R.DSP_ST_CFG, 31, 16⟩
def F.DSP_ST_CFG_CAL_MS : Fld := ⟨R.DSP_ST_CFG, 15, 0⟩
def R.DSP_ST_STATUS : Reg := ⟨0xC0002C, 0x0, 1, 0, 1, 0x0, 0x0, 0x0, 0x0, 0x0, 0x0, 490⟩
def F.DSP_ST_STATUS_VISITS : Fld := ⟨R.DSP_ST_STATUS, 31, 16⟩
def F.DSP_ST_STATUS_QUEUED : Fld := ⟨R.DSP_ST_STATUS, 15, 8⟩
def F.DSP_ST_STATUS_FAILURES : Fld := ⟨R.DSP_ST_STATUS, 7, 0⟩
def R.DSP_ST_LAST : Reg := ⟨0xC00030, 0x0, 1, 0, 1, 0x0, 0x0, 0x0, 0x0, 0x0, 0x0, 491⟩
def F.DSP_ST_LAST_CLASS : Fld := ⟨R.DSP_ST_LAST, 31, 24⟩
def F.DSP_ST_LAST_INDEX : Fld := ⟨R.DSP_ST_LAST, 23, 8⟩
def F.DSP_ST_LAST_RESULT : Fld := ⟨R.DSP_ST_LAST, 7, 0⟩
def R.DSP_COOPER_LOAD : Reg := ⟨0xC00040, 0x0, 1, 0, 1, 0x0, 0x0, 0x0, 0x0, 0x0, 0x0, 492⟩
def F.DSP_COOPER_LOAD_CORE2 : Fld := ⟨R.DSP_COOPER_LOAD, 29, 20⟩
def F.DSP_COOPER_LOAD_CORE1 : Fld := ⟨R.DSP_COOPER_LOAD, 19, 10⟩
def F.DSP_COOPER_LOAD_CORE0 : Fld := ⟨R.DSP_COOPER_LOAD, 9, 0⟩
def R.DSP_COOPER_SHED : Reg := ⟨0xC00044, 0x0, 1, 0, 1, 0x0, 0x0, 0x0, 0x0, 0x0, 0x0, 493⟩
def F.DSP_COOPER_SHED_WD_RESETS : Fld := ⟨R.DSP_COOPER_SHED, 31, 16⟩
def F.DSP_COOPER_SHED_LEVEL : Fld := ⟨R.DSP_COOPER_SHED, 1, 0⟩
def R.DSP_COOPER_CFG : Reg := ⟨0xC00048, 0x0, 1, 0, 1, 0x50460000, 0x0, 0x0, 0x0, 0xFFFF0000, 0x0, 494⟩
def F.DSP_COOPER_CFG_SHED_PCT : Fld := ⟨R.DSP_COOPER_CFG, 31, 24⟩
def F.DSP_COOPER_CFG_RESTORE_PCT : Fld := ⟨R.DSP_COOPER_CFG, 23, 16⟩
def R.DSP_EVT_SHED : Reg := ⟨0xC0004C, 0x0, 1, 0, 1, 0x0, 0x0, 0x0, 0x0, 0x0, 0x0, 495⟩
def F.DSP_EVT_SHED_COUNT : Fld := ⟨R.DSP_EVT_SHED, 31, 0⟩
def R.DSP_EVT_HEAD_LO : Reg := ⟨0xC00050, 0x0, 1, 0, 1, 0x0, 0x0, 0x0, 0x0, 0x0, 0x0, 496⟩
def F.DSP_EVT_HEAD_LO_SEQ : Fld := ⟨R.DSP_EVT_HEAD_LO, 31, 0⟩
def R.DSP_EVT_HEAD_HI : Reg := ⟨0xC00054, 0x0, 1, 0, 1, 0x0, 0x0, 0x0, 0x0, 0x0, 0x0, 497⟩
def F.DSP_EVT_HEAD_HI_SEQ : Fld := ⟨R.DSP_EVT_HEAD_HI, 31, 0⟩
def R.DSP_HOST_ADV : Reg := ⟨0xC00060, 0x0, 1, 0, 1, 0x0, 0x0, 0x0, 0xFFFFFFFF, 0x0, 0x0, 498⟩
def F.DSP_HOST_ADV_INDEX : Fld := ⟨R.DSP_HOST_ADV, 31, 16⟩
def F.DSP_HOST_ADV_AMOUNT : Fld := ⟨R.DSP_HOST_ADV, 15, 0⟩
def R.DSP_HOST_WAIT_HIT_LO : Reg := ⟨0xC00068, 0x0, 1, 0, 1, 0x0, 0x0, 0xFFFFFFFF, 0x0, 0x0, 0x0, 499⟩
def F.DSP_HOST_WAIT_HIT_LO_HIT : Fld := ⟨R.DSP_HOST_WAIT_HIT_LO, 31, 0⟩
def R.DSP_HOST_WAIT_HIT_HI : Reg := ⟨0xC0006C, 0x0, 1, 0, 1, 0x0, 0x0, 0xFFFFFFFF, 0x0, 0x0, 0x0, 500⟩
def F.DSP_HOST_WAIT_HIT_HI_HIT : Fld := ⟨R.DSP_HOST_WAIT_HIT_HI, 31, 0⟩
/-! Table 13-10. -/

def R.DSP_CLS_UNITS : Reg := ⟨0xC00100, 0x10, 15, 0, 1, 0x0, 0x0, 0x0, 0x0, 0x0, 0x0, 501⟩
def F.DSP_CLS_UNITS_BUILT : Fld := ⟨R.DSP_CLS_UNITS, 31, 16⟩
def F.DSP_CLS_UNITS_OUT : Fld := ⟨R.DSP_CLS_UNITS, 15, 0⟩
def R.DSP_CLS_SPARES : Reg := ⟨0xC00104, 0x10, 15, 0, 1, 0x0, 0x0, 0x0, 0x0, 0x0, 0x0, 502⟩
def F.DSP_CLS_SPARES_UNCOVERED : Fld := ⟨R.DSP_CLS_SPARES, 31, 16⟩
def F.DSP_CLS_SPARES_STANDING : Fld := ⟨R.DSP_CLS_SPARES, 15, 8⟩
def F.DSP_CLS_SPARES_FREE : Fld := ⟨R.DSP_CLS_SPARES, 7, 0⟩
def R.DSP_CLS_PERIOD : Reg := ⟨0xC00108, 0x10, 15, 0, 1, 0x0, 0x0, 0x0, 0x0, 0x0, 0x0, 503⟩
def F.DSP_CLS_PERIOD_MS : Fld := ⟨R.DSP_CLS_PERIOD, 31, 0⟩
def R.DSP_HOST_WAIT_CTL : Reg := ⟨0xC01000, 0x10, 64, 0, 1, 0x0, 0x8000FFFF, 0x0, 0x0, 0x0, 0x0, 504⟩
def F.DSP_HOST_WAIT_CTL_ARM : Fld := ⟨R.DSP_HOST_WAIT_CTL, 31, 31⟩
def F.DSP_HOST_WAIT_CTL_INDEX : Fld := ⟨R.DSP_HOST_WAIT_CTL, 15, 0⟩
def R.DSP_HOST_WAIT_TH_LO : Reg := ⟨0xC01004, 0x10, 64, 0, 1, 0x0, 0xFFFFFFFF, 0x0, 0x0, 0x0, 0x0, 505⟩
def F.DSP_HOST_WAIT_TH_LO_TH : Fld := ⟨R.DSP_HOST_WAIT_TH_LO, 31, 0⟩
def R.DSP_HOST_WAIT_TH_HI : Reg := ⟨0xC01008, 0x10, 64, 0, 1, 0x0, 0xFFFFFFFF, 0x0, 0x0, 0x0, 0x0, 506⟩
def F.DSP_HOST_WAIT_TH_HI_TH : Fld := ⟨R.DSP_HOST_WAIT_TH_HI, 31, 0⟩
def R.DSP_RETIRE : Reg := ⟨0xC02000, 0x4, 32, 0, 1, 0x0, 0x0, 0x0, 0x0, 0x0, 0xFFFFFFFF, 507⟩
def F.DSP_RETIRE_ENTRY : Fld := ⟨R.DSP_RETIRE, 31, 0⟩
/-! Table 14-12. -/

def R.HST_STATUS : Reg := ⟨0xD00000, 0x0, 1, 0, 1, 0x0, 0x0, 0x0, 0x0, 0x0, 0x0, 508⟩
def F.HST_STATUS_GEN : Fld := ⟨R.HST_STATUS, 27, 24⟩
def F.HST_STATUS_WIDTH : Fld := ⟨R.HST_STATUS, 23, 16⟩
def F.HST_STATUS_NUM_VF : Fld := ⟨R.HST_STATUS, 15, 8⟩
def F.HST_STATUS_ECRC : Fld := ⟨R.HST_STATUS, 1, 1⟩
def F.HST_STATUS_MAP_UP : Fld := ⟨R.HST_STATUS, 0, 0⟩
def R.HST_EVT : Reg := ⟨0xD00004, 0x0, 1, 0, 1, 0x0, 0x0, 0x1FF, 0x0, 0x0, 0x0, 509⟩
def F.HST_EVT_MAP_BUSY : Fld := ⟨R.HST_EVT, 8, 8⟩
def F.HST_EVT_ECRC_ERR : Fld := ⟨R.HST_EVT, 7, 7⟩
def F.HST_EVT_FLR : Fld := ⟨R.HST_EVT, 6, 6⟩
def F.HST_EVT_POISON : Fld := ⟨R.HST_EVT, 5, 5⟩
def F.HST_EVT_BAR4_SLOW : Fld := ⟨R.HST_EVT, 4, 4⟩
def F.HST_EVT_BAR4_DENIED : Fld := ⟨R.HST_EVT, 3, 3⟩
def F.HST_EVT_SLOT_BUSY : Fld := ⟨R.HST_EVT, 2, 2⟩
def F.HST_EVT_MBX_BUSY : Fld := ⟨R.HST_EVT, 1, 1⟩
def F.HST_EVT_RING_OVERRUN : Fld := ⟨R.HST_EVT, 0, 0⟩
def R.HST_MBX_DOORBELL : Reg := ⟨0xD00010, 0x0, 1, 0, 1, 0x0, 0x0, 0x0, 0xFFFF, 0x0, 0x0, 510⟩
def F.HST_MBX_DOORBELL_TAG : Fld := ⟨R.HST_MBX_DOORBELL, 15, 0⟩
def R.HST_MBX_STATUS : Reg := ⟨0xD00014, 0x0, 1, 0, 1, 0x0, 0x0, 0x0, 0x0, 0x0, 0x0, 511⟩
def F.HST_MBX_STATUS_STATE : Fld := ⟨R.HST_MBX_STATUS, 31, 24⟩
def F.HST_MBX_STATUS_RESULT : Fld := ⟨R.HST_MBX_STATUS, 23, 16⟩
def F.HST_MBX_STATUS_TAG : Fld := ⟨R.HST_MBX_STATUS, 15, 0⟩
def R.HST_MBX_CFG : Reg := ⟨0xD00018, 0x0, 1, 0, 1, 0x64, 0x0, 0x0, 0x0, 0xFF, 0x0, 512⟩
def F.HST_MBX_CFG_TIMEOUT_MS : Fld := ⟨R.HST_MBX_CFG, 7, 0⟩
def R.HST_IRQ_CFG : Reg := ⟨0xD0001C, 0x0, 1, 0, 1, 0x2, 0x0, 0x0, 0x0, 0x3, 0x0, 513⟩
def F.HST_IRQ_CFG_EVENT_SEV : Fld := ⟨R.HST_IRQ_CFG, 1, 0⟩
def R.HST_MAP_CFG : Reg := ⟨0xD00020, 0x0, 1, 0, 1, 0x7D00000, 0x0, 0x0, 0x0, 0xFFFF0000, 0x0, 514⟩
def F.HST_MAP_CFG_CTRL_RATE : Fld := ⟨R.HST_MAP_CFG, 31, 16⟩
def R.HST_BAR4_DENIED : Reg := ⟨0xD00030, 0x0, 1, 0, 1, 0x0, 0x0, 0x0, 0x0, 0x0, 0x0, 515⟩
def F.HST_BAR4_DENIED_COUNT : Fld := ⟨R.HST_BAR4_DENIED, 31, 0⟩
def R.HST_BAR4_SLOW : Reg := ⟨0xD00034, 0x0, 1, 0, 1, 0x0, 0x0, 0x0, 0x0, 0x0, 0x0, 516⟩
def F.HST_BAR4_SLOW_COUNT : Fld := ⟨R.HST_BAR4_SLOW, 31, 0⟩
def R.HST_POISONED : Reg := ⟨0xD00038, 0x0, 1, 0, 1, 0x0, 0x0, 0x0, 0x0, 0x0, 0x0, 517⟩
def F.HST_POISONED_COUNT : Fld := ⟨R.HST_POISONED, 31, 0⟩
def R.HST_SLOT_BUSY : Reg := ⟨0xD0003C, 0x0, 1, 0, 1, 0x0, 0x0, 0x0, 0x0, 0x0, 0x0, 518⟩
def F.HST_SLOT_BUSY_COUNT : Fld := ⟨R.HST_SLOT_BUSY, 31, 0⟩
def R.HST_MAP_REQS : Reg := ⟨0xD00040, 0x0, 1, 0, 1, 0x0, 0x0, 0x0, 0x0, 0x0, 0x0, 519⟩
def F.HST_MAP_REQS_COUNT : Fld := ⟨R.HST_MAP_REQS, 31, 0⟩
def R.HST_MAP_NAKS : Reg := ⟨0xD00044, 0x0, 1, 0, 1, 0x0, 0x0, 0x0, 0x0, 0x0, 0x0, 520⟩
def F.HST_MAP_NAKS_COUNT : Fld := ⟨R.HST_MAP_NAKS, 31, 0⟩
def R.HST_MAP_IGNORED : Reg := ⟨0xD00048, 0x0, 1, 0, 1, 0x0, 0x0, 0x0, 0x0, 0x0, 0x0, 521⟩
def F.HST_MAP_IGNORED_COUNT : Fld := ⟨R.HST_MAP_IGNORED, 31, 0⟩
def R.HST_MAP_TILES : Reg := ⟨0xD0004C, 0x0, 1, 0, 1, 0x0, 0x0, 0x0, 0x0, 0x0, 0x0, 522⟩
def F.HST_MAP_TILES_COUNT : Fld := ⟨R.HST_MAP_TILES, 31, 0⟩
def R.HST_MBX_REQ : Reg := ⟨0xD00100, 0x4, 64, 0, 1, 0x0, 0xFFFFFFFF, 0x0, 0x0, 0x0, 0x0, 523⟩
def F.HST_MBX_REQ_DATA : Fld := ⟨R.HST_MBX_REQ, 31, 0⟩
def R.HST_MBX_RSP : Reg := ⟨0xD00200, 0x4, 64, 0, 1, 0x0, 0x0, 0x0, 0x0, 0x0, 0x0, 524⟩
def F.HST_MBX_RSP_DATA : Fld := ⟨R.HST_MBX_RSP, 31, 0⟩
/-! Table 14-13. -/

def R.HST_RING_CTL : Reg := ⟨0xD01000, 0x40, 64, 0, 1, 0x8, 0x0, 0x0, 0x0, 0xF8FF000F, 0x0, 525⟩
def F.HST_RING_CTL_ENABLE : Fld := ⟨R.HST_RING_CTL, 31, 31⟩
def F.HST_RING_CTL_KIND : Fld := ⟨R.HST_RING_CTL, 30, 28⟩
def F.HST_RING_CTL_VISION_ONLY : Fld := ⟨R.HST_RING_CTL, 27, 27⟩
def F.HST_RING_CTL_SOURCE : Fld := ⟨R.HST_RING_CTL, 23, 16⟩
def F.HST_RING_CTL_LOG2_LEN : Fld := ⟨R.HST_RING_CTL, 3, 0⟩
def R.HST_RING_OFF : Reg := ⟨0xD01004, 0x40, 64, 0, 1, 0x1000000, 0x0, 0x0, 0x0, 0xFFFFFFFF, 0x0, 526⟩
def F.HST_RING_OFF_OFFSET : Fld := ⟨R.HST_RING_OFF, 31, 0⟩
def R.HST_RING_IRQ : Reg := ⟨0xD01008, 0x40, 64, 0, 1, 0x1, 0x0, 0x0, 0x0, 0xFFFFFFFF, 0x0, 527⟩
def F.HST_RING_IRQ_IRQ_US : Fld := ⟨R.HST_RING_IRQ, 31, 16⟩
def F.HST_RING_IRQ_IRQ_TH : Fld := ⟨R.HST_RING_IRQ, 15, 0⟩
def R.HST_RING_REL : Reg := ⟨0xD0100C, 0x40, 64, 0, 1, 0x0, 0x0, 0x0, 0x0, 0xFFFFFFFF, 0x0, 528⟩
def F.HST_RING_REL_HOLD_US : Fld := ⟨R.HST_RING_REL, 31, 16⟩
def F.HST_RING_REL_TALLY : Fld := ⟨R.HST_RING_REL, 15, 0⟩
def R.HST_RING_WR_LO : Reg := ⟨0xD01010, 0x40, 64, 0, 1, 0x0, 0x0, 0x0, 0x0, 0x0, 0x0, 529⟩
def F.HST_RING_WR_LO_SEQ : Fld := ⟨R.HST_RING_WR_LO, 31, 0⟩
def R.HST_RING_WR_HI : Reg := ⟨0xD01014, 0x40, 64, 0, 1, 0x0, 0x0, 0x0, 0x0, 0x0, 0x0, 530⟩
def F.HST_RING_WR_HI_SEQ : Fld := ⟨R.HST_RING_WR_HI, 31, 0⟩
def R.HST_RING_RD_LO : Reg := ⟨0xD01018, 0x40, 64, 0, 1, 0x0, 0xFFFFFFFF, 0x0, 0x0, 0x0, 0x0, 531⟩
def F.HST_RING_RD_LO_SEQ : Fld := ⟨R.HST_RING_RD_LO, 31, 0⟩
def R.HST_RING_RD_HI : Reg := ⟨0xD0101C, 0x40, 64, 0, 1, 0x0, 0xFFFFFFFF, 0x0, 0x0, 0x0, 0x0, 532⟩
def F.HST_RING_RD_HI_SEQ : Fld := ⟨R.HST_RING_RD_HI, 31, 0⟩
def R.HST_RING_OVERRUN : Reg := ⟨0xD01020, 0x40, 64, 0, 1, 0x0, 0x0, 0x0, 0x0, 0x0, 0x0, 533⟩
def F.HST_RING_OVERRUN_COUNT : Fld := ⟨R.HST_RING_OVERRUN, 31, 0⟩
def R.HST_RING_BACK_LO : Reg := ⟨0xD01024, 0x40, 64, 0, 1, 0x0, 0x0, 0x0, 0x0, 0xFFFFFFFF, 0x0, 534⟩
def F.HST_RING_BACK_LO_ADDR : Fld := ⟨R.HST_RING_BACK_LO, 31, 0⟩
def R.HST_RING_BACK_HI : Reg := ⟨0xD01028, 0x40, 64, 0, 1, 0x0, 0x0, 0x0, 0x0, 0xFFFFFFFF, 0x0, 535⟩
def F.HST_RING_BACK_HI_ADDR : Fld := ⟨R.HST_RING_BACK_HI, 31, 0⟩
def R.HST_WIN : Reg := ⟨0xD07000, 0x4, 256, 0, 1, 0x1, 0x0, 0x0, 0x0, 0xF8FFFFFF, 0x0, 536⟩
def F.HST_WIN_ENABLE : Fld := ⟨R.HST_WIN, 31, 31⟩
def F.HST_WIN_KIND : Fld := ⟨R.HST_WIN, 30, 28⟩
def F.HST_WIN_VISION_ONLY : Fld := ⟨R.HST_WIN, 27, 27⟩
def F.HST_WIN_SOURCE : Fld := ⟨R.HST_WIN, 23, 16⟩
def F.HST_WIN_FN_MASK : Fld := ⟨R.HST_WIN, 15, 0⟩
def R.HST_FN : Reg := ⟨0xD06000, 0x4, 16, 0, 1, 0x0, 0x0, 0x0, 0x0, 0xFFFFFF, 0x0, 537⟩
def F.HST_FN_INDEX_MASK : Fld := ⟨R.HST_FN, 23, 16⟩
def F.HST_FN_APERTURE_MASK : Fld := ⟨R.HST_FN, 15, 0⟩
def R.HST_AP_BASE_LO : Reg := ⟨0xD08000, 0x10, 16, 0, 1, 0x0, 0x0, 0x0, 0x0, 0xFFFFFFFF, 0x0, 538⟩
def F.HST_AP_BASE_LO_ADDR : Fld := ⟨R.HST_AP_BASE_LO, 31, 0⟩
def R.HST_AP_BASE_HI : Reg := ⟨0xD08004, 0x10, 16, 0, 1, 0x0, 0x0, 0x0, 0x0, 0xFFFFFFFF, 0x0, 539⟩
def F.HST_AP_BASE_HI_ADDR : Fld := ⟨R.HST_AP_BASE_HI, 31, 0⟩
def R.HST_AP_PAGES : Reg := ⟨0xD08008, 0x10, 16, 0, 1, 0x0, 0x0, 0x0, 0x0, 0x1FFFF, 0x0, 540⟩
def F.HST_AP_PAGES_PAGES : Fld := ⟨R.HST_AP_PAGES, 16, 0⟩
def R.HST_STR_CTL : Reg := ⟨0xD09000, 0x20, 32, 0, 1, 0x200B810, 0x0, 0x0, 0x0, 0xFFFFFCFF, 0x0, 541⟩
def F.HST_STR_CTL_ENABLE : Fld := ⟨R.HST_STR_CTL, 31, 31⟩
def F.HST_STR_CTL_VISION_ONLY : Fld := ⟨R.HST_STR_CTL, 30, 30⟩
def F.HST_STR_CTL_PORT : Fld := ⟨R.HST_STR_CTL, 29, 28⟩
def F.HST_STR_CTL_BATCH : Fld := ⟨R.HST_STR_CTL, 27, 25⟩
def F.HST_STR_CTL_VLAN : Fld := ⟨R.HST_STR_CTL, 24, 24⟩
def F.HST_STR_CTL_PCP : Fld := ⟨R.HST_STR_CTL, 23, 21⟩
def F.HST_STR_CTL_SESSION : Fld := ⟨R.HST_STR_CTL, 20, 16⟩
def F.HST_STR_CTL_DSCP : Fld := ⟨R.HST_STR_CTL, 15, 10⟩
def F.HST_STR_CTL_TTL : Fld := ⟨R.HST_STR_CTL, 7, 0⟩
def R.HST_STR_DST : Reg := ⟨0xD09004, 0x20, 32, 0, 1, 0x0, 0x0, 0x0, 0x0, 0xFFFFFFFF, 0x0, 542⟩
def F.HST_STR_DST_ADDR : Fld := ⟨R.HST_STR_DST, 31, 0⟩
def R.HST_STR_UDP : Reg := ⟨0xD09008, 0x20, 32, 0, 1, 0x0, 0x0, 0x0, 0x0, 0xFFFFFFFF, 0x0, 543⟩
def F.HST_STR_UDP_SRC_PORT : Fld := ⟨R.HST_STR_UDP, 31, 16⟩
def F.HST_STR_UDP_DST_PORT : Fld := ⟨R.HST_STR_UDP, 15, 0⟩
def R.HST_STR_VID : Reg := ⟨0xD0900C, 0x20, 32, 0, 1, 0x0, 0x0, 0x0, 0x0, 0xFFF, 0x0, 544⟩
def F.HST_STR_VID_VID : Fld := ⟨R.HST_STR_VID, 11, 0⟩
def R.HST_STR_PACKETS : Reg := ⟨0xD09010, 0x20, 32, 0, 1, 0x0, 0x0, 0x0, 0x0, 0x0, 0x0, 545⟩
def F.HST_STR_PACKETS_COUNT : Fld := ⟨R.HST_STR_PACKETS, 31, 0⟩
def R.HST_PORT_IP : Reg := ⟨0xD0A000, 0x20, 4, 0, 1, 0x0, 0x0, 0x0, 0x0, 0xFFFFFFFF, 0x0, 546⟩
def F.HST_PORT_IP_ADDR : Fld := ⟨R.HST_PORT_IP, 31, 0⟩
def R.HST_PORT_NET : Reg := ⟨0xD0A004, 0x20, 4, 0, 1, 0x18, 0x0, 0x0, 0x0, 0xFF, 0x0, 547⟩
def F.HST_PORT_NET_PREFIX : Fld := ⟨R.HST_PORT_NET, 7, 0⟩
def R.HST_PORT_GW : Reg := ⟨0xD0A008, 0x20, 4, 0, 1, 0x0, 0x0, 0x0, 0x0, 0xFFFFFFFF, 0x0, 548⟩
def F.HST_PORT_GW_ADDR : Fld := ⟨R.HST_PORT_GW, 31, 0⟩
def R.HST_PORT_MAP : Reg := ⟨0xD0A00C, 0x20, 4, 0, 1, 0x3E80000, 0x0, 0x0, 0x0, 0xFFFFFFFF, 0x0, 549⟩
def F.HST_PORT_MAP_MAP_EN : Fld := ⟨R.HST_PORT_MAP, 31, 31⟩
def F.HST_PORT_MAP_MAP_MBPS : Fld := ⟨R.HST_PORT_MAP, 30, 16⟩
def F.HST_PORT_MAP_MAP_UDP : Fld := ⟨R.HST_PORT_MAP, 15, 0⟩
def R.HST_PORT_MAC_LO : Reg := ⟨0xD0A010, 0x20, 4, 0, 1, 0x0, 0x0, 0x0, 0x0, 0xFFFFFFFF, 0x0, 550⟩
def F.HST_PORT_MAC_LO_MAC : Fld := ⟨R.HST_PORT_MAC_LO, 31, 0⟩
def R.HST_PORT_MAC_HI : Reg := ⟨0xD0A014, 0x20, 4, 0, 1, 0x0, 0x0, 0x0, 0x0, 0xFFFFFFFF, 0x0, 551⟩
def F.HST_PORT_MAC_HI_MAC : Fld := ⟨R.HST_PORT_MAC_HI, 31, 0⟩
def R.HST_PORT_ARP : Reg := ⟨0xD0A018, 0x20, 4, 0, 1, 0x0, 0x0, 0x0, 0x0, 0x0, 0x0, 552⟩
def F.HST_PORT_ARP_COUNT : Fld := ⟨R.HST_PORT_ARP, 31, 0⟩
def R.HST_ACL_ADDR : Reg := ⟨0xD0A100, 0x8, 16, 0, 1, 0x0, 0x0, 0x0, 0x0, 0xFFFFFFFF, 0x0, 553⟩
def F.HST_ACL_ADDR_ADDR : Fld := ⟨R.HST_ACL_ADDR, 31, 0⟩
def R.HST_ACL_CTL : Reg := ⟨0xD0A104, 0x8, 16, 0, 1, 0x20, 0x0, 0x0, 0x0, 0x800000FF, 0x0, 554⟩
def F.HST_ACL_CTL_ENABLE : Fld := ⟨R.HST_ACL_CTL, 31, 31⟩
def F.HST_ACL_CTL_PREFIX : Fld := ⟨R.HST_ACL_CTL, 7, 0⟩
/-! Table 14-14. -/

def R.GLB_PART : Reg := ⟨0x0, 0x0, 1, 0, 1, 0x0, 0x0, 0x0, 0x0, 0x0, 0xFFFF, 0⟩
def F.GLB_PART_STEPPING : Fld := ⟨R.GLB_PART, 15, 8⟩
def F.GLB_PART_PART : Fld := ⟨R.GLB_PART, 7, 1⟩
def F.GLB_PART_GRADE : Fld := ⟨R.GLB_PART, 0, 0⟩
def R.GLB_SERIAL_LO : Reg := ⟨0x4, 0x0, 1, 0, 1, 0x0, 0x0, 0x0, 0x0, 0x0, 0xFFFFFFFF, 1⟩
def F.GLB_SERIAL_LO_SERIAL : Fld := ⟨R.GLB_SERIAL_LO, 31, 0⟩
def R.GLB_SERIAL_HI : Reg := ⟨0x8, 0x0, 1, 0, 1, 0x0, 0x0, 0x0, 0x0, 0x0, 0xFFFFFFFF, 2⟩
def F.GLB_SERIAL_HI_SERIAL : Fld := ⟨R.GLB_SERIAL_HI, 31, 0⟩
def R.GLB_NOC_BUSY : Reg := ⟨0xC, 0x0, 1, 0, 1, 0x0, 0x0, 0x0, 0x0, 0x0, 0x0, 3⟩
def F.GLB_NOC_BUSY_PERMILLE : Fld := ⟨R.GLB_NOC_BUSY, 9, 0⟩
/-! Table 15-6. -/

def R.LNK_STATUS : Reg := ⟨0xE00000, 0x0, 1, 0, 1, 0x0, 0x0, 0x0, 0x0, 0x0, 0x0, 555⟩
def F.LNK_STATUS_ROLE : Fld := ⟨R.LNK_STATUS, 31, 29⟩
def F.LNK_STATUS_OPEN : Fld := ⟨R.LNK_STATUS, 28, 28⟩
def F.LNK_STATUS_MY_ID : Fld := ⟨R.LNK_STATUS, 23, 20⟩
def F.LNK_STATUS_MASTER_NOW : Fld := ⟨R.LNK_STATUS, 19, 16⟩
def F.LNK_STATUS_REACH : Fld := ⟨R.LNK_STATUS, 15, 0⟩
def R.LNK_EVT : Reg := ⟨0xE00004, 0x0, 1, 0, 1, 0x0, 0x0, 0x1FFF, 0x0, 0x0, 0x0, 556⟩
def F.LNK_EVT_TIME_LOST : Fld := ⟨R.LNK_EVT, 12, 12⟩
def F.LNK_EVT_RESYNC_DONE : Fld := ⟨R.LNK_EVT, 11, 11⟩
def F.LNK_EVT_ISOLATED : Fld := ⟨R.LNK_EVT, 10, 10⟩
def F.LNK_EVT_TAKEOVER : Fld := ⟨R.LNK_EVT, 9, 9⟩
def F.LNK_EVT_MEMBER_JOINED : Fld := ⟨R.LNK_EVT, 8, 8⟩
def F.LNK_EVT_MEMBER_LOST : Fld := ⟨R.LNK_EVT, 7, 7⟩
def F.LNK_EVT_MISMATCH : Fld := ⟨R.LNK_EVT, 6, 6⟩
def F.LNK_EVT_MISWIRED : Fld := ⟨R.LNK_EVT, 5, 5⟩
def F.LNK_EVT_FEC_UNCORR : Fld := ⟨R.LNK_EVT, 4, 4⟩
def F.LNK_EVT_LASER_LOW : Fld := ⟨R.LNK_EVT, 3, 3⟩
def F.LNK_EVT_LANES_REDUCED : Fld := ⟨R.LNK_EVT, 2, 2⟩
def F.LNK_EVT_LINK_DOWN : Fld := ⟨R.LNK_EVT, 1, 1⟩
def F.LNK_EVT_LINK_UP : Fld := ⟨R.LNK_EVT, 0, 0⟩
def R.LNK_RING_EPOCH : Reg := ⟨0xE00008, 0x0, 1, 0, 1, 0x0, 0x0, 0x0, 0x0, 0x0, 0x0, 557⟩
def F.LNK_RING_EPOCH_EPOCH : Fld := ⟨R.LNK_RING_EPOCH, 31, 0⟩
def R.LNK_MEMBERS : Reg := ⟨0xE0000C, 0x0, 1, 0, 1, 0x0, 0x0, 0x0, 0x0, 0x0, 0x0, 558⟩
def F.LNK_MEMBERS_LOST : Fld := ⟨R.LNK_MEMBERS, 31, 16⟩
def F.LNK_MEMBERS_JOINED : Fld := ⟨R.LNK_MEMBERS, 15, 0⟩
def R.LNK_CFG : Reg := ⟨0xE00010, 0x0, 1, 0, 1, 0x100, 0x0, 0x0, 0x0, 0xCF000FF0, 0x0, 559⟩
def F.LNK_CFG_ENABLE : Fld := ⟨R.LNK_CFG, 31, 31⟩
def F.LNK_CFG_CHAIN : Fld := ⟨R.LNK_CFG, 30, 30⟩
def F.LNK_CFG_N_M1 : Fld := ⟨R.LNK_CFG, 27, 24⟩
def F.LNK_CFG_STANDBY : Fld := ⟨R.LNK_CFG, 11, 8⟩
def F.LNK_CFG_MASTER : Fld := ⟨R.LNK_CFG, 7, 4⟩
def R.LNK_TIMING : Reg := ⟨0xE00014, 0x0, 1, 0, 1, 0x320064, 0x0, 0x0, 0x0, 0xFFFFFF, 0x0, 560⟩
def F.LNK_TIMING_HB_US : Fld := ⟨R.LNK_TIMING, 23, 16⟩
def F.LNK_TIMING_RETRAIN_MS : Fld := ⟨R.LNK_TIMING, 15, 0⟩
def R.LNK_BW : Reg := ⟨0xE00018, 0x0, 1, 0, 1, 0x20, 0x0, 0x0, 0x0, 0xFF, 0x0, 561⟩
def F.LNK_BW_RESYNC_GBPS : Fld := ⟨R.LNK_BW, 7, 0⟩
def R.LNK_DIGEST_LO : Reg := ⟨0xE0001C, 0x0, 1, 0, 1, 0x0, 0x0, 0x0, 0x0, 0x0, 0x0, 562⟩
def F.LNK_DIGEST_LO_DIGEST : Fld := ⟨R.LNK_DIGEST_LO, 31, 0⟩
def R.LNK_DIGEST_HI : Reg := ⟨0xE00020, 0x0, 1, 0, 1, 0x0, 0x0, 0x0, 0x0, 0x0, 0x0, 563⟩
def F.LNK_DIGEST_HI_DIGEST : Fld := ⟨R.LNK_DIGEST_HI, 31, 0⟩
def R.LNK_TIME_OFFSET : Reg := ⟨0xE00024, 0x0, 1, 0, 1, 0x0, 0x0, 0x0, 0x0, 0x0, 0x0, 564⟩
def F.LNK_TIME_OFFSET_NS : Fld := ⟨R.LNK_TIME_OFFSET, 31, 0⟩
def R.LNK_TALLY_SENT : Reg := ⟨0xE00028, 0x0, 1, 0, 1, 0x0, 0x0, 0x0, 0x0, 0x0, 0x0, 565⟩
def F.LNK_TALLY_SENT_COUNT : Fld := ⟨R.LNK_TALLY_SENT, 31, 0⟩
def R.LNK_E2E_RESENT : Reg := ⟨0xE0002C, 0x0, 1, 0, 1, 0x0, 0x0, 0x0, 0x0, 0x0, 0x0, 566⟩
def F.LNK_E2E_RESENT_COUNT : Fld := ⟨R.LNK_E2E_RESENT, 31, 0⟩
def R.LNK_SHARED_RGN : Reg := ⟨0xE00080, 0x4, 32, 0, 1, 0x0, 0x0, 0x0, 0x0, 0xC00003FF, 0x0, 567⟩
def F.LNK_SHARED_RGN_ENABLE : Fld := ⟨R.LNK_SHARED_RGN, 31, 31⟩
def F.LNK_SHARED_RGN_REPLICA : Fld := ⟨R.LNK_SHARED_RGN, 30, 30⟩
def F.LNK_SHARED_RGN_REGION : Fld := ⟨R.LNK_SHARED_RGN, 9, 0⟩
def R.LNK_MBR_STATE : Reg := ⟨0xE03000, 0x10, 16, 0, 1, 0x0, 0x0, 0x0, 0x0, 0x0, 0x0, 568⟩
def F.LNK_MBR_STATE_STATE : Fld := ⟨R.LNK_MBR_STATE, 31, 28⟩
def F.LNK_MBR_STATE_LINKS : Fld := ⟨R.LNK_MBR_STATE, 27, 24⟩
def F.LNK_MBR_STATE_PORT : Fld := ⟨R.LNK_MBR_STATE, 23, 23⟩
def F.LNK_MBR_STATE_LOSSES : Fld := ⟨R.LNK_MBR_STATE, 15, 0⟩
def R.LNK_MBR_HB_AGE : Reg := ⟨0xE03004, 0x10, 16, 0, 1, 0x0, 0x0, 0x0, 0x0, 0x0, 0x0, 569⟩
def F.LNK_MBR_HB_AGE_US : Fld := ⟨R.LNK_MBR_HB_AGE, 31, 0⟩
def R.LNK_MBR_EPOCH : Reg := ⟨0xE03008, 0x10, 16, 0, 1, 0x0, 0x0, 0x0, 0x0, 0x0, 0x0, 570⟩
def F.LNK_MBR_EPOCH_EPOCH : Fld := ⟨R.LNK_MBR_EPOCH, 31, 0⟩
/-! Table 15-7. -/

def R.LNK_PORT_CTL : Reg := ⟨0xE01000, 0x100, 2, 0, 1, 0x40000000, 0x0, 0x0, 0x0, 0xC0000000, 0x0, 571⟩
def F.LNK_PORT_CTL_ENABLE : Fld := ⟨R.LNK_PORT_CTL, 31, 31⟩
def F.LNK_PORT_CTL_HALF_OK : Fld := ⟨R.LNK_PORT_CTL, 30, 30⟩
def R.LNK_PORT_STATUS : Reg := ⟨0xE01004, 0x100, 2, 0, 1, 0x0, 0x0, 0x0, 0x0, 0x0, 0x0, 572⟩
def F.LNK_PORT_STATUS_STATE : Fld := ⟨R.LNK_PORT_STATUS, 31, 28⟩
def F.LNK_PORT_STATUS_LANES_UP : Fld := ⟨R.LNK_PORT_STATUS, 23, 16⟩
def F.LNK_PORT_STATUS_PEER_ID : Fld := ⟨R.LNK_PORT_STATUS, 15, 12⟩
def F.LNK_PORT_STATUS_PEER_PORT : Fld := ⟨R.LNK_PORT_STATUS, 11, 11⟩
def F.LNK_PORT_STATUS_HALF : Fld := ⟨R.LNK_PORT_STATUS, 8, 8⟩
def R.LNK_PORT_LASER : Reg := ⟨0xE01008, 0x100, 2, 0, 1, 0x0, 0x0, 0x0, 0x0, 0x0, 0x0, 573⟩
def F.LNK_PORT_LASER_IN1 : Fld := ⟨R.LNK_PORT_LASER, 23, 16⟩
def F.LNK_PORT_LASER_IN0 : Fld := ⟨R.LNK_PORT_LASER, 15, 8⟩
def F.LNK_PORT_LASER_IN1_OK : Fld := ⟨R.LNK_PORT_LASER, 1, 1⟩
def F.LNK_PORT_LASER_IN0_OK : Fld := ⟨R.LNK_PORT_LASER, 0, 0⟩
def R.LNK_PORT_FEC_CORR_LO : Reg := ⟨0xE0100C, 0x100, 2, 0, 1, 0x0, 0x0, 0x0, 0x0, 0x0, 0x0, 574⟩
def F.LNK_PORT_FEC_CORR_LO_SYMBOLS : Fld := ⟨R.LNK_PORT_FEC_CORR_LO, 31, 0⟩
def R.LNK_PORT_FEC_CORR_HI : Reg := ⟨0xE01010, 0x100, 2, 0, 1, 0x0, 0x0, 0x0, 0x0, 0x0, 0x0, 575⟩
def F.LNK_PORT_FEC_CORR_HI_SYMBOLS : Fld := ⟨R.LNK_PORT_FEC_CORR_HI, 31, 0⟩
def R.LNK_PORT_FEC_UNCORR : Reg := ⟨0xE01014, 0x100, 2, 0, 1, 0x0, 0x0, 0x0, 0x0, 0x0, 0x0, 576⟩
def F.LNK_PORT_FEC_UNCORR_COUNT : Fld := ⟨R.LNK_PORT_FEC_UNCORR, 31, 0⟩
def R.LNK_PORT_CRC : Reg := ⟨0xE01018, 0x100, 2, 0, 1, 0x0, 0x0, 0x0, 0x0, 0x0, 0x0, 577⟩
def F.LNK_PORT_CRC_COUNT : Fld := ⟨R.LNK_PORT_CRC, 31, 0⟩
def R.LNK_PORT_REPLAY : Reg := ⟨0xE0101C, 0x100, 2, 0, 1, 0x0, 0x0, 0x0, 0x0, 0x0, 0x0, 578⟩
def F.LNK_PORT_REPLAY_COUNT : Fld := ⟨R.LNK_PORT_REPLAY, 31, 0⟩
def R.LNK_PORT_DOWNS : Reg := ⟨0xE01020, 0x100, 2, 0, 1, 0x0, 0x0, 0x0, 0x0, 0x0, 0x0, 579⟩
def F.LNK_PORT_DOWNS_DOWNS : Fld := ⟨R.LNK_PORT_DOWNS, 31, 16⟩
def F.LNK_PORT_DOWNS_RETRAINS : Fld := ⟨R.LNK_PORT_DOWNS, 15, 0⟩
def R.LNK_PORT_UTIL : Reg := ⟨0xE01024, 0x100, 2, 0, 1, 0x0, 0x0, 0x0, 0x0, 0x0, 0x0, 580⟩
def F.LNK_PORT_UTIL_RX : Fld := ⟨R.LNK_PORT_UTIL, 25, 16⟩
def F.LNK_PORT_UTIL_TX : Fld := ⟨R.LNK_PORT_UTIL, 9, 0⟩
def R.LNK_PORT_DELAY : Reg := ⟨0xE01028, 0x100, 2, 0, 1, 0x0, 0x0, 0x0, 0x0, 0x0, 0x0, 581⟩
def F.LNK_PORT_DELAY_NS : Fld := ⟨R.LNK_PORT_DELAY, 31, 0⟩
def R.LNK_PORT_UCW_LIMIT : Reg := ⟨0xE0102C, 0x100, 2, 0, 1, 0x10, 0x0, 0x0, 0x0, 0xFFFF, 0x0, 582⟩
def F.LNK_PORT_UCW_LIMIT_LIMIT : Fld := ⟨R.LNK_PORT_UCW_LIMIT, 15, 0⟩
def R.LNK_LANE : Reg := ⟨0xE01040, 0x100, 2, 4, 8, 0x800000, 0x0, 0x0, 0x0, 0x0, 0x0, 583⟩
def F.LNK_LANE_RX_DBM : Fld := ⟨R.LNK_LANE, 23, 16⟩
def F.LNK_LANE_CDR : Fld := ⟨R.LNK_LANE, 1, 1⟩
def F.LNK_LANE_SIGNAL : Fld := ⟨R.LNK_LANE, 0, 0⟩
/-! Table 16-10. -/

def R.SEC_STATUS : Reg := ⟨0xF00000, 0x0, 1, 0, 1, 0x0, 0x0, 0x0, 0x0, 0x0, 0x0, 584⟩
def F.SEC_STATUS_ID_OK : Fld := ⟨R.SEC_STATUS, 31, 31⟩
def F.SEC_STATUS_ID_FAIL : Fld := ⟨R.SEC_STATUS, 30, 30⟩
def F.SEC_STATUS_DEBUG_SEEN : Fld := ⟨R.SEC_STATUS, 29, 29⟩
def F.SEC_STATUS_CERT_VALID : Fld := ⟨R.SEC_STATUS, 28, 28⟩
def F.SEC_STATUS_LEGACY : Fld := ⟨R.SEC_STATUS, 27, 27⟩
def R.SEC_EVT : Reg := ⟨0xF00004, 0x0, 1, 0, 1, 0x0, 0x0, 0x3FF, 0x0, 0x0, 0x0, 585⟩
def F.SEC_EVT_DEBUG : Fld := ⟨R.SEC_EVT, 9, 9⟩
def F.SEC_EVT_ID_FAIL : Fld := ⟨R.SEC_EVT, 8, 8⟩
def F.SEC_EVT_ATTEST : Fld := ⟨R.SEC_EVT, 7, 7⟩
def F.SEC_EVT_CONFIRMED : Fld := ⟨R.SEC_EVT, 6, 6⟩
def F.SEC_EVT_ABANDONED : Fld := ⟨R.SEC_EVT, 5, 5⟩
def F.SEC_EVT_LIVE : Fld := ⟨R.SEC_EVT, 4, 4⟩
def F.SEC_EVT_HANDOVER : Fld := ⟨R.SEC_EVT, 3, 3⟩
def F.SEC_EVT_ACTIVATE : Fld := ⟨R.SEC_EVT, 2, 2⟩
def F.SEC_EVT_STAGE_REJECT : Fld := ⟨R.SEC_EVT, 1, 1⟩
def F.SEC_EVT_STAGE_DONE : Fld := ⟨R.SEC_EVT, 0, 0⟩
def R.SEC_ID_DIGEST : Reg := ⟨0xF00010, 0x4, 8, 0, 1, 0x0, 0x0, 0x0, 0x0, 0x0, 0x0, 586⟩
def F.SEC_ID_DIGEST_DIGEST : Fld := ⟨R.SEC_ID_DIGEST, 31, 0⟩
def R.SEC_CERT_LEN : Reg := ⟨0xF00030, 0x0, 1, 0, 1, 0x0, 0x0, 0x0, 0x0, 0x0, 0x0, 587⟩
def F.SEC_CERT_LEN_BYTES : Fld := ⟨R.SEC_CERT_LEN, 10, 0⟩
def R.SEC_ALIAS_LEN : Reg := ⟨0xF00034, 0x0, 1, 0, 1, 0x0, 0x0, 0x0, 0x0, 0x0, 0x0, 588⟩
def F.SEC_ALIAS_LEN_BYTES : Fld := ⟨R.SEC_ALIAS_LEN, 10, 0⟩
def R.SEC_STAGE : Reg := ⟨0xF00040, 0x0, 1, 0, 1, 0x0, 0x0, 0x0, 0x0, 0x0, 0x0, 589⟩
def F.SEC_STAGE_STATE : Fld := ⟨R.SEC_STAGE, 31, 28⟩
def F.SEC_STAGE_KIND : Fld := ⟨R.SEC_STAGE, 27, 27⟩
def F.SEC_STAGE_PATH : Fld := ⟨R.SEC_STAGE, 26, 26⟩
def F.SEC_STAGE_REASON : Fld := ⟨R.SEC_STAGE, 23, 16⟩
def R.SEC_STAGE_LEN : Reg := ⟨0xF00044, 0x0, 1, 0, 1, 0x0, 0x0, 0x0, 0x0, 0x0, 0x0, 590⟩
def F.SEC_STAGE_LEN_BYTES : Fld := ⟨R.SEC_STAGE_LEN, 31, 0⟩
def R.SEC_STAGE_DONE : Reg := ⟨0xF00048, 0x0, 1, 0, 1, 0x0, 0x0, 0x0, 0x0, 0x0, 0x0, 591⟩
def F.SEC_STAGE_DONE_BLOCKS : Fld := ⟨R.SEC_STAGE_DONE, 16, 0⟩
def R.SEC_STAGE_SEQ_LO : Reg := ⟨0xF0004C, 0x0, 1, 0, 1, 0x0, 0x0, 0x0, 0x0, 0x0, 0x0, 592⟩
def F.SEC_STAGE_SEQ_LO_SEQ : Fld := ⟨R.SEC_STAGE_SEQ_LO, 31, 0⟩
def R.SEC_STAGE_SEQ_HI : Reg := ⟨0xF00050, 0x0, 1, 0, 1, 0x0, 0x0, 0x0, 0x0, 0x0, 0x0, 593⟩
def F.SEC_STAGE_SEQ_HI_SEQ : Fld := ⟨R.SEC_STAGE_SEQ_HI, 31, 0⟩
def R.SEC_UPDATE : Reg := ⟨0xF00054, 0x0, 1, 0, 1, 0x0, 0x0, 0x0, 0x0, 0x0, 0x0, 594⟩
def F.SEC_UPDATE_STATE : Fld := ⟨R.SEC_UPDATE, 31, 28⟩
def F.SEC_UPDATE_CLASS : Fld := ⟨R.SEC_UPDATE, 23, 16⟩
def F.SEC_UPDATE_DONE : Fld := ⟨R.SEC_UPDATE, 15, 8⟩
def F.SEC_UPDATE_TOTAL : Fld := ⟨R.SEC_UPDATE, 7, 0⟩
def R.SEC_UPD_CFG : Reg := ⟨0xF00058, 0x0, 1, 0, 1, 0x100, 0x0, 0x0, 0x0, 0x7FF, 0x0, 595⟩
def F.SEC_UPD_CFG_UPDATE_MIB : Fld := ⟨R.SEC_UPD_CFG, 10, 0⟩
def R.SEC_UPD_TIME : Reg := ⟨0xF0005C, 0x0, 1, 0, 1, 0x0, 0x0, 0x0, 0x0, 0x0, 0x0, 596⟩
def F.SEC_UPD_TIME_MS : Fld := ⟨R.SEC_UPD_TIME, 31, 0⟩
def R.SEC_COUNTS : Reg := ⟨0xF00060, 0x0, 1, 0, 1, 0x0, 0x0, 0x0, 0x0, 0x0, 0x0, 597⟩
def F.SEC_COUNTS_ATTESTS : Fld := ⟨R.SEC_COUNTS, 31, 16⟩
def F.SEC_COUNTS_HANDOVERS : Fld := ⟨R.SEC_COUNTS, 15, 8⟩
def F.SEC_COUNTS_ABANDONED : Fld := ⟨R.SEC_COUNTS, 7, 0⟩
def R.SEC_CERT : Reg := ⟨0xF00400, 0x4, 256, 0, 1, 0x0, 0x0, 0x0, 0x0, 0x0, 0xFFFFFFFF, 598⟩
def F.SEC_CERT_DATA : Fld := ⟨R.SEC_CERT, 31, 0⟩
def R.SEC_ALIAS : Reg := ⟨0xF00800, 0x4, 256, 0, 1, 0x0, 0x0, 0x0, 0x0, 0x0, 0x0, 599⟩
def F.SEC_ALIAS_DATA : Fld := ⟨R.SEC_ALIAS, 31, 0⟩
/-! Table 17-12. -/

def R.PWR_STATUS : Reg := ⟨0x1000000, 0x0, 1, 0, 1, 0x0, 0x0, 0x0, 0x0, 0x0, 0x0, 600⟩
def F.PWR_STATUS_AVS : Fld := ⟨R.PWR_STATUS, 31, 30⟩
def F.PWR_STATUS_HOPPER_HOT : Fld := ⟨R.PWR_STATUS, 29, 29⟩
def F.PWR_STATUS_CRIT : Fld := ⟨R.PWR_STATUS, 28, 28⟩
def F.PWR_STATUS_WARN : Fld := ⟨R.PWR_STATUS, 27, 27⟩
def F.PWR_STATUS_PWRGD : Fld := ⟨R.PWR_STATUS, 26, 26⟩
def R.PWR_EVT : Reg := ⟨0x1000004, 0x0, 1, 0, 1, 0x0, 0x0, 0x7F, 0x0, 0x0, 0x0, 601⟩
def F.PWR_EVT_SMB_PEC : Fld := ⟨R.PWR_EVT, 6, 6⟩
def F.PWR_EVT_OE_TEMP : Fld := ⟨R.PWR_EVT, 5, 5⟩
def F.PWR_EVT_HOPPER_HOT : Fld := ⟨R.PWR_EVT, 4, 4⟩
def F.PWR_EVT_CRIT : Fld := ⟨R.PWR_EVT, 3, 3⟩
def F.PWR_EVT_WARN : Fld := ⟨R.PWR_EVT, 2, 2⟩
def F.PWR_EVT_PMBUS_ERR : Fld := ⟨R.PWR_EVT, 1, 1⟩
def F.PWR_EVT_AVS_FROZEN : Fld := ⟨R.PWR_EVT, 0, 0⟩
def R.PWR_RESET_CAUSE : Reg := ⟨0x1000008, 0x0, 1, 0, 1, 0x0, 0x0, 0x0, 0x0, 0x0, 0x0, 602⟩
def F.PWR_RESET_CAUSE_STARTS : Fld := ⟨R.PWR_RESET_CAUSE, 31, 16⟩
def F.PWR_RESET_CAUSE_CAUSE : Fld := ⟨R.PWR_RESET_CAUSE, 1, 0⟩
def R.PWR_AVS_SET : Reg := ⟨0x1000010, 0x0, 1, 0, 1, 0x2EE, 0x0, 0x0, 0x0, 0x0, 0x0, 603⟩
def F.PWR_AVS_SET_READ_MV : Fld := ⟨R.PWR_AVS_SET, 31, 16⟩
def F.PWR_AVS_SET_SET_MV : Fld := ⟨R.PWR_AVS_SET, 15, 0⟩
def R.PWR_AVS_FUSE : Reg := ⟨0x1000014, 0x0, 1, 0, 1, 0x0, 0x0, 0x0, 0x0, 0x0, 0xFFFF, 604⟩
def F.PWR_AVS_FUSE_MV : Fld := ⟨R.PWR_AVS_FUSE, 15, 0⟩
def R.PWR_AVS_CFG : Reg := ⟨0x1000018, 0x0, 1, 0, 1, 0x40, 0x0, 0x0, 0x0, 0xFF7F, 0x0, 605⟩
def F.PWR_AVS_CFG_PAGE : Fld := ⟨R.PWR_AVS_CFG, 15, 8⟩
def F.PWR_AVS_CFG_ADDR : Fld := ⟨R.PWR_AVS_CFG, 6, 0⟩
def R.PWR_CORE_TELEM : Reg := ⟨0x100001C, 0x0, 1, 0, 1, 0x0, 0x0, 0x0, 0x0, 0x0, 0x0, 606⟩
def F.PWR_CORE_TELEM_IOUT : Fld := ⟨R.PWR_CORE_TELEM, 31, 16⟩
def F.PWR_CORE_TELEM_REG_TEMP : Fld := ⟨R.PWR_CORE_TELEM, 15, 0⟩
def R.PWR_PKG : Reg := ⟨0x1000020, 0x0, 1, 0, 1, 0x0, 0x0, 0x0, 0x0, 0x0, 0x0, 607⟩
def F.PWR_PKG_MW : Fld := ⟨R.PWR_PKG, 16, 0⟩
def R.PWR_PKG_PEAK : Reg := ⟨0x1000024, 0x0, 1, 0, 1, 0x0, 0x0, 0x0, 0x0, 0x0, 0x0, 608⟩
def F.PWR_PKG_PEAK_MW : Fld := ⟨R.PWR_PKG_PEAK, 16, 0⟩
def R.PWR_THERM_CFG : Reg := ⟨0x1000030, 0x0, 1, 0, 1, 0x5A05, 0x0, 0x0, 0x0, 0xFFFF, 0x0, 609⟩
def F.PWR_THERM_CFG_HOPPER_HOT : Fld := ⟨R.PWR_THERM_CFG, 15, 8⟩
def F.PWR_THERM_CFG_WARN_OFFSET : Fld := ⟨R.PWR_THERM_CFG, 7, 0⟩
def R.PWR_SMB : Reg := ⟨0x1000034, 0x0, 1, 0, 1, 0x40, 0x0, 0x0, 0x0, 0x0, 0x0, 610⟩
def F.PWR_SMB_ADDR : Fld := ⟨R.PWR_SMB, 6, 0⟩
def R.PWR_PMBUS_ERR : Reg := ⟨0x1000038, 0x0, 1, 0, 1, 0x0, 0x0, 0x0, 0x0, 0x0, 0x0, 611⟩
def F.PWR_PMBUS_ERR_COUNT : Fld := ⟨R.PWR_PMBUS_ERR, 31, 0⟩
def R.PWR_LIMITS : Reg := ⟨0x100003C, 0x0, 1, 0, 1, 0x5A645F64, 0x0, 0x0, 0x0, 0x0, 0x0, 612⟩
def F.PWR_LIMITS_OE : Fld := ⟨R.PWR_LIMITS, 31, 24⟩
def F.PWR_LIMITS_IO : Fld := ⟨R.PWR_LIMITS, 23, 16⟩
def F.PWR_LIMITS_HOPPER : Fld := ⟨R.PWR_LIMITS, 15, 8⟩
def F.PWR_LIMITS_COMPUTE : Fld := ⟨R.PWR_LIMITS, 7, 0⟩
def R.PWR_TEMP : Reg := ⟨0x1000100, 0x4, 24, 0, 1, 0x0, 0x0, 0x0, 0x0, 0x0, 0x0, 613⟩
def F.PWR_TEMP_MAX : Fld := ⟨R.PWR_TEMP, 31, 16⟩
def F.PWR_TEMP_NOW : Fld := ⟨R.PWR_TEMP, 15, 0⟩

/-! The registers of each BAR0 window, in chunks. -/

def regsGLB0 : List Reg :=
  [R.GLB_PART, R.GLB_SERIAL_LO, R.GLB_SERIAL_HI, R.GLB_NOC_BUSY]
def regsGLB : List Reg := regsGLB0
def regsBOOT0 : List Reg :=
  [R.BOOT_STATUS, R.BOOT_MISSING, R.BOOT_IMAGE_SEQ_LO, R.BOOT_IMAGE_SEQ_HI, R.BOOT_IMAGE_VER, R.BOOT_TIME, R.BOOT_FIT, R.BOOT_SPILL, R.BOOT_SLOTS, R.BOOT_FLASH, R.BOOT_MIG_COUNT, R.BOOT_OTP_SVC, R.BOOT_OTP_KEYS, R.BOOT_OTP_DEBUG, R.BOOT_OTP_CASCADE, R.BOOT_OTP_RETIRE, R.BOOT_SESSION_AUTO, R.BOOT_SESSION_HOST, R.BOOT_PTP_WAIT, R.BOOT_EVT]
def regsBOOT : List Reg := regsBOOT0
def regsTIME0 : List Reg :=
  [R.TIME_STATUS, R.TIME_NOW_SEC_LO, R.TIME_NOW_SEC_HI, R.TIME_NOW_NS, R.TIME_NOW_FRAC, R.TIME_RATE, R.TIME_SLEW_REMAIN, R.TIME_HOLD_ERR, R.TIME_UTC, R.TIME_PPS_OFFSET, R.TIME_SWITCH_COUNT, R.TIME_D_CFG, R.TIME_D_QUAL, R.TIME_D_STATUS, R.TIME_D_GMID_LO, R.TIME_D_GMID_HI, R.TIME_D_OFFSET_LO, R.TIME_D_OFFSET_HI, R.TIME_D_MPD, R.TIME_D_LOSS_COUNT, R.TIME_SWITCH_CFG, R.TIME_HOLD_CFG, R.TIME_EVT, R.TIME_TRIG_CTL, R.TIME_TRIG_NUM]
def regsTIME1 : List Reg :=
  [R.TIME_TRIG_DEN, R.TIME_TRIG_PHASE, R.TIME_TRIG_WIDTH, R.TIME_TRIG_DELAY, R.TIME_TRIG_EXPOSE, R.TIME_TRIG_COUNT, R.TIME_CAP_CTL, R.TIME_CAP_SEC_LO, R.TIME_CAP_SEC_HI, R.TIME_CAP_NS, R.TIME_CAP_INFO, R.TIME_SNS_OFFSET, R.TIME_SNS_SPAN, R.TIME_SNS_STATE, R.TIME_SNS_RATE, R.TIME_SNS_NOMINAL, R.TIME_SNS_LATENCY]
def regsTIME : List Reg := regsTIME0 ++ regsTIME1
def regsING0 : List Reg :=
  [R.ING_ACTIVE, R.ING_EVT, R.ING_PORT_CTL, R.ING_PORT_STATUS, R.ING_PORT_ECC, R.ING_PORT_CRC, R.ING_PORT_OTHER, R.ING_ST_CTL, R.ING_ST_GROUP, R.ING_ST_SOURCE, R.ING_ST_UDP, R.ING_ST_PACKETS, R.ING_ST_SEQ_GAPS, R.ING_ST_REJECT, R.ING_SNS_SRC, R.ING_SNS_GEOM, R.ING_SNS_FMT, R.ING_SNS_BLACK, R.ING_SNS_PERIOD, R.ING_SNS_TIMEOUT, R.ING_SNS_RING_LO, R.ING_SNS_RING_HI, R.ING_SNS_RING_CFG, R.ING_SNS_TALLY, R.ING_SNS_DESC_LO]
def regsING1 : List Reg :=
  [R.ING_SNS_DESC_HI, R.ING_SNS_LAST, R.ING_SNS_FRAME_ID, R.ING_SNS_BAD, R.ING_SNS_DISCARD]
def regsING : List Reg := regsING0 ++ regsING1
def regsSPG0 : List Reg :=
  [R.SPG_VALID, R.SPG_EVT, R.SPG_CH_CTL, R.SPG_CH_SRC, R.SPG_CH_ID, R.SPG_CH_MIN, R.SPG_CH_MAX, R.SPG_CH_SPIKE, R.SPG_CH_SCALE, R.SPG_CH_OFFSET, R.SPG_CH_PERIOD, R.SPG_CH_TIMEOUT, R.SPG_CH_RING_LO, R.SPG_CH_RING_HI, R.SPG_CH_RING_CFG, R.SPG_CH_SWITCH, R.SPG_CH_DELAY, R.SPG_CH_COUNT, R.SPG_FIR_LEN, R.SPG_FIR_COEF, R.SPG_SPI_CTL, R.SPG_SPI_CMD, R.SPG_SPI_WAIT, R.SPG_SPI_LATENCY, R.SPG_SPI_ID]
def regsSPG1 : List Reg :=
  [R.SPG_SPI_STAT, R.SPG_SSI_CTL, R.SPG_SSI_TM, R.SPG_SSI_LATENCY, R.SPG_SSI_STAT, R.SPG_QUAD_CTL, R.SPG_QUAD_PERIOD, R.SPG_QUAD_STAT, R.SPG_QUAD_COUNT, R.SPG_CAN_CTL, R.SPG_CAN_RATE, R.SPG_CAN_LATENCY, R.SPG_CAN_TX_ID, R.SPG_CAN_TX_DATA_LO, R.SPG_CAN_TX_DATA_HI, R.SPG_CAN_TX_DLC, R.SPG_CAN_STAT, R.SPG_CAN_RX, R.SPG_CAN_ERR]
def regsSPG : List Reg := regsSPG0 ++ regsSPG1
def regsMILL0 : List Reg :=
  [R.MILL_STATUS, R.MILL_EVT, R.MILL_SPARE, R.MILL_PATH_HOLD, R.MILL_SKIPS, R.MILL_PIXELS_LO, R.MILL_PIXELS_HI, R.MILL_BUSY, R.MILL_SNS_CTL, R.MILL_SNS_GEOM, R.MILL_SNS_MAP_LO, R.MILL_SNS_MAP_HI, R.MILL_SNS_OUT_LO, R.MILL_SNS_OUT_HI, R.MILL_SNS_TALLY, R.MILL_SNS_TRK_TALLY, R.MILL_SNS_TRK_LO, R.MILL_SNS_TRK_HI, R.MILL_SNS_CORNER, R.MILL_SNS_CORNER_MAX, R.MILL_SNS_KLT, R.MILL_SNS_KLT_THR, R.MILL_SNS_KLT_EPS, R.MILL_SNS_KLT_MAXTRK, R.MILL_SNS_LAST]
def regsMILL1 : List Reg :=
  [R.MILL_SNS_FRAME_ID, R.MILL_SNS_CORNERS, R.MILL_SNS_TRACKS, R.MILL_SNS_SKIPS, R.MILL_SGM_CTL, R.MILL_SGM_RANGE, R.MILL_SGM_PEN, R.MILL_SGM_UNIQ, R.MILL_SGM_TEX, R.MILL_SGM_FB, R.MILL_SGM_PAIR, R.MILL_SGM_TALLY, R.MILL_SGM_OUT_LO, R.MILL_SGM_OUT_HI, R.MILL_SGM_FWD_LO, R.MILL_SGM_FWD_HI, R.MILL_SGM_LAST, R.MILL_SGM_VALID, R.MILL_SGM_CODES, R.MILL_SGM_SKIPS, R.MILL_FLOW_CTL, R.MILL_FLOW_THR, R.MILL_FLOW_TALLY, R.MILL_FLOW_OUT_LO, R.MILL_FLOW_OUT_HI]
def regsMILL2 : List Reg :=
  [R.MILL_FLOW_SCR_LO, R.MILL_FLOW_SCR_HI, R.MILL_FLOW_LAST, R.MILL_FLOW_INVALID, R.MILL_FLOW_SKIPS]
def regsMILL : List Reg := regsMILL0 ++ regsMILL1 ++ regsMILL2
def regsTNS0 : List Reg :=
  [R.TNS_STATUS, R.TNS_EVT, R.TNS_CLUSTER_MAP, R.TNS_CLUSTER_PHYS, R.TNS_FIT, R.TNS_FIT_LIMIT, R.TNS_SPILL_BW, R.TNS_HOPPER_WEIGHTS, R.TNS_LATE_WEIGHTS, R.TNS_LATE_OTHER, R.TNS_REDUCED_FRAMES, R.TNS_SAT_COUNT, R.TNS_NAN_COUNT, R.TNS_STALL_US, R.TNS_OPS_LO, R.TNS_OPS_HI, R.TNS_BUSY, R.TNS_NET_CTL, R.TNS_NET_MOP, R.TNS_NET_FB_MOP, R.TNS_NET_EFF, R.TNS_NET_RES_CORE, R.TNS_NET_RES_CLUSTER, R.TNS_NET_RES_HOPPER, R.TNS_NET_RES_DDR]
def regsTNS1 : List Reg :=
  [R.TNS_NET_FB_PIN, R.TNS_INS_CTL, R.TNS_INS_DEADLINE, R.TNS_INS_TALLY, R.TNS_INS_OUT_LO, R.TNS_INS_OUT_HI, R.TNS_INS_INPUT, R.TNS_INS_KP, R.TNS_INS_LAST, R.TNS_INS_FRAME_ID, R.TNS_INS_LAT, R.TNS_INS_FALLBACKS, R.TNS_INS_KP_COUNT]
def regsTNS : List Reg := regsTNS0 ++ regsTNS1
def regsMEM0 : List Reg :=
  [R.MEM_STATUS, R.MEM_EVT, R.MEM_DDR_CFG, R.MEM_DDR_TRAIN, R.MEM_DDR_SIZE_LO, R.MEM_DDR_SIZE_HI, R.MEM_SCRUB, R.MEM_CE_LIMIT, R.MEM_MIG_CFG, R.MEM_WB_AGE, R.MEM_MIG_COUNT, R.MEM_MIG_SKIPPED, R.MEM_MIG_BYTES_LO, R.MEM_MIG_BYTES_HI, R.MEM_PT_PAGES, R.MEM_ERR_ADDR_LO, R.MEM_ERR_ADDR_HI, R.MEM_ERR_INFO, R.MEM_REFILL_DDR, R.MEM_REFILL_CELLAR, R.MEM_REFILL_FLASH, R.MEM_PAGES_LOST, R.MEM_SRAM_CE, R.MEM_SRAM_UE, R.MEM_NOC_CRC]
def regsMEM1 : List Reg :=
  [R.MEM_ADDR_FAULTS, R.MEM_HOP_CE, R.MEM_HOP_UE, R.MEM_HOP_LINK, R.MEM_HOP_FRAMES, R.MEM_HOP_BUSY, R.MEM_CH_STATE, R.MEM_CH_CE, R.MEM_CH_UE, R.MEM_CH_WCRC, R.MEM_CH_BUSY, R.MEM_CH_FRAMES, R.MEM_CELLAR_CFG, R.MEM_CELLAR_STATUS, R.MEM_CELLAR_CAP_LO, R.MEM_CELLAR_CAP_HI, R.MEM_CELLAR_USED_LO, R.MEM_CELLAR_USED_HI, R.MEM_CELLAR_CRC, R.MEM_CELLAR_TIMEOUTS, R.MEM_CELLAR_RATE, R.MEM_CELLAR_HEALTH, R.MEM_RGN_BASE, R.MEM_RGN_PAGES, R.MEM_RGN_CTL]
def regsMEM2 : List Reg :=
  [R.MEM_RGN_HOPPER]
def regsMEM : List Reg := regsMEM0 ++ regsMEM1 ++ regsMEM2
def regsFRM0 : List Reg :=
  [R.FRM_STATUS, R.FRM_EVT, R.FRM_LM_CACHE, R.FRM_LM_CAP, R.FRM_LM_CACHE_LO, R.FRM_LM_CACHE_HI, R.FRM_LM_STORE_LO, R.FRM_LM_STORE_HI, R.FRM_LM_USED, R.FRM_LM_FULL, R.FRM_BUSY, R.FRM_TT_COUNT, R.FRM_TT_VERSION, R.FRM_LM_TAG_LO, R.FRM_LM_TAG_HI, R.FRM_LM_EVICTED, R.FRM_SES_CTL, R.FRM_SES_CAM0, R.FRM_SES_CAM1, R.FRM_SES_FRAME, R.FRM_SES_SRC, R.FRM_SES_WHEEL, R.FRM_SES_MAP, R.FRM_SES_TRACK, R.FRM_SES_ASSOC]
def regsFRM1 : List Reg :=
  [R.FRM_SES_KF, R.FRM_SES_KF2, R.FRM_SES_LOST, R.FRM_SES_LOST_SIGMA, R.FRM_SES_RELOC, R.FRM_SES_QUAL, R.FRM_SES_GATE, R.FRM_SES_INIT, R.FRM_SES_STATE, R.FRM_SES_SEQ_LO, R.FRM_SES_SEQ_HI, R.FRM_SES_COND, R.FRM_SES_SOURCES, R.FRM_SES_EXCLUDED, R.FRM_SES_TRACKS, R.FRM_SES_OBS, R.FRM_SES_LAT, R.FRM_SES_COUNTS, R.FRM_SES_RELOCS, R.FRM_SES_KEYFRAMES, R.FRM_SES_SCORE, R.FRM_SES_TD]
def regsFRM : List Reg := regsFRM0 ++ regsFRM1
def regsKTL0 : List Reg :=
  [R.KTL_STATUS, R.KTL_EVT, R.KTL_SPARE, R.KTL_SOLVES_LO, R.KTL_SOLVES_HI, R.KTL_PARTIAL, R.KTL_NOT_CONVERGED, R.KTL_LATE, R.KTL_CHECK_FAIL, R.KTL_FX_SAT, R.KTL_REANALYSE, R.KTL_BAND_DROP, R.KTL_INPUT_DROPPED, R.KTL_PREEMPT, R.KTL_COALESCED, R.KTL_BUSY, R.KTL_QUEUE, R.KTL_CHECK, R.KTL_REFINE, R.KTL_GRAVITY, R.KTL_PG_GAP, R.KTL_PROB_CTL, R.KTL_DEADLINE, R.KTL_PROB_TOL, R.KTL_PROB_KERNEL]
def regsKTL1 : List Reg :=
  [R.KTL_PROB_WINDOW, R.KTL_PROB_RANSAC, R.KTL_PROB_SEED, R.KTL_PROB_TALLY, R.KTL_PROB_STORE_LO, R.KTL_PROB_STORE_HI, R.KTL_PROB_OUT_LO, R.KTL_PROB_OUT_HI, R.KTL_PROB_MAP, R.KTL_PROB_REORDER, R.KTL_PROB_LAST, R.KTL_PROB_SEQ, R.KTL_PROB_VARS, R.KTL_PROB_FACTORS, R.KTL_PROB_F, R.KTL_PROB_NNZ, R.KTL_PROB_SUPERNODES, R.KTL_PROB_TIME, R.KTL_PROB_WAIT, R.KTL_PROB_COUNTS, R.KTL_PROB_DIGEST_LO, R.KTL_PROB_DIGEST_HI, R.KTL_BODY_CTL, R.KTL_BODY_TABLE_LO, R.KTL_BODY_TABLE_HI]
def regsKTL2 : List Reg :=
  [R.KTL_BODY_LAST]
def regsKTL : List Reg := regsKTL0 ++ regsKTL1 ++ regsKTL2
def regsKLN0 : List Reg :=
  [R.KLN_STATUS, R.KLN_EVT, R.KLN_SPARE, R.KLN_BLENDS_LO, R.KLN_BLENDS_HI, R.KLN_BUSY, R.KLN_SKIPS, R.KLN_NAN, R.KLN_LOAD_BW, R.KLN_RELOC, R.KLN_RELOC_TALLY, R.KLN_RELOC_RING_LO, R.KLN_RELOC_RING_HI, R.KLN_MAP_CTL, R.KLN_MAP_ID, R.KLN_MAP_ANCHOR, R.KLN_MAP_BASE_LO, R.KLN_MAP_BASE_HI, R.KLN_MAP_STATE_LO, R.KLN_MAP_STATE_HI, R.KLN_MAP_ACTIVE_LO, R.KLN_MAP_ACTIVE_HI, R.KLN_MAP_SIZE, R.KLN_MAP_CELL, R.KLN_MAP_LR_A]
def regsKLN1 : List Reg :=
  [R.KLN_MAP_LR_B, R.KLN_MAP_LR_C, R.KLN_MAP_DENSIFY, R.KLN_MAP_SCALE, R.KLN_MAP_SEED, R.KLN_MAP_TALLY, R.KLN_MAP_SESSIONS, R.KLN_MAP_OUT_LO, R.KLN_MAP_OUT_HI, R.KLN_MAP_PRIMS, R.KLN_MAP_EPOCH, R.KLN_MAP_RESIDENT, R.KLN_MAP_COUNTS, R.KLN_MAP_LOSS, R.KLN_VIEW_CTL, R.KLN_VIEW_CAMERA, R.KLN_VIEW_GEOM, R.KLN_VIEW_MATTE, R.KLN_VIEW_DEADLINE, R.KLN_VIEW_TALLY, R.KLN_VIEW_OUT_LO, R.KLN_VIEW_OUT_HI, R.KLN_VIEW_SCR_LO, R.KLN_VIEW_SCR_HI, R.KLN_VIEW_LIMIT]
def regsKLN2 : List Reg :=
  [R.KLN_VIEW_LAST, R.KLN_VIEW_LAT, R.KLN_VIEW_COUNT]
def regsKLN : List Reg := regsKLN0 ++ regsKLN1 ++ regsKLN2
def regsCSK0 : List Reg :=
  [R.CSK_STATUS, R.CSK_EVT, R.CSK_SPARE, R.CSK_QUERIES_LO, R.CSK_QUERIES_HI, R.CSK_INSERTS, R.CSK_DANGLING, R.CSK_REVISED, R.CSK_SHORT, R.CSK_LATE, R.CSK_LATE_SHARD, R.CSK_BUSY, R.CSK_CONTEXTS, R.CSK_DDR_BW, R.CSK_COMPACT, R.CSK_LOOP, R.CSK_IDX_CTL, R.CSK_IDX_MAP, R.CSK_IDX_NODE_LO, R.CSK_IDX_NODE_HI, R.CSK_IDX_ENTRY_LO, R.CSK_IDX_ENTRY_HI, R.CSK_IDX_LOC_LO, R.CSK_IDX_LOC_HI, R.CSK_IDX_CAP]
def regsCSK1 : List Reg :=
  [R.CSK_IDX_SEARCH, R.CSK_IDX_INSERT, R.CSK_IDX_DEADLINE, R.CSK_IDX_TIMEOUT, R.CSK_IDX_LIVE_LO, R.CSK_IDX_LIVE_HI, R.CSK_IDX_NODES, R.CSK_IDX_TOMB_LO, R.CSK_IDX_TOMB_HI, R.CSK_IDX_SHARD, R.CSK_IDX_REFUSED, R.CSK_Q_CTL, R.CSK_Q_TALLY, R.CSK_Q_IN_LO, R.CSK_Q_IN_HI, R.CSK_Q_OUT_LO, R.CSK_Q_OUT_HI, R.CSK_Q_COUNT, R.CSK_Q_FULL]
def regsCSK : List Reg := regsCSK0 ++ regsCSK1
def regsDSP0 : List Reg :=
  [R.DSP_STATUS, R.DSP_EVT, R.DSP_CAPACITY, R.DSP_PENDING, R.DSP_STALE_EPOCH, R.DSP_TASK_FAILED, R.DSP_MIGRATIONS, R.DSP_TASK_LIMIT, R.DSP_WAIT_LIMIT, R.DSP_STUCK, R.DSP_ST_CFG, R.DSP_ST_STATUS, R.DSP_ST_LAST, R.DSP_COOPER_LOAD, R.DSP_COOPER_SHED, R.DSP_COOPER_CFG, R.DSP_EVT_SHED, R.DSP_EVT_HEAD_LO, R.DSP_EVT_HEAD_HI, R.DSP_HOST_ADV, R.DSP_HOST_WAIT_HIT_LO, R.DSP_HOST_WAIT_HIT_HI, R.DSP_CLS_UNITS, R.DSP_CLS_SPARES, R.DSP_CLS_PERIOD]
def regsDSP1 : List Reg :=
  [R.DSP_HOST_WAIT_CTL, R.DSP_HOST_WAIT_TH_LO, R.DSP_HOST_WAIT_TH_HI, R.DSP_RETIRE]
def regsDSP : List Reg := regsDSP0 ++ regsDSP1
def regsHST0 : List Reg :=
  [R.HST_STATUS, R.HST_EVT, R.HST_MBX_DOORBELL, R.HST_MBX_STATUS, R.HST_MBX_CFG, R.HST_IRQ_CFG, R.HST_MAP_CFG, R.HST_BAR4_DENIED, R.HST_BAR4_SLOW, R.HST_POISONED, R.HST_SLOT_BUSY, R.HST_MAP_REQS, R.HST_MAP_NAKS, R.HST_MAP_IGNORED, R.HST_MAP_TILES, R.HST_MBX_REQ, R.HST_MBX_RSP, R.HST_RING_CTL, R.HST_RING_OFF, R.HST_RING_IRQ, R.HST_RING_REL, R.HST_RING_WR_LO, R.HST_RING_WR_HI, R.HST_RING_RD_LO, R.HST_RING_RD_HI]
def regsHST1 : List Reg :=
  [R.HST_RING_OVERRUN, R.HST_RING_BACK_LO, R.HST_RING_BACK_HI, R.HST_WIN, R.HST_FN, R.HST_AP_BASE_LO, R.HST_AP_BASE_HI, R.HST_AP_PAGES, R.HST_STR_CTL, R.HST_STR_DST, R.HST_STR_UDP, R.HST_STR_VID, R.HST_STR_PACKETS, R.HST_PORT_IP, R.HST_PORT_NET, R.HST_PORT_GW, R.HST_PORT_MAP, R.HST_PORT_MAC_LO, R.HST_PORT_MAC_HI, R.HST_PORT_ARP, R.HST_ACL_ADDR, R.HST_ACL_CTL]
def regsHST : List Reg := regsHST0 ++ regsHST1
def regsLNK0 : List Reg :=
  [R.LNK_STATUS, R.LNK_EVT, R.LNK_RING_EPOCH, R.LNK_MEMBERS, R.LNK_CFG, R.LNK_TIMING, R.LNK_BW, R.LNK_DIGEST_LO, R.LNK_DIGEST_HI, R.LNK_TIME_OFFSET, R.LNK_TALLY_SENT, R.LNK_E2E_RESENT, R.LNK_SHARED_RGN, R.LNK_MBR_STATE, R.LNK_MBR_HB_AGE, R.LNK_MBR_EPOCH, R.LNK_PORT_CTL, R.LNK_PORT_STATUS, R.LNK_PORT_LASER, R.LNK_PORT_FEC_CORR_LO, R.LNK_PORT_FEC_CORR_HI, R.LNK_PORT_FEC_UNCORR, R.LNK_PORT_CRC, R.LNK_PORT_REPLAY, R.LNK_PORT_DOWNS]
def regsLNK1 : List Reg :=
  [R.LNK_PORT_UTIL, R.LNK_PORT_DELAY, R.LNK_PORT_UCW_LIMIT, R.LNK_LANE]
def regsLNK : List Reg := regsLNK0 ++ regsLNK1
def regsSEC0 : List Reg :=
  [R.SEC_STATUS, R.SEC_EVT, R.SEC_ID_DIGEST, R.SEC_CERT_LEN, R.SEC_ALIAS_LEN, R.SEC_STAGE, R.SEC_STAGE_LEN, R.SEC_STAGE_DONE, R.SEC_STAGE_SEQ_LO, R.SEC_STAGE_SEQ_HI, R.SEC_UPDATE, R.SEC_UPD_CFG, R.SEC_UPD_TIME, R.SEC_COUNTS, R.SEC_CERT, R.SEC_ALIAS]
def regsSEC : List Reg := regsSEC0
def regsPWR0 : List Reg :=
  [R.PWR_STATUS, R.PWR_EVT, R.PWR_RESET_CAUSE, R.PWR_AVS_SET, R.PWR_AVS_FUSE, R.PWR_AVS_CFG, R.PWR_CORE_TELEM, R.PWR_PKG, R.PWR_PKG_PEAK, R.PWR_THERM_CFG, R.PWR_SMB, R.PWR_PMBUS_ERR, R.PWR_LIMITS, R.PWR_TEMP]
def regsPWR : List Reg := regsPWR0
/-- The _LO halves of the 64-bit pairs (R9); the _HI half stands 4 above. -/
def pairLos : List Reg :=
  [R.BOOT_IMAGE_SEQ_LO, R.TIME_D_GMID_LO, R.TIME_D_OFFSET_LO, R.TIME_CAP_SEC_LO, R.ING_SNS_RING_LO, R.ING_SNS_DESC_LO, R.SPG_CH_RING_LO, R.SPG_CAN_TX_DATA_LO, R.MILL_PIXELS_LO, R.MILL_SNS_MAP_LO, R.MILL_SNS_OUT_LO, R.MILL_SNS_TRK_LO, R.MILL_SGM_OUT_LO, R.MILL_SGM_FWD_LO, R.MILL_FLOW_OUT_LO, R.MILL_FLOW_SCR_LO, R.TNS_OPS_LO, R.TNS_INS_OUT_LO, R.MEM_DDR_SIZE_LO, R.MEM_MIG_BYTES_LO, R.MEM_ERR_ADDR_LO, R.MEM_CELLAR_CAP_LO, R.MEM_CELLAR_USED_LO, R.FRM_LM_CACHE_LO, R.FRM_LM_STORE_LO] ++
  [R.FRM_LM_TAG_LO, R.FRM_SES_SEQ_LO, R.KTL_SOLVES_LO, R.KTL_PROB_STORE_LO, R.KTL_PROB_OUT_LO, R.KTL_PROB_DIGEST_LO, R.KTL_BODY_TABLE_LO, R.KLN_BLENDS_LO, R.KLN_RELOC_RING_LO, R.KLN_MAP_BASE_LO, R.KLN_MAP_STATE_LO, R.KLN_MAP_ACTIVE_LO, R.KLN_MAP_OUT_LO, R.KLN_VIEW_OUT_LO, R.KLN_VIEW_SCR_LO, R.CSK_QUERIES_LO, R.CSK_IDX_NODE_LO, R.CSK_IDX_ENTRY_LO, R.CSK_IDX_LOC_LO, R.CSK_IDX_LIVE_LO, R.CSK_IDX_TOMB_LO, R.CSK_Q_IN_LO, R.CSK_Q_OUT_LO, R.DSP_EVT_HEAD_LO, R.DSP_HOST_WAIT_HIT_LO] ++
  [R.DSP_HOST_WAIT_TH_LO, R.HST_RING_WR_LO, R.HST_RING_RD_LO, R.HST_RING_BACK_LO, R.HST_AP_BASE_LO, R.HST_PORT_MAC_LO, R.GLB_SERIAL_LO, R.LNK_DIGEST_LO, R.LNK_PORT_FEC_CORR_LO, R.SEC_STAGE_SEQ_LO]

/-- The registers of a BAR0 window by its index (Table 14-3). -/
def windowRegs : Nat → List Reg
  | 0 => regsGLB
  | 1 => regsBOOT
  | 2 => regsTIME
  | 3 => regsING
  | 4 => regsSPG
  | 5 => regsMILL
  | 6 => regsTNS
  | 7 => regsMEM
  | 8 => regsFRM
  | 9 => regsKTL
  | 10 => regsKLN
  | 11 => regsCSK
  | 12 => regsDSP
  | 13 => regsHST
  | 14 => regsLNK
  | 15 => regsSEC
  | 16 => regsPWR
  | _ => []

/-! Every register, window by window, 32 to a chunk. -/

def regChunk0 : List Reg :=
  [R.GLB_PART, R.GLB_SERIAL_LO, R.GLB_SERIAL_HI, R.GLB_NOC_BUSY, R.BOOT_STATUS, R.BOOT_MISSING, R.BOOT_IMAGE_SEQ_LO, R.BOOT_IMAGE_SEQ_HI, R.BOOT_IMAGE_VER, R.BOOT_TIME, R.BOOT_FIT, R.BOOT_SPILL, R.BOOT_SLOTS, R.BOOT_FLASH, R.BOOT_MIG_COUNT, R.BOOT_OTP_SVC, R.BOOT_OTP_KEYS, R.BOOT_OTP_DEBUG, R.BOOT_OTP_CASCADE, R.BOOT_OTP_RETIRE, R.BOOT_SESSION_AUTO, R.BOOT_SESSION_HOST, R.BOOT_PTP_WAIT, R.BOOT_EVT, R.TIME_STATUS, R.TIME_NOW_SEC_LO, R.TIME_NOW_SEC_HI, R.TIME_NOW_NS, R.TIME_NOW_FRAC, R.TIME_RATE, R.TIME_SLEW_REMAIN, R.TIME_HOLD_ERR]
def regChunk1 : List Reg :=
  [R.TIME_UTC, R.TIME_PPS_OFFSET, R.TIME_SWITCH_COUNT, R.TIME_D_CFG, R.TIME_D_QUAL, R.TIME_D_STATUS, R.TIME_D_GMID_LO, R.TIME_D_GMID_HI, R.TIME_D_OFFSET_LO, R.TIME_D_OFFSET_HI, R.TIME_D_MPD, R.TIME_D_LOSS_COUNT, R.TIME_SWITCH_CFG, R.TIME_HOLD_CFG, R.TIME_EVT, R.TIME_TRIG_CTL, R.TIME_TRIG_NUM, R.TIME_TRIG_DEN, R.TIME_TRIG_PHASE, R.TIME_TRIG_WIDTH, R.TIME_TRIG_DELAY, R.TIME_TRIG_EXPOSE, R.TIME_TRIG_COUNT, R.TIME_CAP_CTL, R.TIME_CAP_SEC_LO, R.TIME_CAP_SEC_HI, R.TIME_CAP_NS, R.TIME_CAP_INFO, R.TIME_SNS_OFFSET, R.TIME_SNS_SPAN, R.TIME_SNS_STATE, R.TIME_SNS_RATE]
def regChunk2 : List Reg :=
  [R.TIME_SNS_NOMINAL, R.TIME_SNS_LATENCY, R.ING_ACTIVE, R.ING_EVT, R.ING_PORT_CTL, R.ING_PORT_STATUS, R.ING_PORT_ECC, R.ING_PORT_CRC, R.ING_PORT_OTHER, R.ING_ST_CTL, R.ING_ST_GROUP, R.ING_ST_SOURCE, R.ING_ST_UDP, R.ING_ST_PACKETS, R.ING_ST_SEQ_GAPS, R.ING_ST_REJECT, R.ING_SNS_SRC, R.ING_SNS_GEOM, R.ING_SNS_FMT, R.ING_SNS_BLACK, R.ING_SNS_PERIOD, R.ING_SNS_TIMEOUT, R.ING_SNS_RING_LO, R.ING_SNS_RING_HI, R.ING_SNS_RING_CFG, R.ING_SNS_TALLY, R.ING_SNS_DESC_LO, R.ING_SNS_DESC_HI, R.ING_SNS_LAST, R.ING_SNS_FRAME_ID, R.ING_SNS_BAD, R.ING_SNS_DISCARD]
def regChunk3 : List Reg :=
  [R.SPG_VALID, R.SPG_EVT, R.SPG_CH_CTL, R.SPG_CH_SRC, R.SPG_CH_ID, R.SPG_CH_MIN, R.SPG_CH_MAX, R.SPG_CH_SPIKE, R.SPG_CH_SCALE, R.SPG_CH_OFFSET, R.SPG_CH_PERIOD, R.SPG_CH_TIMEOUT, R.SPG_CH_RING_LO, R.SPG_CH_RING_HI, R.SPG_CH_RING_CFG, R.SPG_CH_SWITCH, R.SPG_CH_DELAY, R.SPG_CH_COUNT, R.SPG_FIR_LEN, R.SPG_FIR_COEF, R.SPG_SPI_CTL, R.SPG_SPI_CMD, R.SPG_SPI_WAIT, R.SPG_SPI_LATENCY, R.SPG_SPI_ID, R.SPG_SPI_STAT, R.SPG_SSI_CTL, R.SPG_SSI_TM, R.SPG_SSI_LATENCY, R.SPG_SSI_STAT, R.SPG_QUAD_CTL, R.SPG_QUAD_PERIOD]
def regChunk4 : List Reg :=
  [R.SPG_QUAD_STAT, R.SPG_QUAD_COUNT, R.SPG_CAN_CTL, R.SPG_CAN_RATE, R.SPG_CAN_LATENCY, R.SPG_CAN_TX_ID, R.SPG_CAN_TX_DATA_LO, R.SPG_CAN_TX_DATA_HI, R.SPG_CAN_TX_DLC, R.SPG_CAN_STAT, R.SPG_CAN_RX, R.SPG_CAN_ERR, R.MILL_STATUS, R.MILL_EVT, R.MILL_SPARE, R.MILL_PATH_HOLD, R.MILL_SKIPS, R.MILL_PIXELS_LO, R.MILL_PIXELS_HI, R.MILL_BUSY, R.MILL_SNS_CTL, R.MILL_SNS_GEOM, R.MILL_SNS_MAP_LO, R.MILL_SNS_MAP_HI, R.MILL_SNS_OUT_LO, R.MILL_SNS_OUT_HI, R.MILL_SNS_TALLY, R.MILL_SNS_TRK_TALLY, R.MILL_SNS_TRK_LO, R.MILL_SNS_TRK_HI, R.MILL_SNS_CORNER, R.MILL_SNS_CORNER_MAX]
def regChunk5 : List Reg :=
  [R.MILL_SNS_KLT, R.MILL_SNS_KLT_THR, R.MILL_SNS_KLT_EPS, R.MILL_SNS_KLT_MAXTRK, R.MILL_SNS_LAST, R.MILL_SNS_FRAME_ID, R.MILL_SNS_CORNERS, R.MILL_SNS_TRACKS, R.MILL_SNS_SKIPS, R.MILL_SGM_CTL, R.MILL_SGM_RANGE, R.MILL_SGM_PEN, R.MILL_SGM_UNIQ, R.MILL_SGM_TEX, R.MILL_SGM_FB, R.MILL_SGM_PAIR, R.MILL_SGM_TALLY, R.MILL_SGM_OUT_LO, R.MILL_SGM_OUT_HI, R.MILL_SGM_FWD_LO, R.MILL_SGM_FWD_HI, R.MILL_SGM_LAST, R.MILL_SGM_VALID, R.MILL_SGM_CODES, R.MILL_SGM_SKIPS, R.MILL_FLOW_CTL, R.MILL_FLOW_THR, R.MILL_FLOW_TALLY, R.MILL_FLOW_OUT_LO, R.MILL_FLOW_OUT_HI, R.MILL_FLOW_SCR_LO, R.MILL_FLOW_SCR_HI]
def regChunk6 : List Reg :=
  [R.MILL_FLOW_LAST, R.MILL_FLOW_INVALID, R.MILL_FLOW_SKIPS, R.TNS_STATUS, R.TNS_EVT, R.TNS_CLUSTER_MAP, R.TNS_CLUSTER_PHYS, R.TNS_FIT, R.TNS_FIT_LIMIT, R.TNS_SPILL_BW, R.TNS_HOPPER_WEIGHTS, R.TNS_LATE_WEIGHTS, R.TNS_LATE_OTHER, R.TNS_REDUCED_FRAMES, R.TNS_SAT_COUNT, R.TNS_NAN_COUNT, R.TNS_STALL_US, R.TNS_OPS_LO, R.TNS_OPS_HI, R.TNS_BUSY, R.TNS_NET_CTL, R.TNS_NET_MOP, R.TNS_NET_FB_MOP, R.TNS_NET_EFF, R.TNS_NET_RES_CORE, R.TNS_NET_RES_CLUSTER, R.TNS_NET_RES_HOPPER, R.TNS_NET_RES_DDR, R.TNS_NET_FB_PIN, R.TNS_INS_CTL, R.TNS_INS_DEADLINE, R.TNS_INS_TALLY]
def regChunk7 : List Reg :=
  [R.TNS_INS_OUT_LO, R.TNS_INS_OUT_HI, R.TNS_INS_INPUT, R.TNS_INS_KP, R.TNS_INS_LAST, R.TNS_INS_FRAME_ID, R.TNS_INS_LAT, R.TNS_INS_FALLBACKS, R.TNS_INS_KP_COUNT, R.MEM_STATUS, R.MEM_EVT, R.MEM_DDR_CFG, R.MEM_DDR_TRAIN, R.MEM_DDR_SIZE_LO, R.MEM_DDR_SIZE_HI, R.MEM_SCRUB, R.MEM_CE_LIMIT, R.MEM_MIG_CFG, R.MEM_WB_AGE, R.MEM_MIG_COUNT, R.MEM_MIG_SKIPPED, R.MEM_MIG_BYTES_LO, R.MEM_MIG_BYTES_HI, R.MEM_PT_PAGES, R.MEM_ERR_ADDR_LO, R.MEM_ERR_ADDR_HI, R.MEM_ERR_INFO, R.MEM_REFILL_DDR, R.MEM_REFILL_CELLAR, R.MEM_REFILL_FLASH, R.MEM_PAGES_LOST, R.MEM_SRAM_CE]
def regChunk8 : List Reg :=
  [R.MEM_SRAM_UE, R.MEM_NOC_CRC, R.MEM_ADDR_FAULTS, R.MEM_HOP_CE, R.MEM_HOP_UE, R.MEM_HOP_LINK, R.MEM_HOP_FRAMES, R.MEM_HOP_BUSY, R.MEM_CH_STATE, R.MEM_CH_CE, R.MEM_CH_UE, R.MEM_CH_WCRC, R.MEM_CH_BUSY, R.MEM_CH_FRAMES, R.MEM_CELLAR_CFG, R.MEM_CELLAR_STATUS, R.MEM_CELLAR_CAP_LO, R.MEM_CELLAR_CAP_HI, R.MEM_CELLAR_USED_LO, R.MEM_CELLAR_USED_HI, R.MEM_CELLAR_CRC, R.MEM_CELLAR_TIMEOUTS, R.MEM_CELLAR_RATE, R.MEM_CELLAR_HEALTH, R.MEM_RGN_BASE, R.MEM_RGN_PAGES, R.MEM_RGN_CTL, R.MEM_RGN_HOPPER, R.FRM_STATUS, R.FRM_EVT, R.FRM_LM_CACHE, R.FRM_LM_CAP]
def regChunk9 : List Reg :=
  [R.FRM_LM_CACHE_LO, R.FRM_LM_CACHE_HI, R.FRM_LM_STORE_LO, R.FRM_LM_STORE_HI, R.FRM_LM_USED, R.FRM_LM_FULL, R.FRM_BUSY, R.FRM_TT_COUNT, R.FRM_TT_VERSION, R.FRM_LM_TAG_LO, R.FRM_LM_TAG_HI, R.FRM_LM_EVICTED, R.FRM_SES_CTL, R.FRM_SES_CAM0, R.FRM_SES_CAM1, R.FRM_SES_FRAME, R.FRM_SES_SRC, R.FRM_SES_WHEEL, R.FRM_SES_MAP, R.FRM_SES_TRACK, R.FRM_SES_ASSOC, R.FRM_SES_KF, R.FRM_SES_KF2, R.FRM_SES_LOST, R.FRM_SES_LOST_SIGMA, R.FRM_SES_RELOC, R.FRM_SES_QUAL, R.FRM_SES_GATE, R.FRM_SES_INIT, R.FRM_SES_STATE, R.FRM_SES_SEQ_LO, R.FRM_SES_SEQ_HI]
def regChunk10 : List Reg :=
  [R.FRM_SES_COND, R.FRM_SES_SOURCES, R.FRM_SES_EXCLUDED, R.FRM_SES_TRACKS, R.FRM_SES_OBS, R.FRM_SES_LAT, R.FRM_SES_COUNTS, R.FRM_SES_RELOCS, R.FRM_SES_KEYFRAMES, R.FRM_SES_SCORE, R.FRM_SES_TD, R.KTL_STATUS, R.KTL_EVT, R.KTL_SPARE, R.KTL_SOLVES_LO, R.KTL_SOLVES_HI, R.KTL_PARTIAL, R.KTL_NOT_CONVERGED, R.KTL_LATE, R.KTL_CHECK_FAIL, R.KTL_FX_SAT, R.KTL_REANALYSE, R.KTL_BAND_DROP, R.KTL_INPUT_DROPPED, R.KTL_PREEMPT, R.KTL_COALESCED, R.KTL_BUSY, R.KTL_QUEUE, R.KTL_CHECK, R.KTL_REFINE, R.KTL_GRAVITY, R.KTL_PG_GAP]
def regChunk11 : List Reg :=
  [R.KTL_PROB_CTL, R.KTL_DEADLINE, R.KTL_PROB_TOL, R.KTL_PROB_KERNEL, R.KTL_PROB_WINDOW, R.KTL_PROB_RANSAC, R.KTL_PROB_SEED, R.KTL_PROB_TALLY, R.KTL_PROB_STORE_LO, R.KTL_PROB_STORE_HI, R.KTL_PROB_OUT_LO, R.KTL_PROB_OUT_HI, R.KTL_PROB_MAP, R.KTL_PROB_REORDER, R.KTL_PROB_LAST, R.KTL_PROB_SEQ, R.KTL_PROB_VARS, R.KTL_PROB_FACTORS, R.KTL_PROB_F, R.KTL_PROB_NNZ, R.KTL_PROB_SUPERNODES, R.KTL_PROB_TIME, R.KTL_PROB_WAIT, R.KTL_PROB_COUNTS, R.KTL_PROB_DIGEST_LO, R.KTL_PROB_DIGEST_HI, R.KTL_BODY_CTL, R.KTL_BODY_TABLE_LO, R.KTL_BODY_TABLE_HI, R.KTL_BODY_LAST, R.KLN_STATUS, R.KLN_EVT]
def regChunk12 : List Reg :=
  [R.KLN_SPARE, R.KLN_BLENDS_LO, R.KLN_BLENDS_HI, R.KLN_BUSY, R.KLN_SKIPS, R.KLN_NAN, R.KLN_LOAD_BW, R.KLN_RELOC, R.KLN_RELOC_TALLY, R.KLN_RELOC_RING_LO, R.KLN_RELOC_RING_HI, R.KLN_MAP_CTL, R.KLN_MAP_ID, R.KLN_MAP_ANCHOR, R.KLN_MAP_BASE_LO, R.KLN_MAP_BASE_HI, R.KLN_MAP_STATE_LO, R.KLN_MAP_STATE_HI, R.KLN_MAP_ACTIVE_LO, R.KLN_MAP_ACTIVE_HI, R.KLN_MAP_SIZE, R.KLN_MAP_CELL, R.KLN_MAP_LR_A, R.KLN_MAP_LR_B, R.KLN_MAP_LR_C, R.KLN_MAP_DENSIFY, R.KLN_MAP_SCALE, R.KLN_MAP_SEED, R.KLN_MAP_TALLY, R.KLN_MAP_SESSIONS, R.KLN_MAP_OUT_LO, R.KLN_MAP_OUT_HI]
def regChunk13 : List Reg :=
  [R.KLN_MAP_PRIMS, R.KLN_MAP_EPOCH, R.KLN_MAP_RESIDENT, R.KLN_MAP_COUNTS, R.KLN_MAP_LOSS, R.KLN_VIEW_CTL, R.KLN_VIEW_CAMERA, R.KLN_VIEW_GEOM, R.KLN_VIEW_MATTE, R.KLN_VIEW_DEADLINE, R.KLN_VIEW_TALLY, R.KLN_VIEW_OUT_LO, R.KLN_VIEW_OUT_HI, R.KLN_VIEW_SCR_LO, R.KLN_VIEW_SCR_HI, R.KLN_VIEW_LIMIT, R.KLN_VIEW_LAST, R.KLN_VIEW_LAT, R.KLN_VIEW_COUNT, R.CSK_STATUS, R.CSK_EVT, R.CSK_SPARE, R.CSK_QUERIES_LO, R.CSK_QUERIES_HI, R.CSK_INSERTS, R.CSK_DANGLING, R.CSK_REVISED, R.CSK_SHORT, R.CSK_LATE, R.CSK_LATE_SHARD, R.CSK_BUSY, R.CSK_CONTEXTS]
def regChunk14 : List Reg :=
  [R.CSK_DDR_BW, R.CSK_COMPACT, R.CSK_LOOP, R.CSK_IDX_CTL, R.CSK_IDX_MAP, R.CSK_IDX_NODE_LO, R.CSK_IDX_NODE_HI, R.CSK_IDX_ENTRY_LO, R.CSK_IDX_ENTRY_HI, R.CSK_IDX_LOC_LO, R.CSK_IDX_LOC_HI, R.CSK_IDX_CAP, R.CSK_IDX_SEARCH, R.CSK_IDX_INSERT, R.CSK_IDX_DEADLINE, R.CSK_IDX_TIMEOUT, R.CSK_IDX_LIVE_LO, R.CSK_IDX_LIVE_HI, R.CSK_IDX_NODES, R.CSK_IDX_TOMB_LO, R.CSK_IDX_TOMB_HI, R.CSK_IDX_SHARD, R.CSK_IDX_REFUSED, R.CSK_Q_CTL, R.CSK_Q_TALLY, R.CSK_Q_IN_LO, R.CSK_Q_IN_HI, R.CSK_Q_OUT_LO, R.CSK_Q_OUT_HI, R.CSK_Q_COUNT, R.CSK_Q_FULL, R.DSP_STATUS]
def regChunk15 : List Reg :=
  [R.DSP_EVT, R.DSP_CAPACITY, R.DSP_PENDING, R.DSP_STALE_EPOCH, R.DSP_TASK_FAILED, R.DSP_MIGRATIONS, R.DSP_TASK_LIMIT, R.DSP_WAIT_LIMIT, R.DSP_STUCK, R.DSP_ST_CFG, R.DSP_ST_STATUS, R.DSP_ST_LAST, R.DSP_COOPER_LOAD, R.DSP_COOPER_SHED, R.DSP_COOPER_CFG, R.DSP_EVT_SHED, R.DSP_EVT_HEAD_LO, R.DSP_EVT_HEAD_HI, R.DSP_HOST_ADV, R.DSP_HOST_WAIT_HIT_LO, R.DSP_HOST_WAIT_HIT_HI, R.DSP_CLS_UNITS, R.DSP_CLS_SPARES, R.DSP_CLS_PERIOD, R.DSP_HOST_WAIT_CTL, R.DSP_HOST_WAIT_TH_LO, R.DSP_HOST_WAIT_TH_HI, R.DSP_RETIRE, R.HST_STATUS, R.HST_EVT, R.HST_MBX_DOORBELL, R.HST_MBX_STATUS]
def regChunk16 : List Reg :=
  [R.HST_MBX_CFG, R.HST_IRQ_CFG, R.HST_MAP_CFG, R.HST_BAR4_DENIED, R.HST_BAR4_SLOW, R.HST_POISONED, R.HST_SLOT_BUSY, R.HST_MAP_REQS, R.HST_MAP_NAKS, R.HST_MAP_IGNORED, R.HST_MAP_TILES, R.HST_MBX_REQ, R.HST_MBX_RSP, R.HST_RING_CTL, R.HST_RING_OFF, R.HST_RING_IRQ, R.HST_RING_REL, R.HST_RING_WR_LO, R.HST_RING_WR_HI, R.HST_RING_RD_LO, R.HST_RING_RD_HI, R.HST_RING_OVERRUN, R.HST_RING_BACK_LO, R.HST_RING_BACK_HI, R.HST_WIN, R.HST_FN, R.HST_AP_BASE_LO, R.HST_AP_BASE_HI, R.HST_AP_PAGES, R.HST_STR_CTL, R.HST_STR_DST, R.HST_STR_UDP]
def regChunk17 : List Reg :=
  [R.HST_STR_VID, R.HST_STR_PACKETS, R.HST_PORT_IP, R.HST_PORT_NET, R.HST_PORT_GW, R.HST_PORT_MAP, R.HST_PORT_MAC_LO, R.HST_PORT_MAC_HI, R.HST_PORT_ARP, R.HST_ACL_ADDR, R.HST_ACL_CTL, R.LNK_STATUS, R.LNK_EVT, R.LNK_RING_EPOCH, R.LNK_MEMBERS, R.LNK_CFG, R.LNK_TIMING, R.LNK_BW, R.LNK_DIGEST_LO, R.LNK_DIGEST_HI, R.LNK_TIME_OFFSET, R.LNK_TALLY_SENT, R.LNK_E2E_RESENT, R.LNK_SHARED_RGN, R.LNK_MBR_STATE, R.LNK_MBR_HB_AGE, R.LNK_MBR_EPOCH, R.LNK_PORT_CTL, R.LNK_PORT_STATUS, R.LNK_PORT_LASER, R.LNK_PORT_FEC_CORR_LO, R.LNK_PORT_FEC_CORR_HI]
def regChunk18 : List Reg :=
  [R.LNK_PORT_FEC_UNCORR, R.LNK_PORT_CRC, R.LNK_PORT_REPLAY, R.LNK_PORT_DOWNS, R.LNK_PORT_UTIL, R.LNK_PORT_DELAY, R.LNK_PORT_UCW_LIMIT, R.LNK_LANE, R.SEC_STATUS, R.SEC_EVT, R.SEC_ID_DIGEST, R.SEC_CERT_LEN, R.SEC_ALIAS_LEN, R.SEC_STAGE, R.SEC_STAGE_LEN, R.SEC_STAGE_DONE, R.SEC_STAGE_SEQ_LO, R.SEC_STAGE_SEQ_HI, R.SEC_UPDATE, R.SEC_UPD_CFG, R.SEC_UPD_TIME, R.SEC_COUNTS, R.SEC_CERT, R.SEC_ALIAS, R.PWR_STATUS, R.PWR_EVT, R.PWR_RESET_CAUSE, R.PWR_AVS_SET, R.PWR_AVS_FUSE, R.PWR_AVS_CFG, R.PWR_CORE_TELEM, R.PWR_PKG]
def regChunk19 : List Reg :=
  [R.PWR_PKG_PEAK, R.PWR_THERM_CFG, R.PWR_SMB, R.PWR_PMBUS_ERR, R.PWR_LIMITS, R.PWR_TEMP]

/-- The chunks of registers. -/
def regChunks : List (List Reg) :=
  [regChunk0, regChunk1, regChunk2, regChunk3, regChunk4, regChunk5, regChunk6, regChunk7, regChunk8, regChunk9, regChunk10, regChunk11, regChunk12, regChunk13, regChunk14, regChunk15, regChunk16, regChunk17, regChunk18, regChunk19]

/-- The instance of a descriptor that lies at a BAR0 address, if one does. -/
def Reg.instanceAt (r : Reg) (a : Nat) : Option (Nat × Nat) :=
  if a < r.base then none
  else
    let o := a - r.base
    let i := if r.stride = 0 then 0 else o / r.stride
    let rest := o - r.stride * i
    let j := if r.stride2 = 0 then 0 else rest / r.stride2
    if i < r.count ∧ j < r.count2 ∧ r.addr i j = a then some (i, j) else none

/-- The register that occupies a BAR0 address: its descriptor and instance. -/
def regFind (a : Nat) : List Reg → Option (Reg × Nat × Nat)
  | [] => none
  | r :: rs => match r.instanceAt a with
    | some (i, j) => some (r, i, j)
    | none => regFind a rs

/-- The register at a BAR0 address, none where no register occupies it (R8). -/
def regAt (a : Nat) : Option (Reg × Nat × Nat) := regFind a (windowRegs (a / 0x100000))

end Sys2Proof.Machine
end

