-- ==== Sys2Proof/Config.lean ====
section
/-!
DEFINITION. What one device fixes and what the spec leaves open. A constant without a body is a free value: nothing in Lean can
say what it is, so every claim holds whatever it is (the assumption log names each).
-/

namespace Sys2Proof.Config

/-- A fresh value each time, applied to the state's counter `free` (R465: a reset pulse between 1 µs and 10 µs; R262 fields the
spec gives no value for; and the other open values the assumption log lists). -/
opaque freeNat : Nat → Nat

/-- A fresh integer each time, applied to the state's counter `free`. -/
opaque freeInt : Nat → Int

/-- What the event code of a condition that a status hides exceeds 0x0107 by, where the block's _EVT register has no bit for the condition (R12, Table
13-7): by block and condition (log entry 92). -/
opaque hiddenCode : Nat → Nat → Nat

/-- The loop of 10 s time constant that tracks a sensor's rate (R79, whose arithmetic the spec does not give): from the period, the tracked rate, the
predicted arrival and the arrival (ns), the new rate (ppb) and the next predicted arrival. -/
opaque rateLoop : Nat → Int → Int → Int → Int × Int

/-- S2 of a pixel none of whose candidates lies two or more from the winner (R151 states none): by S. -/
opaque sgmNoSecond : List Nat → Nat

/-- The element codes of a block that holds a NaN (R167 gives only its scale, 0xFF). -/
opaque nanBlockElem : Nat → Nat

/-- The fields of a track result that are not computed (the field's number; the entry and what the result does hold): equal inputs give equal
values (R123). -/
opaque trackFill : Nat → List Nat → Nat

/-- The error of a function of the vector engine in ulp, inside its bound (R174: 2 or 4 ulp), by function and FP32 input. -/
opaque ulpErr : Nat → Nat → Int

/-- The slope of leaky ReLU as FP32 (Table 7-8 names the activation without it). -/
opaque leakySlope : Nat

/-- The code of an element outside the image that a convolution or a pooling window takes (R171, R188 give a layer no padding), by layer and format. -/
opaque netPad : Nat → Nat → Nat

/-- The axis (0 N, 1 H, 2 W, 3 C), the first index and the length that a SLICE takes, which Table 7-9 has no field for: by layer and the input's size. -/
opaque sliceOf : Nat → List Nat → Nat × Nat × Nat

/-- The axis of the input that becomes each axis of a TRANSPOSE's result (0 to 3 in the order N, H, W, C), which Table 7-9 has no field for: by layer. -/
opaque permOf : Nat → List Nat

/-- Whether a RESIZE is bilinear, and the source position of a row or column of its result in units of 1/(2 × factor) pixel, which the spec does not
state: by layer, factor and index. -/
opaque resizeLinear : Nat → Bool
opaque resizeAt : Nat → Nat → Nat → Int

/-- The ε that a LAYERNORM adds to its variance, in FP32: by layer. -/
opaque layerEps : Nat → Nat

/-- A weight or fallback body of format 1 repacked to the widths of Table 7-2 (R189): the spec does not give the layout of format 1. -/
opaque repack : List Byte → List Byte

/-- What an arithmetic makes of an exact value where the spec fixes the formula and the format but no order of operations (R245, R265): the format (its
width less one), the sign, the numerator and the denominator in lowest terms; the pattern (log entry 101). -/
opaque evalNum : Nat → Bool → Nat → Nat → Nat

/-- The integration of one IMU measurement (R245, which fixes no integrator): from the state (w, x, y, z, position, velocity, biases; FP64), the measurement
(gyroscope, accelerometer), the gravity of the entry (FP32) and the time (ns), the new orientation, position and velocity. -/
opaque imuStep : List Nat → List Nat → Nat → Nat → List Nat

/-- The covariance of the filter after a time (R245): from the state, the measurement (none at constant velocity), the noise densities (FP32), the time
(ns) and the covariance (upper triangle, FP64). -/
opaque filtCov : List Nat → List Nat → List Nat → Nat → List Nat → List Nat

/-- The variance of an element of a first state that its source does not give (R230), FP64. -/
opaque firstVar : Nat → Nat

/-- The preintegrated measurement of an IMU factor (R295, Table 10-3): from the state at its start and the IMU's measurements with their times, the 56 numbers
(FP64). -/
opaque preintegrate : List Nat → List (Nat × List Nat) → List Nat

/-- The information matrix (upper triangle, FP64) that the Fermenter gives a factor for which the spec states none: by factor type and what it measures. -/
opaque factorInfo : Nat → List Nat → List Nat

/-- The residual (15 numbers) and the Jacobian (15 rows over the states at i and j) of an IMU factor: by its measurement, the IMU's entry and the values of its
variables (Table 10-3 lists the measurement, no rule gives the residual; log entry 103). -/
opaque imuResid : List Nat → List Byte → List (List Nat) → List Nat
opaque imuJac : List Nat → List Byte → List (List Nat) → List (List Nat)

/-- What no rule of chapter 10 fixes of a problem's symbolic structure: the nested dissection of a graph (a key for each node, by its edges; R276), how many further
columns each supernode of a pattern takes (R275), and the bytes that a structure takes in the store and in Kettle SRAM, by nnz(L) and its columns. -/
opaque dissection : List (Nat × List Nat) → Nat → Nat
opaque supernodes : List (Nat × List Nat) → List Nat
opaque structBytes : Nat → Nat → Nat

/-- SM4 in XTS mode (R219): by key pair, tweak and data unit; and the key pair of Table 16-2, by the device's identity and the superblock format. -/
opaque sm4Xts : Nat → Nat → List Byte → List Byte
opaque cellarKeys : Nat → Nat → Nat

/-- The poses of P3P in the order of R296 (ascending quartic roots): by keypoint, landmark position and camera pose, and the camera entries, of three
correspondences. The spec names the problem and no quartic. -/
opaque p3p : List (List Nat) → List (List Byte) → List (List Nat)

/-- The SM3 digest of a byte string (R436 names the standard; its text is not part of the spec). -/
opaque sm3 : List Byte → Nat

/-- The SM3 digest of a table entry followed by a body, by the entry's bytes and the body's own digest (R32): the model holds bodies as
digests (log entry 19). -/
opaque sm3Entry : List Byte → Nat → Nat

/-- An SM2 signature under a derived key (R442, R445, R446): key label, message digest. -/
opaque sm2Sign : Nat → Nat → List Byte

/-- The alias certificate (R445) of a firmware digest and a security version counter, in DER form (X.509 is named, not restated). -/
opaque aliasCert : Nat → Nat → List Byte

/-- The two hashes of a node index behind the visited filter (R342), and the hash behind the location table (R340). -/
opaque hash1 : Nat → Nat
opaque hash2 : Nat → Nat
opaque hashId : Nat → Nat

/-- The least approximate distance m of a node without an occupied slot (R342 takes a minimum over none): by node. -/
opaque noSlotMin : Nat → Nat

/-- Whether an Ethernet port runs at 10GBASE-R and not at 25GBASE-R: no register or setting of the spec says. -/
opaque port10G : Nat → Bool

/-- The fixed latency of an Ethernet port's PHY at the port's speed, by which R63 corrects a receive stamp and R64 a transmit time, in eighths
of a nanosecond, by port: neither the figures nor the speed a port runs at is in the spec. -/
opaque phyIngress : Nat → Int
opaque phyEgress : Nat → Int

/-- The version of the DDR training code in a Cooper firmware section, by the section's digest (R45). -/
opaque trainCode : Nat → Nat

/-- Clock periods and rates of Table 1-4 that the meanings use: one CLK_S cycle, in nanoseconds. -/
def clkSNs : Nat := 2

/-- The part number held in the OTP of the modelled device (GLB_PART.PART of the KVX-7300: every figure of the manual is for it
unless a statement names another). -/
def partCode : Nat := 0x73

/-- The digest that leaves Glonaro in root key slot 0 (R438); a name for it, not its value. -/
def glonaroKey : Nat := 1

end Sys2Proof.Config
end

