-- ==== Sys2Proof/Machine/Store.lean ====
section
/-!
DEFINITION. Sparse tables in one canonical form: keys strictly rising, and no entry equal to what an unlisted key reads as.
The unified map range, the register file and the Tally store are such tables.
-/

namespace Sys2Proof.Machine

/-- A sparse table. -/
abbrev Table (α : Type) := List (Nat × α)

/-- What key `a` holds; `d` where it is not listed. -/
def tget (d : α) : Table α → Nat → α
  | [], _ => d
  | (k, v) :: m, a => if a = k then v else tget d m a

/-- The table with key `a` holding a value that is listed: in its place by key. -/
def tins : Table α → Nat → α → Table α
  | [], a, v => [(a, v)]
  | (k, w) :: m, a, v => if a < k then (a, v) :: (k, w) :: m else if a = k then (a, v) :: m else (k, w) :: tins m a v

/-- The table with key `a` holding `v`; the entry goes away where `v` is what an unlisted key reads as. -/
def tput [DecidableEq α] (d : α) (m : Table α) (a : Nat) (v : α) : Table α :=
  if v = d then m.filter (fun e => e.1 != a) else tins m a v

/-- Every listed key lies above `b`, the keys rise strictly, and no entry holds the unlisted value. -/
def canonFrom [DecidableEq α] (d : α) : Option Nat → Table α → Bool
  | _, [] => true
  | b, (k, v) :: m =>
    (match b with | none => true | some j => decide (j < k)) && decide (v ≠ d) && canonFrom d (some k) m

/-- The canonical form of a table whose unlisted keys read as `d`. -/
def Canon [DecidableEq α] (d : α) (m : Table α) : Bool := canonFrom d none m

/-- What a byte of the unified map range reads as before anything has written it (log entry 2). -/
def Memory.unlisted : Byte := 0#8

/-- The unified map range: listed bytes. -/
abbrev Memory := List Host.Cell

/-- The canonical form of memory. -/
def Memory.wf (m : Memory) : Bool := Canon Memory.unlisted m

/-- One byte of memory. -/
def Memory.read (m : Memory) (a : Nat) : Byte := tget Memory.unlisted m a

/-- Memory with one byte written. -/
def Memory.write (m : Memory) (a : Nat) (b : Byte) : Memory := tput Memory.unlisted m a b

/-- `n` bytes of memory from address `a`. -/
def Memory.readList (m : Memory) : Nat → Nat → List Byte
  | _, 0 => []
  | a, n + 1 => m.read a :: Memory.readList m (a + 1) n

/-- Memory with bytes put where none of the runs (address, length) of `but` lies. -/
def Memory.fill (m : Memory) (but : List (Nat × Nat)) (l : List (Nat × Byte)) : Memory :=
  l.foldl (fun m e => if but.any (fun r => decide (r.1 ≤ e.1) && decide (e.1 < r.1 + r.2)) then m else m.write e.1 e.2) m

/-- Memory with a run of bytes written from address `a`. -/
def Memory.writeList (m : Memory) : Nat → List Byte → Memory
  | _, [] => m
  | a, b :: bs => Memory.writeList (m.write a b) (a + 1) bs

end Sys2Proof.Machine
end

