-- ==== Sys2Proof/Machine/State.lean ====
section
/-!
DEFINITION. The state of the part as plain data: its register file, its memories, its Tallies and its event log, and block by
block the state the spec gives it beside its registers. A field that is the model's own, not the spec's, says so.
-/

namespace Sys2Proof.Machine
open Sys2Proof

/-- Why the machine stops with a fault. No meaning raises one: every command of the table has an effect. The one constructor is
there for the interface; safe, since nothing raises it. -/
inductive Fault where
  | none
deriving DecidableEq, Repr

/-- Why a command is refused. `notModelled` is raised by the arm of a command that has no meaning yet (safe: nothing can be
proved of what it does). -/
inductive Refusal where
  | notModelled (mnemonic : String)
deriving DecidableEq, Repr

/-! ## What survives a reset: OTP and flash -/

/-- A root key slot of the OTP (R438, R439): used once its programming has begun, programmed once its valid bit is set; the same for its
revocation (R54). -/
structure KeySlot where
  used : Bool := false
  programmed : Bool := false
  revoked : Bool := false
  digest : Nat := 0
  revUsed : Bool := false
deriving DecidableEq, Repr

/-- The OTP fuses (R53, Table 2-11) and what Glonaro programs at test (GLB_PART, GLB_SERIAL, PWR_AVS_FUSE, SEC_CERT). A cascade
field and a retirement entry carry their valid bit first; `svcLost` counts the increments of the security version counter, and
`lockUsed` says that the debug lock was begun and may lack its valid bit (R54). -/
structure Otp where
  part : Nat := Config.partCode
  grade : Nat := 0
  stepping : Nat := 0
  serial : Nat := 0
  svc : Nat := 0
  svcLost : Nat := 0
  keys : List KeySlot := [{ used := true, programmed := true, digest := Config.glonaroKey }, {}, {}, {}]
  debugLock : Bool := false
  lockUsed : Bool := false
  cascade : List (Bool × Nat) := []
  retire : List (Bool × Nat) := []
  avsFuse : Nat := 0
  cert : List Byte := []
  idDigest : Nat := 0
deriving DecidableEq, Repr

/-- A migration record of the directory (R48): section index, digest of the original body, and offset (in the flash), length and digest of
the converted body. -/
structure MigRec where
  index : Nat
  orig : Nat
  off : Nat
  len : Nat
  digest : Nat
deriving DecidableEq, Repr

/-- The state a directory copy gives a slot (Table 2-3): 0 EMPTY, 1 VALID, 2 TRIAL, 3 CONFIRMED, 4 REJECTED; its trial count and
its migration records (R30). -/
structure SlotDir where
  state : Nat := 0
  trials : Nat := 0
  migs : List MigRec := []
deriving DecidableEq, Repr

/-- One directory copy (R30): erased, or written with a sequence number and a CRC-32C that passes or not. -/
structure DirCopy where
  erased : Bool := true
  crcOk : Bool := true
  seq : Nat := 0
  a : SlotDir := {}
  b : SlotDir := {}
  staging : Nat := 0
deriving DecidableEq, Repr

/-- One copy of the DDR training cache (R45). -/
structure TrainCopy where
  erased : Bool := true
  crcOk : Bool := true
  seq : Nat := 0
  device : Nat := 0
  cfg : Nat := 0
  code : Nat := 0
  jt : Int := 0
deriving DecidableEq, Repr

/-- A converted body as it lies in a slot's migration area with the signature that follows it (R48): offset in the flash, length, digest;
the signature names the device whose migration key made it. -/
structure MigBody where
  off : Nat
  len : Nat
  digest : Nat
  sig : Sig
deriving DecidableEq, Repr

/-- The configuration flash (R26–R30): its capacity, whether SFDP reads and reports 8D-8D-8D, the two directory copies, the
training cache, the slots (none: erased) and their migration areas, the staged object, and whether the last update came by package (LEGACY, R455; where the part
keeps it is not stated, log entry 33). -/
structure Flash where
  mib : Nat := 64
  sfdpOk : Bool := true
  octal : Bool := true
  dir0 : DirCopy := {}
  dir1 : DirCopy := {}
  train0 : TrainCopy := {}
  train1 : TrainCopy := {}
  slotA : Option Image := none
  slotB : Option Image := none
  migA : List MigBody := []
  migB : List MigBody := []
  staged : Option Staged := none
  legacy : Bool := false
deriving DecidableEq, Repr

/-! ## Power and board management -/

/-- The power states of Table 17-5. -/
inductive PMode where
  | off | reset | starting | running | recovery | halted
deriving DecidableEq, Repr

/-- Pins and counters of power and board management (chapter 17). -/
structure PwrSt where
  mode : PMode := .reset
  rails : Nat := 0x3FF
  pwrgd : Bool := true
  sysResetN : Bool := false
  thermtripN : Bool := true
  alertN : Bool := true
  laserEn : Nat := 0
  straps : Nat := 0
  avsFails : Nat := 0
  coolSince : Option Nat := none
  seen : Nat := 0
  oeHot : Nat := 0
  nextCause : Nat := 0
  pufBad : Bool := false
  voutMode : Nat := 0
deriving DecidableEq, Repr

/-- What the running firmware knows of its start and its image (chapter 02): `trained` is the junction temperature of a full training whose
results are not yet in the training cache, `refused` whether a slot was rejected at this start, `noted` whether ERROR and SECTION hold a
refusal of this start; `seqs` the pose counts of the sessions when the part began to run, `gap` when the
present stretch with all of them publishing began, where an autostart session has stopped since (R37). -/
structure BootSt where
  slot : Option Bool := none
  img : Image := {}
  trained : Option Int := none
  waitOver : Bool := false
  sensorsFailed : List Nat := []
  refused : Bool := false
  noted : Bool := false
  wdSeen : Bool := false
  seqs : List Nat := []
  gap : Option Nat := none
deriving DecidableEq, Repr

/-! ## Device time -/

/-- A grandmaster as one port of a domain hears it (R65). -/
structure PortMaster where
  gm : Nat := 0
  prio : Nat := 0
  cls : Nat := 255
  steps : Nat := 0
  ptpScale : Bool := true
  last : Nat := 0
  count : Nat := 0
  valid : Bool := false
deriving DecidableEq, Repr

/-- The servo state of one PTP domain (R65); its times, the offset `off`, the mean path delay and the servo's estimate in units of 2⁻¹⁶ ns. -/
structure Dom where
  gm : Nat := 0
  qualified : Bool := false
  locked : Bool := false
  lockedAt : Nat := 0
  port : Nat := 0
  ports : List PortMaster := [{}, {}, {}, {}]
  conv : Nat := 0
  dvg : Nat := 0
  est : Int := 0
  off : Int := 0
  mpd : Int := 0
  syncSeq : Option (Nat × Int) := none
  t1 : Int := 0
  t2 : Int := 0
  t3 : Int := 0
  reqSeq : Nat := 0
  utc : Nat := 0
deriving DecidableEq, Repr

/-- An exposure interval stamped at a trigger edge (R74): edge in eighths of a nanosecond, end and middle in nanoseconds. -/
structure Expo where
  edge8 : Nat
  stop : Nat
  mid : Nat
deriving DecidableEq, Repr

/-- A capture stamp (R75): the start and the end of the pulse in eighths of a nanosecond (125 ps), and its edge. -/
structure Stamp where
  start : Nat
  stop : Nat
  rising : Bool
deriving DecidableEq, Repr

/-- The offset monitor of one sensor (R79, R81): `fell` while the span is back under P and SLIP still holds, `within` while the offset lies
within its bound; `rate` and `pred` the rate tracked (ppb) and the arrival it predicts (ns), of a sensor whose rate is tracked; `tvar` the variance of the residual after a TIME_SLIP (ns²; R255). -/
structure SnsMon where
  direct : Int := 0
  resid : Int := 0
  win : List (Nat × Int) := []
  above : Bool := false
  fell : Bool := false
  within : Bool := false
  ask : Bool := false
  tvar : Nat := 0
  rate : Int := 0
  pred : Option Int := none
deriving DecidableEq, Repr

/-- Device time and the Timekeeper (chapter 03). `dev` is device time in units of 2⁻¹⁶ ns, `rem` what the corrections have
left over in units of 10⁻¹² of that unit, `slew` the phase still to slew in the same unit, `tick` the CLK_S cycles since the
release of reset; `states` the time states so far, newest first, with the device time (ns) from which each was in force; `lostAt` when LOCKED was
last lost; `waitEnd` the device time at which the PTP wait ended (2⁻¹⁶ ns); `ppsLearnt` whether a 1 PPS offset has been learnt; `caps`
the stamps queued by capture input, `capLast` the pulse that ended last before a frame start (R76), `reqRx` the stamp of the last Pdelay_Req by
port (R63), in units of 2⁻¹⁶ ns. -/
structure TimeSt where
  dev : Nat := 0
  rem : Nat := 0
  slew : Int := 0
  tick : Nat := 0
  stepOpen : Bool := false
  doms : List Dom := [{}, {}]
  selected : Option Nat := none
  selectedAt : Nat := 0
  bigOffset : Bool := false
  everLocked : Bool := false
  lostAt : Nat := 0
  states : List (Nat × Nat) := []
  limitPassed : Bool := false
  rates : List (Nat × Int) := []
  lockedNs : Nat := 0
  ppsGood : Nat := 0
  ppsLearnt : Bool := false
  refGood : Nat := 0
  refRates : List (Nat × Int) := []
  trigOn : Bool := false
  waitEnd : Nat := 0
  trigNext : Table Nat := []
  expos : Table (List Expo) := []
  caps : Table (List Stamp) := []
  capLast : Table (List Stamp) := []
  reqRx : List Int := [0, 0, 0, 0]
  sns : Table SnsMon := []
  capt : Table Nat := []
deriving DecidableEq, Repr

/-! ## Dispatch, Tallies, spares and the event log -/

/-- A Tally (R359): its value and the stamp of the latest advance that named a device time, in nanoseconds. -/
structure Tally where
  value : Nat := 0
  stamp : Nat := 0
deriving DecidableEq, Repr

/-- An event record (Table 13-7); `ts` is device time in nanoseconds. -/
structure Evt where
  seq : Nat
  ts : Nat
  source : Nat
  sev : Nat
  code : Nat
  unit : Nat
  rep : Nat
  start : Nat
  arg0 : Nat
  arg1 : Nat
  arg2 : Nat
deriving DecidableEq, Repr

/-- A folding second of one source, code and unit (R387). -/
structure Fold where
  source : Nat
  code : Nat
  unit : Nat
  since : Nat
  ts : Nat
  count : Nat
  arg0 : Nat
  arg1 : Nat
  arg2 : Nat
deriving DecidableEq, Repr

/-- An instance of a node (R364): which waits it has seen satisfied (bit j for wait j), its reference time once its first wait
is satisfied, since when it has its state, when it began on its unit, the unit, how many of its advances it has made, and how often a unit fault has met it. -/
structure Inst where
  node : Nat
  k : Nat
  met : Nat := 0
  ref : Nat := 0
  since : Nat := 0
  began : Nat := 0
  unit : Nat := 0
  epoch : Nat := 0
  made : Nat := 0
  faults : Nat := 0
deriving DecidableEq, Repr

/-- The condition of a physical unit that is not simply in order (R375): waiting for its retests (how many passed), or retired. -/
structure UnitSt where
  out : Bool := false
  retired : Bool := false
  passes : Nat := 0
  failedAt : Option Nat := none
  last : Nat := 0
  newCode : Bool := false
deriving DecidableEq, Repr

/-- A visit in progress in a rotation group (R373): the spare, the active unit visited (logical and physical), and the phase:
0 spare under test, 1 swap in due, 2 active unit under test, 3 swap back due. -/
structure Visit where
  cls : Nat
  group : Nat
  spare : Nat
  logical : Nat
  phys : Nat
  phase : Nat
deriving DecidableEq, Repr

/-- The Dispatcher, the spare rotation, Cooper's load and the folding of events (chapter 13). `kick` is the model's own: the
Tallies advanced since their consumers last reacted. `tele`: when each register described as over the last 1 s was last refreshed under shedding (R382). -/
structure DspSt where
  graph : Graph := {}
  nextK : Table Nat := []
  pend : List Inst := []
  ready : List Inst := []
  flight : List Inst := []
  epochs : Table Nat := []
  stuck : List Nat := []
  kick : List Nat := []
  units : Table UnitSt := []
  place : Table Nat := []
  visits : List Visit := []
  standIn : Table Nat := []
  nextVisit : Table Nat := []
  queued : List (Nat × Nat) := []
  evtSeq : Nat := 0
  folds : List Fold := []
  wdTimes : List Nat := []
  loadSince : Option Nat := none
  lowSince : Option Nat := none
  handover : List Nat := []
  inPeak : List (Nat × Nat) := []
  waitPeak : List (Nat × Nat) := []
  shedAt : Nat := 0
  tele : Table Nat := []
deriving DecidableEq, Repr

/-! ## Host interface -/

/-- A query slot (R402): 0 FREE, 1 PENDING, 2 ANSWERED; the request area, its result, and the posts accepted. -/
structure Slot where
  state : Nat := 0
  request : List Byte := []
  result : List Byte := []
  posts : Nat := 0
deriving DecidableEq, Repr

/-- A pose stream (R409): its next packet_seq, the records held and since when, the packets formed that have not left, and when
it last sent. -/
structure Stream where
  seq : Nat := 0
  held : List (List Byte) := []
  since : Nat := 0
  out : List (List (List Byte)) := []
deriving DecidableEq, Repr

/-- An entry written with a hold (R398): the Tally to release, and when. -/
structure Hold where
  tally : Nat
  due : Nat
deriving DecidableEq, Repr

/-- A record a block has published and the host interface has not yet copied (R395): kind and source of Table 14-6, whether it is a
vision record, its bytes, the slot it describes. -/
structure Pub where
  kind : Nat
  source : Nat
  vision : Bool := true
  bytes : List Byte
  slot : Nat := 0
deriving DecidableEq, Repr

/-- A map tile that waits for a page from another member (R432): the page; those already fetched for it; its kind, its request, its number. -/
structure TileWait where
  page : Nat
  got : List Nat := []
  kind : Nat
  req : TileReq
  tile : Nat
deriving DecidableEq, Repr

/-- The host interface (chapter 14). `outq` holds the records not yet copied, oldest first; `d3` the functions in D3hot; `msix` the
MSI-X tables by function × 0x1000 + byte offset, `pba` the pending bits by function × 128 + vector; `hi` the upper halves captured
and `lo` the lower halves pending, by BAR0 address (R9); `seqs` the entries written by ring, and by 64 + window; `wins` the published
entry of each window; `fired` the rings whose vector has fired; `slots` the query slots by function × 64 + slot; `dma` the tag of a
mailbox command whose DMA is under way, `drop` whether its response is discarded; `arp` the resolved next hops (port, IP, MAC),
`arpWait` the unresolved ones; `tileSeq` packet_seq by port for tiles; the second of tile requests and their count; the tile pages
asked of other members (R430). -/
structure HstSt where
  d3 : Nat := 0
  msix : Table Nat := []
  pba : List Nat := []
  hi : Table Nat := []
  lo : Table Nat := []
  seqs : Table Nat := []
  wins : Table (List Byte) := []
  fired : List Nat := []
  holds : List Hold := []
  slots : Table Slot := []
  dma : Option Nat := none
  drop : Bool := false
  arp : List (Nat × Nat × Nat) := []
  arpWait : List (Nat × Nat) := []
  streams : Table Stream := []
  tileSeq : Table Nat := []
  outq : List Pub := []
  reqWindow : Nat := 0
  reqCount : Nat := 0
  tiles : List TileWait := []
deriving DecidableEq, Repr

/-! ## Identity and update -/

/-- Identity, staging and handover state beside the SEC registers (chapter 16): L; blocks written since STAGE_BEGIN; the STAGE_DATA under
way (offset, length); the slot being written (true for B) and whether by the handover path; when ACTIVATE was accepted; the
classes still to roll; cores reloaded; the image being activated; settings that wait for a sensor's frame or a channel's output instant
(sensor, or 64 + channel; address, word); sessions whose transform entries change at their next checkpoint, and the entries; the alias certificate. -/
structure SecSt where
  stageLen : Nat := 0
  written : List Nat := []
  inData : Option (Nat × Nat) := none
  target : Bool := false
  byHand : Bool := false
  startedAt : Nat := 0
  rolling : List Nat := []
  reloaded : List Nat := []
  newImg : Image := {}
  defer : List (Nat × Nat × Nat) := []
  ttWait : List Nat := []
  issued : List Byte := []
deriving DecidableEq, Repr
/-! ## Camera and network video ingest -/

/-- A line of a frame (R91): its pixels as unpacked samples, whether its CRC failed, and whether an ST 2110 row of it is
incomplete. -/
structure Line where
  px : List Px := []
  crcBad : Bool := false
  part : Bool := false
deriving DecidableEq, Repr

/-- A frame that is open (R88): its start, timestamp and exposure length (ns), its flags of Table 4-4, the lines taken into
bands, the bands done, the valid bits, the lines of the band being filled, the line before them, the lines that wait in the
port FIFO, and what has been seen. `row` is the ST 2110 row being received. -/
structure FrameSt where
  start : Nat := 0
  ts : Nat := 0
  expo : Nat := 0
  rtp : Nat := 0
  flags : Nat := 0
  taken : Nat := 0
  band : Nat := 0
  valid : Nat := 0
  cur : List Line := []
  prev : Option Line := none
  wait : List Line := []
  ended : Bool := false
  bad : Bool := false
  sat : Nat := 0
  row : List (Option Px) := []
deriving DecidableEq, Repr

/-- One sensor of ingest: the open frame, the next frame_id, the next band sequence number,
the start of the previous frame, the last exposure edge used, the values its ingest Tally has reached and when (ns, newest first), when a frame last closed OK, whether the last frame did, and whether the checks of step 5 have
passed. -/
structure SnsSt where
  frame : Option FrameSt := none
  nextId : Nat := 0
  q : Nat := 0
  prevOk : Bool := false
  lastStart : Option Nat := none
  lastExpo : Option Nat := none
  stored : List (Nat × Nat) := []
  okAt : Option Nat := none
  passed : Bool := false
  lastRtp : Option Nat := none
deriving DecidableEq, Repr

/-- The reordering of one ST 2110 stream (R87): the next extended sequence number and the packets held, each with its arrival (ns). -/
structure StSt where
  next : Option Nat := none
  held : List (Nat × StPacket) := []
deriving DecidableEq, Repr

/-- Ingest (chapter 04). `peak` lists each CSI-2 port's recent FIFO fills, newest first: since when, and KiB; `hs` the CLK_S time (ns) at which
high-speed data was last seen, by port. -/
structure IngSt where
  sns : Table SnsSt := []
  st : Table StSt := []
  peak : Table (List (Nat × Nat)) := []
  hs : Table Nat := []
deriving DecidableEq, Repr

/-! ## The Sparge chain -/

/-- One Sparge channel (chapter 05): whether it has timed out, samples and valid samples since the restart, the unwrapping, the last
valid value, the rank window and the decimator and FIR lines (newest first), the flags of the samples of the support (1 SUBST,
2 SPIKE, 32 SATURATED), the set in force and the fade, and the output instant last used (in sixteenths of a ns); the
timestamp last written (ns). -/
structure ChanSt where
  out : Bool := false
  since : Nat := 0
  arrivals : Nat := 0
  last : Option (Int × Int) := none
  win : List Int := []
  med : List Int := []
  dl : List Nat := []
  hist : List Nat := []
  setB : Bool := false
  fading : Bool := false
  target : Bool := false
  fadeK : Nat := 0
  oldTaps : Option (List Nat) := none
  seq : Nat := 0
  lastOut : Option (Nat × Nat) := none
  lastTs : Option Nat := none
  okAt : Option Nat := none
  passed : Bool := false
deriving DecidableEq, Repr

/-- One SPI port: the conversion that waits for its read, the read in progress (schedule index and measurement time in sixteenths
of a ns), the stamp of its data-ready edge, the transactions counted and the run of valid ones. -/
structure SpiSt where
  conv : Option (Nat × Nat) := none
  reading : Option (Nat × Nat) := none
  drdy : Option Nat := none
  count : Nat := 0
  run : Nat := 0
  passed : Bool := false
deriving DecidableEq, Repr

/-- One SSI port: the read in progress (schedule index, first clock edge in sixteenths of a ns), when the last read ended, and the
run of valid reads. -/
structure SsiSt where
  reading : Option (Nat × Nat) := none
  ended : Option Nat := none
  run : Nat := 0
  passed : Bool := false
deriving DecidableEq, Repr

/-- One quadrature input: its line levels, whether an illegal transition awaits the next record, and the device time of the sample last taken (ns, R105). -/
structure QuadSt where
  a : Bool := false
  b : Bool := false
  err : Bool := false
  last : Option Nat := none
deriving DecidableEq, Repr

/-- A CAN frame as a controller sends it (R106, R107): identifier, 29-bit or 11-bit, FD or classical, with bit-rate switching or not, data. -/
structure CanFrame where
  id : Nat
  ext : Bool
  fd : Bool
  brs : Bool
  data : List Byte
deriving DecidableEq, Repr

/-- The Sparge (chapter 05). `tx` lists the frames of CAN controllers that are still unsent. -/
structure SpgSt where
  ch : Table ChanSt := []
  spi : Table SpiSt := []
  ssi : Table SsiSt := []
  quad : Table QuadSt := []
  tx : List (Nat × CanFrame) := []
  canSeen : Table Nat := []
deriving DecidableEq, Repr

/-! ## The Mill -/

/-- A track-list entry (R141). -/
structure Trk where
  id : Nat
  px : Nat
  py : Nat
  gx : Nat
  gy : Nat
  ok : Bool
deriving DecidableEq, Repr

/-- What the record of a frame of a Mill job holds, as the frame ends: the flags, status, frame_id,
other_id, band_valid, timestamp (ns), and the conditions of its status. A frame that is not computed (absent, skipped, unpaired or without
frame N − 1) owes it, with its Tally advances, until they can come (R131, R486). -/
structure Owed where
  flags : Nat
  status : Nat
  id : Nat
  other : Nat
  valid : Nat
  ts : Nat
  conds : List Nat := []
deriving DecidableEq, Repr

/-- A tile held on the Mill-to-cluster path (R21): its band, the lane that holds it, its tile column, and the time since when. -/
structure PathHold where
  band : Nat
  lane : Nat
  col : Nat
  since : Nat := 0
deriving DecidableEq, Repr

/-- One Mill job (chapter 06): its next frame, the frames after it that are not computed (oldest first), whether that frame has started and how far
its bands, rectification, releases, path tiles, pyramid rows (levels 1 to 5) and tracks have come (of rectified and of sent bands the first ones without
a gap are counted, those beyond a gap listed), whether its track list has been read, the tiles that the path holds, its record's flags and counts, the path state of its SGM pass (bands count both passes of an 8-path frame) or the next flow level,
and what became of its frames (1 computed, 2 absent, 3 skipped), newest first. -/
structure JobSt where
  next : Nat := 0
  owed : List Owed := []
  run : Bool := false
  bands : Nat := 0
  rect : Nat := 0
  ahead : List Nat := []
  rel : Nat := 0
  sent : Nat := 0
  sentAhead : List Nat := []
  pyr : List Nat := [0, 0, 0, 0, 0]
  read : Bool := false
  list : List Trk := []
  trk : Nat := 0
  yEff : Nat := 0
  flags : Nat := 0
  c0 : Nat := 0
  c1 : Nat := 0
  c2 : Nat := 0
  c3 : Nat := 0
  c4 : Nat := 0
  held : List PathHold := []
  path : Option (List (List (List Nat))) := none
  level : Option Nat := none
  seen : List (Nat × Nat) := []
deriving DecidableEq, Repr

/-- The Mill: its jobs (sensor n, 32 + SGM pair, 64 + flow job), the sensor (plus one) and the band that each lane is at work on, the tiles
delivered over the path, by sensor, and by sensor the frames that started with the number of their first tile. -/
structure MillSt where
  jobs : Table JobSt := []
  lanes : Table (Nat × Nat) := []
  tiles : Table Nat := []
  starts : Table (List (Nat × Nat)) := []
deriving DecidableEq, Repr


/-! ## The tensor clusters -/

/-- A row of a tensor in SRAM (R166): the element codes, pixel by pixel with the channels of a pixel together, and, where the tensor is block-scaled, the
scales of each pixel's blocks of 32 channels. -/
structure ActRow where
  codes : List Nat := []
  scales : List Nat := []
deriving DecidableEq, Repr

/-- The rows of a tensor that are formed: the first one's number, and the rows from it on. -/
structure Act where
  first : Nat := 0
  rows : List ActRow := []
deriving DecidableEq, Repr

/-- A pixel of the path's input: whether its mask bit is 1, L, and both channels of C (R181). -/
structure InPx where
  ok : Bool := false
  l : Nat := 0
  c0 : Nat := 0
  c1 : Nat := 0
deriving DecidableEq, Repr

/-- One network instance (chapter 07): its next frame, the bands published, first fallback band, flags and counts of the frame, the
nanoseconds its tasks were held, the frames whose deadline has passed (and whether a task was held then), the frame that keeps the rate and the
refit mark of before a refit, the first frame without the main network (R226), the bands of the frame that the main network has produced; of the band at work, the layers that have had their weights and since
when the next one's task is held (R191); the frame's input rows, and the activations of the main network and of the fallback, each tensor in the order
of the layers and the converted input last. -/
structure InsSt where
  next : Nat := 0
  bands : Nat := 0
  fbFrom : Option Nat := none
  flags : Nat := 0
  listed : Nat := 0
  found : Nat := 0
  held : Nat := 0
  late : List (Nat × Bool) := []
  refit : Option (Nat × Nat × Bool) := none
  noMain : Option Nat := none
  whole : Nat := 0
  at' : Nat := 0
  heldAt : Option Nat := none
  inp : List (List InPx) := []
  main : List Act := []
  fb : List Act := []
deriving DecidableEq, Repr

/-- The tensor clusters: their instances, the weight layers that lie in staging (network, layer, logical cluster), the last one fetched first, the
main-network operations executed in MOP, whether f was recomputed after a loss, and the two weight tile registers of each matrix engine (R168: engine
8 × core + n). -/
structure TnsSt where
  ins : Table InsSt := []
  staged : List (Nat × Nat × Nat) := []
  mops : Nat := 0
  refitted : Bool := false
  tiles : Table (List (List Byte)) := []
deriving DecidableEq, Repr

/-! ## Memory tiers -/

/-- A page of a region (R202, R220, R221): its region (1,024 none); its Hopper die; its DDR5 channel; whether Cellar holds a copy; whether the
Hopper copy is newer than the DDR copy, and the page newer than its Cellar copy, and since when; access counter and score; lost
under R223. -/
structure Page where
  rgn : Nat := 1024
  hop : Option Nat := none
  ddr : Option Nat := none
  cellar : Bool := false
  hopDirty : Bool := false
  stale : Bool := false
  dirtyAt : Nat := 0
  count : Nat := 0
  score : Nat := 0
  lost : Bool := false
deriving DecidableEq, Repr

/-- Poisoned lines (R223): `n` 64-byte lines from line `line`, with the tier and unit where the error lay. -/
structure Poison where
  line : Nat
  n : Nat
  tier : Nat
  unit : Nat
deriving DecidableEq, Repr

/-- A move a migration pass has decided (R220): a page promoted to a die or demoted. -/
structure Move where
  page : Nat
  die : Option Nat
deriving DecidableEq, Repr

/-- The memory tiers (chapter 08): pages, poison, moves not yet switched, refills in progress, channels being retrained, the channels
that hold a copy of the page table, HOT regions backed as DEEP, times of corrected and uncorrectable errors by channel,
uncorrectable errors by frame (tier × 2^40 + unit × 2^36 + page), retired frames by Hopper die and (4 +) DDR5 channel, moves of the last second, NVMe
commands outstanding (operation, page, timeouts), whether the controller is being reset and when it was, and the last drift
and calibration by channel; whether Cellar bring-up found no SSD; what has been stored before Cellar was ready (R204); pages that wait for a DDR frame
(R210); BAR4 reads that wait (function, offset, length); pages whose read from Cellar failed once (R227); deallocations that
shedding holds (R382); the SM3 digest of each page of the shared sections
(R224); stores to SHARED pages that have not gone out over Ramhel (R430: address, length). -/
structure MemSt where
  pages : Table Page := []
  poison : List Poison := []
  moves : List Move := []
  refills : List Nat := []
  retrain : List Nat := []
  pt : List Nat := []
  asDeep : List Nat := []
  ce : Table (List Nat) := []
  ue : Table (List Nat) := []
  frameUe : List (Nat × Nat) := []
  retired : Table Nat := []
  moved : List (Nat × Bool) := []
  nvme : List (Nat × Nat × Nat) := []
  resetting : Bool := false
  resets : List Nat := []
  dqs : Table Int := []
  zqAt : Table Nat := []
  noSsd : Bool := false
  early : List (Nat × Nat) := []
  waitDdr : List Nat := []
  bar4 : List (Nat × Nat × Nat) := []
  reread : List Nat := []
  owed : List Nat := []
  digests : List (Nat × Nat) := []
  fresh : List (Nat × Nat) := []
deriving DecidableEq, Repr

/-! ## The Fermenter -/

/-- A pose as a record carries it (Table 9-9): position 3 × FP64, orientation 4 × FP32, velocity and angular rate 3 × FP32, covariance
21 × FP32. -/
structure PoseVal where
  pos : List Nat := [0, 0, 0]
  q : List Nat := [0x3F800000, 0, 0, 0]
  vel : List Nat := [0, 0, 0]
  rate : List Nat := [0, 0, 0]
  cov : List Nat := []
deriving DecidableEq, Repr

/-- A track (R239, R240): camera slot, position in Q16.16, its landmark once CONFIRMED, steps since birth, misses in a row,
observations, whether it was born of a corner, its descriptor, how this step observed it (0 KLT, 1 keypoint, 2 corner,
3 not) and with what covariance (FP16 xx, xy, yy; none: pixel_sigma²), and, while it has no landmark, where each step observed it. -/
structure Track where
  id : Nat
  slot : Nat
  x : Nat
  y : Nat
  lm : Option Nat := none
  age : Nat := 0
  miss : Nat := 0
  obs : Nat := 1
  corner : Bool := false
  desc : Nat := 0
  seen : Nat := 3
  cov : List Nat := []
  views : List (Nat × Nat × Nat) := []
deriving DecidableEq, Repr

/-- A folded-in result that waits for the next checkpoint (R257): 0 window, 1 pose graph, 2 calibration; its solution record. -/
structure FoldIn where
  kind : Nat
  record : Nat
deriving DecidableEq, Repr

/-- A pose record as its views take it (R316): seq, timestamp, status, whether a vision record, the value of the pose Tally that
covers it, and the bytes of its position and orientation. -/
structure PoseNote where
  seq : Nat
  ts : Nat
  status : Nat
  vision : Bool
  need : Nat := 0
  pose : List Byte := []
deriving DecidableEq, Repr

/-- A landmark that a keyframe would take from a disparity (R242): the frame, the pair, the track and its position then, the ingest index of its camera, and
that camera's pose in the anchor (FP64). -/
structure SgmInit where
  k : Nat
  pair : Nat
  track : Nat
  px : Nat
  py : Nat
  cam : Nat
  pose : List Nat
deriving DecidableEq, Repr

/-- A feature: position in Q16.16, score in Q0.16 or corner units, kind, descriptor, covariance (FP16 xx, xy, yy; none with NO_COV or for a corner). -/
structure Feat where
  x : Nat
  y : Nat
  score : Nat
  corner : Bool
  desc : Nat
  cov : List Nat := []
deriving DecidableEq, Repr

/-- A place query that a session has to post or waits for (R259, R345): the Cask queue and the number of its request there, the frame, whether it looks for
loops, the keyframe it was posted for, and the frame's features by camera slot. -/
structure PlaceQuery where
  queue : Nat := 0
  idx : Nat := 0
  k : Nat
  loop : Bool := false
  kf : Nat := 0
  feats : List (Nat × Feat) := []
deriving DecidableEq, Repr

/-- A verification under way (R259): the candidate, the frame; and the solution record whose pose the Kiln refines, with the number of that request (R328). -/
structure Verif where
  key : Nat
  k : Nat
  refine : Option (Nat × Nat) := none
deriving DecidableEq, Repr

/-- A verified relocalisation (R259): the pose of the state frame in the anchor at frame k (w, x, y, z, position), its covariance over position, then rotation in the axes
of the anchor (upper triangle); FP64. -/
structure Reloc where
  k : Nat
  pose : List Nat
  cov : List Nat
deriving DecidableEq, Repr

/-- The error-state filter of a session (R245), FP64: position and orientation of its state IMU frame, velocity, biases, time offsets
by camera slot, the pose clones of the last WINDOW steps (oldest first, by step: w, x, y, z, position), and its covariance (upper triangle); the time (ns) it
stands at and the angular rate there. -/
structure FilterSt where
  time : Nat := 0
  pos : List Nat := []
  q : List Nat := []
  vel : List Nat := []
  bias : List Nat := []
  rate : List Nat := []
  td : List (Nat × Nat) := []
  clones : List (Nat × List Nat) := []
  cov : List Nat := []
deriving DecidableEq, Repr

/-- A session (chapter 09) beside its registers: the next frame, when it entered INITIALISING (none: a host start waits for the next
frame), whether INIT_MS has passed, a stop that waits for the step in progress, tracks, keyframe and checkpoint state, runs of
R253 and R258, sources on probation with their passes, score histories, the pose last published, and latencies; frames whose
inputs are released by camera slot, when the last place query went out, the keyframes posted to CALIB, the pose records
its views have not yet taken, and its filter; keyframes whose posts to the Cask wait for the place network, and
SGM landmarks that wait for their pair's disparity (R19, R242); the poses of its keyframes (keyframe_id; w, x, y, z, position), newest first, moved with every
correction (R256, R257); per source bit the last second of innovations against rates of change (time, product, square; R254), and the last wheel
prediction; the difference of the reported pose from the filter's, and when it last shrank (R257); place queries that wait for a result, verifications under way,
solutions of its RELPOSE problem and Kiln records seen, and a verified relocalisation that no step has taken (R259). -/
structure SesSt where
  next : Nat := 0
  initAt : Option Nat := none
  waiting : Bool := false
  timedOut : Bool := false
  tracks : List Track := []
  nextTrack : Nat := 0
  sinceKf : Nat := 0
  kfAt : Nat := 0
  kfLms : Nat := 0
  fresh : Bool := true
  lostRun : Nat := 0
  gateRun : Nat := 0
  probation : List (Nat × Nat) := []
  scores : Table (List (Nat × Bool)) := []
  coastOver : Bool := false
  folds : List FoldIn := []
  pose : PoseVal := {}
  accepted : Nat := 0
  conds : List Nat := []
  lat : List (Nat × Nat) := []
  lastImu : Option Nat := none
  rel : Table Nat := []
  posted : Option Nat := none
  calAt : Nat := 0
  notes : List PoseNote := []
  filter : FilterSt := {}
  kfWait : List PlaceQuery := []
  sgmWait : List SgmInit := []
  kfPoses : List (Nat × List Nat) := []
  fits : Table (List (Nat × Nat × Nat)) := []
  wheelPred : Option (Nat × List Nat) := none
  off : List Nat := []
  offAt : Nat := 0
  queries : List PlaceQuery := []
  verifs : List Verif := []
  relSeen : Nat := 0
  kilnSeen : Nat := 0
  reloc : Option Reloc := none
deriving DecidableEq, Repr

/-- A Sparge record as a session takes it: timestamp, value (FP32), status, flags (Table 5-4). -/
structure ChanRec where
  ts : Nat
  value : Nat := 0
  status : Nat := 0
  flags : Nat := 0
deriving DecidableEq, Repr

/-- The Fermenter: its sessions, the Sparge records taken by channel (newest first), the landmarks in use, which landmark holds each cache slot,
and the transform entries in force. -/
structure FrmSt where
  ses : Table SesSt := []
  heard : Table (List ChanRec) := []
  lms : List Nat := []
  cache : Table Nat := []
  tt : Table (List Byte) := []
deriving DecidableEq, Repr

/-! ## The Kettle -/

/-- Values of variables by identifier (FP64), and exponents of their scales. -/
abbrev KVals := List (Nat × List Nat)
abbrev KScales := List (Nat × List Int)

/-- A variable of a problem (R270): identifier, type, value (FP64). -/
structure KVar where
  id : Nat
  typ : Nat
  val : List Nat := []
deriving DecidableEq, Repr

/-- A factor of a problem (R271): identifier, type, variables, measurement and information; `made` for a MARG factor the Kettle formed,
whose measurement is its dense prior. -/
structure KFac where
  id : Nat
  typ : Nat
  vars : List Nat := []
  val : List Nat := []
  info : List Nat := []
  made : Bool := false
deriving DecidableEq, Repr

/-- The transform entries that a factor depends on beside its variables (Table 10-3): the entry it names, and, with their numbers, the entries from the frame
it measures (a camera, a wheel, the state frame) and from the frame it measures in (the state frame, an anchor) up to their roots; the joint entries
of a chain in the order of its joint values. -/
structure KEnv where
  ent : List Byte := []
  own : List (Nat × List Byte) := []
  base : List (Nat × List Byte) := []
  joints : List Nat := []
deriving DecidableEq, Repr

/-- A SOLVE that has become ready (R287): trigger time, key, warm start, whether a
loop candidate, when it became ready, and the inputs of RELPOSE and BODY. -/
structure Trig where
  ts : Nat := 0
  key : Nat := 0
  warm : Option Nat := none
  loop : Bool := false
  since : Nat := 0
  corr : List (Nat × Nat × Nat × Nat) := []
  inp : List Nat := []
deriving DecidableEq, Repr

/-- A solve in progress (R287-R290): its trigger, the logical Kettle it runs on (none: preempted), when it started, iterations, flags
of Table 10-6, conditions of its status, the damping in force, whether it has stopped, and whether
a unit fault has met it (R367); the warm start and the last complete iterate, the cost at each, the gradient norm at the last linearisation
and the last backward error; when the running iteration began, and when the solve stops or stopped (R279). What its numbers depend on is held from its start
(R267): the factors with their transform entries, the variables in elimination order, landmarks held fixed (RELPOSE), a RELPOSE's correspondences as factors,
and the work units of its setup. -/
structure Run where
  trig : Trig
  unit : Option Nat := none
  started : Nat := 0
  iters : Nat := 0
  flags : Nat := 0
  conds : List Nat := []
  damp : Option (Nat × Nat) := none
  ended : Bool := false
  met : Bool := false
  x0 : KVals := []
  x : KVals := []
  cost0 : Nat := 0
  cost1 : Nat := 0
  grad : Nat := 0
  eta : Nat := 0
  began : Nat := 0
  stopAt : Nat := 0
  facs : List (KFac × KEnv) := []
  order : List KVar := []
  fixed : KVals := []
  corrs : List (KFac × KEnv) := []
  pre : List Nat := []
deriving DecidableEq, Repr

/-- A problem slot (chapter 10): entries posted and not yet applied, its variables in elimination order and its factors, ready solves, the
solve in progress, solve_seq, the last solution (digest, values address, length), the damping it left, whether entries were dropped
since the last record, nnz(L) at the last analysis, when its last solve ended, loop factors pending (with the pairs added); the values of the last solution, the scales of its variables since the last
analysis; the column pattern of the factor (R275: its variables in elimination order, each with the later ones in its column), and whether the front stage must
run (R276). -/
structure ProbSt where
  ring : List Delta := []
  vars : List KVar := []
  facs : List KFac := []
  ready : List Trig := []
  run : Option Run := none
  seq : Nat := 0
  sol : Option (Nat × Nat × Nat) := none
  damp : Option (Nat × Nat) := none
  dropped : Bool := false
  bandDrop : Bool := false
  nnz0 : Nat := 0
  lastEnd : Option Nat := none
  loops : List (Nat × Nat) := []
  pendingLoop : Bool := false
  vals : KVals := []
  scales : KScales := []
  cols : List (Nat × List Nat) := []
  front : Bool := false
deriving DecidableEq, Repr

/-- The Kettle: its problems, and by logical Kettle the problems whose structures its SRAM caches (R264, R275), the one that ran last first. -/
structure KtlSt where
  probs : Table ProbSt := []
  sram : Table (List Nat) := []
deriving DecidableEq, Repr

/-! ## The Kiln -/

/-- A primitive as a pass has projected it (R312), in FP32: primitive index, depth, projected mean, conic (inverse of Σ′), α₀, colour
(Y, Cb, Cr), the half-side r of its square in pixels, and its matte layer. -/
structure Prim2 where
  prim : Nat
  z : Nat
  mx : Nat
  my : Nat
  ca : Nat
  cb : Nat
  cc : Nat
  alpha : Nat
  colour : Nat × Nat × Nat
  r : Nat
  layer : Nat := 0
deriving DecidableEq, Repr

/-- The reduced gradient of a primitive (R322, R323) in FP32: over its 23 parameters, and the norm of the one over its projected mean. -/
structure Grad where
  prim : Nat
  g : List Nat
  dmean : Nat
deriving DecidableEq, Repr

/-- A point to seed (R325): mean and log-scale in FP32, Y, Cb, Cr of its pixel in FP32, logit(0.1), matte layer. -/
structure Seed where
  mean : Nat × Nat × Nat
  scale : Nat
  colour : Nat × Nat × Nat
  opacity : Nat
  layer : Nat := 0
deriving DecidableEq, Repr

/-- A view pass (R311): class (0 render-and-compare, 1 view, 2 refinement), its view, map and camera slot; the Kiln it runs on (none:
ready or preempted); its stage (0 ready, 1 projection, 2 compositing, 3 backward); the pose it renders, its deadline, flags, the
epoch and the resident blocks it saw, blocks it waits for, the primitives projected, the instances, the bytes of the pose its record holds, whether a unit
fault has met it (R367), whether it has begun and waits for blocks (R317); and of render-and-compare, which projects once more for every pose it tries, the
primitives it has read: index, matte layer and parameters (R324). -/
structure Pass where
  cls : Nat
  idx : Nat
  map : Nat
  cam : Nat := 0
  unit : Option Nat := none
  stage : Nat := 0
  pseq : Nat := 0
  ts : Nat := 0
  pstatus : Nat := 0
  due : Option Nat := none
  late : Bool := false
  flags : Nat := 0
  epoch : Nat := 0
  resident : List Nat := []
  waits : List Nat := []
  proj : List Prim2 := []
  insts : Nat := 0
  pose : List Byte := []
  met : Bool := false
  begun : Bool := false
  snap : List (Nat × Nat × List Nat) := []
deriving DecidableEq, Repr

/-- A refinement job (R320–R326): its keyframe, the camera slots still to render in this iteration, the pose it renders, the 48-byte gradient
records gathered and the points to seed (R322, R325), the primitives projected, iterations done, flags, valid pixels, losses and counts. -/
structure RefJob where
  ses : Nat
  kf : Nat
  ts : Nat := 0
  left : List Nat := []
  pose : List Byte := []
  recs : List (List Byte) := []
  seeds : List Seed := []
  seen : List Nat := []
  iters : Nat := 0
  flags : Nat := 0
  pixels : Nat := 0
  lossIt : Nat := 0
  loss0 : Nat := 0
  loss : Nat := 0
  updated : Nat := 0
  added : Nat := 0
  seeded : Nat := 0
  pruned : Nat := 0
deriving DecidableEq, Repr

/-- A dense map: the active frame of each resident block, wanted blocks nearest first, blocks loading, jobs queued and running, records
written, commits, and keyframes taken from each session. -/
structure KMap where
  resident : Table Nat := []
  wanted : List Nat := []
  loading : List Nat := []
  queue : List RefJob := []
  job : Option RefJob := none
  recs : Nat := 0
  commits : Nat := 0
  taken : Table Nat := []
deriving DecidableEq, Repr

/-- The Kiln: maps, passes, passes and records by view, pose records seen by session, and the reloc requests taken. -/
structure KlnSt where
  maps : Table KMap := []
  passes : List Pass := []
  seqs : Table Nat := []
  outs : Table Nat := []
  reloc : Nat := 0
  relocDone : Nat := 0
deriving DecidableEq, Repr

/-! ## The Cask -/

/-- The walk of a shard for a query (R342, R351): its name; the query it belongs to and the member that asked (none: this part); the
order keys queue and ring index; index, shard, whether this part's replica is walked; the request; when its input Tally advanced
and when its deadline falls; the walker it has a context of (none: waiting); whether it has begun; candidates (priority, node,
gen), the bits of its visited filter, best entries (approximate distance, node, rev, slot), nodes visited (m, node, gen), reads,
dangling edges, the batch still to score, the returned nodes not yet scored, the speculative reads under way and the prefetch buffer of its walker (R341), flags
BUDGET, DEADLINE and FILTERED, whether it has stopped, and whether a unit fault has met it (R367). -/
structure Walk where
  id : Nat := 0
  q : Nat := 0
  asker : Option Nat := none
  origin : Nat := 0
  k : Nat := 0
  idx : Nat := 0
  shard : Nat := 0
  replica : Bool := false
  epoch : Nat := 0
  req : List Byte := []
  since : Nat := 0
  due : Nat := 0
  unit : Option Nat := none
  begun : Bool := false
  cand : List (Nat × Nat × Nat) := []
  seen : List Nat := []
  best : List (Nat × Nat × Nat × Nat) := []
  visited : List (Nat × Nat × Nat) := []
  reads : Nat := 0
  dangling : Nat := 0
  batch : List (Nat × Nat) := []
  got : List (Nat × List Byte) := []
  spec : List Nat := []
  pre : List (Nat × List Byte) := []
  flags : Nat := 0
  ended : Bool := false
  met : Bool := false
deriving DecidableEq, Repr

/-- A query open at this part (R350, R354, R402): its tag; where it came from: queue 0–15, 16 a host slot, 17 another member; the ring
index, slot or the member's tag; the posts of the slot, or the member; the request; when it came; the shards asked, their answers,
and the shards missing. -/
structure CQuery where
  tag : Nat
  origin : Nat
  k : Nat
  who : Nat := 0
  req : List Byte := []
  since : Nat := 0
  asked : List Nat := []
  answers : List ShardAns := []
  missing : List Nat := []
deriving DecidableEq, Repr

/-- A Cask queue (R350, R351): requests seen and results advanced, the next request of an insert queue, and the ring indices that are
done or overrun and not yet advanced. -/
structure CQueue where
  seen : Nat := 0
  out : Nat := 0
  next : Nat := 0
  done : List Nat := []
  ended : List Nat := []
deriving DecidableEq, Repr

/-- An insert, replace or delete that waits for another member (R353, R430): its tag; the queue and ring index, or (queue 17) the member
and tag that asked; shard, request, and the result to give once the replica has it. -/
structure CPend where
  tag : Nat
  q : Nat
  k : Nat
  who : Nat := 0
  shard : Nat := 0
  req : List Byte := []
  res : Option (Nat × Nat × Nat) := none
deriving DecidableEq, Repr

/-- The Cask: queries, walks, queues, forwarded changes, the indices in service, where compaction stands by index, placement epochs by
index × 16 + shard, contexts in use over the last second, operation identifiers applied by origin member, the next tag. -/
structure CskSt where
  qs : List CQuery := []
  walks : List Walk := []
  queues : Table CQueue := []
  pend : List CPend := []
  ready : List Nat := []
  pos : Table Nat := []
  epochs : Table Nat := []
  peak : List (Nat × Nat) := []
  ops : Table (List (Nat × Nat × Nat × Nat)) := []
  next : Nat := 0
deriving DecidableEq, Repr


/-! ## Ramhel links -/

/-- A TALLY, MSG or PAGE frame not yet acknowledged by every destination (R419): its destination, class, e2e_seq, what it carries, and the
members still to acknowledge it. -/
structure Sent where
  dst : Nat
  cls : Nat
  seq : Nat
  body : Body
  owed : List Nat
deriving DecidableEq, Repr

/-- A Ramhel port beside its registers (R417, R421, R423): whether a bring-up runs, HELLO (0 none, 1 passed its checks, 2 failed), the next link
sequence numbers sent and expected, the replay buffer (frames past 256 have not been sent), how often its first frame has been
resent, and the times of uncorrectable codewords. -/
structure LinkPort where
  trying : Bool := false
  hello : Nat := 0
  tx : Nat := 0
  rx : Nat := 0
  replay : List (FrameHdr × Body) := []
  resends : Nat := 0
  ucw : List Nat := []
deriving DecidableEq, Repr

/-- The Ramhel links (chapter 15): the ports; the next e2e_seq by destination × 4 + class; frames kept until acknowledged; the e2e_seq
expected (plus one) by source × 4 + class, and the frames that wait for an earlier one; members heard and when; members being
brought in; operation identifiers of remote writes applied, by origin; writes forwarded to the replica and not yet acknowledged (tag, origin,
origin's tag); this part's own remote writes not yet acknowledged (tag, destination, address, bytes), and the CASCADE advances that are held until
those they name are (R429: tags, index, amount, stamp); remote reads not yet answered (R430: tag, destination, page, class). -/
structure LnkSt where
  ports : Table LinkPort := []
  e2e : Table Nat := []
  sent : List Sent := []
  got : Table Nat := []
  held : List (Nat × Nat × Body) := []
  heard : Table Nat := []
  joiners : List Nat := []
  ops : Table (List Nat) := []
  acks : List (Nat × Nat × Nat) := []
  mine : List (Nat × Nat × Nat × List Byte) := []
  wait : List (List Nat × Nat × Nat × Option Nat) := []
  next : Nat := 0
  reads : List (Nat × Nat × Nat × Nat) := []
deriving DecidableEq, Repr


/-! ## The whole state -/

/-- The headers of a service packet (R407, R409): port, UDP checksum (0x0000: R64), destination, the MAC address it goes to and the UDP destination port; the UDP
source port, DSCP, TTL and 802.1Q tag (PCP and VID) where the settings of a pose stream give them. -/
structure EthHdr where
  port : Nat
  sum : Nat := 0
  dst : Nat
  mac : Nat := 0
  smac : Nat := 0
  dport : Nat
  sport : Option Nat := none
  dscp : Option Nat := none
  ttl : Option Nat := none
  tag : Option (Nat × Nat) := none
deriving DecidableEq, Repr

/-- A PTP message that the part sends (R62, R64): its port; kind 1 Delay_Req, 2 Pdelay_Req, 3 Pdelay_Resp, 4 an answer, 5 a refusal; sequence
number; its transmit time in eighths of a nanosecond; whether over UDP over IPv4 (IEEE 802.3 otherwise), then with the UDP checksum it
carries; and whether it goes unicast. -/
structure PtpTx where
  port : Nat
  kind : Nat
  seq : Nat
  time : Int
  udp : Bool
  sum : Option Nat
  unicast : Bool := false
deriving DecidableEq, Repr

/-- What the part drives onto its outside interfaces. -/
inductive Out where
  | smbWord (value : Nat)
  | smbNak
  | pmbus (addr page code value : Nat)
  | edge (schedule k : Nat)
  | ptp (m : PtpTx)
  | igmp (port version group source : Nat)
  | irq (fn vector : Nat)
  | cpl (fn : Nat) (data : List Byte) (ep : Bool)
  | unsupported (fn : Nat)
  | dmaRead (addr len : Nat)
  | dmaWrite (addr : Nat) (data : List Byte)
  | spi (port : Nat) (data : List Byte)
  | ssi (port : Nat)
  | can (ctl : Nat) (f : CanFrame)
  | nvme (op arg : Nat) (fua : Bool)
  | eth (h : EthHdr) (payload : List Byte)
  | arp (port op ip mac : Nat)
  | icmp (port ip : Nat) (payload : List Byte)
  | frame (h : FrameHdr) (b : Body)
deriving DecidableEq, Repr

/-- The state of the part. `regs` lists the registers that differ from their reset words, by BAR0 address; `out` is the model's
own record of everything the part has driven outward, newest first; `free` is the model's own counter of free values taken;
`pending` is the queue of commands that wait, first in first out. -/
structure State where
  regs : Table Word := []
  mem : Memory := []
  tally : Table Tally := []
  log : List Evt := []
  otp : Otp := {}
  fl : Flash := {}
  pw : PwrSt := {}
  bt : BootSt := {}
  tm : TimeSt := {}
  dsp : DspSt := {}
  hst : HstSt := {}
  sec : SecSt := {}
  ing : IngSt := {}
  spg : SpgSt := {}
  mill : MillSt := {}
  tns : TnsSt := {}
  mm : MemSt := {}
  ssd : Ssd := {}
  frm : FrmSt := {}
  ktl : KtlSt := {}
  kln : KlnSt := {}
  csk : CskSt := {}
  lnk : LnkSt := {}
  out : List Out := []
  free : Nat := 0
  pending : List Instr := []
deriving DecidableEq, Repr

/-- The machine right after reset: held in system reset with its supplies up, every register at its reset value, every Tally 0,
device time 0, the event log and the queue empty, the flash erased, the OTP as it leaves Glonaro (log entries 1 to 6 name what
the spec does not give). -/
def State.reset : State := {}

end Sys2Proof.Machine
end

