-- ==== Sys2Proof/Machine/Ops.lean ====
section
/-!
DEFINITION. The named operations over the state: registers and their fields, memory, device time, free values, what the part
drives outward.
-/

namespace Sys2Proof.Machine
open Sys2Proof

/-! ## Registers -/

/-- The word a register instance holds. -/
def State.word (s : State) (r : Reg) (i : Nat := 0) (j : Nat := 0) : Word :=
  tget (BitVec.ofNat 32 r.reset) s.regs (r.addr i j)

/-- The part writes a register instance. -/
def State.setWord (s : State) (r : Reg) (w : Word) (i : Nat := 0) (j : Nat := 0) : State :=
  { s with regs := tput (BitVec.ofNat 32 r.reset) s.regs (r.addr i j) w }

/-- The bits `hi` to `lo` of a word. -/
def fieldGet (w : Word) (hi lo : Nat) : Nat := w.toNat / 2 ^ lo % 2 ^ (hi - lo + 1)

/-- The word with its bits `hi` to `lo` replaced by the low bits of `v`. -/
def fieldPut (w : Word) (hi lo v : Nat) : Word :=
  BitVec.ofNat 32 (2 ^ lo * (v % 2 ^ (hi - lo + 1)) + 2 ^ (hi + 1) * (w.toNat / 2 ^ (hi + 1)) + w.toNat % 2 ^ lo)

/-- A field of a register instance. -/
def State.f (s : State) (x : Fld) (i : Nat := 0) (j : Nat := 0) : Nat := fieldGet (s.word x.reg i j) x.hi x.lo

/-- A field of a register instance as a truth value. -/
def State.fb (s : State) (x : Fld) (i : Nat := 0) (j : Nat := 0) : Bool := s.f x i j != 0

/-- The instances that a field enables. -/
def State.enabled (s : State) (en : Fld) : List Nat := (List.range en.reg.count).filter (fun i => s.fb en i)

/-- A field read as a two's complement number. -/
def State.fs (s : State) (x : Fld) (i : Nat := 0) (j : Nat := 0) : Int := sgn (x.hi - x.lo + 1) (s.f x i j)

/-- The part writes a field of a register instance. -/
def State.setF (s : State) (x : Fld) (v : Nat) (i : Nat := 0) (j : Nat := 0) : State :=
  s.setWord x.reg (fieldPut (s.word x.reg i j) x.hi x.lo v) i j

/-- The part writes a field as a two's complement number, held to the field's range. -/
def State.setFs (s : State) (x : Fld) (v : Int) (i : Nat := 0) (j : Nat := 0) : State :=
  s.setF x (uns (x.hi - x.lo + 1) (satS (x.hi - x.lo + 1) v)) i j

/-- The part writes a truth value. -/
def State.setB (s : State) (x : Fld) (b : Bool) (i : Nat := 0) (j : Nat := 0) : State := s.setF x (b2n b) i j

/-- A counter field described as saturating. -/
def State.addSat (s : State) (x : Fld) (n : Nat := 1) (i : Nat := 0) (j : Nat := 0) : State :=
  s.setF x (satU (x.hi - x.lo + 1) (s.f x i j + n)) i j

/-- A counter field described as wrapping. -/
def State.addWrap (s : State) (x : Fld) (n : Nat := 1) (i : Nat := 0) (j : Nat := 0) : State :=
  s.setF x (s.f x i j + n) i j

/-- A 64-bit value held in a register pair (R9). -/
def State.pair (s : State) (lo hi : Reg) (i : Nat := 0) : Nat := (s.word lo i).toNat + 2 ^ 32 * (s.word hi i).toNat

/-- The part writes a register pair. -/
def State.setPair (s : State) (lo hi : Reg) (v : Nat) (i : Nat := 0) : State :=
  (s.setWord lo (BitVec.ofNat 32 v) i).setWord hi (BitVec.ofNat 32 (v / 2 ^ 32)) i

/-- A wrapping 64-bit counter in a register pair. -/
def State.addPair (s : State) (lo hi : Reg) (n : Nat := 1) (i : Nat := 0) : State :=
  s.setPair lo hi ((s.pair lo hi i + n) % 2 ^ 64) i

/-! ## Settings of an image -/

/-- Write a setting's word into its register: only the bits the image gives (type BL). The TIME_SNS_LATENCY registers of sensors 32 to 49
take no value from the image (R80). -/
def State.putSetting (s : State) (a : Nat × Nat) : State :=
  match regAt a.1 with
  | some (r, i, j) =>
    if r.bl = 0 ∨ (r = R.TIME_SNS_LATENCY ∧ 32 ≤ i) then s
    else
      let m := BitVec.ofNat 32 r.bl
      s.setWord r ((s.word r i j &&& ~~~m) ||| (BitVec.ofNat 32 a.2 &&& m)) i j
  | none => s

/-- Settings of an image take effect. -/
def State.putSettings (s : State) (l : List (Nat × Nat)) : State := l.foldl State.putSetting s

/-- The settings that wait for sensor `n` (its first frame), Sparge channel n − 64 (its first output instant) or Mill job n − 256 (its
first frame) take effect (R452). -/
def State.takeDeferred (s : State) (n : Nat) : State :=
  if s.sec.defer.isEmpty then s
  else
    let s' := (s.sec.defer.filter (fun e => e.1 == n)).foldl (fun s e => s.putSetting e.2) s
    { s' with sec.defer := s'.sec.defer.filter (fun e => e.1 != n) }

/-! ## Time -/

/-- Device time in nanoseconds: what records carry, the fraction truncated (R59). -/
def State.now (s : State) : Nat := s.tm.dev / 65536

/-- Time since the release of system reset, in nanoseconds of CLK_S. -/
def State.mono (s : State) : Nat := s.tm.tick * Config.clkSNs

/-- A register described as over the last 1 s takes the values that `set` gives it: at once, from shedding level 1 on every 10 s, from level 2 on not at
all (Table 13-6). -/
def State.tele (s : State) (r : Reg) (set : State → State) (i : Nat := 0) : State :=
  let at' := r.addr i 0
  match s.f F.DSP_COOPER_SHED_LEVEL with
  | 0 => set s
  | 1 =>
    if Nat.max (tget 0 s.dsp.tele at') s.dsp.shedAt + 10000000000 ≤ s.mono then
      let s := set s
      { s with dsp.tele := tput 0 s.dsp.tele at' s.mono }
    else s
  | _ => s

/-- The 12 bytes of a record timestamp: seconds u64, nanoseconds u32 (chapter 00). -/
def tsBytes (ns : Nat) : List Byte := leBytes 8 (ns / 1000000000) ++ leBytes 4 (ns % 1000000000)

/-! ## Pages and their frames -/

/-- The class of a region (Table 8-2). -/
def State.rgnClass (s : State) (r : Nat) : Nat := s.f F.MEM_RGN_CTL_CLASS r

/-- Whether a page migrates (Table 8-2): HOT or DEEP. -/
def State.migrates (s : State) (p : Page) : Bool := s.rgnClass p.rgn == 2 || s.rgnClass p.rgn == 3

/-- Whether a page is of a DEEP region, or of a HOT region backed as DEEP (R210). -/
def State.isDeep (s : State) (p : Page) : Bool := s.rgnClass p.rgn == 3 || s.mm.asDeep.contains p.rgn

/-- A page; a page's entry changes. -/
def State.pg (s : State) (page : Nat) : Page := tget {} s.mm.pages page
def State.setPg (s : State) (page : Nat) (p : Page) : State := { s with mm.pages := tput {} s.mm.pages page p }

/-- Bytes of one channel (Table 8-4), and its frames. -/
def State.chBytes (s : State) : Nat :=
  let d := s.f F.MEM_DDR_CFG_DENSITY
  (if d = 0 then 16 else if d = 1 then 24 else 32) * 2 ^ 30 * (s.f F.MEM_DDR_CFG_RANKS + 1)
def State.chFrames (s : State) : Nat := s.chBytes / 65536

/-- The channels in service: new frames are placed on these (state 1). -/
def State.chOn (s : State) : List Nat := (List.range 4).filter (fun c => s.f F.MEM_CH_STATE_STATE c == 1)

/-- Pages with a frame on a channel, the page table's copies among them. -/
def State.ptPages (s : State) : Nat := ceilDiv (8 * s.f F.MEM_PT_PAGES_PAGES) 65536
def State.chUsed (s : State) (c : Nat) : Nat :=
  (s.mm.pages.filter (fun e => e.2.ddr == some c)).length + (s.mm.pt.filter (· == c)).length * s.ptPages

/-- Free frames of a channel. -/
def State.chFree (s : State) (c : Nat) : Nat := s.chFrames - s.chUsed c - tget 0 s.mm.retired (4 + c)

/-- A new DDR frame (R208): the working channel with the most free frames, ties to the lowest number. -/
def State.newFrame (s : State) (but : Nat) : Option Nat :=
  bestBy (fun a b => decide (s.chFree b < s.chFree a)) (s.chOn.filter (fun c => c != but && decide (0 < s.chFree c)))

/-- An access of `n` 64-byte lines to a HOT or DEEP page (R220, R221): counted; a written page is newer than its copies below, and what is written to a
page that Cellar may still bring back stays (R204). A page without a DDR frame gets one: the access was held for it. -/
def State.touch (s : State) (page n : Nat) (write : Bool) : State :=
  let p := s.pg page
  if !(s.mm.pages.any (fun e => e.1 == page) && s.migrates p) then s
  else
    s.setPg page { p with ddr := if p.ddr.isNone then s.newFrame 4 else p.ddr, count := satU 8 (p.count + n),
                          hopDirty := p.hopDirty || (write && p.hop.isSome), stale := p.stale || write,
                          dirtyAt := if write && !p.stale then s.mono else p.dirtyAt }

/-- Whether a region is enabled, its first page, its length. -/
def State.rgnOn (s : State) (r : Nat) : Bool := s.fb F.MEM_RGN_CTL_ENABLE r
def State.rgnBase (s : State) (r : Nat) : Nat := s.f F.MEM_RGN_BASE_PAGE r
def State.rgnPages (s : State) (r : Nat) : Nat := s.f F.MEM_RGN_PAGES_PAGES r

/-- The entry of LNK_SHARED_RGN whose region holds a page (R430); none for a standalone part. -/
def State.sharedAt (s : State) (page : Nat) : Option Nat :=
  if s.f F.LNK_STATUS_ROLE = 0 then none
  else (List.range 32).find? (fun n =>
    let r := s.f F.LNK_SHARED_RGN_REGION n
    s.fb F.LNK_SHARED_RGN_ENABLE n && s.rgnOn r && decide (s.rgnBase r ≤ page) && decide (page < s.rgnBase r + s.rgnPages r))

/-- The part has stored `n` bytes from address `a`: the pages they lie in; until Cellar is ready, the bytes themselves; in a cascade, what falls into
SHARED pages and goes out before the next Tally advance (R430, log entry 90). -/
def State.markStore (s : State) (a n : Nat) : State :=
  if s.mm.pages.isEmpty || n == 0 then s
  else
    let s : State := if s.f F.MEM_CELLAR_STATUS_STATE < 3 then { s with mm.early := (a, n) :: s.mm.early } else s
    let out := (s.sharedAt (a / 65536)).isSome || (s.sharedAt ((a + n - 1) / 65536)).isSome
    let s : State := if out then { s with mm.fresh := s.mm.fresh ++ [(a, n)] } else s
    (List.range ((a + n - 1) / 65536 + 1 - a / 65536)).foldl (fun s k =>
      let page := a / 65536 + k
      let lo := Nat.max a (65536 * page)
      let hi := Nat.min (a + n) (65536 * page + 65536)
      s.touch page ((hi - 1) / 64 + 1 - lo / 64) true) s

/-! ## The unified map range -/

/-- One byte of the unified map range (48-bit addresses). -/
def State.rd (s : State) (a : Nat) : Byte := s.mem.read a

/-- `n` bytes of the unified map range. -/
def State.rdList (s : State) (a n : Nat) : List Byte := s.mem.readList a n

/-- A little-endian number of `n` bytes (R5). -/
def State.rdNum (s : State) (a n : Nat) : Nat := leValue (s.rdList a n)

/-- The poisoned run that holds a line (R223). -/
def State.poisonOf (s : State) (line : Nat) : Option Poison :=
  s.mm.poison.find? (fun p => decide (p.line ≤ line) && decide (line < p.line + p.n))

/-- Whether any of `n` bytes from address `a` lies in a poisoned line. -/
def State.poisoned (s : State) (a n : Nat) : Bool :=
  s.mm.poison.any (fun p => decide (64 * p.line < a + n) && decide (a < 64 * (p.line + p.n)))

/-- A line's poison is cleared. -/
def unpoison (line : Nat) (l : List Poison) : List Poison :=
  l.flatMap (fun p =>
    if p.line ≤ line ∧ line < p.line + p.n then
      (if p.line < line then [{ p with n := line - p.line }] else [])
        ++ (if line + 1 < p.line + p.n then [{ p with line := line + 1, n := p.line + p.n - line - 1 }] else [])
    else [p])

/-- The uncorrectable-error counter of a tier and unit (Tables 8-8, 8-12). -/
def State.countUe (s : State) (tier unit : Nat) : State :=
  match tier with
  | 3 => if unit < 2 then s.addSat F.MEM_HOP_UE_COUNT 1 unit else s
  | 4 => if unit < 4 then s.addSat F.MEM_CH_UE_COUNT 1 unit else s
  | 5 => s.addSat F.MEM_CELLAR_CRC_COUNT
  | 7 => s.addSat F.MEM_NOC_CRC_UE
  | _ => s.addSat F.MEM_SRAM_UE_COUNT

/-- The bytes that fall into one line are stored: a whole line clears its poison, part of a poisoned line is discarded and counted
(Table 8-8). -/
def State.wrLine (s : State) (a : Nat) (bs : List Byte) (line : Nat) : State :=
  let lo := Nat.max a (64 * line)
  let part := (bs.drop (lo - a)).take (64 * (line + 1) - lo)
  match s.poisonOf line with
  | none => { s with mem := s.mem.writeList lo part }
  | some p =>
    if part.length = 64 then { s with mem := s.mem.writeList lo part, mm.poison := unpoison line s.mm.poison }
    else s.countUe p.tier p.unit

/-- The part stores bytes; with poisoned lines about, line by line. The pages they lie in are newer than their copies below (R221). -/
def State.wrList (s : State) (a : Nat) (bs : List Byte) : State :=
  let s := s.markStore a bs.length
  if s.mm.poison.isEmpty then { s with mem := s.mem.writeList a bs }
  else if bs.isEmpty then s
  else (List.range ((a + bs.length - 1) / 64 + 1 - a / 64)).foldl (fun s k => s.wrLine a bs (a / 64 + k)) s

/-- Bytes are stored that came over Ramhel: they do not go out again. -/
def State.wrHere (s : State) (a : Nat) (bs : List Byte) : State := { s.wrList a bs with mm.fresh := s.mm.fresh }

/-- The part stores a little-endian number of `n` bytes (R5). -/
def State.wrNum (s : State) (a n v : Nat) : State := s.wrList a (leBytes n v)

/-! ## Free values and what the part drives outward -/

/-- The next free value. -/
def State.freeVal (s : State) : Nat := Config.freeNat s.free

/-- The next free integer. -/
def State.freeZ (s : State) : Int := Config.freeInt s.free

/-- The free value is used up. -/
def State.used (s : State) : State := { s with free := s.free + 1 }

/-- The part drives something onto an outside interface. -/
def State.emit (s : State) (o : Out) : State := { s with out := o :: s.out }

/-- A block publishes a record (R395): it waits for its copy into the rings and windows that name its source. -/
def State.publish (s : State) (kind source : Nat) (vision : Bool) (bytes : List Byte) (slot : Nat) : State :=
  { s with hst.outq := s.hst.outq ++ [{ kind := kind, source := source, vision := vision, bytes := bytes, slot := slot }] }

/-! ## Which commands reach a part that is not running -/

/-- Supplies up, reset released, neither in recovery nor halted: the start sequence or the service runs (Table 17-5). -/
def State.up (s : State) : Bool := s.pw.mode == .starting || s.pw.mode == .running

/-- Reset is released (Table 17-5). -/
def State.awake (s : State) : Bool := s.up || s.pw.mode == .recovery || s.pw.mode == .halted

/-- Whether the windows of every block answer: step 2 has completed (R43). -/
def State.loaded (s : State) : Bool := s.up && decide (2 ≤ s.f F.BOOT_STATUS_STAGE) && s.f F.BOOT_STATUS_STAGE != 15

/-- Whether a function's BARs are reachable: not in D3hot (Table 14-1). -/
def State.reach (s : State) (fn : Nat) : Bool := s.awake && !bitOf s.hst.d3 fn

/-- An effect that only a part with its units out of reset has. -/
def whenUp (f : State → State) (s : State) : State := if s.up then f s else s

/-- The same, where the effect also needs a condition. -/
def whenOn (c : Bool) (f : State → State) (s : State) : State := if s.up && c then f s else s

/-- A command's effect, as an outcome. -/
def done (s : State) : Host.Outcome State Fault Refusal := .next s

end Sys2Proof.Machine
end

