-- ==== Sys2Proof/Machine/Bounds.lean ====
section
/-!
DEFINITION. The ranges that the register descriptions give settings (R35): one row per field, generated from the register tables of the
chapters.
-/

namespace Sys2Proof.Machine
open Sys2Proof

/-- A range of a setting: the field, the field that enables its instance, whether 0 is allowed beside the range, the range. -/
structure Bound where
  fld : Fld
  en : Option Fld
  zero : Bool
  lo : Nat
  hi : Nat

/-- Ranges of window 0x1. -/
def bounds1_0 : List Bound :=
  [⟨F.BOOT_PTP_WAIT_MS, none, false, 0, 30000⟩]

/-- Ranges of window 0x2. -/
def bounds2_0 : List Bound :=
  [⟨F.TIME_D_CFG_ANN_TIMEOUT, some F.TIME_D_CFG_ENABLE, false, 2, 3⟩,
   ⟨F.TIME_D_CFG_PROFILE, some F.TIME_D_CFG_ENABLE, false, 0, 2⟩,
   ⟨F.TIME_D_CFG_DOMAIN, some F.TIME_D_CFG_ENABLE, false, 0, 127⟩,
   ⟨F.TIME_D_QUAL_CLASS_MAX, some F.TIME_D_CFG_ENABLE, false, 6, 255⟩,
   ⟨F.TIME_SWITCH_CFG_HOLDOFF_S, none, false, 1, 600⟩,
   ⟨F.TIME_HOLD_CFG_LIMIT_S, none, false, 10, 86400⟩,
   ⟨F.TIME_CAP_CTL_EDGE, some F.TIME_CAP_CTL_ENABLE, false, 1, 3⟩,
   ⟨F.TIME_SNS_STATE_BOUND, none, false, 4, 32⟩,
   ⟨F.TIME_SNS_LATENCY_NS, none, false, 0, 1000000000⟩]

/-- Ranges of window 0x3. -/
def bounds3_0 : List Bound :=
  [⟨F.ING_ST_CTL_PT, some F.ING_ST_CTL_ENABLE, false, 96, 127⟩,
   ⟨F.ING_ST_CTL_SAMPLING, some F.ING_ST_CTL_ENABLE, false, 0, 2⟩,
   ⟨F.ING_SNS_GEOM_HEIGHT, some F.ING_SNS_SRC_ENABLE, false, 1, 4096⟩,
   ⟨F.ING_SNS_GEOM_WIDTH, some F.ING_SNS_SRC_ENABLE, false, 64, 4096⟩,
   ⟨F.ING_SNS_FMT_CFA, some F.ING_SNS_SRC_ENABLE, false, 0, 6⟩,
   ⟨F.ING_SNS_PERIOD_NS, some F.ING_SNS_SRC_ENABLE, false, 100000, 4000000000⟩,
   ⟨F.ING_SNS_RING_CFG_SLOTS, some F.ING_SNS_SRC_ENABLE, false, 4, 64⟩]

/-- Ranges of window 0x4. -/
def bounds4_0 : List Bound :=
  [⟨F.SPG_CH_CTL_MEDIAN, some F.SPG_CH_CTL_ENABLE, false, 0, 4⟩,
   ⟨F.SPG_CH_CTL_ORDER, some F.SPG_CH_CTL_ENABLE, false, 1, 3⟩,
   ⟨F.SPG_CH_CTL_RATIO, some F.SPG_CH_CTL_ENABLE, false, 0, 4⟩,
   ⟨F.SPG_CH_SRC_BYTE, some F.SPG_CH_CTL_ENABLE, false, 0, 63⟩,
   ⟨F.SPG_CH_SRC_WIDTH, some F.SPG_CH_CTL_ENABLE, false, 1, 32⟩,
   ⟨F.SPG_CH_RING_CFG_LEN, some F.SPG_CH_CTL_ENABLE, false, 0, 6⟩,
   ⟨F.SPG_FIR_LEN_M, none, false, 3, 63⟩,
   ⟨F.SPG_SPI_CTL_CHECK, some F.SPG_SPI_CTL_ENABLE, false, 0, 2⟩,
   ⟨F.SPG_SPI_CTL_CLK_DIV, some F.SPG_SPI_CTL_ENABLE, false, 9, 255⟩,
   ⟨F.SPG_SPI_CTL_LEN, some F.SPG_SPI_CTL_ENABLE, false, 1, 32⟩,
   ⟨F.SPG_SPI_WAIT_CMD_LEN, some F.SPG_SPI_CTL_ENABLE, false, 0, 4⟩,
   ⟨F.SPG_SSI_CTL_ERR_BITS, some F.SPG_SSI_CTL_ENABLE, false, 0, 4⟩,
   ⟨F.SPG_SSI_CTL_BITS, some F.SPG_SSI_CTL_ENABLE, false, 10, 40⟩,
   ⟨F.SPG_SSI_CTL_CLK_KHZ, some F.SPG_SSI_CTL_ENABLE, false, 100, 4000⟩,
   ⟨F.SPG_CAN_RATE_DATA_KBPS, some F.SPG_CAN_CTL_ENABLE, false, 1000, 8000⟩,
   ⟨F.SPG_CAN_RATE_NOM_KBPS, some F.SPG_CAN_CTL_ENABLE, false, 125, 1000⟩,
   ⟨F.SPG_CAN_TX_DLC_DLC, some F.SPG_CAN_CTL_ENABLE, false, 0, 8⟩]

/-- Ranges of window 0x5. -/
def bounds5_0 : List Bound :=
  [⟨F.MILL_SNS_CTL_LEVELS, some F.MILL_SNS_CTL_ENABLE, false, 0, 5⟩,
   ⟨F.MILL_SNS_CTL_GRID, some F.MILL_SNS_CTL_ENABLE, false, 0, 2⟩,
   ⟨F.MILL_SNS_CTL_OUT_FRAMES, some F.MILL_SNS_CTL_ENABLE, false, 1, 8⟩,
   ⟨F.MILL_SNS_GEOM_OUT_W, some F.MILL_SNS_CTL_ENABLE, false, 64, 4096⟩,
   ⟨F.MILL_SNS_CORNER_ARC, some F.MILL_SNS_CTL_ENABLE, false, 9, 12⟩,
   ⟨F.MILL_SNS_CORNER_CELL, some F.MILL_SNS_CTL_ENABLE, false, 0, 2⟩,
   ⟨F.MILL_SNS_CORNER_PER_CELL, some F.MILL_SNS_CTL_ENABLE, false, 1, 15⟩,
   ⟨F.MILL_SNS_CORNER_MAX_MAX, some F.MILL_SNS_CTL_ENABLE, false, 1, 8192⟩,
   ⟨F.MILL_SNS_KLT_WIN, some F.MILL_SNS_CTL_ENABLE, false, 5, 31⟩,
   ⟨F.MILL_SNS_KLT_KLT_LEVELS, some F.MILL_SNS_CTL_ENABLE, false, 1, 5⟩,
   ⟨F.MILL_SNS_KLT_ITER_MAX, some F.MILL_SNS_CTL_ENABLE, false, 1, 31⟩,
   ⟨F.MILL_SNS_KLT_MARGIN, some F.MILL_SNS_CTL_ENABLE, false, 16, 512⟩,
   ⟨F.MILL_SNS_KLT_MAXTRK_TRACK_MAX, some F.MILL_SNS_CTL_ENABLE, false, 1, 4096⟩,
   ⟨F.MILL_SGM_CTL_LEVEL, some F.MILL_SGM_CTL_ENABLE, false, 0, 2⟩,
   ⟨F.MILL_SGM_CTL_OUT_FRAMES, some F.MILL_SGM_CTL_ENABLE, false, 1, 7⟩,
   ⟨F.MILL_SGM_RANGE_DNUM, some F.MILL_SGM_CTL_ENABLE, false, 8, 1024⟩,
   ⟨F.MILL_SGM_PEN_P1, some F.MILL_SGM_CTL_ENABLE, false, 1, 62⟩,
   ⟨F.MILL_SGM_UNIQ_UNIQ, some F.MILL_SGM_CTL_ENABLE, false, 0, 64⟩,
   ⟨F.MILL_FLOW_CTL_LEVELS, some F.MILL_FLOW_CTL_ENABLE, false, 1, 5⟩,
   ⟨F.MILL_FLOW_CTL_LEVEL, some F.MILL_FLOW_CTL_ENABLE, false, 0, 2⟩,
   ⟨F.MILL_FLOW_CTL_ITER, some F.MILL_FLOW_CTL_ENABLE, false, 1, 8⟩,
   ⟨F.MILL_FLOW_CTL_OUT_FRAMES, some F.MILL_FLOW_CTL_ENABLE, false, 1, 8⟩]

/-- Ranges of window 0x6. -/
def bounds6_0 : List Bound :=
  [⟨F.TNS_FIT_LIMIT_LIMIT, none, false, 32768, 64225⟩,
   ⟨F.TNS_SPILL_BW_GBPS, none, false, 0, 120⟩,
   ⟨F.TNS_HOPPER_WEIGHTS_MIB, none, false, 0, 192⟩,
   ⟨F.TNS_NET_CTL_PREFETCH, some F.TNS_NET_CTL_ENABLE, false, 1, 8⟩,
   ⟨F.TNS_INS_CTL_OUT_FRAMES, some F.TNS_INS_CTL_ENABLE, false, 1, 8⟩,
   ⟨F.TNS_INS_KP_MAX_BAND, some F.TNS_INS_CTL_ENABLE, false, 1, 4095⟩]

/-- Ranges of window 0x7. -/
def bounds7_0 : List Bound :=
  [⟨F.MEM_DDR_CFG_DENSITY, none, false, 0, 2⟩,
   ⟨F.MEM_DDR_CFG_RANKS, none, false, 0, 1⟩,
   ⟨F.MEM_SCRUB_DDR_HOURS, none, false, 1, 168⟩,
   ⟨F.MEM_SCRUB_SRAM_S, none, false, 1, 3600⟩,
   ⟨F.MEM_CE_LIMIT_LIMIT, none, false, 16, 65535⟩,
   ⟨F.MEM_MIG_CFG_MIG_BW, none, false, 8, 96⟩,
   ⟨F.MEM_MIG_CFG_HYST, none, false, 5, 15⟩,
   ⟨F.MEM_MIG_CFG_LOW_WATER, none, false, 1, 15⟩,
   ⟨F.MEM_MIG_CFG_PERIOD_US, none, false, 100, 10000⟩,
   ⟨F.MEM_WB_AGE_S, none, false, 1, 600⟩,
   ⟨F.MEM_CELLAR_CFG_QUEUES, none, false, 1, 16⟩,
   ⟨F.MEM_CELLAR_CFG_TIMEOUT_MS, none, false, 100, 2000⟩,
   ⟨F.MEM_RGN_PAGES_PAGES, some F.MEM_RGN_CTL_ENABLE, false, 1, 134217728⟩,
   ⟨F.MEM_RGN_CTL_CLASS, some F.MEM_RGN_CTL_ENABLE, false, 0, 5⟩]

/-- Ranges of window 0x8. -/
def bounds8_0 : List Bound :=
  [⟨F.FRM_LM_CACHE_ENTRIES, none, false, 0, 16777216⟩,
   ⟨F.FRM_LM_CAP_ENTRIES, none, false, 0, 1073741824⟩,
   ⟨F.FRM_SES_CTL_INIT_MODE, some F.FRM_SES_CTL_ENABLE, false, 0, 2⟩,
   ⟨F.FRM_SES_CTL_BIRTH_SRC, some F.FRM_SES_CTL_ENABLE, false, 0, 2⟩,
   ⟨F.FRM_SES_CTL_WINDOW, some F.FRM_SES_CTL_ENABLE, false, 4, 15⟩,
   ⟨F.FRM_SES_CTL_PROP_DIV, some F.FRM_SES_CTL_ENABLE, false, 0, 64⟩,
   ⟨F.FRM_SES_TRACK_TRACKS_MAX, some F.FRM_SES_CTL_ENABLE, false, 1, 4095⟩,
   ⟨F.FRM_SES_TRACK_CELL_TRACKS, some F.FRM_SES_CTL_ENABLE, false, 1, 15⟩,
   ⟨F.FRM_SES_TRACK_MISS_MAX, some F.FRM_SES_CTL_ENABLE, false, 1, 8⟩,
   ⟨F.FRM_SES_TRACK_CONFIRM_FRAMES, some F.FRM_SES_CTL_ENABLE, false, 2, 60⟩,
   ⟨F.FRM_SES_ASSOC_DESC_THR, some F.FRM_SES_CTL_ENABLE, false, 1, 255⟩,
   ⟨F.FRM_SES_ASSOC_PARALLAX, some F.FRM_SES_CTL_ENABLE, false, 1, 100⟩,
   ⟨F.FRM_SES_KF_KF_MIN_FRAMES, some F.FRM_SES_CTL_ENABLE, false, 1, 60⟩,
   ⟨F.FRM_SES_KF2_KF_MAX_MS, some F.FRM_SES_CTL_ENABLE, false, 100, 10000⟩,
   ⟨F.FRM_SES_LOST_LOST_STEPS, some F.FRM_SES_CTL_ENABLE, false, 1, 60⟩,
   ⟨F.FRM_SES_LOST_LOST_MIN, some F.FRM_SES_CTL_ENABLE, false, 4, 255⟩,
   ⟨F.FRM_SES_LOST_COAST_MS, some F.FRM_SES_CTL_ENABLE, false, 0, 10000⟩,
   ⟨F.FRM_SES_RELOC_RELOC_HZ, some F.FRM_SES_CTL_ENABLE, false, 1, 30⟩,
   ⟨F.FRM_SES_RELOC_RELOC_INLIERS, some F.FRM_SES_CTL_ENABLE, false, 10, 255⟩,
   ⟨F.FRM_SES_RELOC_RELOC_K, some F.FRM_SES_CTL_ENABLE, false, 1, 15⟩,
   ⟨F.FRM_SES_QUAL_QUAL_N, some F.FRM_SES_CTL_ENABLE, false, 1, 65535⟩,
   ⟨F.FRM_SES_GATE_GATE_RESET, some F.FRM_SES_CTL_ENABLE, false, 2, 16⟩,
   ⟨F.FRM_SES_GATE_CORR_RATE, some F.FRM_SES_CTL_ENABLE, false, 1, 1000⟩,
   ⟨F.FRM_SES_INIT_INIT_MS, some F.FRM_SES_CTL_ENABLE, false, 500, 30000⟩]

/-- Ranges of window 0x9. -/
def bounds9_0 : List Bound :=
  [⟨F.KTL_CHECK_CHECK, none, false, 20, 50⟩,
   ⟨F.KTL_REFINE_REFINE_MAX, none, false, 0, 8⟩,
   ⟨F.KTL_PG_GAP_MS, none, false, 0, 60000⟩,
   ⟨F.KTL_PROB_CTL_KIND, some F.KTL_PROB_CTL_ENABLE, false, 0, 5⟩,
   ⟨F.KTL_PROB_CTL_CLASS, some F.KTL_PROB_CTL_ENABLE, false, 0, 4⟩,
   ⟨F.KTL_PROB_CTL_ITER_MAX, some F.KTL_PROB_CTL_ENABLE, false, 1, 63⟩,
   ⟨F.KTL_PROB_CTL_OUT_FRAMES, some F.KTL_PROB_CTL_ENABLE, false, 1, 15⟩,
   ⟨F.KTL_DEADLINE_US, none, true, 100, 16777215⟩,
   ⟨F.KTL_PROB_TOL_TOL_G, some F.KTL_PROB_CTL_ENABLE, false, 8, 60⟩,
   ⟨F.KTL_PROB_TOL_TOL_X, some F.KTL_PROB_CTL_ENABLE, false, 8, 60⟩,
   ⟨F.KTL_PROB_TOL_TOL_F, some F.KTL_PROB_CTL_ENABLE, false, 8, 60⟩,
   ⟨F.KTL_PROB_TOL_LAMBDA0, some F.KTL_PROB_CTL_ENABLE, false, 0, 40⟩,
   ⟨F.KTL_PROB_KERNEL_KERNEL, some F.KTL_PROB_CTL_ENABLE, false, 0, 2⟩,
   ⟨F.KTL_PROB_WINDOW_BAND, some F.KTL_PROB_CTL_ENABLE, false, 2, 64⟩,
   ⟨F.KTL_PROB_WINDOW_WINDOW_KF, some F.KTL_PROB_CTL_ENABLE, false, 4, 400⟩,
   ⟨F.KTL_PROB_RANSAC_HYP_MAX, some F.KTL_PROB_CTL_ENABLE, false, 16, 4095⟩,
   ⟨F.KTL_PROB_RANSAC_LOOP_INLIERS, some F.KTL_PROB_CTL_ENABLE, false, 10, 255⟩,
   ⟨F.KTL_PROB_RANSAC_INLIER_PX, some F.KTL_PROB_CTL_ENABLE, false, 1, 255⟩,
   ⟨F.KTL_PROB_REORDER_REORDER, some F.KTL_PROB_CTL_ENABLE, false, 256, 2048⟩,
   ⟨F.KTL_BODY_CTL_LINKS, some F.KTL_BODY_CTL_ENABLE, false, 1, 64⟩]

/-- Ranges of window 0xa. -/
def boundsA_0 : List Bound :=
  [⟨F.KLN_LOAD_BW_GBPS, none, false, 4, 64⟩,
   ⟨F.KLN_RELOC_REL_ITERS, none, false, 1, 15⟩,
   ⟨F.KLN_RELOC_REL_LEVEL, none, false, 0, 2⟩,
   ⟨F.KLN_MAP_CTL_REFINE_ITERS, some F.KLN_MAP_CTL_ENABLE, false, 1, 15⟩,
   ⟨F.KLN_MAP_CTL_REFINE_LEVEL, some F.KLN_MAP_CTL_ENABLE, false, 0, 2⟩,
   ⟨F.KLN_MAP_CTL_DENSIFY_KF, some F.KLN_MAP_CTL_ENABLE, false, 1, 255⟩,
   ⟨F.KLN_MAP_SIZE_ACTIVE_BLOCKS, some F.KLN_MAP_CTL_ENABLE, false, 1, 2048⟩,
   ⟨F.KLN_MAP_SIZE_MAP_BLOCKS, some F.KLN_MAP_CTL_ENABLE, false, 1, 32768⟩,
   ⟨F.KLN_MAP_CELL_CELL_CM, some F.KLN_MAP_CTL_ENABLE, false, 10, 1000⟩,
   ⟨F.KLN_MAP_CELL_RANGE_M, some F.KLN_MAP_CTL_ENABLE, false, 1, 1000⟩,
   ⟨F.KLN_MAP_SEED_SEED_STRIDE, some F.KLN_MAP_CTL_ENABLE, false, 4, 64⟩,
   ⟨F.KLN_VIEW_CTL_OUT_FRAMES, some F.KLN_VIEW_CTL_ENABLE, false, 1, 8⟩,
   ⟨F.KLN_VIEW_CTL_RATE_DIV, some F.KLN_VIEW_CTL_ENABLE, false, 0, 64⟩,
   ⟨F.KLN_VIEW_GEOM_HEIGHT, some F.KLN_VIEW_CTL_ENABLE, false, 64, 4096⟩,
   ⟨F.KLN_VIEW_GEOM_WIDTH, some F.KLN_VIEW_CTL_ENABLE, false, 64, 4096⟩,
   ⟨F.KLN_VIEW_DEADLINE_US, some F.KLN_VIEW_CTL_ENABLE, true, 100, 1000000⟩,
   ⟨F.KLN_VIEW_LIMIT_TILE_MAX, some F.KLN_VIEW_CTL_ENABLE, false, 256, 4096⟩,
   ⟨F.KLN_VIEW_LIMIT_INST_K, some F.KLN_VIEW_CTL_ENABLE, false, 1, 16384⟩]

/-- Ranges of window 0xb. -/
def boundsB_0 : List Bound :=
  [⟨F.CSK_DDR_BW_GBPS, none, false, 8, 128⟩,
   ⟨F.CSK_COMPACT_RATE, none, false, 1, 65535⟩,
   ⟨F.CSK_LOOP_LOOP_K, none, false, 1, 64⟩,
   ⟨F.CSK_IDX_CTL_FORM, some F.CSK_IDX_CTL_ENABLE, false, 0, 2⟩,
   ⟨F.CSK_IDX_CTL_ENTRY, some F.CSK_IDX_CTL_ENABLE, false, 1, 64⟩,
   ⟨F.CSK_IDX_SEARCH_EF, some F.CSK_IDX_CTL_ENABLE, false, 1, 64⟩,
   ⟨F.CSK_IDX_SEARCH_WIDTH, some F.CSK_IDX_CTL_ENABLE, false, 1, 8⟩,
   ⟨F.CSK_IDX_SEARCH_LUT_SHIFT, some F.CSK_IDX_CTL_ENABLE, false, 0, 7⟩,
   ⟨F.CSK_IDX_SEARCH_NODE_MAX, some F.CSK_IDX_CTL_ENABLE, false, 64, 65535⟩,
   ⟨F.CSK_IDX_INSERT_EF_INS, some F.CSK_IDX_CTL_ENABLE, false, 1, 64⟩,
   ⟨F.CSK_IDX_DEADLINE_US, some F.CSK_IDX_CTL_ENABLE, false, 100, 1000000⟩,
   ⟨F.CSK_IDX_TIMEOUT_SHARD_US, some F.CSK_IDX_CTL_ENABLE, false, 100, 100000⟩,
   ⟨F.CSK_Q_CTL_KIND, some F.CSK_Q_CTL_ENABLE, false, 0, 1⟩,
   ⟨F.CSK_Q_CTL_LOG2_LEN, some F.CSK_Q_CTL_ENABLE, false, 4, 10⟩]

/-- Ranges of window 0xc. -/
def boundsC_0 : List Bound :=
  [⟨F.DSP_TASK_LIMIT_US, none, false, 1000, 10000000⟩,
   ⟨F.DSP_WAIT_LIMIT_S, none, false, 1, 600⟩,
   ⟨F.DSP_ST_CFG_CYCLE_S, none, false, 60, 600⟩,
   ⟨F.DSP_ST_CFG_CAL_MS, none, false, 200, 60000⟩,
   ⟨F.DSP_COOPER_CFG_SHED_PCT, none, false, 60, 90⟩]

/-- Ranges of window 0xd. -/
def boundsD_0 : List Bound :=
  [⟨F.HST_MBX_CFG_TIMEOUT_MS, none, false, 10, 100⟩,
   ⟨F.HST_MAP_CFG_CTRL_RATE, none, false, 100, 20000⟩,
   ⟨F.HST_RING_CTL_LOG2_LEN, some F.HST_RING_CTL_ENABLE, false, 4, 15⟩,
   ⟨F.HST_RING_IRQ_IRQ_TH, some F.HST_RING_CTL_ENABLE, false, 1, 32768⟩,
   ⟨F.HST_AP_PAGES_PAGES, none, false, 0, 65536⟩,
   ⟨F.HST_STR_CTL_BATCH, some F.HST_STR_CTL_ENABLE, false, 1, 5⟩,
   ⟨F.HST_PORT_NET_PREFIX, none, false, 0, 32⟩,
   ⟨F.HST_PORT_MAP_MAP_MBPS, none, false, 100, 20000⟩,
   ⟨F.HST_ACL_CTL_PREFIX, some F.HST_ACL_CTL_ENABLE, false, 0, 32⟩]

/-- Ranges of window 0xe. -/
def boundsE_0 : List Bound :=
  [⟨F.LNK_CFG_N_M1, some F.LNK_CFG_ENABLE, false, 1, 15⟩,
   ⟨F.LNK_TIMING_HB_US, none, false, 20, 50⟩,
   ⟨F.LNK_TIMING_RETRAIN_MS, none, false, 10, 1000⟩,
   ⟨F.LNK_BW_RESYNC_GBPS, none, false, 8, 96⟩,
   ⟨F.LNK_PORT_UCW_LIMIT_LIMIT, some F.LNK_PORT_CTL_ENABLE, false, 1, 65535⟩]

/-- Ranges of window 0xf. -/
def boundsF_0 : List Bound :=
  [⟨F.SEC_UPD_CFG_UPDATE_MIB, none, false, 64, 1024⟩]

/-- Ranges of window 0x10. -/
def bounds10_0 : List Bound :=
  [⟨F.PWR_THERM_CFG_WARN_OFFSET, none, false, 2, 15⟩]

/-- Every range, with its window. -/
def allBounds : List (Nat × List Bound) :=
  [(1, bounds1_0), (2, bounds2_0), (3, bounds3_0), (4, bounds4_0), (5, bounds5_0), (6, bounds6_0), (7, bounds7_0), (8, bounds8_0), (9, bounds9_0), (10, boundsA_0), (11, boundsB_0), (12, boundsC_0), (13, boundsD_0), (14, boundsE_0), (15, boundsF_0), (16, bounds10_0)]

/-- Whether every instance of a field that is enabled lies within its range. -/
def State.within (s : State) (b : Bound) : Bool :=
  let r := b.fld.reg
  (List.range r.count).all (fun i =>
    let on : Bool := match b.en with | some e => s.fb e i | none => true
    !on || (List.range r.count2).all (fun j =>
      let v := s.f b.fld i j
      (b.zero && v == 0) || (decide (b.lo ≤ v) && decide (v ≤ b.hi))))

/-- The window of the first field outside its range. -/
def State.rangeFault (s : State) : Option Nat := (allBounds.find? (fun e => !e.2.all s.within)).map (·.1)

end Sys2Proof.Machine
end

