-- ==== Sys2Proof/Machine/Flags.lean ====
section
/-!
DEFINITION. Status codes and their priority (Table 0-5, R12), the _EVT registers, and the severity of an event (R386).
-/

namespace Sys2Proof.Machine
open Sys2Proof

/-! ## Status codes (Table 0-5) -/

def St.ok : Nat := 0x00
def St.partial : Nat := 0x01
def St.late : Nat := 0x02
def St.short : Nat := 0x03
def St.conflict : Nat := 0x04
def St.cold : Nat := 0x05
def St.degraded : Nat := 0x06
def St.held : Nat := 0x07
def St.timeSlip : Nat := 0x08
def St.invalidInput : Nat := 0x09
def St.notConverged : Nat := 0x0A
def St.lost : Nat := 0x0B
def St.relocalised : Nat := 0x0C
def St.pending : Nat := 0x0D

/-- The order of R12: the first of these that applies is the status. -/
def St.order : List Nat :=
  [St.lost, St.relocalised, St.invalidInput, St.conflict, St.held, St.timeSlip, St.notConverged, St.degraded, St.late, St.cold,
   St.partial, St.short]

/-- The status of a result to which the conditions `cs` apply (R12). -/
def statusOf (cs : List Nat) : Nat := (St.order.find? (fun c => cs.contains c)).getD St.ok

/-- The conditions that apply, from a list of code and truth. -/
def condsOf (l : List (Nat × Bool)) : List Nat := (l.filter (·.2)).map (·.1)

/-- The _EVT bit of a block that names a condition (the blocks' register tables). -/
def hiddenBit : Nat → Nat → Option Nat
  | 0x5, c => if c = St.degraded then some 1 else none
  | 0x6, c => if c = St.degraded then some 3 else none
  | 0x8, c => if c = St.conflict then some 2 else if c = St.held then some 4 else if c = St.timeSlip then some 5 else none
  | 0x9, c => if c = St.degraded then some 10 else if c = St.late then some 2 else none
  | 0xA, c => if c = St.degraded then some 8 else none
  | 0xB, c => if c = St.degraded then some 2 else none
  | _, _ => none

/-- The conditions that a status hides (R12). -/
def hiddenOf (conds : List Nat) : List Nat := conds.eraseDups.filter (fun c => c != statusOf conds)

/-! ## The _EVT registers -/

/-- The _EVT register of a BAR0 window (Table 14-3). -/
def evtReg : Nat → Option Reg
  | 0x1 => some R.BOOT_EVT
  | 0x2 => some R.TIME_EVT
  | 0x3 => some R.ING_EVT
  | 0x4 => some R.SPG_EVT
  | 0x5 => some R.MILL_EVT
  | 0x6 => some R.TNS_EVT
  | 0x7 => some R.MEM_EVT
  | 0x8 => some R.FRM_EVT
  | 0x9 => some R.KTL_EVT
  | 0xA => some R.KLN_EVT
  | 0xB => some R.CSK_EVT
  | 0xC => some R.DSP_EVT
  | 0xD => some R.HST_EVT
  | 0xE => some R.LNK_EVT
  | 0xF => some R.SEC_EVT
  | 0x10 => some R.PWR_EVT
  | _ => none

/-- The part sets a bit of a source's _EVT register. -/
def State.setEvt (s : State) (src bit : Nat) : State :=
  match evtReg src with
  | some r => s.setWord r (s.word r ||| BitVec.ofNat 32 (2 ^ bit))
  | none => s

/-! Codes from 0x0100 name events with no _EVT bit (Table 13-7). -/
def Ev.start : Nat := 0x100
def Ev.restart : Nat := 0x101
def Ev.halt : Nat := 0x102
def Ev.tallySaturated : Nat := 0x103
def Ev.advanceDropped : Nat := 0x104
def Ev.stepLimit : Nat := 0x105
def Ev.migratedInHopper : Nat := 0x106

/-- The ERROR codes of R386: the source and the code. -/
def errorCodes : List (Nat × Nat) :=
  [(0x5, 1), (0x6, 3), (0x9, 10), (0xA, 8), (0xB, 2), (0xC, 2),
   (0x7, 3), (0x7, 9), (0x7, 8), (0x7, 7), (0x7, 0),
   (0xC, 0), (0xC, 5), (0xC, 6), (0xC, 9), (0xC, 8),
   (0xF, 8), (0x10, 3), (0x10, 0)]

/-- The INFO codes of R386: the source and the code. -/
def infoCodes : List (Nat × Nat) :=
  [(0x1, 0), (0x2, 1), (0x2, 0), (0x3, 0), (0x7, 2), (0x7, 1), (0x8, 7), (0x9, 5),
   (0x5, 7), (0x6, 6), (0x9, 9), (0xA, 7), (0xB, 7), (0xC, 3)]

/-- The severity of an event (R386): 3 FATAL, 2 ERROR, 1 WARNING, 0 INFO. -/
def severity (src code : Nat) : Nat :=
  if code = Ev.restart ∨ code = Ev.halt then 3
  else if code = Ev.tallySaturated ∨ code = Ev.stepLimit ∨ errorCodes.contains (src, code) then 2
  else if infoCodes.contains (src, code) then 0
  else 1

end Sys2Proof.Machine
end

