-- ==== Sys2Proof/Machine/Ring.lean ====
section
/-!
DEFINITION. The cascade ring as the blocks use it (R353, R354, R417–R420, R425, R428, R430): this part's identity and role, who is a
member in force, who holds a shard, routes, and the sending of frames.
-/

namespace Sys2Proof.Machine
open Sys2Proof

/-- Cascade identity of the part (0 standalone). -/
def State.deviceId (s : State) : Nat := s.f F.LNK_STATUS_MY_ID

/-- The role of LNK_STATUS: 0 standalone, 1 master, 2 standby, 3 member, 4 ISOLATED. -/
def State.role (s : State) : Nat := s.f F.LNK_STATUS_ROLE

/-- Whether the part takes part in a ring. -/
def State.inCascade (s : State) : Bool := s.role == 1 || s.role == 2 || s.role == 3

/-- N of the cascade block. -/
def State.ringN (s : State) : Nat := s.f F.LNK_CFG_N_M1 + 1

/-- Whether a member is in the ring: this part itself, or one whose state is IN. -/
def State.memberIn (s : State) (id : Nat) : Bool :=
  id == s.deviceId || (s.inCascade && decide (id < 16) && s.f F.LNK_MBR_STATE_STATE id == 3)

/-- Who holds a shard of `n` (R353, R354): its primary, or its replica where the primary is lost; the answer says whether it is the
replica. -/
def State.holder (s : State) (n shard : Nat) (replicas : Bool) : Option (Nat × Bool) :=
  if s.memberIn shard then some (shard, false)
  else if replicas && s.memberIn ((shard + 1) % n) then some ((shard + 1) % n, true)
  else none

/-! ## Ports and routes (R413, R417, R420, R423) -/

/-- A Ramhel port. -/
def State.linkPort (s : State) (p : Nat) : LinkPort := tget {} s.lnk.ports p
def State.setLinkPort (s : State) (p : Nat) (x : LinkPort) : State := { s with lnk.ports := tput {} s.lnk.ports p x }

/-- Whether a port is UP. -/
def State.portUp (s : State) (p : Nat) : Bool := decide (p < 2) && s.f F.LNK_PORT_STATUS_STATE p == 7

/-- Links to a member over a port: port 1 leads to member i + 1, port 0 to member i − 1; the span between N − 1 and 0 is absent in a
chain. -/
def State.linksOver (s : State) (port dst : Nat) : Option Nat :=
  let n := s.ringN
  let me := s.deviceId
  let d := if port = 1 then (dst + n - me) % n else (me + n - dst) % n
  let wraps := if port = 1 then decide (dst < me) else decide (me < dst)
  if d = 0 ∨ n ≤ dst ∨ !s.portUp port ∨ (s.fb F.LNK_CFG_CHAIN ∧ wraps) then none else some d

/-- The route to a member: the fewest links, ties to port 1 (R420), over a port that is UP (R423). -/
def State.route (s : State) (dst : Nat) : Option (Nat × Nat) :=
  match s.linksOver 1 dst, s.linksOver 0 dst with
  | some a, some b => if b < a then some (0, b) else some (1, a)
  | some a, none => some (1, a)
  | none, some b => some (0, b)
  | none, none => none

/-- A frame is put on a link: the next sequence number, into the replay buffer, sent while 256 are not exceeded (R417). -/
def State.txFrame (s : State) (port dst links : Nat) (b : Body) (src : Option Nat := none) : State :=
  if !s.portUp port then s
  else
    let x := s.linkPort port
    let h : FrameHdr := { port := port, src := src.getD s.deviceId, dst := dst, epoch := s.f F.LNK_RING_EPOCH_EPOCH % 256, seq := x.tx,
                          ack := (x.rx + 65535) % 65536, links := links }
    let s := s.setLinkPort port { x with tx := (x.tx + 1) % 65536, replay := x.replay ++ [(h, b)] }
    if x.replay.length < 256 then s.emit (.frame h b) else s

/-- A frame goes to one member over its route. -/
def State.txTo (s : State) (dst : Nat) (b : Body) : State :=
  match s.route dst with
  | some (p, l) => s.txFrame p dst (l - 1) b
  | none => s

/-- A frame goes to every member over both ports. -/
def State.txAll (s : State) (b : Body) : State :=
  (s.txFrame 0 0xFF (s.ringN - 2) b).txFrame 1 0xFF (s.ringN - 2) b

/-! ## Exactly-once frames (R419) -/

/-- The other members in the ring. -/
def State.others (s : State) : List Nat := (List.range s.ringN).filter (fun i => i != s.deviceId && s.memberIn i)

/-- A frame that is kept until acknowledged goes out under the next e2e_seq of its destination and class. -/
def State.sendKept (s : State) (dst cls : Nat) (mk : Nat → Body) : State :=
  let n := tget 0 s.lnk.e2e (dst * 4 + cls)
  let owed := if dst = 0xFF then s.others else [dst]
  let s : State := { s with lnk.e2e := tput 0 s.lnk.e2e (dst * 4 + cls) ((n + 1) % 2 ^ 32),
                            lnk.sent := s.lnk.sent ++ [{ dst := dst, cls := cls, seq := n, body := mk n, owed := owed }] }
  if dst = 0xFF then s.txAll (mk n) else s.txTo dst (mk n)

/-- A message goes to another member. -/
def State.sendMsg (s : State) (dst cls : Nat) (m : Msg) : State := s.sendKept dst cls (fun n => .msg n cls m)

/-- The master forwards an advance made here to the members it is bringing in (R431). -/
def State.forwardJoin (s : State) (index amount : Nat) (stamp : Option Nat) : State :=
  if s.role = 1 then s.lnk.joiners.foldl (fun s id => s.txTo id (.control (.forward index amount stamp))) s else s

/-- The TALLY frame of an advance goes to every member, in both directions (R428). -/
def State.tallyFrame (s : State) (index amount : Nat) (stamp : Option Nat) : State :=
  if !s.inCascade then s
  else
    let s := (s.addWrap F.LNK_TALLY_SENT_COUNT).forwardJoin index amount stamp
    s.sendKept 0xFF 0 (fun n => .tally n index amount stamp)

/-! ## Pages of SHARED regions (R430) -/

/-- Where a page lives: here, where it is in no SHARED region; else with its shard's primary, or its replica where that is lost; none where its shard is
missing. -/
def State.homeOf (s : State) (page : Nat) : Option Nat :=
  match s.sharedAt page with
  | none => some s.deviceId
  | some n => (s.holder s.ringN (page % s.ringN) (s.fb F.LNK_SHARED_RGN_REPLICA n)).map (·.1)

/-- Whether this part holds a page: it is its home, or the ring successor of its primary, which has the replica. -/
def State.pageHere (s : State) (page : Nat) : Bool :=
  s.homeOf page == some s.deviceId
    || (match s.sharedAt page with
        | some n => s.fb F.LNK_SHARED_RGN_REPLICA n && (page % s.ringN + 1) % s.ringN == s.deviceId
        | none => true)

/-- The member that holds the replica of a page whose primary this part is. -/
def State.replicaFor (s : State) (page : Nat) : Option Nat :=
  let next := (s.deviceId + 1) % s.ringN
  let copies := match s.sharedAt page with | some n => s.fb F.LNK_SHARED_RGN_REPLICA n | none => false
  if copies && page % s.ringN == s.deviceId && s.memberIn next && next != s.deviceId then some next else none

/-- Where a write made here to a page goes over Ramhel (R430): to its home, or, where this part is its home, to the replica. -/
def State.shipTo (s : State) (page : Nat) : Option Nat :=
  match s.homeOf page with
  | none => none
  | some h => if h = s.deviceId then s.replicaFor page else some h

/-- A write made here goes out as class 2 traffic, until it is acknowledged. -/
def State.ship (s : State) (dst addr : Nat) (bytes : List Byte) : State :=
  let t := s.lnk.next
  ({ s with lnk.next := t + 1, lnk.mine := s.lnk.mine ++ [(t, dst, addr, bytes)] } : State).sendMsg dst 2 (.write t t addr bytes)

/-- The pieces of a store, page by page. -/
def pagePieces (addr : Nat) (bytes : List Byte) : List (Nat × List Byte) :=
  (List.range (ceilDiv (addr % 65536 + bytes.length) 65536)).map (fun k =>
    let from' := if k = 0 then 0 else 65536 * k - addr % 65536
    (addr + from', (bytes.drop from').take (65536 * (k + 1) - addr % 65536 - from')))

/-- What was stored in SHARED pages goes out, page by page (R430); a standalone part has none. -/
def State.shipStores (s : State) : State :=
  if s.role = 0 ∨ s.mm.fresh.isEmpty then s
  else
    let l := s.mm.fresh.flatMap (fun e => pagePieces e.1 (s.rdList e.1 e.2))
    l.foldl (fun (s : State) e => match s.shipTo (e.1 / 65536) with
      | some d => s.ship d e.1 e.2
      | none => s) { s with mm.fresh := [] }

/-- A page that lies with another member is read from there, once (R430): class 1, or class 3 for a map tile (R432). -/
def State.askPage (s : State) (page cls : Nat) : State :=
  match s.homeOf page with
  | none => s
  | some h =>
    if s.pageHere page || s.lnk.reads.any (fun e => e.2.2.1 == page) then s
    else
      let t := s.lnk.next
      let reads := s.lnk.reads ++ [(t, h, page, cls)]
      ({ s with lnk.next := t + 1, lnk.reads := reads } : State).sendMsg h cls (.read t (65536 * page) 65536)

/-- A CASCADE advance made here is sent to the ring; while remote writes made here are not acknowledged it is held until they are (R429). -/
def State.sendTally (s : State) (index amount : Nat) (stamp : Option Nat) : State :=
  if s.lnk.mine.isEmpty then s.tallyFrame index amount stamp
  else { s with lnk.wait := s.lnk.wait ++ [(s.lnk.mine.map (·.1), index, amount, stamp)] }

/-- A remote write made here is over: acknowledged, or without a holder left; the advances that waited for no other are sent, in their order
(R429). -/
def State.writeOver (s : State) (tag : Nat) : State :=
  let wait := s.lnk.wait.map (fun e => (e.1.filter (· != tag), e.2))
  let s : State := { s with lnk.mine := s.lnk.mine.filter (fun e => e.1 != tag), lnk.wait := wait.dropWhile (fun e => e.1.isEmpty) }
  (wait.takeWhile (fun e => e.1.isEmpty)).foldl (fun s e => s.tallyFrame e.2.1 e.2.2.1 e.2.2.2) s

end Sys2Proof.Machine
end

