-- ==== Sys2Proof/Machine/Events.lean ====
section
/-!
DEFINITION. Interrupts (R405), the event log (R385–R387), and Tallies with their waits (R359–R363).
-/

namespace Sys2Proof.Machine
open Sys2Proof

/-! ## Interrupts -/

/-- The MSI-X vector control word of a function's vector: bit 0 masks it (log entry 7: masked at reset, as PCIe fixes). -/
def State.vecCtl (s : State) (fn vec : Nat) : Nat := tget 1 s.hst.msix (fn * 0x1000 + vec * 16 + 12)

/-- Raise a vector: a message where it is not masked, its pending bit otherwise (R405). -/
def State.irq (s : State) (fn vec : Nat) : State :=
  if bitOf (s.vecCtl fn vec) 0 ∨ bitOf s.hst.d3 fn then
    { s with hst.pba := if s.hst.pba.contains (fn * 128 + vec) then s.hst.pba else (fn * 128 + vec) :: s.hst.pba }
  else s.emit (.irq fn vec)

/-! ## The event log -/

/-- Append a record to the log: a ring of 4,096 records, numbered from 1 (R385); vector 0 where its severity reaches EVENT_SEV. -/
def State.pushEvt (s : State) (ts src code unit rep a0 a1 a2 : Nat) : State :=
  let seq := s.dsp.evtSeq + 1
  let sev := severity src code
  let e : Evt := { seq := seq, ts := ts, source := src, sev := sev, code := code, unit := unit % 65536, rep := satU 16 rep,
                   start := s.f F.PWR_RESET_CAUSE_STARTS, arg0 := a0, arg1 := a1, arg2 := a2 }
  let s := { s with log := (e :: s.log).take 4096, dsp.evtSeq := seq }
  let s := s.setPair R.DSP_EVT_HEAD_LO R.DSP_EVT_HEAD_HI seq
  if sev ≥ s.f F.HST_IRQ_CFG_EVENT_SEV then s.irq 0 0 else s

/-- The folding second of a source, code and unit, if one runs. -/
def State.foldOf (s : State) (src code unit : Nat) : Option Fold :=
  s.dsp.folds.find? (fun f => f.source == src && f.code == code && f.unit == unit)

/-- Drop the folding second of a source, code and unit. -/
def dropFold (src code unit : Nat) (l : List Fold) : List Fold :=
  l.filter (fun f => !(f.source == src && f.code == code && f.unit == unit))

/-- The end of a folding second (R387): a record where occurrences were counted, and a new second; otherwise the second is over. -/
def State.flushFold (s : State) (src code unit : Nat) : State :=
  match s.foldOf src code unit with
  | none => s
  | some f =>
    let rest := dropFold src code unit s.dsp.folds
    if f.count = 0 then { s with dsp.folds := rest }
    else
      let s := s.pushEvt f.ts src code unit f.count f.arg0 f.arg1 f.arg2
      { s with dsp.folds := { f with since := s.mono, count := 0 } :: rest }

/-- A folding second that has run its time ends. -/
def State.endFold (s : State) (src code unit : Nat) : State :=
  match s.foldOf src code unit with
  | some f => if f.since + 1000000000 ≤ s.mono then s.flushFold src code unit else s
  | none => s

/-- Log an occurrence: the first of a source, code and unit at once, further ones within its second counted (R387). At shedding
level 1 and above INFO events are not logged and count in DSP_EVT_SHED (Table 13-6). -/
def State.logEvt (s : State) (src code unit a0 a1 a2 : Nat) : State :=
  if severity src code = 0 ∧ 1 ≤ s.f F.DSP_COOPER_SHED_LEVEL then s.addSat F.DSP_EVT_SHED_COUNT
  else
    let s := s.endFold src code unit
    match s.foldOf src code unit with
    | some f =>
      let f' : Fold := { f with count := f.count + 1, ts := if f.count = 0 then s.now else f.ts, arg0 := a0, arg1 := a1, arg2 := a2 }
      { s with dsp.folds := f' :: dropFold src code unit s.dsp.folds }
    | none =>
      let s := s.pushEvt s.now src code unit 0 a0 a1 a2
      { s with dsp.folds := { source := src, code := code, unit := unit, since := s.mono, ts := s.now, count := 0,
                              arg0 := a0, arg1 := a1, arg2 := a2 } :: s.dsp.folds }

/-- An event: its _EVT bit where it has one, and its log record (R385). -/
def State.event (s : State) (src code : Nat) (unit : Nat := 0) (a0 : Nat := 0) (a1 : Nat := 0) (a2 : Nat := 0) : State :=
  let s := if code < 32 then s.setEvt src code else s
  s.logEvt src code unit a0 a1 a2

/-- An event where its condition holds. -/
def State.eventIf (s : State) (on : Bool) (src code : Nat) (unit : Nat := 0) (a0 : Nat := 0) (a1 : Nat := 0) (a2 : Nat := 0) : State :=
  if on then s.event src code unit a0 a1 a2 else s

/-- The conditions that a record's status hides are reported through the event log (R12), but for those whose event the record logs in any
case: by the block's _EVT bit where it has one, else by a code that the spec does not give (log entry 92). -/
def State.logHidden (s : State) (src unit : Nat) (conds logged : List Nat) (a2 : Nat) : State :=
  ((hiddenOf conds).filter (fun c => !logged.contains c)).foldl (fun s c =>
    match hiddenBit src c with
    | some b => s.event src b unit 0 c a2
    | none => s.logEvt src (0x107 + Config.hiddenCode src c % 0xFEF9) unit 0 c a2) s

/-- A WARNING for which the spec names no code: its record carries a free code and sets no _EVT bit (log entry 23). -/
def State.warnOpen (s : State) (src unit : Nat) (a1 : Nat := 0) : State :=
  let seq := s.dsp.evtSeq + 1
  let e : Evt := { seq := seq, ts := s.now, source := src, sev := 1, code := s.freeVal % 65536, unit := unit % 65536, rep := 0,
                   start := s.f F.PWR_RESET_CAUSE_STARTS, arg0 := 0, arg1 := a1, arg2 := 0 }
  let s := ({ s with log := (e :: s.log).take 4096, dsp.evtSeq := seq } : State).used
  let s := s.setPair R.DSP_EVT_HEAD_LO R.DSP_EVT_HEAD_HI seq
  if 1 ≥ s.f F.HST_IRQ_CFG_EVENT_SEV then s.irq 0 0 else s

/-- The highest value of the last second, given the new one (registers described as over the last 1 s). -/
def notePeakL (l : List (Nat × Nat)) (t v : Nat) : List (Nat × Nat) :=
  (t, v) :: l.filter (fun e => decide (t ≤ e.1 + 1000000000) && decide (v < e.2))

/-- The highest value noted. -/
def peakOf (l : List (Nat × Nat)) : Nat := l.foldl (fun m e => Nat.max m e.2) 0

/-! ## Tallies -/

/-- A Tally. -/
def State.tallyOf (s : State) (i : Nat) : Tally := tget {} s.tally i

/-- The entry of the Tally table for a Tally. -/
def State.tallyEnt (s : State) (i : Nat) : Option TallyEnt := s.dsp.graph.tallies.find? (fun e => e.index == i)

/-- Whether the Tally table names `src` (a BAR0 window index, or 31 for the host) as a producer of Tally `i` (R362);
a Tally flagged HOST_ADV takes the host's advances (R363). -/
def State.producer (s : State) (src i : Nat) : Bool :=
  match s.tallyEnt i with
  | some e => bitOf e.producers src || (src == 31 && bitOf e.flags 0)
  | none => false

/-- A host wait slot takes its hit (R363): ARM clears, its HIT bit is set, vector 2 where the bit is newly set. -/
def State.hitSlot (s : State) (n : Nat) : State :=
  let s := s.setB F.DSP_HOST_WAIT_CTL_ARM false n
  let r := if n < 32 then R.DSP_HOST_WAIT_HIT_LO else R.DSP_HOST_WAIT_HIT_HI
  let was := bitOf (s.word r).toNat (n % 32)
  let s := s.setWord r (s.word r ||| BitVec.ofNat 32 (2 ^ (n % 32)))
  if was then s else s.irq 0 2

/-- An armed slot whose Tally meets its threshold takes its hit (R363). -/
def State.testSlot (s : State) (n : Nat) : State :=
  if s.fb F.DSP_HOST_WAIT_CTL_ARM n
      && decide (s.pair R.DSP_HOST_WAIT_TH_LO R.DSP_HOST_WAIT_TH_HI n ≤ (s.tallyOf (s.f F.DSP_HOST_WAIT_CTL_INDEX n)).value)
  then s.hitSlot n else s

/-- The armed slots that wait on Tally `i` are tested, in slot order. -/
def State.testSlots (s : State) (i : Nat) : State :=
  (List.range 64).foldl (fun s n =>
    if s.fb F.DSP_HOST_WAIT_CTL_ARM n && s.f F.DSP_HOST_WAIT_CTL_INDEX n == i then s.testSlot n else s) s

/-- The largest value of a Tally. -/
def tallyMax : Nat := 2 ^ 64 - 1

/-- The Tally after an advance: one addition held at 2⁶⁴ − 1, and the stamp where the advance names a device time (R360). -/
def Tally.add (t : Tally) (amount : Nat) (stamp : Option Nat) : Tally :=
  { value := if tallyMax < t.value + amount then tallyMax else t.value + amount, stamp := stamp.getD t.stamp }

/-- An advance is applied to Tally `i` (R360, R363): added, with TALLY_SATURATED where it would pass 2⁶⁴ − 1, and the host's wait
slots tested. The Tally is noted for its consumers, which react at the next TALLY_ADVANCE or idle step (log entry 8). -/
def State.applyAdvance (s : State) (i amount : Nat) (stamp : Option Nat) : State :=
  let t := s.tallyOf i
  let s : State := { s with tally := tput {} s.tally i (t.add amount stamp),
                            dsp.kick := if s.dsp.kick.contains i then s.dsp.kick else s.dsp.kick ++ [i] }
  let s := if tallyMax < t.value + amount then s.event 0xC Ev.tallySaturated i else s
  s.testSlots i

/-- Whether a Tally is flagged CASCADE. -/
def State.isCascade (s : State) (i : Nat) : Bool := match s.tallyEnt i with | some e => bitOf e.flags 1 | none => false

/-- One advance of Tally `i` by producer `src` (R360, R362): dropped with an ADVANCE_DROPPED event where the Tally table does not list
the producer; a CASCADE Tally's advance is also sent to the ring (R428). -/
def State.advanceRaw (s : State) (src i amount : Nat) (stamp : Option Nat := none) : State :=
  if amount = 0 then s
  else if s.producer src i then
    let s := s.shipStores.applyAdvance i amount stamp
    if s.isCascade i then s.sendTally i amount stamp else s
  else s.event 0xC Ev.advanceDropped i 0 src

/-- The task in flight that an advance of a block belongs to (R365): the first instance of a node of the block whose next advance this
is has made it, and its flight ends with its last one. -/
def State.creditTask (s : State) (src i amount : Nat) : State :=
  let node := fun (n : Nat) => nth ({ block := 0 } : Node) s.dsp.graph.nodes n
  let isNext := fun (x : Inst) => (node x.node).block == src && (match (node x.node).advs.drop x.made with
    | a :: _ => a.tally == i && a.amount == amount
    | [] => false)
  match s.dsp.flight.find? isNext with
  | none => s
  | some x =>
    let others := s.dsp.flight.filter (fun y => !(y.node == x.node && y.k == x.k))
    if (node x.node).advs.length ≤ x.made + 1 then { s with dsp.flight := others }
    else { s with dsp.flight := others ++ [({ x with made := x.made + 1 } : Inst)] }

/-- An advance a block makes by its own settings: the advance, credited to the task in flight it belongs to. -/
def State.advance (s : State) (src i amount : Nat) (stamp : Option Nat := none) : State :=
  if amount = 0 then s else (s.creditTask src i amount).advanceRaw src i amount stamp

/-- The value of a Tally. -/
def State.tv (s : State) (i : Nat) : Nat := (s.tallyOf i).value

/-- The stamp of a Tally. -/
def State.tstamp (s : State) (i : Nat) : Nat := (s.tallyOf i).stamp

/-- A block's own task reads a poisoned line (R223, R368): it fails, counted and logged with cause 2 and the block's instance. -/
def State.poisonTask (s : State) (unit : Nat) : State := (s.addSat F.DSP_TASK_FAILED_COUNT).event 0xC 0 unit 0 2

end Sys2Proof.Machine
end

