-- ==== Sys2Proof/Machine/Units.lean ====
section
/-!
DEFINITION. Units, spares and their rotation groups (R1, R15, R372–R381): which physical unit holds which logical place, failed
and retired units, the registers that show them.
-/

namespace Sys2Proof.Machine
open Sys2Proof

/-! ## Rotation groups (Tables 0-1 and 13-3) -/

/-- Units built per group of a class (Table 13-3). -/
def builtOf (c : Nat) : Nat :=
  match c with
  | 1 => 33 | 2 => 9 | 3 => 5 | 4 => 11
  | 5 => 5 | 6 => 5 | 7 => 5 | 8 => 5 | 9 => 5
  | 0xA => 3 | 0xB => 3 | 0xC => 5 | 0xD => 5 | 0xE => 4
  | _ => 0

/-- Groups of a class (Table 13-3). -/
def groupsOf (c : Nat) : Nat :=
  match c with
  | 1 => 495 | 2 => 55 | 3 => 11
  | _ => if builtOf c = 0 then 0 else 1

/-- Active units per group of a class on a part number (Table 0-1; the rows Table 0-1 does not vary are those of Table 13-3). -/
def activeOf (part c : Nat) : Nat :=
  match c with
  | 1 => 32 | 2 => 8 | 3 => 4
  | 4 => if part = 0x73 then 8 else if part = 0x72 then 6 else 4
  | 5 => 4 | 6 => 4 | 7 => 4 | 8 => 4 | 9 => 4
  | 0xA => if part = 0x71 then 1 else 2
  | 0xB => if part = 0x73 then 2 else if part = 0x72 then 1 else 0
  | 0xC => if part = 0x71 then 2 else 4
  | 0xD => 4
  | 0xE => 3
  | _ => 0

/-- Ramhel ports of a part number (Table 0-1). -/
def portsOf (part : Nat) : Nat := if part = 0x73 then 2 else if part = 0x72 then 1 else 0

/-- Spares per group: what is built and not active; the KVX-7100's Kilns are fused off (Table 0-1). -/
def sparesOf (part c : Nat) : Nat := if activeOf part c = 0 then 0 else builtOf c - activeOf part c

/-- The group of a physical index (R380). -/
def groupOfUnit (c i : Nat) : Nat := if c ≤ 3 then i / builtOf c else 0

/-- The class and index one level up (R379): column, engine, core, cluster. -/
def unitAbove (c i : Nat) : Nat × Nat := (c + 1, i / builtOf c)

/-- The name of a unit in the unit table. -/
def unitKey (c i : Nat) : Nat := c * 65536 + i

/-- The name of a logical place in the placement table. -/
def placeKey (c g l : Nat) : Nat := (c * 65536 + g) * 64 + l

/-- What the placement table holds for a place whose unit is lost beyond the spares. -/
def lostMark : Nat := 0x10000

/-- A unit's condition. -/
def State.unitSt (s : State) (c i : Nat) : UnitSt := tget {} s.dsp.units (unitKey c i)

/-- A unit's condition changes. -/
def State.setUnit (s : State) (c i : Nat) (u : UnitSt) : State :=
  { s with dsp.units := tput {} s.dsp.units (unitKey c i) u }

/-- The physical index (within its class) that holds a logical place, none where it is lost beyond the spares. Before any swap
logical unit `l` of group `g` is the group's unit `l`. -/
def State.physOf (s : State) (c g l : Nat) : Option Nat :=
  match tget 0 s.dsp.place (placeKey c g l) with
  | 0 => some (if c ≤ 3 then g * builtOf c + l else l)
  | n + 1 => if n = lostMark then none else some n

/-- A physical unit takes a logical place. -/
def State.putPlace (s : State) (c g l : Nat) (p : Option Nat) : State :=
  { s with dsp.place := tput 0 s.dsp.place (placeKey c g l) (match p with | some i => i + 1 | none => lostMark + 1) }

/-- The logical places of a group. -/
def State.places (s : State) (c : Nat) : List Nat := List.range (activeOf s.otp.part c)

/-- The physical units of a group. -/
def groupUnits (c g : Nat) : List Nat :=
  (List.range (builtOf c)).map (fun k => if c ≤ 3 then g * builtOf c + k else k)

/-- The logical place a physical unit holds. -/
def State.placeOf (s : State) (c i : Nat) : Option Nat :=
  (s.places c).find? (fun l => s.physOf c (groupOfUnit c i) l == some i)

/-- Whether a unit takes part in a visit, or carries a handover. -/
def State.busyUnit (s : State) (c i : Nat) : Bool :=
  s.dsp.visits.any (fun v => v.cls == c && (v.spare == i || v.phys == i)) || s.dsp.handover.contains (unitKey c i)

/-- Whether a unit has been swapped out for its test: it is no spare (R16). -/
def State.swappedOut (s : State) (c i : Nat) : Bool := s.dsp.visits.any (fun v => v.cls == c && v.phys == i && decide (2 ≤ v.phase))

/-- The spares of a group that are in order: neither placed, nor out (R16). -/
def State.goodSpares (s : State) (c g : Nat) : List Nat :=
  if sparesOf s.otp.part c = 0 then []
  else (groupUnits c g).filter (fun i => (s.placeOf c i).isNone && !(s.unitSt c i).out && !s.swappedOut c i)

/-- The four roles of R16: under in-service self-test, standing in for a unit swapped out for its test, standing in for a failed unit,
carrying migration or update handover. -/
inductive SpareRole where
  | underTest | standsInTest | standsInFailed | carries
deriving DecidableEq, Repr

/-- Whether a unit runs work that a unit fault has moved onto it (R370). -/
def State.carriesMigrated (s : State) (c i : Nat) : Bool :=
  match s.placeOf c i with
  | none => false
  | some l =>
    match c with
    | 0xA => s.ktl.probs.any (fun e => match e.2.run with | some r => r.met && r.unit == some l | none => false)
    | 0xB => s.kln.passes.any (fun p => p.met && p.unit == some l)
    | 0xC => s.csk.walks.any (fun w => w.met && w.unit == some l)
    | 0xD => s.dsp.flight.any (fun x => decide (1 ≤ x.faults) && x.unit == l && (nth ({ block := 0 } : Node) s.dsp.graph.nodes x.node).block == 8)
    | _ => false

/-- The role of a spare unit (R16). A good spare between two visits, for which R16 names no role of its own, counts to the in-service
self-test, whose rotation it waits for (log entry 67). -/
def State.spareRole (s : State) (c i : Nat) : SpareRole :=
  let stands := tget 0 s.dsp.standIn (unitKey c i) != 0
  let loading := s.f F.SEC_UPDATE_STATE == 5 && s.sec.rolling.head? == some c && !stands
  if s.dsp.handover.contains (unitKey c i) || (stands && s.carriesMigrated c i) || loading then .carries
  else if stands then .standsInFailed
  else if s.dsp.visits.any (fun v => v.cls == c && v.spare == i && decide (2 ≤ v.phase)) then .standsInTest
  else .underTest

/-- The spares of a group that are free for a visit: in the self-test role, and not yet part of a visit (log entry 67). -/
def State.freeSpares (s : State) (c g : Nat) : List Nat := (s.goodSpares c g).filter (fun i => !s.busyUnit c i)

/-- Units of a class that are in service. -/
def State.workingOf (s : State) (c : Nat) : Nat := ((s.places c).filter (fun l => (s.physOf c 0 l).isSome)).length

/-! ## The registers that show units -/

/-- Every listed unit of a class that is out. -/
def State.outUnits (s : State) (c : Nat) : List Nat :=
  (s.dsp.units.filter (fun e => e.1 / 65536 == c && e.2.out)).map (fun e => e.1 % 65536)

/-- Lost places of a class, as groups. -/
def State.lostGroups (s : State) (c : Nat) : List Nat :=
  (s.dsp.place.filter (fun e => e.1 / 4194304 == c && e.2 == lostMark + 1)).map (fun e => e.1 / 64 % 65536)

/-- Groups of a class without a free spare. -/
def State.uncovered (s : State) (c : Nat) : Nat :=
  let outs := (s.outUnits c).map (groupOfUnit c)
  let lost := s.lostGroups c
  (outs.eraseDups.filter (fun g => sparesOf s.otp.part c + lost.count g ≤ outs.count g)).length

/-- The class registers of the DSP window (Table 13-10). -/
def State.syncCls (s : State) (c : Nat) : State :=
  let outs := (s.outUnits c).length
  let s := s.setF F.DSP_CLS_UNITS_BUILT (builtOf c * groupsOf c) c
  let s := s.setF F.DSP_CLS_UNITS_OUT outs c
  let s := s.setF F.DSP_CLS_SPARES_UNCOVERED (s.uncovered c) c
  let s := s.setF F.DSP_CLS_SPARES_STANDING (satU 8 (s.dsp.standIn.filter (fun e => e.1 / 65536 == c)).length) c
  let s := s.setF F.DSP_CLS_SPARES_FREE
    (satU 8 (groupsOf c * sparesOf s.otp.part c + (s.lostGroups c).length - outs)) c
  s.setF F.DSP_CLS_PERIOD_MS
    (if sparesOf s.otp.part c = 0 then 0
     else s.f F.DSP_ST_CFG_CYCLE_S * 1000 / ceilDiv (activeOf s.otp.part c) (sparesOf s.otp.part c)) c

/-- A logical place's unit as a register shows it; `none` is the register's code for no unit. -/
def State.showPlace (s : State) (c l none : Nat) : Nat :=
  if l < activeOf s.otp.part c then (s.physOf c 0 l).getD none else none

/-- The first good spare of a class, as a register shows it. -/
def State.showSpare (s : State) (c none : Nat) : Nat := ((s.goodSpares c 0).head?).getD none

/-- The block registers that show units of a class (Tables 6-12, 7-12, 10-13, 11-7, 12-10). -/
def State.syncBlock (s : State) (c : Nat) : State :=
  match c with
  | 4 =>
    let act := (s.places 4).filterMap (fun l => s.physOf 4 0 l)
    let s := s.setF F.TNS_STATUS_CLUSTERS (s.workingOf 4)
    let s := s.setF F.TNS_STATUS_CORES (4 * s.workingOf 4)
    let s := s.setF F.TNS_CLUSTER_MAP_ACTIVE (sumN (act.map (2 ^ ·)))
    let s := s.setF F.TNS_CLUSTER_MAP_SPARE (sumN ((s.goodSpares 4 0).map (2 ^ ·)))
    s.setF F.TNS_CLUSTER_PHYS_MAP (sumN ((List.range 8).map (fun l => s.showPlace 4 l 15 * 16 ^ l)))
  | 5 => (s.setF F.MILL_STATUS_RECT (s.workingOf 5)).setF F.MILL_SPARE_RECT (s.showSpare 5 7)
  | 6 => (s.setF F.MILL_STATUS_PYR (s.workingOf 6)).setF F.MILL_SPARE_PYR (s.showSpare 6 7)
  | 7 => (s.setF F.MILL_STATUS_CORNER (s.workingOf 7)).setF F.MILL_SPARE_CORNER (s.showSpare 7 7)
  | 8 => (s.setF F.MILL_STATUS_TRACK (s.workingOf 8)).setF F.MILL_SPARE_TRACK (s.showSpare 8 7)
  | 9 => (s.setF F.MILL_STATUS_SGM (s.workingOf 9)).setF F.MILL_SPARE_SGM (s.showSpare 9 7)
  | 0xA =>
    let s := (s.setF F.KTL_STATUS_ENABLED (activeOf s.otp.part 0xA)).setF F.KTL_STATUS_WORKING (s.workingOf 0xA)
    let s := (s.setF F.KTL_SPARE_UNIT0 (s.showPlace 0xA 0 3)).setF F.KTL_SPARE_UNIT1 (s.showPlace 0xA 1 3)
    s.setF F.KTL_SPARE_SPARE (s.showSpare 0xA 3)
  | 0xB =>
    let s := (s.setF F.KLN_STATUS_ENABLED (activeOf s.otp.part 0xB)).setF F.KLN_STATUS_WORKING (s.workingOf 0xB)
    let s := (s.setF F.KLN_SPARE_UNIT0 (s.showPlace 0xB 0 3)).setF F.KLN_SPARE_UNIT1 (s.showPlace 0xB 1 3)
    s.setF F.KLN_SPARE_SPARE (s.showSpare 0xB 3)
  | 0xC =>
    let s := (s.setF F.CSK_STATUS_ENABLED (activeOf s.otp.part 0xC)).setF F.CSK_STATUS_WORKING (s.workingOf 0xC)
    let s := s.setF F.CSK_SPARE_UNITS (sumN ((List.range 4).map (fun l => s.showPlace 0xC l 7 * 8 ^ l)))
    s.setF F.CSK_SPARE_SPARE (s.showSpare 0xC 7)
  | _ => s

/-- Every register that shows units of a class. -/
def State.syncUnits (s : State) (c : Nat) : State := (s.syncCls c).syncBlock c

/-- The classes of Table 13-3. -/
def allClasses : List Nat := [1, 2, 3, 4, 5, 6, 7, 8, 9, 0xA, 0xB, 0xC, 0xD, 0xE]

/-- The registers of every class. -/
def State.syncAll (s : State) : State := allClasses.foldl State.syncUnits s

/-- Whether a class works on fewer units than the part enables. -/
def State.lostIn (s : State) (c : Nat) : Bool := decide (s.workingOf c < activeOf s.otp.part c)

/-- The DEGRADED bits that say what stands beyond the spares now (Table 13-5): the blocks', and DSP_STATUS.DEGRADED, which also shows
a DDR5 channel or a Hopper die out of service. The Cask's own bit also shows missing shards and is kept with them. -/
def State.syncDegraded (s : State) : State :=
  let ch := (List.range 4).any (fun c =>
    s.f F.MEM_CH_STATE_CAUSE c != 0 && (s.f F.MEM_CH_STATE_STATE c == 0 || s.f F.MEM_CH_STATE_STATE c == 3))
  let die := s.f F.MEM_STATUS_HOPPER_OK == 1 || s.f F.MEM_STATUS_HOPPER_OK == 2
  let s := s.setB F.DSP_STATUS_DEGRADED (ch || die || [4, 5, 6, 7, 8, 9, 0xA, 0xB, 0xC, 0xD, 0xE].any s.lostIn)
  let s := s.setB F.TNS_STATUS_DEGRADED (s.lostIn 4)
  let s := s.setB F.MILL_STATUS_DEGRADED ([5, 6, 7, 8, 9].any s.lostIn)
  (s.setB F.KTL_STATUS_DEGRADED (s.lostIn 0xA)).setB F.KLN_STATUS_DEGRADED (s.lostIn 0xB)

/-! ## OTP mirrors (BOOT_OTP registers, DSP_RETIRE) -/

/-- The identity in force: the last valid cascade field (Table 2-11). -/
def Otp.cascadeId (o : Otp) : Option Nat := (o.cascade.filter (·.1)).getLast?.map (·.2)

/-- The registers that mirror fuse contents (Tables 2-12, 13-10, 14-14, 16-10, 17-12). -/
def State.mirrorOtp (s : State) : State :=
  let o := s.otp
  let s := s.setF F.BOOT_OTP_SVC_COUNTER o.svc
  let s := s.setF F.BOOT_OTP_KEYS_SLOTS
    (sumN ((List.range 4).map (fun n => let k := nth {} o.keys n; (b2n k.programmed + 2 * b2n k.revoked) * 4 ^ n)))
  let s := s.setB F.BOOT_OTP_DEBUG_LOCKED o.debugLock
  let s := s.setF F.BOOT_OTP_CASCADE_USED o.cascade.length
  let s := s.setB F.BOOT_OTP_CASCADE_VALID o.cascadeId.isSome
  let s := s.setF F.BOOT_OTP_CASCADE_ID (o.cascadeId.getD 0)
  let s := s.setF F.BOOT_OTP_RETIRE_USED o.retire.length
  let s := (List.range o.retire.length).foldl (fun s n =>
    let e := nth (false, 0) o.retire n
    s.setF F.DSP_RETIRE_ENTRY (if e.1 then e.2 else 0) n) s
  let s := s.setF F.GLB_PART_PART o.part
  let s := s.setF F.GLB_PART_GRADE o.grade
  let s := s.setF F.GLB_PART_STEPPING o.stepping
  let s := s.setPair R.GLB_SERIAL_LO R.GLB_SERIAL_HI o.serial
  let s := s.setF F.PWR_AVS_FUSE_MV o.avsFuse
  let s := s.setF F.SEC_CERT_LEN_BYTES o.cert.length
  let s := (List.range ((o.cert.length + 3) / 4)).foldl (fun s n =>
    s.setF F.SEC_CERT_DATA (leValue (fitBytes 4 (o.cert.drop (4 * n)))) n) s
  let s := if o.grade = 1 then s.setWord R.PWR_LIMITS 0x5A696469#32 else s
  s

/-- A retirement entry (R380): VALID, class, physical index. -/
def retireWord (c i : Nat) : Nat := 2 ^ 31 + c * 2 ^ 16 + i

/-- A permanent fault (R381): one retirement entry is programmed while one is free, and RETIRED is logged with its number. -/
def State.retireUnit (s : State) (c i : Nat) : State :=
  let s := s.setUnit c i { s.unitSt c i with out := true, retired := true }
  if s.otp.retire.length < 32 then
    let n := s.otp.retire.length
    let s := { s with otp.retire := s.otp.retire ++ [(true, retireWord c i)] }
    let s := s.mirrorOtp.event 0x1 4 i 0 c
    s.event 0xC 5 i 0 n
  else s

end Sys2Proof.Machine
end

