-- ==== Sys2Proof/Machine/Restart.lean ====
section
/-!
DEFINITION. The flash directory, slot selection by the boot ROM, recovery, and the resets the part makes and takes
(R26–R39, R44, R465, R466).
-/

namespace Sys2Proof.Machine
open Sys2Proof

/-! ## The directory (R30) -/

/-- Whether a directory copy can be used: written, and its CRC-32C passes. -/
def DirCopy.usable (d : DirCopy) : Bool := !d.erased && d.crcOk

/-- Whether copy 0 is the one in force: usable, and newer than copy 1 where that is usable too (R30). Of two usable copies with one sequence
number, for which R30 names no winner, copy 0 is taken (DESIGN CHOICE of log entry 68). -/
def Flash.useCopy0 (fl : Flash) : Bool :=
  fl.dir0.usable && (!fl.dir1.usable || decide (fl.dir1.seq ≤ fl.dir0.seq))

/-- A slot is non-empty where its first bytes hold the header magic (R30). -/
def slotHolds (img : Option Image) : Bool :=
  match img with
  | some i => i.magic == 0x4B584243
  | none => false

/-- The directory in force: copy 0, copy 1, or, with both copies erased, every non-empty slot VALID and every other EMPTY (R30). Two copies
that cannot be used and are not both erased, of which R30 does not speak, count as erased (DESIGN CHOICE of log entry 68). -/
def Flash.dir (fl : Flash) : DirCopy :=
  if fl.useCopy0 then fl.dir0
  else if fl.dir1.usable then fl.dir1
  else { seq := 0, a := { state := b2n (slotHolds fl.slotA) }, b := { state := b2n (slotHolds fl.slotB) } }

/-- Write the directory: the copy that is not in force takes the next sequence number, in 32 bits (R30). -/
def Flash.writeDir (fl : Flash) (a b : SlotDir) (staging : Nat) : Flash :=
  let d : DirCopy := { erased := false, crcOk := true, seq := (fl.dir.seq + 1) % 2 ^ 32, a := a, b := b, staging := staging }
  if fl.useCopy0 then { fl with dir1 := d } else { fl with dir0 := d }

/-- A slot of the flash: false for A, true for B. -/
def Flash.slot (fl : Flash) (b : Bool) : Option Image := if b then fl.slotB else fl.slotA

/-- What the directory in force says of a slot. -/
def Flash.slotDir (fl : Flash) (b : Bool) : SlotDir := if b then fl.dir.b else fl.dir.a

/-- The directory entry of a slot changes. -/
def Flash.setSlotDir (fl : Flash) (b : Bool) (d : SlotDir) : Flash :=
  if b then fl.writeDir fl.dir.a d fl.dir.staging else fl.writeDir d fl.dir.b fl.dir.staging

/-- The staging area's entry changes. -/
def Flash.setStaging (fl : Flash) (n : Nat) : Flash := fl.writeDir fl.dir.a fl.dir.b n

/-- BOOT_SLOTS shows the directory (Table 2-12). -/
def State.syncSlots (s : State) : State :=
  let d := s.fl.dir
  let s := (s.setF F.BOOT_SLOTS_A_STATE d.a.state).setF F.BOOT_SLOTS_A_TRIALS d.a.trials
  (s.setF F.BOOT_SLOTS_B_STATE d.b.state).setF F.BOOT_SLOTS_B_TRIALS d.b.trials

/-- A slot's state in the directory changes. -/
def State.setSlotState (s : State) (b : Bool) (st : Nat) : State :=
  { s with fl := s.fl.setSlotDir b { s.fl.slotDir b with state := st } }.syncSlots

/-- The slot size, in bytes (R29, Table 2-2). -/
def Flash.slotSize (fl : Flash) : Nat := (fl.mib * 1024 - 256) / 3 / 64 * 64 * 1024

/-- The regions of the flash (Table 2-1). -/
inductive FlashRegion where
  | directory (copy : Bool)
  | training (copy : Bool)
  | slot (b : Bool)
  | staging
deriving DecidableEq, Repr

/-- Offset and size of a region (Table 2-1). -/
def Flash.region (fl : Flash) : FlashRegion → Nat × Nat
  | .directory c => (0x8000 * b2n c, 32 * 1024)
  | .training c => (0x10000 + 96 * 1024 * b2n c, 96 * 1024)
  | .slot b => (0x40000 + fl.slotSize * b2n b, fl.slotSize)
  | .staging => (0x40000 + 2 * fl.slotSize, fl.slotSize)

/-! ## The checks of a slot (R36) -/

/-- The SM3 digest of the public key in the header (R36, check 3). -/
def Image.pubDigest (i : Image) : Nat := Config.sm3 (fitBytes 64 i.pubKey)

/-- Bytes 0 to 447 of the header (Table 2-4). -/
def Image.headerBytes (i : Image) : List Byte :=
  leBytes 4 i.magic ++ leBytes 2 i.cver ++ leBytes 2 i.hsize ++ leBytes 8 i.seq ++ leBytes 1 i.secver ++ leBytes 1 i.keySlot
    ++ leBytes 1 i.partMask ++ leBytes 1 i.res19 ++ leBytes 2 i.count ++ leBytes 2 i.res22 ++ leBytes 4 i.len ++ leBytes 4 i.res28
    ++ fitBytes 64 i.pubKey ++ leBytes 352 i.res96

/-- The 48 bytes of a section table entry (Table 2-5). -/
def Sect.entryBytes (e : Sect) : List Byte :=
  leBytes 2 e.typ ++ leBytes 2 e.fmt ++ leBytes 2 e.flags ++ leBytes 2 e.inst ++ leBytes 4 e.off ++ leBytes 4 e.len ++ leBytes 32 e.digest

/-- What the header signature is made over: bytes 0 to 447, then the whole section table (Table 2-4). -/
def Image.signedBytes (i : Image) : List Byte := i.headerBytes ++ i.sects.flatMap Sect.entryBytes

/-- The header signature verifies with public_key (R36, check 3). -/
def Image.hdrSigOk (i : Image) : Bool := i.hdrSig.key == i.pubDigest && i.hdrSig.msg == Config.sm3 i.signedBytes

/-- The header is well formed (R36, check 1). -/
def Image.headerOk (i : Image) (size : Nat) : Bool :=
  i.magic == 0x4B584243 && i.hsize == 512 && (i.cver == 2 || i.cver == 3) 
    && i.res19 == 0 && i.res22 == 0 && i.res28 == 0 && i.res96 == 0
    && decide (1 ≤ i.count) && decide (i.count ≤ 64) && i.len % 4096 == 0 && decide (i.len ≤ size)

/-- A section table entry is well formed (R34): no reserved flag, a 4 KiB offset, body and signature within the image, clear of
the header and the section table. -/
def Image.entryOk (i : Image) (e : Sect) : Bool :=
  decide (e.flags < 4) && e.off % 4096 == 0 && decide (e.off + e.len + 64 ≤ i.len)
    && decide (512 + 48 * i.count ≤ e.off)

/-- The bit of part_mask that names a part number (Table 2-4). -/
def partBit (part : Nat) : Nat := if part = 0x73 then 0 else if part = 0x72 then 1 else 2

/-- The index of the first entry of a type. -/
def Image.find (i : Image) (t : Nat) : Option Nat := i.sects.findIdx? (fun e => e.typ == t)

/-- Two bodies overlap. -/
def Sect.overlaps (a b : Sect) : Bool := decide (a.off < b.off + b.len) && decide (b.off < a.off + a.len)

/-- The body of entry `k` overlaps no other body (R34). -/
def Image.apart (i : Image) (k : Nat) (e : Sect) : Bool :=
  (List.range i.sects.length).all (fun j => j == k || (match i.sects[j]? with | some d => !d.overlaps e | none => true))

/-- The signature over a section: SM3 of its table entry followed by its body (R32). -/
def Sect.msg (e : Sect) : Nat := Config.sm3Entry e.entryBytes e.bodyDigest

/-- A section verifies on a clean read: its body matches its digest, and its signature the entry and the body, with a public key of a given
digest (R32). -/
def Sect.good (key : Nat) (e : Sect) : Bool := e.digest == e.bodyDigest && e.sig.key == key && e.sig.msg == e.msg

/-- Reads of a section until one verifies, at most four (R28): the rereads made, and whether it verified. -/
def Sect.reads (key : Nat) (e : Sect) : Nat × Bool :=
  if e.good key ∧ e.badReads ≤ 3 then (e.badReads, true) else (3, false)

/-- The first check that a slot fails (R36), in the order the ROM tests them: its code of Table 2-13 and the section concerned. -/
def slotError (o : Otp) (size : Nat) (img : Option Image) : Option (Nat × Nat) :=
  match img with
  | none => some (0x0E, 0xFF)
  | some i =>
    let k := nth {} o.keys i.keySlot
    if !i.headerOk size then some (0x0E, 0xFF)
    else if !(k.programmed && !k.revoked) then some (0x05, 0xFF)
    else if !(k.digest == i.pubDigest && i.hdrSigOk) then some (0x03, 0xFF)
    else if i.secver < o.svc then some (0x06, 0xFF)
    else if !bitOf i.partMask (partBit o.part) then some (0x07, 0xFF)
    else
      match i.sects.filter (fun e => e.typ == 1) with
      | [e] =>
        let n := (i.find 1).getD 0xFF
        if !(i.entryOk e && i.apart n e) then some (0x0E, n) else if !(e.reads i.pubDigest).2 then some (0x04, n) else none
      | _ => some (0x0E, 0xFF)

/-- Rereads the ROM makes of a slot's Cooper firmware section in check 7, whether or not it verifies in the end (R28). -/
def romRereads (img : Option Image) : Nat :=
  match img with
  | some i => match i.sects.filter (fun e => e.typ == 1) with | e :: _ => (e.reads i.pubDigest).1 | [] => 0
  | none => 0

/-- A slot is refused (R36): ERROR and SECTION hold its code, and the log records it. -/
def State.noteRefusal (s : State) (b : Bool) (e : Nat × Nat) : State :=
  ({ (s.setF F.BOOT_STATUS_ERROR e.1).setF F.BOOT_STATUS_SECTION e.2 with bt.refused := true, bt.noted := true } : State).event 0x1 1 (b2n b) 0 e.1

/-- The first half of slot selection (R36) for one slot: a slot that is not EMPTY and fails its checks becomes REJECTED. -/
def State.checkSlot (s : State) (b : Bool) : State × Bool :=
  if (s.fl.slotDir b).state = 0 then (s, false)
  else
    match slotError s.otp s.fl.slotSize (s.fl.slot b) with
    | some e =>
      let s := if e.1 = 0x04 then s.addSat F.BOOT_FLASH_REREADS (romRereads (s.fl.slot b)) else s
      ((s.noteRefusal b e).setSlotState b 4, false)
    | none => (s.addSat F.BOOT_FLASH_REREADS (romRereads (s.fl.slot b)), true)

/-- image_sequence of a slot. -/
def Flash.seqOf (fl : Flash) (b : Bool) : Nat := match fl.slot b with | some i => i.seq | none => 0

/-- Among candidate slots of a wanted state the one with the highest image_sequence, ties going to slot A (R36). -/
def pickSlot (fl : Flash) (cand : List Bool) (wanted : Nat) : Option Bool :=
  match cand.filter (fun b => (fl.slotDir b).state == wanted) with
  | [] => none
  | [b] => some b
  | _ => some (decide (fl.seqOf false < fl.seqOf true))

/-- Slot selection (R36): the slot to boot, none for recovery. -/
def State.selectSlot (s : State) : State × Option Bool :=
  let ra := s.checkSlot false
  let rb := ra.1.checkSlot true
  let s := rb.1
  let cand := (if ra.2 then [false] else []) ++ (if rb.2 then [true] else [])
  let choose := fun (s : State) (cand : List Bool) =>
    match pickSlot s.fl cand 3 with
    | some b => (s, some b)
    | none => (s, pickSlot s.fl cand 1)
  match cand.filter (fun b => (s.fl.slotDir b).state == 2) with
  | b :: _ =>
    let d := s.fl.slotDir b
    if d.trials < 3 then
      ({ s with fl := s.fl.setSlotDir b { d with trials := d.trials + 1 } }.syncSlots, some b)
    else
      let s := ({ s.setSlotState b 4 with bt.refused := true } : State).event 0x1 1 (b2n b)
      choose s (cand.filter (· != b))
  | [] => choose s cand

/-! ## Recovery and the beginning of a start -/

/-- Recovery (R39): only the endpoint with GLB, BOOT and the mailbox; STAGE reads 0xF. -/
def State.enterRecovery (s : State) (err : Nat) : State :=
  let s := { s with pw.mode := .recovery, bt.slot := none }
  let s := ((s.setF F.BOOT_STATUS_STAGE 0xF).event 0x1 0 0xF).setB F.BOOT_STATUS_RECOVERY true
  (s.setF F.BOOT_STATUS_SLOT 3).setF F.BOOT_STATUS_ERROR err

/-- SEC_STAGE and its companions show a staged object in a state (Table 16-10). -/
def State.showStaged (s : State) (st : Nat) : State :=
  match s.fl.staged with
  | none => s.setF F.SEC_STAGE_STATE st
  | some o =>
    let s := (s.setF F.SEC_STAGE_STATE st).setB F.SEC_STAGE_KIND (o.word0 == 0x4B585550)
    let s := (s.setF F.SEC_STAGE_LEN_BYTES o.len).setF F.SEC_STAGE_DONE_BLOCKS (o.len / 4096)
    s.setPair R.SEC_STAGE_SEQ_LO R.SEC_STAGE_SEQ_HI o.img.seq

/-- SEC_ID_DIGEST shows the identity's digest (Table 16-10). -/
def State.showDigest (s : State) : State :=
  (List.range 8).foldl (fun s n => s.setF F.SEC_ID_DIGEST_DIGEST (s.otp.idDigest / 2 ^ (32 * n)) n) s

/-- The identity is derived, or ID_FAIL (R442, R443). -/
def State.showIdentity (s : State) : State :=
  let s := if s.pw.pufBad then (s.setB F.SEC_STATUS_ID_FAIL true).event 0xF 8 else s.setB F.SEC_STATUS_ID_OK true
  (s.setB F.SEC_STATUS_CERT_VALID (!s.otp.cert.isEmpty)).showDigest

/-- The regulator's VOUT_MODE is read (R461): its answer, the exponent of linear16, is the regulator's own. -/
def State.readVoutMode (s : State) : State :=
  let s := s.emit (.pmbus (s.f F.PWR_AVS_CFG_ADDR) (s.f F.PWR_AVS_CFG_PAGE) 0x20 0)
  { s.used with pw.voutMode := s.freeVal % 32 }

/-- What the ROM shows before it looks at the flash: the OTP, the units, the SMBus address, PWRGD, the identity, START in the log. -/
def State.romShow (s : State) : State :=
  let s := { s with pw.mode := .starting, tm := {} }
  let s := s.mirrorOtp.syncAll.readVoutMode
  let s := s.setF F.PWR_SMB_ADDR (0x40 + s.pw.straps % 4)
  (s.setB F.PWR_STATUS_PWRGD true).showIdentity.event 0x1 Ev.start

/-- The selected slot is booted: its image is in force, BOOT_STATUS and the image registers name it. -/
def State.bootSlot (s : State) (b : Bool) : State :=
  let s := { s with bt.slot := some b, bt.img := (s.fl.slot b).getD {} }
  let s := s.setF F.BOOT_STATUS_SLOT (b2n b)
  let s := s.setF F.BOOT_STATUS_STAGE 0
  let s := s.setPair R.BOOT_IMAGE_SEQ_LO R.BOOT_IMAGE_SEQ_HI s.bt.img.seq
  (s.setF F.BOOT_IMAGE_VER_CONTAINER s.bt.img.cver).setF F.BOOT_IMAGE_VER_SECURITY s.bt.img.secver

/-- The flash registers, and the staging area: it survives only verified (R447). -/
def State.romFlash (s : State) : State :=
  let s := (s.setF F.BOOT_FLASH_SIZE_MIB s.fl.mib).setF F.BOOT_FLASH_MODE (if s.fl.octal then 0x08 else 0x01)
  let s : State := if s.fl.dir.staging == 1 then s.showStaged 4 else { s with fl.staged := none }
  (s.setB F.SEC_STATUS_LEGACY s.fl.legacy).syncSlots

/-- The flash is probed and a slot selected, or recovery entered (R27, R36, R39). -/
def State.romBoot (s : State) : State :=
  if !s.fl.sfdpOk then s.enterRecovery 0x01
  else
    let r := s.romFlash.selectSlot
    match r.2 with
    | none => r.1.enterRecovery 0x02
    | some b => r.1.bootSlot b

/-- The boot ROM's part of step 1 (Table 2-7, R27, R36, R39, R442, R443). -/
def State.romStart (s : State) : State := s.romShow.romBoot

/-! ## Resets -/

/-- Every unit as reset leaves it: what is neither OTP, flash, the SSD nor a pin is lost (R464, R466). -/
def State.unitsReset (s : State) : State :=
  { State.reset with
    otp := s.otp, fl := s.fl, ssd := s.ssd, pw := { s.pw with laserEn := 0, alertN := true, avsFails := 0, coolSince := none, seen := 0, oeHot := 0 },
    out := s.out, free := s.free, pending := s.pending }

/-- System reset (R465): the part enters RESET; the event log and the start count are cleared (R388). -/
def State.systemReset (s : State) : State :=
  let s := s.unitsReset
  { s with pw.mode := .reset, pw.nextCause := 1 }

/-- A self-restart (R466): RESTART is logged with its cause, every unit is reset, and the start sequence begins again; the event
log, the start count and the AVS set point stay, and the cause of reset reads SELF. What is described as kept until system reset
(DEBUG_SEEN, R441, and the highest temperatures, Table 17-12) stays too, and a slot rejected at the previous start shows (Table 2-12). -/
def State.restart (s : State) (cause : Nat) : State :=
  let s := s.event 0x1 Ev.restart 0 0 cause
  let n := satU 16 (s.f F.PWR_RESET_CAUSE_STARTS + 1)
  let mv := s.f F.PWR_AVS_SET_SET_MV
  let r := { s.unitsReset with log := s.log, dsp.evtSeq := s.dsp.evtSeq }
  let r := r.setPair R.DSP_EVT_HEAD_LO R.DSP_EVT_HEAD_HI s.dsp.evtSeq
  let r := (r.setF F.PWR_RESET_CAUSE_STARTS n).setF F.PWR_RESET_CAUSE_CAUSE 2
  let r := (r.setF F.PWR_AVS_SET_SET_MV mv).setB F.SEC_STATUS_DEBUG_SEEN (s.fb F.SEC_STATUS_DEBUG_SEEN)
  let r := r.setB F.BOOT_EVT_SLOT_REJECTED s.bt.refused
  let r : State := (List.range 24).foldl (fun r n => r.setF F.PWR_TEMP_MAX (s.f F.PWR_TEMP_MAX n) n) { r with pw.seen := s.pw.seen }
  r.romStart

/-- A slot is refused after the ROM handed over (R38): it is marked REJECTED and the part restarts; ERROR and SECTION stay
across the restart unless the ROM refuses a slot again, and ERROR reads 0x01 or 0x02 where the ROM then enters recovery (R36). -/
def State.refuseSlot (s : State) (code sect : Nat) : State :=
  let b := s.bt.slot.getD false
  let s := (s.noteRefusal b (code, sect)).setSlotState b 4
  let r := s.restart 1
  if r.bt.noted then r
  else (if r.pw.mode == .recovery then r else r.setF F.BOOT_STATUS_ERROR code).setF F.BOOT_STATUS_SECTION sect

/-- A halt (Table 2-13): Cooper, the endpoint and the event log stay; the log carries the boot error. -/
def State.halt (s : State) (code : Nat) : State :=
  let s := (s.setF F.BOOT_STATUS_ERROR code).event 0x1 Ev.halt 0 0 code
  { s with pw.mode := .halted }

end Sys2Proof.Machine
end

