-- ==== Sys2Proof/Machine/Container.lean ====
section
/-!
DEFINITION. What the Cooper firmware checks of an image: the container rules, formats, migration (R33, R34, R48–R50), and the writes
of BL registers its settings carry.
-/

namespace Sys2Proof.Machine
open Sys2Proof

/-! ## Section types (Table 2-6) -/

/-- Types that appear exactly once. -/
def oneTypes : List Nat := [1, 2, 3, 4, 5, 8, 9, 0xA]

/-- Types that may appear once per instance value. -/
def manyTypes : List Nat := [6, 7]

/-- A type of Table 2-6. -/
def knownType (t : Nat) : Bool := oneTypes.contains t || manyTypes.contains t

/-- The current format of a type. -/
def currentFmt : Nat → Nat
  | 1 => 2 | 2 => 3 | 3 => 4 | 4 => 2 | 5 => 5 | 6 => 2 | 7 => 2 | 8 => 3 | 9 => 3 | 0xA => 4 | _ => 0

/-- The oldest format that is migrated. -/
def oldestFmt : Nat → Nat
  | 1 => 2 | 2 => 2 | 3 => 2 | 4 => 1 | 5 => 3 | 6 => 1 | 7 => 1 | 8 => 2 | 9 => 1 | 0xA => 3 | _ => 0

/-- Whether a section is loaded: of a known type. -/
def Sect.used (e : Sect) : Bool := knownType e.typ

/-- Whether a section is converted (R33). -/
def Sect.old (e : Sect) : Bool := e.used && decide (e.fmt < currentFmt e.typ)

/-! ## The container rules (R34) -/

/-- An index of a list whose element satisfies `p`. -/
def findIx (p : Nat → α → Bool) (l : List α) : (k : Nat) → Option Nat :=
  match l with
  | [] => fun _ => none
  | x :: xs => fun k => if p k x then some k else findIx p xs (k + 1)

/-- What is wrong with entry `k` (R34): an unknown type that is not optional, reserved flags, its place, an overlap with or a copy of
an earlier entry. -/
def Image.entryBad (i : Image) (k : Nat) (e : Sect) : Bool :=
  let before := i.sects.take k
  (!knownType e.typ && !bitOf e.flags 0) || !i.entryOk e || before.any (fun d => d.overlaps e)
    || (knownType e.typ && before.any (fun d => d.typ == e.typ && (oneTypes.contains e.typ || d.inst == e.inst)))

/-- The first entry that breaks R34, or 0xFF for a missing section or a weight section without its fallback. -/
def Image.containerFault (i : Image) : Option Nat :=
  match findIx (fun k e => i.entryBad k e) i.sects 0 with
  | some k => some k
  | none =>
    let has := fun (t n : Nat) => i.sects.any (fun e => e.typ == t && (e.inst == n || oneTypes.contains t))
    if oneTypes.any (fun t => !has t 0) then some 0xFF
    else findIx (fun _ e => e.typ == 6 && !has 7 e.inst) i.sects 0

/-- The first section whose format is neither current nor migratable (R33). -/
def Image.formatFault (i : Image) : Option Nat :=
  findIx (fun _ e => e.used && !(decide (oldestFmt e.typ ≤ e.fmt) && decide (e.fmt ≤ currentFmt e.typ))) i.sects 0

/-- The first section that does not verify within its reads (R28, R32). -/
def Image.verifyFault (i : Image) : Option Nat := findIx (fun _ e => e.used && !(e.reads i.pubDigest).2) i.sects 0

/-! ## Settings -/

/-- The settings that sections of the given types carry. -/
def Image.settings (i : Image) (types : List Nat) : List (Nat × Nat) :=
  (i.sects.filter (fun e => types.contains e.typ)).flatMap (·.cfg)

/-! ## Migration (R48–R50) -/

/-- What a converted section takes in the migration area: its body and its signature, each rounded up to 4 KiB. -/
def migRoom (len : Nat) : Nat := ceilDiv len 4096 * 4096 + 4096

/-- A slot's migration area: the bodies in it. -/
def Flash.mig (fl : Flash) (b : Bool) : List MigBody := if b then fl.migB else fl.migA

/-- A slot's migration area changes. -/
def Flash.setMig (fl : Flash) (b : Bool) (l : List MigBody) : Flash := if b then { fl with migB := l } else { fl with migA := l }

/-- The signature of the device over a converted body, by its migration key (R48): it verifies on that device and on no other. -/
def Otp.migSig (o : Otp) (digest : Nat) : Sig := { key := o.idDigest, msg := digest }

/-- The converted copy that a record names is there, with its digest, and its device signature verifies (R49). -/
def State.migGood (s : State) (b : Bool) (m : MigRec) : Bool :=
  (s.fl.mig b).any (fun x => x.off == m.off && x.len == m.len && x.digest == m.digest && x.sig == s.otp.migSig m.digest)

/-- Whether a section's converted copy is taken from the migration area: its record passes both checks, and its original is not read
(R49). Without the migration key no copy can be checked (R443). -/
def State.recorded (s : State) (b : Bool) (k : Nat) (e : Sect) : Bool :=
  e.old && !s.fb F.SEC_STATUS_ID_FAIL && (s.fl.slotDir b).migs.any (fun m => m.index == k && m.orig == e.digest && s.migGood b m)

/-- The first place in a slot's migration area, which begins where the image ends, that has room for `len` bytes beside the bodies that
records name. -/
def State.migPlace (s : State) (b : Bool) (i : Image) (rest : List MigRec) (len : Nat) : Option Nat :=
  let r := s.fl.region (.slot b)
  let ends := (r.1 + i.len) :: rest.map (fun m => m.off + migRoom m.len)
  ends.find? (fun a => decide (r.1 + i.len ≤ a) && decide (a + migRoom len ≤ r.1 + r.2)
    && rest.all (fun m => decide (m.off + migRoom m.len ≤ a) || decide (a + migRoom len ≤ m.off)))

/-- A section of a slot is migrated, from its record or afresh (R48–R50): a record that fails its check is discarded; the converted body and
its signature are written to the migration area and then the record to the directory, or, for want of room, of records or of the
migration key (R443), the section is migrated in Hopper. -/
def State.migrateOne (s : State) (b : Bool) (i : Image) (k : Nat) (e : Sect) : State :=
  let d := s.fl.slotDir b
  let keyed := !s.fb F.SEC_STATUS_ID_FAIL
  let s := s.setB F.BOOT_STATUS_MIGRATED true
  if s.recorded b k e then s
  else
    let rest := if keyed then d.migs.filter (fun m => m.index != k) else d.migs
    let s := s.addSat F.BOOT_MIG_COUNT_COUNT
    match (if keyed && decide (rest.length < 64) then s.migPlace b i rest e.convLen else none) with
    | some a =>
      let m : MigRec := { index := k, orig := e.digest, off := a, len := e.convLen, digest := e.convDigest }
      let kept := (s.fl.mig b).filter (fun x => rest.any (fun m => m.off == x.off))
      let fl := s.fl.setMig b (kept ++ [{ off := a, len := e.convLen, digest := e.convDigest, sig := s.otp.migSig e.convDigest }])
      ({ s with fl := fl.setSlotDir b { d with migs := rest ++ [m] } } : State).syncSlots.event 0x1 2 k
    | none =>
      let s : State := if rest = d.migs then s else { s with fl := s.fl.setSlotDir b { d with migs := rest } }
      s.syncSlots.event 0x1 Ev.migratedInHopper k

/-- Every older section of a slot is migrated. -/
def State.migrate (s : State) (b : Bool) (i : Image) : State :=
  (List.range i.sects.length).foldl (fun s k =>
    match i.sects[k]? with
    | some e => if e.old then s.migrateOne b i k e else s
    | none => s) s

/-! ## The alias certificate (R445) -/

/-- The Cooper firmware section's body digest. -/
def Image.firmware (i : Image) : Nat := match i.sects.find? (fun e => e.typ == 1) with | some e => e.digest | none => 0

/-- An alias certificate is issued for an image's firmware and shown at SEC_ALIAS; not without derived keys (R443). -/
def State.issueAlias (s : State) (i : Image) : State :=
  if s.fb F.SEC_STATUS_ID_FAIL then s
  else
    let c := (Config.aliasCert i.firmware s.otp.svc).take 1024
    let s := s.setF F.SEC_ALIAS_LEN_BYTES c.length
    (List.range 256).foldl (fun s n => s.setF F.SEC_ALIAS_DATA (leValue (fitBytes 4 (c.drop (4 * n)))) n) { s with sec.issued := c }

end Sys2Proof.Machine
end

