-- ==== Sys2Proof/Machine/Num.lean ====
section
/-!
DEFINITION. Number formats (FP16, BF16, FP32, FP64): IEEE 754 arithmetic on bit patterns, round to nearest, ties to even. Every
operation computes the exact rational result and rounds it once.
-/

namespace Sys2Proof

/-- A binary format: exponent bits and fraction bits. -/
structure Fmt where
  ew : Nat
  mw : Nat
deriving DecidableEq, Repr

/-- FP16. -/
def fp16 : Fmt := ⟨5, 10⟩
/-- BF16. -/
def bf16 : Fmt := ⟨8, 7⟩
/-- FP32. -/
def fp32 : Fmt := ⟨8, 23⟩
def fp64 : Fmt := ⟨11, 52⟩

/-- The exponent bias of a format. -/
def Fmt.bias (m : Fmt) : Nat := 2 ^ (m.ew - 1) - 1

/-- The pattern of plus infinity. -/
def Fmt.inf (m : Fmt) : Nat := (2 ^ m.ew - 1) * 2 ^ m.mw

/-- The quiet NaN the operations answer with. -/
def Fmt.nan (m : Fmt) : Nat := m.inf + 2 ^ (m.mw - 1)

/-- The sign bit of a format. -/
def Fmt.sign (m : Fmt) : Nat := 2 ^ (m.ew + m.mw)

/-- A number a pattern stands for: NaN, an infinity, or the exact value ± n / d. -/
inductive Fv where
  | nan
  | inf (neg : Bool)
  | fin (neg : Bool) (n d : Nat)
deriving DecidableEq, Repr

/-- What a pattern stands for. -/
def Fmt.dec (m : Fmt) (p : Nat) : Fv :=
  let neg := bitOf p (m.ew + m.mw)
  let e := p / 2 ^ m.mw % 2 ^ m.ew
  let f := p % 2 ^ m.mw
  if e = 2 ^ m.ew - 1 then (if f = 0 then .inf neg else .nan)
  else
    let sig := if e = 0 then f else 2 ^ m.mw + f
    let x := if e = 0 then 1 else e
    let k := m.bias + m.mw
    if k ≤ x then .fin neg (sig * 2 ^ (x - k)) 1 else .fin neg sig (2 ^ (k - x))

/-- The floor of log₂ (n / d), as an offset from −4096. -/
def log2Quot (n d : Nat) : Nat :=
  let k := 4096 + Nat.log2 n - Nat.log2 d
  if 4096 ≤ k then (if n < d * 2 ^ (k - 4096) then k - 1 else k)
  else (if n * 2 ^ (4096 - k) < d then k - 1 else k)

/-- The quotient a / b rounded to the nearest integer, ties to even. -/
def rneNat (a b : Nat) : Nat :=
  let q := a / b
  let r := a % b
  if 2 * r < b then q else if b < 2 * r then q + 1 else q + q % 2

/-- The pattern nearest to ± n / d, ties to even; what lies beyond the largest number is an infinity. -/
def Fmt.round (m : Fmt) (neg : Bool) (n d : Nat) : Nat :=
  let s := if neg then m.sign else 0
  if n = 0 then s
  else
    let emin := 4097 - m.bias
    let e := Nat.max (log2Quot n d) emin
    let q := if 4096 + m.mw ≤ e then rneNat n (d * 2 ^ (e - 4096 - m.mw)) else rneNat (n * 2 ^ (4096 + m.mw - e)) d
    let p := (e - emin) * 2 ^ m.mw + q
    s + Nat.min p m.inf

/-- The pattern nearest to a value. -/
def Fmt.enc (m : Fmt) : Fv → Nat
  | .nan => m.nan
  | .inf neg => (if neg then m.sign else 0) + m.inf
  | .fin neg n d => m.round neg n d

/-- The opposite value. -/
def Fv.neg : Fv → Fv
  | .nan => .nan
  | .inf s => .inf !s
  | .fin s n d => .fin (!s) n d

/-- The exact sum; x + (−x) is +0. -/
def Fv.add : Fv → Fv → Fv
  | .nan, _ => .nan
  | _, .nan => .nan
  | .inf s, .inf t => if s = t then .inf s else .nan
  | .inf s, _ => .inf s
  | _, .inf t => .inf t
  | .fin s n d, .fin t k e =>
    let a : Int := if s then -((n * e : Nat) : Int) else (n * e : Nat)
    let b : Int := if t then -((k * d : Nat) : Int) else (k * d : Nat)
    let v := a + b
    if v = 0 then .fin (s && t) 0 1 else .fin (decide (v < 0)) v.natAbs (d * e)

/-- The exact product. -/
def Fv.mul : Fv → Fv → Fv
  | .nan, _ => .nan
  | _, .nan => .nan
  | .inf s, .inf t => .inf (s != t)
  | .inf s, .fin t n _ => if n = 0 then .nan else .inf (s != t)
  | .fin s n _, .inf t => if n = 0 then .nan else .inf (s != t)
  | .fin s n d, .fin t k e => .fin (s != t) (n * k) (d * e)

/-- The exact quotient. -/
def Fv.div : Fv → Fv → Fv
  | .nan, _ => .nan
  | _, .nan => .nan
  | .inf _, .inf _ => .nan
  | .inf s, .fin t _ _ => .inf (s != t)
  | .fin s _ _, .inf t => .fin (s != t) 0 1
  | .fin s n d, .fin t k e =>
    if k = 0 then (if n = 0 then .nan else .inf (s != t)) else .fin (s != t) (n * e) (d * k)

/-- An integer as a value. -/
def Fv.ofInt (i : Int) : Fv := .fin (decide (i < 0)) i.natAbs 1

/-- A rational as a value. -/
def Fv.ofRat (n : Int) (d : Nat) : Fv := .fin (decide (n < 0)) n.natAbs d

/-- Whether a is less than b (false where one is NaN). -/
def Fv.lt : Fv → Fv → Bool
  | .nan, _ => false
  | _, .nan => false
  | .inf s, .inf t => s && !t
  | .inf s, _ => s
  | _, .inf t => !t
  | .fin s n d, .fin t k e =>
    let a : Int := if s then -((n * e : Nat) : Int) else (n * e : Nat)
    let b : Int := if t then -((k * d : Nat) : Int) else (k * d : Nat)
    decide (a < b)

/-- Whether a is at most b (false where one is NaN). -/
def Fv.le (a b : Fv) : Bool := a != .nan && b != .nan && !(b.lt a)

/-- The integer square root, by halving. -/
def isqrtGo (n : Nat) : (fuel lo hi : Nat) → Nat
  | 0, lo, _ => lo
  | f + 1, lo, hi =>
    if hi ≤ lo + 1 then lo
    else
      let mid := (lo + hi) / 2
      if mid * mid ≤ n then isqrtGo n f mid hi else isqrtGo n f lo mid

/-- The integer square root. -/
def isqrt (n : Nat) : Nat := isqrtGo n (Nat.log2 n + 2) 0 (2 ^ (Nat.log2 n / 2 + 1))

/-- The square root in a format, rounded once: enough bits and a sticky bit. -/
def Fmt.sqrt (m : Fmt) (v : Fv) : Nat :=
  match v with
  | .nan => m.nan
  | .inf s => if s then m.nan else m.inf
  | .fin s n d =>
    if n = 0 then (if s then m.sign else 0)
    else if s then m.nan
    else
      let k := m.mw + 8 + Nat.log2 d
      let x := n * 4 ^ k / d
      let r := isqrt x
      let sticky := if r * r = x ∧ n * 4 ^ k % d = 0 then 0 else 1
      m.round false (2 * r + sticky) (2 * 2 ^ k)

/-! ## Arithmetic on patterns -/

def Fmt.add (m : Fmt) (a b : Nat) : Nat := m.enc ((m.dec a).add (m.dec b))
def Fmt.sub (m : Fmt) (a b : Nat) : Nat := m.enc ((m.dec a).add (m.dec b).neg)
def Fmt.mul (m : Fmt) (a b : Nat) : Nat := m.enc ((m.dec a).mul (m.dec b))
def Fmt.div (m : Fmt) (a b : Nat) : Nat := m.enc ((m.dec a).div (m.dec b))
def Fmt.lt (m : Fmt) (a b : Nat) : Bool := (m.dec a).lt (m.dec b)

/-- A pattern of one format as the nearest pattern of another. -/
def Fmt.conv (src dst : Fmt) (p : Nat) : Nat := dst.enc (src.dec p)

/-- The pattern nearest to an integer. -/
def Fmt.ofInt (m : Fmt) (i : Int) : Nat := m.enc (Fv.ofInt i)

/-- The pattern nearest to a rational. -/
def Fmt.ofRat (m : Fmt) (n : Int) (d : Nat) : Nat := m.enc (Fv.ofRat n d)

/-- Whether a pattern is NaN or an infinity. -/
def Fmt.special (m : Fmt) (p : Nat) : Bool := p / 2 ^ m.mw % 2 ^ m.ew == 2 ^ m.ew - 1

/-- The value times 2^k, toward nothing lost: floor of v × k as an integer (0 for what is not a number). -/
def Fv.floorMul (v : Fv) (k : Nat) : Int :=
  match v with
  | .fin s n d => if s then -(ceilDiv (n * k) d : Nat) else ((n * k / d : Nat) : Int)
  | _ => 0

/-- The value times k, rounded to the nearest integer, ties to even; an infinity becomes a large number, NaN becomes 0. -/
def Fv.rneMul (v : Fv) (k : Nat) : Int :=
  match v with
  | .fin s n d => if s then -(rneNat (n * k) d : Nat) else (rneNat (n * k) d : Nat)
  | .inf s => if s then -(2 ^ 200 : Nat) else (2 ^ 200 : Nat)
  | .nan => 0

end Sys2Proof
end

