-- ==== Sys2Proof/Machine/Operands.lean ====
section
/-!
DEFINITION. The 18 arithmetic formats of Table 7-1 and their conversions (R161–R164), block scaling (R166, R167), the epilogue
(R165), the matrix accumulators (R170), the cost of a matrix task (R171) and FX32 (R175).
-/

namespace Sys2Proof

/-- A format of Table 7-1: an integer, a floating format with its largest finite code, Q16.16, Q64.64, or a block scale. -/
inductive Form where
  | int (w : Nat) (signed : Bool)
  | flt (m : Fmt) (top : Nat)
  | fx (w frac : Nat)
  | scale
deriving DecidableEq, Repr

/-- Table 7-1, by number. -/
def formOf : Nat → Form
  | 1 => .int 4 true
  | 2 => .int 4 false
  | 3 => .int 8 true
  | 4 => .int 8 false
  | 5 => .int 16 true
  | 6 => .int 32 true
  | 7 => .flt ⟨2, 1⟩ 0x7
  | 8 => .flt ⟨2, 3⟩ 0x1F
  | 9 => .flt ⟨3, 2⟩ 0x1F
  | 10 => .flt ⟨4, 3⟩ 0x7E
  | 11 => .flt ⟨5, 2⟩ 0x7B
  | 12 => .flt bf16 0x7F7F
  | 13 => .flt fp16 0x7BFF
  | 14 => .flt fp32 0x7F7FFFFF
  | 15 => .flt fp64 0x7FEFFFFFFFFFFFFF
  | 16 => .fx 32 16
  | 17 => .fx 128 64
  | _ => .scale

/-- The width of a format in bits (Table 7-1). -/
def Form.width : Form → Nat
  | .int w _ => w
  | .flt m _ => 1 + m.ew + m.mw
  | .fx w _ => w
  | .scale => 8

/-- The value of a floating code that is finite: R161's two cases. -/
def Fmt.finite (m : Fmt) (p : Nat) : Fv :=
  let neg := bitOf p (m.ew + m.mw)
  let e := p / 2 ^ m.mw % 2 ^ m.ew
  let f := p % 2 ^ m.mw
  let sig := if e = 0 then f else 2 ^ m.mw + f
  let x := if e = 0 then 1 else e
  let k := m.bias + m.mw
  if k ≤ x then .fin neg (sig * 2 ^ (x - k)) 1 else .fin neg sig (2 ^ (k - x))

/-- What a code of a format stands for (R161). -/
def Form.dec (f : Form) (p : Nat) : Fv :=
  match f with
  | .int w s => if s then Fv.ofInt (sgn w p) else Fv.ofInt (p % 2 ^ w : Nat)
  | .flt m top =>
    let a := p % m.sign
    if a ≤ top then m.finite p
    else if m.ew = 4 then .nan
    else if a = m.inf then .inf (bitOf p (m.ew + m.mw)) else .nan
  | .fx w k => Fv.ofRat (sgn w p) (2 ^ k)
  | .scale => if p % 256 = 255 then .nan else if 127 ≤ p % 256 then .fin false (2 ^ (p % 256 - 127)) 1 else .fin false 1 (2 ^ (127 - p % 256))

/-- What a conversion gives: the code, whether it saturated, whether it converted a NaN. -/
structure Conv where
  code : Nat
  sat : Bool := false
  nan : Bool := false
deriving DecidableEq, Repr

/-- The code a NaN is converted to (R163). -/
def Form.nanCode : Form → Nat
  | .flt m _ => if m.ew ≤ 3 then 0 else if m.ew = 4 then 0x7F else m.nan
  | _ => 0

/-- An integer held to the range of a format, as its code, and whether that changed it (R164). -/
def satTo (w : Nat) (signed : Bool) (v : Int) : Conv :=
  let r : Int := if signed then satS w v else (clampU w v : Nat)
  { code := uns w r, sat := r != v }

/-- A finite value converted into a format: FP32 and FP64 overflow to infinity, formats 7 to 13 saturate (R162, R164). -/
def Form.convFin (f : Form) (neg : Bool) (n d : Nat) : Conv :=
  match f with
  | .int w s => satTo w s ((Fv.fin neg n d).rneMul 1)
  | .fx w k => satTo w true ((Fv.fin neg n d).rneMul (2 ^ k))
  | .scale => { code := 0 }
  | .flt m top =>
    if 23 ≤ m.mw then { code := m.enc (.fin neg n d) }
    else
      let big := (m.finite top).lt (.fin false n d)
      let r := (Fmt.mk (m.ew + 1) m.mw)
      let e0 := 4097 - m.bias
      let e := Nat.max (log2Quot n d) e0
      let q := if 4096 + r.mw ≤ e then rneNat n (d * 2 ^ (e - 4096 - r.mw)) else rneNat (n * 2 ^ (4096 + r.mw - e)) d
      let a := if big then top else if n = 0 then 0 else (e - e0) * 2 ^ m.mw + q
      { code := (if neg then m.sign else 0) + a, sat := big }

/-- An infinity converted into a format (R162, R164). -/
def Form.convInf (f : Form) (neg : Bool) : Conv :=
  match f with
  | .int w s => satTo w s ((Fv.inf neg).rneMul 1)
  | .fx w k => satTo w true ((Fv.inf neg).rneMul (2 ^ k))
  | .scale => { code := 0 }
  | .flt m top => if 23 ≤ m.mw then { code := m.enc (.inf neg) } else { code := (if neg then m.sign else 0) + top, sat := true }

/-- A conversion into a format (R162, R163, R164). -/
def Form.conv (f : Form) (v : Fv) : Conv :=
  match v with
  | .nan => { code := f.nanCode, nan := true }
  | .inf neg => f.convInf neg
  | .fin neg n d => f.convFin neg n d

/-! ## The epilogue (R165) -/

/-- Saturation to 32 signed bits. -/
def sat32 (v : Int) : Int := satS 32 v

/-- The integer path of R165 for one channel, before the activation: the value and the saturations. -/
def epiInt (w : Nat) (signed : Bool) (zero acc bias mult : Int) (shift : Nat) : Int × Nat :=
  let t := sat32 (acc + bias)
  let y := (t * mult + 2 ^ (shift - 1)) / 2 ^ shift + zero
  let r : Int := if signed then satS w y else (clampU w y : Nat)
  (r, b2n (t != acc + bias) + b2n (r != y))

/-- The activations of the integer path (R165): identity, ReLU, clamp to a per-layer range. -/
def actInt (act : Nat) (zero lo hi y : Int) : Int :=
  match act with
  | 1 => max y zero
  | 2 => max lo (min hi y)
  | _ => y

/-- fma in FP32, rounded once. -/
def fma32 (a b c : Nat) : Nat := fp32.enc (((fp32.dec a).mul (fp32.dec b)).add (fp32.dec c))

/-! ## Block scaling (R166, R167) -/

/-- emax_T of R167. -/
def emaxOf : Form → Nat
  | .flt m _ => if m.ew = 2 then 2 else if m.ew = 3 then 4 else if m.ew = 4 then 8 else 15
  | _ => 0

/-- The larger magnitude of two values; a NaN wins. -/
def Fv.maxAbs (a b : Fv) : Fv :=
  let abs := fun (v : Fv) => match v with | .nan => Fv.nan | .inf _ => .inf false | .fin _ n d => .fin false n d
  match abs a, abs b with
  | .nan, _ => .nan
  | _, .nan => .nan
  | x, y => if x.lt y then y else x

/-- The power of two 2^(e − 4096) times a value. -/
def Fv.scale2 (v : Fv) (e : Nat) : Fv :=
  match v with
  | .fin s n d => if 4096 ≤ e then .fin s (n * 2 ^ (e - 4096)) d else .fin s n (d * 2 ^ (4096 - e))
  | v => v

/-- R167: the scale and the elements of a block of FP32 values. -/
def quantBlock (f : Form) (xs : List Nat) : Nat × List Nat :=
  let vs := xs.map fp32.dec
  match vs.foldl Fv.maxAbs (.fin false 0 1) with
  | .nan => (0xFF, (List.range vs.length).map (fun i => Config.nanBlockElem i % 2 ^ f.width))
  | .inf _ => (254, vs.map (fun v => (f.conv (v.scale2 (4096 + 127 - 254))).code))
  | .fin _ n d =>
    if n = 0 then (0, vs.map (fun _ => 0))
    else
      let e : Int := (log2Quot n d : Nat) - 4096 - (emaxOf f : Nat) + 127
      let sc := if e < 0 then 0 else if 254 < e then 254 else e.toNat
      (sc, vs.map (fun v => (f.conv (v.scale2 (4096 + 127 - sc))).code))

/-- R166: the value of a block-scaled element. -/
def blockValue (f : Form) (sc p : Nat) : Fv := (Form.scale.dec sc).mul (f.dec p)

/-! ## Matrix accumulators (R170) and cost (R171) -/

/-- An addition that saturates to 32 signed bits, with the saturations so far (R164). -/
def addSat32 (a : Int × Nat) (v : Int) : Int × Nat := (sat32 (a.1 + v), a.2 + b2n (sat32 (a.1 + v) != a.1 + v))

/-- One cycle of an integer accumulator: the exact sum of the products is added with saturation. -/
def accInt (acc : Int × Nat) (ps : List (Int × Int)) : Int × Nat := addSat32 acc (sumZ (ps.map (fun p => p.1 * p.2)))

/-- One cycle of a float accumulator: the exact products summed exactly and added with one rounding. The operands carry the scales of their blocks
(`blockValue`), so the sum is R170's, multiplied by 2^(s_w + s_a − 254) where both are block-scaled. -/
def accFloat (acc : Nat) (ps : List (Fv × Fv)) : Nat :=
  fp32.enc ((fp32.dec acc).add (ps.foldl (fun (a : Fv) p => a.add (p.1.mul p.2)) (Fv.fin false 0 1)))

/-- The tile of Table 7-2 for an operand width: K and N. -/
def tileOf (width : Nat) : Nat × Nat := if width = 4 then (32, 32) else if width ≤ 8 then (16, 32) else (16, 16)

/-- R171: the CLK_T cycles of a matrix task of M vectors over K × N weights. -/
def matrixCycles (width k n m : Nat) : Nat :=
  ceilDiv k (tileOf width).1 * ceilDiv n (tileOf width).2 * Nat.max m 8 + 24

/-- R169: the pairs of weight and activation formats a matrix layer may have. -/
def pairOk (w a : Nat) : Bool :=
  (decide (1 ≤ w ∧ w ≤ 4) && decide (1 ≤ a ∧ a ≤ 4)) || (decide (7 ≤ w ∧ w ≤ 11) && decide (7 ≤ a ∧ a ≤ 11))
    || (w == 12 && a == 12) || (w == 13 && a == 13)

/-! ## FX32 (R175) -/

/-- The quotient a / b rounded to nearest, ties away from zero. -/
def rnaDiv (a : Int) (b : Nat) : Int := if a < 0 then -(((2 * a.natAbs + b) / (2 * b) : Nat) : Int) else (((2 * a.natAbs + b) / (2 * b) : Nat) : Int)

def fx32Add (a b : Int) : Int := satS 32 (a + b)
def fx32Sub (a b : Int) : Int := satS 32 (a - b)
def fx32Mul (a b : Int) : Int := satS 32 (rnaDiv (a * b) 65536)

/-- A little-endian bit string of elements `w` bits wide, as bytes (R190's packing of elements under 8 bits). -/
def packBits (w : Nat) (l : List Nat) : List Byte :=
  leBytes (ceilDiv (w * l.length) 8) (l.foldr (fun e a => e % 2 ^ w + 2 ^ w * a) 0)

end Sys2Proof
end

