-- ==== Sys2Proof/Machine/Elem.lean ====
section
/-!
DEFINITION. The functions of the vector engine (R174): each is the correctly rounded FP32 result, moved by an error the spec leaves open inside its
bound of 2 or 4 ulp. The exact values are formed in fixed point with 1,024 fraction bits.
-/

namespace Sys2Proof

/-- One in fixed point. -/
def fixOne : Nat := 2 ^ 1024

/-- e^(n / d) in fixed point, for 0 ≤ n / d ≤ 256: the series at 1/256 of the argument, squared eight times. -/
def expFix (n d : Nat) : Nat :=
  let x := n * fixOne / (256 * d)
  let sum := ((List.range 400).foldl (fun (a : Nat × Nat) i => let t := a.2 * x / fixOne / (i + 1); (a.1 + t, t)) (fixOne, fixOne)).1
  (List.range 8).foldl (fun s _ => s * s / fixOne) sum

/-- ln 2 in fixed point. -/
def ln2Fix : Nat := sumN ((List.range 1100).map (fun i => fixOne / ((i + 1) * 2 ^ (i + 1))))

/-- ln (n / d) in fixed point, for 1 ≤ n / d ≤ 2. -/
def lnFix (n d : Nat) : Nat :=
  let z := (n - d) * fixOne / (n + d)
  2 * ((List.range 400).foldl (fun (a : Nat × Nat) i => (a.1 + a.2 / (2 * i + 1), a.2 * z / fixOne * z / fixOne)) (0, z)).1

/-- The larger of two values; a NaN wins (R163). -/
def Fv.max' (a b : Fv) : Fv := if a == .nan || b == .nan then .nan else if a.lt b then b else a

/-- A value as FP32 arithmetic sees it. -/
def Fv.r32 (v : Fv) : Fv := fp32.dec (fp32.enc v)

/-- A code as an integer: the value of an integer format, the scaled value of a fixed-point one. -/
def Form.int' (f : Form) (p : Nat) : Int :=
  match f with
  | .int w s => if s then sgn w p else (p % 2 ^ w : Nat)
  | .fx w _ => sgn w p
  | _ => 0

/-- e^v. -/
def Fv.exp : Fv → Fv
  | .nan => .nan
  | .inf s => if s then .fin false 0 1 else .inf false
  | .fin s n d =>
    if 256 * d < n then (if s then .fin false 0 1 else .inf false)
    else if s then .fin false fixOne (expFix n d) else .fin false (expFix n d) fixOne

/-- 2^v. -/
def Fv.exp2 (v : Fv) : Fv := (v.mul (.fin false ln2Fix fixOne)).exp

/-- log₂ v. -/
def Fv.log2 : Fv → Fv
  | .nan => .nan
  | .inf s => if s then .nan else .inf false
  | .fin s n d =>
    if n = 0 then .inf true
    else if s then .nan
    else
      let k := log2Quot n d
      let m : Nat × Nat := if 4096 ≤ k then (n, d * 2 ^ (k - 4096)) else (n * 2 ^ (4096 - k), d)
      (Fv.ofInt ((k : Int) - 4096)).add (.fin false (lnFix m.1 m.2) ln2Fix)

/-- 1 / (1 + e^−v). -/
def Fv.sigmoid (v : Fv) : Fv := (Fv.ofInt 1).div ((Fv.ofInt 1).add v.neg.exp)

/-- tanh v, from e^(−2|v|). -/
def Fv.tanh : Fv → Fv
  | .nan => .nan
  | .inf s => .fin s 1 1
  | .fin s n d =>
    let t := (Fv.fin true (2 * n) d).exp
    let r := ((Fv.ofInt 1).add t.neg).div ((Fv.ofInt 1).add t)
    if s then r.neg else r

/-- GELU in its tanh form: ½ v (1 + tanh (√(2/π) (v + 0.044715 v³))), its constants to 40 digits (PRESUMED: the form is named, not restated; log
entry 82). -/
def Fv.gelu (v : Fv) : Fv :=
  let c : Fv := .fin false 7978845608028653558798921198687637369517 (10 ^ 40)
  let u := c.mul (v.add ((Fv.fin false 44715 1000000).mul (v.mul (v.mul v))))
  ((Fv.fin false 1 2).mul v).mul ((Fv.ofInt 1).add u.tanh)

/-- Hard-swish: v · min (max (v + 3, 0), 6) / 6 (PRESUMED, log entry 82). -/
def Fv.hardSwish (v : Fv) : Fv :=
  let t := v.add (Fv.ofInt 3)
  let t := if t.lt (Fv.ofInt 0) then Fv.ofInt 0 else if (Fv.ofInt 6).lt t then Fv.ofInt 6 else t
  (v.mul t).mul (.fin false 1 6)

/-- The functions of R174: the four of the vector engine, then those built from them. -/
inductive VFn where
  | exp2
  | log2
  | recip
  | rsqrt
  | exp
  | sigmoid
  | tanh
  | gelu
  | silu
  | hardSwish
deriving DecidableEq, Repr

/-- The number by which the open errors of a function are told apart. -/
def VFn.num : VFn → Nat
  | .exp2 => 0 | .log2 => 1 | .recip => 2 | .rsqrt => 3 | .exp => 4 | .sigmoid => 5 | .tanh => 6 | .gelu => 7 | .silu => 8 | .hardSwish => 9

/-- The bound of R174 in ulp. -/
def VFn.ulps (f : VFn) : Nat := if f.num < 4 then 2 else 4

/-- The correctly rounded FP32 result. -/
def VFn.exact (f : VFn) (v : Fv) : Nat :=
  match f with
  | .exp2 => fp32.enc v.exp2
  | .log2 => fp32.enc v.log2
  | .recip => fp32.enc ((Fv.ofInt 1).div v)
  | .rsqrt => fp32.sqrt ((Fv.ofInt 1).div v)
  | .exp => fp32.enc v.exp
  | .sigmoid => fp32.enc v.sigmoid
  | .tanh => fp32.enc v.tanh
  | .gelu => fp32.enc v.gelu
  | .silu => fp32.enc (v.mul v.sigmoid)
  | .hardSwish => fp32.enc v.hardSwish

/-- An FP32 pattern moved by at most `n` places, its sign kept. -/
def ulpMove (n : Nat) (e : Int) (p : Nat) : Nat :=
  if p % fp32.sign > fp32.inf then p
  else
    let d := max (-(n : Int)) (min (n : Int) e)
    let a : Int := ((p % fp32.sign : Nat) : Int) + d
    p / fp32.sign * fp32.sign + Nat.min fp32.inf a.toNat

/-- A function of the vector engine on an FP32 pattern (R174): for a finite input, within its bound of the correctly rounded result; the error is a
free value, one for each function and input. -/
def VFn.run (f : VFn) (x : Nat) : Nat :=
  let r := f.exact (fp32.dec x)
  if fp32.special x then r else ulpMove f.ulps (Config.ulpErr f.num x) r

/-! ## The activations of the float path (Table 7-8, R165) -/

/-- An activation in FP32: identity, ReLU, clamp to the layer's range, leaky ReLU (its slope is a free value), sigmoid, tanh, GELU, SiLU, hard-swish. -/
def actFloat (act : Nat) (lo hi : Int) (v : Nat) : Nat :=
  match act with
  | 1 => if fp32.lt v 0 then 0 else v
  | 2 => if fp32.lt v (fp32.ofInt lo) then fp32.ofInt lo else if fp32.lt (fp32.ofInt hi) v then fp32.ofInt hi else v
  | 3 => if fp32.lt v 0 then fp32.mul Config.leakySlope v else v
  | 4 => VFn.sigmoid.run v
  | 5 => VFn.tanh.run v
  | 6 => VFn.gelu.run v
  | 7 => VFn.silu.run v
  | 8 => VFn.hardSwish.run v
  | _ => v

end Sys2Proof
end

