-- ==== Sys2Proof/Machine/Lin.lean ====
section
/-!
DEFINITION. Exact arithmetic for the filter of chapter 09 and the solver of chapter 10: vectors, matrices, rotations and rigid motions over exact values.
Roots and trigonometric functions are formed in fixed point, far beyond FP64. What a unit's own arithmetic makes of an exact value is `Fv.eval`, a
free value where the spec fixes no order of operations (log entry 101).
-/

namespace Sys2Proof

/-! ## Values -/

/-- A value in lowest terms. -/
def Fv.low : Fv → Fv
  | .fin s n d => if n = 0 then .fin false 0 1 else .fin s (n / Nat.gcd n d) (d / Nat.gcd n d)
  | v => v

/-- Sum, difference, product and quotient in lowest terms. -/
def Fv.plus (a b : Fv) : Fv := (a.add b).low
def Fv.minus (a b : Fv) : Fv := (a.add b.neg).low
def Fv.times (a b : Fv) : Fv := (a.mul b).low
def Fv.over (a b : Fv) : Fv := (a.div b).low

/-- 0, 1, ½. -/
def Fv.zero : Fv := .fin false 0 1
def Fv.one : Fv := .fin false 1 1
def Fv.half : Fv := .fin false 1 2

/-- Whether a value is 0, in whatever terms. -/
def Fv.isZero : Fv → Bool
  | .fin _ n _ => n == 0
  | _ => false

/-- Whether a value is a number. -/
def Fv.isFin : Fv → Bool
  | .fin _ _ _ => true
  | _ => false

/-- The magnitude, the square, and the larger of two values. -/
def Fv.abs : Fv → Fv
  | .fin _ n d => .fin false n d
  | .inf _ => .inf false
  | .nan => .nan
def Fv.sq (v : Fv) : Fv := v.times v
def Fv.most (a b : Fv) : Fv := if a.lt b then b else a

/-- √v to 1,200 fraction bits. -/
def Fv.root : Fv → Fv
  | .fin s n d => if s && n != 0 then .nan else (Fv.fin false (isqrt (n * 4 ^ 1200 / d)) (2 ^ 1200)).low
  | .inf s => if s then .nan else .inf false
  | .nan => .nan

/-- sin v (`odd`) or cos v by its series, with 512 fraction bits and more for a large argument. -/
def Fv.trig (odd : Bool) : Fv → Fv
  | .fin s n d =>
    let b := 2 ^ (512 + 4 * (n / d))
    let x := n * b / d
    let o := b2n odd
    let r := ((List.range (200 + 4 * (n / d))).foldl (fun (a : Int × Nat) i =>
      (if i % 2 = 0 then a.1 + a.2 else a.1 - a.2, a.2 * x / b * x / b / ((2 * i + 1 + o) * (2 * i + 2 + o)))) (0, if odd then x else b)).1
    let v := (Fv.ofRat r b).low
    if s && odd then v.neg else v
  | _ => .nan

def Fv.sin (v : Fv) : Fv := v.trig true
def Fv.cos (v : Fv) : Fv := v.trig false

/-- arctan v: the argument halved four times, then the series. -/
def Fv.atan (v : Fv) : Fv :=
  let h := fun (x : Fv) => x.over (Fv.one.plus (Fv.one.plus x.sq).root)
  match h (h (h (h v))) with
  | .fin s n d =>
    let b := 2 ^ 512
    let x := n * b / d
    let r := ((List.range 100).foldl (fun (a : Int × Nat) i =>
      (if i % 2 = 0 then a.1 + (a.2 / (2 * i + 1) : Nat) else a.1 - (a.2 / (2 * i + 1) : Nat), a.2 * x / b * x / b)) (0, x)).1
    let w := (Fv.ofRat (16 * r) b).low
    if s then w.neg else w
  | _ => .nan

/-- arccos v, for −1 ≤ v ≤ 1 (what lies outside counts as the end): 2 arctan (√(1 − v²) / (1 + v)); 180 degrees at −1. -/
def Fv.acos (v : Fv) : Fv :=
  let one := Fv.one
  if one.lt v then Fv.zero
  else if v.le one.neg then (Fv.ofInt 4).times one.atan
  else (Fv.ofInt 2).times (((one.minus v.sq).root.over (one.plus v)).atan)

/-- Degrees in a radian. -/
def Fv.degrees (v : Fv) : Fv := (v.times (Fv.ofInt 45)).over Fv.one.atan

/-- What an arithmetic of the format makes of an exact value: a free value, for no order of operations is fixed (log entry 101). -/
def Fmt.eval (m : Fmt) : Fv → Nat
  | .fin s n d => match (Fv.fin s n d).low with
    | .fin s' n' d' => Config.evalNum (m.ew + m.mw) s' n' d'
    | _ => m.nan
  | v => m.enc v

/-! ## Vectors -/

def vAdd (a b : List Fv) : List Fv := (a.zip b).map (fun p => p.1.plus p.2)
def vSub (a b : List Fv) : List Fv := (a.zip b).map (fun p => p.1.minus p.2)
def vScale (k : Fv) (a : List Fv) : List Fv := a.map (k.times ·)
def vNeg (a : List Fv) : List Fv := a.map Fv.neg
def vSum (a : List Fv) : Fv := a.foldl Fv.plus Fv.zero
def vDot (a b : List Fv) : Fv := vSum ((a.zip b).map (fun p => p.1.times p.2))
def vNorm (a : List Fv) : Fv := (vDot a a).root
def vZero (n : Nat) : List Fv := List.replicate n Fv.zero

/-- The element of a vector at a place (0 past its end). -/
def vAt (a : List Fv) (i : Nat) : Fv := nth Fv.zero a i

/-- a × b. -/
def cross (a b : List Fv) : List Fv :=
  let t := fun (i j : Nat) => ((vAt a i).times (vAt b j)).minus ((vAt a j).times (vAt b i))
  [t 1 2, t 2 0, t 0 1]

/-! ## Matrices, row by row -/

/-- A matrix from its elements. -/
def matOf (r c : Nat) (f : Nat → Nat → Fv) : List (List Fv) := (List.range r).map (fun i => (List.range c).map (f i))

/-- The element of a matrix. -/
def mAt (m : List (List Fv)) (i j : Nat) : Fv := vAt (nth [] m i) j

/-- The columns a matrix has. -/
def mCols (m : List (List Fv)) : Nat := (nth [] m 0).length

def mEye (n : Nat) : List (List Fv) := matOf n n (fun i j => if i = j then Fv.one else Fv.zero)
def mZero (r c : Nat) : List (List Fv) := List.replicate r (vZero c)
def mTr (m : List (List Fv)) : List (List Fv) := (List.range (mCols m)).map (fun j => m.map (fun r => vAt r j))
def mVec (m : List (List Fv)) (v : List Fv) : List Fv := m.map (fun r => vDot r v)
def mMul (a b : List (List Fv)) : List (List Fv) := let t := mTr b; a.map (fun r => t.map (vDot r))
def mAdd (a b : List (List Fv)) : List (List Fv) := (a.zip b).map (fun p => vAdd p.1 p.2)
def mSub (a b : List (List Fv)) : List (List Fv) := (a.zip b).map (fun p => vSub p.1 p.2)
def mScale (k : Fv) (m : List (List Fv)) : List (List Fv) := m.map (vScale k)
def mDiag (d : List Fv) : List (List Fv) := matOf d.length d.length (fun i j => if i = j then vAt d i else Fv.zero)

/-- Matrices side by side, and one above the other. -/
def mBeside (a b : List (List Fv)) : List (List Fv) := (a.zip b).map (fun p => p.1 ++ p.2)

/-- The rows and columns of a matrix in a list of places. -/
def mPick (m : List (List Fv)) (rows cols : List Nat) : List (List Fv) := rows.map (fun i => cols.map (mAt m i))

/-- a b aᵀ. -/
def mCong (a b : List (List Fv)) : List (List Fv) := mMul (mMul a b) (mTr a)

/-- The mean of a matrix and its transpose. -/
def mSym (m : List (List Fv)) : List (List Fv) := mScale Fv.half (mAdd m (mTr m))

/-- One elimination on a pivot: its row is divided by it, and every other row loses its column. -/
def elimAt (m : List (List Fv)) (i : Nat) : List (List Fv) :=
  let p := nth [] m i
  let c := vAt p i
  let q := p.map (·.over c)
  (List.range m.length).map (fun k => let r := nth [] m k; if k = i then q else vSub r (vScale (vAt r i) q))

/-- The solution of a x = b, column by column of b. -/
def mSolve (a b : List (List Fv)) : List (List Fv) :=
  ((List.range a.length).foldl elimAt (mBeside a b)).map (fun r => r.drop a.length)

def mInv (a : List (List Fv)) : List (List Fv) := mSolve a (mEye a.length)

/-- The pivots of a symmetric matrix in its own order. -/
def mPivots (a : List (List Fv)) : List Fv :=
  ((List.range a.length).foldl (fun (r : List (List Fv) × List Fv) i => (elimAt r.1 i, r.2 ++ [mAt r.1 i i])) (a, [])).2

/-- Whether a symmetric matrix is positive definite. -/
def posDef (a : List (List Fv)) : Bool := (mPivots a).all (fun p => Fv.zero.lt p)

/-- The largest eigenvalue of a symmetric positive semidefinite matrix, from above, by halving the interval up to its trace 256 times. -/
def maxEig (a : List (List Fv)) : Fv :=
  let tr := vSum ((List.range a.length).map (fun i => mAt a i i))
  ((List.range 256).foldl (fun (r : Fv × Fv) _ =>
    let m := Fv.half.times (r.1.plus r.2)
    if posDef (mSub (mScale m (mEye a.length)) a) then (r.1, m) else (m, r.2)) (Fv.zero, tr)).2

/-- Whether the smallest eigenvalue is at least 10⁻⁶ of the largest. -/
def eigWell (a : List (List Fv)) : Bool :=
  let c := (maxEig a).over (Fv.ofInt 1000000)
  (mPivots (mSub a (mScale c (mEye a.length)))).all (fun p => Fv.zero.le p)

/-- A symmetric matrix from its upper triangle, row by row, and back. -/
def upper (n : Nat) (l : List Fv) : List (List Fv) :=
  matOf n n (fun i j => let r := Nat.min i j; let c := Nat.max i j; vAt l (r * n - r * (r - 1) / 2 + (c - r)))
def upperOf (m : List (List Fv)) : List Fv := (List.range m.length).flatMap (fun i => (List.range (m.length - i)).map (fun j => mAt m i (i + j)))

/-! ## Rotations and rigid motions -/

/-- The product of quaternions w, x, y, z. -/
def qMul (a b : List Fv) : List Fv :=
  let t := fun (i j : Nat) => (vAt a i).times (vAt b j)
  [(((t 0 0).minus (t 1 1)).minus (t 2 2)).minus (t 3 3), (((t 0 1).plus (t 1 0)).plus (t 2 3)).minus (t 3 2),
   (((t 0 2).minus (t 1 3)).plus (t 2 0)).plus (t 3 1), (((t 0 3).plus (t 1 2)).minus (t 2 1)).plus (t 3 0)]

/-- The opposite rotation. -/
def qConj (q : List Fv) : List Fv := vAt q 0 :: vNeg (q.drop 1)

/-- The quaternion of unit norm with w at least 0 (its sign turned where it is less). -/
def qUnit (q : List Fv) : List Fv :=
  let n := vNorm q
  let u := q.map (·.over n)
  if (vAt u 0).lt Fv.zero then vNeg u else u

/-- A vector turned by a unit quaternion. -/
def qRot (q v : List Fv) : List Fv := (qMul (qMul q (Fv.zero :: v)) (qConj q)).drop 1

/-- The rotation matrix of a unit quaternion. -/
def qMat (q : List Fv) : List (List Fv) :=
  mTr [qRot q [Fv.one, Fv.zero, Fv.zero], qRot q [Fv.zero, Fv.one, Fv.zero], qRot q [Fv.zero, Fv.zero, Fv.one]]

/-- The SO(3) exponential of a rotation vector (R270). -/
def qExp (v : List Fv) : List Fv :=
  let n := vNorm v
  let h := Fv.half.times n
  if n = Fv.zero then [Fv.one, Fv.zero, Fv.zero, Fv.zero] else h.cos :: vScale (h.sin.over n) v

/-- The rotation vector of a quaternion, at most half a turn. -/
def qLog (q : List Fv) : List Fv :=
  let u := qUnit q
  let v := u.drop 1
  let n := vNorm v
  if n = Fv.zero then vZero 3 else vScale (((Fv.ofInt 4).times (n.over (Fv.one.plus (vAt u 0))).atan).over n) v

/-- The matrix of a cross product: (skew a) b = a × b. -/
def skew (a : List Fv) : List (List Fv) :=
  [[Fv.zero, (vAt a 2).neg, vAt a 1], [vAt a 2, Fv.zero, (vAt a 0).neg], [(vAt a 1).neg, vAt a 0, Fv.zero]]

/-- A rigid motion: p ↦ q p q⁻¹ + t. -/
structure Motion where
  q : List Fv
  t : List Fv

def Motion.one : Motion := { q := [Fv.one, Fv.zero, Fv.zero, Fv.zero], t := vZero 3 }
def Motion.act (m : Motion) (p : List Fv) : List Fv := vAdd (qRot m.q p) m.t
def Motion.comp (a b : Motion) : Motion := { q := qMul a.q b.q, t := a.act b.t }
def Motion.inv (m : Motion) : Motion := let q := qConj m.q; { q := q, t := vNeg (qRot q m.t) }

/-- The motion of FP64 patterns w, x, y, z, then t. -/
def Motion.of (l : List Nat) : Motion := let v := l.map fp64.dec; { q := qUnit (v.take 4), t := v.drop 4 }

/-- A motion as the value of a pose: w, x, y, z, then t. -/
def Motion.val (m : Motion) : List Fv := m.q ++ m.t

/-- A motion as FP64 arithmetic leaves it: w, x, y, z, then t. -/
def Motion.nums (m : Motion) : List Nat := (m.q ++ m.t).map fp64.eval

/-- The difference of two poses: translation, then the rotation vector in the reference axes (the order of Table 9-9). -/
def Motion.diff (a b : Motion) : List Fv := vSub a.t b.t ++ qLog (qMul a.q (qConj b.q))

/-- A pose moved by a difference. -/
def Motion.move (a : Motion) (d : List Fv) : Motion := { q := qMul (qExp ((d.drop 3).take 3)) a.q, t := vAdd a.t (d.take 3) }

end Sys2Proof
end

