-- ==== Sys2Proof/Machine/Frames.lean ====
section
/-!
DEFINITION. What a transform entry says (Tables 9-3 and 9-4): its pose, its joint (R233), its camera's projection.
-/

namespace Sys2Proof.Machine
open Sys2Proof

/-- A number of `n` bytes at an offset of an entry. -/
def ttNum (e : List Byte) (off n : Nat) : Nat := leValue ((e.drop off).take n)

/-- An entry as the part uses it (R232): one of format 2 has 192 bytes, neither prior sigmas nor td0, which become 0 (DEDUCED: its fields from offset 64 are those
from offset 80 here; log entry 102). -/
def ttConv (format : Nat) (e : List Byte) : List Byte := if format = 2 ∧ e ≠ [] then fitBytes 256 (e.take 64 ++ zeroBytes 16 ++ e.drop 64) else e

/-- Whether a header of the section is the one of R232: its magic, the number of entries, and 58 bytes of zero. -/
def ttHeadOk (h : List Byte) (n : Nat) : Bool :=
  h.length == 64 && ttNum h 0 4 == 0x5846524D && ttNum h 4 2 == n && decide (1 ≤ n) && decide (n ≤ 2048) && (h.drop 6).all (· == 0#8)

/-- Whether the reserved fields of an entry are 0 (Tables 9-3, 9-4): flags, bytes 7 and 76, and what its kind does not use. -/
def ttZeros (e : List Byte) : Bool :=
  let used := nth 80 [80, 80, 124, 124, 116, 196, 100, 84] (ttNum e 0 1)
  decide (ttNum e 0 1 < 8) && decide (ttNum e 1 1 < 4) && ttNum e 7 1 == 0 && ttNum e 76 4 == 0 && (e.drop used).all (· == 0#8)

/-- An FP64 or FP32 field of an entry. -/
def tt64 (e : List Byte) (off : Nat) : Fv := fp64.dec (ttNum e off 8)
def tt32 (e : List Byte) (off : Nat) : Fv := fp32.dec (ttNum e off 4)

/-- The fixed pose of an entry in its parent's frame. -/
def ttPose (e : List Byte) : Motion := Motion.of ((List.range 7).map (fun i => ttNum e (8 + 8 * i) 8))

/-- The axis of a joint. -/
def ttAxis (e : List Byte) : List Fv := [tt64 e 80, tt64 e 88, tt64 e 96]

/-- The transform of an entry to its parent where its source reads θ (R233): the fixed pose, then the joint's motion by θ + zero. -/
def ttMotion (e : List Byte) (theta : Fv) : Motion :=
  let v := theta.plus (tt64 e 104)
  match ttNum e 0 1 with
  | 2 => (ttPose e).comp { q := qExp (vScale v (ttAxis e)), t := vZero 3 }
  | 3 => (ttPose e).comp { q := Motion.one.q, t := vScale v (ttAxis e) }
  | _ => ttPose e

/-- The pixel of a point in a camera's frame (x right, y down, z forward); no number where it does not lie in front. -/
def ttProject (e : List Byte) (p : List Fv) : List Fv :=
  if Fv.zero.lt (vAt p 2) then
    [((tt64 e 80).times ((vAt p 0).over (vAt p 2))).plus (tt64 e 96), ((tt64 e 88).times ((vAt p 1).over (vAt p 2))).plus (tt64 e 104)]
  else [.nan, .nan]

/-- The ray of a pixel, at depth 1. -/
def ttRay (e : List Byte) (z : List Fv) : List Fv :=
  [((vAt z 0).minus (tt64 e 96)).over (tt64 e 80), ((vAt z 1).minus (tt64 e 104)).over (tt64 e 88), Fv.one]

/-- The derivative of the pixel by the point. -/
def ttProjectJac (e : List Byte) (p : List Fv) : List (List Fv) :=
  let iz := Fv.one.over (vAt p 2)
  let fx := (tt64 e 80).times iz
  let fy := (tt64 e 88).times iz
  [[fx, Fv.zero, (fx.times ((vAt p 0).times iz)).neg], [Fv.zero, fy, (fy.times ((vAt p 1).times iz)).neg]]

/-- pixel_sigma of a camera. -/
def ttPixSigma (e : List Byte) : Fv := tt32 e 112

end Sys2Proof.Machine
end

