-- ==== Sys2Proof/Machine/Rig.lean ====
section
/-!
DEFINITION. The rigs of the sessions (R228, R232, R233): entries in force, chains, the channels that entries name, the Sparge records a session has
taken, and the pose of one entry in the frame of another at a time.
-/

namespace Sys2Proof.Machine
open Sys2Proof

/-- A transform entry in force. -/
def State.ttEntry (s : State) (i : Nat) : List Byte :=
  match tget [] s.frm.tt i with
  | [] => ttConv s.bt.img.ttFormat (nth [] s.bt.img.tt i)
  | e => e

/-- The walk from an entry through its parents (R233). -/
def State.ttChain (s : State) (i : Nat) : (fuel : Nat) → List Nat
  | 0 => []
  | f + 1 => if i = 0xFFFF then [] else i :: s.ttChain (ttNum (s.ttEntry i) 2 2) f

/-- The byte of a camera slot (Table 9-14). -/
def State.camByte (s : State) (n j : Nat) : Nat :=
  (s.word (if j < 4 then R.FRM_SES_CAM0 else R.FRM_SES_CAM1) n).toNat / 256 ^ (j % 4) % 256

/-- The transform entry of an ingest camera. -/
def State.camEntry (s : State) (cam : Nat) : Nat :=
  ((List.range s.bt.img.tt.length).find? (fun i => let e := s.ttEntry i; ttNum e 0 1 == 4 && ttNum e 4 2 == cam)).getD 0xFFFF

/-- Whether a session is defined. -/
def State.sesOn (s : State) (n : Nat) : Bool := decide (n < 32) && s.fb F.FRM_SES_CTL_ENABLE n

/-- The enabled camera slots of a session with their ingest indices. -/
def State.cams (s : State) (n : Nat) : List (Nat × Nat) :=
  ((List.range 8).filter (fun j => bitOf (s.camByte n j) 7)).map (fun j => (j, s.camByte n j % 32))

/-- The joint entries of a session's chain, from its tip. -/
def State.joints (s : State) (n : Nat) : List Nat :=
  let tip := s.f F.FRM_SES_SRC_CHAIN n
  if tip = 0xFFFF then [] else (s.ttChain tip 2048).filter (fun i => let k := ttNum (s.ttEntry i) 0 1; k == 2 || k == 3)

/-- The joint channels of a session's chain. -/
def State.jointChans (s : State) (n : Nat) : List Nat := (s.joints n).map (fun i => ttNum (s.ttEntry i) 4 2)

/-- The IMU channels of a session. -/
def State.imuChans (s : State) (n : Nat) : List Nat :=
  let e := s.f F.FRM_SES_SRC_IMU n
  if e = 0xFFFF then [] else (List.range 6).map (ttNum (s.ttEntry e) 4 2 + ·)

/-- The wheel channels of a session. -/
def State.wheelChans (s : State) (n : Nat) : List Nat :=
  let e := s.f F.FRM_SES_WHEEL_ENTRY n
  if e = 0xFFFF then [] else [ttNum (s.ttEntry e) 4 2, ttNum (s.ttEntry e) 82 2]

/-- The Sparge channels of a session. -/
def State.sesChans (s : State) (n : Nat) : List Nat := (s.imuChans n ++ s.jointChans n ++ s.wheelChans n).filter (· != 0xFFFF)

/-! ## Sparge records as the sessions take them (R238, R245, R248) -/

/-- The span of records a session can still need (ns): the longest coast of R258 with the waits of a step (DESIGN CHOICE, log entry 102). -/
def heardSpan : Nat := 16000000000

/-- A session that uses a channel takes its record; what is older than the span goes. -/
def State.hear (s : State) (c : Nat) (r : ChanRec) : State :=
  if (List.range 32).any (fun n => s.sesOn n && (s.sesChans n).contains c) then
    { s with frm.heard := tput [] s.frm.heard c (r :: (tget [] s.frm.heard c).filter (fun e => decide (r.ts < e.ts + heardSpan))) }
  else s

/-- The records of a channel, newest first. -/
def State.heardOf (s : State) (c : Nat) : List ChanRec := tget [] s.frm.heard c

/-- The two records that bracket a time: the last at or before it, the first at or after it. -/
def State.bracket (s : State) (c t : Nat) : Option (ChanRec × ChanRec) :=
  match (s.heardOf c).find? (fun r => decide (r.ts ≤ t)), ((s.heardOf c).filter (fun r => decide (t ≤ r.ts))).getLast? with
  | some a, some b => some (a, b)
  | _, _ => none

/-- The value of a channel at a time, interpolated linearly between the records that bracket it (R248); else its newest value. -/
def State.chanAt (s : State) (c t : Nat) : Fv :=
  match s.bracket c t with
  | some (a, b) =>
    let x := fp32.dec a.value
    if a.ts = b.ts then x
    else x.plus (((fp32.dec b.value).minus x).times (Fv.ofRat ((t : Int) - a.ts) (b.ts - a.ts)))
  | none => match s.heardOf c with | r :: _ => fp32.dec r.value | [] => Fv.zero

/-- Whether the records that bracket a time are OK and without SUBST (Table 9-6). -/
def State.chanGood (s : State) (c t : Nat) : Bool :=
  match s.bracket c t with
  | some (a, b) => [a, b].all (fun r => r.status == St.ok && !bitOf r.flags 0)
  | none => false

/-! ## Poses of entries -/

/-- The transform of an entry to its parent at a time. -/
def State.entAt (s : State) (t i : Nat) : Motion :=
  let e := s.ttEntry i
  let k := ttNum e 0 1
  ttMotion e (if k = 2 ∨ k = 3 then s.chanAt (ttNum e 4 2) t else Fv.zero)

/-- The transform of an entry to the root of its tree. -/
def State.toRoot (s : State) (t i : Nat) : Motion :=
  ((s.ttChain i 2048).filter (fun j => ttNum (s.ttEntry j) 2 2 != 0xFFFF)).foldl (fun m j => (s.entAt t j).comp m) Motion.one

/-- The pose of one entry in the frame of another. -/
def State.entIn (s : State) (t a b : Nat) : Motion := (s.toRoot t b).inv.comp (s.toRoot t a)

/-- The entry whose frame is a session's state frame: its IMU; without one its chain's tip, or the camera of its first slot (DESIGN CHOICE, log entry
102). -/
def State.stateEntry (s : State) (n : Nat) : Nat :=
  let i := s.f F.FRM_SES_SRC_IMU n
  let c := s.f F.FRM_SES_SRC_CHAIN n
  if i != 0xFFFF then i else if c != 0xFFFF then c else match (s.cams n).head? with | some e => s.camEntry e.2 | none => 0xFFFF

/-- The pose of a camera in a session's state frame. -/
def State.camIn (s : State) (n cam t : Nat) : Motion := s.entIn t (s.camEntry cam) (s.stateEntry n)

/-- The forward kinematics of a session's chain at a time, as a pose of the state frame in the reference anchor (R233, R248). -/
def State.chainPose (s : State) (n t : Nat) : Motion := s.entIn t (s.stateEntry n) (s.f F.FRM_SES_FRAME_REFERENCE n)

/-- The derivative of that pose by a joint: of its position, then its rotation, in the axes of the anchor. -/
def State.jointCol (s : State) (n t j : Nat) : List Fv :=
  let e := s.ttEntry j
  let m := s.entIn t j (s.f F.FRM_SES_FRAME_REFERENCE n)
  let a := qRot m.q (ttAxis e)
  if ttNum e 0 1 = 3 then a ++ vZero 3 else cross a (vSub (s.chainPose n t).t m.t) ++ a

/-- J Σ Jᵀ of the chain at a time, Σ the joints' variances. -/
def State.chainCov (s : State) (n t : Nat) : List (List Fv) :=
  (s.joints n).foldl (fun m j =>
    let c := s.jointCol n t j
    mAdd m (matOf 6 6 (fun i k => ((tt32 (s.ttEntry j) 112).sq).times ((vAt c i).times (vAt c k))))) (mZero 6 6)

end Sys2Proof.Machine
end

