-- ==== Sys2Proof/Machine/Filter.lean ====
section
/-!
DEFINITION. The filter of a session (R245–R249): its state as exact values, propagation through IMU records, updates in the Joseph form, observations of
landmarks, poses of cameras and their covariances, triangulation and the constraints of tracks. What the filter keeps is what FP64 arithmetic makes of
these values (log entry 101); conventions the spec does not state are log entry 102.
-/

namespace Sys2Proof.Machine
open Sys2Proof

/-! ## The state (R245) -/

/-- The filter's state as values: its time (ns), the pose of the state frame in the reference anchor, velocity (axes of the anchor), gyroscope and
accelerometer biases, angular rate (axes of the state frame), time offsets by camera slot (ns), pose clones by step, and the covariance over position,
rotation (axes of the anchor), velocity, gyroscope bias, accelerometer bias, time offsets, and six for each clone. -/
structure Filt where
  time : Nat
  pose : Motion
  vel : List Fv
  bias : List Fv
  rate : List Fv
  td : List (Nat × Fv)
  clones : List (Nat × Motion)
  cov : List (List Fv)

/-- The state a session holds, and what it keeps of a state. -/
def FilterSt.values (x : FilterSt) : Filt :=
  { time := x.time, pose := Motion.of (x.q ++ x.pos), vel := x.vel.map fp64.dec, bias := x.bias.map fp64.dec, rate := x.rate.map fp64.dec,
    td := x.td.map (fun e => (e.1, fp64.dec e.2)), clones := x.clones.map (fun e => (e.1, Motion.of e.2)),
    cov := upper (15 + x.td.length + 6 * x.clones.length) (x.cov.map fp64.dec) }
def Filt.keep (x : Filt) : FilterSt :=
  { time := x.time, pos := x.pose.t.map fp64.eval, q := x.pose.q.map fp64.eval, vel := x.vel.map fp64.eval, bias := x.bias.map fp64.eval,
    rate := x.rate.map fp64.eval, td := x.td.map (fun e => (e.1, fp64.eval e.2)), clones := x.clones.map (fun e => (e.1, e.2.nums)),
    cov := (upperOf x.cov).map fp64.eval }

/-- The dimension of the state, and where a clone's six begin. -/
def Filt.dim (x : Filt) : Nat := 15 + x.td.length + 6 * x.clones.length
def Filt.cloneAt (x : Filt) (i : Nat) : Nat := 15 + x.td.length + 6 * i

/-- The covariance of the pose. -/
def Filt.poseCov (x : Filt) : List (List Fv) := mPick x.cov (List.range 6) (List.range 6)

/-- The angular rate in the axes of the anchor. -/
def Filt.omega (x : Filt) : List Fv := qRot x.pose.q x.rate

/-- Nanoseconds as seconds. -/
def nsSec (v : Int) : Fv := (Fv.ofRat v 1000000000).low

/-- The pose a time (s) away, at constant velocity and angular rate. -/
def Filt.moved (x : Filt) (dt : Fv) : Motion :=
  { q := qMul (qExp (vScale dt x.omega)) x.pose.q, t := vAdd x.pose.t (vScale dt x.vel) }

/-- Rows over the whole state from blocks of columns. -/
def wideRows (rows n : Nat) (blocks : List (Nat × List (List Fv))) : List (List Fv) :=
  matOf rows n (fun i j => match blocks.find? (fun b => decide (b.1 ≤ j) && decide (j < b.1 + mCols b.2)) with
    | some b => mAt b.2 i (j - b.1)
    | none => Fv.zero)

/-! ## Updates (R245) -/

/-- The state moved by an error. -/
def Filt.inject (x : Filt) (d : List Fv) : Filt :=
  let at' := fun (i n : Nat) => (d.drop i).take n
  { x with
    pose := x.pose.move (at' 0 6), vel := vAdd x.vel (at' 6 3), bias := vAdd x.bias (at' 9 6), rate := vSub x.rate (at' 9 3),
    td := (x.td.zip (List.range x.td.length)).map (fun e => (e.1.1, e.1.2.plus (vAt d (15 + e.2)))),
    clones := (x.clones.zip (List.range x.clones.length)).map (fun e => (e.1.1, e.1.2.move (at' (x.cloneAt e.2) 6))) }

/-- The covariance of an innovation. -/
def Filt.innov (x : Filt) (h r : List (List Fv)) : List (List Fv) := mAdd (mCong h x.cov) r

/-- d = rᵀ S⁻¹ r (R249). -/
def chiStat (r : List Fv) (s : List (List Fv)) : Fv := vDot r ((mSolve s (r.map (fun v => [v]))).map (fun v => vAt v 0))

/-- An update by an innovation r with rows h and noise n: the Joseph form, the covariance kept symmetric. -/
def Filt.update (x : Filt) (r : List Fv) (h n : List (List Fv)) : Filt :=
  let k := mTr (mSolve (x.innov h n) (mMul h x.cov))
  let a := mSub (mEye x.dim) (mMul k h)
  { x with cov := mSym (mAdd (mCong a x.cov) (mCong k n)) }.inject (mVec k r)

/-- An update by a pose with its covariance, in six dimensions (R248). -/
def Filt.updatePose (x : Filt) (z : Motion) (n : List (List Fv)) : Filt :=
  x.update (z.diff x.pose) (wideRows 6 x.dim [(0, mEye 6)]) n

/-- The pose set to another with its covariance; velocity and biases stay (R253, R260). -/
def Filt.setPose (x : Filt) (z : Motion) (n : List (List Fv)) : Filt :=
  { x with pose := z, cov := matOf x.dim x.dim (fun i j => if i < 6 ∧ j < 6 then mAt n i j else if i < 6 ∨ j < 6 then Fv.zero else mAt x.cov i j) }

/-- The step's pose cloned; the last `w` clones stay. -/
def Filt.clone (x : Filt) (k w : Nat) : Filt :=
  let c := x.clones ++ [(k, x.pose)]
  let n := 15 + x.td.length
  let out := c.length - w
  let rows := List.range n ++ (List.range (6 * (x.clones.length - out))).map (fun i => n + 6 * out + i) ++ List.range 6
  let rows := if x.clones.length < out then List.range n else rows
  { x with clones := c.drop out, cov := mPick x.cov rows rows }

/-- A first state (R230): a pose with its covariance, a velocity, biases, offsets; the other variances are open. -/
def Filt.first (time : Nat) (pose : Motion) (cov : Option (List (List Fv))) (vel bias rate : List Fv) (td : List (Nat × Fv)) : Filt :=
  let v := fun (i : Nat) => (fp64.dec (Config.firstVar i)).abs
  let n := 15 + td.length
  { time := time, pose := pose, vel := vel, bias := bias, rate := rate, td := td, clones := [],
    cov := matOf n n (fun i j => match cov with
      | some c => if i < 6 ∧ j < 6 then mAt c i j else if i = j then v i else Fv.zero
      | none => if i = j then v i else Fv.zero) }

/-! ## Propagation (R245) -/

/-- A measurement of an IMU: its time, and the gyroscope's and accelerometer's values after the entry's matrices (Table 9-4). -/
structure ImuMeas where
  ts : Nat
  gyro : List Fv
  acc : List Fv

/-- A 3 × 3 matrix of FP32 at an offset of an entry. -/
def tt33 (e : List Byte) (off : Nat) : List (List Fv) := matOf 3 3 (fun i j => tt32 e (off + 12 * i + 4 * j))

/-- The IMU's measurement at a record time, where all six channels have a record then that is neither ABSENT nor WARMUP (R238). -/
def State.imuMeas (s : State) (n ts : Nat) : Option ImuMeas :=
  let e := s.ttEntry (s.f F.FRM_SES_SRC_IMU n)
  let l := (s.imuChans n).filterMap (fun c => (s.heardOf c).find? (fun r => r.ts == ts && !bitOf r.flags 2 && !bitOf r.flags 3))
  if l.length = 6 then
    let v := l.map (fun r => fp32.dec r.value)
    some { ts := ts, gyro := mVec (tt33 e 80) (v.take 3), acc := mVec (tt33 e 116) (v.drop 3) }
  else none

/-- The record times of a session's IMU after `a` and up to `b`, oldest first. -/
def State.imuTimes (s : State) (n a b : Nat) : List Nat :=
  match (s.imuChans n).head? with
  | none => []
  | some c => (((s.heardOf c).map (·.ts)).filter (fun t => decide (a < t) && decide (t ≤ b))).reverse

/-- The numbers that an open function of the filter sees. -/
def Filt.nums (x : Filt) : List Nat := x.pose.nums ++ (x.vel ++ x.bias).map fp64.eval

/-- The covariance after a time, under the noise densities of the IMU, or of the model of constant velocity: 1 m/s²/√Hz and 1 rad/s²/√Hz. -/
def Filt.spread (x : Filt) (meas dens : List Nat) (dt : Nat) : List (List Fv) :=
  upper x.dim (((Config.filtCov x.nums meas dens dt ((upperOf x.cov).map fp64.eval)).map fp64.dec))

/-- One step on an IMU measurement: how it is integrated is open. -/
def Filt.imuStep (x : Filt) (e : List Byte) (m : ImuMeas) (t : Nat) : Filt :=
  let meas := (m.gyro ++ m.acc).map fp64.eval
  let dens := [176, 180, 184, 188, 192].map (fun o => ttNum e o 4)
  let v := (Config.imuStep x.nums meas (ttNum e 192 4) (t - x.time)).map fp64.dec
  { x with time := t, pose := { q := qUnit (v.take 4), t := (v.drop 4).take 3 }, vel := (v.drop 7).take 3, rate := vSub m.gyro (x.bias.take 3),
           cov := x.spread meas dens (t - x.time) }

/-- A time at constant velocity and angular rate. -/
def Filt.coast (x : Filt) (t : Nat) : Filt :=
  let one := fp32.ofInt 1
  { x with time := t, pose := x.moved (nsSec (t - x.time : Nat)), cov := x.spread [] [one, one] (t - x.time) }

/-- The state at a later time: through every valid IMU record up to it, then on the measurement of the next record, or the last, to the time itself;
without a valid IMU at constant velocity. `imu` says whether the session's IMU is used. -/
def State.propagate (s : State) (n : Nat) (imu : Bool) (x : Filt) (t : Nat) : Filt :=
  let e := s.ttEntry (s.f F.FRM_SES_SRC_IMU n)
  if !imu then (if x.time < t then x.coast t else x)
  else
    let step := fun (x : Filt) (u : Nat) => match s.imuMeas n u with
      | some m => x.imuStep e m u
      | none => x.coast u
    let x := (s.imuTimes n x.time t).foldl step x
    if t ≤ x.time then x
    else
      match ((s.imuTimes n x.time (t + heardSpan)).filterMap (s.imuMeas n)).head?,
          ((s.imuTimes n (x.time - heardSpan) x.time).reverse.filterMap (s.imuMeas n)).head? with
      | some m, _ => x.imuStep e m t
      | none, some m => x.imuStep e m t
      | none, none => x.coast t

/-! ## Observations of landmarks (R246) -/

/-- An observation: its camera's entry and pose in the state frame, the time of the observation after the state's (s), the index of the camera's time
offset in the state, the pixel, its noise, the point, and the variance of its time (s², R255). -/
structure Obs where
  e : List Byte
  cam : Motion
  dt : Fv
  tdAt : Option Nat
  z : List Fv
  noise : List (List Fv)
  p : List Fv
  tvar : Fv

/-- The pixel an observation should have, its rows over the state, and its change in time (px/s). -/
def Filt.look (x : Filt) (o : Obs) : List Fv × List (List Fv) × List Fv :=
  let b := x.moved o.dt
  let c := b.comp o.cam
  let rt := mTr (qMat c.q)
  let pc := mVec rt (vSub o.p c.t)
  let j := ttProjectJac o.e pc
  let dp := mScale Fv.one.neg (mMul j rt)
  let dr := mMul (mMul j rt) (skew (vSub o.p b.t))
  let dz := vAdd (mVec dp x.vel) (mVec dr x.omega)
  let td := match o.tdAt with
    | some i => [(i, dz.map (fun v => [v.times (.fin false 1 1000000000)]))]
    | none => []
  (ttProject o.e pc, wideRows 2 x.dim ([(0, dp), (3, dr), (6, mScale o.dt dp)] ++ td), dz)

/-- The innovation of an observation, its rows and its noise with that of its time. -/
def Filt.obsOf (x : Filt) (o : Obs) : List Fv × List (List Fv) × List (List Fv) :=
  let l := x.look o
  (vSub o.z l.1, l.2.1, mAdd o.noise (matOf 2 2 (fun i j => o.tvar.times ((vAt l.2.2 i).times (vAt l.2.2 j)))))

/-- The statistic of an observation against the state (R246, R249). -/
def Filt.obsStat (x : Filt) (o : Obs) : Nat :=
  let l := x.obsOf o
  fp64.eval (chiStat l.1 (x.innov l.2.1 l.2.2))

/-- The update by an observation. -/
def Filt.observe (x : Filt) (o : Obs) : Filt := let l := x.obsOf o; x.update l.1 l.2.1 l.2.2

/-- The information of observations about the pose, and its gradient. -/
def Filt.poseInfo (x : Filt) (l : List Obs) : List (List Fv) × List Fv :=
  l.foldl (fun (a : List (List Fv) × List Fv) o =>
    let q := x.obsOf o
    let h := q.2.1.map (fun r => r.take 6)
    let w := mMul (mTr h) (mInv q.2.2)
    (mAdd a.1 (mMul w h), vAdd a.2 (mVec w q.1))) (mZero 6 6, vZero 6)

/-- The pose of a camera's source (Table 9-6): three Gauss-Newton iterations from the prior pose, and the information at the last. -/
def Filt.camPose (x : Filt) (l : List Obs) : Motion × List (List Fv) :=
  let y := (List.range 3).foldl (fun (y : Filt) _ =>
    let i := y.poseInfo l
    { y with pose := y.pose.move (mVec (mInv i.1) i.2) }) x
  (y.pose, (y.poseInfo l).1)

/-! ## Triangulation and the constraints of tracks (R242, R247) -/

/-- A view of a point: the camera's entry, its pose in the anchor, the pixel, and the place of its pose clone in the state, if it has one. -/
structure View where
  e : List Byte
  cam : Motion
  z : List Fv
  clone : Option (Nat × Motion)

/-- The residual of a point in a view, and the rows of the pixel by the point. -/
def View.see (v : View) (p : List Fv) : List Fv × List (List Fv) :=
  let rt := mTr (qMat v.cam.q)
  let pc := mVec rt (vSub p v.cam.t)
  (vSub v.z (ttProject v.e pc), mMul (ttProjectJac v.e pc) rt)

/-- The information of views about a point, and its gradient. -/
def pointInfo (l : List View) (p : List Fv) : List (List Fv) × List Fv :=
  l.foldl (fun (a : List (List Fv) × List Fv) v =>
    let q := v.see p
    let w := mScale (Fv.one.over (ttPixSigma v.e).sq) (mTr q.2)
    (mAdd a.1 (mMul w q.2), vAdd a.2 (mVec w q.1))) (mZero 3 3, vZero 3)

/-- A point triangulated from its views: nearest to all rays, then three Gauss-Newton iterations; its covariance. -/
def triangulate (l : List View) : List Fv × List (List Fv) :=
  let rays := l.map (fun v => let d := qRot v.cam.q (ttRay v.e v.z)
    (mSub (mScale (vDot d d) (mEye 3)) (matOf 3 3 (fun i j => (vAt d i).times (vAt d j))), v.cam.t))
  let a := rays.foldl (fun m r => mAdd m r.1) (mZero 3 3)
  let b := rays.foldl (fun m r => vAdd m (mVec r.1 r.2)) (vZero 3)
  let p := (List.range 3).foldl (fun p _ => let i := pointInfo l p; vAdd p (mVec (mInv i.1) i.2)) (mVec (mInv a) b)
  (p, mInv (pointInfo l p).1)

/-- The largest angle between the rays from a point to its views (R242), in degrees. -/
def parallax (l : List View) (p : List Fv) : Fv :=
  let d := l.map (fun v => vSub p v.cam.t)
  (d.flatMap (fun a => d.map (fun b => ((vDot a b).over ((vNorm a).times (vNorm b))).acos.degrees))).foldl Fv.most Fv.zero

/-- The rows of a view over the state: by its clone's pose, the point held fixed. -/
def Filt.viewRows (x : Filt) (v : View) (p : List Fv) : List (List Fv) :=
  match v.clone with
  | none => mZero 2 x.dim
  | some c =>
    let j := (v.see p).2
    wideRows 2 x.dim [(c.1, mScale Fv.one.neg j), (c.1 + 3, mMul j (skew (vSub p c.2.t)))]

/-- The combinations of rows that lose the columns of a matrix (its left null space): elimination column by column, each on a row that has the column. -/
def leftNull (m : List (List Fv)) : List (List Fv) :=
  let n := m.length
  let c := mCols m
  ((List.range c).foldl (fun (rows : List (List Fv)) j =>
    match rows.find? (fun r => !(vAt r j).isZero) with
    | none => rows
    | some p => (rows.filter (· != p)).map (fun r => vSub r (vScale ((vAt r j).over (vAt p j)) p))) (mBeside m (mEye n))).map (fun r => r.drop c)

/-- The constraint of a track on the clones that observed it (R247): its point eliminated; innovation, rows and noise. -/
def Filt.trackRows (x : Filt) (l : List View) (p : List Fv) : List Fv × List (List Fv) × List (List Fv) :=
  let l := l.filter (·.clone.isSome)
  let t := leftNull (l.flatMap (fun v => (v.see p).2))
  let noise := mDiag (l.flatMap (fun v => let s := (ttPixSigma v.e).sq; [s, s]))
  (mVec t (l.flatMap (fun v => (v.see p).1)), mMul t (l.flatMap (fun v => x.viewRows v p)), mCong t noise)

/-! ## Wheel odometry (R246) -/

/-- The measurement of a wheel entry (Table 9-4) from its two channels: forward speed, yaw rate, lateral and vertical velocity 0; and its noise. -/
def State.wheelMeas (s : State) (n t : Nat) : List Fv × List (List Fv) :=
  let e := s.ttEntry (s.f F.FRM_SES_WHEEL_ENTRY n)
  let c := s.wheelChans n
  let a := s.chanAt (nth 0 c 0) t
  let b := s.chanAt (nth 0 c 1) t
  let lat := (tt32 e 96).sq
  (if ttNum e 80 1 = 0 then [Fv.half.times (a.plus b), (b.minus a).over (tt32 e 84), Fv.zero, Fv.zero] else [a, b, Fv.zero, Fv.zero],
   mDiag [(tt32 e 88).sq, (tt32 e 92).sq, lat, lat])

/-- What the state predicts for it (x forward, y lateral, z vertical of the wheel frame), and its rows. -/
def State.wheelLook (s : State) (n : Nat) (x : Filt) : List Fv × List (List Fv) :=
  let w := s.entIn x.time (s.f F.FRM_SES_WHEEL_ENTRY n) (s.stateEntry n)
  let rw := mTr (qMat w.q)
  let rt := mTr (qMat x.pose.q)
  let v := mVec rw (vAdd (mVec rt x.vel) (cross x.rate w.t))
  let dv := mMul rw rt
  let dr := mMul dv (skew x.vel)
  let db := mMul rw (skew w.t)
  let pick := fun (m : List (List Fv)) (y : List Fv) => [nth [] m 0, y, nth [] m 1, nth [] m 2]
  ([vAt v 0, vAt (mVec rw x.rate) 2, vAt v 1, vAt v 2],
   wideRows 4 x.dim [(3, pick dr (vZero 3)), (6, pick dv (vZero 3)), (9, pick db (vNeg (nth [] rw 2)))])

end Sys2Proof.Machine
end

