-- ==== Sys2Proof/Machine/Factors.lean ====
section
/-!
DEFINITION. The factors of the Kettle in exact arithmetic (R271, Table 10-3): residual, Jacobian by the updates of Table 10-2, whitening. The residual
of an IMU factor is a function without a body: the spec lists what its measurement holds and gives no residual (log entry 103).
-/

namespace Sys2Proof.Machine
open Sys2Proof

/-- The degrees of freedom of a variable type, and the FP64 numbers of its value (Table 10-2). -/
def varDof (typ : Nat) : Nat := nth 1 [6, 7, 3, 3, 6, 1] typ
def varLen (typ : Nat) : Nat := nth 1 [7, 8, 3, 3, 6, 1] typ

/-- The type of a variable by its identifier (R270). -/
def idTyp (id : Nat) : Nat := id / 2 ^ 56

/-! ## Poses and similarities -/

/-- Rotation, translation and log-scale of the value of a POSE3 (log-scale 0) or SIM3. -/
def simQ (v : List Fv) : List Fv := qUnit (v.take 4)
def simT (v : List Fv) : List Fv := (v.drop 4).take 3
def simS (v : List Fv) : Fv := vAt v 7

/-- a⁻¹ ⊗ b. -/
def simRel (a b : List Fv) : List Fv :=
  let q := qConj (simQ a)
  qMul q (simQ b) ++ vScale (simS a).neg.exp (qRot q (vSub (simT b) (simT a))) ++ [(simS b).minus (simS a)]

/-- The logarithm, rotation first: the rotation vector, the translation, and the log-scale of a SIM3. -/
def simLog (sim : Bool) (v : List Fv) : List Fv := qLog (v.take 4) ++ simT v ++ (if sim then [simS v] else [])

/-- The derivative of a rotation vector by a rotation applied on the right. -/
def jrInv (w : List Fv) : List (List Fv) :=
  let t2 := vDot w w
  if t2.isZero then mEye 3
  else
    let h := Fv.half.times t2.root
    let c := (Fv.one.minus (h.times (h.cos.over h.sin))).over t2
    mAdd (mAdd (mEye 3) (mScale Fv.half (skew w))) (mScale c (mMul (skew w) (skew w)))

/-- A column as a matrix; a matrix of three rows above another. -/
def mCol (v : List Fv) : List (List Fv) := v.map (fun x => [x])

/-- Rows of a relative pose: rotation above translation above log-scale, the last column that of the log-scale. -/
def simRows (sim : Bool) (rr rt tr tt : List (List Fv)) (ts : List Fv) (ss : Fv) : List (List Fv) :=
  let wide := fun (m : List (List Fv)) (c : List Fv) => if sim then mBeside m (mCol c) else m
  wide (mBeside rr rt) (vZero 3) ++ wide (mBeside tr tt) ts ++ (if sim then [vZero 6 ++ [ss]] else [])

/-- Residual and Jacobian of a PRIOR on a pose: Log(z⁻¹ ⊗ x). -/
def posePrior (sim : Bool) (z x : List Fv) : List Fv × List (List Fv) :=
  let r := simLog sim (simRel z x)
  (r, simRows sim (jrInv (r.take 3)) (mZero 3 3) (mZero 3 3) (mScale (simS z).neg.exp (mTr (qMat (simQ z)))) (vZero 3) Fv.one)

/-- Residual and Jacobian of a BETWEEN: Log(z⁻¹ ⊗ x_i⁻¹ ⊗ x_j). -/
def between (sim : Bool) (z xi xj : List Fv) : List Fv × List (List Fv) :=
  let u := simRel xi xj
  let r := simLog sim (simRel z u)
  let j := jrInv (r.take 3)
  let k := mScale (simS z).neg.exp (mTr (qMat (simQ z)))
  let ri := mScale (simS xi).neg.exp (mTr (qMat (simQ xi)))
  (r, mBeside
    (simRows sim (mScale Fv.one.neg (mMul j (mTr (qMat (simQ u))))) (mZero 3 3) (mMul k (skew (simT u))) (mScale Fv.one.neg (mMul k ri))
      (vNeg (mVec k (simT u))) Fv.one.neg)
    (simRows sim j (mZero 3 3) (mZero 3 3) (mMul k ri) (vZero 3) Fv.one))

/-! ## Chains of entries (R233) -/

/-- The transform to the root of entries listed from a frame to its root, the joint of entry `i` at `θ i`. -/
def rootOf (θ : Nat → Fv) (l : List (Nat × List Byte)) : Motion := l.foldl (fun m e => (ttMotion e.2 (θ e.1)).comp m) Motion.one

/-- The pose of the frame `own` in the frame `base`. -/
def KEnv.motion (v : KEnv) (θ : Nat → Fv) : Motion := (rootOf θ v.base).inv.comp (rootOf θ v.own)

/-! ## REPROJ -/

/-- The point of a REPROJ factor in its camera's frame: through the inverse body pose, then the inverse extrinsic. -/
def camPoint (v : KEnv) (xs : List (List Fv)) : List Fv :=
  let e : List Fv := match xs.drop 2 with | e :: _ => e | [] => (v.motion (fun _ => Fv.zero)).val
  let body := qRot (qConj (simQ (nth [] xs 0))) (vSub (nth [] xs 1) (simT (nth [] xs 0)))
  qRot (qConj (simQ e)) (vSub body (simT e))

/-- Whether the point lies less than 0.01 m in front of the camera. -/
def tooNear (p : List Fv) : Bool := (fp32.dec (fp32.eval (vAt p 2))).lt (Fv.ofRat 1 100)

/-- Residual (pixels) and Jacobian of a REPROJ factor. -/
def reproj (v : KEnv) (z : List Fv) (xs : List (List Fv)) : List Fv × List (List Fv) :=
  let x := nth [] xs 0
  let e : List Fv := match xs.drop 2 with | e :: _ => e | [] => (v.motion (fun _ => Fv.zero)).val
  let p := camPoint v xs
  let j := ttProjectJac v.ent p
  let re := mTr (qMat (simQ e))
  let rx := mTr (qMat (simQ x))
  let body := mVec rx (vSub (nth [] xs 1) (simT x))
  let jb := mMul j re
  let jp := mMul jb rx
  let ext : List (List Fv) := if xs.length ≤ 2 then mZero 2 0 else mBeside (mMul j (skew p)) (mScale Fv.one.neg jb)
  (vSub (ttProject v.ent p) (z.take 2), mBeside (mBeside (mBeside (mMul jb (skew body)) (mScale Fv.one.neg jp)) jp) ext)

/-! ## CHAIN and WHEEL -/

/-- Residual and Jacobian of a CHAIN factor: the pose against the forward kinematics of the joint values with their offsets (each offset's variable
names its entry). -/
def chainFac (v : KEnv) (vars : List Nat) (z : List Fv) (xs : List (List Fv)) : List Fv × List (List Fv) :=
  let off := fun (i : Nat) => match (vars.zip xs).find? (fun e => idTyp e.1 == 5 && e.1 % 2 ^ 48 == i) with
    | some e => vAt e.2 0
    | none => Fv.zero
  let θ := fun (i : Nat) => (match v.joints.findIdx? (· == i) with | some k => vAt z k | none => Fv.zero).plus (off i)
  let m := v.motion θ
  let x := nth [] xs 0
  let r := posePrior false m.val x
  let e := simRel m.val x
  let j := jrInv (r.1.take 3)
  let re := mTr (qMat (simQ e))
  -- the column of a joint: its axis, carried by what stands between the joint and the frame
  let col := fun (id : Nat) => match v.own.findIdx? (fun q => q.1 == id % 2 ^ 48) with
    | none => vZero 6
    | some k =>
      let b := rootOf θ (v.own.take k)
      let a := ttAxis (nth (0, []) v.own k).2
      let rb := mTr (qMat b.q)
      if ttNum (nth (0, []) v.own k).2 0 1 = 3 then vZero 3 ++ vNeg (mVec rb a)
      else vNeg (mVec j (mVec re (mVec rb a))) ++ vNeg (mVec rb (cross a (b.act (simT e))))
  (r.1, (vars.drop 1).foldl (fun m id => mBeside m (mCol (col id))) r.2)

/-- Residual and Jacobian of a WHEEL factor: forward and lateral motion and yaw of the wheel frame between two poses, against distance, yaw change
and zero lateral motion. -/
def wheelFac (v : KEnv) (z xi xj : List Fv) : List Fv × List (List Fv) :=
  let w := v.motion (fun _ => Fv.zero)
  let rw := mTr (qMat w.q)
  let ri := mTr (qMat (simQ xi))
  let a := Motion.comp { q := simQ xi, t := simT xi } w
  let b := Motion.comp { q := simQ xj, t := simT xj } w
  let e := a.inv.comp b
  let φ := qLog e.q
  let j := jrInv φ
  let k := mMul rw ri
  let body := mVec ri (vSub b.t (simT xi))
  let rot := mBeside (mBeside (mScale Fv.one.neg (mMul j (mMul (mTr (qMat e.q)) rw))) (mZero 3 3)) (mBeside (mMul j rw) (mZero 3 3))
  let tr := mBeside (mBeside (mMul rw (skew body)) (mScale Fv.one.neg k))
    (mBeside (mScale Fv.one.neg (mMul (mMul k (qMat (simQ xj))) (skew w.t))) k)
  ([(vAt e.t 0).minus (vAt z 0), (vAt φ 2).minus (vAt z 1), (vAt e.t 1).minus (vAt z 2)], [nth [] tr 0, nth [] rot 2, nth [] tr 1])

/-! ## MARG -/

/-- What moves one value to another, the opposite of ⊞ (Table 10-2), and its derivative. -/
def minusVar (typ : Nat) (x z : List Fv) : List Fv × List (List Fv) :=
  if typ = 0 ∨ typ = 1 then
    let w := qLog (qMul (qConj (simQ z)) (simQ x))
    let n := varDof typ - 3
    (w ++ vSub (x.drop 4) (z.drop 4), mBeside (jrInv w) (mZero 3 n) ++ mBeside (mZero n 3) (mEye n))
  else (vSub x z, mEye (varDof typ))

/-- Matrices along a diagonal. -/
def mBlocks (l : List (List (List Fv))) : List (List Fv) :=
  l.foldl (fun a b => mBeside a (mZero a.length (mCols b)) ++ mBeside (mZero b.length (mCols a)) b) []

/-- The parts of a list, of the lengths given. -/
def cutAt (l : List Fv) : List Nat → List (List Fv)
  | [] => []
  | n :: ns => l.take n :: cutAt (l.drop n) ns

/-! ## Whitening -/

/-- The rows of Lᵀ, where Λ = L Lᵀ; a pivot that is not positive gives a row of zeros. -/
def cholT (m : List (List Fv)) : List (List Fv) :=
  ((List.range m.length).foldl (fun (a : List (List Fv) × List (List Fv)) i =>
    let d := mAt a.1 i i
    if Fv.zero.lt d then
      let u := vScale (Fv.one.over d.root) (nth [] a.1 i)
      (matOf m.length m.length (fun r c => (mAt a.1 r c).minus ((vAt u r).times (vAt u c))), a.2 ++ [u])
    else (a.1, a.2 ++ [vZero m.length])) (m, [])).2

/-- The solution of L y = b. -/
def cholSolve (u : List (List Fv)) (b : List Fv) : List Fv :=
  ((List.range u.length).foldl (fun (a : List Fv × List Fv) i =>
    let r := nth [] u i
    let y := if (vAt r i).isZero then Fv.zero else (vAt a.1 i).over (vAt r i)
    (vSub a.1 (vScale y r), a.2 ++ [y])) (b, [])).2

/-! ## Every factor -/

/-- The residual of a factor before whitening, and its Jacobian: a row for each element, the degrees of freedom of its variables in their order. -/
def facRaw (f : KFac) (v : KEnv) (xs : List (List Fv)) : List Fv × List (List Fv) :=
  let z := f.val.map fp64.dec
  let typ := idTyp (nth 0 f.vars 0)
  match f.typ with
  | 0 => if typ = 0 ∨ typ = 1 then posePrior (typ == 1) z (nth [] xs 0) else (vSub (nth [] xs 0) z, mEye (varDof typ))
  | 1 => reproj v z xs
  | 2 => between (typ == 1) z (nth [] xs 0) (nth [] xs 1)
  | 3 =>
    let p := xs.map (fun x => x.map fp64.enc)
    ((Config.imuResid f.val v.ent p).map fp64.dec, (Config.imuJac f.val v.ent p).map (fun r => r.map fp64.dec))
  | 4 => chainFac v f.vars z xs
  | 5 => wheelFac v z (nth [] xs 0) (nth [] xs 1)
  | _ =>
    let l := (f.vars.zip (xs.zip (cutAt z (f.vars.map (fun i => varLen (idTyp i)))))).map (fun e => minusVar (idTyp e.1) e.2.1 e.2.2)
    (l.flatMap (·.1), mBlocks (l.map (·.2)))

/-- The residual dimension of a factor. -/
def KFac.dim (f : KFac) : Nat :=
  match f.typ with
  | 0 => varDof (idTyp (nth 0 f.vars 0))
  | 1 => 2
  | 2 => varDof (idTyp (nth 0 f.vars 0))
  | 3 => 15
  | 4 => 6
  | 5 => 3
  | _ => sumN (f.vars.map (fun v => varDof (idTyp v)))

/-- The information of a factor: of a REPROJ 1 / σ². -/
def KFac.lambda (f : KFac) : List (List Fv) :=
  if f.typ = 1 then
    let s := fp64.dec (nth 0 f.val 3)
    mDiag [Fv.one.over s.sq, Fv.one.over s.sq]
  else upper f.dim (f.info.map fp64.dec)

/-- The whitened residual and Jacobian of a factor (R271). A MARG factor's b, which follows its linearisation point, shifts the residual: its cost is
½ dᵀ H d + bᵀ d and a constant. -/
def facWhite (f : KFac) (v : KEnv) (xs : List (List Fv)) : List Fv × List (List Fv) :=
  let r := facRaw f v xs
  let u := cholT f.lambda
  let b := (f.val.map fp64.dec).drop (sumN (f.vars.map (fun i => varLen (idTyp i))))
  let w := mVec u r.1
  (if f.typ = 6 then vAdd w (cholSolve u b) else w, mMul u r.2)

end Sys2Proof.Machine
end

