-- ==== Sys2Proof/Machine/Structure.lean ====
section
/-!
DEFINITION. The symbolic structure of a Kettle problem (R275 to R277): the elimination order, the column pattern of the factor with its fill, nnz(L), the
multiply-adds and supernodes, what a change costs, the structure digest; and the bytes that a problem's store holds.
-/

namespace Sys2Proof.Machine
open Sys2Proof

/-- The producer's index of a variable (R270). -/
def KVar.idx (v : KVar) : Nat := v.id % 2 ^ 48

/-- A calibration variable of a CALIB problem: a joint offset, or an extrinsic, whose identifier names no session. -/
def KVar.calib (v : KVar) : Bool := v.typ == 5 || (v.typ == 0 && v.id / 2 ^ 48 % 256 == 0xFF)

/-! ## The reduced system's graph -/

/-- The variables that are not eliminated as points, in the order they were added. -/
def ProbSt.kept (x : ProbSt) : List KVar := x.vars.filter (fun v => v.typ != 2)

/-- Whether two variables meet in the reduced system: in one factor, or through a point that both observe. -/
def ProbSt.joined (x : ProbSt) (a b : Nat) : Bool :=
  x.facs.any (fun f => f.vars.contains a && (f.vars.contains b
    || (f.vars.filter (fun p => idTyp p == 2)).any (fun p => x.facs.any (fun g => g.vars.contains p && g.vars.contains b))))

/-- Symbolic elimination in an order: for each variable the later ones in its column, those it meets and those its children (whose first later variable it
is) hand on. -/
def symElim (meet : Nat → Nat → Bool) (done : List (Nat × List Nat)) : List Nat → List (Nat × List Nat)
  | [] => done
  | v :: rest =>
    symElim meet (done ++ [(v, rest.filter (fun w => meet v w || done.any (fun e => e.2.head? == some v && e.2.contains w)))]) rest

/-- The order of Table 10-1 of the variables that stay: by keyframe or state age, calibration variables last; a pose graph's as analysed, with what came
since last. -/
def ProbSt.keptOrder (x : ProbSt) (kind : Nat) : List KVar :=
  let byAge := sortBy (fun (a b : KVar) => decide (a.idx < b.idx))
  if kind = 0 ∨ kind = 1 then byAge x.kept
  else if kind = 4 then byAge (x.kept.filter (fun v => !v.calib)) ++ x.kept.filter (·.calib)
  else
    let old := x.cols.filterMap (fun e => x.kept.find? (fun v => v.id == e.1))
    old ++ x.kept.filter (fun v => !old.any (fun w => w.id == v.id))

/-- The elimination order: the points first. -/
def ProbSt.order (x : ProbSt) (kind : Nat) : List KVar := x.vars.filter (fun v => v.typ == 2) ++ x.keptOrder kind

/-- The structure updated in place (R275): new factors fill the tree's paths, removals leave their fill. -/
def ProbSt.grow (x : ProbSt) (kind : Nat) : List (Nat × List Nat) :=
  let was := fun (a b : Nat) => x.cols.any (fun e => e.1 == a && e.2.contains b)
  symElim (fun a b => x.joined a b || was a b || was b a) [] ((x.keptOrder kind).map (·.id))

/-- The structure that the front stage computes (R276): the kind's ordering anew; nested dissection for a pose graph. -/
def ProbSt.analyse (x : ProbSt) (kind : Nat) : List (Nat × List Nat) :=
  let g := x.kept.map (fun v => (v.id, (x.kept.filter (fun w => x.joined v.id w.id)).map (·.id)))
  let o := if kind = 3 then sortBy (fun (a b : KVar) => decide (Config.dissection g a.id < Config.dissection g b.id)) x.kept else x.keptOrder kind
  symElim x.joined [] (o.map (·.id))

/-! ## Counts -/

/-- The degrees of freedom below the diagonal block of a column. -/
def colBelow (e : Nat × List Nat) : Nat := sumN (e.2.map (fun w => varDof (idTyp w)))

/-- nnz(L): the lower triangle of every diagonal block and what lies below it. -/
def nnzL (l : List (Nat × List Nat)) : Nat :=
  sumN (l.map (fun e => let d := varDof (idTyp e.1); d * (d + 1) / 2 + d * colBelow e))

/-- The multiply-adds of a variable's columns: each updates the lower triangle of what lies below it. -/
def colFma (e : Nat × List Nat) : Nat :=
  sumN ((List.range (varDof (idTyp e.1))).map (fun k => let c := colBelow e + k; c * (c + 1) / 2))

/-- A list cut into parts of one and the further elements given; what is left stands alone. -/
def cutParts {α : Type} : List Nat → List α → List (List α)
  | [], l => l.map (fun a => [a])
  | k :: ks, l => if l.isEmpty then [] else l.take (k + 1) :: cutParts ks (l.drop (k + 1))

/-- The supernodes: consecutive columns of the pattern. -/
def supers (l : List (Nat × List Nat)) : List (List (Nat × List Nat)) := cutParts (Config.supernodes l) l

/-- The multiply-adds of each supernode. -/
def superFma (l : List (Nat × List Nat)) : List Nat := (supers l).map (fun g => sumN (g.map colFma))

/-- nnz(A): the lower triangle of the reduced matrix. -/
def ProbSt.nnzA (x : ProbSt) : Nat :=
  let d := fun (v : KVar) => varDof v.typ
  let k := x.kept
  sumN (k.map (fun v => d v * (d v + 1) / 2))
    + sumN ((List.range k.length).map (fun i => match k.drop i with
      | v :: rest => sumN ((rest.filter (fun w => x.joined v.id w.id)).map (fun w => d v * d w))
      | [] => 0))

/-- A variable and those above it in the elimination tree. -/
def treePath (l : List (Nat × List Nat)) (v : Nat) : (fuel : Nat) → List Nat
  | 0 => []
  | f + 1 => match l.find? (fun e => e.1 == v) with
    | some e => v :: (match e.2 with | p :: _ => treePath l p f | [] => [])
    | none => []

/-- The supernodes on the paths from variables to their common ancestor (R275). -/
def pathSupers (l : List (Nat × List Nat)) (vars : List Nat) : Nat :=
  let ps := vars.map (fun v => treePath l v l.length)
  let all := (ps.flatMap id).eraseDups
  let top := all.find? (fun v => ps.all (·.contains v))
  let on := all.filter (fun v => top == some v || !ps.all (·.contains v))
  ((supers l).filter (fun g => g.any (fun e => on.contains e.1))).length

/-! ## The structure digest (R277) -/

/-- The structure class as bytes: kind, type and age by position, and the sorted pattern of factors over positions; and, since a change of them changes the
digest, WINDOW_KF and BAND where the kind has them. -/
def ProbSt.structure (x : ProbSt) (kind window band : Nat) : List Byte :=
  let o := x.order kind
  let aged := kind == 0 || kind == 1 || kind == 4
  let plain := fun (v : KVar) => v.typ == 2 || !aged || (kind == 4 && v.calib)
  let newest := (o.map (fun v => if plain v then 0 else v.idx)).foldl Nat.max 0
  let pos := fun (id : Nat) => (o.findIdx? (fun v => v.id == id)).getD 0
  let pat := sortBy (fun (a b : List Nat) => decide (a < b)) (x.facs.map (fun f => f.typ :: f.vars.map pos))
  leBytes 1 kind ++ (if aged then leBytes 2 window else []) ++ (if kind = 0 then leBytes 1 band else [])
    ++ o.flatMap (fun v => leBytes 1 v.typ ++ leBytes 4 (if plain v then 0 else newest - v.idx)) ++ pat.flatMap (fun l => l.flatMap (leBytes 4))

/-- The first 64 bits of the SM3 hash of the structure class. -/
def ProbSt.digest (x : ProbSt) (kind window band : Nat) : Nat := Config.sm3 (x.structure kind window band) / 2 ^ 192 % 2 ^ 64

/-! ## What the store holds (R273 to R275) -/

/-- The bytes of a delta entry (Table 10-4). -/
def Delta.size (d : Delta) : Nat :=
  16 + match d.op with
  | 1 => 8 + 8 * d.val.length
  | 3 => 8 * d.val.length
  | 4 => 8 + 8 * (d.vars.length + d.val.length + d.info.length)
  | 5 => 8 * (d.val.length + d.info.length)
  | 7 => if d.warm.isSome then 32 else 24
  | _ => 0

/-- The bytes of a problem in its store: entries not yet applied, variables and factors as the entries that add them, and the structure. -/
def ProbSt.stored (x : ProbSt) : Nat :=
  sumN (x.ring.map Delta.size) + sumN (x.vars.map (fun v => 24 + 8 * v.val.length))
    + sumN (x.facs.map (fun f => 24 + 8 * (f.vars.length + f.val.length + f.info.length))) + Config.structBytes (nnzL x.cols) x.cols.length

end Sys2Proof.Machine
end

