-- ==== Sys2Proof/Machine/KettleNum.lean ====
section
/-!
DEFINITION. The numbers of a Kettle solve (chapter 10): FX128 sums, robust kernels and costs, scales, linearisation, elimination of points, factorisation,
refinement, steps and norms, marginal covariances, marginalisation, warm starts, the values area, work units, the sampling of RELPOSE. Each number is the exact
value of its formula as the format of R265 holds it; where no order of operations is stated its rounding is free (`Fmt.eval`, log entry 101).
-/

namespace Sys2Proof

/-- ln (1 + v) for v ≥ 0. -/
def Fv.ln1p (v : Fv) : Fv := ((Fv.ofInt 1).add v).log2.mul (.fin false ln2Fix fixOne)

/-- A number times 2^e. -/
def Fv.shift (v : Fv) (e : Int) : Fv := v.mul (if e < 0 then .fin false 1 (2 ^ (-e).toNat) else .fin false (2 ^ e.toNat) 1)

end Sys2Proof

namespace Sys2Proof.Machine
open Sys2Proof

/-! ## FX128 (R265) -/

/-- One in Q64.64. -/
def fxUnit : Nat := 2 ^ 64

/-- An exact product in Q64.64: one rounding to nearest, ties to even. -/
def fxOf (v : Fv) : Int := v.rneMul fxUnit

/-- A sum of products in FX128, and whether it leaves the range and saturates. -/
def fxSum (l : List Int) : Int × Bool :=
  let v := sumZ l
  let top : Int := 2 ^ 127
  if v < -top then (-top, true) else if top ≤ v then (top - 1, true) else (v, false)

/-- An FX128 value as FP64, rounded once. -/
def fx64 (v : Int) : Nat := fp64.ofRat v fxUnit

/-- The square root of an FX128 value, to 192 fraction bits. -/
def fxRoot (v : Int) : Fv := .fin false (isqrt (v.toNat * 2 ^ 320)) (2 ^ 192)

/-! ## Robust kernels (R272) -/

/-- Whether the problem's kernel applies to a factor: REPROJ, BETWEEN, WHEEL. -/
def kernelOn (typ : Nat) : Bool := typ == 1 || typ == 2 || typ == 5

/-- The cost term ρ of a squared norm `v` (FX128) under a kernel of scale `k`: 0 none, 1 Huber, 2 Cauchy. -/
def kernelRho (kernel : Nat) (k : Fv) (v : Int) : Int :=
  let s := Fv.ofRat v fxUnit
  let kk := k.mul k
  if kernel = 1 then (if s.le kk then v else fxOf ((((Fv.ofInt 2).mul k).mul (fxRoot v)).add kk.neg))
  else if kernel = 2 then fxOf (kk.mul (s.div kk).ln1p)
  else v

/-- The weight √ρ′ as FP32: 1, √(k / √s), √(1 / (1 + s / k²)). -/
def kernelWeight (kernel : Nat) (k : Fv) (v : Int) : Nat :=
  let s := Fv.ofRat v fxUnit
  let kk := k.mul k
  if kernel = 1 then (if s.le kk then fp32.ofInt 1 else fp32.sqrt (k.div (fxRoot v)))
  else if kernel = 2 then fp32.sqrt (kk.div (kk.add s))
  else fp32.ofInt 1

/-! ## Variables and factors (R270, R271) -/

/-- The value of a variable. -/
def valOf (x : KVals) (id : Nat) : List Nat := match x.find? (fun e => e.1 == id) with | some e => e.2 | none => []

/-- A value replaced. -/
def setVal (x : KVals) (id : Nat) (v : List Nat) : KVals := x.map (fun e => if e.1 = id then (id, v) else e)

/-- A factor linearised (R278): its variables, weighted residual and Jacobian (FP32, a row per residual element, the degrees of freedom of
the variables in their order). -/
structure KRow where
  vars : List Nat
  res : List Nat
  jac : List (List Nat)

/-- What a solve's numbers depend on beside the iterate (R267): the factors with the transform entries they name, the elimination order, points held fixed,
the kernel and its scale, whether points are eliminated, LM or dogleg, Cholesky or QR, REFINE_MAX. -/
structure KProb where
  facs : List (KFac × KEnv)
  order : List KVar
  fixed : KVals := []
  kernel : Nat
  k : Fv
  schur : Bool
  dogleg : Bool
  qr : Bool
  refine : Nat

/-- The values of a factor's variables at an iterate. -/
def KProb.at (q : KProb) (f : KFac) (x : KVals) : List (List Fv) := f.vars.map (fun v => (valOf (x ++ q.fixed) v).map fp64.dec)

/-- The whitened residual and Jacobian of a factor at an iterate, as FP32 holds them; nothing for a point less than 0.01 m in front of the camera. -/
def KProb.lin (q : KProb) (f : KFac × KEnv) (x : KVals) : List Nat × List (List Nat) :=
  let xs := q.at f.1 x
  if f.1.typ = 1 ∧ tooNear (camPoint f.2 xs) then ([], [])
  else let w := facWhite f.1 f.2 xs; (w.1.map fp32.eval, w.2.map (fun r => r.map fp32.eval))

/-- The squared whitened residual norm of a factor. -/
def KProb.normSq (q : KProb) (f : KFac × KEnv) (x : KVals) : Int × Bool :=
  fxSum ((q.lin f x).1.map (fun e => fxOf ((fp32.dec e).mul (fp32.dec e))))

/-- The kernel that applies to a factor. -/
def KProb.kernelFor (q : KProb) (f : KFac) : Nat := if kernelOn f.typ then q.kernel else 0

/-- The cost term of a factor. -/
def KProb.rho (q : KProb) (f : KFac × KEnv) (x : KVals) : Int × Bool :=
  let v := q.normSq f x
  (kernelRho (q.kernelFor f.1) q.k v.1, v.2)

/-- The cost F = ½ Σ ρ (R272), as FP64, and how many sums saturated. -/
def KProb.cost (q : KProb) (x : KVals) : Nat × Nat :=
  let l := q.facs.map (fun f => q.rho f x)
  let t := fxSum (l.map (·.1))
  (fp64.enc ((Fv.ofRat t.1 fxUnit).mul (.fin false 1 2)), (l.filter (·.2)).length + b2n t.2)

/-- A factor linearised at an iterate: residual and Jacobian weighted by √ρ′. -/
def KProb.row (q : KProb) (x : KVals) (f : KFac × KEnv) : KRow :=
  let v := q.lin f x
  let w := kernelWeight (q.kernelFor f.1) q.k (q.normSq f x).1
  { vars := f.1.vars, res := v.1.map (fp32.mul w), jac := v.2.map (fun r => r.map (fp32.mul w)) }

/-- Every factor linearised at an iterate (R278). -/
def KProb.rows (q : KProb) (x : KVals) : List KRow := q.facs.map (q.row x)

/-! ## Scales (R266) -/

/-- The column of a row's Jacobian that belongs to degree of freedom `c` of a variable, with its residual elements. -/
def KRow.col (r : KRow) (id c : Nat) : List (Nat × Nat) :=
  match r.vars.findIdx? (· == id) with
  | none => []
  | some i =>
    let off := sumN ((r.vars.take i).map (fun v => varDof (v / 2 ^ 56)))
    (List.range r.jac.length).map (fun k => (nth 0 (nth [] r.jac k) (off + c), nth 0 r.res k))

/-- H_jj of a scalar variable whose Jacobian is scaled by 2^e. -/
def hDiag (l : List KRow) (id c : Nat) (e : Int) : Int × Bool :=
  fxSum ((l.flatMap (fun r => r.col id c)).map (fun a => let j := (fp32.dec a.1).shift e; fxOf (j.mul j)))

/-- g_j of a scalar variable whose Jacobian is scaled by 2^e. -/
def gradOf (l : List KRow) (id c : Nat) (e : Int) : Int × Bool :=
  fxSum ((l.flatMap (fun r => r.col id c)).map (fun a => fxOf (((fp32.dec a.1).shift e).mul (fp32.dec a.2))))

/-- The exponent of the scale s_j = 2^−round(log2(√H_jj)) of an H_jj in FX128; 0 where H_jj is 0 (R266; a tie rounds up, log entry 87). -/
def scaleExp (h : Int) : Int := if h ≤ 0 then 0 else -(((Nat.log2 h.toNat : Nat) : Int) - 63).fdiv 2

/-- Every variable has its scales: one that has none gets them from this linearisation. -/
def withScales (l : List KRow) (order : List KVar) (sc : KScales) : KScales :=
  order.map (fun v => match sc.find? (fun e => e.1 == v.id) with
    | some e => e
    | none => (v.id, (List.range (varDof v.typ)).map (fun c => scaleExp (hDiag l v.id c 0).1)))

/-- The scale exponent of a degree of freedom. -/
def scaleOf (sc : KScales) (id c : Nat) : Int := match sc.find? (fun e => e.1 == id) with | some e => nth 0 e.2 c | none => 0

/-- Every degree of freedom of a list of variables. -/
def dofs (order : List KVar) : List (Nat × Nat) := order.flatMap (fun v => (List.range (varDof v.typ)).map (fun c => (v.id, c)))

/-- The largest of a list of numbers. -/
def maxZ (l : List Int) : Int := l.foldl (fun a b => if a < b then b else a) 0

/-- ‖g‖∞ of the scaled variables, as FP64. -/
def gradNorm (l : List KRow) (order : List KVar) (sc : KScales) : Nat :=
  fx64 (maxZ ((dofs order).map (fun d => (gradOf l d.1 d.2 (scaleOf sc d.1 d.2)).1.natAbs)))

/-- H_jj of every degree of freedom, and its largest as FP64. -/
def diagOf (l : List KRow) (order : List KVar) (sc : KScales) : List (Int × Bool) :=
  (dofs order).map (fun d => hDiag l d.1 d.2 (scaleOf sc d.1 d.2))
def maxDiagOf (l : List KRow) (order : List KVar) (sc : KScales) : Nat := fx64 (maxZ ((diagOf l order sc).map (·.1)))

/-! ## The reduced system (R265, R278) -/

/-- A row of the scaled Jacobian over every degree of freedom, with its residual element. -/
structure DRow where
  j : List Fv
  r : Fv

/-- A linearised factor over every degree of freedom: 0 where its variables do not include one. -/
def KRow.wide (order : List KVar) (sc : KScales) (l : KRow) : List DRow :=
  let cols := (dofs order).map (fun d => (l.col d.1 d.2, scaleOf sc d.1 d.2))
  (List.range l.res.length).map (fun k =>
    { j := cols.map (fun c => match c.1.drop k with | e :: _ => (fp32.dec e.1).shift c.2 | [] => Fv.zero), r := fp32.dec (nth 0 l.res k) })

/-- An FX128 value. -/
def fxVal (v : Int) : Fv := (Fv.ofRat v fxUnit).low

/-- The products of an entry of JᵀJ, and of one of Jᵀr. -/
def hTerms (l : List DRow) (a b : Nat) : List Int := l.map (fun r => fxOf ((vAt r.j a).mul (vAt r.j b)))
def gTerms (l : List DRow) (a : Nat) : List Int := l.map (fun r => fxOf ((vAt r.j a).mul r.r))

/-- H and g over every degree of freedom. -/
def hMat (l : List DRow) (n : Nat) : List (List Fv) := matOf n n (fun i j => fxVal (fxSum (hTerms l i j)).1)
def gVec (l : List DRow) (n : Nat) : List Fv := (List.range n).map (fun i => fxVal (fxSum (gTerms l i)).1)

/-- diag(H) clamped to [2⁻²⁰, 2²⁰] (R284). -/
def clampD (h : Fv) : Fv :=
  let lo := Fv.ofRat 1 (2 ^ 20)
  let hi := Fv.ofInt (2 ^ 20)
  if h.lt lo then lo else if hi.lt h then hi else h

/-- What the damping λ adds to the diagonal of a degree of freedom. -/
def dampTerm (l : List DRow) (lam : Fv) (i : Nat) : Int := fxOf (lam.mul (clampD (fxVal (fxSum (hTerms l i i)).1)))

/-- An eliminated point: its degrees of freedom, its 3 × 3 block as FX128 sums, whether the block is positive definite, its inverse in FP64, its blocks with
the variables that stay (FP32), and those times the inverse (FP32). -/
structure PointBlk where
  at' : List Nat
  sums : List (Int × Bool)
  ok : Bool
  inv : List (List Fv)
  w : List (List Fv)
  y : List (List Fv)

/-- The elimination of one point (R278): its block inverted in FP64, its contributions formed in FP32. -/
def pointBlk (l : List DRow) (lam : Fv) (keep at' : List Nat) : PointBlk :=
  let sums := at'.flatMap (fun i => at'.map (fun j => fxSum (hTerms l i j ++ (if i = j then [dampTerm l lam i] else []))))
  let v := matOf 3 3 (fun i j => fp64.dec (fx64 (nth (0, false) sums (3 * i + j)).1))
  let ok := posDef v
  let inv := if ok then (mInv v).map (fun r => r.map (fun e => fp64.dec (fp64.eval e))) else mZero 3 3
  let f32 := fun (m : List (List Fv)) => m.map (fun r => r.map (fun e => fp32.dec (fp32.eval e)))
  let w := f32 (keep.map (fun i => at'.map (fun j => vSum (l.map (fun r => (vAt r.j i).times (vAt r.j j))))))
  { at' := at', sums := sums, ok := ok, inv := inv, w := w, y := f32 (mMul w inv) }

/-- The reduced system: its matrix and right side as FX128 sums, the degrees of freedom that stay, and the eliminated points. -/
structure Reduced where
  a : List (List (Int × Bool))
  b : List (Int × Bool)
  keep : List Nat
  pts : List PointBlk

/-- The places of the degrees of freedom of points, point by point, and of the rest. -/
def splitDofs (order : List KVar) (schur : Bool) : List (List Nat) × List Nat :=
  let ds := (dofs order).zip (List.range (dofs order).length)
  let pts := if schur then order.filter (fun v => v.typ == 2) else []
  (pts.map (fun v => (ds.filter (fun d => d.1.1 == v.id)).map (·.2)),
   (ds.filter (fun d => !pts.any (fun v => v.id == d.1.1))).map (·.2))

/-- The reduced system of (H + λ D) h = −g (R278, R284): every entry one FX128 sum. -/
def reduce (l : List DRow) (order : List KVar) (schur : Bool) (lam : Fv) : Reduced :=
  let sp := splitDofs order schur
  let keep := sp.2
  let pts := sp.1.map (pointBlk l lam keep)
  let on := pts.filter (·.ok)
  let n := keep.length
  let ent := fun (i j : Nat) => fxSum (hTerms l (nth 0 keep i) (nth 0 keep j)
    ++ (if i = j then [dampTerm l lam (nth 0 keep i)] else [])
    ++ on.flatMap (fun p => (List.range 3).map (fun k => -fxOf ((mAt p.y i k).mul (mAt p.w j k)))))
  let rhs := fun (i : Nat) => fxSum ((gTerms l (nth 0 keep i)).map (fun t => -t)
    ++ on.flatMap (fun p => (List.range 3).map (fun k => fxOf ((mAt p.y i k).mul (fp64.dec (fx64 (fxSum (gTerms l (nth 0 p.at' k))).1))))))
  { a := (List.range n).map (fun i => (List.range n).map (fun j => if j ≤ i then ent i j else ent j i)), b := (List.range n).map rhs, keep := keep, pts := pts }

/-! ## Factorisation, solution and check (R280, R281) -/

/-- A vector as FP64 arithmetic leaves it. -/
def vEval (v : List Fv) : List Fv := v.map (fun e => fp64.dec (fp64.eval e))

/-- ‖v‖∞. -/
def vMax (v : List Fv) : Fv := v.foldl (fun a e => a.most e.abs) Fv.zero

/-- The residual b − A x, each product rounded into Q64.64, and how many sums saturate. -/
def Reduced.residual (q : Reduced) (x : List Fv) : List Fv × Nat :=
  let l := (List.range q.b.length).map (fun i => fxSum ((nth (0, false) q.b i).1
    :: (List.range x.length).map (fun j => -fxOf ((Fv.ofRat (nth (0, false) (nth [] q.a i) j).1 fxUnit).mul (vAt x j)))))
  (l.map (fun e => fxVal e.1), (l.filter (·.2)).length)

/-- The backward error η = ‖r‖∞ / (‖A‖∞ ‖x‖∞ + ‖b‖∞), as FP64; 0 where r is 0. -/
def Reduced.eta (q : Reduced) (x r : List Fv) : Nat :=
  let a := vMax (q.a.map (fun row => vSum (row.map (fun e => (fxVal e.1).abs))))
  if (vMax r).isZero then 0 else fp64.eval ((vMax r).over ((a.times (vMax x)).plus (vMax (q.b.map (fun e => fxVal e.1)))))

/-- Refinement (R281): where η exceeds 2⁻⁵⁰ a correction is solved for and η formed again, at most `fuel` times. The answer is the solution, its η, the passes
and the sums that saturated. -/
def Reduced.refine (q : Reduced) (a : List (List Fv)) (x : List Fv) (eta passes sat : Nat) (r : List Fv) : (fuel : Nat) → List Fv × Nat × Nat × Nat
  | 0 => (x, eta, passes, sat)
  | f + 1 =>
    if (fp64.dec eta).le (.fin false 1 (2 ^ 50)) then (x, eta, passes, sat)
    else
      let d := vEval ((mSolve a (mCol (r.map (fun e => fp64.dec (fp64.enc e))))).map (fun e => vAt e 0))
      let y := (x.zip d).map (fun e => fp64.dec (fp64.enc (e.1.plus e.2)))
      let r' := q.residual y
      q.refine a y (q.eta y r'.1) (passes + 1) (sat + r'.2) r'.1 f

/-- What a factorisation with its triangular solves gives: the solution, η, refinement passes, sums that saturated, whether it was abandoned. -/
structure Solved where
  x : List Fv := []
  eta : Nat := 0
  passes : Nat := 0
  sat : Nat := 0
  abandoned : Bool := false

/-- The reduced system factorised and solved (R280, R281). Cholesky abandons at a pivot that is not positive, QR at a zero diagonal of R, whose squares are the
pivots of JᵀJ + λ D. -/
def Reduced.solve (q : Reduced) (l : List DRow) (lam : Fv) (qr : Bool) (refine : Nat) : Solved :=
  let n := q.b.length
  let a := matOf n n (fun i j => fp64.dec (fx64 (nth (0, false) (nth [] q.a i) j).1))
  let b := q.b.map (fun e => fp64.dec (fx64 e.1))
  let raw := matOf n n (fun i j =>
    let t := vSum (l.map (fun r => (vAt r.j (nth 0 q.keep i)).times (vAt r.j (nth 0 q.keep j))))
    if i = j then t.plus (lam.times (clampD t)) else t)
  let stop := if qr then (mPivots raw).any (fun p => !(Fv.zero.lt (fp64.dec (fp64.eval p.root)))) else (mPivots a).any (fun p => !(Fv.zero.lt (fp64.dec (fp64.eval p))))
  if stop then { abandoned := true }
  else
    let m := if qr then raw else a
    let x := vEval ((mSolve m (mCol b)).map (fun e => vAt e 0))
    let r := q.residual x
    let z := q.refine m x (q.eta x r.1) 0 r.2 r.1 refine
    { x := z.1, eta := z.2.1, passes := z.2.2.1, sat := z.2.2.2 }

/-- The step over every degree of freedom: the solution, and the points back-substituted (R278); a point whose block is not positive definite stays. -/
def Reduced.back (q : Reduced) (l : List DRow) (x : List Fv) (n : Nat) : List Fv :=
  let pt := q.pts.flatMap (fun p =>
    let g := p.at'.map (fun i => fxVal (fxSum (gTerms l i)).1)
    let h := if p.ok then vEval (vNeg (mVec p.inv (vAdd g (mVec (mTr p.w) x)))) else vZero 3
    p.at'.zip h)
  (List.range n).map (fun i => match ((q.keep.zip x) ++ pt).find? (fun e => e.1 == i) with | some e => e.2 | none => Fv.zero)

/-! ## Steps (R284, R285) -/

/-- The dogleg step of a trust radius between the steepest-descent and the Gauss-Newton step (R285): where it crosses the radius, by the positive root. -/
def doglegStep (gn g : List Fv) (h : List (List Fv)) (radius : Fv) : List Fv :=
  let alpha := (vDot g g).over (vDot g (mVec h g))
  let sd := vScale alpha.neg g
  if (vNorm gn).le radius then gn
  else if radius.le (vNorm sd) then vScale (radius.over (vNorm sd)) sd
  else
    let d := vSub gn sd
    let a := vDot d d
    let b := vDot sd d
    let c := (vDot sd sd).minus radius.sq
    vAdd sd (vScale (((b.sq.minus (a.times c)).root.minus b).over a) d)

/-- What the solver gives for a damping: the scaled step, η, refinement passes, the decrease the model predicts, the norm of the step (FP64), the sums that
saturated, and whether the factorisation was abandoned. -/
structure KStep where
  h : List Nat := []
  eta : Nat := 0
  passes : Nat := 0
  pred : Nat := 0
  step : Nat := 0
  sat : Nat := 0
  abandoned : Bool := false

/-- The step of a linearised problem under a damping: λ and ν of LM, or the trust radius. -/
def KProb.step (q : KProb) (rows : List KRow) (sc : KScales) (damp : Nat × Nat) : KStep :=
  let l := rows.flatMap (KRow.wide q.order sc)
  let n := (dofs q.order).length
  let lam := if q.dogleg then Fv.zero else fp64.dec damp.1
  let m := reduce l q.order q.schur lam
  let z := m.solve l lam q.qr q.refine
  let full := m.back l z.x n
  let hm := hMat l n
  let g := gVec l n
  let h := if q.dogleg then vEval (doglegStep full g hm (fp64.dec damp.1)) else full
  let low := (List.range m.a.length).flatMap (fun i => (nth [] m.a i).take (i + 1))
  { h := h.map fp64.enc, eta := z.eta, passes := z.passes,
    pred := fp64.eval ((vDot h g).neg.minus (Fv.half.times (vDot h (mVec hm h)))), step := fp64.eval (vNorm h),
    sat := z.sat + ((low ++ m.b ++ m.pts.flatMap (·.sums)).filter (·.2)).length, abandoned := z.abandoned }

/-! ## One iteration (R278, R284, R285) -/

/-- What an iteration's arithmetic gives, as FP64 patterns: whether the factorisation was abandoned, FX128 sums that saturated, whether the
check passed first and second, the gradient norm at the iterate it leaves, the gain, max(diag H), the norms of the step and of the
iterate (scaled), the cost before and at the candidate. -/
structure IterIn where
  abandoned : Bool := false
  fxSat : Nat := 0
  first : Bool := true
  second : Bool := true
  grad : Nat := 0
  gain : Nat := 0
  maxDiag : Nat := 0
  step : Nat := 0
  norm : Nat := 0
  cost0 : Nat := 0
  cost1 : Nat := 0
deriving DecidableEq, Repr

/-- x ⊞ δ for one variable (Table 10-2). -/
def plusVar (typ : Nat) (v d : List Nat) : List Nat :=
  let add := fun (a b : List Nat) => (List.range a.length).map (fun i => fp64.add (nth 0 a i) (nth 0 b i))
  if typ = 0 ∨ typ = 1 then (qMul ((v.take 4).map fp64.dec) (qExp ((d.take 3).map fp64.dec))).map fp64.eval ++ add (v.drop 4) (d.drop 3) else add v d

/-- The candidate: every variable moved by its part of a scaled step. -/
def plusStep (order : List KVar) (sc : KScales) (x : KVals) (h : List Nat) : KVals :=
  let ds := dofs order
  order.map (fun v =>
    let i := (ds.findIdx? (fun d => d.1 == v.id)).getD 0
    let d := (List.range (varDof v.typ)).map (fun c => fp64.enc ((fp64.dec (nth 0 h (i + c))).shift (scaleOf sc v.id c)))
    (v.id, plusVar v.typ (valOf x v.id) d))

/-- The scalars of a variable's value by degree of freedom: of a rotation its rotation vector (log entry 103). -/
def scalars (typ : Nat) (v : List Nat) : List Fv :=
  let x := v.map fp64.dec
  if typ = 0 ∨ typ = 1 then qLog (simQ x) ++ x.drop 4 else x

/-- ‖x‖ of the scaled variables (R266). -/
def iterNorm (order : List KVar) (sc : KScales) (x : KVals) : Nat :=
  fp64.eval (vNorm (order.flatMap (fun v => ((scalars v.typ (valOf x v.id)).zip (List.range (varDof v.typ))).map (fun e => e.1.shift (-(scaleOf sc v.id e.2))))))

/-- One iteration from an iterate under a damping: its numbers, the candidate, and η of the last pass. `bad1` and `bad2` say that the unit erred in the
first and in the second pass of the check, `err` is the η that an erring second pass finds (R282). -/
def KProb.iterate (q : KProb) (sc : KScales) (x : KVals) (damp : Nat × Nat) (check : Nat) (bad1 bad2 : Bool) (err : Nat) : IterIn × KVals × Nat :=
  let l := q.rows x
  let o := q.step l sc damp
  -- the second pass factorises and solves afresh: on a sound unit it gives what the first gave (R267)
  let again := q.step l sc damp
  let y := plusStep q.order sc x o.h
  let c0 := q.cost x
  let c1 := q.cost y
  let hd := diagOf l q.order sc
  let gd := (dofs q.order).map (fun d => gradOf l d.1 d.2 (scaleOf sc d.1 d.2))
  let miss := fun (eta : Nat) => !(fp64.dec eta).le (.fin false 1 (2 ^ check))
  let first := !(bad1 || miss o.eta)
  ({ abandoned := o.abandoned, fxSat := o.sat + c0.2 + c1.2 + (hd.filter (·.2)).length + (gd.filter (·.2)).length,
     first := first, second := !(bad2 || miss again.eta), gain := fp64.div (fp64.sub c0.1 c1.1) o.pred,
     maxDiag := maxDiagOf l q.order sc, step := o.step, norm := iterNorm q.order sc x, cost0 := c0.1, cost1 := c1.1 },
   y, if first then o.eta else if bad2 then err else again.eta)

/-! ## Marginals (R293, R296, R299) -/

/-- The marginal covariance of a variable at an iterate: its block of the inverse of H, unscaled. -/
def KProb.marginal (q : KProb) (x : KVals) (id : Nat) : List (List Fv) :=
  let l := (q.rows x).flatMap (KRow.wide q.order [])
  let n := (dofs q.order).length
  let at' := (((dofs q.order).zip (List.range n)).filter (fun d => d.1.1 == id)).map (·.2)
  mPick (mInv (matOf n n (fun i j => vSum (l.map (fun r => (vAt r.j i).times (vAt r.j j)))))) at' at'

/-- Its entries as FP32, upper triangle; and its standard deviations as FP64. -/
def KProb.cov (q : KProb) (x : KVals) (id : Nat) : List Nat := (upperOf (q.marginal x id)).map fp32.eval
def KProb.sigma (q : KProb) (x : KVals) (id : Nat) : List Nat :=
  let m := q.marginal x id
  (List.range m.length).map (fun i => fp64.eval (mAt m i i).root)

/-! ## Marginalisation (R292) -/

/-- The MARG factor over variables that folds in factors and one variable: the Schur complement of their H and b at the values of the variables, what other
variables they name held fixed. -/
def KProb.marg (q : KProb) (id : Nat) (rest : List Nat) (vals : KVals) : List Nat × List Nat :=
  let vars := rest ++ [id]
  let l := (q.rows vals).flatMap (KRow.wide (vars.map (fun v => { id := v, typ := idTyp v })) [])
  let d := sumN (rest.map (fun v => varDof (idTyp v)))
  let n := d + varDof (idTyp id)
  let h := matOf n n (fun i j => vSum (l.map (fun r => (vAt r.j i).times (vAt r.j j))))
  let g := (List.range n).map (fun i => vSum (l.map (fun r => (vAt r.j i).times r.r)))
  let o := List.range d
  let m := (List.range (n - d)).map (d + ·)
  let v := mPick h m m
  let k := if posDef v then mMul (mPick h o m) (mInv v) else mZero d (n - d)
  (rest.flatMap (valOf vals) ++ (vSub (g.take d) (mVec k (g.drop d))).map fp64.eval, (upperOf (mSub (mPick h o o) (mMul k (mPick h m o)))).map fp64.eval)

/-! ## Warm starts (R291) -/

/-- The value a variable without a match starts from: its PRIOR mean, or its VAR_ADD value. -/
def ProbSt.freshVal (x : ProbSt) (v : KVar) : List Nat :=
  match x.facs.find? (fun f => f.typ == 0 && f.vars == [v.id]) with
  | some f => f.val
  | none => v.val

/-- The iterate a solve starts from: the previous solution `own` (kept by position as entries come and go), the values of another record `other`
with whether its digest is the current one, or the VAR_ADD values. -/
def ProbSt.startVals (x : ProbSt) (order : List KVar) (own cold : Bool) (other : Option KVals) : KVals :=
  match other with
  | some l =>
    if !cold && l.length == order.length then (order.zip l).map (fun e => (e.1.id, if e.2.2.length = varLen e.1.typ then e.2.2 else e.1.val))
    else order.map (fun v => (v.id, match l.find? (fun e => e.1 == v.id) with
      | some e => e.2
      | none => if cold then x.freshVal v else v.val))
  | none => order.map (fun v => (v.id, if !own then v.val else match x.vals.find? (fun e => e.1 == v.id) with
      | some e => e.2
      | none => if cold then x.freshVal v else v.val))

/-! ## Values areas (R293, R302) -/

/-- FP64 patterns as FP32 ones and back. -/
def narrow (p : Nat) : Nat := fp64.conv fp32 p
def wide (p : Nat) : Nat := fp32.conv fp64 p

/-- Whether a point moved by more than 0.1 mm. -/
def movedFar (a b : List Nat) : Bool :=
  let d := fun (i : Nat) => let t := (fp64.dec (nth 0 a i)).add (fp64.dec (nth 0 b i)).neg; t.mul t
  (Fv.ofRat 1 100000000).lt (((d 0).add (d 1)).add (d 2))

/-- Covariance entries padded to 96 bytes. -/
def covArea (c : List Nat) : List Byte := fitBytes 96 ((List.range 21).flatMap (fun i => leBytes 4 (nth 0 c i)))

/-- The values area of a solution: of a WINDOW its keyframes oldest first, the newest one's covariance, and the landmarks moved since the warm
start; of another kind each variable as its identifier and value. -/
def valuesArea (kind : Nat) (order : List KVar) (x0 x : KVals) (cov : List Nat) : List Byte :=
  if kind = 0 then
    let kfs := order.filter (fun v => v.typ == 0)
    let pts := order.filter (fun v => v.typ == 2 && movedFar (valOf x v.id) (valOf x0 v.id))
    kfs.flatMap (fun v =>
      let p := valOf x v.id
      leBytes 4 (v.id % 2 ^ 48) ++ zeroBytes 4 ++ (List.range 3).flatMap (fun i => leBytes 8 (nth 0 p (4 + i)))
        ++ (List.range 4).flatMap (fun i => leBytes 4 (narrow (nth 0 p i))) ++ zeroBytes 16)
    ++ covArea cov ++ leBytes 4 pts.length ++ zeroBytes 12
    ++ pts.flatMap (fun v => leBytes 4 (v.id % 2 ^ 48) ++ (List.range 3).flatMap (fun i => leBytes 4 (narrow (nth 0 (valOf x v.id) i))))
  else order.flatMap (fun v => leBytes 8 v.id ++ (List.range (varLen v.typ)).flatMap (fun i => leBytes 8 (nth 0 (valOf x v.id) i)))

/-- The variables of an area of identifiers and values. -/
def areaVars (l : List Byte) : (fuel : Nat) → KVals
  | 0 => []
  | n + 1 =>
    if l.length < 16 then []
    else
      let id := leValue (l.take 8)
      let k := varLen (id / 2 ^ 56)
      (id, (List.range k).map (fun i => leValue ((l.drop (8 + 8 * i)).take 8))) :: areaVars (l.drop (8 + 8 * k)) n

/-- The values of a WINDOW's area of `kfs` keyframes: its poses and the landmarks it lists. -/
def windowVars (ses kfs : Nat) (l : List Byte) : KVals :=
  let rd := fun (o n : Nat) => leValue ((l.drop o).take n)
  let b := 64 * kfs + 96
  (List.range kfs).map (fun k => (ses * 2 ^ 48 + rd (64 * k) 4,
      (List.range 4).map (fun i => wide (rd (64 * k + 32 + 4 * i) 4)) ++ (List.range 3).map (fun i => rd (64 * k + 8 + 8 * i) 8)))
    ++ (List.range (Nat.min (rd b 4) (l.length / 16))).map (fun k =>
      (2 * 2 ^ 56 + 0xFF * 2 ^ 48 + rd (b + 16 + 16 * k) 4, (List.range 3).map (fun i => wide (rd (b + 20 + 16 * k + 4 * i) 4))))

/-! ## Work units (R279, R304) -/

/-- The bound of a work unit, in CLK_K cycles. -/
def unitMax : Nat := 22000

/-- Work cut into units of at most the bound. -/
def cutWork (c : Nat) : List Nat := List.replicate (c / unitMax) unitMax ++ (if c % unitMax = 0 then [] else [c % unitMax])

/-- The supernodes after analysis, in cycles: one of `f` multiply-adds takes ceil(f / 28) + 40, twice that with QR, and one beyond the bound is split. -/
def cutSupernode (qr : Bool) (f : Nat) : List Nat :=
  let k := 1 + b2n qr
  let c := ceilDiv f 28
  let m := unitMax / k - 40
  if c ≤ m then [k * (c + 40)]
  else List.replicate (c / m) (k * (m + 40)) ++ (if c % m = 0 then [] else [k * (c % m + 40)])

/-- The cycles T(m) of a point with m observations, where `ext` of them name an extrinsic (Table 10-8). -/
def pointCycles (m : Nat) (ext : Bool) : Nat := 4 * m + m * (m - 1) + 3 + (if ext then 2 * m else 0)

/-- The linearisation cycles of a factor that is no REPROJ (Table 10-3). -/
def facCycles (f : KFac) : Nat :=
  match f.typ with
  | 0 => 8
  | 2 => 6
  | 3 => 60
  | 4 => 24 + 6 * (f.vars.length - 1)
  | 5 => 10
  | 6 => let d := f.dim; ceilDiv (d * d) 28
  | _ => 0

/-- The cycles of the eliminated points. -/
def ProbSt.pointWork (x : ProbSt) (pts : List KVar) : Nat :=
  sumN (pts.map (fun v =>
    let fs := x.facs.filter (fun f => f.typ == 1 && f.vars.contains v.id)
    pointCycles fs.length (fs.any (fun f => decide (2 < f.vars.length)))))

/-- The work units of one iteration in their order (R278): blocks of points, blocks of the other factors, the supernodes,
blocks of triangular-solve columns. -/
def ProbSt.iterUnits (x : ProbSt) (qr : Bool) (passes : Nat) : List Nat :=
  let fs := (x.facs.filter (fun f => f.typ != 1)).map facCycles
  cutWork (x.pointWork (x.vars.filter (fun v => v.typ == 2))) ++ cutWork (sumN fs + sumN (fs.map (fun c => ceilDiv c 2)))
    ++ (superFma x.cols).flatMap (cutSupernode qr) ++ cutWork ((ceilDiv (2 * nnzL x.cols) 28 + ceilDiv x.nnzA 28) * (1 + passes))

/-- Cycles of CLK_K (1.1 GHz) as nanoseconds, rounded up; nanoseconds as whole cycles. -/
def cyclesNs (c : Nat) : Nat := ceilDiv (10 * c) 11
def nsCycles (t : Nat) : Nat := t * 11 / 10

/-- The first boundary of a list of work units at or after `t` cycles; past its end, the end of one more unit at most. -/
def unitEnd (t : Nat) (acc : Nat) : List Nat → Nat
  | [] => Nat.max t acc
  | u :: us => if t ≤ acc then acc else unitEnd t (acc + u) us

/-! ## RELPOSE (R296) -/

/-- The generator of R139. -/
def lcgNext (st : Nat) : Nat := (st * 1103515245 + 12345) % 2 ^ 32

/-- Draws until three distinct indices below `n` are held. -/
def drawThree (st n : Nat) (got : List Nat) : (fuel : Nat) → Nat × List Nat
  | 0 => (st, got)
  | f + 1 =>
    if 3 ≤ got.length then (st, got)
    else
      let st := lcgNext st
      let i := st * n / 2 ^ 32
      drawThree st n (if got.contains i then got else got ++ [i]) f

/-- The sampling's state: the generator, the best pose with its count, whether the loop has ended; samples and poses scored. -/
structure Ransac where
  st : Nat
  best : Option (List Nat × Nat) := none
  enough : Bool := false
  samples : Nat := 0
  poses : Nat := 0

/-- The correspondences, each a REPROJ factor over the pose and a fixed landmark, within `px` sixteenths of a pixel of a pose and more than 0.01 m in front. -/
def inliersOf (pose : List Nat) (px : Nat) (fixed : KVals) (l : List (KFac × KEnv)) : List Nat :=
  (List.range l.length).filter (fun i => match l.drop i with
    | c :: _ =>
      let xs := [pose.map fp64.dec, (valOf fixed (nth 0 c.1.vars 1)).map fp64.dec]
      let e := reproj c.2 (c.1.val.map fp64.dec) xs
      (fp32.dec (fp32.eval (vNorm e.1))).le (Fv.ofRat px 16) && (Fv.ofRat 1 100).lt (fp32.dec (fp32.eval (vAt (camPoint c.2 xs) 2)))
    | [] => false)

/-- What P3P reads of a correspondence: keypoint, landmark, the pose of its camera in the state frame, its camera's entry. -/
def p3pIn (fixed : KVals) (c : KFac × KEnv) : List Nat × List Byte :=
  (c.1.val.take 2 ++ valOf fixed (nth 0 c.1.vars 1) ++ (c.2.motion (fun _ => Fv.zero)).nums, c.2.ent)

/-- One sample: its poses are counted, and the early exit is tested exactly: (1 − w³)^(sample + 1) ≤ 0.001. -/
def Ransac.sample (l : List (KFac × KEnv)) (fixed : KVals) (px : Nat) (r : Ransac) (i : Nat) : Ransac :=
  if r.enough then r
  else
    let d := drawThree r.st l.length [] (2 ^ 32)
    let picked := (d.2.filterMap (fun j => (l.drop j).head?)).map (p3pIn fixed)
    let poses := Config.p3p (picked.map (·.1)) (picked.map (·.2)) |>.take 4
    let best := poses.foldl (fun (b : Option (List Nat × Nat)) pose =>
      let n := (inliersOf pose px fixed l).length
      match b with
      | some q => if q.2 < n then some (pose, n) else b
      | none => some (pose, n)) r.best
    let n := match best with | some q => q.2 | none => 0
    let m := l.length ^ 3
    { st := d.1, best := best, enough := decide (3 ≤ n) && decide ((m - n ^ 3) ^ (i + 1) * 1000 ≤ m ^ (i + 1)), samples := r.samples + 1,
      poses := r.poses + poses.length }

/-- The sampling of a RELPOSE solve (R296); none is drawn from fewer than three correspondences. -/
def ransac (l : List (KFac × KEnv)) (fixed : KVals) (seed seq hyp px : Nat) : Ransac :=
  let r : Ransac := { st := (seed % 2 ^ 32) ^^^ (seq % 2 ^ 32) }
  if l.length < 3 then r else (List.range hyp).foldl (Ransac.sample l fixed px) r

end Sys2Proof.Machine
end

