-- ==== Sys2Proof/Machine/Links.lean ====
section
/-!
DEFINITION. Articulated bodies (R300, R301): link records, forward kinematics, the recursive Newton-Euler algorithm, the Jacobian of a tip. Where the
pseudocode of R301 leaves a term to the algorithm it names, the term is the algorithm's (log entry 104).
-/

namespace Sys2Proof.Machine
open Sys2Proof

/-- A link record (Table 10-10). -/
structure Link where
  parent : Nat
  joint : Nat
  axis : List Fv
  pose : Motion
  mass : Fv
  com : List Fv
  inertia : List (List Fv)

/-- A link from its 128 bytes. -/
def Link.of (e : List Byte) : Link :=
  let d := fun (i : Nat) => tt32 e (100 + 4 * i)
  { parent := ttNum e 0 1, joint := ttNum e 1 1, axis := [tt64 e 4, tt64 e 12, tt64 e 20],
    pose := Motion.of ((List.range 7).map (fun i => ttNum e (28 + 8 * i) 8)), mass := tt32 e 84, com := (List.range 3).map (fun i => tt32 e (88 + 4 * i)),
    inertia := [[d 0, d 3, d 4], [d 3, d 1, d 5], [d 4, d 5, d 2]] }

/-- The links of a table. -/
def linksOf (t : List Byte) (n : Nat) : List Link := (List.range n).map (fun i => Link.of ((t.drop (128 * i)).take 128))

/-- A link with its joint applied (R233). -/
def Link.at (l : Link) (q : Fv) : Motion :=
  if l.joint = 1 then l.pose.comp { q := qExp (vScale q l.axis), t := vZero 3 }
  else if l.joint = 2 then l.pose.comp { q := Motion.one.q, t := vScale q l.axis }
  else l.pose

/-- What the forward pass forms of a link: its pose in the base frame and in its parent's; angular velocity and acceleration and the acceleration of its
origin in its own frame; its force and its moment about its origin. -/
structure LinkSt where
  base : Motion := Motion.one
  rel : Motion := Motion.one
  w : List Fv := vZero 3
  wd : List Fv := vZero 3
  a : List Fv := vZero 3
  f : List Fv := vZero 3
  n : List Fv := vZero 3

/-- The forward pass for one link, from its parent and the position, velocity and acceleration of its joint. -/
def Link.forward (l : Link) (p : LinkSt) (q qd qdd : Fv) : LinkSt :=
  let m := l.at q
  let rot := fun (v : List Fv) => qRot (qConj m.q) v
  let rev := l.joint == 1
  let w0 := rot p.w
  let w := if rev then vAdd w0 (vScale qd l.axis) else w0
  let wd := if rev then vAdd (vAdd (rot p.wd) (cross w0 (vScale qd l.axis))) (vScale qdd l.axis) else rot p.wd
  let a0 := rot (vAdd (vAdd p.a (cross p.wd m.t)) (cross p.w (cross p.w m.t)))
  let a := if l.joint = 2 then vAdd (vAdd a0 (vScale qdd l.axis)) (vScale (Fv.ofInt 2) (cross w (vScale qd l.axis))) else a0
  let f := vScale l.mass (vAdd (vAdd a (cross wd l.com)) (cross w (cross w l.com)))
  let n := vAdd (mVec l.inertia wd) (cross w (mVec l.inertia w))
  { base := p.base.comp m, rel := m, w := w, wd := wd, a := a, f := f, n := vAdd n (cross l.com f) }

/-- The values of the joints of a kind (0 q, 1 q̇, 2 q̈) by link: the inputs list each kind in the order of the links that have a joint. -/
def jointIn (ls : List Link) (v : List Fv) (k i : Nat) : Fv :=
  let on := (List.range ls.length).filter (fun j => match ls.drop j with | l :: _ => l.joint != 0 | [] => false)
  match on.findIdx? (· == i) with
  | some j => vAt v (k * on.length + j)
  | none => Fv.zero

/-- The forward pass: in index order, from the base with gravity as an acceleration. -/
def forwardPass (ls : List Link) (g : Fv) (v : List Fv) : List LinkSt :=
  let b := v.drop (v.length - 9)
  let root : LinkSt := { w := b.take 3, wd := (b.drop 3).take 3, a := vAdd (b.drop 6) [Fv.zero, Fv.zero, g] }
  (ls.zip (List.range ls.length)).foldl (fun (done : List LinkSt) e =>
    let p := if e.1.parent = 0xFF then root else nth root done e.1.parent
    done ++ [e.1.forward p (jointIn ls v 0 e.2) (jointIn ls v 1 e.2) (jointIn ls v 2 e.2)]) []

/-- The backward pass: in reverse order each link adds its force and moment to its parent's. -/
def backwardPass (ls : List Link) (l : List LinkSt) : List LinkSt :=
  ((ls.zip (List.range ls.length)).reverse).foldl (fun (l : List LinkSt) e =>
    let c := nth {} l e.2
    let f := qRot c.rel.q c.f
    let n := vAdd (qRot c.rel.q c.n) (cross c.rel.t f)
    (List.range l.length).map (fun i => let x := nth {} l i; if i = e.1.parent then { x with f := vAdd x.f f, n := vAdd x.n n } else x)) l

/-- The links from one up to the base. -/
def linkPath (ls : List Link) (i : Nat) : (fuel : Nat) → List Nat
  | 0 => []
  | f + 1 => match ls.drop i with
    | l :: _ => i :: (if l.parent = 0xFF then [] else linkPath ls l.parent f)
    | [] => []

/-- A column of the tip's Jacobian in the base frame: rotation, then translation. -/
def jacCol (ls : List Link) (l : List LinkSt) (tip i : Nat) : List Fv :=
  match ls.drop i with
  | k :: _ =>
    let m := (nth {} l i).base
    let a := qRot m.q k.axis
    if !(linkPath ls tip 64).contains i || k.joint == 0 then vZero 6
    else if k.joint = 2 then vZero 3 ++ a
    else a ++ cross a (vSub (nth {} l tip).base.t m.t)
  | [] => vZero 6

/-- What a BODY solve writes after its header (R301): 64 bytes for each link, then the Jacobian where a tip is named. -/
def bodyBytes (ls : List Link) (g : Fv) (v : List Fv) (tip : Nat) : List Byte :=
  let l := backwardPass ls (forwardPass ls g v)
  let num := fun (m : Fmt) (k : Nat) (x : Fv) => leBytes k (m.eval x)
  (ls.zip l).flatMap (fun e =>
    let tau := if e.1.joint = 1 then vDot e.1.axis e.2.n else if e.1.joint = 2 then vDot e.1.axis e.2.f else Fv.zero
    (qUnit e.2.base.q).flatMap (num fp32 4) ++ e.2.base.t.flatMap (num fp64 8) ++ num fp64 8 tau ++ zeroBytes 16)
  ++ (if tip = 0xFF then [] else (List.range ls.length).flatMap (fun i => (jacCol ls l tip i).flatMap (num fp64 8)))

end Sys2Proof.Machine
end

