-- ==== Sys2Proof/Machine/Cellar.lean ====
section
/-!
DEFINITION. Cellar's layout and page format (R215–R217, R219): superblocks, checkpoints, journal, page-store locations, and the bytes as stored.
-/

namespace Sys2Proof.Machine
open Sys2Proof

/-- P of R215. -/
def cellarP (n : Nat) : Nat := 256 * (n - 262400) / 4353

/-- The superblock in force: the one whose CRC passes and whose sequence is higher (R218). -/
def Ssd.super (d : Ssd) : Option Super :=
  let ok := fun (x : Option Super) => x.filter (fun b => b.crcOk)
  match ok d.sb0, ok d.sb1 with
  | some a, some b => some (if a.seq < b.seq then b else a)
  | some a, none => some a
  | none, b => b

/-- The superblock is written to the copy not in force. -/
def Ssd.putSuper (d : Ssd) (b : Super) : Ssd :=
  match d.super with
  | some c => if d.sb0 == some c then { d with sb1 := some b } else { d with sb0 := some b }
  | none => { d with sb0 := some b }

/-- A location is taken into use or released. -/
def keepLoc (l : List Nat) (r : Nat × Bool) : List Nat := if r.2 then r.1 :: l.filter (· != r.1) else l.filter (· != r.1)

/-- The locations that hold a page's last journalled version: the checkpoint in force, with the journal replayed over it (R217, R218). -/
def Ssd.live (d : Ssd) : List Nat :=
  match d.super with
  | none => []
  | some b => (d.journal.drop (b.head - d.first)).foldl keepLoc (if b.ckpt then d.ckptB else d.ckptA)

/-- What stands at a location. -/
def Ssd.at' (d : Ssd) (loc : Nat) : Option CellarPage := (d.store.find? (fun e => e.1 == loc)).map (·.2)

/-- The pages Cellar holds, with their locations. -/
def Ssd.pages (d : Ssd) : List (Nat × CellarPage) := d.live.filterMap (fun n => (d.at' n).map (fun c => (n, c)))

/-- Whether two locations hold versions of one page: a map page, or a page of a shared section (R216). -/
def CellarPage.same (a b : CellarPage) : Bool := bitOf a.flags 1 == bitOf b.flags 1 && a.page == b.page && a.index == b.index

/-- Where Cellar holds a page's last version. -/
def Ssd.find (d : Ssd) (c : CellarPage) : Option (Nat × CellarPage) := d.pages.find? (fun e => e.2.same c)

/-- A free location: the lowest one below P. -/
def Ssd.free (d : Ssd) : Option Nat :=
  let l := d.live
  ((List.range (l.length + 1)).find? (fun n => !l.contains n)).filter (fun n => match d.super with | some b => decide (n < b.p) | none => false)

/-- The first LBA of a checkpoint and of a location of the page store (Table 8-6), by P. -/
def ckptLba (p : Nat) (second : Bool) : Nat := 262400 + (if second then ceilDiv (8 * p) 4096 else 0)
def pageLba (p loc : Nat) : Nat := 262400 + 2 * ceilDiv (8 * p) 4096 + 17 * loc

/-- The journal LBA that takes record `n`: the journal is a ring, a record to an LBA (log entry 63). -/
def journalLba (n : Nat) : Nat := 256 + n % 262144

/-- One data LBA of a page before encryption. -/
def CellarPage.plain (c : CellarPage) (k : Nat) : List Byte := (List.range 4096).map (fun i => tget 0#8 c.data (4096 * k + i))

/-- One data LBA as stored (R219): with bit 0 of the flags, SM4-XTS with the LBA number as the tweak. -/
def CellarPage.stored (c : CellarPage) (key p loc k : Nat) : List Byte :=
  if bitOf c.flags 0 then Config.sm4Xts key (pageLba p loc + k) (c.plain k) else c.plain k

/-- The CRC-32C of each data LBA as stored (R216). -/
def CellarPage.sums (c : CellarPage) (key p loc : Nat) : List Nat := (List.range 16).map (fun k => crc32c (c.stored key p loc k))

/-- A page's trailer LBA (Table 8-7). -/
def CellarPage.trailer (c : CellarPage) : List Byte :=
  let b := leBytes 4 0x52504C43 ++ leBytes 2 1 ++ leBytes 2 c.flags ++ leBytes 8 c.page ++ leBytes 8 c.gen ++ leBytes 4 c.index ++ leBytes 2 c.key
    ++ zeroBytes 2 ++ (List.range 16).flatMap (fun k => leBytes 4 (nth 0 c.crc k)) ++ zeroBytes 3996
  b ++ leBytes 4 (crc32c b)

/-- Whether a page read from a location passes its CRCs. -/
def CellarPage.intact (c : CellarPage) (key p loc : Nat) : Bool := c.crc == c.sums key p loc

/-- Journal records are written. -/
def Ssd.note (d : Ssd) (l : List (Nat × Bool)) : Ssd := { d with journal := d.journal ++ l }

/-- A page's new version goes to a free location; the old one is released (R217). -/
def Ssd.put (d : Ssd) (n : Nat) (c : CellarPage) : Ssd :=
  let old := match d.find c with | some o => [(o.1, false)] | none => []
  ({ d with store := (n, c) :: d.store.filter (fun e => e.1 != n) } : Ssd).note ((n, true) :: old)

/-- A checkpoint is written into the copy not in force, then the superblock that names it (R217); the journal keeps what the other copy still needs. -/
def Ssd.checkpoint (d : Ssd) (b : Super) : Ssd :=
  let l := d.live
  let c := if b.ckpt then { d with ckptA := l } else { d with ckptB := l }
  let e := c.putSuper { b with ckpt := !b.ckpt, seq := b.seq + 1, head := d.first + d.journal.length }
  { e with first := b.head, journal := d.journal.drop (b.head - d.first) }

/-- An empty Cellar is initialised (R218). -/
def Ssd.init (d : Ssd) (b : Super) : Ssd := { d.putSuper b with ckptA := [], ckptB := [], first := 0, journal := [], store := [] }

end Sys2Proof.Machine
end

