-- ==== Sys2Proof/Machine/Body.lean ====
section
/-!
DEFINITION. A weight or fallback section body (R189, Table 7-9): its header and layer entries, read at their offsets from the body's bytes.
-/

namespace Sys2Proof.Machine
open Sys2Proof

/-- The bytes of a body in format 2: a body in format 1 is repacked (R189). -/
def WBody.data (b : WBody) : List Byte := if b.fmt = 1 then Config.repack b.bytes else b.bytes

/-- A field of a body: `n` bytes from an offset, little-endian (R5). -/
def WBody.field (b : WBody) (off n : Nat) : Nat := leValue ((b.data.drop off).take n)

/-! ## The header -/

def WBody.magic (b : WBody) : Nat := b.field 0 4
/-- The number of layers, which is also the position of the converted input. -/
def WBody.top (b : WBody) : Nat := b.field 4 2
def WBody.flags (b : WBody) : Nat := b.field 6 2
def WBody.mop (b : WBody) : Nat := b.field 8 4
def WBody.eff (b : WBody) : Nat := b.field 12 2
def WBody.width (b : WBody) : Nat := b.field 16 2
def WBody.height (b : WBody) : Nat := b.field 18 2
/-- Whether the fields that Table 7-9 reserves are 0. -/
def WBody.reservedOk (b : WBody) : Bool := b.field 14 2 == 0 && b.field 20 44 == 0 && decide (b.flags < 4)

/-! ## The layer entries -/

/-- The entry of layer i, with what Wyrax decided for it. -/
def WBody.layer (b : WBody) (i : Nat) : Layer :=
  let e := (b.data.drop (64 + 32 * i)).take 32
  let u := fun (off n : Nat) => leValue ((e.drop off).take n)
  let p := nth {} b.plan i
  { op := u 0 1, act := u 1 1, wfmt := u 2 1, afmt := u 3 1, kh := u 4 1, kw := u 5 1, stride := u 6 1, dil := u 7 1, cin := u 8 2, cout := u 10 2,
    groups := u 12 2, in0 := u 14 1, in1 := u 15 1, woff := u 16 4, wlen := u 20 4, poff := u 24 4, zero := sgn 8 (u 28 1), block := bitOf (u 29 1) 0,
    lo := sgn 8 (u 30 1), hi := sgn 8 (u 31 1), cls := p.cls, kib := p.kib, uses := p.uses, pages := p.pages, addr := p.addr }

/-- All layer entries. -/
def WBody.layers (b : WBody) : List Layer := (List.range b.top).map b.layer

end Sys2Proof.Machine
end

