-- ==== Sys2Proof/Machine/Fit.lean ====
section
/-!
DEFINITION. Fitting the tensor work to the clusters in service (R180, R195–R199).
-/

namespace Sys2Proof.Machine
open Sys2Proof

/-! ## Loads (R195) -/

/-- Whether an instance is enabled; its network; its sensor. -/
def State.insOn (s : State) (i : Nat) : Bool := s.fb F.TNS_INS_CTL_ENABLE i
def State.insNet (s : State) (i : Nat) : Nat := s.f F.TNS_INS_CTL_NET i
def State.insSensor (s : State) (i : Nat) : Nat := s.f F.TNS_INS_CTL_SENSOR i

/-- Slot operations per second of one instance of a network with `mop` and efficiency `eff`: mop / efficiency × frame rate. -/
def State.loadOf (s : State) (i mop eff : Nat) : Nat × Nat :=
  let period := s.f F.ING_SNS_PERIOD_NS (s.insSensor i)
  if mop = 0 ∨ eff = 0 ∨ period = 0 then (0, 1) else (mop * 1000000 * 65536 * 1000000000, eff * period)

/-- Σ S: the slot load of every instance at full rate. -/
def State.mainLoad (s : State) : Nat × Nat :=
  (List.range 64).foldl (fun a i =>
    if s.insOn i then addFrac a (s.loadOf i (s.f F.TNS_NET_MOP_MOP (s.insNet i)) (s.f F.TNS_NET_EFF_MAIN (s.insNet i))) else a) (0, 1)

/-- Σ s: the same for the fallbacks. -/
def State.fallbackLoad (s : State) : Nat × Nat :=
  (List.range 64).foldl (fun a i =>
    if s.insOn i then addFrac a (s.loadOf i (s.f F.TNS_NET_FB_MOP_MOP (s.insNet i)) (s.f F.TNS_NET_EFF_FB (s.insNet i))) else a) (0, 1)

/-- C: working clusters × 16,384 MAC × 2 × 1.1 GHz × FIT_LIMIT. -/
def State.capacity (s : State) : Nat × Nat :=
  (s.workingOf 4 * 16384 * 2 * 1100000000 * s.f F.TNS_FIT_LIMIT_LIMIT, 65536)

/-- The weights of a network in a residency class, in KiB (R178: 0 CORE, 1 CLUSTER, 2 HOPPER, 3 DDR). -/
def Net.classKib (n : Net) (cls : Nat) : Nat := sumN ((n.main.layers.filter (fun l => l.cls == cls)).map (·.kib))

/-- The bytes per second that a network's spilled layers stream: weight bytes × uses per second (R196). -/
def Net.stream (n : Net) : Nat := sumN ((n.main.layers.filter (fun l => l.cls == 3)).map (fun l => 1024 * l.kib * l.uses))

/-- B: the bytes per second that the spilled layers of the enabled networks stream (R196). -/
def State.streamNeed (s : State) : Nat :=
  sumN ((List.range 16).map (fun m => if s.fb F.TNS_NET_CTL_ENABLE m then (nth {} s.bt.img.nets m).stream else 0))

/-- f_c in units of 2⁻¹⁶ (R197): (C − Σ s) / Σ (S − s), never below 0. Where Σ (S − s) is 0 the rule gives no quotient: 1 where C holds the load, 0
where it does not (log entry 27). -/
def State.fitLoad (s : State) : Nat :=
  let c := s.capacity
  let full := s.mainLoad
  let low := s.fallbackLoad
  let num : Int := (c.1 * low.2 : Nat) - (low.1 * c.2 : Nat)
  let den : Int := (full.1 * low.2 : Nat) - (low.1 * full.2 : Nat)
  if den = 0 then (if num < 0 then 0 else 65536)
  else if decide (num < 0) != decide (den < 0) then 0
  else 65536 * (num.natAbs * full.2) / (den.natAbs * c.2)

/-- f in units of 2⁻¹⁶ (R197): the least of 1, f_c and f_b, rounded down. -/
def State.fitRate (s : State) : Nat :=
  let b := s.streamNeed
  let fb := if b = 0 then 65536 else 65536 * (s.f F.TNS_SPILL_BW_GBPS * 1000000000) / b
  Nat.min 65536 (Nat.min s.fitLoad fb)

/-- The rate fraction takes effect in the registers (R197). -/
def State.setFit (s : State) : State :=
  let f := s.fitRate
  let s := (s.setF F.TNS_FIT_RATE f).setF F.BOOT_FIT_RATE f
  (s.setB F.TNS_STATUS_FIT_REDUCED (decide (f < 65536))).setB F.BOOT_STATUS_FIT_REDUCED (decide (f < 65536))

/-! ## A cluster lost beyond the spares (R199) -/

/-- An instance. -/
def State.ins (s : State) (i : Nat) : InsSt := tget {} s.tns.ins i

/-- An instance's state changes. -/
def State.setIns (s : State) (i : Nat) (x : InsSt) : State := { s with tns.ins := tput {} s.tns.ins i x }

/-- The rate fraction that applies to frame k of an instance, and whether it is that of a refit (R197, R199). -/
def State.rateFor (s : State) (i k : Nat) : Nat × Bool :=
  match (s.ins i).refit with
  | some (m, r, q) => if k ≤ m then (r, q) else (s.f F.TNS_FIT_RATE, s.tns.refitted)
  | none => (s.f F.TNS_FIT_RATE, s.tns.refitted)

/-- A new f applies from the next frame of each instance: a frame that has begun keeps the one it has, and with it whether that was a refit's. -/
def State.keepRate (s : State) (i : Nat) : State :=
  let x := s.ins i
  if 0 < x.bands || 0 < x.at' || x.heldAt.isSome then s.setIns i { x with refit := some (x.next, s.rateFor i x.next) } else s

/-- f is recomputed for the clusters in service, and REFIT is set for cluster `i` (R199). -/
def State.refit (s : State) (i : Nat) : State :=
  let s := (List.range 64).foldl State.keepRate s
  ({ s.setFit with tns.refitted := s.lostIn 4 } : State).event 0x6 7 i

/-- Logical cluster `l` has lost its unit `i`: the highest-numbered one in service goes out of service and its unit takes index `l` (R199). The windows
of cluster `l` hold the same weights as before, loaded from their copies (R201; the time it takes is left out, log entry 98); its staging is empty until
layers are fetched again, and tasks wait for them (R179). f is recomputed and REFIT is set. -/
def State.clusterLost (s : State) (l i : Nat) : State :=
  let s : State := match ((s.places 4).filter (fun h => decide (l < h) && (s.physOf 4 0 h).isSome)).getLast? with
    | some h => { (s.putPlace 4 0 l (s.physOf 4 0 h)).putPlace 4 0 h none with tns.staged := s.tns.staged.filter (fun e => e.2.2 != l && e.2.2 != h) }
    | none => s
  s.refit i

end Sys2Proof.Machine
end

