-- ==== Sys2Proof/Machine/Failures.lean ====
section
/-!
DEFINITION. Failures of units and what covers them (R375–R381, R199, Table 13-5).
-/

namespace Sys2Proof.Machine
open Sys2Proof

/-! ## Failures -/

/-- The DEGRADED marks of a loss beyond the spares (Table 13-5): the status bits, DSP_EVT.DEGRADED and the block's event. -/
def State.markLost (s : State) (c i : Nat) : State :=
  let s := s.syncDegraded.event 0xC 2 i 0 c
  if c = 4 then s.event 0x6 3 i
  else if 5 ≤ c ∧ c ≤ 9 then s.event 0x5 1 i 0 c
  else if c = 0xA then s.event 0x9 10 i
  else if c = 0xB then s.event 0xA 8 i
  else if c = 0xC then (s.setB F.CSK_STATUS_DEGRADED true).event 0xB 2 i
  else s

/-- DSP_ST_LAST: the last test (Table 13-9): 0 pass, 1 fail, 2 retest fail, 3 abandoned. -/
def State.lastTest (s : State) (c i r : Nat) : State :=
  ((s.setF F.DSP_ST_LAST_CLASS c).setF F.DSP_ST_LAST_INDEX i).setF F.DSP_ST_LAST_RESULT r

/-- A visit is over. -/
def State.dropVisit (s : State) (v : Visit) : State :=
  { s with dsp.visits := s.dsp.visits.filter (fun w => !(w.cls == v.cls && w.spare == v.spare)) }

/-- The name of a rotation group. -/
def groupKey (c g : Nat) : Nat := c * 65536 + g

/-- The logical place that a group's next visit begins with. -/
def State.setNextVisit (s : State) (c g l : Nat) : State := { s with dsp.nextVisit := tput 0 s.dsp.nextVisit (groupKey c g) l }

/-- A visit's unit under test, or due back, returns to its place at once (Table 13-4): a test under way is abandoned, and the unit is
visited again at the next visit. -/
def State.returnUnit (s : State) (v : Visit) : State :=
  let s := (s.dropVisit v).putPlace v.cls v.group v.logical (some v.phys)
  if v.phase = 2 then (s.lastTest v.cls v.phys 3).setNextVisit v.cls v.group v.logical else s

/-- The unit's part in a visit ends (Table 13-4): where it stands in for a unit under test, that unit returns to service at once; where
its spare is under its own test, that test is abandoned; where it is itself the unit under test, the spare that carries its place
stands in for it. -/
def State.endVisit (s : State) (c i : Nat) : State :=
  match s.dsp.visits.find? (fun v => v.cls == c && (v.spare == i || v.phys == i)) with
  | none => s
  | some v =>
    if v.phase < 2 then
      let s := s.dropVisit v
      if v.phys = i ∧ v.phase = 0 then s.lastTest c v.spare 3 else s
    else if v.spare = i then s.returnUnit v
    else { s.dropVisit v with dsp.standIn := tput 0 s.dsp.standIn (unitKey c v.spare) (i + 1) }

/-- The spare that covers a failed unit (R375, Table 13-4): a free one, or one whose own test or swap in is abandoned for it; with
neither, the unit under test of another visit of the group returns to service and its spare is free. -/
def State.coverSpare (s : State) (c g : Nat) : State × Option Nat :=
  let inHand := fun (i : Nat) => s.dsp.handover.contains (unitKey c i)
  match s.freeSpares c g with
  | sp :: _ => (s, some sp)
  | [] =>
    match (s.goodSpares c g).filter (fun i => !inHand i) with
    | sp :: _ =>
      match s.dsp.visits.find? (fun v => v.cls == c && v.spare == sp) with
      | some v => ((if v.phase = 0 then s.lastTest c sp 3 else s).dropVisit v, some sp)
      | none => (s, some sp)
    | [] =>
      match s.dsp.visits.find? (fun v => v.cls == c && v.group == g && decide (2 ≤ v.phase)) with
      | some v => (s.returnUnit v, some v.spare)
      | none => (s, none)

/-- A failed unit's place: a spare takes it and stands in, or it is lost beyond the spares (R375, R379). -/
def State.coverPlace (s : State) (c i l : Nat) : State × Bool :=
  let g := groupOfUnit c i
  let r := s.coverSpare c g
  match r.2 with
  | some sp => (({ r.1 with dsp.standIn := tput 0 r.1.dsp.standIn (unitKey c sp) (i + 1) } : State).putPlace c g l (some sp), true)
  | none => (r.1.putPlace c g l none, false)

/-- Whether a failure of the unit is its second within 24 h (R375). -/
def State.secondFailure (s : State) (c i : Nat) : Bool :=
  match (s.unitSt c i).failedAt with
  | some t => decide (s.mono ≤ t + 24 * 3600 * 1000000000)
  | none => false

/-- SPARES_OUT (Table 13-9), once a unit of a group is out for good and the group has no spare left. -/
def State.noteSpares (s : State) (c g : Nat) : State :=
  if sparesOf s.otp.part c ≠ 0 ∧ (s.goodSpares c g).isEmpty then s.event 0xC 6 g 0 c else s

/-- A unit stays out (R375): it waits for its retests, or is retired at once on a second failure within 24 h. -/
def State.takeOut (s : State) (c i : Nat) : State :=
  if s.secondFailure c i then s.retireUnit c i
  else s.setUnit c i { s.unitSt c i with out := true, passes := 0, failedAt := some s.mono }

/-- A failure at one level: the unit stays out and a spare takes its place where it is active (R375). The answer says the
logical place left without a unit, if there is one. -/
def State.failHere (s : State) (c i : Nat) : State × Option Nat :=
  if (s.unitSt c i).out then (s, none)
  else
    let second := s.secondFailure c i
    let s := s.endVisit c i
    let place := s.placeOf c i
    let s := s.takeOut c i
    let s := { s with dsp.standIn := tput 0 s.dsp.standIn (unitKey c i) 0 }
    let note := fun (s : State) => if second then s.noteSpares c (groupOfUnit c i) else s
    match place with
    | none => ((note s).syncUnits c, none)
    | some l =>
      let r := s.coverPlace c i l
      ((note r.1).syncUnits c, if r.2 then none else some l)

/-- A unit fails (R375, R379): a tensor failure beyond the spares of its group counts one level up (at most `up` levels), and any
other place is lost beyond the spares. -/
def State.failUnit (s : State) (c i : Nat) : (up : Nat) → State
  | 0 =>
    let r := s.failHere c i
    match r.2 with
    | none => r.1
    | some l =>
      let s := r.1.markLost c i
      (if c = 4 then s.clusterLost l i else s).syncUnits c
  | n + 1 =>
    let r := s.failHere c i
    match r.2 with
    | none => r.1
    | some _ => r.1.failUnit (unitAbove c i).1 (unitAbove c i).2 n

/-- A unit fails, with the levels above it (R379). -/
def State.unitFails (s : State) (c i : Nat) : State := s.failUnit c i (if c ≤ 3 then 4 - c else 0)

/-- DSP_EVT.SWAP and the SWAP bit of the block that owns a class, for the unit that takes a place. -/
def State.swapEvent (s : State) (c i : Nat) : State :=
  let s := s.event 0xC 3 i 0 c
  if c ≤ 4 then s.event 0x6 6 i 0 c
  else if c ≤ 9 then s.event 0x5 7 i 0 c
  else if c = 0xA then s.event 0x9 9 i
  else if c = 0xB then s.event 0xA 7 i
  else if c = 0xC then s.event 0xB 7 i
  else s

end Sys2Proof.Machine
end

