-- ==== Sys2Proof/Machine/Time.lean ====
section
/-!
DEFINITION. Device time, PTP domains and their selection, hold-over, triggers, captures and the sensor offset monitor (chapter 03).
-/

namespace Sys2Proof.Machine
open Sys2Proof

/-! ## Device time (R56–R60) -/

/-- One CLK_S cycle in units of 2⁻¹⁶ ns. -/
def tickUnits : Nat := 131072

/-- Parts of 10⁻¹² (the resolution of the frequency correction, R57). -/
def ppt1 : Nat := 1000000000000

/-- The most a tick slews: 200 ppm of a cycle, in units of 2⁻¹⁶ ns × 10⁻¹² (R57). -/
def slewMax : Int := 131072 * 200000000

/-- What of the remaining slew one tick applies. -/
def slewStep (slew : Int) : Int := if slew > slewMax then slewMax else if slew < -slewMax then -slewMax else slew

/-- The remaining slew in whole nanoseconds, as TIME_SLEW_REMAIN shows it. -/
def slewNs (slew : Int) : Int := slew.tdiv (65536 * 1000000000000)

/-- A remaining slew of `ns` nanoseconds. -/
def slewOf (ns : Int) : Int := ns * (65536 * 1000000000000)

/-- TIME_SLEW_REMAIN and the slew it shows change. -/
def State.setSlew (s : State) (v : Int) : State := { s with tm.slew := v }.setFs F.TIME_SLEW_REMAIN_NS (slewNs v)

/-- Whether this device disciplines its own time: not where it follows a cascade master (chapter 03, Table 3-1; R427). -/
def State.ownTime (s : State) : Bool := decide (s.f F.LNK_STATUS_ROLE ≤ 1)

/-- A domain's servo state. -/
def State.dom (s : State) (n : Nat) : Dom := nth {} s.tm.doms n

/-- Whether some domain is LOCKED (R69). -/
def State.anyLocked (s : State) : Bool := (s.dom 0).locked || (s.dom 1).locked

/-- Whether a slew in progress goes on: not between the loss of LOCKED and the evaluation that drops it (R69). -/
def State.slewing (s : State) : Bool := !s.ownTime || s.tm.selected.isNone || s.anyLocked

/-- What of the remaining slew the next tick applies. -/
def State.slewNow (s : State) : Int := if s.slewing then slewStep s.tm.slew else 0

/-- Each CLK_S cycle adds a nominal 2 ns, corrected in frequency (TIME_RATE, ppt) and phase (the slew); what the corrections leave
below 2⁻¹⁶ ns is carried (R57). -/
def deviceTimeTick (s : State) : State :=
  let st := s.slewNow
  let add : Int := (tickUnits * ppt1 : Nat) + tickUnits * s.fs F.TIME_RATE_PPT + st + s.tm.rem
  let total := add.toNat
  let s := { s with tm.dev := s.tm.dev + total / ppt1, tm.rem := total % ppt1, tm.tick := s.tm.tick + 1 }
  s.setSlew (s.tm.slew - st)

/-- A read of TIME_NOW_SEC_LO captures all 112 bits for the function (R60), for one read each of TIME_NOW_SEC_HI, _NS and _FRAC: keys 4 fn
to 4 fn + 2, device time plus one. -/
def State.captureNow (s : State) (fn : Nat) : State :=
  let d := s.tm.dev + 1
  { s with tm.capt := tput 0 (tput 0 (tput 0 s.tm.capt (4 * fn + 2) d) (4 * fn + 1) d) (4 * fn) d }

/-- The words of device time as the host reads them: seconds low and high, nanoseconds, the fraction in 2⁻¹⁶ ns (R59, R60). -/
def timeNowWord (dev k : Nat) : Nat :=
  let ns := dev / 65536
  match k with
  | 0 => ns / 1000000000 % 2 ^ 32
  | 1 => ns / 1000000000 / 2 ^ 32 % 2 ^ 32
  | 2 => ns % 1000000000
  | _ => dev % 65536

/-! ## Domains (R62–R65) -/

/-- A domain's servo state changes. -/
def State.setDom (s : State) (n : Nat) (d : Dom) : State := { s with tm.doms := setNth s.tm.doms n d }

/-- Whether a domain listens on a port: enabled, and the port in its mask. -/
def State.domOn (s : State) (n port : Nat) : Bool :=
  decide (n < 2) && s.fb F.TIME_D_CFG_ENABLE n && bitOf (s.f F.TIME_D_CFG_PORT_MASK n) port && decide (port < 4)

/-- 2^e seconds in nanoseconds, for a signed 4-bit logarithm. -/
def logInterval (e : Int) : Nat := if e < 0 then 1000000000 / 2 ^ e.natAbs else 1000000000 * 2 ^ e.natAbs

/-- The status of a domain as its registers show it. -/
def State.syncDom (s : State) (n : Nat) : State :=
  let d := s.dom n
  let m := nth {} d.ports d.port
  let s := s.setF F.TIME_D_STATUS_STATE (if d.locked then 3 else if d.qualified then 1 else 0) n
  let s := (s.setF F.TIME_D_STATUS_PORT d.port n).setF F.TIME_D_STATUS_CLASS m.cls n
  let s := (s.setF F.TIME_D_STATUS_STEPS m.steps n).setPair R.TIME_D_GMID_LO R.TIME_D_GMID_HI d.gm n
  if n = 0 then s.setB F.TIME_STATUS_PRI_LOCKED d.locked else s.setB F.TIME_STATUS_SEC_LOCKED d.locked

/-- A domain leaves LOCKED (R65): LOSS_COUNT (at its top it stays there: DESIGN CHOICE of log entry 71), a LOCK event. With no domain LOCKED any
more this is the loss of LOCKED from which R70 counts. -/
def State.unlock (s : State) (n : Nat) : State :=
  if (s.dom n).locked then
    let s := s.setDom n { s.dom n with locked := false, conv := 0, dvg := 0 }
    let s : State := if s.anyLocked then s else { s with tm.lostAt := s.mono }
    (s.addSat F.TIME_D_LOSS_COUNT_COUNT 1 n).event 0x2 0 n
  else s

/-- A domain loses its qualification (R65). -/
def State.unqualify (s : State) (n : Nat) : State :=
  let s := s.unlock n
  (s.setDom n { s.dom n with qualified := false, conv := 0, dvg := 0 }).syncDom n

/-- The first edge of a schedule at or after a device time in units of 2⁻¹⁶ ns (R73). -/
def State.firstEdge (s : State) (n t : Nat) : Nat :=
  let den := s.f F.TIME_TRIG_DEN_DEN n
  let num := s.f F.TIME_TRIG_NUM_NUM n
  ceilDiv (t * den - s.f F.TIME_TRIG_PHASE_NS n * den * 65536) (num * 65536)

/-- The PTP wait of step 5 ends (R42, R58, R73): no step from here on; every schedule starts with its first edge at least 1 ms
later. -/
def State.endPtpWait (s : State) : State :=
  if s.f F.BOOT_STATUS_STAGE ≠ 4 ∨ s.tm.trigOn then s
  else
    let t := s.tm.dev + 1000000 * 65536
    let s := { s with tm.stepOpen := false, tm.trigOn := true, tm.waitEnd := s.tm.dev, bt.waitOver := true }
    (List.range 48).foldl (fun s n =>
      if s.fb F.TIME_TRIG_CTL_ENABLE n then { s with tm.trigNext := tput 0 s.tm.trigNext n (s.firstEdge n t) } else s) s

/-- A time in units of 2⁻¹⁶ ns in whole nanoseconds, the fraction dropped. -/
def wholeNs (t : Int) : Int := t.tdiv 65536

/-- TIME_Dn_OFFSET shows a domain's offset in nanoseconds. -/
def State.showOffset (s : State) (n : Nat) : State :=
  s.setPair R.TIME_D_OFFSET_LO R.TIME_D_OFFSET_HI (uns 64 (wholeNs (s.dom n).off)) n

/-- Device time steps to a domain's time where that is later, once, in the PTP wait of step 5 (R58); `off` in units of 2⁻¹⁶ ns. Every domain's
offset and estimate move with it; stamps taken before the step (t2, t3, that of a two-step Sync which waits for its Follow_Up, the predicted
arrivals of free-running sensors) stay as they were taken (DESIGN CHOICE of log entry 93). -/
def State.stepTo (s : State) (n : Nat) (off : Int) : State :=
  let s := { s with tm.stepOpen := false }
  if off > 0 then
    let s := { s with tm.dev := s.tm.dev + off.toNat,
                      tm.doms := s.tm.doms.map (fun (d : Dom) => ({ d with est := d.est - off, off := d.off - off } : Dom)) }
    let s := [0, 1].foldl (fun s m => s.showOffset m) s
    s.setB F.TIME_STATUS_STEPPED true
  else s

/-- A domain's servo has converged (R65): LOCKED; in the wait of step 5, the step of R58 and the end of the wait. A domain that is LOCKED before
step 5 begins (PTP messages are taken from step 2 on) neither steps device time nor ends that wait (DESIGN CHOICE of log entry 93). -/
def State.lock (s : State) (n : Nat) (off : Int) : State :=
  let s := s.setDom n { s.dom n with locked := true, lockedAt := s.mono, dvg := 0 }
  let s := ({ s with tm.everLocked := true } : State).event 0x2 0 n
  if s.tm.stepOpen then (s.stepTo n off).endPtpWait else s

/-- The data set an Announce is compared by: the lower wins (IEEE 1588; log entry 12). -/
def Announce.rank (a : Announce) : Nat :=
  ((((a.prio1 * 256 + a.cls) * 256 + a.acc) * 65536 + a.var) * 256 + a.prio2) * 2 ^ 64 + a.gm

/-- The port whose grandmaster wins among those that are heard; the current one where none is. -/
def bestPort (d : Dom) : Nat :=
  let heard := (List.range 4).filter (fun p => (nth {} d.ports p).valid)
  (bestBy (fun p q =>
    let a := nth {} d.ports p
    let b := nth {} d.ports q
    decide (a.prio < b.prio) || (a.prio == b.prio && decide (a.steps < b.steps))) heard).getD d.port

/-- How many Announces a domain has from a grandmaster, on whichever ports it is heard. -/
def Dom.heard (d : Dom) (gm : Nat) : Nat := d.ports.foldl (fun c m => if m.valid && m.gm == gm then Nat.max c m.count else c) 0

/-- When a domain last had an Announce from a grandmaster, on whichever port. -/
def Dom.lastFrom (d : Dom) (gm : Nat) : Nat := d.ports.foldl (fun t m => if m.valid && m.gm == gm then Nat.max t m.last else t) 0

/-- Announces from a grandmaster are counted anew, from the one on port `via` on. -/
def recount (ports : List PortMaster) (gm : Nat) (via : Option Nat) : List PortMaster :=
  (List.range 4).map (fun p =>
    let m := nth {} ports p
    if m.gm = gm then { m with count := Nat.min m.count (if via = some p then 1 else 0) } else m)

/-- The slave port and the grandmaster follow the best master; a change of grandmaster ends the qualification as a loss, and it
qualifies again on the second Announce from the new one (R65): Announces are counted from the change on, one that comes in on port `via` with it
(DEDUCED, log entry 70). A domain whose servo has converged by then is LOCKED as it qualifies. -/
def State.followBest (s : State) (n : Nat) (via : Option Nat) : State :=
  let d := s.dom n
  let p := bestPort d
  let m := nth {} d.ports p
  let s := if d.gm ≠ m.gm ∧ d.qualified then s.unqualify n else s
  let d := { s.dom n with port := p, gm := m.gm, ports := if d.gm = m.gm then d.ports else recount d.ports m.gm via }
  let s := s.setDom n d
  let ok := m.valid && decide (2 ≤ d.heard m.gm) && m.ptpScale && decide (m.cls ≤ s.f F.TIME_D_QUAL_CLASS_MAX n)
  if ok then
    let s := s.setDom n { d with qualified := true }
    (if !d.locked && s.ownTime && decide (4 ≤ d.conv) then s.lock n d.off else s).syncDom n
  else if d.qualified then s.unqualify n
  else s.syncDom n

/-- TIME_UTC carries the UTC data of the selected domain; a change is a LEAP event (R56). -/
def State.showUtc (s : State) (n : Nat) : State :=
  let w := BitVec.ofNat 32 (s.dom n).utc
  if s.word R.TIME_UTC = w then s else (s.setWord R.TIME_UTC w).event 0x2 8 n

/-- An Announce message (R65): two from one grandmaster within four announce intervals qualify it, on whichever ports of the domain they come. -/
def ptpAnnounceRx (n port : Nat) (a : Announce) (s : State) : State :=
  if !s.domOn n port then s
  else
    let d := s.dom n
    let had := d.heard a.gm
    let near := decide (s.mono - d.lastFrom a.gm ≤ 4 * logInterval (s.fs F.TIME_D_CFG_LOG_ANNOUNCE n))
    let cnt := if 0 < had ∧ near then had + 1 else if 2 ≤ had then had else 1
    let m' : PortMaster := { gm := a.gm, prio := a.rank, cls := a.cls, steps := a.steps, ptpScale := a.ptpScale,
                             last := s.mono, count := cnt, valid := true }
    let utc := a.utc % 65536 + 65536 * (b2n a.utcValid + 2 * b2n a.leap61 + 4 * b2n a.leap59)
    let s := s.setDom n { d with ports := setNth d.ports port m' }
    let s := s.followBest n (some port)
    if (s.dom n).port = port then
      let s := s.setDom n { s.dom n with utc := utc }
      if s.tm.selected = some n then s.showUtc n else s
    else s

/-- The announce receipt timeout of a port (R65); on the slave port it ends the qualification, and Announces are counted anew on every port. -/
def announceReceiptTimeout (n port : Nat) (s : State) : State :=
  if !s.domOn n port then s
  else
    let d := s.dom n
    let ports := setNth d.ports port { nth {} d.ports port with valid := false, count := 0 }
    if d.port = port then
      let ports := ports.map (fun (m : PortMaster) => ({ m with count := 0 } : PortMaster))
      ((s.setDom n { d with ports := ports }).unqualify n).followBest n none
    else s.setDom n { d with ports := ports }

/-- The bound of TIME_RATE: 500 ppm in ppt (R57). -/
def rateClamp (p : Int) : Int := if p > 500000000 then 500000000 else if p < -500000000 then -500000000 else p

/-- A Sync-derived offset (R65): four that each differ from the servo's estimate by less than 1 µs lock a qualified domain, four
that each differ by more than 10 µs end LOCKED. The selected domain's servo sets the frequency correction, which holds while no domain is
LOCKED (R69). Times in units of 2⁻¹⁶ ns. -/
def State.offsetSample (s : State) (n : Nat) (t1 rx est ppt : Int) : State :=
  let d := s.dom n
  let off := t1 + d.mpd - rx
  let dev := (off - est).natAbs
  let conv := if dev < 1000 * 65536 then d.conv + 1 else 0
  let dvg := if 10000 * 65536 < dev then d.dvg + 1 else 0
  let s := (s.setDom n { d with est := est, off := off, conv := conv, dvg := dvg, t1 := t1, t2 := rx }).showOffset n
  let s := if !d.locked && d.qualified && decide (4 ≤ conv) then s.lock n off
           else if d.locked && decide (4 ≤ dvg) then s.unlock n
           else s
  let s := s.syncDom n
  if s.tm.selected = some n ∧ s.anyLocked then s.setFs F.TIME_RATE_PPT (rateClamp ppt) else s

/-- A receive stamp at the PCS boundary, in eighths of a nanosecond, corrected by the fixed latency of the port's PHY (R63): in units of
2⁻¹⁶ ns. -/
def rxTime (port : Nat) (raw : Int) : Int := (raw - Config.phyIngress port) * 8192

/-- The one-step transmit time of a message (R64), in eighths of a nanosecond: device time corrected by the port's fixed egress latency. -/
def State.txTime (s : State) (port : Nat) : Int := (s.tm.dev / 8192 : Nat) + Config.phyEgress port

/-- When a Sync left its master, corrected: origin and correction, in units of 2⁻¹⁶ ns. -/
def SyncMsg.sent (m : SyncMsg) : Int := m.origin * 65536 + m.corr

/-- A Sync message (R62, R63, R65): one-step gives its offset at once, two-step waits for its Follow_Up. -/
def ptpSyncRx (n port : Nat) (twoStep : Bool) (m : SyncMsg) (s : State) : State :=
  if !(s.domOn n port && s.ownTime) || (s.dom n).port != port then s
  else if twoStep then s.setDom n { s.dom n with syncSeq := some (m.seq, rxTime port m.rx) }
  else s.offsetSample n m.sent (rxTime port m.rx) m.est m.ppt

/-- A Follow_Up message completes the two-step Sync of its sequence number (R62). -/
def ptpFollowUpRx (n port : Nat) (m : SyncMsg) (s : State) : State :=
  if !(s.domOn n port && s.ownTime) || (s.dom n).port != port then s
  else
    match (s.dom n).syncSeq with
    | some (q, rx) =>
      if q = m.seq then (s.setDom n { s.dom n with syncSeq := none }).offsetSample n m.sent rx m.est m.ppt else s
    | none => s

/-- Whether a domain runs the peer delay mechanism: the 802.1AS profile (Table 3-2). -/
def State.peerDelay (s : State) (n : Nat) : Bool := s.f F.TIME_D_CFG_PROFILE n == 2

/-- A PTP message with its one-step transmit time (R64): over IEEE 802.3 in the 802.1AS profile, otherwise over UDP over IPv4 with the UDP
checksum 0x0000. -/
def State.ptpOut (s : State) (port kind seq : Nat) (as unicast : Bool) : State :=
  s.emit (.ptp { port := port, kind := kind, seq := seq, time := s.txTime port, udp := !as, sum := if as then none else some 0, unicast := unicast })

/-- TIME_Dn_MPD shows a mean path delay of `d`, in units of 2⁻¹⁶ ns. -/
def State.setMpd (s : State) (n : Nat) (d : Int) : State := (s.setDom n { s.dom n with mpd := d }).setFs F.TIME_D_MPD_NS (wholeNs d) n

/-- A Delay_Req (or, for 802.1AS, a Pdelay_Req) is sent with its one-step origin timestamp (R64): kind 1 Delay_Req, unicast where HYBRID is
set, 2 Pdelay_Req. -/
def ptpDelayReqTx (n : Nat) (s : State) : State :=
  let d := s.dom n
  if !s.domOn n d.port then s
  else
    let s := s.setDom n { d with t3 := s.txTime d.port * 8192, reqSeq := (d.reqSeq + 1) % 65536 }
    s.ptpOut d.port (if s.peerDelay n then 2 else 1) ((d.reqSeq + 1) % 65536) (s.peerDelay n) (s.fb F.TIME_D_CFG_HYBRID n && !s.peerDelay n)

/-- A Delay_Resp updates the mean path delay of the end-to-end mechanism; `t4`, the receive time it brings less its correction, in units of
2⁻¹⁶ ns. -/
def ptpDelayRespRx (n seq : Nat) (t4 : Int) (s : State) : State :=
  let d := s.dom n
  if !s.domOn n d.port || s.peerDelay n || seq != d.reqSeq then s
  else s.setMpd n (((d.t2 - d.t1) + (t4 - d.t3)) / 2)

/-- The stamp of an event message that a port receives now (R63), in units of 2⁻¹⁶ ns. -/
def State.rxNow (s : State) (port : Nat) : Int := rxTime port (s.tm.dev / 8192 : Nat)

/-- An 802.1AS Pdelay_Req is stamped (R63), the stamp held by port, and answered with a one-step Pdelay_Resp (R64): kind 3. -/
def ptpPdelayReqRx (port seq : Nat) (s : State) : State :=
  if (s.domOn 0 port && s.peerDelay 0) || (s.domOn 1 port && s.peerDelay 1) then
    ({ s with tm.reqRx := setNth s.tm.reqRx port (s.rxNow port) } : State).ptpOut port 3 seq true false
  else s

/-- A Pdelay_Resp updates the peer delay; `t4` is its receive stamp at the PCS boundary in eighths of a nanosecond, `turn` the responder's
turnaround that it carries, in units of 2⁻¹⁶ ns. -/
def ptpPdelayRespRx (n seq : Nat) (t4 turn : Int) (s : State) : State :=
  let d := s.dom n
  if !s.domOn n d.port || !s.peerDelay n || seq != d.reqSeq then s
  else s.setMpd n ((rxTime d.port t4 - d.t3 - turn) / 2)

/-- Whether some domain runs on a port. -/
def State.ptpPort (s : State) (port : Nat) : Bool := s.domOn 0 port || s.domOn 1 port

/-- Whether the domain that a port's management messages reach runs 802.1AS: the primary's profile where both run there (log entry 70). -/
def State.portAs (s : State) (port : Nat) : Bool := if s.domOn 0 port then s.peerDelay 0 else s.peerDelay 1

/-- Management messages: GET is answered (kind 4), SET and COMMAND are refused (kind 5), Table 3-2. -/
def ptpManagementGet (port seq : Nat) (s : State) : State := if s.ptpPort port then s.ptpOut port 4 seq (s.portAs port) false else s
def ptpManagementRefuse (port seq : Nat) (s : State) : State := if s.ptpPort port then s.ptpOut port 5 seq (s.portAs port) false else s

/-! ## Selection and the time state (R61, R66–R68) -/

/-- Whether the revert hold-off still keeps the secondary (R66). -/
def State.revertPending (s : State) : Bool :=
  if s.tm.selected ≠ some 1 then false
  else if !s.fb F.TIME_SWITCH_CFG_REVERTIVE then (s.dom 1).locked
  else
    let from' := Nat.max s.tm.selectedAt (s.dom 0).lockedAt
    decide (s.mono < from' + s.f F.TIME_SWITCH_CFG_HOLDOFF_S * 1000000000)

/-- The domain that the evaluation wants (R66). -/
def State.wantDomain (s : State) : Option Nat :=
  let p := (s.dom 0).locked
  let q := (s.dom 1).locked
  if p && (s.tm.selected == some 0 || !s.revertPending) then some 0
  else if (match s.tm.selected with | some n => (s.dom n).locked | none => false) then s.tm.selected
  else if q then some 1
  else if p then some 0
  else none

/-- A domain's offset: domain time minus device time. -/
def State.domOffset (s : State) (n : Nat) : Int := sgn 64 (s.pair R.TIME_D_OFFSET_LO R.TIME_D_OFFSET_HI n)

/-- 10 ms in nanoseconds (R58). -/
def tenMs : Nat := 10000000

/-- The selected domain changes (R66): its offset up to 10 ms is slewed, a larger one never; with none selected the slew is
dropped. TIME_SWITCH_COUNT stays at its top (DESIGN CHOICE of log entry 71). -/
def State.switchTo (s : State) (want : Option Nat) : State :=
  let s := { s with tm.selected := want, tm.selectedAt := s.mono }
  match want with
  | none => { s.setSlew 0 with tm.limitPassed := false }
  | some n =>
    let off := s.domOffset n
    let big := decide (tenMs < off.natAbs)
    let s := { s.setSlew (if big then 0 else slewOf off) with tm.bigOffset := big, tm.limitPassed := false }
    let s := s.setB F.TIME_STATUS_SELECTED (n == 1)
    let s := (s.addSat F.TIME_SWITCH_COUNT_COUNT).event 0x2 1 n
    s.showUtc n

/-- The time state that Table 3-1 gives. -/
def State.timeState (s : State) : Nat :=
  match s.tm.selected with
  | some n =>
    if (s.dom n).locked then (if !s.tm.bigOffset && decide ((slewNs s.tm.slew).natAbs < 1000) then 2 else 3)
    else s.f F.TIME_STATUS_STATE
  | none => if s.tm.everLocked && !s.tm.limitPassed then 1 else 0

/-- TIME_STATUS.STATE changes, with the event of the state entered; the state and when it came into force are kept for the records stamped in
it (R61). -/
def State.setTimeState (s : State) (st : Nat) : State :=
  if s.f F.TIME_STATUS_STATE = st then s
  else
    let s := ({ s with tm.states := (s.now, st) :: s.tm.states } : State).setF F.TIME_STATUS_STATE st
    if st = 0 then s.event 0x2 3 else if st = 1 then s.event 0x2 2 else if st = 3 then s.event 0x2 9 else s

/-- The time state in force at a device time in nanoseconds (R61): FREE_RUN before the first change. -/
def State.timeStateAt (s : State) (t : Nat) : Nat := ((s.tm.states.find? (fun e => decide (e.1 ≤ t))).map (·.2)).getD 0

/-- The 1 ms evaluation (R66): selection, then the time state, held until the next one (R61). -/
def selectionEval (s : State) : State :=
  if !s.ownTime then s
  else
    let want := s.wantDomain
    let s := if want = s.tm.selected then s else s.switchTo want
    s.setTimeState s.timeState

/-! ## Hold-over (R69, R70) -/

/-- The peak-to-peak of a record of rates. -/
def rateSpan (l : List (Nat × Int)) : Nat :=
  let v := l.map (·.2)
  match v with
  | [] => 0
  | x :: xs => ((xs.foldl max x) - (xs.foldl min x)).natAbs

/-- A record of rates, newest first: when each came into force, over the last 1,000 s of LOCKED time. -/
def noteRate (l : List (Nat × Int)) (t : Nat) (r : Int) : List (Nat × Int) :=
  let recent := l.takeWhile (fun e => decide (t ≤ e.1 + 1000000000000))
  let l := l.take (recent.length + 1)
  match l with
  | (_, r0) :: _ => if r0 = r then l else (t, r) :: l
  | [] => [(t, r)]

/-- Whether hold-over follows a valid 10 MHz input, or holds to a valid 1 PPS input (R69). -/
def State.follow10M (s : State) : Bool := s.fb F.TIME_HOLD_CFG_USE_10M && s.fb F.TIME_STATUS_REF10M_OK
def State.holdPps (s : State) : Bool := s.fb F.TIME_HOLD_CFG_USE_PPS && s.fb F.TIME_STATUS_PPS_OK

/-- TIME_HOLD_ERR, every 1 ms (R70): s × t with s half the span, rounded down to a nanosecond. The 1 PPS input holds the phase only where an offset was
learnt (log entry 72). -/
def holdErrUpdate (s : State) : State :=
  let st := s.f F.TIME_STATUS_STATE
  if 2 ≤ st then
    let s := { s with tm.lockedNs := s.tm.lockedNs + 1000000,
                      tm.rates := noteRate s.tm.rates s.tm.lockedNs (s.fs F.TIME_RATE_PPT) }
    s.setF F.TIME_HOLD_ERR_NS 0
  else if !s.tm.everLocked then s.setF F.TIME_HOLD_ERR_NS 0xFFFFFFFF
  else
    let t := s.mono - s.tm.lostAt
    let twice := if s.follow10M then Nat.max (rateSpan s.tm.refRates) 2 else Nat.max (rateSpan s.tm.rates) 2000
    let e := twice * t / (2 * ppt1)
    let e := if s.holdPps ∧ s.tm.ppsLearnt then Nat.min e 1000 else e
    s.setF F.TIME_HOLD_ERR_NS (satU 32 e)

/-- The hold-over limit passes (R70): FREE_RUN, unless both external inputs are valid. -/
def holdoverLimitExpire (s : State) : State :=
  if s.f F.TIME_STATUS_STATE = 1 ∧ ¬ (s.fb F.TIME_STATUS_PPS_OK ∧ s.fb F.TIME_STATUS_REF10M_OK) then
    { s with tm.limitPassed := true }.setTimeState 0
  else s

/-- Whether the selected domain is LOCKED. -/
def State.selLocked (s : State) : Bool := match s.tm.selected with | some n => (s.dom n).locked | none => false

/-- A 1 PPS edge (R69): `err` is its distance from the expected time, `off` the phase of device time from the edge. Four
consecutive edges within ±1 µs make the input valid; while LOCKED the offset is learnt, with no domain LOCKED it is slewed back. Before any
offset was learnt, of which R69 does not speak, nothing is slewed (DESIGN CHOICE of log entry 72). -/
def ppsEdge (err off : Int) (s : State) : State :=
  if err.natAbs ≤ 1000 then
    let s := { s with tm.ppsGood := s.tm.ppsGood + 1 }
    let s := if 4 ≤ s.tm.ppsGood then s.setB F.TIME_STATUS_PPS_OK true else s
    if s.fb F.TIME_STATUS_PPS_OK ∧ s.selLocked then ({ s with tm.ppsLearnt := true } : State).setFs F.TIME_PPS_OFFSET_NS off
    else if s.holdPps ∧ s.tm.selected = none ∧ s.tm.ppsLearnt then s.setSlew (slewOf (s.fs F.TIME_PPS_OFFSET_NS - off))
    else s
  else
    let s := { s with tm.ppsGood := 0 }
    if s.fb F.TIME_STATUS_PPS_OK then (s.setB F.TIME_STATUS_PPS_OK false).event 0x2 7 0 else s

/-- An expected 1 PPS edge stays away (R69). -/
def ppsInputLost (s : State) : State :=
  let s := { s with tm.ppsGood := 0 }
  if s.fb F.TIME_STATUS_PPS_OK then (s.setB F.TIME_STATUS_PPS_OK false).event 0x2 7 0 else s

/-- A 10 MHz measurement averaged over 1 ms (R69): `err` the distance of its edges from their expected times, `ppt` its frequency.
While LOCKED its frequency is noted; with no domain LOCKED and USE_10M set device time follows it. -/
def ref10mEdge (err ppt : Int) (s : State) : State :=
  if err.natAbs ≤ 1000 then
    let s := { s with tm.refGood := s.tm.refGood + 1 }
    let s := if 4 ≤ s.tm.refGood then s.setB F.TIME_STATUS_REF10M_OK true else s
    if s.fb F.TIME_STATUS_REF10M_OK ∧ s.selLocked then
      { s with tm.refRates := noteRate s.tm.refRates s.tm.lockedNs ppt }
    else if s.follow10M ∧ !s.anyLocked then s.setFs F.TIME_RATE_PPT (rateClamp ppt)
    else s
  else
    let s := { s with tm.refGood := 0 }
    if s.fb F.TIME_STATUS_REF10M_OK then (s.setB F.TIME_STATUS_REF10M_OK false).event 0x2 7 1 else s

/-! ## Triggers (R71–R74) -/

/-- The exact time of edge `k` of schedule `n`, as a numerator over DEN in nanoseconds (R71). -/
def State.edgeNum (s : State) (n k : Nat) : Nat :=
  s.f F.TIME_TRIG_PHASE_NS n * s.f F.TIME_TRIG_DEN_DEN n + k * s.f F.TIME_TRIG_NUM_NUM n

/-- A time given as `num / den` ns, quantised to eighths of a nanosecond, ties toward the later time (R71). -/
def quant8 (num den : Nat) : Nat := (16 * num + den) / (2 * den)

/-- Edge `k` of schedule `n`, in eighths of a nanosecond. -/
def State.edge8 (s : State) (n k : Nat) : Nat := quant8 (s.edgeNum n k) (s.f F.TIME_TRIG_DEN_DEN n)

/-- The lock wait of step 5 has passed (R42). -/
def ptpWaitExpire (s : State) : State := s.endPtpWait

/-- Whether the next edge of schedule `n` is due: the schedules run, it is enabled, and device time has reached the edge. -/
def State.edgeDue (s : State) (n : Nat) : Bool :=
  decide (n < 48) && s.tm.trigOn && s.fb F.TIME_TRIG_CTL_ENABLE n
    && decide (s.edge8 n (tget 0 s.tm.trigNext n) ≤ s.tm.dev / 8192)

/-- The next edge of schedule `n` fires: COUNT, and the edge after it is next; none is skipped or repeated (R73). -/
def State.fireEdge (s : State) (n : Nat) : State :=
  let k := tget 0 s.tm.trigNext n
  let s := { s with tm.trigNext := tput 0 s.tm.trigNext n (k + 1) }
  (s.addWrap F.TIME_TRIG_COUNT_COUNT 1 n).emit (.edge n k)

/-- The exposure interval of edge `k` (R74): width mode exposes for WIDTH from the edge plus DELAY, otherwise EXPOSE. -/
def State.expoOf (s : State) (n k : Nat) : Expo :=
  let den := s.f F.TIME_TRIG_DEN_DEN n
  let num := s.edgeNum n k
  let len := if s.fb F.TIME_TRIG_CTL_WIDTH_EXPOSE n then s.f F.TIME_TRIG_WIDTH_NS n else s.f F.TIME_TRIG_EXPOSE_NS n
  let start := num + s.f F.TIME_TRIG_DELAY_NS n * den
  { edge8 := s.edge8 n k, stop := (start + len * den) / den, mid := (2 * start + len * den) / (2 * den) }

/-- An exposure trigger edge fires and its exposure interval is stamped (R74). -/
def exposureTriggerEdge (n : Nat) (s : State) : State :=
  if !(decide (n < 32) && s.edgeDue n) then s
  else
    let e := s.expoOf n (tget 0 s.tm.trigNext n)
    let s := s.fireEdge n
    { s with tm.expos := tput [] s.tm.expos n (tget [] s.tm.expos n ++ [e]) }

/-! ## Captures (R75) -/

/-- Whether an edge is one that the input stamps, its polarity taken in. -/
def State.capWants (s : State) (n : Nat) (rising : Bool) : Bool :=
  let e := s.f F.TIME_CAP_CTL_EDGE n
  let up := rising != s.fb F.TIME_CAP_CTL_POLARITY n
  if up then bitOf e 0 else bitOf e 1

/-- An accepted pulse on a capture input is stamped at the edge that began it and queued for its consumer; a seventeenth stamp is
dropped and counts in OVERRUNS (R75). Times in eighths of a nanosecond (125 ps). -/
def captureEdge (n start stop : Nat) (rising : Bool) (s : State) : State :=
  if !(decide (n < 16) && s.fb F.TIME_CAP_CTL_ENABLE n && s.capWants n rising)
      || decide (stop - start < s.f F.TIME_CAP_CTL_FILTER n * 64) then s
  else
    let q := tget [] s.tm.caps n
    if 16 ≤ q.length then (s.addSat F.TIME_CAP_INFO_OVERRUNS 1 n).event 0x2 6 n
    else
      let s := { s with tm.caps := tput [] s.tm.caps n (q ++ [({ start := start, stop := stop, rising := rising } : Stamp)]) }
      let s := s.setPair R.TIME_CAP_SEC_LO R.TIME_CAP_SEC_HI (start / 8 / 1000000000) n
      let s := s.setF F.TIME_CAP_NS_NS (start / 8 % 1000000000) n
      (s.addWrap F.TIME_CAP_INFO_COUNT 1 n).setB F.TIME_CAP_INFO_RISING rising n

/-! ## The sensor offset monitor (R79–R81) -/

/-- Decimation of a Sparge channel: Q = 2^RATIO. -/
def State.chanQ (s : State) (c : Nat) : Nat := 2 ^ s.f F.SPG_CH_CTL_RATIO c

/-- The first enabled channel of a list. -/
def State.firstChan (s : State) (l : List Nat) : Option Nat := l.find? (fun c => s.fb F.SPG_CH_CTL_ENABLE c)

/-- The first enabled channel of a CAN controller. -/
def State.canFirst (s : State) (n : Nat) : Option Nat :=
  s.firstChan (((List.range 16).map (72 + ·)).filter (fun c => s.f F.SPG_CH_ID_CTRL c == n))

/-- The frame period P of a sensor (R81): cameras 0–31, IMUs 32–39, SSI 40–47, CAN FD 48–49. Where an IMU's channels have different output
periods, or the signals of a CAN controller different message periods, the first enabled channel gives it (DESIGN CHOICE of log entry 94). -/
def State.sensorP (s : State) (n : Nat) : Nat :=
  if n < 32 then s.f F.ING_SNS_PERIOD_NS n
  else if n < 40 then
    match s.firstChan ((List.range 7).map (fun f => 7 * (n - 32) + f)) with
    | some c => s.f F.SPG_CH_PERIOD_NS c * s.chanQ c
    | none => 0
  else if n < 48 then s.f F.SPG_CH_PERIOD_NS (56 + (n - 40))
  else
    match s.canFirst (n - 48) with
    | some c => s.f F.SPG_CH_PERIOD_NS c
    | none => 0

/-- A sensor's monitor. -/
def State.mon (s : State) (n : Nat) : SnsMon := tget {} s.tm.sns n

/-- A sensor's monitor changes. -/
def State.setMon (s : State) (n : Nat) (m : SnsMon) : State := { s with tm.sns := tput {} s.tm.sns n m }

/-- An update of a sensor's offset o (R79, R81): the span over the last second against P raises TIME_SLIP once per rise, which resets the residual to 0 and its
variance to (P / 2)² and asks the Fermenter for a re-estimate (R255); |o| above BOUND × P / 16 raises HELD. -/
def State.offsetUpdate (s : State) (n : Nat) (direct : Option Int) : State :=
  let m := s.mon n
  let m : SnsMon := { m with direct := direct.getD m.direct }
  let o := m.direct + m.resid
  let win := (s.mono, o) :: m.win.filter (fun e => decide (s.mono ≤ e.1 + 1000000000))
  let v := win.map (·.2)
  let span := ((v.foldl max o) - (v.foldl min o)).natAbs
  let p := s.sensorP n
  let s := (s.setFs F.TIME_SNS_OFFSET_NS o n).setF F.TIME_SNS_SPAN_NS (satU 32 span) n
  let m : SnsMon := { m with win := win }
  let rise := decide (p < span) && !m.above
  let fall := decide (span ≤ p) && m.above
  let m : SnsMon := if rise then { m with above := true, fell := false, ask := true, resid := 0, tvar := p * p / 4 }
           else if fall then { m with above := false, fell := true } else m
  let out := decide (s.f F.TIME_SNS_STATE_BOUND n * p < 16 * o.natAbs)
  let held := s.fb F.TIME_SNS_STATE_HELD n
  let m : SnsMon := { m with within := !out }
  let s := s.setMon n m
  let s := if rise then (((s.addSat F.TIME_SNS_STATE_SLIPS 1 n).setB F.TIME_SNS_STATE_SLIP true n).setFs F.TIME_SNS_OFFSET_NS m.direct n).event 0x2 4 n else s
  if out && !held then (s.setB F.TIME_SNS_STATE_HELD true n).event 0x2 5 n else s

/-- The arrival of a measurement of a sensor whose rate is tracked (R79): arrival minus the arrival predicted, and the loop follows. At the first
arrival there is no prediction: the next is expected a period later. -/
def State.trackRate (s : State) (n : Nat) (at' : Int) : State × Int :=
  let m := s.mon n
  match m.pred with
  | none => (s.setMon n { m with pred := some (at' + (s.sensorP n : Nat)) }, 0)
  | some p =>
    let r := Config.rateLoop (s.sensorP n) m.rate p at'
    (s.setMon n { m with rate := r.1, pred := some r.2 }, at' - p)

/-- An update of the offset of a sensor whose rate is tracked (Table 3-4), and TIME_SNS_RATE (R79). -/
def State.trackedUpdate (s : State) (n : Nat) (at' : Int) : State :=
  let r := s.trackRate n at'
  (r.1.setFs F.TIME_SNS_RATE_PPB (r.1.mon n).rate n).offsetUpdate n (some r.2)

/-- One second after the span fell back, the SLIP bit and the TIME_SLIP condition clear (R81). -/
def slipHoldExpire (n : Nat) (s : State) : State :=
  if (s.mon n).fell && !(s.mon n).above then
    (s.setMon n { s.mon n with fell := false }).setB F.TIME_SNS_STATE_SLIP false n
  else s

/-- After 2 s within its bound without a break, HELD clears (R81). -/
def heldClear (n : Nat) (s : State) : State :=
  if s.fb F.TIME_SNS_STATE_HELD n && (s.mon n).within then s.setB F.TIME_SNS_STATE_HELD false n else s

/-! ## Meanings -/

/-- DEVICE_TIME_TICK (R57). -/
def execDeviceTimeTick (s : State) : Host.Outcome State Fault Refusal := done (whenUp deviceTimeTick s)
/-- PTP_WAIT_EXPIRE (R42, R58, R73). -/
def execPtpWaitExpire (s : State) : Host.Outcome State Fault Refusal := done (whenUp ptpWaitExpire s)
/-- PTP_ANNOUNCE_RX (R65). -/
def execPtpAnnounceRx (n port : Nat) (a : Announce) (s : State) : Host.Outcome State Fault Refusal :=
  done (whenUp (ptpAnnounceRx n port a) s)
/-- PTP_SYNC_RX (R62, R65). -/
def execPtpSyncRx (n port : Nat) (twoStep : Bool) (m : SyncMsg) (s : State) : Host.Outcome State Fault Refusal :=
  done (whenUp (ptpSyncRx n port twoStep m) s)
/-- PTP_FOLLOW_UP_RX (R62, R65). -/
def execPtpFollowUpRx (n port : Nat) (m : SyncMsg) (s : State) : Host.Outcome State Fault Refusal :=
  done (whenUp (ptpFollowUpRx n port m) s)
/-- PTP_DELAY_RESP_RX (R64). -/
def execPtpDelayRespRx (n seq : Nat) (t4 : Int) (s : State) : Host.Outcome State Fault Refusal :=
  done (whenUp (ptpDelayRespRx n seq t4) s)
/-- PTP_DELAY_REQ_TX (R64). -/
def execPtpDelayReqTx (n : Nat) (s : State) : Host.Outcome State Fault Refusal := done (whenUp (ptpDelayReqTx n) s)
/-- PTP_PDELAY_REQ_RX (R64). -/
def execPtpPdelayReqRx (port seq : Nat) (s : State) : Host.Outcome State Fault Refusal :=
  done (whenUp (ptpPdelayReqRx port seq) s)
/-- PTP_PDELAY_RESP_RX (R64). -/
def execPtpPdelayRespRx (n seq : Nat) (t4 turn : Int) (s : State) : Host.Outcome State Fault Refusal :=
  done (whenUp (ptpPdelayRespRx n seq t4 turn) s)
/-- PTP_MANAGEMENT_GET (Table 3-2). -/
def execPtpManagementGet (port seq : Nat) (s : State) : Host.Outcome State Fault Refusal :=
  done (whenUp (ptpManagementGet port seq) s)
/-- PTP_MANAGEMENT_SET (Table 3-2). -/
def execPtpManagementSet (port seq : Nat) (s : State) : Host.Outcome State Fault Refusal :=
  done (whenUp (ptpManagementRefuse port seq) s)
/-- PTP_MANAGEMENT_COMMAND (Table 3-2). -/
def execPtpManagementCommand (port seq : Nat) (s : State) : Host.Outcome State Fault Refusal :=
  done (whenUp (ptpManagementRefuse port seq) s)
/-- ANNOUNCE_RECEIPT_TIMEOUT (R65). -/
def execAnnounceReceiptTimeout (n port : Nat) (s : State) : Host.Outcome State Fault Refusal :=
  done (whenUp (announceReceiptTimeout n port) s)
/-- SELECTION_EVAL (R61, R66). -/
def execSelectionEval (s : State) : Host.Outcome State Fault Refusal := done (whenUp selectionEval s)
/-- HOLD_ERR_UPDATE (R70). -/
def execHoldErrUpdate (s : State) : Host.Outcome State Fault Refusal := done (whenUp holdErrUpdate s)
/-- HOLDOVER_LIMIT_EXPIRE (R70). -/
def execHoldoverLimitExpire (s : State) : Host.Outcome State Fault Refusal := done (whenUp holdoverLimitExpire s)
/-- PPS_EDGE (R69). -/
def execPpsEdge (err off : Int) (s : State) : Host.Outcome State Fault Refusal := done (whenUp (ppsEdge err off) s)
/-- PPS_INPUT_LOST (R69). -/
def execPpsInputLost (s : State) : Host.Outcome State Fault Refusal := done (whenUp ppsInputLost s)
/-- REF10M_EDGE (R69). -/
def execRef10mEdge (err ppt : Int) (s : State) : Host.Outcome State Fault Refusal := done (whenUp (ref10mEdge err ppt) s)
/-- EXPOSURE_TRIGGER_EDGE (R71, R73, R74). -/
def execExposureTriggerEdge (n : Nat) (s : State) : Host.Outcome State Fault Refusal := done (whenUp (exposureTriggerEdge n) s)
/-- CAPTURE_EDGE (R75). -/
def execCaptureEdge (n start stop : Nat) (rising : Bool) (s : State) : Host.Outcome State Fault Refusal :=
  done (whenUp (captureEdge n start stop rising) s)
/-- SLIP_HOLD_EXPIRE (R81). -/
def execSlipHoldExpire (n : Nat) (s : State) : Host.Outcome State Fault Refusal := done (whenUp (slipHoldExpire n) s)
/-- HELD_CLEAR (R81). -/
def execHeldClear (n : Nat) (s : State) : Host.Outcome State Fault Refusal := done (whenUp (heldClear n) s)

end Sys2Proof.Machine
end

