-- ==== Sys2Proof/Machine/Ingest.lean ====
section
/-!
DEFINITION. Camera and network video ingest (chapter 04): CSI-2 and ST 2110 packets, frames, bands, preprocessing, descriptors.
-/

namespace Sys2Proof.Machine
open Sys2Proof

/-! ## Settings -/

/-- The frame timeout of a sensor (R89): 0 selects 1.5 × PERIOD. -/
def State.snsTimeout (s : State) (n : Nat) : Nat :=
  let t := s.f F.ING_SNS_TIMEOUT_NS n
  if t = 0 then s.f F.ING_SNS_PERIOD_NS n * 3 / 2 else t

/-- Bands of a frame (Table 4-4). -/
def State.snsBands (s : State) (n : Nat) : Nat := ceilDiv (s.f F.ING_SNS_GEOM_HEIGHT n) 64

/-- Tiles of a band (R93). -/
def State.snsTiles (s : State) (n : Nat) : Nat := ceilDiv (s.f F.ING_SNS_GEOM_WIDTH n) 64

/-- A sensor's ingest state. -/
def State.sns (s : State) (n : Nat) : SnsSt := tget {} s.ing.sns n

/-- A sensor's ingest state changes. -/
def State.setSns (s : State) (n : Nat) (x : SnsSt) : State := { s with ing.sns := tput {} s.ing.sns n x }

/-- The open frame of a sensor changes. -/
def State.setFrame (s : State) (n : Nat) (f : FrameSt) : State := s.setSns n { s.sns n with frame := some f }

/-- The enabled CSI-2 sensors of a port and virtual channel (R82). -/
def State.csiSensors (s : State) (port vc : Nat) : List Nat :=
  if !(decide (port < 16) && s.fb F.ING_PORT_CTL_ENABLE port) then []
  else (List.range 32).filter (fun n =>
    s.fb F.ING_SNS_SRC_ENABLE n && !s.fb F.ING_SNS_SRC_KIND n && s.f F.ING_SNS_SRC_SOURCE n == port
      && s.f F.ING_SNS_SRC_VC n == vc)

/-- The sensor of a port, virtual channel and data type. -/
def State.csiSensor (s : State) (port vc dt : Nat) : Option Nat :=
  (s.csiSensors port vc).find? (fun n => s.f F.ING_SNS_SRC_DT n == dt)

/-! ## Preprocessing (R92) -/

/-- Step 2: black level and gain, halves rounded up, held to d bits. -/
def gainStep (black gain d v : Nat) : Nat := Nat.min (((v - black) * gain + 2048) / 4096) (2 ^ d - 1)

/-- What step 2 makes of a pixel (ST 2110 keeps its samples). -/
def State.stepTwo (s : State) (n : Nat) (p : Px) : Px :=
  if s.fb F.ING_SNS_SRC_KIND n then p
  else
    let g := gainStep (s.f F.ING_SNS_BLACK_BLACK n) (s.f F.ING_SNS_FMT_GAIN n) (s.f F.ING_SNS_FMT_DEPTH n)
    { a := g p.a, b := g p.b, c := g p.c }

/-- The 3 × 3 weighted sum of a Bayer plane at one place, edges replicated (log entry 13): the rows above, at and below. -/
def bayerLuma (up mid dn : List Px) (x : Nat) : Nat :=
  let l := x - 1
  let r := if x + 1 < mid.length then x + 1 else x
  let at' := fun (row : List Px) (i : Nat) => (nth ({} : Px) row i).a
  let sum3 := fun (row : List Px) => at' row l + 2 * at' row x + at' row r
  (sum3 up + 2 * sum3 mid + sum3 dn + 8) / 16

/-- Step 3: luma. CFA 0 mono, 1–4 Bayer, 5 YCbCr, 6 RGB. -/
def lumaOf (cfa : Nat) (up mid dn : List Px) (x : Nat) : Nat :=
  let p := nth ({} : Px) mid x
  if cfa = 6 then (871 * p.a + 2929 * p.b + 296 * p.c + 2048) / 4096
  else if 1 ≤ cfa ∧ cfa ≤ 4 then bayerLuma up mid dn x
  else p.a

/-- A colour difference of RGB, held to d bits. -/
def colourDiff (d k : Nat) (v l : Int) : Nat := clampU d (rhuDiv ((v - l) * k) 4096 + (2 ^ (d - 1) : Nat))

/-- Step 4: colour, channel 0 and channel 1. For a mono sensor, which step 4 does not name, channel 0 is the sample v and channel 1 zero, as for
Bayer (DESIGN CHOICE of log entry 73). -/
def colourOf (cfa d : Nat) (p : Px) (l : Nat) : Nat × Nat :=
  if cfa = 5 then (p.b, p.c)
  else if cfa = 6 then (colourDiff d 2207 p.c l, colourDiff d 2601 p.a l)
  else (p.a, 0)

/-- Whether a pixel counts in sat_count (R92, step 6; log entry 14): a sample at 2^d − 1. -/
def satPx (cfa d : Nat) (p : Px) : Bool :=
  let m := 2 ^ d - 1
  if cfa ≤ 4 then p.a == m else p.a == m || p.b == m || p.c == m

/-! ## Bands (R93, R94) -/

/-- A line cut or padded to WIDTH: a long line is truncated, a short one padded with its last pixel (R91). -/
def fitLine (w : Nat) (px : List Px) : List Px :=
  let l := px.take w
  l ++ List.replicate (w - l.length) (l.getLastD {})

/-- The bytes of an L tile (R93): rows `rows` (already 64, padded), columns from 64 t, the last column repeated. -/
def tileBytes (rows : List (List Nat)) (t : Nat) : List Byte :=
  rows.flatMap (fun r => (List.range 64).flatMap (fun x => leBytes 2 (nth (r.getLastD 0) r (64 * t + x))))

/-- The bytes of a C tile: channel 0 in the lower half of each word. -/
def tileBytesC (rows : List (List (Nat × Nat))) (t : Nat) : List Byte :=
  rows.flatMap (fun r => (List.range 64).flatMap (fun x =>
    let c := nth (r.getLastD (0, 0)) r (64 * t + x)
    leBytes 2 c.1 ++ leBytes 2 c.2))

/-- Sixty-four rows: the last line repeated (R93). -/
def padRows (d : α) (rows : List α) : List α := rows ++ List.replicate (64 - rows.length) (rows.getLastD d)

/-- Where a band's L slot and C slot begin (R94). -/
def State.slotAddr (s : State) (n q : Nat) : Nat × Nat :=
  let base := s.pair R.ING_SNS_RING_LO R.ING_SNS_RING_HI n
  let slots := s.f F.ING_SNS_RING_CFG_SLOTS n
  let t := s.snsTiles n
  (base + q % slots * t * 8192, base + slots * t * 8192 + q % slots * t * 16384)

/-- Write the planes of a band, its lines at WIDTH and after step 2 (R92, R93); `prev` and `next` are the lines of the frame above and below it. -/
def State.writeBand (s : State) (n q : Nat) (prev next : Option (List Px)) (lines : List (List Px)) : State :=
  let cfa := s.f F.ING_SNS_FMT_CFA n
  let d := s.f F.ING_SNS_FMT_DEPTH n
  let sh := 2 ^ (16 - d)
  let k := lines.length
  let row := fun (y : Nat) =>
    let mid := nth [] lines y
    let up := if y = 0 then prev.getD mid else nth [] lines (y - 1)
    let dn := if y + 1 < k then nth [] lines (y + 1) else next.getD mid
    (List.range mid.length).map (fun x =>
      let l := lumaOf cfa up mid dn x
      let c := colourOf cfa d (nth {} mid x) l
      (l * sh, c.1 * sh, c.2 * sh))
  let rows := padRows [] ((List.range k).map row)
  let a := s.slotAddr n q
  let tiles := List.range (s.snsTiles n)
  let s := tiles.foldl (fun s t => s.wrList (a.1 + t * 8192) (tileBytes (rows.map (·.map (·.1))) t)) s
  if s.fb F.ING_SNS_FMT_KEEP_C n then
    tiles.foldl (fun s t => s.wrList (a.2 + t * 16384) (tileBytesC (rows.map (·.map (·.2))) t)) s
  else s

/-- Whether band sequence number q has a free slot: the release Tally exceeds q − SLOTS (R94). -/
def State.slotFree (s : State) (n q : Nat) : Bool :=
  decide (q < s.tv (s.f F.ING_SNS_TALLY_RELEASE n) + s.f F.ING_SNS_RING_CFG_SLOTS n)

/-- Advance the ingest Tally, stamped with the frame's timestamp (R96, R360). -/
def State.ingAdvance (s : State) (n amount ts : Nat) : State :=
  let s := s.advance 0x3 (s.f F.ING_SNS_TALLY_INGEST n) amount (some ts)
  let x := s.sns n
  s.setSns n { x with stored := ((s.tv (s.f F.ING_SNS_TALLY_INGEST n), s.now) :: x.stored).take 256 }

/-- When the band of sequence number q of a sensor was stored (R125). -/
def State.storedAt (s : State) (n q : Nat) : Nat := (((s.sns n).stored.filter (fun e => decide (q < e.1))).getLast?).elim 0 (·.2)

/-- Whether a stored line is bad (R91). -/
def Line.bad (l : Line) (w : Nat) : Bool := l.crcBad || l.part || l.px.length != w

/-- The flags a line brings to its frame. -/
def Line.flags (l : Line) (w : Nat) : Nat := b2n l.crcBad + 8 * b2n (l.px.length != w)

/-- A line at WIDTH, after step 2. -/
def State.linePx (s : State) (n : Nat) (l : Line) : List Px := (fitLine (s.f F.ING_SNS_GEOM_WIDTH n) l.px).map (s.stepTwo n)

/-- A line of which nothing came: filled with 0 (R91), before preprocessing (DESIGN CHOICE of log entry 73). -/
def State.missLine (s : State) (n : Nat) : Line := { px := List.replicate (s.f F.ING_SNS_GEOM_WIDTH n) {} }

/-- A band is complete (R93, R96): planes, validity, and the ingest Tally unless it is the frame's last band. `next` is the line below it. -/
def State.storeBand (s : State) (n : Nat) (f : FrameSt) (ok : Bool) (next : Option Line) : State :=
  let w := s.f F.ING_SNS_GEOM_WIDTH n
  let q := (s.sns n).q + f.band
  let s := s.writeBand n q (f.prev.map (s.linePx n)) (next.map (s.linePx n)) (f.cur.map (s.linePx n))
  let good := ok && f.cur.all (fun l => !l.bad w)
  let f' : FrameSt := { f with band := f.band + 1, valid := if good then setBit f.valid f.band else f.valid,
                               prev := f.cur.getLast?, cur := [] }
  let s := s.setFrame n f'
  if f'.band < s.snsBands n then s.ingAdvance n 1 f.ts else s

/-- A Bayer sensor's luma takes in the line below (R92): its band waits for that line, unless it is the frame's last (DEDUCED, log entry 13). -/
def State.needsNext (s : State) (n : Nat) : Bool := decide (1 ≤ s.f F.ING_SNS_FMT_CFA n) && decide (s.f F.ING_SNS_FMT_CFA n ≤ 4)

/-- A full band that waited for the line below it, `l`, is stored. -/
def State.flushBand (s : State) (n : Nat) (l : Line) : State :=
  match (s.sns n).frame with
  | some f => if f.cur.length = 64 then s.storeBand n f true (some l) else s
  | none => s

/-- One line goes into the band being filled; the band is stored where it is complete. -/
def State.putLine (s : State) (n : Nat) (f : FrameSt) (l : Line) : State :=
  let w := s.f F.ING_SNS_GEOM_WIDTH n
  let cfa := s.f F.ING_SNS_FMT_CFA n
  let d := s.f F.ING_SNS_FMT_DEPTH n
  let sat := ((fitLine w l.px).filter (fun p => satPx cfa d (s.stepTwo n p))).length
  let f : FrameSt := { f with cur := f.cur ++ [l], taken := f.taken + 1, sat := f.sat + sat,
                              bad := f.bad || l.bad w, flags := f.flags ||| l.flags w }
  if (f.cur.length = 64 ∧ !s.needsNext n) ∨ f.taken = s.f F.ING_SNS_GEOM_HEIGHT n then s.storeBand n f true none else s.setFrame n f

/-! ## The port FIFO (R85, R95) -/

/-- The port of a sensor's FIFO: CSI-2 port, or 16 + Ethernet port (log entry 15). -/
def State.snsPort (s : State) (n : Nat) : Nat :=
  let k := s.f F.ING_SNS_SRC_SOURCE n
  if s.fb F.ING_SNS_SRC_KIND n then 16 + s.f F.ING_ST_CTL_PORT k else k

/-- Bits per pixel as a sensor's source carries them: RAW d, YUV422 8-bit 16 (Table 4-1); ST 2110 4:2:2 two and 4:4:4 or RGB three samples of the
stream's depth (Table 4-2). -/
def State.snsBpp (s : State) (n : Nat) : Nat :=
  let k := s.f F.ING_SNS_SRC_SOURCE n
  if s.fb F.ING_SNS_SRC_KIND n then
    (if s.f F.ING_ST_CTL_SAMPLING k = 0 then 2 else 3) * (if s.fb F.ING_ST_CTL_DEPTH k then 12 else 10)
  else if s.f F.ING_SNS_SRC_DT n = 0x1E then 16 else s.f F.ING_SNS_FMT_DEPTH n

/-- Bytes of a waiting line: its payload, at `d` bits per pixel. -/
def Line.bytes (l : Line) (d : Nat) : Nat := ceilDiv (l.px.length * d) 8

/-- Bytes that wait in a port's FIFO. -/
def State.fifoFill (s : State) (port : Nat) : Nat :=
  sumN ((List.range 32).map (fun n =>
    if s.snsPort n = port then
      match (s.sns n).frame with
      | some f => sumN (f.wait.map (fun l => l.bytes (s.snsBpp n)))
      | none => 0
    else 0))

/-- The fills in force within the last 1 s, newest first: those since then, and the one that stood when it began. -/
def recentFills (now : Nat) : List (Nat × Nat) → List (Nat × Nat)
  | [] => []
  | e :: es => if now ≤ e.1 + 1000000000 then e :: recentFills now es else [e]

/-- The highest fill of a port's FIFO over the last 1 s, in KiB (R487). -/
def State.fifoPeak (s : State) (port : Nat) : Nat :=
  (recentFills s.mono (tget [] s.ing.peak port)).foldl (fun m e => Nat.max m e.2) 0

/-- FIFO_PEAK after a change of the fill: the highest over the last 1 s (R487). -/
def State.notePeak (s : State) (port : Nat) : State :=
  if 16 ≤ port then s
  else
    let k := Nat.min (ceilDiv (s.fifoFill port) 1024) 128
    let l := (s.mono, k) :: recentFills s.mono (tget [] s.ing.peak port)
    let s := { s with ing.peak := tput [] s.ing.peak port l }
    s.tele R.ING_PORT_OTHER (fun s => s.setF F.ING_PORT_OTHER_FIFO_PEAK (s.fifoPeak port) port) port

/-- The frame overflows (R95): its waiting lines go, this band and every later one are bad. -/
def State.overflow (s : State) (n : Nat) (f : FrameSt) : State :=
  let s := (s.setFrame n { f with ended := true, bad := true, wait := [], cur := [], flags := f.flags ||| 64 }).notePeak (s.snsPort n)
  (s.addSat F.ING_SNS_DISCARD_OVERFLOW 1 n).event 0x3 4 n

/-- A line within HEIGHT goes into its band, or waits in the port FIFO for a free slot (R95). -/
def State.placeLine (s : State) (n : Nat) (f : FrameSt) (l : Line) : State :=
  if f.wait.isEmpty && (!f.cur.isEmpty || s.slotFree n ((s.sns n).q + f.band)) then s.putLine n f l
  else
    let f : FrameSt := { f with wait := f.wait ++ [l] }
    let s := (s.setFrame n f).notePeak (s.snsPort n)
    if 131072 < s.fifoFill (s.snsPort n) then s.overflow n f else s

/-- A line of the open frame arrives (R85, R91, R95). -/
def State.takeLine (s : State) (n : Nat) (f : FrameSt) (l : Line) : State :=
  if s.f F.ING_SNS_GEOM_HEIGHT n ≤ f.taken + f.wait.length then s.setFrame n { f with bad := true, flags := f.flags ||| 4 }
  else if f.ended then s
  else
    let s := s.flushBand n l
    match (s.sns n).frame with
    | some f => s.placeLine n f l
    | none => s

/-- Waiting lines go into the band slots that have come free, in their order. -/
def State.drain (s : State) (n : Nat) : List Line → State
  | [] => s
  | l :: ls =>
    let s := s.flushBand n l
    match (s.sns n).frame with
    | none => s
    | some f =>
      if !f.cur.isEmpty || s.slotFree n ((s.sns n).q + f.band) then (s.putLine n { f with wait := ls } l).drain n ls else s

/-- A release frees a band slot; what waits is written (R94, R95). -/
def bandSlotFree (n : Nat) (s : State) : State :=
  match (s.sns n).frame with
  | some f => if f.ended then s else (s.drain n f.wait).notePeak (s.snsPort n)
  | none => s

/-! ## Descriptors (R97) -/

/-- The 64-byte frame descriptor of Table 4-4. -/
def State.descBytes (s : State) (n : Nat) (f : FrameSt) (st bands : Nat) : List Byte :=
  leBytes 4 (s.sns n).nextId ++ leBytes 1 n ++ leBytes 1 st ++ leBytes 2 f.flags ++ tsBytes f.ts
    ++ leBytes 2 (s.f F.ING_SNS_GEOM_WIDTH n) ++ leBytes 2 (s.f F.ING_SNS_GEOM_HEIGHT n) ++ tsBytes f.start
    ++ leBytes 4 f.expo ++ leBytes 8 f.valid ++ leBytes 8 (s.sns n).q ++ leBytes 1 bands
    ++ leBytes 1 (1 + 2 * s.f F.ING_SNS_FMT_KEEP_C n) ++ leBytes 2 0 ++ leBytes 4 f.sat

/-- Whether a sensor closed a frame with status OK within its last TIMEOUT. -/
def State.snsActive (s : State) (n : Nat) : Bool :=
  match (s.sns n).okAt with | some t => decide (s.now ≤ t + s.snsTimeout n) | none => false

/-- ING_ACTIVE shows a sensor. -/
def State.syncActive (s : State) (n : Nat) : State :=
  let ok := s.snsActive n
  s.setF F.ING_ACTIVE_MASK (putBit (s.f F.ING_ACTIVE_MASK) n ok)

/-- A frame is over (R91, R96–R98): its status, its descriptor, its registers and events, and the advance `last` that follows the
descriptor. -/
def State.endFrame (s : State) (n : Nat) (f : FrameSt) (last : Nat) : State :=
  let x := s.sns n
  let bands := s.snsBands n
  let st := if f.bad then St.invalidInput else St.ok
  let s := s.wrList (s.pair R.ING_SNS_DESC_LO R.ING_SNS_DESC_HI n + 64 * (x.nextId % 64)) (s.descBytes n f st bands)
  let s := (s.setF F.ING_SNS_LAST_FLAGS f.flags n).setF F.ING_SNS_LAST_STATUS st n
  let s := s.setF F.ING_SNS_FRAME_ID_ID (x.nextId % 2 ^ 32) n
  let okNow := !f.bad
  let near := match x.okAt with | some t => decide (s.now ≤ t + s.snsTimeout n) | none => false
  let s := s.setSns n { x with frame := none, nextId := x.nextId + 1, q := x.q + bands, lastStart := some f.start,
                               okAt := if okNow then some s.now else x.okAt, passed := x.passed || (okNow && near && x.prevOk), prevOk := okNow,
                               lastRtp := if s.fb F.ING_SNS_SRC_KIND n ∧ !bitOf f.flags 5 then some f.rtp else x.lastRtp }
  let s := s.syncActive n
  let s := if f.bad then (s.addSat F.ING_SNS_BAD_BAD 1 n).event 0x3 2 n 0 f.flags else s
  s.ingAdvance n last f.ts

/-- The bands that a frame's close leaves: the band begun and those of which no line came are padded with missing lines, stored
where a slot is free, and advanced; the advance of the last band is left to the close. -/
def State.closeBands (s : State) (n : Nat) : (left : Nat) → State
  | 0 => s
  | k + 1 =>
    match (s.sns n).frame with
    | none => s
    | some f =>
      let h := Nat.min 64 (s.f F.ING_SNS_GEOM_HEIGHT n - 64 * f.band)
      let free := !f.cur.isEmpty || s.slotFree n ((s.sns n).q + f.band)
      let last := f.band + 1 == s.snsBands n
      let s :=
        if f.cur.length = h then s.storeBand n f true (some (s.missLine n))
        else if f.ended || !free then
          let f' : FrameSt := { f with band := f.band + 1, cur := [], bad := true }
          let s := s.setFrame n f'
          if f'.band < s.snsBands n then s.ingAdvance n 1 f.ts else s
        else
          let miss := List.replicate (h - f.cur.length) (s.missLine n)
          s.storeBand n { f with cur := f.cur ++ miss, bad := true } false (if last then none else some (s.missLine n))
      s.closeBands n k

/-- The ST 2110 row being received is over: a line, whole or not; what of it never came is stored as 0 (DESIGN CHOICE of log entry 73). -/
def State.endRow (s : State) (n : Nat) : State :=
  match (s.sns n).frame with
  | none => s
  | some f =>
    if f.row.isEmpty then s
    else
      let l : Line := { px := f.row.map (·.getD {}), part := f.row.any (·.isNone) }
      let f : FrameSt := { f with row := [] }
      (s.setFrame n f).takeLine n f l

/-- A frame closes (R88, R91, R95): lines still waiting for a slot are lost, missing lines are bad. -/
def State.closeFrame (s : State) (n flags : Nat) : State :=
  let s := s.endRow n
  match (s.sns n).frame with
  | none => s
  | some f =>
    let f : FrameSt := { f with flags := f.flags ||| flags }
    let s := s.setFrame n f
    let s := if f.wait.isEmpty then s else s.overflow n f
    let s := s.closeBands n (s.snsBands n - f.band)
    match (s.sns n).frame with
    | some f => s.endFrame n f 1
    | none => s

/-! ## Opening a frame (R76, R88–R90) -/

/-- The latest exposure interval of a trigger that ended before a time (R90). -/
def State.expoBefore (s : State) (trig t : Nat) : Option Expo :=
  (tget [] s.tm.expos trig).foldl (fun b e => if e.stop < t then some e else b) none

/-- The pulses of a capture input: the one that ended last before an earlier frame start, and those queued. -/
def State.pulses (s : State) (cap : Nat) : List Stamp := tget [] s.tm.capLast cap ++ tget [] s.tm.caps cap

/-- The latest strobe pulse that ended before a frame start and within one frame period of it (R76). -/
def State.pulseBefore (s : State) (cap t period : Nat) : Option Stamp :=
  (s.pulses cap).foldl (fun b e => if e.stop < 8 * t ∧ 8 * t ≤ e.stop + 8 * period then some e else b) none

/-- Ingest takes the pulses that have ended from the queue; the latest of them stays for the frames that start after it (R76). -/
def State.takePulses (s : State) (cap t : Nat) : State :=
  let done := (s.pulses cap).filter (fun e => decide (e.stop < 8 * t))
  { s with tm.capLast := tput [] s.tm.capLast cap (done.drop (done.length - 1)),
           tm.caps := tput [] s.tm.caps cap ((tget [] s.tm.caps cap).filter (fun e => decide (8 * t ≤ e.stop))) }

/-- What a frame start gets for its timing: timestamp, exposure length, flags, the exposure edge used, and the direct offset
(Tables 3-3, 3-4). None: the frame is discarded as STALE (R90). A strobed camera's frame with no pulse is stamped as one without a strobe (R76); its
direct component, which Table 3-4 does not give, is then that of a free-running camera (DEDUCED, log entry 74): `pred`, the arrival less the predicted one. -/
def State.frameTiming (s : State) (n t : Nat) (pred : Int) : Option (Nat × Nat × Nat × Option Nat × Int) :=
  let nom := s.fs F.TIME_SNS_NOMINAL_NS n
  let lat := s.f F.TIME_SNS_LATENCY_NS n
  let trig := s.f F.ING_SNS_SRC_TRIGGER n
  match s.f F.ING_SNS_SRC_TIMING n with
  | 0 =>
    match s.expoBefore trig t with
    | none => none
    | some e =>
      if (s.sns n).lastExpo = some e.edge8 then none
      else some (e.mid, 2 * (e.stop - e.mid), 0, some e.edge8, (t : Int) - (e.edge8 / 8 : Nat) - nom)
  | 1 =>
    match s.pulseBefore (trig % 16) t (s.f F.ING_SNS_PERIOD_NS n) with
    | some p => some ((p.start + p.stop) / 16, (p.stop - p.start) / 8, 0, none, (t : Int) - (p.stop / 8 : Nat) - nom)
    | none => some (t - lat, 0, 256, none, pred)
  | _ => some (t - lat, 0, 0, none, pred)

/-- The length of the exposure interval of an exposure trigger (R74). -/
def State.expoLen (s : State) (trig : Nat) : Nat :=
  if s.fb F.TIME_TRIG_CTL_WIDTH_EXPOSE trig then s.f F.TIME_TRIG_WIDTH_NS trig else s.f F.TIME_TRIG_EXPOSE_NS trig

/-- A frame that opens uses up the pulses before its own (R76); a missing one counts; a free-running sensor shows its tracked rate (R79). -/
def State.noteStart (s : State) (n t flags : Nat) : State :=
  let timing := s.f F.ING_SNS_SRC_TIMING n
  let s := if timing = 1 then s.takePulses (s.f F.ING_SNS_SRC_TRIGGER n % 16) t else s
  let s := if flags = 256 then s.addSat F.ING_SNS_DISCARD_STROBE_MISS 1 n else s
  if timing = 2 then s.setFs F.TIME_SNS_RATE_PPB (s.mon n).rate n else s

/-- A frame opens at `t`, unless it is discarded as STALE or EARLY (R90); the sensor's offset is updated (R79). A frame that is both counts as
STALE only (DESIGN CHOICE of log entry 73). -/
def State.openFrame (s : State) (n t : Nat) : State :=
  let s := s.takeDeferred n
  let x := s.sns n
  let early := match x.lastStart with | some u => decide (2 * (t - u) < s.f F.ING_SNS_PERIOD_NS n) | none => false
  let timing := s.f F.ING_SNS_SRC_TIMING n
  let r := if !early && (timing == 1 || timing == 2) then s.trackRate n t else (s, 0)
  let s := r.1
  match s.frameTiming n t r.2 with
  | none => (s.addSat F.ING_SNS_DISCARD_STALE 1 n).event 0x3 6 n
  | some (ts, expo, flags, edge, off) =>
    if early then (s.addSat F.ING_SNS_DISCARD_EARLY 1 n).event 0x3 5 n
    else
      let expo := if timing = 0 then s.expoLen (s.f F.ING_SNS_SRC_TRIGGER n) else expo
      let s := s.setSns n { x with frame := some { start := t, ts := ts, expo := expo, flags := flags },
                                   lastExpo := if edge.isSome then edge else x.lastExpo }
      (s.noteStart n t flags).offsetUpdate n (some off)

/-! ## CSI-2 packets (R83, R85, R487) -/

/-- The lanes or trios a port uses. -/
def State.portLanes (s : State) (port : Nat) : Nat := s.f F.ING_PORT_CTL_LANES port + 1

/-- Data has come in on a port: its lanes are synchronised and high-speed data was seen. -/
def State.portSeen (s : State) (port : Nat) : State :=
  if !(decide (port < 16) && s.fb F.ING_PORT_CTL_ENABLE port) then s
  else
    let s : State := { s with ing.hs := tput 0 s.ing.hs port s.mono }
    (s.setF F.ING_PORT_STATUS_SYNC (2 ^ s.portLanes port - 1) port).setB F.ING_PORT_STATUS_HS_ACTIVE true port

/-- What ING_PORT_STATUS, ING_PORT_OTHER and ING_ACTIVE show when they are read: HS_ACTIVE within 1 ms, FIFO_PEAK over the last 1 s
(unless telemetry is shed, R382), the sensors that closed a good frame within their TIMEOUT (Table 4-6). -/
def State.ingLive (s : State) (r : Reg) (i v : Nat) : Nat :=
  if r = R.ING_PORT_STATUS then (if s.mono ≤ tget 0 s.ing.hs i + 1000000 then v else clrBit v 8)
  else if r = R.ING_PORT_OTHER then (if s.f F.DSP_COOPER_SHED_LEVEL = 0 then v / 256 * 256 + s.fifoPeak i else v)
  else if r = R.ING_ACTIVE then sumN ((List.range 32).map (fun n => b2n (s.snsActive n) * 2 ^ n))
  else v

/-- The header check (R85): 0 clean, 1 corrected and counted, 2 discarded and counted. The answer says whether the packet goes
on; a discarded header flags the port's open frames (log entry 16). -/
def State.header (s : State) (port ecc : Nat) : State × Bool :=
  if !(decide (port < 16) && s.fb F.ING_PORT_CTL_ENABLE port) then (s, false)
  else
    let s := s.portSeen port
    if ecc = 0 then (s, true)
    else if ecc = 1 then ((s.addSat F.ING_PORT_ECC_CORR 1 port).event 0x3 0 port, true)
    else
      let s := s.addSat F.ING_PORT_ECC_UNCORR 1 port
      ((List.range 32).foldl (fun s n =>
        if s.snsPort n = port then
          match (s.sns n).frame with
          | some f => s.setFrame n { f with flags := f.flags ||| 2 }
          | none => s
        else s) s, false)

/-- A packet of no sensor (R83). -/
def State.unmapped (s : State) (port : Nat) : State := s.addSat F.ING_PORT_OTHER_UNMAPPED 1 port

/-- A Frame Start (R88): an open frame of the sensor closes with END_MISSING, and the new one opens. -/
def csi2FrameStart (port vc ecc : Nat) (s : State) : State :=
  let r := s.header port ecc
  if !r.2 then r.1
  else if (r.1.csiSensors port vc).isEmpty then r.1.unmapped port
  else (r.1.csiSensors port vc).foldl (fun s n => (s.closeFrame n 128).openFrame n s.now) r.1

/-- A Frame End closes the open frame (R88). -/
def csi2FrameEnd (port vc ecc : Nat) (s : State) : State :=
  let r := s.header port ecc
  if !r.2 then r.1
  else if (r.1.csiSensors port vc).isEmpty then r.1.unmapped port
  else (r.1.csiSensors port vc).foldl (fun s n => s.closeFrame n 0) r.1

/-- A long packet (R85, R487). -/
def csi2LongPacket (port vc dt ecc : Nat) (crcOk : Bool) (px : List Px) (s : State) : State :=
  let r := s.header port ecc
  if !r.2 then r.1
  else
    let s := r.1
    match s.csiSensor port vc dt with
    | none => s.unmapped port
    | some n =>
      match (s.sns n).frame with
      | none => (s.addSat F.ING_PORT_CRC_ORPHAN 1 port).event 0x3 7 port
      | some f =>
        let s := if crcOk then s else s.addSat F.ING_PORT_CRC_CRC 1 port
        s.takeLine n f { px := px, crcBad := !crcOk }

/-- A packet that is discarded: line start, line end and generic short packets are ignored, every other unmapped packet counts in
UNMAPPED (R83, Table 4-1). -/
def csi2IgnoredPacket (port vc dt ecc : Nat) (s : State) : State :=
  let r := s.header port ecc
  if !r.2 then r.1
  else if dt = 2 ∨ dt = 3 ∨ (8 ≤ dt ∧ dt ≤ 15) then r.1
  else if (r.1.csiSensor port vc dt).isSome then r.1
  else r.1.unmapped port

/-- A lane or trio loses synchronisation or deskew. -/
def csi2LaneSyncLoss (port lane : Nat) (s : State) : State :=
  if !(decide (port < 16) && decide (lane < 4) && s.fb F.ING_PORT_CTL_ENABLE port) then s
  else (s.setF F.ING_PORT_STATUS_SYNC (clrBit (s.f F.ING_PORT_STATUS_SYNC port) lane) port).event 0x3 1 port

/-! ## ST 2110-20 packets (R78, R86–R88) -/

/-- The stream that a packet belongs to (R87). -/
def State.stStream (s : State) (p : StPacket) : Option Nat :=
  (List.range 16).find? (fun k =>
    s.fb F.ING_ST_CTL_ENABLE k && s.f F.ING_ST_CTL_PORT k == p.port && s.f F.ING_ST_GROUP_ADDR k == p.dst
      && s.f F.ING_ST_UDP_PORT k == p.dport && s.f F.ING_ST_CTL_PT k == p.pt
      && (s.f F.ING_ST_SOURCE_ADDR k == 0 || s.f F.ING_ST_SOURCE_ADDR k == p.src))

/-- The group a stream's settings call for: version, port, group and source (R86). -/
def State.stGroup (s : State) (k : Nat) : Option (Nat × Nat × Nat × Nat) :=
  let g := s.f F.ING_ST_GROUP_ADDR k
  let src := s.f F.ING_ST_SOURCE_ADDR k
  if s.fb F.ING_ST_CTL_ENABLE k ∧ g / 2 ^ 28 = 14 then some (s.f F.ING_ST_CTL_PORT k, if src = 0 then 2 else 3, g, src) else none

/-- The part joins the groups of its streams that it has not joined before (`was`): with IGMPv3 and the configured source, or with
IGMPv2 where the source is 0.0.0.0 (R86). -/
def State.joinNew (s : State) (was : List (Option (Nat × Nat × Nat × Nat))) : State :=
  (List.range 16).foldl (fun s k =>
    match s.stGroup k with
    | some m => if nth none was k = some m then s else s.emit (.igmp m.1 m.2.1 m.2.2.1 m.2.2.2)
    | none => s) s

/-- The part joins the group of every enabled stream that goes to one (R86). -/
def State.joinGroups (s : State) : State := s.joinNew []

/-- The sensor of a stream. -/
def State.stSensor (s : State) (k : Nat) : Option Nat :=
  (List.range 32).find? (fun n =>
    s.fb F.ING_SNS_SRC_ENABLE n && s.fb F.ING_SNS_SRC_KIND n && s.f F.ING_SNS_SRC_SOURCE n == k)

/-- An RTP timestamp as device time in nanoseconds (R78): with the largest integer m for which (r + m × 2³²) / 90,000 s is not after the arrival;
m is negative where the arrival lies before r ticks. -/
def rtpTime (r now : Nat) : Int :=
  let lim : Int := (now * 9 / 100000 : Nat)
  (r + (lim - r) / 2 ^ 32 * 2 ^ 32) * 100000 / 9

/-- What a record carries of a mapped time: its fields are unsigned, and a time before the epoch shows as 0 (DESIGN CHOICE of log entry 74). -/
def rtpStamp (t : Int) : Nat := t.toNat

/-- Pixels of a pgroup: 2, or 4 for the 10-bit 4:4:4 samplings (log entry 17: ST 2110-20). -/
def State.pgroup (s : State) (k : Nat) : Nat :=
  if s.f F.ING_ST_CTL_SAMPLING k ≠ 0 ∧ ¬ s.fb F.ING_ST_CTL_DEPTH k then 4 else 2

/-- Whether a packet's sample rows lie in the frame and on pgroup boundaries (R87); at most three (Table 4-2). -/
def State.stFits (s : State) (k n : Nat) (p : StPacket) : Bool :=
  decide (p.segs.length ≤ 3) && p.segs.all (fun g =>
    decide (g.row < s.f F.ING_SNS_GEOM_HEIGHT n) && decide (g.off + g.px.length ≤ s.f F.ING_SNS_GEOM_WIDTH n)
      && g.off % s.pgroup k == 0 && g.px.length % s.pgroup k == 0)

/-- Pixels laid into a row. -/
def layRow (row : List (Option Px)) (off : Nat) : List Px → List (Option Px)
  | [] => row
  | p :: ps => layRow (setNth row off (some p)) (off + 1) ps

/-- Rows of which nothing came, up to row `r`. -/
def State.skipRows (s : State) (n : Nat) : Nat → State
  | 0 => s
  | k + 1 =>
    match (s.sns n).frame with
    | none => s
    | some f =>
      let w := s.f F.ING_SNS_GEOM_WIDTH n
      (s.takeLine n f { px := List.replicate w {}, part := true }).skipRows n k

/-- The row being received: how many lines of the frame have come before it. -/
def FrameSt.at (f : FrameSt) : Nat := f.taken + f.wait.length

/-- One sample row segment of the open frame. A segment of a row already over is discarded. -/
def State.takeSeg (s : State) (n : Nat) (g : StSeg) : State :=
  match (s.sns n).frame with
  | none => s
  | some f =>
    if g.row < f.at ∨ f.ended then s
    else
      let s := if f.at < g.row then s.endRow n else s
      let at' := match (s.sns n).frame with | some f => f.at | none => 0
      let s := s.skipRows n (g.row - at')
      match (s.sns n).frame with
      | none => s
      | some f =>
        let w := s.f F.ING_SNS_GEOM_WIDTH n
        let row := if f.row.isEmpty then List.replicate w none else f.row
        let s := s.setFrame n { f with row := layRow row g.off g.px }
        if (layRow row g.off g.px).all (·.isSome) then s.endRow n else s

/-- An accepted packet in its order, received at `t`: a new RTP timestamp closes the open frame and opens one (R97: stamped at its first packet's
reception); a marker closes (R88). A timestamp that is not newer modulo 2³² than the last frame's opens none, though no frame is open (DESIGN CHOICE
of log entry 73). -/
def State.stAccept (s : State) (k n t : Nat) (p : StPacket) : State :=
  let s := s.addWrap F.ING_ST_PACKETS_COUNT 1 k
  let cur := match (s.sns n).frame with | some f => some f.rtp | none => (s.sns n).lastRtp
  let isNew := match cur with | some r => decide (0 < sgn 32 (p.rtp + (2 ^ 32 - r))) | none => true
  let s :=
    if isNew then
      let s := (s.closeFrame n 0).takeDeferred n
      let ts := rtpTime p.rtp t
      let early := match (s.sns n).lastStart with
        | some u => decide (2 * (t - u) < s.f F.ING_SNS_PERIOD_NS n)
        | none => false
      if early then ((s.addSat F.ING_SNS_DISCARD_EARLY 1 n).event 0x3 5 n).setSns n { s.sns n with lastRtp := some p.rtp }
      else
        let s := s.setSns n { s.sns n with frame := some { start := t, ts := rtpStamp ts, rtp := p.rtp } }
        s.offsetUpdate n (some ((t : Int) - ts - s.fs F.TIME_SNS_NOMINAL_NS n))
    else s
  match (s.sns n).frame with
  | none => s
  | some f =>
    if f.rtp ≠ p.rtp then s
    else
      let s := p.segs.foldl (fun s g => s.takeSeg n g) s
      if p.marker then s.closeFrame n 0 else s

/-- A packet in its order: one that does not fit the frame is discarded (R87; log entry 34). -/
def State.stDeliver (s : State) (k n t : Nat) (p : StPacket) : State :=
  if s.stFits k n p then s.stAccept k n t p else s.addSat F.ING_ST_REJECT_COUNT 1 k

/-- A gap that the window cannot fill (R87): counted, and the open frame flagged. -/
def State.seqGap (s : State) (k n : Nat) : State :=
  let s := s.addSat F.ING_ST_SEQ_GAPS_COUNT 1 k
  match (s.sns n).frame with
  | some f => s.setFrame n { f with flags := f.flags ||| 512 }
  | none => s

/-- Packets held for reordering go on in order while the next one is there. -/
def State.stRun (s : State) (k n : Nat) : (fuel : Nat) → State
  | 0 => s
  | m + 1 =>
    let x := tget {} s.ing.st k
    match x.next with
    | none => s
    | some q =>
      match x.held.find? (fun e => e.2.seq == q) with
      | some (t, p) =>
        let s := { s with ing.st := tput {} s.ing.st k
                            { next := some ((q + 1) % 2 ^ 32), held := x.held.filter (fun r => r.2.seq != q) } }
        (s.stDeliver k n t p).stRun k n m
      | none =>
        let far := x.held.any (fun e => decide (32 ≤ sgn 32 (e.2.seq + (2 ^ 32 - q))))
        if far then
          let d := fun (e : Nat × StPacket) => (sgn 32 (e.2.seq + (2 ^ 32 - q))).toNat
          let lo := x.held.foldl (fun b p => Nat.min b (d p)) (2 ^ 32)
          let s := { s with ing.st := tput {} s.ing.st k { x with next := some ((q + lo) % 2 ^ 32) } }
          (s.seqGap k n).stRun k n m
        else s

/-- An ST 2110-20 packet arrives (R86, R87). One behind the window counts in SEQ_GAPS and is discarded; the window does not go back to it
(DESIGN CHOICE of log entry 73). -/
def st2110PacketRx (p : StPacket) (s : State) : State :=
  match s.stStream p with
  | none => s
  | some k =>
    match s.stSensor k with
    | none => s
    | some n =>
      let x := tget {} s.ing.st k
      let q := x.next.getD p.seq
      let d := sgn 32 (p.seq + (2 ^ 32 - q))
      if d < 0 then s.seqGap k n
      else
        let held := if x.held.any (fun r => r.2.seq == p.seq) then x.held else (s.now, p) :: x.held
        let s := { s with ing.st := tput {} s.ing.st k { next := some q, held := held } }
        s.stRun k n (2 * held.length + 2)

/-! ## The frame timeout (R89) -/

/-- An absent frame (R89): a descriptor with no valid band, and one advance by the full band count. Its timestamp is the middle
of the exposure interval that belongs to its expected start, where there is an unused one (log entry 18). -/
def State.absentFrame (s : State) (n : Nat) : State :=
  let x := s.sns n
  let t := s.now - (s.snsTimeout n - s.f F.ING_SNS_PERIOD_NS n)
  let lat := s.f F.TIME_SNS_LATENCY_NS n
  let trig := s.f F.ING_SNS_SRC_TRIGGER n
  let e := if s.f F.ING_SNS_SRC_TIMING n = 0 then
      match s.expoBefore trig t with
      | some e => if x.lastExpo = some e.edge8 then none else some e
      | none => none
    else none
  let ts := match e with | some e => e.mid | none => if s.f F.ING_SNS_SRC_TIMING n = 3 then t else t - lat
  let f : FrameSt := { start := t, ts := ts, expo := if e.isSome then s.expoLen trig else 0, flags := 32, bad := true }
  let s := s.setSns n { x with lastExpo := match e with | some e => some e.edge8 | none => x.lastExpo }
  let s := (s.addSat F.ING_SNS_BAD_ABSENT 1 n).event 0x3 3 n
  s.endFrame n f (s.snsBands n)

/-- The reference point of a sensor's timeout, in ns (R89): the open frame's start; else the previous frame's; for the first frame of a triggered
sensor the first edge of its trigger, of any other the end of the PTP wait. -/
def State.snsRef (s : State) (n : Nat) : Nat :=
  let trig := s.f F.ING_SNS_SRC_TRIGGER n
  match (s.sns n).frame, (s.sns n).lastStart with
  | some f, _ => f.start
  | none, some u => u
  | none, none =>
    if s.f F.ING_SNS_SRC_TIMING n = 0 then s.edge8 trig (s.firstEdge trig (s.tm.waitEnd + 1000000 * 65536)) / 8 else s.tm.waitEnd / 65536

/-- Whether a sensor's timeout has a reference point: a frame that is open or was, or the end of the PTP wait (R89). -/
def State.snsStarted (s : State) (n : Nat) : Bool := (s.sns n).frame.isSome || (s.sns n).lastStart.isSome || s.tm.trigOn

/-- Whether a sensor's timeout has passed: TIMEOUT after its reference point (R89). -/
def State.snsLate (s : State) (n : Nat) : Bool := decide (s.snsRef n + s.snsTimeout n ≤ s.now)

/-- The frame timeout (R88, R89): an open frame closes with TIMEOUT and END_MISSING, otherwise the expected frame is absent. -/
def frameTimeout (n : Nat) (s : State) : State :=
  if !(decide (n < 32) && s.fb F.ING_SNS_SRC_ENABLE n && s.snsStarted n && s.snsLate n) then s
  else if (s.sns n).frame.isSome then s.closeFrame n 144
  else s.absentFrame n

/-! ## Meanings -/

/-- CSI2_FRAME_START (R88, R90). -/
def execCsi2FrameStart (port vc ecc : Nat) (s : State) : Host.Outcome State Fault Refusal :=
  done (whenUp (csi2FrameStart port vc ecc) s)
/-- CSI2_FRAME_END (R88). -/
def execCsi2FrameEnd (port vc ecc : Nat) (s : State) : Host.Outcome State Fault Refusal := done (whenUp (csi2FrameEnd port vc ecc) s)
/-- CSI2_LONG_PACKET (R85, R487). -/
def execCsi2LongPacket (port vc dt ecc : Nat) (crcOk : Bool) (px : List Px) (s : State) : Host.Outcome State Fault Refusal :=
  done (whenUp (csi2LongPacket port vc dt ecc crcOk px) s)
/-- CSI2_IGNORED_PACKET (R83). -/
def execCsi2IgnoredPacket (port vc dt ecc : Nat) (s : State) : Host.Outcome State Fault Refusal :=
  done (whenUp (csi2IgnoredPacket port vc dt ecc) s)
/-- BAND_SLOT_FREE (R94, R95). -/
def execBandSlotFree (n : Nat) (s : State) : Host.Outcome State Fault Refusal := done (whenUp (bandSlotFree n) s)
/-- ST2110_PACKET_RX (R86, R87, R88). -/
def execSt2110PacketRx (p : StPacket) (s : State) : Host.Outcome State Fault Refusal := done (whenUp (st2110PacketRx p) s)
/-- FRAME_TIMEOUT (R88, R89). -/
def execFrameTimeout (n : Nat) (s : State) : Host.Outcome State Fault Refusal := done (whenUp (frameTimeout n) s)
/-- CSI2_LANE_SYNC_LOSS (Table 4-6). -/
def execCsi2LaneSyncLoss (port lane : Nat) (s : State) : Host.Outcome State Fault Refusal :=
  done (whenUp (csi2LaneSyncLoss port lane) s)

end Sys2Proof.Machine
end

