-- ==== Sys2Proof/Machine/MillNum.lean ====
section
/-!
DEFINITION. The arithmetic of the Mill (R123): rectification, pyramid, corners and descriptors, sparse tracking, dense flow and
semi-global matching, as functions of images.
-/

namespace Sys2Proof.MillNum
open Sys2Proof

/-- An image as the engines see it: its size, its pixels and their validity. -/
structure Img where
  w : Nat
  h : Nat
  v : Nat → Nat → Nat
  ok : Nat → Nat → Bool

/-- A coordinate held inside 0 … n − 1: borders are replicated. -/
def inside (n : Nat) (x : Int) : Nat := if x < 0 then 0 else Nat.min x.toNat (n - 1)

/-- A pixel, borders replicated. -/
def Img.px (m : Img) (x y : Int) : Nat := m.v (inside m.w x) (inside m.h y)

/-- A pixel's validity, borders replicated. -/
def Img.good (m : Img) (x y : Int) : Bool := m.ok (inside m.w x) (inside m.h y)

/-- The offsets from −r to r. -/
def offs (r : Nat) : List Int := (List.range (2 * r + 1)).map (fun (i : Nat) => (i : Int) - r)

/-! ## Rectification (R134) -/

/-- The bilinear blend of R134: fractions in 1/256. -/
def blend (fx fy a b c d : Nat) : Nat :=
  ((256 - fx) * (256 - fy) * a + fx * (256 - fy) * b + (256 - fx) * fy * c + fx * fy * d + 32768) / 65536

/-- The exact interpolation of four node coordinates, to the nearest Q16.16, ties up. -/
def nodeMix (g wx wy n00 n10 n01 n11 : Nat) : Nat :=
  let num := (g - wx) * (g - wy) * n00 + wx * (g - wy) * n10 + (g - wx) * wy * n01 + wx * wy * n11
  (2 * num + g * g) / (2 * g * g)

/-- A pixel sampled at a Q16.16 coordinate: none where a source pixel lies outside or is invalid. -/
def sample (m : Img) (x y : Nat) : Option Nat :=
  let i := x / 65536
  let j := y / 65536
  if i + 1 < m.w ∧ j + 1 < m.h then
    if m.ok i j && m.ok (i + 1) j && m.ok i (j + 1) && m.ok (i + 1) (j + 1) then
      some (blend (x / 256 % 256) (y / 256 % 256) (m.v i j) (m.v (i + 1) j) (m.v i (j + 1)) (m.v (i + 1) (j + 1)))
    else none
  else none

/-! ## Pyramid (R135) -/

/-- The kernel [1 4 6 4 1]. -/
def k5 (d : Int) : Nat := if d = 0 then 6 else if d.natAbs = 1 then 4 else 1

/-- The image filtered with the 5 × 5 kernel. -/
def smooth (m : Img) (x y : Int) : Nat :=
  (sumN ((offs 2).map (fun dy => sumN ((offs 2).map (fun dx => k5 dx * k5 dy * m.px (x + dx) (y + dy))))) + 128) / 256

/-- A pyramid pixel: its value and whether all 25 support pixels are valid. -/
def pyrPixel (m : Img) (i j : Nat) : Nat × Bool :=
  let ok := (offs 2).all (fun dy => (offs 2).all (fun dx => m.good ((2 * i : Nat) + dx) ((2 * j : Nat) + dy)))
  (if ok then smooth m (2 * i : Nat) (2 * j : Nat) else 0, ok)

/-! ## Corners (R136–R139) -/

/-- The 16 points of the radius-3 circle, in order (log entry 24). -/
def ring : List (Int × Int) :=
  [(0, -3), (1, -3), (2, -2), (3, -1), (3, 0), (3, 1), (2, 2), (1, 3), (0, 3), (-1, 3), (-2, 2), (-3, 1), (-3, 0), (-3, -1),
   (-2, -2), (-1, -3)]

/-- The longest circular run of true in a list of 16. -/
def longestRun (l : List Bool) : Nat :=
  ((l ++ l).foldl (fun (a : Nat × Nat) b => if b then (a.1 + 1, Nat.max a.2 (a.1 + 1)) else (0, a.2)) (0, 0)).2

/-- Whether a pixel passes the segment test (R136). -/
def candidate (m : Img) (arc thr x y : Nat) : Bool :=
  let c := m.v x y
  let l := ring.map (fun o => m.px ((x : Int) + o.1) ((y : Int) + o.2))
  decide (arc ≤ longestRun (l.map (fun v => decide (c + thr < v)))) || decide (arc ≤ longestRun (l.map (fun v => decide (v + thr < c))))

/-- The score of R136. -/
def score (m : Img) (thr : Nat) (x y : Int) : Nat :=
  let c := m.px x y
  Nat.min 65535 (sumN (ring.map (fun o =>
    let v := m.px (x + o.1) (y + o.2)
    (Nat.max v c - Nat.min v c) - thr)) / 16)

/-- Whether a candidate beats its eight neighbours; equals go to the first in raster order. -/
def localMax (m : Img) (thr x y : Nat) : Bool :=
  let s := score m thr x y
  (offs 1).all (fun dy => (offs 1).all (fun dx =>
    if dx = 0 ∧ dy = 0 then true
    else
      let t := score m thr (x + dx) (y + dy)
      if dy < 0 ∨ (dy = 0 ∧ dx < 0) then decide (t < s) else decide (t ≤ s)))

/-- Whether a pixel is a kept candidate: clear of the edge, its window valid (R136). -/
def isCorner (m : Img) (arc thr x y : Nat) : Bool :=
  decide (18 ≤ x) && decide (18 ≤ y) && decide (x + 18 < m.w) && decide (y + 18 < m.h)
    && candidate m arc thr x y && localMax m thr x y
    && (offs 17).all (fun dy => (offs 17).all (fun dx => m.good ((x : Int) + dx) ((y : Int) + dy)))

/-- The candidates of rows up to `rows`, in raster order: x, y, score. -/
def corners (m : Img) (arc thr rows : Nat) : List (Nat × Nat × Nat) :=
  (List.range (Nat.min rows m.h)).flatMap (fun y =>
    ((List.range m.w).filter (fun x => isCorner m arc thr x y)).map (fun x => (x, y, score m thr x y)))

/-- The kept corners, cell by cell in raster order: the cell, then the corner (R137). -/
def keptCorners (m : Img) (cell per : Nat) (l : List (Nat × Nat × Nat)) : List (Nat × Nat × Nat × Nat) :=
  let nx := ceilDiv m.w cell
  (List.range (nx * ceilDiv m.h cell)).flatMap (fun c =>
    let here := l.filter (fun p => p.2.1 / cell * nx + p.1 / cell == c)
    ((sortBy (fun (a b : Nat × Nat × Nat) => decide (b.2.2 < a.2.2)) here).take per).map (fun p => (c, p)))

/-- The parabola offset of R138 in Q16.16, held to ±0.5, 0 where the denominator is 0. -/
def parabola (scale : Nat) (sm s0 sp : Int) : Int :=
  let den := 2 * (sm - 2 * s0 + sp)
  if den = 0 then 0
  else
    let num := (sm - sp) * (if den < 0 then -1 else 1)
    let d := den.natAbs
    if (d : Int) < 2 * num then (scale : Int) / 2
    else if 2 * num < -(d : Int) then -((scale : Int) / 2)
    else rhuDiv (num * scale) d

/-- Cosines of k · 2π/32 for k = 0 … 8, in units of 2⁻¹²⁸. -/
def cosTable : List Nat :=
  [340282366920938463463374607431768211456, 333743936656827580393945988193699131951, 314379914072750776175968446001973125505,
   282934447697145148265594844364568804969, 240615969168004511545033772477625056927, 189050753882727566157415671260389918823,
   130220424146621615521356287377630227996, 66385796539016198537004233668372411924, 0]

/-- The cosine of bin k. -/
def cosBin (k : Nat) : Int :=
  let j := k % 32
  if j ≤ 8 then ((nth 0 cosTable j : Nat) : Int)
  else if j ≤ 16 then -(nth 0 cosTable (16 - j) : Nat)
  else if j ≤ 24 then -(nth 0 cosTable (j - 16) : Nat)
  else ((nth 0 cosTable (32 - j) : Nat) : Int)

/-- The sine of bin k. -/
def sinBin (k : Nat) : Int := cosBin (k + 24)

/-- The orientation bin: the one whose direction is nearest to the moment vector (R139). -/
def bin (m10 m01 : Int) : Nat :=
  let dot := fun k => m10 * cosBin k + m01 * sinBin k
  (List.range 32).foldl (fun b k => if dot b < dot k then k else b) 0

/-- The intensity centroid over the disc of radius 15, on the smoothed level. -/
def orient (m : Img) (x y : Nat) : Nat :=
  let pts := (offs 15).flatMap (fun dy => ((offs 15).filter (fun dx => decide (dx * dx + dy * dy ≤ 225))).map (fun dx => (dx, dy)))
  let v := fun (o : Int × Int) => (smooth m ((x : Int) + o.1) ((y : Int) + o.2) : Nat)
  bin (sumZ (pts.map (fun o => o.1 * v o))) (sumZ (pts.map (fun o => o.2 * v o)))

/-- The generator of the point pairs (R139): the next state and the number drawn. -/
def draw (st : Nat) : Nat × Int :=
  let st := (st * 1103515245 + 12345) % 2 ^ 32
  (st, ((st / 65536 % 31 : Nat) : Int) - 15)

/-- The built-in pattern of point pairs, as many as `n` from a state. -/
def patternFrom : (n st : Nat) → List ((Int × Int) × (Int × Int))
  | 0, _ => []
  | n + 1, st =>
    let a := draw st
    let b := draw a.1
    let c := draw b.1
    let d := draw c.1
    let by' := if a.2 = c.2 ∧ b.2 = d.2 then (d.2 + 23) % 31 - 15 else d.2
    ((a.2, b.2), (c.2, by')) :: patternFrom n d.1

/-- The built-in pattern. -/
def pattern : List ((Int × Int) × (Int × Int)) := patternFrom 256 0x2545F491

/-- A rotated coordinate rounded to the nearest integer, ties away from zero, held to ±15. -/
def rotRound (v : Int) : Int :=
  let q := (2 * v.natAbs + 2 ^ 128) / 2 ^ 129
  let q := Nat.min q 15
  if v < 0 then -(q : Int) else q

/-- A point rotated by bin k. -/
def rot (k : Nat) (p : Int × Int) : Int × Int :=
  (rotRound (p.1 * cosBin k - p.2 * sinBin k), rotRound (p.1 * sinBin k + p.2 * cosBin k))

/-- The 256-bit descriptor at a corner, as a number: bit i by pair i (R139). -/
def descriptor (m : Img) (x y k : Nat) : Nat :=
  let v := fun (p : Int × Int) => let q := rot k p; smooth m ((x : Int) + q.1) ((y : Int) + q.2)
  pattern.foldr (fun ab acc => 2 * acc + b2n (decide (v ab.1 < v ab.2))) 0

/-! ## Translation-only Lucas–Kanade (R142, R145) -/

/-- A Q16.16 integer as an FP32 pattern. -/
def q16 (x : Int) : Nat := fp32.ofRat x 65536

/-- An FP32 number of pixels as Q16.16, to the nearest. -/
def toQ16 (p : Nat) : Int := (fp32.dec p).rneMul 65536

/-- A pixel of the image sampled as in R134, the last row and column sampled with zero weight on what lies beyond them. -/
def sampleIn (m : Img) (x y : Int) : Option Nat :=
  if x < 0 ∨ y < 0 then none
  else
    let i := (x / 65536).toNat
    let j := (y / 65536).toNat
    if i < m.w ∧ j < m.h then
      let g := fun (a b : Nat) => m.good a b
      if g i j && g (i + 1) j && g i (j + 1) && g (i + 1) (j + 1) then
        some (blend (x.toNat / 256 % 256) (y.toNat / 256 % 256) (m.v i j) (m.px (i + 1 : Nat) j) (m.px i (j + 1 : Nat))
          (m.px (i + 1 : Nat) (j + 1 : Nat)))
      else none
    else none

/-- The window of an image about a Q16.16 centre with a border of one, in raster order; a sample that cannot be taken is none. -/
def window (m : Img) (r : Nat) (cx cy : Int) : List (List (Option Nat)) :=
  (offs (r + 1)).map (fun dy => (offs (r + 1)).map (fun dx => sampleIn m (cx + 65536 * dx) (cy + 65536 * dy)))

/-- Whether a window with its 1-pixel border leaves the image (Table 6-6). -/
def leaves (m : Img) (r : Nat) (cx cy : Int) : Bool :=
  let b : Int := 65536 * ((r + 1 : Nat) : Int)
  decide (cx < b) || decide (cy < b) || decide (65536 * ((m.w - 1 : Nat) : Int) < cx + b) || decide (65536 * ((m.h - 1 : Nat) : Int) < cy + b)

/-- Whether a pixel of the image under a window is invalid. -/
def touchesBad (m : Img) (r : Nat) (cx cy : Int) : Bool :=
  (offs (r + 1)).any (fun dy => (offs (r + 1)).any (fun dx =>
    let x := cx / 65536 + dx
    let y := cy / 65536 + dy
    (List.range 2).any (fun (a : Nat) => (List.range 2).any (fun (b : Nat) =>
      let i := x + a
      let j := y + b
      decide (0 ≤ i) && decide (0 ≤ j) && decide (i < m.w) && decide (j < m.h) && !m.ok i.toNat j.toNat))))

/-- An inner sample of a window grid: column and row count from the inner window's corner. -/
def inner (g : List (List (Option Nat))) (x y : Nat) : Nat := (nth none (nth [] g y) x).getD 0

/-- The template of a window: values, gradients and H, in FP32, summed in raster order (R142). -/
structure Tpl where
  vals : List Nat
  gx : List Nat
  gy : List Nat
  hxx : Nat
  hxy : Nat
  hyy : Nat

/-- FP32 sum of products in raster order. -/
def dot32 (a b : List Nat) : Nat := (a.zip b).foldl (fun acc p => fp32.add acc (fp32.mul p.1 p.2)) 0

/-- The template from a sampled grid of side n + 2. -/
def tpl (g : List (List (Option Nat))) (n : Nat) : Tpl :=
  let pts := (List.range n).flatMap (fun y => (List.range n).map (fun x => (x + 1, y + 1)))
  let gx := pts.map (fun p => fp32.ofRat ((inner g (p.1 + 1) p.2 : Int) - inner g (p.1 - 1) p.2) 32)
  let gy := pts.map (fun p => fp32.ofRat ((inner g p.1 (p.2 + 1) : Int) - inner g p.1 (p.2 - 1)) 32)
  { vals := pts.map (fun p => inner g p.1 p.2), gx := gx, gy := gy, hxx := dot32 gx gx, hxy := dot32 gx gy, hyy := dot32 gy gy }

/-- λ_min of H in FP32. -/
def lambdaMin (t : Tpl) : Nat :=
  let half := fp32.ofRat 1 2
  let a := fp32.mul half (fp32.add t.hxx t.hyy)
  let d := fp32.mul half (fp32.sub t.hxx t.hyy)
  fp32.sub a (fp32.sqrt (fp32.dec (fp32.add (fp32.mul d d) (fp32.mul t.hxy t.hxy))))

/-- min_eig (R144). -/
def minEig (t : Tpl) (n : Nat) : Nat :=
  let q := fp32.div (lambdaMin t) (fp32.ofInt ((n * n : Nat) : Int))
  clampU 16 ((fp32.dec q).floorMul 1)

/-- One update (R142): Δ = H⁻¹ Σ g e, by the adjugate, in FP32. -/
def delta (t : Tpl) (e : List Nat) : Nat × Nat :=
  let bx := dot32 t.gx e
  let by' := dot32 t.gy e
  let det := fp32.sub (fp32.mul t.hxx t.hyy) (fp32.mul t.hxy t.hxy)
  (fp32.div (fp32.sub (fp32.mul t.hyy bx) (fp32.mul t.hxy by')) det,
   fp32.div (fp32.sub (fp32.mul t.hxx by') (fp32.mul t.hxy bx)) det)

/-- The magnitude of an FP32 pattern. -/
def mag (p : Nat) : Nat := p % 2 ^ 31

/-- What the iterations of one level end with: displacement, iterations made, whether converged, and a code that stops the track
(0 none, 4, 3, 5). -/
structure LkOut where
  ux : Nat
  uy : Nat
  iters : Nat
  conv : Bool
  code : Nat
  resid : Nat

/-- The differences e over the inner window, as integers. -/
def diffs (t : Tpl) (g : List (List (Option Nat))) (n : Nat) : List Int :=
  let pts := (List.range n).flatMap (fun y => (List.range n).map (fun x => (x + 1, y + 1)))
  (pts.zip t.vals).map (fun p => (inner g p.1.1 p.1.2 : Int) - p.2)

/-- The mean |e|, as an integer held to 16 bits. -/
def meanAbs (l : List Int) : Nat := satU 16 (sumN (l.map Int.natAbs) / l.length)

/-- The iterations of one level: window radius r (side n), centre of the template (Q16.16), limit of iterations, EPS (Q0.16; 0 does
not stop), and the search test. A window beyond the search limit is not read: whether a pixel of it is invalid is asked within the limit only, so that no
result rests on rows that may not be there yet (R123, R143; DEDUCED, log entry 96). -/
def iterate (m : Img) (t : Tpl) (r : Nat) (n : Nat) (cx cy : Int) (eps : Nat) (far : Int → Int → Bool) :
    (fuel done ux uy : Nat) → (conv : Bool) → LkOut
  | 0, done, ux, uy, conv =>
    let x := cx + toQ16 ux
    let y := cy + toQ16 uy
    if !far x y && touchesBad m r x y then ⟨ux, uy, done, conv, 4, 0⟩
    else if leaves m r x y then ⟨ux, uy, done, conv, 3, 0⟩
    else if far x y then ⟨ux, uy, done, conv, 5, 0⟩
    else ⟨ux, uy, done, conv, 0, meanAbs (diffs t (window m r x y) n)⟩
  | f + 1, done, ux, uy, _ =>
    let x := cx + toQ16 ux
    let y := cy + toQ16 uy
    if !far x y && touchesBad m r x y then ⟨ux, uy, done, false, 4, 0⟩
    else if leaves m r x y then ⟨ux, uy, done, false, 3, 0⟩
    else if far x y then ⟨ux, uy, done, false, 5, 0⟩
    else
      let e := (diffs t (window m r x y) n).map fp32.ofInt
      let d := delta t e
      let ux' := fp32.sub ux d.1
      let uy' := fp32.sub uy d.2
      let small := fp32.lt (mag d.1) (q16 eps) && fp32.lt (mag d.2) (q16 eps)
      if small then iterate m t r n cx cy eps far 0 (done + 1) ux' uy' true
      else iterate m t r n cx cy eps far f (done + 1) ux' uy' false
termination_by f _ _ _ _ => f

/-! ## Dense flow (R145, R146) -/

/-- A flow component in Q10.6, to the nearest, ties away from zero; none where it, so rounded, would be 512 or more in magnitude. -/
def flowCode (p : Nat) : Option Int :=
  match fp32.dec p with
  | .fin s n d =>
    let q := (2 * n * 64 + d) / (2 * d)
    if 32768 ≤ q then none else some (if s then -(q : Int) else q)
  | _ => none

/-- A patch that was tracked: its origin, displacement and 64 times its mean |e|. -/
structure Patch where
  x : Nat
  y : Nat
  ux : Nat
  uy : Nat
  resid : Nat

/-- 1 / max(r, 1/16) in FP32, r the mean of 64 magnitudes that sum to `sum`. -/
def patchWeight (sum : Nat) : Nat := fp32.div (fp32.ofInt 1) (fp32.ofRat (Nat.max sum 4 : Nat) 64)

/-- A pixel's flow: the weighted mean over the accepted patches that cover it, in FP32; none where no patch does. -/
def pixelFlow (ps : List Patch) (x y : Nat) : Option (Nat × Nat) :=
  let here := ps.filter (fun p => decide (p.x ≤ x) && decide (x < p.x + 8) && decide (p.y ≤ y) && decide (y < p.y + 8))
  if here.isEmpty then none
  else
    let w := here.map (fun p => patchWeight p.resid)
    let den := w.foldl fp32.add 0
    some (fp32.div (dot32 w (here.map (·.ux))) den, fp32.div (dot32 w (here.map (·.uy))) den)

/-- The patches of one level (R145): template from frame N − 1, start displacement by patch, accepted ones in raster order. -/
def patches (prev cur : Img) (iters eig res : Nat) (start : Nat → Nat → Nat × Nat) : List (Option Patch) :=
  (List.range (ceilDiv cur.h 4)).flatMap (fun j => (List.range (ceilDiv cur.w 4)).map (fun i =>
    let x := Nat.min (4 * i) (cur.w - 8)
    let y := Nat.min (4 * j) (cur.h - 8)
    let r := 3
    -- the 8 × 8 patch is the inner window of a grid of side 10, its corner one pixel before the patch
    let cx : Int := 65536 * ((x + r : Nat) : Int)
    let cy : Int := 65536 * ((y + r : Nat) : Int)
    let grid := fun (m : Img) (px py : Int) =>
      (List.range 10).map (fun (b : Nat) => (List.range 10).map (fun (a : Nat) =>
        let sx := px + 65536 * ((a : Int) - 1 - r)
        let sy := py + 65536 * ((b : Int) - 1 - r)
        sampleIn m (inside (65536 * m.w) sx : Nat) (inside (65536 * m.h) sy : Nat)))
    let out := fun (m : Img) (px py : Int) =>
      decide (px < 65536 * (r : Int)) || decide (py < 65536 * (r : Int)) || decide (65536 * ((m.w : Int) - 1) < px + 65536 * 4)
        || decide (65536 * ((m.h : Int) - 1) < py + 65536 * 4)
    let bad := fun (m : Img) (px py : Int) =>
      (List.range 11).any (fun (b : Nat) => (List.range 11).any (fun (a : Nat) =>
        !m.good (px / 65536 + (a : Int) - 1 - r) (py / 65536 + (b : Int) - 1 - r)))
    let t := tpl (grid prev cx cy) 8
    if out prev cx cy || bad prev cx cy || decide (minEig t 8 < eig) then none
    else
      let u := (List.range iters).foldl (fun (u : Option (Nat × Nat)) _ =>
        match u with
        | none => none
        | some u =>
          let px := cx + toQ16 u.1
          let py := cy + toQ16 u.2
          if out cur px py || bad cur px py then none
          else
            let d := delta t ((diffs t (grid cur px py) 8).map fp32.ofInt)
            some (fp32.sub u.1 d.1, fp32.sub u.2 d.2)) (some (start x y))
      match u with
      | none => none
      | some u =>
        let px := cx + toQ16 u.1
        let py := cy + toQ16 u.2
        if out cur px py || bad cur px py then none
        else
          let e := sumN ((diffs t (grid cur px py) 8).map Int.natAbs)
          if 64 * res < e then none else some { x := x, y := y, ux := u.1, uy := u.2, resid := e }))

/-! ## Semi-global matching (R148–R154) -/

/-- The census of a pixel: bit k for neighbour k of the 9 × 7 window in raster order (R148). -/
def census (m : Img) (x y : Int) : Nat :=
  let c := m.px x y
  (((offs 3).flatMap (fun dy => (offs 4).map (fun dx => (dx, dy)))).filter (fun o => !(o.1 == 0 && o.2 == 0))).foldr
    (fun o acc => 2 * acc + b2n (decide (m.px (x + o.1) (y + o.2) < c))) 0

/-- Whether the census window of a pixel is valid. -/
def censusOk (m : Img) (x y : Int) : Bool :=
  (offs 3).all (fun dy => (offs 4).all (fun dx => m.good (x + dx) (y + dy)))

/-- The texture measure (R148). -/
def texture (m : Img) (x y : Int) : Nat :=
  sumN ((offs 2).flatMap (fun dy => (offs 2).map (fun dx =>
    ((m.px (x + dx + 1) (y + dy) : Int) - m.px (x + dx - 1) (y + dy)).natAbs
      + ((m.px (x + dx) (y + dy + 1) : Int) - m.px (x + dx) (y + dy - 1)).natAbs)))

/-- The settings of a pair. -/
structure SgmCfg where
  dmin : Nat
  dnum : Nat
  p1 : Nat
  p2 : Nat
  shift : Nat
  adapt : Bool
  uniq : Nat
  tex : Nat
  lr : Bool
  tol : Nat

/-- Whether a left pixel is coded invalid input (R151, outcome 1). -/
def badInput (k : SgmCfg) (l r : Img) (x y : Nat) : Bool :=
  !censusOk l x y || (List.range k.dnum).any (fun d => decide (k.dmin + d ≤ x) && !censusOk r ((x - k.dmin - d : Nat) : Int) y)

/-- The matching costs of a left pixel, by d (R148). -/
def costs (k : SgmCfg) (l r : Img) (x y : Nat) : List Nat :=
  if badInput k l r x y then List.replicate k.dnum 0
  else
    let cl := census l x y
    (List.range k.dnum).map (fun (d : Nat) => popCount 62 (cl ^^^ census r ((x : Int) - k.dmin - d) y))

/-- The smallest element of a list. -/
def minL (l : List Nat) : Nat := match l with | [] => 0 | x :: xs => xs.foldl Nat.min x

/-- The path costs of a pixel from those of the pixel before it on the path (R149). -/
def pathCost (k : SgmCfg) (c prev : List Nat) (dl : Nat) : List Nat :=
  let m := minL prev
  let p2 := if k.adapt then Nat.max (k.p1 + 1) (k.p2 - dl / 2 ^ k.shift) else k.p2
  (List.range k.dnum).map (fun d =>
    let a := nth 0 prev d - m
    let b := if 0 < d then nth 0 prev (d - 1) - m + k.p1 else p2
    let e := if d + 1 < k.dnum then nth 0 prev (d + 1) - m + k.p1 else p2
    nth 0 c d + Nat.min (Nat.min a b) (Nat.min e p2))

/-- A row's path costs: by x, the costs of the four paths. -/
abbrev PathRow := List (List (List Nat))

/-- The absolute difference of two left pixels. -/
def leftDiff (m : Img) (x y : Nat) (px py : Int) : Nat := ((m.v x y : Int) - m.px px py).natAbs

/-- One row of a pass (R150): `dir` 1 runs left to right over the row above, −1 right to left over the row below. The four paths are
the one along the row, and the three from the row before it. -/
def passRow (k : SgmCfg) (l r : Img) (y : Nat) (dir : Int) (before : Option PathRow) : PathRow :=
  let xs := if dir = 1 then List.range l.w else (List.range l.w).reverse
  let done := xs.foldl (fun (acc : List (Nat × List (List Nat))) x =>
    let c := costs k l r x y
    let along := match acc with
      | (_, p) :: _ => pathCost k c (nth [] p 0) (leftDiff l x y ((x : Int) - dir) y)
      | [] => c
    let from' := fun (i : Nat) (dx : Int) =>
      let px := (x : Int) + dx
      match before with
      | some b => if px < 0 ∨ (l.w : Int) ≤ px then c
                  else pathCost k c (nth [] (nth [] b px.toNat) i) (leftDiff l x y px ((y : Int) - dir))
      | none => c
    (x, [along, from' 1 (-dir), from' 2 0, from' 3 dir]) :: acc) []
  let byX := if dir = 1 then done.reverse else done
  byX.map (·.2)

/-- The sum of the four paths of a pixel, by d. -/
def sumPaths (k : SgmCfg) (p : List (List Nat)) : List Nat :=
  (List.range k.dnum).map (fun d => sumN (p.map (fun q => nth 0 q d)))

/-- The argmin over the d that a test admits; ties to the smaller d. -/
def argmin (s : List Nat) (adm : Nat → Bool) : Option Nat :=
  (List.range s.length).foldl (fun (b : Option Nat) d =>
    if adm d then
      match b with
      | none => some d
      | some e => if nth 0 s d < nth 0 s e then some d else b
    else b) none

/-- |a − b| of two numbers. -/
def gap (a b : Nat) : Nat := Nat.max a b - Nat.min a b

/-- The forward summary of a pixel (R150). -/
def forwardWord (s : List Nat) : Nat :=
  let d1 := (argmin s (fun _ => true)).getD 0
  let d2 := (argmin s (fun d => decide (2 ≤ gap d d1))).getD 0
  let at' := fun (d : Int) => if d < 0 ∨ (s.length : Int) ≤ d then 504 else nth 0 s d.toNat
  let g1 := Nat.min 63 ((Nat.min (at' ((d1 : Int) - 1)) (at' ((d1 : Int) + 1)) - nth 0 s d1) / 8)
  let g2 := Nat.min 63 ((nth 0 s d2 - nth 0 s d1) / 8)
  d1 * 2 ^ 22 + d2 * 2 ^ 12 + g1 * 2 ^ 6 + g2

/-- The forward sum rebuilt from its summary (R150). -/
def rebuilt (w d : Nat) : Nat :=
  let d1 := bitsOf w 31 22
  let d2 := bitsOf w 21 12
  if d = d1 then 0 else if gap d d1 = 1 then 8 * bitsOf w 11 6 else if d = d2 then 8 * bitsOf w 5 0 else 504

/-- Whether d is a candidate of left pixel x (R151). -/
def isCand (k : SgmCfg) (x d : Nat) : Bool := decide (k.dmin + d ≤ x)

/-- The outcome of a left pixel (R151, R152): its code or disparity, and its confidence. `row` holds S for every x of the row. -/
def outcome (k : SgmCfg) (l r : Img) (row : List (List Nat)) (x y : Nat) : Nat × Nat :=
  let s := nth [] row x
  if badInput k l r x y then (0xFFFC, 0)
  else if texture l x y < k.tex then (0xFFFF, 0)
  else
    match argmin s (isCand k x) with
    | none => (0xFFFD, 0)
    | some d =>
      let top := Nat.min (x - k.dmin) (k.dnum - 1)
      if d = 0 ∨ d = top then (0xFFFD, 0)
      else
        let s1 := nth 0 s d
        let s2 := match argmin s (fun e => isCand k x e && decide (2 ≤ gap e d)) with | some e => nth 0 s e | none => Config.sgmNoSecond s
        if s2 * (128 - k.uniq) ≤ s1 * 128 then (0xFFFF, 0)
        else
          let q := x - k.dmin - d
          let rs := (List.range k.dnum).map (fun e => nth 0 (nth [] row (q + k.dmin + e)) e)
          let dr := (argmin rs (fun e => decide (q + k.dmin + e < l.w))).getD 0
          if k.lr ∧ k.tol < gap d dr then (0xFFFE, 0)
          else
            let sm : Int := ((nth 0 s (d - 1) : Nat) : Int)
            let sp : Int := ((nth 0 s (d + 1) : Nat) : Int)
            let den := 2 * (sm - 2 * s1 + sp)
            -- 32 (DMIN + d* + δ), to the nearest, ties toward the smaller
            let base : Int := 32 * ((k.dmin + d : Nat) : Int)
            let disp := if den = 0 then base
              else
                let num := (sm - sp) * (if den < 0 then -1 else 1)
                let dd := den.natAbs
                let num := if (dd : Int) < 2 * num then (dd : Int) else if 2 * num < -(dd : Int) then -(dd : Int) else 2 * num
                -- δ = num / (2 dd)
                base + -((-(2 * 32 * num) + 2 * dd) / (4 * dd : Int))
            (disp.toNat, 255 * (s2 - s1) / s2)

/-- Depth (R154): the FP16 of FB / disparity; codes give the NaNs of R154. -/
def depth (fb code : Nat) : Nat :=
  if code = 0xFFFF then 0x7FFF else if code = 0xFFFE then 0x7FFE else if code = 0xFFFD then 0x7FFD else if code = 0xFFFC then 0x7FFC
  else if code = 0 then 0x7C00
  else
    let z := fp32.div fb (fp32.ofRat code 32)
    if fp32.lt (fp32.ofInt 65504) z then 0x7C00 else fp32.conv fp16 z

end Sys2Proof.MillNum
end

