-- ==== Sys2Proof/Machine/Mill.lean ====
section
/-!
DEFINITION. The Mill (chapter 06): sensor, SGM and flow jobs, their bands, records, skips and absent frames.
-/

namespace Sys2Proof.Machine
open Sys2Proof MillNum

/-! ## Engines and tile buffers (R122, R158) -/

/-- The tile buffer of one engine in KiB, by class (Table 6-1): a rectification engine's is its lane's, which the lane's pyramid engine shares. -/
def tileBufKib (c : Nat) : Nat :=
  match c with
  | 5 => 320
  | 7 => 96
  | 8 => 96
  | 9 => 1536
  | _ => 0

/-- The Mill tile-buffer pool in KiB (R122): the buffers of the active engines. The spares' own buffers are not counted in it. -/
def millPoolKib (part : Nat) : Nat := sumN ([5, 7, 8, 9].map (fun c => activeOf part c * tileBufKib c))

/-- Whether a front-end lane is in service: both its engines are. -/
def State.laneUp (s : State) (l : Nat) : Bool := decide (l < 4) && (s.physOf 5 0 l).isSome && (s.physOf 6 0 l).isSome

/-- Engines in service of a type: for the front end, lanes. -/
def State.engines (s : State) (c : Nat) : Nat :=
  if c = 5 ∨ c = 6 then ((List.range 4).filter s.laneUp).length else s.workingOf c

/-! ## Jobs -/

/-- A job's state: sensor n, 32 + SGM pair, 64 + flow job. -/
def State.job (s : State) (j : Nat) : JobSt := tget {} s.mill.jobs j

/-- A job's state changes. -/
def State.setJob (s : State) (j : Nat) (x : JobSt) : State := { s with mill.jobs := tput {} s.mill.jobs j x }

/-- What a job knows of the f-th frame of a sensor: its id, timestamp, valid bands, first band, whether absent, and whether it has
closed. -/
structure Src where
  id : Nat
  ts : Nat
  valid : Nat
  absent : Bool
  closed : Bool

/-- The f-th frame of a sensor, from its descriptor (Table 4-4) or, while it is open, from ingest. -/
def State.src (s : State) (n f : Nat) : Option Src :=
  let x := s.sns n
  if f < x.nextId then
    let a := s.pair R.ING_SNS_DESC_LO R.ING_SNS_DESC_HI n + 64 * (f % 64)
    some { id := f % 2 ^ 32, ts := s.rdNum (a + 8) 8 * 1000000000 + s.rdNum (a + 16) 4, valid := s.rdNum (a + 40) 8,
           absent := bitOf (s.rdNum (a + 6) 2) 5, closed := true }
  else if f = x.nextId then
    match x.frame with
    | some fr => some { id := f % 2 ^ 32, ts := fr.ts, valid := fr.valid, absent := false, closed := false }
    | none => none
  else none

/-- Level-ℓ width or height from that of level 0 (R135). -/
def halved : Nat → Nat → Nat
  | 0, w => w
  | n + 1, w => halved n (ceilDiv w 2)

/-- Rectified size of a sensor job at a level. -/
def State.jobW (s : State) (n l : Nat) : Nat := halved l (s.f F.MILL_SNS_GEOM_OUT_W n)
def State.jobH (s : State) (n l : Nat) : Nat := halved l (s.f F.ING_SNS_GEOM_HEIGHT n)

/-! ## Frame slots (Table 6-2) -/

/-- Rounded up to 4 KiB. -/
def page4 (n : Nat) : Nat := ceilDiv n 4096 * 4096

/-- Bytes of an image plane and of its mask. -/
def planeSize (w h : Nat) : Nat := ceilDiv w 64 * ceilDiv h 64 * 8192
def maskSize (w h : Nat) : Nat := page4 (ceilDiv w 64 * ceilDiv h 64 * 512)

/-- Offset of level ℓ's planes in a sensor job's slot. -/
def State.levelOff (s : State) (n : Nat) : Nat → Nat
  | 0 => 4096
  | l + 1 => s.levelOff n l + planeSize (s.jobW n l) (s.jobH n l) + maskSize (s.jobW n l) (s.jobH n l)

/-- Offsets of the corner list and of the track results, and the size of a sensor job's slot. -/
def State.cornerOff (s : State) (n : Nat) : Nat := s.levelOff n (s.f F.MILL_SNS_CTL_LEVELS n + 1)
def State.trackOff (s : State) (n : Nat) : Nat := s.cornerOff n + page4 (48 * s.f F.MILL_SNS_CORNER_MAX_MAX n)
def State.snsSlotSize (s : State) (n : Nat) : Nat := page4 (s.trackOff n + 32 * s.f F.MILL_SNS_KLT_MAXTRK_TRACK_MAX n)

/-- The base of a sensor job's slot for frame f (R128). -/
def State.snsSlot (s : State) (n f : Nat) : Nat :=
  s.pair R.MILL_SNS_OUT_LO R.MILL_SNS_OUT_HI n + f % s.f F.MILL_SNS_CTL_OUT_FRAMES n * s.snsSlotSize n

/-- The pixel's place in a plane of 64 × 64 tiles (R93). -/
def tilePx (w x y : Nat) : Nat := ((y / 64) * ceilDiv w 64 + x / 64) * 4096 + y % 64 * 64 + x % 64

/-- Level ℓ of frame f of a sensor job, as an image. -/
def State.levelImg (s : State) (n f l : Nat) : Img :=
  let w := s.jobW n l
  let h := s.jobH n l
  let a := s.snsSlot n f + s.levelOff n l
  let m := a + planeSize w h
  { w := w, h := h, v := fun x y => s.rdNum (a + 2 * tilePx w x y) 2,
    ok := fun x y => bitOf (s.rd (m + tilePx w x y / 8)).toNat (tilePx w x y % 8) }

/-- One row of an L plane and its mask is written, tile by tile, the last column repeated (R93); the last row fills its band. -/
def State.writeRow (s : State) (w h a y : Nat) (vals : List (Nat × Bool)) : State :=
  let m := a + planeSize w h
  let rows := if y + 1 = h then (List.range (64 - y % 64)).map (y + ·) else [y]
  rows.foldl (fun s r =>
    (List.range (ceilDiv w 64)).foldl (fun s t =>
      let px := (List.range 64).map (fun x => nth (vals.getLastD (0, false)) vals (64 * t + x))
      let at' := (r / 64 * ceilDiv w 64 + t) * 4096 + r % 64 * 64
      let s := s.wrList (a + 2 * at') (px.flatMap (fun p => leBytes 2 p.1))
      s.wrNum (m + at' / 8) 8 (px.foldr (fun p acc => 2 * acc + b2n p.2) 0)) s) s

/-! ## The front end (R127, R132–R140) -/

/-- The ingest planes of frame f as an image. -/
def State.ingestImg (s : State) (n f : Nat) : Img :=
  let w := s.f F.ING_SNS_GEOM_WIDTH n
  let q := f * s.snsBands n
  let valid := match s.src n f with | some x => x.valid | none => 0
  { w := w, h := s.f F.ING_SNS_GEOM_HEIGHT n,
    v := fun x y => s.rdNum ((s.slotAddr n (q + y / 64)).1 + (x / 64 * 4096 + y % 64 * 64 + x % 64) * 2) 2,
    ok := fun _ y => bitOf valid (y / 64) }

/-- G of a warp map (R132). -/
def State.grid (s : State) (n : Nat) : Nat := 8 * 2 ^ s.f F.MILL_SNS_CTL_GRID n

/-- A node of the warp map: source x and y in Q16.16. -/
def State.mapNode (s : State) (n gx gy : Nat) : Nat × Nat :=
  let g := s.grid n
  let nx := ceilDiv (s.f F.MILL_SNS_GEOM_OUT_W n - 1) g + 1
  let ny := ceilDiv (s.f F.ING_SNS_GEOM_HEIGHT n - 1) g + 1
  let a := s.pair R.MILL_SNS_MAP_LO R.MILL_SNS_MAP_HI n + 8 * (Nat.min gy (ny - 1) * nx + Nat.min gx (nx - 1))
  (s.rdNum a 4, s.rdNum (a + 4) 4)

/-- Both channels of the ingest C plane of frame f, as images. -/
def State.ingestC (s : State) (n f k : Nat) : Img :=
  let q := f * s.snsBands n
  let m := s.ingestImg n f
  { m with v := fun x y => s.rdNum ((s.slotAddr n (q + y / 64)).2 + (x / 64 * 4096 + y % 64 * 64 + x % 64) * 4 + 2 * k) 2 }

/-- A rectified pixel (R134): its value and whether it is valid; the same for a channel of C. -/
def State.rectPixel (s : State) (n : Nat) (m : Img) (x y : Nat) : Nat × Bool :=
  let g := s.grid n
  let a := s.mapNode n (x / g) (y / g)
  let b := s.mapNode n (x / g + 1) (y / g)
  let c := s.mapNode n (x / g) (y / g + 1)
  let d := s.mapNode n (x / g + 1) (y / g + 1)
  if [a, b, c, d].any (fun p => p.1 == 0xFFFFFFFF) then (0, false)
  else
    match sample m (nodeMix g (x % g) (y % g) a.1 b.1 c.1 d.1) (nodeMix g (x % g) (y % g) a.2 b.2 c.2 d.2) with
    | some v => (v, true)
    | none => (0, false)

/-- Rectified band b of frame f is written, with its mask. -/
def State.rectBand (s : State) (n f b : Nat) : State :=
  let w := s.jobW n 0
  let h := s.jobH n 0
  let m := s.ingestImg n f
  let a := s.snsSlot n f + s.levelOff n 0
  let rows := (List.range (Nat.min 64 (h - 64 * b))).map (64 * b + ·)
  let vals := rows.map (fun y => (y, (List.range w).map (fun x => s.rectPixel n m x y)))
  let s := vals.foldl (fun s r => s.writeRow w h a r.1 r.2) s
  s.addPair R.MILL_PIXELS_LO R.MILL_PIXELS_HI (w * rows.length)

/-- How many rows of the next level are complete when `done` of `h` rows of this one are (R127, R135). -/
def rowsUp (done h : Nat) : Nat := if h ≤ done then ceilDiv h 2 else if done < 3 then 0 else (done - 3) / 2 + 1

/-- Pyramid rows of a level that have become computable are written. -/
def State.pyrRows (s : State) (n f l from' to' : Nat) : State :=
  let m := s.levelImg n f (l - 1)
  let w := s.jobW n l
  let h := s.jobH n l
  let a := s.snsSlot n f + s.levelOff n l
  let vals := ((List.range (to' - from')).map (from' + ·)).map (fun y => (y, (List.range w).map (fun x => pyrPixel m x y)))
  let s := vals.foldl (fun s r => s.writeRow w h a r.1 r.2) s
  s.addPair R.MILL_PIXELS_LO R.MILL_PIXELS_HI (w * (to' - from'))

/-- The pyramid follows the rectified rows. -/
def State.pyrUp (s : State) (n f rows : Nat) : State :=
  let top := s.f F.MILL_SNS_CTL_LEVELS n
  ((List.range top).foldl (fun (a : State × Nat) i =>
    let l := i + 1
    let done := rowsUp a.2 (a.1.jobH n i)
    let x := a.1.job n
    let was := nth 0 x.pyr i
    let s := a.1.pyrRows n f l was done
    (s.setJob n { x with pyr := setNth x.pyr i (Nat.max was done) }, done)) (s, rows)).1

/-- Rows complete at a level of the frame in progress. -/
def State.rowsDone (s : State) (n l : Nat) : Nat :=
  let x := s.job n
  match l with
  | 0 => Nat.min (64 * x.rect) (s.jobH n 0)
  | k + 1 => nth 0 x.pyr k

/-- The corner list from the rows complete so far (R136–R140): corners found and listed. -/
def State.cornerList (s : State) (n f : Nat) : State :=
  if !s.fb F.MILL_SNS_CTL_CORNER_EN n then s
  else
    let l := s.f F.MILL_SNS_CTL_CORNER_LEVEL n
    let thr := s.f F.MILL_SNS_CORNER_THR n
    let m := s.levelImg n f l
    let done := s.rowsDone n l
    let cell := 32 * 2 ^ s.f F.MILL_SNS_CORNER_CELL n
    let rows := if done = m.h then done else done - 18
    let all := keptCorners m cell (s.f F.MILL_SNS_CORNER_PER_CELL n) (corners m (s.f F.MILL_SNS_CORNER_ARC n) thr rows)
    let kept := all.take (s.f F.MILL_SNS_CORNER_MAX_MAX n)
    let bytes := kept.flatMap (fun e =>
      let x : Nat := e.2.1
      let y : Nat := e.2.2.1
      let sc : Int → Int → Int := fun dx dy => ((score m thr ((x : Int) + dx) ((y : Int) + dy) : Nat) : Int)
      let fx : Int := ((65536 * x : Nat) : Int) + parabola 65536 (sc (-1) 0) (sc 0 0) (sc 1 0)
      let fy : Int := ((65536 * y : Nat) : Int) + parabola 65536 (sc 0 (-1)) (sc 0 0) (sc 0 1)
      let k := orient m x y
      leBytes 4 (fx * 2 ^ l).toNat ++ leBytes 4 (fy * 2 ^ l).toNat ++ leBytes 2 e.2.2.2 ++ leBytes 1 k ++ leBytes 1 l
        ++ leBytes 4 e.1 ++ leBytes 32 (descriptor m x y k))
    let x := s.job n
    let cap := kept.length < all.length
    let s := s.setJob n { x with c0 := kept.length, c1 := all.length, flags := if cap then x.flags ||| 16 else x.flags }
    s.wrList (s.snsSlot n f + s.cornerOff n) bytes

/-! ## Sparse tracking (R141–R144) -/

/-- The track list as it stands in its buffer (R141). -/
def State.trackList (s : State) (n : Nat) : List Trk :=
  if !s.fb F.MILL_SNS_CTL_KLT_EN n then []
  else
    let a := s.pair R.MILL_SNS_TRK_LO R.MILL_SNS_TRK_HI n
    let k := Nat.min (s.rdNum a 4) (s.f F.MILL_SNS_KLT_MAXTRK_TRACK_MAX n)
    (List.range k).map (fun i =>
      let e := a + 4 + 24 * i
      let px := s.rdNum (e + 4) 4
      let py := s.rdNum (e + 8) 4
      let ok := bitOf (s.rdNum (e + 20) 4) 0
      { id := s.rdNum e 4, px := px, py := py, gx := if ok then s.rdNum (e + 12) 4 else px,
        gy := if ok then s.rdNum (e + 16) 4 else py, ok := ok })

/-- A track result before it is written: its residual and min_eig where level 0 was reached. -/
structure TrkOut where
  x : Nat
  y : Nat
  resid : Option Nat := none
  eig : Option Nat := none
  code : Nat
  iters : Nat := 0
  level : Nat

/-- A coordinate as an unsigned Q16.16 word. -/
def coordWord (v : Int) : Nat := clampU 32 v

/-- One track from level ℓ down (R142, R143). -/
def State.trackFrom (s : State) (n f : Nat) (t : Trk) : (level ux uy iters : Nat) → TrkOut
  | l, ux, uy, iters =>
    let win := s.f F.MILL_SNS_KLT_WIN n
    let r := (win - 1) / 2
    let prev := s.levelImg n (f - 1) l
    let cur := s.levelImg n f l
    let cx : Int := (t.px / 2 ^ l : Nat)
    let cy : Int := (t.py / 2 ^ l : Nat)
    let reach : Int := 65536 * ((s.f F.MILL_SNS_KLT_MARGIN n : Int) - r - 1)
    let far := fun (x y : Int) =>
      let dx := x * 2 ^ l - t.gx
      let dy := y * 2 ^ l - t.gy
      decide (reach * reach < dx * dx + dy * dy)
    let pos := fun (ux uy : Nat) => (coordWord (t.px + toQ16 ux * 2 ^ l), coordWord (t.py + toQ16 uy * 2 ^ l))
    if touchesBad prev r cx cy then { x := (pos ux uy).1, y := (pos ux uy).2, code := 4, iters := iters, level := l }
    else if leaves prev r cx cy then { x := (pos ux uy).1, y := (pos ux uy).2, code := 3, iters := iters, level := l }
    else
      let tp := tpl (window prev r cx cy) win
      let o := iterate cur tp r win cx cy (s.f F.MILL_SNS_KLT_EPS_EPS n) far (s.f F.MILL_SNS_KLT_ITER_MAX n) 0 ux uy false
      let it := iters + o.iters
      let p := pos o.ux o.uy
      if o.code ≠ 0 then { x := p.1, y := p.2, code := o.code, iters := it, level := l,
                           eig := if l = 0 then some (minEig tp win) else none }
      else
        match l with
        | 0 =>
          let e := minEig tp win
          let code := if e < s.f F.MILL_SNS_KLT_THR_EIG_THR n then 1 else if !o.conv then 6
                      else if s.f F.MILL_SNS_KLT_THR_RES_THR n < o.resid then 2 else 0
          { x := p.1, y := p.2, resid := some o.resid, eig := some e, code := code, iters := it, level := 0 }
        | k + 1 => s.trackFrom n f t k (fp32.mul (fp32.ofInt 2) o.ux) (fp32.mul (fp32.ofInt 2) o.uy) it

/-- One track of frame f. -/
def State.track (s : State) (n f : Nat) (first : Bool) (t : Trk) : TrkOut :=
  if first then { x := t.px, y := t.py, code := 4, level := 0 }
  else
    let l := s.f F.MILL_SNS_KLT_KLT_LEVELS n - 1
    s.trackFrom n f t l (fp32.ofRat ((t.gx : Int) - t.px) (65536 * 2 ^ l)) (fp32.ofRat ((t.gy : Int) - t.py) (65536 * 2 ^ l)) 0

/-- Whether the frame in progress computes tracks and flow (R131). -/
def JobSt.first (x : JobSt) : Bool := bitOf x.flags 7

/-- Track-list entries whose y_guess lies below row `row` are processed in list order (R127, R141). Where a track is not computed, the
fields it would give hold free values, the same for the same inputs (R123; log entry 36). -/
def State.runTracks (s : State) (n f row : Nat) (last : Bool) : (fuel : Nat) → State
  | 0 => s
  | m + 1 =>
    let x := s.job n
    match x.list.drop x.trk with
    | [] => s
    | t :: _ =>
      let late := decide (t.gy < x.yEff)
      let y := Nat.max t.gy x.yEff
      if !(last || decide (y < 65536 * row)) then s
      else
        let o := s.track n f x.first t
        let v := fun i => Config.trackFill i [t.id, t.px, t.py, t.gx, t.gy, b2n t.ok, o.x, o.y, o.code, o.iters, o.level]
        let o : TrkOut := if x.first then { o with x := v 0, y := v 1, level := v 2 % 256 } else o
        let a := s.snsSlot n f + s.trackOff n + 32 * x.trk
        let s := s.wrList a (leBytes 4 t.id ++ leBytes 4 o.x ++ leBytes 4 o.y ++ leBytes 2 (o.resid.getD (v 3)) ++ leBytes 2 (o.eig.getD (v 4))
          ++ leBytes 1 o.code ++ leBytes 1 (satU 8 o.iters) ++ leBytes 1 o.level ++ leBytes 1 0 ++ leBytes 4 t.px ++ leBytes 4 t.py
          ++ leBytes 4 0)
        let s := s.setJob n { x with trk := x.trk + 1, yEff := y, flags := if late then x.flags ||| 64 else x.flags,
                                     c2 := x.c2 + b2n (o.code == 0), c3 := x.c3 + b2n (o.code != 0) }
        let s := if late then s.event 0x5 6 n else s
        s.runTracks n f row last m

/-! ## Records (R129, R130) -/

/-- The conditions of a record (R130). -/
def millConds (invalid short skipped degraded : Bool) : List Nat :=
  condsOf [(St.invalidInput, invalid), (St.degraded, skipped && degraded), (St.late, skipped && !degraded), (St.short, short)]

/-- The 64-byte result record of Table 6-3. -/
def millRecord (id kind index status level ts flags : Nat) (c : List Nat) (other valid : Nat) : List Byte :=
  leBytes 4 id ++ leBytes 1 kind ++ leBytes 1 index ++ leBytes 1 status ++ leBytes 1 level ++ tsBytes ts ++ leBytes 4 flags
    ++ c.flatMap (leBytes 4) ++ leBytes 4 other ++ leBytes 8 valid ++ leBytes 8 0

/-- Whether an engine type runs beyond its spares. -/
def State.beyond (s : State) (c : Nat) : Bool := decide (s.workingOf c < activeOf s.otp.part c)

/-- Whether an engine type that a sensor job uses runs beyond its spares. -/
def State.snsBeyond (s : State) (n : Nat) : Bool :=
  s.beyond 5 || s.beyond 6 || (s.fb F.MILL_SNS_CTL_CORNER_EN n && s.beyond 7) || (s.fb F.MILL_SNS_CTL_KLT_EN n && s.beyond 8)

/-- What became of frame f of a sensor job: 1 computed, 2 absent, 3 skipped, 0 not over. -/
def State.fate (s : State) (j f : Nat) : Nat := ((s.job j).seen.find? (fun e => e.1 == f)).elim 0 (·.2)

/-- What the front-end Tally of a sensor job tells other blocks of frame f (R19): what became of it, 0 until the Tally covers the frame. -/
def State.frontFate (s : State) (n f : Nat) : Nat :=
  if s.tv (s.f F.MILL_SNS_TALLY_FRONT n) < (f + 1) * s.snsBands n then 0 else s.fate n f

/-- A job is done with a frame: what became of it is noted and the next is up. -/
def State.jobNext (s : State) (j fate : Nat) : State :=
  let x := s.job j
  s.setJob j { next := x.next + 1, owed := x.owed, seen := ((x.next, fate) :: x.seen).take 64 }

/-- Frame N − 1 of a job can be used. -/
def State.prevOk (s : State) (n f : Nat) : Bool := decide (0 < f) && s.fate n (f - 1) == 1

/-- A sensor job's record is written, its registers follow, and its events are logged (R129, Tables 6-3 and 6-4). -/
def State.snsRecord (s : State) (n f : Nat) (o : Owed) (c : List Nat) : State :=
  let bytes := millRecord o.id 0 n o.status (s.f F.MILL_SNS_CTL_CORNER_LEVEL n) o.ts o.flags c o.other o.valid
  let s := (s.wrList (s.snsSlot n f) bytes).publish 1 n true bytes (s.snsSlot n f)
  let s := (s.setF F.MILL_SNS_LAST_STATUS o.status n).setF F.MILL_SNS_LAST_FLAGS o.flags n
  let s := s.setF F.MILL_SNS_FRAME_ID_ID o.id n
  let s := (s.setF F.MILL_SNS_CORNERS_LISTED (nth 0 c 0) n).setF F.MILL_SNS_CORNERS_FOUND (satU 16 (nth 0 c 1)) n
  let s := (s.setF F.MILL_SNS_TRACKS_TRACKED (nth 0 c 2) n).setF F.MILL_SNS_TRACKS_OTHER (nth 0 c 3) n
  let s := s.logHidden 0x5 n o.conds [] o.id
  let s := if bitOf o.flags 1 then s.event 0x5 4 n 0 o.status o.id else s
  if bitOf o.flags 4 then s.event 0x5 3 n 0 o.status o.id else s

/-- What a frame's record carries (R130): BAND_INVALID where a source that is not absent has a band that is not valid; the status, the first in the
order of R12 of what holds. `unusable` says that the frame is INVALID_INPUT whatever its bands, `short` that it lists too few corners, `beyond` that
its engine type runs beyond its spares. -/
def State.owe (s : State) (src : Src) (full valid flags other : Nat) (unusable short beyond : Bool) : Owed :=
  let flags := if !bitOf flags 0 && valid != full then flags ||| 2 else flags
  let conds := millConds (unusable || bitOf flags 1) short (bitOf flags 2) beyond
  { flags := flags, status := statusOf conds, conds := conds, id := src.id, other := other, valid := valid,
    ts := src.ts }

/-- The record of a sensor job's frame. -/
def State.snsOwe (s : State) (n : Nat) (src : Src) (flags listed other : Nat) : Owed :=
  let none' := bitOf flags 0 || bitOf flags 2
  s.owe src (2 ^ s.snsBands n - 1) src.valid flags other (bitOf flags 0)
    (!none' && s.fb F.MILL_SNS_CTL_CORNER_EN n && decide (listed < s.f F.MILL_SNS_CORNER_MAX_MIN n)) (s.snsBeyond n)

/-- The front-end Tally and the ingest release Tally. -/
def State.frontAdvance (s : State) (n amount ts : Nat) : State := s.advance 0x5 (s.f F.MILL_SNS_TALLY_FRONT n) amount (some ts)
def State.ingRelease (s : State) (n amount ts : Nat) : State := s.advance 0x5 (s.f F.ING_SNS_TALLY_RELEASE n) amount (some ts)

/-! ## Frames of a job that are not computed (R126, R131, R486) -/

/-- The frame of a job whose fate is to be decided next: the one after the frame at work and those already found not to be computed. -/
def JobSt.upcoming (x : JobSt) : Nat := x.next + b2n x.run + x.owed.length

/-- A frame of a job is found not to be computed: its record and its advances are owed. -/
def State.passOver (s : State) (j fate : Nat) (o : Owed) : State :=
  let x := s.job j
  s.setJob j { x with owed := x.owed ++ [o], seen := ((x.upcoming, fate) :: x.seen).take 64 }

/-- The oldest owed frame has been settled. -/
def State.paid (s : State) (j : Nat) : State :=
  let x := s.job j
  s.setJob j { x with next := x.next + 1, owed := x.owed.drop 1 }

/-- A skip is logged. -/
def State.noteSkip (s : State) (u : Nat) (o : Owed) : State := s.event 0x5 0 u 0 o.status o.id

/-- Whether the slot of frame f of a ring with a release Tally is free (R128). -/
def State.ringFree (s : State) (release frames f : Nat) : Bool := decide (f < s.tv release + frames)

/-- Whether a sensor job's slot for frame f is free. -/
def State.snsFree (s : State) (n f : Nat) : Bool := s.ringFree (s.f F.MILL_SNS_TALLY_RELEASE n) (s.f F.MILL_SNS_CTL_OUT_FRAMES n) f

/-- The records and front-end advances that a sensor job owes, once the frame before is complete and as their slots free (R128, R129, R486; DESIGN
CHOICE of log entry 77). -/
def State.snsPay (s : State) (n : Nat) : (fuel : Nat) → State
  | 0 => s
  | m + 1 =>
    let x := s.job n
    match x.owed with
    | [] => s
    | o :: _ =>
      if x.run || !s.snsFree n x.next then s
      else (((s.snsRecord n x.next o [0, 0, 0, 0, 0]).paid n).frontAdvance n (s.snsBands n) o.ts).snsPay n m

/-- Whether the first band task of frame f is ready: ingest band 1 (or the only one) is stored. -/
def State.firstReady (s : State) (n f : Nat) : Bool :=
  match s.src n f with
  | some x => !x.absent && decide (f * s.snsBands n + Nat.min 2 (s.snsBands n) ≤ s.tv (s.f F.ING_SNS_TALLY_INGEST n))
  | none => false

/-- Whether some later frame of the sensor than f is ready to start: f, still waiting, is skipped. -/
def State.overtaken (s : State) (n f : Nat) : Bool :=
  (List.range ((s.sns n).nextId + 1 - f)).any (fun i => s.firstReady n (f + 1 + i))

/-! ## Shedding (R158, R160) -/

/-- The cycles per frame that a sensor job costs an engine type at its configured limits (Table 6-9). -/
def State.frontCycles (s : State) (n c : Nat) : Nat :=
  let area := fun l => s.jobW n l * s.jobH n l
  match c with
  | 5 => ceilDiv (8 * sumN ((List.range (s.f F.MILL_SNS_CTL_LEVELS n + 1)).map area)) 15
  | 7 =>
    let l := s.f F.MILL_SNS_CTL_CORNER_LEVEL n
    if s.fb F.MILL_SNS_CTL_CORNER_EN n then area l + 160 * s.f F.MILL_SNS_CORNER_MAX_MAX n + 704 * ceilDiv (s.jobH n l) 64 else 0
  | 8 =>
    let k := s.f F.MILL_SNS_KLT_KLT_LEVELS n
    let w := s.f F.MILL_SNS_KLT_WIN n
    if s.fb F.MILL_SNS_CTL_KLT_EN n then
      s.f F.MILL_SNS_KLT_MAXTRK_TRACK_MAX n * (k * (1 + s.f F.MILL_SNS_KLT_ITER_MAX n) * ceilDiv (w * w) 4 + 100 * k)
    else 0
  | _ => 0

/-- The class-0 load of a set of sensor jobs on an engine type, in cycles per nanosecond. -/
def State.frontLoad (s : State) (l : List Nat) (c : Nat) : Nat × Nat :=
  l.foldl (fun a n => addFrac a (s.frontCycles n c, Nat.max 1 (s.f F.ING_SNS_PERIOD_NS n))) (0, 1)

/-- The sensor jobs that are shed (R160): while an engine type that runs beyond its spares has more class-0 work than its remaining engines can do
(800 MHz each), the job of the lowest PRIORITY goes, ties to the higher ingest index. -/
def State.shedJobs (s : State) : List Nat :=
  let on := (List.range 32).filter (fun n => s.fb F.MILL_SNS_CTL_ENABLE n)
  let order := sortBy (fun a b => decide (s.f F.MILL_SNS_CTL_PRIORITY a < s.f F.MILL_SNS_CTL_PRIORITY b)) on.reverse
  [5, 7, 8].foldl (fun shed c =>
    if activeOf s.otp.part c ≤ s.engines c then shed
    else order.foldl (fun shed n =>
      if leFrac (s.frontLoad (on.filter (fun m => !shed.contains m)) c) (4 * s.engines c, 5) || shed.contains n then shed else n :: shed) shed) []

/-- Absent, overtaken and shed frames of a sensor job, in capture order (R126, R131, R160): each is found at once, whatever the job is at work on; its
ingest-release advance follows the previous frame's last one, its record and front-end advance the previous frame's completion (R486). -/
def State.snsSettle (s : State) (n : Nat) : (fuel : Nat) → State
  | 0 => s
  | m + 1 =>
    let x := s.job n
    if !s.fb F.MILL_SNS_CTL_ENABLE n then s
    else
      let g := x.upcoming
      match s.src n g with
      | none => s.snsPay n 64
      | some src =>
        let b := s.snsBands n
        let late := s.overtaken n g || (s.firstReady n g && s.shedJobs.contains n)
        if !src.absent && !late then s.snsPay n 64
        else
          let o := s.snsOwe n src (if src.absent then 1 else 4) 0 0xFFFFFFFF
          let s := s.passOver n (if src.absent then 2 else 3) o
          let s := if src.absent then s else ((s.addSat F.MILL_SKIPS_CLASS0).addSat F.MILL_SNS_SKIPS_COUNT 1 n).noteSkip n o
          (if !x.run || x.rel == b then s.ingRelease n b src.ts else s).snsSettle n m

/-! ## Front-end lanes (R125, R133) -/

/-- Whether a lane is at work on a band of a sensor job. -/
def State.onLane (s : State) (n b : Nat) : Bool := s.mill.lanes.any (fun e => e.2 == (n + 1, b))

/-- The band task of a sensor job that is ready for a lane (R125, R126, R133): its next band that no lane has taken, once the ingest band below it is
stored; the first one of a frame only where the frame's slot is free. -/
def State.bandTask (s : State) (n : Nat) : Option Nat :=
  let x := s.job n
  let bands := s.snsBands n
  let b := ((List.range bands).find? (fun b => decide (x.rect ≤ b) && !x.ahead.contains b && !s.onLane n b)).getD bands
  match s.src n x.next with
  | none => none
  | some src =>
    if s.fb F.MILL_SNS_CTL_ENABLE n && !src.absent && decide (b < bands)
        && decide (x.next * bands + Nat.min bands (b + 2) ≤ s.tv (s.f F.ING_SNS_TALLY_INGEST n))
        && (x.run || (x.owed.isEmpty && s.snsFree n x.next && !s.shedJobs.contains n)) then some b
    else none

/-- The job and the band of it that a free lane takes (R125): the ready one whose input band was stored earliest, ties to the lower ingest index. -/
def State.laneChoice (s : State) : Option (Nat × Nat) :=
  let ready := (List.range 32).filterMap (fun n =>
    match s.bandTask n with
    | some b => some (s.storedAt n ((s.job n).next * s.snsBands n + Nat.min (b + 1) (s.snsBands n - 1)), n, b)
    | none => none)
  (bestBy (fun a b => decide (a.1 < b.1)) ready).map (·.2)

/-- A sensor job's warp map is written where the settings name it (R132). -/
def State.loadWarp (s : State) (n : Nat) : State :=
  let nodes := ((s.bt.img.warps.find? (fun e => e.1 == n)).map (·.2)).getD []
  s.wrList (s.pair R.MILL_SNS_MAP_LO R.MILL_SNS_MAP_HI n) (nodes.flatMap (fun p => leBytes 4 p.1 ++ leBytes 4 p.2))

/-- The bytes of a tile on the path: L, its mask, and C where PATH_C is set. -/
def State.pathBytes (s : State) (n : Nat) : Nat := 8704 + (if s.fb F.MILL_SNS_CTL_PATH_C n then 16384 else 0)

/-- Tile i of frame f of a sensor, counted from the sensor's first. -/
def State.tileNo (s : State) (n f i : Nat) : Nat :=
  match (tget [] s.mill.starts n).find? (fun e => e.1 == f) with | some e => e.2 + i | none => i

/-- Where tile i of frame f of a sensor lies in the buffer that the task graphs name for the sensor's networks: the buffer is a ring of tiles, counted
from the sensor's first (layout: DESIGN CHOICE of log entry 79). -/
def State.pathTile (s : State) (n f i : Nat) : Option Nat :=
  let k := s.tileNo n f i
  match s.dsp.graph.paths.find? (fun p => p.sensor == n) with
  | some p => if p.len < s.pathBytes n then none else some (p.addr + k % (p.len / s.pathBytes n) * s.pathBytes n)
  | none => none

/-- A job's frame starts (R126): the settings and the warp map that wait for it take effect, and FIRST is set where its frame N − 1 was not computed (R131). -/
def State.startFrame (s : State) (n : Nat) : State :=
  let warp := decide (n < 32) && s.sec.defer.any (fun e => e.1 == 256 + n)
  let s := s.takeDeferred (256 + n)
  let s := if warp then s.loadWarp n else s
  let x := s.job n
  let s : State := if n < 32 then { s with mill.starts := tput [] s.mill.starts n (((x.next, tget 0 s.mill.tiles n) :: tget [] s.mill.starts n).take 64) }
    else s
  s.setJob n { x with run := true, flags := if s.prevOk n x.next then 0 else 128 }

/-- A free lane takes a band task where one is ready. -/
def State.laneTakes (s : State) (l : Nat) : State :=
  if tget (0, 0) s.mill.lanes l ≠ (0, 0) ∨ !s.laneUp l then s
  else
    match s.laneChoice with
    | none => s
    | some (n, b) =>
      let s := if (s.job n).run then s else s.startFrame n
      { s with mill.lanes := tput (0, 0) s.mill.lanes l (n + 1, b) }

/-- Every free lane takes a band task; a lane out of service has none. -/
def State.lanesTake (s : State) : State :=
  let s : State := { s with mill.lanes := s.mill.lanes.filter (fun e => s.laneUp e.1) }
  (List.range 4).foldl State.laneTakes s

/-! ## A front-end band (R127) -/

/-- Level-0 rows that `r` rows of a level rest on. -/
def rowsBelow : Nat → Nat → Nat
  | 0, r => r
  | l + 1, r => rowsBelow l (2 * r + 2)

/-- The rectified rows that band b's advance rests on (R127, R141): those of its corners, and those that its tracks may read at any level, so that no
track reads a pyramid row that is not written (R123; DEDUCED, log entry 78). -/
def State.needRows (s : State) (n b : Nat) : Nat :=
  let base := 64 * (b + 1)
  let reach := base + s.f F.MILL_SNS_KLT_MARGIN n
  let klt := if s.fb F.MILL_SNS_CTL_KLT_EN n then
      (List.range (s.f F.MILL_SNS_KLT_KLT_LEVELS n)).foldl (fun a l =>
        Nat.max a (rowsBelow l (reach / 2 ^ l + s.f F.MILL_SNS_KLT_WIN n / 2 + 3))) reach
    else base
  let l := s.f F.MILL_SNS_CTL_CORNER_LEVEL n
  let crn := if s.fb F.MILL_SNS_CTL_CORNER_EN n then rowsBelow l (ceilDiv base (2 ^ l) + 18) else base
  Nat.min (s.jobH n 0) (Nat.max klt crn)

/-- A band is done out of `n` without a gap and those beyond a gap. -/
def withBand (n : Nat) (ahead : List Nat) (b : Nat) : Nat × List Nat :=
  let l := b :: ahead
  let m := n + ((List.range l.length).takeWhile (fun k => l.contains (n + k))).length
  (m, l.filter (fun k => decide (m ≤ k)))

/-- A band is rectified. -/
def State.rectNext (s : State) (n f b : Nat) : State :=
  let s := s.rectBand n f b
  let x := s.job n
  let r := withBand x.rect x.ahead b
  s.setJob n { x with rect := r.1, ahead := r.2 }

/-- Each ingest band is released once the band after it is rectified and through its lane, the last one at once, and after it those of the frames
passed over (R127, R486). A band whose tile the path holds is not through: the tiles after that one are still to be rectified (R21). -/
def State.frontRelease (s : State) (n ts : Nat) : State :=
  let x := s.job n
  let bands := s.snsBands n
  let through := if s.fb F.MILL_SNS_CTL_PATH_EN n then x.sent else x.rect
  let rel := Nat.max x.rel (if bands ≤ through then bands else through - 1)
  if rel = x.rel then s
  else
    let s := (s.setJob n { x with rel := rel }).ingRelease n (rel - x.rel) ts
    if rel = bands then x.owed.foldl (fun s o => s.ingRelease n bands o.ts) s else s

/-! ## The Mill-to-cluster tile path (R21, R157) -/

/-- The bytes of a rectified C tile (R134, R93): column t of band b. -/
def State.rectC (s : State) (n f b t : Nat) : List Byte :=
  let w := s.jobW n 0
  let h := s.jobH n 0
  let c0 := s.ingestC n f 0
  let c1 := s.ingestC n f 1
  (List.range 64).flatMap (fun r => (List.range 64).flatMap (fun c =>
    let x := Nat.min (64 * t + c) (w - 1)
    let y := Nat.min (64 * b + r) (h - 1)
    leBytes 2 (s.rectPixel n c0 x y).1 ++ leBytes 2 (s.rectPixel n c1 x y).1))

/-- A tile crosses the path: the L tile and its mask tile as they lie in the frame slot, then the C tile where PATH_C is set. -/
def State.sendTile (s : State) (n f b t : Nat) : State :=
  let w := s.jobW n 0
  let a := s.snsSlot n f + s.levelOff n 0
  let i := b * ceilDiv w 64 + t
  let bytes := s.rdList (a + 8192 * i) 8192 ++ s.rdList (a + planeSize w (s.jobH n 0) + 512 * i) 512
    ++ (if s.fb F.MILL_SNS_CTL_PATH_C n then s.rectC n f b t else [])
  let k := tget 0 s.mill.tiles n
  let s : State := { s with mill.tiles := tput 0 s.mill.tiles n (k + 1) }
  match s.pathTile n f i with
  | some at' => s.wrList at' bytes
  | none => s

/-- The oldest tile of a sensor in the path's buffer, counted from the sensor's first, that a network instance has still to take: none where no
instance reads the sensor. An instance takes tiles band by band as it takes its input rows (R181). -/
def State.pathOldest (s : State) (n : Nat) : Option Nat :=
  let starts := tget [] s.mill.starts n
  let cols := ceilDiv (s.jobW n 0) 64
  ((List.range 64).filter (fun i => s.insOn i && s.insSensor i == n)).foldl (fun m i =>
    let x := s.ins i
    let pos := match bestBy (fun a b => decide (a.1 < b.1)) (starts.filter (fun e => decide (x.next ≤ e.1))) with
      | some e => e.2 + (if e.1 = x.next then x.inp.length / 64 * cols else 0)
      | none => tget 0 s.mill.tiles n
    some (match m with | some k => Nat.min k pos | none => pos)) none

/-- Whether tile i of frame f finds free space in cluster SRAM (R21): the place it goes to holds no tile that is still to be taken. -/
def State.pathRoom (s : State) (n f i : Nat) : Bool :=
  match s.dsp.graph.paths.find? (fun p => p.sensor == n), s.pathOldest n with
  | some p, some k => decide (p.len < s.pathBytes n) || decide (s.tileNo n f i < k + p.len / s.pathBytes n)
  | _, _ => true

/-- The tiles of band b from column `t0` cross the path, left to right, until one finds no space (R21): the lane holds that tile and stops, and its
record says PATH_HELD (R157). With none held the band is through and the lane free. -/
def State.sendBand (s : State) (n f b lane t0 : Nat) : State :=
  let cols := ceilDiv (s.jobW n 0) 64
  let stop := (List.range cols).find? (fun t => decide (t0 ≤ t) && !s.pathRoom n f (b * cols + t))
  let s := ((List.range (stop.getD cols)).filter (fun t => decide (t0 ≤ t))).foldl (fun s t => s.sendTile n f b t) s
  match stop with
  | some k =>
    let x := s.job n
    (s.setJob n { x with held := { band := b, lane := lane, col := k, since := s.mono } :: x.held, flags := x.flags ||| 32 }).event 0x5 2 n
  | none =>
    let s : State := { s with mill.lanes := tput (0, 0) s.mill.lanes lane (0, 0) }
    let x := s.job n
    let r := withBand x.sent x.sentAhead b
    s.setJob n { x with sent := r.1, sentAhead := r.2 }

/-! ## The front-end Tally (R127) -/

/-- Whether a sensor's frame N − 1 is used: by its own tracks or by a flow job (R128, R129). -/
def State.usesPrev (s : State) (n : Nat) : Bool :=
  s.fb F.MILL_SNS_CTL_KLT_EN n
    || (List.range 16).any (fun j => s.fb F.MILL_FLOW_CTL_ENABLE j && s.f F.MILL_FLOW_CTL_SENSOR j == n)

/-- The front-end Tally advances for the band just completed; at the last band the record comes first and the frame is over. -/
def State.frontDone (s : State) (n f : Nat) (src : Src) : State :=
  let x := s.job n
  let b := x.bands
  if b + 1 < s.snsBands n then
    (s.setJob n { x with bands := b + 1 }).frontAdvance n 1 src.ts
  else
    let other := if s.usesPrev n && !x.first then ((s.src n (f - 1)).map (·.id)).getD 0xFFFFFFFF else 0xFFFFFFFF
    let s := s.snsRecord n f (s.snsOwe n src x.flags x.c0 other) [x.c0, x.c1, x.c2, x.c3, x.list.length]
    ((s.jobNext n 1).frontAdvance n 1 src.ts).snsPay n 64

/-- The track list of the frame at work can be read (R141): the list of frame N is the N-th that the Fermenter writes; frame 0 has none (DEDUCED from
R239, log entry 80). -/
def State.listReady (s : State) (n : Nat) : Bool :=
  !s.fb F.MILL_SNS_CTL_KLT_EN n || decide ((s.job n).next ≤ s.tv (s.f F.MILL_SNS_TRK_TALLY_LIST n))

/-- Whether everything that the next band's front-end advance rests on is there (R127), the tracks apart. -/
def State.frontReady (s : State) (n : Nat) : Bool :=
  let x := s.job n
  let b := x.bands
  let last := b + 1 == s.snsBands n
  x.run && decide ((if last then s.snsBands n else ceilDiv (s.needRows n b) 64) ≤ x.rect)
    && (!s.fb F.MILL_SNS_CTL_PATH_EN n || decide (b < x.sent)) && s.listReady n

/-- The front-end Tally advances once for each band that is complete, after its tracks (R127). -/
def State.frontUp (s : State) (n : Nat) : (fuel : Nat) → State
  | 0 => s
  | m + 1 =>
    let x := s.job n
    match s.src n x.next with
    | none => s
    | some src =>
      if !s.frontReady n then s
      else
        let s := if x.read then s else s.setJob n { x with read := true, list := if x.next = 0 then [] else s.trackList n }
        let l := (s.job n).list.length
        let s := s.runTracks n x.next (64 * (x.bands + 1)) (x.bands + 1 == s.snsBands n) (l + 1)
        (s.frontDone n x.next src).frontUp n m

/-! ## A failed task's result record (R368) -/

/-- The Mill front-end job of a sensor: its frame is INVALID_INPUT, the band counts as done, and the ingest bands it still held are released. -/
def State.failSns (s : State) (n : Nat) : State :=
  let x := s.job n
  match s.src n x.next with
  | none => s
  | some src =>
    if src.absent then s
    else
      let b := s.snsBands n
      let done := if b ≤ x.bands + 1 then b else Nat.max x.rect (x.bands + 1)
      let s := s.setJob n { x with run := true, flags := x.flags ||| 2, rect := done, ahead := [], sent := done, sentAhead := [], held := [] }
      let s : State := { s with mill.lanes := s.mill.lanes.filter (fun e => e.2.1 != n + 1) }
      let s := s.frontRelease n src.ts
      s.frontDone n x.next src

/-- Whether a band's ingest bytes, its own slots and those next to it (R133), meet a poisoned line. -/
def State.ingPoisoned (s : State) (n f b : Nat) : Bool :=
  let bands := s.snsBands n
  ([b - 1, b, b + 1].filter (fun k => decide (k < bands))).any (fun k =>
    let a := s.slotAddr n (f * bands + k)
    s.poisoned a.1 (s.snsTiles n * 8192) || (s.fb F.MILL_SNS_CTL_PATH_C n && s.poisoned a.2 (s.snsTiles n * 16384)))

/-- Whether a level of a sensor job's frame meets a poisoned line. -/
def State.levelPoisoned (s : State) (n f l : Nat) : Bool :=
  let w := s.jobW n l
  let h := s.jobH n l
  s.poisoned (s.snsSlot n f + s.levelOff n l) (planeSize w h + ceilDiv (planeSize w h) 16)

/-- A Mill front-end band task completes on its lane (R127): the band is rectified, with the pyramid rows and corners that rest on it; its tiles cross
the path as long as they find space; the ingest releases and the front-end Tally follow. -/
def millBandDone (n b lane : Nat) (s : State) : State :=
  let s := if tget (0, 0) s.mill.lanes lane = (n + 1, b) then s else s.lanesTake
  let x := s.job n
  if tget (0, 0) s.mill.lanes lane ≠ (n + 1, b) ∨ x.held.any (fun h => h.lane == lane) then s
  else
    match s.src n x.next with
    | none => s
    | some src =>
      let f := x.next
      if s.ingPoisoned n f b then (s.poisonTask n).failSns n
      else
      let s := s.rectNext n f b
      let s := (s.pyrUp n f (s.rowsDone n 0)).cornerList n f
      let s := if s.fb F.MILL_SNS_CTL_PATH_EN n then s.sendBand n f b lane 0
        else { s with mill.lanes := tput (0, 0) s.mill.lanes lane (0, 0) }
      (s.frontRelease n src.ts).frontUp n 64

/-- A held tile crosses the path where it finds space, and those of its band after it (R157): the time it was held is counted. -/
def State.sendHeld (s : State) (n : Nat) (h : PathHold) : State :=
  let x := s.job n
  if !s.pathRoom n x.next (h.band * ceilDiv (s.jobW n 0) 64 + h.col) then s
  else
    let s := s.setJob n { x with held := x.held.filter (fun g => g.lane != h.lane) }
    (s.addSat F.MILL_PATH_HOLD_US ((s.mono - h.since) / 1000)).sendBand n x.next h.band h.lane h.col

/-- Cluster SRAM space frees and the tiles held for it cross the path (R157), the oldest band first. -/
def pathSpaceFreed (n : Nat) (s : State) : State :=
  let x := s.job n
  if x.held.isEmpty then s
  else
    let s := (sortBy (fun (a b : PathHold) => decide (a.band < b.band)) x.held).foldl (fun s h => s.sendHeld n h) s
    (s.frontRelease n (((s.src n x.next).map (·.ts)).getD 0)).frontUp n 64

/-! ## SGM jobs (R147–R155) -/

/-- The left and right camera, the level, and the size of a pair. -/
def State.sgmL (s : State) (p : Nat) : Nat := s.f F.MILL_SGM_CTL_LEFT p
def State.sgmR (s : State) (p : Nat) : Nat := s.f F.MILL_SGM_CTL_RIGHT p
def State.sgmW (s : State) (p : Nat) : Nat := s.jobW (s.sgmL p) (s.f F.MILL_SGM_CTL_LEVEL p)
def State.sgmH (s : State) (p : Nat) : Nat := s.jobH (s.sgmL p) (s.f F.MILL_SGM_CTL_LEVEL p)
def State.sgmBands (s : State) (p : Nat) : Nat := ceilDiv (s.sgmH p) 64

/-- The settings of a pair. -/
def State.sgmCfg (s : State) (p : Nat) : SgmCfg :=
  { dmin := s.f F.MILL_SGM_RANGE_DMIN p, dnum := s.f F.MILL_SGM_RANGE_DNUM p, p1 := s.f F.MILL_SGM_PEN_P1 p,
    p2 := s.f F.MILL_SGM_PEN_P2 p, shift := s.f F.MILL_SGM_PEN_P2_SHIFT p, adapt := s.fb F.MILL_SGM_CTL_ADAPT p,
    uniq := s.f F.MILL_SGM_UNIQ_UNIQ p, tex := s.f F.MILL_SGM_TEX_TEX_THR p, lr := s.fb F.MILL_SGM_CTL_LR_EN p,
    tol := s.f F.MILL_SGM_CTL_LR_TOL p }

/-- Tiles of a pair's planes, the size of its slot and the base of the slot of frame k (Table 6-2). -/
def State.sgmTiles (s : State) (p : Nat) : Nat := ceilDiv (s.sgmW p) 64 * s.sgmBands p
def State.sgmSlotSize (s : State) (p : Nat) : Nat :=
  4096 + s.sgmTiles p * (8192 + 4096 + if s.fb F.MILL_SGM_CTL_DEPTH_EN p then 8192 else 0)
def State.sgmSlot (s : State) (p k : Nat) : Nat :=
  s.pair R.MILL_SGM_OUT_LO R.MILL_SGM_OUT_HI p + k % s.f F.MILL_SGM_CTL_OUT_FRAMES p * s.sgmSlotSize p

/-- Rows of a level of frame k that a sensor job has written. -/
def State.rowsOf (s : State) (n k l : Nat) : Nat :=
  let x := s.job n
  if k < x.next then (if s.fate n k = 1 then s.jobH n l else 0) else if k = x.next ∧ x.run then s.rowsDone n l else 0

/-- A sensor job has no planes for frame k, and never will: absent or skipped. -/
def State.gone (s : State) (n k : Nat) : Bool := s.fate n k == 2 || s.fate n k == 3

/-- An SGM record is written, with its registers and events. -/
def State.sgmRecord (s : State) (p k : Nat) (o : Owed) (c : List Nat) : State :=
  let bytes := millRecord o.id 1 p o.status (s.f F.MILL_SGM_CTL_LEVEL p) o.ts o.flags c o.other o.valid
  let s := (s.wrList (s.sgmSlot p k) bytes).publish 1 (32 + p) true bytes (s.sgmSlot p k)
  let s := (s.setF F.MILL_SGM_LAST_STATUS o.status p).setF F.MILL_SGM_LAST_FLAGS o.flags p
  let s := s.setF F.MILL_SGM_VALID_COUNT (nth 0 c 0) p
  let total := sumN c
  let frac := fun i => if total = 0 then 0 else satU 8 (nth 0 c i * 256 / total)
  let s := (s.setF F.MILL_SGM_CODES_NO_TEXTURE (frac 1) p).setF F.MILL_SGM_CODES_OCCLUDED (frac 2) p
  let s := (s.setF F.MILL_SGM_CODES_RANGE (frac 3) p).setF F.MILL_SGM_CODES_INVALID (frac 4) p
  let s := s.logHidden 0x5 p o.conds [] o.id
  let s := if bitOf o.flags 3 then s.event 0x5 5 p 0 o.status o.id else s
  if bitOf o.flags 1 then s.event 0x5 4 p 0 o.status o.id else s

/-- The record of a pair's frame: of its flags ABSENT says that a source is absent, and BAND_INVALID that a source that is not has a band that is not
valid. -/
def State.sgmOwe (s : State) (p : Nat) (l r : Src) (flags : Nat) : Owed :=
  let full := 2 ^ s.snsBands (s.sgmL p) - 1
  let bad := (!l.absent && l.valid != full) || (!r.absent && r.valid != full)
  s.owe l full (l.valid &&& r.valid) (if bad then flags ||| 2 else flags) r.id (bitOf flags 0 || bitOf flags 3) false (s.beyond 9)

/-- Whether the SGM Tally covers frame k of a pair (R19). -/
def State.sgmOver (s : State) (p k : Nat) : Bool := decide ((k + 1) * s.sgmBands p ≤ s.tv (s.f F.MILL_SGM_TALLY_OUT p))

/-- The SGM Tally. -/
def State.sgmAdvance (s : State) (p amount ts : Nat) : State := s.advance 0x5 (s.f F.MILL_SGM_TALLY_OUT p) amount (some ts)

/-- Whether the first band task of frame k of a pair is ready: the rows of band 0 (and three more) of both cameras. -/
def State.sgmReady (s : State) (p k : Nat) : Bool :=
  let l := s.f F.MILL_SGM_CTL_LEVEL p
  let need := Nat.min (s.sgmH p) 67
  decide (need ≤ s.rowsOf (s.sgmL p) k l) && decide (need ≤ s.rowsOf (s.sgmR p) k l)

/-- Whether a pair's slot for frame k is free. -/
def State.sgmFree (s : State) (p k : Nat) : Bool := s.ringFree (s.f F.MILL_SGM_TALLY_RELEASE p) (s.f F.MILL_SGM_CTL_OUT_FRAMES p) k

/-- The records and advances that a pair owes (R486, R128). -/
def State.sgmPay (s : State) (p : Nat) : (fuel : Nat) → State
  | 0 => s
  | m + 1 =>
    let x := s.job (32 + p)
    match x.owed with
    | [] => s
    | o :: _ =>
      if x.run || !s.sgmFree p x.next then s
      else (((s.sgmRecord p x.next o [0, 0, 0, 0, 0]).paid (32 + p)).sgmAdvance p (s.sgmBands p) o.ts).sgmPay p m

/-- Whether the frames of a pair lie further apart than PAIR_TOL (R147). -/
def State.apart (s : State) (p : Nat) (l r : Src) : Bool := decide (1000 * s.f F.MILL_SGM_PAIR_PAIR_TOL p < gap l.ts r.ts)

/-- Frames of a pair that are not computed, in capture order: unpaired (R147) or overtaken (R126). -/
def State.sgmSettle (s : State) (p : Nat) : (fuel : Nat) → State
  | 0 => s
  | m + 1 =>
    let j := 32 + p
    let x := s.job j
    if !s.fb F.MILL_SGM_CTL_ENABLE p then s
    else
      let k := x.upcoming
      match s.src (s.sgmL p) k, s.src (s.sgmR p) k with
      | some l, some r =>
        let absent := l.absent || r.absent
        let missing := s.gone (s.sgmL p) k || s.gone (s.sgmR p) k
        let unpaired := l.closed && r.closed && (absent || s.apart p l r || missing)
        let late := (List.range 64).any (fun i => s.sgmReady p (k + 1 + i))
        if unpaired then (s.passOver j 2 (s.sgmOwe p l r (8 + b2n absent))).sgmSettle p m
        else if late then
          let o := s.sgmOwe p l r 4
          ((((s.passOver j 3 o).addSat F.MILL_SKIPS_CLASS1).addSat F.MILL_SGM_SKIPS_COUNT 1 p).noteSkip p o).sgmSettle p m
        else s.sgmPay p 64
      | _, _ => s.sgmPay p 64

/-- Whether a pair's next frame can start (R126): its first band task is ready and its slot free. -/
def State.sgmStarts (s : State) (p : Nat) : Bool :=
  let x := s.job (32 + p)
  s.fb F.MILL_SGM_CTL_ENABLE p && !x.run && x.owed.isEmpty && s.sgmReady p x.next && s.sgmFree p x.next
    && (match s.src (s.sgmL p) x.next, s.src (s.sgmR p) x.next with | some l, some r => !s.apart p l r | _, _ => false)

/-- Jobs of one kind that are at work: SGM pairs from 32, flow jobs from 64. -/
def State.atWork (s : State) (base : Nat) : Nat := ((List.range 16).filter (fun p => (s.job (base + p)).run)).length

/-- Free SGM engines take frames that are ready (R125): class 1 has these engines to itself; among the pairs the one whose left frame is oldest, ties to
the lower index (DESIGN CHOICE of log entry 81). -/
def State.sgmTake (s : State) : (fuel : Nat) → State
  | 0 => s
  | m + 1 =>
    let ready := ((List.range 16).filter s.sgmStarts).filterMap (fun p => (s.src (s.sgmL p) (s.job (32 + p)).next).map (fun l => (l.ts, p)))
    match bestBy (fun a b => decide (a.1 < b.1)) ready with
    | none => s
    | some e => if s.engines 9 ≤ s.atWork 32 then s else (s.startFrame (32 + e.2)).sgmTake m

/-- One finished row of a pair is written: disparity, confidence and, where enabled, depth. -/
def State.sgmWriteRow (s : State) (p k y : Nat) (out : List (Nat × Nat)) : State :=
  let w := s.sgmW p
  let base := s.sgmSlot p k + 4096
  let t := s.sgmTiles p
  let fb := s.f F.MILL_SGM_FB_FB p
  let rows := if y + 1 = s.sgmH p then (List.range (64 - y % 64)).map (y + ·) else [y]
  rows.foldl (fun s r =>
    (List.range (ceilDiv w 64)).foldl (fun s i =>
      let px := (List.range 64).map (fun x => nth (out.getLastD (0, 0)) out (64 * i + x))
      let at' := (r / 64 * ceilDiv w 64 + i) * 4096 + r % 64 * 64
      let s := s.wrList (base + 2 * at') (px.flatMap (fun q => leBytes 2 q.1))
      let s := s.wrList (base + t * 8192 + at') (px.flatMap (fun q => leBytes 1 q.2))
      if s.fb F.MILL_SGM_CTL_DEPTH_EN p then
        s.wrList (base + t * 12288 + 2 * at') (px.flatMap (fun q => leBytes 2 (depth fb q.1)))
      else s) s) s

/-- Counts of the outcomes of a row are added to the job. -/
def JobSt.count (x : JobSt) (out : List (Nat × Nat)) : JobSt :=
  let n := fun (c : Nat) => (out.filter (fun q => q.1 == c)).length
  { x with c0 := x.c0 + (out.filter (fun q => decide (q.1 < 0xFFFC))).length, c1 := x.c1 + n 0xFFFF, c2 := x.c2 + n 0xFFFE,
           c3 := x.c3 + n 0xFFFD, c4 := x.c4 + n 0xFFFC }

/-- One row of the pass that selects (R150–R153). -/
def State.sgmRow (s : State) (p k y : Nat) (eight : Bool) : State :=
  let j := 32 + p
  let lv := s.f F.MILL_SGM_CTL_LEVEL p
  let l := s.levelImg (s.sgmL p) k lv
  let r := s.levelImg (s.sgmR p) k lv
  let c := s.sgmCfg p
  let x := s.job j
  let row := passRow c l r y (if eight then -1 else 1) x.path
  let fwd := s.pair R.MILL_SGM_FWD_LO R.MILL_SGM_FWD_HI p
  let sums := (List.range l.w).map (fun i =>
    let sb := sumPaths c (nth [] row i)
    if eight then
      let wd := s.rdNum (fwd + 4 * (y * l.w + i)) 4
      (List.range c.dnum).map (fun d => rebuilt wd d + nth 0 sb d)
    else sb)
  let out := (List.range l.w).map (fun i => outcome c l r sums i y)
  (s.setJob j { x.count out with path := some row }).sgmWriteRow p k y out

/-- One row of the first pass of an 8-path frame: its forward summary (R150). -/
def State.sgmForwardRow (s : State) (p k y : Nat) : State :=
  let j := 32 + p
  let lv := s.f F.MILL_SGM_CTL_LEVEL p
  let l := s.levelImg (s.sgmL p) k lv
  let r := s.levelImg (s.sgmR p) k lv
  let c := s.sgmCfg p
  let x := s.job j
  let fwd := s.pair R.MILL_SGM_FWD_LO R.MILL_SGM_FWD_HI p
  let row := passRow c l r y 1 x.path
  (s.setJob j { x with path := some row }).wrList (fwd + 4 * y * l.w)
    ((List.range l.w).flatMap (fun i => leBytes 4 (forwardWord (sumPaths c (nth [] row i)))))

/-- A band pass of frame k, its rows ready: the first pass of an 8-path frame, top to bottom, advances nothing; the pass that selects
advances the SGM Tally band by band (R150, R155). -/
def State.sgmBand (s : State) (p k b : Nat) (l r : Src) : State :=
  let j := 32 + p
  let eight := s.fb F.MILL_SGM_CTL_PATHS p
  let bands := s.sgmBands p
  let x := s.job j
  let forward := eight && decide (x.bands < bands)
  let s := s.setJob j { x with path := if eight && x.bands == bands then none else x.path }
  let rows := (List.range (Nat.min 64 (s.sgmH p - 64 * b))).map (64 * b + ·)
  if forward then
    let s := rows.foldl (fun s y => s.sgmForwardRow p k y) s
    s.setJob j { s.job j with bands := (s.job j).bands + 1 }
  else
    let s := (if eight then rows.reverse else rows).foldl (fun s y => s.sgmRow p k y eight) s
    let x := s.job j
    if x.bands + 1 < (if eight then 2 * bands else bands) then (s.setJob j { x with bands := x.bands + 1 }).sgmAdvance p 1 l.ts
    else
      let s := s.sgmRecord p k (s.sgmOwe p l r (x.flags &&& 2)) [x.c0, x.c1, x.c2, x.c3, x.c4]
      ((s.jobNext j 1).sgmAdvance p 1 l.ts).sgmPay p 64

/-- The band that a pair's next band pass is to complete (R150, R155). -/
def State.sgmDue (s : State) (p : Nat) : Nat :=
  let n := (s.job (32 + p)).bands
  let bands := s.sgmBands p
  if s.fb F.MILL_SGM_CTL_PATHS p && decide (bands ≤ n) then 2 * bands - 1 - n else n

/-- The SGM pass of a pair fails (R368). -/
def State.failSgm (s : State) (p : Nat) : State :=
  let j := 32 + p
  let x := s.job j
  match s.src (s.sgmL p) x.next, s.src (s.sgmR p) x.next with
  | some l, some r =>
    let n := s.sgmBands p
    let eight := s.fb F.MILL_SGM_CTL_PATHS p
    let s := s.setJob j { x with run := true, flags := x.flags ||| 2, bands := x.bands + 1 }
    if eight ∧ x.bands < n then s
    else if x.bands + 1 < (if eight then 2 * n else n) then s.sgmAdvance p 1 l.ts
    else
      let s := s.sgmRecord p x.next (s.sgmOwe p l r 2) [x.c0, x.c1, x.c2, x.c3, x.c4]
      ((s.jobNext j 1).sgmAdvance p 1 l.ts).sgmPay p 64
  | _, _ => s

/-- An SGM band pass completes on its engine (R150, R155). -/
def sgmBandDone (p b : Nat) (s : State) : State :=
  let s := if (s.job (32 + p)).run then s else s.sgmTake 16
  let k := (s.job (32 + p)).next
  match s.src (s.sgmL p) k, s.src (s.sgmR p) k with
  | some l, some r =>
    let lv := s.f F.MILL_SGM_CTL_LEVEL p
    let need := Nat.min (s.sgmH p) (64 * (b + 1) + 3)
    let ready := decide (need ≤ s.rowsOf (s.sgmL p) k lv) && decide (need ≤ s.rowsOf (s.sgmR p) k lv)
    if !(s.job (32 + p)).run ∨ b ≠ s.sgmDue p ∨ !ready then s
    else if s.levelPoisoned (s.sgmL p) k lv || s.levelPoisoned (s.sgmR p) k lv then (s.poisonTask (32 + p)).failSgm p
    else s.sgmBand p k b l r
  | _, _ => s

/-! ## Flow jobs (R145, R146) -/

/-- A flow job's sensor, bands and slot. -/
def State.flwN (s : State) (f : Nat) : Nat := s.f F.MILL_FLOW_CTL_SENSOR f
def State.flwW (s : State) (f : Nat) : Nat := s.jobW (s.flwN f) (s.f F.MILL_FLOW_CTL_LEVEL f)
def State.flwH (s : State) (f : Nat) : Nat := s.jobH (s.flwN f) (s.f F.MILL_FLOW_CTL_LEVEL f)
def State.flwBands (s : State) (f : Nat) : Nat := ceilDiv (s.flwH f) 64
def State.flwSlot (s : State) (f k : Nat) : Nat :=
  s.pair R.MILL_FLOW_OUT_LO R.MILL_FLOW_OUT_HI f
    + k % s.f F.MILL_FLOW_CTL_OUT_FRAMES f * (4096 + ceilDiv (s.flwW f) 64 * s.flwBands f * 16384)

/-- The flow Tally. -/
def State.flwAdvance (s : State) (f amount ts : Nat) : State := s.advance 0x5 (s.f F.MILL_FLOW_TALLY_OUT f) amount (some ts)

/-- A flow record is written, with its registers and events. -/
def State.flwRecord (s : State) (f k : Nat) (o : Owed) (c : List Nat) : State :=
  let bytes := millRecord o.id 2 f o.status (s.f F.MILL_FLOW_CTL_LEVEL f) o.ts o.flags c o.other o.valid
  let s := (s.wrList (s.flwSlot f k) bytes).publish 1 (48 + f) true bytes (s.flwSlot f k)
  let s := (s.setF F.MILL_FLOW_LAST_STATUS o.status f).setF F.MILL_FLOW_LAST_FLAGS o.flags f
  let s := (s.setF F.MILL_FLOW_INVALID_COUNT (nth 0 c 1) f).logHidden 0x5 f o.conds [] o.id
  if bitOf o.flags 1 then s.event 0x5 4 f 0 o.status o.id else s

/-- The record of a flow job's frame. -/
def State.flwOwe (s : State) (f : Nat) (src : Src) (flags other : Nat) : Owed :=
  s.owe src (2 ^ s.snsBands (s.flwN f) - 1) src.valid flags other (bitOf flags 0 || bitOf flags 7) false (s.beyond 8)

/-- Whether a flow job's slot for frame k is free. -/
def State.flwFree (s : State) (f k : Nat) : Bool := s.ringFree (s.f F.MILL_FLOW_TALLY_RELEASE f) (s.f F.MILL_FLOW_CTL_OUT_FRAMES f) k

/-- Whether the first task of frame k of a flow job is ready: the sensor job has computed frames k − 1 and k. -/
def State.flwReady (s : State) (f k : Nat) : Bool := s.fate (s.flwN f) k == 1 && s.prevOk (s.flwN f) k

/-- The records and advances that a flow job owes (R486, R128). -/
def State.flwPay (s : State) (f : Nat) : (fuel : Nat) → State
  | 0 => s
  | m + 1 =>
    let x := s.job (64 + f)
    match x.owed with
    | [] => s
    | o :: _ =>
      if x.run || !s.flwFree f x.next then s
      else (((s.flwRecord f x.next o [0, 0, 0, 0, 0]).paid (64 + f)).flwAdvance f (s.flwBands f) o.ts).flwPay f m

/-- Frames of a flow job that are not computed, in capture order: absent, without frame N − 1 (R131), or overtaken (R126). -/
def State.flwSettle (s : State) (f : Nat) : (fuel : Nat) → State
  | 0 => s
  | m + 1 =>
    let j := 64 + f
    let n := s.flwN f
    let x := s.job j
    if !s.fb F.MILL_FLOW_CTL_ENABLE f then s
    else
      let k := x.upcoming
      match s.src n k with
      | none => s.flwPay f 64
      | some src =>
        if src.absent then (s.passOver j 2 (s.flwOwe f src 1 0xFFFFFFFF)).flwSettle f m
        else if s.fate n k = 3 ∨ (s.fate n k = 1 ∧ !s.prevOk n k) then (s.passOver j 2 (s.flwOwe f src 128 0xFFFFFFFF)).flwSettle f m
        else if (List.range 64).any (fun i => s.flwReady f (k + 1 + i)) then
          let o := s.flwOwe f src 4 0xFFFFFFFF
          ((((s.passOver j 3 o).addSat F.MILL_SKIPS_CLASS1).addSat F.MILL_FLOW_SKIPS_COUNT 1 f).noteSkip f o).flwSettle f m
        else s.flwPay f 64

/-- Whether a flow job's next frame can start. -/
def State.flwStarts (s : State) (f : Nat) : Bool :=
  let x := s.job (64 + f)
  s.fb F.MILL_FLOW_CTL_ENABLE f && !x.run && x.owed.isEmpty && s.flwReady f x.next && s.flwFree f x.next

/-- Free tracking engines' dense units take frames that are ready, while no sparse-tracking task is (R125); among the flow jobs the one whose frame is
oldest, ties to the lower index (DESIGN CHOICE of log entry 81). -/
def State.flwTake (s : State) : (fuel : Nat) → State
  | 0 => s
  | m + 1 =>
    let ready := ((List.range 16).filter s.flwStarts).filterMap (fun f => (s.src (s.flwN f) (s.job (64 + f)).next).map (fun x => (x.ts, f)))
    match bestBy (fun a b => decide (a.1 < b.1)) ready with
    | none => s
    | some e =>
      if s.engines 8 ≤ s.atWork 64 ∨ (List.range 32).any (fun n => s.fb F.MILL_SNS_CTL_KLT_EN n && s.frontReady n) then s
      else (s.startFrame (64 + e.2)).flwTake m

/-- A pixel of the intermediate field at scratch: u and v as FP32 words, row by row (log entry 26). -/
def State.fieldAt (s : State) (f w x y : Nat) : Nat × Nat :=
  let a := s.pair R.MILL_FLOW_SCR_LO R.MILL_FLOW_SCR_HI f + 8 * (y * w + x)
  (s.rdNum a 4, s.rdNum (a + 4) 4)

/-- One row of flow tiles. -/
def State.flwWriteRow (s : State) (f k y : Nat) (out : List Nat) : State :=
  let w := s.flwW f
  let base := s.flwSlot f k + 4096
  let rows := if y + 1 = s.flwH f then (List.range (64 - y % 64)).map (y + ·) else [y]
  rows.foldl (fun s r =>
    (List.range (ceilDiv w 64)).foldl (fun s i =>
      let px := (List.range 64).map (fun x => nth (out.getLastD 0) out (64 * i + x))
      let at' := (r / 64 * ceilDiv w 64 + i) * 4096 + r % 64 * 64
      s.wrList (base + 4 * at') (px.flatMap (leBytes 4))) s) s

/-- The 32-bit flow word of a pixel (R146). -/
def flowWord (u : Option (Nat × Nat)) : Nat :=
  match u with
  | none => 0x80008000
  | some u =>
    match flowCode u.1, flowCode u.2 with
    | some a, some b => uns 16 a + 65536 * uns 16 b
    | _, _ => 0x80008000

/-- A flow job's frame fails (R368). -/
def State.failFlw (s : State) (f : Nat) : State :=
  let j := 64 + f
  let x := s.job j
  match s.src (s.flwN f) x.next with
  | none => s
  | some src =>
    let s := (List.range (s.flwBands f - 1)).foldl (fun s _ => s.flwAdvance f 1 src.ts) s
    let other := ((s.src (s.flwN f) (x.next - 1)).map (·.id)).getD 0xFFFFFFFF
    ((s.flwRecord f x.next (s.flwOwe f src 2 other) [0, 0, x.c2, 0, 0]).jobNext j 1 |>.flwAdvance f 1 src.ts).flwPay f 64

/-- A dense-flow level completes (R145, R146); at the finest one the flow Tally advances once per band. -/
def flowLevelDone (f level : Nat) (s : State) : State :=
  let s := if (s.job (64 + f)).run then s else s.flwTake 16
  let j := 64 + f
  let n := s.flwN f
  let x := s.job j
  let k := x.next
  let fin := s.f F.MILL_FLOW_CTL_LEVEL f
  let top := fin + s.f F.MILL_FLOW_CTL_LEVELS f - 1
  if !x.run ∨ level ≠ x.level.getD top then s
  else
      match s.src n k with
      | none => s
      | some src =>
        if s.levelPoisoned n (k - 1) level || s.levelPoisoned n k level then (s.poisonTask (48 + f)).failFlw f
        else
        let prev := s.levelImg n (k - 1) level
        let cur := s.levelImg n k level
        let cw := s.jobW n (level + 1)
        let ch := s.jobH n (level + 1)
        let start := fun (px py : Nat) =>
          if level = top then (0, 0)
          else
            let c := s.fieldAt f cw (Nat.min ((px + 4) / 2) (cw - 1)) (Nat.min ((py + 4) / 2) (ch - 1))
            (fp32.mul (fp32.ofInt 2) c.1, fp32.mul (fp32.ofInt 2) c.2)
        let ps := patches prev cur (s.f F.MILL_FLOW_CTL_ITER f) (s.f F.MILL_FLOW_THR_EIG_THR f) (s.f F.MILL_FLOW_THR_RES_THR f) start
        let acc := ps.filterMap id
        let px := fun (y : Nat) => (List.range cur.w).map (fun i => pixelFlow acc i y)
        let rej := x.c2 + (ps.filter (·.isNone)).length
        if level ≠ fin then
          let scr := s.pair R.MILL_FLOW_SCR_LO R.MILL_FLOW_SCR_HI f
          let s := (List.range cur.h).foldl (fun s y =>
            s.wrList (scr + 8 * y * cur.w) ((px y).flatMap (fun u => leBytes 4 (u.getD (0, 0)).1 ++ leBytes 4 (u.getD (0, 0)).2))) s
          s.setJob j { x with level := some (level - 1), c2 := rej }
        else
          let rows := (List.range cur.h).map (fun y => (y, (px y).map flowWord))
          let s := rows.foldl (fun s r => s.flwWriteRow f k r.1 r.2) s
          let bad := sumN (rows.map (fun r => (r.2.filter (· == 0x80008000)).length))
          let b := s.flwBands f
          let s := (List.range (b - 1)).foldl (fun s _ => s.flwAdvance f 1 src.ts) s
          let other := ((s.src n (k - 1)).map (·.id)).getD 0xFFFFFFFF
          let s := s.flwRecord f k (s.flwOwe f src 0 other) [cur.w * cur.h - bad, bad, rej, 0, 0]
          ((s.jobNext j 1).flwAdvance f 1 src.ts).flwPay f 64

/-- What the Mill does as Tallies advance: engines take ready tasks, front-end Tallies follow, frames not computed are settled (R125–R131, R486). -/
def State.millSettle (s : State) : State :=
  let s := s.lanesTake
  let s := (List.range 32).foldl (fun s n => (s.frontUp n 64).snsSettle n 64) s
  let s := (s.sgmTake 16)
  let s := (List.range 16).foldl (fun s p => s.sgmSettle p 64) s
  let s := s.flwTake 16
  let s := (List.range 16).foldl (fun s f => s.flwSettle f 64) s
  ((s.lanesTake).sgmTake 16).flwTake 16

/-! ## Meanings -/

/-- MILL_BAND_DONE (R127). -/
def execMillBandDone (n b lane : Nat) (s : State) : Host.Outcome State Fault Refusal := done (whenUp (millBandDone n b lane) s)
/-- PATH_SPACE_FREED (R157). -/
def execPathSpaceFreed (n : Nat) (s : State) : Host.Outcome State Fault Refusal := done (whenUp (pathSpaceFreed n) s)
/-- SGM_BAND_DONE (R150, R155). -/
def execSgmBandDone (p b : Nat) (s : State) : Host.Outcome State Fault Refusal := done (whenUp (sgmBandDone p b) s)
/-- FLOW_LEVEL_DONE (R145, R146). -/
def execFlowLevelDone (f level : Nat) (s : State) : Host.Outcome State Fault Refusal := done (whenUp (flowLevelDone f level) s)

end Sys2Proof.Machine
end

