-- ==== Sys2Proof/Machine/TensorNet.lean ====
section
/-!
DEFINITION. What a network computes (R161–R176, R186, R188, R190): the weight tiles of a body, the rows of each layer's tensor that
a band's output rests on, the matrix engine, the epilogue, the vector operators and KEYPOINT_DECODE. A network's state is the rows formed so far of
each tensor; a tensor is named by its position: its layer's index, or the number of layers for the converted input. What Table 7-9 has no field for is
settled as log entries 82 and 83 say.
-/

namespace Sys2Proof.Machine
open Sys2Proof

/-! ## Entries and shapes (R188, R189) -/

/-- The size of a tensor (R188): images, rows, columns, channels. Its rows are numbered through all its images. -/
structure Shp where
  n : Nat := 1
  h : Nat := 0
  w : Nat := 0
  c : Nat := 0
deriving DecidableEq, Repr

/-- Operators with weights: CONV2D, DWCONV2D, DECONV2D, MATMUL and BMATMUL. -/
def Layer.weighted (l : Layer) : Bool := decide (1 ≤ l.op ∧ l.op ≤ 5)

/-- Both operands integer: accumulation in INT32 (R169). -/
def Layer.ints (l : Layer) : Bool := decide (1 ≤ l.wfmt ∧ l.wfmt ≤ 4 ∧ 1 ≤ l.afmt ∧ l.afmt ≤ 4)

/-- Whether tensors of a format are block-scaled (R166). -/
def blockScaled (fmt : Nat) (block : Bool) : Bool := fmt == 7 || (block && decide (8 ≤ fmt ∧ fmt ≤ 11))

/-- A stride or a count that is used as a divisor. -/
def atLeast1 (n : Nat) : Nat := Nat.max 1 n

/-- The rows of a window that lie before its centre (DESIGN CHOICE of log entry 83: the window is centred, and the result has one element for each
`stride` of the input). -/
def before (k dil : Nat) : Nat := (k - 1) * dil / 2

/-- The rows of a tensor, through all its images. -/
def Shp.rows (a : Shp) : Nat := a.n * a.h

/-- The four dimensions in order, and a size from them. -/
def Shp.dims (a : Shp) : List Nat := [a.n, a.h, a.w, a.c]
def Shp.ofDims (l : List Nat) : Shp := { n := nth 0 l 0, h := nth 0 l 1, w := nth 0 l 2, c := nth 0 l 3 }

/-- The axis that a TRANSPOSE puts at axis j of its result: those that Config names, where they are a permutation, else none moves. -/
def transposeAxis (i j : Nat) : Nat := let p := Config.permOf i; if sortBy (fun a b => decide (a < b)) p == [0, 1, 2, 3] then nth j p j else j

/-- The axis, first index and length of a SLICE, held inside the input. -/
def sliceAxis (i : Nat) (a : Shp) : Nat × Nat × Nat :=
  let c := Config.sliceOf i a.dims
  let d := nth 0 a.dims (c.1 % 4)
  let lo := Nat.min c.2.1 (d - 1)
  (c.1 % 4, lo, Nat.max 1 (Nat.min c.2.2 (d - lo)))

/-- The size of a layer's result from those of its inputs. -/
def Layer.shape (l : Layer) (i : Nat) (a b : Shp) : Shp :=
  let s := atLeast1 l.stride
  match l.op with
  | 1 => { a with h := ceilDiv a.h s, w := ceilDiv a.w s, c := l.cout }
  | 2 | 6 => { a with h := ceilDiv a.h s, w := ceilDiv a.w s }
  | 3 => { a with h := 2 * a.h, w := 2 * a.w, c := l.cout }
  | 4 => { a with c := l.cout }
  | 5 => { a with c := b.c }
  | 7 => if l.kh = 0 then { a with h := 1, w := 1 } else { a with h := ceilDiv a.h s, w := ceilDiv a.w s }
  | 8 | 9 => { n := Nat.max a.n b.n, h := Nat.max a.h b.h, w := Nat.max a.w b.w, c := Nat.max a.c b.c }
  | 0xA => { a with c := a.c + b.c }
  | 0xB => let c := sliceAxis i a; .ofDims (setNth a.dims c.1 c.2.2)
  | 0x11 => .ofDims ((List.range 4).map (fun j => nth 0 a.dims (transposeAxis i j)))
  | 0xC => { a with h := l.stride * a.h, w := l.stride * a.w }
  | 0x12 => { a with c := 1 }
  | 0x14 => { b with c := a.c }
  | _ => a

/-- The position of the tensor that an input field names: 0xFF is the network input. -/
def WBody.pos (b : WBody) (k : Nat) : Nat := if k = 0xFF then b.top else k

/-- The sizes of all tensors, by position. -/
def WBody.shapes (b : WBody) (inp : Shp) : List Shp :=
  let get := fun (acc : List Shp) (k : Nat) => if k = 0xFF then inp else nth {} acc k
  (List.range b.top).foldl (fun acc i =>
    let l := b.layer i
    acc ++ [l.shape i (get acc l.in0) (get acc l.in1)]) [] ++ [inp]

/-- The positions a layer reads: in0, in1 where it has one; KEYPOINT_DECODE has its uncertainty map in the layer after in1, where that one has 12
channels (DESIGN CHOICE of log entry 83). -/
def WBody.inputs (b : WBody) (i : Nat) : List Nat :=
  let l := b.layer i
  [b.pos l.in0] ++ (if l.in1 = 0xFF then [] else [b.pos l.in1])
    ++ (if l.op = 0x13 ∧ l.in1 ≠ 0xFF ∧ l.in1 + 1 < i ∧ (b.layer (l.in1 + 1)).cout = 12 then [l.in1 + 1] else [])

/-- The format of each tensor and whether it is block-scaled: that of the first layer that reads it; the output's own where none does. -/
def WBody.fmts (b : WBody) (out : Nat) : List (Nat × Bool) :=
  (List.range (b.top + 1)).map (fun p =>
    match (List.range b.top).find? (fun i => (b.inputs i).contains p) with
    | some i => ((b.layer i).afmt, blockScaled (b.layer i).afmt (b.layer i).block)
    | none => (out, blockScaled out (b.layer (b.top - 1)).block))

/-! ## The rows that a band rests on -/

/-- The rows of an input (the second where `second`) that rows lo to hi − 1 of a layer's result rest on. -/
def Layer.rows (l : Layer) (nms : Nat) (src : Shp) (second : Bool) (lo hi : Nat) : Nat × Nat :=
  let s := atLeast1 l.stride
  let all := (0, src.rows)
  let cap := fun (r : Nat × Nat) => (Nat.min r.1 src.rows, Nat.min r.2 src.rows)
  let window := cap (lo * s - before l.kh l.dil, (hi - 1) * s + (l.kh - 1) * l.dil + 1 - before l.kh l.dil)
  if hi ≤ lo then (0, 0)
  else if src.n ≠ 1 then all
  else
    match l.op with
    | 1 => window
    | 2 | 6 => cap (lo * s - before l.kh 1, (hi - 1) * s + l.kh - before l.kh 1)
    | 7 => if l.kh = 0 then all else cap (lo * s - before l.kh 1, (hi - 1) * s + l.kh - before l.kh 1)
    | 3 => cap ((lo + (l.kh - 2) / 2 + 2 - l.kh) / 2, (hi - 1 + (l.kh - 2) / 2) / 2 + 1)
    | 8 | 9 => if src.h = 1 then (0, 1) else cap (lo, hi)
    | 4 | 5 | 0xA | 0xD | 0xE | 0xF | 0x10 | 0x12 => cap (lo, hi)
    | 0xC => cap (lo / s - 1, (hi - 1) / s + 3)
    | 0x13 => cap ((lo - nms) / 8 - 1, (hi - 1 + nms) / 8 + 2)
    | 0x14 => if second then cap (lo, hi) else all
    | _ => all

/-- Both ranges of rows. -/
def joinRows (a b : Nat × Nat) : Nat × Nat :=
  if b.2 ≤ b.1 then a else if a.2 ≤ a.1 then b else (Nat.min a.1 b.1, Nat.max a.2 b.2)

/-- The rows of every tensor that rows lo to hi − 1 of the output rest on, by position; KEYPOINT_DECODE also reads the mask 8 rows around (R186). -/
def WBody.need (b : WBody) (shapes : List Shp) (nms lo hi : Nat) : List (Nat × Nat) :=
  let start := setNth (List.replicate (b.top + 1) (0, 0)) (b.top - 1) (lo, hi)
  let decode := (b.layer (b.top - 1)).op == 0x13
  let h := (nth {} shapes b.top).h
  let start := if decode then setNth start b.top (lo - 8, Nat.min h (hi + 8)) else start
  (List.range b.top).reverse.foldl (fun acc i =>
    let l := b.layer i
    let r := nth (0, 0) acc i
    (b.inputs i).foldl (fun acc p =>
      setNth acc p (joinRows (nth (0, 0) acc p) (l.rows nms (nth {} shapes p) (p == b.pos l.in1 && l.in1 != 0xFF) r.1 r.2))) acc) start

/-! ## Weights, scales and parameters in a body (R190) -/

/-- The reduction length K and the columns N of one group of a layer with weights (R171). -/
def Layer.kDim (l : Layer) (a : Shp) : Nat :=
  match l.op with
  | 1 | 3 => l.kh * l.kw * (l.cin / atLeast1 l.groups)
  | 2 => l.kh * l.kw
  | 5 => a.c
  | _ => l.cin
def Layer.nDim (l : Layer) (a b : Shp) : Nat :=
  match l.op with
  | 1 | 3 => l.cout / atLeast1 l.groups
  | 2 => a.c
  | 5 => b.c
  | _ => l.cout

/-- The groups that a layer's weights are kept for, each with its own tiles (log entry 83). -/
def Layer.groupsOf (l : Layer) : Nat := if l.op = 1 ∨ l.op = 3 then atLeast1 l.groups else 1

/-- The tile of the mode a layer runs in: that of its wider operand (R169, Table 7-2). -/
def Layer.tile (l : Layer) : Nat × Nat := tileOf (Nat.max (formOf l.wfmt).width (formOf l.afmt).width)

/-- The place of element (k, n) of a group's weights in the body, in bits: tiles ordered by column, then by K; in a tile by row. -/
def Layer.weightBit (l : Layer) (kd nd g k n : Nat) : Nat :=
  let t := l.tile
  let w := (formOf l.wfmt).width
  let kt := ceilDiv kd t.1
  let at' := ((if l.op = 2 then 0 else g) * ceilDiv nd t.2 + n / t.2) * kt + k / t.1
  8 * l.woff + (at' * t.1 * t.2 + k % t.1 * t.2 + n % t.2) * w

/-- `w` bits of a body from a bit on. -/
def WBody.bits (b : WBody) (bit w : Nat) : Nat := b.field (bit / 8) 4 / 2 ^ (bit % 8) % 2 ^ w

/-- A word of a body. -/
def WBody.word (b : WBody) (off : Nat) : Nat := b.field off 4

/-- Where a layer's scale plane begins: the planes follow the weight tiles, layer by layer (R189). -/
def WBody.planeOff (b : WBody) (shapes : List Shp) (i : Nat) : Nat :=
  let size := fun (j : Nat) =>
    let l := b.layer j
    let a := nth {} shapes (b.pos l.in0)
    if l.weighted && blockScaled l.wfmt l.block then l.groupsOf * l.nDim a (nth {} shapes (b.pos l.in1)) * ceilDiv (l.kDim a) 32 else 0
  b.layers.foldl (fun m l => Nat.max m (l.woff + l.wlen)) (64 + 32 * b.top) + sumN ((List.range i).map size)

/-! ## A network at work -/

/-- A network with the rows formed so far: its body, the sizes and formats of its tensors, the rows, and how K was split. -/
structure TEnv where
  body : WBody
  shapes : List Shp
  fmts : List (Nat × Bool)
  acts : List Act
  splits : List KSplit

def TEnv.shp (e : TEnv) (p : Nat) : Shp := nth {} e.shapes p
def TEnv.fmt (e : TEnv) (p : Nat) : Nat × Bool := nth (3, false) e.fmts p

/-- A row of a tensor. -/
def TEnv.row (e : TEnv) (p y : Nat) : ActRow := let a := nth {} e.acts p; nth {} a.rows (y - a.first)

/-- An element's code and value (R161, R166). -/
def TEnv.code (e : TEnv) (p y x c : Nat) : Nat := nth 0 (e.row p y).codes (x * (e.shp p).c + c)
def TEnv.val (e : TEnv) (p y x c : Nat) : Fv :=
  let f := e.fmt p
  if f.2 then blockValue (formOf f.1) (nth 127 (e.row p y).scales (x * ceilDiv (e.shp p).c 32 + c / 32)) (e.code p y x c)
  else (formOf f.1).dec (e.code p y x c)

/-- An element as an integer. -/
def TEnv.int (e : TEnv) (p y x c : Nat) : Int := (formOf (e.fmt p).1).int' (e.code p y x c)

/-- What one product of a layer with weights reads: an element, one outside the image, or nothing (a transposed convolution's gaps). -/
inductive Tap where
  | elem (y x c : Nat)
  | outside
  | gap
deriving DecidableEq, Repr

/-- The image and the row in it of row y of a tensor of `h` rows an image. -/
def imageRow (h y : Nat) : Nat × Nat := (y / Nat.max 1 h, y % Nat.max 1 h)

/-- Where element k of the reduction of output (y, x), group g, lies in one image of the input (R171, R190: the order is (ky, kx, c)). -/
def Layer.tapIn (l : Layer) (a : Shp) (g k y x : Nat) : Tap :=
  let cg := if l.op = 2 then 1 else l.cin / atLeast1 l.groups
  let ky := k / atLeast1 (l.kw * cg)
  let kx := k / atLeast1 cg % atLeast1 l.kw
  let c := g * cg + k % atLeast1 cg
  match l.op with
  | 1 | 2 =>
    let dil := if l.op = 2 then 1 else l.dil
    let s := atLeast1 l.stride
    let py := y * s + ky * dil
    let px := x * s + kx * dil
    let by' := before l.kh dil
    let bx := before l.kw dil
    if py < by' ∨ px < bx ∨ a.h + by' ≤ py ∨ a.w + bx ≤ px then .outside else .elem (py - by') (px - bx) c
  | 3 =>
    let py := y + (l.kh - 2) / 2
    let px := x + (l.kw - 2) / 2
    if py < ky ∨ px < kx ∨ (py - ky) % 2 = 1 ∨ (px - kx) % 2 = 1 ∨ 2 * a.h ≤ py - ky ∨ 2 * a.w ≤ px - kx then .gap
    else .elem ((py - ky) / 2) ((px - kx) / 2) c
  | _ => .elem y x k

/-- The same for row y of the whole result, whose images have `h` rows. -/
def Layer.tap (l : Layer) (a : Shp) (h g k y x : Nat) : Tap :=
  let q := imageRow h y
  match l.tapIn a g k q.2 x with
  | .elem r c d => .elem (q.1 * a.h + r) c d
  | t => t

/-! ## The matrix engine (R168–R170) -/

/-- The operands of product k in column n: the weight (or, of BMATMUL, the second input's element) and the activation, as integers and as values. -/
def TEnv.weightInt (e : TEnv) (i kd nd g k n y : Nat) : Int :=
  let l := e.body.layer i
  if l.op = 5 then e.int (e.body.pos l.in1) y k n else (formOf l.wfmt).int' (e.body.bits (l.weightBit kd nd g k n) (formOf l.wfmt).width)
def TEnv.weightVal (e : TEnv) (i kd nd g k n y : Nat) : Fv :=
  let l := e.body.layer i
  if l.op = 5 then e.val (e.body.pos l.in1) y k n
  else
    let code := e.body.bits (l.weightBit kd nd g k n) (formOf l.wfmt).width
    if blockScaled l.wfmt l.block then
      blockValue (formOf l.wfmt) (e.body.bits (8 * (e.body.planeOff e.shapes i + ((if l.op = 2 then 0 else g) * nd + n) * ceilDiv kd 32 + k / 32)) 8) code
    else (formOf l.wfmt).dec code
def TEnv.tapInt (e : TEnv) (i : Nat) (t : Tap) : Int :=
  let p := e.body.pos (e.body.layer i).in0
  match t with
  | .elem y x c => e.int p y x c
  | .outside => (formOf (e.fmt p).1).int' (Config.netPad i (e.fmt p).1)
  | .gap => 0
def TEnv.tapVal (e : TEnv) (i : Nat) (t : Tap) : Fv :=
  let p := e.body.pos (e.body.layer i).in0
  match t with
  | .elem y x c => e.val p y x c
  | .outside => (formOf (e.fmt p).1).dec (Config.netPad i (e.fmt p).1)
  | .gap => .fin false 0 1

/-- Whether parts of K are a split of `n` tiles: each tile in one part, each part in increasing order. -/
def splitOk (parts : List (List Nat)) (n : Nat) : Bool :=
  parts.all (fun p => p != [] && sortBy (fun a b => decide (a < b)) p == p)
    && sortBy (fun a b => decide (a < b)) parts.flatten == List.range n

/-- The parts of K of a row of a layer, in the order in which they complete (R170). -/
def TEnv.parts (e : TEnv) (i y n : Nat) : List (List Nat) :=
  match e.splits.find? (fun s => s.layer == i && s.row == y) with
  | some s => if splitOk s.parts n then s.parts else [List.range n]
  | none => [List.range n]

/-- The accumulator of one output element over the tiles of one part: the K products of a cycle at a time (R170). A DWCONV2D, which the vector engine
runs, takes one product at a time. -/
def TEnv.partInt (e : TEnv) (i kd nd g n y x : Nat) (tiles : List Nat) : Int × Nat :=
  let l := e.body.layer i
  let a := e.shp (e.body.pos l.in0)
  let kt := if l.op = 2 then 1 else l.tile.1
  tiles.foldl (fun acc t =>
    accInt acc ((List.range (Nat.min kt (kd - kt * t))).map (fun j =>
      (e.weightInt i kd nd g (kt * t + j) n y, e.tapInt i (l.tap a (e.shp i).h g (kt * t + j) y x))))) (0, 0)
def TEnv.partVal (e : TEnv) (i kd nd g n y x : Nat) (tiles : List Nat) : Nat :=
  let l := e.body.layer i
  let a := e.shp (e.body.pos l.in0)
  let kt := if l.op = 2 then 1 else l.tile.1
  tiles.foldl (fun acc t =>
    accFloat acc ((List.range (Nat.min kt (kd - kt * t))).map (fun j =>
      (e.weightVal i kd nd g (kt * t + j) n y, e.tapVal i (l.tap a (e.shp i).h g (kt * t + j) y x))))) 0

/-- The accumulator of an output element: the parts combined in saturating INT32 or in FP32, in the order in which they completed (R170). -/
def TEnv.accI (e : TEnv) (i kd nd g n y x : Nat) (parts : List (List Nat)) : Int × Nat :=
  match parts.map (e.partInt i kd nd g n y x) with
  | [] => (0, 0)
  | a :: l => l.foldl (fun acc v => addSat32 (acc.1, acc.2 + v.2) v.1) a
def TEnv.accF (e : TEnv) (i kd nd g n y x : Nat) (parts : List (List Nat)) : Nat :=
  match parts.map (e.partVal i kd nd g n y x) with
  | [] => 0
  | a :: l => l.foldl fp32.add a

/-! ## The epilogue (R165–R167) -/

/-- A pixel of a result: its codes, the scales of its blocks, the saturations and the NaN conversions that count. -/
structure Pix where
  codes : List Nat := []
  scales : List Nat := []
  sat : Nat := 0
  nan : Nat := 0
deriving DecidableEq, Repr

/-- Values converted into a tensor's format: one by one (R162–R164), or block by block, where saturations do not count (R167). -/
def finishPix (fmt : Nat × Bool) (vs : List Fv) : Pix :=
  let f := formOf fmt.1
  if fmt.2 then
    let q := (List.range (ceilDiv vs.length 32)).map (fun i => quantBlock f (((vs.drop (32 * i)).take 32).map fp32.enc))
    { codes := q.flatMap (·.2), scales := q.map (·.1), nan := (vs.filter (· == .nan)).length }
  else
    let q := vs.map f.conv
    { codes := q.map (·.code), sat := (q.filter (·.sat)).length, nan := (q.filter (·.nan)).length }

/-- Per-channel parameters (R190): bias, mult, shift of the integer path; scale and bias (FP32) of the float path. -/
def WBody.param (b : WBody) (l : Layer) (ch : Nat) : Nat × Nat × Nat :=
  (b.word (l.poff + 12 * ch), b.word (l.poff + 12 * ch + 4), b.word (l.poff + 12 * ch + 8) % 256)

/-- Whether a layer's output takes the integer path (R165): integer operands, one of the three activations of that path, an integer output. -/
def Layer.intPath (l : Layer) (out : Nat) : Bool := l.ints && decide (l.act ≤ 2) && decide (1 ≤ out ∧ out ≤ 6)

/-- The integer path for a pixel's INT32 accumulators. -/
def WBody.epiInts (b : WBody) (l : Layer) (w : Nat) (sg : Bool) (accs : List Int) : Pix :=
  let q := (List.range accs.length).map (fun ch =>
    let p := b.param l ch
    let r := epiInt w sg l.zero (nth 0 accs ch) (sgn 32 p.1) (sgn 32 p.2.1) p.2.2
    (uns w (actInt l.act l.zero l.lo l.hi r.1), r.2))
  { codes := q.map (·.1), sat := sumN (q.map (·.2)) }

/-- The float path for a pixel's FP32 accumulators. -/
def WBody.epiFloats (b : WBody) (l : Layer) (fmt : Nat × Bool) (accs : List Nat) : Pix :=
  finishPix fmt ((List.range accs.length).map (fun ch =>
    let p := b.param l ch
    fp32.dec (actFloat l.act l.lo l.hi (fma32 (nth 0 accs ch) p.1 p.2.1))))

/-- A pixel of a layer with weights: its accumulators and their epilogue. An integer layer on the float path has its accumulators converted to FP32
first. -/
def TEnv.weightPix (e : TEnv) (i y x : Nat) : Pix :=
  let l := e.body.layer i
  let a := e.shp (e.body.pos l.in0)
  let kd := l.kDim a
  let nd := l.nDim a (e.shp (e.body.pos l.in1))
  let parts := if l.op = 2 then [List.range kd] else e.parts i y (ceilDiv kd l.tile.1)
  let chans := (List.range l.groupsOf).flatMap (fun g => (List.range nd).map (fun n => (if l.op = 2 then n else g, n)))
  let fmt := e.fmt i
  if l.ints then
    let accs : List (Int × Nat) := chans.map (fun (c : Nat × Nat) => e.accI i kd nd c.1 c.2 y x parts)
    let vs : List Int := accs.map (fun a => a.1)
    let p : Pix := match formOf fmt.1 with
      | .int w sg => if l.intPath fmt.1 then e.body.epiInts l w sg vs else e.body.epiFloats l fmt (vs.map fp32.ofInt)
      | _ => e.body.epiFloats l fmt (vs.map fp32.ofInt)
    { p with sat := p.sat + sumN (accs.map (fun a => a.2)) }
  else e.body.epiFloats l fmt (chans.map (fun (c : Nat × Nat) => e.accF i kd nd c.1 c.2 y x parts))

/-! ## Vector operators (R172, R174, R175, Table 7-7) -/

/-- The exponentials of a softmax over a list of FP32 patterns, and their quotients by their sum. -/
def softmax (l : List Nat) : List Nat :=
  let m := fp32.enc ((l.map fp32.dec).foldl Fv.max' (.inf true))
  let es := l.map (fun v => VFn.exp.run (fp32.sub v m))
  let inv := VFn.recip.run (es.foldl fp32.add 0)
  es.map (fun v => fp32.mul v inv)

/-- A list scaled to unit L2 length, in FP32. -/
def l2norm (l : List Nat) : List Nat :=
  let inv := VFn.rsqrt.run (l.foldl (fun a v => fma32 v v a) 0)
  l.map (fun v => fp32.mul v inv)

/-- A map sampled bilinearly at (x, y), edges clamped, rounded once in FP32. -/
def bilinear (h w : Nat) (get : Nat → Nat → Fv) (x y : Fv) : Fv :=
  if x == .nan || y == .nan then .nan
  else
    let hold := fun (n : Nat) (v : Fv) => if v.lt (Fv.ofInt 0) then Fv.ofInt 0 else if (Fv.ofInt ((n - 1 : Nat) : Int)).lt v then Fv.ofInt ((n - 1 : Nat) : Int) else v
    let x := hold w x
    let y := hold h y
    let x0 := (x.floorMul 1).toNat
    let y0 := (y.floorMul 1).toNat
    let fx := x.add (Fv.ofInt (-(x0 : Int)))
    let fy := y.add (Fv.ofInt (-(y0 : Int)))
    let one := Fv.ofInt 1
    let x1 := Nat.min (x0 + 1) (w - 1)
    let y1 := Nat.min (y0 + 1) (h - 1)
    let gx := one.add fx.neg
    let gy := one.add fy.neg
    ((((get y0 x0).mul (gx.mul gy)).add ((get y0 x1).mul (fx.mul gy))).add (((get y1 x0).mul (gx.mul fy)).add ((get y1 x1).mul (fx.mul fy)))).r32

/-- A sum or a product of two elements in their own format (R164, R172, R175): an integer operation saturates to the vector engine's integer format of
that width (8 bits for a 4-bit element: DESIGN CHOICE of log entry 83), FX32 by its own arithmetic, floating formats in FP32. The number of saturations
comes with it. -/
def arith (fmt : Nat) (product : Bool) (a b : Int) (u v : Fv) : Fv × Nat :=
  match formOf fmt with
  | .int w sg =>
    let exact := if product then a * b else a + b
    let r := satTo (Nat.max 8 w) sg exact
    (Fv.ofInt ((Form.int (Nat.max 8 w) sg).int' r.code), b2n r.sat)
  | .fx _ _ =>
    let exact := if product then rnaDiv (a * b) 65536 else a + b
    let r := if product then fx32Mul a b else fx32Add a b
    (Fv.ofRat r 65536, b2n (r != exact))
  | _ => ((if product then u.mul v else u.add v).r32, 0)

/-- The elements of a pooling window that lie in the image. -/
def TEnv.window (e : TEnv) (i y x c : Nat) : List Fv :=
  let l := e.body.layer i
  let p := e.body.pos l.in0
  let a := e.shp p
  let s := atLeast1 l.stride
  let m := imageRow (e.shp i).h y
  let y := m.2
  let at' := fun (r q : Nat) => e.val p (m.1 * a.h + r) q c
  if l.kh = 0 then (List.range a.h).flatMap (fun r => (List.range a.w).map (at' r))
  else
    let ys := ((List.range l.kh).map (fun k => y * s + k)).filter (fun v => decide (before l.kh 1 ≤ v) && decide (v < a.h + before l.kh 1))
    let xs := ((List.range l.kw).map (fun k => x * s + k)).filter (fun v => decide (before l.kw 1 ≤ v) && decide (v < a.w + before l.kw 1))
    ys.flatMap (fun r => xs.map (fun q => at' (r - before l.kh 1) (q - before l.kw 1)))

/-- The element of a tensor at four indices N, H, W, C. -/
def TEnv.at4 (e : TEnv) (p : Nat) (l : List Nat) : Fv := e.val p (nth 0 l 0 * (e.shp p).h + nth 0 l 1) (nth 0 l 2) (nth 0 l 3)

/-- The four indices in a SLICE's or TRANSPOSE's input of the element of its result at four indices. -/
def moved (op i : Nat) (a : Shp) (l : List Nat) : List Nat :=
  if op = 0xB then let c := sliceAxis i a; setNth l c.1 (c.2.1 + nth 0 l c.1)
  else (List.range 4).map (fun k => match (List.range 4).find? (fun j => transposeAxis i j == k) with | some j => nth 0 l j | none => 0)

/-- The source position of index j of a RESIZE's result by factor `f`, held within one pixel of j / f (Config gives it inside that). -/
def resizePos (i f j : Nat) : Fv :=
  let lo : Int := 2 * f * ((j / f : Nat) : Int) - 2 * f
  Fv.ofRat (max lo (min (lo + 4 * f) (Config.resizeAt i f j))) (2 * f)

/-- A pixel normalised over its channels in FP32 (LAYERNORM): mean and variance by sums in channel order, ε from Config, then the layer's per-channel
scale and bias (R190; DESIGN CHOICE of log entry 83). -/
def layerNorm (b : WBody) (l : Layer) (i : Nat) (px : List Nat) : List Nat :=
  let inv := VFn.recip.run (fp32.ofInt (px.length : Nat))
  let mean := fp32.mul (px.foldl fp32.add 0) inv
  let d := px.map (fun v => fp32.sub v mean)
  let var := fp32.mul (d.foldl (fun a v => fma32 v v a) 0) inv
  let r := VFn.rsqrt.run (fp32.add var (Config.layerEps i))
  (List.range d.length).map (fun ch => let p := b.word (l.poff + 12 * ch); fma32 (fp32.mul (nth 0 d ch) r) p (b.word (l.poff + 12 * ch + 4)))

/-- The values of a pixel of a vector operator, with the saturations of its arithmetic. -/
def TEnv.vecVals (e : TEnv) (i y x : Nat) : List (Fv × Nat) :=
  let l := e.body.layer i
  let p := e.body.pos l.in0
  let q := e.body.pos l.in1
  let a := e.shp p
  let b := e.shp q
  let c := (e.shp i).c
  let plain := fun (vs : List Fv) => vs.map (fun v => (v, 0))
  let px := (List.range a.c).map (fun k => fp32.enc (e.val p y x k))
  match l.op with
  | 6 => plain ((List.range c).map (fun k => (e.window i y x k).foldl Fv.max' (.inf true)))
  | 7 => plain ((List.range c).map (fun k =>
      let w := e.window i y x k
      let m := (w.foldl Fv.add (.fin false 0 1)).div (Fv.ofInt w.length)
      match formOf (e.fmt p).1 with | .int _ _ | .fx _ _ => m | _ => m.r32))
  | 8 | 9 => (List.range c).map (fun k =>
      let m := imageRow (e.shp i).h y
      let at' := fun (s : Shp) => ((if s.n = 1 then 0 else m.1 * s.h) + (if s.h = 1 then 0 else m.2), if s.w = 1 then 0 else x, if s.c = 1 then 0 else k)
      let u := at' a
      let v := at' b
      arith (e.fmt p).1 (l.op == 9) (e.int p u.1 u.2.1 u.2.2) (e.int q v.1 v.2.1 v.2.2) (e.val p u.1 u.2.1 u.2.2) (e.val q v.1 v.2.1 v.2.2))
  | 0xA => plain ((List.range a.c).map (e.val p y x) ++ (List.range b.c).map (e.val q y x))
  | 0xD => plain ((softmax px).map fp32.dec)
  | 0xF => plain ((l2norm px).map fp32.dec)
  | 0x10 => plain ((List.range a.c).map (e.val p y x))
  | 0x12 =>
    let best := (List.range a.c).foldl (fun (m : Nat) k => if (e.val p y x m).lt (e.val p y x k) then k else m) 0
    plain [Fv.ofInt (best : Nat)]
  | 0x14 =>
    let m := (imageRow (e.shp i).h y).1 * a.h
    plain ((List.range c).map (fun k => bilinear a.h a.w (fun r s => e.val p (m + r) s k) (e.val q y x 0) (e.val q y x 1)))
  | 0xC =>
    let m := imageRow (e.shp i).h y
    let f := atLeast1 l.stride
    let px := resizePos i f x
    let py := resizePos i f m.2
    let hold := fun (n : Nat) (v : Int) => Nat.min (v.toNat) (n - 1)
    plain ((List.range c).map (fun k =>
      if Config.resizeLinear i then bilinear a.h a.w (fun r s => e.val p (m.1 * a.h + r) s k) px py
      else e.val p (m.1 * a.h + hold a.h (py.floorMul 1)) (hold a.w (px.floorMul 1)) k))
  | 0xE => plain ((layerNorm e.body l i px).map fp32.dec)
  | _ =>
    let m := imageRow (e.shp i).h y
    plain ((List.range c).map (fun k => e.at4 p (moved l.op i a [m.1, m.2, x, k])))

/-- The activation of a vector operator's layer: identity, ReLU and clamp in the layer's own format, which they do not leave (R172), the others in FP32. -/
def Layer.actOn (l : Layer) (v : Fv) : Fv :=
  match l.act with
  | 0 => v
  | 1 => if v.lt (Fv.ofInt 0) then Fv.ofInt 0 else v
  | 2 => if v.lt (Fv.ofInt l.lo) then Fv.ofInt l.lo else if (Fv.ofInt l.hi).lt v then Fv.ofInt l.hi else v
  | _ => fp32.dec (actFloat l.act l.lo l.hi (fp32.enc v))

/-- A pixel of a layer's result. -/
def TEnv.pix (e : TEnv) (i y x : Nat) : Pix :=
  let l := e.body.layer i
  if l.weighted then e.weightPix i y x
  else
    let vs := e.vecVals i y x
    let r := finishPix (e.fmt i) (vs.map (fun v => l.actOn v.1))
    { r with sat := r.sat + sumN (vs.map (·.2)) }

/-! ## Rows -/

/-- A row from its pixels, with what counts. -/
def rowOf (ps : List Pix) : ActRow × Nat × Nat :=
  ({ codes := ps.flatMap (·.codes), scales := ps.flatMap (·.scales) }, sumN (ps.map (·.sat)), sumN (ps.map (·.nan)))

/-- The next rows of the tensor at a position are formed, up to row `hi`: from row `lo` on where it holds none. The counts so far come along. -/
def TEnv.grow (e : TEnv) (p lo hi : Nat) (row : TEnv → Nat → ActRow × Nat × Nat) (cnt : Nat × Nat) : TEnv × Nat × Nat :=
  let a := nth {} e.acts p
  let first := if a.rows.isEmpty then lo else a.first
  let have' := first + a.rows.length
  (List.range (hi - have')).foldl (fun (r : TEnv × Nat × Nat) k =>
    let v := row r.1 (have' + k)
    let t := nth {} r.1.acts p
    ({ r.1 with acts := setNth r.1.acts p { first := first, rows := t.rows ++ [v.1] } }, r.2.1 + v.2.1, r.2.2 + v.2.2)) (e, cnt)

/-- A converted input row (R181): L, and both channels of C where the network takes three. -/
def inputRow (fmt : Nat × Bool) (chans : Nat) (elem : Nat → Fv) (px : List InPx) : ActRow × Nat × Nat :=
  rowOf (px.map (fun v =>
    finishPix fmt (((List.range chans).map (fun c => nth 0 [v.l, v.c0, v.c1] c)).map (fun u => if v.ok then elem u else .fin false 0 1))))

/-- All layers follow: every row that output rows lo to hi − 1 rest on is formed, with the saturations and NaN conversions of the rows formed now. -/
def TEnv.run (e : TEnv) (nms lo hi : Nat) (inp : List (List InPx)) (elem : Nat → Fv) : TEnv × Nat × Nat :=
  let need := e.body.need e.shapes nms lo hi
  let top := e.body.top
  let r := nth (0, 0) need top
  let r := e.grow top r.1 r.2 (fun e y => inputRow (e.fmt top) (e.shp top).c elem (nth [] inp y)) (0, 0)
  (List.range top).foldl (fun r i =>
    let n := nth (0, 0) need i
    if (r.1.body.layer i).op = 0x13 then r
    else r.1.grow i n.1 n.2 (fun e y => rowOf ((List.range (e.shp i).w).map (e.pix i y))) r.2) r

/-! ## KEYPOINT_DECODE (R186) -/

/-- A keypoint: its pixel, score (FP32), descriptor (128 FP32), and, with an uncertainty map, its covariance (FP32). -/
structure Kp where
  x : Nat
  y : Nat
  score : Nat
  desc : List Nat := []
  cov : Option (Nat × Nat × Nat) := none
deriving DecidableEq, Repr

/-- The score of a level-0 pixel (step 1). -/
def TEnv.score (e : TEnv) (det x y : Nat) : Nat :=
  nth 0 (softmax ((List.range 65).map (fun c => fp32.enc (e.val det (y / 8) (x / 8) c)))) (8 * (y % 8) + x % 8)

/-- Whether a pixel is a keypoint (step 2): `sc` gives the scores and `ok` the mask of an image of w × h pixels. -/
def kpHere (w h thr nms : Nat) (sc : Nat → Nat → Nat) (ok : Nat → Nat → Bool) (x y : Nat) : Bool :=
  let v := fp32.dec (sc x y)
  let better := fun (dx dy : Nat) =>
    let qx := x + dx - nms
    let qy := y + dy - nms
    decide (nms ≤ x + dx ∧ nms ≤ y + dy ∧ qx < w ∧ qy < h)
      && (v.lt (fp32.dec (sc qx qy)) || (!(fp32.dec (sc qx qy)).lt v && fp32.dec (sc qx qy) != .nan && (decide (qy < y) || (qy == y && decide (qx < x)))))
  v != .nan && !v.lt (Fv.ofRat (thr : Nat) 65536)
    && decide (8 ≤ x ∧ 8 ≤ y ∧ x + 8 < w ∧ y + 8 < h)
    && (List.range 17).all (fun dy => (List.range 17).all (fun dx => ok (x + dx - 8) (y + dy - 8)))
    && (nms == 0 || !(List.range (2 * nms + 1)).any (fun dy => (List.range (2 * nms + 1)).any (fun dx => better dx dy)))

/-- The order of a band's list (step 3): by descending score, ties in raster order. -/
def kpBefore (a b : Kp) : Bool :=
  let u := fp32.dec a.score
  let v := fp32.dec b.score
  if v.lt u then true else if u.lt v then false else decide (a.y < b.y) || (a.y == b.y && decide (a.x < b.x))

/-- The descriptor (step 4): the map sampled at ((x − 3.5) / 8, (y − 3.5) / 8), of unit length; zeros stay zeros. -/
def TEnv.desc (e : TEnv) (map x y : Nat) : List Nat :=
  let m := e.shp map
  let at' := fun (v : Nat) => Fv.ofRat (2 * (v : Int) - 7) 16
  let d := (List.range 128).map (fun c => fp32.enc (bilinear m.h m.w (fun r s => e.val map r s c) (at' x) (at' y)))
  if d.all (fun v => v % fp32.sign == 0) then d else l2norm d

/-- The covariance (step 5) from the uncertainty map. -/
def TEnv.cov (e : TEnv) (map x y : Nat) : Nat × Nat × Nat :=
  let q := b2n (decide (4 ≤ x % 8)) + 2 * b2n (decide (4 ≤ y % 8))
  let v := fun (k : Nat) => fp32.enc (e.val map (y / 8) (x / 8) (3 * q + k))
  let two := fp32.ofInt 2
  (VFn.exp.run (fp32.mul two (v 0)), fp32.mul (VFn.tanh.run (v 2)) (VFn.exp.run (fp32.add (v 0) (v 1))), VFn.exp.run (fp32.mul two (v 1)))

/-- The keypoints of level-0 rows lo to hi − 1, in list order: those found. -/
def TEnv.keypoints (e : TEnv) (thr nms lo hi : Nat) (inp : List (List InPx)) : List Kp :=
  let i := e.body.top - 1
  let ins := e.body.inputs i
  let det := nth 0 ins 0
  let map := nth 0 ins 1
  let top := e.shp e.body.top
  let ok := fun (x y : Nat) => (nth {} (nth [] inp y) x).ok
  let px := (List.range (hi - lo)).flatMap (fun k => (List.range top.w).map (fun x => (x, lo + k)))
  let found := px.filter (fun p => kpHere top.w top.h thr nms (e.score det) ok p.1 p.2)
  sortBy kpBefore (found.map (fun p =>
    { x := p.1, y := p.2, score := e.score det p.1 p.2, desc := e.desc map p.1 p.2,
      cov := match ins with | _ :: _ :: u :: _ => some (e.cov u p.1 p.2) | _ => none }))

end Sys2Proof.Machine
end

