-- ==== Sys2Proof/Machine/Tensor.lean ====
section
/-!
DEFINITION. Network instances (R180–R194): inputs from the tile path, bands, result records, weights in staging and held tasks, deadlines. What the
layers compute is in TensorNet.lean; a command brings the core and the order in which split K parts completed (R176).
-/

namespace Sys2Proof.Machine
open Sys2Proof

/-! ## Groups, rates, deadlines -/

/-- The logical clusters of an instance's group that are in service (R180, R199). -/
def State.groupOn (s : State) (i : Nat) : List Nat :=
  (s.places 4).filter (fun l => bitOf (s.f F.TNS_NET_CTL_GROUP (s.insNet i)) l && (s.physOf 4 0 l).isSome)

/-- Frame k runs its fallback for every band (R197). -/
def State.reducedFrame (s : State) (i k : Nat) : Bool :=
  let f := (s.rateFor i k).1
  (k + 1) * f / 65536 == k * f / 65536

/-- DEADLINE in nanoseconds (Table 7-13: 0 selects PERIOD). -/
def State.insDeadline (s : State) (i : Nat) : Nat :=
  let d := s.f F.TNS_INS_DEADLINE_US i
  if d = 0 then s.f F.ING_SNS_PERIOD_NS (s.insSensor i) else 1000 * d

/-- The frame at work has no main network: a page of its weights is lost (R226). -/
def State.mainGone (s : State) (i : Nat) : Bool := match (s.ins i).noMain with | some m => decide (m ≤ (s.ins i).next) | none => false

/-- The band from which the fallback network produces the frame at work: all of a reduced frame or of one without its main network, and those not yet
published at the deadline (R192, R197, R226). -/
def State.insFrom (s : State) (i : Nat) : Option Nat :=
  if s.reducedFrame i (s.ins i).next || s.mainGone i then some 0 else (s.ins i).fbFrom

/-- Whether the fallback produces band b. -/
def State.onFallback (s : State) (i b : Nat) : Bool := match s.insFrom i with | some k => decide (k ≤ b) | none => false

/-! ## Slots (R182) -/

/-- The network of an instance. -/
def State.netOf (s : State) (i : Nat) : Net := nth {} s.bt.img.nets (s.insNet i)

/-- The body that produces band b. -/
def State.bodyOf (s : State) (i b : Nat) : WBody := if s.onFallback i b then (s.netOf i).fb else (s.netOf i).main

/-- Bytes of one output pixel: its channels, padded to a multiple of 4 bytes. -/
def Net.pixel (m : Net) : Nat := ceilDiv (m.chans * (formOf m.fmt).width) 32 * 4

/-- Bytes of a band's output area. -/
def State.areaSize (s : State) (i : Nat) : Nat :=
  if s.fb F.TNS_INS_CTL_KEYPOINTS i then page4 (32 + 160 * s.f F.TNS_INS_KP_MAX_BAND i)
  else
    let m := s.netOf i
    let st := atLeast1 m.stride
    page4 (ceilDiv 64 st * ceilDiv (s.jobW (s.insSensor i) 0) st * m.pixel)

/-- The base of an instance's slot for frame f. -/
def State.insSlot (s : State) (i f : Nat) : Nat :=
  s.pair R.TNS_INS_OUT_LO R.TNS_INS_OUT_HI i
    + f % s.f F.TNS_INS_CTL_OUT_FRAMES i * (4096 + s.snsBands (s.insSensor i) * s.areaSize i)

/-- The base of band b's output area. -/
def State.bandArea (s : State) (i f b : Nat) : Nat := s.insSlot i f + 4096 + b * s.areaSize i

/-- Whether an instance's slot for frame f is released. -/
def State.insFree (s : State) (i f : Nat) : Bool := s.ringFree (s.f F.TNS_INS_TALLY_RELEASE i) (s.f F.TNS_INS_CTL_OUT_FRAMES i) f

/-- The output rows that band b holds: level-0 rows for KEYPOINTS, rows at the output stride for TENSOR. -/
def State.bandRows (s : State) (i b : Nat) : Nat × Nat :=
  let h := s.jobH (s.insSensor i) 0
  if s.fb F.TNS_INS_CTL_KEYPOINTS i then (64 * b, Nat.min h (64 * (b + 1)))
  else
    let st := atLeast1 (s.netOf i).stride
    (ceilDiv (64 * b) st, Nat.min (ceilDiv h st) (ceilDiv (64 * (b + 1)) st))

/-! ## Inputs (R181) -/

/-- An input value in FP32: L × IN_SCALE + IN_BIAS. -/
def State.inputVal (s : State) (i l : Nat) : Fv :=
  (((Fv.ofInt (l : Nat)).mul (fp16.dec (s.f F.TNS_INS_INPUT_IN_SCALE i))).add (fp16.dec (s.f F.TNS_INS_INPUT_IN_BIAS i))).r32

/-- A row of a frame's input as the path has delivered it: L and C of each pixel and its mask bit. Where the task graphs name no buffer for the sensor,
L and the mask are those of the frame slot, the same values (log entry 79). -/
def State.inputRow (s : State) (n f y : Nat) : List InPx :=
  let w := s.jobW n 0
  let m := s.levelImg n f 0
  (List.range w).map (fun x =>
    match s.pathTile n f (y / 64 * ceilDiv w 64 + x / 64) with
    | some a =>
      let o := y % 64 * 64 + x % 64
      let c := s.fb F.MILL_SNS_CTL_PATH_C n
      { ok := bitOf (s.rd (a + 8192 + o / 8)).toNat (o % 8), l := s.rdNum (a + 2 * o) 2,
        c0 := if c then s.rdNum (a + 8704 + 4 * o) 2 else 0, c1 := if c then s.rdNum (a + 8706 + 4 * o) 2 else 0 }
    | none => { ok := m.ok x y, l := m.v x y })

/-- The size of a body's input: the sensor's rectified level 0, one channel or three. -/
def State.inShape (s : State) (i : Nat) (b : WBody) : Shp :=
  let n := s.insSensor i
  let cin := match b.layers.find? (fun l => l.in0 == 0xFF) with | some l => l.cin | none => 1
  { h := s.jobH n 0, w := s.jobW n 0, c := if cin = 3 then 3 else 1 }

/-- Band rows of the input that band b's output rests on (R182, R186). -/
def State.inputBands (s : State) (i b : Nat) : Nat :=
  let body := s.bodyOf i b
  let r := s.bandRows i b
  let need := body.need (body.shapes (s.inShape i body)) (s.f F.TNS_INS_KP_NMS i) r.1 r.2
  Nat.min (s.snsBands (s.insSensor i)) (Nat.max (b + 1) (ceilDiv (nth (0, 0) need body.top).2 64))

/-! ## What a band's output holds -/

/-- Bytes of one pixel from its channels' codes. -/
def pixelBytes (w : Nat) (codes : List Nat) : List Byte :=
  let b := packBits w codes
  fitBytes (ceilDiv b.length 4 * 4) b

/-- A keypoint record (Table 7-6), with the saturations and NaN conversions of its conversions. -/
def State.kpRecord (s : State) (i : Nat) (fallback : Bool) (p : Kp) : List Byte × Nat × Nat :=
  let w := s.jobW (s.insSensor i) 0
  let h16 := fun (v : Nat) => (formOf 13).conv (fp32.dec v)
  let d := p.desc.map (fun v => (formOf 3).conv ((Fv.ofInt 127).mul (fp32.dec v)))
  let zero := p.desc.all (fun v => v % fp32.sign == 0)
  let one := fp32.ofInt 1
  let c := match p.cov with | some c => c | none => (one, 0, one)
  let q := [h16 p.score, h16 c.1, h16 c.2.1, h16 c.2.2]
  let bytes := leBytes 4 (p.x * 65536) ++ leBytes 4 (p.y * 65536) ++ q.flatMap (fun v => leBytes 2 v.code)
    ++ leBytes 4 (p.y / 8 * ceilDiv w 8 + p.x / 8)
    ++ leBytes 2 (b2n fallback + 2 * b2n p.cov.isNone + 4 * b2n zero) ++ zeroBytes 10
    ++ fitBytes 128 (d.flatMap (fun v => leBytes 1 v.code))
  let all := q ++ d
  (bytes, (all.filter (·.sat)).length, (all.filter (·.nan)).length)

/-- What publishing a band writes and counts. -/
structure BandOut where
  bytes : List Byte
  listed : Nat := 0
  found : Nat := 0
  sat : Nat := 0
  nan : Nat := 0

/-- A KEYPOINTS band's area from the keypoints found (R182, R186): at most MAX_BAND are listed. -/
def State.kpBand (s : State) (i b : Nat) (fallback : Bool) (kps : List Kp) : BandOut :=
  let list := kps.take (s.f F.TNS_INS_KP_MAX_BAND i)
  let recs := list.map (s.kpRecord i fallback)
  { bytes := leBytes 4 list.length ++ leBytes 4 kps.length ++ leBytes 1 b ++ zeroBytes 23 ++ recs.flatMap (·.1),
    listed := list.length, found := kps.length, sat := sumN (recs.map (·.2.1)), nan := sumN (recs.map (·.2.2)) }

/-- A band's output area from the tensors formed. -/
def State.bandOut (s : State) (i b : Nat) (e : TEnv) : BandOut :=
  let r := s.bandRows i b
  if s.fb F.TNS_INS_CTL_KEYPOINTS i then
    s.kpBand i b (s.onFallback i b) (e.keypoints (s.f F.TNS_INS_KP_SCORE_THR i) (s.f F.TNS_INS_KP_NMS i) r.1 r.2 (s.ins i).inp)
  else
    let last := e.body.top - 1
    let c := (e.shp last).c
    let w := (formOf (e.fmt last).1).width
    { bytes := (List.range (r.2 - r.1)).flatMap (fun k =>
        let codes := (e.row last (r.1 + k)).codes
        (List.range (e.shp last).w).flatMap (fun x => pixelBytes w ((codes.drop (x * c)).take c))) }

/-! ## Records (R183, R184) -/

/-- The 64 bytes of Table 7-5. -/
def netRecordBytes (id i net status from' ts flags listed found lat held valid mop : Nat) : List Byte :=
  leBytes 4 id ++ leBytes 1 i ++ leBytes 1 net ++ leBytes 1 status ++ leBytes 1 from' ++ tsBytes ts ++ leBytes 4 flags
    ++ leBytes 4 listed ++ leBytes 4 found ++ leBytes 4 lat ++ leBytes 4 (satU 32 held) ++ leBytes 8 valid ++ leBytes 4 mop
    ++ zeroBytes 12

/-- The conditions of R184 on a frame: its flags, whether a refit beyond the spares sends it to the fallback, whether its instance runs no task, and the
status of a skipped frame's Mill record. -/
def netConds (flags : Nat) (refit none' : Bool) (mill : Nat) : List Nat :=
  condsOf [(St.invalidInput, bitOf flags 0 || bitOf flags 1),
    (St.degraded, none' || (bitOf flags 4 && refit) || (bitOf flags 2 && mill == St.degraded)),
    (St.late, (bitOf flags 3 && !(bitOf flags 4 && refit)) || (bitOf flags 2 && mill == St.late))]

/-- The status of a frame's record (R184, R12). -/
def netStatus (flags : Nat) (refit none' : Bool) (mill : Nat) : Nat := statusOf (netConds flags refit none' mill)

/-- A frame's record is written, and the instance's registers and events follow. -/
def State.netRecord (s : State) (i : Nat) (src : Src) (flags from' mop valid mill : Nat) (none' : Bool) : State :=
  let x := s.ins i
  let f := x.next
  let full := 2 ^ s.snsBands (s.insSensor i) - 1
  let ended := bitOf flags 0 || bitOf flags 2
  let flags := if !ended && valid != full then flags ||| 2 else flags
  let st := netStatus flags (s.rateFor i f).2 none' mill
  let lat := satU 32 (s.now - src.ts)
  let bytes := netRecordBytes src.id i (s.insNet i) st from' src.ts flags x.listed x.found lat x.held valid mop
  let s := (s.wrList (s.insSlot i f) bytes).publish 2 i true bytes (s.insSlot i f)
  let s := ((s.setF F.TNS_INS_LAST_STATUS st i).setF F.TNS_INS_LAST_FB_FROM from' i).setF F.TNS_INS_LAST_FLAGS flags i
  let s := (s.setF F.TNS_INS_FRAME_ID_ID src.id i).setF F.TNS_INS_LAT_US (lat / 1000) i
  let s := (s.setF F.TNS_INS_KP_COUNT_FOUND (satU 16 x.found) i).setF F.TNS_INS_KP_COUNT_LISTED (satU 16 x.listed) i
  let s := if bitOf flags 3 then s.addSat F.TNS_INS_FALLBACKS_FRAMES 1 i else s
  let s := s.logHidden 0x6 i (netConds flags (s.rateFor i f).2 none' mill) [] src.id
  let s := if bitOf flags 6 then s.event 0x6 4 i 0 st src.id else s
  let s := if bitOf flags 7 then s.event 0x6 5 i 0 st src.id else s
  let s := if bitOf flags 4 && bitOf flags 3 then
      (s.addSat F.TNS_REDUCED_FRAMES_COUNT).event 0x6 2 i 0 st src.id else s
  let ops := s.tns.mops + mop
  ({ s with tns.mops := ops } : State).setPair R.TNS_OPS_LO R.TNS_OPS_HI (ops / 1000 % 2 ^ 64)

/-- The instance is done with a frame: the next one begins, switched to the fallback already where its deadline has passed. -/
def State.insNext (s : State) (i : Nat) : State :=
  let x := s.ins i
  let late := x.late.filter (fun e => decide (x.next < e.1))
  let fb := if late.any (fun e => e.1 == x.next + 1) then some 0 else none
  s.setIns i { next := x.next + 1, late := late, fbFrom := fb, refit := x.refit, noMain := x.noMain }

/-- The output Tally advances. -/
def State.insAdvance (s : State) (i amount ts : Nat) : State := s.advance 0x6 (s.f F.TNS_INS_TALLY_OUT i) amount (some ts)

/-- The operations that the main network has executed for the frame at work, in MOP: 2 per MAC of its matrix layers (Table 7-9), by the rows formed. -/
def State.opsDone (s : State) (i : Nat) : Nat :=
  let b := (s.netOf i).main
  let shapes := b.shapes (s.inShape i b)
  sumN ((List.range b.top).map (fun k =>
    let l := b.layer k
    let out := nth {} shapes k
    if l.op = 1 ∨ l.op = 3 ∨ l.op = 4 ∨ l.op = 5 then
      2 * ((nth {} (s.ins i).main k).rows.length * out.w * out.c * l.kDim (nth {} shapes (b.pos l.in0)))
    else 0)) / 1000000

/-- What the record of the frame at work says of the main network's operations (R183): MOP of a frame whose every band it produced, else those that its
rows took. -/
def State.mopOf (s : State) (i : Nat) : Nat :=
  if (s.ins i).whole = s.snsBands (s.insSensor i) then s.f F.TNS_NET_MOP_MOP (s.insNet i)
  else Nat.min (s.f F.TNS_NET_MOP_MOP (s.insNet i)) (s.opsDone i)

/-- A hold ends: its time counts for the frame and in TNS_STALL_US (R191). -/
def State.endHold (s : State) (i : Nat) : State :=
  let x := s.ins i
  match x.heldAt with
  | none => s
  | some t => (s.setIns i { x with heldAt := none, held := x.held + (s.mono - t) }).addSat F.TNS_STALL_US_US ((s.mono - t) / 1000)

/-! ## Frames without a task (R185, R199) -/

/-- Absent frames, frames the Mill skipped, and every frame of an instance whose group has no cluster left (the one at work too), in capture order, each
once its slot is released (R182, R187). -/
def State.insSettle (s : State) (i : Nat) : (fuel : Nat) → State
  | 0 => s
  | m + 1 =>
    let x := s.ins i
    let n := s.insSensor i
    let fate := s.frontFate n x.next
    let none' := (s.groupOn i).isEmpty
    if !s.insOn i || fate = 0 || (!none' && (0 < x.bands || fate = 1)) || !s.insFree i x.next then s
    else
      match s.src n x.next with
      | none => s
      | some src =>
        let slot := s.snsSlot n x.next
        let late := x.late.any (fun e => e.1 == x.next && e.2)
        let flags := if fate = 2 then 1 else if fate = 3 then 4 else x.flags ||| 16 ||| (32 * b2n late)
        let from' := if 0 < x.bands then (s.insFrom i).getD 0xFF else 0xFF
        let s := s.endHold i
        let mop := if 0 < x.bands then s.mopOf i else 0
        let s := s.netRecord i src flags from' mop (s.rdNum (slot + 48) 8) (s.rdNum (slot + 6) 1) none'
        ((s.insNext i).insAdvance i (s.snsBands n - x.bands) src.ts).insSettle i m

/-! ## Weights and held tasks (R179, R191, R194) -/

/-- Whether accesses to a page are held: it is under refill (R225), or its DDR5 channel is being retrained (R212). -/
def State.pageHeld (s : State) (page : Nat) : Bool :=
  s.mm.refills.contains page || ((s.pg page).hop.isNone && (match (s.pg page).ddr with | some c => s.mm.retrain.contains c | none => false))

/-- Where the copies of a layer's weights lie in SRAM (R178): in every core of the group, or every cluster. -/
def Layer.copies (l : Layer) (group : List Nat) (pinned : Bool) : List Nat :=
  if pinned || l.cls == 0 then group.flatMap (fun c => (List.range 4).map (fun k => (4 * c + k) * 0x200000 + l.addr))
  else if l.cls = 1 then group.map (fun c => 0x4000000 + c * 0x400000 + l.addr)
  else []

/-- The clusters of a network's group. -/
def State.netGroup (s : State) (m : Nat) : List Nat := (s.places 4).filter (fun l => bitOf (s.f F.TNS_NET_CTL_GROUP m) l)

/-- Whether a copy at an address meets a 64 KiB page. -/
def inPage (page a n : Nat) : Bool := decide (65536 * page < a + n) && decide (a < 65536 * page + 65536)

/-- The network whose SRAM copy of weights meets a 64 KiB page, and whether it is its fallback's. -/
def State.copyOwner (s : State) (page : Nat) : Option (Nat × Bool) :=
  (s.enabled F.TNS_NET_CTL_ENABLE).findSome? (fun m =>
    let n := nth ({} : Net) s.bt.img.nets m
    let hit := fun (b : WBody) (pin : Bool) => b.layers.any (fun l => (l.copies (s.netGroup m) pin).any (fun a => inPage page a l.wlen))
    if hit n.main false then some (m, false) else if hit n.fb true then some (m, true) else none)

/-- Whether a layer's weights are held: a page of them, or of a copy of them. -/
def State.refilling (s : State) (m : Nat) (pinned : Bool) (l : Layer) : Bool :=
  l.pages.any s.pageHeld || (l.copies (s.netGroup m) pinned).any (fun a => s.mm.refills.any (fun p => inPage p a l.wlen))

/-- Whether a layer's task has its weights (R179): a main network's streamed layer in the staging of some cluster of the group, and no page of them under
refill. A fallback's are pinned. -/
def State.weightsHere (s : State) (i b k : Nat) : Bool :=
  let l := (s.bodyOf i b).layer k
  (s.onFallback i b || decide (l.cls < 2) || (s.groupOn i).any (fun c => s.tns.staged.contains (s.insNet i, k, c)))
    && !s.refilling (s.insNet i) (s.onFallback i b) l

/-- Whether a layer's task without its weights is held on its core's scoreboard (R191): its weights are DDR-class, or lie in a page under refill. -/
def State.isHold (s : State) (i b k : Nat) : Bool :=
  let l := (s.bodyOf i b).layer k
  (!s.onFallback i b && l.cls == 3) || s.refilling (s.insNet i) (s.onFallback i b) l

/-- Whether band b of the instance's next frame can be formed: its input bands are there with those its rows rest on, and its slot is released. -/
def State.bandReady (s : State) (i b : Nat) : Bool :=
  let x := s.ins i
  let n := s.insSensor i
  decide (x.next * s.snsBands n + s.inputBands i b ≤ s.tv (s.f F.MILL_SNS_TALLY_FRONT n))
    && s.insFree i x.next && !(s.groupOn i).isEmpty && !(s.frontFate n x.next == 2 || s.frontFate n x.next == 3)

/-- The layers of the band at work take their weights in turn, as far as these are there; the task of the next one is held where R191 says so. -/
def State.insRun (s : State) (i : Nat) : State :=
  let x := s.ins i
  if !(s.insOn i && decide (x.bands < s.snsBands (s.insSensor i)) && s.bandReady i x.bands) then s
  else
    let top := (s.bodyOf i x.bands).top
    let k := x.at' + ((List.range (top - x.at')).takeWhile (fun j => s.weightsHere i x.bands (x.at' + j))).length
    if k = x.at' ∧ k < top then (if x.heldAt.isNone && s.isHold i x.bands k then s.setIns i { x with heldAt := some s.mono } else s)
    else
      let s := s.endHold i
      let y := s.ins i
      s.setIns i { y with at' := k, heldAt := if decide (k < top) && s.isHold i x.bands k then some s.mono else none }

/-- Every instance's tasks take what weights are there. -/
def State.tnsRun (s : State) : State := (List.range 64).foldl State.insRun s

/-- Every instance writes the records of frames without a task, and its tasks take the weights that are there. -/
def State.tnsSettle (s : State) : State := ((List.range 64).foldl (fun s i => s.insSettle i 64) s).tnsRun

/-! ## Bands (R182, R187) -/

/-- A band of the frame at work is over: its flags and counts are noted and the output Tally advances once, the record coming first at the last band. -/
def State.bandOver (s : State) (i : Nat) (src : Src) (flags listed found : Nat) : State :=
  let s := s.endHold i
  let x := s.ins i
  let reduced := s.reducedFrame i x.next
  let late := s.mainGone i || x.late.any (fun e => e.1 == x.next && e.2)
  let from' := s.insFrom i
  let flags := x.flags ||| flags ||| (8 * b2n (s.onFallback i x.bands)) ||| (16 * b2n reduced) ||| (32 * b2n late)
    ||| (256 * b2n (decide (listed < found)))
  let s := s.setIns i { x with bands := x.bands + 1, flags := flags, fbFrom := from', listed := x.listed + listed, found := x.found + found,
                               at' := 0 }
  if x.bands + 1 < s.snsBands (s.insSensor i) then (s.insAdvance i 1 src.ts).insRun i
  else
    let s := s.netRecord i src flags (from'.getD 0xFF) (s.mopOf i) src.valid 0 false
    (((s.insNext i).insAdvance i 1 src.ts).insSettle i 64).insRun i

/-- The network that produces the band at work, with the rows it has formed for the frame. -/
def State.netEnv (s : State) (i : Nat) (splits : List KSplit) : TEnv :=
  let x := s.ins i
  let b := s.bodyOf i x.bands
  let acts := if s.onFallback i x.bands then x.fb else x.main
  { body := b, shapes := b.shapes (s.inShape i b), fmts := b.fmts (s.netOf i).fmt,
    acts := if acts.isEmpty then List.replicate (b.top + 1) {} else acts, splits := splits }

/-- The input rows that have been delivered and not yet taken are taken. -/
def State.takeInput (s : State) (i : Nat) : State :=
  let x := s.ins i
  let n := s.insSensor i
  let rows := Nat.min (s.jobH n 0) (64 * (s.tv (s.f F.MILL_SNS_TALLY_FRONT n) - x.next * s.snsBands n))
  s.setIns i { x with inp := x.inp ++ ((List.range rows).drop x.inp.length).map (s.inputRow n x.next) }

/-- The weight tile registers of a core's engines after a network's tasks (R168): each engine has loaded the tiles of the last layer with weights in turn
with the others, and its two registers hold the last two (the turn: DESIGN CHOICE of log entry 83; no result rests on it). -/
def State.loadTiles (s : State) (b : WBody) (core : Nat) : State :=
  match (b.layers.filter (fun l => l.weighted && l.op != 2 && l.op != 5)).getLast? with
  | none => s
  | some l =>
    let size := l.tile.1 * l.tile.2 * (formOf l.wfmt).width / 8
    let n := l.wlen / Nat.max 1 size
    (List.range 8).foldl (fun s e =>
      let mine := (List.range n).filter (fun k => k % 8 == e)
      let regs := (mine.drop (mine.length - 2)).map (fun k => (b.data.drop (l.woff + k * size)).take size)
      { s with tns.tiles := tput [] s.tns.tiles (8 * core + e) regs }) s

/-- A network instance's band: no output, and the band is over; an instance whose slot is not released runs no task (R182). -/
def State.failIns (s : State) (i : Nat) : State :=
  let x := s.ins i
  match s.src (s.insSensor i) x.next with
  | none => s
  | some src => if src.absent || !s.insFree i x.next then s else s.bandOver i src 2 0 0

/-- Whether the tiles of a band of an instance's input meet a poisoned line. -/
def State.tilesPoisoned (s : State) (n f b : Nat) : Bool :=
  let t := ceilDiv (s.jobW n 0) 64
  if s.dsp.graph.paths.any (fun p => p.sensor == n) then
    (List.range t).any (fun k => match s.pathTile n f (b * t + k) with | some a => s.poisoned a (s.pathBytes n) | none => false)
  else s.levelPoisoned n f 0

/-- An instance publishes band b: every layer's rows that it rests on are formed, the output area is written, and the band is over (R182). The last task
runs on a core of the group (R180); all layers must have had their weights (R179). -/
def networkBandDone (i b core : Nat) (splits : List KSplit) (s : State) : State :=
  if !(decide (i < 64) && s.insOn i) then s
  else
    let s := s.insRun i
    let x := s.ins i
    match s.src (s.insSensor i) x.next with
    | none => s
    | some src =>
      if src.absent || b != x.bands || s.snsBands (s.insSensor i) ≤ b || !s.bandReady i b || x.at' < (s.bodyOf i b).top
          || !(s.groupOn i).contains (core / 4) then s
      else if s.tilesPoisoned (s.insSensor i) x.next b then (s.poisonTask i).failIns i
      else
        let s := s.takeInput i
        let rows := s.bandRows i b
        let r := (s.netEnv i splits).run (s.f F.TNS_INS_KP_NMS i) rows.1 rows.2 (s.ins i).inp (s.inputVal i)
        let o := s.bandOut i b r.1
        let sats := r.2.1 + o.sat
        let nans := r.2.2 + o.nan
        let s := s.setIns i (if s.onFallback i b then { s.ins i with fb := r.1.acts } else { s.ins i with main := r.1.acts, whole := x.whole + 1 })
        let s := s.loadTiles (s.bodyOf i b) core
        let s := s.wrList (s.bandArea i x.next b) (o.bytes.take (s.areaSize i))
        let s := (s.addSat F.TNS_SAT_COUNT_COUNT sats).addSat F.TNS_NAN_COUNT_COUNT nans
        s.bandOver i src (64 * b2n (decide (0 < sats)) ||| 128 * b2n (decide (0 < nans))) o.listed o.found

/-! ## Deadlines and weights (R191–R194) -/

/-- The deadline of frame f passes (R192, R193): its timestamp plus DEADLINE is reached, and its unpublished bands go to the fallback network; a task
held then makes it LATE_WEIGHTS. -/
def networkDeadline (i f : Nat) (s : State) : State :=
  if !(decide (i < 64) && s.insOn i) then s
  else
    let x := s.ins i
    if f < x.next || x.late.any (fun e => e.1 == f) then s
    else
      match s.src (s.insSensor i) f with
      | none => s
      | some src =>
        if src.absent || s.frontFate (s.insSensor i) f == 3 || (s.groupOn i).isEmpty || decide (s.now < src.ts + s.insDeadline i) then s
        else
          let held := f == x.next && x.heldAt.isSome
          let s := if f = x.next then s.endHold i else s
          let y := s.ins i
          let s := s.setIns i { y with late := y.late ++ [(f, held)], fbFrom := if f = x.next then some (y.fbFrom.getD y.bands) else y.fbFrom,
                                       at' := if f = x.next then 0 else y.at' }
          if held then
            ((s.addSat F.TNS_LATE_WEIGHTS_COUNT).addSat F.TNS_INS_FALLBACKS_LATE_WEIGHTS 1 i).event 0x6 0 i 0 St.late src.id
          else (s.addSat F.TNS_LATE_OTHER_COUNT).event 0x6 1 i 0 St.late src.id

/-- Every copy of a page of a main network's weights is bad (R226): from the next frame its instances run the fallback only. -/
def State.netLost (s : State) (net : Nat) : State :=
  (List.range 64).foldl (fun s i =>
    if s.insOn i && s.insNet i == net then
      let x := s.ins i
      if x.noMain.isSome then s else s.setIns i { x with noMain := some (x.next + b2n (decide (0 < x.bands))) }
    else s) s

/-- The main network whose weights a page holds. -/
def State.netOfPage (s : State) (page : Nat) : Option Nat :=
  s.bt.img.nets.findIdx? (fun n => n.main.layers.any (fun l => l.pages.contains page))

/-- Whether some instance of a network runs a layer that a fetch of `layer` is for: that layer itself, or one at most PREFETCH layers before it, in the
order in which the layers of one band follow those of the band before (R179). -/
def State.fetchable (s : State) (net layer : Nat) : Bool :=
  let b := (nth ({} : Net) s.bt.img.nets net).main
  decide (layer < b.top) && decide (2 ≤ (b.layer layer).cls)
    && (List.range 64).any (fun i => s.insOn i && s.insNet i == net
      && decide ((layer + b.top - (s.ins i).at' % b.top) % b.top ≤ s.f F.TNS_NET_CTL_PREFETCH net))

/-- A prefetch completes (R179): the layer's weights lie in the staging of a cluster of the network's group, which keeps the last PREFETCH layers fetched
of each network, and tasks that were held for them go on (R191). -/
def weightsStaged (net layer cluster : Nat) (s : State) : State :=
  if 16 ≤ net ∨ !s.fetchable net layer ∨ !bitOf (s.f F.TNS_NET_CTL_GROUP net) cluster ∨ (s.physOf 4 0 cluster).isNone then s
  else
    let rest := s.tns.staged.filter (fun e => e != (net, layer, cluster))
    let here := fun (e : Nat × Nat × Nat) => e.1 == net && e.2.2 == cluster
    let mine := (rest.filter here).take (s.f F.TNS_NET_CTL_PREFETCH net - 1)
    ({ s with tns.staged := (net, layer, cluster) :: (mine ++ rest.filter (fun e => !here e)) } : State).tnsRun

/-! ## Meanings -/

/-- NETWORK_BAND_DONE (R182). -/
def execNetworkBandDone (i b core : Nat) (splits : List KSplit) (s : State) : Host.Outcome State Fault Refusal :=
  done (whenUp (networkBandDone i b core splits) s)
/-- NETWORK_DEADLINE (R192). -/
def execNetworkDeadline (i f : Nat) (s : State) : Host.Outcome State Fault Refusal := done (whenUp (networkDeadline i f) s)
/-- WEIGHTS_STAGED (R179). -/
def execWeightsStaged (net layer cluster : Nat) (s : State) : Host.Outcome State Fault Refusal := done (whenUp (weightsStaged net layer cluster) s)

end Sys2Proof.Machine
end

