-- ==== Sys2Proof/Machine/Memory.lean ====
section
/-!
DEFINITION. Memory tiers (chapter 08): regions, placement, migration, errors and refill, DDR5 channels, Cellar. What a page holds is
the same wherever it lies (R204), so its bytes stand in the one memory of the state.
-/

namespace Sys2Proof.Machine
open Sys2Proof

/-! ## Regions (R201, R202) -/

/-- The enabled regions of a class, in order. -/
def State.regions (s : State) (c : Nat) : List Nat :=
  (List.range 1024).filter (fun r => s.rgnOn r && s.rgnClass r == c)

/-- The region a page lies in. -/
def State.rgnOf (s : State) (page : Nat) : Option Nat :=
  (List.range 1024).find? (fun r => s.rgnOn r && decide (s.rgnBase r ≤ page) && decide (page < s.rgnBase r + s.rgnPages r))

/-- The pages of a region. -/
def State.pagesOf (s : State) (r : Nat) : List Nat := (List.range (s.rgnPages r)).map (s.rgnBase r + ·)

/-- Whether an address is one the range gives a meaning (Table 8-1): a window, or a page of a region. -/
def State.mapped (s : State) (a : Nat) : Bool :=
  let part := s.otp.part
  (decide (a < 0x4000000) && decide (a / 0x200000 < 4 * activeOf part 4) && decide (a % 0x200000 < 0x180000))
    || (decide (0x4000000 ≤ a) && decide (a < 0x6000000) && decide ((a - 0x4000000) / 0x400000 < activeOf part 4))
    || (decide (0x6000000 ≤ a) && decide (a < 0x7000000) && decide ((a - 0x6000000) / 0x800000 < activeOf part 0xA))
    || (decide (0x7000000 ≤ a) && decide (a < 0x7000000 + 1024 * millPoolKib part))
    || (decide (0x7800000 ≤ a) && decide (a < 0x8000000) && decide ((a - 0x7800000) / 0x200000 < activeOf part 0xC))
    || (decide (0x8000000 ≤ a) && decide (a < 0x8400000) && decide ((a - 0x8000000) / 0x200000 < activeOf part 0xB))
    || (decide (0x8400000 ≤ a) && decide (a < 0x8800000))
    || (decide (2 ^ 32 ≤ a) && decide (a < 2 ^ 48) && (s.rgnOf (a / 65536)).isSome)

/-- Whether a block, named by its BAR0 window, reaches an address (R201): any region; of the fixed windows its own, the Mill also cluster SRAM (R157);
Cooper SRAM Cooper (window 1, DEDUCED: log entry 85) and the security engine only. -/
def State.reaches (s : State) (block a : Nat) : Bool :=
  s.mapped a &&
    (if 2 ^ 32 ≤ a then true
     else if a < 0x4000000 then block == 6
     else if a < 0x6000000 then block == 6 || block == 5
     else if a < 0x7000000 then block == 9
     else if a < 0x7800000 then block == 5
     else if a < 0x8000000 then block == 0xB
     else if a < 0x8400000 then block == 0xA
     else if a < 0x8600000 then block == 8
     else block == 1 || block == 0xF)

/-- Whether a page is shared read-only. -/
def State.isShared (s : State) (p : Page) : Bool := s.rgnClass p.rgn == 4 || s.rgnClass p.rgn == 5

/-! ## Channels, dies and frames -/

/-- Hopper frames of a die in use, and free. -/
def State.hopUsed (s : State) (d : Nat) : Nat := (s.mm.pages.filter (fun e => e.2.hop == some d)).length
def State.hopFree (s : State) (d : Nat) : Nat :=
  if bitOf (s.f F.MEM_STATUS_HOPPER_OK) d then 2048 - tget 0 s.mm.retired d - s.hopUsed d else 0

/-- The die a page is placed on (R220): its region's, or the one with more free frames (the lower on a tie). -/
def State.newDie (s : State) (p : Page) : Option Nat :=
  let want := s.f F.MEM_RGN_CTL_DIE p.rgn
  if s.fb F.MEM_RGN_CTL_AFFINITY p.rgn then (if 0 < s.hopFree want then some want else none)
  else if s.hopFree 0 = 0 ∧ s.hopFree 1 = 0 then none
  else some (if s.hopFree 0 < s.hopFree 1 then 1 else 0)

/-- The registers that count frames (Table 8-12, 8-13). -/
def State.syncMem (s : State) : State :=
  let s := (List.range 4).foldl (fun s c => s.setF F.MEM_CH_FRAMES_IN_USE (s.chUsed c) c) s
  let s := (List.range 2).foldl (fun s d =>
    (s.setF F.MEM_HOP_FRAMES_IN_USE (s.hopUsed d) d).setF F.MEM_HOP_FRAMES_RETIRED (tget 0 s.mm.retired d) d) s
  let s := (s.mm.pages.map (fun e => e.2.rgn)).eraseDups.foldl (fun s r =>
    s.setF F.MEM_RGN_HOPPER_PAGES ((s.mm.pages.filter (fun e => e.2.rgn == r && e.2.hop.isSome)).length) r) s
  s.setF F.MEM_STATUS_REFILLS (satU 8 s.mm.refills.length)

/-! ## Placement after training (R202, R210) -/

/-- A page gets a DDR frame. -/
def State.placeDdr (s : State) (page : Nat) : State :=
  let p := s.pg page
  match p.ddr with
  | some _ => s
  | none => s.setPg page { p with ddr := s.newFrame 4 }

/-- A page gets a Hopper frame: its region's die, or the dies in turn. -/
def State.placeHop (s : State) (r page k : Nat) : State :=
  let ok := s.f F.MEM_STATUS_HOPPER_OK
  let d := if s.fb F.MEM_RGN_CTL_AFFINITY r then s.f F.MEM_RGN_CTL_DIE r else k % 2
  let d := if bitOf ok d then d else 1 - d
  s.setPg page { s.pg page with rgn := r, hop := some d }

/-- The pages of a region are entered. -/
def State.enterPages (s : State) (r : Nat) : State :=
  (s.pagesOf r).foldl (fun s p => s.setPg p { s.pg p with rgn := r }) s

/-- Free DDR frames in all. -/
def State.ddrFree (s : State) : Nat := sumN (s.chOn.map s.chFree)

/-- A region takes DDR frames for all its pages where they fit; the answer says whether. -/
def State.fillRegion (s : State) (r : Nat) : State × Bool :=
  if s.rgnPages r ≤ s.ddrFree then ((s.pagesOf r).foldl State.placeDdr (s.enterPages r), true) else (s, false)

/-- The regions are placed on the channels in service (R210): the page table and DDR_PINNED regions, the shared ones, then HOT regions
while frames remain. The answer says whether the shared ones fit. -/
def State.placeRegions (s : State) : State × Bool :=
  let all := (List.range 1024).filter s.rgnOn
  let s := s.setF F.MEM_PT_PAGES_PAGES (sumN (all.map s.rgnPages))
  let chs := s.chOn
  let s : State := { s with mm.pt := chs.take 2 }
  let s := (s.regions 0 ++ s.regions 5).foldl (fun s r =>
    ((List.range (s.rgnPages r)).foldl (fun s k => s.placeHop r (s.rgnBase r + k) k) s)) s
  let s := (s.regions 1).foldl (fun s r => (s.fillRegion r).1) s
  let sh := (s.regions 4 ++ s.regions 5).foldl (fun (a : State × Bool) r =>
    let x := a.1.fillRegion r
    (x.1, a.2 && x.2)) (s, true)
  let s := (s.regions 2).foldl (fun s r =>
    let x := s.fillRegion r
    if x.2 then x.1
    else
      let s := s.enterPages r
      ({ s with mm.asDeep := s.mm.asDeep ++ [r] } : State).event 0x7 10 r) sh.1
  let s := (s.regions 3).foldl State.enterPages s
  (s.syncMem, sh.2)

/-! ## Lost pages (R223) -/

/-- Lines are poisoned. -/
def State.addPoison (s : State) (line n tier unit : Nat) : State :=
  { s with mm.poison := { line := line, n := n, tier := tier, unit := unit } :: s.mm.poison }

/-! ## Reads of BAR4 that wait (R392, R400, R401) -/

/-- The aperture of a BAR4 offset and the page within it. -/
def apOf (off : Nat) : Nat × Nat := (off / 2 ^ 32, off % 2 ^ 32 / 65536)

/-- Whether a function reads a byte of BAR4: its mask names the aperture, the page lies within PAGES. -/
def State.apOpen (s : State) (fn off : Nat) : Bool :=
  let a := (apOf off).1
  decide (a < 16) && bitOf (s.f F.HST_FN_APERTURE_MASK fn) a && decide ((apOf off).2 < s.f F.HST_AP_PAGES_PAGES a)

/-- The unified address behind a BAR4 offset. -/
def State.apAddr (s : State) (off : Nat) : Nat := s.pair R.HST_AP_BASE_LO R.HST_AP_BASE_HI (apOf off).1 + off % 2 ^ 32

/-- Whether only Cellar holds a page. -/
def State.cellarOnly (s : State) (page : Nat) : Bool := let p := s.pg page; s.isDeep p && p.ddr.isNone && p.cellar

/-- Whether an access to a page is held: only Cellar holds it, it waits for a DDR frame, or R225 or R212 holds it. -/
def State.accessHeld (s : State) (page : Nat) : Bool :=
  (s.mm.pages.any (fun e => e.1 == page) && s.cellarOnly page && (s.pg page).hop.isNone) || s.mm.waitDdr.contains page || s.pageHeld page

/-- The completion of a BAR4 read: zeros where masked or beyond PAGES, EP where it meets a poisoned line, which HST_POISONED counts. -/
def State.bar4Answer (s : State) (fn off len : Nat) : State :=
  let open_ := s.apOpen fn off
  let bad := open_ && s.poisoned (s.apAddr off) len
  let s := if open_ then s.touch (s.apAddr off / 65536) (ceilDiv (s.apAddr off % 64 + len) 64) false else s
  let s := if bad then (s.addSat F.HST_POISONED_COUNT).event 0xD 5 fn else s
  s.emit (.cpl fn ((List.range len).map (fun i => if s.apOpen fn (off + i) then s.rd (s.apAddr (off + i)) else 0#8)) bad)

/-- The reads that no longer wait are answered, in their order. -/
def State.serveBar4 (s : State) : State :=
  if s.mm.bar4.isEmpty then s
  else
    let w := s.mm.bar4.filter (fun e => s.accessHeld (s.apAddr e.2.1 / 65536))
    let go := s.mm.bar4.filter (fun e => !s.accessHeld (s.apAddr e.2.1 / 65536))
    go.foldl (fun s e => s.bar4Answer e.1 e.2.1 e.2.2) { s with mm.bar4 := w }

/-- A page is lost: every line poisoned, logged with its address, key and owner, counted; it has a frame again, and what waits for it meets the poison. -/
def State.losePage (s : State) (page tier unit : Nat) : State :=
  let p := s.pg page
  let s : State := { s with mm.poison := s.mm.poison.filter (fun q => !(decide (page * 1024 ≤ q.line) && decide (q.line < page * 1024 + 1024))) }
  let s := s.addPoison (page * 1024) 1024 tier unit
  let s := s.setPg page { p with lost := true, cellar := false, stale := false, hopDirty := false }
  let s : State := { s with mm.waitDdr := s.mm.waitDdr.filter (· != page), mm.nvme := s.mm.nvme.filter (fun e => !(e.1 == 0 && e.2.1 == page)),
                            mm.reread := s.mm.reread.filter (· != page) }
  let s := s.addSat F.MEM_PAGES_LOST_COUNT
  (s.event 0x7 9 p.rgn (page * 65536) (s.f F.MEM_RGN_CTL_KEY p.rgn + 65536 * s.f F.MEM_RGN_CTL_OWNER p.rgn)).serveBar4

/-! ## Refill (R225, R226) -/

/-- A refill of a shared page begins, its requests held (those of tensor tasks under R191); a second error meets the refill in progress (Table 8-8). -/
def State.startRefill (s : State) (page : Nat) : State :=
  if s.mm.refills.contains page then s else ({ s with mm.refills := page :: s.mm.refills } : State).syncMem.tnsRun

/-- Whether Cellar is ready. -/
def State.cellarReady (s : State) : Bool := s.f F.MEM_CELLAR_STATUS_STATE == 3

/-- The device's Cellar key pair (Table 16-2), and P of the superblock in force. -/
def State.cellarKey (s : State) : Nat := Config.cellarKeys s.otp.idDigest 1
def State.cellarPages (s : State) : Nat := match s.ssd.super with | some b => b.p | none => 0

/-- The listed bytes of a page, by offset. -/
def State.pageCells (s : State) (page : Nat) : List Host.Cell :=
  (s.mem.filter (fun e => e.1 / 65536 == page)).map (fun e => (e.1 % 65536, e.2))

/-- A section digest's bits 63:0 and the index in its section of a shared page (R224, log entry 63). -/
def State.sharedKey (s : State) (page : Nat) : Nat × Nat :=
  let of := fun (b : WBody) => ((b.layers.flatMap (·.pages)).findIdx? (· == page)).map (fun k => (Config.sm3 b.bytes % 2 ^ 64, k))
  (s.bt.img.nets.findSome? (fun n => (of n.main).orElse (fun _ => of n.fb))).getD
    (((s.mm.digests.find? (fun e => e.1 == page)).elim 0 (·.2)) % 2 ^ 64, 0)

/-- The pages used. -/
def State.syncCellar (s : State) : State := s.setPair R.MEM_CELLAR_USED_LO R.MEM_CELLAR_USED_HI s.ssd.live.length

/-- A location is deallocated; from shedding level 2 on that waits (Table 13-6). -/
def State.dealloc (s : State) (lba : Nat) : State :=
  if s.f F.DSP_COOPER_SHED_LEVEL < 2 then
    (s.mm.owed ++ [lba]).foldl (fun s a => s.emit (.nvme 3 a false)) { s with mm.owed := [] }
  else { s with mm.owed := s.mm.owed ++ [lba] }

/-- A page's new version goes to Cellar, copy on write (R217): its data and its trailer with FUA to free LBAs, a journal record with FUA, and only then
is the old location deallocated. Without a free location it does not go. -/
def State.putCellar (s : State) (c : CellarPage) : State :=
  match s.ssd.free with
  | none => s
  | some n =>
    let p := s.cellarPages
    let old := s.ssd.find c
    let c := { c with gen := (match old with | some o => o.2.gen | none => 0) + 1, flags := c.flags + b2n (s.fb F.MEM_CELLAR_CFG_ENCRYPT) }
    let c := { c with crc := c.sums s.cellarKey p n }
    let at' := s.ssd.first + s.ssd.journal.length
    let s : State := { s with ssd := s.ssd.put n c }
    let s := ((s.emit (.nvme 1 (pageLba p n) false)).emit (.nvme 1 (pageLba p n + 16) true)).emit (.nvme 1 (journalLba at') true)
    (match old with | some o => s.dealloc (pageLba p o.1) | none => s).syncCellar

/-- A shared page's Cellar replica, keyed by digest and index (R224). -/
def State.putReplica (s : State) (page : Nat) : State :=
  let k := s.sharedKey page
  let p := s.pg page
  let s := s.putCellar { page := k.1, index := k.2, flags := 2, key := s.f F.MEM_RGN_CTL_KEY p.rgn, len := s.rgnPages p.rgn, data := s.pageCells page }
  s.setPg page { p with cellar := true }

/-- A page has its content again: its poison is gone, its lower copies are made anew where they were bad, and the held requests go on. -/
def State.refilled (s : State) (page : Nat) (replica : Bool) : State :=
  let s : State := { s with mm.poison := s.mm.poison.filter (fun q => !(decide (page * 1024 ≤ q.line) && decide (q.line < page * 1024 + 1024))) }
  let s := if 65536 ≤ page ∧ (s.pg page).ddr.isNone then s.placeDdr page else s
  let s := if 65536 ≤ page ∧ replica then s.putReplica page else s
  s.syncMem.tnsRun.serveBar4

/-- The copies below that a refill reads before a good one: DDR's and Cellar's, as `bad` says; their counters. -/
def State.badCopies (s : State) (page : Nat) (ddr cellar : Bool) : State :=
  let s := if ddr then (match (s.pg page).ddr with | some c => s.countUe 4 c | none => s) else s
  if cellar then s.addSat F.MEM_CELLAR_CRC_COUNT 2 else s

/-- A refill ends: from the DDR replica, the Cellar replica while Cellar is ready, or the flash original, the first that is good; each copy found bad is
refilled in turn, and the held requests go on. With none, the page of a main network's weights leaves that network to its fallback, and any other restarts
the part. A damaged copy in SRAM (log entry 99) has the replicas of its section. -/
def refillDone (page bad : Nat) (s : State) : State :=
  if !s.mm.refills.contains page then s
  else
    let p := s.pg page
    let sram := decide (page < 65536)
    let s : State := { s with mm.refills := s.mm.refills.filter (· != page) }
    let hasDdr := sram || p.ddr.isSome
    let hasCellar := s.cellarReady && (sram || p.cellar)
    let badDdr := hasDdr && bitOf bad 0
    let badCellar := (badDdr || !hasDdr) && hasCellar && bitOf bad 1
    let s := s.badCopies page badDdr badCellar
    if hasDdr && !bitOf bad 0 then State.refilled ((s.addSat F.MEM_REFILL_DDR_COUNT).event 0x7 4 p.rgn (page * 65536)) page badCellar
    else if hasCellar && !bitOf bad 1 then State.refilled ((s.addSat F.MEM_REFILL_CELLAR_COUNT).event 0x7 4 p.rgn (page * 65536)) page badCellar
    else if !bitOf bad 2 then State.refilled ((s.addSat F.MEM_REFILL_FLASH_COUNT).event 0x7 5 p.rgn (page * 65536)) page badCellar
    else
      match (if sram then (s.copyOwner page).bind (fun o => if o.2 then none else some o.1) else s.netOfPage page) with
      | some n => (((if sram then s else s.losePage page 3 0)).netLost n).syncMem.tnsRun
      | none => (s.event 0x7 9 p.rgn (page * 65536)).restart 3

/-! ## Eviction (R210, R217, R221) -/

/-- A page's new version is written to Cellar (R217). -/
def State.writeBack (s : State) (page : Nat) : State :=
  let p := s.pg page
  if s.ssd.free.isNone then s
  else
    let s := s.putCellar { page := page, key := s.f F.MEM_RGN_CTL_KEY p.rgn, len := s.rgnPages p.rgn, data := s.pageCells page }
    s.setPg page { p with cellar := true, stale := false }

/-- The frame errors of a page's frames of a tier are those of a frame it has left (R211). -/
def State.dropUe (s : State) (tier page : Nat) : State :=
  { s with mm.frameUe := s.mm.frameUe.filter (fun e => !(e.1 / 2 ^ 40 == tier && e.1 % 2 ^ 36 == page)) }

/-- The DEEP page that is evicted next: clean pages first, the lowest score first; a dirty one only where Cellar can take it. -/
def State.victimPage (s : State) (but : Nat) : Option (Nat × Page) :=
  let clean := fun (e : Nat × Page) => e.2.cellar && !e.2.stale
  let l := s.mm.pages.filter (fun e => e.1 != but && s.isDeep e.2 && e.2.ddr.isSome && e.2.hop.isNone && !e.2.lost
    && (clean e || (s.cellarReady && !s.mm.resetting && s.ssd.free.isSome)))
  bestBy (fun a b => (clean a && !clean b) || (clean a == clean b && decide (a.2.score < b.2.score))) l

/-- One DEEP page leaves DDR, written back where it is dirty. -/
def State.evict (s : State) (e : Nat × Page) : State :=
  let s := if e.2.cellar && !e.2.stale then s else s.writeBack e.1
  (s.setPg e.1 { s.pg e.1 with ddr := none }).dropUe 4 e.1

/-- DEEP pages are evicted from DDR while its free frames are below LOW_WATER percent. -/
def State.evictLow (s : State) (but : Nat) : (fuel : Nat) → State
  | 0 => s
  | n + 1 =>
    if s.chOn.length * s.chFrames * s.f F.MEM_MIG_CFG_LOW_WATER ≤ 100 * s.ddrFree then s
    else
      match s.victimPage but with
      | none => s
      | some e => (s.evict e).evictLow but n

/-- A page gets a DDR frame, one that an eviction frees where none is (R210); with none to free it waits. -/
def State.needDdr (s : State) (page : Nat) : State :=
  let s := if s.ddrFree = 0 then (match s.victimPage page with | some e => s.evict e | none => s) else s
  let s := s.placeDdr page
  let w := s.mm.waitDdr.filter (· != page)
  { s with mm.waitDdr := if (s.pg page).ddr.isNone then w ++ [page] else w }

/-- The pages that wait for a DDR frame try again. -/
def State.serveWaits (s : State) : State := s.mm.waitDdr.foldl State.needDdr s

/-- Whether Cellar proved absent, foreign or FAILED: what waits for it, or lies there alone, is lost (R210, R214). -/
def State.cellarGone (s : State) : Bool :=
  s.mm.noSsd || !s.fb F.MEM_CELLAR_CFG_ENABLE || 4 ≤ s.f F.MEM_CELLAR_STATUS_STATE

/-- An NVMe command as it goes out: a read goes to the LBA where Cellar holds the page. -/
def State.nvmeOut (s : State) (op page : Nat) : Out :=
  .nvme op (if op = 0 then (match s.ssd.find { page := page } with | some e => pageLba s.cellarPages e.1 | none => 0) else page) false

/-- A page that Cellar alone held is lost: it has a frame again. -/
def State.loseAbsent (s : State) (page : Nat) : State := (s.needDdr page).losePage page 5 0

/-- A request finds a page only in Cellar: it is held for one read of the page (R221), or, with Cellar gone, the page is lost. -/
def State.fetchPage (s : State) (page : Nat) : State :=
  if s.cellarGone then s.loseAbsent page
  else if s.mm.nvme.any (fun e => e.1 == 0 && e.2.1 == page) then s
  else
    let s : State := { s with mm.nvme := (0, page, 0) :: s.mm.nvme }
    if s.cellarReady && !s.mm.resetting then s.emit (s.nvmeOut 0 page) else s

/-! ## Retirement of a channel (R212) -/

/-- A channel's nibble of MEM_DDR_TRAIN. -/
def State.setTrain (s : State) (c v : Nat) : State :=
  let t := s.f F.MEM_DDR_TRAIN_RESULT
  s.setF F.MEM_DDR_TRAIN_RESULT (t / 16 ^ (c + 1) * 16 ^ (c + 1) + v * 16 ^ c + t % 16 ^ c)

/-- A channel's state and cause, and what shows the channels in service. -/
def State.setCh (s : State) (c st cause : Nat) : State :=
  let s := (s.setF F.MEM_CH_STATE_STATE st c).setF F.MEM_CH_STATE_CAUSE cause c
  let s := if st = 3 then s.setTrain c 4 else s
  let s := s.setF F.MEM_STATUS_CH_OK (sumN (s.chOn.map (2 ^ ·)))
  (s.setPair R.MEM_DDR_SIZE_LO R.MEM_DDR_SIZE_HI (s.chBytes * s.chOn.length)).syncDegraded

/-- One page of a channel that is retired at once. -/
def State.rescuePage (s : State) (c page : Nat) : State :=
  let s := s.dropUe 4 page
  let p := s.pg page
  let next := s.newFrame c
  if s.isShared p then (s.setPg page { p with ddr := next }).startRefill page
  else if s.migrates p && p.hop.isSome then s.setPg page { p with ddr := next, hopDirty := false }
  else if s.isDeep p && p.cellar && !p.stale then (s.setPg page { p with ddr := none }).fetchPage page
  else (s.setPg page { p with ddr := next }).losePage page 4 c

/-- The copies of the page table on a channel that is lost: rewritten on another working channel from the other copy; none when no copy
is left. -/
def State.rescuePt (s : State) (c : Nat) : Option State :=
  if !s.mm.pt.contains c then some s
  else
    match s.mm.pt.filter (· != c) with
    | [] => none
    | o :: _ =>
      match bestBy (fun a b => decide (s.chFree b < s.chFree a)) (s.chOn.filter (fun x => x != c && x != o)) with
      | some n => some { s with mm.pt := [o, n] }
      | none => some { s with mm.pt := [o] }

/-- A channel is retired at once. -/
def State.retireCh (s : State) (c cause : Nat) : State :=
  let s := s.setCh c 3 cause
  let s : State := { s with mm.retrain := s.mm.retrain.filter (· != c) }
  let s := s.event 0x7 8 c 0 cause
  match s.rescuePt c with
  | none => s.syncMem.restart 9
  | some s => (((s.mm.pages.filter (fun e => e.2.ddr == some c)).map (·.1)).foldl (fun s p => s.rescuePage c p) s).syncMem.tnsRun.serveBar4

/-- The page table's copies of a channel are remade on another, where one is left. -/
def State.rescued (s : State) (c : Nat) : State := match s.rescuePt c with | some t => t | none => s

/-- A drain's copy is complete: every page has moved to the other channels, and the channel is retired. -/
def channelDrainDone (c : Nat) (s : State) : State :=
  if !(decide (c < 4) && s.f F.MEM_CH_STATE_STATE c == 2) then s
  else
    let s := ((s.mm.pages.filter (fun e => e.2.ddr == some c)).map (·.1)).foldl (fun s p =>
      ({ ((s.setPg p { s.pg p with ddr := none }).dropUe 4 p).needDdr p with mm.moves := s.mm.moves.filter (fun m => m.page != p) } : State)) s
    let s := s.rescued c
    let cause := s.f F.MEM_CH_STATE_CAUSE c
    ((s.setCh c 3 cause).event 0x7 8 c 0 cause).syncMem

/-- A channel loses PHY lock: it is retrained, its accesses held (R212): BAR4 reads wait, and tensor tasks that read weights there (R191). -/
def phyLockLoss (c : Nat) (s : State) : State :=
  if decide (c < 4) && (s.f F.MEM_CH_STATE_STATE c == 1 || s.f F.MEM_CH_STATE_STATE c == 2) && !s.mm.retrain.contains c then
    ({ s with mm.retrain := c :: s.mm.retrain } : State).tnsRun
  else s

/-- Retraining has not recovered the lock within 5 ms. -/
def retrainTimeout (c : Nat) (s : State) : State := if s.mm.retrain.contains c then s.retireCh c 4 else s

/-- Retraining has recovered the lock: the held accesses go on. -/
def ddrRetrainDone (c : Nat) (s : State) : State :=
  if s.mm.retrain.contains c then ({ s with mm.retrain := s.mm.retrain.filter (· != c) } : State).tnsRun.serveBar4 else s

/-! ## Errors (R205, R211, R223) -/

/-- MEM_ERR_INFO, and MEM_ERR_ADDR for an uncorrectable error or a fault. -/
def State.errInfo (s : State) (block tier kind unit addr : Nat) : State :=
  let s := (s.setF F.MEM_ERR_INFO_BLOCK block).setF F.MEM_ERR_INFO_TIER tier
  let s := (s.setF F.MEM_ERR_INFO_KIND kind).setF F.MEM_ERR_INFO_UNIT unit
  if kind = 1 then s else s.setPair R.MEM_ERR_ADDR_LO R.MEM_ERR_ADDR_HI addr

/-- A corrected error, or a transfer that was retried: counted; a channel with more than CE_LIMIT within an hour is drained. -/
def correctedError (tier unit kind addr : Nat) (s : State) : State :=
  let s := (s.setF F.MEM_ERR_INFO_TIER tier).setF F.MEM_ERR_INFO_KIND kind |>.setF F.MEM_ERR_INFO_UNIT unit
  match tier, kind with
  | 3, 3 => if unit < 2 then (s.addSat F.MEM_HOP_LINK_RETRIES 1 unit).event 0x7 1 unit addr else s
  | 3, _ => if unit < 2 then (s.addSat F.MEM_HOP_CE_COUNT 1 unit).event 0x7 2 unit addr else s
  | 4, 3 => if unit < 4 then (s.addSat F.MEM_CH_WCRC_COUNT 1 unit) else s
  | 4, _ =>
    if 4 ≤ unit then s
    else
      let s := (s.addSat F.MEM_CH_CE_COUNT 1 unit).event 0x7 2 unit addr
      let l := s.mono :: (tget [] s.mm.ce unit).filter (fun t => decide (s.mono < t + 3600 * 1000000000))
      let s : State := { s with mm.ce := tput [] s.mm.ce unit l }
      if s.f F.MEM_CE_LIMIT_LIMIT < l.length ∧ s.f F.MEM_CH_STATE_STATE unit = 1 ∧ s.chOn ≠ [unit] then
        let s := s.setCh unit 2 2
        ({ s with mm.moves := s.mm.moves.filter (fun m => (s.pg m.page).ddr != some unit) } : State).syncMem
      else s
  | 5, _ => s.addSat F.MEM_CELLAR_CRC_COUNT
  | 7, _ => (s.addSat F.MEM_NOC_CRC_RETRIES).event 0x7 1 unit addr
  | _, _ => (s.addSat F.MEM_SRAM_CE_COUNT).event 0x7 2 unit addr

/-- Patrol scrub reads a word or a frame; a corrected word is written back and counts as a corrected error. -/
def scrubStep (tier unit addr : Nat) (fixed : Bool) (s : State) : State := if fixed then correctedError tier unit 1 addr s else s

/-- A frame's second uncorrectable error within an hour retires the frame: its page moves to a new one (R211). -/
def State.frameError (s : State) (tier unit page : Nat) : State :=
  let key := tier * 2 ^ 40 + unit * 2 ^ 36 + page
  let second := s.mm.frameUe.any (fun e => e.1 == key && decide (s.mono ≤ e.2 + 3600 * 1000000000))
  let s : State := { s with mm.frameUe := (key, s.mono) :: s.mm.frameUe.filter (fun e => e.1 != key) }
  if !second then s
  else
    let p := s.pg page
    let slot := if tier = 3 then unit else 4 + unit
    let s : State := { s with mm.retired := tput 0 s.mm.retired slot (tget 0 s.mm.retired slot + 1),
                              mm.frameUe := s.mm.frameUe.filter (fun e => e.1 != key) }
    if tier = 3 then
      (s.setPg page { p with hop := if 0 < s.hopFree unit then some unit else if 0 < s.hopFree (1 - unit) then some (1 - unit) else none }).syncMem
    else (s.setPg page { p with ddr := s.newFrame 4 }).syncMem

/-- An uncorrectable error: counted, logged; a shared page is refilled, any other line is poisoned; eight on a channel within 1 s retire
it. -/
def uncorrectableError (tier unit kind addr block : Nat) (s : State) : State :=
  let s := ((s.errInfo block tier kind unit addr).countUe tier unit).event 0x7 3 unit addr
  let page := addr / 65536
  let p := s.pg page
  let listed := s.mm.pages.any (fun e => e.1 == page)
  let s : State := if listed && s.isShared p || (s.copyOwner page).isSome then s.startRefill page
    else if (s.poisonOf (addr / 64)).isSome then s
    else s.addPoison (addr / 64) 1 tier unit
  let s : State := { s with mm.moves := s.mm.moves.filter (fun m => m.page != page) }
  let s := if listed && (tier == 3 || tier == 4) then s.frameError tier unit page else s
  if tier = 4 ∧ unit < 4 then
    let l := s.mono :: (tget [] s.mm.ue unit).filter (fun t => decide (s.mono < t + 1000000000))
    let s : State := { s with mm.ue := tput [] s.mm.ue unit l }
    if 8 ≤ l.length ∧ (s.f F.MEM_CH_STATE_STATE unit = 1 ∨ s.f F.MEM_CH_STATE_STATE unit = 2) then s.retireCh unit 3 else s
  else s

/-- An access to a reserved address, outside every region, or to a window that the block does not reach (R201) is not performed (R205); such an address has no tier and no unit, whose fields
hold free values. -/
def addressFault (addr block : Nat) (s : State) : State :=
  if s.reaches block addr then s
  else
    let tier := s.freeVal % 8
    let unit := Config.freeNat (s.free + 1) % 256
    (((s.used.used.errInfo block tier 5 unit addr).addSat F.MEM_ADDR_FAULTS_COUNT).event 0x7 0 block addr)

/-! ## Migration (R220, R221) -/

/-- The access counters take the accesses of a period that the part's own stores and BAR4 reads have not counted; an access to a page held only in
Cellar is held for its read (R221), and without Cellar's copy the page gets a frame. -/
def State.noteAccess (s : State) (c : Nat × Nat × Bool) : State :=
  let p := s.pg c.1
  if !(s.mm.pages.any (fun e => e.1 == c.1) && s.migrates p) then s
  else
    let s := if s.isDeep p && p.ddr.isNone then (if p.cellar then s.fetchPage c.1 else s.needDdr c.1) else s
    let p := s.pg c.1
    s.setPg c.1 { p with count := satU 8 (p.count + c.2.1), hopDirty := p.hopDirty || (c.2.2 && p.hop.isSome),
                         stale := p.stale || c.2.2, dirtyAt := if c.2.2 && !p.stale then s.mono else p.dirtyAt }

/-- Pages this pass may move: MIG_BW × period / 64 KiB. -/
def State.migBudget (s : State) : Nat := s.f F.MEM_MIG_CFG_MIG_BW * 1000 * s.f F.MEM_MIG_CFG_PERIOD_US / 65536

/-- The moves of the pass of R220 over the candidates in descending score, the cold pages in ascending score, with the free Hopper
frames; the budget is tested for 0 alone, as the pass is written. -/
def pickMoves (hyst : Nat) : (cand cold : List (Nat × Nat)) → (free : Nat) → (budget : Int) → List (Nat × Bool)
  | [], _, _, _ => []
  | p :: ps, cold, free, budget =>
    if budget = 0 then []
    else if 0 < free then (p.1, true) :: pickMoves hyst ps cold (free - 1) (budget - 1)
    else
      match cold with
      | [] => []
      | c :: cs =>
        if hyst * c.2 < p.2 * 4 then (c.1, false) :: (p.1, true) :: pickMoves hyst ps cs free (budget - 2) else []

/-- The scores of the pages that migrate (R221). -/
def State.scorePages (s : State) : State :=
  let upd := fun (p : Page) => if s.migrates p then { p with score := p.score * 3 / 4 + p.count, count := 0 } else p
  { s with mm.pages := s.mm.pages.foldl (fun t e => tput {} t e.1 (upd e.2)) s.mm.pages }

/-- The moves of a pass (R221). -/
def State.planMoves (s : State) : List Move :=
  let drained := fun (p : Page) => match p.ddr with | some c => s.f F.MEM_CH_STATE_STATE c == 2 | none => true
  let mig := s.mm.pages.filter (fun e => s.migrates e.2 && s.homeOf e.1 == some s.deviceId)
  let cand := sortBy (fun a b => decide (b.2 < a.2)) ((mig.filter (fun e => e.2.hop.isNone && !drained e.2)).map (fun e => (e.1, e.2.score)))
  let cold := sortBy (fun a b => decide (a.2 < b.2)) ((mig.filter (fun e => e.2.hop.isSome && !drained e.2)).map (fun e => (e.1, e.2.score)))
  let l := pickMoves (s.f F.MEM_MIG_CFG_HYST) cand cold (s.hopFree 0 + s.hopFree 1) s.migBudget
  l.map (fun m => { page := m.1, die := if m.2 then some 0 else none })

/-- A migration pass (R220); while the last one's copies go on the pass is skipped and counted. -/
def migrationPass (counts : List (Nat × Nat × Bool)) (s : State) : State :=
  let s := (counts.foldl State.noteAccess s).evictLow (2 ^ 32) 4096
  if !s.mm.moves.isEmpty then s.addSat F.MEM_MIG_SKIPPED_COUNT
  else
    let s := s.scorePages
    { s with mm.moves := s.planMoves }

/-- The moves of the last second (MEM_MIG_COUNT). -/
def State.noteMove (s : State) (up : Bool) : State :=
  let l := (s.mono, up) :: s.mm.moved.filter (fun e => decide (s.mono < e.1 + 1000000000))
  let s : State := { s with mm.moved := l }
  s.tele R.MEM_MIG_COUNT (fun s => (s.setF F.MEM_MIG_COUNT_PROMOTED (satU 16 (l.filter (·.2)).length)).setF F.MEM_MIG_COUNT_DEMOTED
    (satU 16 (l.filter (fun e => !e.2)).length))

/-- A page's copy is complete and its accesses switch to the new frame (R221). -/
def pageMigrateSwitch (page : Nat) (s : State) : State :=
  match s.mm.moves.find? (fun m => m.page == page) with
  | none => s
  | some m =>
    let p := s.pg page
    match m.die with
    | some _ =>
      match s.newDie p with
      | none => { s with mm.moves := s.mm.moves.filter (fun m => m.page != page) }
      | some d =>
        let s : State := { s with mm.moves := s.mm.moves.filter (fun m => m.page != page) }
        let s := s.dropUe 3 page
        let s := (s.setPg page { p with hop := some d, hopDirty := false }).noteMove true
        (s.addPair R.MEM_MIG_BYTES_LO R.MEM_MIG_BYTES_HI 65536).syncMem
    | none =>
      let s : State := { s with mm.moves := s.mm.moves.filter (fun m => m.page != page) }
      let s := if p.hopDirty then s.addPair R.MEM_MIG_BYTES_LO R.MEM_MIG_BYTES_HI 65536 else s
      (((s.dropUe 3 page).setPg page { p with hop := none, hopDirty := false }).noteMove false).syncMem

/-! ## Cellar (R213–R219) -/

/-- Cellar becomes ready: kept pages are found again, under what has been written to them since the start (R204), every other page is deallocated, and
replicas of shared sections that are not there yet are written (R218, R224). -/
def State.mountCellar (s : State) : State :=
  let shared := (s.mm.pages.filter (fun e => s.isShared e.2)).map (·.1)
  let keys := shared.map s.sharedKey
  let keep := fun (c : CellarPage) =>
    if bitOf c.flags 1 then keys.contains (c.page, c.index)
    else match s.rgnOf c.page with
      | some r => s.fb F.MEM_RGN_CTL_PERSIST r && s.f F.MEM_RGN_CTL_KEY r == c.key && s.rgnPages r == c.len
      | none => false
  let kept := s.ssd.pages.filter (fun e => keep e.2)
  let gone := s.ssd.pages.filter (fun e => !keep e.2)
  let s : State := { s with ssd := s.ssd.note (gone.map (fun e => (e.1, false))) }
  let s := gone.foldl (fun s e => s.dealloc (pageLba s.cellarPages e.1)) s
  let s := (kept.filter (fun e => !bitOf e.2.flags 1)).foldl (fun s e =>
    let c := e.2
    let s : State := { s with mem := s.mem.fill s.mm.early (c.data.map (fun b => (65536 * c.page + b.1, b.2))) }
    s.setPg c.page { s.pg c.page with rgn := (s.rgnOf c.page).getD 0, cellar := true }) s
  let s := (s.setF F.MEM_CELLAR_STATUS_STATE 3).setB F.MEM_STATUS_CELLAR_READY true
  let s := s.setB F.MEM_STATUS_CELLAR_ENCRYPTED (s.fb F.MEM_CELLAR_CFG_ENCRYPT)
  let s := shared.foldl (fun s p =>
    let k := s.sharedKey p
    if kept.any (fun e => bitOf e.2.flags 1 && e.2.page == k.1 && e.2.index == k.2) then s.setPg p { s.pg p with cellar := true } else s.putReplica p) s
  let s : State := { s.syncCellar with mm.early := [] }
  (s.mm.nvme.foldl (fun s e => s.emit (s.nvmeOut e.1 e.2.1)) s).serveWaits.syncMem

/-- Pages that only Cellar could have held, and those that wait for a write-back, are lost (R210). -/
def State.loseCellar (s : State) : State :=
  let l := (s.mm.nvme.filter (fun e => e.1 == 0)).map (·.2.1)
  let w := s.mm.waitDdr
  w.foldl (fun s p => s.losePage p 5 0) (l.foldl State.loseAbsent { s with mm.nvme := [], mm.reread := [] })

/-- The NVMe host's bring-up (Table 8-5): Identify, the features it sets (number of queues, volatile write cache, arbitration), the I/O queue pairs, a
health log page. -/
def State.nvmeStart (s : State) : State :=
  let q := s.f F.MEM_CELLAR_CFG_QUEUES
  let s := s.emit (.nvme 5 0 false)
  let s := [7, 6, 1].foldl (fun s k => s.emit (.nvme 8 k false)) s
  let s := (List.range (2 * q)).foldl (fun s k => s.emit (.nvme 6 (k / 2 + 1) false)) s
  s.emit (.nvme 4 2 false)

/-- The part runs without Cellar. -/
def State.noCellar (s : State) (st : Nat) : State := ({ s.setF F.MEM_CELLAR_STATUS_STATE st with mm.noSsd := true } : State).loseCellar.syncMem

/-- Cellar bring-up finishes (R218, R443). -/
def cellarBringupDone (x : CellarFind) (s : State) : State :=
  if !s.fb F.MEM_CELLAR_CFG_ENABLE || s.mm.noSsd || 3 ≤ s.f F.MEM_CELLAR_STATUS_STATE then s
  else if !x.present then s.noCellar 0
  else
    let s : State := { s with ssd := match x.swap with | some d => d | none => if x.lbas = 0 then s.ssd else { s.ssd with lbas := x.lbas } }
    let s := ((s.setF F.MEM_CELLAR_STATUS_GEN x.gen).setF F.MEM_CELLAR_STATUS_WIDTH x.width).nvmeStart
    let p := cellarP s.ssd.lbas
    let enc := s.fb F.MEM_CELLAR_CFG_ENCRYPT
    let fresh := fun (s : State) (seq : Nat) =>
      let b : Super := { ident := s.otp.idDigest, enc := enc, p := p, seq := seq }
      (({ s with ssd := s.ssd.init b } : State).setPair R.MEM_CELLAR_CAP_LO R.MEM_CELLAR_CAP_HI p).mountCellar
    let foreign := fun (s : State) (seq : Nat) =>
      if s.fb F.MEM_CELLAR_CFG_FOREIGN_INIT then fresh s seq
      else
        let s := (s.setF F.MEM_CELLAR_STATUS_STATE 4).setB F.MEM_STATUS_CELLAR_FOREIGN true
        (s.warnOpen 0x7 0).loseCellar.syncMem
    if s.fb F.SEC_STATUS_ID_FAIL && enc then s.noCellar 1
    else
      match s.ssd.super with
      | none => fresh s 1
      | some b =>
        if b.version = 1 ∧ b.ident = s.otp.idDigest ∧ b.enc = enc ∧ s.fb F.SEC_STATUS_ID_FAIL = false then
          (s.setPair R.MEM_CELLAR_CAP_LO R.MEM_CELLAR_CAP_HI b.p).mountCellar
        else foreign s (b.seq + 1)

/-- A DEEP page that has been dirty for WB_AGE is written back. -/
def cellarWriteback (page : Nat) (s : State) : State :=
  let p := s.pg page
  if s.cellarReady && !s.mm.resetting && s.mm.pages.any (fun e => e.1 == page) && s.isDeep p && p.stale && !p.lost then s.writeBack page
  else s

/-- What a read of a page's stored bytes finds: whether its CRCs fail (R216). -/
def State.badAtRest (s : State) (page : Nat) : Bool :=
  match s.ssd.find { page := page } with
  | some e => !e.2.intact s.cellarKey s.cellarPages e.1
  | none => false

/-- A DEEP page is in DDR again: one frame, its requests served; a read that fails its CRCs twice leaves the page lost (R216, R227). -/
def demandFillDone (page fails : Nat) (s : State) : State :=
  let p := s.pg page
  if !(s.cellarReady && s.mm.pages.any (fun e => e.1 == page) && s.isDeep p && p.cellar && p.ddr.isNone) then s
  else
    let bad := decide (2 ≤ fails) || s.badAtRest page
    let s := s.addSat F.MEM_CELLAR_CRC_COUNT (if bad then 2 else fails)
    let s : State := { s with mm.nvme := s.mm.nvme.filter (fun e => !(e.1 == 0 && e.2.1 == page)), mm.reread := s.mm.reread.filter (· != page) }
    let s := s.needDdr page
    let s := if bad then s.losePage page 5 0 else s
    ((s.evictLow page 4096).serveWaits.syncMem).serveBar4

/-- An NVMe command completes. A read with an Unrecovered Read Error is a CRC failure (R214): read once more, then the page is lost (R227). -/
def nvmeCompletion (op page : Nat) (err : Bool) (warn used : Nat) (s : State) : State :=
  let was := s.mm.nvme.any (fun e => e.1 == op && e.2.1 == page)
  let s : State := { s with mm.nvme := s.mm.nvme.filter (fun e => !(e.1 == op && e.2.1 == page)) }
  if op = 4 then (s.setF F.MEM_CELLAR_HEALTH_WARNING warn).setF F.MEM_CELLAR_HEALTH_USED_PCT used
  else if !(err && op == 0) then s
  else
    let s := s.addSat F.MEM_CELLAR_CRC_COUNT
    if !was then s
    else if s.mm.reread.contains page then (s.loseAbsent page).syncMem
    else ({ s with mm.reread := page :: s.mm.reread, mm.nvme := (0, page, 0) :: s.mm.nvme } : State).emit (s.nvmeOut 0 page)

/-- The NVMe controller is reset; the third reset within 60 s leaves Cellar FAILED (R214). -/
def State.nvmeReset (s : State) : State :=
  let l := s.mono :: s.mm.resets.filter (fun t => decide (s.mono ≤ t + 60000000000))
  let s : State := { s with mm.resets := l, mm.resetting := true }
  let s := (s.addSat F.MEM_CELLAR_STATUS_RESETS).event 0x7 6
  if l.length < 3 then s
  else
    let s := (s.setF F.MEM_CELLAR_STATUS_STATE 5).setB F.MEM_STATUS_CELLAR_FAILED true
    let s := ({ s.setB F.MEM_STATUS_CELLAR_READY false with mm.resetting := false } : State).event 0x7 7
    s.loseCellar.syncMem

/-- An NVMe command times out: aborted and sent again once; a second timeout, or a failed abort, resets the controller. -/
def nvmeTimeout (op page : Nat) (abortOk : Bool) (s : State) : State :=
  if s.cellarGone || s.mm.resetting then s
  else
    let s := s.addSat F.MEM_CELLAR_TIMEOUTS_COUNT
    let tries := match s.mm.nvme.find? (fun e => e.1 == op && e.2.1 == page) with | some e => e.2.2 | none => 0
    let s : State := { s with mm.nvme := (op, page, tries + 1) :: s.mm.nvme.filter (fun e => !(e.1 == op && e.2.1 == page)) }
    let s := if tries = 0 then s.emit (.nvme 9 page false) else s
    if tries = 0 ∧ abortOk then s.emit (s.nvmeOut op page) else s.nvmeReset

/-- A controller reset completes: the outstanding commands are sent again (R214). -/
def cellarResetDone (s : State) : State :=
  if !s.mm.resetting then s
  else
    let s : State := { s with mm.resetting := false, mm.nvme := s.mm.nvme.map (fun e => (e.1, e.2.1, 0)) }
    (s.mm.nvme.foldl (fun s e => s.emit (s.nvmeOut e.1 e.2.1)) s).serveWaits.syncMem

/-- A checkpoint is written to the copy not in force, then flushed, the superblock that names it last (R217). -/
def cellarCheckpoint (s : State) : State :=
  if !s.cellarReady || s.mm.resetting then s
  else
    match s.ssd.super with
    | none => s
    | some b =>
      let s : State := { s with ssd := s.ssd.checkpoint b }
      let s := ((s.emit (.nvme 1 (ckptLba b.p (!b.ckpt)) false)).emit (.nvme 2 0 false))
      s.emit (.nvme 1 (if s.ssd.sb0 == s.ssd.super then 0 else 1) true)

/-! ## DDR5 housekeeping (R209) -/

/-- A channel tracks DQS drift. -/
def ddrDqsTrack (c : Nat) (drift : Int) (s : State) : State :=
  if c < 4 ∧ s.f F.MEM_CH_STATE_STATE c ≠ 0 then { s with mm.dqs := tput 0 s.mm.dqs c drift } else s

/-- A channel runs ZQ calibration. -/
def ddrZqCal (c : Nat) (s : State) : State :=
  if c < 4 ∧ s.f F.MEM_CH_STATE_STATE c ≠ 0 then { s with mm.zqAt := tput 0 s.mm.zqAt c s.mono } else s

/-- MR4 is read: the refresh interval is halved while a device reports more than 85 °C. -/
def ddrMr4Read (c : Nat) (hot : Bool) (s : State) : State :=
  if c < 4 ∧ s.f F.MEM_CH_STATE_STATE c ≠ 0 then s.setB F.MEM_CH_STATE_HOT_REFRESH hot c else s

/-! ## Meanings -/

/-- MIGRATION_PASS (R220). -/
def execMigrationPass (counts : List (Nat × Nat × Bool)) (s : State) : Host.Outcome State Fault Refusal :=
  done (whenUp (migrationPass counts) s)
/-- PAGE_MIGRATE_SWITCH (R221). -/
def execPageMigrateSwitch (page : Nat) (s : State) : Host.Outcome State Fault Refusal := done (whenUp (pageMigrateSwitch page) s)
/-- DEMAND_FILL_DONE (R221). -/
def execDemandFillDone (page fails : Nat) (s : State) : Host.Outcome State Fault Refusal := done (whenUp (demandFillDone page fails) s)
/-- SCRUB_STEP (R211). -/
def execScrubStep (tier unit addr : Nat) (fixed : Bool) (s : State) : Host.Outcome State Fault Refusal :=
  done (whenUp (scrubStep tier unit addr fixed) s)
/-- CORRECTED_ERROR (R211). -/
def execCorrectedError (tier unit kind addr : Nat) (s : State) : Host.Outcome State Fault Refusal :=
  done (whenUp (correctedError tier unit kind addr) s)
/-- CHANNEL_DRAIN_DONE (R212). -/
def execChannelDrainDone (ch : Nat) (s : State) : Host.Outcome State Fault Refusal := done (whenUp (channelDrainDone ch) s)
/-- UNCORRECTABLE_ERROR (R223). -/
def execUncorrectableError (tier unit kind addr block : Nat) (s : State) : Host.Outcome State Fault Refusal :=
  done (whenUp (uncorrectableError tier unit kind addr block) s)
/-- PHY_LOCK_LOSS (R212). -/
def execPhyLockLoss (ch : Nat) (s : State) : Host.Outcome State Fault Refusal := done (whenUp (phyLockLoss ch) s)
/-- RETRAIN_TIMEOUT (R212). -/
def execRetrainTimeout (ch : Nat) (s : State) : Host.Outcome State Fault Refusal := done (whenUp (retrainTimeout ch) s)
/-- DDR_RETRAIN_DONE (R212). -/
def execDdrRetrainDone (ch : Nat) (s : State) : Host.Outcome State Fault Refusal := done (whenUp (ddrRetrainDone ch) s)
/-- REFILL_DONE (R225). -/
def execRefillDone (page bad : Nat) (s : State) : Host.Outcome State Fault Refusal := done (whenUp (refillDone page bad) s)
/-- ADDRESS_FAULT (R205). -/
def execAddressFault (addr block : Nat) (s : State) : Host.Outcome State Fault Refusal := done (whenUp (addressFault addr block) s)
/-- DDR_DQS_TRACK (R209). -/
def execDdrDqsTrack (ch : Nat) (drift : Int) (s : State) : Host.Outcome State Fault Refusal := done (whenUp (ddrDqsTrack ch drift) s)
/-- DDR_ZQ_CAL (R209). -/
def execDdrZqCal (ch : Nat) (s : State) : Host.Outcome State Fault Refusal := done (whenUp (ddrZqCal ch) s)
/-- DDR_MR4_READ (R209). -/
def execDdrMr4Read (ch : Nat) (hot : Bool) (s : State) : Host.Outcome State Fault Refusal := done (whenUp (ddrMr4Read ch hot) s)
/-- NVME_COMPLETION (R214). -/
def execNvmeCompletion (op page : Nat) (err : Bool) (warn used : Nat) (s : State) : Host.Outcome State Fault Refusal :=
  done (whenUp (nvmeCompletion op page err warn used) s)
/-- NVME_TIMEOUT (R214). -/
def execNvmeTimeout (op page : Nat) (abortOk : Bool) (s : State) : Host.Outcome State Fault Refusal :=
  done (whenUp (nvmeTimeout op page abortOk) s)
/-- CELLAR_RESET_DONE (R214). -/
def execCellarResetDone (s : State) : Host.Outcome State Fault Refusal := done (whenUp cellarResetDone s)
/-- CELLAR_CHECKPOINT (R217). -/
def execCellarCheckpoint (s : State) : Host.Outcome State Fault Refusal := done (whenUp cellarCheckpoint s)
/-- CELLAR_WRITEBACK (R217). -/
def execCellarWriteback (page : Nat) (s : State) : Host.Outcome State Fault Refusal := done (whenUp (cellarWriteback page) s)
/-- CELLAR_BRINGUP_DONE (R218). -/
def execCellarBringupDone (found : CellarFind) (s : State) : Host.Outcome State Fault Refusal :=
  done (whenUp (cellarBringupDone found) s)

end Sys2Proof.Machine
end

