-- ==== Sys2Proof/Machine/Kettle.lean ====
section
/-!
DEFINITION. The Kettle (chapter 10): delta entries and the problem store, readiness and scheduling of solves, step control and
convergence, deadlines, solution records. The numbers of a solve are functions of its problem (KettleNum).
-/

namespace Sys2Proof.Machine
open Sys2Proof

/-! ## Problems -/

/-- A problem's state. -/
def State.prob (s : State) (p : Nat) : ProbSt := tget {} s.ktl.probs p

/-- A problem's state changes. -/
def State.setProb (s : State) (p : Nat) (x : ProbSt) : State := { s with ktl.probs := tput {} s.ktl.probs p x }

/-- Whether a problem slot is enabled. -/
def State.probOn (s : State) (p : Nat) : Bool := decide (p < 64) && s.fb F.KTL_PROB_CTL_ENABLE p

/-- The kind of a problem (Table 10-1). -/
def State.kindOf (s : State) (p : Nat) : Nat := s.f F.KTL_PROB_CTL_KIND p

/-- The problem of a kind that belongs to a session. -/
def State.sesProb (s : State) (kind n : Nat) : Option Nat :=
  (List.range 64).find? (fun p => s.probOn p && s.kindOf p == kind && s.f F.KTL_PROB_CTL_SESSION p == n)

/-- The pose-graph problem of a map (R298). -/
def State.mapProb (s : State) (map : Nat) : Option Nat :=
  (List.range 64).find? (fun p => s.probOn p && s.kindOf p == 3 && s.f F.KTL_PROB_MAP_MAP_ID p == map)

/-- The identifier of a variable (R270): type, session, index. -/
def varId (typ ses idx : Nat) : Nat := typ * 2 ^ 56 + ses * 2 ^ 48 + idx % 2 ^ 48

/-- Whether fewer Kettles work than are enabled (R294). -/
def State.ktlShort (s : State) : Bool := decide (s.workingOf 0xA < activeOf s.otp.part 0xA)

/-- WINDOW_KF, or WINDOW_KF′ where Kettles are lost (R294). -/
def State.windowOf (s : State) (p : Nat) : Nat :=
  let w := s.f F.KTL_PROB_WINDOW_WINDOW_KF p
  if s.ktlShort ∧ s.kindOf p = 0 then
    Nat.max (s.f F.KTL_PROB_WINDOW_WINDOW_MIN p) (w * s.workingOf 0xA / activeOf s.otp.part 0xA)
  else w

/-! ## What the numbers of a problem depend on (R267) -/

/-- The entries from one up to the root of its tree, with their numbers; the root itself has no transform. -/
def State.ttWalk (s : State) (i : Nat) : List (Nat × List Byte) :=
  ((s.ttChain i 2048).map (fun j => (j, s.ttEntry j))).filter (fun e => ttNum e.2 2 2 != 0xFFFF)

/-- The transform entries a factor depends on beside its variables (Table 10-3): a camera's, a session's IMU's, a chain's, a session's wheel's. -/
def State.kEnv (s : State) (p : Nat) (f : KFac) : KEnv :=
  let n := s.f F.KTL_PROB_CTL_SESSION p
  let frame := s.ttWalk (s.stateEntry n)
  match f.typ with
  | 1 => let c := nth 0xFFFF f.val 2; { ent := s.ttEntry c, own := s.ttWalk c, base := frame }
  | 3 => { ent := s.ttEntry (s.f F.FRM_SES_SRC_IMU n) }
  | 4 => { own := frame, base := s.ttWalk (s.f F.FRM_SES_FRAME_REFERENCE n),
           joints := (s.ttChain (f.val.getLastD 0xFFFF) 2048).filter (fun i => let k := ttNum (s.ttEntry i) 0 1; k == 2 || k == 3) }
  | 5 => { own := s.ttWalk (s.f F.FRM_SES_WHEEL_ENTRY n), base := frame }
  | _ => {}

/-- The numbers of a problem with factors in an order under its settings; RELPOSE refines by LM with a Huber kernel of INLIER_PX (R296). -/
def State.kWith (s : State) (p : Nat) (facs : List (KFac × KEnv)) (order : List KVar) (fixed : KVals) : KProb :=
  let kind := s.kindOf p
  { facs := facs, order := order, fixed := fixed, kernel := if kind = 2 then 1 else s.f F.KTL_PROB_KERNEL_KERNEL p,
    k := if kind = 2 then Fv.ofRat (s.f F.KTL_PROB_RANSAC_INLIER_PX p) 16 else fp16.dec (s.f F.KTL_PROB_KERNEL_SCALE p),
    schur := kind == 0 || kind == 1 || kind == 4, dogleg := s.fb F.KTL_PROB_CTL_STEP p && kind != 2, qr := s.fb F.KTL_PROB_CTL_FACTOR p,
    refine := s.f F.KTL_REFINE_REFINE_MAX }

/-- The numbers of a run: what its start held (R267). -/
def State.kRun (s : State) (p : Nat) (r : Run) : KProb := s.kWith p r.facs r.order r.fixed

/-- A problem's structure digest under its settings (R277). -/
def State.digestOf (s : State) (p : Nat) (x : ProbSt) : Nat :=
  x.digest (s.kindOf p) (s.f F.KTL_PROB_WINDOW_WINDOW_KF p) (s.f F.KTL_PROB_WINDOW_BAND p)

/-- The bytes of a problem's store region from its store on (R268). -/
def State.storeRoom (s : State) (p : Nat) : Nat :=
  let a := s.pair R.KTL_PROB_STORE_LO R.KTL_PROB_STORE_HI p
  match s.rgnOf (a / 65536) with
  | some r => 65536 * (s.rgnBase r + s.rgnPages r) - a
  | none => 0

/-! ## Delta entries (R273–R276) -/

/-- What applying entries finds: the problem, entries dropped, whether the store overflowed, whether the front stage must run,
observations dropped for the band; and the factors it has added among variables that the problem had. -/
structure Applied where
  x : ProbSt
  dropped : Nat := 0
  full : Bool := false
  front : Bool := false
  band : Nat := 0
  paths : List (List Nat) := []

/-- What the entries of a problem are applied under: its kind, BAND, the room of its store, and the numbers of factors. -/
structure EntryCtx where
  kind : Nat
  band : Nat
  room : Nat
  nums : List KFac → KProb

/-- A value that is not finite (R274). -/
def Delta.bad (d : Delta) : Bool := d.val.any fp64.special || d.info.any fp64.special

/-- Whether a factor's information matrix is positive definite; a σ may not be 0. A MARG prior's H is no information matrix. -/
def KFac.pd (f : KFac) : Bool := f.typ == 6 || (if f.typ = 1 then nth 0 f.val 3 % fp64.sign != 0 else posDef f.lambda)

/-- Whether a value fits a variable: its type is the identifier's, its length Table 10-2's. -/
def valFits (id typ : Nat) (val : List Nat) : Bool := idTyp id == typ && val.length == varLen typ

/-- Whether an entry that adds would exceed the store (R274): entries applied leave the ring. -/
def ProbSt.overfull (x : ProbSt) (room : Nat) (d : Delta) : Bool := decide (room < ({ x with ring := [] } : ProbSt).stored + d.size)

/-- Keyframes among the variables of a problem that observe the points of a REPROJ factor. -/
def ProbSt.observers (x : ProbSt) (vars : List Nat) : List Nat :=
  let pts := vars.filter (fun v => v / 2 ^ 56 == 2)
  (x.facs.filter (fun f => f.typ == 1 && f.vars.any (fun v => pts.contains v))).flatMap (fun f =>
    (f.vars.filter (fun v => v / 2 ^ 56 == 0)).take 1)

/-- The distance of two keyframes. -/
def apart (a b : Nat) : Nat := Nat.max (a % 2 ^ 48) (b % 2 ^ 48) - Nat.min (a % 2 ^ 48) (b % 2 ^ 48)

/-- Removal of a variable with its factors; marginalised, those factors become part of the one MARG factor over their other variables;
in a WINDOW problem (`band`) a keyframe's is over the keyframes within BAND of it, and a point's over its keyframes (R292). -/
def ProbSt.removeVar (x : ProbSt) (id : Nat) (marg : Bool) (band : Option Nat) (mk : List KFac → KProb) : ProbSt :=
  let hit := x.facs.filter (fun f => f.vars.contains id)
  let others := (hit.flatMap (·.vars)).eraseDups.filter (· != id)
  let facs := x.facs.filter (fun f => !f.vars.contains id)
  let vars := x.vars.filter (fun v => v.id != id)
  let others := match band with
    | none => others
    | some b => if id / 2 ^ 56 = 0 then (vars.filter (fun v => v.typ == 0 && decide (apart v.id id ≤ b))).map (·.id)
                else others.filter (fun v => v / 2 ^ 56 == 0)
  if marg ∧ !others.isEmpty then
    let old := facs.filter (·.made)
    let vals := x.vars.map (fun v =>
      (v.id, match x.vals.find? (fun e => e.1 == v.id) with | some e => e.2 | none => v.val))
    let rest := (old.flatMap (·.vars) ++ others).eraseDups
    let h := (mk (old ++ hit)).marg id rest vals
    let m : KFac := { id := varId 6 0xFF id, typ := 6, vars := rest, made := true, val := h.1, info := h.2 }
    { x with vars := vars, facs := facs.filter (fun f => !f.made) ++ [m] }
  else { x with vars := vars, facs := facs }

/-- Whether a change of variables leaves the ordering's structure in place (R275). -/
def addInPlace (kind : Nat) (w : KVar) (x : ProbSt) : Bool :=
  let rest := x.vars.filter (fun v => v.typ != 2)
  (w.typ == 2 && (kind == 0 || kind == 1 || kind == 4)) || kind == 3 || rest.isEmpty || (kind == 4 && w.calib)
    || (rest.all (fun v => decide (v.idx ≤ w.idx)) && !(kind == 4 && rest.any (·.calib)))

/-- Removal of the oldest keyframe or state, or of a point, in WINDOW, SMOOTH and CALIB (R275). -/
def removeInPlace (kind : Nat) (v : KVar) (x : ProbSt) : Bool :=
  (kind == 0 || kind == 1 || kind == 4)
    && (v.typ == 2 || (x.vars.filter (fun w => w.typ != 2 && !(kind == 4 && w.calib))).all (fun w => decide (v.idx ≤ w.idx)))

/-- One entry applied (Table 10-4, R273, R274, R292). -/
def Applied.entry (a : Applied) (q : EntryCtx) (d : Delta) : Applied :=
  let x := a.x
  let hasV := x.vars.any (fun v => v.id == d.id)
  let hasF := x.facs.any (fun f => f.id == d.id)
  let drop := { a with dropped := a.dropped + 1 }
  let full := { drop with full := true }
  if d.op = 7 then a
  else if d.bad then drop
  else
    match d.op with
    | 1 =>
      if hasV || hasF || !valFits d.id d.typ d.val then drop
      else if x.overfull q.room d then full
      else
        let w : KVar := { id := d.id, typ := d.typ, val := d.val }
        { a with x := { x with vars := x.vars ++ [w] }, front := a.front || !addInPlace q.kind w x }
    | 2 =>
      match x.vars.find? (fun v => v.id == d.id) with
      | none => drop
      | some v => { a with x := x.removeVar d.id d.marg (if q.kind = 0 then some q.band else none) q.nums, front := a.front || !removeInPlace q.kind v x }
    | 3 =>
      match x.vars.find? (fun v => v.id == d.id) with
      | none => drop
      | some v =>
        if !valFits d.id v.typ d.val then drop
        else { a with x := { x with vars := x.vars.map (fun v => if v.id = d.id then ({ v with val := d.val } : KVar) else v),
                                    vals := x.vals.filter (fun e => e.1 != d.id) } }
    | 4 =>
      let f : KFac := { id := d.id, typ := d.typ, vars := d.vars, val := d.val, info := d.info }
      if hasV || hasF || d.vars.any (fun v => !x.vars.any (fun w => w.id == v)) || !f.pd then drop
      else if x.overfull q.room d then full
      else
        let far := d.typ == 1 && q.kind == 0
          && (x.observers d.vars).any (fun o => (d.vars.filter (fun v => idTyp v == 0)).take 1 |>.any (fun v => decide (q.band < apart o v)))
        if far then { a with band := a.band + 1 }
        else
          let wide := q.kind == 0 && d.typ != 1
            && d.vars.any (fun v => d.vars.any (fun w => idTyp v == 0 && idTyp w == 0 && decide (q.band < apart v w)))
          { a with x := { x with facs := x.facs ++ [f] }, front := a.front || wide, paths := a.paths ++ [d.vars.filter (fun v => idTyp v != 2)] }
    | 5 =>
      match x.facs.find? (fun f => f.id == d.id) with
      | none => drop
      | some f =>
        let f : KFac := { f with val := d.val, info := d.info }
        if !f.pd then drop else { a with x := { x with facs := x.facs.map (fun g => if g.id = d.id then f else g) } }
    | 6 => if hasF then { a with x := { x with facs := x.facs.filter (fun f => f.id != d.id) } } else drop
    | _ => drop

/-- The oldest keyframes beyond a window of `w` are marginalised, with the points no other keyframe observes (R292, R294); at most
`fuel` of them. -/
def ProbSt.shrink (x : ProbSt) (w : Nat) (q : EntryCtx) : (fuel : Nat) → ProbSt
  | 0 => x
  | f + 1 =>
    let kfs := x.vars.filter (fun v => v.typ == 0)
    if kfs.length ≤ w then x
    else
      match bestBy (fun (a b : KVar) => decide (a.idx < b.idx)) kfs with
      | none => x
      | some v =>
        let own := x.vars.filter (fun q => q.typ == 2 && (let o := x.observers [q.id]; !o.isEmpty && o.all (· == v.id)))
        ((own.foldl (fun (x : ProbSt) o => x.removeVar o.id true (some q.band) q.nums) x).removeVar v.id true (some q.band) q.nums).shrink w q f

/-! ## Records (R302, R303) -/

/-- The placement epoch of the problem's node (R370). -/
def State.ktlEpoch (s : State) (p : Nat) : Nat :=
  let out := s.f F.KTL_PROB_TALLY_OUT p
  match s.dsp.graph.nodes.findIdx? (fun n => n.block == 9 && n.advs.any (fun a => a.tally == out)) with
  | some n => tget 0 s.dsp.epochs n
  | none => 0

/-- The slot of the record ring that a solve_seq takes. -/
def State.ktlSlot (s : State) (p seq : Nat) : Nat :=
  s.pair R.KTL_PROB_OUT_LO R.KTL_PROB_OUT_HI p
    + (seq - 1) % Nat.max 1 (s.f F.KTL_PROB_CTL_OUT_FRAMES p) * nth 65536 s.bt.img.ktlSlot p

/-- Counters and events of a record's conditions (Table 10-13). -/
def State.ktlCount (s : State) (p st : Nat) (conds : List Nat) (flags : Nat) : State :=
  let on := fun (c : Nat) => conds.contains c
  let ev := fun (s : State) (bit : Nat) => s.event 0x9 bit p 0 st (s.f F.KTL_PROB_SEQ_SEQ p)
  let s := if on St.partial then ev ((s.addSat F.KTL_PARTIAL_COUNT).addSat F.KTL_PROB_COUNTS_PARTIAL 1 p) 0 else s
  let s := if on St.notConverged then ev (s.addSat F.KTL_NOT_CONVERGED_COUNT) 1 else s
  let s := if bitOf flags 3 then ev (s.addSat F.KTL_LATE_COUNT) 2 else s
  let s := if on St.cold then ev (s.addSat F.KTL_PROB_COUNTS_COLD 1 p) 3 else s
  let s := if bitOf flags 4 then ev s 4 else s
  let s := if bitOf flags 5 then ev (s.addSat F.KTL_REANALYSE_COUNT) 5 else s
  let s := if bitOf flags 9 then ev s 6 else s
  let s := if bitOf flags 8 then ev s 7 else s
  if bitOf flags 13 then ev s 8 else s

/-- What a record carries beside its run. -/
structure RecIn where
  conds : List Nat := []
  flags : Nat := 0
  cost0 : Nat
  cost1 : Nat
  grad : Nat
  eta : Nat
  out : Nat := 0
  len : Nat := 0
  inliers : Nat := 0
  solve : Nat := 0
  wait : Nat := 0

/-- A solution record (Table 10-6) is written; then the output Tally advances. -/
def State.ktlRecord (s : State) (p : Nat) (t : Trig) (iters : Nat) (r : RecIn) : State :=
  let x := s.prob p
  let seq := x.seq + 1
  let conds := r.conds.eraseDups
  let st := statusOf conds
  let flags := r.flags ||| (if 1 < conds.length then 2 ^ 15 else 0)
  let kind := s.kindOf p
  let dig := s.digestOf p x
  let bytes := leBytes 1 p ++ leBytes 1 kind ++ leBytes 1 st ++ leBytes 1 iters ++ leBytes 4 flags ++ leBytes 8 seq ++ tsBytes t.ts
    ++ leBytes 4 (s.ktlEpoch p) ++ leBytes 8 r.cost0 ++ leBytes 8 r.cost1 ++ leBytes 8 r.grad ++ leBytes 8 r.eta ++ leBytes 8 dig
    ++ leBytes 4 x.vars.length ++ leBytes 4 x.facs.length ++ leBytes 8 r.out ++ leBytes 4 r.len ++ leBytes 4 r.inliers
    ++ leBytes 8 t.key ++ leBytes 4 (satU 32 r.solve) ++ leBytes 4 (satU 32 r.wait) ++ zeroBytes 16
  let a := s.ktlSlot p seq
  let s := (s.wrList a bytes).publish 3 p true bytes a
  let s := s.setProb p { x with seq := seq, dropped := false, bandDrop := false, lastEnd := some s.mono }
  let s := (s.setF F.KTL_PROB_LAST_STATUS st p).setF F.KTL_PROB_LAST_ITERATIONS iters p
  let s := (s.setF F.KTL_PROB_LAST_FLAGS flags p).setF F.KTL_PROB_SEQ_SEQ seq p
  let s := (s.setF F.KTL_PROB_VARS_COUNT x.vars.length p).setF F.KTL_PROB_FACTORS_COUNT x.facs.length p
  let s := (s.setF F.KTL_PROB_TIME_US (satU 32 r.solve) p).setF F.KTL_PROB_WAIT_US (satU 32 r.wait) p
  let s := s.setPair R.KTL_PROB_DIGEST_LO R.KTL_PROB_DIGEST_HI dig p
  let s := (s.addPair R.KTL_SOLVES_LO R.KTL_SOLVES_HI).ktlCount p st conds flags
  let s := s.logHidden 0x9 p conds [St.partial, St.notConverged, St.cold] seq
  s.advance 0x9 (s.f F.KTL_PROB_TALLY_OUT p) 1

/-- A record of a solve that was not run: its costs, gradient norm and backward error are open (R274, R288, R289). A BODY record's header has a status and no
flags. -/
def State.notRun (s : State) (p : Nat) (t : Trig) (conds : List Nat) (flags out len : Nat) : State :=
  let x := s.prob p
  if s.kindOf p = 5 then
    let seq := x.seq + 1
    let st := statusOf conds
    let s := s.wrList (s.ktlSlot p seq) (leBytes 8 seq ++ leBytes 2 0 ++ leBytes 1 st ++ zeroBytes 21)
    let s := (s.setProb p { x with seq := seq, lastEnd := some s.mono }).setF F.KTL_PROB_SEQ_SEQ seq p
    let s := ((s.setF F.KTL_PROB_LAST_STATUS st p).addPair R.KTL_SOLVES_LO R.KTL_SOLVES_HI).ktlCount p st conds flags
    s.advance 0x9 (s.f F.KTL_PROB_TALLY_OUT p) 1
  else
    let v := fun (k : Nat) => Config.freeNat (s.free + k)
    let f := flags ||| (8192 * b2n x.dropped) ||| (256 * b2n x.bandDrop)
    let s : State := { s with free := s.free + 4 }
    s.ktlRecord p t 0 { conds := conds, flags := f, cost0 := v 0, cost1 := v 1, grad := v 2, eta := v 3, out := out, len := len,
                        wait := (s.mono - t.since) / 1000 }

/-- A solve that is not run, with the values of the previous solution (R274). -/
def State.refuseSolve (s : State) (p : Nat) (t : Trig) (conds : List Nat) (flags : Nat) : State :=
  match (s.prob p).sol with
  | some v => s.notRun p t (St.invalidInput :: conds) flags v.2.1 v.2.2
  | none => s.notRun p t (St.invalidInput :: conds) flags 0 0

/-- KTL_QUEUE. -/
def State.syncKtl (s : State) : State :=
  let n := fun (p : Nat) => (s.prob p).ready.length
  let all := sumN ((List.range 64).map n)
  let q := sumN (((List.range 64).filter (fun p => s.kindOf p == 2 || s.kindOf p == 5)).map n)
  ((s.setF F.KTL_QUEUE_READY (satU 8 all)).setF F.KTL_QUEUE_QUEUED (satU 8 q))

/-! ## Starting, preempting (R287, R290, R291) -/

/-- A solve's deadline: its ready time plus DEADLINE; none where that is 0. -/
def State.solveDue (s : State) (p : Nat) (t : Trig) : Option Nat :=
  let d := s.f F.KTL_DEADLINE_US p
  if d = 0 then none else some (t.since + 1000 * d)

/-- The trigger that problem p would run next: a preempted solve's, or its first ready one. -/
def State.nextTrig (s : State) (p : Nat) : Option Trig :=
  let x := s.prob p
  match x.run with
  | some r => if r.unit.isNone && !r.ended then some r.trig else none
  | none => x.ready.head?

/-- Whether problem p's next solve comes before problem q's (R287): class, deadline, slot. -/
def State.solveBefore (s : State) (p q : Nat) : Bool :=
  let c := fun (p : Nat) => s.f F.KTL_PROB_CTL_CLASS p
  let due := fun (p : Nat) => match s.nextTrig p with | some t => s.solveDue p t | none => none
  let before : Bool := match due p, due q with
    | some a, some b => decide (a < b)
    | some _, none => true
    | none, _ => false
  decide (c p < c q) || (c p == c q && (before || (due p == due q && decide (p < q))))

/-- The logical Kettles that run nothing. -/
def State.freeKettles (s : State) : List Nat :=
  let used := s.ktl.probs.filterMap (fun e => match e.2.run with | some r => r.unit | none => none)
  (s.places 0xA).filter (fun l => (s.physOf 0xA 0 l).isSome && !used.contains l)

/-- Problems with a solve to run; CALIB only while no other is ready where Kettles are lost (R294). -/
def State.startable (s : State) : List Nat :=
  let l := (List.range 64).filter (fun p => s.probOn p && (s.nextTrig p).isSome)
  if s.ktlShort ∧ l.any (fun p => s.kindOf p != 4) then l.filter (fun p => s.kindOf p != 4) else l

/-- 2^−k as a value. -/
def pow2neg (k : Nat) : Fv := Fv.fin false 1 (2 ^ k)

/-- ‖g‖∞ ≤ 2^−TOL_G (R286). -/
def State.gradSmall (s : State) (p g : Nat) : Bool := (fp64.dec g).le (pow2neg (s.f F.KTL_PROB_TOL_TOL_G p))

/-- The values that a solution record at an address publishes (R291, Table 10-6). -/
def State.recVals (s : State) (a : Nat) : KVals :=
  let q := s.rdNum a 1
  let l := s.rdList (s.rdNum (a + 80) 8) (s.rdNum (a + 88) 4)
  if s.rdNum (a + 1) 1 = 0 then
    windowVars (s.f F.KTL_PROB_CTL_SESSION q) ((s.prob q).vars.filter (fun v => v.typ == 0)).length l
  else areaVars l l.length

/-- The work units of a solve's setup and front stage (R275, R276, Table 10-8): the problem before its entries, and after; the paths that new factors fill. -/
def ProbSt.setupUnits (x y : ProbSt) (paths : List (List Nat)) (anew : Bool) : List Nat :=
  let gone := x.ring.filter (fun d => d.op == 2 && d.marg)
  let d := sumN ((y.facs.filter (·.made)).map KFac.dim)
  let had := paths.filter (fun l => l.all (fun v => x.vars.any (fun w => w.id == v)))
  cutWork (2 * x.ring.length + 64 * (x.ring.filter (fun d => d.op == 1 || d.op == 2)).length + 64 * sumN (had.map (pathSupers x.cols))
    + (if gone.isEmpty then 0 else ceilDiv (d * d) 28
        + x.pointWork (x.vars.filter (fun v => v.typ == 2 && gone.any (fun e => e.id == v.id)))))
  ++ (if anew then cutWork (16 * (y.vars.length + sumN (y.facs.map (fun f => f.vars.length))) + ceilDiv (nnzL y.cols) 16) else [])

/-- The bytes of Kettle SRAM (R264, Table 8-1). -/
def ktlSram : Nat := 8 * 2 ^ 20

/-- The bytes of a problem's structure. -/
def State.structOf (s : State) (p : Nat) : Nat := let l := (s.prob p).cols; Config.structBytes (nnzL l) l.length

/-- The first problems of a list whose structures fit Kettle SRAM together. -/
def State.fitSram (s : State) (room : Nat) : List Nat → List Nat
  | [] => []
  | p :: ps => if s.structOf p ≤ room then p :: s.fitSram (room - s.structOf p) ps else []

/-- A logical Kettle caches the structure of the problem it runs, with those it ran before as they fit; no other unit's copy stays (R264, R275). -/
def State.cacheAt (s : State) (p l : Nat) : State :=
  let t : Table (List Nat) := s.ktl.sram.filterMap (fun e => let q := e.2.filter (· != p); if e.1 = l ∨ q.isEmpty then none else some (e.1, q))
  { s with ktl.sram := tput [] t l (s.fitSram ktlSram (p :: (tget [] s.ktl.sram l).filter (· != p))) }

/-- The logical Kettle that caches a problem's structure (R287). -/
def State.cachedAt (s : State) (p : Nat) : Option Nat := (s.ktl.sram.find? (fun e => e.2.contains p)).map (·.1)

/-- The correspondences of a RELPOSE solve as REPROJ factors over its pose, σ one pixel, and the landmarks they name, held fixed (R296). -/
def State.relIn (s : State) (p : Nat) (t : Trig) : List (KFac × KEnv) × KVals :=
  let n := s.f F.KTL_PROB_CTL_SESSION p
  let lm := fun (i : Nat) => varId 2 0xFF i
  ((t.corr.zip (List.range t.corr.length)).map (fun c =>
      let f : KFac := { id := c.2, typ := 1, vars := [varId 0 n t.key, lm c.1.2.2.1],
                        val := [fp64.ofRat (c.1.1 : Nat) 65536, fp64.ofRat (c.1.2.1 : Nat) 65536, s.camEntry (s.camByte n c.1.2.2.2 % 32), fp64.ofInt 1] }
      (f, s.kEnv p f)),
    t.corr.map (fun c => (lm c.2.2.1, (List.range 3).map (fun k => wide (s.rdNum (s.pair R.FRM_LM_STORE_LO R.FRM_LM_STORE_HI + 64 * c.2.2.1 + 4 * k) 4)))))

/-- A run at its warm start: scales, cost, gradient norm, and whether it has converged there (R286). -/
def State.warmRun (s : State) (p : Nat) (r : Run) (sc : KScales) : Run × KScales :=
  let q := s.kRun p r
  let lin := q.rows r.x0
  let sc := withScales lin r.order sc
  let g := gradNorm lin r.order sc
  let small := s.gradSmall p g
  let c := (q.cost r.x0).1
  ({ r with flags := r.flags ||| b2n small, ended := small, x := r.x0, cost0 := c, cost1 := c, grad := g,
            began := s.mono + cyclesNs (sumN r.pre) }, sc)

/-- A RELPOSE solve starts (R296): the sampling gives the pose that the refinement starts from; with none there is nothing to iterate. -/
def State.startRel (s : State) (p l : Nat) (t : Trig) : State :=
  let y := s.prob p
  let i := s.relIn p t
  let px := s.f F.KTL_PROB_RANSAC_INLIER_PX p
  let a := ransac i.1 i.2 (s.f F.KTL_PROB_SEED_SEED p) (y.seq + 1) (s.f F.KTL_PROB_RANSAC_HYP_MAX p) px
  let v : KVar := { id := varId 0 (s.f F.KTL_PROB_CTL_SESSION p) t.key, typ := 0 }
  let r : Run := { trig := t, unit := some l, started := s.mono, flags := (256 * b2n y.bandDrop) ||| (8192 * b2n y.dropped), corrs := i.1, fixed := i.2,
                   pre := cutWork (640 * a.samples + ceilDiv (i.1.length * a.poses) 2 + 40000) }
  match a.best with
  | none => s.setProb p { y with run := some { r with ended := true, began := s.mono + cyclesNs (sumN r.pre) }, scales := [] }
  | some b =>
    let own := (inliersOf b.1 px i.2 i.1).filterMap (fun k => (i.1.drop k).head?)
    let z := s.warmRun p { r with facs := own, order := [v], x0 := [(v.id, b.1)] } []
    s.setProb p { y with run := some z.1, scales := z.2 }

/-- What starting a solve finds before it runs: the warm start's digest, if there is one, and whether the digests differ (R291). -/
def State.warmOf (s : State) (p : Nat) (t : Trig) (y : ProbSt) : Option Nat :=
  match t.warm with
  | some addr => some (s.rdNum (addr + 64) 8)
  | none => if s.fb F.KTL_PROB_CTL_WARM p then y.sol.map (·.1) else none

/-- Whether a warm start's variables come in another order than the problem's (R291). -/
def otherOrder (order : List KVar) (from' : KVals) : Bool :=
  let ids := (order.filter (fun v => v.typ != 2)).map (·.id)
  let was := (from'.map (·.1)).filter ids.contains
  was != ids.filter was.contains

/-- A solve of a kind that is neither RELPOSE nor BODY starts from its problem as the entries leave it (R276, R291): the front stage where it is due, the warm
start, the conditions of its record. -/
def State.startRun (s : State) (p l : Nat) (t : Trig) (x y : ProbSt) (paths : List (List Nat)) (cold shrunk : Bool) : State :=
  let kind := s.kindOf p
  let prior := s.warmOf p t y
  let other := t.warm.map s.recVals
  let grown := decide (0 < y.nnz0) && decide (s.f F.KTL_PROB_REORDER_REORDER p * y.nnz0 < 256 * nnzL y.cols)
  let anew := y.front || grown || (cold && otherOrder (y.order kind) (other.getD y.vals))
  let y := if anew then { y with cols := y.analyse kind, front := false } else y
  let order := y.order kind
  let flags := (32 * b2n anew) ||| (64 * b2n cold) ||| (128 * b2n shrunk) ||| (256 * b2n y.bandDrop) ||| (8192 * b2n y.dropped)
  let keep := prior.isSome && !cold && t.warm.isNone
  let r : Run := { trig := t, unit := some l, started := s.mono, flags := flags, conds := condsOf [(St.cold, cold), (St.degraded, shrunk)],
                   damp := if keep then y.damp else none, facs := y.facs.map (fun f => (f, s.kEnv p f)), order := order,
                   x0 := y.startVals order prior.isSome cold other, pre := x.setupUnits y paths anew }
  let z := s.warmRun p r (if anew then [] else y.scales)
  s.setProb p { y with run := some z.1, scales := z.2, nnz0 := if anew || y.nnz0 == 0 then nnzL y.cols else y.nnz0 }

/-- A solve starts on logical Kettle `l`: the entries up to now are applied (R273), the warm start is compared with the structure (R291),
and a solve that cannot run gets its record at once (R274). -/
def State.startSolve (s : State) (p l : Nat) : State :=
  let x := s.prob p
  match x.run, x.ready with
  | some r, _ => (s.setProb p { x with run := some { r with unit := some l, began := s.mono } }).cacheAt p l
  | none, [] => s
  | none, t :: rest =>
    let kind := s.kindOf p
    let nums := fun (l : List KFac) => s.kWith p (l.map (fun f => (f, s.kEnv p f))) [] []
    let q : EntryCtx := { kind := kind, band := s.f F.KTL_PROB_WINDOW_BAND p, room := s.storeRoom p, nums := nums }
    let a := x.ring.foldl (fun (a : Applied) d => a.entry q d) { x := x }
    let kfs := (a.x.vars.filter (fun v => v.typ == 0)).length
    let shrunk := s.ktlShort && kind == 0
    let y := if shrunk then a.x.shrink (s.windowOf p) q kfs else a.x
    let s := (s.addSat F.KTL_INPUT_DROPPED_COUNT a.dropped).addSat F.KTL_BAND_DROP_COUNT a.band
    let s := if a.full then s.event 0x9 12 p else s
    let y : ProbSt := { y with ring := [], ready := rest, dropped := x.dropped || decide (0 < a.dropped), bandDrop := x.bandDrop || decide (0 < a.band),
                               front := x.front || a.front, cols := if kind = 2 ∨ kind = 5 then [] else y.grow kind }
    let s := (s.setProb p y).cacheAt p l
    let lone := y.vars.any (fun v => !y.facs.any (fun f => f.vars.contains v.id))
    let cold : Bool := match s.warmOf p t y with | some d => d != s.digestOf p y | none => false
    if kind = 5 then s.setProb p { y with run := some { trig := t, unit := some l, started := s.mono, began := s.mono } }
    else if lone || (kind != 2 && y.vars.isEmpty) then
      if kind = 2 then s.refuseSolve p t [] 0
      else s.refuseSolve p t (condsOf [(St.cold, cold), (St.degraded, shrunk)]) ((64 * b2n cold) ||| (128 * b2n shrunk))
    else if kind = 2 then s.startRel p l t
    else s.startRun p l t x y a.paths cold shrunk

/-- Ready solves are started on free Kettles, in their order. -/
def State.startSolves (s : State) : (fuel : Nat) → State
  | 0 => s
  | f + 1 =>
    match s.freeKettles, bestBy s.solveBefore s.startable with
    | l :: rest, some p =>
      -- a problem goes to the unit that caches its structure where that one is free (R287)
      let at' := match s.cachedAt p with | some h => if rest.contains h then h else l | none => l
      (s.startSolve p at').startSolves f
    | _, _ => s

/-- The running solve of the lowest class below class `c`. -/
def State.victim (s : State) (c : Nat) : Option Nat :=
  let running := (List.range 64).filter (fun p => match (s.prob p).run with
    | some r => r.unit.isSome && !r.ended && decide (c < s.f F.KTL_PROB_CTL_CLASS p)
    | none => false)
  bestBy (fun p q => decide (s.f F.KTL_PROB_CTL_CLASS q < s.f F.KTL_PROB_CTL_CLASS p)) running

/-- A solve of problem p has become ready: it is started, or preempts the running solve of the lowest class below it (R290). -/
def State.onReady (s : State) (p : Nat) : State :=
  let s := s.startSolves 64
  if s.freeKettles.isEmpty ∧ s.startable.contains p then
    match s.victim (s.f F.KTL_PROB_CTL_CLASS p) with
    | none => s
    | some q =>
      let x := s.prob q
      match x.run with
      | none => s
      | some r =>
        ((s.setProb q { x with run := some { r with unit := none, flags := r.flags ||| 4096 } }).addSat F.KTL_PREEMPT_COUNT).startSolves 64
  else s

/-- A SOLVE entry becomes ready (R287, R288). -/
def State.newSolve (s : State) (p : Nat) (d : Delta) : State :=
  let x := s.prob p
  let t : Trig := { ts := d.ts, key := d.key, warm := d.warm, loop := d.loop, since := s.mono, corr := d.corr, inp := d.inp }
  let kind := s.kindOf p
  if kind = 2 ∨ kind = 5 then
    if 64 ≤ x.ready.length then ((s.notRun p t [St.late] 8 0 0).event 0x9 11 p).syncKtl
    else ((s.setProb p { x with ready := x.ready ++ [t] }).onReady p).syncKtl
  else
    let s := if x.ready.isEmpty then s else s.addSat F.KTL_COALESCED_COUNT
    ((s.setProb p { x with ready := [t] }).onReady p).syncKtl

/-- Entries enter the delta ring of a problem, and its SOLVE entries become ready (R273, R287). -/
def State.takeDeltas (s : State) (p : Nat) (l : List Delta) : State :=
  if !s.probOn p then s
  else
    let x := s.prob p
    let s := s.setProb p { x with ring := x.ring ++ l }
    (l.filter (fun d => d.op == 7)).foldl (fun s d => s.newSolve p d) s

/-- Whether a map is shared over the cascade: a SHARDED place index is bound to it, or its dense map lies in a SHARED region (R430). -/
def State.mapShared (s : State) (id : Nat) : Bool :=
  s.inCascade &&
    ((List.range 8).any (fun i => s.fb F.CSK_IDX_CTL_ENABLE i && s.fb F.CSK_IDX_CTL_SHARDED i && s.f F.CSK_IDX_MAP_MAP_ID i == id)
      || (List.range 8).any (fun m => s.fb F.KLN_MAP_CTL_ENABLE m && s.f F.KLN_MAP_ID_MAP_ID m == id
          && (List.range 32).any (fun n => s.fb F.LNK_SHARED_RGN_ENABLE n
                && s.rgnOf (s.pair R.KLN_MAP_BASE_LO R.KLN_MAP_BASE_HI m / 65536) == some (s.f F.LNK_SHARED_RGN_REGION n))))

/-- Whether a problem is the pose graph of a shared map: it runs on the master (R298, R426). -/
def State.sharedGraph (s : State) (p : Nat) : Bool := s.kindOf p == 3 && s.mapShared (s.f F.KTL_PROB_MAP_MAP_ID p)

/-- Whether the standby keeps a copy of a problem of this part (R426). -/
def State.copiesTo (s : State) (p : Nat) : Option Nat :=
  let sb := s.f F.LNK_CFG_STANDBY
  if s.sharedGraph p && s.role == 1 && sb != s.deviceId && s.memberIn sb then some sb else none

/-- Entries that reach a problem of this part, with the standby's copy (R426). -/
def State.keepDeltas (s : State) (p : Nat) (l : List Delta) : State :=
  let s := match s.copiesTo p with | some sb => s.sendMsg sb 2 (.delta p l) | none => s
  s.takeDeltas p l

/-- A block of entries that its Tally advance has shown reaches its problem; those of a shared map's pose graph go to the master (R298, R426). -/
def State.postDeltas (s : State) (p : Nat) (l : List Delta) : State :=
  if s.sharedGraph p && s.role != 1 then s.sendMsg (s.f F.LNK_STATUS_MASTER_NOW) 2 (.delta p l) else s.keepDeltas p l

/-- A producer posts a block of entries: they are appended, then the input Tally advances; a block whose advance is dropped is not seen (R287). -/
def State.ktlPostBy (s : State) (src p amount : Nat) (stamp : Option Nat) (l : List Delta) : State :=
  let t := s.f F.KTL_PROB_TALLY_IN p
  let seen := s.producer src t
  let s := s.advance src t amount stamp
  if seen then s.postDeltas p l else s

/-- A producer of the part posts a block of entries, the input Tally advancing once. -/
def State.ktlPost (s : State) (src p : Nat) (l : List Delta) : State := s.ktlPostBy src p 1 none l

/-! ## Iterations (R278–R286) -/

/-- λ after an accepted step of gain γ (R284): λ × max(1/3, 1 − (2γ − 1)³), in FP64. -/
def lambdaDown (lam gain : Nat) : Nat :=
  let one := fp64.ofInt 1
  let t := fp64.sub (fp64.mul (fp64.ofInt 2) gain) one
  let v := fp64.sub one (fp64.mul (fp64.mul t t) t)
  let third := fp64.ofRat 1 3
  fp64.mul lam (if fp64.lt v third then third else v)

/-- Whether a problem steps by the dogleg; RELPOSE refines by LM (R296). -/
def State.doglegOn (s : State) (p : Nat) : Bool := s.fb F.KTL_PROB_CTL_STEP p && s.kindOf p != 2

/-- The damping after an iteration (R284, R285): λ and ν of LM, or the trust radius Δ of the dogleg (in the first component), and
whether its limit stops the solve. -/
def State.dampStep (s : State) (p : Nat) (was : Option (Nat × Nat)) (accepted : Bool) (o : IterIn) : (Nat × Nat) × Bool :=
  let two := fp64.ofInt 2
  if !s.doglegOn p then
    let init := (fp64.mul (fp64.enc (pow2neg (s.f F.KTL_PROB_TOL_LAMBDA0 p))) o.maxDiag, two)
    let d := was.getD init
    if accepted then ((lambdaDown d.1 o.gain, two), false)
    else
      let lam := fp64.mul d.1 d.2
      let top := (fp64.dec o.maxDiag).mul (Fv.ofInt (2 ^ 40))
      if top.lt (fp64.dec lam) then (d, true) else ((lam, fp64.mul d.2 two), false)
  else
    let d := (was.getD (fp64.ofInt 1, 0)).1
    let g := fp64.dec o.gain
    let bad := o.abandoned || decide (0 < o.fxSat) || !o.second
    let d' := if bad || g.lt (Fv.ofRat 1 4) then fp64.div d (fp64.ofInt 4)
      else if (Fv.ofRat 3 4).lt g then (let h := fp64.mul (fp64.ofInt 3) o.step; if fp64.lt d h then h else d)
      else d
    ((d', 0), (fp64.dec d').lt (pow2neg 40))

/-- The convergence tests of R286 after an accepted step. -/
def State.stepSmall (s : State) (p : Nat) (o : IterIn) : Bool :=
  let x := pow2neg (s.f F.KTL_PROB_TOL_TOL_X p)
  let fell := (fp64.dec o.cost0).add (fp64.dec o.cost1).neg
  (fp64.dec o.step).le (x.mul ((fp64.dec o.norm).add x)) || fell.le ((pow2neg (s.f F.KTL_PROB_TOL_TOL_F p)).mul (fp64.dec o.cost0))

/-- A second failed check asks for the swap of the unit with its spare (R282): the swap is due at its boundary. -/
def State.askSwap (s : State) (l : Nat) : State :=
  match s.physOf 0xA 0 l, s.freeSpares 0xA 0 with
  | some i, sp :: _ =>
    { s with dsp.visits := s.dsp.visits ++ [{ cls := 0xA, group := 0, spare := sp, logical := l, phys := i, phase := 1 }] }
  | _, _ => s

/-- The damping of a run's next iteration (R284, R285): at the first, λ = 2^−LAMBDA0 × max(diag H) and ν = 2, or Δ = 1. -/
def State.dampOf (s : State) (p : Nat) (r : Run) (q : KProb) : Nat × Nat :=
  r.damp.getD (if !s.doglegOn p then
      (fp64.mul (fp64.enc (pow2neg (s.f F.KTL_PROB_TOL_LAMBDA0 p))) (maxDiagOf (q.rows r.x) q.order (s.prob p).scales), fp64.ofInt 2)
    else (fp64.ofInt 1, 0))

/-- What the running iteration of a solve gives: its numbers, the candidate and the backward error. `bad1` and `bad2` say that the unit erred in
the passes of the check (R282); the η that an erring second pass finds is open. -/
def State.kIter (s : State) (p : Nat) (r : Run) (bad1 bad2 : Bool) : IterIn × KVals × Nat :=
  let sc := (s.prob p).scales
  let q := s.kRun p r
  let n := q.iterate sc r.x (s.dampOf p r q) (s.f F.KTL_CHECK_CHECK) bad1 bad2 (Config.freeNat s.free)
  let ok := !n.1.abandoned && n.1.fxSat == 0 && (n.1.first || n.1.second) && (Fv.ofInt 0).lt (fp64.dec n.1.gain)
  ({ n.1 with grad := if ok then gradNorm (q.rows n.2.1) q.order sc else r.grad }, n.2)

/-- A Kettle solve. -/
def State.failSolve (s : State) (p : Nat) : State :=
  let x := s.prob p
  match x.run with
  | none => s
  | some r =>
    let s := s.setProb p { x with run := none }
    let s := s.refuseSolve p r.trig r.conds r.flags
    (s.startSolves 64).syncKtl

/-- Whether a problem's store, a DDR_PINNED region (R268), meets a poisoned line. -/
def State.storePoisoned (s : State) (p : Nat) : Bool :=
  s.poisoned (s.pair R.KTL_PROB_STORE_LO R.KTL_PROB_STORE_HI p) (s.storeRoom p)

/-- An iteration boundary (R283): the step is accepted or rejected, and convergence is tested. -/
def kettleIterationDone (p : Nat) (bad1 bad2 : Bool) (s : State) : State :=
  let x := s.prob p
  match x.run with
  | none => s
  | some r =>
    match r.unit with
    | none => s
    | some l =>
      if r.ended || s.kindOf p == 5 || !s.probOn p then s
      else if s.storePoisoned p then (s.poisonTask p).failSolve p
      else
        let i := s.kIter p r bad1 bad2
        let o := i.1
        let s : State := { s with free := s.free + 1 }
        let s := if o.first then s else s.addSat F.KTL_CHECK_FAIL_FIRST
        let failed := !o.first && !o.second
        let s := if failed then (s.addSat F.KTL_CHECK_FAIL_SECOND).askSwap l else s
        let s := s.addSat F.KTL_FX_SAT_COUNT o.fxSat
        let accepted := !o.abandoned && o.fxSat == 0 && !failed && (Fv.ofInt 0).lt (fp64.dec o.gain)
        let d := s.dampStep p r.damp accepted { o with second := !failed }
        let n := r.iters + 1
        let small := accepted && s.stepSmall p o
        let most := decide (s.f F.KTL_PROB_CTL_ITER_MAX p ≤ n)
        -- a refinement ends after 20 iterations (R296)
        let last := most || (s.kindOf p == 2 && decide (20 ≤ n))
        let conv := small || (!last && !d.2 && s.gradSmall p o.grad)
        let flags := r.flags ||| (16 * b2n failed) ||| (512 * b2n (decide (0 < o.fxSat))) ||| (b2n conv)
          ||| (1024 * b2n (d.2 && !conv))
        let out := d.2 || last
        s.setProb p { x with run := some { r with iters := n, flags := flags, damp := some d.1, ended := conv || out,
                                                  conds := if conv || !(d.2 || most) then r.conds else St.notConverged :: r.conds,
                                                  x := if accepted then i.2.1 else r.x, cost1 := if accepted then o.cost1 else r.cost1,
                                                  grad := if small || out then r.grad else o.grad, eta := i.2.2, began := s.mono } }

/-! ## Deadlines (R279, R289) -/

/-- When a running solve stops (R279, R289): at the first boundary of its work units, within 20 µs. -/
def State.stopTime (s : State) (p : Nat) (r : Run) : Nat :=
  let x := s.prob p
  let q := s.kRun p r
  let o := q.step (q.rows r.x) x.scales (s.dampOf p r q)
  let pre := r.began - cyclesNs (sumN r.pre)
  let t := if s.mono < r.began then pre + cyclesNs (unitEnd (nsCycles (s.mono - pre)) 0 r.pre)
    else r.began + cyclesNs (unitEnd (nsCycles (s.mono - r.began)) 0 (x.iterUnits q.qr o.passes))
  Nat.min (s.mono + 20000) (Nat.max s.mono t)

/-- Whether a trigger's deadline has passed. -/
def State.overdue (s : State) (p : Nat) (t : Trig) : Bool := match s.solveDue p t with | some d => decide (d ≤ s.mono) | none => false

/-- A solve's deadline passes. -/
def solveDeadline (p n : Nat) (s : State) : State :=
  let x := s.prob p
  match x.run with
  | some r =>
    if s.kindOf p = 5 ∨ r.ended ∨ !s.overdue p r.trig then s
    else
      let inside := r.unit.isSome && decide (r.began < s.mono)
      (s.setProb p { x with run := some { r with ended := true, conds := St.partial :: r.conds,
                                                 flags := r.flags ||| (if inside then 4 else 2),
                                                 stopAt := if r.unit.isSome then s.stopTime p r else s.mono } })
  | none =>
    match x.ready.drop n with
    | [] => s
    | t :: _ =>
      if !s.overdue p t then s
      else
        let s := s.setProb p { x with ready := x.ready.take n ++ x.ready.drop (n + 1) }
        (s.notRun p t [St.late] 8 0 0).syncKtl

/-! ## Landmark records and cache slots (R243) -/

/-- The address of a landmark record. -/
def State.lmAddr (s : State) (i : Nat) : Nat := s.pair R.FRM_LM_STORE_LO R.FRM_LM_STORE_HI + 64 * i

/-- Whether a landmark is marked BAD. -/
def State.lmBad (s : State) (i : Nat) : Bool := bitOf (s.rdNum (s.lmAddr i + 15) 1) 0

/-- A landmark's cache slot. -/
def State.lmSlot (s : State) (i : Nat) : Option Nat :=
  let v := s.rdNum (s.lmAddr i + 28) 4
  if v = 0xFFFFFFFF then none else some v

/-- A compact-cache coordinate: counts of 2 mm in 21 bits. -/
def cacheCoord (p : Nat) : Nat := uns 21 ((fp32.dec p).rneMul 500)

/-- The cache entry of a landmark's position. -/
def State.lmEntry (s : State) (i : Nat) : Nat :=
  let c := fun (k : Nat) => cacheCoord (s.rdNum (s.lmAddr i + 4 * k) 4)
  2 ^ 63 + c 0 * 2 ^ 42 + c 1 * 2 ^ 21 + c 2

/-- A landmark takes a cache slot: a free one, or that of the cached landmark with the oldest last_seen, ties to the higher slot
(R243). -/
def State.takeSlot (s : State) (i : Nat) : State :=
  let cap := s.f F.FRM_LM_CACHE_ENTRIES
  if cap = 0 ∨ (s.lmSlot i).isSome then s
  else
    let free := (List.range (s.frm.cache.length + 1)).find? (fun k => tget 0 s.frm.cache k == 0 && decide (k < cap))
    let old := fun (e : Nat × Nat) => s.rdNum (s.lmAddr (e.2 - 1) + 24) 4
    let r : State × Nat := match free with
      | some k => (s, k)
      | none =>
        match bestBy (fun (a b : Nat × Nat) => decide (old a < old b) || (old a == old b && decide (b.1 < a.1))) s.frm.cache with
        | some e => ((s.wrNum (s.lmAddr (e.2 - 1) + 28) 4 0xFFFFFFFF).addSat F.FRM_LM_EVICTED_COUNT, e.1)
        | none => (s, 0)
    let k := r.2
    let s : State := { r.1 with frm.cache := tput 0 r.1.frm.cache k (i + 1) }
    let s := s.wrNum (s.lmAddr i + 28) 4 k
    let s := s.wrNum (s.pair R.FRM_LM_CACHE_LO R.FRM_LM_CACHE_HI + 8 * k) 8 (s.lmEntry i)
    s.wrNum (s.pair R.FRM_LM_TAG_LO R.FRM_LM_TAG_HI + 4 * k) 4 i

/-! ## Completion -/

/-- The inlier threshold of the caller (R296). -/
def State.inlierThr (s : State) (p : Nat) (t : Trig) : Nat :=
  if t.loop then s.f F.KTL_PROB_RANSAC_LOOP_INLIERS p else s.f F.FRM_SES_RELOC_RELOC_INLIERS (s.f F.KTL_PROB_CTL_SESSION p)

/-- Whether every calibrated variable that has a PRIOR has a marginal standard deviation below half the prior's sigma (R299). -/
def State.sigmaOk (s : State) (p : Nat) (r : Run) : Bool :=
  let x := s.prob p
  let q := s.kRun p r
  (x.vars.filter (·.calib)).all (fun v =>
    match x.facs.find? (fun f => f.typ == 0 && f.vars == [v.id]) with
    | none => true
    | some f =>
      let d := varDof v.typ
      let sd := q.sigma r.x v.id
      (List.range d).all (fun c =>
        -- the diagonal entry c of an upper triangle; sd² < ¼ σ² is 4 sd² H < 1
        let h := fp64.dec (nth 0 f.info (c * d - c * (c - 1) / 2))
        let t := fp64.dec (nth 0 sd c)
        ((Fv.ofInt 4).mul ((t.mul t).mul h)).lt (Fv.ofInt 1)))

/-- What a solve publishes beside what its run holds. -/
structure SolveOut where
  values : List Byte := []
  inliers : Nat := 0
  inLms : List Nat := []
  eigOk : Bool := false
  sigmaOk : Bool := true
  cost0 : Nat := 0
  cost1 : Nat := 0
  grad : Nat := 0
  eta : Nat := 0

/-- What a run publishes (R293, R296, R302): a RELPOSE its refined pose with its covariance, its inliers counted again. -/
def State.solveOut (s : State) (p : Nat) (r : Run) : SolveOut :=
  let kind := s.kindOf p
  let q := s.kRun p r
  let out : SolveOut := { cost0 := r.cost0, cost1 := r.cost1, grad := r.grad, eta := r.eta }
  if kind = 2 then
    match r.order with
    | v :: _ =>
      let pose := valOf r.x v.id
      let own := inliersOf pose (s.f F.KTL_PROB_RANSAC_INLIER_PX p) r.fixed r.corrs
      { out with values := leBytes 8 v.id ++ (List.range 7).flatMap (fun i => leBytes 8 (nth 0 pose i)) ++ covArea (q.cov r.x v.id),
                 inliers := own.length, inLms := own.map (fun i => (nth (0, 0, 0, 0) r.trig.corr i).2.2.1), eigOk := eigWell (q.marginal r.x v.id) }
    | [] => out
  else
    let cov := match (q.order.filter (fun v => v.typ == 0)).getLast? with | some v => q.cov r.x v.id | none => []
    { out with values := valuesArea kind q.order r.x0 r.x cov, sigmaOk := s.sigmaOk p r }

/-- A solve writes its values, its record, and advances its output Tally (R302); its Kettle is free for the next. -/
def solveComplete (p : Nat) (s : State) : State :=
  let x := s.prob p
  match x.run with
  | none => s
  | some r =>
    let kind := s.kindOf p
    if kind = 5 ∨ !r.ended ∨ s.mono < r.stopAt then s
    else
      let o := s.solveOut p r
      let verified := kind == 2 && decide (s.inlierThr p r.trig ≤ o.inliers) && o.eigOk && decide (0 < o.inliers)
      let flags := r.flags ||| (2048 * b2n verified) ||| (16384 * b2n (kind == 4 && !(bitOf r.flags 0 && o.sigmaOk)))
      let seq := x.seq + 1
      let addr := s.ktlSlot p seq + 128
      let s := s.wrList addr o.values
      let s := ((s.setF F.KTL_PROB_F_KFMA (satU 32 (sumN (x.cols.map colFma) / 1000)) p).setF F.KTL_PROB_NNZ_ENTRIES (satU 32 (nnzL x.cols)) p).setF
        F.KTL_PROB_SUPERNODES_COUNT (satU 32 ((superFma x.cols).flatMap (cutSupernode (s.fb F.KTL_PROB_CTL_FACTOR p))).length) p
      let dig := s.digestOf p x
      let s := s.setProb p { x with run := none, damp := r.damp, vals := r.x,
                                    sol := if o.values.isEmpty then x.sol else some (dig, addr, o.values.length) }
      let s := match s.copiesTo p with | some sb => s.sendMsg sb 2 (.solution p seq dig o.values) | none => s
      -- inliers of a verified solve regain a cache slot (R243)
      let s := if verified then (o.inLms.filter s.frm.lms.contains).foldl State.takeSlot s else s
      let s := s.ktlRecord p r.trig r.iters
        { conds := r.conds, flags := flags, cost0 := o.cost0, cost1 := o.cost1, grad := o.grad, eta := o.eta,
          out := if o.values.isEmpty then 0 else addr, len := o.values.length, inliers := o.inliers,
          solve := (s.mono - r.started) / 1000, wait := (r.started - r.trig.since) / 1000 }
      (s.startSolves 64).syncKtl

/-- The link table of a body, and whether the inputs of a solve are whole: the table in use, 3 numbers a joint and 9 of the base, all finite, and
a tip that exists (R301). -/
def State.bodyTable (s : State) (b : Nat) : List Byte :=
  s.rdList (s.pair R.KTL_BODY_TABLE_LO R.KTL_BODY_TABLE_HI b) (128 * s.f F.KTL_BODY_CTL_LINKS b)

def State.bodyInOk (s : State) (b tip : Nat) (v : List Nat) : Bool :=
  let n := s.f F.KTL_BODY_CTL_LINKS b
  let joints := ((List.range n).filter (fun i => nth 0#8 (s.bodyTable b) (128 * i + 1) != 0#8)).length
  decide (b < 8) && s.fb F.KTL_BODY_CTL_ENABLE b && v.length == 3 * joints + 9 && !v.any fp64.special && (tip == 0xFF || decide (tip < n))

/-- A BODY solve completes (R301): its output record is written and the output Tally advances. -/
def bodySolveDone (p : Nat) (s : State) : State :=
  let x := s.prob p
  match x.run with
  | none => s
  | some r =>
    if s.kindOf p ≠ 5 then s
    else
      let body := nth 0xFF r.trig.inp 0
      let tip := nth 0xFF r.trig.inp 1
      let seq := x.seq + 1
      let links := s.f F.KTL_BODY_CTL_LINKS body
      let ok := s.bodyInOk body tip (r.trig.inp.drop 2)
      let st := if ok then St.ok else St.invalidInput
      let out := if ok then bodyBytes (linksOf (s.bodyTable body) links) (fp32.dec (s.f F.KTL_GRAVITY_G)) ((r.trig.inp.drop 2).map fp64.dec) tip else []
      let head := leBytes 8 seq ++ leBytes 1 body ++ leBytes 1 links ++ leBytes 1 st ++ zeroBytes 21
      let s := s.wrList (s.ktlSlot p seq) (head ++ out)
      let s := s.setProb p { x with run := none, seq := seq, lastEnd := some s.mono }
      let s := if body < 8 then (s.setF F.KTL_BODY_LAST_STATUS st body).addWrap F.KTL_BODY_LAST_SOLVES 1 body else s
      let s := (s.setF F.KTL_PROB_SEQ_SEQ seq p).addPair R.KTL_SOLVES_LO R.KTL_SOLVES_HI
      let s := (s.setF F.KTL_PROB_LAST_STATUS st p).setF F.KTL_PROB_TIME_US (satU 32 ((s.mono - r.started) / 1000)) p
      let s := s.setF F.KTL_PROB_WAIT_US (satU 32 ((r.started - r.trig.since) / 1000)) p
      let s := s.advance 0x9 (s.f F.KTL_PROB_TALLY_OUT p) 1
      (s.startSolves 64).syncKtl

/-- With loop factors pending and PG_GAP passed since the last solve, the fold-in task posts a pose-graph SOLVE (R298). -/
def posegraphPost (p : Nat) (s : State) : State :=
  let x := s.prob p
  let gap : Bool := match x.lastEnd with
    | some t => decide (t + 1000000 * s.f F.KTL_PG_GAP_MS ≤ s.mono)
    | none => true
  if !s.probOn p || s.kindOf p ≠ 3 || !x.pendingLoop || !gap then s
  else
    let key := match x.loops.head? with | some l => l.1 | none => 0
    (s.setProb p { x with pendingLoop := false }).ktlPost 0x8 p [{ op := 7, ts := s.now, key := key }]

/-! ## Meanings -/

/-- KETTLE_ITERATION_DONE (R283). -/
def execKettleIterationDone (p : Nat) (bad1 bad2 : Bool) (s : State) : Host.Outcome State Fault Refusal :=
  done (whenUp (kettleIterationDone p bad1 bad2) s)
/-- SOLVE_DEADLINE (R289). -/
def execSolveDeadline (p n : Nat) (s : State) : Host.Outcome State Fault Refusal := done (whenUp (solveDeadline p n) s)
/-- SOLVE_COMPLETE (R302). -/
def execSolveComplete (p : Nat) (s : State) : Host.Outcome State Fault Refusal := done (whenUp (solveComplete p) s)
/-- BODY_SOLVE_DONE (R301). -/
def execBodySolveDone (p : Nat) (s : State) : Host.Outcome State Fault Refusal := done (whenUp (bodySolveDone p) s)
/-- POSEGRAPH_POST (R298). -/
def execPosegraphPost (p : Nat) (s : State) : Host.Outcome State Fault Refusal := done (whenUp (posegraphPost p) s)

end Sys2Proof.Machine
end

