-- ==== Sys2Proof/Machine/Sparge.lean ====
section
/-!
DEFINITION. The Sparge chain (chapter 05): SPI, SSI, quadrature and CAN FD inputs, and a channel's chain from raw value to record.
-/

namespace Sys2Proof.Machine
open Sys2Proof

/-! ## Channel settings -/

/-- A channel's state. -/
def State.chan (s : State) (c : Nat) : ChanSt := tget {} s.spg.ch c

/-- A channel's state changes. -/
def State.setChan (s : State) (c : Nat) (x : ChanSt) : State := { s with spg.ch := tput {} s.spg.ch c x }

/-- L, N and Q of a channel; with Q = 1 the decimator is bypassed and N has no effect (R112, R113). -/
def State.chL (s : State) (c : Nat) : Nat := 2 * s.f F.SPG_CH_CTL_MEDIAN c + 1
def State.chN (s : State) (c : Nat) : Nat := s.f F.SPG_CH_CTL_ORDER c

/-- The taps of the first half of the built-in sets (R114), FP32 patterns from h[0] to the middle. -/
def builtIn : Nat → List Nat
  | 1 => [3162209384, 590452163, 1049193068, 1056760559]
  | 2 => [3135406261, 575818664, 1017166345, 2738061212, 3180724232, 597243430, 1050445988, 1056939132]
  | 3 => [3109403824, 559605792, 990327098, 2723320634, 3151145696, 584968396, 1013524995, 2738076850, 3168701717, 595100925,
          1028310700, 2744740427, 3183932259, 598533489, 1050763464, 1056961402]
  | _ => [0x3F800000]

/-- The half set of a FIR set code: built-in, or a custom bank (R114, R115). -/
def State.halfTaps (s : State) (code : Nat) : List Nat :=
  if 8 ≤ code then
    (List.range ((s.f F.SPG_FIR_LEN_M (code - 8) + 1) / 2)).map (fun n => s.f F.SPG_FIR_COEF_H (code - 8) n)
  else builtIn code

/-- All M taps of a set, mirrored about the middle, in FP64. -/
def State.taps (s : State) (code : Nat) : List Nat :=
  let h := s.halfTaps code
  ((h ++ (h.reverse.drop 1)).map (fp32.conv fp64))

/-- The longer of the channel's two sets (R116). -/
def State.chM (s : State) (c : Nat) : Nat :=
  Nat.max (s.taps (s.f F.SPG_CH_CTL_FIR_A c)).length (s.taps (s.f F.SPG_CH_CTL_FIR_B c)).length

/-- Twice the group delay, in input sample periods (R118). -/
def State.delay2 (s : State) (c : Nat) : Nat :=
  let q := s.chanQ c
  (s.chL c - 1) + (if q = 1 then 0 else s.chN c * (q - 1)) + q * (s.chM c - 1)

/-- The support of an output, in input samples (R111). -/
def State.support (s : State) (c : Nat) : Nat :=
  let q := s.chanQ c
  (s.chL c - 1) + (if q = 1 then 0 else s.chN c * (q - 1)) + q * (s.chM c - 1) + 1

/-- The kind of a channel's source (Table 5-1): 0 SPI, 1 SSI, 2 quadrature, 3 CAN FD. -/
def chanKind (c : Nat) : Nat := if c < 56 then 0 else if c < 64 then 1 else if c < 72 then 2 else 3

/-- The tracked rate that corrects a channel's period, in ppb: that of a data-ready-only SPI port or of a CAN controller (R102,
R119). -/
def State.chRate (s : State) (c : Nat) : Int :=
  if chanKind c = 0 then (if s.fb F.SPG_SPI_CTL_STROBED (c / 7) then 0 else s.fs F.TIME_SNS_RATE_PPB (32 + c / 7))
  else if chanKind c = 3 then s.fs F.TIME_SNS_RATE_PPB (48 + s.f F.SPG_CH_ID_CTRL c)
  else 0

/-- g × T in sixteenths of a nanosecond, T the configured or the tracked period (R119). A tracked rate r makes the period T / (1 + r), for which R102
and R119 give no formula (DESIGN CHOICE of log entry 95). -/
def State.delay16 (s : State) (c : Nat) : Nat :=
  let base := s.delay2 c * s.f F.SPG_CH_PERIOD_NS c * 8
  let r := s.chRate c
  if r = 0 then base else ((base * 1000000000 : Nat) : Int).toNat / (1000000000 + r).toNat

/-- delay_ns: g × T to the nearest nanosecond. -/
def State.delayNs (s : State) (c : Nat) : Nat := (s.delay16 c + 8) / 16

/-- The timeout of a channel: 0 selects the default of Table 5-2; a quadrature channel has none. -/
def State.chTimeout (s : State) (c : Nat) : Nat :=
  let t := s.f F.SPG_CH_TIMEOUT_NS c
  if t ≠ 0 then t
  else match chanKind c with
    | 0 => 4 * s.f F.SPG_CH_PERIOD_NS c
    | 1 => 2000000
    | 2 => 0
    | _ => 3 * s.f F.SPG_CH_PERIOD_NS c

/-- SPG_CH_DELAY of every channel shows g × T (R119). -/
def State.showDelays (s : State) : State :=
  (List.range 88).foldl (fun s c => s.setF F.SPG_CH_DELAY_NS (satU 32 (s.delayNs c)) c) s

/-! ## The stages (R108–R117) -/

/-- The value of a field `WIDTH` bits wide, signed or unsigned (R108). -/
def State.signedField (s : State) (c v : Nat) : Int :=
  let w := s.f F.SPG_CH_SRC_WIDTH c
  if s.fb F.SPG_CH_SRC_SIGNED c then sgn w v else ((v % 2 ^ w : Nat) : Int)

/-- The raw value of an SPI or CAN channel in the bytes read (R108); none where they are too short. -/
def State.fieldOf (s : State) (c : Nat) (data : List Byte) : Option Int :=
  let bit := s.f F.SPG_CH_SRC_BIT c
  let n := ceilDiv (bit + s.f F.SPG_CH_SRC_WIDTH c) 8
  let at' := s.f F.SPG_CH_SRC_BYTE c
  if data.length < at' + n then none
  else
    let bs := (data.drop at').take n
    let v := if s.fb F.SPG_CH_SRC_BIG_ENDIAN c then beValue bs else leValue bs
    some (s.signedField c (v / 2 ^ bit))

/-- One unwrapping step: the difference of two fields, modulo 2^width, centred (R108). -/
def unwrapStep (w : Nat) (raw prev : Int) : Int :=
  let h : Int := ((2 ^ (w - 1) : Nat) : Int)
  (raw - prev + h) % ((2 ^ w : Nat) : Int) - h

/-- The median of the samples held: the lower of the two middle values where their number is even (R112). -/
def median (l : List Int) : Int := nth 0 (sortBy (fun a b => decide (a < b)) l) ((l.length - 1) / 2)

/-- The weights of a CIC of order N and ratio Q, as one FIR: N sums of Q. -/
def cicWeights (q : Nat) : (n : Nat) → List Nat
  | 0 => [1]
  | n + 1 =>
    let w := cicWeights q n
    (List.range (w.length + q - 1)).map (fun i =>
      sumN ((List.range q).map (fun j => if j ≤ i then nth 0 w (i - j) else 0)))

/-- The decimator's output (R113): 64-bit two's complement sums, converted to FP64 and divided by Q^N. -/
def cicOut (q n : Nat) (med : List Int) : Nat :=
  if q = 1 then fp64.ofInt (sgn 64 (uns 64 (nth 0 med 0)))
  else
    let w := cicWeights q n
    let v := sumZ ((List.range w.length).map (fun i => ((nth 0 w i : Nat) : Int) * nth 0 med i))
    fp64.div (fp64.ofInt (sgn 64 (uns 64 v))) (fp64.ofInt ((q ^ n : Nat) : Int))

/-- A FIR in FP64, taps in their order (log entry 20), after `pad` output-sample delays (R116). -/
def firOut (taps dl : List Nat) (pad : Nat) : Nat :=
  (List.range taps.length).foldl (fun acc n => fp64.add acc (fp64.mul (nth 0 taps n) (nth 0 dl (pad + n)))) 0

/-- The output of a set whose taps are padded to the longer set. -/
def State.setOut (s : State) (c : Nat) (taps dl : List Nat) : Nat := firOut taps dl ((s.chM c - taps.length) / 2)

/-- Scaling (R117): y × SCALE + OFFSET in FP64, rounded to FP32. -/
def State.scaled (s : State) (c y : Nat) : Nat :=
  fp64.conv fp32 (fp64.add (fp64.mul y (fp32.conv fp64 (s.f F.SPG_CH_SCALE_SCALE c)))
    (fp32.conv fp64 (s.f F.SPG_CH_OFFSET_OFFSET c)))

/-! ## Records (Table 5-4) -/

/-- SPG_VALID: channel c wrote an OK record within its last timeout. -/
def State.setValid (s : State) (c : Nat) (b : Bool) : State :=
  s.setF F.SPG_VALID_MASK (putBit (s.f F.SPG_VALID_MASK (c / 32)) (c % 32) b) (c / 32)

/-- The timestamp of a record (R119), in ns: the measurement time less the group delay, both in sixteenths of a ns. -/
def State.recordTs (s : State) (c t16 : Nat) : Nat := (t16 - s.delay16 c) / 16

/-- Whether a record of a channel would be later than the last: its timestamps increase strictly (R119). -/
def State.laterTs (s : State) (c t16 : Nat) : Bool :=
  match (s.chan c).lastTs with | some u => decide (u < s.recordTs c t16) | none => true

/-- A channel writes a record and advances its Tally (R119, R120): `t16` is the measurement time in sixteenths of a ns. -/
def State.writeRecord (s : State) (c t16 k value status flags : Nat) (raw : Int) : State :=
  let x := s.chan c
  let ts := s.recordTs c t16
  let d := s.delayNs c
  let bytes := tsBytes ts ++ leBytes 4 value ++ leBytes 4 x.seq ++ leBytes 1 c ++ leBytes 1 status ++ leBytes 2 flags
    ++ leBytes 4 (uns 32 raw) ++ leBytes 4 d
  let slot := x.seq % (64 * 2 ^ s.f F.SPG_CH_RING_CFG_LEN c)
  let s := s.wrList (s.pair R.SPG_CH_RING_LO R.SPG_CH_RING_HI c + 32 * slot) bytes
  let ok := status == St.ok
  let s := s.setChan c { x with seq := (x.seq + 1) % 2 ^ 32, lastOut := some (k, t16), lastTs := some ts, okAt := if ok then some s.now else x.okAt }
  let s := s.hear c { ts := ts, value := value, status := status, flags := flags }
  let fresh := match (s.chan c).okAt with
    | some t => chanKind c == 2 || decide (s.now ≤ t + s.chTimeout c)
    | none => false
  let s := (s.setValid c fresh).setF F.SPG_CH_DELAY_NS (satU 32 d) c
  s.advance 0x4 (s.f F.SPG_CH_RING_CFG_TALLY c) 1 (some ts)

/-- A record is written unless one with its timestamp or a later one stands already: an output instant that already has its ABSENT record gets
no second one at the restart (R119; DEDUCED, log entry 76). -/
def State.spgRecord (s : State) (c t16 k value status flags : Nat) (raw : Int) : State :=
  if s.laterTs c t16 then s.writeRecord c t16 k value status flags raw else s

/-! ## The FIR and its fades (R116) -/

/-- The taps of the channel's set in force, or of its other set. -/
def State.setTaps (s : State) (c : Nat) (b : Bool) : List Nat :=
  s.taps (if b then s.f F.SPG_CH_CTL_FIR_B c else s.f F.SPG_CH_CTL_FIR_A c)

/-- SPG_CH_SWITCH shows the fade. -/
def State.syncSwitch (s : State) (c : Nat) : State :=
  (s.setB F.SPG_CH_SWITCH_SET_B (s.chan c).setB c).setB F.SPG_CH_SWITCH_FADING (s.chan c).fading c

/-- The FIR output at an output instant, with the cross-fade of R116: the state after it, the value, and whether it was formed
during a fade. -/
def State.fadeStep (s : State) (c : Nat) : State × Nat × Bool :=
  let x := s.chan c
  let xf := s.f F.SPG_CH_CTL_XFADE c
  let want := s.tv (s.f F.SPG_CH_SWITCH_TALLY c) % 2 == 1
  let x : ChanSt := if !x.fading && want != x.setB then
      (if xf = 0 then { x with setB := want } else { x with fading := true, target := want, fadeK := 0, oldTaps := none })
    else x
  let fromTaps := x.oldTaps.getD (s.setTaps c x.setB)
  let yFrom := s.setOut c fromTaps x.dl
  if x.fading then
    let k := x.fadeK + 1
    let r := fp64.ofRat k xf
    let one := fp64.ofInt 1
    let y := fp64.add (fp64.mul (fp64.sub one r) yFrom) (fp64.mul r (s.setOut c (s.setTaps c x.target) x.dl))
    let x : ChanSt := if k = xf then { x with fading := false, setB := x.target, fadeK := 0, oldTaps := none }
                      else { x with fadeK := k }
    ((s.setChan c x).syncSwitch c, y, true)
  else ((s.setChan c x).syncSwitch c, yFrom, false)

/-! ## A sample (R109–R113, R120) -/

/-- Mark a sample of the support list. -/
def orAt : List Nat → Nat → Nat → List Nat
  | [], _, _ => []
  | x :: xs, 0, v => (x ||| v) :: xs
  | x :: xs, i + 1, v => x :: orAt xs i v

/-- An output instant: decimator, FIR, record (R113–R120); `qe` is the flag QUAD_ERR of this record (R105). -/
def State.chanOutput (s : State) (c t16 k : Nat) (raw : Int) (qe : Nat) : State :=
  let x := s.chan c
  let q := s.chanQ c
  let s := s.setChan c { x with dl := (cicOut q (s.chN c) x.med :: x.dl).take (s.chM c) }
  let r := s.fadeStep c
  let s := r.1
  let x := s.chan c
  let warm := decide (x.since < s.support c)
  let flags := qe ||| (x.hist.foldl (· ||| ·) 0) ||| (8 * b2n warm) ||| (16 * b2n r.2.2) ||| (128 * b2n x.setB)
  s.spgRecord c t16 k (s.scaled c r.2.1) (if warm then St.invalidInput else St.ok) flags raw

/-- A sample, valid or replaced, goes into the chain: `u` its unwrapped value, `fl` its flags, `qe` a pending QUAD_ERR. -/
def State.feed (s : State) (c t16 k : Nat) (raw u : Int) (fl qe : Nat) : State :=
  let x := s.chan c
  let l := s.chL c
  let win := (u :: x.win).take l
  let m := median win
  let full := win.length == l
  let centre := nth 0 win ((l - 1) / 2)
  let spike := full && decide (s.f F.SPG_CH_SPIKE_THR c < (m - centre).natAbs)
  let hist := (fl :: x.hist).take (s.support c)
  let hist := if spike then orAt hist ((l - 1) / 2) 2 else hist
  let s := s.setChan c { x with since := x.since + 1, win := win,
                                med := (m :: x.med).take (s.chN c * (s.chanQ c - 1) + 1), hist := hist }
  let s := if spike then (s.addSat F.SPG_CH_COUNT_SPIKES 1 c).event 0x4 3 c else s
  if k % s.chanQ c = s.f F.SPG_CH_CTL_DEC_PHASE c then s.chanOutput c t16 k raw qe else s

/-- The state a channel restarts from: its filter state cleared, its counters of records kept (R110, R111). -/
def ChanSt.cleared (x : ChanSt) : ChanSt :=
  { x with since := 0, last := none, win := [], med := [], dl := [], hist := [],
           setB := if x.fading then x.target else x.setB, fading := false, fadeK := 0, oldTaps := none }

/-- What a change of settings restarts a channel for (R116): the lengths of its median, CIC and FIR. -/
def State.chLens (s : State) (c : Nat) : List Nat :=
  [s.chL c, s.chN c, s.chanQ c, (s.setTaps c false).length, (s.setTaps c true).length]

/-- A channel's chain after its settings changed (R116): restarted where a length changed, a fade from its old coefficients where only they
did. -/
def State.chanChanged (s : State) (c : Nat) (lens old : List Nat) : State :=
  let x := s.chan c
  if s.chLens c ≠ lens then (s.setChan c x.cleared).event 0x4 0 c
  else if s.setTaps c x.setB = old ∨ s.f F.SPG_CH_CTL_XFADE c = 0 then s
  else s.setChan c { x with fading := true, target := x.setB, fadeK := 0, oldTaps := some old }

/-- At an output instant, the settings that wait for the channel take effect (R452). -/
def State.takeChan (s : State) (c k : Nat) : State :=
  if s.sec.defer.any (fun e => e.1 == 64 + c) && k % s.chanQ c == s.f F.SPG_CH_CTL_DEC_PHASE c then
    (s.takeDeferred (64 + c)).chanChanged c (s.chLens c) (s.setTaps c (s.chan c).setB)
  else s

/-- One sample of a channel: range check, substitution, restart (R109, R110). `raw` is none for a missed or failed sample; a record formed at a
replaced sample carries the last valid raw value, the one that replaces it (DESIGN CHOICE of log entry 95). -/
def State.sample (s : State) (c t16 k : Nat) (raw : Option Int) (quad : Bool := false) : State :=
  let s := s.takeChan c k
  if !s.fb F.SPG_CH_CTL_ENABLE c then s
  else
    let lo := s.fs F.SPG_CH_MIN_MIN c
    let hi := s.fs F.SPG_CH_MAX_MAX c
    let x := s.chan c
    let ok := match raw with | some r => decide (lo ≤ r ∧ r ≤ hi) | none => false
    let qf := 64 * b2n quad
    if ok then
      let r := raw.getD 0
      let s := if x.out then (s.setChan c { x.cleared with out := false }).event 0x4 0 c else s
      let x := s.chan c
      let u := if s.fb F.SPG_CH_SRC_WRAP c then
          match x.last with
          | some (p, v) => v + unwrapStep (s.f F.SPG_CH_SRC_WIDTH c) r p
          | none => r
        else r
      let sat := r == lo || r == hi
      let s := if sat then s.addSat F.SPG_CH_COUNT_SATURATED 1 c else s
      (s.setChan c { x with last := some (r, u) }).feed c t16 k r u (32 * b2n sat) qf
    else if x.out then s
    else
      match x.last with
      | none => s
      | some (r, u) => ((s.addSat F.SPG_CH_COUNT_SUBST 1 c).event 0x4 2 c).feed c t16 k r u 1 qf

/-! ## SPI ports (R101–R103) -/

/-- A port's state. -/
def State.spi (s : State) (p : Nat) : SpiSt := tget {} s.spg.spi p

/-- A port's state changes. -/
def State.setSpi (s : State) (p : Nat) (x : SpiSt) : State := { s with spg.spi := tput {} s.spg.spi p x }

/-- The seven channels of a port. -/
def spiChans (p : Nat) : List Nat := (List.range 7).map (7 * p + ·)

/-- Every channel of a port takes a missed or failed sample. -/
def State.missAll (s : State) (p t16 k : Nat) : State := (spiChans p).foldl (fun s c => s.sample c t16 k none) s

/-- The command bytes of a port. -/
def State.spiCmd (s : State) (p : Nat) : List Byte := (leBytes 4 (s.f F.SPG_SPI_CMD_BYTES p)).take (s.f F.SPG_SPI_WAIT_CMD_LEN p)

/-- A conversion whose read has not started by the next strobe is missed (R102). -/
def State.missConv (s : State) (p : Nat) : State :=
  match (s.spi p).conv with
  | none => s
  | some (k, t16) =>
    let s := s.setSpi p { s.spi p with conv := none, run := 0 }
    let s := (s.addSat F.SPG_SPI_STAT_MISSED 1 p).event 0x4 4 p
    s.missAll p t16 k

/-- A conversion-start strobe fires and starts a conversion (R101, R102). -/
def conversionStrobeEdge (n : Nat) (s : State) : State :=
  if !(decide (n < 8) && s.edgeDue (32 + n)) then s
  else
    let k := tget 0 s.tm.trigNext (32 + n)
    let t16 := 2 * s.edge8 (32 + n) k
    let s := s.fireEdge (32 + n)
    if s.fb F.SPG_SPI_CTL_ENABLE n && s.fb F.SPG_SPI_CTL_STROBED n then
      let s := s.missConv n
      s.setSpi n { s.spi n with conv := some (k, t16), drdy := none }
    else s

/-- A data-ready edge starts a read (R101). -/
def spiDataReady (p : Nat) (s : State) : State :=
  if !(decide (p < 8) && s.fb F.SPG_SPI_CTL_ENABLE p && s.fb F.SPG_SPI_CTL_DRDY p) || (s.spi p).reading.isSome then s
  else
    let x := s.spi p
    if s.fb F.SPG_SPI_CTL_STROBED p then
      match x.conv with
      | none => s
      | some c => (s.setSpi p { x with conv := none, reading := some c, drdy := some s.now }).emit (.spi p (s.spiCmd p))
    else
      let t := s.now - s.f F.SPG_SPI_LATENCY_NS p
      let s := s.setSpi p { x with reading := some (x.count, 16 * t), drdy := some s.now, count := x.count + 1 }
      s.emit (.spi p (s.spiCmd p))

/-- Without a data-ready input the read starts WAIT_NS after the strobe (R101). -/
def spiWaitExpire (p : Nat) (s : State) : State :=
  if !(decide (p < 8) && s.fb F.SPG_SPI_CTL_ENABLE p && s.fb F.SPG_SPI_CTL_STROBED p)
      || s.fb F.SPG_SPI_CTL_DRDY p || (s.spi p).reading.isSome then s
  else
    match (s.spi p).conv with
    | none => s
    | some c => (s.setSpi p { s.spi p with conv := none, reading := some c, drdy := none }).emit (.spi p (s.spiCmd p))

/-- CRC-8 with polynomial 0x07, initial value 0, no reflection, no final XOR (R102). -/
def crc8 (bs : List Byte) : Nat :=
  bs.foldl (fun crc b =>
    (List.range 8).foldl (fun c _ => if 128 ≤ c then ((2 * c) % 256) ^^^ 0x07 else 2 * c) (crc ^^^ b.toNat)) 0

/-- The check field of a transaction (R102). -/
def State.spiCheck (s : State) (p : Nat) (data : List Byte) : Bool :=
  let off := s.f F.SPG_SPI_CTL_CHECK_OFF p
  let cov := data.take off
  match s.f F.SPG_SPI_CTL_CHECK p with
  | 1 => sumN (cov.map (·.toNat)) % 65536 == leValue ((data.drop off).take 2)
  | 2 => crc8 cov == (nth 0 (data.drop off) 0).toNat
  | _ => true

/-- A transaction completes (R102, R108). -/
def spiTransactionDone (p : Nat) (data : List Byte) (s : State) : State :=
  if !(decide (p < 8) && s.fb F.SPG_SPI_CTL_ENABLE p) then s
  else
    let x := s.spi p
    match x.reading with
    | none => s
    | some (k, t16) =>
      let s := s.setSpi p { x with reading := none }
      let data := fitBytes (s.f F.SPG_SPI_CTL_LEN p) data
      let strobed := s.fb F.SPG_SPI_CTL_STROBED p
      let s := if strobed then
          match x.drdy with
          | some d => s.offsetUpdate (32 + p) (some ((d : Int) - (t16 / 16 : Nat) - s.fs F.TIME_SNS_NOMINAL_NS (32 + p)))
          | none => s
        else match x.drdy with
          | some d => s.trackedUpdate (32 + p) d
          | none => s
      if s.spiCheck p data then
        let run := x.run + 1
        let s := s.setSpi p { s.spi p with run := run, passed := x.passed || (decide (4 ≤ run) && s.fb F.SPG_SPI_STAT_ID_OK p) }
        (spiChans p).foldl (fun s c => s.sample c t16 k (s.fieldOf c data)) s
      else
        let s := s.setSpi p { s.spi p with run := 0 }
        ((s.addSat F.SPG_SPI_STAT_CHECK_FAIL 1 p).event 0x4 4 p).missAll p t16 k

/-- The identity read (R103): whether the value matches. A mismatch logs ID_FAIL and clears ID_OK. -/
def State.idCheck (s : State) (p value : Nat) : State × Bool :=
  let m := s.f F.SPG_SPI_ID_ID_MASK p
  let ok := (value &&& m) == (s.f F.SPG_SPI_ID_ID_VALUE p &&& m)
  if ok then (s.setB F.SPG_SPI_STAT_ID_OK true p, true)
  else ((s.setB F.SPG_SPI_STAT_ID_OK false p).event 0x4 8 p, false)

/-- The register-write sequence of a port goes out. -/
def State.imuWrites (s : State) (p : Nat) : State :=
  let l := (s.bt.img.imuSeq.filter (fun e => e.1 == p)).flatMap (·.2)
  l.foldl (fun s w => s.emit (.spi p w)) s

/-- The IMU initialisation of step 5 (R103): the register writes, then the identity read. -/
def State.imuInit (s : State) (p value : Nat) : State :=
  if !s.fb F.SPG_SPI_CTL_ENABLE p then s
  else ((((s.setSpi p { s.spi p with run := 0 }).imuWrites p).emit (.spi p [byteOf (s.f F.SPG_SPI_ID_ADDR p)])).idCheck p value).1

/-- Once a second while ID_OK is 0 a scheduled transaction is replaced by the identity read (R103): its samples are substituted,
not counted in MISSED; a match sends the register-write sequence and counts in REINITS. -/
def imuIdentityRead (p value : Nat) (s : State) : State :=
  if !(decide (p < 8) && s.fb F.SPG_SPI_CTL_ENABLE p) || s.fb F.SPG_SPI_STAT_ID_OK p then s
  else
    let x := s.spi p
    let strobed := s.fb F.SPG_SPI_CTL_STROBED p
    let due : Option (Nat × Nat) := match x.reading with
      | some c => some c
      | none => match x.conv with
        | some c => some c
        | none => if strobed then none else some (x.count, 16 * (s.now - s.f F.SPG_SPI_LATENCY_NS p))
    let cnt := if !strobed && x.reading.isNone then x.count + 1 else x.count
    let s := s.setSpi p { x with reading := none, conv := if x.reading.isSome then x.conv else none, count := cnt, run := 0 }
    let s := match due with | some (k, t16) => s.missAll p t16 k | none => s
    let r := (s.emit (.spi p [byteOf (s.f F.SPG_SPI_ID_ADDR p)])).idCheck p value
    if r.2 then (r.1.imuWrites p).addSat F.SPG_SPI_STAT_REINITS 1 p else r.1

/-! ## SSI ports (R104, R485) -/

/-- A port's state. -/
def State.ssi (s : State) (p : Nat) : SsiSt := tget {} s.spg.ssi p

/-- A port's state changes. -/
def State.setSsi (s : State) (p : Nat) (x : SsiSt) : State := { s with spg.ssi := tput {} s.spg.ssi p x }

/-- A read starts at a timer edge, once the monoflop time has passed since the previous read (R104). At an edge that comes before, no read is
made: it is dropped, not delayed (DESIGN CHOICE of log entry 95). -/
def State.ssiStart (s : State) (p k t16 : Nat) : State :=
  let x := s.ssi p
  let ready := match x.ended with
    | some t => decide (16 * (t + 1000 * s.f F.SPG_SSI_TM_TM_US p) ≤ t16)
    | none => true
  if !(s.fb F.SPG_SSI_CTL_ENABLE p && ready) || x.reading.isSome then s
  else (s.setSsi p { x with reading := some (k, t16) }).emit (.ssi p)

/-- A bit list as a number, the first bit the most significant. -/
def bitsValue (l : List Bool) : Nat := l.foldl (fun a b => 2 * a + b2n b) 0

/-- Gray code to binary over `w` bits. -/
def grayDecode (w v : Nat) : Nat := (List.range w).foldl (fun a n => a ^^^ (v / 2 ^ n)) 0

/-- The raw value of an SSI channel: the low WIDTH bits of the position (R108). -/
def State.ssiRaw (s : State) (p v w : Nat) : Int :=
  s.signedField (56 + p) (if s.fb F.SPG_SSI_CTL_GRAY p then grayDecode w v else v)

/-- An SSI frame is received and judged (R104): position, error bits, even parity; the data line high before the first clock edge
and low after the last bit. A frame that is bad and has error bits counts in FRAME_ERR only (DESIGN CHOICE of log entry 76). -/
def ssiReadDone (p : Nat) (bits : List Bool) (high low : Bool) (first : Option Int) (s : State) : State :=
  if !(decide (p < 8) && s.fb F.SPG_SSI_CTL_ENABLE p) then s
  else
    let x := s.ssi p
    match x.reading with
    | none => s
    | some (k, t16) =>
      let n := s.f F.SPG_SSI_CTL_BITS p
      let e := s.f F.SPG_SSI_CTL_ERR_BITS p
      let par := s.f F.SPG_SSI_CTL_PARITY p
      let w := n - e - par
      let fr := (bits ++ List.replicate n false).take n
      let errs := ((fr.drop w).take e).any id
      let even := par == 0 || (fr.filter id).length % 2 == 0
      let frameOk := high && low && even
      let s := s.setSsi p { x with reading := none, ended := some s.now, run := if frameOk && !errs then x.run + 1 else 0,
                                   passed := x.passed || (frameOk && !errs && decide (3 ≤ x.run)) }
      let s := s.offsetUpdate (40 + p) (first.map (fun d => d - s.fs F.TIME_SNS_NOMINAL_NS (40 + p)))
      let t16 := t16 + 16 * s.f F.SPG_SSI_LATENCY_NS p
      if !frameOk then ((s.addSat F.SPG_SSI_STAT_FRAME_ERR 1 p).event 0x4 5 p).sample (56 + p) t16 k none
      else if errs then ((s.addSat F.SPG_SSI_STAT_ALARMS 1 p).event 0x4 5 p).sample (56 + p) t16 k none
      else s.sample (56 + p) t16 k (some (s.ssiRaw p (bitsValue (fr.take w)) w))

/-! ## CAN FD (R106, R107) -/

/-- The frame set in SPG_CAN_TX: an FD frame where FD is set, then with bit-rate switching where BRS is (R106, R107). -/
def State.canFrame (s : State) (n : Nat) : CanFrame :=
  { id := s.f F.SPG_CAN_TX_ID_ID n, ext := s.fb F.SPG_CAN_TX_ID_EXT n, fd := s.fb F.SPG_CAN_CTL_FD n,
    brs := s.fb F.SPG_CAN_CTL_FD n && s.fb F.SPG_CAN_CTL_BRS n,
    data := (leBytes 4 (s.f F.SPG_CAN_TX_DATA_LO_DATA n) ++ leBytes 4 (s.f F.SPG_CAN_TX_DATA_HI_DATA n)).take (s.f F.SPG_CAN_TX_DLC_DLC n) }

/-- A controller's frame set in SPG_CAN_TX is to be sent; a frame still unsent is replaced (R107). -/
def State.canSend (s : State) (n : Nat) : State :=
  if !(s.fb F.SPG_CAN_CTL_ENABLE n && s.fb F.SPG_CAN_TX_ID_TX_EN n) || s.fb F.SPG_CAN_CTL_LISTEN n then s
  else { s with spg.tx := (n, s.canFrame n) :: s.spg.tx.filter (fun e => e.1 != n) }

/-- The fault confinement state that the error counters give (ISO 11898-1; log entry 21). -/
def canState (tec rec' : Nat) : Nat := if 255 < tec then 2 else if 127 < tec ∨ 127 < rec' then 1 else 0

/-- The error counters change. -/
def State.canCounts (s : State) (n tec rec' : Nat) : State :=
  let was := s.f F.SPG_CAN_STAT_STATE n
  let st := if was = 2 then 2 else canState tec rec'
  let s := (s.setF F.SPG_CAN_STAT_TEC (satU 8 tec) n).setF F.SPG_CAN_STAT_REC (satU 8 rec') n
  let s := s.setF F.SPG_CAN_STAT_STATE st n
  if st = 2 ∧ was ≠ 2 then s.event 0x4 7 n else s

/-- The channels a frame supplies. -/
def State.canChans (s : State) (n : Nat) (ext : Bool) (id : Nat) : List Nat :=
  ((List.range 16).map (72 + ·)).filter (fun c =>
    s.fb F.SPG_CH_CTL_ENABLE c && s.f F.SPG_CH_ID_CTRL c == n && s.fb F.SPG_CH_ID_EXT c == ext && s.f F.SPG_CH_ID_ID c == id)

/-- A frame is received (R106, R107); an FD frame only where FD is set. Its time is its start-of-frame bit, `ago` ns back, − LATENCY. A signal
passes its step 5 check when two frames that carry it come within its timeout. The message whose period is the controller's P (R81) gives
the offset of the controller (log entry 94). -/
def canFrameRx (n : Nat) (ext fd : Bool) (id ago : Nat) (data : List Byte) (s : State) : State :=
  if !(decide (n < 2) && s.fb F.SPG_CAN_CTL_ENABLE n) || s.f F.SPG_CAN_STAT_STATE n == 2 || (fd && !s.fb F.SPG_CAN_CTL_FD n) then s
  else
    let s := s.addWrap F.SPG_CAN_RX_COUNT 1 n
    let r := s.f F.SPG_CAN_STAT_REC n
    let s := s.canCounts n (s.f F.SPG_CAN_STAT_TEC n) (if 127 < r then 127 else r - 1)
    let t16 := 16 * (s.now - ago - s.f F.SPG_CAN_LATENCY_NS n)
    let l := s.canChans n ext id
    if l.isEmpty then s
    else
      let s := if (s.canFirst n).all l.contains then s.trackedUpdate (48 + n) ((s.now : Nat) - (ago : Nat) : Int) else s
      l.foldl (fun s c =>
        let x := s.chan c
        let carries := (s.fieldOf c data).isSome
        let seen := tget 0 s.spg.canSeen c
        let pass := carries && seen != 0 && decide (s.now + 1 ≤ seen + s.chTimeout c)
        let s : State := { s with spg.canSeen := if carries then tput 0 s.spg.canSeen c (s.now + 1) else s.spg.canSeen }
        let s := s.setChan c { x with arrivals := x.arrivals + 1, passed := x.passed || pass }
        s.sample c t16 x.arrivals (s.fieldOf c data)) s

/-- The frame that waits has been sent: not while LISTEN is set, nor by a controller that is not enabled (R106). -/
def canTxDone (n : Nat) (s : State) : State :=
  match s.spg.tx.find? (fun e => e.1 == n) with
  | none => s
  | some e =>
    if 2 ≤ n ∨ s.f F.SPG_CAN_STAT_STATE n = 2 ∨ !s.fb F.SPG_CAN_CTL_ENABLE n ∨ s.fb F.SPG_CAN_CTL_LISTEN n then s
    else
      let s : State := { s with spg.tx := s.spg.tx.filter (fun d => d.1 != n) }
      (s.emit (.can n e.2)).canCounts n (s.f F.SPG_CAN_STAT_TEC n - 1) (s.f F.SPG_CAN_STAT_REC n)

/-- Whether a transmit error leaves TEC as it is (ISO 11898-1; log entry 21): an ACK error (`kind` 1) of an error-passive sender that sees no dominant
bit while it sends its error flag, or a stuff error in arbitration at a recessive bit that is read as dominant (`kind` 2). -/
def State.txExempt (s : State) (n kind : Nat) (dominant : Bool) : Bool :=
  (kind == 1 && !dominant && s.f F.SPG_CAN_STAT_STATE n == 1) || kind == 2

/-- A bus error (ISO 11898-1; log entry 21): TEC by 8, REC by 1 or, after a dominant bit that follows the error flag, by 8. -/
def canBusError (n : Nat) (tx dominant : Bool) (kind : Nat) (s : State) : State :=
  if !(decide (n < 2) && s.fb F.SPG_CAN_CTL_ENABLE n) || s.f F.SPG_CAN_STAT_STATE n == 2 then s
  else
    let s := s.addSat F.SPG_CAN_ERR_COUNT 1 n
    if tx then (if s.txExempt n kind dominant then s else s.canCounts n (s.f F.SPG_CAN_STAT_TEC n + 8) (s.f F.SPG_CAN_STAT_REC n))
    else s.canCounts n (s.f F.SPG_CAN_STAT_TEC n) (s.f F.SPG_CAN_STAT_REC n + if dominant then 8 else 1)

/-- The controller leaves bus-off (R106), its counters cleared; the event counts in BUSOFF. A frame that waits is then sent. -/
def canBusoffRecover (n : Nat) (s : State) : State :=
  if !(decide (n < 2) && s.f F.SPG_CAN_STAT_STATE n == 2) then s
  else
    let s := (s.setF F.SPG_CAN_STAT_TEC 0 n).setF F.SPG_CAN_STAT_REC 0 n
    (s.setF F.SPG_CAN_STAT_STATE 0 n).addSat F.SPG_CAN_STAT_BUSOFF 1 n

/-! ## The control cycle -/

/-- A control-cycle timer edge (R73, R104, R107): SSI reads, CAN frames, its Tally. -/
def controlCycleEdge (n : Nat) (s : State) : State :=
  if !(decide (n < 8) && s.edgeDue (40 + n)) then s
  else
    let k := tget 0 s.tm.trigNext (40 + n)
    let e8 := s.edge8 (40 + n) k
    let s := s.fireEdge (40 + n)
    let d := s.f F.TIME_TRIG_DELAY_NS (40 + n)
    let s := (List.range 8).foldl (fun s p => if bitOf d (8 + p) then s.ssiStart p k (2 * e8) else s) s
    let s := (List.range 2).foldl (fun s c => if bitOf d c then s.canSend c else s) s
    if s.fb F.TIME_TRIG_CTL_TALLY_EN (40 + n) then s.advance 0x2 (bitsOf d 31 16) 1 (some (e8 / 8)) else s

/-! ## Quadrature (R105) -/

/-- The step of a quadrature transition, 4 counts a cycle: +1 for A before B (log entry 22). -/
def quadStep (a b a' b' : Bool) : Int :=
  if a == a' && b == b' then 0
  else if a != a' then (if a' != b then 1 else -1)
  else (if b' == a then 1 else -1)

/-- A transition of the lines (R105). -/
def quadTransition (q : Nat) (a b : Bool) (ns : Nat) (s : State) : State :=
  if !(decide (q < 8) && s.fb F.SPG_QUAD_CTL_ENABLE q) || decide (ns < 8 * s.f F.SPG_QUAD_CTL_FILTER q) then s
  else
    let x := tget {} s.spg.quad q
    let la := if s.fb F.SPG_QUAD_CTL_SWAP q then b else a
    let lb := if s.fb F.SPG_QUAD_CTL_SWAP q then a else b
    let illegal := x.a != la && x.b != lb
    let s := { s with spg.quad := tput {} s.spg.quad q { x with a := la, b := lb, err := x.err || illegal } }
    if illegal then (s.addSat F.SPG_QUAD_STAT_ILLEGAL 1 q).event 0x4 6 q
    else s.setF F.SPG_QUAD_COUNT_COUNT (uns 32 (s.fs F.SPG_QUAD_COUNT_COUNT q + quadStep x.a x.b la lb)) q

/-- The sample of a quadrature input that device time has reached: k of R105, none where it has been taken. -/
def State.quadNext (s : State) (q : Nat) : Option Nat :=
  let t := s.f F.SPG_QUAD_PERIOD_NS q
  let k := s.now / t
  let fresh : Bool := match (tget {} s.spg.quad q).last with | some u => decide (u < k * t) | none => true
  if t != 0 && fresh then some k else none

/-- The counter is sampled at device times k × PERIOD_NS (R105), once for each k. -/
def quadSample (q : Nat) (s : State) : State :=
  match s.quadNext q with
  | none => s
  | some k =>
  if !(decide (q < 8) && s.fb F.SPG_QUAD_CTL_ENABLE q) then s
  else
    let t := s.f F.SPG_QUAD_PERIOD_NS q
    let x := tget {} s.spg.quad q
    let n := (s.chan (64 + q)).seq
    let s := s.sample (64 + q) (16 * (k * t)) k (some (s.fs F.SPG_QUAD_COUNT_COUNT q)) x.err
    { s with spg.quad := tput {} s.spg.quad q { x with err := x.err && (s.chan (64 + q)).seq == n, last := some (k * t) } }

/-! ## Timeouts (R110) -/

/-- The enabled schedule that a channel's input follows, where it has one (R71): an index into the trigger schedules. -/
def State.chSchedule (s : State) (c : Nat) : Option Nat :=
  match chanKind c with
  | 0 => if s.fb F.SPG_SPI_CTL_STROBED (c / 7) then some (32 + c / 7) else none
  | 1 => ((List.range 8).find? (fun n => s.fb F.TIME_TRIG_CTL_ENABLE (40 + n) && bitOf (s.f F.TIME_TRIG_DELAY_NS (40 + n)) (8 + (c - 56)))).map (40 + ·)
  | _ => none

/-- The LATENCY that a scheduled source adds to its edge, in nanoseconds (Table 3-3). -/
def State.chLatency (s : State) (c : Nat) : Nat := if chanKind c = 1 then s.f F.SPG_SSI_LATENCY_NS (c - 56) else 0

/-- The next expected output instant: its index and its measurement time in sixteenths of a ns (R110). The instants of an unscheduled channel count
from its last output on, those before the timeout among them; with no output yet, from index DEC_PHASE at the present time (DESIGN CHOICES of log
entry 95). -/
def State.nextInstant (s : State) (c : Nat) : Nat × Nat :=
  let q := s.chanQ c
  let x := s.chan c
  match s.chSchedule c with
  | some n =>
    let k := match x.lastOut with
      | some (k, _) => k + q
      | none =>
        let now := tget 0 s.tm.trigNext n - 1
        now + (s.f F.SPG_CH_CTL_DEC_PHASE c + q - now % q) % q
    (k, 2 * s.edge8 n k + 16 * s.chLatency c)
  | none =>
    match x.lastOut with
    | some (k, t) =>
      let base := q * s.f F.SPG_CH_PERIOD_NS c * 16
      let r := s.chRate c
      (k + q, t + (if r = 0 then base else base * 1000000000 / (1000000000 + r).toNat))
    | none => (s.f F.SPG_CH_CTL_DEC_PHASE c, 16 * s.now)

/-- A channel times out (R110); ID_OK clears when the port's channels have (R103). -/
def channelTimeout (c : Nat) (s : State) : State :=
  if !(decide (c < 88) && s.fb F.SPG_CH_CTL_ENABLE c) || chanKind c == 2 || (s.chan c).out then s
  else
    let s := s.setChan c { (s.chan c).cleared with out := true }
    let s := ((s.addSat F.SPG_CH_COUNT_TIMEOUTS 1 c).setEvt 0x4 1).syncSwitch c
    let s := s.setValid c false
    if chanKind c = 0 ∧ (spiChans (c / 7)).all (fun d => !s.fb F.SPG_CH_CTL_ENABLE d || (s.chan d).out) then
      s.setB F.SPG_SPI_STAT_ID_OK false (c / 7)
    else s

/-- At each expected output instant a timed-out channel writes an ABSENT record (R110, R121); its value is not stated (log entry
35). The next instant follows, whether or not its timestamp let the record stand (R119). -/
def channelAbsentInstant (c : Nat) (s : State) : State :=
  if !(decide (c < 88) && s.fb F.SPG_CH_CTL_ENABLE c && (s.chan c).out) then s
  else
    let i := s.nextInstant c
    let v := s.freeVal % 2 ^ 32
    if 16 * s.now + 15 < i.2 then s else
    let s := s.used.spgRecord c i.2 i.1 v St.invalidInput (4 + 128 * b2n (s.chan c).setB) 0
    (s.setChan c { s.chan c with lastOut := some i }).event 0x4 1 c

/-- Whether a sensor has passed its step 5 check (R42, R103, R104, R107): Timekeeper indices 32–49. -/
def State.spgPassed (s : State) (n : Nat) : Bool :=
  if n < 40 then (s.spi (n - 32)).passed
  else if n < 48 then (s.ssi (n - 40)).passed
  else ((List.range 16).map (72 + ·)).all (fun c =>
    !(s.fb F.SPG_CH_CTL_ENABLE c && s.f F.SPG_CH_ID_CTRL c == n - 48) || (s.chan c).passed)

/-! ## Meanings -/

/-- CONVERSION_STROBE_EDGE (R101, R102). -/
def execConversionStrobeEdge (n : Nat) (s : State) : Host.Outcome State Fault Refusal := done (whenUp (conversionStrobeEdge n) s)
/-- CONTROL_CYCLE_EDGE (R73, R104, R107). -/
def execControlCycleEdge (n : Nat) (s : State) : Host.Outcome State Fault Refusal := done (whenUp (controlCycleEdge n) s)
/-- SPI_DATA_READY (R101). -/
def execSpiDataReady (p : Nat) (s : State) : Host.Outcome State Fault Refusal := done (whenUp (spiDataReady p) s)
/-- SPI_WAIT_EXPIRE (R101). -/
def execSpiWaitExpire (p : Nat) (s : State) : Host.Outcome State Fault Refusal := done (whenUp (spiWaitExpire p) s)
/-- SPI_TRANSACTION_DONE (R102). -/
def execSpiTransactionDone (p : Nat) (data : List Byte) (s : State) : Host.Outcome State Fault Refusal :=
  done (whenUp (spiTransactionDone p data) s)
/-- IMU_IDENTITY_READ (R103). -/
def execImuIdentityRead (p value : Nat) (s : State) : Host.Outcome State Fault Refusal := done (whenUp (imuIdentityRead p value) s)
/-- SSI_READ_DONE (R104, R485). -/
def execSsiReadDone (p : Nat) (bits : List Bool) (high low : Bool) (first : Option Int) (s : State) :
    Host.Outcome State Fault Refusal := done (whenUp (ssiReadDone p bits high low first) s)
/-- QUAD_TRANSITION (R105). -/
def execQuadTransition (q : Nat) (a b : Bool) (ns : Nat) (s : State) : Host.Outcome State Fault Refusal :=
  done (whenUp (quadTransition q a b ns) s)
/-- QUAD_SAMPLE (R105). -/
def execQuadSample (q : Nat) (s : State) : Host.Outcome State Fault Refusal := done (whenUp (quadSample q) s)
/-- CAN_FRAME_RX (R107). -/
def execCanFrameRx (ctl : Nat) (ext fd : Bool) (id ago : Nat) (data : List Byte) (s : State) :
    Host.Outcome State Fault Refusal := done (whenUp (canFrameRx ctl ext fd id ago data) s)
/-- CAN_TX_DONE (R107). -/
def execCanTxDone (ctl : Nat) (s : State) : Host.Outcome State Fault Refusal := done (whenUp (canTxDone ctl) s)
/-- CAN_BUSOFF_RECOVER (R106). -/
def execCanBusoffRecover (ctl : Nat) (s : State) : Host.Outcome State Fault Refusal := done (whenUp (canBusoffRecover ctl) s)
/-- CAN_BUS_ERROR (R106). -/
def execCanBusError (ctl : Nat) (tx dominant : Bool) (kind : Nat) (s : State) : Host.Outcome State Fault Refusal :=
  done (whenUp (canBusError ctl tx dominant kind) s)
/-- CHANNEL_TIMEOUT (R110). -/
def execChannelTimeout (c : Nat) (s : State) : Host.Outcome State Fault Refusal := done (whenUp (channelTimeout c) s)
/-- CHANNEL_ABSENT_INSTANT (R110). -/
def execChannelAbsentInstant (c : Nat) (s : State) : Host.Outcome State Fault Refusal := done (whenUp (channelAbsentInstant c) s)

end Sys2Proof.Machine
end

