-- ==== Sys2Proof/Machine/Fermenter.lean ====
section
/-!
DEFINITION. The Fermenter (chapter 09): sessions, association, tracks and landmarks, gating and arbitration, keyframes, checkpoints,
loss, statuses, pose records. The numbers of the filter are those of `Filt`.
-/

namespace Sys2Proof.Machine
open Sys2Proof

/-! ## Sessions -/

/-- A session's state. -/
def State.ses (s : State) (n : Nat) : SesSt := tget {} s.frm.ses n

/-- A session's state changes. -/
def State.setSes (s : State) (n : Nat) (x : SesSt) : State := { s with frm.ses := tput {} s.frm.ses n x }

/-- A session's block parameters. -/
def State.sesParam (s : State) (n : Nat) : SesParam := nth {} s.bt.img.ses n

/-- The state code of a session: 0 STOPPED, 1 INITIALISING, 2 TRACKING, 3 LOST (R229). -/
def State.sesState (s : State) (n : Nat) : Nat := s.f F.FRM_SES_STATE_STATE n

/-- FRM_STATUS. -/
def State.syncFrm (s : State) : State :=
  let cnt := fun (st : Nat) => ((List.range 32).filter (fun n => s.sesOn n && s.sesState n == st)).length
  ((s.setF F.FRM_STATUS_LOST (cnt 3)).setF F.FRM_STATUS_TRACKING (cnt 2)).setF F.FRM_STATUS_DEFINED
    ((List.range 32).filter s.sesOn).length

/-- A session's state code changes. -/
def State.setSesState (s : State) (n v : Nat) : State := (s.setF F.FRM_SES_STATE_STATE v n).syncFrm

/-- A camera's keypoint source: the lowest KEYPOINTS-kind instance bound to its ingest index (R228). -/
def State.kpSource (s : State) (cam : Nat) : Option Nat :=
  (List.range 64).find? (fun i => s.insOn i && s.insSensor i == cam && s.fb F.TNS_INS_CTL_KEYPOINTS i)

/-! ## Sensors of a source (R254) -/

/-- The sensor of the Timekeeper that a Sparge channel belongs to. -/
def State.chanSensor (s : State) (c : Nat) : Option Nat :=
  match chanKind c with
  | 0 => some (32 + c / 7)
  | 1 => some (40 + (c - 56))
  | 3 => some (48 + s.f F.SPG_CH_ID_CTRL c)
  | _ => none

/-- The sensors of the Timekeeper behind a source bit of Table 9-11. -/
def State.srcSensors (s : State) (n bit : Nat) : List Nat :=
  if bit < 8 then ((s.cams n).filter (fun e => e.1 == bit)).map (·.2)
  else if bit = 8 then ((s.imuChans n).filterMap s.chanSensor).eraseDups
  else if bit = 9 then ((s.jointChans n).filterMap s.chanSensor).eraseDups
  else if bit = 10 then ((s.wheelChans n).filterMap s.chanSensor).eraseDups
  else []

/-- Whether a source is excluded: one of its sensors is HELD (R254). -/
def State.srcHeld (s : State) (n bit : Nat) : Bool := (s.srcSensors n bit).any (fun k => s.fb F.TIME_SNS_STATE_HELD k)

/-- Whether a sensor of a source carries its SLIP bit (R255). -/
def State.srcSlip (s : State) (n bit : Nat) : Bool := (s.srcSensors n bit).any (fun k => s.fb F.TIME_SNS_STATE_SLIP k)

/-- Source bits of a list as a mask. -/
def maskOf (l : List Nat) : Nat := sumN (l.eraseDups.map (2 ^ ·))

/-! ## Waits of a step, releases (R231, R235, R236) -/

/-- The last record of a Sparge channel: status and flags. -/
def State.lastRec (s : State) (c : Nat) : Nat × Nat :=
  let slot := ((s.chan c).seq + 2 ^ 32 - 1) % 2 ^ 32 % (64 * 2 ^ s.f F.SPG_CH_RING_CFG_LEN c)
  let a := s.pair R.SPG_CH_RING_LO R.SPG_CH_RING_HI c + 32 * slot
  (s.rdNum (a + 21) 1, s.rdNum (a + 22) 2)

/-- Whether the inputs of a camera's frame k have arrived. -/
def State.camReady (s : State) (cam k : Nat) : Bool :=
  let t := match s.kpSource cam with
    | some i => s.f F.TNS_INS_TALLY_OUT i
    | none => s.f F.MILL_SNS_TALLY_FRONT cam
  decide ((k + 1) * s.snsBands cam ≤ s.tv t)

/-- The stamp of a channel's Tally. -/
def State.chanStamp (s : State) (c : Nat) : Nat := s.tstamp (s.f F.SPG_CH_RING_CFG_TALLY c)

/-- When frame k of a sensor started: its Frame Start or first packet, the expected start of an absent frame (Table 4-4). -/
def State.frameStart (s : State) (n k : Nat) : Option Nat :=
  let x := s.sns n
  if k < x.nextId then
    let a := s.pair R.ING_SNS_DESC_LO R.ING_SNS_DESC_HI n + 64 * (k % 64)
    some (s.rdNum (a + 24) 8 * 1000000000 + s.rdNum (a + 32) 4)
  else if k = x.nextId then (match x.frame with | some fr => some fr.start | none => none)
  else none

/-- Whether the vision step of a session's frame k may run (R235). -/
def State.stepReady (s : State) (n k t : Nat) : Bool :=
  (s.cams n).all (fun e => s.camReady e.2 k)
    && (s.imuChans n).all (fun c => decide (t < s.chanStamp c))
    && (s.jointChans n ++ s.wheelChans n).all (fun c => decide (t ≤ s.chanStamp c))

/-- A release Tally advances where the graph lists the Fermenter among its producers. -/
def State.frmRelease (s : State) (t ts : Nat) : State := if s.producer 8 t then s.advance 0x8 t 1 (some ts) else s

/-- A track list for a camera's next frame is written, and its Tally advances (R239, R141). -/
def State.writeList (s : State) (cam : Nat) (l : List (Nat × Nat × Nat × Nat × Nat)) : State :=
  if !s.fb F.MILL_SNS_CTL_KLT_EN cam then s
  else
    let a := s.pair R.MILL_SNS_TRK_LO R.MILL_SNS_TRK_HI cam
    let bytes := leBytes 4 l.length ++ l.flatMap (fun e =>
      leBytes 4 e.1 ++ leBytes 4 e.2.1 ++ leBytes 4 e.2.2.1 ++ leBytes 4 e.2.2.2.1 ++ leBytes 4 e.2.2.2.2 ++ leBytes 4 1)
    (s.wrList a bytes).frmRelease (s.f F.MILL_SNS_TRK_TALLY_LIST cam) s.now

/-- The inputs of a camera's frame k are released. -/
def State.releaseCam (s : State) (n j cam k ts : Nat) : State :=
  let x := s.ses n
  if k < tget 0 x.rel j then s
  else
    let s := s.setSes n { x with rel := tput 0 x.rel j (k + 1) }
    let s := match s.kpSource cam with
      | some i => s.frmRelease (s.f F.TNS_INS_TALLY_RELEASE i) ts
      | none => s
    s.frmRelease (s.f F.MILL_SNS_TALLY_RELEASE cam) ts

/-! ## Features of a camera's frame (R240, R241) -/

/-- The descriptor bits of an INT8 descriptor: bit i is 1 where element i is positive (R241). -/
def kpBits (d : List Byte) : Nat :=
  sumN ((List.range d.length).map (fun i => let v := (nth 0#8 d i).toNat; if 0 < v ∧ v < 128 then 2 ^ i else 0))

/-- The keypoints an instance published for frame k. -/
def State.kpFeats (s : State) (i k : Nat) : List Feat :=
  let flags := s.rdNum (s.insSlot i k + 20) 4
  if bitOf flags 0 || bitOf flags 2 then []
  else (List.range (s.snsBands (s.insSensor i))).flatMap (fun b =>
    let a := s.bandArea i k b
    (List.range (Nat.min (s.rdNum a 4) (s.f F.TNS_INS_KP_MAX_BAND i))).map (fun r =>
      let e := a + 32 + 160 * r
      { x := s.rdNum e 4, y := s.rdNum (e + 4) 4, score := ((fp16.dec (s.rdNum (e + 8) 2)).floorMul 65536).toNat, corner := false,
        desc := kpBits (s.rdList (e + 32) 128),
        cov := if bitOf (s.rdNum (e + 20) 2) 1 then [] else [s.rdNum (e + 10) 2, s.rdNum (e + 12) 2, s.rdNum (e + 14) 2] }))

/-- The corners the Mill listed for frame k. -/
def State.cornerFeats (s : State) (cam k : Nat) : List Feat :=
  let a := s.snsSlot cam k
  let flags := s.rdNum (a + 20) 4
  if bitOf flags 0 || bitOf flags 2 || !s.fb F.MILL_SNS_CTL_CORNER_EN cam then []
  else (List.range (s.rdNum (a + 24) 4)).map (fun r =>
    let e := a + s.cornerOff cam + 48 * r
    { x := s.rdNum e 4, y := s.rdNum (e + 4) 4, score := s.rdNum (e + 8) 2, corner := true, desc := s.rdNum (e + 16) 32 })

/-- The features of a camera's frame: keypoints, then corners. -/
def State.feats (s : State) (cam k : Nat) : List Feat :=
  (match s.kpSource cam with | some i => s.kpFeats i k | none => []) ++ s.cornerFeats cam k

/-- The Hamming distance over the bits of the kind. -/
def hamming (corner : Bool) (a b : Nat) : Nat := popCount (if corner then 256 else 128) (a ^^^ b)

/-- A position lies within r pixels of another. -/
def nearPx (r x y u v : Nat) : Bool :=
  let d := fun (a b : Nat) => Nat.max a b - Nat.min a b
  decide (d x u * d x u + d y v * d y v ≤ r * 65536 * (r * 65536))

/-! ## Landmarks (R243, R244) -/

/-- A landmark gives its cache slot back. -/
def State.dropSlot (s : State) (i : Nat) : State :=
  match s.lmSlot i with
  | none => s
  | some k =>
    let s : State := { s with frm.cache := tput 0 s.frm.cache k 0 }
    (s.wrNum (s.pair R.FRM_LM_CACHE_LO R.FRM_LM_CACHE_HI + 8 * k) 8 0).wrNum (s.lmAddr i + 28) 4 0xFFFFFFFF

/-- A landmark is freed, and with it every track that holds it. -/
def State.freeLm (s : State) (i : Nat) : State :=
  let s := s.dropSlot i
  let s : State := { s with frm.lms := s.frm.lms.filter (· != i) }
  let s : State := { s with frm.ses := s.frm.ses.map (fun e => (e.1, { e.2 with tracks := e.2.tracks.filter (fun t => t.lm != some i) })) }
  s.setF F.FRM_LM_USED_ENTRIES s.frm.lms.length

/-- The position of a landmark, and of an entry of the compact cache (counts of 2 mm). -/
def State.lmPos (s : State) (i : Nat) : List Fv := (List.range 3).map (fun k => fp32.dec (s.rdNum (s.lmAddr i + 4 * k) 4))
def State.cachePos (s : State) (c : Nat) : List Fv :=
  let v := s.rdNum (s.pair R.FRM_LM_CACHE_LO R.FRM_LM_CACHE_HI + 8 * c) 8
  [2, 1, 0].map (fun k => (Fv.ofRat (2 * sgn 21 (v / 2 ^ (21 * k))) 1000).low)

/-- Whether a coordinate lies within 2,097 m of the anchor. -/
def nearAnchor (p : Nat) : Bool :=
  let v := (fp32.dec p).rneMul 1000000
  (fp32.dec p).isFin && decide (v ≤ 2097000000) && decide (-2097000000 ≤ v)

/-- A triangulated point as a landmark record holds it: position FP32, standard deviation FP16. -/
structure NewLm where
  x : Nat
  y : Nat
  z : Nat
  sigma : Nat

/-- A point and its covariance as a landmark record holds them. -/
def NewLm.of (p : List Fv) (c : List (List Fv)) : NewLm :=
  { x := fp32.eval (vAt p 0), y := fp32.eval (vAt p 1), z := fp32.eval (vAt p 2),
    sigma := fp16.eval ((((mAt c 0 0).plus (mAt c 1 1)).plus (mAt c 2 2)).over (Fv.ofInt 3)).root }

/-- A landmark is created at a triangulated point (R242–R244): its index, or none where it lies too far out or the store is full. -/
def State.newLm (s : State) (n : Nat) (t : Track) (p : NewLm) : State × Option Nat :=
  if !(nearAnchor p.x && nearAnchor p.y && nearAnchor p.z) then (s, none)
  else if s.f F.FRM_LM_CAP_ENTRIES ≤ s.frm.lms.length then
    ((s.addSat F.FRM_LM_FULL_COUNT).event 0x8 8 n, none)
  else
    let i := ((List.range (s.frm.lms.length + 1)).find? (fun i => !s.frm.lms.contains i)).getD 0
    let bytes := leBytes 4 p.x ++ leBytes 4 p.y ++ leBytes 4 p.z ++ leBytes 2 p.sigma ++ leBytes 1 (b2n (!t.corner)) ++ leBytes 1 0
      ++ leBytes 4 (s.f F.FRM_SES_MAP_MAP_ID n) ++ leBytes 2 0 ++ leBytes 2 0 ++ leBytes 4 s.freeVal ++ leBytes 4 0xFFFFFFFF
      ++ leBytes 32 t.desc
    let s := (s.used.wrList (s.lmAddr i) bytes)
    let s : State := { s with frm.lms := s.frm.lms ++ [i] }
    ((s.setF F.FRM_LM_USED_ENTRIES s.frm.lms.length).takeSlot i, some i)

/-- An observation of a landmark passed its gate or failed it (R244, R246): at ten attempts with more than half failed it is BAD. -/
def State.countObs (s : State) (i : Nat) (ok : Bool) : State :=
  let a := s.lmAddr i
  let obs := s.rdNum (a + 20) 2 + b2n ok
  let fail := s.rdNum (a + 22) 2 + b2n (!ok)
  let s := (s.wrNum (a + 20) 2 (satU 16 obs)).wrNum (a + 22) 2 (satU 16 fail)
  let s := if 10 ≤ obs + fail ∧ obs + fail < 2 * fail then s.wrNum (a + 15) 1 (s.rdNum (a + 15) 1 ||| 1) else s
  if s.lmBad i then s else s.takeSlot i

/-! ## Association (R240) -/

/-- A track without a landmark remembers where step k observed it. -/
def Track.seenAt (t : Track) (k : Nat) : Track := { t with views := if t.lm.isNone then t.views ++ [(k, t.x, t.y)] else [] }

/-- KLT results (step 1): a TRACKED result moves its track, any other code is a miss. -/
def State.kltUpdate (s : State) (cam k : Nat) (l : List Track) : List Track :=
  let a := s.snsSlot cam k
  let flags := s.rdNum (a + 20) 4
  if bitOf flags 0 || bitOf flags 2 || !s.fb F.MILL_SNS_CTL_KLT_EN cam then l
  else if bitOf flags 7 then []
  else
    let n := s.rdNum (a + 40) 4
    let res := (List.range n).map (fun r => let e := a + s.trackOff cam + 32 * r
      (s.rdNum e 4, s.rdNum (e + 4) 4, s.rdNum (e + 8) 4, s.rdNum (e + 16) 1))
    l.map (fun (t : Track) => match res.find? (fun r => r.1 == t.id) with
      | some r => if r.2.2.2 = 0 then ({ t with x := r.2.1, y := r.2.2.1, miss := 0, seen := 0, cov := [], obs := t.obs + 1 } : Track).seenAt k
                  else ({ t with miss := t.miss + 1, seen := 3 } : Track)
      | none => t)

/-- The feature a descriptor matches among the gated ones: nearest by Hamming distance over the bits of its kind, at most DESC_THR, nearer than
0.8 × the second (R240 step 2, R241). -/
def State.matchFeat (s : State) (n : Nat) (corner : Bool) (d : Nat) (fs : List Feat) (gated : List Nat) : Option Nat :=
  let cand := (gated.filterMap (fun g => match fs.drop g with
    | f :: _ => if f.corner == corner then some (hamming corner d f.desc, g) else none
    | [] => none))
  let l := sortBy (fun (a b : Nat × Nat) => decide (a.1 < b.1)) cand
  match l with
  | [] => none
  | a :: rest =>
    let far : Bool := match rest with | b :: _ => decide (10 * a.1 < 8 * b.1) | [] => true
    if a.1 ≤ s.f F.FRM_SES_ASSOC_DESC_THR n && far then some a.2 else none

/-- The feature that matches a landmark's descriptor. -/
def State.matchLm (s : State) (n lm : Nat) (fs : List Feat) (gated : List Nat) : Option Nat :=
  s.matchFeat n (s.rdNum (s.lmAddr lm + 14) 1 == 0) (s.rdNum (s.lmAddr lm + 32) 32) fs gated

/-- Whether a statistic (FP64) is at most a threshold, given in hundredths. -/
def gateOk (d thr : Nat) : Bool := (fp64.dec d).le (Fv.ofRat (thr : Nat) 100)

/-- The thresholds of Table 9-7 that the model applies, in hundredths: two, four and six degrees. -/
def gate2 : Nat := 1162
def gate4 : Nat := 1601
def gate6 : Nat := 1981

/-- A pixel of Q16.16 coordinates. -/
def pixel (x y : Nat) : List Fv := [Fv.ofRat (x : Nat) 65536, Fv.ofRat (y : Nat) 65536]

/-- The noise of a position (R246): its record's covariance, or pixel_sigma². -/
def pixNoise (e : List Byte) (cov : List Nat) : List (List Fv) :=
  let v := cov.map fp16.dec
  if cov.isEmpty then mDiag [(ttPixSigma e).sq, (ttPixSigma e).sq] else [[vAt v 0, vAt v 1], [vAt v 1, vAt v 2]]

/-- The time offset of a camera slot (ns): the filter's, or the nominal one of its entry (R254). -/
def State.offsetOf (s : State) (n j : Nat) (x : Filt) : Fv :=
  match x.td.find? (fun e => e.1 == j) with
  | some e => e.2
  | none => Fv.ofInt (sgn 32 (ttNum (s.ttEntry (s.camEntry (s.camByte n j % 32))) 72 4))

/-- The time of a camera's frame k with its offset, after that of a state (s) (R235, R246). -/
def State.obsDt (s : State) (n j cam k : Nat) (x : Filt) : Fv :=
  let ts := match s.src cam k with | some f => f.ts | none => x.time
  (nsSec ((ts : Int) - x.time)).plus ((s.offsetOf n j x).times (.fin false 1 1000000000))

/-- The observation of a point by a camera slot in frame k. -/
def State.obsAt (s : State) (n j cam k : Nat) (x : Filt) (z : List Fv) (cov : List Nat) (p : List Fv) : Obs :=
  let e := s.ttEntry (s.camEntry cam)
  let td := (x.td.findIdx? (fun e => e.1 == j)).map (15 + ·)
  { e := e, cam := s.camIn n cam x.time, dt := s.obsDt n j cam k x, tdAt := td, z := z, noise := pixNoise e cov, p := p,
    tvar := if td.isSome then Fv.zero else Fv.ofRat ((s.mon cam).tvar : Nat) (10 ^ 18) }

/-- Whether a pixel lies inside the image of a camera. -/
def State.inImage (s : State) (cam : Nat) (u : List Fv) : Bool :=
  Fv.zero.le (vAt u 0) && (vAt u 0).le (Fv.ofInt ((s.jobW cam 0 : Int) - 1)) && Fv.zero.le (vAt u 1)
    && (vAt u 1).le (Fv.ofInt ((s.jobH cam 0 : Int) - 1))

/-- Re-detection's candidates (R240 step 2): a cached landmark of the session's map within 50 m and in front of the camera, without a track, its centre inside
the image; with the features its gate holds. -/
def State.projections (s : State) (n j cam k : Nat) (x : Filt) (fs : List Feat) (tracks : List Track) : List (Nat × List Nat) :=
  s.frm.lms.filterMap (fun i => match s.lmSlot i with
    | none => none
    | some c =>
      if s.lmBad i || tracks.any (fun t => t.lm == some i) || s.rdNum (s.lmAddr i + 16) 4 != s.f F.FRM_SES_MAP_MAP_ID n then none
      else
        let o := s.obsAt n j cam k x (vZero 2) [] (s.cachePos c)
        let d := vSub o.p ((x.moved o.dt).comp o.cam).t
        if (vDot d d).le (Fv.ofInt 2500) && s.inImage cam (x.look o).1 then
          let gated := (List.range fs.length).filter (fun g => match fs.drop g with
            | f :: _ => gateOk (x.obsStat { o with z := pixel f.x f.y, noise := pixNoise o.e f.cov }) gate2
            | [] => false)
          if gated.isEmpty then none else some (i, gated)
        else none)

/-- Association of one camera (R240): tracks of the slot after KLT, re-detection (where the session has a state) and births; the next track id. -/
def State.associate (s : State) (n j cam k : Nat) (x : Option Filt) (tracks : List Track) (next : Nat) : List Track × Nat :=
  let fs := s.feats cam k
  let l := s.kltUpdate cam k tracks
  let maxT := s.f F.FRM_SES_TRACK_TRACKS_MAX n
  -- re-detection
  let projs := match x with | some x => s.projections n j cam k x fs l | none => []
  let re := projs.foldl (fun (a : List Track × Nat × List Nat) (p : Nat × List Nat) =>
    match s.matchLm n p.1 fs p.2 with
    | none => a
    | some g =>
      match fs.drop g with
      | [] => a
      | f :: _ =>
        (a.1 ++ [({ id := a.2.1, slot := j, x := f.x, y := f.y, lm := some p.1, corner := f.corner, desc := f.desc, cov := f.cov,
                    seen := if f.corner then 2 else 1 } : Track)], (a.2.1 + 1) % 2 ^ 32, g :: a.2.2)) (l, next, [])
  -- births
  let src := s.f F.FRM_SES_CTL_BIRTH_SRC n
  let kps := fs.filter (fun f => !f.corner)
  let idx := (List.range fs.length).filter (fun g => match fs.drop g with
    | f :: _ => !re.2.2.contains g && decide (s.f F.FRM_SES_ASSOC_BIRTH_SCORE n ≤ f.score)
        && (if src = 0 then f.corner else if src = 1 then !f.corner
            else !(f.corner && kps.any (fun q => nearPx 4 f.x f.y q.x q.y)))
    | [] => false)
  let cand := sortBy (fun (a b : Feat) => decide (b.score < a.score)) (idx.filterMap (fun g => (fs.drop g).head?))
  let cell := fun (x y : Nat) => (x / 65536 / 64, y / 65536 / 64)
  cand.foldl (fun (a : List Track × Nat) (f : Feat) =>
    let crowded := a.1.any (fun t => nearPx 8 t.x t.y f.x f.y)
    let inCell := (a.1.filter (fun t => cell t.x t.y == cell f.x f.y)).length
    if crowded || decide (s.f F.FRM_SES_TRACK_CELL_TRACKS n ≤ inCell) || decide (maxT ≤ a.1.length) then a
    else (a.1 ++ [({ id := a.2, slot := j, x := f.x, y := f.y, corner := f.corner, desc := f.desc, cov := f.cov,
                        seen := if f.corner then 2 else 1, views := [(k, f.x, f.y)] } : Track)],
          (a.2 + 1) % 2 ^ 32)) (re.1, re.2.1)

/-! ## Gates and arbitration (R249–R253) -/

/-- Whether a statistic passes the gate of k degrees (R249, Table 9-7): above six, k × (1 − 2/(9k) + 2.748 × √(2/(9k)))³, the root
taken to 20 decimal places. -/
def gateK (d k : Nat) : Bool :=
  if k ≤ 6 then gateOk d (nth 0 [0, 881, 1162, 1393, 1601, 1796, 1981] k)
  else
    let u := 10 ^ 20
    let c := 2 * u / (9 * k)
    let r := isqrt (2 * u * u / (9 * k))
    let t := u - c + 2748 * r / 1000
    (fp64.dec d).le (Fv.ofRat ((k * t * t * t : Nat) : Int) (u * u * u))

/-- The sublists of a list. -/
def subsets : List Nat → List (List Nat)
  | [] => [[]]
  | x :: xs => let r := subsets xs; r.map (x :: ·) ++ r

/-- What arbitration finds: sources used, withheld, outvoted, rejected; whether there is a conflict; sources that go on probation. -/
structure Arb where
  used : List Nat := []
  withheld : List Nat := []
  outvoted : List Nat := []
  rejected : List Nat := []
  conflict : Bool := false
  probation : List Nat := []

/-- On a conflict, every withheld source but the one of the highest score (the lowest bit among equals) goes on probation (R251). -/
def conflictProbation (score : Nat → Nat) (c : List Nat) : List Nat :=
  match bestBy (fun (a b : Nat) => decide (score b < score a) || (score a == score b && decide (a < b))) c with
  | some b => c.filter (· != b)
  | none => []

/-- The arbitration of R250 among the eligible pose-capable sources `c`. -/
def arbitrate (prior : Nat → Bool) (pair : Nat → Nat → Bool) (score : Nat → Nat) (c : List Nat) : Arb :=
  match c with
  | [] => {}
  | [a] => if prior a then { used := [a] } else { rejected := [a] }
  | [a, b] =>
    if pair a b then { used := c.filter prior, rejected := c.filter (fun x => !prior x) }
    else if prior a != prior b then { used := c.filter prior, rejected := c.filter (fun x => !prior x) }
    else { withheld := c, conflict := true, probation := conflictProbation score c }
  | _ =>
    let ok := fun (l : List Nat) => l.all prior && l.all (fun a => l.all (fun b => a == b || pair a b))
    let sum := fun (l : List Nat) => sumN (l.map score)
    let better := fun (l m : List Nat) => decide (m.length < l.length) || (l.length == m.length && (decide (sum m < sum l)
      || (sum l == sum m && decide (maskOf l < maskOf m))))
    let best := (bestBy better ((subsets c).filter ok)).getD []
    if c.length < 2 * best.length then
      let out := c.filter (fun x => !best.contains x)
      { used := best, outvoted := out, probation := out }
    else { withheld := c, conflict := true, probation := conflictProbation score c }

/-- A consistency score (R251): unsigned Q0.16, 1.0 and no step at all written 0xFFFF. -/
def scoreOf (l : List (Nat × Bool)) : Nat :=
  if l.isEmpty then 0xFFFF else satU 16 (65536 * (l.filter (·.2)).length / l.length)

/-! ## Records (R262, R263) -/

/-- The position covariance's trace as a value. -/
def PoseVal.trace (p : PoseVal) : Fv :=
  ((fp32.dec (nth 0 p.cov 0)).add (fp32.dec (nth 0 p.cov 6))).add (fp32.dec (nth 0 p.cov 11))

/-- Whether the position standard deviation exceeds a bound (R258). -/
def PoseVal.above (p : PoseVal) (m : Nat) : Bool :=
  let b := fp32.dec m
  let t := p.trace.div (Fv.ofInt 3)
  (b.mul b).lt t || t == .nan

/-- The quality of a record (R263): floor(65,535 × min(1, n / QUAL_N) × min(1, QUAL_SIGMA / σ)), σ = √(trace / 3), QUAL_SIGMA in µm. -/
def qualityOf (n qn qs : Nat) (p : PoseVal) : Nat :=
  let m := Nat.min n qn
  match p.trace with
  | .fin false t d =>
    let whole := 65535 * m / qn
    if t = 0 then whole
    else
      -- (65,535 × m × QUAL_SIGMA × 10⁻⁶ / QUAL_N)² × 3 / trace
      let num := 65535 * m * qs * (65535 * m * qs) * 3 * d
      let den := qn * 1000000 * (qn * 1000000) * t
      Nat.min whole (isqrt (num / den))
  | _ => 0

/-- The 256 bytes of Table 9-9; latency_ns is set when the record is copied. -/
def poseBytes (seq ts ses status flags : Nat) (p : PoseVal) (map frame quality mask : Nat) : List Byte :=
  let l := fun (n k : Nat) (v : List Nat) => (List.range k).flatMap (fun i => leBytes n (nth 0 v i))
  leBytes 8 seq ++ tsBytes ts ++ leBytes 2 ses ++ leBytes 1 status ++ leBytes 1 flags ++ l 8 3 p.pos ++ l 4 4 p.q ++ l 4 3 p.vel
    ++ l 4 3 p.rate ++ l 4 21 p.cov ++ leBytes 4 map ++ leBytes 4 frame ++ leBytes 2 quality ++ leBytes 2 mask ++ zeroBytes 64
    ++ leBytes 8 seq

/-- A pose whose coast is over (R258): last position, velocity 0, covariance +Inf. -/
def PoseVal.frozen (p : PoseVal) (last : List Nat) : PoseVal :=
  { p with pos := last, vel := [0, 0, 0], cov := List.replicate 21 fp32.inf }

/-- What a record says of a state (R262): the pose of OUTPUT in REFERENCE from the reported pose of the state frame, the velocity of its origin, the angular rate in
its axes, the covariance of its position and rotation. -/
def State.poseVal (s : State) (n : Nat) (x : Filt) (shown : Motion) : PoseVal :=
  let o := s.entIn x.time (s.f F.FRM_SES_FRAME_OUTPUT n) (s.stateEntry n)
  let m := shown.comp o
  let lever := qRot shown.q o.t
  let j := mBeside (mEye 3 ++ mZero 3 3) (mScale Fv.one.neg (skew lever) ++ mEye 3)
  { pos := m.t.map fp64.eval, q := (qUnit m.q).map fp32.eval, vel := (vAdd x.vel (cross (qRot shown.q x.rate) lever)).map fp32.eval,
    rate := (qRot (qConj o.q) x.rate).map fp32.eval, cov := (upperOf (mCong j x.poseCov)).map fp32.eval }

/-- A vector shortened by at most a length. -/
def shrink (v : List Fv) (len : Fv) : List Fv :=
  let n := vNorm v
  if n.le len then vZero v.length else vScale ((n.minus len).over n) v

/-- What is left at a time of the difference of the reported pose from the filter's (R257): it shrinks by CORR_RATE mm/s and CORR_RATE × 0.001 rad/s. -/
def State.offNow (s : State) (n t : Nat) : List Fv :=
  let x := s.ses n
  let v := x.off.map fp64.dec
  let len := (nsSec (t - x.offAt : Nat)).times (Fv.ofRat (s.f F.FRM_SES_GATE_CORR_RATE n : Nat) 1000)
  if v.isEmpty then vZero 6 else shrink (v.take 3) len ++ shrink (v.drop 3) len

/-- The reported pose at the time of a state. -/
def State.shown (s : State) (n : Nat) (x : Filt) : Motion := x.pose.move (s.offNow n x.time)

/-- The difference of the reported pose as it stands at a time is kept. -/
def State.keepOff (s : State) (n t : Nat) (v : List Fv) : State :=
  let off := if v.all Fv.isZero then [] else v.map fp64.eval
  s.setSes n { s.ses n with off := off, offAt := t }

/-- A pose record is published and the session's registers follow; its flags carry the time state in force at its timestamp (R61). -/
def State.poseRecord (s : State) (n ts : Nat) (vision : Bool) (conds : List Nat) (flags mask acc : Nat) (p : PoseVal) : State :=
  let st := statusOf conds
  let flags := flags ||| s.timeStateAt ts ||| (4 * b2n (!vision)) ||| (128 * b2n (decide (1 < conds.eraseDups.length)))
  let seq := (s.pair R.FRM_SES_SEQ_LO R.FRM_SES_SEQ_HI n + 1) % 2 ^ 64
  let q := if st = St.lost then 0
    else qualityOf acc (Nat.max 1 (s.f F.FRM_SES_QUAL_QUAL_N n)) (s.f F.FRM_SES_QUAL_QUAL_SIGMA n) p
  let bytes := poseBytes seq ts n st flags p (s.f F.FRM_SES_MAP_MAP_ID n) (s.f F.FRM_SES_FRAME_REFERENCE n) q mask
  let s := s.setPair R.FRM_SES_SEQ_LO R.FRM_SES_SEQ_HI seq n
  let s := (s.setF F.FRM_SES_STATE_STATUS st n).setF F.FRM_SES_STATE_FLAGS flags n
  let s := s.setWord R.FRM_SES_COND (BitVec.ofNat 32 (maskOf conds / 2 * 2)) n
  let need := Nat.min (s.tv (s.sesParam n).pose + 1) (2 ^ 64 - 1)
  let s : State := if s.bt.gap.isSome ∧ seq = nth 0 s.bt.seqs n + 1 then { s with bt.gap := some s.mono } else s
  let note : PoseNote := { seq := seq, ts := ts, status := st, vision := vision, need := need, pose := (bytes.drop 24).take 40 }
  let s := s.logHidden 0x8 n conds [St.lost, St.relocalised, St.conflict] seq
  (s.setSes n { s.ses n with notes := (s.ses n).notes ++ [note] }).publish 0 n vision bytes 0

/-! ## Checkpoints (R234, R257) -/

/-- A CALIB solution replaces q and t of CALIBRATABLE entries: each extrinsic of its values is an identifier, then q and t. -/
def State.applyCalib (s : State) (rec' : Nat) : State :=
  let flags := s.rdNum (rec' + 4) 4
  if !bitOf flags 0 || bitOf flags 14 then s
  else
    let a := s.rdNum (rec' + 80) 8
    let len := s.rdNum (rec' + 88) 4
    let step := fun (s : State) (off : Nat) =>
      let id := s.rdNum (a + off) 8
      let i := id % 2 ^ 48
      let e := s.ttEntry i
      if id / 2 ^ 56 = 0 ∧ id / 2 ^ 48 % 256 = 0xFF ∧ e ≠ [] ∧ bitOf (ttNum e 1 1) 0 then
        let e' := e.take 8 ++ s.rdList (a + off + 8) 56 ++ e.drop 64
        ({ s with frm.tt := tput [] s.frm.tt i e' } : State).addSat F.FRM_TT_VERSION_CHANGES
      else s
    let size := fun (typ : Nat) => 8 + (match typ with | 0 => 56 | 1 => 64 | 2 => 24 | 3 => 24 | 4 => 48 | _ => 8)
    ((List.range (len / 16 + 1)).foldl (fun (a' : State × Nat) _ =>
      if a'.2 + 16 ≤ len then (step a'.1 a'.2, a'.2 + size (a'.1.rdNum (a + a'.2) 8 / 2 ^ 56)) else a') (s, 0)).1

/-- A WINDOW solution moves landmarks, which become REFINED (R257, R293). -/
def State.applyWindow (s : State) (rec' : Nat) : State :=
  let a := s.rdNum (rec' + 80) 8
  let len := s.rdNum (rec' + 88) 4
  if len = 0 then s
  else
    -- keyframes of 64 bytes, 96 bytes of covariance, then the landmark count
    let p := s.rdNum rec' 1
    let kfs := ((s.prob p).vars.filter (fun v => v.typ == 0)).length
    let b := a + 64 * kfs + 96
    let cnt := Nat.min (s.rdNum b 4) (len / 16)
    (List.range cnt).foldl (fun s k =>
      let e := b + 16 + 16 * k
      let i := s.rdNum e 4
      if s.frm.lms.contains i then
        let s := s.wrList (s.lmAddr i) (s.rdList (e + 4) 12)
        let s := s.wrNum (s.lmAddr i + 15) 1 (s.rdNum (s.lmAddr i + 15) 1 ||| 2)
        match s.lmSlot i with
        | some c => s.wrNum (s.pair R.FRM_LM_CACHE_LO R.FRM_LM_CACHE_HI + 8 * c) 8 (s.lmEntry i)
        | none => s
      else s) s

/-- A covariance of a POSE3 variable (its rotation first, on the right of the quaternion; R270) over position, then rotation in the axes of the anchor. -/
def poseCovOf (q : List Fv) (c : List Fv) : List (List Fv) :=
  let r := qMat q
  mCong (mBeside (mZero 3 3 ++ r) (mEye 3 ++ mZero 3 3)) (upper 6 c)

/-- The newest keyframe of a WINDOW solution with its pose and covariance (R293, Table 10-6). -/
def State.windowNewest (s : State) (rec' : Nat) : Option (Nat × Motion × List (List Fv)) :=
  let a := s.rdNum (rec' + 80) 8
  let kfs := ((s.prob (s.rdNum rec' 1)).vars.filter (fun v => v.typ == 0)).length
  if s.rdNum (rec' + 88) 4 = 0 ∨ kfs = 0 then none
  else
    let e := a + 64 * (kfs - 1)
    let q := qUnit ((List.range 4).map (fun i => fp32.dec (s.rdNum (e + 32 + 4 * i) 4)))
    let t := (List.range 3).map (fun i => fp64.dec (s.rdNum (e + 8 + 8 * i) 8))
    some (s.rdNum e 4, { q := q, t := t }, poseCovOf q ((List.range 21).map (fun i => fp32.dec (s.rdNum (a + 64 * kfs + 4 * i) 4))))

/-- The correction that a pose-graph solution gives a session (R298): its node of the session's latest keyframe against the pose held of that keyframe. -/
def State.graphShift (s : State) (n rec' : Nat) : Option Motion :=
  let vars := areaVars (s.rdList (s.rdNum (rec' + 80) 8) (s.rdNum (rec' + 88) 4)) (s.rdNum (rec' + 88) 4)
  match bestBy (fun (a b : Nat × List Nat) => decide (b.1 % 2 ^ 48 < a.1 % 2 ^ 48))
      (vars.filter (fun e => decide (e.1 / 2 ^ 56 < 2) && e.1 / 2 ^ 48 % 256 == n && (s.ses n).kfPoses.any (fun k => k.1 == e.1 % 2 ^ 48))) with
  | none => none
  | some e => ((s.ses n).kfPoses.find? (fun k => k.1 == e.1 % 2 ^ 48)).map (fun k => (Motion.of (e.2.take 7)).comp (Motion.of k.2).inv)

/-- A state carried by a motion of the anchor's frame: every pose and the velocity, with their covariances. -/
def Filt.carried (x : Filt) (c : Motion) : Filt :=
  let r := qMat c.q
  let b := wideRows x.dim x.dim ([0, 3, 6].map (fun o => (o, mZero o 3 ++ r ++ mZero (x.dim - o - 3) 3))
    ++ [(9, mZero 9 (x.cloneAt 0 - 9) ++ mEye (x.cloneAt 0 - 9) ++ mZero (x.dim - x.cloneAt 0) (x.cloneAt 0 - 9))]
    ++ (List.range (2 * x.clones.length)).map (fun i => let o := x.cloneAt 0 + 3 * i; (o, mZero o 3 ++ r ++ mZero (x.dim - o - 3) 3)))
  { x with pose := c.comp x.pose, vel := mVec r x.vel, clones := x.clones.map (fun e => (e.1, c.comp e.2)), cov := mCong b x.cov }

/-- The pose-graph correction (R257 step 4): the filter and the poses held of keyframes take it at once; the reported pose does too, or with CORR_SLEW moves
from where it was. -/
def State.correct (s : State) (n : Nat) (x : Filt) (c : Motion) : State × Filt :=
  let y := x.carried c
  let s := s.keepOff n x.time (if s.fb F.FRM_SES_CTL_CORR_SLEW n then (s.shown n x).diff y.pose else [])
  (s.setSes n { s.ses n with kfPoses := (s.ses n).kfPoses.map (fun k => (k.1, (c.comp (Motion.of k.2)).nums)) }, y)

/-- The entries of a session that an update changed take effect at its first checkpoint after LIVE (R452). -/
def State.ttTake (s : State) (n : Nat) : State :=
  if s.sec.ttWait.contains n then
    let s := (List.range s.bt.img.tt.length).foldl (fun s i =>
      if ttNum (nth [] s.bt.img.tt i) 6 1 = n then { s with frm.tt := tput [] s.frm.tt i [] } else s) s
    { s with sec.ttWait := s.sec.ttWait.filter (· != n) }
  else s

/-- The results folded in are applied in the order of R257. -/
def State.checkpoint (s : State) (n : Nat) : State :=
  let f := (s.ses n).folds
  if f.isEmpty then s
  else
    let s := s.ttTake n
    let s := (f.filter (fun e => e.kind == 2)).foldl (fun s e => s.applyCalib e.record) s
    let s := (f.filter (fun e => e.kind == 0)).foldl (fun s e => s.applyWindow e.record) s
    let s := s.setSes n { s.ses n with folds := [] }
    s.event 0x8 7 n

/-! ## Online residuals (R254, R255) -/

/-- The bound of a sensor's residual, BOUND × P / 16 (ns). -/
def State.residLim (s : State) (k : Nat) : Nat := s.f F.TIME_SNS_STATE_BOUND k * s.sensorP k / 16

/-- A sensor's residual, limited to its bound. -/
def State.setResid (s : State) (k : Nat) (v : Int) : State :=
  let lim : Int := (s.residLim k : Int)
  let v := if v > lim then lim else if v < -lim then -lim else v
  (s.setMon k { s.mon k with resid := v }).offsetUpdate k none

/-- Whether the CAMERA entry of an ingest index carries ESTIMATE_TD (Table 9-3). -/
def State.estimatesTd (s : State) (cam : Nat) : Bool :=
  (List.range s.bt.img.tt.length).any (fun i => let e := s.ttEntry i; ttNum e 0 1 == 4 && ttNum e 4 2 == cam && bitOf (ttNum e 1 1) 1)

/-- The camera slots of a session whose time offset is a state of its filter, with their ingest indices. -/
def State.tdSlots (s : State) (n : Nat) : List (Nat × Nat) :=
  if s.fb F.FRM_SES_CTL_ESTIMATE_TD n then (s.cams n).filter (fun e => s.estimatesTd e.2) else []

/-- The re-estimates that TIME_SLIP asked for (R255): a camera's offset in the filter becomes 0 with variance (P / 2)², a joint chain's or wheel's fit begins
anew. -/
def State.slipReset (s : State) (n : Nat) : State :=
  let ask := fun (b : Nat) => (s.srcSensors n b).any (fun k => (s.mon k).ask)
  let x := s.ses n
  let f := x.filter.values
  let l := (f.td.zip (List.range f.td.length)).filter (fun e => ask e.1.1)
  let g : Filt := l.foldl (fun (g : Filt) e =>
    let i := 15 + e.2
    let cam := s.camByte n e.1.1 % 32
    { g with td := g.td.map (fun t => if t.1 = e.1.1 then (t.1, Fv.zero) else t),
             cov := matOf g.dim g.dim (fun a b => if a = i ∧ b = i then Fv.ofInt ((s.mon cam).tvar : Nat) else if a = i ∨ b = i then Fv.zero else mAt g.cov a b) }) f
  let fits := x.fits.filter (fun e => !ask e.1)
  let sens := ((List.range 11).flatMap (s.srcSensors n)).filter (fun k => (s.mon k).ask)
  let s := if l.isEmpty then s.setSes n { x with fits := fits } else s.setSes n { x with fits := fits, filter := g.keep }
  sens.foldl (fun s k => s.setMon k { s.mon k with ask := false }) s

/-- A fit of the last second takes an innovation against a rate of change (R254); the offset fitted (ns). -/
def State.fit (s : State) (n bit ts : Nat) (r d : List Fv) : State × Int :=
  let x := s.ses n
  let l := (ts, fp64.eval (vDot r d), fp64.eval (vDot d d)) :: (tget [] x.fits bit).filter (fun e => decide (ts ≤ e.1 + 1000000000))
  let sum := fun (f : Nat × Nat × Nat → Nat) => vSum (l.map (fun e => fp64.dec (f e)))
  (s.setSes n { x with fits := tput [] x.fits bit l },
   ((sum (fun e => e.2.1)).over (sum (fun e => e.2.2))).rneMul 1000000000)

/-- The residuals of a step (R254): the filter's offsets of cameras, the fits of the joint chain and of the wheel. -/
def State.residuals (s : State) (n : Nat) (x : Filt) (joints wheel : Option (List Fv × List Fv)) : State :=
  let s := (s.tdSlots n).foldl (fun s e => match x.td.find? (fun t => t.1 == e.1) with
    | some t => s.setResid e.2 (t.2.rneMul 1)
    | none => s) s
  let s := [(9, joints), (10, wheel)].foldl (fun s e => match e.2 with
    | some q =>
      let r := s.fit n e.1 x.time q.1 q.2
      (r.1.srcSensors n e.1).foldl (fun s k => s.setResid k r.2) r.1
    | none => s) s
  (s.cams n).foldl (fun s e => s.setWord R.FRM_SES_TD (BitVec.ofInt 32 (s.mon e.2).resid) n e.1) s

/-! ## Keyframes (R256, R292, R298, R345) -/

/-- A request is written into a Cask queue's ring, and the queue's input Tally advances (R350). -/
def State.caskPost (s : State) (src q : Nat) (req : List Byte) : State :=
  if 16 ≤ q then s
  else
    let t := s.f F.CSK_Q_TALLY_IN q
    let slot := s.tv t % 2 ^ s.f F.CSK_Q_CTL_LOG2_LEN q
    (s.wrList (s.pair R.CSK_Q_IN_LO R.CSK_Q_IN_HI q + 320 * slot) (fitBytes 320 req)).advance src t 1

/-- A query request (Table 12-6). -/
def queryBytes (key idx k ses dev kf recent : Nat) (desc : List Byte) : List Byte :=
  leBytes 8 key ++ leBytes 1 idx ++ leBytes 1 k ++ leBytes 1 0 ++ leBytes 1 ses ++ leBytes 2 0 ++ leBytes 1 dev ++ zeroBytes 9
    ++ leBytes 4 kf ++ leBytes 4 recent ++ leBytes 4 0 ++ zeroBytes 28 ++ fitBytes 256 desc

/-- An INSERT request (R350). -/
def insertBytes (op idx attr id : Nat) (desc : List Byte) : List Byte :=
  leBytes 1 op ++ leBytes 1 idx ++ leBytes 2 0 ++ leBytes 4 (attr % 2 ^ 30) ++ leBytes 8 id ++ zeroBytes 48 ++ fitBytes 256 desc

/-- Whether the place network has published the last band of frame k (R19). -/
def State.placeReady (s : State) (n k : Nat) : Bool :=
  let i := s.f F.FRM_SES_RELOC_PLACE_INS n
  s.insOn i && decide ((k + 1) * s.snsBands (s.insSensor i) ≤ s.tv (s.f F.TNS_INS_TALLY_OUT i))

/-- The place descriptor of frame k of a session's camera slot 0 (R259, R345); none where its network result is INVALID_INPUT. -/
def State.placeDesc (s : State) (n k : Nat) : Option (List Byte) :=
  let i := s.f F.FRM_SES_RELOC_PLACE_INS n
  if !s.insOn i then none
  else if s.rdNum (s.insSlot i k + 6) 1 = St.invalidInput then none
  else some (s.rdList (s.bandArea i k (s.snsBands (s.insSensor i) - 1)) 256)

/-- The identifier of a keyframe's entry (R345). -/
def kfIdent (dev ses kf : Nat) : Nat := dev * 2 ^ 60 + ses * 2 ^ 52 + kf

/-- The attribute bits of an insert (Table 12-4): session, device and the keyframe. -/
def kfAttr (dev ses kf : Nat) : Nat := ses * 2 ^ 25 + dev * 2 ^ 21 + kf % 2 ^ 21

/-- A place query is posted, and the session waits for its result (R259, R345). -/
def State.askPlace (s : State) (n q : Nat) (w : PlaceQuery) (req : List Byte) : State :=
  let w : PlaceQuery := { w with queue := q, idx := s.tv (s.f F.CSK_Q_TALLY_IN q) }
  (s.setSes n { s.ses n with queries := (s.ses n).queries ++ [w] }).caskPost 0x8 q req

/-- The keyframe task's posts to the Cask (R345): the loop query, then the INSERT. -/
def State.kfCask (s : State) (n : Nat) (w : PlaceQuery) : State :=
  let q := (s.sesParam n).queue
  let qi := (s.sesParam n).insQueue
  match s.placeDesc n w.k with
  | none => s
  | some d =>
    let s := s.askPlace n q w (queryBytes (kfIdent s.deviceId n w.kf) (s.f F.CSK_Q_CTL_INDEX q) (s.f F.CSK_LOOP_LOOP_K) n s.deviceId w.kf
      (s.f F.CSK_LOOP_LOOP_RECENT) d)
    s.caskPost 0x8 qi (insertBytes 1 (s.f F.CSK_Q_CTL_INDEX qi) (kfAttr s.deviceId n w.kf) (kfIdent s.deviceId n w.kf) d)

/-! ## Verification of candidates (R259, R296, R328) -/

/-- The features of frame k of every camera slot of a session. -/
def State.sesFeats (s : State) (n k : Nat) : List (Nat × Feat) := (s.cams n).flatMap (fun e => (s.feats e.2 k).map (fun f => (e.1, f)))

/-- The landmarks of a candidate's observation list: of a keyframe of this part whose record stands. -/
def State.candidateLms (s : State) (id : Nat) : List Nat :=
  let m := id / 2 ^ 52 % 256
  let kf := id % 2 ^ 52
  let pr := s.sesParam m
  let a := pr.kfBase + 128 * (kf % Nat.max 1 pr.kfSlots)
  if id / 2 ^ 60 = s.deviceId ∧ s.sesOn m ∧ kf < s.f F.FRM_SES_KEYFRAMES_COUNT m ∧ s.rdNum a 4 = kf then
    ((List.range (s.rdNum (a + 64) 4)).map (fun j => s.rdNum (s.rdNum (a + 72) 8 + 16 * j) 4)).eraseDups
  else []

/-- The correspondences of a candidate (R296): each of its landmarks with the feature of each camera slot that R240 step 2 gives it. -/
def State.candidateCorr (s : State) (n : Nat) (feats : List (Nat × Feat)) (id : Nat) : List (Nat × Nat × Nat × Nat) :=
  (((s.candidateLms id).filter (fun i => s.frm.lms.contains i && !s.lmBad i)).flatMap (fun i =>
    (s.cams n).filterMap (fun e =>
      let fs := (feats.filter (fun f => f.1 == e.1)).map (·.2)
      match s.matchLm n i fs (List.range fs.length) with
      | some g => match fs.drop g with
        | f :: _ => some (f.x, f.y, i, e.1)
        | [] => none
      | none => none))).take 4096

/-- Whether a session looks for its place: LOST, or INITIALISING by MAP. -/
def State.seeking (s : State) (n : Nat) : Bool :=
  s.sesState n == 3 || (s.sesState n == 1 && s.f F.FRM_SES_CTL_INIT_MODE n == 1)

/-- A place query's result has come (Table 12-7): each candidate is posted to the session's RELPOSE problem. -/
def State.takePlaces (s : State) (n : Nat) (w : PlaceQuery) : State :=
  let a := s.pair R.CSK_Q_OUT_LO R.CSK_Q_OUT_HI w.queue + 1088 * (w.idx % 2 ^ s.f F.CSK_Q_CTL_LOG2_LEN w.queue)
  match s.sesProb 2 n with
  | none => s
  | some p =>
    if !w.loop && !s.seeking n then s
    else
      (List.range (s.rdNum (a + 9) 1)).foldl (fun s i =>
        let id := s.rdNum (a + 64 + 16 * i) 8
        let s := if w.loop then s else s.setSes n { s.ses n with verifs := (s.ses n).verifs ++ [{ key := id, k := w.k }] }
        s.ktlPost 0x8 p [{ op := 7, ts := s.now, key := id, loop := w.loop, corr := s.candidateCorr n w.feats id }]) s

/-- The pose that a verified RELPOSE record holds, with its covariance. -/
def State.relocOf (s : State) (k rec' : Nat) : Reloc :=
  let a := s.rdNum (rec' + 80) 8
  let v := (List.range 7).map (fun i => s.rdNum (a + 8 + 8 * i) 8)
  { k := k, pose := v,
    cov := (upperOf (poseCovOf (Motion.of v).q ((List.range 21).map (fun i => fp32.dec (s.rdNum (a + 64 + 4 * i) 4))))).map fp64.eval }

/-- A verified relocalisation is at hand: the other verifications no longer matter (R259). -/
def State.setReloc (s : State) (n : Nat) (r : Reloc) : State := s.setSes n { s.ses n with reloc := some r, verifs := [] }

/-- A solution of the session's RELPOSE problem is seen: the first verified candidate gives the RELOC source, by way of the Kiln with RELOC_KILN set and a dense
map bound to MAP_ID (R259, R328). -/
def State.takeVerified (s : State) (n rec' : Nat) : State :=
  let x := s.ses n
  let key := s.rdNum (rec' + 96) 8
  match x.verifs.find? (fun v => v.key == key && v.refine.isNone) with
  | none => s
  | some v =>
    let rest := x.verifs.filter (· != v)
    if !bitOf (s.rdNum (rec' + 4) 4) 11 then s.setSes n { x with verifs := rest }
    else if s.fb F.FRM_SES_RELOC_RELOC_KILN n
        && (List.range 8).any (fun m => s.fb F.KLN_MAP_CTL_ENABLE m && s.f F.KLN_MAP_ID_MAP_ID m == s.f F.FRM_SES_MAP_MAP_ID n) then
      let t := s.f F.KLN_RELOC_TALLY_IN
      let req := s.tv t
      let ids := (List.range 8).flatMap (fun j => leBytes 4 (if (s.cams n).any (fun e => e.1 == j) then v.k else 0xFFFFFFFF))
      let s := s.wrList (s.pair R.KLN_RELOC_RING_LO R.KLN_RELOC_RING_HI + 64 * (req % 64))
        (leBytes 8 key ++ leBytes 8 rec' ++ ids ++ leBytes 1 n ++ zeroBytes 15)
      (s.setSes n { x with verifs := [{ v with refine := some (rec', req) }] }).advance 0x8 t 1
    else s.setReloc n (s.relocOf v.k rec')

/-- A record of the Kiln is seen (R329): where the session asked for it, its pose is used where it was ACCEPTED, else the pose of the RELPOSE record (R328). -/
def State.takeRefined (s : State) (n i : Nat) : State :=
  match (s.ses n).verifs.findSome? (fun v => match v.refine with | some r => if r.2 = i then some (v, r.1) else none | none => none) with
  | none => s
  | some (v, rec') =>
    let a := s.pair R.KLN_RELOC_RING_LO R.KLN_RELOC_RING_HI + 4096 + 160 * (i % 64)
    let r := s.relocOf v.k rec'
    s.setReloc n (if !bitOf (s.rdNum (a + 11) 1) 0 then r
      else { r with
        pose := ((List.range 4).map (fun j => wide (s.rdNum (a + 40 + 4 * j) 4))) ++ (List.range 3).map (fun j => s.rdNum (a + 16 + 8 * j) 8),
        cov := (List.range 21).map (fun j => wide (s.rdNum (a + 68 + 4 * j) 4)) })

/-- What a session's place queries, verifications and refinements have brought since it last looked. -/
def State.placeSettle (s : State) (n : Nat) : State :=
  let x := s.ses n
  let came := fun (w : PlaceQuery) => decide (w.idx < s.tv (s.f F.CSK_Q_TALLY_OUT w.queue))
  let s := s.setSes n { x with queries := x.queries.filter (fun w => !came w) }
  let s := (x.queries.filter came).foldl (fun s w => s.takePlaces n w) s
  let s := match s.sesProb 2 n with
    | none => s
    | some p =>
      let cnt := s.tv (s.f F.KTL_PROB_TALLY_OUT p)
      let s := s.setSes n { s.ses n with relSeen := cnt }
      (List.range (cnt - x.relSeen)).foldl (fun s i => s.takeVerified n (s.ktlSlot p (x.relSeen + 1 + i))) s
  let done := s.tv (s.f F.KLN_RELOC_TALLY_OUT)
  let s := s.setSes n { s.ses n with kilnSeen := done }
  (List.range (done - x.kilnSeen)).foldl (fun s i => s.takeRefined n (x.kilnSeen + i)) s

/-! ## Keyframes and the Kettle's problems (R256, R292, R295, R298) -/

/-- A state's pose as a keyframe record holds it (Table 9-8): position FP64, orientation FP32. -/
def Filt.kfPos (x : Filt) : List Nat := x.pose.t.map fp64.eval
def Filt.kfQ (x : Filt) : List Nat := (qUnit x.pose.q).map fp32.eval

/-- The identifier of an observation's factor: camera slot, keyframe, landmark. -/
def obsId (slot kf lm : Nat) : Nat := 2 ^ 63 + slot * 2 ^ 60 + (kf % 2 ^ 28) * 2 ^ 32 + lm

/-- The measurement of a REPROJ factor (Table 10-3): x and y in pixels, the camera's entry, σ = pixel_sigma. -/
def State.obsVal (s : State) (cam x y : Nat) : List Nat :=
  let e := s.camEntry cam
  [fp64.ofRat (x : Nat) 65536, fp64.ofRat (y : Nat) 65536, e, wide (ttNum (s.ttEntry e) 112 4)]

/-- A finite FP64 pattern from a free value. -/
def finite64 (v : Nat) : Nat := (v / 2) % (0x7FF * 2 ^ 52) + v % 2 * 2 ^ 63

/-- `k` free FP32 patterns from the counter `c` on. -/
def freeWords (c k : Nat) : List Nat := (List.range k).map (fun i => Config.freeNat (c + i) % 2 ^ 32)

/-- `k` free finite FP64 values from the counter `c` on. -/
def freeVals (c k : Nat) : List Nat := (List.range k).map (fun i => finite64 (Config.freeNat (c + i)))

/-- The keyframe's delta to its WINDOW problem (R292): the keyframe, the points and observations of its list, the marginalisation of the
oldest keyframe and of the points only it observed once the window is full, and a SOLVE. -/
def State.kfWindow (s : State) (n kf ts : Nat) (y : Filt) (obs : List Track) : State :=
  match s.sesProb 0 n with
  | none => s
  | some p =>
    let x := s.prob p
    let pose := varId 0 n kf
    let pt := fun (lm : Nat) => varId 2 0xFF lm
    let queued := fun (id : Nat) => x.vars.any (fun w => w.id == id) || x.ring.any (fun d => d.op == 1 && d.id == id)
    let lms := (obs.filterMap (·.lm)).eraseDups
    let add : Delta := { op := 1, id := pose, typ := 0, val := y.kfQ.map wide ++ y.kfPos }
    let pts := (lms.filter (fun l => !queued (pt l))).map (fun l =>
      ({ op := 1, id := pt l, typ := 2, val := (List.range 3).map (fun k => wide (s.rdNum (s.lmAddr l + 4 * k) 4)) } : Delta))
    let facs := obs.filterMap (fun t => match t.lm with
      | some l => some ({ op := 4, id := obsId t.slot kf l, typ := 1, vars := [pose, pt l], val := s.obsVal (s.camByte n t.slot % 32) t.x t.y } : Delta)
      | none => none)
    let kfs := x.vars.filter (fun w => w.typ == 0) ++ (x.ring.filter (fun d => d.op == 1 && d.typ == 0)).map (fun d => ({ id := d.id, typ := 0 } : KVar))
    let gone : List Delta :=
      if kfs.length + 1 ≤ s.windowOf p then []
      else
        match bestBy (fun (a b : KVar) => decide (a.idx < b.idx)) kfs with
        | none => []
        | some o =>
          let lone := (x.vars.filter (fun w => w.typ == 2 && !lms.any (fun l => pt l == w.id)
            && (x.observers [w.id]).all (fun k => k == o.id) && x.facs.any (fun f => f.vars.contains w.id && f.vars.contains o.id)))
          ({ op := 2, id := o.id, marg := true } : Delta) :: lone.map (fun w => ({ op := 2, id := w.id, marg := true } : Delta))
    s.ktlPost 0x8 p (add :: pts ++ facs ++ gone ++ [{ op := 7, ts := ts, key := kf }])

/-- A keyframe joins its map's pose graph, tied to its predecessor (R298) by their relative pose. -/
def State.kfGraph (s : State) (n kf : Nat) (y : Filt) : State :=
  match s.mapProb (s.f F.FRM_SES_MAP_MAP_ID n) with
  | none => s
  | some p =>
    let typ := if s.bt.img.ktlSim3.contains p then 1 else 0
    let id := varId typ n kf
    let add : Delta := { op := 1, id := id, typ := typ, val := y.kfQ.map wide ++ y.kfPos ++ (if typ = 1 then [0] else []) }
    match (s.ses n).kfPoses.find? (fun k => k.1 + 1 == kf) with
    | some k =>
      let z := ((Motion.of k.2).inv.comp y.pose).nums
      let tie : Delta := { op := 4, id := 2 ^ 63 + n * 2 ^ 48 + kf, typ := 2, vars := [varId typ n (kf - 1), id],
                           val := z ++ (if typ = 1 then [0] else []), info := Config.factorInfo 2 (z ++ (upperOf y.poseCov).map fp64.eval) }
      s.ktlPost 0x8 p [add, tie]
    | none => s.ktlPost 0x8 p [add]

/-- The pixels where a track was observed, as views: each by the pose clone of its step, while the filter holds it. -/
def State.trackViews (s : State) (n : Nat) (y : Filt) (t : Track) : List View :=
  let cam := s.camByte n t.slot % 32
  let e := s.ttEntry (s.camEntry cam)
  t.views.filterMap (fun v => match y.clones.findIdx? (fun c => c.1 == v.1) with
    | some i => match y.clones.drop i with
      | c :: _ => some { e := e, cam := c.2.comp (s.camIn n cam y.time), z := pixel v.2.1 v.2.2, clone := some (y.cloneAt i, c.2) }
      | [] => none
    | none => none)

/-- Whether views of a point span a parallax of at least PARALLAX (0.1° units). -/
def State.spans (s : State) (n : Nat) (l : List View) (p : List Fv) : Bool :=
  (Fv.ofRat (s.f F.FRM_SES_ASSOC_PARALLAX n : Nat) 10).le (parallax l p)

/-- The track constraints of a step (R242, R247): tracks that end without a landmark, with at least three observations over PARALLAX,
whose statistic passes the gate of 2 × views − 3 degrees. Each is its point's identifier, its position, its track and its rows. -/
def State.constraints (s : State) (n : Nat) (y : Filt) (gone : List Track) :
    List (Nat × List Fv × Track × (List Fv × List (List Fv) × List (List Fv))) :=
  gone.filterMap (fun t =>
    let l := s.trackViews n y t
    let p := (triangulate l).1
    let c := y.trackRows l p
    if t.lm.isNone ∧ 3 ≤ l.length ∧ s.spans n l p ∧ gateK (fp64.eval (chiStat c.1 (y.innov c.2.1 c.2.2))) (2 * l.length - 3) then
      some (varId 2 n t.id, p, t, c)
    else none)

/-- The distance and the yaw change that the wheel channels give between two times: their values joined by straight lines, from record to record. -/
def State.wheelPath (s : State) (n a b : Nat) : List Fv :=
  let ts : List Nat := match (s.wheelChans n).head? with
    | some c => [a] ++ (((s.heardOf c).map ChanRec.ts).filter (fun t => decide (a < t) && decide (t < b))).reverse ++ [b]
    | none => []
  (ts.zip (ts.drop 1)).foldl (fun (d : List Fv) e =>
    vAdd d (vScale (Fv.half.times (nsSec (e.2 - e.1 : Nat))) (vAdd ((s.wheelMeas n e.1).1.take 2) ((s.wheelMeas n e.2).1.take 2)))) (vZero 2)

/-- The vision step's delta to its SMOOTH problem (R295): a state of pose, velocity and biases, its IMU factor, the constraints of tracks
that ended, the state that leaves the lag, and a SOLVE. -/
def State.stepSmooth (s : State) (n k ts : Nat) (x0 : Option Filt) (y : Filt) (gone : List Track) : State :=
  match s.sesProb 1 n with
  | none => s
  | some p =>
    let x := s.prob p
    let id := fun (typ k : Nat) => varId typ n k
    let add : List Delta := [{ op := 1, id := id 0 k, typ := 0, val := y.kfQ.map wide ++ y.kfPos },
      { op := 1, id := id 3 k, typ := 3, val := y.vel.map fp64.eval }, { op := 1, id := id 4 k, typ := 4, val := y.bias.map fp64.eval }]
    let known := x.vars.any (fun w => w.id == id 0 (k - 1)) || x.ring.any (fun d => d.op == 1 && d.id == id 0 (k - 1))
    let from' := match x0 with | some f => f.time | none => ts
    let imu : List Delta := match x0 with
      | none => []
      | some f =>
        if 0 < k ∧ known ∧ !(s.imuChans n).isEmpty then
          let meas := ((s.imuTimes n from' ts).filterMap (s.imuMeas n)).map (fun m => (m.ts, (m.gyro ++ m.acc).map fp64.eval))
          [{ op := 4, id := 2 ^ 63 + k, typ := 3, vars := [id 0 (k - 1), id 3 (k - 1), id 4 (k - 1), id 0 k, id 3 k, id 4 k],
             val := Config.preintegrate (f.nums ++ [from', ts]) meas, info := Config.factorInfo 3 (f.nums ++ [from', ts]) }]
        else []
    let chain : List Delta := if (s.joints n).isEmpty then [] else
        [{ op := 4, id := 2 ^ 63 + 2 ^ 62 + k, typ := 4, vars := [id 0 k],
           val := (s.jointChans n).map (fun c => fp64.eval (s.chanAt c ts)) ++ [s.f F.FRM_SES_SRC_CHAIN n],
           info := Config.factorInfo 4 ((upperOf (s.chainCov n ts)).map fp64.eval) }]
    let wheel : List Delta := if (s.wheelChans n).isEmpty || !known then []
      else
        let w := s.wheelPath n from' ts
        let e := s.ttEntry (s.f F.FRM_SES_WHEEL_ENTRY n)
        let iv := fun (off : Nat) => Fv.one.over (((tt32 e off).times (nsSec (ts - from' : Nat))).sq)
        [{ op := 4, id := 2 ^ 63 + 2 ^ 61 + k, typ := 5, vars := [id 0 (k - 1), id 0 k], val := (w ++ [Fv.zero]).map fp64.eval,
           info := (upperOf (mDiag [iv 88, iv 92, iv 96])).map fp64.eval }]
    let held := fun (j : Nat) => j == k || x.vars.any (fun w => w.id == id 0 j) || x.ring.any (fun d => d.op == 1 && d.id == id 0 j)
    let track : List Delta := (s.constraints n y gone).flatMap (fun c =>
      let tr := c.2.2.1
      let views := (tr.views.zip (List.range tr.views.length)).filter (fun q => held q.1.1)
      if views.isEmpty then []
      else ({ op := 1, id := c.1, typ := 2, val := c.2.1.map fp64.eval } : Delta) :: views.map (fun q =>
        ({ op := 4, id := 2 ^ 63 + 2 ^ 62 + 2 ^ 61 + tr.id * 2 ^ 16 + q.2, typ := 1, vars := [id 0 q.1.1, c.1],
           val := s.obsVal (s.camByte n tr.slot % 32) q.1.2.1 q.1.2.2 } : Delta)))
    let states := (x.vars.filter (fun w => w.typ == 0)).length + (x.ring.filter (fun d => d.op == 1 && d.typ == 0)).length
    let leave : List Delta :=
      if states + 1 ≤ s.windowOf p then []
      else
        match bestBy (fun (a b : KVar) => decide (a.idx < b.idx)) (x.vars.filter (fun w => w.typ == 0)) with
        | none => []
        | some o =>
          let own := x.vars.filter (fun w => w.typ == 2 && (let l := x.observers [w.id]; !l.isEmpty && l.all (· == o.id)))
          own.map (fun w => ({ op := 2, id := w.id, marg := true } : Delta))
            ++ [0, 3, 4].map (fun typ => ({ op := 2, id := id typ o.idx, marg := true } : Delta))
    s.ktlPost 0x8 p (add ++ imu ++ chain ++ wheel ++ track ++ leave ++ [{ op := 7, ts := ts, key := (s.f F.FRM_SES_KEYFRAMES_COUNT n) }])

/-- The keyframe record (Table 9-8) and its observation list are written, the landmarks observed take its id,
and the keyframe Tally advances; the posts to the Cask wait for the place network (R19). -/
def State.keyframe (s : State) (n k ts : Nat) (y : Filt) (obs : List Track) : State :=
  let p := s.sesParam n
  let kf := s.f F.FRM_SES_KEYFRAMES_COUNT n
  let cams := s.cams n
  let idx := kf % Nat.max 1 p.kfSlots
  let list := obs.take (p.obsSize / 16)
  let oa := p.obsBase + p.obsSize * idx
  let ob := list.flatMap (fun t => leBytes 4 (t.lm.getD 0) ++ leBytes 1 t.slot ++ leBytes 1 t.seen ++ leBytes 2 0 ++ leBytes 4 t.x ++ leBytes 4 t.y)
  let l := fun (w c : Nat) (v : List Nat) => (List.range c).flatMap (fun i => leBytes w (nth 0 v i))
  let ids := (List.range 8).flatMap (fun j => leBytes 4 (if cams.any (fun e => e.1 == j) then k else 0xFFFFFFFF))
  let r := leBytes 4 kf ++ leBytes 2 n ++ leBytes 1 (maskOf (cams.map (·.1))) ++ leBytes 1 0 ++ tsBytes ts ++ leBytes 4 k ++ l 8 3 y.kfPos
    ++ l 4 4 y.kfQ ++ leBytes 4 list.length ++ leBytes 4 0 ++ leBytes 8 oa ++ ids ++ zeroBytes 16
  let s := (s.wrList oa ob).wrList (p.kfBase + 128 * idx) r
  let s := (obs.filterMap (·.lm)).foldl (fun s i => s.wrNum (s.lmAddr i + 24) 4 kf) s
  let s := s.addWrap F.FRM_SES_KEYFRAMES_COUNT 1 n
  let s := s.setSes n { s.ses n with sinceKf := 0, kfAt := ts, kfLms := (obs.filterMap (·.lm)).eraseDups.length, fresh := false,
                                     kfPoses := ((kf, y.pose.nums) :: (s.ses n).kfPoses).take (Nat.max 1 p.kfSlots) }
  let s := s.advance 0x8 p.kf 1 (some ts)
  let s := (s.kfWindow n kf ts y obs).kfGraph n kf y
  s.setSes n { s.ses n with kfWait := (s.ses n).kfWait ++ [{ k := k, kf := kf, loop := true, feats := s.sesFeats n k }] }

/-- Whether landmark b takes part in the comparisons of landmark a (R240, R247): both cached, neither BAD, of one kind and map. -/
def State.comparable (s : State) (a b : Nat) : Bool :=
  let num := fun (i off k : Nat) => s.rdNum (s.lmAddr i + off) k
  a != b && s.frm.lms.contains a && s.frm.lms.contains b && !s.lmBad a && !s.lmBad b && (s.lmSlot a).isSome && (s.lmSlot b).isSome
    && num a 14 1 == num b 14 1 && num a 16 4 == num b 16 4

/-- Whether landmark i matches landmark j under R240 (nearest, at most DESC_THR, nearer than 0.8 × the second) and lies within 10 mm of it in the cache
(R247), j the earlier. -/
def State.sameLm (s : State) (n j i : Nat) : Bool :=
  let d := fun (b : Nat) => hamming (s.rdNum (s.lmAddr i + 14) 1 == 0) (s.rdNum (s.lmAddr i + 32) 32) (s.rdNum (s.lmAddr b + 32) 32)
  let c := fun (k : Nat) => (sgn 21 (s.lmEntry j / 2 ^ (21 * k))) - sgn 21 (s.lmEntry i / 2 ^ (21 * k))
  decide (j < i) && s.comparable i j && decide (d j ≤ s.f F.FRM_SES_ASSOC_DESC_THR n)
    && (s.frm.lms.filter (fun b => b != j && s.comparable i b)).all (fun b => decide (10 * d j < 8 * d b))
    && decide (c 0 * c 0 + c 1 * c 1 + c 2 * c 2 ≤ 25)

/-- Landmark i becomes landmark j for a track. -/
def Track.renamed (i j : Nat) (t : Track) : Track := if t.lm = some i then { t with lm := some j } else t

/-- Landmarks that match merge (R247): the later one goes, its tracks hold the earlier one. The answer carries the session's tracks of
this step. -/
def State.mergeLms (s : State) (n : Nat) (tracks : List Track) : State × List Track :=
  s.frm.lms.foldl (fun (a : State × List Track) i =>
    match a.1.frm.lms.find? (fun j => a.1.sameLm n j i) with
    | none => a
    | some j =>
      let s : State := { a.1 with frm.ses := a.1.frm.ses.map (fun e => (e.1, { e.2 with tracks := e.2.tracks.map (Track.renamed i j) })) }
      (s.freeLm i, a.2.map (Track.renamed i j))) (s, tracks)

/-! ## The vision step -/

/-- The filter after a step is kept (R245), its time offsets within the bounds of their sensors (R254). -/
def State.noteFilter (s : State) (n : Nat) (y : Filt) : State :=
  let y : Filt := { y with td := y.td.map (fun e =>
    let lim := Fv.ofInt (s.residLim (s.camByte n e.1 % 32) : Nat)
    (e.1, if lim.lt e.2 then lim else if e.2.lt lim.neg then lim.neg else e.2)) }
  s.setSes n { s.ses n with filter := y.keep }

/-- Whether every IMU channel's last record is a valid one: neither ABSENT nor WARMUP (R238, R245). -/
def State.imuValid (s : State) (n : Nat) : Bool :=
  let c := s.imuChans n
  !c.isEmpty && c.all (fun c => let r := s.lastRec c; !bitOf r.2 2 && !bitOf r.2 3)

/-- Latencies of the last second: FRM_SES_LAT. -/
def State.noteLat (s : State) (n us : Nat) : State :=
  let l := (s.mono, us) :: (s.ses n).lat.filter (fun e => decide (s.mono ≤ e.1 + 1000000000))
  let v := sortBy (fun (a b : Nat) => decide (a < b)) (l.map (·.2))
  let s := s.setSes n { s.ses n with lat := l }
  let lat := satU 16 (nth 0 v (ceilDiv (99 * v.length) 100 - 1))
  s.tele R.FRM_SES_LAT (fun s => (s.setF F.FRM_SES_LAT_P99_US lat n).setF F.FRM_SES_LAT_MAX_US (satU 16 (v.foldl Nat.max 0)) n) n

/-- The end of the exposure of a camera's frame. -/
def State.exposureEnd (s : State) (cam k : Nat) : Nat :=
  let a := s.pair R.ING_SNS_DESC_LO R.ING_SNS_DESC_HI cam + 64 * (k % 64)
  s.rdNum (a + 8) 8 * 1000000000 + s.rdNum (a + 16) 4 + s.rdNum (a + 36) 4 / 2

/-- Whether a camera's frame k is absent or invalid in ingest or in its keypoint source (R261). -/
def State.camInvalid (s : State) (cam k : Nat) : Bool :=
  match s.src cam k with
  | none => true
  | some f => f.absent || f.valid == 0

/-- Whether a camera's frame k is absent or has an invalid band (Table 9-10). -/
def State.camReduced (s : State) (cam k : Nat) : Bool :=
  match s.src cam k with
  | none => true
  | some f => f.absent || f.valid != 2 ^ s.snsBands cam - 1

/-- Where a track is expected in frame k + 1 (R239): its landmark at the pose predicted then, or its position moved by the image rotation that the gyro
predicts; Q16.16, none outside the image. -/
def State.guess (s : State) (n k : Nat) (y : Filt) (t : Track) : Option (Nat × Nat) :=
  let cam := s.camByte n t.slot % 32
  let e := s.ttEntry (s.camEntry cam)
  let dt := s.obsDt n t.slot cam k y
  let next := dt.plus (nsSec (s.f F.ING_SNS_PERIOD_NS cam : Nat))
  let c := s.camIn n cam y.time
  let u := match t.lm with
    | some i => (y.look { s.obsAt n t.slot cam k y (vZero 2) [] (s.lmPos i) with dt := next }).1
    | none => ttProject e (qRot (qConj ((y.moved next).comp c).q) (qRot ((y.moved dt).comp c).q (ttRay e (pixel t.x t.y))))
  if s.inImage cam u then
    some (((fp64.dec (fp64.eval (vAt u 0))).rneMul 65536).toNat, ((fp64.dec (fp64.eval (vAt u 1))).rneMul 65536).toNat)
  else none

/-- The track lists for frame k + 1 (R239): sorted by y_guess, up to TRACKS_MAX; a guess outside the image drops the track. Without a state the guess is the
last position. -/
def State.nextLists (s : State) (n k : Nat) (y : Option Filt) (tracks : List Track) : State × List Track :=
  (s.cams n).foldl (fun (a : State × List Track) e =>
    let mine := a.2.filter (fun t => t.slot == e.1)
    let inside := mine.filterMap (fun (t : Track) => match y with
      | some y => (s.guess n k y t).map (fun g => (t, g))
      | none => some (t, t.x, t.y))
    let list := (sortBy (fun (p q : Track × Nat × Nat) => decide (p.2.2 < q.2.2)) inside).take (a.1.f F.FRM_SES_TRACK_TRACKS_MAX n)
    let s := a.1.writeList e.2 (list.map (fun q => (q.1.id, q.1.x, q.1.y, q.2.1, q.2.2)))
    (s, a.2.filter (fun t => t.slot != e.1) ++ inside.map (·.1))) (s, tracks)

/-- The disparity of a pair at a level-0 position of frame k of its left camera (R156, Table 6-8); none where the SGM Tally does not cover the frame
(R19), where it has no planes, the
position lies outside, or the pixel is coded. -/
def State.disparityAt (s : State) (p k x y : Nat) : Option Nat :=
  let flags := s.rdNum (s.sgmSlot p k + 20) 4
  let l := 65536 * 2 ^ s.f F.MILL_SGM_CTL_LEVEL p
  let i := x / l
  let j := y / l
  let d := s.rdNum (s.sgmSlot p k + 4096 + 2 * ((j / 64 * ceilDiv (s.sgmW p) 64 + i / 64) * 4096 + j % 64 * 64 + i % 64)) 2
  if !s.sgmOver p k || bitOf flags 0 || bitOf flags 2 || bitOf flags 3 || decide (s.sgmW p ≤ i) || decide (s.sgmH p ≤ j) || decide (0xFFFC ≤ d) then none
  else some d

/-- The pair whose left camera is `cam` and whose right camera is `other`. -/
def State.sgmPair (s : State) (cam other : Nat) : Option Nat :=
  (List.range 16).find? (fun q => s.fb F.MILL_SGM_CTL_ENABLE q && s.sgmL q == cam && s.sgmR q == other)

/-- The partner slot of a camera slot and whether the camera is the left one of the two: code 1 names the next slot, 2 the previous. -/
def State.partner (s : State) (n j : Nat) : Option (Nat × Bool) :=
  match s.camByte n j / 32 % 4 with
  | 1 => some (j + 1, true)
  | 2 => some (j - 1, false)
  | _ => none

/-- The stereo match of a track (R242): a feature of the partner's frame k on its rectified row ± 1 px, at positive disparity, matching under R240 step 2;
its point. -/
def State.stereoPoint (s : State) (n k : Nat) (y : Filt) (t : Track) : Option NewLm :=
  match s.partner n t.slot with
  | none => none
  | some (o, left) =>
    let cam := s.camByte n t.slot % 32
    let other := s.camByte n o % 32
    let fs := if (s.cams n).any (fun e => e.1 == o) then s.feats other k else []
    let near := (List.range fs.length).filter (fun g => match fs.drop g with
      | f :: _ => decide (Nat.max f.y t.y - Nat.min f.y t.y ≤ 65536) && (if left then decide (f.x < t.x) else decide (t.x < f.x))
      | [] => false)
    match s.matchFeat n t.corner t.desc fs near with
    | none => none
    | some g => match fs.drop g with
      | [] => none
      | f :: _ =>
        let view := fun (c x y' : Nat) => ({ e := s.ttEntry (s.camEntry c), cam := y.pose.comp (s.camIn n c y.time), z := pixel x y', clone := none } : View)
        let q := triangulate [view cam t.x t.y, view other f.x f.y]
        some (NewLm.of q.1 q.2)

/-- The point of a track by its motion (R242): at least three observations over PARALLAX, within the gate of two degrees in every view. -/
def State.motionPoint (s : State) (n : Nat) (y : Filt) (t : Track) : Option NewLm :=
  let l := s.trackViews n y t
  let q := triangulate l
  if 3 ≤ l.length ∧ s.spans n l q.1 ∧ l.all (fun v =>
      let sg := (ttPixSigma v.e).sq
      gateOk (fp64.eval (chiStat (v.see q.1).1 (y.innov (y.viewRows v q.1) (mDiag [sg, sg])))) gate2) then some (NewLm.of q.1 q.2)
  else none

/-- Confirmations of frame k (R242): a TENTATIVE track observed in the step gains its landmark by stereo, else by motion; at a keyframe, else by SGM, which
waits for the disparity of the whole frame. -/
def State.confirm (s : State) (n k : Nat) (keyframe : Bool) (y : Filt) (tracks : List Track) : State × List Track :=
  tracks.foldl (fun (a : State × List Track) t =>
    if t.lm.isSome || t.seen == 3 then (a.1, a.2 ++ [t])
    else
      let s := a.1
      match (match s.stereoPoint n k y t with | some p => some p | none => s.motionPoint n y t) with
      | some p => let r := s.newLm n t p; (r.1, a.2 ++ [({ t with lm := r.2 } : Track)])
      | none =>
        let cam := s.camByte n t.slot % 32
        match (if keyframe then s.partner n t.slot else none) with
        | some (o, true) => match s.sgmPair cam (s.camByte n o % 32) with
          | some q =>
            let w : SgmInit := { k := k, pair := q, track := t.id, px := t.x, py := t.y, cam := cam, pose := (y.pose.comp (s.camIn n cam y.time)).nums }
            (s.setSes n { s.ses n with sgmWait := (s.ses n).sgmWait ++ [w] }, a.2 ++ [t])
          | none => (s, a.2 ++ [t])
        | _ => (s, a.2 ++ [t])) (s, [])

/-- An SGM landmark (R242): made where the disparity at the track's position (Q11.5, pixels at the SGM level) is a measurement and the track is still
TENTATIVE. -/
def State.sgmInit (s : State) (n : Nat) (w : SgmInit) : State :=
  match (s.ses n).tracks.find? (fun t => t.id == w.track && t.lm.isNone), s.disparityAt w.pair w.k w.px w.py with
  | some t, some d =>
    let c := Motion.of w.pose
    let other := s.sgmR w.pair
    let z := pixel w.px w.py
    let right := c.comp (s.entIn 0 (s.camEntry other) (s.camEntry w.cam))
    let q := triangulate [{ e := s.ttEntry (s.camEntry w.cam), cam := c, z := z, clone := none },
      { e := s.ttEntry (s.camEntry other), cam := right, z := vSub z [Fv.ofRat (d * 2 ^ s.f F.MILL_SGM_CTL_LEVEL w.pair : Nat) 32, Fv.zero], clone := none }]
    let r := s.newLm n t (NewLm.of q.1 q.2)
    match r.2 with
    | none => r.1
    | some i => r.1.setSes n { r.1.ses n with
        tracks := (r.1.ses n).tracks.map (fun (u : Track) => if u.id = t.id then ({ u with lm := some i } : Track) else u) }
  | _, _ => s

/-- Whether the Tally of a pair covers the whole of frame k (R155). -/
def State.disparityReady (s : State) (p k : Nat) : Bool := decide ((k + 1) * s.sgmBands p ≤ s.tv (s.f F.MILL_SGM_TALLY_OUT p))

/-- The keyframe task's work that waited for another block's Tally (R19): SGM landmarks, and posts to the Cask. -/
def State.kfSettle (s : State) (n : Nat) : State :=
  let x := s.ses n
  let pr := fun (w : PlaceQuery) => s.placeReady n w.k
  let sr := fun (w : SgmInit) => s.disparityReady w.pair w.k
  let s := s.setSes n { x with kfWait := x.kfWait.filter (fun e => !pr e), sgmWait := x.sgmWait.filter (fun w => !sr w) }
  let s := (x.sgmWait.filter sr).foldl (fun s w => s.sgmInit n w) s
  (x.kfWait.filter pr).foldl (fun s w => s.kfCask n w) s

/-! ## Sources (R248) -/

/-- A pose-capable source in a step: its bit of Table 9-11, its pose of the state frame in the anchor, and its covariance. -/
structure Source where
  bit : Nat
  z : Motion
  cov : List (List Fv)

/-- The variance that an uncertain time adds to a pose (R255): by the velocity and the angular rate of the state. -/
def State.timeCov (s : State) (n bit : Nat) (x : Option Filt) : List (List Fv) :=
  let v := (s.srcSensors n bit).foldl (fun m k => Nat.max m (s.mon k).tvar) 0
  match x with
  | none => mZero 6 6
  | some x => let d := x.vel ++ x.omega; matOf 6 6 (fun i j => (Fv.ofRat (v : Nat) (10 ^ 18)).times ((vAt d i).times (vAt d j)))

/-- The observation of a track's landmark. -/
def State.trackObs (s : State) (n k : Nat) (x : Filt) (t : Track) : Obs :=
  s.obsAt n t.slot (s.camByte n t.slot % 32) k x (pixel t.x t.y) t.cov (s.lmPos (t.lm.getD 0))

/-- A camera as a source: at least 8 accepted observations, and information whose smallest eigenvalue is at least 10⁻⁶ of the largest. -/
def State.camSource (s : State) (n k : Nat) (x : Filt) (acc : List Track) (j cam : Nat) : Option Source :=
  let l := (acc.filter (fun t => t.slot == j)).map (s.trackObs n k x)
  if l.length < 8 ∨ s.srcHeld n j ∨ s.camInvalid cam k then none
  else
    let q := x.camPose l
    if eigWell q.2 then some { bit := j, z := q.1, cov := mInv q.2 } else none

/-- The joint chain as a source: every joint has records that bracket the step, OK and without SUBST. -/
def State.jointSource (s : State) (n ts : Nat) (x : Option Filt) : Option Source :=
  if (s.joints n).isEmpty ∨ s.srcHeld n 9 ∨ !(s.jointChans n).all (fun c => s.chanGood c ts) then none
  else some { bit := 9, z := s.chainPose n ts, cov := mAdd (s.chainCov n ts) (s.timeCov n 9 x) }

/-- A verified relocalisation as a source, in the step that receives it; carried from its frame to the step by the filter's clone of that frame, where it holds one. -/
def State.relocSource (s : State) (n : Nat) (x : Option Filt) : Option Source :=
  match (s.ses n).reloc with
  | none => none
  | some r =>
    let m := Motion.of r.pose
    let z := match x with
      | some x => match x.clones.find? (fun c => c.1 == r.k) with
        | some c => (m.comp c.2.inv).comp x.pose
        | none => m
      | none => m
    some { bit := 11, z := z, cov := upper 6 (r.cov.map fp64.dec) }

/-- The window solution as a source, at a checkpoint: its newest keyframe's pose, carried to the step by the pose held of that keyframe. -/
def State.windowSource (s : State) (n : Nat) (folds : List FoldIn) (x : Filt) : Option Source :=
  match (folds.filter (fun f => f.kind == 0)).getLast? with
  | none => none
  | some f => match s.windowNewest f.record with
    | none => none
    | some (kf, m, c) => ((s.ses n).kfPoses.find? (fun k => k.1 == kf)).map (fun k =>
        { bit := 12, z := (m.comp (Motion.of k.2).inv).comp x.pose, cov := c })

/-- The pose-capable sources of a step (Table 9-6). -/
def State.sources (s : State) (n k ts : Nat) (x : Option Filt) (acc : List Track) (folds : List FoldIn) : List Source :=
  (match x with | some x => (s.cams n).filterMap (fun c => s.camSource n k x acc c.1 c.2) | none => [])
    ++ (s.jointSource n ts x).toList ++ (s.relocSource n x).toList ++ (match x with | some x => (s.windowSource n folds x).toList | none => [])

/-- The statistic of the prior test of a source, and of the pair test of two (R249), FP64. -/
def Source.prior (a : Source) (x : Filt) : Nat := fp64.eval (chiStat (a.z.diff x.pose) (mAdd a.cov x.poseCov))
def Source.pair (a b : Source) : Nat := fp64.eval (chiStat (a.z.diff b.z) (mAdd a.cov b.cov))

/-- The pose of several sources fused by their information, and its covariance. -/
def fusedPose (l : List Source) : Motion × List (List Fv) :=
  match l with
  | [] => (Motion.one, mZero 6 6)
  | a :: _ =>
    let info := l.foldl (fun m e => mAdd m (mInv e.cov)) (mZero 6 6)
    let g := l.foldl (fun v e => vAdd v (mVec (mInv e.cov) (e.z.diff a.z))) (vZero 6)
    (a.z.move (mVec (mInv info) g), mInv info)

/-- The result of the pose level of a step: `back` says that a LOST session took a RELOC or JOINTS source (R260). -/
structure Level where
  arb : Arb
  reset : Bool := false
  back : Bool := false
  capable : List Nat := []
  prob : List (Nat × Nat) := []
  probNow : List Nat := []
  gateRun : Nat := 0

/-- The score histories of a session without what lies more than 10 s before a time (R251). -/
def SesSt.recent (x : SesSt) (ts : Nat) : Table (List (Nat × Bool)) :=
  (x.scores.map (fun e => (e.1, e.2.filter (fun h => decide (ts ≤ h.1 + 10000000000))))).filter (fun e => !e.2.isEmpty)

/-- The pose level (R248, R250–R253, R260): capable sources, arbitration, probation, the gate reset; without a prior, or while LOST, no source is gated
against it. -/
def State.poseLevel (s : State) (n ts : Nat) (x0 : Option Filt) (l : List Source) (lost : Bool) : Level :=
  let x := s.ses n
  let on := x.probation.map (·.1)
  let prior := fun (b : Nat) => match x0, l.find? (fun e => e.bit == b) with
    | some f, some e => lost || gateOk (e.prior f) gate6
    | _, _ => true
  let pair := fun (a b : Nat) => match l.find? (fun e => e.bit == a), l.find? (fun e => e.bit == b) with
    | some e, some f => gateOk (e.pair f) gate6
    | _, _ => true
  let sc := x.recent ts
  let score := fun (b : Nat) => scoreOf (tget [] sc b)
  let capable := l.map (·.bit)
  let c := capable.filter (fun b => !on.contains b)
  let arb := arbitrate prior pair score c
  let allPair := c.all (fun a => c.all (fun b => a == b || pair a b))
  let wrong := !lost && x0.isSome && !c.isEmpty && c.all (fun b => !prior b) && allPair
  let run := if wrong then x.gateRun + 1 else 0
  let reset := decide (s.f F.FRM_SES_GATE_GATE_RESET n ≤ run) && wrong
  let home := c.filter (fun b => b == 9 || b == 11)
  let back := lost && !home.isEmpty
  let arb : Arb := if reset then { used := c }
    else if back then { arb with used := (arb.used ++ home).eraseDups, withheld := arb.withheld.filter (fun b => !home.contains b),
                                 outvoted := arb.outvoted.filter (fun b => !home.contains b),
                                 probation := arb.probation.filter (fun b => !home.contains b), conflict := false }
    else arb
  let tested := x.probation.filterMap (fun e =>
    if !capable.contains e.1 then some e
    else
      let pass := prior e.1 && arb.used.all (fun u => pair e.1 u)
      if !pass then some (e.1, 0) else if 4 ≤ e.2 then none else some (e.1, e.2 + 1))
  { arb := arb, reset := reset, back := back, capable := c, prob := tested ++ arb.probation.map (fun b => (b, 0)), probNow := on,
    gateRun := if reset then 0 else run }

/-- The score histories of the eligible capable sources over the last 10 s, and their registers (R251); a step without a prior test adds nothing. -/
def State.noteScores (s : State) (n ts : Nat) (x0 : Option Filt) (l : List Source) (c : List Nat) (tested : Bool) : State :=
  let x := s.ses n
  let sc := x.recent ts
  let sc := match x0 with
    | some f => if tested then (l.filter (fun e => c.contains e.bit)).foldl (fun (m : Table (List (Nat × Bool))) e =>
        tput [] m e.bit ((ts, gateOk (e.prior f) gate6) :: tget [] m e.bit)) sc else sc
    | none => sc
  let s := s.setSes n { x with scores := sc }
  (List.range 7).foldl (fun s j =>
    (s.setF F.FRM_SES_SCORE_EVEN (scoreOf (tget [] sc (2 * j))) n j).setF F.FRM_SES_SCORE_ODD (scoreOf (tget [] sc (2 * j + 1))) n j) s

/-- The network results read in a step: their statuses (R261). -/
def State.netStatuses (s : State) (n k : Nat) : List Nat :=
  (s.cams n).filterMap (fun e => match s.kpSource e.2 with
    | some i => some (s.rdNum (s.insSlot i k + 6) 1)
    | none => none)

/-- Association and the gating of observations: the session's tracks, and the accepted and rejected ones (R240–R246). A landmark that is BAD or no longer
there is never used (R244). -/
def State.trackLevel (s : State) (n k : Nat) (x0 : Option Filt) : State × List Track × List Track × List Track :=
  let x := s.ses n
  let aged := x.tracks.map (fun (t : Track) => ({ t with age := t.age + 1, seen := 3 } : Track))
  let r := (s.cams n).foldl (fun (a : List Track × Nat) e =>
    let mine := aged.filter (fun t => t.slot == e.1)
    let q := s.associate n e.1 e.2 k x0 mine a.2
    (a.1 ++ q.1, q.2)) ([], x.nextTrack)
  let s := s.setSes n { x with nextTrack := r.2 }
  let use := fun (t : Track) => match t.lm with | some i => s.frm.lms.contains i && !s.lmBad i | none => false
  let obs := r.1.filter (fun t => use t && t.seen != 3 && !s.srcHeld n t.slot)
  let ok := fun (t : Track) => match x0 with | some x => gateOk (x.obsStat (s.trackObs n k x t)) gate2 | none => false
  let acc := obs.filter ok
  let rej := obs.filter (fun t => !ok t)
  let s := acc.foldl (fun s t => s.countObs (t.lm.getD 0) true) s
  let s := rej.foldl (fun s t => s.countObs (t.lm.getD 0) false) s
  (s, r.1, acc, rej)

/-- Tracks that end (R242, R244): those not CONFIRMED within CONFIRM_FRAMES, those that missed MISS_MAX steps, those of BAD landmarks. -/
def State.endTracks (s : State) (n : Nat) (l : List Track) : List Track :=
  l.filter (fun t => !(t.lm.isNone && decide (s.f F.FRM_SES_TRACK_CONFIRM_FRAMES n ≤ t.age))
    && decide (t.miss < s.f F.FRM_SES_TRACK_MISS_MAX n) && !(match t.lm with | some i => s.lmBad i || !s.frm.lms.contains i | none => false))

/-- The source bits of a session that are HELD (R254). -/
def State.heldBits (s : State) (n : Nat) : List Nat := [0, 1, 2, 3, 4, 5, 6, 7, 8, 9, 10].filter (s.srcHeld n)

/-- The conditions of a step on frame k (R12, R261): what the caller decided, and HELD, TIME_SLIP of the sources used, DEGRADED and LATE
of the network results read. -/
def State.stepConds (s : State) (n k : Nat) (lost reloc invalid conflict : Bool) (mask : Nat) : List Nat :=
  let nets := s.netStatuses n k
  condsOf [(St.lost, lost), (St.relocalised, reloc), (St.invalidInput, invalid), (St.conflict, conflict), (St.held, !(s.heldBits n).isEmpty),
    (St.timeSlip, ((List.range 14).filter (fun b => bitOf mask b)).any (s.srcSlip n)), (St.degraded, nets.contains St.degraded),
    (St.late, nets.contains St.late)]

/-- HELD and TIME_SLIP beginning are logged (where another condition hides them, every record logs them, R12); the sources excluded and the step's conditions are noted. -/
def State.noteConds (s : State) (n k : Nat) (conds : List Nat) : State :=
  let was := (s.ses n).conds
  let st := statusOf conds
  let s := s.setF F.FRM_SES_EXCLUDED_HELD (maskOf (s.heldBits n)) n
  let s := s.eventIf (st == St.held && !was.contains St.held) 0x8 4 n 0 st k
  let s := s.eventIf (st == St.timeSlip && !was.contains St.timeSlip) 0x8 5 n 0 st k
  s.setSes n { s.ses n with conds := conds }

/-! ## The first state (R230) -/

/-- The time offsets a filter starts with: td0 of the cameras whose offset it estimates (R254). -/
def State.firstTd (s : State) (n : Nat) : List (Nat × Fv) :=
  (s.tdSlots n).map (fun e => (e.1, Fv.ofInt (sgn 32 (ttNum (s.ttEntry (s.camEntry e.2)) 72 4))))

/-- The biases of the session's IMU entry. -/
def State.firstBias (s : State) (n : Nat) : List Fv :=
  let e := s.ttEntry (s.f F.FRM_SES_SRC_IMU n)
  if (s.imuChans n).isEmpty then vZero 6 else (List.range 6).map (fun i => tt32 e (152 + 4 * i))

/-- The first state by CHAIN: the chain's pose, and the velocity of its change over the last two joint records. -/
def State.chainFirst (s : State) (n ts : Nat) : Option Filt :=
  match s.jointSource n ts none with
  | none => none
  | some j =>
    let v := match (s.jointChans n).head?.map s.heardOf with
      | some (b :: a :: _) =>
        let dt := Fv.one.over (nsSec (b.ts - a.ts : Nat))
        let d := (s.chainPose n b.ts).diff (s.chainPose n a.ts)
        if a.ts < b.ts then vScale dt d else vZero 6
      | _ => vZero 6
    some (Filt.first ts j.z (some j.cov) (v.take 3) (s.firstBias n) (qRot (qConj j.z.q) (v.drop 3)) (s.firstTd n))

/-- The angle whose tangent is y / x. -/
def atan2 (y x : Fv) : Fv :=
  if y.isZero && x.lt Fv.zero then (Fv.ofInt 4).times Fv.one.atan
  else if y.isZero && x.isZero then Fv.zero
  else (Fv.ofInt 2).times (y.over ((vNorm [x, y]).plus x)).atan

/-- The first state by ORIGIN: roll and pitch from the mean accelerometer reading of the last 0.5 s, in which every reading was valid and still; position,
yaw and velocity 0. Without an IMU the identity pose at once. -/
def State.originFirst (s : State) (n ts : Nat) : Option Filt :=
  if (s.imuChans n).isEmpty then some (Filt.first ts Motion.one none (vZero 3) (vZero 6) (vZero 3) (s.firstTd n))
  else
    let e := s.ttEntry (s.f F.FRM_SES_SRC_IMU n)
    let b := s.firstBias n
    let times := s.imuTimes n (ts - 500000001) ts
    let l := times.filterMap (s.imuMeas n)
    let covered := !(s.imuTimes n (ts - heardSpan) (ts - 500000000)).isEmpty
    let still := l.all (fun m =>
      let a := (vNorm (vSub m.acc (b.drop 3))).minus (tt32 e 192)
      (vNorm (vSub m.gyro (b.take 3))).lt (.fin false 2 100) && a.abs.le (.fin false 2 10))
    if l.isEmpty || l.length != times.length || !covered || !still || s.srcHeld n 8 then none
    else
      let mean := vScale (Fv.ofRat 1 l.length) (l.foldl (fun v m => vAdd v (vSub m.acc (b.drop 3))) (vZero 3))
      let roll := atan2 (vAt mean 1) (vAt mean 2)
      let pitch := atan2 (vAt mean 0).neg (vNorm (mean.drop 1))
      let q := qMul (qExp [Fv.zero, pitch, Fv.zero]) (qExp [roll, Fv.zero, Fv.zero])
      let rate := match l.getLast? with | some m => vSub m.gyro (b.take 3) | none => vZero 3
      some (Filt.first ts { q := q, t := vZero 3 } none (vZero 3) b rate (s.firstTd n))

/-- The first state of a session in INITIALISING, by INIT_MODE (Table 9-2). -/
def State.firstState (s : State) (n ts : Nat) : Option Filt :=
  match s.f F.FRM_SES_CTL_INIT_MODE n with
  | 0 => s.chainFirst n ts
  | 1 => (s.relocSource n none).map (fun r => Filt.first ts r.z (some r.cov) (vZero 3) (s.firstBias n) (vZero 3) (s.firstTd n))
  | _ => s.originFirst n ts

/-! ## Fusion (R245, R246, R253, R258, R260) -/

/-- The state predicted for a step: that of the last step, propagated; none while the session has no state. -/
def State.predicted (s : State) (n ts : Nat) : Option Filt :=
  if s.sesState n = 2 ∨ s.sesState n = 3 then
    some (s.propagate n (!(s.imuChans n).isEmpty && !s.srcHeld n 8) (s.ses n).filter.values ts)
  else none

/-- The wheel odometry of a step (R246): innovation, rows, noise and what was predicted; none where the wheel is excluded or has no valid records there. -/
def State.wheelOf (s : State) (n : Nat) (x : Filt) : Option (List Fv × List (List Fv) × List (List Fv) × List Fv) :=
  let good := fun (c : Nat) => match s.bracket c x.time with
    | some (a, b) => [a, b].all (fun r => !bitOf r.flags 2 && !bitOf r.flags 3)
    | none => false
  if (s.wheelChans n).isEmpty || s.srcHeld n 10 || !(s.wheelChans n).all good then none
  else
    let m := s.wheelMeas n x.time
    let l := s.wheelLook n x
    some (vSub m.1 l.1, l.2, m.2, l.1)

/-- The rate of change of the wheel's prediction since the last step. -/
def State.wheelRate (s : State) (n ts : Nat) (h : List Fv) : Option (List Fv) :=
  match (s.ses n).wheelPred with
  | some (t, l) => if t < ts then some (vScale (Fv.one.over (nsSec (ts - t : Nat))) (vSub h (l.map fp64.dec))) else none
  | none => none

/-- The wheel's update, with the uncertainty of its time (R255), and whether it passes its gate. -/
def State.wheelGate (s : State) (n : Nat) (x : Filt) : Option (List Fv × List (List Fv) × List (List Fv)) :=
  match s.wheelOf n x with
  | none => none
  | some w =>
    let v := (s.srcSensors n 10).foldl (fun m k => Nat.max m (s.mon k).tvar) 0
    let d := (s.wheelRate n x.time w.2.2.2).getD (vZero 4)
    let noise := mAdd w.2.2.1 (matOf 4 4 (fun i j => (Fv.ofRat (v : Nat) (10 ^ 18)).times ((vAt d i).times (vAt d j))))
    if gateOk (fp64.eval (chiStat w.1 (x.innov w.2.1 noise))) gate4 then some (w.1, w.2.1, noise) else none

/-- The state after a step's measurements: a gate reset takes the fused pose of its sources with four times their covariance (R253), a LOST session the RELOC or
JOINTS source that brings it back (R260); else the observations of the cameras used, then the other sources used, update it (R246, R248). The wheel, where
it passes its gate, updates it too. -/
def State.updated (s : State) (n k : Nat) (x : Filt) (l : List Source) (lv : Level) (acc : List Track) : Filt :=
  let used := l.filter (fun e => lv.arb.used.contains e.bit)
  let y := if lv.reset then let q := fusedPose used; x.setPose q.1 (mScale (Fv.ofInt 4) q.2)
    else match (if lv.back then used.find? (fun e => e.bit == 9 || e.bit == 11) else none) with
      | some e => x.setPose e.z e.cov
      | none =>
        let y := (acc.filter (fun t => lv.arb.used.contains t.slot)).foldl (fun y t => y.observe (s.trackObs n k y t)) x
        (used.filter (fun e => decide (8 ≤ e.bit))).foldl (fun y e => y.updatePose e.z e.cov) y
  match s.wheelGate n x with
  | some w => y.update (vSub (vAdd w.1 (s.wheelLook n x).1) (s.wheelLook n y).1) w.2.1 w.2.2
  | none => y

/-- What a session without a state has to show (R230): the source leaves its numbers open. -/
def State.blindPose (s : State) : State × PoseVal :=
  ({ s with free := s.free + 31 }, { pos := freeVals s.free 3, vel := freeWords (s.free + 3) 3, rate := freeWords (s.free + 6) 3, cov := freeWords (s.free + 9) 21 })

/-- A step that runs on an INITIALISING session without a first state: no record, or a LOST one after INIT_MS (R230). -/
def State.blindStep (s : State) (n k ts : Nat) : State :=
  if !(s.ses n).timedOut then s
  else
    let imu := s.imuValid n && !s.srcHeld n 8
    let reduced := (s.cams n).any (fun c => s.camReduced c.2 k)
    let conds := s.stepConds n k true false ((s.cams n).all (fun c => s.camInvalid c.2 k)) false 0
    let q := s.blindPose
    (q.1.noteConds n k conds).poseRecord n ts true conds ((16 * b2n (!imu)) ||| (32 * b2n reduced)) 0 0 q.2

/-- Whether the step is far enough from the last keyframe (R256): in translation or in rotation. -/
def State.farFromKf (s : State) (n : Nat) (y : Filt) : Bool :=
  match (s.ses n).kfPoses.head? with
  | none => true
  | some k =>
    let d := y.pose.diff (Motion.of k.2)
    (Fv.ofRat (s.f F.FRM_SES_KF_KF_DIST_MM n : Nat) 1000).le (vNorm (d.take 3))
      || (Fv.ofRat (s.f F.FRM_SES_KF_KF_ANGLE n : Nat) 10).le (vNorm (d.drop 3)).degrees

/-- Fusion, statuses, the vision record and its registers for a session with a state (R250, R258, R260, R261): the state after it, whether the step becomes a
keyframe, the filter, and the observations accepted. `x0` is the state predicted, `init` that the session has just got its first. -/
def State.fuse (s : State) (n k ts : Nat) (x0 : Filt) (init : Bool) (acc rej : List Track) (folds : List FoldIn) : State × Bool × Filt × List Track :=
  let x := s.ses n
  let lost := s.sesState n == 3
  let cams := s.cams n
  let cp := !folds.isEmpty
  let srcs := s.sources n k ts (some x0) acc folds
  let srcs := if init then (s.sources n k ts none [] []) else srcs
  let lv := s.poseLevel n ts (if init then none else some x0) srcs (lost || init)
  let arb := lv.arb
  let off := arb.withheld ++ arb.outvoted ++ arb.rejected
  -- a camera withheld or outvoted contributes nothing
  let acc := acc.filter (fun t => !off.contains t.slot)
  let y := if init then x0 else s.updated n k x0 srcs lv acc
  -- the pose-graph correction
  let shift := match (folds.filter (fun e => e.kind == 1)).getLast? with | some e => s.graphShift n e.record | none => none
  let r := match shift with | some c => s.correct n y c | none => (s, y)
  let y := r.2.clone k (s.f F.FRM_SES_CTL_WINDOW n)
  let s := r.1
  let mapInit := init && s.f F.FRM_SES_CTL_INIT_MODE n == 1
  let reloc := lv.reset || (lv.back && !init) || mapInit
  let imu := s.imuValid n && !s.srcHeld n 8
  let wheel := !init && (s.wheelGate n x0).isSome
  let mask := maskOf (arb.used ++ (if imu then [8] else []) ++ (if wheel then [10] else []) ++ (if shift.isSome then [13] else []))
  -- loss
  let pose := s.poseVal n y (s.shown n y)
  let pl := arb.used.any (fun b => b == 9 || b == 11)
  let few := decide (acc.length < s.f F.FRM_SES_LOST_LOST_MIN n) && !pl
  let run := if few then x.lostRun + 1 else 0
  let goLost := !reloc && (decide (s.f F.FRM_SES_LOST_LOST_STEPS n ≤ run) || pose.above (s.f F.FRM_SES_LOST_SIGMA_M n))
  let now : Nat := if lost && !lv.back then 3 else if goLost then 3 else 2
  let entered := now == 3 && !lost
  -- conditions
  let pose3 := arb.used.any (fun b => decide (8 ≤ b))
  let conds := s.stepConds n k (now == 3) reloc (cams.all (fun c => s.camInvalid c.2 k) && !pose3) arb.conflict mask
  let reduced := cams.any (fun c => s.camReduced c.2 k) || !off.isEmpty || !lv.probNow.isEmpty
  -- keyframe
  let lms := (acc.filterMap (·.lm)).eraseDups.length
  let kf := x.fresh || reloc || (decide (s.f F.FRM_SES_KF_KF_MIN_FRAMES n ≤ x.sinceKf + 1)
    && (s.farFromKf n y || decide (256 * lms < s.f F.FRM_SES_KF2_KF_OVERLAP n * x.kfLms)
      || decide (x.kfAt + 1000000 * s.f F.FRM_SES_KF2_KF_MAX_MS n ≤ ts)))
  let flags := (8 * b2n kf) ||| (16 * b2n (!imu)) ||| (32 * b2n reduced) ||| (64 * b2n cp)
  let frozen := now == 3 && !entered && x.coastOver
  let pose := if frozen then pose.frozen x.pose.pos else pose
  -- registers and events
  let s := s.noteScores n ts (some x0) srcs lv.capable (!(lost || init))
  let s := s.keepOff n y.time (s.offNow n y.time)
  let s := (s.setF F.FRM_SES_SOURCES_USED mask n).setF F.FRM_SES_SOURCES_PROBATION (maskOf (lv.prob.map (·.1))) n
  let s := s.setF F.FRM_SES_EXCLUDED_WITHHELD (maskOf off) n
  let s := (s.setF F.FRM_SES_OBS_ACCEPTED (satU 16 acc.length) n).setF F.FRM_SES_OBS_REJECTED (satU 16 rej.length) n
  let st := statusOf conds
  let s := s.addSat F.FRM_SES_COUNTS_CONFLICTS (b2n arb.conflict) n
  let s := s.addSat F.FRM_SES_COUNTS_LOSSES (b2n entered) n
  let s := s.addSat F.FRM_SES_RELOCS_RELOCALISED (b2n reloc) n
  let ev := [(entered, 0), (reloc && !lv.reset, 1), (arb.conflict, 2), (!arb.outvoted.isEmpty, 3), (lv.reset, 6)]
  let s := (ev.foldl (fun s e => s.eventIf e.1 0x8 e.2 n 0 st k) s).noteConds n k conds
  let s := s.setSesState n now
  let s := s.setSes n { s.ses n with lostRun := run, gateRun := lv.gateRun, probation := lv.prob, pose := pose, accepted := acc.length, reloc := none,
                                     coastOver := x.coastOver && now == 3 && !entered, sinceKf := x.sinceKf + 1 }
  (s.poseRecord n ts true conds flags mask acc.length pose, kf, y, acc)

/-- Fusion, confirmation, merging and the keyframe of a step on the tracks it observed (R235): the filter where the session has a state (or gets its
first), the tracks, and those that do not end. -/
def State.stepFuse (s : State) (n k ts : Nat) (x0 : Option Filt) (folds : List FoldIn) (r : List Track × List Track × List Track) :
    State × Option Filt × List Track × List Track :=
  match (match x0 with | some x => some x | none => s.firstState n ts) with
  | none => let s := s.blindStep n k ts; (s, none, r.1, s.endTracks n r.1)
  | some x =>
    let q := s.fuse n k ts x x0.isNone r.2.1 r.2.2 folds
    let y := q.2.2.1
    let c := q.1.confirm n k q.2.1 y r.1
    if q.2.1 then
      let s := (c.1.frm.lms.filter c.1.lmBad).foldl State.freeLm c.1
      let m := s.mergeLms n c.2
      let obs := q.2.2.2.map (fun (t : Track) => (m.2.find? (fun u => u.id == t.id)).getD t)
      let s := m.1.keyframe n k ts y obs
      (s, some y, m.2, s.endTracks n m.2)
    else (c.1, some y, c.2, c.1.endTracks n c.2)

/-- What a step with a state posts and keeps (R245, R247, R254, R295): the delta to SMOOTH, the fits of residuals, and the filter, which takes the constraints
of the tracks that end. -/
def State.stepKeep (s : State) (n k ts : Nat) (x0 : Option Filt) (y : Filt) (l ended : List Track) : State × Filt :=
  let gone := l.filter (fun t => !ended.any (fun u => u.id == t.id))
  let z := (s.constraints n y gone).foldl (fun (z : Filt) c => z.update c.2.2.2.1 c.2.2.2.2.1 c.2.2.2.2.2) y
  let prev := match x0 with | some _ => some (s.ses n).filter.values | none => none
  let s := s.stepSmooth n k ts prev y gone
  let joints := match x0, s.jointSource n ts x0 with
    | some x, some j => some (j.z.diff x.pose, x.vel ++ x.omega)
    | _, _ => none
  let wheel := match x0 with
    | some x => match s.wheelOf n x with
      | some w => (s.wheelRate n ts w.2.2.2).map (fun d => (w.1, d))
      | none => none
    | none => none
  let s := match x0 with
    | some x => match s.wheelOf n x with
      | some w => s.setSes n { s.ses n with wheelPred := some (ts, w.2.2.2.map fp64.eval) }
      | none => s
    | none => s
  ((s.residuals n z joints wheel).noteFilter n z, z)

/-- The end of a step: the pose Tally, the track lists of the next frame, the releases (R235, R240, R262). -/
def State.stepEnd (s : State) (n k ts : Nat) (y : Option Filt) (wrote : Bool) (ended : List Track) : State :=
  let s := if wrote then s.advance 0x8 (s.sesParam n).pose 1 (some ts) else s
  let l := s.nextLists n k y ended
  let conf := (l.2.filter (fun t => t.lm.isSome)).length
  let s := (l.1.setF F.FRM_SES_TRACKS_CONFIRMED (satU 16 conf) n).setF F.FRM_SES_TRACKS_TENTATIVE (satU 16 (l.2.length - conf)) n
  let s := s.setSes n { s.ses n with tracks := l.2, next := k + 1 }
  let ends := (s.cams n).map (fun e => s.exposureEnd e.2 k)
  let s := if wrote then s.noteLat n ((s.now - ends.foldl Nat.max 0) / 1000) else s
  (s.cams n).foldl (fun s e => s.releaseCam n e.1 e.2 k ts) s

/-- A vision step that runs (R235, R236): the checkpoint, association, fusion, the record, the keyframe, and its end. -/
def State.takeStep (s : State) (n k ts : Nat) : State :=
  let folds := (s.ses n).folds
  let s := (s.checkpoint n).slipReset n
  let x0 := s.predicted n ts
  let r := s.trackLevel n k x0
  let q := r.1.stepFuse n k ts x0 folds r.2
  let e := match q.2.1 with
    | some y => let z := q.1.stepKeep n k ts x0 y q.2.2.1 q.2.2.2; (z.1, some z.2)
    | none => (q.1, none)
  (e.1.stepEnd n k ts e.2 (q.2.1.isSome || (e.1.ses n).timedOut) q.2.2.2).kfSettle n

/-- A vision step: an INVALID_INPUT record with the pose last published, the pose Tally, the track lists as they stand, the releases. -/
def State.failStep (s : State) (n : Nat) : State :=
  let x := s.ses n
  let k := x.next
  match (s.cams n).head? with
  | none => s
  | some c0 =>
    match s.src c0.2 k with
    | none => s
    | some f =>
      let st := s.sesState n
      let conds := s.stepConds n k (st != 2) false true false 0
      let s := if st == 2 || st == 3 || x.timedOut then (s.noteConds n k conds).poseRecord n f.ts true conds 16 0 0 x.pose else s
      let s := s.advance 0x8 (s.sesParam n).pose 1 (some f.ts)
      let l := s.nextLists n k none x.tracks
      let s := l.1.setSes n { l.1.ses n with next := k + 1 }
      (s.cams n).foldl (fun s e => s.releaseCam n e.1 e.2 k f.ts) s

/-- Whether the corner lists and track results that a step reads meet a poisoned line. -/
def State.stepPoisoned (s : State) (n k : Nat) : Bool :=
  (s.cams n).any (fun e =>
    let a := s.snsSlot e.2 k
    s.poisoned a 4096 || s.poisoned (a + s.cornerOff e.2) (s.snsSlotSize e.2 - s.cornerOff e.2))

/-- A vision step. It runs once its waits are satisfied and its session is not STOPPED. -/
def visionStep (n : Nat) (s : State) : State :=
  let x := s.ses n
  let k := x.next
  match (s.cams n).head? with
  | none => s
  | some c0 =>
    match s.src c0.2 k, s.frameStart c0.2 k with
    | some f, some start =>
      let begun : Bool := match x.initAt with | some t => decide (t ≤ start) | none => false
      if !s.sesOn n || s.sesState n == 0 || !begun || !f.closed || !s.stepReady n k f.ts then s
      else if s.stepPoisoned n k then (s.poisonTask n).failStep n
      else s.takeStep n k f.ts
    | _, _ => s

/-! ## Frames without a step (R229, R231, R235) -/

/-- A camera's next frame needs no step: its session is STOPPED, or the frame started before the session entered INITIALISING. -/
def State.stepless (s : State) (n k : Nat) : Bool :=
  let x := s.ses n
  match (s.cams n).head? with
  | none => false
  | some c0 =>
    if s.sesState n = 0 ∧ !x.waiting then true
    else
      match s.frameStart c0.2 k, x.initAt with
      | some t, some t0 => decide (t < t0)
      | _, _ => false

/-- One camera's inputs of frames without a step are released as they arrive, and its track lists stay empty. -/
def State.camSettle (s : State) (n j cam : Nat) : (fuel : Nat) → State
  | 0 => s
  | m + 1 =>
    let k := tget 0 (s.ses n).rel j
    let head := match (s.cams n).head? with | some c => c.1 == j | none => false
    if !((s.stepless n k || (decide (k < (s.ses n).next) && !head)) && s.camReady cam k) then s
    else
      let s := (s.releaseCam n j cam k s.now).writeList cam []
      let s := if head then s.setSes n { s.ses n with next := k + 1 } else s
      s.camSettle n j cam m

/-- A session's start at the next frame of slot 0, and the frames without a step. -/
def State.sesSettle (s : State) (n : Nat) : State :=
  if !s.sesOn n then s
  else
    -- a host start enters INITIALISING at the next frame of slot 0
    let s := match (s.cams n).head? with
      | none => s
      | some c0 =>
        let x := s.ses n
        let open' := (List.range ((s.sns c0.2).nextId + 1)).find? (fun k => decide (x.next ≤ k) && (match s.frameStart c0.2 k, x.initAt with
          | some t, some t0 => decide (t0 ≤ t)
          | _, _ => false))
        if x.waiting && open'.isSome then (s.setSes n { x with waiting := false }).setSesState n 1 else s
    (((s.cams n).foldl (fun s e => s.camSettle n e.1 e.2 64) s).kfSettle n).placeSettle n

/-- Every session's frames without a step. -/
def State.frmSettle (s : State) : State := (List.range 32).foldl State.sesSettle s

/-- What a session keeps when it stops (R229): the frames and inputs seen, its identifiers, records published but not yet taken, the
posts of keyframes already written and their loop queries, and how far it has looked at solutions and Kiln records. -/
def SesSt.afresh (x : SesSt) : SesSt :=
  { next := x.next, rel := x.rel, nextTrack := x.nextTrack, calAt := x.calAt, notes := x.notes, lat := x.lat,
    kfWait := x.kfWait, queries := x.queries.filter (·.loop), relSeen := x.relSeen, kilnSeen := x.kilnSeen }

/-- A session enters INITIALISING afresh (R229): at once, or at the next frame of its camera slot 0 for a host's start. -/
def State.startSession (s : State) (n : Nat) (byHost : Bool) : State :=
  if !s.sesOn n || s.sesState n != 0 || (s.ses n).waiting then s
  else
    let x := s.ses n
    let s := s.setSes n { x.afresh with initAt := some s.now, waiting := byHost }
    let s := (s.setF F.FRM_SES_SOURCES_PROBATION 0 n)
    let s := (List.range 7).foldl (fun s j => (s.setF F.FRM_SES_SCORE_EVEN 0xFFFF n j).setF F.FRM_SES_SCORE_ODD 0xFFFF n j) s
    if byHost then s else s.setSesState n 1

/-- The pose counts of the sessions. -/
def State.poseCounts (s : State) : List Nat := (List.range 32).map (fun n => s.pair R.FRM_SES_SEQ_LO R.FRM_SES_SEQ_HI n)

/-- The verifications of a session's relocalisation that no Kettle has taken are abandoned (R260). -/
def State.dropVerifs (s : State) (n : Nat) : State :=
  match s.sesProb 2 n with
  | none => s
  | some p =>
    let x := s.prob p
    let own := fun (key : Nat) => (s.ses n).verifs.any (fun v => v.key == key)
    s.setProb p { x with ready := x.ready.filter (fun t => t.loop || !own t.key), ring := x.ring.filter (fun d => d.op != 7 || d.loop || !own d.key) }

/-- A session stops (R229, R260): its place queries are no longer waited for, and its verifications are abandoned. -/
def State.stopSession (s : State) (n : Nat) : State :=
  let x := s.ses n
  if s.sesState n = 0 && !x.waiting then s
  else
    let s := ((s.dropVerifs n).setSes n x.afresh).setSesState n 0
    if bitOf (s.f F.BOOT_SESSION_AUTO_MASK) n then { s with bt.gap := some s.mono, bt.seqs := s.poseCounts } else s

/-! ## The other commands -/

/-- A propagated record (R238): at an IMU record whose seq is a multiple of PROP_DIV, from the latest vision step's state propagated through every IMU record
up to its own. -/
def propagatedRecord (n : Nat) (s : State) : State :=
  let x := s.ses n
  let div := s.f F.FRM_SES_CTL_PROP_DIV n
  let st := s.sesState n
  match (s.imuChans n).head? with
  | none => s
  | some c =>
    let seq := (s.chan c).seq - 1
    let slot := seq % (64 * 2 ^ s.f F.SPG_CH_RING_CFG_LEN c)
    let a := s.pair R.SPG_CH_RING_LO R.SPG_CH_RING_HI c + 32 * slot
    let ts := s.rdNum a 8 * 1000000000 + s.rdNum (a + 8) 4
    if !s.sesOn n || !(st == 2 || st == 3) || div == 0 || (s.chan c).seq == 0 || seq % div != 0 || !s.imuValid n || s.srcHeld n 8
        || x.lastImu == some seq then s
    else
      let base := x.conds.filter (fun c => c != St.lost && c != St.held)
      let conds := condsOf [(St.lost, st == 3), (St.held, !(s.heldBits n).isEmpty || x.conds.contains St.held)] ++ base
      let frozen := st == 3 && x.coastOver
      let y := s.propagate n true x.filter.values ts
      let p := s.poseVal n y (s.shown n y)
      let q := if frozen then p.frozen x.pose.pos else p
      ((s.setSes n { x with lastImu := some seq }).poseRecord n ts false conds 0 256 x.accepted q).advance 0x8 (s.sesParam n).pose 1 (some ts)

/-- Whether a session's result of a kind lies at an address: a solution record of its window, pose-graph or calibration problem, or of a
RELPOSE problem, that the problem's output Tally covers (R19, R302). A pose graph that the master keeps (R426) shows only its Tally. -/
def State.foldable (s : State) (n kind rec' : Nat) : Bool :=
  let p := s.rdNum rec' 1
  let q := s.rdNum (rec' + 8) 8
  let graph := s.mapProb (s.f F.FRM_SES_MAP_MAP_ID n)
  let away : Bool := match graph with
    | some g => kind == 1 && s.sharedGraph g && s.role != 1 && decide (0 < s.tv (s.f F.KTL_PROB_TALLY_OUT g))
    | none => false
  away || (s.probOn p && decide (0 < q) && decide (q ≤ s.tv (s.f F.KTL_PROB_TALLY_OUT p)) && rec' == s.ktlSlot p q
    && (match kind with
        | 0 => s.kindOf p == 0 && s.f F.KTL_PROB_CTL_SESSION p == n
        | 1 => graph == some p
        | 2 => s.kindOf p == 4 && s.f F.KTL_PROB_CTL_SESSION p == n
        | _ => s.kindOf p == 2))

/-- A result is taken for the next checkpoint (R257); a verified loop candidate adds or updates its factor in the map's pose graph (R297).
A record that no Tally has announced is no result yet (R19). -/
def foldIn (n kind rec' kf : Nat) (s : State) : State :=
  if !s.sesOn n || !s.foldable n kind rec' then s
  else if kind < 3 then s.setSes n { s.ses n with folds := (s.ses n).folds ++ [{ kind := kind, record := rec' }] }
  else
    match s.mapProb (s.f F.FRM_SES_MAP_MAP_ID n) with
    | none => s
    | some p =>
      if !bitOf (s.rdNum (rec' + 4) 4) 11 then s
      else
        let key := s.rdNum (rec' + 96) 8
        let x := s.prob p
        let typ := if s.bt.img.ktlSim3.contains p then 1 else 0
        let id := 2 ^ 63 + 2 ^ 62 + (key % 2 ^ 30) * 2 ^ 32 + kf % 2 ^ 32
        let r := s.relocOf 0 rec'
        let cand := varId typ (key / 2 ^ 52 % 256) (key % 2 ^ 32)
        -- the refined pose relative to the candidate's node, and the information of its covariance
        let node := match x.vals.find? (fun e => e.1 == cand) with
          | some e => e.2
          | none => match x.vars.find? (fun (v : KVar) => v.id == cand) with | some v => v.val | none => r.pose
        let sim := if typ = 1 then [0] else []
        let z := ((Motion.of (node.take 7)).inv.comp (Motion.of r.pose)).nums ++ sim
        let a := s.rdNum (rec' + 80) 8
        let inv := mInv (upper 6 ((List.range 21).map (fun i => fp32.dec (s.rdNum (a + 64 + 4 * i) 4))))
        let info := (upperOf (matOf (6 + typ) (6 + typ) (fun i j => if i < 6 ∧ j < 6 then mAt inv i j else if i = j then Fv.one else Fv.zero))).map fp64.eval
        let again := x.loops.contains (key, kf)
        let d : Delta := if again then { op := 5, id := id, val := z, info := info }
          else { op := 4, id := id, typ := 2, vars := [cand, varId typ n kf], val := z, info := info }
        (s.setProb p { x with loops := if again then x.loops else (key, kf) :: x.loops, pendingLoop := true }).ktlPost 0x8 p [d]

/-- INIT_MS has passed without a first state (R230). -/
def initTimeout (n : Nat) (s : State) : State :=
  if !s.sesOn n || s.sesState n != 1 || (s.ses n).timedOut then s
  else (s.setSes n { s.ses n with timedOut := true }).event 0x8 10 n

/-- COAST_MS have passed since the session entered LOST (R258). -/
def coastExpire (n : Nat) (s : State) : State :=
  if !s.sesOn n || s.sesState n != 3 then s else s.setSes n { s.ses n with coastOver := true }

/-- A place query is posted (R259): while LOST, or INITIALISING by MAP, up to RELOC_HZ times per second. -/
def relocQueryPost (n : Nat) (s : State) : State :=
  let x := s.ses n
  let st := s.sesState n
  let may := st == 3 || (st == 1 && s.f F.FRM_SES_CTL_INIT_MODE n == 1)
  let due : Bool := match x.posted with
    | some t => decide (t * s.f F.FRM_SES_RELOC_RELOC_HZ n + 1000000000 ≤ s.mono * s.f F.FRM_SES_RELOC_RELOC_HZ n)
    | none => true
  let q := (s.sesParam n).queue
  let k := x.next - 1
  match s.placeDesc n k with
  | none => s
  | some d =>
    if !s.sesOn n || !may || !due || x.next == 0 || decide (16 ≤ q) || !s.placeReady n k then s
    else
      let s := (s.setSes n { x with posted := some s.mono }).addSat F.FRM_SES_RELOCS_QUERIES 1 n
      s.askPlace n q { k := k, feats := s.sesFeats n k } (queryBytes (n * 2 ^ 52 + k % 2 ^ 32) (s.f F.CSK_Q_CTL_INDEX q) (s.f F.FRM_SES_RELOC_RELOC_K n) n s.deviceId
        (s.f F.FRM_SES_KEYFRAMES_COUNT n) 0 d)

/-- The calibratable entries of a session: those with an extrinsic, and the joints of its chain with an offset (R299). -/
def State.calEntries (s : State) (n : Nat) : List Nat × List Nat :=
  let own := (List.range s.bt.img.tt.length).filter (fun i => let e := s.ttEntry i; ttNum e 6 1 == n && bitOf (ttNum e 1 1) 0)
  let joint := fun (i : Nat) => let k := ttNum (s.ttEntry i) 0 1; k == 2 || k == 3
  let tip := s.f F.FRM_SES_SRC_CHAIN n
  let chain := if tip = 0xFFFF then [] else s.ttChain tip 2048
  (own.filter (fun i => !joint i), own.filter (fun i => joint i && chain.contains i))

/-- What the calibration node adds for the extrinsics and offsets of a session: an extrinsic starts at its table value, with a PRIOR of
sigma_rot and sigma_trans. -/
def State.calVars (s : State) (ext off : List Nat) : List Delta :=
  ext.flatMap (fun i =>
    let e := s.ttEntry i
    let id := varId 0 0xFF i
    let v := (List.range 7).map (fun j => ttNum e (8 + 8 * j) 8)
    let inv := fun (at' : Nat) => let g := wide (ttNum e at' 4); fp64.div (fp64.ofInt 1) (fp64.mul g g)
    let diag := (List.range 6).flatMap (fun r => (List.range (6 - r)).map (fun c => if c = 0 then inv (if r < 3 then 64 else 68) else 0))
    [{ op := 1, id := id, typ := 0, val := v }, { op := 4, id := 2 ^ 62 + i, typ := 0, vars := [id], val := v, info := diag }])
  ++ off.map (fun i => { op := 1, id := varId 5 0xFF i, typ := 5, val := [0] })

/-- What it adds for one keyframe: its pose, the points of its observation list, their factors, and the joint chain's. -/
def State.calKf (s : State) (n kf : Nat) (ext off : List Nat) : List Delta :=
  let pr := s.sesParam n
  let a := pr.kfBase + 128 * (kf % Nat.max 1 pr.kfSlots)
  let pose := varId 0 n kf
  let o := s.rdNum (a + 72) 8
  let obs := (List.range (s.rdNum (a + 64) 4)).filter (fun j => s.frm.lms.contains (s.rdNum (o + 16 * j) 4))
  let lm := fun (j : Nat) => s.rdNum (o + 16 * j) 4
  let add : Delta := { op := 1, id := pose, typ := 0, val := (List.range 4).map (fun j => wide (s.rdNum (a + 48 + 4 * j) 4))
            ++ (List.range 3).map (fun j => s.rdNum (a + 24 + 8 * j) 8) }
  let pts := obs.map (fun j => ({ op := 1, id := varId 2 0xFF (lm j), typ := 2,
                                  val := (List.range 3).map (fun i => wide (s.rdNum (s.lmAddr (lm j) + 4 * i) 4)) } : Delta))
  let facs := obs.map (fun j =>
    let slot := s.rdNum (o + 16 * j + 4) 1
    let cam := s.camByte n slot % 32
    ({ op := 4, id := obsId slot kf (lm j), typ := 1, vars := [pose, varId 2 0xFF (lm j)]
         ++ (if ext.contains (s.camEntry cam) then [varId 0 0xFF (s.camEntry cam)] else []),
       val := s.obsVal cam (s.rdNum (o + 16 * j + 8) 4) (s.rdNum (o + 16 * j + 12) 4) } : Delta))
  let ts := s.rdNum (a + 8) 8 * 1000000000 + s.rdNum (a + 16) 4
  let chain : List Delta := if off.isEmpty then [] else
    [{ op := 4, id := 2 ^ 61 + kf, typ := 4, vars := pose :: off.map (varId 5 0xFF),
       val := (s.jointChans n).map (fun c => fp64.eval (s.chanAt c ts)) ++ [s.f F.FRM_SES_SRC_CHAIN n],
       info := Config.factorInfo 4 ((upperOf (s.chainCov n ts)).map fp64.eval) }]
  add :: pts ++ facs ++ chain

/-- The calibration node posts the keyframes since its last post, and a SOLVE (R299, R378); keyframes beyond WINDOW_KF leave with the
points that only they observe. -/
def calibPost (n : Nat) (s : State) : State :=
  match s.sesProb 4 n with
  | none => s
  | some p =>
    let x := s.ses n
    let cal := s.calEntries n
    if !s.sesOn n || (cal.1.isEmpty && cal.2.isEmpty) then s
    else
      let pr := s.sesParam n
      let y := s.prob p
      let cnt := s.f F.FRM_SES_KEYFRAMES_COUNT n
      let from' := Nat.max x.calAt (cnt - pr.kfSlots)
      let posted := fun (id : Nat) => y.vars.any (fun v => v.id == id) || y.ring.any (fun d => d.op == 1 && d.id == id)
      let vars := s.calVars (cal.1.filter (fun i => !posted (varId 0 0xFF i))) (cal.2.filter (fun i => !posted (varId 5 0xFF i)))
      let new := ((List.range (cnt - from')).flatMap (fun i => s.calKf n (from' + i) cal.1 cal.2)).foldl
        (fun (a : List Delta) d => if d.op = 1 && (posted d.id || a.any (fun e => e.op == 1 && e.id == d.id)) then a else a ++ [d]) []
      let kfs := sortBy (fun (a b : KVar) => decide (a.idx < b.idx)) (y.vars.filter (fun v => v.typ == 0 && !v.calib))
      let count := kfs.length + ((y.ring ++ new).filter (fun d => d.op == 1 && d.typ == 0 && d.id / 2 ^ 48 % 256 != 0xFF)).length
      let out := (kfs.take (count - s.windowOf p)).map (·.id)
      let own := y.vars.filter (fun w => w.typ == 2 && !new.any (fun d => d.op == 4 && d.vars.contains w.id)
        && (let l := y.observers [w.id]; !l.isEmpty && l.all (fun k => out.contains k)))
      let gone := (out ++ own.map (·.id)).map (fun id => ({ op := 2, id := id } : Delta))
      (s.setSes n { x with calAt := cnt }).ktlPost 0x8 p (vars ++ new ++ gone ++ [{ op := 7, ts := s.now, key := cnt - 1 }])

/-! ## Meanings -/

/-- VISION_STEP (R235). -/
def execVisionStep (n : Nat) (s : State) : Host.Outcome State Fault Refusal := done (whenUp (visionStep n) s)
/-- PROPAGATED_RECORD (R238). -/
def execPropagatedRecord (n : Nat) (s : State) : Host.Outcome State Fault Refusal := done (whenUp (propagatedRecord n) s)
/-- FOLD_IN (R257, R297). -/
def execFoldIn (n kind record kf : Nat) (s : State) : Host.Outcome State Fault Refusal := done (whenUp (foldIn n kind record kf) s)
/-- INIT_TIMEOUT (R230). -/
def execInitTimeout (n : Nat) (s : State) : Host.Outcome State Fault Refusal := done (whenUp (initTimeout n) s)
/-- COAST_EXPIRE (R258). -/
def execCoastExpire (n : Nat) (s : State) : Host.Outcome State Fault Refusal := done (whenUp (coastExpire n) s)
/-- RELOC_QUERY_POST (R259). -/
def execRelocQueryPost (n : Nat) (s : State) : Host.Outcome State Fault Refusal := done (whenUp (relocQueryPost n) s)
/-- CALIB_POST (R378). -/
def execCalibPost (n : Nat) (s : State) : Host.Outcome State Fault Refusal := done (whenUp (calibPost n) s)

end Sys2Proof.Machine
end

