-- ==== Sys2Proof/Machine/KilnNum.lean ====
section
/-!
DEFINITION. The numbers of a Kiln pass (chapter 11): compositing, the backward pass, gradient records and their reduction. What FP32 makes of an exact value
is `fp32.eval` (log entry 101).
-/

namespace Sys2Proof

/-- −1, 0 or 1. -/
def Fv.sgn (v : Fv) : Fv := if v.lt (Fv.ofInt 0) then Fv.ofInt (-1) else if (Fv.ofInt 0).lt v then Fv.ofInt 1 else Fv.ofInt 0

/-- The magnitude of a value. -/
def Fv.mag (v : Fv) : Fv := if v.lt (Fv.ofInt 0) then v.neg else v

end Sys2Proof

namespace Sys2Proof.Machine
open Sys2Proof

/-! ## Functions in FP32 (R308, R312, R314, R323, R325) -/

/-- e^x, 1 / (1 + e^−x), ln (n / d) and x^n of FP32 patterns. -/
def exp32 (p : Nat) : Nat := fp32.eval (fp32.dec p).exp
def sigmoid32 (p : Nat) : Nat := fp32.eval (fp32.dec p).sigmoid
def lnRat32 (n d : Nat) : Nat := fp32.eval ((Fv.ofRat (n : Nat) d).log2.mul (.fin false ln2Fix fixOne))
def pow32 (p n : Nat) : Nat :=
  fp32.eval (match fp32.dec p with
    | .fin s a b => .fin (s && n % 2 == 1) (a ^ n) (b ^ n)
    | v => v)

/-- −½ d · Σ′⁻¹ · d (R314): by the conic's three values and the offset. -/
def kilnPower (a b c dx dy : Nat) : Nat :=
  let d := fp32.dec
  let t := (((d a).times (d dx).sq).plus ((Fv.ofInt 2).times ((d b).times ((d dx).times (d dy))))).plus ((d c).times (d dy).sq)
  fp32.eval ((Fv.half.times t).neg)

/-! ## Squares and tiles (R312, R313) -/

/-- Whether the square of half-side r about a coordinate overlaps the pixels lo to hi − 1. -/
def spans (c r lo hi : Nat) : Bool :=
  let v := fp32.dec c
  let rr := Fv.ofInt (r : Nat)
  (v.add rr.neg).lt (Fv.ofRat (2 * (hi : Int) - 1) 2) && (Fv.ofRat (2 * (lo : Int) - 1) 2).lt (v.add rr)

/-- Whether every value of a projected primitive is finite. -/
def Prim2.finite (p : Prim2) : Bool :=
  !([p.z, p.mx, p.my, p.ca, p.cb, p.cc, p.alpha, p.colour.1, p.colour.2.1, p.colour.2.2].any fp32.special)

/-- The culls of R312: depth, α₀, and the square outside the image. -/
def Prim2.kept (p : Prim2) (w h : Nat) : Bool :=
  let z := fp32.dec p.z
  !(z.lt (fp32.dec (fp32.ofRat 1 20))) && !((Fv.ofInt 1000).lt z) && !((fp32.dec p.alpha).lt (fp32.dec (fp32.ofRat 1 255)))
    && spans p.mx p.r 0 w && spans p.my p.r 0 h

/-- The 16 × 16 tiles of a w × h image that a primitive's square overlaps. -/
def Prim2.tiles (p : Prim2) (w h : Nat) : Nat :=
  ((List.range (ceilDiv w 16)).filter (fun t => spans p.mx p.r (16 * t) (Nat.min w (16 * t + 16)))).length
    * ((List.range (ceilDiv h 16)).filter (fun t => spans p.my p.r (16 * t) (Nat.min h (16 * t + 16)))).length

/-- The primitives whose instances fit INST_MAX, in block-index order. -/
def capInsts (w h max : Nat) : (used : Nat) → List Prim2 → List Prim2
  | _, [] => []
  | used, p :: ps => let n := p.tiles w h; if used + n ≤ max then p :: capInsts w h max (used + n) ps else []

/-- A tile's list: nearest first, then primitive index, its TILE_MAX nearest. -/
def tileList (l : List Prim2) (tx ty max : Nat) : List Prim2 × Bool :=
  let hit := l.filter (fun p => spans p.mx p.r (16 * tx) (16 * tx + 16) && spans p.my p.r (16 * ty) (16 * ty + 16))
  let o := sortBy (fun (a b : Prim2) => fp32.lt a.z b.z || (!(fp32.lt b.z a.z) && decide (a.prim < b.prim))) hit
  (o.take max, decide (max < o.length))

/-! ## Compositing (R314) -/

/-- What a primitive gives a pixel: the offset of the pixel from its mean, e^power, alpha, and whether the clamp at 0.99 holds it. -/
structure Hit where
  dx : Nat
  dy : Nat
  e : Nat
  alpha : Nat
  top : Bool

/-- A primitive at a pixel; none where the pair is skipped (power > 0, or alpha < 1/255). -/
def Prim2.hit (p : Prim2) (px py : Nat) : Option Hit :=
  let dx := fp32.sub (fp32.ofInt (px : Nat)) p.mx
  let dy := fp32.sub (fp32.ofInt (py : Nat)) p.my
  let power := kilnPower p.ca p.cb p.cc dx dy
  let a := fp32.mul p.alpha (exp32 power)
  let top := fp32.ofRat 99 100
  let alpha := if fp32.lt top a then top else a
  if fp32.lt 0 power || fp32.lt alpha (fp32.ofRat 1 255) then none
  else some { dx := dx, dy := dy, e := exp32 power, alpha := alpha, top := fp32.lt top a }

/-- A pixel on its way through its tile's list. -/
structure Blend where
  t : Nat := 0x3F800000
  c : Nat × Nat × Nat := (0, 0, 0)
  z : Nat := 0
  lsum : List Nat := List.replicate 16 0
  n : Nat := 0
  stop : Bool := false

/-- One pass of the loop of R314; `layer` is the matte layer of the primitive. -/
def Blend.step (b : Blend) (px py : Nat) (p : Prim2) (layer : Nat) : Blend :=
  if b.stop then b
  else
    let b : Blend := { b with n := b.n + 1 }
    match p.hit px py with
    | none => b
    | some h =>
      let rest := fp32.mul b.t (fp32.sub (fp32.ofInt 1) h.alpha)
      if fp32.lt rest (fp32.ofRat 1 10000) then { b with stop := true }
      else
        let w := fp32.mul b.t h.alpha
        let add := fun (v k : Nat) => fp32.add v (fp32.mul w k)
        { b with c := (add b.c.1 p.colour.1, add b.c.2.1 p.colour.2.1, add b.c.2.2 p.colour.2.2), z := add b.z p.z,
                 lsum := setNth b.lsum layer (fp32.add (nth 0 b.lsum layer) w), t := rest }

/-- The opacity A = 1 − T, and whether it reaches one half, where depth is stated. -/
def Blend.opacity (b : Blend) : Nat := fp32.sub (fp32.ofInt 1) b.t
def Blend.deep (b : Blend) : Bool := !fp32.lt b.opacity (fp32.ofRat 1 2)

/-- The pairs of a tile's list that a pixel has blended or skipped: up to the position at which its loop ended. -/
def Blend.passed (b : Blend) (l : List Prim2) : List Prim2 := l.take (b.n - b2n b.stop)

/-! ## The backward pass (R322) -/

/-- A term of the loss at a pixel (R321) and its derivatives over the composited colour, zsum and the final T. -/
structure PxGrad where
  loss : Fv
  c : List Fv
  z : Fv
  t : Fv

/-- A term times a number. -/
def PxGrad.scale (g : PxGrad) (k : Fv) : PxGrad := { loss := g.loss.mul k, c := g.c.map (·.mul k), z := g.z.mul k, t := g.t.mul k }

/-- The backward pass of a pixel on its way: T in front of the pair just done, Σ w × (derivative · value) of the pairs behind, the gradients. -/
structure Back where
  t : Fv
  tail : Fv := Fv.ofInt 0
  out : List (Nat × List Fv) := []

/-- One pair, back to front, with the exact derivative of the forward computation: over mean₂D, conic, α₀, colour and depth. A pair held at
the clamp of 0.99 has a constant alpha; a skipped pair contributes 0. -/
def Back.step (g : PxGrad) (tEnd : Fv) (px py : Nat) (p : Prim2) (b : Back) : Back :=
  match p.hit px py with
  | none => b
  | some h =>
    let d := fp32.dec
    let al := d h.alpha
    let rest := (Fv.ofInt 1).add al.neg
    let t := b.t.div rest
    let w := t.mul al
    let gc := fun k => nth (Fv.ofInt 0) g.c k
    let value := ((((gc 0).mul (d p.colour.1)).add ((gc 1).mul (d p.colour.2.1))).add ((gc 2).mul (d p.colour.2.2))).add (g.z.mul (d p.z))
    let da := (t.mul value).add ((b.tail.add (g.t.mul tEnd)).div rest).neg
    let free := if h.top then Fv.ofInt 0 else da
    let dp := free.mul al
    let x := d h.dx
    let y := d h.dy
    let half := Fv.ofRat (-1) 2
    let two := fun (k v : Nat) => ((d k).mul x).add ((d v).mul y)
    let ten := [dp.mul (two p.ca p.cb), dp.mul (two p.cb p.cc), dp.mul (half.mul (x.mul x)), dp.mul (x.mul y).neg, dp.mul (half.mul (y.mul y)),
      free.mul (d h.e), (gc 0).mul w, (gc 1).mul w, (gc 2).mul w, g.z.mul w]
    { t := t, tail := b.tail.add (w.mul value), out := (p.prim, ten) :: b.out }

/-- The gradients that a pixel gives the primitives of its tile's list, back to front from the kept T and end position. -/
def Blend.back (b : Blend) (l : List Prim2) (g : PxGrad) (px py : Nat) : List (Nat × List Fv) :=
  let tEnd := fp32.dec b.t
  ((b.passed l).foldr (fun p a => a.step g tEnd px py p) ({ t := tEnd } : Back)).out

/-- The sums of a tile in FP32, pixel by pixel: for each primitive of its list, its ten values. -/
def tileGrads (l : List Prim2) (px : List (List (Nat × List Fv))) : List (Nat × List Nat) :=
  l.map (fun q =>
    let mine := px.filterMap (fun o => (o.find? (fun e => e.1 == q.prim)).map (·.2))
    (q.prim, (List.range 10).map (fun k => mine.foldl (fun acc v => fp32.add acc (fp32.enc (nth (Fv.ofInt 0) v k))) 0)))

/-- The 48-byte gradient record: primitive, tile, view, then d_mean 2, d_conic 3, d_alpha 1, d_colour 3, d_depth 1. -/
def gradRecord (prim tile view : Nat) (d : List Nat) : List Byte :=
  leBytes 4 prim ++ leBytes 2 tile ++ leBytes 1 view ++ leBytes 1 0 ++ (List.range 10).flatMap (fun k => leBytes 4 (nth 0 d k))

/-- The fields of a gradient record. -/
def gradPrim (r : List Byte) : Nat := leValue (r.take 4)
def gradTile (r : List Byte) : Nat := leValue ((r.drop 4).take 2)
def gradView (r : List Byte) : Nat := leValue ((r.drop 6).take 1)
def gradVal (r : List Byte) (k : Nat) : Nat := leValue ((r.drop (8 + 4 * k)).take 4)

/-- A primitive's records in (view, tile) order. -/
def gradsOf (recs : List (List Byte)) (prim : Nat) : List (List Byte) :=
  sortBy (fun (a b : List Byte) => decide (gradView a < gradView b) || (gradView a == gradView b && decide (gradTile a < gradTile b)))
    (recs.filter (fun r => gradPrim r == prim))

/-- The sum of records in their order, value by value. -/
def sumGrads (l : List (List Byte)) : List Nat := (List.range 10).map (fun k => l.foldl (fun acc r => fp32.add acc (gradVal r k)) 0)

/-- ‖d_mean‖ of a primitive's reduced gradient (R323). -/
def meanNorm (l : List (List Byte)) : Nat :=
  let d := sumGrads l
  let sq := fun (k : Nat) => let v := fp32.dec (nth 0 d k); v.mul v
  fp32.sqrt ((sq 0).add (sq 1))

end Sys2Proof.Machine
end

