-- ==== Sys2Proof/Machine/Splat.lean ====
section
/-!
DEFINITION. The projection of a primitive (R312), written once over an arithmetic: over exact values it is the projection itself, over values with their
derivatives it is what the update of R323 carries a gradient back through. The frustum test, back-projection, the step of render-and-compare (R328). What
FP32 makes of an exact value is `fp32.eval` (log entry 101).
-/

namespace Sys2Proof.Machine
open Sys2Proof

/-! ## Arithmetics -/

/-- What the projection needs of numbers. -/
structure Arith (α : Type) where
  lit : Fv → α
  add : α → α → α
  mul : α → α → α
  div : α → α → α
  exp : α → α
  root : α → α
  val : α → Fv

/-- Exact values. -/
def exactNum : Arith Fv :=
  { lit := fun v => v, add := Fv.plus, mul := Fv.times, div := Fv.over, exp := fun v => v.exp.low, root := Fv.root, val := fun v => v }

/-- A value with its derivatives over the parameters. -/
structure Dual where
  v : Fv
  d : List Fv

/-- Exact values with their derivatives over `n` parameters. -/
def dualNum (n : Nat) : Arith Dual :=
  { lit := fun v => { v := v, d := vZero n }
    add := fun a b => { v := a.v.plus b.v, d := vAdd a.d b.d }
    mul := fun a b => { v := a.v.times b.v, d := vAdd (vScale b.v a.d) (vScale a.v b.d) }
    div := fun a b => { v := a.v.over b.v, d := vScale (Fv.one.over b.v.sq) (vSub (vScale b.v a.d) (vScale a.v b.d)) }
    exp := fun a => let e := a.v.exp.low; { v := e, d := vScale e a.d }
    root := fun a => let r := a.v.root; { v := r, d := vScale (Fv.half.over r) a.d }
    val := fun a => a.v }

namespace Arith
variable {α : Type} (A : Arith α)

def sub (a b : α) : α := A.add a (A.mul (A.lit Fv.one.neg) b)
def scale (k : Fv) (a : α) : α := A.mul (A.lit k) a
def zero : α := A.lit Fv.zero
def sum (l : List α) : α := l.foldl A.add A.zero
def dot (a b : List α) : α := A.sum ((a.zip b).map (fun p => A.mul p.1 p.2))
def nth (l : List α) (i : Nat) : α := match l.drop i with | a :: _ => a | [] => A.zero

/-- A value held between two; at a clamp it is a constant. -/
def clamp (lo hi : Fv) (a : α) : α := if (A.val a).lt lo then A.lit lo else if hi.lt (A.val a) then A.lit hi else a

/-- The rotation matrix of a quaternion of any norm, normalised on use. -/
def rotOf (q : List α) : List (List α) :=
  let n := A.root (A.dot q q)
  let u := q.map (fun e => A.div e n)
  let t := fun (i j : Nat) => A.scale (Fv.ofInt 2) (A.mul (A.nth u i) (A.nth u j))
  let one := A.lit Fv.one
  [[A.sub one (A.add (t 2 2) (t 3 3)), A.sub (t 1 2) (t 0 3), A.add (t 1 3) (t 0 2)],
   [A.add (t 1 2) (t 0 3), A.sub one (A.add (t 1 1) (t 3 3)), A.sub (t 2 3) (t 0 1)],
   [A.sub (t 1 3) (t 0 2), A.add (t 2 3) (t 0 1), A.sub one (A.add (t 1 1) (t 2 2))]]

end Arith

/-! ## A pass's view -/

/-- The view of a pass: its camera's pose in the anchor frame, the camera's entry, the pyramid level, the image's size. -/
structure ViewGeo where
  cam : Motion
  ent : List Byte
  level : Nat
  w : Nat
  h : Nat

/-- fx, fy, cx, cy at the pass's level, whose pixel (i, j) lies at (2^ℓ i, 2^ℓ j) (R135). -/
def ViewGeo.k (g : ViewGeo) (i : Nat) : Fv := (tt64 g.ent (80 + 8 * i)).over (Fv.ofInt (2 ^ g.level : Nat))

/-- The ray of a pixel in the camera's frame, at depth 1. -/
def ViewGeo.ray (g : ViewGeo) (x y : Fv) : List Fv := [(x.minus (g.k 2)).over (g.k 0), (y.minus (g.k 3)).over (g.k 1), Fv.one]

/-- The point in the anchor frame at a depth behind a pixel (R325), FP32. -/
def ViewGeo.backProject (g : ViewGeo) (x y z : Nat) : List Nat :=
  (g.cam.act (vScale (fp32.dec z) (g.ray (Fv.ofInt (x : Nat)) (Fv.ofInt (y : Nat))))).map fp32.eval

/-! ## Projection (R312) -/

/-- A primitive's 23 parameters projected: depth, projected mean, conic, colour, and the three entries of Σ′. -/
def projectWith {α : Type} (A : Arith α) (g : ViewGeo) (p : List α) : List α :=
  let rw := mTr (qMat g.cam.q)
  let d := (List.range 3).map (fun i => A.sub (A.nth p i) (A.lit (vAt g.cam.t i)))
  let c := rw.map (fun r => A.dot (r.map A.lit) d)
  let z := A.nth c 2
  let half := fun (i n : Nat) => (Fv.ofRat (13 * (n : Int)) 20).over (g.k i)
  let tx := A.div (A.nth c 0) z
  let ty := A.div (A.nth c 1) z
  let cx := A.clamp (half 0 g.w).neg (half 0 g.w) tx
  let cy := A.clamp (half 1 g.h).neg (half 1 g.h) ty
  -- the pinhole Jacobian, turned into anchor axes, then into the axes of the primitive times its scales
  let fz := fun (i : Nat) => A.div (A.lit (g.k i)) z
  let jw := fun (i : Nat) (t : α) => (List.range 3).map (fun j =>
    A.mul (fz i) (A.sub (A.lit (mAt rw i j)) (A.mul t (A.lit (mAt rw 2 j)))))
  let r := A.rotOf ((p.drop 4).take 4)
  let axes := (List.range 3).map (fun k => r.map (fun row => A.mul (A.nth row k) (A.exp (A.nth p (8 + k)))))
  let a := axes.map (A.dot (jw 0 cx))
  let b := axes.map (A.dot (jw 1 cy))
  let blur := A.lit (Fv.ofRat 3 10)
  let s0 := A.add (A.dot a a) blur
  let s1 := A.dot a b
  let s2 := A.add (A.dot b b) blur
  let det := A.sub (A.mul s0 s2) (A.mul s1 s1)
  let n := A.root (A.dot d d)
  let u := d.map (fun e => A.div e n)
  let col := fun (k : Nat) => A.clamp Fv.zero Fv.one (A.add (A.nth p (11 + 4 * k)) (A.dot ((p.drop (12 + 4 * k)).take 3) u))
  [z, A.add (A.scale (g.k 0) tx) (A.lit (g.k 2)), A.add (A.scale (g.k 1) ty) (A.lit (g.k 3)),
   A.div s2 det, A.div (A.scale Fv.one.neg s1) det, A.div s0 det, col 0, col 1, col 2, s0, s1, s2]

/-- The half-side of the square of a primitive: ⌈3 √λ_max(Σ′)⌉. -/
def halfSide (s0 s1 s2 : Fv) : Nat :=
  let m := Fv.half.times (s0.plus s2)
  let d := Fv.half.times (s0.minus s2)
  let l := m.plus ((d.sq.plus s1.sq).root)
  (-((fp32.dec (fp32.eval ((Fv.ofInt 3).times l.root))).neg.floorMul 1)).toNat

/-- A primitive as a pass projects it, by its index, matte layer and parameters (FP32). -/
def ViewGeo.project (g : ViewGeo) (prim layer : Nat) (p : List Nat) : Prim2 :=
  let l := projectWith exactNum g (p.map fp32.dec)
  let f := fun (i : Nat) => fp32.eval (vAt l i)
  { prim := prim, z := f 0, mx := f 1, my := f 2, ca := f 3, cb := f 4, cc := f 5, alpha := sigmoid32 (nth 0 p 3), colour := (f 6, f 7, f 8),
    r := halfSide (vAt l 9) (vAt l 10) (vAt l 11), layer := layer }

/-- The gradient over the parameters that the ten reduced values of one view give (R322, R323): d_mean 2, d_conic 3, d_alpha, d_colour 3, d_depth. -/
def ViewGeo.carry (g : ViewGeo) (p ten : List Nat) : List Fv :=
  let v := p.map fp32.dec
  let o := projectWith (dualNum 23) g ((v.zip (mEye 23)).map (fun e => { v := e.1, d := e.2 }))
  let t := fun (i : Nat) => fp32.dec (nth 0 ten i)
  let by' := [(1, 0), (2, 1), (3, 2), (4, 3), (5, 4), (6, 6), (7, 7), (8, 8), (0, 9)].foldl (fun (a : List Fv) e =>
    match o.drop e.1 with | x :: _ => vAdd a (vScale (t e.2) x.d) | [] => a) (vZero 23)
  let al := (vAt v 3).sigmoid.low
  vAdd by' ((List.range 23).map (fun k => if k = 3 then (t 5).times (al.times (Fv.one.minus al)) else Fv.zero))

/-- ±1σ along the largest axis of a primitive that splits (R325): the offset from its mean, FP32. -/
def splitOffset (p : List Nat) : List Nat :=
  let v := p.map fp32.dec
  let s := (v.drop 8).take 3
  let k := (List.range 3).foldl (fun a i => if (vAt s a).lt (vAt s i) then i else a) 0
  ((exactNum.rotOf ((v.drop 4).take 4)).map (fun row => ((vAt row k).times (vAt s k).exp).low)).map fp32.eval

/-! ## The frustum test -/

/-- Whether two convex bodies are apart: along one of the directions all of one's corners lie beyond all of the other's. -/
def apartAlong (dirs a b : List (List Fv)) : Bool :=
  dirs.any (fun d =>
    let x := a.map (vDot d)
    let y := b.map (vDot d)
    x.all (fun u => y.all (fun w => u.lt w)) || x.all (fun u => y.all (fun w => w.lt u)))

/-- Whether a cell, widened on every side, meets the view frustum: the pixels of the image between the depths of the culls (R312). The directions are the
faces of both and the products of their edges, which decide it for convex bodies. -/
def ViewGeo.meets (g : ViewGeo) (cell : Int × Int × Int) (cm prune : Nat) : Bool :=
  let wide := Fv.ofRat (3 * (prune : Int)) 1000
  let ends := fun (c : Int) => [(Fv.ofRat (c * cm) 100).minus wide, (Fv.ofRat ((c + 1) * cm) 100).plus wide]
  let box := (ends cell.1).flatMap (fun x => (ends cell.2.1).flatMap (fun y => (ends cell.2.2).map (fun z => [x, y, z])))
  let x0 := Fv.ofRat (-1) 2
  let x1 := Fv.ofRat (2 * (g.w : Int) - 1) 2
  let y1 := Fv.ofRat (2 * (g.h : Int) - 1) 2
  let rays := [g.ray x0 x0, g.ray x1 x0, g.ray x1 y1, g.ray x0 y1].map (qRot g.cam.q)
  let view := rays.flatMap (fun r => [vAdd g.cam.t (vScale (Fv.ofRat 1 20) r), vAdd g.cam.t (vScale (Fv.ofInt 1000) r)])
  let axes := mEye 3
  let right := qRot g.cam.q [Fv.one, Fv.zero, Fv.zero]
  let down := qRot g.cam.q [Fv.zero, Fv.one, Fv.zero]
  let sides := (rays.zip (rays.drop 1 ++ rays.take 1)).map (fun e => cross e.1 e.2)
  let edges := right :: down :: rays
  let dirs := axes ++ [cross right down] ++ sides ++ axes.flatMap (fun a => edges.map (cross a))
  !apartAlong dirs box view

/-! ## Render-and-compare (R328) -/

/-- A pixel that counts: the luma rendered, the luma of the image, and the derivative of the rendered one by the pose of the state IMU frame (translation,
then rotation in the axes of the anchor, the order of Table 9-9). -/
structure LumaPx where
  got : Fv
  ref : Fv
  j : List Fv

/-- The derivative of the projected mean of a primitive by the pose of the state frame, through its projected mean and depth alone. -/
def ViewGeo.meanJac (g : ViewGeo) (x ext : Motion) (mx my z : Fv) : List (List Fv) :=
  let p := vScale z (g.ray mx my)
  let fx := (g.k 0).over z
  let fy := (g.k 1).over z
  let j := [[fx, Fv.zero, (fx.times ((vAt p 0).over z)).neg], [Fv.zero, fy, (fy.times ((vAt p 1).over z)).neg]]
  let jr := mMul (mMul j (mTr (qMat ext.q))) (mTr (qMat x.q))
  mBeside (mScale Fv.one.neg jr) (mMul jr (skew (qRot x.q (ext.act p))))

/-- Zero mean and unit deviation over the pixels. -/
def normed (l : List Fv) : List Fv × Fv :=
  let n := Fv.ofInt (Nat.max 1 l.length : Nat)
  let m := (vSum l).over n
  let c := l.map (fun v => v.minus m)
  let d := ((vDot c c).over n).root
  (c.map (fun v => v.over d), d)

/-- E = ½ Σ r², the normal matrix JᵀJ and the vector Jᵀr of normalised luma. -/
def lumaNormal (l : List LumaPx) : Fv × List (List Fv) × List Fv :=
  let a := normed (l.map (·.got))
  let b := normed (l.map (·.ref))
  let n := Fv.ofInt (Nat.max 1 l.length : Nat)
  let mean := vScale (Fv.one.over n) (l.foldl (fun s e => vAdd s e.j) (vZero 6))
  let cen := l.map (fun e => vSub e.j mean)
  let along := vScale (Fv.one.over (n.times a.2)) ((a.1.zip cen).foldl (fun s e => vAdd s (vScale e.1 e.2)) (vZero 6))
  let j := (a.1.zip cen).map (fun e => vSub (vScale (Fv.one.over a.2) e.2) (vScale e.1 along))
  let r := vSub a.1 b.1
  (Fv.half.times (vDot r r), mMul (mTr j) j, mVec (mTr j) r)

/-- The step of the pose: (JᵀJ + λ I) δ = −Jᵀr, λ = 10⁻⁴ × max diag. -/
def lumaStep (n : Fv × List (List Fv) × List Fv) : List Fv :=
  let d := (List.range 6).foldl (fun a i => a.most (mAt n.2.1 i i)) Fv.zero
  let m := mAdd n.2.1 (mScale (d.over (Fv.ofInt 10000)) (mEye 6))
  (mSolve m ((vNeg n.2.2).map (fun x => [x]))).map (fun e => fp32.dec (fp32.eval (vAt e 0)))

/-- What render-and-compare finds (R328, R329): iterations, pose (position FP64, orientation FP32), costs and covariance (FP32), and the pixels that count. -/
structure RelocFit where
  iters : Nat := 0
  pos : List Nat := [0, 0, 0]
  q : List Nat := [0x3F800000, 0, 0, 0]
  e0 : Nat := 0
  e1 : Nat := 0
  cov : List Nat := []
  pixels : Nat := 0

/-- Iterations on the way: the pose, its pixels and normal equations, and whether a step that raised E has ended them. -/
structure RelocIt where
  x : Motion
  n : Fv × List (List Fv) × List Fv
  count : Nat
  iters : Nat := 0
  ended : Bool := false

/-- One iteration: a step that raises E is rejected and ends them. -/
def RelocIt.next (render : Motion → List LumaPx) (s : RelocIt) : RelocIt :=
  if s.ended then s
  else
    let y := s.x.move (lumaStep s.n)
    let l := render y
    let n := lumaNormal l
    if l.isEmpty || s.n.1.lt n.1 then { s with iters := s.iters + 1, ended := true }
    else { x := y, n := n, count := l.length, iters := s.iters + 1 }

/-- Render-and-compare from a pose over at most `iters` iterations; none where no pixel counts. -/
def relocFit (render : Motion → List LumaPx) (x : Motion) (iters : Nat) : RelocFit :=
  let l := render x
  let start : RelocIt := { x := x, n := lumaNormal l, count := l.length }
  let pose := fun (s : RelocIt) (o : RelocFit) => { o with pos := s.x.t.map fp64.eval, q := (qUnit s.x.q).map fp32.eval }
  if l.isEmpty then pose start {}
  else
    let z := (List.range iters).foldl (fun s _ => s.next render) start
    let k := ((Fv.ofInt 2).times z.n.1).over (Fv.ofInt ((z.count : Int) - 6))
    pose z { iters := z.iters, e0 := fp32.eval start.n.1, e1 := fp32.eval z.n.1, cov := (upperOf (mScale k (mInv z.n.2.1))).map fp32.eval, pixels := z.count }

end Sys2Proof.Machine
end

