-- ==== Sys2Proof/Machine/Kiln.lean ====
section
/-!
DEFINITION. The Kiln (chapter 11): view passes and their order, binning and compositing, planes and records, refinement jobs, the
update, commits and densification, the active set, render-and-compare.
-/

namespace Sys2Proof.Machine
open Sys2Proof

/-! ## Maps, blocks, primitives (R307–R310) -/

/-- A map's state. -/
def State.kmap (s : State) (m : Nat) : KMap := tget {} s.kln.maps m

/-- A map's state changes. -/
def State.setKmap (s : State) (m : Nat) (x : KMap) : State := { s with kln.maps := tput {} s.kln.maps m x }

/-- Whether a map is enabled. -/
def State.kmapOn (s : State) (m : Nat) : Bool := decide (m < 8) && s.fb F.KLN_MAP_CTL_ENABLE m

/-- The bases of a map's regions. -/
def State.mapBase (s : State) (m : Nat) : Nat := s.pair R.KLN_MAP_BASE_LO R.KLN_MAP_BASE_HI m
def State.mapState (s : State) (m : Nat) : Nat := s.pair R.KLN_MAP_STATE_LO R.KLN_MAP_STATE_HI m
def State.mapActive (s : State) (m : Nat) : Nat := s.pair R.KLN_MAP_ACTIVE_LO R.KLN_MAP_ACTIVE_HI m
def State.mapBlocks (s : State) (m : Nat) : Nat := s.f F.KLN_MAP_SIZE_MAP_BLOCKS m

/-- The page of block b in the map region: after the block table, rounded up to whole pages. -/
def State.blockPage (s : State) (m b : Nat) : Nat := s.mapBase m + ceilDiv (16 * s.mapBlocks m) 65536 * 65536 + 65536 * b

/-- Where block b is read and written: its active frame, or the map region where it is not resident. -/
def State.blockAddr (s : State) (m b : Nat) : Nat :=
  match tget 0 (s.kmap m).resident b with
  | 0 => s.blockPage m b
  | f + 1 => s.mapActive m + 65536 * f

/-- The record and the optimiser state of a primitive. -/
def State.primAddr (s : State) (m i : Nat) : Nat := s.blockAddr m (i / 1024) + 64 * (i % 1024)
def State.primState (s : State) (m i : Nat) : Nat := s.mapState m + 65536 * (i / 1024) + 64 * (i % 1024)

/-- Whether a slot is VALID, and FROZEN (Table 11-1). -/
def State.primValid (s : State) (m i : Nat) : Bool := bitOf (s.rdNum (s.primAddr m i + 15) 1) 0
def State.primFrozen (s : State) (m i : Nat) : Bool := bitOf (s.rdNum (s.primAddr m i + 15) 1) 1

/-- The address of a block descriptor (R309), its cell, count and flags. -/
def State.descAddr (s : State) (m b : Nat) : Nat := s.mapBase m + 16 * b
def State.blockUsed (s : State) (m b : Nat) : Bool := bitOf (s.rdNum (s.descAddr m b + 12) 2) 0
def State.blockCell (s : State) (m b : Nat) : Int × Int × Int :=
  let c := fun (k : Nat) => sgn 16 (s.rdNum (s.descAddr m b + 2 * k) 2)
  (c 0, c 1, c 2)

/-- The used blocks of a map. -/
def State.usedBlocks (s : State) (m : Nat) : List Nat := (List.range (s.mapBlocks m)).filter (s.blockUsed m)

/-- The resident blocks of a map. -/
def State.residents (s : State) (m : Nat) : List Nat := (s.kmap m).resident.map (·.1)

/-- A block changes in the active region: DIRTY, with its epoch and count. -/
def State.touchBlock (s : State) (m b epoch : Nat) : State :=
  let d := s.descAddr m b
  let n := ((List.range 1024).filter (fun i => s.primValid m (1024 * b + i))).length
  let s := (s.wrNum (d + 6) 2 n).wrNum (d + 8) 4 epoch
  let res := tget 0 (s.kmap m).resident b != 0
  s.wrNum (d + 12) 2 (if n = 0 then 0 else 1 + 2 * b2n res)

/-- The cell of a position: its coordinates in units of CELL_CM. -/
def State.cellOf (s : State) (m : Nat) (p : Nat × Nat × Nat) : Int × Int × Int :=
  let e := Fv.ofInt (s.f F.KLN_MAP_CELL_CELL_CM m : Nat)
  let c := fun (v : Nat) => ((fp32.dec v).div e).floorMul 100
  (c p.1, c p.2.1, c p.2.2)

/-- KLN_MAP_PRIMS and KLN_MAP_RESIDENT. -/
def State.syncMap (s : State) (m : Nat) : State :=
  let n := sumN ((s.usedBlocks m).map (fun b => s.rdNum (s.descAddr m b + 6) 2))
  let x := s.kmap m
  let s := (s.setF F.KLN_MAP_PRIMS_COUNT n m).setF F.KLN_MAP_RESIDENT_RESIDENT x.resident.length m
  s.setF F.KLN_MAP_RESIDENT_LOADING x.loading.length m

/-! ## Passes and their order (R311) -/

/-- Logical Kilns in service. -/
def State.kilns (s : State) : List Nat := (s.places 0xB).filter (fun l => (s.physOf 0xB 0 l).isSome)

/-- The passes a Kiln holds: one in binning at most, beside one that composites (R330). -/
def State.kilnFree (s : State) (l : Nat) : Bool :=
  let p := s.kln.passes.filter (fun p => p.unit == some l)
  !p.any (fun p => p.stage == 1) && decide (p.length < 2)

/-- Whether a view's next slot is released. -/
def State.viewRoom (s : State) (v : Nat) : Bool :=
  decide (tget 0 s.kln.outs v < s.tv (s.f F.KLN_VIEW_TALLY_RELEASE v) + s.f F.KLN_VIEW_CTL_OUT_FRAMES v)

/-- Whether a pass may be taken by a free Kiln. -/
def State.passReady (s : State) (p : Pass) : Bool := p.unit.isNone && p.waits.isEmpty && (p.cls != 1 || s.viewRoom p.idx)

/-- The order of passes: class, deadline, view or map index. -/
def passBefore (p q : Pass) : Bool :=
  let due : Bool := match p.due, q.due with | some a, some b => decide (a < b) | some _, none => true | none, _ => false
  decide (p.cls < q.cls) || (p.cls == q.cls && (due || (p.due == q.due && decide (p.idx < q.idx))))

/-- The same pass: of one class, view or map, camera and pose. -/
def Pass.same (p q : Pass) : Bool := p.cls == q.cls && p.idx == q.idx && p.cam == q.cam && p.pseq == q.pseq

/-- A pass changes. -/
def State.setPass (s : State) (p : Pass) : State := { s with kln.passes := s.kln.passes.map (fun q => if q.same p then p else q) }

/-- A pass is over. -/
def State.dropPass (s : State) (p : Pass) : State := { s with kln.passes := s.kln.passes.filter (fun q => !q.same p) }

/-- A pass starts on a Kiln, or resumes: it snapshots the resident blocks and the epoch (R312). -/
def State.startPass (s : State) (p : Pass) (l : Nat) : State :=
  if p.stage = 0 then
    s.setPass { p with unit := some l, stage := 1, epoch := s.f F.KLN_MAP_EPOCH_EPOCH p.map, resident := s.residents p.map }
  else s.setPass { p with unit := some l }

/-- Free Kilns take ready passes; a class-0 or class-1 pass that finds none preempts a refinement pass at its tile boundary. -/
def State.startPasses (s : State) : (fuel : Nat) → State
  | 0 => s
  | n + 1 =>
    match bestBy passBefore (s.kln.passes.filter s.passReady) with
    | none => s
    | some p =>
      match s.kilns.filter s.kilnFree with
      | l :: _ => (s.startPass p l).startPasses n
      | [] =>
        if p.cls < 2 then
          match s.kln.passes.find? (fun q => q.cls == 2 && q.unit.isSome && q.stage != 1) with
          | some q =>
            match q.unit with
            | some l => ((s.setPass { q with unit := none }).startPass p l).startPasses n
            | none => s
          | none => s
        else s

/-! ## Binning (R312, R313) -/

/-- The size of a pass's image. -/
def State.passSize (s : State) (p : Pass) : Nat × Nat :=
  if p.cls = 1 then (s.f F.KLN_VIEW_GEOM_WIDTH p.idx, s.f F.KLN_VIEW_GEOM_HEIGHT p.idx)
  else
    let l := if p.cls = 0 then s.f F.KLN_RELOC_REL_LEVEL else s.f F.KLN_MAP_CTL_REFINE_LEVEL p.map
    (s.jobW p.cam l, s.jobH p.cam l)

/-- Whether every parameter of a stored primitive is finite (Table 11-1). -/
def State.primFinite (s : State) (m i : Nat) : Bool :=
  let a := s.primAddr m i
  (List.range 3).all (fun k => !fp32.special (s.rdNum (a + 4 * k) 4))
    && ([12, 16, 18, 20, 22, 24, 26, 28] ++ (List.range 12).map (fun k => 32 + 2 * k)).all (fun o => !fp16.special (s.rdNum (a + o) 2))

/-- The parameter of a primitive as FP32, by its number. -/
def State.param (s : State) (m i k : Nat) : Nat :=
  let a := s.primAddr m i
  let h := fun (o : Nat) => fp16.conv fp32 (s.rdNum (a + o) 2)
  if k < 3 then s.rdNum (a + 4 * k) 4 else if k = 3 then h 12 else if k < 8 then h (16 + 2 * (k - 4))
  else if k < 11 then h (24 + 2 * (k - 8)) else h (32 + 2 * (k - 11))

/-- TILE_MAX and INST_MAX of a pass; only views have them set. -/
def State.passLimits (s : State) (p : Pass) : Nat × Nat :=
  if p.cls = 1 then (s.f F.KLN_VIEW_LIMIT_TILE_MAX p.idx, 1000 * s.f F.KLN_VIEW_LIMIT_INST_K p.idx) else (2 ^ 32, 2 ^ 48)

/-- The pyramid level of a pass. -/
def State.passLevel (s : State) (p : Pass) : Nat :=
  if p.cls = 1 then 0 else if p.cls = 0 then s.f F.KLN_RELOC_REL_LEVEL else s.f F.KLN_MAP_CTL_REFINE_LEVEL p.map

/-- The request with number k. -/
def State.relocReq (s : State) (k : Nat) : Nat := s.pair R.KLN_RELOC_RING_LO R.KLN_RELOC_RING_HI + 64 * (k % 64)

/-- The session of a pass: a view's, a job's, a request's. -/
def State.passSes (s : State) (p : Pass) : Nat :=
  match p.cls with
  | 1 => s.f F.KLN_VIEW_CTL_SESSION p.idx
  | 2 => match (s.kmap p.map).job with | some j => j.ses | none => 0
  | _ => s.rdNum (s.relocReq p.pseq + 48) 1

/-- The pose a pass holds: a view's and a keyframe's as position FP64 and orientation FP32, that of a RELPOSE record as its identifier, orientation and
position in FP64. -/
def Pass.motion (p : Pass) : Motion :=
  let n := fun (o w : Nat) => leValue ((p.pose.drop o).take w)
  if p.cls = 0 then Motion.of ((List.range 7).map (fun i => n (8 + 8 * i) 8))
  else
    { q := qUnit ((List.range 4).map (fun i => fp32.dec (n (24 + 4 * i) 4)))
      t := (List.range 3).map (fun i => fp64.dec (n (8 * i) 8)) }

/-- The transform from the reference anchor of a session to a map's, at a time. -/
def State.toMap (s : State) (p : Pass) : Motion :=
  s.entIn p.ts (s.f F.FRM_SES_FRAME_REFERENCE (s.passSes p)) (s.f F.KLN_MAP_ANCHOR_ENTRY p.map)

/-- The pose of a pass's camera in the map's anchor frame: a view's record gives OUTPUT in REFERENCE (R262), a keyframe its state frame in REFERENCE, a RELPOSE
record the state frame in the map's anchor (log entry 105). -/
def State.passCam (s : State) (p : Pass) : Motion :=
  match p.cls with
  | 1 => ((s.toMap p).comp p.motion).comp (s.entIn p.ts (s.f F.KLN_VIEW_CAMERA_ENTRY p.idx) (s.f F.FRM_SES_FRAME_OUTPUT (s.passSes p)))
  | 2 => ((s.toMap p).comp p.motion).comp (s.camIn (s.passSes p) p.cam p.ts)
  | _ => p.motion.comp (s.camIn (s.passSes p) p.cam p.ts)

/-- The view of a pass. -/
def State.viewGeo (s : State) (p : Pass) : ViewGeo :=
  let sz := s.passSize p
  { cam := s.passCam p, ent := s.ttEntry (if p.cls = 1 then s.f F.KLN_VIEW_CAMERA_ENTRY p.idx else s.camEntry p.cam), level := s.passLevel p,
    w := sz.1, h := sz.2 }

/-- Whether the frustum test of R312 keeps a block. -/
def State.inView (s : State) (p : Pass) (b : Nat) : Bool :=
  (s.viewGeo p).meets (s.blockCell p.map b) (s.f F.KLN_MAP_CELL_CELL_CM p.map) (s.f F.KLN_MAP_SCALE_PRUNE_MM p.map)

/-- The matte layer of a primitive. -/
def State.layerOf (s : State) (m i : Nat) : Nat := s.rdNum (s.primAddr m i + 14) 1 % 16

/-- The parameters of a primitive, in their order. -/
def State.params (s : State) (m i : Nat) : List Nat := (List.range 23).map (s.param m i)

/-- The projection of a primitive (R312). -/
def State.project (s : State) (p : Pass) (i : Nat) : Prim2 := (s.viewGeo p).project i (s.layerOf p.map i) (s.params p.map i)

/-- The VALID primitives of the blocks of a pass's snapshot that its frustum test keeps, in block-index order. -/
def State.passPrims (s : State) (p : Pass) : List Nat :=
  (sortBy (fun (a b : Nat) => decide (a < b)) (p.resident.filter (s.inView p))).flatMap
    (fun b => ((List.range 1024).map (1024 * b + ·)).filter (s.primValid p.map))

/-- The primitives that a pass projects and keeps: finite, and not culled. -/
def State.projected (s : State) (p : Pass) : List Prim2 :=
  let sz := s.passSize p
  (((s.passPrims p).filter (s.primFinite p.map)).map (s.project p)).filter (fun q => q.finite && q.kept sz.1 sz.2)

/-- Projection and sorting of the pass on a Kiln are complete (R312, R313, R317): a pass that finds a wanted block missing waits for it,
except render-and-compare and a view whose deadline has passed. -/
def kilnBinningDone (u : Nat) (s : State) : State :=
  match s.kln.passes.find? (fun p => p.unit == some u && p.stage == 1) with
  | none => s
  | some p =>
    let x := s.kmap p.map
    let missing := x.wanted.filter (fun b => !p.resident.contains b && s.inView p b)
    if !missing.isEmpty && (p.cls == 2 || (p.cls == 1 && !p.late)) then
      let p' : Pass := { p with unit := none, stage := 0, begun := true, waits := missing.filter (fun b => tget 0 x.resident b == 0) }
      let s := s.setPass p'
      let s := if p.cls = 2 then (match x.job with
        | some j => s.setKmap p.map { x with job := some { j with flags := j.flags ||| 8 } }
        | none => s) else s
      s.startPasses 64
    else
      let sz := s.passSize p
      let lim := s.passLimits p
      let proj := s.projected p
      let bad := ((s.passPrims p).filter (fun i => !s.primFinite p.map i)).length
      let s := (s.addSat F.KLN_NAN_COUNT bad).eventIf (decide (0 < bad)) 0xA 6 p.map
      let fit := capInsts sz.1 sz.2 lim.2 0 proj
      let insts := sumN (fit.map (fun q => q.tiles sz.1 sz.2))
      let flags := p.flags ||| b2n (!missing.isEmpty) ||| (4 * b2n (decide (fit.length < proj.length)))
      let snap := if p.cls = 0 then ((s.passPrims p).filter (s.primFinite p.map)).map (fun i => (i, s.layerOf p.map i, s.params p.map i)) else []
      let s := s.setPass { p with stage := 2, proj := fit, insts := insts, flags := flags, snap := snap }
      let s := if p.cls = 2 then (match (s.kmap p.map).job with
        | some j => s.setKmap p.map { s.kmap p.map with job := some { j with seen := j.seen ++ proj.map (·.prim) } }
        | none => s) else s
      s.startPasses 64

/-! ## Compositing (R314) -/

/-- A pixel of a pass. -/
def pixelOf (list : List Prim2) (x y : Nat) : Blend := list.foldl (fun b q => b.step x y q q.layer) {}

/-- round (clamp (v, 0, 1) × k). -/
def unit16 (k v : Nat) : Nat :=
  let r := (fp32.dec v).rneMul k
  if r < 0 then 0 else Nat.min r.toNat k

/-- The bytes of a pixel in each enabled plane (Table 11-2): colour, depth, matte. -/
def State.viewPixel (s : State) (v : Nat) (b : Blend) : List (List Byte) :=
  let a := b.opacity
  let depth := if b.deep then fp32.conv fp16 (fp32.div b.z a) else 0x7C00
  let matte := fun (mask : Nat) =>
    unit16 255 (((List.range 16).filter (bitOf mask)).foldl (fun acc k => fp32.add acc (nth 0 b.lsum k)) 0)
  (if s.fb F.KLN_VIEW_CTL_COLOUR v then
      [leBytes 2 (unit16 65535 b.c.1) ++ leBytes 2 (unit16 65535 b.c.2.1) ++ leBytes 2 (unit16 65535 b.c.2.2) ++ leBytes 2 (unit16 65535 a)] else [])
    ++ (if s.fb F.KLN_VIEW_CTL_DEPTH v then [leBytes 2 depth] else [])
    ++ (if s.fb F.KLN_VIEW_CTL_MATTE v then
      [leBytes 1 (matte (s.f F.KLN_VIEW_MATTE_MASK_A v)) ++ leBytes 1 (matte (s.f F.KLN_VIEW_MATTE_MASK_B v))] else [])

/-- Bytes of a pixel by enabled plane. -/
def State.planeWidths (s : State) (v : Nat) : List Nat :=
  (if s.fb F.KLN_VIEW_CTL_COLOUR v then [8] else []) ++ (if s.fb F.KLN_VIEW_CTL_DEPTH v then [2] else [])
    ++ (if s.fb F.KLN_VIEW_CTL_MATTE v then [2] else [])

/-- The tiles of a view's image in 64 × 64 tiles, and the bytes of a frame slot (R318). -/
def State.viewTiles (s : State) (v : Nat) : Nat := ceilDiv (s.f F.KLN_VIEW_GEOM_WIDTH v) 64 * ceilDiv (s.f F.KLN_VIEW_GEOM_HEIGHT v) 64
def State.viewSlotSize (s : State) (v : Nat) : Nat := 4096 + sumN ((s.planeWidths v).map (fun w => w * 4096 * s.viewTiles v))

/-- The slot of a view's next record. -/
def State.viewSlot (s : State) (v : Nat) : Nat :=
  s.pair R.KLN_VIEW_OUT_LO R.KLN_VIEW_OUT_HI v + tget 0 s.kln.outs v % Nat.max 1 (s.f F.KLN_VIEW_CTL_OUT_FRAMES v) * s.viewSlotSize v

/-- A render record (Table 11-3) is written, and the output Tally advances. -/
def State.viewRecord (s : State) (v : Nat) (p : Pass) (conds : List Nat) (flags prims blends : Nat) : State :=
  let conds := conds.eraseDups
  let st := statusOf conds
  let flags := flags ||| (32 * b2n (decide (1 < conds.length)))
  let seq := (tget 0 s.kln.seqs v + 1) % 2 ^ 32
  let lat := satU 32 (s.now - p.ts)
  let bytes := leBytes 4 seq ++ leBytes 1 v ++ leBytes 1 (s.f F.KLN_VIEW_CTL_SESSION v) ++ leBytes 1 st ++ leBytes 1 p.pstatus ++ tsBytes p.ts
    ++ leBytes 4 flags ++ leBytes 4 p.epoch ++ leBytes 4 prims ++ leBytes 4 p.insts ++ leBytes 4 lat ++ leBytes 8 p.pseq
    ++ leBytes 4 (satU 32 blends) ++ zeroBytes 12
  let a := s.viewSlot v
  let s := (s.wrList a bytes).publish 4 v true bytes a
  let s : State := { s with kln.seqs := tput 0 s.kln.seqs v seq, kln.outs := tput 0 s.kln.outs v (tget 0 s.kln.outs v + 1) }
  let s := (s.setF F.KLN_VIEW_LAST_STATUS st v).setF F.KLN_VIEW_LAST_FLAGS flags v
  let s := (s.setF F.KLN_VIEW_LAT_US (lat / 1000) v).addWrap F.KLN_VIEW_COUNT_COUNT 1 v
  let ev := fun (s : State) (on : Bool) (bit : Nat) => if on then s.event 0xA bit v 0 st p.pseq else s
  let s := ev (ev (ev (ev s (conds.contains St.late) 0) (bitOf flags 3) 1) (bitOf flags 0) 2) (bitOf flags 1 || bitOf flags 2) 3
  let s := if bitOf flags 3 then s.addSat F.KLN_SKIPS_COUNT else s
  let s := s.logHidden 0xA v conds [St.late] p.pseq
  s.advance 0xA (s.f F.KLN_VIEW_TALLY_OUT v) 1 (some p.ts)

/-- A skipped pass gets its record (R316); without a working Kiln the record is DEGRADED (R332). -/
def State.skipPass (s : State) (p : Pass) : State := (s.dropPass p).viewRecord p.idx p [St.late] (p.flags ||| 8) 0 0

/-- A view's planes are written: every pixel of every tile, in 64 × 64 tiles, plane after plane. -/
def State.writePlanes (s : State) (p : Pass) : State × Nat × Bool :=
  let v := p.idx
  let w := s.f F.KLN_VIEW_GEOM_WIDTH v
  let h := s.f F.KLN_VIEW_GEOM_HEIGHT v
  let max := (s.passLimits p).1
  let tx64 := ceilDiv w 64
  let base := s.viewSlot v + 4096
  let widths := s.planeWidths v
  let offs := (List.range widths.length).map (fun k => sumN ((widths.take k).map (fun x => x * 4096 * s.viewTiles v)))
  (List.range (ceilDiv h 16)).foldl (fun (a : State × Nat × Bool) ty =>
    (List.range (ceilDiv w 16)).foldl (fun (a : State × Nat × Bool) tx =>
      let t := tileList p.proj tx ty max
      (List.range 256).foldl (fun (a : State × Nat × Bool) k =>
        let x := 16 * tx + k % 16
        let y := 16 * ty + k / 16
        if w ≤ x ∨ h ≤ y then a
        else
          let b := pixelOf t.1 x y
          let px := s.viewPixel v b
          -- the last column and line are repeated into the pad (R93)
          let run := fun (c n : Nat) => if c + 1 = n then (List.range (ceilDiv n 64 * 64 - c)).map (c + ·) else [c]
          let places := (run y h).flatMap (fun y => (run x w).map (fun x => (x, y)))
          let s' := places.foldl (fun (s' : State) at' => (List.range widths.length).foldl (fun (s' : State) k =>
            let wd := nth 0 widths k
            let tile := at'.2 / 64 * tx64 + at'.1 / 64
            s'.wrList (base + nth 0 offs k + tile * 4096 * wd + (at'.2 % 64 * 64 + at'.1 % 64) * wd) (nth [] px k)) s') a.1
          (s', a.2.1 + b.n, a.2.2)) (a.1, a.2.1, a.2.2 || t.2)) a) (s, 0, false)

/-- The blends of a pass that publishes no planes. -/
def State.countBlends (s : State) (p : Pass) : Nat :=
  let sz := s.passSize p
  sumN ((List.range (ceilDiv sz.2 16)).map (fun ty => sumN ((List.range (ceilDiv sz.1 16)).map (fun tx =>
    let t := tileList p.proj tx ty (2 ^ 32)
    sumN ((List.range 256).map (fun k =>
      let x := 16 * tx + k % 16
      let y := 16 * ty + k / 16
      if sz.1 ≤ x ∨ sz.2 ≤ y then 0 else (pixelOf t.1 x y).n))))))

/-- A refinement record (Table 11-4) is written, and the map's output Tally advances. -/
def State.refRecord (s : State) (m : Nat) (j : RefJob) (st : Nat) : State :=
  let x := s.kmap m
  let bytes := leBytes 4 j.kf ++ leBytes 1 j.ses ++ leBytes 1 m ++ leBytes 1 st ++ leBytes 1 j.iters ++ tsBytes j.ts ++ leBytes 4 j.flags
    ++ leBytes 4 (s.f F.KLN_MAP_EPOCH_EPOCH m) ++ leBytes 4 j.pixels ++ leBytes 4 j.loss0 ++ leBytes 4 j.loss ++ leBytes 4 j.updated
    ++ leBytes 4 j.added ++ leBytes 4 j.pruned ++ zeroBytes 12
  let a := s.pair R.KLN_MAP_OUT_LO R.KLN_MAP_OUT_HI m + 64 * (x.recs % 64)
  let s := (s.wrList a bytes).publish 5 m true bytes a
  let s := (s.setKmap m { x with recs := x.recs + 1 }).setF F.KLN_MAP_LOSS_LOSS j.loss m
  let s := if bitOf j.flags 0 then (s.addSat F.KLN_SKIPS_COUNT).event 0xA 1 m 0 st j.kf else s
  let s := if st = St.late then s.event 0xA 0 m 0 st j.kf else s
  s.advance 0xA (s.f F.KLN_MAP_TALLY_OUT m) 1 (some j.ts)

/-- A reloc record (R329) is written, the answer to request `req`, and the reloc output Tally advances. -/
def State.relocRecord (s : State) (req st flags epoch : Nat) (o : RelocFit) : State :=
  let k := s.kln.relocDone
  let q := s.relocReq req
  let l := fun (w c : Nat) (v : List Nat) => (List.range c).flatMap (fun i => leBytes w (nth 0 v i))
  let bytes := s.rdList q 8 ++ s.rdList (q + 48) 1 ++ leBytes 1 st ++ leBytes 1 o.iters ++ leBytes 1 flags ++ leBytes 4 epoch ++ l 8 3 o.pos
    ++ l 4 4 o.q ++ leBytes 4 o.e0 ++ leBytes 4 o.e1 ++ leBytes 4 o.pixels ++ l 4 21 o.cov ++ zeroBytes 8
  let s := s.wrList (s.pair R.KLN_RELOC_RING_LO R.KLN_RELOC_RING_HI + 4096 + 160 * (k % 64)) (fitBytes 160 bytes)
  let s : State := { s with kln.relocDone := k + 1 }
  let s := if bitOf flags 0 then s else s.event 0xA 9 0 0 st
  s.advance 0xA (s.f F.KLN_RELOC_TALLY_OUT) 1

/-- A Kiln pass: a view's record has no planes; a refinement job is over; a reloc request gets its record. -/
def State.failPass (s : State) (p : Pass) : State :=
  if p.cls = 1 then ((s.dropPass p).viewRecord p.idx p [St.invalidInput] p.flags 0 0).startPasses 64
  else if p.cls = 0 then ((s.dropPass p).relocRecord p.pseq St.invalidInput (2 * b2n (bitOf p.flags 0)) p.epoch {}).startPasses 64
  else
    let s : State := { s with kln.passes := s.kln.passes.filter (fun q => !(q.cls == 2 && q.map == p.map)) }
    let x := s.kmap p.map
    match x.job with
    | none => s.startPasses 64
    | some j => ((s.setKmap p.map { x with job := none }).refRecord p.map j St.invalidInput).startPasses 64

/-- Whether a block of the map that a pass renders meets a poisoned line. -/
def State.passPoisoned (s : State) (p : Pass) : Bool := (p.resident.filter (s.inView p)).any (fun b => s.poisoned (s.blockAddr p.map b) 65536)

/-- Forward compositing of the pass on a Kiln is complete (R314, R318, R319): a view's planes and record are written; a refinement pass
goes on to its backward pass. -/
def kilnCompositingDone (u : Nat) (s : State) : State :=
  match s.kln.passes.find? (fun p => p.unit == some u && p.stage == 2) with
  | none => s
  | some p =>
    if s.passPoisoned p then (s.poisonTask p.idx).failPass p
    else if p.cls = 1 then
      let r := s.writePlanes p
      let s := r.1.addPair R.KLN_BLENDS_LO R.KLN_BLENDS_HI r.2.1
      let ended : Bool := match p.due with | some d => decide (d < s.now) | none => false
      let flags := p.flags ||| (2 * b2n r.2.2)
      let s := (s.dropPass p).viewRecord p.idx p (condsOf [(St.late, p.late || ended)]) flags p.proj.length r.2.1
      s.startPasses 64
    else
      let s := s.addPair R.KLN_BLENDS_LO R.KLN_BLENDS_HI (s.countBlends p)
      if p.cls = 2 then s.setPass { p with stage := 3 } else s

/-! ## View passes (R316, R317) -/

/-- A view's deadline in nanoseconds: 0 selects the PERIOD of its session. -/
def State.viewDue (s : State) (v : Nat) : Nat :=
  let d := s.f F.KLN_VIEW_DEADLINE_US v
  if d = 0 then
    (match (s.cams (s.f F.KLN_VIEW_CTL_SESSION v)).head? with | some c => s.f F.ING_SNS_PERIOD_NS c.2 | none => 0)
  else 1000 * d

/-- A pose record readies a view's pass (R316): a LOST pose gives a record at once; an older pass not started is skipped; with no
working Kiln the record is DEGRADED (R332). -/
def State.viewPose (s : State) (v : Nat) (e : PoseNote) : State :=
  let div := s.f F.KLN_VIEW_CTL_RATE_DIV v
  let wants := if div = 0 then e.vision else e.seq % div == 0
  if !wants then s
  else
    let p : Pass := { cls := 1, idx := v, map := s.f F.KLN_VIEW_CTL_MAP v, pseq := e.seq, ts := e.ts, pstatus := e.status, pose := e.pose,
                      due := some (e.ts + s.viewDue v), epoch := s.f F.KLN_MAP_EPOCH_EPOCH (s.f F.KLN_VIEW_CTL_MAP v) }
    let s := match s.kln.passes.find? (fun q => q.cls == 1 && q.idx == v && q.stage == 0 && !q.begun) with
      | some q => s.skipPass q
      | none => s
    if e.status = St.lost then s.viewRecord v p [St.invalidInput] 16 0 0
    else if s.kilns.isEmpty then s.viewRecord v p [St.degraded] 0 0 0
    else { s with kln.passes := s.kln.passes ++ [p] }

/-- A view's pass has not started by its deadline (R316): it is skipped, or, where it waits for blocks, renders without them (R317). -/
def viewPassDeadline (v : Nat) (s : State) : State :=
  let due := fun (q : Pass) => match q.due with | some d => decide (d ≤ s.now) | none => false
  match s.kln.passes.find? (fun q => q.cls == 1 && q.idx == v && q.stage == 0 && !q.late && due q) with
  | none => s
  | some p => if p.begun then (s.setPass { p with waits := [], late := true }).startPasses 64 else (s.skipPass p).startPasses 64

/-! ## Refinement (R320–R326) -/

/-- A keyframe of a bound session queues a job; the oldest of four queued is skipped (R320, R332). -/
def State.queueJob (s : State) (m : Nat) (j : RefJob) : State :=
  let x := s.kmap m
  let short := decide (s.workingOf 0xB < activeOf s.otp.part 0xB)
  if s.kilns.isEmpty then s.refRecord m j St.degraded
  else
    match x.queue with
    | a :: rest =>
      if 4 ≤ x.queue.length then
        let s := s.setKmap m { x with queue := rest ++ [j] }
        s.refRecord m { a with flags := a.flags ||| 1 } (if short then St.degraded else St.late)
      else s.setKmap m { x with queue := x.queue ++ [j] }
    | [] => s.setKmap m { x with queue := [j] }

/-- The keyframes in the values area of the WINDOW record at `a` (R302), from the record's own fields: 64 bytes for each keyframe, 16 for each of the
other variables, 112 besides. -/
def State.windowKfs (s : State) (a : Nat) : Nat := (s.rdNum (a + 88) 4 - 112 - 16 * s.rdNum (a + 72) 4) / 48

/-- The latest record of a session's WINDOW problem that its Tally covers (R19): status, key, and whether it holds a keyframe. -/
def State.windowHas (s : State) (n kf : Nat) : Option (Nat × Nat × Bool) :=
  match s.sesProb 0 n with
  | none => some (St.late, kf, false)
  | some p =>
    let seq := s.tv (s.f F.KTL_PROB_TALLY_OUT p)
    if seq = 0 then none
    else
      let a := s.ktlSlot p seq
      let out := s.rdNum (a + 80) 8
      let has := (List.range (s.windowKfs a)).any (fun k => s.rdNum (out + 64 * k) 4 == kf)
      some (s.rdNum (a + 2) 1, s.rdNum (a + 96) 8, has)

/-- The address of a keyframe's record (Table 9-8), and the frame of a camera slot that it names. -/
def State.kfAddr (s : State) (n kf : Nat) : Nat := (s.sesParam n).kfBase + 128 * (kf % Nat.max 1 (s.sesParam n).kfSlots)
def State.kfFrame (s : State) (n kf slot : Nat) : Nat := s.rdNum (s.kfAddr n kf + 80 + 4 * slot) 4

/-- The position and orientation of a keyframe: from the WINDOW record that its Tally covers, or, where that does not serve, from the
keyframe's own record (R320). -/
def State.kfPose (s : State) (n kf : Nat) (window : Bool) : List Byte :=
  let own := s.rdList (s.kfAddr n kf + 24) 40
  match s.sesProb 0 n with
  | none => own
  | some p =>
    let a := s.ktlSlot p (s.tv (s.f F.KTL_PROB_TALLY_OUT p))
    let out := s.rdNum (a + 80) 8
    match (List.range (s.windowKfs a)).find? (fun k => s.rdNum (out + 64 * k) 4 == kf) with
    | some k => if window then s.rdList (out + 64 * k + 8) 40 else own
    | none => own

/-- The passes of a job's next iteration: one per camera slot of its session. -/
def State.iterate (s : State) (m : Nat) (j : RefJob) : State :=
  let cams := s.cams j.ses
  let s := s.setKmap m { s.kmap m with job := some { j with left := cams.map (·.1), recs := [], seeds := [], seen := [], pixels := 0, lossIt := 0 } }
  let ps := cams.map (fun c => ({ cls := 2, idx := m, map := m, cam := c.2, pseq := j.iters, pose := j.pose, ts := j.ts } : Pass))
  { s with kln.passes := s.kln.passes ++ ps }

/-- The pair that gives a camera its depth plane. -/
def State.depthPair (s : State) (cam : Nat) : Option Nat :=
  (List.range 16).find? (fun q => s.fb F.MILL_SGM_CTL_ENABLE q && s.fb F.MILL_SGM_CTL_DEPTH_EN q && s.sgmL q == cam)

/-- Whether the Tallies cover what a map's job reads of a keyframe besides (R19): the SGM depth of its cameras, and the output of SEG_INS for the frame of
camera slot 0 (DEDUCED, log entry 97). -/
def State.planesHere (s : State) (m n kf : Nat) : Bool :=
  let i := s.f F.KLN_MAP_CTL_SEG_INS m
  (s.cams n).all (fun c => match s.depthPair c.2 with | some q => s.sgmOver q (s.kfFrame n kf c.1) | none => true)
    && (!s.fb F.KLN_MAP_CTL_SEG_EN m || !s.insOn i
      || decide ((s.kfFrame n kf 0 + 1) * s.snsBands (s.insSensor i) ≤ s.tv (s.f F.TNS_INS_TALLY_OUT i)))

/-- A queued job starts once its waits are satisfied (R320, R19); with every band of every camera invalid it is over at once (R326). -/
def State.startJob (s : State) (m : Nat) : State :=
  let x := s.kmap m
  match x.job, x.queue with
  | none, j :: rest =>
    match s.windowHas j.ses j.kf with
    | none => s
    | some r =>
      if r.2.1 < j.kf || !s.planesHere m j.ses j.kf then s
      else
        let cams := s.cams j.ses
        let src := fun (c : Nat × Nat) => s.src c.2 (s.kfFrame j.ses j.kf c.1)
        let none' := cams.all (fun c => match src c with | some f => f.absent || f.valid == 0 | none => true)
        let some' := cams.any (fun c => match src c with | some f => f.absent || f.valid != 2 ^ s.snsBands c.2 - 1 | none => true)
        let window := r.1 != St.late && r.2.2
        let j : RefJob := { j with flags := j.flags ||| (2 * b2n some') ||| (4 * b2n (!window)), pose := s.kfPose j.ses j.kf window }
        let s := s.setKmap m { x with queue := rest }
        if none' then s.refRecord m j St.invalidInput else s.iterate m j
  | _, _ => s

/-! ### The loss and the backward pass (R321, R322) -/

/-- The camera slot of a job's pass. -/
def State.slotOf (s : State) (j : RefJob) (p : Pass) : Nat := ((s.cams j.ses).find? (fun c => c.2 == p.cam)).elim 0 (·.1)

/-- The frame of a pass's camera that its keyframe names. -/
def State.jobFrame (s : State) (j : RefJob) (p : Pass) : Nat := s.kfFrame j.ses j.kf (s.slotOf j p)

/-- The SGM depth (FP16) of a pair at a pixel of its own level in frame k: none where the frame has no planes, the place lies outside, or the
depth is coded or infinite (R321, R156). -/
def State.sgmDepth (s : State) (q k x y : Nat) : Option Nat :=
  let a := s.sgmSlot q k
  let flags := s.rdNum (a + 20) 4
  let d := s.rdNum (a + 4096 + s.sgmTiles q * 12288 + 2 * tilePx (s.sgmW q) x y) 2
  if bitOf flags 0 || bitOf flags 2 || bitOf flags 3 || decide (s.sgmW q ≤ x) || decide (s.sgmH q ≤ y) || fp16.special d then none else some d


/-- Whether a sensor stores a YCbCr or RGB C plane. -/
def State.colourPlane (s : State) (n : Nat) : Bool := s.fb F.ING_SNS_FMT_KEEP_C n && decide (5 ≤ s.f F.ING_SNS_FMT_CFA n)

/-- A sample of a 16-bit plane, divided by 65,535. -/
def unitOf (v : Nat) : Fv := Fv.ofRat (v : Nat) 65535

/-- The rectified Y, Cb and Cr of a level-0 pixel of a camera; the chroma of a sensor without a colour plane is its centre (log entry 89). -/
def State.colourAt (s : State) (n k l x y : Nat) : List Fv :=
  let c := fun (i : Nat) => if s.colourPlane n then (s.rectPixel n (s.ingestC n k i) (x * 2 ^ l) (y * 2 ^ l)).1 else 32768
  [unitOf ((s.levelImg n k l).v x y), unitOf (c 0), unitOf (c 1)]

/-- The loss of a pixel and its derivatives (R321); none where its mask bit is 0. -/
def State.pxLoss (s : State) (p : Pass) (j : RefJob) (b : Blend) (x y : Nat) : Option PxGrad :=
  let l := s.passLevel p
  let k := s.jobFrame j p
  if !(s.levelImg p.cam k l).ok x y then none
  else
    let ref := s.colourAt p.cam k l x y
    let got := [fp32.dec b.c.1, fp32.dec b.c.2.1, fp32.dec b.c.2.2]
    let diff := fun (i : Nat) => if i = 0 ∨ (l = 0 ∧ s.colourPlane p.cam) then (nth .nan got i).add (nth .nan ref i).neg else Fv.ofInt 0
    let w := fp16.dec (s.f F.KLN_MAP_LR_C_DEPTH_W p.map)
    let a := fp32.dec b.opacity
    let depth := (s.depthPair p.cam).bind (fun q =>
      if s.fb F.KLN_MAP_CTL_DEPTH_LOSS p.map && s.f F.MILL_SGM_CTL_LEVEL q == l && b.deep then s.sgmDepth q k x y else none)
    let colour := (((diff 0).mag.add (diff 1).mag).add (diff 2).mag)
    let gc := (List.range 3).map (fun i => (diff i).sgn)
    match depth with
    | none => some { loss := colour, c := gc, z := Fv.ofInt 0, t := Fv.ofInt 0 }
    | some d =>
      let z := fp16.dec d
      let zsum := fp32.dec b.z
      let e := (zsum.div a).add z.neg
      let g := w.mul (e.sgn.div z)
      some { loss := colour.add (w.mul (e.mag.div z)), c := gc, z := g.div a, t := g.mul (zsum.div (a.mul a)) }

/-- The pixels of a 16 × 16 tile inside an image, in raster order. -/
def tilePixels (w h tx ty : Nat) : List (Nat × Nat) :=
  ((List.range 256).map (fun k => (16 * tx + k % 16, 16 * ty + k / 16))).filter (fun q => decide (q.1 < w) && decide (q.2 < h))

/-- The 16 × 16 tiles of an image, by number: row after row. -/
def tilesOf (w h : Nat) : List (Nat × Nat) := (List.range (ceilDiv h 16)).flatMap (fun ty => (List.range (ceilDiv w 16)).map (fun tx => (tx, ty)))

/-- The valid pixels of a pass with their losses. -/
def State.passLoss (s : State) (p : Pass) (j : RefJob) : List Fv :=
  let sz := s.passSize p
  (tilesOf sz.1 sz.2).flatMap (fun t =>
    let l := (tileList p.proj t.1 t.2 (s.passLimits p).1).1
    (tilePixels sz.1 sz.2 t.1 t.2).filterMap (fun q => (s.pxLoss p j (pixelOf l q.1 q.2) q.1 q.2).map (·.loss)))

/-- The gradient records of a pass over `n` valid pixels: one for each primitive of each tile's list (R322). -/
def State.gradRecords (s : State) (p : Pass) (j : RefJob) (n : Nat) : List (List Byte) :=
  let sz := s.passSize p
  let per := Fv.ofRat 1 (Nat.max 1 n)
  (tilesOf sz.1 sz.2).flatMap (fun t =>
    let l := (tileList p.proj t.1 t.2 (s.passLimits p).1).1
    let px := (tilePixels sz.1 sz.2 t.1 t.2).filterMap (fun q =>
      let b := pixelOf l q.1 q.2
      (s.pxLoss p j b q.1 q.2).map (fun g => b.back l (g.scale per) q.1 q.2))
    (tileGrads l px).map (fun e => gradRecord e.1 (t.2 * ceilDiv sz.1 16 + t.1) (s.slotOf j p) e.2))

/-- The class of a pixel in the output of SEG_INS (R325); 0 where the instance is not enabled. -/
def State.segClass (s : State) (m k l x y : Nat) : Nat :=
  let i := s.f F.KLN_MAP_CTL_SEG_INS m
  if !s.fb F.KLN_MAP_CTL_SEG_EN m || !s.insOn i then 0
  else
    let st := Nat.max 1 (s.netOf i).stride
    let x0 := x * 2 ^ l
    let y0 := y * 2 ^ l
    let row := y0 / st - (s.bandRows i (y0 / 64)).1
    s.rdNum (s.bandArea i k (y0 / 64) + (row * ceilDiv (s.jobW (s.insSensor i) 0) st + x0 / st) * (s.netOf i).pixel) 1 % 16

/-- The points that seeding finds in a render of camera slot 0 (R325, step 4). -/
def State.seedsOf (s : State) (p : Pass) (j : RefJob) : List Seed :=
  if s.slotOf j p ≠ 0 then []
  else
    let sz := s.passSize p
    let l := s.passLevel p
    let k := s.jobFrame j p
    let st := Nat.max 1 (s.f F.KLN_MAP_SEED_SEED_STRIDE p.map)
    let fx := fp64.dec (ttNum (s.ttEntry (s.camEntry p.cam)) 80 8)
    let grid := (List.range (ceilDiv sz.2 st)).flatMap (fun y => (List.range (ceilDiv sz.1 st)).map (fun x => (st * x, st * y)))
    grid.filterMap (fun q =>
      let b := pixelOf (tileList p.proj (q.1 / 16) (q.2 / 16) (s.passLimits p).1).1 q.1 q.2
      let depth := (s.depthPair p.cam).bind (fun g =>
        let lv := 2 ^ s.f F.MILL_SGM_CTL_LEVEL g
        s.sgmDepth g k (q.1 * 2 ^ l / lv) (q.2 * 2 ^ l / lv))
      match depth with
      | none => none
      | some d =>
        if !(fp32.dec b.opacity).lt (Fv.ofRat (s.f F.KLN_MAP_SEED_SEED_ALPHA p.map : Nat) 256) then none
        else
          let z := fp16.conv fp32 d
          let m := (s.viewGeo p).backProject q.1 q.2 z
          let c := (s.colourAt p.cam k l q.1 q.2).map fp32.enc
          let size := ((fp32.dec z).mul (Fv.ofRat ((st * 2 ^ l : Nat) : Int) 2)).div fx
          some { mean := (nth 0 m 0, nth 0 m 1, nth 0 m 2), colour := (nth 0 c 0, nth 0 c 1, nth 0 c 2), opacity := lnRat32 1 9,
                 scale := (match size with | .fin _ n e => lnRat32 n e | _ => fp32.nan), layer := s.segClass p.map k l q.1 q.2 })

/-- The backward pass of the refinement pass on a Kiln is complete (R322): its gradient records join the iteration's; the loss of the view is
the mean over its valid pixels (R321). -/
def kilnBackwardDone (u : Nat) (s : State) : State :=
  match s.kln.passes.find? (fun p => p.unit == some u && p.stage == 3) with
  | none => s
  | some p =>
    let x := s.kmap p.map
    match x.job with
    | none => s.dropPass p
    | some j =>
      let l := s.passLoss p j
      let mean := fp32.enc ((l.foldl Fv.add (Fv.ofInt 0)).div (Fv.ofInt (Nat.max 1 l.length : Nat)))
      let j : RefJob := { j with left := j.left.filter (· != s.slotOf j p), recs := j.recs ++ s.gradRecords p j l.length,
                                 seeds := j.seeds ++ s.seedsOf p j, pixels := j.pixels + l.length, lossIt := fp32.add j.lossIt mean }
      ((s.dropPass p).setKmap p.map { x with job := some j }).startPasses 64

/-! ### The update (R323) -/

/-- A parameter is stored (R162). -/
def State.setParam (s : State) (m i k v : Nat) : State :=
  let a := s.primAddr m i
  let h := fun (o : Nat) => s.wrNum (a + o) 2 ((formOf 13).conv (fp32.dec v)).code
  if k < 3 then s.wrNum (a + 4 * k) 4 ((formOf 14).conv (fp32.dec v)).code else if k = 3 then h 12 else if k < 8 then h (16 + 2 * (k - 4))
  else if k < 11 then h (24 + 2 * (k - 8)) else h (32 + 2 * (k - 11))

/-- The group of a parameter: position, opacity, rotation, scale, colour. -/
def groupOfParam (k : Nat) : Nat := if k < 3 then 0 else if k = 3 then 1 else if k < 8 then 2 else if k < 11 then 3 else 4

/-- The learning rate of a group, as FP32. -/
def State.rateOf (s : State) (m k : Nat) : Nat :=
  fp16.conv fp32 (match k with
    | 0 => s.f F.KLN_MAP_LR_A_LR_POS m
    | 1 => s.f F.KLN_MAP_LR_B_LR_OPACITY m
    | 2 => s.f F.KLN_MAP_LR_A_LR_ROT m
    | 3 => s.f F.KLN_MAP_LR_B_LR_SCALE m
    | _ => s.f F.KLN_MAP_LR_C_LR_COLOUR m)

/-- What the update makes of a primitive: parameters, first and second moments. -/
structure Updated where
  p : List Nat
  m : List Nat
  v : List Nat

/-- The update of R323 in FP32, before rounding into storage. -/
def State.updateOf (s : State) (m i : Nat) (g : List Nat) : Updated :=
  let a := s.primState m i
  let q := fun (n d : Nat) => fp32.ofRat (n : Nat) d
  let one := fp32.ofInt 1
  let steps := s.rdNum (a + 60) 2 + 1
  let ms := (List.range 23).map (fun k =>
    fp32.add (fp32.mul (q 9 10) (fp16.conv fp32 (s.rdNum (a + 2 * k) 2))) (fp32.mul (q 1 10) (nth 0 g k)))
  let vs := (List.range 5).map (fun n =>
    let mem := (List.range 23).filter (fun k => groupOfParam k == n)
    let sum := mem.foldl (fun acc k => fp32.add acc (fp32.mul (nth 0 g k) (nth 0 g k))) 0
    fp32.add (fp32.mul (q 999 1000) (bf16.conv fp32 (s.rdNum (a + 46 + 2 * n) 2)))
      (fp32.mul (q 1 1000) (fp32.div sum (fp32.ofInt (mem.length : Nat)))))
  let b1 := fp32.sub one (pow32 (q 9 10) steps)
  let b2 := fp32.sub one (pow32 (q 999 1000) steps)
  let ps := (List.range 23).map (fun k =>
    let n := groupOfParam k
    let den := fp32.add (fp32.sqrt (fp32.dec (fp32.div (nth 0 vs n) b2))) (q 1 100000000)
    fp32.sub (s.param m i k) (fp32.div (fp32.mul (s.rateOf m n) (fp32.div (nth 0 ms k) b1)) den))
  -- q is renormalised, log-scale clamped
  let nq := fp32.sqrt (((List.range 4).foldl (fun (acc : Fv) k => acc.add (let e := fp32.dec (nth 0 ps (4 + k)); e.mul e)) (Fv.ofInt 0)))
  let lo := lnRat32 5 10000
  let hi := lnRat32 (s.f F.KLN_MAP_SCALE_PRUNE_MM m) 1000
  let fix := fun (k v : Nat) =>
    if 4 ≤ k ∧ k < 8 then fp32.div v nq
    else if 8 ≤ k ∧ k < 11 then (if fp32.lt v lo then lo else if fp32.lt hi v then hi else v) else v
  { p := (List.range 23).map (fun k => fix k (nth 0 ps k)), m := ms, v := vs }

/-- One primitive's update: applied, refused as not finite, or left alone where FROZEN or not resident. -/
def State.applyGrad (s : State) (m epoch : Nat) (g : Grad) : State × Nat × Bool :=
  let i := g.prim
  if !s.primValid m i || s.primFrozen m i || tget 0 (s.kmap m).resident (i / 1024) = 0 then (s, 0, false)
  else
    let u := s.updateOf m i g.g
    if g.g.any fp32.special || fp32.special g.dmean || u.p.any fp32.special || u.m.any fp32.special || u.v.any fp32.special then
      (s.addSat F.KLN_NAN_COUNT, 0, true)
    else
      let a := s.primState m i
      let s := (List.range 23).foldl (fun s k => s.setParam m i k (nth 0 u.p k)) s
      let s := (List.range 23).foldl (fun s k => s.wrNum (a + 2 * k) 2 ((formOf 13).conv (fp32.dec (nth 0 u.m k))).code) s
      let s := (List.range 5).foldl (fun s k => s.wrNum (a + 46 + 2 * k) 2 ((formOf 12).conv (fp32.dec (nth 0 u.v k))).code) s
      let s := s.wrNum (a + 56) 4 (fp32.add (s.rdNum (a + 56) 4) g.dmean)
      let s := (s.wrNum (a + 60) 2 (satU 16 (s.rdNum (a + 60) 2 + 1))).wrNum (a + 62) 2 (satU 16 (s.rdNum (a + 62) 2 + 1))
      (s.wrNum (s.primAddr m i + 56) 4 epoch, 1, false)

/-! ### Densification (R325) -/

/-- What densification counts. -/
structure DensCount where
  added : Nat := 0
  pruned : Nat := 0
  seeded : Nat := 0
  cellFull : Nat := 0
  mapFull : Nat := 0

/-- A free slot of a block. -/
def State.freeSlot (s : State) (m b : Nat) : Option Nat := (List.range 1024).find? (fun i => !s.primValid m (1024 * b + i))

/-- A primitive record is stored in the block of its mean's cell: a full block refuses it (1), so does a full map (2). -/
def State.createPrim (s : State) (m epoch : Nat) (bytes : List Byte) : State × Nat :=
  let c := s.cellOf m (leValue (bytes.take 4), leValue ((bytes.drop 4).take 4), leValue ((bytes.drop 8).take 4))
  let put := fun (s : State) (b i : Nat) =>
    let s := s.wrList (s.primAddr m (1024 * b + i)) (bytes.take 56 ++ leBytes 4 epoch ++ bytes.drop 60)
    (s.wrList (s.primState m (1024 * b + i)) (zeroBytes 64)).touchBlock m b epoch
  match (s.usedBlocks m).find? (fun b => s.blockCell m b == c) with
  | some b => match s.freeSlot m b with
    | some i => (put s b i, 0)
    | none => (s, 1)
  | none =>
    match (List.range (s.mapBlocks m)).find? (fun b => !s.blockUsed m b) with
    | none => (s, 2)
    | some b =>
      let x := s.kmap m
      let free := (List.range (s.f F.KLN_MAP_SIZE_ACTIVE_BLOCKS m)).find? (fun f => !x.resident.any (fun e => e.2 == f + 1))
      let s := match free with
        | some f => s.setKmap m { x with resident := tput 0 x.resident b (f + 1) }
        | none => s
      let d := s.descAddr m b
      let s := s.wrList d (leBytes 2 (uns 16 c.1) ++ leBytes 2 (uns 16 c.2.1) ++ leBytes 2 (uns 16 c.2.2) ++ leBytes 2 0 ++ leBytes 4 epoch
        ++ leBytes 2 1 ++ leBytes 2 0)
      let s := s.wrList (s.blockAddr m b) (zeroBytes 65536)
      (put s b 0, 0)

/-- A creation with its counts. -/
def State.countCreate (s : State) (d : DensCount) (m epoch : Nat) (bytes : List Byte) : State × DensCount :=
  let r := s.createPrim m epoch bytes
  match r.2 with
  | 0 => (r.1, { d with added := d.added + 1 })
  | 1 => (r.1.addSat F.KLN_MAP_COUNTS_CELL_FULL 1 m, { d with cellFull := d.cellFull + 1 })
  | _ => (r.1.addSat F.KLN_MAP_COUNTS_MAP_FULL 1 m, { d with mapFull := d.mapFull + 1 })

/-- A primitive is freed. -/
def State.freePrim (s : State) (m epoch i : Nat) : State :=
  (s.wrNum (s.primAddr m i + 15) 1 0).touchBlock m (i / 1024) epoch

/-- The VALID primitives of resident blocks. -/
def State.livePrims (s : State) (m : Nat) : List Nat :=
  (s.residents m).flatMap (fun b => ((List.range 1024).map (1024 * b + ·)).filter (s.primValid m))

/-- The largest scale of a primitive, in metres (FP32). -/
def State.maxScale (s : State) (m i : Nat) : Nat :=
  let l := (List.range 3).map (fun k => s.param m i (8 + k))
  exp32 (l.foldl (fun a b => if fp32.lt a b then b else a) (nth 0 l 0))

/-- Clone or split (R325, step 2). -/
def State.densify (s : State) (d : DensCount) (m epoch : Nat) (i : Nat) : State × DensCount :=
  let a := s.primState m i
  let cnt := s.rdNum (a + 62) 2
  let thr := fp16.conv fp32 (s.f F.KLN_MAP_DENSIFY_GRAD_THR m)
  if cnt = 0 ∨ fp32.lt (fp32.div (s.rdNum (a + 56) 4) (fp32.ofInt (cnt : Nat))) thr then (s, d)
  else
    let body := s.rdList (s.primAddr m i) 64
    let mean := (List.range 3).map (fun k => s.rdNum (s.primAddr m i + 4 * k) 4)
    if !(fp32.lt (fp32.ofRat (s.f F.KLN_MAP_SCALE_SPLIT_MM m : Nat) 1000) (s.maxScale m i)) then
      let lr := s.rateOf m 0
      let at' := (List.range 3).map (fun k => fp32.sub (nth 0 mean k) (fp32.mul lr (fp16.conv fp32 (s.rdNum (a + 2 * k) 2))))
      s.countCreate d m epoch (at'.flatMap (leBytes 4) ++ body.drop 12)
    else
      let off := splitOffset (s.params m i)
      let sc := (List.range 3).map (fun k => ((formOf 13).conv (fp32.dec (fp32.sub (s.param m i (8 + k)) (lnRat32 16 10)))).code)
      let rest := (body.drop 12).take 12 ++ sc.flatMap (leBytes 2) ++ body.drop 30
      let one := (List.range 3).flatMap (fun k => leBytes 4 (fp32.add (nth 0 mean k) (nth 0 off k))) ++ rest
      let two := (List.range 3).flatMap (fun k => leBytes 4 (fp32.sub (nth 0 mean k) (nth 0 off k))) ++ rest
      let s := (s.wrList (s.primAddr m i) one).wrNum (s.primAddr m i + 56) 4 epoch
      (s.wrList a (zeroBytes 64)).countCreate d m epoch two

/-- A primitive whose mean has left its cell moves to the block of its new cell (step 3). -/
def State.movePrim (s : State) (m epoch i : Nat) : State :=
  let a := s.primAddr m i
  if s.cellOf m (s.rdNum a 4, s.rdNum (a + 4) 4, s.rdNum (a + 8) 4) = s.blockCell m (i / 1024) then s
  else
    let st := s.rdList (s.primState m i) 64
    let r := s.createPrim m epoch (s.rdList a 64)
    if r.2 = 0 then
      let before := s.livePrims m
      let dest := ((r.1.livePrims m).find? (fun j => !before.contains j)).getD i
      (r.1.wrList (r.1.primState m dest) st).freePrim m epoch i
    else s

/-- The record of a seed (step 4): isotropic, VALID. -/
def seedBytes (e : Seed) : List Byte :=
  let h := fun (v : Nat) => leBytes 2 ((formOf 13).conv (fp32.dec v)).code
  let k := fun (v : Nat) => h v ++ zeroBytes 6
  leBytes 4 e.mean.1 ++ leBytes 4 e.mean.2.1 ++ leBytes 4 e.mean.2.2 ++ h e.opacity ++ leBytes 1 (e.layer % 16) ++ leBytes 1 1
    ++ h (fp32.ofInt 1) ++ zeroBytes 6 ++ h e.scale ++ h e.scale ++ h e.scale ++ leBytes 2 0
    ++ k e.colour.1 ++ k e.colour.2.1 ++ k e.colour.2.2 ++ zeroBytes 8

/-- Densification and pruning of a map, in the order of R325; `room` primitives may still be seeded for the keyframe. -/
def State.densifyMap (s : State) (m epoch room : Nat) (seeds : List Seed) : State × DensCount :=
  let live := s.livePrims m
  let pruneA := fp32.ofRat (s.f F.KLN_MAP_DENSIFY_PRUNE_ALPHA m : Nat) 256
  let pruneS := fp32.ofRat (s.f F.KLN_MAP_SCALE_PRUNE_MM m : Nat) 1000
  let gone := live.filter (fun i => fp32.lt (sigmoid32 (s.param m i 3)) pruneA || fp32.lt pruneS (s.maxScale m i))
  let s := gone.foldl (fun s i => s.freePrim m epoch i) s
  let d := (s.livePrims m).foldl (fun (d : State × DensCount) i => d.1.densify d.2 m epoch i) (s, { pruned := gone.length })
  let s := (d.1.livePrims m).foldl (fun s i => s.movePrim m epoch i) d.1
  let before := d.2.added
  let d := seeds.foldl (fun (d : State × DensCount) e =>
    if room ≤ d.2.added - before then d else d.1.countCreate d.2 m epoch (seedBytes e)) (s, d.2)
  let d : State × DensCount := (d.1, { d.2 with seeded := d.2.added - before })
  let all := (d.1.usedBlocks m).flatMap (fun b => ((List.range 1024).map (1024 * b + ·)).filter (d.1.primValid m))
  (all.foldl (fun s i =>
    let a := s.primState m i
    (s.wrNum (a + 56) 4 0).wrNum (a + 62) 2 0) d.1, d.2)

/-- The reduced gradient of a primitive (R322), carried back to its parameters through the projection of each view (R323). -/
def State.carry (s : State) (m : Nat) (j : RefJob) (prim : Nat) : Grad :=
  let l := gradsOf j.recs prim
  let views := (l.map gradView).eraseDups
  let cam := fun (v : Nat) => ((s.cams j.ses).find? (fun c => c.1 == v)).elim 0 (·.2)
  let sum := views.foldl (fun a v =>
    vAdd a ((s.viewGeo { cls := 2, idx := m, map := m, cam := cam v, pose := j.pose, ts := j.ts }).carry (s.params m prim)
      (sumGrads (l.filter (fun r => gradView r == v))))) (vZero 23)
  { prim := prim, g := sum.map fp32.eval, dmean := meanNorm l }

/-- The reduced gradients of an iteration: one for each primitive that has a record, in the order of the indices. -/
def State.reduced (s : State) (m : Nat) (j : RefJob) : List Grad :=
  (sortBy (fun (a b : Nat) => decide (a < b)) (j.recs.map gradPrim).eraseDups).map (s.carry m j)

/-- The gradients of an iteration are applied (R323): how many updates, whether one was not finite, the blocks touched. -/
def State.applyGrads (s : State) (m epoch : Nat) (grads : List Grad) : State × Nat × Bool × List Nat :=
  grads.foldl (fun (a : State × Nat × Bool × List Nat) g =>
    let q := a.1.applyGrad m epoch g
    (q.1, a.2.1 + q.2.1, a.2.2.1 || q.2.2, if q.2.1 = 1 then g.prim / 1024 :: a.2.2.2 else a.2.2.2)) (s, 0, false, [])

/-- The primitives seen in an iteration are counted, and the blocks updated take the epoch (R324). -/
def State.markSeen (s : State) (m epoch : Nat) (seen blocks : List Nat) : State :=
  let s := seen.foldl (fun s i => let a := s.primAddr m i + 60; s.wrNum a 2 (satU 16 (s.rdNum a 2 + 1))) s
  blocks.foldl (fun s b => s.touchBlock m b epoch) s

/-- The job and the map after a commit: a block freed at it holds no frame. -/
def State.afterCommit (s : State) (m : Nat) (j : RefJob) : State :=
  let y := s.kmap m
  s.setKmap m { y with commits := y.commits + 1, job := some j, resident := y.resident.filter (fun e => s.blockUsed m e.1) }

/-- The epoch and its Tally advance, and the next iteration begins (R324). -/
def State.advanceEpoch (s : State) (m epoch : Nat) (j : RefJob) : State :=
  let s := (s.setF F.KLN_MAP_EPOCH_EPOCH epoch m).syncMap m
  let s := s.advance 0xA (s.f F.KLN_MAP_TALLY_EPOCH m) 1
  if j.iters < s.f F.KLN_MAP_CTL_REFINE_ITERS m then (s.iterate m j).startPasses 64 else s

/-- A job's flags and counts after a commit: `r` the updates, `dens` whether it densified, with the counts `d`. -/
def RefJob.commit (j : RefJob) (r : Nat × Bool) (dens : Bool) (d : DensCount) : RefJob :=
  { j with iters := j.iters + 1,
           flags := j.flags ||| (16 * b2n r.2) ||| (32 * b2n dens) ||| (64 * b2n (decide (0 < d.cellFull))) ||| (128 * b2n (decide (0 < d.mapFull))),
           loss0 := if j.iters = 0 then j.lossIt else j.loss0, loss := j.lossIt,
           updated := j.updated + r.1, added := j.added + d.added, seeded := j.seeded + d.seeded, pruned := j.pruned + d.pruned }

/-- An iteration's updates are committed (R324): once no projection of the map is in progress; then the epoch and its Tally advance. -/
def kilnCommit (m : Nat) (s : State) : State :=
  let x := s.kmap m
  match x.job with
  | none => s
  | some j =>
    if !s.kmapOn m || !j.left.isEmpty || s.kln.passes.any (fun p => p.map == m && p.stage == 1)
        || decide (s.f F.KLN_MAP_CTL_REFINE_ITERS m ≤ j.iters) then s
    else
      let epoch := (s.f F.KLN_MAP_EPOCH_EPOCH m + 1) % 2 ^ 32
      let r := s.applyGrads m epoch (s.reduced m j)
      let s := r.1.markSeen m epoch j.seen r.2.2.2.eraseDups
      let dens := (x.commits + 1) % Nat.max 1 (s.f F.KLN_MAP_CTL_DENSIFY_KF m) == 0
      let d := if dens then s.densifyMap m epoch (s.f F.KLN_MAP_SEED_SEED_MAX m - j.seeded) j.seeds else (s, {})
      let s := ((d.1.eventIf r.2.2.1 0xA 6 m).eventIf (decide (0 < d.2.cellFull)) 0xA 4 m).eventIf (decide (0 < d.2.mapFull)) 0xA 5 m
      let j := j.commit (r.2.1, r.2.2.1) dens d.2
      (s.afterCommit m j).advanceEpoch m epoch j

/-- A job writes its record (R326) once its last iteration is committed; the next queued one may start. -/
def refineJobDone (m : Nat) (s : State) : State :=
  let x := s.kmap m
  match x.job with
  | none => s
  | some j =>
    if j.iters < s.f F.KLN_MAP_CTL_REFINE_ITERS m then s
    else (((s.setKmap m { x with job := none }).refRecord m j St.ok).startJob m).startPasses 64

/-! ## The active set (R327) -/

/-- The squared distance, in units that compare, of a block's cell centre from a position in the map's anchor, against RANGE_M. -/
def State.blockDist (s : State) (m b : Nat) (pos : List Fv) : Fv :=
  let c := s.blockCell m b
  let e : Int := ((s.f F.KLN_MAP_CELL_CELL_CM m : Nat) : Int)
  let d := fun (k : Int) (p : Fv) => ((Fv.ofRat ((2 * k + 1) * e) 200).minus p).sq
  ((d c.1 (vAt pos 0)).plus (d c.2.1 (vAt pos 1))).plus (d c.2.2 (vAt pos 2))

/-- Sessions whose positions make a map's blocks wanted: those that refine it and those of its views. -/
def State.mapSessions (s : State) (m : Nat) : List Nat :=
  let views := ((List.range 16).filter (fun v => s.fb F.KLN_VIEW_CTL_ENABLE v && s.f F.KLN_VIEW_CTL_MAP v == m)).map (fun v => s.f F.KLN_VIEW_CTL_SESSION v)
  (List.range 32).filter (fun n => (bitOf (s.f F.KLN_MAP_SESSIONS_MASK m) n || views.contains n) && s.pair R.FRM_SES_SEQ_LO R.FRM_SES_SEQ_HI n != 0)

/-- A block's least distance from the map's sessions. -/
def State.nearest (s : State) (m b : Nat) : Option Fv :=
  bestBy Fv.lt ((s.mapSessions m).map (fun n =>
    s.blockDist m b ((s.entIn s.now (s.f F.FRM_SES_FRAME_REFERENCE n) (s.f F.KLN_MAP_ANCHOR_ENTRY m)).act ((s.ses n).pose.pos.map fp64.dec))))

/-- The wanted set is recomputed, and loads of wanted blocks that are not resident are issued. -/
def activeSetUpdate (m : Nat) (s : State) : State :=
  if !s.kmapOn m then s
  else
    let r := Fv.ofInt (s.f F.KLN_MAP_CELL_RANGE_M m : Nat)
    let r2 := r.mul r
    let cand := (s.usedBlocks m).filterMap (fun b => match s.nearest m b with
      | some d => if d.le r2 then some (b, d) else none
      | none => none)
    let l := ((sortBy (fun (a b : Nat × Fv) => a.2.lt b.2) cand).map (·.1)).take (s.f F.KLN_MAP_SIZE_ACTIVE_BLOCKS m)
    let x := s.kmap m
    let load := l.filter (fun b => tget 0 x.resident b == 0)
    let s := (s.setKmap m { x with wanted := l, loading := load }).syncMap m
    -- a block that only Cellar holds is demand-filled (R221); one of a SHARED region that lives elsewhere is read from there (R430)
    load.foldl (fun s b =>
      let page := s.blockPage m b / 65536
      if (s.homeOf page).isNone && !s.pageHere page then s.addPoison (1024 * page) 1024 0 0
      else if !s.pageHere page then s.askPage page 1 else if s.cellarOnly page then s.fetchPage page else s) s

/-- Bytes of one page become those of another, poisoned lines with them (R223). -/
def State.copyPage (s : State) (src dst : Nat) : State :=
  let l := (List.range 1024).filter (fun k => (s.poisonOf (src / 64 + k)).isSome)
  l.foldl (fun s k => s.addPoison (dst / 64 + k) 1 0 0) (s.wrList dst (s.rdList src 65536))

/-- A free frame of the active region. -/
def State.freeFrame (s : State) (m : Nat) : Option Nat :=
  (List.range (s.f F.KLN_MAP_SIZE_ACTIVE_BLOCKS m)).find? (fun f => !(s.kmap m).resident.any (fun e => e.2 == f + 1))

/-- A wanted block finishes loading: it is resident where a frame is free, and passes that waited for it go on. -/
def blockLoadDone (m b : Nat) (s : State) : State :=
  let x := s.kmap m
  match s.freeFrame m with
  | none => s
  | some f =>
    let page := s.blockPage m b / 65536
    if !x.loading.contains b || s.cellarOnly page || s.lnk.reads.any (fun e => e.2.2.1 == page) then s
    else
      let s := s.copyPage (s.blockPage m b) (s.mapActive m + 65536 * f)
      let s := s.setKmap m { x with resident := tput 0 x.resident b (f + 1), loading := x.loading.filter (· != b) }
      let ps := s.kln.passes.map (fun (p : Pass) => if p.map = m then ({ p with waits := p.waits.filter (· != b) } : Pass) else p)
      (({ s with kln.passes := ps } : State).syncMap m).startPasses 64

/-- Where room is needed, the furthest resident block that is not wanted is evicted, once no projection of the map is in progress; a
DIRTY block is written back first. -/
def blockEvict (m : Nat) (s : State) : State :=
  let x := s.kmap m
  let idle := x.resident.filter (fun e => !x.wanted.contains e.1)
  let far := fun (a b : Nat × Nat) => match s.nearest m a.1, s.nearest m b.1 with
    | some d, some e => e.lt d
    | none, some _ => true
    | _, _ => false
  match bestBy far idle with
  | none => s
  | some e =>
    if x.loading.isEmpty || (s.freeFrame m).isSome || s.kln.passes.any (fun p => p.map == m && p.stage == 1) then s
    else
      let b := e.1
      let d := s.descAddr m b
      let fl := s.rdNum (d + 12) 2
      let s := if bitOf fl 1 then (s.copyPage (s.mapActive m + 65536 * (e.2 - 1)) (s.blockPage m b)).wrNum (d + 12) 2 (fl - 2) else s
      (s.setKmap m { x with resident := tput 0 x.resident b 0 }).syncMap m

/-! ## Render-and-compare (R328, R329) -/

/-- The dense map bound to a session's MAP_ID. -/
def State.sesMap (s : State) (n : Nat) : Option Nat :=
  (List.range 8).find? (fun m => s.kmapOn m && s.f F.KLN_MAP_ID_MAP_ID m == s.f F.FRM_SES_MAP_MAP_ID n)

/-- The pixels that count where the primitives a pass has read are rendered from a pose of the state frame (R328): luma of render and image, and the derivative
through the projected means. -/
def State.lumaPixels (s : State) (p : Pass) (x : Motion) : List LumaPx :=
  let ext := s.camIn (s.passSes p) p.cam p.ts
  let g := { s.viewGeo p with cam := x.comp ext }
  let img := s.levelImg p.cam (s.rdNum (s.relocReq p.pseq + 16) 4) g.level
  let proj := (p.snap.map (fun e => g.project e.1 e.2.1 e.2.2)).filter (fun q => q.finite && q.kept g.w g.h)
  let by' : PxGrad := { loss := Fv.zero, c := [Fv.one, Fv.zero, Fv.zero], z := Fv.zero, t := Fv.zero }
  (tilesOf g.w g.h).flatMap (fun t =>
    let list := (tileList proj t.1 t.2 (s.passLimits p).1).1
    let jac := list.map (fun q => (q.prim, g.meanJac x ext (fp32.dec q.mx) (fp32.dec q.my) (fp32.dec q.z)))
    (tilePixels g.w g.h t.1 t.2).filterMap (fun q =>
      let b := pixelOf list q.1 q.2
      if !img.ok q.1 q.2 || !b.deep then none
      else
        let j := (b.back list by' q.1 q.2).foldl (fun a e =>
          match jac.find? (fun o => o.1 == e.1) with
          | some o => vAdd a (mVec (mTr o.2) (e.2.take 2))
          | none => a) (vZero 6)
        some { got := fp32.dec b.c.1, ref := unitOf (img.v q.1 q.2), j := j }))

/-- Render-and-compare of a request (R328). -/
def State.relocFit (s : State) (p : Pass) : RelocFit := Machine.relocFit (s.lumaPixels p) p.motion (s.f F.KLN_RELOC_REL_ITERS)

/-- Render-and-compare ends (R328, R329, R332). -/
def kilnRelocDone (s : State) : State :=
  match s.kln.passes.find? (fun p => p.cls == 0 && p.unit.isSome && p.stage == 2) with
  | none => s
  | some p =>
    if s.passPoisoned p then (s.poisonTask p.idx).failPass p
    else
    let r := s.relocFit p
    let sz := s.passSize p
    let gain := Fv.ofRat (s.f F.KLN_RELOC_REL_GAIN : Nat) 65536
    let low := decide (10 * r.pixels < sz.1 * sz.2)
    let acc := (fp32.dec r.e1).le (gain.mul (fp32.dec r.e0)) && !low && decide (0 < r.pixels)
    let st := if r.pixels = 0 then St.invalidInput else St.ok
    let flags := b2n acc + 2 * b2n (bitOf p.flags 0) + 4 * b2n low
    ((s.dropPass p).relocRecord p.pseq st flags p.epoch r).startPasses 64

/-- Reloc requests not yet taken become class-0 passes; with no working Kiln each is answered DEGRADED. -/
def State.takeRelocs (s : State) : (fuel : Nat) → State
  | 0 => s
  | n + 1 =>
    let k := s.kln.reloc
    if s.tv (s.f F.KLN_RELOC_TALLY_IN) ≤ k then s
    else
      let ses := s.rdNum (s.relocReq k + 48) 1
      -- the values area of the RELPOSE record: the identifier, then the pose
      let pose := s.rdList (s.rdNum (s.rdNum (s.relocReq k + 8) 8 + 80) 8) 64
      let s : State := { s with kln.reloc := k + 1 }
      match s.kilns, s.sesMap ses, (s.cams ses).head? with
      | _ :: _, some m, some c =>
        let p : Pass := { cls := 0, idx := m, map := m, cam := c.2, pseq := k, pose := pose, 
                           ts := (s.src c.2 (s.rdNum (s.relocReq k + 16) 4)).elim 0 (·.ts), epoch := s.f F.KLN_MAP_EPOCH_EPOCH m }
        ({ s with kln.passes := s.kln.passes ++ [p] } : State).takeRelocs n
      | [], _, _ => (s.relocRecord k St.degraded 0 0 {}).takeRelocs n
      | _, _, _ => (s.relocRecord k St.invalidInput 0 0 {}).takeRelocs n

/-- With no working Kiln every pass writes its record at once, DEGRADED and with no planes (R332). -/
def State.noKilns (s : State) : State :=
  if !s.kilns.isEmpty then s
  else
    let s := s.kln.passes.foldl (fun s p =>
      if p.cls = 1 then (s.dropPass p).viewRecord p.idx p [St.degraded] p.flags 0 0
      else if p.cls = 0 then (s.dropPass p).relocRecord p.pseq St.degraded (2 * b2n (bitOf p.flags 0)) p.epoch {}
      else s.dropPass p) s
    (List.range 8).foldl (fun s m =>
      let x := s.kmap m
      let l := x.job.toList ++ x.queue
      if l.isEmpty then s
      else l.foldl (fun s j => s.refRecord m j St.degraded) (s.setKmap m { x with job := none, queue := [] })) s

/-! ## What Tallies set off -/

/-- Pose records that the pose Tally covers ready their views' passes (R19). -/
def State.viewSettle (s : State) (n : Nat) : State :=
  let on := fun (e : PoseNote) => decide (e.need ≤ s.tv (s.sesParam n).pose)
  let notes := (s.ses n).notes.filter on
  if notes.isEmpty then s
  else
    let s := s.setSes n { s.ses n with notes := (s.ses n).notes.filter (fun e => !on e) }
    let views := (List.range 16).filter (fun v => s.fb F.KLN_VIEW_CTL_ENABLE v && s.f F.KLN_VIEW_CTL_SESSION v == n)
    notes.foldl (fun s e => views.foldl (fun s v => s.viewPose v e) s) s

/-- Keyframes of the sessions that refine a map queue jobs. -/
def State.jobSettle (s : State) (m : Nat) : State :=
  if !s.kmapOn m then s
  else
    let s := (List.range 32).foldl (fun s n =>
      if !bitOf (s.f F.KLN_MAP_SESSIONS_MASK m) n || !s.sesOn n then s
      else
        let pr := s.sesParam n
        let cnt := s.tv pr.kf
        let from' := tget 0 (s.kmap m).taken n
        let s := s.setKmap m { s.kmap m with taken := tput 0 (s.kmap m).taken n cnt }
        (if s.fb F.KLN_MAP_CTL_FROZEN m then [] else List.range (cnt - from')).foldl (fun s i =>
          let kf := from' + i
          let a := pr.kfBase + 128 * (kf % Nat.max 1 pr.kfSlots)
          s.queueJob m { ses := n, kf := s.rdNum a 4, ts := s.rdNum (a + 8) 8 * 1000000000 + s.rdNum (a + 16) 4 }) s) s
    s.startJob m

/-- Everything that waits on Tallies in the Kiln. -/
def State.klnSettle (s : State) : State :=
  let s := (List.range 32).foldl State.viewSettle s
  let s := (List.range 8).foldl State.jobSettle s
  ((s.takeRelocs 64).startPasses 64).noKilns

/-! ## Meanings -/

/-- KILN_BINNING_DONE (R330). -/
def execKilnBinningDone (u : Nat) (s : State) : Host.Outcome State Fault Refusal := done (whenUp (kilnBinningDone u) s)
/-- KILN_COMPOSITING_DONE (R330). -/
def execKilnCompositingDone (u : Nat) (s : State) : Host.Outcome State Fault Refusal := done (whenUp (kilnCompositingDone u) s)
/-- KILN_BACKWARD_DONE (R322). -/
def execKilnBackwardDone (u : Nat) (s : State) : Host.Outcome State Fault Refusal := done (whenUp (kilnBackwardDone u) s)
/-- KILN_COMMIT (R324). -/
def execKilnCommit (m : Nat) (s : State) : Host.Outcome State Fault Refusal := done (whenUp (kilnCommit m) s)
/-- REFINE_JOB_DONE (R326). -/
def execRefineJobDone (m : Nat) (s : State) : Host.Outcome State Fault Refusal := done (whenUp (refineJobDone m) s)
/-- VIEW_PASS_DEADLINE (R316). -/
def execViewPassDeadline (v : Nat) (s : State) : Host.Outcome State Fault Refusal := done (whenUp (viewPassDeadline v) s)
/-- ACTIVE_SET_UPDATE (R327). -/
def execActiveSetUpdate (m : Nat) (s : State) : Host.Outcome State Fault Refusal := done (whenUp (activeSetUpdate m) s)
/-- BLOCK_LOAD_DONE (R327). -/
def execBlockLoadDone (m b : Nat) (s : State) : Host.Outcome State Fault Refusal := done (whenUp (blockLoadDone m b) s)
/-- BLOCK_EVICT (R327). -/
def execBlockEvict (m : Nat) (s : State) : Host.Outcome State Fault Refusal := done (whenUp (blockEvict m) s)
/-- KILN_RELOC_DONE (R329). -/
def execKilnRelocDone (s : State) : Host.Outcome State Fault Refusal := done (whenUp kilnRelocDone s)

end Sys2Proof.Machine
end

