-- ==== Sys2Proof/Machine/Cask.lean ====
section
/-!
DEFINITION. The Cask (chapter 12): codes and distances, nodes, the walk, queries and their results, inserts, deletes and compaction,
queues, shards.
-/

namespace Sys2Proof.Machine
open Sys2Proof

/-! ## Codes and distances (R336, R337) -/

/-- Subspaces of a code: 64 of PQ32 (the DEEP form), 32 of PQ16. -/
def caskSubs (deep : Bool) : Nat := if deep then 64 else 32

/-- Elements of a subspace. -/
def caskWide (deep : Bool) : Nat := if deep then 4 else 8

/-- Bytes as INT8 elements. -/
def int8s (l : List Byte) : List Int := l.map (fun b => sgn 8 b.toNat)

/-- The elements of a descriptor in subspace j. -/
def subOf (deep : Bool) (d : List Byte) (j : Nat) : List Int := int8s ((d.drop (j * caskWide deep)).take (caskWide deep))

/-- Centroid c of subspace j: the codebook holds subspace after subspace, 16 centroids each. -/
def centroid (deep : Bool) (cb : List Byte) (j c : Nat) : List Int :=
  int8s (fitBytes (caskWide deep) (cb.drop ((j * 16 + c) * caskWide deep)))

/-- The squared distance of two vectors. -/
def sqDist (a b : List Int) : Nat := sumN ((a.zip b).map (fun p => ((p.1 - p.2) * (p.1 - p.2)).toNat))

/-- Nibble j of a code. -/
def nibble (code : List Byte) (j : Nat) : Nat :=
  let b := (nth 0#8 code (j / 2)).toNat
  if j % 2 = 0 then b % 16 else b / 16

/-- The code of a descriptor (R336): in each subspace the nearest centroid, the lower index on a tie. -/
def codeOf (deep : Bool) (cb d : List Byte) : List Byte :=
  let near := fun (j : Nat) =>
    let x := subOf deep d j
    (bestBy (fun a b => decide (sqDist x (centroid deep cb j a) < sqDist x (centroid deep cb j b))) (List.range 16)).getD 0
  (List.range (caskSubs deep / 2)).map (fun i => BitVec.ofNat 8 (near (2 * i) + 16 * near (2 * i + 1)))

/-- The lookup table (R337), by subspace and centroid. -/
def lutOf (deep : Bool) (cb d : List Byte) (shift : Nat) : List (List Nat) :=
  (List.range (caskSubs deep)).map (fun j =>
    let x := subOf deep d j
    (List.range 16).map (fun c =>
      Nat.min 255 ((sqDist x (centroid deep cb j c) + (if shift = 0 then 0 else 2 ^ (shift - 1))) / 2 ^ shift)))

/-- The approximate distance of a code (R337). -/
def approxOf (lut : List (List Nat)) (code : List Byte) : Nat :=
  sumN ((List.range lut.length).map (fun j => nth 0 (nth [] lut j) (nibble code j)))

/-- The exact distance of the DEEP form (R337): subspace distances to the code's centroids, unshifted. -/
def exactCode (cb d code : List Byte) : Nat :=
  sumN ((List.range 64).map (fun j => sqDist (subOf true d j) (centroid true cb j (nibble code j))))

/-- The code distance of two codes (R337). -/
def codeDist (deep : Bool) (cb a b : List Byte) : Nat :=
  sumN ((List.range (caskSubs deep)).map (fun j => sqDist (centroid deep cb j (nibble a j)) (centroid deep cb j (nibble b j))))

/-! ## Nodes (Tables 12-2, 12-3, 12-4) -/

/-- The number of an empty edge, of an empty free list, and of no node. -/
def noNode : Nat := 0xFFFFFFFF

/-- The reserved identifier. -/
def noIdent : Nat := 0xFFFFFFFFFFFFFFFF

/-- A node (Table 12-3): its edges as node and gen, its 32 attribute words and codes. -/
structure CNode where
  gen : Nat := 0
  rev : Nat := 0
  used : Nat := 0
  live : Nat := 0
  flags : Nat := 0
  rep : List Byte := []
  edges : List (Nat × Nat) := []
  attrs : List Nat := []
  codes : List (List Byte) := []
deriving DecidableEq, Repr

/-- Bytes of a code. -/
def codeLen (deep : Bool) : Nat := if deep then 32 else 16

/-- The node size (Table 12-1). -/
def nodeSize (deep : Bool) : Nat := if deep then 1344 else 768

/-- Bytes of an entry-region record (Table 12-1). -/
def entrySize (deep : Bool) : Nat := if deep then 8 else 264

/-- A node from its bytes. -/
def nodeOf (deep : Bool) (bs : List Byte) : CNode :=
  let rd := fun (o n : Nat) => leValue ((bs.drop o).take n)
  let e := if deep then 64 else 32
  let a := if deep then 160 else 128
  let c := if deep then 288 else 256
  { gen := rd 0 2, rev := rd 2 2, used := rd 4 1, live := rd 5 1, flags := rd 6 1,
    rep := (bs.drop 8).take (codeLen deep),
    edges := (List.range 12).map (fun i => (rd (e + 8 * i) 4, rd (e + 8 * i + 4) 2)),
    attrs := (List.range 32).map (fun i => rd (a + 4 * i) 4),
    codes := (List.range 32).map (fun i => (bs.drop (c + codeLen deep * i)).take (codeLen deep)) }

/-- The bytes of a node. -/
def nodeBytes (deep : Bool) (n : CNode) : List Byte :=
  fitBytes (nodeSize deep)
    (leBytes 2 n.gen ++ leBytes 2 n.rev ++ leBytes 1 n.used ++ leBytes 1 n.live ++ leBytes 1 n.flags ++ leBytes 1 0
      ++ fitBytes (if deep then 56 else 24) n.rep
      ++ (List.range 12).flatMap (fun i => let e := nth (noNode, 0) n.edges i; leBytes 4 e.1 ++ leBytes 2 e.2 ++ zeroBytes 2)
      ++ (List.range 32).flatMap (fun i => leBytes 4 (nth 0 n.attrs i))
      ++ (List.range 32).flatMap (fun i => fitBytes (codeLen deep) (nth [] n.codes i)))

/-- LIVE and TOMB of a slot. -/
def CNode.isLive (n : CNode) (s : Nat) : Bool := bitOf (nth 0 n.attrs s) 31
def CNode.isTomb (n : CNode) (s : Nat) : Bool := bitOf (nth 0 n.attrs s) 30

/-- The occupied slots: live or tombstoned. -/
def CNode.occupied (n : CNode) : List Nat := (List.range 32).filter (fun s => n.isLive s || n.isTomb s)

/-- Where a shard lies: node region, entry region, location table; its form, index, and entries of capacity. The replica a member
holds lies behind its primary, each part on the next 64 KiB page (log entry 30: the spec gives the replica no place). -/
structure Shd where
  idx : Nat
  deep : Bool
  node : Nat
  entry : Nat
  loc : Nat
  cap : Nat
deriving DecidableEq, Repr

/-- Bytes rounded up to whole pages. -/
def pageUp (n : Nat) : Nat := ceilDiv n 65536 * 65536

/-- A shard held by this part. -/
def State.shd (s : State) (i : Nat) (replica : Bool) : Shd :=
  let deep := s.f F.CSK_IDX_CTL_FORM i == 2
  let m := s.f F.CSK_IDX_CAP_MAX_NODES i
  let off := fun (n : Nat) => if replica then pageUp n else 0
  { idx := i, deep := deep,
    node := s.pair R.CSK_IDX_NODE_LO R.CSK_IDX_NODE_HI i + off (65536 + m * nodeSize deep),
    entry := s.pair R.CSK_IDX_ENTRY_LO R.CSK_IDX_ENTRY_HI i + off (32 * m * entrySize deep),
    loc := s.pair R.CSK_IDX_LOC_LO R.CSK_IDX_LOC_HI i + off (32 * m * 32),
    cap := 32 * m }

/-- The codebook of an index: its settings carry it (R336). -/
def State.book (s : State) (i : Nat) : List Byte := nth [] s.bt.img.books i

/-- Where node n lies (R338). -/
def Shd.nodeAt (d : Shd) (n : Nat) : Nat := d.node + 65536 + n * nodeSize d.deep

/-- Where the entry-region record of a slot lies (R340). -/
def Shd.entryAt (d : Shd) (n slot : Nat) : Nat := d.entry + (32 * n + slot) * entrySize d.deep

/-- A node as memory holds it. -/
def State.nodeRd (s : State) (d : Shd) (n : Nat) : CNode := nodeOf d.deep (s.rdList (d.nodeAt n) (nodeSize d.deep))

/-- A node is written whole (R343); a copy of it that a walker has prefetched is dropped (R341). -/
def State.nodeWr (s : State) (d : Shd) (n : Nat) (x : CNode) : State :=
  let s : State := { s with csk.walks := s.csk.walks.map (fun w =>
    if s.shd w.idx w.replica = d then { w with pre := w.pre.filter (fun e => e.1 != n) } else w) }
  s.wrList (d.nodeAt n) (nodeBytes d.deep x)

/-- Fields of the index header (Table 12-2). -/
def State.hdr (s : State) (d : Shd) (off n : Nat) : Nat := s.rdNum (d.node + off) n
def State.setHdr (s : State) (d : Shd) (off n v : Nat) : State := s.wrNum (d.node + off) n v

/-- Nodes ever allocated. -/
def State.nodesOf (s : State) (d : Shd) : Nat := s.hdr d 16 4

/-- The identifier of a slot (R340). -/
def State.identOf (s : State) (d : Shd) (n slot : Nat) : Nat := s.rdNum (d.entryAt n slot + (if d.deep then 0 else 256)) 8

/-- Entry points (Table 12-2): node and gen. -/
def State.entryPoints (s : State) (d : Shd) : List (Nat × Nat) :=
  (List.range (Nat.min 64 (s.hdr d 40 1))).map (fun i => (s.hdr d (1024 + 8 * i) 4, s.hdr d (1028 + 8 * i) 2))

/-! ## Shards (R353) -/

/-- The shards of an index. -/
def State.shardsOf (s : State) (i : Nat) : Nat := if s.fb F.CSK_IDX_CTL_SHARDED i then s.f F.CSK_IDX_CTL_SHARDS_M1 i + 1 else 1

/-- The shard this part holds as primary, and whether it holds one: a member beyond the shards holds none. -/
def State.ownShard (s : State) (i : Nat) : Nat := if s.fb F.CSK_IDX_CTL_SHARDED i then s.deviceId else 0
def State.holdsShard (s : State) (i : Nat) : Bool := decide (s.ownShard i < s.shardsOf i)

/-- Whether an index has replicas on other members. -/
def State.hasReplicas (s : State) (i : Nat) : Bool :=
  s.fb F.CSK_IDX_CTL_SHARDED i && s.fb F.CSK_IDX_CTL_REPLICAS i && decide (1 < s.shardsOf i)

/-- The shard whose replica this part holds, where it holds one. -/
def State.keepsReplica (s : State) (i : Nat) : Bool := s.hasReplicas i && s.holdsShard i
def State.replicaShard (s : State) (i : Nat) : Nat := (s.ownShard i + s.shardsOf i - 1) % s.shardsOf i

/-- The shard of an identifier (R353). -/
def shardFor (ident shards : Nat) : Nat := (ident * 0x9E3779B97F4A7C15 % 2 ^ 64) / 2 ^ 32 * shards / 2 ^ 32

/-- Who holds a shard of an index; a part whose index is not SHARDED holds it alone. -/
def State.shardHolder (s : State) (i shard : Nat) : Option (Nat × Bool) :=
  if s.fb F.CSK_IDX_CTL_SHARDED i then s.holder (s.shardsOf i) shard (s.hasReplicas i) else some (s.deviceId, false)

/-- CSK_IDX_SHARD (Table 12-11). -/
def State.syncShard (s : State) (i : Nat) : State :=
  let s := s.setF F.CSK_IDX_SHARD_OWN (if s.holdsShard i then s.ownShard i else 0) i
  let s := s.setF F.CSK_IDX_SHARD_REPLICA_OF (if s.keepsReplica i then s.replicaShard i else 0) i
  s.setF F.CSK_IDX_SHARD_MISSING
    (sumN (((List.range (s.shardsOf i)).filter (fun j => (s.shardHolder i j).isNone)).map (2 ^ ·))) i

/-! ## Availability (R334) -/

/-- Whether an index is defined. -/
def State.idxOn (s : State) (i : Nat) : Bool := decide (i < 8) && s.fb F.CSK_IDX_CTL_ENABLE i

/-- Whether this part's shards of an index are missing: DEEP, without Cellar. -/
def State.idxGone (s : State) (i : Nat) : Bool := s.f F.CSK_IDX_CTL_FORM i == 2 && s.cellarGone

/-- Whether this part's shards of an index are in service. -/
def State.idxReady (s : State) (i : Nat) : Bool := s.csk.ready.contains i && !s.idxGone i

/-- The registers that count an index's entries and nodes. -/
def State.syncIdx (s : State) (i : Nat) : State :=
  let d := s.shd i false
  let s := s.setPair R.CSK_IDX_LIVE_LO R.CSK_IDX_LIVE_HI (s.hdr d 24 8) i
  s.setPair R.CSK_IDX_TOMB_LO R.CSK_IDX_TOMB_HI (s.hdr d 32 8) i

/-- The freed nodes: on the free list, linked through the first bytes of `rep` (log entry 31: the spec gives the link no place). -/
def State.freeList (s : State) (d : Shd) : Nat → Nat → List Nat
  | _, 0 => []
  | n, fuel + 1 => if n = noNode then [] else n :: s.freeList d (s.rdNum (d.nodeAt n + 8) 4) fuel

/-- A shard is emptied: a fresh header (Table 12-2), its old nodes, records and buckets cleared. -/
def State.emptyShard (s : State) (i : Nat) (replica : Bool) : State :=
  let d := s.shd i replica
  let inside := fun (a : Nat) =>
    (decide (d.node ≤ a) && decide (a < d.nodeAt (d.cap / 32))) || (decide (d.entry ≤ a) && decide (a < d.entryAt (d.cap / 32) 0))
      || (decide (d.loc ≤ a) && decide (a < d.loc + 32 * d.cap))
  let s : State := { s with mem := s.mem.filter (fun c => !inside c.1) }
  s.wrList d.node (leBytes 4 0x4B534143 ++ leBytes 1 (s.f F.CSK_IDX_CTL_FORM i)
    ++ leBytes 1 (if replica then s.replicaShard i else s.ownShard i) ++ leBytes 1 (s.shardsOf i) ++ leBytes 1 0
    ++ leBytes 4 (s.f F.CSK_IDX_MAP_MAP_ID i) ++ leBytes 4 (Config.sm3 (s.book i) / 2 ^ 224) ++ leBytes 4 0 ++ leBytes 4 noNode
    ++ zeroBytes 17 ++ zeroBytes 983 ++ zeroBytes 512 ++ fitBytes 4096 (s.book i))

/-- Whether a kept header names the same form, shard and codebook as the settings (R334). -/
def State.headerSame (s : State) (i : Nat) (replica : Bool) : Bool :=
  let d := s.shd i replica
  s.hdr d 0 4 == 0x4B534143 && s.hdr d 4 1 == s.f F.CSK_IDX_CTL_FORM i
    && s.hdr d 5 1 == (if replica then s.replicaShard i else s.ownShard i)
    && s.hdr d 12 4 == Config.sm3 (s.book i) / 2 ^ 224

/-- A shard comes into service (R334): kept where its header matches, otherwise emptied; a DEEP shard whose kept contents do not match
is logged. A DEEP region that holds nothing is simply new. -/
def State.openShard (s : State) (i : Nat) (replica : Bool) : State :=
  let d := s.shd i replica
  if d.deep && s.headerSame i replica then s
  else
    let s := if d.deep && s.hdr d 0 4 != 0 then s.warnOpen 0xB i else s
    s.emptyShard i replica

/-- An index comes into service. -/
def State.openIdx (s : State) (i : Nat) : State :=
  let s := if s.holdsShard i then s.openShard i false else s
  let s := if s.keepsReplica i then s.openShard i true else s
  let s : State := { s with csk.ready := i :: s.csk.ready }
  let d := s.shd i false
  let s := (s.syncIdx i).setF F.CSK_IDX_NODES_COUNT (s.nodesOf d - (s.freeList d (s.hdr d 20 4) (s.nodesOf d)).length) i
  s.syncShard i

/-- The indices that can come into service do (R334): RESIDENT and DDR from step 6, DEEP once Cellar is ready. -/
def State.openIdxs (s : State) : State :=
  (List.range 8).foldl (fun s i =>
    if !s.idxOn i || s.csk.ready.contains i || s.f F.BOOT_STATUS_STAGE < 5 then s
    else if s.f F.CSK_IDX_CTL_FORM i == 2 then (if s.cellarReady then s.openIdx i else s)
    else s.openIdx i) s

/-! ## Requests -/

/-- Fields of a query request (Table 12-6). -/
def rqNum (r : List Byte) (o n : Nat) : Nat := leValue ((r.drop o).take n)
def rqIdx (r : List Byte) : Nat := rqNum r 8 1
def rqK (r : List Byte) : Nat := rqNum r 9 1
def rqFlags (r : List Byte) : Nat := rqNum r 12 2
def rqDesc (r : List Byte) : List Byte := fitBytes 256 (r.drop 64)

/-- A descriptor whose elements are all zero is invalid (R335). -/
def descBad (d : List Byte) : Bool := d.all (fun b => b == 0#8)

/-- A query is INVALID_INPUT (R355): invalid descriptor, index not enabled, k out of range. -/
def State.queryBad (s : State) (r : List Byte) : Bool :=
  descBad (rqDesc r) || !s.idxOn (rqIdx r) || rqK r == 0 || decide (64 < rqK r)

/-- The fields of a host request lie within Table 12-6 (R403). -/
def rqInTable (r : List Byte) : Bool :=
  let k := rqK r
  let ef := rqNum r 10 1
  decide (rqIdx r < 8) && decide (1 ≤ k) && decide (k ≤ 64) && (ef == 0 || (decide (k ≤ ef) && decide (ef ≤ 64)))
    && decide (rqFlags r < 8) && rqNum r 15 1 == 0 && rqNum r 22 2 == 0 && (r.drop 36).take 28 == zeroBytes 28

/-- EF of a query (R342): max(k, EF of the query or of the index), at most 64. -/
def State.efOf (s : State) (r : List Byte) : Nat :=
  let e := rqNum r 10 1
  Nat.min 64 (Nat.max (rqK r) (if e = 0 then s.f F.CSK_IDX_SEARCH_EF (rqIdx r) else e))

/-- Whether an entry passes the query's filters (R344). -/
def passes (r : List Byte) (attr : Nat) : Bool :=
  let ses := bitsOf attr 29 25
  let dev := bitsOf attr 24 21
  let recent := rqNum r 28 4
  (!bitOf (rqFlags r) 1 || bitOf (rqNum r 16 4) ses) && (!bitOf (rqFlags r) 2 || bitOf (rqNum r 20 2) dev)
    && (recent == 0 || !(ses == rqNum r 11 1 && dev == rqNum r 14 1)
        || decide (recent ≤ (rqNum r 24 4 + 2 ^ 21 - attr % 2 ^ 21) % 2 ^ 21))

/-- The shards a query asks (R354): this device's own with LOCAL or where the index is not SHARDED, otherwise all. -/
def State.askedOf (s : State) (r : List Byte) : List Nat :=
  let i := rqIdx r
  if bitOf (rqFlags r) 0 || !s.fb F.CSK_IDX_CTL_SHARDED i then (if s.holdsShard i then [s.ownShard i] else []) else List.range (s.shardsOf i)

/-! ## The walk (R342) -/

/-- What a walk is held to: form, lookup table, EF, WIDTH, NODE_MAX, the filter, whether its deadline has passed, and neighbour prefetch mode. -/
structure WalkCtx where
  deep : Bool
  lut : List (List Nat)
  ef : Nat
  width : Nat
  nodeMax : Nat
  req : Option (List Byte)
  past : Bool := false
  ahead : Bool := false

/-- The order of the candidate list: priority, then node. -/
def candLt (a b : Nat × Nat × Nat) : Bool := decide (a.1 < b.1) || (a.1 == b.1 && decide (a.2.1 < b.2.1))

/-- The order of the best list: approximate distance, node, slot. -/
def bestLt (a b : Nat × Nat × Nat × Nat) : Bool :=
  decide (a.1 < b.1) || (a.1 == b.1 && (decide (a.2.1 < b.2.1) || (a.2.1 == b.2.1 && decide (a.2.2.2 < b.2.2.2))))

/-- The visited filter (R342): 4,096 bits, two hashes of the node index. -/
def filterTest (l : List Nat) (n : Nat) : Bool := l.contains (Config.hash1 n % 4096) && l.contains (Config.hash2 n % 4096)
def filterAdd (l : List Nat) (n : Nat) : List Nat :=
  let a := Config.hash1 n % 4096
  let b := Config.hash2 n % 4096
  let l := if l.contains a then l else a :: l
  if l.contains b then l else b :: l

/-- The walk begins at the entry points. -/
def Walk.start (w : Walk) (eps : List (Nat × Nat)) : Walk :=
  { w with begun := true, cand := (sortBy candLt (eps.map (fun e => (0, e.1, e.2)))).take 64,
           seen := eps.foldl (fun l e => filterAdd l e.1) [], best := [], visited := [], reads := 0, dangling := 0, batch := [],
           got := [], spec := [], pre := [], flags := 0, ended := false }

/-- The last of a full best list. -/
def Walk.worst (w : Walk) (ef : Nat) : Option Nat := if ef ≤ w.best.length then (w.best.getLast?).map (·.1) else none

/-- A walk stops on its deadline (R342): the reads still outstanding are discarded. -/
def Walk.stopLate (w : Walk) : Walk := { w with ended := true, flags := w.flags ||| 2, batch := [], got := [], spec := [], pre := [] }

/-- The next batch is formed, or the walk stops: on no candidate, on NODE_MAX (flag BUDGET), on the deadline (flag DEADLINE), or where no candidate is near
enough. -/
def Walk.form (w : Walk) (c : WalkCtx) : Walk :=
  match w.ended || !w.batch.isEmpty, w.cand with
  | true, _ => w
  | false, [] => { w with ended := true }
  | false, top :: _ =>
    if c.nodeMax ≤ w.reads then { w with ended := true, flags := w.flags ||| 1 }
    else if c.past then w.stopLate
    else
      match w.worst c.ef with
      | some b =>
        if b < top.1 then { w with ended := true }
        else
          let n := Nat.min c.width (w.cand.takeWhile (fun x => decide (x.1 ≤ b))).length
          { w with batch := (w.cand.take n).map (fun x => (x.2.1, x.2.2)), cand := w.cand.drop n }
      | none => { w with batch := (w.cand.take c.width).map (fun x => (x.2.1, x.2.2)), cand := w.cand.drop c.width }

/-- A node of the batch is scored. -/
def Walk.score (w : Walk) (c : WalkCtx) (e : Nat × Nat) (nd : CNode) : Walk :=
  let w := { w with reads := w.reads + 1 }
  if nd.gen ≠ e.2 then { w with dangling := w.dangling + 1 }
  else
    let occ := nd.occupied.map (fun sl => (approxOf c.lut (nth [] nd.codes sl), sl))
    let m := match occ with | [] => Config.noSlotMin e.1 % 65536 | x :: xs => xs.foldl (fun a y => Nat.min a y.1) x.1
    let live := occ.filter (fun x => nd.isLive x.2)
    let pass := live.filter (fun x => match c.req with | some r => passes r (nth 0 nd.attrs x.2) | none => true)
    let w := { w with flags := if pass.length < live.length then w.flags ||| 4 else w.flags,
                      visited := w.visited ++ [(m, e.1, nd.gen)],
                      best := pass.foldl (fun l x => (insertBy bestLt (x.1, e.1, nd.rev, x.2) l).take c.ef) w.best }
    nd.edges.foldl (fun w x =>
      if x.1 = noNode || filterTest w.seen x.1 then w
      else { w with seen := filterAdd w.seen x.1, cand := (insertBy candLt (m, x.1, x.2) w.cand).take 64 }) w

/-- The nodes at the head of the batch that have returned are scored, in batch order. -/
def Walk.drain (w : Walk) (c : WalkCtx) : (fuel : Nat) → Walk
  | 0 => w
  | n + 1 =>
    match w.batch with
    | [] => w
    | e :: rest =>
      match w.got.find? (fun g => g.1 == e.1) with
      | none => w
      | some g =>
        let w := ({ w with batch := rest, got := w.got.filter (fun x => x.1 != e.1) } : Walk).score c e (nodeOf c.deep g.2)
        w.drain c n

/-- Speculative reads of a node's unvisited neighbours (R341): of those not read yet, as far as the buffer of 64 nodes goes. -/
def Walk.speculate (w : Walk) (nd : CNode) : Walk :=
  nd.edges.foldl (fun w e =>
    if e.1 = noNode || filterTest w.seen e.1 || w.spec.contains e.1 || (w.pre ++ w.got).any (fun p => p.1 == e.1) || w.batch.any (fun b => b.1 == e.1)
        || decide (64 ≤ w.spec.length + w.pre.length) then w
    else { w with spec := w.spec ++ [e.1] }) w

/-- The read of a node of the batch returns. -/
def Walk.take (w : Walk) (c : WalkCtx) (e : Nat × List Byte) : Walk :=
  let w := if c.ahead then w.speculate (nodeOf c.deep e.2) else w
  { w with got := e :: w.got }

/-- What has returned is scored, the next batch formed, and what of it the buffer holds taken from there (R341), as far as that goes. -/
def Walk.proceed (w : Walk) (c : WalkCtx) : (fuel : Nat) → Walk
  | 0 => w
  | n + 1 =>
    let w := w.drain c w.batch.length
    let w := if w.batch.isEmpty then w.form c else w
    let hit := w.pre.filter (fun p => w.batch.any (fun b => b.1 == p.1))
    if hit.isEmpty then w
    else (hit.foldl (fun (w : Walk) p => w.take c p) { w with pre := w.pre.filter (fun p => !w.batch.any (fun b => b.1 == p.1)) }).proceed c n

/-- A whole walk over nodes as memory holds them (R346 walks so). -/
def Walk.run (w : Walk) (c : WalkCtx) (read : Nat → CNode) : (fuel : Nat) → Walk
  | 0 => w
  | n + 1 =>
    let w := w.form c
    if w.ended then w
    else ((w.batch.foldl (fun (w : Walk) e => w.score c e (read e.1)) { w with batch := [] })).run c read n

/-- The context of a query's walk. -/
def State.walkCtx (s : State) (w : Walk) : WalkCtx :=
  let deep := s.f F.CSK_IDX_CTL_FORM w.idx == 2
  { deep := deep, lut := lutOf deep (s.book w.idx) (rqDesc w.req) (s.f F.CSK_IDX_SEARCH_LUT_SHIFT w.idx), ef := s.efOf w.req,
    width := s.f F.CSK_IDX_SEARCH_WIDTH w.idx, nodeMax := s.f F.CSK_IDX_SEARCH_NODE_MAX w.idx, req := some w.req,
    past := decide (w.due ≤ s.mono), ahead := s.fb F.CSK_STATUS_PREFETCH }

/-! ## Results (Tables 12-6, 12-7, R344, R350–R352, R355) -/

/-- Whether walkers in service are fewer than those enabled. -/
def State.walkersShort (s : State) : Bool := s.f F.CSK_STATUS_WORKING < s.f F.CSK_STATUS_ENABLED

/-- The result record (Table 12-7). -/
def State.resultBytes (s : State) (r : List Byte) (since asked answered : Nat) (conds : List Nat) (flags : Nat)
    (ents : List (Nat × Nat × Nat)) (nodes dangling revised : Nat) : List Byte :=
  let k := rqK r
  let flags := flags ||| (if 1 < conds.length then 0x40 else 0)
  fitBytes 1088
    (r.take 8 ++ leBytes 1 (statusOf conds) ++ leBytes 1 ents.length ++ leBytes 1 k ++ leBytes 1 flags
      ++ leBytes 1 (rqIdx r) ++ leBytes 1 answered ++ leBytes 1 asked ++ leBytes 1 0 ++ tsBytes s.now ++ leBytes 4 nodes
      ++ leBytes 2 (satU 16 dangling) ++ leBytes 2 (satU 16 revised) ++ leBytes 4 (satU 32 ((s.mono - since) / 1000)) ++ zeroBytes 24
      ++ (List.range (Nat.min k 64)).flatMap (fun j =>
          let e := nth (noIdent, noNode, 0) ents j
          leBytes 8 e.1 ++ leBytes 4 e.2.1 ++ leBytes 4 e.2.2))

/-- A Cask queue. -/
def State.cqueue (s : State) (q : Nat) : CQueue := tget {} s.csk.queues q
def State.setQueue (s : State) (q : Nat) (x : CQueue) : State := { s with csk.queues := tput {} s.csk.queues q x }

/-- Records of a result ring: 1,088 bytes for queries, 16 for inserts and deletes. -/
def State.resSize (s : State) (q : Nat) : Nat := if s.f F.CSK_Q_CTL_KIND q = 0 then 1088 else 16

/-- A result is written into the slot of its ring index. -/
def State.writeRes (s : State) (q k : Nat) (bytes : List Byte) : State :=
  s.wrList (s.pair R.CSK_Q_OUT_LO R.CSK_Q_OUT_HI q + s.resSize q * (k % 2 ^ s.f F.CSK_Q_CTL_LOG2_LEN q)) bytes

/-- The request of a ring index. -/
def State.readReq (s : State) (q k : Nat) : List Byte :=
  s.rdList (s.pair R.CSK_Q_IN_LO R.CSK_Q_IN_HI q + 320 * (k % 2 ^ s.f F.CSK_Q_CTL_LOG2_LEN q)) 320

/-- The result of an insert or delete (R350). -/
def changeBytes (ident status code node : Nat) : List Byte :=
  leBytes 8 ident ++ leBytes 1 status ++ leBytes 1 code ++ zeroBytes 2 ++ leBytes 4 node

/-- The conditions common to every answer of the Cask. -/
def State.baseConds (s : State) : List Nat := if s.walkersShort then [St.degraded] else []

/-- The answer to an overrun request (R351): INVALID_INPUT with OVERRUN. -/
def State.overrunRes (s : State) (q k : Nat) : State :=
  let r := s.readReq q k
  let conds := St.invalidInput :: s.baseConds
  if s.f F.CSK_Q_CTL_KIND q = 0 then
    (s.writeRes q k (s.resultBytes r s.mono 1 0 conds 0x20 [] 0 0 0)).addPair R.CSK_QUERIES_LO R.CSK_QUERIES_HI
  else (s.writeRes q k (changeBytes (rqNum r 8 8) (statusOf conds) (s.freeVal % 256) s.freeVal)).used

/-- Results are advanced in ring order (R351). -/
def State.flushQueue (s : State) (q : Nat) : (fuel : Nat) → State
  | 0 => s
  | n + 1 =>
    let x := s.cqueue q
    let step := fun (s : State) =>
      let x := s.cqueue q
      let s := s.setQueue q { x with out := x.out + 1, done := x.done.filter (· != x.out), ended := x.ended.filter (· != x.out) }
      (s.addWrap F.CSK_Q_COUNT_DONE 1 q).advance 0xB (s.f F.CSK_Q_TALLY_OUT q) 1
    if x.done.contains x.out then (step s).flushQueue q n
    else if x.ended.contains x.out then (step (s.overrunRes q x.out)).flushQueue q n
    else s

/-- A request of a queue has its result. -/
def State.resDone (s : State) (q k : Nat) : State :=
  let x := s.cqueue q
  (s.setQueue q { x with done := k :: x.done }).flushQueue q 1025

/-- A host query is answered (R402): the whole result, ANSWERED, then the function's slot vector; nothing where the slot was released. -/
def State.answerSlot (s : State) (slot posts : Nat) (bytes : List Byte) : State :=
  let x := tget {} s.hst.slots slot
  if x.state = 1 ∧ x.posts = posts then
    let s : State := { s with hst.slots := tput {} s.hst.slots slot { x with state := 2, result := bytes } }
    s.irq (slot / 64) (if slot / 64 = 0 then 3 else 0)
  else s

/-- A query gets its result: events and counters, and where it goes. -/
def State.giveResult (s : State) (q : CQuery) (conds : List Nat) (bytes : List Byte) : State :=
  let s : State := { s with csk.qs := s.csk.qs.filter (fun x => x.tag != q.tag),
                            csk.walks := s.csk.walks.filter (fun w => !(w.asker.isNone && w.q == q.tag)) }
  let s := if conds.contains St.short then (s.addSat F.CSK_SHORT_COUNT).event 0xB 0 else s
  let s := if conds.contains St.late then (s.addSat F.CSK_LATE_COUNT).event 0xB 1 else s
  let s := if conds.contains St.invalidInput then s.event 0xB 9 else s
  let s := if bitOf (rqNum bytes 11 1) 3 then s.event 0xB 6 else s
  let s := s.logHidden 0xB 0 conds [St.short, St.late, St.invalidInput] 0
  let s := s.addPair R.CSK_QUERIES_LO R.CSK_QUERIES_HI
  if q.origin < 16 then (s.writeRes q.origin q.k bytes).resDone q.origin q.k
  else if q.origin = 16 then s.answerSlot q.k q.who bytes
  else s.sendMsg q.who 1 (.result q.k bytes)

/-- The result of a query from its shards' answers (R344, R354, R355). -/
def State.finishQuery (s : State) (q : CQuery) : State :=
  let lt := fun (a b : Nat × Nat × Nat) => decide (a.2.1 < b.2.1) || (a.2.1 == b.2.1 && decide (a.1 < b.1))
  let ents := (sortBy lt (q.answers.flatMap (·.ents))).take (rqK q.req)
  let flags := q.answers.foldl (fun f a => f ||| a.flags) (if q.missing.isEmpty then 0 else 8)
  let conds := condsOf [(St.degraded, !q.missing.isEmpty || s.walkersShort), (St.late, bitOf flags 1),
    (St.short, decide (ents.length < rqK q.req))]
  s.giveResult q conds (s.resultBytes q.req q.since q.asked.length q.answers.length conds flags ents
    (sumN (q.answers.map (·.nodes))) (sumN (q.answers.map (·.dangling))) (sumN (q.answers.map (·.revised))))

/-- A query that is INVALID_INPUT is answered at once (R355, R403). -/
def State.refuseQuery (s : State) (q : CQuery) : State :=
  let conds := St.invalidInput :: s.baseConds
  s.giveResult q conds (s.resultBytes q.req q.since (s.askedOf q.req).length 0 conds 0 [] 0 0 0)

/-- An open query changes. -/
def State.setCq (s : State) (q : CQuery) : State :=
  { s with csk.qs := s.csk.qs.map (fun x => if x.tag == q.tag then q else x) }

/-- A walk changes. -/
def State.setWalk (s : State) (w : Walk) : State :=
  { s with csk.walks := s.csk.walks.map (fun x => if x.id == w.id then w else x) }

/-- A query has every answer: it is merged. -/
def State.mergeIfDone (s : State) (tag : Nat) : State :=
  match s.csk.qs.find? (fun q => q.tag == tag) with
  | none => s
  | some q => if q.asked.length ≤ q.answers.length + q.missing.length then s.finishQuery q else s

/-- A shard's answer reaches the query it belongs to (R354): dropped where its placement epoch is older (R371) or the shard has
answered already; counted late where the query has been merged. -/
def State.takeAnswer (s : State) (tag : Nat) (a : ShardAns) : State :=
  match s.csk.qs.find? (fun q => q.tag == tag) with
  | none => s.addSat F.CSK_LATE_SHARD_COUNT
  | some q =>
    if a.epoch < tget 0 s.csk.epochs (rqIdx q.req * 16 + a.shard) then s.addSat F.DSP_STALE_EPOCH_COUNT
    else if !q.asked.contains a.shard || q.answers.any (fun b => b.shard == a.shard) || q.missing.contains a.shard then s
    else (s.setCq (if a.missing then { q with missing := a.shard :: q.missing } else { q with answers := q.answers ++ [a] })).mergeIfDone tag

/-! ## Contexts (R341, R351, R358) -/

/-- Contexts of a walker: 512, or one in neighbour prefetch mode. -/
def State.ctxOf (s : State) : Nat := if s.fb F.CSK_STATUS_PREFETCH then 1 else 512

/-- The working walker with the fewest contexts in use, where one is free. -/
def State.freeCtx (s : State) : Option Nat :=
  let used := fun (l : Nat) => (s.csk.walks.filter (fun w => w.unit == some l)).length
  let ok := (s.places 0xC).filter (fun l => (s.physOf 0xC 0 l).isSome && decide (used l < s.ctxOf))
  bestBy (fun a b => decide (used a < used b)) ok

/-- CSK_CONTEXTS. -/
def State.syncCtx (s : State) : State :=
  let n := (s.csk.walks.filter (fun w => w.unit.isSome)).length
  let s : State := { s with csk.peak := notePeakL s.csk.peak s.mono n }
  (s.setF F.CSK_CONTEXTS_IN_USE n).tele R.CSK_CONTEXTS (fun s => s.setF F.CSK_CONTEXTS_PEAK (peakOf s.csk.peak))

/-- The order in which waiting requests take contexts (R351): deadline, queue, ring order. -/
def walkLt (a b : Walk) : Bool :=
  decide (a.due < b.due) || (a.due == b.due && (decide (a.origin < b.origin) || (a.origin == b.origin && decide (a.k < b.k))))

/-- A walk of a shard is wanted on this part: it waits for a context. -/
def State.addWalk (s : State) (w : Walk) : State :=
  { s with csk.walks := s.csk.walks ++ [{ w with id := s.csk.next }], csk.next := s.csk.next + 1 }

/-- A walk ends: its answer goes to the query here, or to the member that asked. -/
def State.sendAnswer (s : State) (w : Walk) (a : ShardAns) : State :=
  let s : State := { s with csk.walks := s.csk.walks.filter (fun x => x.id != w.id) }
  match w.asker with
  | none => s.takeAnswer w.q a
  | some m => s.sendMsg m 1 (.answer w.q a)

/-- When a request's deadline falls (R350): its own, or the index's. -/
def State.dueOf (s : State) (r : List Byte) (since : Nat) : Nat :=
  let d := rqNum r 32 4
  since + 1000 * (if d = 0 then s.f F.CSK_IDX_DEADLINE_US (rqIdx r) else d)

/-- The shards of a query that others hold are asked of their holders, those with no holder are missing (R354). -/
def State.askShards (s : State) (q : CQuery) : State :=
  let i := rqIdx q.req
  q.asked.foldl (fun s sh =>
    let ep := tget 0 s.csk.epochs (i * 16 + sh)
    match s.shardHolder i sh with
    | none => s.takeAnswer q.tag { shard := sh, epoch := ep, missing := true }
    | some (m, rep) =>
      if m = s.deviceId then
        (if s.csk.walks.any (fun w => w.asker.isNone && w.q == q.tag && w.shard == sh) then s
         else s.addWalk { q := q.tag, origin := q.origin, k := q.k, idx := i, shard := sh, replica := rep, epoch := ep, req := q.req,
                          since := q.since, due := s.dueOf q.req q.since })
      else s.sendMsg m 1 (.walk q.tag sh (s.mono - q.since) ep q.req)) s

/-- A query comes to this part (R350, R354): answered at once where it is invalid or its shard is missing, sent on to the master
where its shards are spread and another member is master, otherwise its own walk waits for a context. -/
def State.newQuery (s : State) (origin k who : Nat) (req : List Byte) (since : Nat) : State :=
  let i := rqIdx req
  let q : CQuery := { tag := s.csk.next, origin := origin, k := k, who := who, req := req, since := since, asked := s.askedOf req }
  let s : State := { s with csk.next := s.csk.next + 1, csk.qs := s.csk.qs ++ [q] }
  if s.queryBad req then s.refuseQuery q
  else if !bitOf (rqFlags req) 0 && s.fb F.CSK_IDX_CTL_SHARDED i && origin != 17 && (s.role == 2 || s.role == 3) then
    s.sendMsg (s.f F.LNK_STATUS_MASTER_NOW) 1 (.query q.tag (s.mono - since) req)
  else if !s.holdsShard i then (s.askShards q).mergeIfDone q.tag
  else
    let own := s.ownShard i
    s.addWalk { q := q.tag, origin := origin, k := k, idx := i, shard := own, epoch := tget 0 s.csk.epochs (i * 16 + own), req := req,
                since := since, due := s.dueOf req since }

/-- The pages of `len` bytes at an address. -/
def pagesOf (a len : Nat) : List Nat := (List.range ((a + len - 1) / 65536 - a / 65536 + 1)).map (a / 65536 + ·)

/-- Pages that only Cellar holds are demand-filled (R221, R356). -/
def State.fetchAll (s : State) (l : List Nat) : State := (l.filter s.cellarOnly).foldl State.fetchPage s

/-- The pages of a node. -/
def Shd.nodePages (d : Shd) (n : Nat) : List Nat := pagesOf (d.nodeAt n) (nodeSize d.deep)

/-- A walk's batch and its speculative reads are issued. -/
def State.issue (s : State) (w : Walk) : State :=
  let d := s.shd w.idx w.replica
  (s.setWalk w).fetchAll (if d.deep then (w.batch.map (·.1) ++ w.spec).flatMap d.nodePages else [])

/-- A waiting walk takes a context: a query's first walk also asks the other shards (R354). -/
def State.takeCtx (s : State) (w : Walk) (u : Nat) : State :=
  let s := match w.asker, s.csk.qs.find? (fun q => q.tag == w.q) with
    | none, some q => if w.shard == s.ownShard w.idx && !w.replica && !w.begun then s.askShards q else s
    | _, _ => s
  if !s.csk.walks.any (fun x => x.id == w.id) then s
  else
    let w1 := if w.begun then w else w.start (s.entryPoints (s.shd w.idx w.replica))
    let w2 := { w1 with unit := some u }
    s.issue (if w2.due ≤ s.mono ∧ !w2.batch.isEmpty then w2.stopLate else w2.form (s.walkCtx w2))

/-- Free contexts take waiting requests, the earliest deadline first (R351); requests on an index not yet in service wait. -/
def State.takeLoop (s : State) : (fuel : Nat) → State
  | 0 => s
  | n + 1 =>
    match s.freeCtx, bestBy walkLt (s.csk.walks.filter (fun w => w.unit.isNone && s.idxReady w.idx)) with
    | some u, some w => (s.takeCtx w u).takeLoop n
    | _, _ => s

/-! ## Inserts and deletes (R346, R347) -/

/-- The slot that carries an identifier among the occupied ones: a live one before a tombstoned one. -/
def State.findIdent (s : State) (d : Shd) (ident : Nat) (live : Bool) : Option (Nat × Nat) :=
  (List.range (s.nodesOf d)).findSome? (fun n =>
    let nd := s.nodeRd d n
    ((List.range 32).find? (fun sl => (if live then nd.isLive sl else nd.isTomb sl) && s.identOf d n sl == ident)).map (fun sl => (n, sl)))

/-- Where the bucket of an identifier lies: from its hash on, the bucket that `ok` accepts (R340; log entry 32: hash and probe order are
open). -/
def State.bucket (s : State) (d : Shd) (ident : Nat) (ok : List Byte → Bool) : Option Nat :=
  let n := 2 * d.cap
  ((List.range n).find? (fun j => ok (s.rdList (d.loc + 16 * ((Config.hashId ident + j) % n)) 16))).map
    (fun j => d.loc + 16 * ((Config.hashId ident + j) % n))

/-- An empty bucket: never written, or holding the reserved identifier. -/
def bucketEmpty (b : List Byte) : Bool := b == zeroBytes 16 || leValue (b.take 8) == noIdent

/-- The location table names an identifier's node and slot (R340). -/
def State.locPut (s : State) (d : Shd) (ident n slot : Nat) : State :=
  match (s.bucket d ident (fun b => !bucketEmpty b && leValue (b.take 8) == ident)).orElse (fun _ => s.bucket d ident bucketEmpty) with
  | some a => s.wrList a (leBytes 8 ident ++ leBytes 4 n ++ leBytes 1 slot ++ zeroBytes 3)
  | none => s

/-- A slot's location bucket is cleared (R348). -/
def State.locClear (s : State) (d : Shd) (ident n slot : Nat) : State :=
  match s.bucket d ident (fun b => b == leBytes 8 ident ++ leBytes 4 n ++ leBytes 1 slot ++ zeroBytes 3) with
  | some a => s.wrList a (leBytes 8 noIdent ++ zeroBytes 8)
  | none => s

/-- Header counts change. -/
def State.addHdr (s : State) (d : Shd) (off n : Nat) (v : Int) : State :=
  s.setHdr d off n (((s.hdr d off n : Nat) : Int) + v).toNat

/-- An entry is put into a slot: its node with the slot taken, its entry-region record, its bucket, the header. -/
def State.putEntry (s : State) (d : Shd) (n slot : Nat) (nd : CNode) (code : List Byte) (attr ident : Nat) (desc : List Byte) : State :=
  let nd := { nd with used := nd.used + 1, live := nd.live + 1, attrs := setNth nd.attrs slot (2 ^ 31 + attr % 2 ^ 30),
                      codes := setNth nd.codes slot code }
  let s := s.nodeWr d n nd
  let s := s.wrList (d.entryAt n slot) (if d.deep then leBytes 8 ident else fitBytes 256 desc ++ leBytes 8 ident)
  (s.locPut d ident n slot).addHdr d 24 8 1

/-- An entry is tombstoned (R347). -/
def State.tombstone (s : State) (d : Shd) (n slot : Nat) : State :=
  let nd := s.nodeRd d n
  let a := nth 0 nd.attrs slot
  let s := s.nodeWr d n { nd with live := nd.live - 1, attrs := setNth nd.attrs slot (clrBit (setBit a 30) 31) }
  (s.addHdr d 24 8 (-1)).addHdr d 32 8 1

/-- A reverse edge (R346, step 5): into an empty edge, or over the edge to the neighbour of greatest code distance where the new node is
nearer. -/
def State.backEdge (s : State) (d : Shd) (v n gen : Nat) (rep : List Byte) : State :=
  let nd := s.nodeRd d v
  let cb := s.book d.idx
  match nd.edges.findIdx? (fun e => e.1 == noNode) with
  | some i => s.nodeWr d v { nd with edges := setNth nd.edges i (n, gen) }
  | none =>
    let dist := fun (i : Nat) => codeDist d.deep cb nd.rep (s.nodeRd d (nth (noNode, 0) nd.edges i).1).rep
    match bestBy (fun a b => decide (dist b < dist a)) (List.range 12) with
    | some i => if codeDist d.deep cb nd.rep rep < dist i then s.nodeWr d v { nd with edges := setNth nd.edges i (n, gen) } else s
    | none => s

/-- A node is taken (R346, step 3): from the free list, or else node `nodes`; none where MAX_NODES are allocated. -/
def State.allocNode (s : State) (d : Shd) : Option (Nat × State) :=
  let head := s.hdr d 20 4
  if head ≠ noNode then some (head, s.setHdr d 20 4 (s.rdNum (d.nodeAt head + 8) 4))
  else if s.nodesOf d < d.cap / 32 then some (s.nodesOf d, s.setHdr d 16 4 (s.nodesOf d + 1))
  else none

/-- The walk of an insert (R346, step 1): EF_INS, no filter, no rerank. -/
def State.insertWalk (s : State) (d : Shd) (desc : List Byte) : Walk :=
  let i := d.idx
  let c : WalkCtx := { deep := d.deep, lut := lutOf d.deep (s.book i) desc (s.f F.CSK_IDX_SEARCH_LUT_SHIFT i),
                       ef := s.f F.CSK_IDX_INSERT_EF_INS i, width := s.f F.CSK_IDX_SEARCH_WIDTH i,
                       nodeMax := s.f F.CSK_IDX_SEARCH_NODE_MAX i, req := none }
  (({} : Walk).start (s.entryPoints d)).run c (s.nodeRd d) (c.nodeMax + 1)

/-- The result of a change: code and node (none where the spec states none). -/
abbrev Change := Nat × Option Nat

/-- The node an insert joins: the nearest visited one, where it lies within INSERT_JOIN_DIST and has an unused slot. -/
def State.joinNode (s : State) (d : Shd) (near : List (Nat × Nat × Nat)) : Option (Nat × Nat × CNode) :=
  match near with
  | (m, n, _) :: _ =>
    let nd := s.nodeRd d n
    if m ≤ s.f F.CSK_IDX_INSERT_JOIN_DIST d.idx then
      ((List.range 32).find? (fun sl => !nd.isLive sl && !nd.isTomb sl)).map (fun sl => (n, sl, nd))
    else none
  | [] => none

/-- A new node takes the entry: its edges to the nearest visited nodes, theirs back to it, and a place in the entry list while there is
one. -/
def State.newNode (s : State) (d : Shd) (n : Nat) (near : List (Nat × Nat × Nat)) (ident attr : Nat) (desc code : List Byte) : State :=
  let old := s.nodeRd d n
  let links := near.take 12
  let ep := s.hdr d 40 1 < s.f F.CSK_IDX_CTL_ENTRY d.idx
  let nd : CNode := { gen := old.gen, rev := old.rev, used := 0, live := 0, flags := b2n ep, rep := code,
                      edges := links.map (fun x => (x.2.1, x.2.2)) ++ List.replicate (12 - links.length) (noNode, 0),
                      attrs := List.replicate 32 0, codes := List.replicate 32 (zeroBytes (codeLen d.deep)) }
  let s := s.putEntry d n 0 nd code attr ident desc
  let s := links.foldl (fun s x => s.backEdge d x.2.1 n nd.gen code) s
  let s : State := if ep then
      (s.wrList (d.node + 1024 + 8 * s.hdr d 40 1) (leBytes 4 n ++ leBytes 2 nd.gen ++ zeroBytes 2)).addHdr d 40 1 1 else s
  if d = s.shd d.idx false then s.addWrap F.CSK_IDX_NODES_COUNT 1 d.idx else s

/-- Dangling edges met by an insert's walk. -/
def State.noteDangling (s : State) (d : Shd) (n : Nat) : State :=
  if n = 0 then s else (s.addSat F.CSK_DANGLING_COUNT n).event 0xB 3 d.idx

/-- An entry is inserted into a shard (R346, steps 1 to 6). -/
def State.insertEntry (s : State) (d : Shd) (ident attr : Nat) (desc : List Byte) : State × Change :=
  let code := codeOf d.deep (s.book d.idx) desc
  let w := s.insertWalk d desc
  let s := s.noteDangling d w.dangling
  let near := sortBy candLt w.visited
  match s.joinNode d near with
  | some (n, sl, nd) => (s.putEntry d n sl nd code attr ident desc, (0, some n))
  | none =>
    match s.allocNode d with
    | none => (s, (2, none))
    | some (n, s) => (s.newNode d n near ident attr desc code, (0, some n))

/-- An INSERT (1), DELETE (2) or REPLACE (3) is applied to a shard this part holds (R346, R347); the events of a refusal. -/
def State.applyChange (s : State) (i : Nat) (replica : Bool) (req : List Byte) : State × Change :=
  let d := s.shd i replica
  let op := rqNum req 0 1
  let ident := rqNum req 8 8
  let attr := rqNum req 4 4
  let refused := fun (r : State × Change) =>
    if r.2.1 = 2 then ((((r.1.event 0xB 4 i).event 0xB 5 i).addSat F.CSK_IDX_REFUSED_FULL 1 i), r.2)
    else ((r.1.addWrap F.CSK_INSERTS_COUNT), r.2)
  let r : State × Change :=
    if op = 2 then
      match (s.findIdent d ident true), (s.findIdent d ident false) with
      | some p, _ => (s.tombstone d p.1 p.2, (0, some p.1))
      | none, some p => (s, (0, some p.1))
      | none, none => (s, (3, none))
    else if op = 3 then
      let s := match s.findIdent d ident true with | some p => s.tombstone d p.1 p.2 | none => s
      refused (s.insertEntry d ident attr (rqDesc req))
    else if (s.findIdent d ident true).isSome then ((s.event 0xB 5 i).addSat F.CSK_IDX_REFUSED_DUPLICATE 1 i, (1, none))
    else refused (s.insertEntry d ident attr (rqDesc req))
  (if replica then r.1 else r.1.syncIdx i, r.2)

/-- A change gets its result: written into its queue's ring, or sent to the member that asked. -/
def State.giveChange (s : State) (p : CPend) (code status node : Nat) : State :=
  let s : State := { s with csk.pend := s.csk.pend.filter (fun x => x.tag != p.tag) }
  if p.q < 16 then (s.writeRes p.q p.k (changeBytes (rqNum p.req 8 8) status code node)).resDone p.q p.k
  else s.sendMsg p.who 1 (.changed p.k code status node)

/-- The node of a result, free where the spec states none. -/
def State.nodeOr (s : State) (n : Option Nat) : Nat := n.getD (s.freeVal % 2 ^ 32)

/-- Whether an insert's walk reads a poisoned line (R223). -/
def State.changePoisoned (s : State) (i : Nat) (replica : Bool) (req : List Byte) : Bool :=
  let d := s.shd i replica
  rqNum req 0 1 != 2 && !s.mm.poison.isEmpty
    && (s.insertWalk d (rqDesc req)).visited.any (fun v => s.poisoned (d.nodeAt v.2.1) (nodeSize d.deep))

/-- A change is carried out for its shard (R353, R430): applied here where this part holds the primary (or serves it from the replica),
then at the replica before the answer; sent to the holder otherwise; UNAVAILABLE where the shard has no holder or no Cellar. -/
def State.routeChange (s : State) (p : CPend) : State :=
  let i := rqNum p.req 1 1
  match s.shardHolder i p.shard with
  | none => (s.giveChange p 4 (statusOf [St.degraded]) (s.nodeOr none)).used
  | some (m, rep) =>
    if m ≠ s.deviceId then
      ({ s with csk.pend := s.csk.pend ++ [p] } : State).sendMsg m 2 (.change p.tag p.tag p.shard p.req)
    else if s.idxGone i then (s.giveChange p 4 (statusOf [St.degraded]) (s.nodeOr none)).used
    else if s.changePoisoned i rep p.req then
      ((s.poisonTask i).giveChange p (s.freeVal % 256) (statusOf (St.invalidInput :: s.baseConds)) (s.nodeOr none)).used
    else
      let r := s.applyChange i rep p.req
      let st := statusOf r.1.baseConds
      let n := r.1.nodeOr r.2.2
      let s := r.1.used
      let next := (p.shard + 1) % s.shardsOf i
      if !rep && s.hasReplicas i && s.memberIn next && next != s.deviceId then
        ({ s with csk.pend := s.csk.pend ++ [{ p with res := some (r.2.1, st, n) }] } : State).sendMsg next 2 (.change p.tag p.tag p.shard p.req)
      else s.giveChange p r.2.1 st n

/-- The next request of an insert queue that is neither done nor overrun. -/
def State.nextChange (s : State) (q : Nat) : Option Nat :=
  let x := s.cqueue q
  if x.next < x.seen then some x.next else none

/-- An insert, replace or delete of a queue is carried out, in ring order (R346, R347, R350). -/
def caskChange (op q : Nat) (s : State) : State :=
  match s.nextChange q with
  | none => s
  | some k =>
    let req := s.readReq q k
    let i := rqNum req 1 1
    if 16 ≤ q || !s.fb F.CSK_Q_CTL_ENABLE q || s.f F.CSK_Q_CTL_KIND q != 1 || rqNum req 0 1 != op || !s.idxReady i then s
    else
      let s := s.setQueue q { s.cqueue q with next := k + 1 }
      let sh := if s.fb F.CSK_IDX_CTL_SHARDED i then shardFor (rqNum req 8 8) (s.shardsOf i) else 0
      let p : CPend := { tag := s.csk.next, q := q, k := k, shard := sh, req := req }
      ({ s with csk.next := s.csk.next + 1 } : State).routeChange p

/-! ## Queues (R350, R351) -/

/-- A request newly seen in a queue's ring: counted and overrun beyond the ring; a query goes on to its walk. -/
def State.seeRequest (s : State) (q : Nat) : State :=
  let x := s.cqueue q
  let k := x.seen
  let s := s.setQueue q { x with seen := k + 1 }
  let x := s.cqueue q
  if x.out + 2 ^ s.f F.CSK_Q_CTL_LOG2_LEN q ≤ k then
    let s := (s.addSat F.CSK_Q_FULL_COUNT 1 q).event 0xB 8 q
    (s.setQueue q { x with ended := k :: x.ended }).flushQueue q 1025
  else if s.f F.CSK_Q_CTL_KIND q = 0 then s.newQuery q k 0 (s.readReq q k) s.mono
  else s

/-- Requests of a queue are seen up to its input Tally. -/
def State.seeQueue (s : State) (q : Nat) : (fuel : Nat) → State
  | 0 => s
  | n + 1 => if (s.cqueue q).seen < s.tv (s.f F.CSK_Q_TALLY_IN q) then (s.seeRequest q).seeQueue q n else s

/-- Requests at the head of an insert queue that need no walk: overrun ones are passed over; those of no known operation, on an index
not enabled, with an invalid descriptor or for the reserved identifier are INVALID_INPUT; those on an index without Cellar UNAVAILABLE (R334). -/
def State.passChanges (s : State) (q : Nat) : (fuel : Nat) → State
  | 0 => s
  | n + 1 =>
    match s.nextChange q with
    | none => s
    | some k =>
      let x := s.cqueue q
      let req := s.readReq q k
      let i := rqNum req 1 1
      let op := rqNum req 0 1
      let skip := s.setQueue q { x with next := k + 1 }
      let give := fun (s : State) (conds : List Nat) (code : Nat) =>
        ((s.writeRes q k (changeBytes (rqNum req 8 8) (statusOf conds) code (s.freeVal % 2 ^ 32))).used).resDone q k
      if x.ended.contains k || k < x.out then skip.passChanges q n
      else if op == 0 || decide (3 < op) || !s.idxOn i || (op != 2 && (descBad (rqDesc req) || rqNum req 8 8 == noIdent)) then
        ((give skip (St.invalidInput :: s.baseConds) (s.freeVal % 256)).event 0xB 9 q).passChanges q n
      else if s.idxGone i then (give skip [St.degraded] 4).passChanges q n
      else s

/-- A Cask queue takes what its input Tally says. -/
def State.queueSettle (s : State) (q : Nat) : State :=
  if !s.fb F.CSK_Q_CTL_ENABLE q then s
  else
    let s := s.seeQueue q (s.tv (s.f F.CSK_Q_TALLY_IN q) - (s.cqueue q).seen)
    let s := if s.f F.CSK_Q_CTL_KIND q = 1 then s.passChanges q ((s.cqueue q).seen - (s.cqueue q).next + 1) else s
    let x := s.cqueue q
    s.setF F.CSK_Q_COUNT_WAITING
      (if s.f F.CSK_Q_CTL_KIND q = 1 then x.seen - x.next
       else (s.csk.walks.filter (fun w => w.origin == q && w.asker.isNone && w.unit.isNone)).length) q

/-- Walks of an index whose shards are missing are answered so at once (R334). -/
def State.goneWalks (s : State) : State :=
  (s.csk.walks.filter (fun w => s.idxGone w.idx)).foldl (fun s w =>
    if !s.csk.walks.any (fun x => x.id == w.id) then s
    else
      let s := match w.asker, s.csk.qs.find? (fun q => q.tag == w.q) with
        | none, some q => if w.begun then s else s.askShards q
        | _, _ => s
      s.sendAnswer w { shard := w.shard, epoch := w.epoch, missing := true }) s

/-- CSK_STATUS.DEGRADED (R355): a shard of an enabled index is missing, or walkers are; the event where it was not. -/
def State.syncCaskDegraded (s : State) : State :=
  let now := s.walkersShort || (List.range 8).any (fun i =>
    s.idxOn i && (s.idxGone i || (List.range (s.shardsOf i)).any (fun j => (s.shardHolder i j).isNone)))
  let was := s.fb F.CSK_STATUS_DEGRADED
  let s := s.setB F.CSK_STATUS_DEGRADED now
  if now && !was then s.event 0xB 2 else s

/-- The Cask reacts: indices come into service, requests are seen, contexts are taken; the contexts of a walker lost beyond the spares
go to the others from their last node boundary (R358). -/
def State.caskSettle (s : State) : State :=
  let s := s.openIdxs.syncCaskDegraded
  let s : State := { s with csk.walks := s.csk.walks.map (fun w =>
    match w.unit with
    | some l => if (s.physOf 0xC 0 l).isNone then { w with unit := none } else w
    | none => w) }
  let s := (List.range 16).foldl State.queueSettle s
  let s := s.goneWalks
  let s := s.takeLoop s.csk.walks.length
  ((List.range 16).foldl State.queueSettle s).syncCtx

/-- A Cask walk: its query is INVALID_INPUT; a shard walked for another member is answered missing. -/
def State.failWalk (s : State) (w : Walk) : State :=
  match w.asker, s.csk.qs.find? (fun q => q.tag == w.q) with
  | none, some q => (s.refuseQuery q).caskSettle
  | _, _ => (s.sendAnswer w { shard := w.shard, epoch := w.epoch, missing := true }).caskSettle

/-! ## The commands -/

/-- A node read of walk w returns: those of its batch are scored in batch order (R342), a speculative one goes to the prefetch buffer (R341). -/
def nodeReadReturn (w node : Nat) (s : State) : State :=
  match s.csk.walks.find? (fun x => x.id == w) with
  | none => s
  | some x =>
    let d := s.shd x.idx x.replica
    let due := x.batch.any (fun e => e.1 == node) && !x.got.any (fun g => g.1 == node)
    let bad := s.poisoned (d.nodeAt node) (nodeSize d.deep)
    if x.ended || x.unit.isNone || !(due || x.spec.contains node) || (d.nodePages node).any s.cellarOnly then s
    else if due && bad then (s.poisonTask x.idx).failWalk x
    else
      let c := s.walkCtx x
      let e := (node, s.rdList (d.nodeAt node) (nodeSize d.deep))
      let x' : Walk := { x with spec := x.spec.filter (· != node) }
      let y := if due then x'.take c e else if bad then x' else { x' with pre := x'.pre ++ [e] }
      let y := if c.past then y.stopLate else y.proceed c 65
      let k := y.dangling - x.dangling
      let s := if k = 0 then s else (s.addSat F.CSK_DANGLING_COUNT k).event 0xB 3 x.idx
      s.issue y

/-- A walk reaches its deadline: it stops with flag DEADLINE and its outstanding reads are discarded (R342); a query still waiting for
Cellar is answered with count 0 (R334). -/
def caskQueryDeadline (w : Nat) (s : State) : State :=
  match s.csk.walks.find? (fun x => x.id == w) with
  | none => s
  | some x =>
    if s.mono < x.due then s
    else if x.unit.isSome then
      if x.ended then s else s.setWalk x.stopLate
    else if s.idxReady x.idx || s.idxGone x.idx then s
    else
      let s := match x.asker, s.csk.qs.find? (fun q => q.tag == x.q) with
        | none, some q => s.askShards q
        | _, _ => s
      s.sendAnswer x { shard := x.shard, epoch := x.epoch, flags := 2 }

/-- The rerank of a walk (R342): rereads, exact distances, order, the first k; and how many were revised. -/
def State.rerank (s : State) (w : Walk) : List (Nat × Nat × Nat) × Nat :=
  let d := s.shd w.idx w.replica
  let cb := s.book w.idx
  let q := rqDesc w.req
  let kept := w.best.filter (fun b => (s.nodeRd d b.2.1).rev == b.2.2.1)
  let ents := kept.map (fun b =>
    let nd := s.nodeRd d b.2.1
    let sl := b.2.2.2
    let dist := if d.deep then exactCode cb q (nth [] nd.codes sl)
      else sqDist (int8s q) (int8s (s.rdList (d.entryAt b.2.1 sl) 256))
    (s.identOf d b.2.1 sl, dist, nth 0 nd.attrs sl))
  let lt := fun (a b : Nat × Nat × Nat) => decide (a.2.1 < b.2.1) || (a.2.1 == b.2.1 && decide (a.1 < b.1))
  ((sortBy lt ents).take (rqK w.req), w.best.length - kept.length)

/-- A walk that has stopped is reranked and answered (R342, R350, R351, R354). -/
def caskQueryDone (w : Nat) (s : State) : State :=
  match s.csk.walks.find? (fun x => x.id == w) with
  | none => s
  | some x =>
    let d := s.shd x.idx x.replica
    let need := if d.deep then x.best.flatMap (fun b => d.nodePages b.2.1 ++ pagesOf (d.entryAt b.2.1 b.2.2.2) (entrySize true)) else []
    let bad := x.best.any (fun b => s.poisoned (d.nodeAt b.2.1) (nodeSize d.deep) || s.poisoned (d.entryAt b.2.1 b.2.2.2) (entrySize d.deep))
    if !x.ended || x.unit.isNone then s
    else if need.any s.cellarOnly then s.fetchAll need
    else if bad then (s.poisonTask x.idx).failWalk x
    else
      let r := s.rerank x
      let s := s.addSat F.CSK_REVISED_COUNT r.2
      (s.sendAnswer x { shard := x.shard, epoch := x.epoch, ents := r.1, flags := x.flags + (if x.replica then 16 else 0),
                        nodes := x.reads, dangling := x.dangling, revised := r.2 }).caskSettle

/-- SHARD_US after the deadline the master merges; shards with no answer are missing (R354). -/
def shardMergeTimeout (tag : Nat) (s : State) : State :=
  match s.csk.qs.find? (fun q => q.tag == tag) with
  | none => s
  | some q =>
    if q.asked.length ≤ 1 || decide (s.mono < s.dueOf q.req q.since + 1000 * s.f F.CSK_IDX_TIMEOUT_SHARD_US (rqIdx q.req)) || (s.csk.qs.any (fun x => x.tag == tag) && (s.role == 2 || s.role == 3) && q.origin != 17) then s
    else
      let missing := q.asked.filter (fun sh => !q.answers.any (fun a => a.shard == sh))
      ((s.setCq { q with missing := missing }).finishQuery { q with missing := missing }).caskSettle

/-! ## Compaction (R348) -/

/-- Step 1: the tombstoned slots become free, their buckets are cleared, rev is incremented once. -/
def State.freeTombs (s : State) (d : Shd) (n : Nat) : State :=
  let nd := s.nodeRd d n
  let tombs := (List.range 32).filter nd.isTomb
  if tombs.isEmpty then s
  else
    let s := tombs.foldl (fun s sl => s.locClear d (s.identOf d n sl) n sl) s
    let s := s.nodeWr d n { nd with rev := (nd.rev + 1) % 65536, used := nd.used - tombs.length,
                                    attrs := tombs.foldl (fun l sl => setNth l sl 0) nd.attrs }
    s.addHdr d 32 8 (-(tombs.length : Int))

/-- Steps 3 and 4: edges to freed nodes are cleared, empty edges refilled from the edges of the remaining neighbours. -/
def State.repairEdges (s : State) (d : Shd) (n : Nat) : State :=
  let nd := s.nodeRd d n
  let cb := s.book d.idx
  let keep := nd.edges.map (fun e => if e.1 = noNode then e else if (s.nodeRd d e.1).gen = e.2 then e else (noNode, 0))
  let linked := (keep.filter (fun e => e.1 != noNode)).map (·.1)
  let cand := (linked.flatMap (fun v => (s.nodeRd d v).edges)).filter (fun e =>
    e.1 != noNode && e.1 != n && !linked.contains e.1 && (s.nodeRd d e.1).gen == e.2)
  let cand := (sortBy candLt ((cand.eraseDups).map (fun e => (codeDist d.deep cb nd.rep (s.nodeRd d e.1).rep, e.1, e.2)))).map
    (fun e => (e.2.1, e.2.2))
  let fill := keep.foldl (fun (r : List (Nat × Nat) × List (Nat × Nat)) e =>
    if e.1 = noNode then (match r.2 with | c :: cs => (r.1 ++ [c], cs) | [] => (r.1 ++ [e], []))
    else (r.1 ++ [e], r.2)) ([], cand)
  if fill.1 = nd.edges then s else s.nodeWr d n { nd with edges := fill.1 }

/-- Compaction processes a node. -/
def State.compactNode (s : State) (d : Shd) (n : Nat) : State :=
  let s := s.freeTombs d n
  let nd := s.nodeRd d n
  if nd.occupied.isEmpty && !bitOf nd.flags 0 then
    let s := s.nodeWr d n { nd with gen := (nd.gen + 1) % 65536, edges := List.replicate 12 (noNode, 0), rep := leBytes 4 (s.hdr d 20 4) }
    let s := s.setHdr d 20 4 n
    if d = s.shd d.idx false then s.setF F.CSK_IDX_NODES_COUNT (s.f F.CSK_IDX_NODES_COUNT d.idx - 1) d.idx else s
  else s.repairEdges d n

/-- The next allocated node of an index at or after n: freed nodes are on the free list. -/
def State.nextNode (s : State) (d : Shd) (n : Nat) : Option Nat :=
  let freed := s.freeList d (s.hdr d 20 4) (s.nodesOf d)
  let alive := (List.range (s.nodesOf d)).filter (fun x => !freed.contains x)
  match alive.find? (fun x => decide (n ≤ x)) with
  | some x => some x
  | none => alive.head?

/-- Compaction takes the next node of an index, pass after pass, where a context is free (R348); `k` is the index, or 8 + the index of the replica this part holds. -/
def caskCompactNode (k : Nat) (s : State) : State :=
  let i := k % 8
  let replica := decide (8 ≤ k)
  let d := s.shd i replica
  match s.nextNode d (tget 0 s.csk.pos k) with
  | none => s
  | some n =>
    if decide (16 ≤ k) || !s.idxOn i || !s.idxReady i || !s.holdsShard i || (replica && !s.hasReplicas i) || s.freeCtx.isNone then s
    else
      let s : State := { s with csk.pos := tput 0 s.csk.pos k (n + 1) }
      (s.compactNode d n).syncIdx i

/-! ## Shards over the ring (R353, R354, R430) -/

/-- A message of the Cask arrives from member `src`. -/
def State.caskMsg (s : State) (src : Nat) (m : Msg) : State :=
  match m with
  | .query tag age req => (s.newQuery 17 tag src req (s.mono - age)).caskSettle
  | .walk tag shard age ep req =>
    let i := rqIdx req
    let rep := shard != s.ownShard i
    if !s.idxOn i || s.idxGone i || (rep && !(s.keepsReplica i && shard == s.replicaShard i)) then
      s.sendMsg src 1 (.answer tag { shard := shard, epoch := ep, missing := true })
    else
      (s.addWalk { q := tag, asker := some src, origin := 17, k := tag, idx := i, shard := shard, replica := rep, epoch := ep, req := req,
                   since := s.mono - age, due := s.dueOf req (s.mono - age) }).caskSettle
  | .answer tag a => (s.takeAnswer tag a).caskSettle
  | .result tag rec =>
    match s.csk.qs.find? (fun q => q.tag == tag) with
    | none => s
    | some q =>
      let rec' := rec.take 16 ++ tsBytes s.now ++ (rec.drop 28).take 8 ++ leBytes 4 (satU 32 ((s.mono - q.since) / 1000)) ++ rec.drop 40
      let st := rqNum rec 8 1
      s.giveResult q (if st = 0 then [] else [st]) (fitBytes 1088 rec')
  | .change tag op shard req =>
    let i := rqNum req 1 1
    match (tget [] s.csk.ops src).find? (fun o => o.1 == op) with
    | some o => s.sendMsg src 2 (.changed tag o.2.1 o.2.2.1 o.2.2.2)
    | none =>
      let rep := shard != s.ownShard i
      if rep then
        let r := s.applyChange i true req
        let n := r.1.nodeOr r.2.2
        let st := statusOf r.1.baseConds
        let s := r.1.used
        let s : State := { s with csk.ops := tput [] s.csk.ops src (((op, r.2.1, st, n) :: tget [] s.csk.ops src).take 4096) }
        s.sendMsg src 2 (.changed tag r.2.1 st n)
      else
        let p : CPend := { tag := s.csk.next, q := 17, k := tag, who := src, shard := shard, req := req }
        let s : State := { s with csk.next := s.csk.next + 1,
                                  csk.ops := tput [] s.csk.ops src (((op, 0, 0, 0) :: tget [] s.csk.ops src).take 4096) }
        s.routeChange p
  | .changed tag code status node =>
    match s.csk.pend.find? (fun p => p.tag == tag) with
    | none => s
    | some p =>
      match p.res with
      | some r => s.giveChange p r.1 r.2.1 r.2.2
      | none => s.giveChange p code status node
  | _ => s

/-- The placement epochs of a member's shards increase (R370, R430, R431). -/
def State.bumpShards (s : State) (id : Nat) : State :=
  (List.range 8).foldl (fun (s : State) i =>
    if s.idxOn i && s.fb F.CSK_IDX_CTL_SHARDED i && decide (id < s.shardsOf i) then
      ({ s with csk.epochs := tput 0 s.csk.epochs (i * 16 + id) (tget 0 s.csk.epochs (i * 16 + id) + 1) } : State).syncShard i
    else s) s

/-- Whether a query of this part waits at the master. -/
def State.atMaster (s : State) (q : CQuery) : Bool :=
  (s.role == 2 || s.role == 3) && q.origin != 17 && s.fb F.CSK_IDX_CTL_SHARDED (rqIdx q.req) && !bitOf (rqFlags q.req) 0

/-- Another member has become master: open queries are sent to it (Table 15-3). -/
def State.caskNewMaster (s : State) : State :=
  (s.csk.qs.filter s.atMaster).foldl
    (fun s q => s.sendMsg (s.f F.LNK_STATUS_MASTER_NOW) 1 (.query q.tag (s.mono - q.since) q.req)) s

/-- A member is lost (R430): what was asked of it is asked of the replica, under the new placement epochs. -/
def State.caskMemberLost (s : State) (id : Nat) : State :=
  let s := s.bumpShards id
  let open_ := s.csk.qs.filter (fun q => q.asked.contains id && !q.answers.any (fun a => a.shard == id)
    && s.fb F.CSK_IDX_CTL_SHARDED (rqIdx q.req) && !s.atMaster q
    && !s.csk.walks.any (fun w => w.asker.isNone && w.q == q.tag && w.unit.isNone && !w.begun))
  let s := open_.foldl (fun s q => s.askShards { q with asked := [id] }) s
  let again := s.csk.pend.filter (fun p => p.shard == id && p.res.isNone)
  let s := again.foldl (fun s p => ({ s with csk.pend := s.csk.pend.filter (fun x => x.tag != p.tag) } : State).routeChange p) s
  let acked := s.csk.pend.filter (fun p => p.res.isSome && (p.shard + 1) % s.shardsOf (rqNum p.req 1 1) == id)
  acked.foldl (fun s p => match p.res with | some r => s.giveChange p r.1 r.2.1 r.2.2 | none => s) s

/-! ## Meanings -/

/-- NODE_READ_RETURN (R342). -/
def execNodeReadReturn (w node : Nat) (s : State) : Host.Outcome State Fault Refusal := done (whenUp (nodeReadReturn w node) s)

/-- CASK_QUERY_DEADLINE (R342). -/
def execCaskQueryDeadline (w : Nat) (s : State) : Host.Outcome State Fault Refusal := done (whenUp (caskQueryDeadline w) s)

/-- CASK_QUERY_DONE (R351). -/
def execCaskQueryDone (w : Nat) (s : State) : Host.Outcome State Fault Refusal := done (whenUp (caskQueryDone w) s)

/-- CASK_INSERT (R346). -/
def execCaskInsert (q : Nat) (s : State) : Host.Outcome State Fault Refusal := done (whenUp (caskChange 1 q) s)

/-- CASK_DELETE (R347). -/
def execCaskDelete (q : Nat) (s : State) : Host.Outcome State Fault Refusal := done (whenUp (caskChange 2 q) s)

/-- CASK_REPLACE (R346). -/
def execCaskReplace (q : Nat) (s : State) : Host.Outcome State Fault Refusal := done (whenUp (caskChange 3 q) s)

/-- CASK_COMPACT_NODE (R348). -/
def execCaskCompactNode (i : Nat) (s : State) : Host.Outcome State Fault Refusal := done (whenUp (caskCompactNode i) s)

/-- SHARD_ANSWER_RX (R354). -/
def execShardAnswerRx (tag : Nat) (a : ShardAns) (s : State) : Host.Outcome State Fault Refusal :=
  done (whenUp (fun s => (s.takeAnswer tag a).caskSettle) s)

/-- SHARD_MERGE_TIMEOUT (R354). -/
def execShardMergeTimeout (tag : Nat) (s : State) : Host.Outcome State Fault Refusal := done (whenUp (shardMergeTimeout tag) s)

end Sys2Proof.Machine
end

