-- ==== Sys2Proof/Machine/Dispatcher.lean ====
section
/-!
DEFINITION. The Dispatcher (R364–R371): instances of a task graph's nodes, their waits, issue and completion, migration and failure.
-/

namespace Sys2Proof.Machine
open Sys2Proof

/-! ## Nodes and instances -/

/-- A node of the graph in force. -/
def State.node (s : State) (n : Nat) : Node := nth { block := 0 } s.dsp.graph.nodes n

/-- The placement epoch of a node (R370). -/
def State.epochOf (s : State) (n : Nat) : Nat := tget 0 s.dsp.epochs n

/-- The limit of a node's tasks in microseconds (Table 13-2). -/
def State.limitOf (s : State) (n : Nat) : Nat :=
  if (s.node n).limitUs = 0 then s.f F.DSP_TASK_LIMIT_US else (s.node n).limitUs

/-- Whether a join node: it runs in the Dispatcher itself and takes no in-flight entry (R364). -/
def Node.join (n : Node) : Bool := n.block == 0xC

/-- Waits of pending instances: one pending entry each (R365). -/
def State.pendingWaits (s : State) : Nat := sumN (s.dsp.pend.map (fun i => (s.node i.node).waits.length))

/-- A wait is satisfied (R361): COUNT by the value, the timed kinds by the stamp against the reference time plus the offset. -/
def State.waitMet (s : State) (i : Inst) (first : Bool) (w : Wait) : Bool :=
  match w.kind with
  | 0 => decide (w.base + w.stride * i.k ≤ s.tv w.tally)
  | 1 => !first && bitOf i.met 0 && decide ((i.ref : Int) + sgn 64 w.base < (s.tstamp w.tally : Nat))
  | _ => !first && bitOf i.met 0 && decide ((i.ref : Int) + sgn 64 w.base ≤ (s.tstamp w.tally : Nat))

/-- The waits of an instance from number `j` on are tried; a satisfied wait stays satisfied, and the stamp that satisfies the first
one becomes the reference time (R361, R364). -/
def State.tryWaits (s : State) (i : Inst) (j : Nat) : List Wait → Inst
  | [] => i
  | w :: ws =>
    let i : Inst := if !bitOf i.met j && s.waitMet i (j == 0) w then
        { i with met := setBit i.met j, ref := if j = 0 then s.tstamp w.tally else i.ref }
      else i
    s.tryWaits i (j + 1) ws

/-- Whether every wait of an instance is satisfied. -/
def State.allMet (s : State) (i : Inst) : Bool :=
  (List.range (s.node i.node).waits.length).all (fun j => bitOf i.met j)

/-- Instances of a node that have not completed are made up to its lookahead, while pending entries are free (R364, R365). -/
def State.fillNode (s : State) (n : Nat) : (fuel : Nat) → State
  | 0 => s
  | f + 1 =>
    let node := s.node n
    let have' := (s.dsp.pend.filter (fun i => i.node == n)).length
    if have' < node.lookahead ∧ s.pendingWaits + node.waits.length ≤ 16384 then
      let k := tget 0 s.dsp.nextK n
      let i : Inst := { node := n, k := k, since := s.mono }
      ({ s with dsp.nextK := tput 0 s.dsp.nextK n (k + 1), dsp.pend := s.dsp.pend ++ [i] } : State).fillNode n f
    else s

/-- Every node's pending instances are filled up. -/
def State.fillAll (s : State) : State :=
  (List.range s.dsp.graph.nodes.length).foldl (fun s n => s.fillNode n 8) s

/-- Pending instances whose last wait is satisfied become ready (R361). -/
def State.readyPass (s : State) : State :=
  let l := s.dsp.pend.map (fun i => s.tryWaits i 0 (s.node i.node).waits)
  let r := (l.filter s.allMet).map (fun i => ({ i with since := s.now } : Inst))
  { s with dsp.pend := l.filter (fun i => !s.allMet i), dsp.ready := s.dsp.ready ++ r }

/-! ## Issue (R365, R366) -/

/-- The absolute deadline of a ready instance, in nanoseconds; none for a node without one. -/
def State.deadlineOf (s : State) (i : Inst) : Option Nat :=
  let d := (s.node i.node).deadlineUs
  if d = 0 then none else some (i.since + 1000 * d)

/-- An earlier deadline; none is the latest. -/
def earlier : Option Nat → Option Nat → Bool
  | some a, some b => decide (a < b)
  | some _, none => true
  | none, _ => false

/-- The order of issue (R366): class, deadline, node, iteration. -/
def State.before (s : State) (i j : Inst) : Bool :=
  let ci := (s.node i.node).cls
  let cj := (s.node j.node).cls
  let di := s.deadlineOf i
  let dj := s.deadlineOf j
  decide (ci < cj) || (ci == cj && (earlier di dj || (di == dj && (decide (i.node < j.node) || (i.node == j.node && decide (i.k < j.k))))))

/-- Units of a block that take its tasks one at a time: fusion pipelines; other blocks order what is offered to them (R366). -/
def State.unitsOfBlock (s : State) (b : Nat) : Option Nat := if b = 8 then some (s.workingOf 0xD) else none

/-- Whether a ready instance finds a free in-flight entry with its home cluster's scheduler (512 entries) and a free unit. -/
def State.canIssue (s : State) (i : Inst) : Bool :=
  let n := s.node i.node
  let room := decide ((s.dsp.flight.filter (fun j => (s.node j.node).home == n.home)).length < 512)
  let unit := match s.unitsOfBlock n.block with
    | some m => decide ((s.dsp.flight.filter (fun j => (s.node j.node).block == n.block)).length < m)
    | none => true
  n.join || (room && unit)

/-- A unit number that no task of the block in flight holds. -/
def State.freeUnitOf (s : State) (b : Nat) : Nat :=
  let taken := (s.dsp.flight.filter (fun j => (s.node j.node).block == b)).map (·.unit)
  ((List.range 513).find? (fun u => !taken.contains u)).getD 0

/-- The registers of the Dispatcher's load. -/
def State.syncDsp (s : State) : State :=
  let n := s.dsp.flight.length
  let w := s.pendingWaits
  let s := { s with dsp.inPeak := notePeakL s.dsp.inPeak s.mono n, dsp.waitPeak := notePeakL s.dsp.waitPeak s.mono w }
  let s := (s.setF F.DSP_STATUS_IN_FLIGHT n).tele R.DSP_CAPACITY (fun s => s.setF F.DSP_CAPACITY_PEAK (peakOf s.dsp.inPeak))
  (s.setF F.DSP_PENDING_WAITS w).tele R.DSP_PENDING (fun s => s.setF F.DSP_PENDING_PEAK (peakOf s.dsp.waitPeak))

/-- All advances of an instance that it has not made yet, by its block (R368). -/
def State.makeAdvances (s : State) (i : Inst) (stamp : Option Nat) : State :=
  ((s.node i.node).advs.drop i.made).foldl (fun s a => s.advanceRaw (s.node i.node).block a.tally a.amount stamp) s

/-- Whether an earlier instance of the node has not completed: its advances come first (R364). -/
def State.earlierOpen (s : State) (i : Inst) : Bool :=
  let open' := fun (l : List Inst) => l.any (fun j => j.node == i.node && decide (j.k < i.k))
  open' s.dsp.pend || open' s.dsp.ready || open' s.dsp.flight

/-- A ready instance is issued: a join node completes at once; another goes in flight with its placement epoch. -/
def State.issueOne (s : State) (i : Inst) : State :=
  let n := s.node i.node
  let s := { s with dsp.ready := s.dsp.ready.filter (fun j => !(j.node == i.node && j.k == i.k)) }
  if n.join then s.makeAdvances i (some i.ref)
  else if n.advs.isEmpty then s
  else { s with dsp.flight := s.dsp.flight ++ [({ i with unit := s.freeUnitOf n.block, began := s.mono, epoch := s.epochOf i.node } : Inst)] }

/-- Ready instances are issued in their order while entries and units are free; the issued ones are listed. -/
def State.issueAll (s : State) : (fuel : Nat) → State × List Inst
  | 0 => (s, [])
  | f + 1 =>
    match bestBy s.before (s.dsp.ready.filter (fun i => s.canIssue i && !(((s.node i.node).join) && s.earlierOpen i))) with
    | none => (s, [])
    | some i =>
      let r := (s.issueOne i).issueAll f
      (r.1, i :: r.2)

/-- One round of the Dispatcher: fill, satisfy waits, issue. -/
def State.dispatchRound (s : State) : State × List Inst :=
  let s := s.fillAll.readyPass.fillAll
  let r := s.issueAll (s.dsp.ready.length + 1)
  (r.1.syncDsp, r.2)

/-! ## Completion, failure, migration -/

/-- Whether an advance is the next one of a task in flight, under its node's epoch. -/
def State.taskNext (s : State) (node k epoch tally amount : Nat) : Bool :=
  decide (s.epochOf node ≤ epoch) && (match s.dsp.flight.find? (fun i => i.node == node && i.k == k) with
    | some i => (match (s.node node).advs.drop i.made with
      | a :: _ => a.tally == tally && a.amount == amount && !s.earlierOpen i
      | [] => false)
    | none => false)

/-- One advance that a task in flight makes (R360, R365, R371): dropped and counted where it carries an epoch older than its node's;
the last advance ends its flight. An advance that is not the task's next one, or comes before those of an earlier instance, cannot
occur and changes nothing. -/
def State.taskAdvance (s : State) (node k epoch tally amount : Nat) (stamp : Option Nat) : State :=
  if epoch < s.epochOf node then s.addSat F.DSP_STALE_EPOCH_COUNT
  else
    match s.dsp.flight.find? (fun i => i.node == node && i.k == k) with
    | none => s
    | some i =>
      match (s.node node).advs.drop i.made with
      | [] => s
      | a :: rest =>
        if a.tally ≠ tally ∨ a.amount ≠ amount ∨ s.earlierOpen i then s
        else
          let others := s.dsp.flight.filter (fun j => !(j.node == node && j.k == k))
          let s := { s with dsp.flight := if rest.isEmpty then others else others ++ [({ i with made := i.made + 1 } : Inst)] }
          (s.advanceRaw (s.node node).block tally amount stamp).syncDsp

/-- A task fails (R368): counted, logged with its cause, its advances made by the Dispatcher. -/
def State.failTask (s : State) (i : Inst) (cause : Nat) : State :=
  let s := { s with dsp.flight := s.dsp.flight.filter (fun j => !(j.node == i.node && j.k == i.k)) }
  let s := (s.addSat F.DSP_TASK_FAILED_COUNT).event 0xC 0 i.node 0 cause
  (s.makeAdvances i none).syncDsp

/-- A task is re-placed (R370): its node's epoch rises, and it restarts on another unit. -/
def State.migrateTask (s : State) (i : Inst) : State :=
  let e := (s.epochOf i.node + 1) % 2 ^ 32
  let s := { s with dsp.epochs := tput 0 s.dsp.epochs i.node e }
  let others := s.dsp.flight.filter (fun j => !(j.node == i.node && j.k == i.k))
  let s := { s with dsp.flight := others }
  let j : Inst := { i with faults := i.faults + 1, epoch := e, began := s.mono, unit := s.freeUnitOf (s.node i.node).block }
  let s := { s with dsp.flight := others ++ [j] }
  (s.addSat F.DSP_MIGRATIONS_COUNT).event 0xC 1 i.node

/-- The task of a node and iteration that is in flight. -/
def State.inFlight (s : State) (node k : Nat) : Option Inst := s.dsp.flight.find? (fun i => i.node == node && i.k == k)

/-- A pending instance has waited beyond WAIT_LIMIT (R369): reported once per node. -/
def waitLimitExpire (node k : Nat) (s : State) : State :=
  match s.dsp.pend.find? (fun i => i.node == node && i.k == k) with
  | none => s
  | some i =>
    if s.dsp.stuck.contains node || decide (s.mono < i.since + 1000000000 * s.f F.DSP_WAIT_LIMIT_S) then s
    else
      let ws := (s.node node).waits
      let j := ((List.range ws.length).find? (fun j => !bitOf i.met j)).getD 0
      let t := (nth { tally := 0 } ws j).tally
      let s := { s with dsp.stuck := node :: s.dsp.stuck }
      (s.addSat F.DSP_STUCK_COUNT).event 0xC 9 node t

/-! ## The host's Tallies (R363) -/

/-- A host write of DSP_HOST_ADV. -/
def hostTallyAdvance (index amount : Nat) (s : State) : State :=
  let flagged : Bool := match s.tallyEnt index with | some e => bitOf e.flags 0 | none => false
  if flagged ∧ 1 ≤ amount ∧ amount ≤ 65535 then s.advanceRaw 31 index amount none else s.event 0xC 10 index

/-- A write of DSP_HOST_WAIT_CTL with ARM set: the slot is armed, and tested at once. -/
def hostWaitArm (slot index : Nat) (s : State) : State :=
  if 64 ≤ slot then s
  else ((s.setF F.DSP_HOST_WAIT_CTL_INDEX index slot).setB F.DSP_HOST_WAIT_CTL_ARM true slot).testSlot slot

/-- A write of DSP_HOST_WAIT_CTL with ARM clear. -/
def hostWaitDisarm (slot index : Nat) (s : State) : State :=
  if 64 ≤ slot then s
  else (s.setF F.DSP_HOST_WAIT_CTL_INDEX index slot).setB F.DSP_HOST_WAIT_CTL_ARM false slot

/-! ## Cooper's load (R382) and the event log's folding (R387) -/

/-- Since when the load has been above SHED_PCT, and since when below RESTORE_PCT. -/
def State.noteLoad (s : State) (above below : Bool) : State :=
  { s with dsp.loadSince := if above then some (s.dsp.loadSince.getD s.mono) else none,
           dsp.lowSince := if below then some (s.dsp.lowSince.getD s.mono) else none }

/-- The start of the time that counts for a change of level: not before the previous change. -/
def State.countFrom (s : State) (since : Option Nat) : Nat := match since with | some t => Nat.max t s.dsp.shedAt | none => s.mono

/-- The shedding level changes (R382). -/
def State.shedTo (s : State) (lvl : Nat) : State :=
  ({ s.setF F.DSP_COOPER_SHED_LEVEL lvl with dsp.shedAt := s.mono } : State).event 0xC 7 0 0 lvl

/-- The Cooper load is evaluated: a level is entered 1 s above SHED_PCT since the previous one, one restored for each 5 s below
RESTORE_PCT (R382, Table 13-6). -/
def cooperLoadEval (l0 l1 l2 : Nat) (s : State) : State :=
  let s := s.tele R.DSP_COOPER_LOAD (fun s => ((s.setF F.DSP_COOPER_LOAD_CORE0 l0).setF F.DSP_COOPER_LOAD_CORE1 l1).setF F.DSP_COOPER_LOAD_CORE2 l2)
  let load := Nat.max l0 (Nat.max l1 l2)
  let lvl := s.f F.DSP_COOPER_SHED_LEVEL
  let above := decide (10 * s.f F.DSP_COOPER_CFG_SHED_PCT < load)
  let below := decide (load < 10 * s.f F.DSP_COOPER_CFG_RESTORE_PCT)
  let s := s.noteLoad above below
  if above ∧ lvl < 3 ∧ s.countFrom s.dsp.loadSince + 1000000000 ≤ s.mono then s.shedTo (lvl + 1)
  else if below ∧ 0 < lvl ∧ s.countFrom s.dsp.lowSince + 5000000000 ≤ s.mono then s.shedTo (lvl - 1)
  else s

/-- The end of a folding second (R387). -/
def eventFoldFlush (src code unit : Nat) (s : State) : State := s.flushFold src code unit

/-! ## Meanings -/

/-- WAIT_LIMIT_EXPIRE (R369). -/
def execWaitLimitExpire (node k : Nat) (s : State) : Host.Outcome State Fault Refusal := done (whenUp (waitLimitExpire node k) s)
/-- HOST_TALLY_ADVANCE (R363). -/
def execHostTallyAdvance (index amount : Nat) (s : State) : Host.Outcome State Fault Refusal :=
  done (whenOn (s.loaded && s.reach 0) (hostTallyAdvance index amount) s)
/-- HOST_WAIT_ARM (R363). -/
def execHostWaitArm (slot index : Nat) (s : State) : Host.Outcome State Fault Refusal := done (whenOn (s.loaded && s.reach 0) (hostWaitArm slot index) s)
/-- HOST_WAIT_DISARM (R363). -/
def execHostWaitDisarm (slot index : Nat) (s : State) : Host.Outcome State Fault Refusal :=
  done (whenOn (s.loaded && s.reach 0) (hostWaitDisarm slot index) s)
/-- COOPER_LOAD_EVAL (R382). -/
def execCooperLoadEval (l0 l1 l2 : Nat) (s : State) : Host.Outcome State Fault Refusal := done (whenUp (cooperLoadEval l0 l1 l2) s)
/-- EVENT_FOLD_FLUSH (R387). -/
def execEventFoldFlush (src code unit : Nat) (s : State) : Host.Outcome State Fault Refusal :=
  done (whenUp (eventFoldFlush src code unit) s)

end Sys2Proof.Machine
end

