-- ==== Sys2Proof/Machine/Host.lean ====
section
/-!
DEFINITION. The host interface and the map service (chapter 14): rings, windows, query slots, apertures, vectors, resets, Ethernet services.
-/

namespace Sys2Proof.Machine
open Sys2Proof

/-! ## MSI-X (R392, R405) -/

/-- A word of a function's MSI-X table. -/
def State.msixWord (s : State) (fn off : Nat) : Nat := tget (if off % 16 = 12 then 1 else 0) s.hst.msix (fn * 0x1000 + off)

/-- A word of a function's MSI-X table is written; a pending vector that is unmasked sends its message. -/
def State.msixWrite (s : State) (fn off v : Nat) : State :=
  let s : State := { s with hst.msix := tput (if off % 16 = 12 then 1 else 0) s.hst.msix (fn * 0x1000 + off) (v % 2 ^ 32) }
  let vec := off / 16
  if off % 16 = 12 ∧ !bitOf v 0 ∧ s.hst.pba.contains (fn * 128 + vec) ∧ !bitOf s.hst.d3 fn then
    ({ s with hst.pba := s.hst.pba.filter (· != fn * 128 + vec) } : State).irq fn vec
  else s

/-- MSIX_TABLE_WRITE (R392): a VF's naturally aligned 4-byte write to its own table of one vector. -/
def msixTableWrite (fn off v : Nat) (s : State) : State :=
  if 1 ≤ fn ∧ fn ≤ 15 ∧ off < 16 ∧ off % 4 = 0 ∧ s.reach fn then s.msixWrite fn off v else s

/-! ## Rings, windows and streams (R394–R399, R405, R409) -/

/-- A wrapped entry (Table 14-5). -/
def wrapEntry (seq kind source : Nat) (rec : List Byte) (slot : Nat) : List Byte :=
  leBytes 8 seq ++ leBytes 1 kind ++ leBytes 1 source ++ leBytes 2 rec.length ++ leBytes 4 0 ++ fitBytes 224 rec ++ leBytes 8 slot
    ++ leBytes 8 seq

/-- The sequence number of an entry, and its bytes: a pose record is an entry in its own right (R394). -/
def entryOf (p : Pub) (n : Nat) : Nat × List Byte :=
  if p.kind = 0 then (leValue (p.bytes.take 8), fitBytes 256 p.bytes) else (n, wrapEntry n p.kind p.source p.bytes p.slot)

/-- Vector 4 + n fires where enough entries are unread and it has not fired since the host wrote RD (R405). -/
def State.ringIrq (s : State) (n : Nat) : State :=
  let unread := s.pair R.HST_RING_WR_LO R.HST_RING_WR_HI n - s.pair R.HST_RING_RD_LO R.HST_RING_RD_HI n
  if s.hst.fired.contains n || decide (unread < s.f F.HST_RING_IRQ_IRQ_TH n) || unread == 0 then s
  else ({ s with hst.fired := n :: s.hst.fired } : State).irq 0 (4 + n)

/-- A record is written into ring n (R395, R398, R399, R405). -/
def State.ringPut (s : State) (n : Nat) (p : Pub) : State :=
  let cnt := tget 0 s.hst.seqs n + 1
  let e := entryOf p cnt
  let at_ := s.pair R.HST_RING_BACK_LO R.HST_RING_BACK_HI n + 256 * (e.1 % 2 ^ s.f F.HST_RING_CTL_LOG2_LEN n)
  let old := s.rdNum at_ 8
  let s : State := { s with hst.seqs := tput 0 s.hst.seqs n cnt }
  let s := if old != 0 && decide (s.pair R.HST_RING_RD_LO R.HST_RING_RD_HI n < old) then
      (s.addSat F.HST_RING_OVERRUN_COUNT 1 n).event 0xD 0 n else s
  let s := (s.wrList at_ e.2).setPair R.HST_RING_WR_LO R.HST_RING_WR_HI e.1 n
  let hold := s.f F.HST_RING_REL_HOLD_US n
  let s : State := if hold = 0 then s
    else { s with hst.holds := s.hst.holds ++ [{ tally := s.f F.HST_RING_REL_TALLY n, due := s.mono + 1000 * hold }] }
  s.ringIrq n

/-- A record is published in window w (R395, R397). -/
def State.winPut (s : State) (w : Nat) (p : Pub) : State :=
  let cnt := tget 0 s.hst.seqs (64 + w) + 1
  { s with hst.seqs := tput 0 s.hst.seqs (64 + w) cnt, hst.wins := tput [] s.hst.wins w (entryOf p cnt).2 }

/-- A pose stream. -/
def State.stream (s : State) (n : Nat) : Stream := tget {} s.hst.streams n
def State.setStream (s : State) (n : Nat) (x : Stream) : State := { s with hst.streams := tput {} s.hst.streams n x }

/-- A pose record joins a stream: a packet forms with BATCH records, or at a vision record (R409). -/
def State.streamPut (s : State) (n : Nat) (p : Pub) : State :=
  let x := s.stream n
  let held := x.held ++ [fitBytes 256 p.bytes]
  if p.vision || decide (s.f F.HST_STR_CTL_BATCH n ≤ held.length) then
    s.setStream n { x with held := [], out := x.out ++ [held] }
  else s.setStream n { x with held := held, since := if x.held.isEmpty then s.mono else x.since }

/-- RING_RECORD_COPY (R395): the oldest uncopied record of a source goes into every ring and window that names it, and into the pose
streams of its session. A pose record takes its latency at this write (Table 9-9). -/
def ringRecordCopy (kind source : Nat) (s : State) : State :=
  let mine := fun (p : Pub) => p.kind == kind && p.source == source
  match s.hst.outq.find? mine with
  | none => s
  | some p =>
    let ts := leValue ((p.bytes.drop 8).take 8) * 1000000000 + leValue ((p.bytes.drop 16).take 4)
    let bytes := if kind = 0 then p.bytes.take 184 ++ leBytes 4 (satU 32 (s.now - ts)) ++ p.bytes.drop 188 else p.bytes
    let p := { p with bytes := bytes }
    let s : State := { s with hst.outq := (s.hst.outq.takeWhile (fun q => !mine q)) ++ ((s.hst.outq.dropWhile (fun q => !mine q)).drop 1) }
    let s := (List.range 64).foldl (fun s n =>
      if s.fb F.HST_RING_CTL_ENABLE n && s.f F.HST_RING_CTL_KIND n == kind && s.f F.HST_RING_CTL_SOURCE n == source
          && !(kind == 0 && s.fb F.HST_RING_CTL_VISION_ONLY n && !p.vision) then s.ringPut n p else s) s
    let s := (List.range 256).foldl (fun s w =>
      if s.fb F.HST_WIN_ENABLE w && s.f F.HST_WIN_KIND w == kind && s.f F.HST_WIN_SOURCE w == source
          && !(kind == 0 && s.fb F.HST_WIN_VISION_ONLY w && !p.vision) then s.winPut w p else s) s
    if kind = 0 then
      (List.range 32).foldl (fun s n =>
        if s.fb F.HST_STR_CTL_ENABLE n && s.f F.HST_STR_CTL_SESSION n == source
            && !(s.fb F.HST_STR_CTL_VISION_ONLY n && !p.vision) then s.streamPut n p else s) s
    else s

/-- The host writes RD of a ring (R399, R405): ignored below RD or above WR; the vector is armed again. -/
def hstRingRdWrite (n seq : Nat) (s : State) : State :=
  if 64 ≤ n || !s.loaded || !s.reach 0 || decide (seq < s.pair R.HST_RING_RD_LO R.HST_RING_RD_HI n)
      || decide (s.pair R.HST_RING_WR_LO R.HST_RING_WR_HI n < seq) then s
  else
    let s := s.setPair R.HST_RING_RD_LO R.HST_RING_RD_HI seq n
    let s : State := { s with hst.fired := s.hst.fired.filter (· != n) }
    if s.fb F.HST_RING_CTL_ENABLE n then s.ringIrq n else s

/-- An unread entry has waited IRQ_US (R405). -/
def ringIrqTimer (n : Nat) (s : State) : State :=
  if 64 ≤ n || !s.fb F.HST_RING_CTL_ENABLE n || s.f F.HST_RING_IRQ_IRQ_US n == 0 || s.hst.fired.contains n
      || decide (s.pair R.HST_RING_WR_LO R.HST_RING_WR_HI n ≤ s.pair R.HST_RING_RD_LO R.HST_RING_RD_HI n) then s
  else ({ s with hst.fired := n :: s.hst.fired } : State).irq 0 (4 + n)

/-- HOLD_US has passed since an entry was written: its release Tally advances (R398). -/
def holdRelease (s : State) : State :=
  match s.hst.holds.find? (fun h => decide (h.due ≤ s.mono)) with
  | none => s
  | some h => ({ s with hst.holds := s.hst.holds.erase h } : State).advance 0xD h.tally 1

/-! ## Query slots (R402, R403) -/

/-- A query slot of a function. -/
def State.slot (s : State) (fn n : Nat) : Slot := tget {} s.hst.slots (fn * 64 + n)
def State.setSlot (s : State) (fn n : Nat) (x : Slot) : State := { s with hst.slots := tput {} s.hst.slots (fn * 64 + n) x }

/-- Whether a function's BAR2 write reaches a query slot. -/
def State.slotHere (s : State) (fn n : Nat) : Bool := decide (fn ≤ 15) && decide (n < 64) && s.loaded && s.reach fn

/-- A write to the request area is stored (Table 14-8). -/
def slotRequestWrite (fn n off : Nat) (bytes : List Byte) (s : State) : State :=
  if !s.slotHere fn n || decide (320 < off + bytes.length) then s
  else
    let x := s.slot fn n
    let r := fitBytes 320 x.request
    s.setSlot fn n { x with request := r.take off ++ bytes ++ r.drop (off + bytes.length) }

/-- A POST (Table 14-8, R403). -/
def slotPost (fn n : Nat) (s : State) : State :=
  if !s.slotHere fn n then s
  else
    let x := s.slot fn n
    if x.state ≠ 0 then (s.addSat F.HST_SLOT_BUSY_COUNT).event 0xD 2 n 0 fn
    else
      let req := fitBytes 320 x.request
      let posts := (x.posts + 1) % 65536
      let s := s.setSlot fn n { x with state := 1, posts := posts, result := [] }
      let q : CQuery := { tag := s.csk.next, origin := 16, k := fn * 64 + n, who := posts, req := req, since := s.mono }
      if !bitOf (s.f F.HST_FN_INDEX_MASK fn) (rqIdx req) || !rqInTable req then
        -- it does not reach the Cask
        s.answerSlot q.k posts (s.resultBytes req s.mono (s.askedOf req).length 0 [St.invalidInput] 0 [] 0 0 0)
      else (s.newQuery 16 (fn * 64 + n) posts req s.mono).caskSettle

/-- A pending query of a slot is abandoned. -/
def State.dropQuery (s : State) (key : Nat) : State :=
  let gone := s.csk.qs.filter (fun q => q.origin == 16 && q.k == key)
  { s with csk.qs := s.csk.qs.filter (fun q => !(q.origin == 16 && q.k == key)),
           csk.walks := s.csk.walks.filter (fun w => !(w.asker.isNone && gone.any (fun q => q.tag == w.q))) }

/-- A slot is released (Table 14-8). -/
def State.releaseSlot (s : State) (fn n : Nat) : State :=
  let x := s.slot fn n
  if x.state = 0 then s else (s.dropQuery (fn * 64 + n)).setSlot fn n { x with state := 0, result := [] }

/-- A RELEASE. -/
def slotRelease (fn n : Nat) (s : State) : State := if s.slotHere fn n then (s.releaseSlot fn n).caskSettle else s

/-! ## Apertures (R400, R401) -/

/-- A BAR4 read (R392, R400, R401): zeros, counted, where masked or beyond PAGES; EP where it meets a poisoned line; the read waits where its page's
accesses are held, and a DEEP page that only Cellar holds is demand-filled. -/
def bar4Read (fn off len : Nat) (s : State) : State :=
  if 15 < fn || !s.loaded || !s.reach fn then s
  else
    let open_ := (List.range len).map (fun i => s.apOpen fn (off + i))
    let s := if open_.all id then s else (s.addSat F.HST_BAR4_DENIED_COUNT).event 0xD 3 fn
    let page := s.apAddr off / 65536
    if s.apOpen fn off && s.accessHeld page then
      let s : State := { s with mm.bar4 := s.mm.bar4 ++ [(fn, off, len)] }
      if s.cellarOnly page then s.fetchPage page else s
    else s.bar4Answer fn off len

/-- A demand-filled read unanswered after 8 ms completes with EP set (R401). -/
def bar4Slow (fn off : Nat) (s : State) : State :=
  let page := s.apAddr off / 65536
  if 15 < fn || !s.loaded || !s.reach fn || !s.mm.bar4.any (fun e => e.1 == fn && e.2.1 == off) || !s.cellarOnly page then s
  else
    let s : State := { s with mm.bar4 := s.mm.bar4.filter (fun e => !(e.1 == fn && e.2.1 == off)) }
    ((s.addSat F.HST_BAR4_SLOW_COUNT).event 0xD 4 fn).emit (.cpl fn [] true)

/-! ## What BAR2 reads as (R392, R393, R396, R397, R402): no row of the table reads it -/

/-- The header of a function (Table 14-4). -/
def State.bar2Header (s : State) (fn : Nat) : List Byte :=
  fitBytes 64 (leBytes 4 0x4B483242 ++ leBytes 2 1 ++ leBytes 1 fn ++ leBytes 1 64 ++ leBytes 2 256 ++ leBytes 2 (s.f F.HST_FN_APERTURE_MASK fn)
    ++ leBytes 1 (s.f F.HST_FN_INDEX_MASK fn))

/-- The bytes of a query slot (Tables 14-7, 12-7): until it is answered its result has status PENDING and zeros. -/
def State.slotBytes (s : State) (fn n : Nat) : List Byte :=
  let x := s.slot fn n
  let res := if x.state = 2 then fitBytes 1088 x.result else zeroBytes 8 ++ leBytes 1 St.pending ++ zeroBytes 1079
  fitBytes 320 x.request ++ fitBytes 0x640 res ++ zeroBytes 8 ++ leBytes 4 (x.state + 65536 * x.posts)

/-- The ring that a BAR2 offset of the PF lies in, with the offset in it. -/
def State.ringAt (s : State) (off : Nat) : Option (Nat × Nat) :=
  ((List.range 64).find? (fun n => s.fb F.HST_RING_CTL_ENABLE n && decide (s.f F.HST_RING_OFF_OFFSET n ≤ off)
    && decide (off < s.f F.HST_RING_OFF_OFFSET n + 256 * 2 ^ s.f F.HST_RING_CTL_LOG2_LEN n))).map (fun n => (n, off - s.f F.HST_RING_OFF_OFFSET n))

/-- The address behind a BAR2 offset, where a ring lies there. -/
def State.bar2Addr (s : State) (fn off : Nat) : Option Nat :=
  if fn = 0 ∧ 0x1000000 ≤ off then (s.ringAt off).map (fun e => s.pair R.HST_RING_BACK_LO R.HST_RING_BACK_HI e.1 + e.2) else none

/-- A byte of a function's BAR2. -/
def State.bar2Byte (s : State) (fn off : Nat) : Byte :=
  let vf := decide (1 ≤ fn)
  let word := fun (o w : Nat) => BitVec.ofNat 8 (w / 256 ^ (o % 4))
  if off < 64 then nth 0#8 (s.bar2Header fn) off
  else if vf && decide (0x2000 ≤ off) && decide (off < 0x2010) then word off (s.msixWord fn ((off - 0x2000) / 4 * 4))
  else if vf && off == 0x3000 then BitVec.ofNat 8 (b2n (s.hst.pba.contains (fn * 128)))
  else if 0x10000 ≤ off ∧ off < 0x30000 then nth 0#8 (s.slotBytes fn ((off - 0x10000) / 0x800)) (off % 0x800)
  else if 0x100000 ≤ off ∧ off < 0x110000 then
    let w := (off - 0x100000) / 256
    if s.fb F.HST_WIN_ENABLE w && bitOf (s.f F.HST_WIN_FN_MASK w) fn then nth 0#8 (tget [] s.hst.wins w) (off % 256) else 0#8
  else match s.bar2Addr fn off with
    | some a => s.rd a
    | none => 0#8

/-- Whether BAR2 accepts a read: 4 to 512 bytes inside 4 KiB; one that meets a poisoned line completes with EP set. -/
def bar2Ok (off len : Nat) : Bool := decide (4 ≤ len) && decide (len ≤ 512) && decide (off % 4096 + len ≤ 4096)
def State.bar2Bad (s : State) (fn off len : Nat) : Bool :=
  (List.range len).any (fun i => match s.bar2Addr fn (off + i) with | some a => s.poisoned a 1 | none => false)

/-- What a BAR2 read returns: none where it is not accepted. -/
def State.bar2Read (s : State) (fn off len : Nat) : Option (List Byte) :=
  if fn ≤ 15 && s.reach fn && bar2Ok off len then some ((List.range len).map (fun i => s.bar2Byte fn (off + i))) else none

/-! ## Resets and power states of the endpoint (R389, R406) -/

/-- Every slot of a function is released. -/
def State.releaseSlots (s : State) (fn : Nat) : State := (List.range 64).foldl (fun s n => s.releaseSlot fn n) s

/-- A PF FLR or hot reset (R406). -/
def pfReset (s : State) : State :=
  let s := (List.range 64).foldl (fun s n => s.setB F.DSP_HOST_WAIT_CTL_ARM false n) s
  let s := (List.range 64).foldl (fun s n =>
    s.setPair R.HST_RING_RD_LO R.HST_RING_RD_HI (s.pair R.HST_RING_WR_LO R.HST_RING_WR_HI n) n) s
  let s := s.releaseSlots 0
  let s : State := { s with mm.bar4 := s.mm.bar4.filter (fun e => e.1 != 0) }
  let s : State := if s.f F.HST_MBX_STATUS_STATE = 1 then { s with hst.drop := true } else s
  s.event 0xD 6

/-- A VF FLR releases its slots. -/
def vfFlr (fn : Nat) (s : State) : State :=
  if 1 ≤ fn ∧ fn ≤ 15 then
    ({ s.releaseSlots fn with mm.bar4 := s.mm.bar4.filter (fun e => e.1 != fn) } : State).event 0xD 6 fn
  else s

/-- A function moves between D0 and D3hot. -/
def pciePowerStateChange (fn : Nat) (d3 : Bool) (s : State) : State :=
  if fn ≤ 15 then { s with hst.d3 := putBit s.hst.d3 fn d3 } else s

/-- Every function is in D0. -/
def State.allD0 (s : State) : State := { s with hst.d3 := 0 }

/-- PERST_N (R43, R406): the endpoint is reset, every function's slots released; the service keeps running. -/
def perstN (s : State) : State :=
  let s := (List.range 15).foldl (fun s n => s.releaseSlots (n + 1)) s
  pfReset s.allD0

/-! ## Ethernet services (R407, R408) -/

/-- Whether an address is multicast. -/
def isMulti (ip : Nat) : Bool := decide (ip / 2 ^ 28 = 14)

/-- The next hop of a unicast destination on a port. -/
def State.nextHop (s : State) (port dst : Nat) : Nat :=
  let p := 2 ^ (32 - s.f F.HST_PORT_NET_PREFIX port)
  if dst / p = s.f F.HST_PORT_IP_ADDR port / p then dst else s.f F.HST_PORT_GW_ADDR port

/-- The MAC address of a port. -/
def State.portMac (s : State) (port : Nat) : Nat := s.pair R.HST_PORT_MAC_LO R.HST_PORT_MAC_HI port % 2 ^ 48

/-- Whether a port serves. -/
def State.portServes (s : State) (port : Nat) : Bool := decide (port < 4) && s.f F.HST_PORT_IP_ADDR port != 0

/-- The MAC address of a multicast destination (RFC 1112). -/
def multiMac (ip : Nat) : Nat := 0x01005E000000 + ip % 2 ^ 23

/-- A service packet goes out: to a multicast address or a resolved next hop; otherwise it is dropped, counted, and the next hop asked
for. The answer says whether it left. -/
def State.sendEth (s : State) (h : EthHdr) (payload : List Byte) : State × Bool :=
  let h := { h with smac := s.portMac h.port }
  if !s.portServes h.port then (s, false)
  else if isMulti h.dst then (s.emit (.eth { h with mac := multiMac h.dst } payload), true)
  else
    let hop := s.nextHop h.port h.dst
    match s.hst.arp.find? (fun e => e.1 == h.port && e.2.1 == hop) with
    | some e => (s.emit (.eth { h with mac := e.2.2 } payload), true)
    | none =>
      let s := s.addSat F.HST_PORT_ARP_COUNT 1 h.port
      if s.hst.arpWait.contains (h.port, hop) then (s, false)
      else (({ s with hst.arpWait := (h.port, hop) :: s.hst.arpWait } : State).emit (.arp h.port 1 hop h.smac), false)

/-- The service packet header (Table 14-10), with the one-step transmit time of R64. -/
def State.svcHeader (s : State) (port typ stream count seq : Nat) : List Byte :=
  leBytes 4 0x4B565331 ++ leBytes 1 1 ++ leBytes 1 typ ++ leBytes 2 0 ++ leBytes 1 stream ++ leBytes 1 count ++ leBytes 1 s.deviceId
    ++ leBytes 1 0 ++ leBytes 4 seq ++ tsBytes ((s.txTime port).toNat / 8) ++ leBytes 4 0

/-- An ARP request for the port's address is answered. -/
def arpRequestRx (port target sender : Nat) (s : State) : State :=
  if s.portServes port ∧ target = s.f F.HST_PORT_IP_ADDR port then s.emit (.arp port 2 sender (s.portMac port)) else s

/-- An ARP reply resolves a next hop. -/
def arpReplyRx (port ip mac : Nat) (s : State) : State :=
  if s.portServes port ∧ s.hst.arpWait.contains (port, ip) then
    { s with hst.arpWait := s.hst.arpWait.filter (· != (port, ip)),
             hst.arp := (port, ip, mac) :: s.hst.arp.filter (fun e => !(e.1 == port && e.2.1 == ip)) }
  else s

/-- An ICMP echo request for the port's address is answered. -/
def icmpEchoRx (port dst src : Nat) (payload : List Byte) (s : State) : State :=
  if s.portServes port ∧ dst = s.f F.HST_PORT_IP_ADDR port then s.emit (.icmp port src payload) else s

/-- An unresolved next hop is asked for again. -/
def arpRetry (port ip : Nat) (s : State) : State := if s.hst.arpWait.contains (port, ip) then s.emit (.arp port 1 ip (s.portMac port)) else s

/-! ## Pose streams (R409) -/

/-- The headers of a stream's packets (Table 14-13). -/
def State.streamHdr (s : State) (n : Nat) : EthHdr :=
  { port := s.f F.HST_STR_CTL_PORT n, dst := s.f F.HST_STR_DST_ADDR n, dport := s.f F.HST_STR_UDP_DST_PORT n,
    sport := some (s.f F.HST_STR_UDP_SRC_PORT n), dscp := some (s.f F.HST_STR_CTL_DSCP n), ttl := some (s.f F.HST_STR_CTL_TTL n),
    tag := if s.fb F.HST_STR_CTL_VLAN n then some (s.f F.HST_STR_CTL_PCP n, s.f F.HST_STR_VID_VID n) else none }

/-- A packet of a stream leaves: its header carries the next packet_seq. -/
def State.sendStream (s : State) (n typ : Nat) (records : List (List Byte)) : State :=
  let x := s.stream n
  let s' := s.setStream n { x with seq := (x.seq + 1) % 2 ^ 32 }
  let r := s'.sendEth (s.streamHdr n) (s.svcHeader (s.f F.HST_STR_CTL_PORT n) typ n records.length x.seq ++ records.flatten)
  if r.2 then r.1.addWrap F.HST_STR_PACKETS_COUNT 1 n else r.1

/-- POSE_STREAM_SEND: the oldest packet formed leaves its port. -/
def poseStreamSend (n : Nat) (s : State) : State :=
  let x := s.stream n
  match x.out with
  | [] => s
  | p :: rest => (s.setStream n { x with out := rest }).sendStream n 1 p

/-- 500 µs after a batch began, the held records form a packet. -/
def poseBatchTimeout (n : Nat) (s : State) : State :=
  let x := s.stream n
  if x.held.isEmpty || decide (s.mono < x.since + 500000) then s else s.setStream n { x with held := [], out := x.out ++ [x.held] }

/-- A stream of a stopped session sends a HEARTBEAT with count 0. -/
def streamHeartbeat (n : Nat) (s : State) : State :=
  if decide (n < 32) && s.fb F.HST_STR_CTL_ENABLE n && s.sesState (s.f F.HST_STR_CTL_SESSION n) == 0 then s.sendStream n 5 [] else s

/-! ## Map tiles (R410–R412) -/

/-- Whether an address matches the ACL. -/
def State.aclOk (s : State) (ip : Nat) : Bool :=
  (List.range 16).any (fun e =>
    let p := 2 ^ (32 - s.f F.HST_ACL_CTL_PREFIX e)
    s.fb F.HST_ACL_CTL_ENABLE e && ip / p == s.f F.HST_ACL_ADDR_ADDR e / p)

/-- A packet to the requester of a tile. -/
def State.tileOut (s : State) (r : TileReq) (typ : Nat) (body : List Byte) : State :=
  let seq := tget 0 s.hst.tileSeq r.port
  let s' : State := { s with hst.tileSeq := tput 0 s.hst.tileSeq r.port ((seq + 1) % 2 ^ 32) }
  (s'.sendEth { port := r.port, dst := r.src, dport := r.sport } (s.svcHeader r.port typ 0xFF 1 seq ++ body)).1

/-- A TILE_NAK: 1 UNCHANGED, 2 NOT_FOUND, 4 BUSY. -/
def State.tileNak (s : State) (r : TileReq) (tile code : Nat) : State :=
  (s.tileOut r 4 (leBytes 4 r.id ++ leBytes 4 r.map ++ leBytes 8 tile ++ leBytes 1 code ++ zeroBytes 7)).addSat F.HST_MAP_NAKS_COUNT

/-- The 64 TILE_DATA packets of a tile. -/
def State.tileData (s : State) (r : TileReq) (kind tile epoch : Nat) (bytes : List Byte) : State :=
  let crc := crc32c bytes
  let s := (List.range 64).foldl (fun s f =>
    s.tileOut r 3 (leBytes 4 r.id ++ leBytes 4 r.map ++ leBytes 1 kind ++ leBytes 1 f ++ leBytes 1 64 ++ leBytes 1 0 ++ leBytes 4 epoch
      ++ leBytes 8 tile ++ leBytes 4 crc ++ leBytes 4 0 ++ (bytes.drop (1024 * f)).take 1024)) s
  s.addWrap F.HST_MAP_TILES_COUNT

/-- The Kiln map bound to a map_id. -/
def State.mapOfId (s : State) (id : Nat) : Option Nat := (List.range 8).find? (fun m => s.kmapOn m && s.f F.KLN_MAP_ID_MAP_ID m == id)

/-- Whether the page of a tile is here: the part holds it, or has fetched it for this tile (R432). -/
def State.tileHere (s : State) (got : List Nat) (addr : Nat) : Bool :=
  let page := addr / 65536
  (s.homeOf page).isSome && (s.pageHere page || got.contains page)

/-- A tile whose page lies elsewhere: BUSY where the shard is missing (R430), else it waits for the page, fetched as class 3 traffic (R432). -/
def State.tileAway (s : State) (got : List Nat) (kind : Nat) (r : TileReq) (tile addr : Nat) : State :=
  let page := addr / 65536
  if (s.homeOf page).isNone then s.tileNak r tile 4
  else { s.askPage page 3 with hst.tiles := s.hst.tiles ++ [{ page := page, got := got, kind := kind, req := r, tile := tile }] }

/-- One tile of a request is answered (R411): kind 0 DIRECTORY, 1 DENSE, 2 LANDMARK; `got` are the pages fetched for it. -/
def State.answerTile (s : State) (got : List Nat) (kind : Nat) (r : TileReq) (tile : Nat) : State :=
  match kind, s.mapOfId r.map with
  | 2, _ =>
    let a := s.pair R.FRM_LM_STORE_LO R.FRM_LM_STORE_HI + 65536 * tile
    if s.f F.FRM_LM_CAP_ENTRIES * 64 ≤ tile * 65536 then s.tileNak r tile 2
    else if !s.tileHere got a then s.tileAway got kind r tile a
    else s.tileData r 2 tile 0 (s.rdList a 65536)
  | _, none => s.tileNak r tile 2
  | 1, some m =>
    let d := s.descAddr m tile
    let a := s.blockAddr m tile
    if s.mapBlocks m ≤ tile then s.tileNak r tile 2
    else if !s.tileHere got d then s.tileAway got kind r tile d
    else if !s.blockUsed m tile then s.tileNak r tile 2
    else if s.rdNum (d + 8) 4 ≤ r.since then s.tileNak r tile 1
    else if !s.tileHere got a then s.tileAway got kind r tile a
    else s.tileData r 1 tile (s.rdNum (d + 8) 4) (s.rdList a 65536)
  | _, some m =>
    let epoch := s.f F.KLN_MAP_EPOCH_EPOCH m
    let d := s.descAddr m tile
    if s.mapBlocks m ≤ tile then s.tileNak r tile 2
    else if epoch ≤ r.since then s.tileNak r tile 1
    else if !s.tileHere got d then s.tileAway got kind r tile d
    else s.tileData r 0 tile epoch (s.rdList d 65536)

/-- The requests served in a second (R412): CTRL_RATE, a quarter of it at shedding level 3. -/
def State.ctrlRate (s : State) : Nat :=
  let r := s.f F.HST_MAP_CFG_CTRL_RATE
  if s.f F.DSP_COOPER_SHED_LEVEL = 3 then r / 4 else r

/-- A TILE_REQ reaches a port (R410–R412). -/
def tileReq (kind : Nat) (r : TileReq) (s : State) : State :=
  if !s.loaded || !s.portServes r.port || !s.fb F.HST_PORT_MAP_MAP_EN r.port || r.dport != s.f F.HST_PORT_MAP_MAP_UDP r.port then s
  else if !s.aclOk r.src || r.multicast || !r.ok || r.tiles.isEmpty || decide (16 < r.tiles.length) then s.addSat F.HST_MAP_IGNORED_COUNT
  else
    let s := s.addWrap F.HST_MAP_REQS_COUNT
    let fresh := decide (s.hst.reqWindow + 1000000000 ≤ s.mono) || s.hst.reqCount == 0
    let s : State := { s with hst.reqWindow := if fresh then s.mono else s.hst.reqWindow,
                              hst.reqCount := if fresh then 1 else s.hst.reqCount + 1 }
    if s.ctrlRate < s.hst.reqCount then (r.tiles.foldl (fun s t => s.tileNak r t 4) s).event 0xD 8 r.port
    else r.tiles.foldl (fun s t => s.answerTile [] kind r t) s

/-! ## Meanings -/

/-- PERST_N (R43). -/
def execPerstN (s : State) : Host.Outcome State Fault Refusal := done (if s.awake then perstN s else s)

/-- MSIX_TABLE_WRITE (R392). -/
def execMsixTableWrite (fn off v : Nat) (s : State) : Host.Outcome State Fault Refusal := done (msixTableWrite fn off v s)

/-- HST_RING_RD_WRITE (R399). -/
def execHstRingRdWrite (n seq : Nat) (s : State) : Host.Outcome State Fault Refusal := done (hstRingRdWrite n seq s)

/-- RING_RECORD_COPY (R395). -/
def execRingRecordCopy (kind source : Nat) (s : State) : Host.Outcome State Fault Refusal := done (whenUp (ringRecordCopy kind source) s)

/-- RING_IRQ_TIMER (R405). -/
def execRingIrqTimer (n : Nat) (s : State) : Host.Outcome State Fault Refusal := done (whenUp (ringIrqTimer n) s)

/-- HOLD_RELEASE (R398). -/
def execHoldRelease (s : State) : Host.Outcome State Fault Refusal := done (whenUp holdRelease s)

/-- SLOT_REQUEST_WRITE (R402). -/
def execSlotRequestWrite (fn n off : Nat) (bytes : List Byte) (s : State) : Host.Outcome State Fault Refusal :=
  done (slotRequestWrite fn n off bytes s)

/-- SLOT_POST (R402). -/
def execSlotPost (fn n : Nat) (s : State) : Host.Outcome State Fault Refusal := done (slotPost fn n s)

/-- SLOT_RELEASE (R402). -/
def execSlotRelease (fn n : Nat) (s : State) : Host.Outcome State Fault Refusal := done (slotRelease fn n s)

/-- BAR4_READ (R400). -/
def execBar4Read (fn off len : Nat) (s : State) : Host.Outcome State Fault Refusal := done (bar4Read fn off len s)

/-- BAR4_SLOW (R401). -/
def execBar4Slow (fn off : Nat) (s : State) : Host.Outcome State Fault Refusal := done (bar4Slow fn off s)

/-- PF_RESET (R406). -/
def execPfReset (s : State) : Host.Outcome State Fault Refusal := done (if s.awake then pfReset s else s)

/-- VF_FLR (R406). -/
def execVfFlr (fn : Nat) (s : State) : Host.Outcome State Fault Refusal := done (if s.awake then vfFlr fn s else s)

/-- PCIE_POWER_STATE_CHANGE (R389). -/
def execPciePowerStateChange (fn : Nat) (d3 : Bool) (s : State) : Host.Outcome State Fault Refusal :=
  done (if s.awake then pciePowerStateChange fn d3 s else s)

/-- ARP_REQUEST_RX (R407). -/
def execArpRequestRx (port target sender : Nat) (s : State) : Host.Outcome State Fault Refusal :=
  done (whenUp (arpRequestRx port target sender) s)

/-- ARP_REPLY_RX (R407). -/
def execArpReplyRx (port ip mac : Nat) (s : State) : Host.Outcome State Fault Refusal := done (whenUp (arpReplyRx port ip mac) s)

/-- ICMP_ECHO_RX (R407). -/
def execIcmpEchoRx (port dst src : Nat) (payload : List Byte) (s : State) : Host.Outcome State Fault Refusal :=
  done (whenUp (icmpEchoRx port dst src payload) s)

/-- ARP_RETRY (R407). -/
def execArpRetry (port ip : Nat) (s : State) : Host.Outcome State Fault Refusal := done (whenUp (arpRetry port ip) s)

/-- TILE_REQ_DENSE (R411). -/
def execTileReqDense (r : TileReq) (s : State) : Host.Outcome State Fault Refusal := done (tileReq 1 r s)

/-- TILE_REQ_DIRECTORY (R411). -/
def execTileReqDirectory (r : TileReq) (s : State) : Host.Outcome State Fault Refusal := done (tileReq 0 r s)

/-- TILE_REQ_LANDMARK (R411). -/
def execTileReqLandmark (r : TileReq) (s : State) : Host.Outcome State Fault Refusal := done (tileReq 2 r s)

/-- POSE_STREAM_SEND (R409). -/
def execPoseStreamSend (n : Nat) (s : State) : Host.Outcome State Fault Refusal := done (whenUp (poseStreamSend n) s)

/-- POSE_BATCH_TIMEOUT (R409). -/
def execPoseBatchTimeout (n : Nat) (s : State) : Host.Outcome State Fault Refusal := done (whenUp (poseBatchTimeout n) s)

/-- STREAM_HEARTBEAT (R409). -/
def execStreamHeartbeat (n : Nat) (s : State) : Host.Outcome State Fault Refusal := done (whenUp (streamHeartbeat n) s)

end Sys2Proof.Machine
end

