-- ==== Sys2Proof/Machine/Rules.lean ====
section
/-!
DEFINITION. What step 2 checks of the settings beside the ranges of single fields (R35): the bounds the chapters put on them together, the
units they call for (R3), and the DDR5 they need (R198).
-/

namespace Sys2Proof.Machine
open Sys2Proof

/-! ## Helpers -/

/-- `p` of every instance that a field enables. -/
def State.each (s : State) (en : Fld) (p : Nat → Bool) : Bool := (List.range en.reg.count).all (fun i => !s.fb en i || p i)


/-- Whether an integer lies in a range. -/
def inZ (lo hi v : Int) : Bool := decide (lo ≤ v) && decide (v ≤ hi)

/-- Whether a number lies in a range. -/
def inN (lo hi v : Nat) : Bool := decide (lo ≤ v) && decide (v ≤ hi)

/-- Whether a list repeats nothing. -/
def distinct [DecidableEq α] : List α → Bool
  | [] => true
  | x :: xs => !xs.contains x && distinct xs

/-- Whether an address lies in a region of one of the given classes. -/
def State.inClass (s : State) (a : Nat) (cs : List Nat) : Bool :=
  match s.rgnOf (a / 65536) with
  | some r => cs.contains (s.rgnClass r)
  | none => false

/-- Whether `n` bytes from an address lie in one region of a class. -/
def State.fitsClass (s : State) (a n : Nat) (cs : List Nat) : Bool :=
  s.inClass a cs && (n == 0 || s.rgnOf (a / 65536) == s.rgnOf ((a + n - 1) / 65536))

/-! ## Device time (R62, R71, R80) -/

/-- A schedule within the bounds of R71. -/
def State.trigOk (s : State) (n : Nat) : Bool :=
  let num := s.f F.TIME_TRIG_NUM_NUM n
  let den := s.f F.TIME_TRIG_DEN_DEN n
  let w := s.f F.TIME_TRIG_WIDTH_NS n
  decide (1 ≤ den) && decide (10000 * den ≤ num) && decide (num ≤ 4000000000 * den)
    && decide (s.f F.TIME_TRIG_PHASE_NS n * den < num) && decide (100 ≤ w) && decide ((w + 100) * den ≤ num)

/-- The Timekeeper's settings. -/
def State.timeRules (s : State) : Bool :=
  s.each F.TIME_D_CFG_ENABLE (fun n => inZ (-7) 1 (s.fs F.TIME_D_CFG_LOG_DELAY n) && inZ (-3) 3 (s.fs F.TIME_D_CFG_LOG_ANNOUNCE n)
      && inZ (-7) 1 (s.fs F.TIME_D_CFG_LOG_SYNC n))
    && s.each F.TIME_TRIG_CTL_ENABLE s.trigOk
    && (List.range 50).all (fun n => inZ (-1000000000) 1000000000 (s.fs F.TIME_SNS_NOMINAL_NS n))

/-! ## Ingest (R82, R84, R89, R94) -/

/-- The image data types of Table 4-1, with their bits per pixel. -/
def imageTypes : List (Nat × Nat) := [(0x2A, 8), (0x2B, 10), (0x2C, 12), (0x2D, 14), (0x1E, 16)]

/-- An enabled sensor names one source that is in use (R82), and its timeout keeps R89. -/
def State.sensorOk (s : State) (n : Nat) : Bool :=
  let p := s.f F.ING_SNS_PERIOD_NS n
  let t := s.f F.ING_SNS_TIMEOUT_NS n
  let src := s.f F.ING_SNS_SRC_SOURCE n
  let timing := s.f F.ING_SNS_SRC_TIMING n
  (if s.fb F.ING_SNS_SRC_KIND n then s.fb F.ING_ST_CTL_ENABLE src
   else imageTypes.any (fun e => e.1 == s.f F.ING_SNS_SRC_DT n) && s.fb F.ING_PORT_CTL_ENABLE src && timing != 3)
    && (timing != 1 || decide (s.f F.ING_SNS_SRC_TRIGGER n < 16))
    && [8, 10, 12, 14].contains (s.f F.ING_SNS_FMT_DEPTH n)
    && (t == 0 || (decide (11 * p ≤ 10 * t) && decide (10 * t ≤ 15 * p)))
    && s.pair R.ING_SNS_RING_LO R.ING_SNS_RING_HI n % 4096 == 0
    && s.inClass (s.pair R.ING_SNS_RING_LO R.ING_SNS_RING_HI n) [0]

/-- A stream within Table 4-2: 4:2:2 at 10 bits, 4:4:4 or RGB at 10 or 12, a dynamic payload type (DEDUCED that a stream outside it is refused: log
entry 75). -/
def State.streamOk (s : State) (k : Nat) : Bool :=
  let m := s.f F.ING_ST_CTL_SAMPLING k
  decide (m < 3) && !(m == 0 && s.fb F.ING_ST_CTL_DEPTH k) && inN 96 127 (s.f F.ING_ST_CTL_PT k)

/-- An ST 2110 sensor within Table 4-2: at most 3840 × 2160 at 60 fps (a period no shorter than 1/60 s, its fraction of a nanosecond dropped). -/
def State.stSizeOk (s : State) (n : Nat) : Bool :=
  !s.fb F.ING_SNS_SRC_KIND n || (decide (s.f F.ING_SNS_GEOM_WIDTH n ≤ 3840) && decide (s.f F.ING_SNS_GEOM_HEIGHT n ≤ 2160)
    && decide (16666666 ≤ s.f F.ING_SNS_PERIOD_NS n))

/-- The payload of an Ethernet port's streams is at most 22 Gb/s at 25GBASE-R, 8.8 Gb/s at 10GBASE-R (Table 4-2), in Mb/s. -/
def State.ethLoadOk (s : State) (port : Nat) : Bool :=
  let use := (s.enabled F.ING_SNS_SRC_ENABLE).foldl (fun a n =>
    if s.fb F.ING_SNS_SRC_KIND n && s.f F.ING_ST_CTL_PORT (s.f F.ING_SNS_SRC_SOURCE n) == port && decide (0 < s.f F.ING_SNS_PERIOD_NS n) then
      addFrac a (s.f F.ING_SNS_GEOM_WIDTH n * s.f F.ING_SNS_GEOM_HEIGHT n * s.snsBpp n * 1000, s.f F.ING_SNS_PERIOD_NS n)
    else a) (0, 1)
  leFrac use (if Config.port10G port then 8800 else 22000, 1)

/-- The source of a sensor, as one name. -/
def State.sourceName (s : State) (n : Nat) : Nat × Nat × Nat × Nat :=
  if s.fb F.ING_SNS_SRC_KIND n then (1, s.f F.ING_SNS_SRC_SOURCE n, 0, 0)
  else (0, s.f F.ING_SNS_SRC_SOURCE n, s.f F.ING_SNS_SRC_VC n, s.f F.ING_SNS_SRC_DT n)

/-- The payload rate of a port in Mb/s, as a fraction (R84). -/
def State.payload (s : State) (p : Nat) : Nat × Nat :=
  let lanes := s.f F.ING_PORT_CTL_LANES p + 1
  if s.fb F.ING_PORT_CTL_PHY p then (lanes * s.f F.ING_PORT_CTL_RATE p * 16, 7) else (lanes * s.f F.ING_PORT_CTL_RATE p, 1)

/-- A CSI-2 port: Table 4-1, at most 18 Gb/s, and its sensors within 95 % of that rate (R84). -/
def State.portOk (s : State) (p : Nat) : Bool :=
  let cphy := s.fb F.ING_PORT_CTL_PHY p
  let rate := s.f F.ING_PORT_CTL_RATE p
  let pay := s.payload p
  let use := (s.enabled F.ING_SNS_SRC_ENABLE).foldl (fun a n =>
    if !s.fb F.ING_SNS_SRC_KIND n && s.f F.ING_SNS_SRC_SOURCE n == p && decide (0 < s.f F.ING_SNS_PERIOD_NS n) then
      let bpp := ((imageTypes.find? (fun e => e.1 == s.f F.ING_SNS_SRC_DT n)).map (·.2)).getD 0
      addFrac a (s.f F.ING_SNS_GEOM_WIDTH n * s.f F.ING_SNS_GEOM_HEIGHT n * bpp * 1000, s.f F.ING_SNS_PERIOD_NS n)
    else a) (0, 1)
  s.f F.ING_PORT_CTL_LANES p != (if cphy then 3 else 2)
    && (if cphy then inN 80 2625 rate else inN 80 4500 rate)
    && leFrac pay (18000, 1) && leFrac use (pay.1 * 95, pay.2 * 100)

/-- The settings of ingest. -/
def State.ingRules (s : State) : Bool :=
  let on := s.enabled F.ING_SNS_SRC_ENABLE
  s.each F.ING_SNS_SRC_ENABLE s.sensorOk && distinct (on.map s.sourceName)
    && decide ((on.filter (fun n => s.fb F.ING_SNS_SRC_KIND n)).length ≤ 16)
    && s.each F.ING_PORT_CTL_ENABLE s.portOk && s.each F.ING_ST_CTL_ENABLE s.streamOk && s.each F.ING_SNS_SRC_ENABLE s.stSizeOk
    && (List.range 4).all s.ethLoadOk

/-! ## The Sparge (R100–R115) -/

/-- The timeout range of Table 5-2; 0 selects the default. -/
def State.chanTimeOk (s : State) (c : Nat) : Bool :=
  let p := s.f F.SPG_CH_PERIOD_NS c
  let t := s.f F.SPG_CH_TIMEOUT_NS c
  match chanKind c with
  | 0 => decide (31250 ≤ p) && (t == 0 || inN (2 * p) (4 * p) t)
  | 1 => inN 50000 1800000 p && (t == 0 || (decide (11 * p ≤ 10 * t) && decide (t ≤ 2000000)))
  | 2 => inN 10000 10000000 p && inN 10000 10000000 (s.f F.SPG_QUAD_PERIOD_NS (c - 64))
  | _ => inN 100000 1000000000 p && (t == 0 || (decide (3 * p ≤ 2 * t) && decide (t ≤ 3 * p)))

/-- The position width of an SSI port (R108). -/
def State.ssiWidth (s : State) (p : Nat) : Nat :=
  s.f F.SPG_SSI_CTL_BITS p - s.f F.SPG_SSI_CTL_ERR_BITS p - b2n (s.fb F.SPG_SSI_CTL_PARITY p)

/-- The field of a channel lies in what its source brings (R108). -/
def State.chanFieldOk (s : State) (c : Nat) : Bool :=
  let w := s.f F.SPG_CH_SRC_WIDTH c
  match chanKind c with
  | 0 => decide (s.f F.SPG_CH_SRC_BYTE c + ceilDiv (s.f F.SPG_CH_SRC_BIT c + w) 8 ≤ s.f F.SPG_SPI_CTL_LEN (c / 7))
  | 1 => inN 1 (s.ssiWidth (c - 56)) w
  | _ => true

/-- A FIR set code: built-in 0 to 3, a custom bank 8 to 15; 4 to 7 are reserved (R114). -/
def firCode (n : Nat) : Bool := !inN 4 7 n

/-- A channel within Table 5-2 and R108, R113, R114. -/
def State.chanOk (s : State) (c : Nat) : Bool :=
  let q := s.chanQ c
  s.chanTimeOk c && decide (250000 ≤ q * s.f F.SPG_CH_PERIOD_NS c)
    && (chanKind c != 2 || decide (250000 ≤ q * s.f F.SPG_QUAD_PERIOD_NS (c - 64))) && decide (s.f F.SPG_CH_CTL_DEC_PHASE c < q)
    && firCode (s.f F.SPG_CH_CTL_FIR_A c) && firCode (s.f F.SPG_CH_CTL_FIR_B c) && s.chanFieldOk c
    && s.pair R.SPG_CH_RING_LO R.SPG_CH_RING_HI c % 4096 == 0

/-- A finite value in units of 2⁻¹⁴⁹; none for an infinity or a NaN. -/
def fixed149 (v : Fv) : Option Int :=
  match v with
  | .fin neg n d => let m : Int := ((n * 2 ^ 149 / d : Nat) : Int); some (if neg then -m else m)
  | _ => none

/-- A custom bank: M odd, its DC gain from 0.99 to 1.01 (R115). -/
def State.bankOk (s : State) (b : Nat) : Bool :=
  let m := s.f F.SPG_FIR_LEN_M b
  let half := (List.range ((m + 1) / 2)).map (fun n => fixed149 (fp32.dec (s.f F.SPG_FIR_COEF_H b n)))
  let h := half ++ (half.reverse.drop 1)
  let one : Int := ((2 ^ 149 : Nat) : Int)
  m % 2 == 1 && h.all (·.isSome) && inZ (99 * one) (101 * one) (100 * sumZ (h.map (·.getD 0)))

/-- Whether an enabled channel names a custom bank: only such a bank is held to R115 (DESIGN CHOICE of log entry 95). -/
def State.bankUsed (s : State) (b : Nat) : Bool :=
  (s.enabled F.SPG_CH_CTL_ENABLE).any (fun c => s.f F.SPG_CH_CTL_FIR_A c == b + 8 || s.f F.SPG_CH_CTL_FIR_B c == b + 8)

/-- An SPI port: a strobed one has its strobe, the check field lies in what is read (R101, R102). -/
def State.spiOk (s : State) (p : Nat) : Bool :=
  let off := s.f F.SPG_SPI_CTL_CHECK_OFF p
  let len := s.f F.SPG_SPI_CTL_LEN p
  (!s.fb F.SPG_SPI_CTL_STROBED p || s.fb F.TIME_TRIG_CTL_ENABLE (32 + p))
    && (match s.f F.SPG_SPI_CTL_CHECK p with | 1 => decide (off + 2 ≤ len) | 2 => decide (off + 1 ≤ len) | _ => true)

/-- An SSI port: every schedule that reads it leaves time for the frame and the monoflop (R104). -/
def State.ssiOk (s : State) (p : Nat) : Bool :=
  let khz := s.f F.SPG_SSI_CTL_CLK_KHZ p
  (List.range 8).all (fun k =>
    let n := 40 + k
    !(s.fb F.TIME_TRIG_CTL_ENABLE n && bitOf (s.f F.TIME_TRIG_DELAY_NS n) (8 + p))
      || decide ((s.f F.SPG_SSI_CTL_BITS p * 1000000 + s.f F.SPG_SSI_TM_TM_US p * 1000 * khz) * s.f F.TIME_TRIG_DEN_DEN n
          ≤ s.f F.TIME_TRIG_NUM_NUM n * khz))

/-- The register-write sequence of every port: at most 32 writes of up to 4 bytes each (R103). -/
def Image.imuOk (i : Image) : Bool :=
  (List.range 8).all (fun p =>
    let l := (i.imuSeq.filter (fun e => e.1 == p)).flatMap (·.2)
    decide (l.length ≤ 32) && l.all (fun w => decide (w.length ≤ 4)))

/-- The settings of the Sparge. -/
def State.spgRules (s : State) (i : Image) : Bool :=
  i.imuOk && s.each F.SPG_CH_CTL_ENABLE s.chanOk && s.each F.SPG_SPI_CTL_ENABLE s.spiOk && s.each F.SPG_SSI_CTL_ENABLE s.ssiOk
    && (List.range 8).all (fun b => !s.bankUsed b || s.bankOk b)

/-! ## The Mill (R124, R133) -/

/-- A sensor job. -/
def State.jobOk (s : State) (n : Nat) : Bool :=
  (!s.fb F.MILL_SNS_CTL_KLT_EN n ||
      (decide (s.f F.MILL_SNS_KLT_KLT_LEVELS n ≤ s.f F.MILL_SNS_CTL_LEVELS n + 1) && decide (2 ≤ s.f F.MILL_SNS_CTL_OUT_FRAMES n)))
    && s.f F.MILL_SNS_KLT_WIN n % 2 == 1 && decide (s.pair R.MILL_SNS_MAP_LO R.MILL_SNS_MAP_HI n < 2 ^ 48)
    && s.pair R.MILL_SNS_MAP_LO R.MILL_SNS_MAP_HI n % 4096 == 0 && s.pair R.MILL_SNS_OUT_LO R.MILL_SNS_OUT_HI n % 4096 == 0

/-- The warp map of a sensor job (R132, R133): the node count; every node's source y less than 63.0 rows from its output y; for every 64 × 64 output
tile the bounding box of the nodes around it, widened by one pixel, within 192 × 192 pixels. An invalid node gives no source coordinate. -/
def State.warpOk (s : State) (i : Image) (n : Nat) : Bool :=
  let g := s.grid n
  let w := s.f F.MILL_SNS_GEOM_OUT_W n
  let h := s.f F.ING_SNS_GEOM_HEIGHT n
  let nx := ceilDiv (w - 1) g + 1
  let ny := ceilDiv (h - 1) g + 1
  let nodes := ((i.warps.find? (fun e => e.1 == n)).map (·.2)).getD []
  let at' := fun (gx gy : Nat) => nth (0, 0) nodes (gy * nx + gx)
  let near := (List.range ny).all (fun gy => (List.range nx).all (fun gx =>
    let p := at' gx gy
    p.1 == 0xFFFFFFFF || decide (MillNum.gap p.2 (65536 * (g * gy)) < 63 * 65536)))
  let span := fun (l : List Nat) => l.foldl Nat.max 0 - l.foldl Nat.min (2 ^ 32) + 2 * 65536
  let boxes := (List.range (ceilDiv h 64)).all (fun ty => (List.range (ceilDiv w 64)).all (fun tx =>
    let xs := (List.range nx).filter (fun gx => decide (64 * tx < g * gx + g) && decide (g * gx < Nat.min (64 * tx + 63) (w - 1) + g))
    let ys := (List.range ny).filter (fun gy => decide (64 * ty < g * gy + g) && decide (g * gy < Nat.min (64 * ty + 63) (h - 1) + g))
    let pts := (ys.flatMap (fun gy => xs.map (fun gx => at' gx gy))).filter (fun p => p.1 != 0xFFFFFFFF)
    pts.isEmpty || (decide (span (pts.map (·.1)) ≤ 192 * 65536) && decide (span (pts.map (·.2)) ≤ 192 * 65536))))
  nodes.length == nx * ny && nodes.all (fun p => decide (p.1 < 2 ^ 32) && decide (p.2 < 2 ^ 32)) && near && boxes

/-- An SGM job. -/
def State.sgmOk (s : State) (p : Nat) : Bool :=
  let l := s.f F.MILL_SGM_CTL_LEFT p
  let r := s.f F.MILL_SGM_CTL_RIGHT p
  let lev := s.f F.MILL_SGM_CTL_LEVEL p
  let dn := s.f F.MILL_SGM_RANGE_DNUM p
  s.fb F.MILL_SNS_CTL_ENABLE l && s.fb F.MILL_SNS_CTL_ENABLE r
    && s.f F.MILL_SNS_GEOM_OUT_W l == s.f F.MILL_SNS_GEOM_OUT_W r && s.f F.ING_SNS_GEOM_HEIGHT l == s.f F.ING_SNS_GEOM_HEIGHT r
    && decide (lev ≤ s.f F.MILL_SNS_CTL_LEVELS l) && decide (lev ≤ s.f F.MILL_SNS_CTL_LEVELS r)
    && inN (s.f F.MILL_SGM_PEN_P1 p + 1) 193 (s.f F.MILL_SGM_PEN_P2 p) && dn % 8 == 0
    && decide (s.f F.MILL_SGM_RANGE_DMIN p + dn ≤ 2048) && decide (s.jobW l lev * dn ≤ 524288)

/-- A flow job. -/
def State.flowOk (s : State) (j : Nat) : Bool :=
  let n := s.f F.MILL_FLOW_CTL_SENSOR j
  s.fb F.MILL_SNS_CTL_ENABLE n
    && decide (s.f F.MILL_FLOW_CTL_LEVEL j + s.f F.MILL_FLOW_CTL_LEVELS j ≤ s.f F.MILL_SNS_CTL_LEVELS n + 1)
    && decide (2 ≤ s.f F.MILL_SNS_CTL_OUT_FRAMES n)

/-- The settings of the Mill. -/
def State.millRules (s : State) (i : Image) : Bool :=
  s.each F.MILL_SNS_CTL_ENABLE s.jobOk && s.each F.MILL_SGM_CTL_ENABLE s.sgmOk && s.each F.MILL_FLOW_CTL_ENABLE s.flowOk
    && s.each F.MILL_SNS_CTL_ENABLE (s.warpOk i)

/-! ## The tensor clusters (R177, R179, R181, R192, R195) -/

/-- A sum over the enabled networks of a cluster's group. -/
def State.groupSum (s : State) (l : Nat) (g : Nat → Nat) : Nat :=
  sumN ((s.enabled F.TNS_NET_CTL_ENABLE).map (fun m => if bitOf (s.f F.TNS_NET_CTL_GROUP m) l then g m else 0))

/-- An enabled instance (R181, R192). -/
def State.insOk (s : State) (k : Nat) : Bool :=
  let n := s.insSensor k
  let d := s.f F.TNS_INS_DEADLINE_US k
  s.fb F.TNS_NET_CTL_ENABLE (s.insNet k) && s.fb F.ING_SNS_SRC_ENABLE n && s.fb F.MILL_SNS_CTL_ENABLE n && s.fb F.MILL_SNS_CTL_PATH_EN n
    && (d == 0 || (decide (100 ≤ d) && decide (1000 * d ≤ 2 * s.f F.ING_SNS_PERIOD_NS n)))
    && s.pair R.TNS_INS_OUT_LO R.TNS_INS_OUT_HI k % 4096 == 0

/-- What a network needs of a cluster's staging area: its PREFETCH largest streamed layers (R179), in KiB. -/
def Net.stagingNeed (n : Net) (prefetch : Nat) : Nat :=
  sumN ((sortBy (fun (a b : Nat) => decide (b < a)) ((n.main.layers.filter (fun l => 2 ≤ l.cls)).map (·.kib))).take prefetch)

/-- The Mill-path input buffers that the task graphs name in a cluster's SRAM (R177), in KiB. -/
def Graph.pathKib (g : Graph) (l : Nat) : Nat :=
  ceilDiv (sumN ((g.paths.filter (fun p => p.addr / 0x400000 == 16 + l)).map (·.len))) 1024

/-- The settings of the tensor clusters. -/
def State.tnsRules (s : State) (i : Image) : Bool :=
  let net := fun (m : Nat) => nth ({} : Net) i.nets m
  let nets := s.enabled F.TNS_NET_CTL_ENABLE
  s.each F.TNS_INS_CTL_ENABLE s.insOk
    && nets.all (fun m =>
      (s.f F.TNS_NET_MOP_MOP m == 0 || s.f F.TNS_NET_EFF_MAIN m != 0) && (s.f F.TNS_NET_FB_MOP_MOP m == 0 || s.f F.TNS_NET_EFF_FB m != 0))
    && decide (512 ≤ i.staging)
    && (s.places 4).all (fun l => decide (s.groupSum l (fun m => (net m).pin) ≤ 256)
      && decide (s.groupSum l (fun m => (net m).pin + (net m).classKib 0) ≤ 1024)
      && decide (s.groupSum l (fun m => (net m).classKib 1) + i.staging + i.graph.pathKib l ≤ 4096)
      && decide (s.groupSum l (fun m => (net m).stagingNeed (s.f F.TNS_NET_CTL_PREFETCH m)) ≤ i.staging))
    && decide (sumN (nets.map (fun m => (net m).classKib 2)) ≤ 1024 * s.f F.TNS_HOPPER_WEIGHTS_MIB)

/-! ## Memory (R202, R203, R198) -/

/-- Pages of the enabled regions of some classes. -/
def State.classPages (s : State) (cs : List Nat) : Nat := sumN ((cs.flatMap s.regions).map s.rgnPages)

/-- The regions overlap nowhere: sorted by base, each ends before the next begins. -/
def rgnsApart : List (Nat × Nat) → Bool
  | [] => true
  | [_] => true
  | a :: b :: l => decide (a.1 + a.2 ≤ b.1) && rgnsApart (b :: l)

/-- Bytes of one channel as a number of pages. -/
def State.chPages (s : State) : Nat := s.chBytes / 65536

/-- The areas that the settings name for blocks to write, with their lengths (R203, R205). -/
def State.areas (s : State) (i : Image) : List (Nat × Nat) :=
  (s.enabled F.ING_SNS_SRC_ENABLE).flatMap (fun n =>
      [(s.pair R.ING_SNS_RING_LO R.ING_SNS_RING_HI n, s.f F.ING_SNS_RING_CFG_SLOTS n * s.snsTiles n * (if s.fb F.ING_SNS_FMT_KEEP_C n then 24576 else 8192)),
       (s.pair R.ING_SNS_DESC_LO R.ING_SNS_DESC_HI n, 4096)])
    ++ (s.enabled F.SPG_CH_CTL_ENABLE).map (fun c => (s.pair R.SPG_CH_RING_LO R.SPG_CH_RING_HI c, 2048 * 2 ^ s.f F.SPG_CH_RING_CFG_LEN c))
    ++ (s.enabled F.MILL_SNS_CTL_ENABLE).map (fun n => (s.pair R.MILL_SNS_OUT_LO R.MILL_SNS_OUT_HI n, s.f F.MILL_SNS_CTL_OUT_FRAMES n * s.snsSlotSize n))
    ++ (s.enabled F.MILL_SGM_CTL_ENABLE).flatMap (fun p =>
      (s.pair R.MILL_SGM_OUT_LO R.MILL_SGM_OUT_HI p, s.f F.MILL_SGM_CTL_OUT_FRAMES p * s.sgmSlotSize p)
        :: (if s.fb F.MILL_SGM_CTL_PATHS p then [(s.pair R.MILL_SGM_FWD_LO R.MILL_SGM_FWD_HI p, 4 * s.sgmW p * s.sgmH p)] else []))
    ++ (s.enabled F.MILL_FLOW_CTL_ENABLE).flatMap (fun f =>
      let l := s.f F.MILL_FLOW_CTL_LEVEL f + 1
      (s.pair R.MILL_FLOW_OUT_LO R.MILL_FLOW_OUT_HI f,
        s.f F.MILL_FLOW_CTL_OUT_FRAMES f * (4096 + ceilDiv (s.flwW f) 64 * s.flwBands f * 16384))
        :: (if 1 < s.f F.MILL_FLOW_CTL_LEVELS f then
              [(s.pair R.MILL_FLOW_SCR_LO R.MILL_FLOW_SCR_HI f, 8 * s.jobW (s.flwN f) l * s.jobH (s.flwN f) l)] else []))
    ++ (s.enabled F.TNS_INS_CTL_ENABLE).map (fun k => (s.pair R.TNS_INS_OUT_LO R.TNS_INS_OUT_HI k,
        s.f F.TNS_INS_CTL_OUT_FRAMES k * (4096 + s.snsBands (s.insSensor k) * s.areaSize k)))
    ++ (s.enabled F.KTL_PROB_CTL_ENABLE).map (fun p => (s.pair R.KTL_PROB_OUT_LO R.KTL_PROB_OUT_HI p,
        Nat.max 1 (s.f F.KTL_PROB_CTL_OUT_FRAMES p) * nth 65536 i.ktlSlot p))
    ++ (s.enabled F.KLN_VIEW_CTL_ENABLE).map (fun v => (s.pair R.KLN_VIEW_OUT_LO R.KLN_VIEW_OUT_HI v,
        Nat.max 1 (s.f F.KLN_VIEW_CTL_OUT_FRAMES v) * s.viewSlotSize v))
    ++ (s.enabled F.KLN_MAP_CTL_ENABLE).map (fun m => (s.pair R.KLN_MAP_OUT_LO R.KLN_MAP_OUT_HI m, 4096))
    ++ (s.enabled F.CSK_Q_CTL_ENABLE).map (fun q => (s.pair R.CSK_Q_OUT_LO R.CSK_Q_OUT_HI q, s.resSize q * 2 ^ s.f F.CSK_Q_CTL_LOG2_LEN q))

/-- The settings of the memory tiers. -/
def State.memRules (s : State) (i : Image) : Bool :=
  let on := s.enabled F.MEM_RGN_CTL_ENABLE
  let all := sumN (on.map s.rgnPages)
  [0x30, 0x38, 0x40].contains (s.f F.MEM_DDR_CFG_RATE)
    && on.all (fun r => decide (65536 ≤ s.rgnBase r) && decide (s.rgnBase r + s.rgnPages r ≤ 2 ^ 32))
    && rgnsApart (sortBy (fun a b => decide (a.1 < b.1)) (on.map (fun r => (s.rgnBase r, s.rgnPages r))))
    && decide (all ≤ 2 ^ 27)
    && decide (s.classPages [0, 5] ≤ 3584) && decide (s.classPages [5] ≤ 16 * s.f F.TNS_HOPPER_WEIGHTS_MIB)
    && decide (s.classPages [1] + ceilDiv (8 * all) 65536 ≤ s.chPages)
    && i.graph.nodes.all (fun n => s.mapped n.param)
    && (s.areas i).all (fun a => s.fitsClass a.1 a.2 [0, 1, 2, 3])
    && i.graph.paths.all (fun p => decide (s.mapped p.addr ∧ s.mapped (p.addr + p.len - 1) ∧ 0x4000000 ≤ p.addr ∧ p.addr + p.len ≤ 0x6000000))
    && (s.enabled F.FRM_SES_CTL_ENABLE).all (fun n =>
      let p := nth ({} : SesParam) i.ses n
      s.mapped p.kfBase && s.mapped (p.kfBase + 128 * p.kfSlots - 1) && s.mapped p.obsBase && s.mapped (p.obsBase + p.obsSize * p.kfSlots - 1))

/-- The DDR5 that must be there (R198): two copies of the page table (one where one channel is fitted), every DDR-backed region, the
spilled weights where no region holds them, and the update area (R450). -/
def State.ddrFits (s : State) (i : Image) : Bool :=
  let chs := popCount 4 (s.f F.MEM_DDR_CFG_CH_MASK)
  let all := sumN ((s.enabled F.MEM_RGN_CTL_ENABLE).map s.rgnPages)
  let spill := ceilDiv (sumN ((s.enabled F.TNS_NET_CTL_ENABLE).map (fun m => (nth ({} : Net) i.nets m).classKib 3))) 64
  decide (Nat.min 2 chs * ceilDiv (8 * all) 65536 + s.classPages [1, 2, 5] + Nat.max (s.classPages [4]) spill
      + 16 * s.f F.SEC_UPD_CFG_UPDATE_MIB ≤ chs * s.chPages)

/-! ## The Fermenter (R228, R233) -/

/-- The six channels of an IMU entry lie in one SPI port. -/
def State.imuOk (s : State) (n : Nat) : Bool :=
  let e := s.f F.FRM_SES_SRC_IMU n
  e == 0xFFFF || (ttNum (s.ttEntry e) 0 1 == 5 && decide (ttNum (s.ttEntry e) 4 2 + 5 < 56)
    && ttNum (s.ttEntry e) 4 2 / 7 == (ttNum (s.ttEntry e) 4 2 + 5) / 7)

/-- The chain of a session ends at an anchor and holds 1 to 16 joints (R233). -/
def State.chainOk (s : State) (n : Nat) : Bool :=
  let tip := s.f F.FRM_SES_SRC_CHAIN n
  tip == 0xFFFF ||
    (let c := s.ttChain tip 2048
     ttNum (s.ttEntry (c.getLastD 0)) 0 1 == 7 && inN 1 16 (s.jointChans n).length)

/-- A session within Table 9-1. -/
def State.sessionOk (s : State) (n : Nat) : Bool :=
  let cams := (s.cams n).map (·.2)
  let ps := cams.map (fun c => s.f F.ING_SNS_PERIOD_NS c)
  let div := s.f F.FRM_SES_CTL_PROP_DIV n
  !cams.isEmpty && ps.all (fun p => p == nth 0 ps 0 && decide (4166667 ≤ p))
    && cams.all (fun c => decide (s.f F.FRM_SES_TRACK_TRACKS_MAX n ≤ s.f F.MILL_SNS_KLT_MAXTRK_TRACK_MAX c))
    && s.imuOk n && s.chainOk n
    && (div == 0 || match s.imuChans n with
      | c :: _ => decide (500000 ≤ s.chanQ c * s.f F.SPG_CH_PERIOD_NS c * div)
      | [] => true)

/-- The session table (R228) and the landmark store. -/
def State.frmRules (s : State) : Bool :=
  let on := s.enabled F.FRM_SES_CTL_ENABLE
  on.all s.sessionOk && distinct (on.flatMap (fun n => (s.cams n).map (·.2))) && distinct (on.flatMap (fun n => (s.sesChans n).eraseDups))
    && (s.f F.FRM_LM_CACHE_ENTRIES == 0 || (s.inClass (s.pair R.FRM_LM_CACHE_LO R.FRM_LM_CACHE_HI) [0]
      && s.inClass (s.pair R.FRM_LM_TAG_LO R.FRM_LM_TAG_HI) [2]))
    && (s.f F.FRM_LM_CAP_ENTRIES == 0 || s.inClass (s.pair R.FRM_LM_STORE_LO R.FRM_LM_STORE_HI) [2])

/-- An entry of the transform tables: its parent is there, or it is a root; walking up ends; a state IMU has no parent unless its session has
a chain (R233). -/
def State.ttOk (s : State) (n i : Nat) : Bool :=
  let e := s.ttEntry i
  let kind := ttNum e 0 1
  let parent := ttNum e 2 2
  let root := parent == 0xFFFF
  kind == 0 ||
    ((if kind == 7 then root
      else if root then kind == 5
      else decide (parent < n) && ttNum (s.ttEntry parent) 0 1 != 0)
      && decide ((s.ttChain i (n + 1)).length ≤ n)
      && (kind != 5 || root || s.f F.FRM_SES_SRC_CHAIN (ttNum e 6 1 % 32) != 0xFFFF))

/-- The transform tables: the header of their section, their entries. -/
def State.ttRules (s : State) (i : Image) : Bool :=
  (!i.sects.any (fun e => e.typ == 8) || ttHeadOk i.ttHead i.tt.length) && (List.range i.tt.length).all (fun k => ttZeros (s.ttEntry k) && s.ttOk i.tt.length k)

/-! ## The Kettle (R268, R300) -/

/-- A problem: its session, its window, its store (R268), QR only for RELPOSE and POSEGRAPH (R280). -/
def State.probOk (s : State) (p : Nat) : Bool :=
  let ses := s.f F.KTL_PROB_CTL_SESSION p
  (decide (ses < 32) || ses == 0xFF) && inN 2 (s.f F.KTL_PROB_WINDOW_WINDOW_KF p) (s.f F.KTL_PROB_WINDOW_WINDOW_MIN p)
    && s.inClass (s.pair R.KTL_PROB_STORE_LO R.KTL_PROB_STORE_HI p) [1]
    && (!s.fb F.KTL_PROB_CTL_FACTOR p || s.f F.KTL_PROB_CTL_KIND p == 2 || s.f F.KTL_PROB_CTL_KIND p == 3)

/-- A body table: its links, each parent before its child (R300). -/
def State.bodyOk (s : State) (i : Image) (b : Nat) : Bool :=
  let ps := nth ([] : List Nat) i.bodies b
  ps.length == s.f F.KTL_BODY_CTL_LINKS b && (List.range ps.length).all (fun k => nth 0 ps k == 0xFF || decide (nth 0 ps k < k))

/-- The settings of the Kettle. -/
def State.ktlRules (s : State) (i : Image) : Bool :=
  s.each F.KTL_PROB_CTL_ENABLE s.probOk && s.each F.KTL_BODY_CTL_ENABLE (s.bodyOk i)
    && decide (sumN ((s.enabled F.KTL_BODY_CTL_ENABLE).map (fun b => s.f F.KTL_BODY_CTL_LINKS b)) ≤ 256)

/-! ## The Kiln (R307) -/

/-- A dense map: its anchor and its three regions. -/
def State.mapOk (s : State) (m : Nat) : Bool :=
  let e := s.ttEntry (s.f F.KLN_MAP_ANCHOR_ENTRY m)
  let n := s.f F.KLN_MAP_SIZE_MAP_BLOCKS m
  ttNum e 0 1 == 7 && ttNum e 80 4 == s.f F.KLN_MAP_ID_MAP_ID m
    && s.fitsClass (s.pair R.KLN_MAP_BASE_LO R.KLN_MAP_BASE_HI m) ((ceilDiv (16 * n) 65536 + n) * 65536) [3]
    && s.fitsClass (s.pair R.KLN_MAP_STATE_LO R.KLN_MAP_STATE_HI m) (n * 65536) [2]
    && s.fitsClass (s.pair R.KLN_MAP_ACTIVE_LO R.KLN_MAP_ACTIVE_HI m) (s.f F.KLN_MAP_SIZE_ACTIVE_BLOCKS m * 65536) [0]

/-- The settings of the Kiln. -/
def State.klnRules (s : State) : Bool :=
  let on := s.enabled F.KLN_MAP_CTL_ENABLE
  on.all s.mapOk && decide (sumN (on.map (fun m => s.f F.KLN_MAP_SIZE_MAP_BLOCKS m)) ≤ 32768)
    && decide (sumN (on.map (fun m => s.f F.KLN_MAP_SIZE_ACTIVE_BLOCKS m)) ≤ 2048)

/-! ## The Cask (R333) -/

/-- A place index: the classes of its regions and its size (Table 12-1). -/
def State.indexOk (s : State) (i : Nat) : Bool :=
  let form := s.f F.CSK_IDX_CTL_FORM i
  let nodes := s.f F.CSK_IDX_CAP_MAX_NODES i
  let nodeCls := match form with | 0 => 0 | 1 => 2 | _ => 3
  let entCls := if form = 2 then 3 else 2
  let most := match form with | 0 => 8388608 | 1 => 800000000 | _ => 8589934592
  decide (32 * nodes ≤ most) && s.inClass (s.pair R.CSK_IDX_NODE_LO R.CSK_IDX_NODE_HI i) [nodeCls]
    && s.inClass (s.pair R.CSK_IDX_ENTRY_LO R.CSK_IDX_ENTRY_HI i) [entCls] && s.inClass (s.pair R.CSK_IDX_LOC_LO R.CSK_IDX_LOC_HI i) [entCls]

/-! ## The task graphs and the Tallies that settings name (R362, R364) -/

/-- The Tallies that the settings name for blocks to advance: window and index. -/
def State.namedTallies (s : State) (i : Image) : List (Nat × Nat) :=
  (s.enabled F.ING_SNS_SRC_ENABLE).map (fun n => (3, s.f F.ING_SNS_TALLY_INGEST n))
    ++ (s.enabled F.SPG_CH_CTL_ENABLE).map (fun c => (4, s.f F.SPG_CH_RING_CFG_TALLY c))
    ++ ((s.enabled F.TIME_TRIG_CTL_ENABLE).filter (fun n => decide (40 ≤ n) && s.fb F.TIME_TRIG_CTL_TALLY_EN n)).map
        (fun n => (2, s.f F.TIME_TRIG_DELAY_NS n / 65536))
    ++ (s.enabled F.MILL_SNS_CTL_ENABLE).map (fun n => (5, s.f F.MILL_SNS_TALLY_FRONT n))
    ++ (s.enabled F.MILL_SGM_CTL_ENABLE).map (fun p => (5, s.f F.MILL_SGM_TALLY_OUT p))
    ++ (s.enabled F.MILL_FLOW_CTL_ENABLE).map (fun j => (5, s.f F.MILL_FLOW_TALLY_OUT j))
    ++ (s.enabled F.TNS_INS_CTL_ENABLE).map (fun k => (6, s.f F.TNS_INS_TALLY_OUT k))
    ++ (s.enabled F.FRM_SES_CTL_ENABLE).flatMap (fun n => [(8, (nth ({} : SesParam) i.ses n).pose), (8, (nth ({} : SesParam) i.ses n).kf)])
    ++ (s.enabled F.KTL_PROB_CTL_ENABLE).map (fun p => (9, s.f F.KTL_PROB_TALLY_OUT p))
    ++ (s.enabled F.KLN_MAP_CTL_ENABLE).flatMap (fun m => [(0xA, s.f F.KLN_MAP_TALLY_EPOCH m), (0xA, s.f F.KLN_MAP_TALLY_OUT m)])
    ++ (s.enabled F.KLN_VIEW_CTL_ENABLE).map (fun v => (0xA, s.f F.KLN_VIEW_TALLY_OUT v))
    ++ (if (s.enabled F.FRM_SES_CTL_ENABLE).any (fun n => s.fb F.FRM_SES_RELOC_RELOC_KILN n) then [(0xA, s.f F.KLN_RELOC_TALLY_OUT)] else [])
    ++ (s.enabled F.CSK_Q_CTL_ENABLE).map (fun q => (0xB, s.f F.CSK_Q_TALLY_OUT q))
    ++ ((s.enabled F.HST_RING_CTL_ENABLE).filter (fun r => s.f F.HST_RING_REL_HOLD_US r != 0)).map
        (fun r => (0xD, s.f F.HST_RING_REL_TALLY r))

/-- Whether a graph's Tally table names a producer. -/
def Graph.lists (g : Graph) (src i : Nat) : Bool := g.tallies.any (fun e => e.index == i && bitOf e.producers src)

/-- Whether a Tally has a producer at all. -/
def Graph.produced (g : Graph) (i : Nat) : Bool := g.tallies.any (fun e => e.index == i && (e.producers != 0 || bitOf e.flags 0))

/-- A node within Table 13-2 and R364. -/
def Graph.nodeOk (g : Graph) (n : Node) : Bool :=
  decide (n.waits.length ≤ 16) && decide (n.advs.length ≤ 4) && decide (n.cls ≤ 7) && inN 1 8 n.lookahead
    && n.waits.all (fun w => g.produced w.tally && decide (w.kind ≤ 2)) && n.advs.all (fun a => g.lists n.block a.tally)
    && (!n.waits.any (fun w => w.kind != 0) || (match n.waits with | w :: _ => w.kind == 0 | [] => true))

/-- The task graphs, with the Tallies that the settings name. -/
def State.graphRules (s : State) (i : Image) : Bool :=
  i.graph.nodes.all i.graph.nodeOk && (s.namedTallies i).all (fun e => i.graph.lists e.1 e.2)

/-! ## Dispatch, host interface, links, power -/

/-- A multicast address that no service packet may have (R407). -/
def localMulticast (a : Nat) : Bool := a / 256 == 0xE00000

/-- An aperture lies inside one region, from a 64 KiB boundary (R400). -/
def State.apertureOk (s : State) (a : Nat) : Bool :=
  let base := s.pair R.HST_AP_BASE_LO R.HST_AP_BASE_HI a
  let n := s.f F.HST_AP_PAGES_PAGES a
  n == 0 || (base % 65536 == 0 && (s.rgnOf (base / 65536)).isSome && s.rgnOf (base / 65536) == s.rgnOf (base / 65536 + n - 1))

/-- A ring or window names records of Table 14-6. -/
def recordOk (kind src : Nat) : Bool :=
  match kind with
  | 0 => decide (src < 32) | 1 => decide (src < 64) | 2 => decide (src < 64) | 3 => decide (src < 64) | 4 => decide (src < 16)
  | 5 => decide (src < 8) | _ => false

/-- The settings of the host interface. -/
def State.hstRules (s : State) : Bool :=
  (List.range 16).all s.apertureOk
    && s.each F.HST_STR_CTL_ENABLE (fun k => !localMulticast (s.f F.HST_STR_DST_ADDR k))
    && s.each F.HST_RING_CTL_ENABLE (fun r => recordOk (s.f F.HST_RING_CTL_KIND r) (s.f F.HST_RING_CTL_SOURCE r)
      && s.f F.HST_RING_OFF_OFFSET r % 65536 == 0 && s.inClass (s.pair R.HST_RING_BACK_LO R.HST_RING_BACK_HI r) [0, 1])
    && s.each F.HST_WIN_ENABLE (fun w => recordOk (s.f F.HST_WIN_KIND w) (s.f F.HST_WIN_SOURCE w))

/-- Power and dispatch settings that depend on others. -/
def State.pwrRules (s : State) : Bool :=
  inN 80 (s.f F.PWR_LIMITS_HOPPER) (s.f F.PWR_THERM_CFG_HOPPER_HOT)
    && inN 40 (s.f F.DSP_COOPER_CFG_SHED_PCT - 5) (s.f F.DSP_COOPER_CFG_RESTORE_PCT)

/-! ## The checks of step 2 -/

/-- The section type that owns the settings of a window: sensor and Sparge (chapters 03 to 06), the task graphs (R268), or service. -/
def sectionOf (win : Nat) : Nat := if 2 ≤ win ∧ win ≤ 5 then 9 else if win = 9 then 5 else 0xA

/-- The first section type whose settings break their bounds (R35). -/
def State.settingsFault (s : State) (i : Image) : Option Nat :=
  match s.rangeFault with
  | some w => some (sectionOf w)
  | none =>
    (([(9, s.timeRules), (9, s.ingRules), (9, s.spgRules i), (9, s.millRules i), (0xA, s.tnsRules i), (0xA, s.memRules i), (8, s.ttRules i),
       (0xA, s.frmRules), (5, s.ktlRules i), (0xA, s.klnRules), (0xA, s.each F.CSK_IDX_CTL_ENABLE s.indexOk), (5, s.graphRules i),
       (0xA, s.hstRules), (0xA, s.pwrRules)] : List (Nat × Bool)).find? (fun e => !e.2)).map (·.1)

/-- The first unit the settings call for that the part does not enable (R3, R180): its code of BOOT_MISSING and how many are called for. Where
several are missing, the first is the one whose code of BOOT_MISSING is lowest: Kettles, Kiln, walkers, Ramhel ports, then tensor clusters
(DESIGN CHOICE, log entry 56). -/
def State.missingUnit (s : State) (i : Image) : Option (Nat × Nat) :=
  let part := s.otp.part
  let kiln := !(s.enabled F.KLN_MAP_CTL_ENABLE).isEmpty || !(s.enabled F.KLN_VIEW_CTL_ENABLE).isEmpty
  let ports := s.enabled F.LNK_PORT_CTL_ENABLE
  let bad := (s.enabled F.TNS_NET_CTL_ENABLE).find? (fun m => s.f F.TNS_NET_CTL_GROUP m % 2 ^ activeOf part 4 == 0)
  if activeOf part 0xA < i.kettles then some (1, i.kettles)
  else if kiln && activeOf part 0xB == 0 then some (2, 1)
  else if activeOf part 0xC < i.walkers then some (3, i.walkers)
  else if ports.any (fun p => decide (portsOf part ≤ p)) then some (4, ports.length)
  else match bad with
    | some m => some (5, popCount 8 (s.f F.TNS_NET_CTL_GROUP m))
    | none => none

/-- BOOT_MISSING names the missing unit (R3). -/
def State.nameMissing (s : State) (u : Nat × Nat) : State := (s.setF F.BOOT_MISSING_UNIT u.1).setF F.BOOT_MISSING_NEEDED (satU 8 u.2)

/-- The limits of an operator (Table 7-7). A layer of one group is a plain convolution whatever its channels, as layer A of Table 7-10 is. -/
def Layer.limits (l : Layer) (last : Bool) (a : Shp) : Bool :=
  match l.op with
  | 1 => inN 1 11 l.kh && inN 1 11 l.kw && inN 1 4 l.stride && inN 1 4 l.dil
      && (l.groups == 1 || (decide (1 < l.groups ∧ l.groups < l.cin) && l.cin % l.groups == 0 && l.cout % l.groups == 0))
  | 2 => inN 1 11 l.kh && inN 1 11 l.kw && inN 1 2 l.stride
  | 3 => inN 2 4 l.kh && inN 2 4 l.kw && l.stride == 2
  | 4 => decide (l.cin ≤ 65536) && decide (l.cout ≤ 65536)
  | 5 => decide (a.h ≤ 256)
  | 6 => inN 2 3 l.kh && inN 2 3 l.kw && inN 1 2 l.stride
  | 7 => l.kh == 0 || (inN 2 3 l.kh && inN 2 3 l.kw && inN 1 2 l.stride)
  | 0xC => l.stride == 2 || l.stride == 4
  | 0xD => decide (a.c ≤ 65536)
  | 0x13 => last
  | _ => true

/-- Whether a weight or fallback body is one the engines run (R169, R188, R189, Table 7-9): its magic and layer count, operators and activations of
Tables 7-7 and 7-8 within their limits, operand pairs of R169, tensors within the dimensions, shifts of the integer path from 1 to 62 (R165). The spec
gives code 0x0E for the pair; the same for the rest is DEDUCED (log entry 84). -/
def WBody.ok (b : WBody) (out : Nat) : Bool :=
  let shapes := b.shapes { h := b.height, w := b.width, c := (b.layer 0).cin }
  b.magic == 0x57544E4B && inN 1 255 b.top && b.reservedOk
    && shapes.all (fun t => decide (t.w ≤ 4096) && decide (t.c ≤ 4096) && decide (t.h ≤ 65536) && decide (t.n ≤ 65536))
    && (List.range b.top).all (fun i =>
      let l := b.layer i
      let a := nth {} shapes (b.pos l.in0)
      inN 1 0x14 l.op && decide (l.act ≤ 8) && l.limits (i + 1 == b.top) a && (!l.weighted || pairOk l.wfmt l.afmt)
        && (!(l.weighted && l.intPath (nth (0, false) (b.fmts out) i).1)
            || (List.range (nth {} shapes i).c).all (fun ch => inN 1 62 (b.param l ch).2.2)))

/-- A network with a body that the engines do not run. -/
def Image.layerFault (i : Image) : Option Nat := i.nets.findIdx? (fun n => !n.main.ok n.fmt || !n.fb.ok n.fmt)

end Sys2Proof.Machine
end

