-- ==== Sys2Proof/Machine/Ramhel.lean ====
section
/-!
DEFINITION. Cascading over Ramhel links (chapter 15): link bring-up and retry, membership and roles, time from the master, CASCADE
Tallies, messages, shards of regions, joining.
-/

namespace Sys2Proof.Machine
open Sys2Proof

/-! ## Ports (R415–R417, R421–R423, R435) -/

/-- Whether a port takes part: built, enabled, the cascade in use. -/
def State.linkOn (s : State) (p : Nat) : Bool := decide (p < portsOf s.otp.part) && s.fb F.LNK_PORT_CTL_ENABLE p && s.role != 0

/-- LNK_STATUS.OPEN and the routes of the member table. -/
def State.syncRing (s : State) : State :=
  let s := s.setB F.LNK_STATUS_OPEN (s.role != 0 && (s.fb F.LNK_CFG_CHAIN || (List.range 2).any (fun p => s.linkOn p && !s.portUp p)))
  let s := (List.range s.ringN).foldl (fun s m =>
    match s.route m with
    | some (p, l) => (s.setF F.LNK_MBR_STATE_LINKS l m).setF F.LNK_MBR_STATE_PORT p m
    | none => s.setF F.LNK_MBR_STATE_LINKS 0 m) s
  let mask := fun (st : Nat) => sumN (((List.range 16).filter (fun m => s.f F.LNK_MBR_STATE_STATE m == st)).map (2 ^ ·))
  let s := (s.setF F.LNK_MEMBERS_LOST (mask 4)).setF F.LNK_MEMBERS_JOINED (mask 3)
  (List.range 8).foldl (fun s i => if s.idxOn i then s.syncShard i else s) s

/-- Every frame not yet acknowledged end to end is sent again over the route in force (R419). -/
def State.resendKept (s : State) : State :=
  let s := s.addSat F.LNK_E2E_RESENT_COUNT s.lnk.sent.length
  s.lnk.sent.foldl (fun s e => if e.dst = 0xFF then s.txAll e.body else s.txTo e.dst e.body) s

/-- A port goes DOWN: its link sequence numbers and replay buffer are lost, its traffic takes the other direction. -/
def State.portDown (s : State) (p : Nat) : State :=
  let s := ((s.setF F.LNK_PORT_STATUS_STATE 0 p).setF F.LNK_PORT_STATUS_LANES_UP 0 p).setF F.LNK_PORT_STATUS_HALF 0 p
  let s := ((s.setLinkPort p {}).addSat F.LNK_PORT_DOWNS_DOWNS 1 p).event 0xE 1 p
  s.syncRing.resendKept

/-- LASER_EN of a port. -/
def State.laserEn (s : State) (p : Nat) (on : Bool) : State := { s with pw.laserEn := putBit s.pw.laserEn p on }

/-- A bring-up starts from step 1. -/
def State.tryPort (s : State) (p : Nat) : State := (s.laserEn p true).setLinkPort p { trying := true }

/-- The lanes a laser input feeds (R422). -/
def inputLanes (i : Nat) : Nat := if i = 0 then 0x0F else 0xF0

/-- A port's optical engine lies in 5 to 85 °C by its sensor's last reading (R473). -/
def State.engineOk (s : State) (p : Nat) : Bool :=
  let t := s.fs F.PWR_TEMP_NOW (22 + p)
  decide (80 ≤ t) && decide (t ≤ 1360)

/-- A bring-up step completes (Table 15-2); a step whose condition fails does not, and its limit then takes the port DOWN. -/
def linkBringupStep (p step : Nat) (x : LinkFind) (s : State) : State :=
  let st := s.f F.LNK_PORT_STATUS_STATE p
  let port := s.linkPort p
  let half := s.fb F.LNK_PORT_CTL_HALF_OK p
  if !s.linkOn p || !port.trying || bitOf s.pw.oeHot p || st + 1 != step then s
  else
    let go := fun (s : State) => s.setF F.LNK_PORT_STATUS_STATE step p
    match step with
    | 1 =>
      let ok := fun (v : Nat) => decide (150 ≤ v) && decide (v ≤ 180)
      let s := ((s.setF F.LNK_PORT_LASER_IN0 x.in0 p).setF F.LNK_PORT_LASER_IN1 x.in1 p)
      let s := (s.setB F.LNK_PORT_LASER_IN0_OK (ok x.in0) p).setB F.LNK_PORT_LASER_IN1_OK (ok x.in1) p
      let s := if x.in0 < 140 ∨ x.in1 < 140 then s.event 0xE 3 p else s
      let lanes := (if ok x.in0 then 0x0F else 0) + (if ok x.in1 then 0xF0 else 0)
      if !s.engineOk p then s
      else if lanes = 0xFF then go (s.setF F.LNK_PORT_STATUS_LANES_UP 0xFF p)
      else if half ∧ lanes ≠ 0 then
        go (((s.setF F.LNK_PORT_STATUS_LANES_UP lanes p).setF F.LNK_PORT_STATUS_HALF 1 p).event 0xE 2 p)
      else s
    | 2 => go s
    | 3 =>
      let want := s.f F.LNK_PORT_STATUS_LANES_UP p
      let s := (List.range 8).foldl (fun s l =>
        let on := b2n (bitOf x.lanes l)
        let s := (s.setF F.LNK_LANE_CDR on p l).setF F.LNK_LANE_SIGNAL on p l
        s.setF F.LNK_LANE_RX_DBM (uns 8 (nth (-128) x.dbm l)) p l) s
      let good := x.lanes &&& want
      if good = want then go s
      else
        match [0x0F, 0xF0].find? (fun h => half && want == 0xFF && (good &&& h) == h) with
        | some h => go (((s.setF F.LNK_PORT_STATUS_LANES_UP h p).setF F.LNK_PORT_STATUS_HALF 1 p).event 0xE 2 p)
        | none => s
    | 4 => go s
    | 5 => go s
    | 6 => if port.hello = 1 then go (s.setF F.LNK_PORT_DELAY_NS x.delay p) else s
    | 7 => ((go (s.setLinkPort p { port with trying := false, tx := 0, rx := 0, replay := [] })).event 0xE 0 p).syncRing
    | _ => s

/-- The checks of HELLO (R413, R414): 0 none fails, else the event. A KVX-7200 takes the port its position needs. -/
def State.helloCheck (s : State) (p id peer part digest : Nat) (dup : Bool) : Nat :=
  let n := s.ringN
  let me := s.deviceId
  let want := if p = 1 then (me + 1) % n else (me + n - 1) % n
  let absent := s.fb F.LNK_CFG_CHAIN && (if p = 1 then me + 1 == n else me == 0)
  let atEnd := s.fb F.LNK_CFG_CHAIN && (id == 0 || id + 1 == n)
  let partBad := part == 0x71 || (part == 0x72 && !atEnd)
    || (part != 0x73 && (id == s.f F.LNK_CFG_MASTER || id == s.f F.LNK_CFG_STANDBY))
  if absent || id != want || (part != 0x72 && s.otp.part != 0x72 && peer != 1 - p) || partBad then 5
  else if digest ≠ s.bt.img.cascDigest ∨ dup then 6
  else 0

/-- A HELLO is checked: a failed check leaves the link in EXCHANGE with its event (R414). -/
def helloRx (p id peer part digest : Nat) (dup : Bool) (s : State) : State :=
  let st := s.f F.LNK_PORT_STATUS_STATE p
  if !s.linkOn p || !(st == 4 || st == 5) then s
  else
    let s := ((s.setF F.LNK_PORT_STATUS_STATE 5 p).setF F.LNK_PORT_STATUS_PEER_ID id p).setF F.LNK_PORT_STATUS_PEER_PORT peer p
    let c := s.helloCheck p id peer part digest dup
    let s := s.setLinkPort p { s.linkPort p with hello := if c = 0 then 1 else 2 }
    if c = 0 then s else s.event 0xE c id

/-- A bring-up step exceeds its limit (R421); LASER_EN is deasserted where it is step 1 (R435). -/
def linkStepLimit (p : Nat) (s : State) : State :=
  let x := s.linkPort p
  if !s.linkOn p || !x.trying || x.hello == 2 then s
  else (if s.f F.LNK_PORT_STATUS_STATE p = 0 then s.laserEn p false else s).portDown p

/-- RETRAIN_MS has passed: a DOWN port starts again (R421). -/
def linkRetrain (p : Nat) (s : State) : State :=
  if !s.linkOn p || (s.linkPort p).trying || s.f F.LNK_PORT_STATUS_STATE p != 0 || bitOf s.pw.oeHot p then s
  else (s.addSat F.LNK_PORT_DOWNS_RETRAINS 1 p).tryPort p

/-- No frame passes its CRC for HB_US (R423). -/
def linkSilence (p : Nat) (s : State) : State := if s.portUp p then s.portDown p else s

/-- An uncorrectable codeword: its frame is dropped and counted; more than UCW_LIMIT in 1 s take the port DOWN (R416, R423). -/
def uncorrectableCodeword (p : Nat) (s : State) : State :=
  if !s.portUp p then s
  else
    let x := s.linkPort p
    let l := s.mono :: x.ucw.filter (fun t => decide (s.mono < t + 1000000000))
    let s := ((s.setLinkPort p { x with ucw := l }).addSat F.LNK_PORT_FEC_UNCORR_COUNT 1 p).event 0xE 4 p
    if s.f F.LNK_PORT_UCW_LIMIT_LIMIT p < l.length then s.portDown p else s

/-- A laser input falls low (R435): R422 applies. -/
def laserInputLow (p i dbm : Nat) (s : State) : State :=
  if !s.linkOn p || 140 ≤ dbm || 1 < i then s
  else
    let s := if i = 0 then (s.setF F.LNK_PORT_LASER_IN0 dbm p).setB F.LNK_PORT_LASER_IN0_OK false p
             else (s.setF F.LNK_PORT_LASER_IN1 dbm p).setB F.LNK_PORT_LASER_IN1_OK false p
    let s := s.event 0xE 3 p
    let left := s.f F.LNK_PORT_STATUS_LANES_UP p &&& (0xFF - inputLanes i)
    if !s.portUp p || left == s.f F.LNK_PORT_STATUS_LANES_UP p then s
    else if s.fb F.LNK_PORT_CTL_HALF_OK p && left != 0 then
      ((s.setF F.LNK_PORT_STATUS_LANES_UP left p).setF F.LNK_PORT_STATUS_HALF 1 p).event 0xE 2 p
    else s.portDown p

/-- ack has made no progress for 2 µs: the sender resends from the first unacknowledged frame; after 8 resends the link is DOWN (R417). -/
def linkRetryTimeout (p : Nat) (s : State) : State :=
  let x := s.linkPort p
  if !s.portUp p || x.replay.isEmpty then s
  else if 8 ≤ x.resends then s.portDown p
  else
    let l := x.replay.take 256
    let s := (s.setLinkPort p { x with resends := x.resends + 1 }).addSat F.LNK_PORT_REPLAY_COUNT l.length p
    l.foldl (fun s e => s.emit (.frame e.1 e.2)) s

/-! ## Members (R424, R425, R431) -/

/-- A member's state changes, at the ring epoch in force. -/
def State.setMember (s : State) (id st : Nat) : State :=
  ((s.setF F.LNK_MBR_STATE_STATE st id).setF F.LNK_MBR_EPOCH_EPOCH (s.f F.LNK_RING_EPOCH_EPOCH) id).syncRing

/-- Reachability of a member. -/
def State.setReach (s : State) (id : Nat) (on : Bool) : State := s.setF F.LNK_STATUS_REACH (putBit (s.f F.LNK_STATUS_REACH) id on)

/-- The quorum (R424). -/
def quorum (n : Nat) : Nat := if n = 2 then 1 else n / 2 + 1

/-- Whether this part reaches a quorum, itself included. -/
def State.hasQuorum (s : State) : Bool :=
  decide (quorum s.ringN ≤ popCount 16 (setBit (s.f F.LNK_STATUS_REACH) s.deviceId))

/-- What is forgotten of a member that is lost: the exactly-once numbers of both directions. -/
def State.forgetMember (s : State) (id : Nat) : State :=
  let sent := (s.lnk.sent.filter (fun e => e.dst != id)).map (fun e => ({ e with owed := e.owed.filter (· != id) } : Sent))
  { s with lnk.got := s.lnk.got.filter (fun e => e.1 / 4 != id), lnk.e2e := s.lnk.e2e.filter (fun e => e.1 / 4 != id),
           lnk.held := s.lnk.held.filter (fun e => e.1 / 4 != id),
           lnk.joiners := s.lnk.joiners.filter (· != id), lnk.sent := sent.filter (fun e => !e.owed.isEmpty),
           lnk.acks := s.lnk.acks.filter (fun a => a.2.1 != id), lnk.ops := tput [] s.lnk.ops id [] }

/-- A remote read is over: its bytes are in the part's copy of the page, or the response was poisoned (R430), and the map tiles that waited for the page
go on. -/
def State.pageArrives (s : State) (tag : Nat) (bytes : List Byte) (bad : Bool) : State :=
  match s.lnk.reads.find? (fun e => e.1 == tag) with
  | none => s
  | some e =>
    let page := e.2.2.1
    let s : State := { s with lnk.reads := s.lnk.reads.filter (fun x => x.1 != tag) }
    let s := if bad then s.addPoison (1024 * page) 1024 0 0 else s.wrHere (65536 * page) bytes
    let w := s.hst.tiles.filter (fun t => t.page == page)
    w.foldl (fun s t => if bad then s.tileNak t.req t.tile 4 else s.answerTile (page :: t.got) t.kind t.req t.tile)
      ({ s with hst.tiles := s.hst.tiles.filter (fun t => t.page != page) } : State)

/-- Remote reads under way are made anew: of the member that holds the page now, or here; with no holder the response is poisoned (R430). -/
def State.readAgain (s : State) (l : List (Nat × Nat × Nat × Nat)) : State :=
  l.foldl (fun s e =>
    let page := e.2.2.1
    match s.homeOf page with
    | none => s.pageArrives e.1 [] true
    | some h =>
      if h = s.deviceId then s.pageArrives e.1 (s.rdList (65536 * page) 65536) false
      else
        let reads := s.lnk.reads.map (fun x => if x.1 = e.1 then (x.1, h, x.2.2) else x)
        ({ s with lnk.reads := reads } : State).sendMsg h e.2.2.2 (.read e.1 (65536 * page) 65536)) s

/-- What a lost member owed: writes that waited for its copy are acknowledged, and this part's own writes to it go to who holds the page now; one
whose page has no holder is over (R430, log entry 90). -/
def State.reissue (s : State) (id : Nat) : State :=
  let s := s.readAgain (s.lnk.reads.filter (fun e => e.2.1 == id))
  let s := if (s.deviceId + 1) % s.ringN = id then
      s.lnk.acks.foldl (fun s a => s.sendMsg a.2.1 2 (.wrote a.2.2)) ({ s with lnk.acks := [] } : State)
    else s
  (s.lnk.mine.filter (fun e => e.2.1 == id)).foldl (fun s e => match s.shipTo (e.2.2.1 / 65536) with
    | some d =>
      let mine := s.lnk.mine.map (fun x => if x.1 = e.1 then (x.1, d, x.2.2) else x)
      ({ s with lnk.mine := mine } : State).sendMsg d 2 (.write e.1 e.1 e.2.2.1 e.2.2.2)
    | none => s.writeOver e.1) s

/-- A member is lost, at a new ring epoch (R424, R430). -/
def State.memberLost (s : State) (id epoch : Nat) : State :=
  let s := (s.setF F.LNK_RING_EPOCH_EPOCH epoch).setReach id false
  let s := ((s.setMember id 4).addSat F.LNK_MBR_STATE_LOSSES 1 id).event 0xE 7 id
  (((s.forgetMember id).reissue id).caskMemberLost id).resendKept

/-- The master declares a member lost, and tells the ring. -/
def State.declareLost (s : State) (id : Nat) : State :=
  let e := (s.f F.LNK_RING_EPOCH_EPOCH + 1) % 2 ^ 32
  (s.memberLost id e).txAll (.control (.memberLost id e))

/-- A member has not been heard for 2 × HB_US (R424). -/
def memberUnreachable (id : Nat) (s : State) : State :=
  if !s.inCascade || s.ringN ≤ id || id == s.deviceId || decide (s.mono < tget 0 s.lnk.heard id + 2000 * s.f F.LNK_TIMING_HB_US) then s
  else
    let s := (s.setReach id false).setF F.LNK_MBR_HB_AGE_US (satU 32 ((s.mono - tget 0 s.lnk.heard id) / 1000)) id
    let st := s.f F.LNK_MBR_STATE_STATE id
    if s.role = 1 ∧ s.hasQuorum ∧ 1 ≤ st ∧ st ≤ 3 then (s.declareLost id).caskSettle else s

/-- The standby takes the master role (R425): device time runs on, its own servos start (R427); the pose graphs go on from the
copies it holds (R426). -/
def masterTakeover (s : State) : State :=
  let m := s.f F.LNK_STATUS_MASTER_NOW
  if s.role ≠ 2 ∨ bitOf (s.f F.LNK_STATUS_REACH) m ∨ !s.hasQuorum ∨ s.f F.LNK_MBR_STATE_STATE s.deviceId = 4 then s
  else
    let s := ((s.setF F.LNK_STATUS_ROLE 1).setF F.LNK_STATUS_MASTER_NOW s.deviceId).event 0xE 9
    (s.declareLost m).caskSettle

/-- A member that reaches no master, or a master without a quorum, becomes ISOLATED (R425). -/
def memberIsolated (s : State) : State :=
  let noMaster := (s.role == 2 || s.role == 3) && !bitOf (s.f F.LNK_STATUS_REACH) (s.f F.LNK_STATUS_MASTER_NOW)
  if noMaster || (s.role == 1 && !s.hasQuorum) then
    let s := (s.setF F.LNK_STATUS_ROLE 4).event 0xE 10
    let s := (s.syncRing.setTimeState 1).setMember s.deviceId 0
    (s.readAgain s.lnk.reads).caskSettle
  else s

/-- The master begins to bring a member in (R431): a snapshot of every CASCADE Tally, and from then on every advance is forwarded. -/
def State.beginJoin (s : State) (id : Nat) : State :=
  let st := s.f F.LNK_MBR_STATE_STATE id
  if s.role ≠ 1 ∨ s.ringN ≤ id ∨ id = s.deviceId ∨ !(st == 0 || st == 4) then s
  else
    let s := (s.forgetMember id).setMember id 1
    let snap := ((s.dsp.graph.tallies.filter (fun e => bitOf e.flags 1)).map (·.index)).map (fun i => (i, s.tv i, s.tstamp i))
    let s := (s.txTo id (.control (.snapshot snap))).setMember id 2
    { s with lnk.joiners := id :: s.lnk.joiners, lnk.heard := tput 0 s.lnk.heard id s.mono }

/-- The copy of a rejoining member's shards ends: it is in the ring again at a new epoch (R431). -/
def resyncDone (id : Nat) (s : State) : State :=
  if s.role ≠ 1 ∨ s.f F.LNK_MBR_STATE_STATE id ≠ 2 then s
  else
    let e := (s.f F.LNK_RING_EPOCH_EPOCH + 1) % 2 ^ 32
    let s := (s.setF F.LNK_RING_EPOCH_EPOCH e).setMember id 3
    let s : State := { s with lnk.joiners := s.lnk.joiners.filter (· != id) }
    let s := ((s.bumpShards id).event 0xE 8 id).event 0xE 11 id
    ((s.txAll (.control (.memberJoined id e))).resendKept).caskSettle

/-- The joining member takes the snapshot (R431): each CASCADE Tally takes its value and stamp, and nodes begin past what the ring has done. -/
def State.takeSnapshot (s : State) (l : List (Nat × Nat × Nat)) : State :=
  let s := l.foldl (fun (s : State) e =>
    if s.isCascade e.1 then
      ({ s with tally := tput {} s.tally e.1 { value := e.2.1, stamp := e.2.2 },
                dsp.kick := if s.dsp.kick.contains e.1 then s.dsp.kick else s.dsp.kick ++ [e.1] } : State).testSlots e.1
    else s) s
  (List.range s.dsp.graph.nodes.length).foldl (fun (s : State) n =>
    match (nth ({ block := 0 } : Node) s.dsp.graph.nodes n).waits with
    | w :: _ =>
      if w.kind = 0 ∧ s.isCascade w.tally ∧ 0 < w.stride ∧ l.any (fun e => e.1 == w.tally) then
        let k0 := if s.tv w.tally < w.base then 0 else (s.tv w.tally - w.base) / w.stride + 1
        { s with dsp.nextK := tput 0 s.dsp.nextK n (Nat.max k0 (tget 0 s.dsp.nextK n)),
                 dsp.pend := s.dsp.pend.filter (fun i => !(i.node == n && decide (i.k < k0))) }
      else s
    | [] => s) s

/-! ## Receiving (R416, R417, R419, R424) -/

/-- The acknowledgement of a frame releases the replay buffer; frames that waited for room are sent. -/
def State.takeAck (s : State) (p ack : Nat) : State :=
  let x := s.linkPort p
  match (x.replay.take 256).findIdx? (fun e => e.1.seq == ack) with
  | none => s
  | some i =>
    let rest := x.replay.drop (i + 1)
    let s := s.setLinkPort p { x with replay := rest, resends := 0 }
    ((rest.take 256).drop (255 - i)).foldl (fun s e => s.emit (.frame e.1 e.2)) s

/-- Whether a frame comes from a member whose loss was declared in a newer epoch (R424). -/
def State.staleFrame (s : State) (h : FrameHdr) : Bool :=
  s.f F.LNK_MBR_STATE_STATE h.src == 4 && decide (128 ≤ (h.epoch + 256 - s.f F.LNK_MBR_EPOCH_EPOCH h.src % 256) % 256)

/-- A frame crosses a port: dropped and counted with a bad CRC, dropped after a gap; forwarded on while links are still to cross; the answer
says whether it is for this part. -/
def State.linkRx (s : State) (h : FrameHdr) (b : Body) : State × Bool :=
  if !s.portUp h.port then (s, false)
  else if !h.crcOk then (s.addSat F.LNK_PORT_CRC_COUNT 1 h.port, false)
  else
    let s := s.takeAck h.port h.ack
    let x := s.linkPort h.port
    if h.seq ≠ x.rx then (s, false)
    else
      let s := s.setLinkPort h.port { x with rx := (x.rx + 1) % 65536 }
      if s.staleFrame h || h.src == s.deviceId || 16 ≤ h.src then (s, false)
      else
        let s := if h.dst != s.deviceId && 0 < h.links then s.txFrame (1 - h.port) h.dst (h.links - 1) b (some h.src) else s
        (s, h.dst == s.deviceId || h.dst == 0xFF)

/-- A remote write is applied at its home, then at the replica, then acknowledged (R430). -/
def State.remoteWrite (s : State) (src tag op addr : Nat) (bytes : List Byte) : State :=
  let seen := tget [] s.lnk.ops src
  if seen.contains op then s.sendMsg src 2 (.wrote tag)
  else
    let s := s.wrHere addr bytes
    let s : State := { s with lnk.ops := tput [] s.lnk.ops src ((op :: seen).take 4096) }
    match s.replicaFor (addr / 65536) with
    | some next =>
      if next = src then s.sendMsg src 2 (.wrote tag)
      else
        let t := s.lnk.next
        ({ s with lnk.next := t + 1, lnk.acks := (t, src, tag) :: s.lnk.acks } : State).sendMsg next 2 (.write t t addr bytes)
    | none => s.sendMsg src 2 (.wrote tag)

/-- A message takes effect (R419, R426, R430). -/
def State.takeMsg (s : State) (src cls : Nat) (m : Msg) : State :=
  match m with
  | .read tag addr len =>
    let bad := (s.homeOf (addr / 65536)).isNone || s.poisoned addr len
    s.sendMsg src cls (.data tag (if bad then zeroBytes len else s.rdList addr len) bad)
  | .write tag op addr bytes => s.remoteWrite src tag op addr bytes
  | .wrote tag =>
    match s.lnk.acks.find? (fun a => a.1 == tag) with
    | some a => ({ s with lnk.acks := s.lnk.acks.filter (fun x => x.1 != tag) } : State).sendMsg a.2.1 2 (.wrote a.2.2)
    | none => s.writeOver tag
  | .data tag bytes bad => s.pageArrives tag bytes bad
  | .delta p l =>
    if s.role = 1 then s.keepDeltas p l
    else s.setProb p { s.prob p with ring := (s.prob p).ring ++ l.filter (fun d => d.op != 7) }
  | .solution p seq digest values =>
    let a := s.ktlSlot p seq + 128
    let x := s.prob p
    (s.wrHere a values).setProb p (if values.isEmpty then { x with seq := seq }
      else { x with seq := seq, sol := some (digest, a, values.length), vals := areaVars values values.length })
  | m => s.caskMsg src m

/-- Whether this part is in the ring: CASCADE advances of other members apply only then (R431). -/
def State.joined (s : State) : Bool := s.role == 1 || s.f F.LNK_MBR_STATE_STATE s.deviceId == 3

/-- An exactly-once frame takes effect. -/
def State.applyKept (s : State) (src : Nat) (b : Body) : State :=
  match b with
  | .tally _ i n st => if s.joined then (s.applyAdvance i n st).forwardJoin i n st else s
  | .msg _ cls m => s.takeMsg src cls m
  | .page _ _ a bytes => s.wrHere a bytes
  | _ => s

/-- Frames that waited for an earlier one take effect in e2e_seq order. -/
def State.drainKept (s : State) (src key : Nat) : (fuel : Nat) → State
  | 0 => s
  | n + 1 =>
    let want := tget 0 s.lnk.got key - 1
    match s.lnk.held.find? (fun e => e.1 == key && e.2.1 == want) with
    | none => s
    | some e =>
      let s : State := { s with lnk.held := s.lnk.held.filter (fun x => !(x.1 == key && x.2.1 == want)),
                                lnk.got := tput 0 s.lnk.got key ((want + 1) % 2 ^ 32 + 1) }
      (s.applyKept src e.2.2).drainKept src key n

/-- An exactly-once frame arrives (R419): acknowledged; a copy of one already accepted is dropped; one ahead of its turn waits. -/
def State.keptRx (s : State) (src cls e2e : Nat) (b : Body) : State :=
  let key := src * 4 + cls
  let s := s.txTo src (.e2eAck cls e2e)
  let exp := tget 0 s.lnk.got key
  if exp = 0 ∨ e2e = exp - 1 then
    let s : State := { s with lnk.got := tput 0 s.lnk.got key ((e2e + 1) % 2 ^ 32 + 1) }
    ((s.applyKept src b).drainKept src key s.lnk.held.length)
  else if (e2e + 2 ^ 32 - (exp - 1)) % 2 ^ 32 < 65536 ∧ !s.lnk.held.any (fun x => x.1 == key && x.2.1 == e2e) then
    { s with lnk.held := s.lnk.held ++ [(key, e2e, b)] }
  else s

/-- The tally's e2e_seq is taken before it is applied, and the class of a TALLY frame is 0. -/
def ramhelTallyRx (h : FrameHdr) (e2e index amount : Nat) (stamp : Option Nat) (s : State) : State :=
  let b := Body.tally e2e index amount stamp
  let r := s.linkRx h b
  if r.2 then r.1.keptRx h.src 0 e2e b else r.1

/-- A MSG frame (R417, R419): taken at link level, then in e2e order. -/
def ramhelMsgRx (h : FrameHdr) (e2e cls : Nat) (m : Msg) (s : State) : State :=
  let b := Body.msg e2e cls m
  let r := s.linkRx h b
  if r.2 then r.1.keptRx h.src (cls % 4) e2e b else r.1

/-- A PAGE frame (R417, R419): taken at link level, then in e2e order. -/
def ramhelPageRx (h : FrameHdr) (e2e cls addr : Nat) (bytes : List Byte) (s : State) : State :=
  let b := Body.page e2e cls addr bytes
  let r := s.linkRx h b
  if r.2 then r.1.keptRx h.src (cls % 4) e2e b else r.1

/-- An E2E_ACK releases the sender's kept frames (R419). -/
def ramhelE2eAckRx (h : FrameHdr) (cls e2e : Nat) (s : State) : State :=
  let r := s.linkRx h (.e2eAck cls e2e)
  if !r.2 then r.1
  else
    let l := r.1.lnk.sent.map (fun e =>
      if e.seq == e2e && e.cls == cls && (e.dst == h.src || e.dst == 0xFF) then ({ e with owed := e.owed.filter (· != h.src) } : Sent) else e)
    { r.1 with lnk.sent := l.filter (fun e => !e.owed.isEmpty) }

/-- Every 10 µs a member sends a HEARTBEAT on both ports. -/
def heartbeatTx (s : State) : State := if s.role = 0 then s else s.txAll (.heartbeat (s.f F.LNK_STATUS_REACH))

/-- Whether a heartbeat tells this part of a master it may join (R425, R431): the member it knows as master; or, where it is ISOLATED,
the configured standby at a newer epoch. -/
def State.masterHeard (s : State) (h : FrameHdr) : Bool :=
  h.src == s.f F.LNK_STATUS_MASTER_NOW
    || (s.role == 4 && h.src == s.f F.LNK_CFG_STANDBY && h.epoch != s.f F.LNK_RING_EPOCH_EPOCH % 256)

/-- A HEARTBEAT updates reachability and is forwarded (R424). A member not in the ring asks the master to join; in a ring of 2 whose two
masters meet, the higher identity rejoins (R425). -/
def heartbeatRx (h : FrameHdr) (reach : Nat) (s : State) : State :=
  let r := s.linkRx h (.heartbeat reach)
  if !r.2 || s.role == 0 then r.1
  else
    let s := (r.1.setReach h.src true).setF F.LNK_MBR_HB_AGE_US 0 h.src
    let s : State := { s with lnk.heard := tput 0 s.lnk.heard h.src s.mono }
    let yield := s.role == 1 && s.ringN == 2 && decide (h.src < s.deviceId) && s.f F.LNK_MBR_STATE_STATE h.src == 4
    let me := s.f F.LNK_MBR_STATE_STATE s.deviceId
    if yield || (s.role != 1 && s.masterHeard h && (me == 0 || me == 4)) then
      let role := if s.f F.LNK_CFG_STANDBY = s.deviceId ∧ !yield then 2 else 3
      let s := (s.setF F.LNK_STATUS_ROLE role).setF F.LNK_STATUS_MASTER_NOW h.src
      let s := (s.setMember s.deviceId 1).setMember h.src 3
      s.txTo h.src (.control (.join s.deviceId))
    else s

/-- A CONTROL frame is applied (R424, R425, R431). -/
def ramhelControlRx (h : FrameHdr) (c : Ctl) (s : State) : State :=
  let r := s.linkRx h (.control c)
  let s := r.1
  if !r.2 || s.role == 0 then s
  else
    match c with
    | .memberLost id epoch =>
      if id = s.deviceId then
        let s := (s.setF F.LNK_RING_EPOCH_EPOCH epoch).setMember id 4
        (s.setMember id 1).txTo h.src (.control (.join id))
      else
        let was := s.f F.LNK_STATUS_MASTER_NOW
        let s := s.memberLost id epoch
        (if id = was then (s.setF F.LNK_STATUS_MASTER_NOW h.src).caskNewMaster else s).caskSettle
    | .memberJoined id epoch =>
      let s := ((s.setF F.LNK_RING_EPOCH_EPOCH epoch).setMember id 3).event 0xE 8 id
      let s := s.bumpShards id
      let s := if id = s.deviceId then
          (s.setF F.LNK_STATUS_ROLE (if s.f F.LNK_CFG_STANDBY = id then 2 else 3)).event 0xE 11 id
        else s
      s.resendKept.caskSettle
    | .join id => if id = h.src then s.beginJoin id else s
    | .snapshot l => if s.f F.LNK_MBR_STATE_STATE s.deviceId = 1 then (s.takeSnapshot l).setMember s.deviceId 2 else s
    | .forward i n st => if s.f F.LNK_MBR_STATE_STATE s.deviceId = 2 then s.applyAdvance i n st else s

/-! ## Device time (R427) -/

/-- Every 100 µs the master sends a TIME frame on both ports. -/
def timeTx (s : State) : State := if s.role = 1 then s.txAll (.time s.tm.dev (s.f F.TIME_STATUS_STATE) 0) else s

/-- A TIME frame disciplines device time to the master: the frame of fewer links counts; one step in step 5's wait; after that the frequency the
servo gives, and a slew of an offset up to 10 ms (R57, R58). A forwarded frame carries the link delay and this part's residence
time, which is open. -/
def ramhelTimeRx (h : FrameHdr) (dev state corr : Nat) (ppt : Int) (s : State) : State :=
  let c := corr + s.f F.LNK_PORT_DELAY_NS h.port
  let r := s.linkRx h (.time dev state (c + s.freeVal))
  let s := r.1.used
  if !r.2 || !(s.role == 2 || s.role == 3) || (s.route h.src).map (·.1) != some h.port || h.src != s.f F.LNK_STATUS_MASTER_NOW then s
  else
    let off : Int := (dev : Int) + (c : Int) * 65536 - (s.tm.dev : Int)
    let ns := off.tdiv 65536
    let s := s.setFs F.LNK_TIME_OFFSET_NS ns
    let s : State :=
      if s.tm.stepOpen then
        let s : State := { s with tm.stepOpen := false }
        (if off > 0 then ({ s with tm.dev := s.tm.dev + off.toNat } : State).setB F.TIME_STATUS_STEPPED true else s).endPtpWait
      else
        let s := s.setFs F.TIME_RATE_PPT (rateClamp ppt)
        if ns.natAbs ≤ 10000000 then s.setSlew (slewOf ns) else s
    s.setTimeState state

/-- No TIME frame for 1 ms: HOLDOVER. -/
def timeFrameLoss (s : State) : State :=
  if s.role == 2 || s.role == 3 then (s.event 0xE 12).setTimeState 1 else s

/-! ## The start of the cascade (R413, R414, R421) -/

/-- Ramhel bring-up starts when step 2 ends: the part takes its role, and its enabled ports begin. -/
def State.linkStart (s : State) : State :=
  let s := s.setPair R.LNK_DIGEST_LO R.LNK_DIGEST_HI (s.bt.img.cascDigest / 2 ^ 192)
  match s.otp.cascadeId with
  | none => s
  | some id =>
    if !s.fb F.LNK_CFG_ENABLE || s.otp.part == 0x71 || s.ringN ≤ id then s
    else
      let role := if s.f F.LNK_CFG_MASTER = id ∧ s.otp.part = 0x73 then 1 else if s.f F.LNK_CFG_STANDBY = id ∧ s.otp.part = 0x73 then 2 else 3
      let s := ((s.setF F.LNK_STATUS_ROLE role).setF F.LNK_STATUS_MY_ID id).setF F.LNK_STATUS_MASTER_NOW (s.f F.LNK_CFG_MASTER)
      let s := s.setReach id true
      let s := if role = 1 then s.setMember id 3 else s
      ((List.range (portsOf s.otp.part)).foldl (fun s p => if s.linkOn p then s.tryPort p else s) s).syncRing

/-! ## Meanings -/

/-- LINK_BRINGUP_STEP (R421). -/
def execLinkBringupStep (port step : Nat) (x : LinkFind) (s : State) : Host.Outcome State Fault Refusal :=
  done (whenUp (linkBringupStep port step x) s)

/-- HELLO_RX (R414). -/
def execHelloRx (port id peer part digest : Nat) (dup : Bool) (s : State) : Host.Outcome State Fault Refusal :=
  done (whenUp (helloRx port id peer part digest dup) s)

/-- LINK_STEP_LIMIT (R421). -/
def execLinkStepLimit (port : Nat) (s : State) : Host.Outcome State Fault Refusal := done (whenUp (linkStepLimit port) s)

/-- LINK_RETRAIN (R421). -/
def execLinkRetrain (port : Nat) (s : State) : Host.Outcome State Fault Refusal := done (whenUp (linkRetrain port) s)

/-- HEARTBEAT_TX (R424). -/
def execHeartbeatTx (s : State) : Host.Outcome State Fault Refusal := done (whenUp heartbeatTx s)

/-- HEARTBEAT_RX (R424). -/
def execHeartbeatRx (h : FrameHdr) (reach : Nat) (s : State) : Host.Outcome State Fault Refusal := done (whenUp (heartbeatRx h reach) s)

/-- RAMHEL_CONTROL_RX (R431). -/
def execRamhelControlRx (h : FrameHdr) (c : Ctl) (s : State) : Host.Outcome State Fault Refusal := done (whenUp (ramhelControlRx h c) s)

/-- RAMHEL_TIME_RX (R427). -/
def execRamhelTimeRx (h : FrameHdr) (dev state corr : Nat) (ppt : Int) (s : State) : Host.Outcome State Fault Refusal :=
  done (whenUp (ramhelTimeRx h dev state corr ppt) s)

/-- RAMHEL_TALLY_RX (R428). -/
def execRamhelTallyRx (h : FrameHdr) (e2e index amount : Nat) (stamp : Option Nat) (s : State) : Host.Outcome State Fault Refusal :=
  done (whenUp (ramhelTallyRx h e2e index amount stamp) s)

/-- RAMHEL_MSG_RX (R419). -/
def execRamhelMsgRx (h : FrameHdr) (e2e cls : Nat) (m : Msg) (s : State) : Host.Outcome State Fault Refusal :=
  done (whenUp (ramhelMsgRx h e2e cls m) s)

/-- RAMHEL_PAGE_RX (R419). -/
def execRamhelPageRx (h : FrameHdr) (e2e cls addr : Nat) (bytes : List Byte) (s : State) : Host.Outcome State Fault Refusal :=
  done (whenUp (ramhelPageRx h e2e cls addr bytes) s)

/-- RAMHEL_E2E_ACK_RX (R419). -/
def execRamhelE2eAckRx (h : FrameHdr) (cls e2e : Nat) (s : State) : Host.Outcome State Fault Refusal :=
  done (whenUp (ramhelE2eAckRx h cls e2e) s)

/-- LINK_RETRY_TIMEOUT (R417). -/
def execLinkRetryTimeout (port : Nat) (s : State) : Host.Outcome State Fault Refusal := done (whenUp (linkRetryTimeout port) s)

/-- TIME_TX (R427). -/
def execTimeTx (s : State) : Host.Outcome State Fault Refusal := done (whenUp timeTx s)

/-- LINK_SILENCE (R423). -/
def execLinkSilence (port : Nat) (s : State) : Host.Outcome State Fault Refusal := done (whenUp (linkSilence port) s)

/-- MEMBER_UNREACHABLE (R424). -/
def execMemberUnreachable (id : Nat) (s : State) : Host.Outcome State Fault Refusal := done (whenUp (memberUnreachable id) s)

/-- MASTER_TAKEOVER (R425). -/
def execMasterTakeover (s : State) : Host.Outcome State Fault Refusal := done (whenUp masterTakeover s)

/-- MEMBER_ISOLATED (R425). -/
def execMemberIsolated (s : State) : Host.Outcome State Fault Refusal := done (whenUp memberIsolated s)

/-- TIME_FRAME_LOSS (R427). -/
def execTimeFrameLoss (s : State) : Host.Outcome State Fault Refusal := done (whenUp timeFrameLoss s)

/-- RESYNC_DONE (R431). -/
def execResyncDone (id : Nat) (s : State) : Host.Outcome State Fault Refusal := done (whenUp (resyncDone id) s)

/-- LASER_INPUT_LOW (R435). -/
def execLaserInputLow (port input dbm : Nat) (s : State) : Host.Outcome State Fault Refusal :=
  done (whenUp (laserInputLow port input dbm) s)

/-- UNCORRECTABLE_CODEWORD (R423). -/
def execUncorrectableCodeword (port : Nat) (s : State) : Host.Outcome State Fault Refusal := done (whenUp (uncorrectableCodeword port) s)

end Sys2Proof.Machine
end

