-- ==== Sys2Proof/Machine/Security.lean ====
section
/-!
DEFINITION. The mailbox (R404), attestation reports (R446), staging, activation and handover (R447–R456).
-/

namespace Sys2Proof.Machine
open Sys2Proof

/-! ## The mailbox (R404) -/

/-- Whether the mailbox answers: the HST window is loaded, or the part is in recovery (R39, R43). -/
def State.mbxOpen (s : State) : Bool := s.reach 0 && (s.loaded || s.pw.mode == .recovery)

/-- `n` bytes of the request from byte `off`. -/
def State.reqBytes (s : State) (off n : Nat) : List Byte :=
  (((List.range 64).flatMap (fun k => leBytes 4 (s.f F.HST_MBX_REQ_DATA k))).drop off).take n

/-- A number of the request. -/
def State.reqNum (s : State) (off n : Nat) : Nat := leValue (s.reqBytes off n)

/-- The opcode of the request. -/
def State.reqOp (s : State) : Nat := s.reqNum 0 2

/-- Results of R404. -/
def Mbx.done : Nat := 0
def Mbx.accepted : Nat := 1
def Mbx.busy : Nat := 2
def Mbx.refused : Nat := 3
def Mbx.bad : Nat := 4
def Mbx.timeout : Nat := 5
def Mbx.failed : Nat := 6

/-- The answer to a command: response words, STATE DONE with RESULT and the tag, vector 1; discarded after an FLR (R406). -/
def State.answer (s : State) (tag result : Nat) (rsp : List Nat := []) : State :=
  let s : State := { s with hst.dma := none }
  if s.hst.drop then { s.setF F.HST_MBX_STATUS_STATE 0 with hst.drop := false }
  else
    let s := (List.range rsp.length).foldl (fun s k => s.setF F.HST_MBX_RSP_DATA (nth 0 rsp k) k) s
    let s := ((s.setF F.HST_MBX_STATUS_STATE 2).setF F.HST_MBX_STATUS_RESULT result).setF F.HST_MBX_STATUS_TAG tag
    s.irq 0 1

/-! ## Attestation (R446) -/

/-- The key label of the attestation key. -/
def attestKey : Nat := 2

/-- A measurement entry (Table 16-4). -/
def Sect.measure (e : Sect) : List Byte :=
  leBytes 2 e.typ ++ leBytes 2 e.inst ++ leBytes 2 e.fmt ++ leBytes 2 (if e.old then currentFmt e.typ else e.fmt) ++ leBytes 2 (b2n e.old)
    ++ zeroBytes 6 ++ leBytes 32 e.digest ++ leBytes 32 (if e.old then e.convDigest else 0)

/-- The report (Table 16-3). -/
def State.report (s : State) (nonce : List Byte) : List Byte :=
  let i := s.bt.img
  let ms := i.sects.filter Sect.used
  let slot := s.bt.slot.getD false
  let chain := fitBytes (4 * ceilDiv s.sec.issued.length 4) s.sec.issued
  let len := 128 + 80 * ms.length + chain.length + 64
  let flags := b2n s.otp.debugLock + 2 * b2n (s.fb F.SEC_STATUS_DEBUG_SEEN) + 4 * b2n (s.fb F.BOOT_STATUS_MIGRATED)
    + 8 * b2n ((s.fl.slotDir slot).state != 3) + 16 * b2n (s.fb F.DSP_STATUS_DEGRADED) + 32 * b2n (s.fb F.SEC_STATUS_LEGACY)
  let head := leBytes 4 0x4B584154 ++ leBytes 2 1 ++ leBytes 2 ms.length ++ leBytes 4 len ++ leBytes 4 flags ++ fitBytes 32 nonce
    ++ leBytes 8 s.otp.serial ++ leBytes 1 (s.f F.GLB_PART_PART) ++ leBytes 1 (b2n slot) ++ leBytes 1 i.keySlot ++ leBytes 1 s.otp.svc
    ++ leBytes 2 i.cver ++ leBytes 2 0 ++ leBytes 8 i.seq ++ tsBytes s.now ++ leBytes 4 (128 + 80 * ms.length) ++ leBytes 4 s.sec.issued.length
    ++ zeroBytes 36
  let body := head ++ ms.flatMap Sect.measure ++ chain
  body ++ fitBytes 64 (Config.sm2Sign attestKey (Config.sm3 body))

/-! ## The update's state -/

/-- Whether an update is under way: from ACTIVATE to LIVE (R446, R454). -/
def State.updating (s : State) : Bool := inN 1 5 (s.f F.SEC_UPDATE_STATE)

/-- SEC_UPDATE.STATE changes; SEC_UPD_TIME is the time since ACTIVATE. -/
def State.setUpd (s : State) (st : Nat) : State :=
  (s.setF F.SEC_UPDATE_STATE st).setF F.SEC_UPD_TIME_MS ((s.mono - s.sec.startedAt) / 1000000)

/-- A long command under way: an erase, a verification, or a transfer. -/
def State.longBusy (s : State) : Bool :=
  s.f F.SEC_STAGE_STATE == 1 || s.f F.SEC_STAGE_STATE == 3 || s.sec.inData.isSome || s.updating

/-- Cooper core 3 holds the standby role (R449). -/
def State.standby3 (s : State) : Bool := (s.placeOf 0xE 3).isNone && !(s.unitSt 0xE 3).out && !s.busyUnit 0xE 3

/-- The slot that ACTIVATE writes: the one not running; in recovery an EMPTY or REJECTED one. -/
def State.targetSlot (s : State) : Bool :=
  match s.bt.slot with
  | some b => !b
  | none => !((s.fl.slotDir false).state == 0 || (s.fl.slotDir false).state == 4)

/-! ## PATH (R448) -/

/-- Whether two images hold the same sections of a type: instance and digest. -/
def sameSects (a b : Image) (t : Nat) : Bool :=
  let key := fun (i : Image) => (i.sects.filter (fun e => e.typ == t)).map (fun e => (e.inst, e.fmt, e.digest))
  key a == key b

/-- The PATH of a verified object: 0 handover, 1 restart. -/
def State.pathOf (s : State) (o : Staged) : Nat :=
  let ok := s.bt.slot.isSome && o.img.layout == s.bt.img.layout && o.img.otpReqs.all (fun q => q.op == 0)
    && [5, 6, 7].all (sameSects o.img s.bt.img) && decide (o.len ≤ s.f F.SEC_UPD_CFG_UPDATE_MIB * 2 ^ 20)
    && (s.fl.slotDir (s.bt.slot.getD false)).state == 3
  b2n (!ok)

/-! ## The commands -/

/-- STAGE_BEGIN (R447). -/
def State.stageBegin (s : State) : State × Nat :=
  let st := s.f F.SEC_STAGE_STATE
  let l := s.reqNum 8 4
  if s.longBusy then (s, Mbx.busy)
  else if !(st == 0 || st == 4 || st == 5) then (s, Mbx.bad)
  else if !(inN 4096 s.fl.slotSize l && l % 4096 == 0) then (s, Mbx.refused)
  else
    let s : State := { s with fl := { s.fl.setStaging 0 with staged := none },
                              sec := { s.sec with stageLen := l, written := [], inData := none } }
    let s := ((s.setF F.SEC_STAGE_STATE 1).setF F.SEC_STAGE_LEN_BYTES l).setF F.SEC_STAGE_DONE_BLOCKS 0
    (s.setF F.SEC_STAGE_REASON 0, Mbx.accepted)

/-- The 4 KiB blocks of a transfer. -/
def blocksOf (off len : Nat) : List Nat := (List.range (len / 4096)).map (off / 4096 + ·)

/-- STAGE_DATA (R447): the host memory is read by DMA. -/
def State.stageData (s : State) : State × Nat :=
  let addr := s.reqNum 8 8
  let len := s.reqNum 16 4
  let off := s.reqNum 20 4
  if s.longBusy then (s, Mbx.busy)
  else if s.f F.SEC_STAGE_STATE ≠ 2 ∨ off % 4096 ≠ 0 ∨ len % 4096 ≠ 0 ∨ 16 * 2 ^ 20 < len ∨ s.sec.stageLen < off + len
      ∨ (blocksOf off len).any (fun b => s.sec.written.contains b) then (s, Mbx.bad)
  else (({ s with sec.inData := some (off, len) } : State).emit (.dmaRead addr len), Mbx.accepted)

/-- STAGE_END (R447). -/
def State.stageEnd (s : State) : State × Nat :=
  if s.longBusy then (s, Mbx.busy)
  else if s.f F.SEC_STAGE_STATE ≠ 2 ∨ s.sec.written.length ≠ s.sec.stageLen / 4096 then (s, Mbx.bad)
  else (s.setF F.SEC_STAGE_STATE 3, Mbx.accepted)

/-- STAGE_ABORT (R447). -/
def State.stageAbort (s : State) : State × Nat :=
  if s.updating then (s, Mbx.busy)
  else if s.f F.SEC_STAGE_STATE = 6 then (s, Mbx.bad)
  else
    let s : State := { s with fl := { s.fl.setStaging 0 with staged := none }, sec.written := [], sec.inData := none }
    (s.setF F.SEC_STAGE_STATE 0, Mbx.done)

/-- ACTIVATE (R449): the target slot is EMPTY in the directory, and the copy begins. -/
def State.activate (s : State) : State × Nat :=
  if s.longBusy then (s, Mbx.busy)
  else if s.f F.SEC_STAGE_STATE ≠ 4 then (s, Mbx.bad)
  else
    match s.fl.staged with
    | none => (s, Mbx.bad)
    | some o =>
      let confirmed := match s.bt.slot with | some b => (s.fl.slotDir b).state == 3 | none => true
      if !confirmed then (s, Mbx.refused)
      else
        let b := s.targetSlot
        let path := b2n (s.pathOf o == 1 || !s.standby3)
        let s : State := { s with fl := s.fl.setSlotDir b {},
                                  sec := { s.sec with target := b, byHand := path == 0, startedAt := s.mono } }
        let s := (s.syncSlots.setF F.SEC_STAGE_STATE 6).setF F.SEC_STAGE_PATH path
        ((s.setUpd 1).event 0xF 2, Mbx.accepted)

/-- SESSION_START and SESSION_STOP (R52, R229). -/
def State.sessionCmd (s : State) (start : Bool) : State × Nat :=
  let n := s.reqNum 8 1
  if s.sesOn n && bitOf (s.f F.BOOT_SESSION_HOST_MASK) n then ((if start then s.startSession n true else s.stopSession n), Mbx.done)
  else (s.event 0x8 9 n, Mbx.refused)

/-- Units are queued for their groups' next visits (R376): those not out and not queued already. -/
def State.queueUnits (s : State) (l : List (Nat × Nat)) : State :=
  let new := l.filter (fun e => !(s.unitSt e.1 e.2).out && !s.dsp.queued.contains e)
  let s : State := { s with dsp.queued := s.dsp.queued ++ new }
  s.setF F.DSP_ST_STATUS_QUEUED (satU 8 s.dsp.queued.length)

/-- Every unit of the part. -/
def everyUnit : List (Nat × Nat) := allClasses.flatMap (fun c => (List.range (builtOf c * groupsOf c)).map (fun i => (c, i)))

/-- SELFTEST (R376). -/
def State.selfTestCmd (s : State) : State × Nat × List Nat :=
  let c := s.reqNum 8 1
  let i := s.reqNum 9 2
  if c = 0xFF then
    (s.queueUnits everyUnit, Mbx.accepted, [])
  else if builtOf c * groupsOf c ≤ i then (s, Mbx.bad, [])
  else if (s.unitSt c i).out then (s, Mbx.done, [(s.unitSt c i).last])
  else if s.dsp.queued.contains (c, i) then (s, Mbx.done, [])
  else (s.queueUnits [(c, i)], Mbx.accepted, [])

/-- ATTEST (R446). -/
def State.attest (s : State) : State × Nat :=
  if s.updating then (s, Mbx.busy)
  else if s.fb F.SEC_STATUS_ID_FAIL then (s, Mbx.failed)
  else
    let s := s.emit (.dmaWrite (s.reqNum 40 8) (s.report (s.reqBytes 8 32)))
    ((s.addWrap F.SEC_COUNTS_ATTESTS).event 0xF 7, Mbx.done)

/-- Whether a command is served (R39, R51): all once RUNNING; before it, status and staging; in recovery, staging and activation. -/
def State.serves (s : State) (op : Nat) : Bool :=
  match s.pw.mode with
  | .running => true
  | .recovery => inN 0x30 0x34 op
  | _ => op == 1 || op == 2 || inN 0x30 0x33 op

/-- The opcodes of Table 14-9. -/
def mbxOps : List Nat := [0x01, 0x02, 0x10, 0x11, 0x20, 0x30, 0x31, 0x32, 0x33, 0x34]

/-- A command of the mailbox, as its result and response words. -/
def State.mbxRun (s : State) (op : Nat) : State × Nat × List Nat :=
  let plain := fun (r : State × Nat) => (r.1, r.2, ([] : List Nat))
  match op with
  | 0x01 =>
    (s.used, Mbx.done, [(s.word R.BOOT_STATUS).toNat, (s.word R.TIME_STATUS).toNat, (s.word R.DSP_STATUS).toNat, s.freeVal % 2 ^ 32])
  | 0x02 => plain s.attest
  | 0x10 => plain (s.sessionCmd true)
  | 0x11 => plain (s.sessionCmd false)
  | 0x20 => s.selfTestCmd
  | 0x30 => plain s.stageBegin
  | 0x31 => plain s.stageData
  | 0x32 => plain s.stageEnd
  | 0x33 => plain s.stageAbort
  | 0x34 => plain s.activate
  | _ => (s, Mbx.bad, [])

/-- The doorbell (R404). `dma`: the host memory of a STAGE_DATA has come within TIMEOUT_MS; otherwise the mailbox stays BUSY until it comes or
the time is over. -/
def doorbell (tag : Nat) (dma : Bool) (s : State) : State :=
  let op := s.reqOp
  if !s.mbxOpen then s
  else if s.f F.HST_MBX_STATUS_STATE = 1 then s.event 0xD 1
  else if !s.serves op then s.answer tag (if s.pw.mode == .running then Mbx.bad else Mbx.busy)
  else
    let r := s.mbxRun op
    if op = 0x31 ∧ r.2.1 = Mbx.accepted ∧ !dma then { r.1.setF F.HST_MBX_STATUS_STATE 1 with hst.dma := some tag }
    else r.1.answer tag r.2.1 r.2.2

/-- The doorbell of one command: the request words hold its opcode. -/
def mbxCmd (op tag : Nat) (dma : Bool) (s : State) : State := if s.reqOp = op then doorbell tag dma s else s

/-- A doorbell with an unknown opcode, or with one that is not served now. -/
def mbxBadCommand (tag : Nat) (s : State) : State :=
  if !mbxOps.contains s.reqOp || !s.serves s.reqOp then doorbell tag true s else s

/-- The DMA of a STAGE_DATA has not completed within TIMEOUT_MS: the command fails, and its blocks stay unwritten. -/
def mbxDmaTimeout (s : State) : State :=
  match s.hst.dma with
  | some tag => ({ s with sec.inData := none } : State).answer tag Mbx.timeout
  | none => s

/-! ## Staging goes on (R447, R448) -/

/-- The erase completes. -/
def stageEraseDone (s : State) : State := if s.f F.SEC_STAGE_STATE = 1 then s.setF F.SEC_STAGE_STATE 2 else s

/-- The blocks of a STAGE_DATA are programmed. -/
def stageDataDone (s : State) : State :=
  match s.sec.inData with
  | none => s
  | some (off, len) =>
    let s := match s.hst.dma with | some tag => s.answer tag Mbx.accepted | none => s
    let s : State := { s with sec.written := s.sec.written ++ blocksOf off len, sec.inData := none }
    s.setF F.SEC_STAGE_DONE_BLOCKS s.sec.written.length

/-- Two table entries with the same type, format, flags, instance, length and digest (R455). -/
def Sect.same (a b : Sect) : Bool :=
  a.typ == b.typ && a.fmt == b.fmt && a.flags == b.flags && a.inst == b.inst && a.len == b.len && a.digest == b.digest

/-- The formats of Table 16-8 for a package's section. -/
def packageFormats : Nat → List Nat
  | 1 => [2] | 2 => [2, 3] | 3 => [2, 3, 4] | 4 => [1, 2] | 8 => [2, 3] | 9 => [1, 2, 3] | _ => []

/-- The format loaded of a type, after migration. -/
def Image.loadedFmt (i : Image) (t : Nat) : Nat :=
  match i.sects.find? (fun e => e.typ == t) with
  | some e => if e.old then currentFmt t else e.fmt
  | none => 0

/-- What the matrix requires of the running image. -/
def Image.baseFits (i : Image) (t : Nat) : Bool :=
  if t = 1 then [(2, 3), (3, 4), (4, 2), (5, 5), (8, 3), (9, 3), (0xA, 4)].all (fun e => i.loadedFmt e.1 == e.2) else i.loadedFmt 1 == 2

/-- The settings of type 9 that map ingest indices (R82) or enable channels. -/
def mapsOrEnables (a : Nat) : Bool :=
  match regAt a with
  | some (r, _, _) => r == R.ING_SNS_SRC || r == R.SPG_CH_CTL || r == R.SPG_SPI_CTL || r == R.SPG_SSI_CTL || r == R.SPG_QUAD_CTL || r == R.SPG_CAN_CTL
  | none => false

/-- The part of such a word that must stay: the mapping, or the enable bit. -/
def keptBits (e : Nat × Nat) : Nat :=
  match regAt e.1 with
  | some (r, _, _) => if r = R.ING_SNS_SRC then e.2 else e.2 / 2 ^ 31
  | none => 0

/-- The further conditions of Table 16-8. -/
def furtherOk (old new : Image) (t : Nat) : Bool :=
  if t = 8 then
    let key := fun (i : Image) => i.tt.map (fun e => (ttNum e 0 1, ttNum e 2 2, ttNum e 4 2, ttNum e 6 1))
    key old == key new
  else if t = 9 then
    let key := fun (i : Image) => ((i.settings [9]).filter (fun e => mapsOrEnables e.1)).map (fun e => (e.1, keptBits e))
    key old == key new
  else true

/-- The first check a staged package fails (R455, R456). -/
def State.packageFault (s : State) (o : Staged) : Option Nat :=
  let run := s.bt.img
  let others := (List.range o.img.sects.length).filter (· != o.index)
  let kept := fun (k : Nat) => match o.img.sects[k]? with | some e => run.sects.any e.same | none => false
  match o.img.sects[o.index]? with
  | none => some 0x0E
  | some e =>
    if o.base ≠ run.seq ∨ !others.all kept then some 0x21
    else if !(packageFormats e.typ).contains e.fmt || !run.baseFits e.typ || !furtherOk run o.img e.typ then some 0x22
    else none

/-- A section of a staged object that is there and does not verify: every one of an image, the one of a package. -/
def Staged.badSection (o : Staged) : Bool :=
  if o.word0 = 0x4B585550 then (match o.img.sects[o.index]? with | some e => !e.good o.img.pubDigest | none => true)
  else o.img.sects.any (fun e => e.used && !e.good o.img.pubDigest)

/-- An entry whose body is taken as good. -/
def Sect.sound (key : Nat) (e : Sect) : Sect :=
  let e := { e with bodyDigest := e.digest, badReads := 0 }
  { e with sig := { key := key, msg := e.msg } }

/-- The checks of R36 on a staged object; of a package's sections only the one it carries is there to be read. -/
def State.stagedHead (s : State) (o : Staged) : Option Nat :=
  let i : Image := if o.word0 = 0x4B585550 then
      { o.img with sects := (List.range o.img.sects.length).filterMap (fun k =>
          (o.img.sects[k]?).map (fun e => if k = o.index then e else e.sound o.img.pubDigest)) }
    else o.img
  (slotError s.otp s.fl.slotSize (some i)).map (·.1)

/-- The first check that a staged object fails (R448): its code. -/
def State.stageFault (s : State) (o : Staged) : Option Nat :=
  let package := decide (o.word0 = 0x4B585550)
  if !package && o.word0 != 0x4B584243 then some 0x0E
  else match s.stagedHead o with
    | some c => some c
    | none =>
      if o.badSection then some 0x04
      else if o.img.containerFault.isSome then some 0x0E
      else if o.img.formatFault.isSome then some 0x08
      else if s.bt.slot.isSome && decide (o.img.seq ≤ s.bt.img.seq) then some 0x20
      else if package then s.packageFault o
      else none

/-- Verification ends (R448): what the staging area holds, read back. In recovery BOOT_STATUS.ERROR takes the code where Table 2-13 has it;
the codes 0x20 to 0x22 of a staged object are not in it, and leave ERROR as recovery set it (R39, R55). -/
def stageVerifyDone (o : Staged) (s : State) : State :=
  if s.f F.SEC_STAGE_STATE ≠ 3 then s
  else
    let s : State := { s with fl.staged := some { o with len := s.sec.stageLen } }
    match s.stageFault o with
    | some c =>
      let s := ((s.showStaged 5).setF F.SEC_STAGE_REASON c).event 0xF 1 0 0 c
      if s.pw.mode == .recovery ∧ c ≤ 0x0F then s.setF F.BOOT_STATUS_ERROR c else s
    | none =>
      let s : State := { s with fl := s.fl.setStaging 1 }
      let s := (s.showStaged 4).setF F.SEC_STAGE_REASON 0
      (s.setF F.SEC_STAGE_PATH (s.pathOf { o with len := s.sec.stageLen })).event 0xF 0

/-! ## Activation (R449, R455) -/

/-- The image that ACTIVATE writes: the staged one, or a package's header and body with the rest copied from the running slot. -/
def State.assemble (s : State) (o : Staged) : Image :=
  if o.word0 ≠ 0x4B585550 then o.img
  else
    let run := s.bt.img
    let typ := match o.img.sects[o.index]? with | some e => e.typ | none => 0
    let body := fun (k : Nat) (e : Sect) =>
      if k = o.index then e
      else match run.sects.find? e.same with
        | some d => { d with off := e.off }
        | none => { e with bodyDigest := e.digest + 1 }
    let sects := (List.range o.img.sects.length).filterMap (fun k => (o.img.sects[k]?).map (body k))
    { run with magic := o.img.magic, cver := o.img.cver, hsize := o.img.hsize, seq := o.img.seq, secver := o.img.secver,
               keySlot := o.img.keySlot, partMask := o.img.partMask, res19 := o.img.res19, count := o.img.count, res22 := o.img.res22, len := o.img.len,
               res28 := o.img.res28, pubKey := o.img.pubKey, res96 := o.img.res96, hdrSig := o.img.hdrSig, sects := sects, otpReqs := [],
               tt := if typ = 8 then o.img.tt else run.tt, ttFormat := if typ = 8 then o.img.ttFormat else run.ttFormat,
               ttHead := if typ = 8 then o.img.ttHead else run.ttHead, imuSeq := if typ = 9 then o.img.imuSeq else run.imuSeq,
               warps := if typ = 9 then o.img.warps else run.warps }

/-- A fault before the takeover abandons the handover (R453): the old firmware keeps running, the target slot is REJECTED. -/
def State.abandon (s : State) (reason : Nat) : State :=
  let s := s.setSlotState s.sec.target 4
  let s : State := { s with dsp.handover := [] }
  let s := ((s.setUpd 0).showStaged 4).addSat F.SEC_COUNTS_ABANDONED
  s.event 0xF 5 0 0 reason

/-- The target slot is written and read back (R449): `ok`, whether its digests hold. -/
def activateCopyDone (ok : Bool) (s : State) : State :=
  if s.f F.SEC_UPDATE_STATE ≠ 1 then s
  else match s.fl.staged with
    | none => s
    | some o =>
      let i := s.assemble o
      let b := s.sec.target
      let fl := if b then { s.fl with slotB := some i, migB := [] } else { s.fl with slotA := some i, migA := [] }
      let s : State := { s with fl := fl, sec.newImg := i }
      let whole := ok && (slotError s.otp s.fl.slotSize (some i)).isNone && i.sects.all (fun e => !e.used || e.good i.pubDigest)
      if !whole then s.abandon 0x04
      else
        let package := o.word0 == 0x4B585550
        if s.sec.byHand then
          ({ s with fl := s.fl.setSlotDir b { state := 2, trials := 1 } } : State).syncSlots.setUpd 2
        else
          let st := if s.bt.slot.isNone then 1 else 2
          ({ s with fl := { s.fl.setSlotDir b { state := st } with legacy := package } } : State).syncSlots.restart 6

/-! ## Handover (R450–R453) -/

/-- Every section of the new slot is in the update area (step 1); `ok`, whether each verified. -/
def handoverLoadDone (ok : Bool) (s : State) : State :=
  if s.f F.SEC_UPDATE_STATE ≠ 2 then s
  else if !ok then s.abandon 0x04
  else
    let s : State := { s with dsp.handover := s.dsp.handover ++ [unitKey 0xE 3] }
    s.setUpd 3

/-- A setting as the last write of a list leaves it; a register that no write names holds its reset word. -/
def cfgWord (l : List (Nat × Nat)) (a : Nat) : Nat :=
  match l.reverse.find? (fun e => e.1 == a) with
  | some e => e.2
  | none => match regAt a with | some (r, _, _) => r.reset | none => 0

/-- The settings of some section types that differ between two images, as the new one has them. -/
def settingChanges (old new : Image) (types : List Nat) : List (Nat × Nat) :=
  let a := old.settings types
  let b := new.settings types
  (((a ++ b).map (·.1)).eraseDups.filter (fun x => cfgWord a x != cfgWord b x)).map (fun x => (x, cfgWord b x))

/-- The state with the new image's settings, as the new firmware checks them (R451, step 2). -/
def State.rehearse (s : State) : State :=
  let i := s.sec.newImg
  let s := s.migrate s.sec.target i
  ({ s with bt.img := i, frm.tt := [] } : State).putSettings (settingChanges s.bt.img i [9, 0xA])

/-- The new firmware has checked the settings and converted its state (step 2); a fault of R35 or R3 abandons the handover, and
BOOT_MISSING names a missing unit (R3). -/
def standbyBootDone (s : State) : State :=
  if s.f F.SEC_UPDATE_STATE ≠ 3 then s
  else
    let i := s.sec.newImg
    let t := s.rehearse
    let s := s.migrate s.sec.target i
    match t.settingsFault i, t.missingUnit i with
    | some _, _ => s.abandon 0x0D
    | none, some u => (s.abandon 0x09).nameMissing u
    | none, none => if i.layerFault.isSome then s.abandon 0x0E else s.setUpd 4

/-- Core 3 takes every firmware role (step 3): the alias certificate is issued for the new firmware. -/
def handoverTake (s : State) : State :=
  if s.f F.SEC_UPDATE_STATE ≠ 4 then s
  else
    let package := match s.fl.staged with | some o => o.word0 == 0x4B585550 | none => false
    let s : State := { s with fl.legacy := package, sec.reloaded := [] }
    ((s.setB F.SEC_STATUS_LEGACY package).issueAlias s.sec.newImg).setUpd 5

/-- The rotation groups that a code section's change reloads (R451). -/
def rolledClasses (old new : Image) : List Nat :=
  (if sameSects old new 2 then [] else [5, 6, 7, 8, 9]) ++ (if sameSects old new 3 then [] else [0xA]) ++ (if sameSects old new 4 then [] else [0xC])

/-- SEC_UPDATE shows the class that rolls. -/
def State.syncRoll (s : State) : State :=
  match s.sec.rolling with
  | [] => s
  | c :: _ =>
    let s := (s.setF F.SEC_UPDATE_CLASS c).setF F.SEC_UPDATE_TOTAL (builtOf c)
    s.setF F.SEC_UPDATE_DONE ((groupUnits c 0).filter (fun i => (s.unitSt c i).newCode)).length

/-- The sensor, channel or Mill job that a setting belongs to, where it waits for it (R452). -/
def State.waitsFor (s : State) (a : Nat) : Option Nat :=
  match regAt a with
  | none => none
  | some (r, i, _) =>
    if inN 0x302000 0x30203F r.base ∨ (r = R.TIME_SNS_NOMINAL ∧ i < 32) ∨ (r = R.TIME_SNS_LATENCY ∧ i < 32) ∨ (r = R.TIME_SNS_STATE ∧ i < 32) then
      (if s.fb F.ING_SNS_SRC_ENABLE i then some i else none)
    else if inN 0x401000 0x40103F r.base then (if s.fb F.SPG_CH_CTL_ENABLE i then some (64 + i) else none)
    else if inN 0x501000 0x50107F r.base then (if s.fb F.MILL_SNS_CTL_ENABLE i then some (256 + i) else none)
    else if inN 0x503000 0x50307F r.base then (if s.fb F.MILL_SGM_CTL_ENABLE i then some (288 + i) else none)
    else if inN 0x504000 0x50403F r.base then (if s.fb F.MILL_FLOW_CTL_ENABLE i then some (320 + i) else none)
    else none

/-- Enabled sensor jobs whose warp map differs from an older image's: the map waits for the job's next frame (R452), as a write of the setting that
names it. -/
def State.newWarps (s : State) (old : Image) : List (Nat × Nat × Nat) :=
  let map := fun (i : Image) (n : Nat) => (i.warps.find? (fun e => e.1 == n)).map (·.2)
  ((List.range 32).filter (fun n => s.fb F.MILL_SNS_CTL_ENABLE n && map old n != map s.bt.img n)).map (fun n =>
    (256 + n, 0x501008 + 0x80 * n, (s.word R.MILL_SNS_MAP_LO n).toNat))

/-- The sensor and Sparge settings of a new image: those of a sensor or channel in use wait for it; the custom FIR banks change at once, and
their channels fade or restart (R116); the groups of changed streams are joined (R86). -/
def State.takeSensorSettings (s : State) (old : Image) (l : List (Nat × Nat)) : State :=
  let chans := (List.range 88).filter (fun c => s.fb F.SPG_CH_CTL_ENABLE c)
  let was := chans.map (fun c => (c, s.chLens c, s.setTaps c (s.chan c).setB))
  let now := l.filter (fun e => (s.waitsFor e.1).isNone)
  let later := l.filterMap (fun e => (s.waitsFor e.1).map (fun n => (n, e.1, e.2)))
  let s : State := { (s.putSettings now).joinNew ((List.range 16).map s.stGroup) with sec.defer := s.newWarps old ++ later }
  (was.foldl (fun s e => s.chanChanged e.1 e.2.1 e.2.2) s).showDelays

/-- Every transform entry stays as it is in force until its session's checkpoint (R452). -/
def State.freezeTt (s : State) (new : Image) : State :=
  let changed := (List.range s.bt.img.tt.length).filter (fun i => nth [] s.bt.img.tt i != nth [] new.tt i)
  let ses := (changed.map (fun i => ttNum (nth [] s.bt.img.tt i) 6 1)).eraseDups.filter (fun n => s.sesState n != 0)
  let hold := changed.filter (fun i => ses.contains (ttNum (nth [] s.bt.img.tt i) 6 1))
  let s := hold.foldl (fun s i => { s with frm.tt := tput [] s.frm.tt i (s.ttEntry i) }) s
  { s with sec.ttWait := ses }

/-- LIVE (R450, step 5): the new image runs, its settings take effect, and the handover is logged. -/
def State.goLive (s : State) : State :=
  let old := s.bt.img
  let new := s.sec.newImg
  let s := s.freezeTt new
  let s : State := { s with bt := { s.bt with img := new, slot := some s.sec.target, wdSeen := false },
                            dsp.units := (s.dsp.units.map (fun e => (e.1, { e.2 with newCode := false }))).filter (fun e => e.2 != {}) }
  let s := s.putSettings (settingChanges old new [0xA])
  let s := s.takeSensorSettings old (settingChanges old new [9])
  let s := (s.setF F.BOOT_STATUS_SLOT (b2n s.sec.target)).setPair R.BOOT_IMAGE_SEQ_LO R.BOOT_IMAGE_SEQ_HI new.seq
  let s := (s.setF F.BOOT_IMAGE_VER_CONTAINER new.cver).setF F.BOOT_IMAGE_VER_SECURITY new.secver
  let s := ((s.setUpd 6).showStaged 4).addSat F.SEC_COUNTS_HANDOVERS
  (s.event 0xF 3).event 0xF 4

/-- LIVE comes when nothing is left to roll. -/
def State.tryLive (s : State) : State := if s.sec.rolling.isEmpty then s.goLive else s.syncRoll

/-- A core is reloaded, tested and back in its role (step 4); a failure restarts the part (R453). After the third, core 3 returns to standby
and the changed groups roll. -/
def coreReloadDone (core : Nat) (pass : Bool) (s : State) : State :=
  if s.f F.SEC_UPDATE_STATE ≠ 5 ∨ 3 ≤ core ∨ s.sec.reloaded.contains core then s
  else if !pass then s.restart 7
  else
    let s : State := { s with sec.reloaded := s.sec.reloaded ++ [core] }
    if s.sec.reloaded.length < 3 then s
    else ({ s with dsp.handover := s.dsp.handover.filter (· != unitKey 0xE 3), sec.rolling := rolledClasses s.bt.img s.sec.newImg } : State).tryLive

/-- A unit holds the new code. -/
def State.giveCode (s : State) (c i : Nat) : State := s.setUnit c i { s.unitSt c i with newCode := true }

/-- The unit of the lowest logical place that is still on old code. -/
def State.oldPlace (s : State) (c : Nat) : Option (Nat × Nat) :=
  (s.places c).findSome? (fun l => match s.physOf c 0 l with
    | some p => if (s.unitSt c p).newCode then none else some (l, p)
    | none => none)

/-- Whether a unit that rolls is inside a task: a Kettle a solve, a front-end lane a band. -/
def State.inTask (s : State) (c l : Nat) : Bool :=
  (c == 0xA && s.ktl.probs.any (fun e => match e.2.run with | some r => r.unit == some l && !r.ended | none => false))
    || (c == 5 && tget (0, 0) s.mill.lanes l != (0, 0))

/-- At the end of a unit's task (R451) a free spare is loaded and swapped into the lowest place on old code, where it stands in for whom the replaced
unit stood in for (R16), and the replaced unit is reloaded; the last unit ends the class. -/
def groupUnitReload (c : Nat) (s : State) : State :=
  if s.f F.SEC_UPDATE_STATE ≠ 5 ∨ s.sec.reloaded.length < 3 ∨ s.sec.rolling.head? ≠ some c then s
  else
    let s := match s.freeSpares c 0 with
      | [] => s
      | sp :: _ =>
        match s.oldPlace c with
        | none => s
        | some (l, p) =>
          if s.inTask c l then s
          else
            let stands := tget 0 s.dsp.standIn (unitKey c p)
            let s : State := { s with dsp.standIn := tput 0 (tput 0 s.dsp.standIn (unitKey c p) 0) (unitKey c sp) stands }
            let s := ((s.giveCode c sp).putPlace c 0 l (some sp)).giveCode c p
            (s.swapEvent c sp).syncUnits c
    if (s.oldPlace c).isNone then
      let s := (s.goodSpares c 0).foldl (fun s i => s.giveCode c i) s
      ({ s.syncRoll with sec.rolling := s.sec.rolling.drop 1 } : State).tryLive
    else s.syncRoll

/-- A rollout has not completed within 60 s of the takeover (R453). -/
def rolloutLimit (s : State) : State := if s.f F.SEC_UPDATE_STATE = 5 then s.restart 7 else s

/-! ## Meanings -/

/-- MBX_STATUS (R404). -/
def execMbxStatus (tag : Nat) (s : State) : Host.Outcome State Fault Refusal := done (mbxCmd 0x01 tag true s)
/-- MBX_ATTEST (R446). -/
def execMbxAttest (tag : Nat) (s : State) : Host.Outcome State Fault Refusal := done (mbxCmd 0x02 tag true s)
/-- MBX_SESSION_START (R229). -/
def execMbxSessionStart (tag : Nat) (s : State) : Host.Outcome State Fault Refusal := done (mbxCmd 0x10 tag true s)
/-- MBX_SESSION_STOP (R229). -/
def execMbxSessionStop (tag : Nat) (s : State) : Host.Outcome State Fault Refusal := done (mbxCmd 0x11 tag true s)
/-- MBX_SELFTEST (R376). -/
def execMbxSelftest (tag : Nat) (s : State) : Host.Outcome State Fault Refusal := done (mbxCmd 0x20 tag true s)
/-- MBX_STAGE_BEGIN (R447). -/
def execMbxStageBegin (tag : Nat) (s : State) : Host.Outcome State Fault Refusal := done (mbxCmd 0x30 tag true s)
/-- MBX_STAGE_DATA (R447). -/
def execMbxStageData (tag : Nat) (dma : Bool) (s : State) : Host.Outcome State Fault Refusal := done (mbxCmd 0x31 tag dma s)
/-- MBX_STAGE_END (R448). -/
def execMbxStageEnd (tag : Nat) (s : State) : Host.Outcome State Fault Refusal := done (mbxCmd 0x32 tag true s)
/-- MBX_STAGE_ABORT (R447). -/
def execMbxStageAbort (tag : Nat) (s : State) : Host.Outcome State Fault Refusal := done (mbxCmd 0x33 tag true s)
/-- MBX_ACTIVATE (R449). -/
def execMbxActivate (tag : Nat) (s : State) : Host.Outcome State Fault Refusal := done (mbxCmd 0x34 tag true s)
/-- MBX_BAD_COMMAND (R404). -/
def execMbxBadCommand (tag : Nat) (s : State) : Host.Outcome State Fault Refusal := done (mbxBadCommand tag s)
/-- MBX_DMA_TIMEOUT (R404). -/
def execMbxDmaTimeout (s : State) : Host.Outcome State Fault Refusal := done (mbxDmaTimeout s)
/-- STAGE_ERASE_DONE (R447). -/
def execStageEraseDone (s : State) : Host.Outcome State Fault Refusal := done (stageEraseDone s)
/-- STAGE_DATA_DONE (R447). -/
def execStageDataDone (s : State) : Host.Outcome State Fault Refusal := done (stageDataDone s)
/-- STAGE_VERIFY_DONE (R448). -/
def execStageVerifyDone (o : Staged) (s : State) : Host.Outcome State Fault Refusal := done (stageVerifyDone o s)
/-- ACTIVATE_COPY_DONE (R449). -/
def execActivateCopyDone (ok : Bool) (s : State) : Host.Outcome State Fault Refusal := done (activateCopyDone ok s)
/-- HANDOVER_LOAD_DONE (R450). -/
def execHandoverLoadDone (ok : Bool) (s : State) : Host.Outcome State Fault Refusal := done (whenUp (handoverLoadDone ok) s)
/-- STANDBY_BOOT_DONE (R450). -/
def execStandbyBootDone (s : State) : Host.Outcome State Fault Refusal := done (whenUp standbyBootDone s)
/-- HANDOVER_TAKE (R450). -/
def execHandoverTake (s : State) : Host.Outcome State Fault Refusal := done (whenUp handoverTake s)
/-- CORE_RELOAD_DONE (R450). -/
def execCoreReloadDone (core : Nat) (pass : Bool) (s : State) : Host.Outcome State Fault Refusal := done (whenUp (coreReloadDone core pass) s)
/-- GROUP_UNIT_RELOAD (R451). -/
def execGroupUnitReload (cls : Nat) (s : State) : Host.Outcome State Fault Refusal := done (whenUp (groupUnitReload cls) s)
/-- ROLLOUT_LIMIT (R453). -/
def execRolloutLimit (s : State) : Host.Outcome State Fault Refusal := done (whenUp rolloutLimit s)

end Sys2Proof.Machine
end

