-- ==== Sys2Proof/Machine/Spares.lean ====
section
/-!
DEFINITION. Spare rotation and self-test (R16, R372–R377, R381), and the firmware watchdog (R384).
-/

namespace Sys2Proof.Machine
open Sys2Proof

/-! ## Visits (R372, R373) -/

/-- Whether an update handover holds the visits of a class's groups: Cooper's, and those that it reloads, from LOADING to LIVE (R450). -/
def State.handling (s : State) (c : Nat) : Bool :=
  inN 2 5 (s.f F.SEC_UPDATE_STATE) && (c == 0xE || (rolledClasses s.bt.img s.sec.newImg).contains c)

/-- The active unit that a spare visits next: the first queued one of the group (R376), else the next in logical order; the answer
gives its logical place and unit, and whether it was queued. -/
def State.visitTarget (s : State) (c g : Nat) : Option (Nat × Nat × Bool) :=
  let queued := s.dsp.queued.findSome? (fun e =>
    if e.1 = c ∧ groupOfUnit c e.2 = g ∧ !s.busyUnit c e.2 then (s.placeOf c e.2).map (fun l => (l, e.2, true)) else none)
  match queued with
  | some t => some t
  | none =>
    let n := activeOf s.otp.part c
    let from' := tget 0 s.dsp.nextVisit (groupKey c g)
    (List.range n).findSome? (fun k =>
      let l := (from' + k) % n
      match s.physOf c g l with
      | some p => if s.busyUnit c p then none else some (l, p, false)
      | none => none)

/-- A spare begins its visit with its own test. -/
def State.beginVisit (s : State) (c g sp : Nat) : State :=
  match s.visitTarget c g with
  | none => s
  | some t =>
    let s : State := { s with dsp.visits := s.dsp.visits ++ [{ cls := c, group := g, spare := sp, logical := t.1, phys := t.2.1, phase := 0 }] }
    if t.2.2 then s else s.setNextVisit c g ((t.1 + 1) % activeOf s.otp.part c)

/-- Lanes of the Hopper bond interfaces are mapped onto their spares (R206). -/
def State.repairLanes (s : State) (l : List (Nat × Nat)) : State :=
  l.foldl (fun s e => if e.1 < 2 then s.setF F.MEM_HOP_LINK_LANES (satU 16 (s.f F.MEM_HOP_LINK_LANES e.1 + e.2)) e.1 else s) s

/-- A group's visit is due (R372): every free spare of it visits one active unit. A group without a free spare has no visit, and one
whose spares carry a handover waits (Table 13-4). A Hopper die beyond lane repair restarts the part (Table 13-5). -/
def spareVisit (c g : Nat) (lanes : List (Nat × Nat)) (die : Option Nat) (s : State) : State :=
  let s := s.repairLanes lanes
  if die.isSome then s.restart 5
  else if groupsOf c ≤ g ∨ s.handling c then s
  else
    let n := s.dsp.visits.length
    let s := (s.freeSpares c g).foldl (fun s sp => s.beginVisit c g sp) s
    if s.dsp.visits.length = n then s else s.addWrap F.DSP_ST_STATUS_VISITS

/-- A queued unit has been tested (R376): the request ends, and its result is logged. -/
def State.dequeue (s : State) (c i : Nat) (pass : Bool) : State :=
  if !s.dsp.queued.contains (c, i) then s
  else
    let s : State := { s with dsp.queued := s.dsp.queued.filter (· != (c, i)) }
    let s := s.setF F.DSP_ST_STATUS_QUEUED (satU 8 s.dsp.queued.length)
    if pass then s.warnOpen 0xC i c else s

/-- The visit in which a unit is under test: a spare's own test, or the test of the unit swapped out. -/
def State.testVisit (s : State) (c i : Nat) : Option Visit :=
  s.dsp.visits.find? (fun v => v.cls == c && ((v.spare == i && v.phase == 0) || (v.phys == i && v.phase == 2)))

/-- A visit goes on to its next step. -/
def State.stepVisit (s : State) (v : Visit) : State :=
  { s with dsp.visits := s.dsp.visits.map (fun w => if w.cls == v.cls && w.spare == v.spare then { w with phase := w.phase + 1 } else w) }

/-- A unit's self-test ends (R373, R375). -/
def selfTestDone (c i : Nat) (pass : Bool) (s : State) : State :=
  match s.testVisit c i with
  | none => s
  | some v =>
    let s := (s.lastTest c i (b2n !pass)).setUnit c i { s.unitSt c i with last := b2n !pass }
    let s := s.dequeue c i pass
    if pass then s.stepVisit v
    else ((s.addSat F.DSP_ST_STATUS_FAILURES).event 0xC 4 i 0 c).unitFails c i

/-- A spare is swapped into the place of the unit it visits, or that unit is swapped back, at the boundary of the work (R373, R374):
the logical place, its state and its results go with it (R201). -/
def unitSwap (c sp : Nat) (s : State) : State :=
  match s.dsp.visits.find? (fun v => v.cls == c && v.spare == sp && (v.phase == 1 || v.phase == 3)) with
  | none => s
  | some v =>
    if v.phase = 1 then (((s.stepVisit v).putPlace c v.group v.logical (some sp)).swapEvent c sp).syncUnits c
    else (((s.dropVisit v).putPlace c v.group v.logical (some v.phys)).swapEvent c v.phys).syncUnits c

/-! ## Retests (R375, R381) -/

/-- A unit rejoins as a spare once both retests have passed; a place that its group had lost has a unit again. -/
def State.rejoin (s : State) (c i : Nat) : State :=
  let g := groupOfUnit c i
  let s := s.setUnit c i { s.unitSt c i with out := false, passes := 0 }
  let s : State := { s with dsp.standIn := s.dsp.standIn.filter (fun e => !(e.1 / 65536 == c && e.2 == i + 1)) }
  match (s.places c).find? (fun l => (s.physOf c g l).isNone) with
  | none => s.syncUnits c
  | some l =>
    let s := s.putPlace c g l (some i)
    ((if c = 4 then s.refit i else s).syncUnits c).syncDegraded

/-- A retest of a unit that is out (R375): the second pass brings it back, a failure is permanent. -/
def retest (c i : Nat) (pass : Bool) (s : State) : State :=
  let u := s.unitSt c i
  if !u.out || u.retired then s
  else if pass then
    let s := (s.lastTest c i 0).setUnit c i { u with passes := u.passes + 1, last := 0 }
    if u.passes = 0 then s else s.rejoin c i
  else
    let s := (s.lastTest c i 2).setUnit c i { u with last := 2 }
    (((s.addSat F.DSP_ST_STATUS_FAILURES).retireUnit c i).noteSpares c (groupOfUnit c i)).syncUnits c

/-- A visit has waited 60 s for a spare that carries a migration or a handover (Table 13-4). -/
def visitWaitWarning (c g : Nat) (s : State) : State := if g < groupsOf c ∧ s.handling c then s.warnOpen 0xC g c else s

/-! ## Cooper's watchdog (R384) -/

/-- A handover that has not yet taken over is abandoned where core 3 faults or is needed (R453). -/
def State.dropHandover (s : State) (reason : Nat) : State :=
  if inN 1 4 (s.f F.SEC_UPDATE_STATE) ∧ s.sec.byHand then s.abandon reason else s

/-- A firmware pass exceeds 10 ms: the core is reset and goes on; the third expiry within 60 s restarts the part. -/
def firmwareWatchdog (core : Nat) (s : State) : State :=
  if 4 ≤ core ∨ (s.unitSt 0xE core).out then s
  else
    let s := (s.addSat F.DSP_COOPER_SHED_WD_RESETS).event 0xC 8 core
    let recent := s.mono :: s.dsp.wdTimes.filter (fun t => decide (s.mono ≤ t + 60000000000))
    let s : State := { s with dsp.wdTimes := recent, bt.wdSeen := true }
    let s := if core = 3 ∧ s.dsp.handover.contains (unitKey 0xE 3) then s.dropHandover 4 else s
    if 3 ≤ recent.length then s.restart 4 else s

/-! ## Meanings -/

/-- SPARE_VISIT (R372). -/
def execSpareVisit (cls group : Nat) (lanes : List (Nat × Nat)) (die : Option Nat) (s : State) : Host.Outcome State Fault Refusal :=
  done (whenOn (s.pw.mode == .running) (spareVisit cls group lanes die) s)
/-- SELF_TEST_DONE (R373). -/
def execSelfTestDone (cls unit : Nat) (pass : Bool) (s : State) : Host.Outcome State Fault Refusal :=
  done (whenUp (selfTestDone cls unit pass) s)
/-- UNIT_SWAP (R373). -/
def execUnitSwap (cls spare : Nat) (s : State) : Host.Outcome State Fault Refusal := done (whenUp (unitSwap cls spare) s)
/-- RETEST (R375). -/
def execRetest (cls unit : Nat) (pass : Bool) (s : State) : Host.Outcome State Fault Refusal := done (whenUp (retest cls unit pass) s)
/-- VISIT_WAIT_WARNING (R377). -/
def execVisitWaitWarning (cls group : Nat) (s : State) : Host.Outcome State Fault Refusal := done (whenUp (visitWaitWarning cls group) s)
/-- FIRMWARE_WATCHDOG (R384). -/
def execFirmwareWatchdog (core : Nat) (s : State) : Host.Outcome State Fault Refusal := done (whenUp (firmwareWatchdog core) s)

end Sys2Proof.Machine
end

