-- ==== Sys2Proof/Machine/Tasks.lean ====
section
/-!
DEFINITION. Tasks that fail or meet a unit fault (R367, R368, R370), unit faults (R375, R379), advances by producers (R360), and
what they set off.
-/

namespace Sys2Proof.Machine
open Sys2Proof

/-! ## A failed task's result record (R368) -/

/-- The jobs of a block whose output Tally a failed task's node advances write their record. -/
def State.failJobs (s : State) (b : Nat) (ts : List Nat) : State :=
  let hit := fun (on : Bool) (t : Nat) => on && ts.contains t
  match b with
  | 5 =>
    let s := ((List.range 32).filter (fun n => hit (s.fb F.MILL_SNS_CTL_ENABLE n) (s.f F.MILL_SNS_TALLY_FRONT n))).foldl State.failSns s
    let s := ((List.range 16).filter (fun p => hit (s.fb F.MILL_SGM_CTL_ENABLE p) (s.f F.MILL_SGM_TALLY_OUT p))).foldl State.failSgm s
    ((List.range 16).filter (fun f => hit (s.fb F.MILL_FLOW_CTL_ENABLE f) (s.f F.MILL_FLOW_TALLY_OUT f))).foldl State.failFlw s
  | 6 => ((List.range 64).filter (fun i => hit (s.insOn i) (s.f F.TNS_INS_TALLY_OUT i))).foldl State.failIns s
  | 8 => ((List.range 32).filter (fun n => hit (s.sesOn n) (s.sesParam n).pose)).foldl State.failStep s
  | 9 => ((List.range 64).filter (fun p => hit (s.probOn p) (s.f F.KTL_PROB_TALLY_OUT p))).foldl State.failSolve s
  | 0xA =>
    let mine := fun (p : Pass) => p.unit.isSome &&
      (if p.cls = 1 then ts.contains (s.f F.KLN_VIEW_TALLY_OUT p.idx)
       else if p.cls = 2 then ts.contains (s.f F.KLN_MAP_TALLY_OUT p.idx) else ts.contains (s.f F.KLN_RELOC_TALLY_OUT))
    match s.kln.passes.find? mine with
    | some p => s.failPass p
    | none => s
  | 0xB =>
    match s.csk.walks.find? (fun w => w.unit.isSome && w.asker.isNone && decide (w.origin < 16) && ts.contains (s.f F.CSK_Q_TALLY_OUT w.origin)) with
    | some w => s.failWalk w
    | none => s
  | _ => s

/-- A task in flight fails (R368): its block writes its record with INVALID_INPUT, the Dispatcher makes the advances left. -/
def State.taskFails (s : State) (i : Inst) (cause : Nat) : State :=
  let n := s.node i.node
  let s := s.failJobs n.block (n.advs.map (·.tally))
  match s.inFlight i.node i.k with
  | some j => s.failTask j cause
  | none => ((s.addSat F.DSP_TASK_FAILED_COUNT).event 0xC 0 i.node 0 cause).syncDsp

/-- TASK_FAILED: a poisoned line, an address fault or an uncorrectable NoC response. -/
def taskFailed (node k cause : Nat) (s : State) : State :=
  match s.inFlight node k with
  | none => s
  | some i => s.taskFails i cause

/-! ## Unit faults (R367, R370, R375) -/

/-- A task meets a unit fault: it is migrated, and fails the second time. -/
def State.meetFault (s : State) (t : Option TaskRef) : State :=
  match t with
  | none => s
  | some t =>
    match s.inFlight t.node t.k with
    | none => s
    | some i => if i.epoch ≠ t.epoch then s else if 1 ≤ i.faults then s.taskFails i 1 else s.migrateTask i

/-- The solves, passes and walks on a logical unit that a fault has met: migrated to the unit that now holds the place, or, with none,
to whatever is free; failed the second time. A solve goes on from its last complete iterate, a pass and a walk start again; the
contexts of a walker lost beyond the spares go on from their node boundary (R358). -/
def State.blockFault (s : State) (c l i : Nat) : State :=
  let covered := (s.physOf c 0 l).isSome
  let at' := if covered then some l else none
  let moved := fun (s : State) => (s.addSat F.DSP_MIGRATIONS_COUNT).event 0xC 1 i 0 c
  let failed := fun (s : State) => (s.addSat F.DSP_TASK_FAILED_COUNT).event 0xC 0 i 0 1
  match c with
  | 0xA =>
    match (List.range 64).find? (fun p => match (s.prob p).run with | some r => r.unit == some l | none => false) with
    | none => s
    | some p =>
      match (s.prob p).run with
      | none => s
      | some r =>
        if r.met then (failed s).failSolve p
        else ((moved s).setProb p { s.prob p with run := some { r with unit := at', met := true, began := s.mono } }).startSolves 64
  | 0xB =>
    match s.kln.passes.find? (fun p => p.unit == some l) with
    | none => (s.startPasses 64).noKilns
    | some p =>
      if p.met then (failed s).failPass p
      else ((moved s).setPass { p with unit := none, stage := 0, flags := 0, proj := [], insts := 0, snap := [], met := true }).startPasses 64 |>.noKilns
  | 0xC =>
    let ws := s.csk.walks.filter (fun w => w.unit == some l)
    let s := if covered then
        ws.foldl (fun s w =>
          if !s.csk.walks.any (fun x => x.id == w.id) then s
          else if w.met then (failed s).failWalk w
          else
            let r : Walk := { w.start (s.entryPoints (s.shd w.idx w.replica)) with met := true }
            (moved s).setWalk (if r.due ≤ s.mono then r.stopLate else r.form (s.walkCtx r))) s
      else s
    s.caskSettle
  | _ => s

/-- A Cooper core fails: core 3 stands in, which an update under way loses it for (R453, R379); a further loss restarts the part, and
fewer than two working cores halt it. -/
def State.coreFault (s : State) (i : Nat) : State :=
  let holds := s.dsp.handover.contains (unitKey 0xE 3)
  if s.f F.SEC_UPDATE_STATE = 5 ∧ holds then s.restart 7
  else
    let s := s.dropHandover 8
    let place := s.placeOf 0xE i
    let s := s.unitFails 0xE i
    match place with
    | none => s
    | some l =>
      if (s.physOf 0xE 0 l).isSome then s
      else if s.workingOf 0xE < 2 then s.halt 0x0C
      else s.restart 8

/-- A unit reports an internal fault (R367, R375). -/
def unitFault (c i : Nat) (task : Option TaskRef) (s : State) : State :=
  if builtOf c * groupsOf c ≤ i ∨ activeOf s.otp.part c = 0 ∨ (s.unitSt c i).out then s
  else if c = 0xE then s.coreFault i
  else
    let place := s.placeOf c i
    let s := s.unitFails c i
    let s := match place with
      | some l => if 4 < c then s.blockFault c l i else s
      | none => s
    s.meetFault task

/-- A task runs beyond its limit: a fault of its unit (R367). -/
def taskLimitExpire (node k c i : Nat) (s : State) : State :=
  match s.inFlight node k with
  | none => s
  | some t => if s.mono < t.began + 1000 * s.limitOf node then s else unitFault c i (some { node := node, k := k, epoch := t.epoch }) s

/-! ## Advances by producers, and what they set off (R360, R361) -/

/-- What waits on Tallies reacts, until nothing more is set off. -/
def State.settle (s : State) : (fuel : Nat) → State
  | 0 => s
  | n + 1 =>
    if s.dsp.kick.isEmpty then s
    else
      let s : State := { s with dsp.kick := [] }
      let s := s.dispatchRound.1
      let s := s.millSettle.tnsSettle.frmSettle
      let s := (s.startSolves 64).syncKtl
      s.klnSettle.caskSettle.settle n

/-- The first byte of a producer's stores that it does not reach (R201, R205). -/
def State.badStore (s : State) (src : Nat) (stores : List (Nat × List Byte)) : Option Nat :=
  (stores.flatMap (fun e => (List.range e.2.length).map (e.1 + ·))).find? (fun a => !s.reaches src a)

/-- A producer advances a Tally (R360): its stores and delta entries first, then the advance, as the task in flight it belongs to where
it names one (R371), and what waits on it reacts. A store that the producer does not reach is an address fault, and its task ends there (R205). -/
def tallyAdvance (src tally amount : Nat) (stamp : Option Nat) (task : Option TaskRef) (stores : List (Nat × List Byte))
    (deltas : List Delta) (s : State) : State :=
  if amount = 0 ∨ 2 ^ 32 ≤ amount then s
  else
    match s.badStore src stores with
    | some a => addressFault a src s
    | none =>
    let s := stores.foldl (fun s e => s.wrList e.1 e.2) s
    let prob := (List.range 64).find? (fun p => !deltas.isEmpty && s.probOn p && s.f F.KTL_PROB_TALLY_IN p == tally)
    let s := match task, prob with
      | some t, some p =>
        let seen := s.taskNext t.node t.k t.epoch tally amount && s.producer (s.node t.node).block tally
        let s := s.taskAdvance t.node t.k t.epoch tally amount stamp
        if seen then s.postDeltas p deltas else s
      | some t, none => s.taskAdvance t.node t.k t.epoch tally amount stamp
      | none, some p => s.ktlPostBy src p amount stamp deltas
      | none, none => s.advance src tally amount stamp
    s.settle 64

/-! ## Meanings -/

/-- TALLY_ADVANCE (R360). -/
def execTallyAdvance (src tally amount : Nat) (stamp : Option Nat) (task : Option TaskRef) (stores : List (Nat × List Byte))
    (deltas : List Delta) (s : State) : Host.Outcome State Fault Refusal :=
  done (whenUp (tallyAdvance src tally amount stamp task stores deltas) s)
/-- TASK_LIMIT_EXPIRE (R367). -/
def execTaskLimitExpire (node k cls unit : Nat) (s : State) : Host.Outcome State Fault Refusal :=
  done (whenUp (taskLimitExpire node k cls unit) s)
/-- UNIT_FAULT (R367). -/
def execUnitFault (cls unit : Nat) (task : Option TaskRef) (s : State) : Host.Outcome State Fault Refusal :=
  done (whenUp (unitFault cls unit task) s)
/-- TASK_FAILED (R368). -/
def execTaskFailed (node k cause : Nat) (s : State) : Host.Outcome State Fault Refusal := done (whenUp (taskFailed node k cause) s)

end Sys2Proof.Machine
end

