-- ==== Sys2Proof/Machine/Boot.lean ====
section
/-!
DEFINITION. The autonomous start after the boot ROM (R40–R47), the OTP requests (R439), the training cache (R45) and the confirmation of
a trial image (R37).
-/

namespace Sys2Proof.Machine
open Sys2Proof

/-! ## Steps -/

/-- STAGE changes. -/
def State.setStage (s : State) (n : Nat) : State := (s.setF F.BOOT_STATUS_STAGE n).event 0x1 0 n

/-- Step `n` has completed: its time in milliseconds from the release of system reset. -/
def State.stepTime (s : State) (n : Nat) : State := s.setF F.BOOT_TIME_MS (s.mono / 1000000) (n - 1)

/-- The place of a section type in an image's table, as BOOT_STATUS.SECTION names it. -/
def Image.sectOf (i : Image) (t : Nat) : Nat := (i.find t).getD 0xFF

/-! ## OTP requests (R439, Table 16-1, R54) -/

/-- A root key slot's fuses change. -/
def State.setKey (s : State) (n : Nat) (k : KeySlot) : State := { s with otp.keys := setNth s.otp.keys n k }

/-- One request of the block: carried out, refused, or of no effect; the first two are logged. -/
def State.otpRequest (s : State) (i : Image) (n : Nat) (r : OtpReq) : State :=
  let log := fun (s : State) => s.mirrorOtp.event 0x1 4 n 0 r.op
  let k := nth {} s.otp.keys r.slot
  match r.op with
  | 0 => s
  | 1 =>
    if 3 < r.slot ∨ k.used then log s
    else log (s.setKey r.slot { used := true, programmed := true, digest := sumN ((List.range 32).map (fun j => nth 0 r.value j * 256 ^ j)) })
  | 2 =>
    let others := (List.range 4).any (fun j => j != r.slot && (nth {} s.otp.keys j).programmed && !(nth {} s.otp.keys j).revoked)
    if 3 < r.slot ∨ !k.programmed ∨ k.revUsed ∨ !others ∨ r.slot = i.keySlot then log s
    else log (s.setKey r.slot { k with revoked := true, revUsed := true })
  | 3 =>
    if s.otp.debugLock then s
    else if s.otp.lockUsed then log s
    else log { s with otp.debugLock := true, otp.lockUsed := true }
  | 4 =>
    let id := nth 0 r.value 0
    if id ≤ 15 ∧ s.otp.cascadeId = some id then s
    else if 15 < id ∨ 8 ≤ s.otp.cascade.length then log s
    else log { s with otp.cascade := s.otp.cascade ++ [(true, id)] }
  | _ => log s

/-- The block's requests in order. -/
def State.otpRequests (s : State) (i : Image) : State :=
  (List.range 8).foldl (fun s n => s.otpRequest i n (nth {} i.otpReqs n)) s

/-! ## Step 2 -/

/-- The first section that the firmware reads and that does not verify (R28, R32): the ROM has read the Cooper firmware section. -/
def State.readFault (s : State) (b : Bool) (i : Image) : Option Nat :=
  findIx (fun k e => e.used && e.typ != 1 && !s.recorded b k e && !(e.reads i.pubDigest).2) i.sects 0

/-- Rereads of the sections that the firmware reads. -/
def State.rereads (s : State) (b : Bool) (i : Image) : Nat :=
  sumN ((List.range i.sects.length).map (fun k =>
    match i.sects[k]? with
    | some e => if e.used && e.typ != 1 && !s.recorded b k e then (e.reads i.pubDigest).1 else 0
    | none => 0))

/-- What the registers show of the networks' weights (Table 7-12, R196). -/
def State.showNets (s : State) (i : Image) : State :=
  let nets := s.enabled F.TNS_NET_CTL_ENABLE
  let s := nets.foldl (fun s m =>
    let n := nth ({} : Net) i.nets m
    let s := ((s.setF F.TNS_NET_RES_CORE_KIB (n.classKib 0) m).setF F.TNS_NET_RES_CLUSTER_KIB (n.classKib 1) m).setF F.TNS_NET_RES_HOPPER_KIB (n.classKib 2) m
    (s.setF F.TNS_NET_RES_DDR_KIB (n.classKib 3) m).setF F.TNS_NET_FB_PIN_KIB n.pin m) s
  s.setF F.BOOT_SPILL_MIB (ceilDiv (sumN (nets.map (fun m => (nth ({} : Net) i.nets m).classKib 3))) 1024)

/-- The endpoint's link as HST_STATUS shows it: what it has trained to, and what the host has enabled, lie with the host (free). -/
def State.showLink (s : State) : State :=
  let v := fun (k : Nat) => Config.freeNat (s.free + k)
  let r := (s.setF F.HST_STATUS_GEN (1 + v 0 % 5)).setF F.HST_STATUS_WIDTH (2 ^ (v 1 % 5))
  let r := (r.setF F.HST_STATUS_NUM_VF (v 2 % 16)).setF F.HST_STATUS_ECRC (v 3 % 2)
  { r with free := s.free + 4 }

/-- Everything is loaded and the settings are in force (step 2). -/
def State.loadAll (s : State) (b : Bool) (i : Image) : State :=
  let s := (s.migrate b i).putSettings (i.settings [5, 9, 0xA])
  let s : State := { s with dsp.graph := i.graph }
  let s := (s.setF F.FRM_TT_COUNT_ENTRIES i.tt.length).setF F.FRM_TT_VERSION_FORMAT i.ttFormat
  let s := (s.setF F.DSP_CAPACITY_MAX (512 * activeOf s.otp.part 4)).setB F.CSK_STATUS_PREFETCH (s.otp.part == 0x71)
  ((s.setF F.MEM_STATUS_HOPPER_OK 3).showNets i).showLink.setFit.syncAll.showDelays.joinGroups

/-- What step 2 checks of a loaded image, in order, and its end (R35, R3, R46, R198). -/
def State.step2Check (s : State) (i : Image) : State :=
  match i.layerFault, s.settingsFault i, s.missingUnit i with
  | some n, _, _ => s.refuseSlot 0x0E ((i.sects.findIdx? (fun e => e.typ == 6 && e.inst == n)).getD 0xFF)
  | none, some t, _ => s.refuseSlot 0x0D (i.sectOf t)
  | none, none, some u =>
    (s.refuseSlot 0x09 (i.sectOf 0xA)).nameMissing u
  | none, none, none =>
    if !s.ddrFits i then s.refuseSlot 0x0A (i.sectOf 0xA)
    else ((((s.otpRequests i).issueAlias i).stepTime 2).setStage 2).linkStart

/-- Step 2 ends: the slot is refused for the first check it fails (R28, R33, R34), or the part is loaded and its settings are checked. -/
def State.step2 (s : State) : State :=
  let b := s.bt.slot.getD false
  let i := s.bt.img
  match i.containerFault, i.formatFault, s.readFault b i with
  | some k, _, _ => s.refuseSlot 0x0E k
  | none, some k, _ => s.refuseSlot 0x08 k
  | none, none, some k => (s.addSat F.BOOT_FLASH_REREADS (s.rereads b i)).refuseSlot 0x04 k
  | none, none, none => ((s.addSat F.BOOT_FLASH_REREADS (s.rereads b i)).loadAll b i).step2Check i

/-! ## Step 3: DDR5 (R45, R210) -/

/-- Fitted channels. -/
def State.fitted (s : State) : List Nat := (List.range 4).filter (bitOf (s.f F.MEM_DDR_CFG_CH_MASK))

/-- The digest of the DDR configuration in the service settings. -/
def State.ddrDigest (s : State) : Nat := Config.sm3 (leBytes 4 (s.word R.MEM_DDR_CFG).toNat)

/-- Whether a cache copy is valid at a junction temperature (R45). -/
def State.cacheOk (s : State) (jt : Int) (c : TrainCopy) : Bool :=
  !c.erased && c.crcOk && c.device == s.otp.idDigest && c.cfg == s.ddrDigest && c.code == Config.trainCode s.bt.img.firmware
    && decide ((jt - c.jt).natAbs ≤ 40)

/-- The copies of a body's weights that its layers' classes name (R178): in every core of the clusters of the group, in every such cluster, or in the
pages of the Hopper or DDR region; a fallback's are pinned in every core (log entry 98). -/
def State.placeBody (s : State) (group : List Nat) (b : WBody) (pinned : Bool) : State :=
  b.layers.foldl (fun s l =>
    let w := (b.data.drop l.woff).take l.wlen
    if pinned || decide (l.cls < 2) then (l.copies group pinned).foldl (fun s a => s.wrList a w) s
    else (List.range l.pages.length).foldl (fun s k => s.wrList (65536 * nth 0 l.pages k) ((w.drop (65536 * k)).take 65536)) s) s

/-- The copies of every enabled network's weights. -/
def State.placeWeights (s : State) : State :=
  (s.enabled F.TNS_NET_CTL_ENABLE).foldl (fun s m =>
    let n := nth ({} : Net) s.bt.img.nets m
    (s.placeBody (s.netGroup m) n.main false).placeBody (s.netGroup m) n.fb true) s

/-- The SM3 digest of every 64 KiB page of the shared sections (R224). -/
def State.digestPages (s : State) : State :=
  { s with mm.digests := (s.mm.pages.filter (fun e => s.isShared e.2)).map (fun e => (e.1, Config.sm3 (s.rdList (65536 * e.1) 65536))) }

/-- The weight sections' copies and regions are placed; the shared ones must fit (0x0F); the warp maps go to the region they are named in. -/
def State.placeAll (s : State) : State :=
  let r := s.placeRegions
  if r.2 then
    let s := ((List.range 32).filter (fun n => r.1.fb F.MILL_SNS_CTL_ENABLE n)).foldl State.loadWarp r.1
    ((s.placeWeights.digestPages.setB F.HST_STATUS_MAP_UP true).stepTime 3).setStage 3
  else r.1.halt 0x0F

/-- Step 3 ends: from a valid cache whose check every channel passes, or after full training; a channel that fails is out of service,
and with none left the part halts. -/
def State.step3 (s : State) (x : StepFind) : State :=
  let cached := (s.cacheOk x.jt s.fl.train0 || s.cacheOk x.jt s.fl.train1) && s.fitted.all (fun c => !bitOf x.cacheBad c)
  if cached then
    (s.fitted.foldl (fun s c => (s.setCh c 1 0).setTrain c 1) (s.setB F.BOOT_STATUS_TRAIN_CACHED true)).placeAll
  else
    let s : State := { s with bt.trained := some x.jt }
    let s := s.fitted.foldl (fun s c =>
      if bitOf x.trainBad c then (s.setCh c 0 1).setTrain c 3 else (s.setCh c 1 0).setTrain c 2) s
    if s.chOn.isEmpty then s.halt 0x0B else s.placeAll

/-! ## Step 4: self-test (R47, R377, R381) -/

/-- A unit is out from the start: one with a retirement entry, or one that fails its test. -/
def State.outAtStart (s : State) (c i : Nat) (retired : Bool) : State :=
  if builtOf c * groupsOf c ≤ i ∨ activeOf s.otp.part c = 0 then s
  else if retired then
    let s := s.unitFails c i
    s.setUnit c i { out := true, retired := true }
  else if (s.unitSt c i).out then s
  else
    let s := (s.lastTest c i 1).setUnit c i { s.unitSt c i with last := 1 }
    ((s.addSat F.DSP_ST_STATUS_FAILURES).event 0xC 4 i 0 c).unitFails c i

/-- Logical clusters are the physical clusters in service, in ascending physical order (R180). -/
def State.orderClusters (s : State) : State :=
  let good := (groupUnits 4 0).filter (fun i => !(s.unitSt 4 i).out)
  let s := (s.places 4).foldl (fun s l => s.putPlace 4 0 l good[l]?) s
  s.syncUnits 4

/-- The class whose every unit is lost although the settings need it (R47). -/
def State.deadBlock (s : State) : Bool :=
  let on := fun (x : Fld) => !(s.enabled x).isEmpty
  let dead := fun (need : Bool) (c : Nat) => need && s.workingOf c == 0
  let mill := on F.MILL_SNS_CTL_ENABLE
  dead (on F.TNS_INS_CTL_ENABLE) 4 || dead mill 5 || dead mill 6
    || dead ((s.enabled F.MILL_SNS_CTL_ENABLE).any (fun n => s.fb F.MILL_SNS_CTL_CORNER_EN n)) 7
    || dead ((s.enabled F.MILL_SNS_CTL_ENABLE).any (fun n => s.fb F.MILL_SNS_CTL_KLT_EN n) || on F.MILL_FLOW_CTL_ENABLE) 8
    || dead (on F.MILL_SGM_CTL_ENABLE) 9 || dead (on F.KTL_PROB_CTL_ENABLE) 0xA
    || dead (on F.KLN_MAP_CTL_ENABLE || on F.KLN_VIEW_CTL_ENABLE) 0xB || dead (on F.CSK_IDX_CTL_ENABLE) 0xC
    || dead (on F.FRM_SES_CTL_ENABLE) 0xD || decide (s.workingOf 0xE < 2)

/-- A Hopper die beyond lane repair leaves service: its pages move to the other die where the pinned and shared ones fit in 1,536 frames
(Table 13-5). The answer says whether the part can start. -/
def State.dropDies (s : State) (dies : Nat) : State × Bool :=
  let ok := 3 - dies % 4
  if ok = 3 then (s, true)
  else if ok = 0 ∨ 1536 < s.classPages [0, 5] then (s, false)
  else
    let d := if ok = 1 then 0 else 1
    let s := s.setF F.MEM_STATUS_HOPPER_OK ok
    (({ s with mm.pages := s.mm.pages.map (fun (e : Nat × Page) => (e.1, if e.2.hop.isSome then { e.2 with hop := some d } else e.2)) } : State).syncMem, true)

/-- A sensor's start check fails: it is reported (R42) and counts as failed for this start. -/
def State.sensorFails (s : State) (n : Nat) : State :=
  ({ s with bt.sensorsFailed := n :: s.bt.sensorsFailed } : State).warnOpen (if n < 32 then 3 else 4) n

/-- A port's IMU at the start of step 5 (R103): a mismatch in its identity read fails the check at once. -/
def State.imuStart (s : State) (p value : Nat) : State :=
  let s := s.imuInit p value
  if s.fb F.SPG_SPI_CTL_ENABLE p && !s.fb F.SPG_SPI_STAT_ID_OK p then s.sensorFails (32 + p) else s

/-- Step 4 ends: every unit but the retired ones tested, spares assigned. -/
def State.step4 (s : State) (x : StepFind) : State :=
  let old := s.otp.retire.filterMap (fun e => if e.1 then some (e.2 / 65536 % 256, e.2 % 65536) else none)
  let s := old.foldl (fun s e => s.outAtStart e.1 e.2 true) s
  let s := (x.failed.foldl (fun s e => s.outAtStart e.1 e.2 false) s).orderClusters
  let s : State := { s.setFit with tns.refitted := s.lostIn 4 }
  let d := (s.repairLanes x.lanes).dropDies x.dies
  let s := d.1.syncDegraded.syncAll
  if !d.2 || s.deadBlock then s.halt 0x0C
  else
    let s := s.setB F.BOOT_STATUS_DEGRADED (x.dies % 4 != 0 || allClasses.any (fun c => decide (4 ≤ c) && s.lostIn c))
    let s := (s.stepTime 4).setStage 4
    let s := (List.range 8).foldl (fun s p => s.imuStart p ((x.ids.find? (fun e => e.1 == p)).elim 0 (·.2))) s
    let s : State := { s with tm.stepOpen := true }
    if (s.f F.LNK_STATUS_ROLE ≤ 1) ∧ !(s.fb F.TIME_D_CFG_ENABLE 0) ∧ !(s.fb F.TIME_D_CFG_ENABLE 1) then s.endPtpWait else s

/-! ## Step 5: sensors -/

/-- The configured sensors: ingest 0–31, SPI 32–39, SSI 40–47, CAN 48 and 49. -/
def State.sensors (s : State) : List Nat :=
  s.enabled F.ING_SNS_SRC_ENABLE ++ (s.enabled F.SPG_SPI_CTL_ENABLE).map (32 + ·) ++ (s.enabled F.SPG_SSI_CTL_ENABLE).map (40 + ·)
    ++ (List.range 2).filterMap (fun k => if ((List.range 16).map (72 + ·)).any (fun c =>
         s.fb F.SPG_CH_CTL_ENABLE c && s.f F.SPG_CH_ID_CTRL c == k) then some (48 + k) else none)

/-- Whether a sensor has passed its check. -/
def State.sensorPassed (s : State) (n : Nat) : Bool := if n < 32 then (s.sns n).passed else s.spgPassed n

/-- A sensor has not passed by the end of its count: it has failed, and is reported (R42). -/
def sensorCheckExpire (n : Nat) (s : State) : State :=
  if s.f F.BOOT_STATUS_STAGE ≠ 4 ∨ !s.bt.waitOver ∨ !s.sensors.contains n ∨ s.sensorPassed n ∨ s.bt.sensorsFailed.contains n then s
  else s.sensorFails n

/-- Step 5 ends once the PTP wait is over and every sensor has passed or failed. -/
def State.step5 (s : State) : State :=
  if s.bt.waitOver && s.sensors.all (fun n => s.sensorPassed n || s.bt.sensorsFailed.contains n) then ((s.stepTime 5).setStage 5).openIdxs
  else s

/-! ## Steps 6 and 7 -/

/-- The autostart sessions. -/
def State.autoSes (s : State) : List Nat := (List.range 32).filter (bitOf (s.f F.BOOT_SESSION_AUTO_MASK))

/-- Step 6: the autostart sessions are started. -/
def State.step6 (s : State) : State := (((s.autoSes.foldl (fun s n => s.startSession n false) s).stepTime 6).setStage 6)

/-- Whether every autostart session has published a pose record. -/
def State.allPosed (s : State) : Bool :=
  s.autoSes.all (fun n => !s.sesOn n || s.pair R.FRM_SES_SEQ_LO R.FRM_SES_SEQ_HI n != 0)

/-- Step 7: the first pose records are published, and the part runs. -/
def State.step7 (s : State) : State :=
  if !s.allPosed then s
  else
    let s := (s.stepTime 7).setB F.BOOT_STATUS_RUNNING true
    { s with pw.mode := .running, bt.seqs := s.poseCounts, bt.gap := none }

/-- Whether every autostart session is publishing poses, and has been for 60 s (R37): each has published a record since the part began to run or,
where one of them had stopped, since it started again, 60 s ago or more. -/
def State.allPosing (s : State) : Bool :=
  (match s.bt.gap with | some t => decide (t + 60000000000 ≤ s.mono) | none => true) && s.autoSes.all (fun n => !s.sesOn n
    || (s.sesState n != 0 && decide (nth 0 s.bt.seqs n < s.pair R.FRM_SES_SEQ_LO R.FRM_SES_SEQ_HI n)))

/-- A step of the start sequence completes and the next begins (R40). -/
def startStepDone (n : Nat) (x : StepFind) (s : State) : State :=
  if s.pw.mode ≠ .starting ∨ n ≠ s.f F.BOOT_STATUS_STAGE + 1 then s
  else
    match n with
    | 1 => (s.stepTime 1).setStage 1
    | 2 => s.step2
    | 3 => s.step3 x
    | 4 => s.step4 x
    | 5 => s.step5
    | 6 => s.step6
    | _ => s.step7

/-- A step exceeds its limit: STEP_LIMIT and a restart (R44). -/
def startStepLimit (n : Nat) (s : State) : State :=
  if s.pw.mode ≠ .starting ∨ n ≠ s.f F.BOOT_STATUS_STAGE + 1 then s else (s.event 0x1 Ev.stepLimit n).restart 2

/-! ## After the start -/

/-- After a full training the results go to the older cache copy, once the first poses are published (R45). R45 does not say which copy is
the older where neither is valid or both have one age: copy 0 is then written (DESIGN CHOICE of log entry 69). -/
def trainingCacheWrite (s : State) : State :=
  match s.bt.trained with
  | none => s
  | some jt =>
    if s.pw.mode ≠ .running then s
    else
      let a := s.fl.train0
      let b := s.fl.train1
      let sq := fun (c : TrainCopy) => if c.erased || !c.crcOk then 0 else c.seq + 1
      let c : TrainCopy := { erased := false, crcOk := true, seq := Nat.max (sq a) (sq b), device := s.otp.idDigest, cfg := s.ddrDigest,
                             code := Config.trainCode s.bt.img.firmware, jt := jt }
      let fl := if sq a ≤ sq b then { s.fl with train0 := c } else { s.fl with train1 := c }
      ({ s with fl := fl, bt.trained := none } : State).event 0x1 3

/-- A trial slot is confirmed after 60 s with every autostart session publishing and no watchdog reset; the security version counter
rises to its image's (R37, R440). -/
def trialConfirm (s : State) : State :=
  match s.bt.slot with
  | none => s
  | some b =>
    if s.pw.mode ≠ .running ∨ (s.fl.slotDir b).state ≠ 2 ∨ s.bt.wdSeen ∨ !s.allPosing then s
    else
      let s := s.setSlotState b 3
      let v := Nat.min (96 - s.otp.svcLost) s.bt.img.secver
      let s := if s.otp.svc < v then ({ s with otp.svc := v } : State).mirrorOtp.event 0x1 4 0 0 v else s
      let s := if s.f F.SEC_UPDATE_STATE = 6 then s.setUpd 0 else s
      s.event 0xF 6

/-! ## Meanings -/

/-- START_STEP_DONE (R40). -/
def execStartStepDone (step : Nat) (find : StepFind) (s : State) : Host.Outcome State Fault Refusal := done (whenUp (startStepDone step find) s)
/-- START_STEP_LIMIT (R44). -/
def execStartStepLimit (step : Nat) (s : State) : Host.Outcome State Fault Refusal := done (whenUp (startStepLimit step) s)
/-- SENSOR_CHECK_EXPIRE (R42). -/
def execSensorCheckExpire (sensor : Nat) (s : State) : Host.Outcome State Fault Refusal := done (whenUp (sensorCheckExpire sensor) s)
/-- TRAINING_CACHE_WRITE (R45). -/
def execTrainingCacheWrite (s : State) : Host.Outcome State Fault Refusal := done (whenUp trainingCacheWrite s)
/-- TRIAL_CONFIRM (R37). -/
def execTrialConfirm (s : State) : Host.Outcome State Fault Refusal := done (whenUp trialConfirm s)

end Sys2Proof.Machine
end

