-- ==== Sys2Proof/Machine/Bus.lean ====
section
/-!
DEFINITION. The host's accesses to BAR0: which windows answer (R2, R43, R392), writes by access type (R6, R7, R51), 64-bit pairs (R9)
and the capture of TIME_NOW (R60).
-/

namespace Sys2Proof.Machine
open Sys2Proof

/-- Whether a BAR0 window answers the host: GLB and BOOT once reset is released, the others once step 2 has completed (R43); KLN and LNK
not on the KVX-7100 (R2). -/
def State.windowOpen (s : State) (w : Nat) : Bool :=
  s.reach 0 &&
    (if w ≤ 1 then true
     else if w = 0xA ∨ w = 0xE then s.loaded && s.otp.part != 0x71
     else s.loaded && decide (w ≤ 0x10))

/-- The registers of the mailbox in the HST window (Table 14-12). -/
def mbxAt (addr : Nat) : Bool :=
  (decide (0xD00010 ≤ addr) && decide (addr < 0xD0001C)) || (decide (0xD00100 ≤ addr) && decide (addr < 0xD00300))

/-- Whether an address answers the host: its window does, or it is the mailbox's and the part is in recovery (R39). -/
def State.addrOpen (s : State) (addr : Nat) : Bool :=
  s.windowOpen (addr / 0x100000) || (s.reach 0 && s.pw.mode == .recovery && mbxAt addr)

/-- The event log in the DSP window (Table 13-10): its records, and the number of the newest. -/
def logAt (addr : Nat) : Bool :=
  (decide (0xC40000 ≤ addr) && decide (addr < 0xC80000)) || (decide (0xC00050 ≤ addr) && decide (addr < 0xC00058))

/-- Whether an address can be read: it answers, or it is the event log's and the part is halted (Table 2-13). -/
def State.readOpen (s : State) (addr : Nat) : Bool :=
  s.addrOpen addr || (s.reach 0 && s.pw.mode == .halted && logAt addr)

/-- The register that answers at a BAR0 address. -/
def State.target (s : State) (addr : Nat) : Option (Reg × Nat × Nat) :=
  if addr % 4 = 0 ∧ s.addrOpen addr then regAt addr else none

/-- The register that a read of a BAR0 address sees. -/
def State.readTarget (s : State) (addr : Nat) : Option (Reg × Nat × Nat) :=
  if addr % 4 = 0 ∧ s.readOpen addr then regAt addr else none

/-- The bits written as 1 of a W1C register are cleared, the others stay (Table 0-4). -/
def State.clearBits (s : State) (r : Reg) (i j v : Nat) : State :=
  if r.w1c = 0 then s else s.setWord r (s.word r i j &&& ~~~(BitVec.ofNat 32 v &&& BitVec.ofNat 32 r.w1c)) i j

/-- The part sets bits of a W1C register in the clock of a host write: they read 1 afterwards, written as 1 or not (R7). -/
def State.setSame (s : State) (r : Reg) (i j same : Nat) : State :=
  let m := BitVec.ofNat 32 same &&& BitVec.ofNat 32 r.w1c
  if m = 0 then s else s.setWord r (s.word r i j ||| m) i j

/-- A write to a register of type BL changes nothing and logs an access violation (R6, R51). -/
def State.blViolation (s : State) (addr : Nat) : State := s.event 1 5 0 addr

/-- A write of an RW pair's lower half is held pending (R9). -/
def State.loPending (s : State) (addr v : Nat) : State := { s with hst.lo := tput 0 s.hst.lo (addr + 4) (v % 2 ^ 32 + 1) }

/-- Whether the pair whose lower half is `r` is written by the host: the wait thresholds and the rings' read pointers. -/
def rwPair (lo : Reg) : Bool := lo = R.DSP_HOST_WAIT_TH_LO || lo = R.HST_RING_RD_LO

/-- A write of an RW pair's upper half applies the 64-bit value: with the pending lower half where one was written since the last _HI write,
otherwise with the lower half in force (R9). A threshold of an armed slot is tested at once (R363). -/
def State.hiWrite (s : State) (r : Reg) (i addr v : Nat) : State :=
  let th := r = R.DSP_HOST_WAIT_TH_HI
  let inForce := (if th then s.word R.DSP_HOST_WAIT_TH_LO i else s.word R.HST_RING_RD_LO i).toNat
  let p := tget 0 s.hst.lo addr
  let x := v % 2 ^ 32 * 2 ^ 32 + (if p = 0 then inForce else p - 1)
  let s : State := { s with hst.lo := tput 0 s.hst.lo addr 0 }
  if th then (s.setPair R.DSP_HOST_WAIT_TH_LO R.DSP_HOST_WAIT_TH_HI x i).testSlot i
  else if r = R.HST_RING_RD_HI then hstRingRdWrite i x s
  else s

/-- A host write of DSP_HOST_WAIT_CTL: ARM set arms the slot, ARM clear disarms it (R363). -/
def State.waitCtl (s : State) (slot v : Nat) : State :=
  let i := fieldGet (BitVec.ofNat 32 v) F.DSP_HOST_WAIT_CTL_INDEX.hi F.DSP_HOST_WAIT_CTL_INDEX.lo
  let arm := fieldGet (BitVec.ofNat 32 v) F.DSP_HOST_WAIT_CTL_ARM.hi F.DSP_HOST_WAIT_CTL_ARM.lo
  if arm = 1 then hostWaitArm slot i s else hostWaitDisarm slot i s

/-- A host write that reaches a register takes effect as its access type says (Table 0-4). -/
def State.writeReg (s : State) (r : Reg) (i j addr v : Nat) : State :=
  let x := BitVec.ofNat 32 v
  if r.bl ≠ 0 then s.blViolation addr
  else if r.w1c ≠ 0 then s.clearBits r i j v
  else if r = R.HST_MBX_REQ then s.setWord r x i
  else if r = R.HST_MBX_DOORBELL then doorbell (fieldGet x F.HST_MBX_DOORBELL_TAG.hi F.HST_MBX_DOORBELL_TAG.lo) false s
  else if r = R.DSP_HOST_ADV then
    hostTallyAdvance (fieldGet x F.DSP_HOST_ADV_INDEX.hi F.DSP_HOST_ADV_INDEX.lo)
      (fieldGet x F.DSP_HOST_ADV_AMOUNT.hi F.DSP_HOST_ADV_AMOUNT.lo) s
  else if r = R.DSP_HOST_WAIT_CTL then s.waitCtl i v
  else if rwPair r then s.loPending addr v
  else if r = R.DSP_HOST_WAIT_TH_HI ∨ r = R.HST_RING_RD_HI then s.hiWrite r i addr v
  else s

/-- The PF's MSI-X table in BAR0: 68 vectors of 16 bytes (R405). -/
def pfVectorAt (addr : Nat) : Bool := decide (0xD10000 ≤ addr) && decide (addr < 0xD10000 + 68 * 16) && addr % 4 == 0

/-- A naturally aligned 4-byte host write to BAR0 (R392): the PF's MSI-X table, a register, or nothing (R8). -/
def regWrite (addr v : Nat) (s : State) : State :=
  if pfVectorAt addr then (if s.windowOpen 0xD then s.msixWrite 0 (addr - 0xD10000) v else s)
  else match s.target addr with
    | some (r, i, j) => s.writeReg r i j addr v
    | none => s

/-- A host write to a W1C register; `same` holds the bits that the part sets in the same clock, which read 1 afterwards (R7, log entry 91). -/
def eventBitsClear (addr v same : Nat) (s : State) : State :=
  match s.target addr with
  | some (r, i, j) => if r.w1c = 0 then s else (s.clearBits r i j v).setSame r i j same
  | none => s

/-- A host write to a BL register (R51). -/
def blRegisterWrite (addr : Nat) (s : State) : State :=
  match s.target addr with
  | some (r, _, _) => if r.bl ≠ 0 then s.blViolation addr else s
  | none => s

/-- A write of the _LO half of an RW pair (R9). -/
def reg64LoWrite (addr v : Nat) (s : State) : State :=
  match s.target addr with
  | some (r, _, _) => if rwPair r then s.loPending addr v else s
  | none => s

/-- A write of the _HI half of an RW pair (R9). -/
def reg64HiWrite (addr v : Nat) (s : State) : State :=
  match s.target addr with
  | some (r, i, _) => if r = R.DSP_HOST_WAIT_TH_HI ∨ r = R.HST_RING_RD_HI then s.hiWrite r i addr v else s
  | none => s

/-- The 64-bit value in force of the pair whose _LO half lies at a BAR0 address: a Tally (Table 13-8), or two registers. -/
def State.pairAt (s : State) (addr : Nat) : Option Nat :=
  if 0xC80000 ≤ addr ∧ addr < 0xD00000 ∧ addr % 8 = 0 then
    (if s.windowOpen 0xC then some (s.tallyOf ((addr - 0xC80000) / 8)).value else none)
  else match s.readTarget addr with
    | some (r, i, j) =>
      if pairLos.contains r then
        match regAt (addr + 4) with
        | some (h, _, _) => some ((s.word r i j).toNat + 2 ^ 32 * (s.word h i j).toNat)
        | none => none
      else none
    | none => none

/-- The bytes of an event record (Table 13-7). -/
def evtBytes (e : Evt) : List Byte :=
  leBytes 8 e.seq ++ tsBytes e.ts ++ leBytes 1 e.source ++ leBytes 1 e.sev ++ leBytes 2 e.code ++ leBytes 2 e.unit ++ leBytes 2 e.rep
    ++ leBytes 2 e.start ++ leBytes 2 0 ++ leBytes 8 e.arg0 ++ leBytes 8 e.arg1 ++ leBytes 8 e.arg2 ++ leBytes 8 e.seq

/-- A word of the log area: record r holds the event with seq mod 4,096 = r (R385). -/
def State.logWord (s : State) (off : Nat) : Nat :=
  match s.log.find? (fun e => e.seq % 4096 == off / 64) with
  | some e => leValue (((evtBytes e).drop (off % 64)).take 4)
  | none => 0

/-- A word of the PF's PBA: bit n for vector n (R405). -/
def State.pbaWord (s : State) (k : Nat) : Nat :=
  (List.range 32).foldl (fun a b => if 32 * k + b < 68 ∧ s.hst.pba.contains (32 * k + b) then setBit a b else a) 0

/-- A word of the transform entries in force (FRM_TT_ENTRY_i, Table 9-13); past an entry's bytes, and where there is no entry, 0. -/
def State.ttWord (s : State) (off : Nat) : Nat := leValue (((s.ttEntry (off / 256)).drop (off % 256)).take 4)

/-- LNK_MBR_HB_AGE as it is read: the microseconds since the member's last heartbeat, 0 for one that has sent none. -/
def State.hbAge (s : State) (i : Nat) : Nat := match tget 0 s.lnk.heard i with | 0 => 0 | t + 1 => satU 32 ((s.mono - (t + 1)) / 1000)

/-- What an open BAR0 address holds now: a Tally's half, a word of the log, of the PF's MSI-X table or PBA, of device time, of a transform
entry, or a register (WO bits read 0, Table 0-4); where no register lies, 0 (R8). -/
def State.liveWord (s : State) (addr : Nat) : Nat :=
  if 0xC80000 ≤ addr ∧ addr < 0xD00000 then
    (s.tallyOf ((addr - 0xC80000) / 8)).value / (if addr % 8 = 0 then 1 else 2 ^ 32) % 2 ^ 32
  else if 0xC40000 ≤ addr ∧ addr < 0xC80000 then s.logWord (addr - 0xC40000)
  else if pfVectorAt addr then s.msixWord 0 (addr - 0xD10000)
  else if 0xD11000 ≤ addr ∧ addr < 0xD11010 then s.pbaWord ((addr - 0xD11000) / 4)
  else if 0x200010 ≤ addr ∧ addr < 0x200020 then timeNowWord s.tm.dev ((addr - 0x200010) / 4)
  else if 0x880000 ≤ addr ∧ addr < 0x900000 then s.ttWord (addr - 0x880000)
  else match regAt addr with
    | some (r, i, j) =>
      if r = R.LNK_MBR_HB_AGE then s.hbAge i
      else s.ingLive r i (s.word r i j &&& ~~~(BitVec.ofNat 32 r.wo)).toNat
    | none => 0

/-- The word the next host read of an address returns (R9). -/
def State.capturedWord (s : State) (addr v : Nat) : State := { s with hst.hi := tput 0 s.hst.hi addr (v + 1) }

/-- A host read completes with a word. -/
def State.completeWord (s : State) (v : Nat) : State := s.emit (.cpl 0 (leBytes 4 v) false)

/-- The key of the word of device time at an address: TIME_NOW_SEC_HI, _NS and _FRAC (R60). -/
def timeNowKey (addr : Nat) : Option Nat :=
  if 0x200014 ≤ addr ∧ addr < 0x200020 then some ((addr - 0x200014) / 4) else none

/-- A host read of an address that is no pair's _LO half: what an earlier read captured for it, once (R9, R60), else what it holds now; an
address that is not open reads 0 (R2, R43). -/
def State.readWord (s : State) (addr : Nat) : State :=
  if !s.readOpen addr then s.completeWord 0
  else
    let c := tget 0 s.hst.hi addr
    if c ≠ 0 then ({ s with hst.hi := tput 0 s.hst.hi addr 0 } : State).completeWord (c - 1)
    else
      match timeNowKey addr with
      | none => s.completeWord (s.liveWord addr)
      | some k =>
        let d := tget 0 s.tm.capt k
        if d = 0 then s.completeWord (s.liveWord addr)
        else ({ s with tm.capt := tput 0 s.tm.capt k 0 } : State).completeWord (timeNowWord (d - 1) (k + 1))

/-- A host read of a pair's _LO half: the lower half is answered, the upper half captured for the next read of _HI (R9). No command counts
what FEC corrects: LNK_PORT_FEC_CORR shows a free value. A capture's stamp is captured with its nanoseconds (Table 3-7), device time with
all its words (R60). -/
def State.readLo (s : State) (addr : Nat) : State :=
  let s := match s.readTarget addr with
    | some (r, i, _) =>
      if r = R.LNK_PORT_FEC_CORR_LO then (s.setPair R.LNK_PORT_FEC_CORR_LO R.LNK_PORT_FEC_CORR_HI (s.freeVal % 2 ^ 64) i).used else s
    | none => s
  let s := match s.readTarget addr with
    | some (r, i, _) => if r = R.TIME_CAP_SEC_LO then s.capturedWord (addr + 8) (s.word R.TIME_CAP_NS i).toNat else s
    | none => s
  match s.pairAt addr with
  | some v => (s.capturedWord (addr + 4) (v / 2 ^ 32)).emit (.cpl 0 (leBytes 4 v) false)
  | none =>
    if addr = 0x200010 ∧ s.windowOpen 2 then (s.captureNow 0).completeWord (s.now / 1000000000) else s.readWord addr

/-- A naturally aligned 4-byte host read of BAR0. The table's row names the _LO half of a pair; the command may name any address, so that
the reads of R2, R6, R8, R9, R43 and R60 have an effect in the model (log entry 66). -/
def reg64LoRead (addr : Nat) (s : State) : State := if addr % 4 = 0 ∧ s.reach 0 then s.readLo addr else s

/-- A host read of TIME_NOW_SEC_LO (R60): all 112 bits are captured for the function, the low seconds answered; 0 where the window does
not answer (R43). -/
def timeNowCapture (fn : Nat) (s : State) : State :=
  if fn = 0 ∧ s.reach 0 then
    (if s.windowOpen 2 then (s.captureNow fn).emit (.cpl fn (leBytes 4 (s.now / 1000000000)) false) else s.completeWord 0)
  else s

/-- A BAR0 access that is not a naturally aligned 4-byte access (R392): a read completes with Unsupported Request, a write is dropped. -/
def bar0BadAccess (write : Bool) (addr len : Nat) (s : State) : State :=
  if !s.reach 0 || (addr % 4 == 0 && len == 4) || write then s else s.emit (.unsupported 0)

/-! ## Meanings -/

/-- REG_WRITE (R6, R51). -/
def execRegWrite (addr v : Nat) (s : State) : Host.Outcome State Fault Refusal := done (regWrite addr v s)
/-- EVENT_BITS_CLEAR (R7). -/
def execEventBitsClear (addr v same : Nat) (s : State) : Host.Outcome State Fault Refusal := done (eventBitsClear addr v same s)
/-- BL_REGISTER_WRITE (R51): the value written plays no part. -/
def execBlRegisterWrite (addr v : Nat) (s : State) : Host.Outcome State Fault Refusal := done (blRegisterWrite addr s)
/-- REG64_LO_WRITE (R9). -/
def execReg64LoWrite (addr v : Nat) (s : State) : Host.Outcome State Fault Refusal := done (reg64LoWrite addr v s)
/-- REG64_HI_WRITE (R9). -/
def execReg64HiWrite (addr v : Nat) (s : State) : Host.Outcome State Fault Refusal := done (reg64HiWrite addr v s)
/-- REG64_LO_READ (R9), and the other reads of BAR0. -/
def execReg64LoRead (addr : Nat) (s : State) : Host.Outcome State Fault Refusal := done (reg64LoRead addr s)
/-- TIME_NOW_CAPTURE (R60). -/
def execTimeNowCapture (fn : Nat) (s : State) : Host.Outcome State Fault Refusal := done (timeNowCapture fn s)
/-- BAR0_BAD_ACCESS (R392). -/
def execBar0BadAccess (write : Bool) (addr len v : Nat) (s : State) : Host.Outcome State Fault Refusal :=
  done (bar0BadAccess write addr len s)

end Sys2Proof.Machine
end

