-- ==== Sys2Proof/Machine/Power.lean ====
section
/-!
DEFINITION. Power, reset pins, core voltage control, temperatures, board management and the debug port (chapter 17, R441).
-/

namespace Sys2Proof.Machine
open Sys2Proof

/-! ## Supplies and reset (R459, R460, R465, R468) -/

/-- The ten rails of Table 17-1. -/
def allRails : Nat := 0x3FF

/-- The rails of the optical engines, which the KVX-7100 may leave unpowered (R458). -/
def oeRails : Nat := 0x300

/-- A rail reaches 90 % of its nominal value (Table 17-2); rail `r` in the order of Table 17-1. -/
def supplyRamp (r : Nat) (s : State) : State :=
  if s.pw.mode != .off || 10 ≤ r then s else { s with pw.rails := setBit s.pw.rails r }

/-- Whether every rail that the part needs is up. -/
def State.railsUp (s : State) : Bool :=
  s.pw.rails == allRails || (s.otp.part == 0x71 && (s.pw.rails ||| oeRails) == allRails)

/-- The board asserts PWRGD once every rail is at 90 %: the part is in RESET (Table 17-2, step 4; Table 17-5). -/
def pwrgdAssert (s : State) : State :=
  if !s.railsUp || s.pw.pwrgd then s
  else
    match s.pw.mode with
    | .off => { s.unitsReset with pw.pwrgd := true, pw.mode := .reset }
    | _ => { s with pw.pwrgd := true }

/-- SYS_RESET_N is released with PWRGD high: the straps are sampled and step 1 begins (R459, R484); the seed fails where 16 attempts
do not reconstruct it (R443). -/
def sysResetRelease (strap pufFails : Nat) (s : State) : State :=
  if s.pw.mode != .reset || !s.pw.pwrgd || s.pw.sysResetN then s
  else
    let s : State := { s with pw.sysResetN := true, pw.straps := strap % 4, pw.pufBad := decide (16 ≤ pufFails) }
    (s.setF F.PWR_RESET_CAUSE_CAUSE s.pw.nextCause).romStart

/-- Whether a low level of so many nanoseconds on SYS_RESET_N is taken (R465): never below 1 µs, always from 10 µs; between them a
free value decides. -/
def State.takesReset (s : State) (ns : Nat) : Bool :=
  decide (10000 ≤ ns) || (decide (1000 ≤ ns) && s.freeVal % 2 == 1)

/-- SYS_RESET_N is held low (R465); it also releases THERMTRIP_N (R470). -/
def sysResetAssert (ns : Nat) (s : State) : State :=
  if s.pw.mode == .off then { s with pw.sysResetN := false }
  else
    let took := s.takesReset ns
    let s := if 1000 ≤ ns ∧ ns < 10000 then s.used else s
    if !took then s
    else
      let s := s.systemReset
      { s with pw.sysResetN := false, pw.thermtripN := true }

/-- PWRGD falls (R465): while SYS_RESET_N is released it acts as a system reset. The part leaves RESET by the next release of
SYS_RESET_N (Table 17-5), so its pin is taken as low again. -/
def pwrgdFall (s : State) : State :=
  if !s.pw.pwrgd then s
  else if s.awake then
    let s := s.systemReset
    { s with pw.pwrgd := false, pw.sysResetN := false }
  else { s with pw.pwrgd := false }

/-- What a loss of supplies cuts off half done: the directory copy being written fails its CRC (R30); an OTP field is used up without its
valid bit (R54). -/
def State.cutOff (s : State) (c : Cut) : State :=
  match c with
  | .none => s
  | .directory =>
    if s.fl.useCopy0 then { s with fl.dir1 := { s.fl.dir1 with erased := false, crcOk := false } }
    else { s with fl.dir0 := { s.fl.dir0 with erased := false, crcOk := false } }
  | .keySlot n =>
    let k := nth {} s.otp.keys n
    if k.used then s else { s with otp.keys := setNth s.otp.keys n { k with used := true } }
  | .revoke n =>
    let k := nth {} s.otp.keys n
    if !k.programmed ∨ k.revUsed then s else { s with otp.keys := setNth s.otp.keys n { k with revUsed := true } }
  | .counter => if s.otp.svc + s.otp.svcLost < 96 then { s with otp.svcLost := s.otp.svcLost + 1 } else s
  | .debugLock => if s.otp.lockUsed then s else { s with otp.lockUsed := true }
  | .cascade => if s.otp.cascade.length < 8 then { s with otp.cascade := s.otp.cascade ++ [(false, 0)] } else s
  | .retire => if s.otp.retire.length < 32 then { s with otp.retire := s.otp.retire ++ [(false, 0)] } else s

/-- Supplies are lost (R460, R464): what is neither OTP, flash nor SSD is gone; the next start reads power-on as its cause. Only a part
that runs can be writing the flash or the OTP. -/
def supplyLoss (c : Cut) (s : State) : State :=
  let s := if s.awake then s.cutOff c else s
  let s := s.unitsReset
  { s with pw := { s.pw with mode := .off, rails := 0, pwrgd := false, sysResetN := false, thermtripN := true, nextCause := 0 } }

/-- The causes of a self-restart (Table 13-7). -/
def restartCauses : List Nat := [1, 2, 3, 4, 5, 6, 7, 8, 9]

/-- The part restarts itself, for a cause of Table 13-7 (R466). -/
def selfRestart (cause : Nat) (s : State) : State :=
  if restartCauses.contains cause && s.pw.thermtripN then s.restart cause else s

/-! ## Temperatures (R469–R473) -/

/-- The limit of a sensor, in 1/16 °C (Table 17-7, PWR_LIMITS). -/
def State.tempLimit (s : State) (n : Nat) : Int :=
  let c := if n < 16 then s.f F.PWR_LIMITS_COMPUTE else if n < 20 then s.f F.PWR_LIMITS_HOPPER
    else if n < 22 then s.f F.PWR_LIMITS_IO else s.f F.PWR_LIMITS_OE
  ((16 * c : Nat) : Int)

/-- The WARN threshold of a sensor (R470). -/
def State.warnAt (s : State) (n : Nat) : Int := s.tempLimit n - ((16 * s.f F.PWR_THERM_CFG_WARN_OFFSET : Nat) : Int)

/-- The last reading of a sensor, in 1/16 °C. -/
def State.temp (s : State) (n : Nat) : Int := s.fs F.PWR_TEMP_NOW n

/-- Whether a sensor of `l` that has been read satisfies a condition on its last reading. -/
def State.anyTemp (s : State) (l : List Nat) (p : Nat → Int → Bool) : Bool := l.any (fun n => bitOf s.pw.seen n && p n (s.temp n))

/-- The hottest sensor of a list, by last readings. -/
def State.hottest (s : State) (l : List Nat) : Int :=
  match l with
  | [] => 0
  | n :: l => l.foldl (fun m k => if m < s.temp k then s.temp k else m) (s.temp n)

/-- Compute sensors (Table 17-7). -/
def computeSensors : List Nat := List.range 16

/-- Hopper sensors (Table 17-7). -/
def hopperSensors : List Nat := [16, 17, 18, 19]

/-- WARN and CRIT: their status bits, ALERT_N, and an event as a sensor reaches a threshold (R470). -/
def State.thermLevels (s : State) (n : Nat) (was t : Int) : State :=
  let any := fun (at' : Nat → Int) => s.anyTemp (List.range 22) (fun k x => decide (at' k ≤ x))
  let crit := any s.tempLimit
  let s := (s.setB F.PWR_STATUS_WARN (any s.warnAt)).setB F.PWR_STATUS_CRIT crit
  let s : State := { s with pw.alertN := !crit }
  let rises := fun (x : Int) => decide (n < 22) && decide (was < x) && decide (x ≤ t)
  let s := if rises (s.warnAt n) then s.event 0x10 2 n else s
  if rises (s.tempLimit n) then s.event 0x10 3 n else s

/-- HOPPER_HOT (R472): set while a Hopper sensor exceeds it; the normal interval resumes once all have been 3 °C below for 10 s. -/
def State.hopperHeat (s : State) (n : Nat) : State :=
  let hot : Int := ((16 * s.f F.PWR_THERM_CFG_HOPPER_HOT : Nat) : Int)
  let ended := s.anyTemp hopperSensors (fun _ x => decide (hot < x))
  let cool := !s.anyTemp hopperSensors (fun _ x => decide (hot - 48 < x))
  let since := if cool then some (s.pw.coolSince.getD s.mono) else none
  let s : State := { s with pw.coolSince := since }
  if ended then
    if s.fb F.PWR_STATUS_HOPPER_HOT then s else (s.setB F.PWR_STATUS_HOPPER_HOT true).event 0x10 4 n
  else
    match since with
    | some t => if t + 10000000000 ≤ s.mono then s.setB F.PWR_STATUS_HOPPER_HOT false else s
    | none => s

/-- An optical engine above 90 °C: its port goes DOWN and LASER_EN is deasserted (R473, R435); it is taken up again in range. -/
def State.engineHeat (s : State) (n : Nat) (t : Int) : State :=
  let p := n - 22
  if s.tempLimit n < t then
    if bitOf s.pw.oeHot p then s
    else
      let s : State := { s with pw.oeHot := setBit s.pw.oeHot p }
      let busy := s.f F.LNK_PORT_STATUS_STATE p != 0 || (s.linkPort p).trying
      let s := (if busy then s.portDown p else s).laserEn p false
      s.event 0x10 5 n
  else if t ≤ 1360 then { s with pw.oeHot := clrBit s.pw.oeHot p }
  else s

/-- A temperature sensor is read (R469); `t` in 1/16 °C. -/
def tempSensorRead (n : Nat) (t : Int) (s : State) : State :=
  if !s.awake || 24 ≤ n then s
  else
    let was : Int := if bitOf s.pw.seen n then s.temp n else -32768
    let s := s.setFs F.PWR_TEMP_NOW t n
    let s := if !bitOf s.pw.seen n || decide (s.fs F.PWR_TEMP_MAX n < t) then s.setFs F.PWR_TEMP_MAX t n else s
    let s : State := { s with pw.seen := setBit s.pw.seen n }
    let s := s.thermLevels n was t
    if n < 16 ∨ (20 ≤ n ∧ n < 22) then s
    else if n < 20 then s.hopperHeat n
    else s.engineHeat n t

/-- TRIP (R470): a sensor 0–21 at its limit plus 10 °C for 1 ms; the part enters RESET and THERMTRIP_N goes low. -/
def thermtrip (n : Nat) (t : Int) (s : State) : State :=
  if !s.awake || 22 ≤ n || decide (t < s.tempLimit n + 160) then s
  else
    let s := (tempSensorRead n t s).systemReset
    { s with pw.thermtripN := false }

/-! ## Core voltage control (R461, R462) -/

/-- The set point in millivolts, in 1/32 mV before rounding: fuse_mv + 0.5 · max(0, 85 − t_hot), rounded up to 5 mV, clamped. -/
def avsTarget (fuse : Nat) (hot : Int) : Nat :=
  let v32 := 32 * fuse + (1360 - hot).toNat
  Nat.min 850 (Nat.max 650 (ceilDiv v32 160 * 5))

/-- A PMBus transaction fails: counted, and after three in a row AVS is FROZEN (R462). -/
def State.pmbusFail (s : State) : State :=
  let s := (s.addSat F.PWR_PMBUS_ERR_COUNT).event 0x10 1
  let s : State := { s with pw.avsFails := s.pw.avsFails + 1 }
  if 3 ≤ s.pw.avsFails ∧ s.f F.PWR_STATUS_AVS ≠ 2 then (s.setF F.PWR_STATUS_AVS 2).event 0x10 0 else s

/-- A voltage as linear16 has it (R461): a multiple of 2 to the power of the exponent of VOUT_MODE, to the nearest (log entry 108). -/
def linear16 (mode mv : Nat) : Nat :=
  (if mode % 32 < 16 then (mv + 500 * 2 ^ (mode % 32)) / (1000 * 2 ^ (mode % 32)) else (mv * 2 ^ (32 - mode % 32) + 500) / 1000) % 65536

/-- VOUT_COMMAND of PMBus. -/
def voutCommand : Nat := 0x21

/-- Whether the firmware that runs AVS does so (Table 17-5). -/
def State.avsRuns (s : State) : Bool := s.up || s.pw.mode == .halted

/-- The set point is computed and moved by at most 5 mV (R461). -/
def avsUpdate (ack : Bool) (s : State) : State :=
  if !s.avsRuns || s.f F.PWR_STATUS_AVS == 2 then s
  else
    let v := s.f F.PWR_AVS_SET_SET_MV
    let w := avsTarget (s.f F.PWR_AVS_FUSE_MV) (s.hottest computeSensors)
    let next := if v < w then Nat.min w (v + 5) else Nat.max w (v - 5)
    if next = v then s.setF F.PWR_STATUS_AVS 1
    else
      let s := s.emit (.pmbus (s.f F.PWR_AVS_CFG_ADDR) (s.f F.PWR_AVS_CFG_PAGE) voutCommand (linear16 s.pw.voutMode next))
      if ack then
        let s : State := { s with pw.avsFails := 0 }
        (s.setF F.PWR_AVS_SET_SET_MV next).setF F.PWR_STATUS_AVS 1
      else s.pmbusFail

/-- The regulator's telemetry is read (R461): `vout` in mV, `iout` in 10 mA; package power in mW. A READ_VOUT more than 15 mV from the set
point counts as a failure (R462). -/
def avsTelemetry (ack : Bool) (vout iout temp pkg peak : Nat) (s : State) : State :=
  if !s.avsRuns then s
  else
    let s := (s.setF F.PWR_PKG_MW pkg).tele R.PWR_PKG_PEAK (fun s => s.setF F.PWR_PKG_PEAK_MW peak)
    if !ack then s.pmbusFail
    else
      let s := (s.setF F.PWR_AVS_SET_READ_MV vout).setF F.PWR_CORE_TELEM_IOUT iout
      let s := s.setF F.PWR_CORE_TELEM_REG_TEMP temp
      let v := s.f F.PWR_AVS_SET_SET_MV
      if v + 15 < vout ∨ vout + 15 < v then s.pmbusFail else { s with pw.avsFails := 0 }

/-! ## Board management (R484) -/

/-- A failed PEC is flagged, and the command not answered (R484). -/
def State.smbPecFail (s : State) : State := s.event 0x10 6

/-- A Read Word command: answered from step 1 of the start on, not in RESET or OFF. -/
def smbRead (value : State → Nat) (pecBad : Bool) (s : State) : State :=
  if !s.awake then s else if pecBad then s.smbPecFail else s.emit (.smbWord (value s % 65536))

/-- An SMBus command of another code is not acknowledged (R484). -/
def smbUnknown (code : Nat) (pecBad : Bool) (s : State) : State :=
  if !s.awake || (1 ≤ code && code ≤ 6) then s
  else (if pecBad then s.smbPecFail else s).emit .smbNak

/-! ## The debug port (R441) -/

/-- A private JTAG instruction: with the debug lock blown it acts as BYPASS; before that its use sets DEBUG_SEEN and logs DEBUG. -/
def jtagPrivate (s : State) : State :=
  if !s.awake || s.otp.debugLock then s else (s.setB F.SEC_STATUS_DEBUG_SEEN true).event 0xF 9

/-! ## Meanings -/

/-- SUPPLY_RAMP (R459). -/
def execSupplyRamp (rail : Nat) (s : State) : Host.Outcome State Fault Refusal := done (supplyRamp rail s)
/-- PWRGD_ASSERT (R459). -/
def execPwrgdAssert (s : State) : Host.Outcome State Fault Refusal := done (pwrgdAssert s)
/-- SYS_RESET_RELEASE (R459). -/
def execSysResetRelease (strap pufFails : Nat) (s : State) : Host.Outcome State Fault Refusal := done (sysResetRelease strap pufFails s)
/-- SYS_RESET_ASSERT (R465). -/
def execSysResetAssert (ns : Nat) (s : State) : Host.Outcome State Fault Refusal := done (sysResetAssert ns s)
/-- PWRGD_FALL (R465). -/
def execPwrgdFall (s : State) : Host.Outcome State Fault Refusal := done (pwrgdFall s)
/-- SUPPLY_LOSS (R460). -/
def execSupplyLoss (cut : Cut) (s : State) : Host.Outcome State Fault Refusal := done (supplyLoss cut s)
/-- SELF_RESTART (R466). -/
def execSelfRestart (cause : Nat) (s : State) : Host.Outcome State Fault Refusal :=
  done (if s.up || s.pw.mode == .recovery then selfRestart cause s else s)
/-- TEMP_SENSOR_READ (R469). -/
def execTempSensorRead (sensor : Nat) (t : Int) (s : State) : Host.Outcome State Fault Refusal := done (tempSensorRead sensor t s)
/-- THERMTRIP (R470). -/
def execThermtrip (sensor : Nat) (t : Int) (s : State) : Host.Outcome State Fault Refusal := done (thermtrip sensor t s)
/-- AVS_UPDATE (R461). -/
def execAvsUpdate (ack : Bool) (s : State) : Host.Outcome State Fault Refusal := done (avsUpdate ack s)
/-- AVS_TELEMETRY (R461). -/
def execAvsTelemetry (ack : Bool) (vout iout temp pkg peak : Nat) (s : State) : Host.Outcome State Fault Refusal :=
  done (avsTelemetry ack vout iout temp pkg peak s)
/-- SMB_READ_BOOT_STATUS (R484). -/
def execSmbReadBootStatus (pecBad : Bool) (s : State) : Host.Outcome State Fault Refusal :=
  done (smbRead (fun s => (s.word R.BOOT_STATUS).toNat) pecBad s)
/-- SMB_READ_COMPUTE_TEMP (R484). -/
def execSmbReadComputeTemp (pecBad : Bool) (s : State) : Host.Outcome State Fault Refusal :=
  done (smbRead (fun s => uns 16 (s.hottest computeSensors)) pecBad s)
/-- SMB_READ_HOPPER_TEMP (R484). -/
def execSmbReadHopperTemp (pecBad : Bool) (s : State) : Host.Outcome State Fault Refusal :=
  done (smbRead (fun s => uns 16 (s.hottest hopperSensors)) pecBad s)
/-- SMB_READ_PKG_POWER (R484). -/
def execSmbReadPkgPower (pecBad : Bool) (s : State) : Host.Outcome State Fault Refusal :=
  done (smbRead (fun s => s.f F.PWR_PKG_MW / 1000) pecBad s)
/-- SMB_READ_PWR_STATUS (R484). -/
def execSmbReadPwrStatus (pecBad : Bool) (s : State) : Host.Outcome State Fault Refusal :=
  done (smbRead (fun s => (s.word R.PWR_STATUS).toNat / 65536) pecBad s)
/-- SMB_READ_PART (R484). -/
def execSmbReadPart (pecBad : Bool) (s : State) : Host.Outcome State Fault Refusal :=
  done (smbRead (fun s => (s.word R.GLB_PART).toNat) pecBad s)
/-- SMB_UNKNOWN_COMMAND (R484). -/
def execSmbUnknownCommand (code : Nat) (pecBad : Bool) (s : State) : Host.Outcome State Fault Refusal :=
  done (smbUnknown code pecBad s)
/-- JTAG_PRIVATE_INSTRUCTION (R441). -/
def execJtagPrivateInstruction (s : State) : Host.Outcome State Fault Refusal := done (jtagPrivate s)

end Sys2Proof.Machine
end

