-- ==== Sys2Proof/Machine/Dispatch.lean ====
section
/-!
DEFINITION. Which meaning runs for which command: one arm per row of the table.
-/

namespace Sys2Proof.Machine
open Sys2Proof

/-- The meaning of a command: its effect on everything but the queue. -/
def exec (i : Instr) (s : State) : Host.Outcome State Fault Refusal :=
  match i with
  | .supplyRamp rail => Sys2Proof.Machine.execSupplyRamp rail s
  | .pwrgdAssert => Sys2Proof.Machine.execPwrgdAssert s
  | .sysResetRelease strap pufFails => Sys2Proof.Machine.execSysResetRelease strap pufFails s
  | .sysResetAssert ns => Sys2Proof.Machine.execSysResetAssert ns s
  | .pwrgdFall => Sys2Proof.Machine.execPwrgdFall s
  | .supplyLoss cut => Sys2Proof.Machine.execSupplyLoss cut s
  | .perstN => Sys2Proof.Machine.execPerstN s
  | .selfRestart cause => Sys2Proof.Machine.execSelfRestart cause s
  | .tempSensorRead sensor t => Sys2Proof.Machine.execTempSensorRead sensor t s
  | .thermtrip sensor t => Sys2Proof.Machine.execThermtrip sensor t s
  | .avsUpdate ack => Sys2Proof.Machine.execAvsUpdate ack s
  | .avsTelemetry ack vout iout temp pkg peak => Sys2Proof.Machine.execAvsTelemetry ack vout iout temp pkg peak s
  | .smbReadBootStatus pecBad => Sys2Proof.Machine.execSmbReadBootStatus pecBad s
  | .smbReadComputeTemp pecBad => Sys2Proof.Machine.execSmbReadComputeTemp pecBad s
  | .smbReadHopperTemp pecBad => Sys2Proof.Machine.execSmbReadHopperTemp pecBad s
  | .smbReadPkgPower pecBad => Sys2Proof.Machine.execSmbReadPkgPower pecBad s
  | .smbReadPwrStatus pecBad => Sys2Proof.Machine.execSmbReadPwrStatus pecBad s
  | .smbReadPart pecBad => Sys2Proof.Machine.execSmbReadPart pecBad s
  | .smbUnknownCommand code pecBad => Sys2Proof.Machine.execSmbUnknownCommand code pecBad s
  | .startStepDone step find => Sys2Proof.Machine.execStartStepDone step find s
  | .startStepLimit step => Sys2Proof.Machine.execStartStepLimit step s
  | .ptpWaitExpire => Sys2Proof.Machine.execPtpWaitExpire s
  | .sensorCheckExpire sensor => Sys2Proof.Machine.execSensorCheckExpire sensor s
  | .trainingCacheWrite => Sys2Proof.Machine.execTrainingCacheWrite s
  | .trialConfirm => Sys2Proof.Machine.execTrialConfirm s
  | .cellarBringupDone found => Sys2Proof.Machine.execCellarBringupDone found s
  | .deviceTimeTick => Sys2Proof.Machine.execDeviceTimeTick s
  | .ptpAnnounceRx n port a => Sys2Proof.Machine.execPtpAnnounceRx n port a s
  | .ptpSyncRx n port twoStep m => Sys2Proof.Machine.execPtpSyncRx n port twoStep m s
  | .ptpFollowUpRx n port m => Sys2Proof.Machine.execPtpFollowUpRx n port m s
  | .ptpDelayRespRx n seq t4 => Sys2Proof.Machine.execPtpDelayRespRx n seq t4 s
  | .ptpDelayReqTx n => Sys2Proof.Machine.execPtpDelayReqTx n s
  | .ptpPdelayReqRx port seq => Sys2Proof.Machine.execPtpPdelayReqRx port seq s
  | .ptpPdelayRespRx n seq t4 turn => Sys2Proof.Machine.execPtpPdelayRespRx n seq t4 turn s
  | .ptpManagementGet port seq => Sys2Proof.Machine.execPtpManagementGet port seq s
  | .ptpManagementSet port seq => Sys2Proof.Machine.execPtpManagementSet port seq s
  | .ptpManagementCommand port seq => Sys2Proof.Machine.execPtpManagementCommand port seq s
  | .announceReceiptTimeout n port => Sys2Proof.Machine.execAnnounceReceiptTimeout n port s
  | .selectionEval => Sys2Proof.Machine.execSelectionEval s
  | .holdErrUpdate => Sys2Proof.Machine.execHoldErrUpdate s
  | .holdoverLimitExpire => Sys2Proof.Machine.execHoldoverLimitExpire s
  | .ppsEdge err off => Sys2Proof.Machine.execPpsEdge err off s
  | .ref10mEdge err ppt => Sys2Proof.Machine.execRef10mEdge err ppt s
  | .exposureTriggerEdge n => Sys2Proof.Machine.execExposureTriggerEdge n s
  | .conversionStrobeEdge n => Sys2Proof.Machine.execConversionStrobeEdge n s
  | .controlCycleEdge n => Sys2Proof.Machine.execControlCycleEdge n s
  | .captureEdge n start stop rising => Sys2Proof.Machine.execCaptureEdge n start stop rising s
  | .slipHoldExpire n => Sys2Proof.Machine.execSlipHoldExpire n s
  | .heldClear n => Sys2Proof.Machine.execHeldClear n s
  | .csi2FrameStart port vc ecc => Sys2Proof.Machine.execCsi2FrameStart port vc ecc s
  | .csi2FrameEnd port vc ecc => Sys2Proof.Machine.execCsi2FrameEnd port vc ecc s
  | .csi2LongPacket port vc dt ecc crcOk px => Sys2Proof.Machine.execCsi2LongPacket port vc dt ecc crcOk px s
  | .csi2IgnoredPacket port vc dt ecc => Sys2Proof.Machine.execCsi2IgnoredPacket port vc dt ecc s
  | .bandSlotFree n => Sys2Proof.Machine.execBandSlotFree n s
  | .st2110PacketRx p => Sys2Proof.Machine.execSt2110PacketRx p s
  | .frameTimeout n => Sys2Proof.Machine.execFrameTimeout n s
  | .spiDataReady p => Sys2Proof.Machine.execSpiDataReady p s
  | .spiWaitExpire p => Sys2Proof.Machine.execSpiWaitExpire p s
  | .spiTransactionDone p data => Sys2Proof.Machine.execSpiTransactionDone p data s
  | .imuIdentityRead p value => Sys2Proof.Machine.execImuIdentityRead p value s
  | .ssiReadDone p bits high low first => Sys2Proof.Machine.execSsiReadDone p bits high low first s
  | .quadTransition q a b ns => Sys2Proof.Machine.execQuadTransition q a b ns s
  | .quadSample q => Sys2Proof.Machine.execQuadSample q s
  | .canFrameRx ctl ext fd id ago data => Sys2Proof.Machine.execCanFrameRx ctl ext fd id ago data s
  | .canTxDone ctl => Sys2Proof.Machine.execCanTxDone ctl s
  | .canBusoffRecover ctl => Sys2Proof.Machine.execCanBusoffRecover ctl s
  | .channelTimeout c => Sys2Proof.Machine.execChannelTimeout c s
  | .channelAbsentInstant c => Sys2Proof.Machine.execChannelAbsentInstant c s
  | .tallyAdvance src tally amount stamp task stores deltas => Sys2Proof.Machine.execTallyAdvance src tally amount stamp task stores deltas s
  | .taskLimitExpire node k cls unit => Sys2Proof.Machine.execTaskLimitExpire node k cls unit s
  | .unitFault cls unit task => Sys2Proof.Machine.execUnitFault cls unit task s
  | .taskFailed node k cause => Sys2Proof.Machine.execTaskFailed node k cause s
  | .waitLimitExpire node k => Sys2Proof.Machine.execWaitLimitExpire node k s
  | .hostTallyAdvance index amount => Sys2Proof.Machine.execHostTallyAdvance index amount s
  | .hostWaitArm slot index => Sys2Proof.Machine.execHostWaitArm slot index s
  | .hostWaitDisarm slot index => Sys2Proof.Machine.execHostWaitDisarm slot index s
  | .spareVisit cls group lanes die => Sys2Proof.Machine.execSpareVisit cls group lanes die s
  | .selfTestDone cls unit pass => Sys2Proof.Machine.execSelfTestDone cls unit pass s
  | .unitSwap cls spare => Sys2Proof.Machine.execUnitSwap cls spare s
  | .retest cls unit pass => Sys2Proof.Machine.execRetest cls unit pass s
  | .visitWaitWarning cls group => Sys2Proof.Machine.execVisitWaitWarning cls group s
  | .calibPost n => Sys2Proof.Machine.execCalibPost n s
  | .cooperLoadEval l0 l1 l2 => Sys2Proof.Machine.execCooperLoadEval l0 l1 l2 s
  | .firmwareWatchdog core => Sys2Proof.Machine.execFirmwareWatchdog core s
  | .eventFoldFlush src code unit => Sys2Proof.Machine.execEventFoldFlush src code unit s
  | .millBandDone n b lane => Sys2Proof.Machine.execMillBandDone n b lane s
  | .sgmBandDone p b => Sys2Proof.Machine.execSgmBandDone p b s
  | .flowLevelDone f level => Sys2Proof.Machine.execFlowLevelDone f level s
  | .pathSpaceFreed n => Sys2Proof.Machine.execPathSpaceFreed n s
  | .networkBandDone j b core splits => Sys2Proof.Machine.execNetworkBandDone j b core splits s
  | .networkDeadline j f => Sys2Proof.Machine.execNetworkDeadline j f s
  | .weightsStaged net layer cluster => Sys2Proof.Machine.execWeightsStaged net layer cluster s
  | .migrationPass counts => Sys2Proof.Machine.execMigrationPass counts s
  | .pageMigrateSwitch page => Sys2Proof.Machine.execPageMigrateSwitch page s
  | .demandFillDone page fails => Sys2Proof.Machine.execDemandFillDone page fails s
  | .scrubStep tier unit addr fixed => Sys2Proof.Machine.execScrubStep tier unit addr fixed s
  | .correctedError tier unit kind addr => Sys2Proof.Machine.execCorrectedError tier unit kind addr s
  | .channelDrainDone ch => Sys2Proof.Machine.execChannelDrainDone ch s
  | .uncorrectableError tier unit kind addr block => Sys2Proof.Machine.execUncorrectableError tier unit kind addr block s
  | .phyLockLoss ch => Sys2Proof.Machine.execPhyLockLoss ch s
  | .retrainTimeout ch => Sys2Proof.Machine.execRetrainTimeout ch s
  | .refillDone page bad => Sys2Proof.Machine.execRefillDone page bad s
  | .addressFault addr block => Sys2Proof.Machine.execAddressFault addr block s
  | .ddrDqsTrack ch drift => Sys2Proof.Machine.execDdrDqsTrack ch drift s
  | .ddrZqCal ch => Sys2Proof.Machine.execDdrZqCal ch s
  | .ddrMr4Read ch hot => Sys2Proof.Machine.execDdrMr4Read ch hot s
  | .nvmeCompletion op page err warn used => Sys2Proof.Machine.execNvmeCompletion op page err warn used s
  | .nvmeTimeout op page abortOk => Sys2Proof.Machine.execNvmeTimeout op page abortOk s
  | .cellarCheckpoint => Sys2Proof.Machine.execCellarCheckpoint s
  | .cellarWriteback page => Sys2Proof.Machine.execCellarWriteback page s
  | .visionStep n => Sys2Proof.Machine.execVisionStep n s
  | .propagatedRecord n => Sys2Proof.Machine.execPropagatedRecord n s
  | .foldIn n kind record kf => Sys2Proof.Machine.execFoldIn n kind record kf s
  | .initTimeout n => Sys2Proof.Machine.execInitTimeout n s
  | .coastExpire n => Sys2Proof.Machine.execCoastExpire n s
  | .relocQueryPost n => Sys2Proof.Machine.execRelocQueryPost n s
  | .kettleIterationDone p bad1 bad2 => Sys2Proof.Machine.execKettleIterationDone p bad1 bad2 s
  | .solveDeadline p n => Sys2Proof.Machine.execSolveDeadline p n s
  | .solveComplete p => Sys2Proof.Machine.execSolveComplete p s
  | .bodySolveDone p => Sys2Proof.Machine.execBodySolveDone p s
  | .posegraphPost p => Sys2Proof.Machine.execPosegraphPost p s
  | .viewPassDeadline v => Sys2Proof.Machine.execViewPassDeadline v s
  | .kilnBinningDone u => Sys2Proof.Machine.execKilnBinningDone u s
  | .kilnCompositingDone u => Sys2Proof.Machine.execKilnCompositingDone u s
  | .kilnBackwardDone u => Sys2Proof.Machine.execKilnBackwardDone u s
  | .kilnCommit m => Sys2Proof.Machine.execKilnCommit m s
  | .refineJobDone m => Sys2Proof.Machine.execRefineJobDone m s
  | .activeSetUpdate m => Sys2Proof.Machine.execActiveSetUpdate m s
  | .blockLoadDone m b => Sys2Proof.Machine.execBlockLoadDone m b s
  | .blockEvict m => Sys2Proof.Machine.execBlockEvict m s
  | .kilnRelocDone => Sys2Proof.Machine.execKilnRelocDone s
  | .nodeReadReturn w node => Sys2Proof.Machine.execNodeReadReturn w node s
  | .caskQueryDeadline w => Sys2Proof.Machine.execCaskQueryDeadline w s
  | .caskQueryDone w => Sys2Proof.Machine.execCaskQueryDone w s
  | .caskInsert q => Sys2Proof.Machine.execCaskInsert q s
  | .caskDelete q => Sys2Proof.Machine.execCaskDelete q s
  | .caskReplace q => Sys2Proof.Machine.execCaskReplace q s
  | .caskCompactNode j => Sys2Proof.Machine.execCaskCompactNode j s
  | .shardAnswerRx tag a => Sys2Proof.Machine.execShardAnswerRx tag a s
  | .shardMergeTimeout tag => Sys2Proof.Machine.execShardMergeTimeout tag s
  | .regWrite addr v => Sys2Proof.Machine.execRegWrite addr v s
  | .eventBitsClear addr v same => Sys2Proof.Machine.execEventBitsClear addr v same s
  | .blRegisterWrite addr v => Sys2Proof.Machine.execBlRegisterWrite addr v s
  | .reg64LoWrite addr v => Sys2Proof.Machine.execReg64LoWrite addr v s
  | .reg64HiWrite addr v => Sys2Proof.Machine.execReg64HiWrite addr v s
  | .reg64LoRead addr => Sys2Proof.Machine.execReg64LoRead addr s
  | .timeNowCapture fn => Sys2Proof.Machine.execTimeNowCapture fn s
  | .bar0BadAccess write addr len v => Sys2Proof.Machine.execBar0BadAccess write addr len v s
  | .msixTableWrite fn off v => Sys2Proof.Machine.execMsixTableWrite fn off v s
  | .hstRingRdWrite n seq => Sys2Proof.Machine.execHstRingRdWrite n seq s
  | .ringRecordCopy kind source => Sys2Proof.Machine.execRingRecordCopy kind source s
  | .ringIrqTimer n => Sys2Proof.Machine.execRingIrqTimer n s
  | .holdRelease => Sys2Proof.Machine.execHoldRelease s
  | .slotRequestWrite fn n off bytes => Sys2Proof.Machine.execSlotRequestWrite fn n off bytes s
  | .slotPost fn n => Sys2Proof.Machine.execSlotPost fn n s
  | .slotRelease fn n => Sys2Proof.Machine.execSlotRelease fn n s
  | .bar4Read fn off len => Sys2Proof.Machine.execBar4Read fn off len s
  | .bar4Slow fn off => Sys2Proof.Machine.execBar4Slow fn off s
  | .mbxStatus tag => Sys2Proof.Machine.execMbxStatus tag s
  | .mbxAttest tag => Sys2Proof.Machine.execMbxAttest tag s
  | .mbxSessionStart tag => Sys2Proof.Machine.execMbxSessionStart tag s
  | .mbxSessionStop tag => Sys2Proof.Machine.execMbxSessionStop tag s
  | .mbxSelftest tag => Sys2Proof.Machine.execMbxSelftest tag s
  | .mbxStageBegin tag => Sys2Proof.Machine.execMbxStageBegin tag s
  | .mbxStageData tag dma => Sys2Proof.Machine.execMbxStageData tag dma s
  | .mbxStageEnd tag => Sys2Proof.Machine.execMbxStageEnd tag s
  | .mbxStageAbort tag => Sys2Proof.Machine.execMbxStageAbort tag s
  | .mbxActivate tag => Sys2Proof.Machine.execMbxActivate tag s
  | .mbxBadCommand tag => Sys2Proof.Machine.execMbxBadCommand tag s
  | .mbxDmaTimeout => Sys2Proof.Machine.execMbxDmaTimeout s
  | .stageEraseDone => Sys2Proof.Machine.execStageEraseDone s
  | .stageDataDone => Sys2Proof.Machine.execStageDataDone s
  | .stageVerifyDone o => Sys2Proof.Machine.execStageVerifyDone o s
  | .activateCopyDone ok => Sys2Proof.Machine.execActivateCopyDone ok s
  | .pfReset => Sys2Proof.Machine.execPfReset s
  | .vfFlr fn => Sys2Proof.Machine.execVfFlr fn s
  | .arpRequestRx port target sender => Sys2Proof.Machine.execArpRequestRx port target sender s
  | .icmpEchoRx port dst src payload => Sys2Proof.Machine.execIcmpEchoRx port dst src payload s
  | .arpRetry port ip => Sys2Proof.Machine.execArpRetry port ip s
  | .tileReqDense r => Sys2Proof.Machine.execTileReqDense r s
  | .tileReqDirectory r => Sys2Proof.Machine.execTileReqDirectory r s
  | .tileReqLandmark r => Sys2Proof.Machine.execTileReqLandmark r s
  | .poseStreamSend n => Sys2Proof.Machine.execPoseStreamSend n s
  | .poseBatchTimeout n => Sys2Proof.Machine.execPoseBatchTimeout n s
  | .streamHeartbeat n => Sys2Proof.Machine.execStreamHeartbeat n s
  | .linkBringupStep port step x => Sys2Proof.Machine.execLinkBringupStep port step x s
  | .helloRx port id peer part digest dup => Sys2Proof.Machine.execHelloRx port id peer part digest dup s
  | .linkStepLimit port => Sys2Proof.Machine.execLinkStepLimit port s
  | .linkRetrain port => Sys2Proof.Machine.execLinkRetrain port s
  | .heartbeatTx => Sys2Proof.Machine.execHeartbeatTx s
  | .heartbeatRx h reach => Sys2Proof.Machine.execHeartbeatRx h reach s
  | .ramhelControlRx h c => Sys2Proof.Machine.execRamhelControlRx h c s
  | .ramhelTimeRx h dev state corr ppt => Sys2Proof.Machine.execRamhelTimeRx h dev state corr ppt s
  | .ramhelTallyRx h e2e index amount stamp => Sys2Proof.Machine.execRamhelTallyRx h e2e index amount stamp s
  | .ramhelMsgRx h e2e cls m => Sys2Proof.Machine.execRamhelMsgRx h e2e cls m s
  | .ramhelPageRx h e2e cls addr bytes => Sys2Proof.Machine.execRamhelPageRx h e2e cls addr bytes s
  | .ramhelE2eAckRx h cls e2e => Sys2Proof.Machine.execRamhelE2eAckRx h cls e2e s
  | .linkRetryTimeout port => Sys2Proof.Machine.execLinkRetryTimeout port s
  | .timeTx => Sys2Proof.Machine.execTimeTx s
  | .linkSilence port => Sys2Proof.Machine.execLinkSilence port s
  | .memberUnreachable id => Sys2Proof.Machine.execMemberUnreachable id s
  | .masterTakeover => Sys2Proof.Machine.execMasterTakeover s
  | .memberIsolated => Sys2Proof.Machine.execMemberIsolated s
  | .timeFrameLoss => Sys2Proof.Machine.execTimeFrameLoss s
  | .resyncDone id => Sys2Proof.Machine.execResyncDone id s
  | .laserInputLow port input dbm => Sys2Proof.Machine.execLaserInputLow port input dbm s
  | .handoverLoadDone ok => Sys2Proof.Machine.execHandoverLoadDone ok s
  | .standbyBootDone => Sys2Proof.Machine.execStandbyBootDone s
  | .handoverTake => Sys2Proof.Machine.execHandoverTake s
  | .coreReloadDone core pass => Sys2Proof.Machine.execCoreReloadDone core pass s
  | .groupUnitReload cls => Sys2Proof.Machine.execGroupUnitReload cls s
  | .rolloutLimit => Sys2Proof.Machine.execRolloutLimit s
  | .jtagPrivateInstruction => Sys2Proof.Machine.execJtagPrivateInstruction s
  | .ppsInputLost => Sys2Proof.Machine.execPpsInputLost s
  | .csi2LaneSyncLoss port lane => Sys2Proof.Machine.execCsi2LaneSyncLoss port lane s
  | .canBusError ctl tx dominant kind => Sys2Proof.Machine.execCanBusError ctl tx dominant kind s
  | .ddrRetrainDone ch => Sys2Proof.Machine.execDdrRetrainDone ch s
  | .cellarResetDone => Sys2Proof.Machine.execCellarResetDone s
  | .arpReplyRx port ip mac => Sys2Proof.Machine.execArpReplyRx port ip mac s
  | .uncorrectableCodeword port => Sys2Proof.Machine.execUncorrectableCodeword port s
  | .pciePowerStateChange fn d3 => Sys2Proof.Machine.execPciePowerStateChange fn d3 s

end Sys2Proof.Machine
end

