-- ==== Sys2Proof/WellFormed.lean ====
section
/-!
DEFINITION. Which commands are well formed: the unit, function, slot, address or code a command names is one the manual gives the part.
A command that is not well formed never reaches a part; the meanings are total on it all the same.
-/

namespace Sys2Proof

/-- Whether what a command names exists on the part (the counts of the register tables, Tables 13-3, 14-3 and 14-4). -/
def Instr.wf (i : Instr) : Bool :=
  match i with
  | .supplyRamp rail => decide (rail < 10)
  | .pwrgdAssert => true
  | .sysResetRelease strap _ => decide (strap < 4)
  | .sysResetAssert _ => true
  | .pwrgdFall => true
  | .supplyLoss _ => true
  | .perstN => true
  | .selfRestart _ => true
  | .tempSensorRead sensor _ => decide (sensor < 24)
  | .thermtrip sensor _ => decide (sensor < 24)
  | .avsUpdate _ => true
  | .avsTelemetry _ _ _ _ _ _ => true
  | .smbReadBootStatus _ => true
  | .smbReadComputeTemp _ => true
  | .smbReadHopperTemp _ => true
  | .smbReadPkgPower _ => true
  | .smbReadPwrStatus _ => true
  | .smbReadPart _ => true
  | .smbUnknownCommand code _ => decide (code < 256)
  | .startStepDone step _ => decide (1 ≤ step) && decide (step ≤ 7)
  | .startStepLimit step => decide (1 ≤ step) && decide (step ≤ 7)
  | .ptpWaitExpire => true
  | .sensorCheckExpire sensor => decide (sensor < 50)
  | .trainingCacheWrite => true
  | .trialConfirm => true
  | .cellarBringupDone _ => true
  | .deviceTimeTick => true
  | .ptpAnnounceRx n port _ => decide (n < 2) && decide (port < 4)
  | .ptpSyncRx n port _ _ => decide (n < 2) && decide (port < 4)
  | .ptpFollowUpRx n port _ => decide (n < 2) && decide (port < 4)
  | .ptpDelayRespRx n _ _ => decide (n < 2)
  | .ptpDelayReqTx n => decide (n < 2)
  | .ptpPdelayReqRx port _ => decide (port < 4)
  | .ptpPdelayRespRx n _ _ _ => decide (n < 2)
  | .ptpManagementGet port _ => decide (port < 4)
  | .ptpManagementSet port _ => decide (port < 4)
  | .ptpManagementCommand port _ => decide (port < 4)
  | .announceReceiptTimeout n port => decide (n < 2) && decide (port < 4)
  | .selectionEval => true
  | .holdErrUpdate => true
  | .holdoverLimitExpire => true
  | .ppsEdge _ _ => true
  | .ref10mEdge _ _ => true
  | .exposureTriggerEdge n => decide (n < 32)
  | .conversionStrobeEdge n => decide (n < 8)
  | .controlCycleEdge n => decide (n < 8)
  | .captureEdge n start stop _ => decide (n < 16) && decide (start ≤ stop)
  | .slipHoldExpire n => decide (n < 50)
  | .heldClear n => decide (n < 50)
  | .csi2FrameStart port vc ecc => decide (port < 16) && decide (vc < 16) && decide (ecc < 3)
  | .csi2FrameEnd port vc ecc => decide (port < 16) && decide (vc < 16) && decide (ecc < 3)
  | .csi2LongPacket port vc dt ecc _ _ => decide (port < 16) && decide (vc < 16) && decide (dt < 64) && decide (ecc < 3)
  | .csi2IgnoredPacket port vc dt ecc => decide (port < 16) && decide (vc < 16) && decide (dt < 64) && decide (ecc < 3)
  | .bandSlotFree n => decide (n < 32)
  | .st2110PacketRx p => decide (p.port < 4)
  | .frameTimeout n => decide (n < 32)
  | .spiDataReady p => decide (p < 8)
  | .spiWaitExpire p => decide (p < 8)
  | .spiTransactionDone p _ => decide (p < 8)
  | .imuIdentityRead p _ => decide (p < 8)
  | .ssiReadDone p _ _ _ _ => decide (p < 8)
  | .quadTransition q _ _ _ => decide (q < 8)
  | .quadSample q => decide (q < 8)
  | .canFrameRx ctl ext _ id _ data => decide (ctl < 2) && decide (id < (if ext then 2 ^ 29 else 2 ^ 11)) && decide (data.length ≤ 64)
  | .canTxDone ctl => decide (ctl < 2)
  | .canBusoffRecover ctl => decide (ctl < 2)
  | .channelTimeout c => decide (c < 88)
  | .channelAbsentInstant c => decide (c < 88)
  | .tallyAdvance src tally amount _ _ _ _ => decide (src < 32) && decide (tally < 65536) && decide (1 ≤ amount) && decide (amount < 2 ^ 32)
  | .taskLimitExpire _ _ cls _ => decide (cls < 15)
  | .unitFault cls _ _ => decide (cls < 15)
  | .taskFailed _ _ cause => decide (2 ≤ cause) && decide (cause ≤ 4)
  | .waitLimitExpire _ _ => true
  | .hostTallyAdvance index amount => decide (index < 65536) && decide (amount < 65536)
  | .hostWaitArm slot index => decide (slot < 64) && decide (index < 65536)
  | .hostWaitDisarm slot index => decide (slot < 64) && decide (index < 65536)
  | .spareVisit cls _ _ _ => decide (cls < 15)
  | .selfTestDone cls _ _ => decide (cls < 15)
  | .unitSwap cls _ => decide (cls < 15)
  | .retest cls _ _ => decide (cls < 15)
  | .visitWaitWarning cls _ => decide (cls < 15)
  | .calibPost n => decide (n < 32)
  | .cooperLoadEval _ _ _ => true
  | .firmwareWatchdog core => decide (core < 4)
  | .eventFoldFlush _ _ _ => true
  | .millBandDone n _ lane => decide (n < 32) && decide (lane < 4)
  | .sgmBandDone p _ => decide (p < 16)
  | .flowLevelDone f level => decide (f < 16) && decide (level < 8)
  | .pathSpaceFreed n => decide (n < 32)
  | .networkBandDone i _ _ _ => decide (i < 64)
  | .networkDeadline i _ => decide (i < 64)
  | .weightsStaged net _ cluster => decide (net < 16) && decide (cluster < 8)
  | .migrationPass _ => true
  | .pageMigrateSwitch page => decide (page < 2 ^ 32)
  | .demandFillDone page _ => decide (page < 2 ^ 32)
  | .scrubStep _ _ addr _ => decide (addr < 2 ^ 48)
  | .correctedError _ _ _ addr => decide (addr < 2 ^ 48)
  | .channelDrainDone ch => decide (ch < 4)
  | .uncorrectableError _ _ _ addr _ => decide (addr < 2 ^ 48)
  | .phyLockLoss ch => decide (ch < 4)
  | .retrainTimeout ch => decide (ch < 4)
  | .refillDone page _ => decide (page < 2 ^ 32)
  | .addressFault addr _ => decide (addr < 2 ^ 48)
  | .ddrDqsTrack ch _ => decide (ch < 4)
  | .ddrZqCal ch => decide (ch < 4)
  | .ddrMr4Read ch _ => decide (ch < 4)
  | .nvmeCompletion op _ _ _ _ => decide (op < 10)
  | .nvmeTimeout op _ _ => decide (op < 10)
  | .cellarCheckpoint => true
  | .cellarWriteback page => decide (page < 2 ^ 32)
  | .visionStep n => decide (n < 32)
  | .propagatedRecord n => decide (n < 32)
  | .foldIn n kind _ _ => decide (n < 32) && decide (kind < 4)
  | .initTimeout n => decide (n < 32)
  | .coastExpire n => decide (n < 32)
  | .relocQueryPost n => decide (n < 32)
  | .kettleIterationDone p _ _ => decide (p < 64)
  | .solveDeadline p _ => decide (p < 64)
  | .solveComplete p => decide (p < 64)
  | .bodySolveDone p => decide (p < 64)
  | .posegraphPost p => decide (p < 64)
  | .viewPassDeadline v => decide (v < 16)
  | .kilnBinningDone u => decide (u < 2)
  | .kilnCompositingDone u => decide (u < 2)
  | .kilnBackwardDone u => decide (u < 2)
  | .kilnCommit m => decide (m < 8)
  | .refineJobDone m => decide (m < 8)
  | .activeSetUpdate m => decide (m < 8)
  | .blockLoadDone m _ => decide (m < 8)
  | .blockEvict m => decide (m < 8)
  | .kilnRelocDone => true
  | .nodeReadReturn _ node => decide (node < 2 ^ 28)
  | .caskQueryDeadline _ => true
  | .caskQueryDone _ => true
  | .caskInsert q => decide (q < 16)
  | .caskDelete q => decide (q < 16)
  | .caskReplace q => decide (q < 16)
  | .caskCompactNode i => decide (i < 16)
  | .shardAnswerRx _ _ => true
  | .shardMergeTimeout _ => true
  | .regWrite addr v => addr % 4 == 0 && decide (addr < 0x2000000) && decide (v < 2 ^ 32)
  | .eventBitsClear addr v same => addr % 4 == 0 && decide (addr < 0x2000000) && decide (v < 2 ^ 32) && decide (same < 2 ^ 32)
  | .blRegisterWrite addr v => addr % 4 == 0 && decide (addr < 0x2000000) && decide (v < 2 ^ 32)
  | .reg64LoWrite addr v => addr % 4 == 0 && decide (addr < 0x2000000) && decide (v < 2 ^ 32)
  | .reg64HiWrite addr v => addr % 4 == 0 && decide (addr < 0x2000000) && decide (v < 2 ^ 32)
  | .reg64LoRead addr => addr % 4 == 0 && decide (addr < 0x2000000)
  | .timeNowCapture fn => decide (fn < 16)
  | .bar0BadAccess _ addr len _ => decide (addr < 0x2000000) && !(addr % 4 == 0 && len == 4)
  | .msixTableWrite fn off v => decide (1 ≤ fn) && decide (fn ≤ 15) && decide (off < 16) && off % 4 == 0 && decide (v < 2 ^ 32)
  | .hstRingRdWrite n seq => decide (n < 64) && decide (seq < 2 ^ 64)
  | .ringRecordCopy kind _ => decide (kind < 256)
  | .ringIrqTimer n => decide (n < 64)
  | .holdRelease => true
  | .slotRequestWrite fn n off bytes => decide (fn < 16) && decide (n < 64) && decide (off + bytes.length ≤ 512)
  | .slotPost fn n => decide (fn < 16) && decide (n < 64)
  | .slotRelease fn n => decide (fn < 16) && decide (n < 64)
  | .bar4Read fn _ _ => decide (fn < 16)
  | .bar4Slow fn _ => decide (fn < 16)
  | .mbxStatus tag => decide (tag < 256)
  | .mbxAttest tag => decide (tag < 256)
  | .mbxSessionStart tag => decide (tag < 256)
  | .mbxSessionStop tag => decide (tag < 256)
  | .mbxSelftest tag => decide (tag < 256)
  | .mbxStageBegin tag => decide (tag < 256)
  | .mbxStageData tag _ => decide (tag < 256)
  | .mbxStageEnd tag => decide (tag < 256)
  | .mbxStageAbort tag => decide (tag < 256)
  | .mbxActivate tag => decide (tag < 256)
  | .mbxBadCommand tag => decide (tag < 256)
  | .mbxDmaTimeout => true
  | .stageEraseDone => true
  | .stageDataDone => true
  | .stageVerifyDone _ => true
  | .activateCopyDone _ => true
  | .pfReset => true
  | .vfFlr fn => decide (1 ≤ fn) && decide (fn ≤ 15)
  | .arpRequestRx port target _ => decide (port < 4) && decide (target < 2 ^ 32)
  | .icmpEchoRx port _ _ _ => decide (port < 4)
  | .arpRetry port _ => decide (port < 4)
  | .tileReqDense r => decide (r.port < 4)
  | .tileReqDirectory r => decide (r.port < 4)
  | .tileReqLandmark r => decide (r.port < 4)
  | .poseStreamSend n => decide (n < 32)
  | .poseBatchTimeout n => decide (n < 32)
  | .streamHeartbeat n => decide (n < 32)
  | .linkBringupStep port step _ => decide (port < 2) && decide (1 ≤ step) && decide (step ≤ 7)
  | .helloRx port _ _ _ _ _ => decide (port < 2)
  | .linkStepLimit port => decide (port < 2)
  | .linkRetrain port => decide (port < 2)
  | .heartbeatTx => true
  | .heartbeatRx h _ => decide (h.port < 2)
  | .ramhelControlRx h _ => decide (h.port < 2)
  | .ramhelTimeRx h _ _ _ _ => decide (h.port < 2)
  | .ramhelTallyRx h _ _ _ _ => decide (h.port < 2)
  | .ramhelMsgRx h _ _ _ => decide (h.port < 2)
  | .ramhelPageRx h _ _ _ _ => decide (h.port < 2)
  | .ramhelE2eAckRx h _ _ => decide (h.port < 2)
  | .linkRetryTimeout port => decide (port < 2)
  | .timeTx => true
  | .linkSilence port => decide (port < 2)
  | .memberUnreachable id => decide (id < 16)
  | .masterTakeover => true
  | .memberIsolated => true
  | .timeFrameLoss => true
  | .resyncDone id => decide (id < 16)
  | .laserInputLow port input _ => decide (port < 2) && decide (input < 2)
  | .handoverLoadDone _ => true
  | .standbyBootDone => true
  | .handoverTake => true
  | .coreReloadDone core _ => decide (core < 4)
  | .groupUnitReload cls => decide (cls < 15)
  | .rolloutLimit => true
  | .jtagPrivateInstruction => true
  | .ppsInputLost => true
  | .csi2LaneSyncLoss port _ => decide (port < 16)
  | .canBusError ctl _ _ kind => decide (ctl < 2) && decide (kind < 3)
  | .ddrRetrainDone ch => decide (ch < 4)
  | .cellarResetDone => true
  | .arpReplyRx port _ mac => decide (port < 4) && decide (mac < 2 ^ 48)
  | .uncorrectableCodeword port => decide (port < 2)
  | .pciePowerStateChange fn _ => decide (fn < 16)

end Sys2Proof
end

