-- ==== Sys2Proof/Safety.lean ====
section
/-!
DEFINITION. What counts as safe, in the terms the claims use: the invariants of the machine and the one-way order of its fuses.
-/

namespace Sys2Proof.Safety
open Sys2Proof Sys2Proof.Machine

/-- The fuses of one root key slot are consistent: a programmed slot is used, only a programmed one is revoked, by its revocation's own
field (R438, R439, R54). -/
def keyWf (k : KeySlot) : Bool := (!k.programmed || k.used) && (!k.revoked || k.programmed) && (!k.revUsed || k.programmed)
  && (!k.revoked || k.revUsed)

/-- The OTP is within the limits of Table 2-11: four root key slots, 96 increments, the debug lock blown by its own field, at most eight
cascade entries and 32 retirement entries. -/
def otpWf (o : Otp) : Bool :=
  decide (o.keys.length = 4) && o.keys.all keyWf && decide (o.cascade.length ≤ 8) && decide (o.retire.length ≤ 32)
    && decide (o.svc + o.svcLost ≤ 96) && (!o.debugLock || o.lockUsed)

/-- A key slot's fuses only ever go one way, and a used slot's digest stays (R53, R54). -/
def keyLe (a b : KeySlot) : Prop :=
  (a.used = true → b.used = true ∧ b.digest = a.digest) ∧ (a.programmed = true → b.programmed = true)
    ∧ (a.revoked = true → b.revoked = true) ∧ (a.revUsed = true → b.revUsed = true)

/-- OTP `b` can follow OTP `a`: what Glonaro programmed stays, the security version counter does not fall, the debug lock stays blown, and
the entries programmed so far stay in their places (R53, R54, Table 2-11). -/
def otpLe (a b : Otp) : Prop :=
  b.part = a.part ∧ b.grade = a.grade ∧ b.stepping = a.stepping ∧ b.serial = a.serial ∧ b.avsFuse = a.avsFuse ∧ b.cert = a.cert
    ∧ b.idDigest = a.idDigest ∧ a.svc ≤ b.svc ∧ a.svcLost ≤ b.svcLost ∧ (a.debugLock = true → b.debugLock = true)
    ∧ (a.lockUsed = true → b.lockUsed = true)
    ∧ (∀ n : Nat, n < 4 → keyLe (nth {} a.keys n) (nth {} b.keys n)) ∧ a.cascade <+: b.cascade ∧ a.retire <+: b.retire

/-- The invariant of the machine: memory is in its canonical form, the OTP within its limits. -/
def Inv (s : State) : Prop := Memory.wf s.mem = true ∧ otpWf s.otp = true

/-- A state whose queue holds only well-formed commands. -/
def queueWf (s : State) : Bool := s.pending.all Instr.wf

/-- Every byte of the unified map range outside an interval reads in `t` as in `s`. -/
def sameOutside (a n : Nat) (s t : State) : Prop := ∀ x : Nat, x < a ∨ a + n ≤ x → t.rd x = s.rd x

/-! ## Frames -/

/-- The registers in which events show: the _EVT registers (Table 14-3), DSP_EVT_HEAD and DSP_EVT_SHED. -/
def logRegs : List Nat :=
  [R.BOOT_EVT, R.TIME_EVT, R.ING_EVT, R.SPG_EVT, R.MILL_EVT, R.TNS_EVT, R.MEM_EVT, R.FRM_EVT, R.KTL_EVT, R.KLN_EVT, R.CSK_EVT, R.DSP_EVT,
   R.HST_EVT, R.LNK_EVT, R.SEC_EVT, R.PWR_EVT, R.DSP_EVT_HEAD_LO, R.DSP_EVT_HEAD_HI, R.DSP_EVT_SHED].map (fun r => r.addr 0 0)

/-- From `s` to `t` nothing has changed but registers at addresses of `l`, and what goes with events and interrupts: the registers of
`logRegs`, the log with its number and its folding seconds, MSI-X pending bits, interrupt messages sent, and the model's own count of
free values taken. -/
structure Touches (l : List Nat) (s t : State) : Prop where
  same : t = { s with regs := t.regs, log := t.log, out := t.out, free := t.free,
                      dsp := { s.dsp with evtSeq := t.dsp.evtSeq, folds := t.dsp.folds }, hst := { s.hst with pba := t.hst.pba } }
  regs : ∀ (r : Reg) (i j : Nat), r.addr i j ∉ l → r.addr i j ∉ logRegs → t.word r i j = s.word r i j
  out : ∃ l : List Out, t.out = l ++ s.out ∧ ∀ o ∈ l, ∃ fn vec : Nat, o = .irq fn vec

end Sys2Proof.Safety
end

