-- ==== Sys2Proof/Certificates/Slice0/Obligations.lean ====
section
/-!
DEFINITION. The statements for the provers.
-/

open Sys2Proof Sys2Proof.Machine Sys2Proof.Safety

/-- A step runs the command at the front of the queue with the queue's rest (the queue is the model's own, log entry 9). -/
def Obligations.StepRunsFront : Prop :=
  ∀ (c : Instr) (q : List Instr) (s : State), step { s with pending := c :: q } = exec c { s with pending := q }

/-- R30: the copy written is the one not in force; it is in force once written, unless its 32-bit sequence number wraps. -/
def Obligations.DirectoryWrites : Prop :=
  ∀ (fl : Flash) (a b : SlotDir) (st : Nat),
    (fl.dir.seq + 1 < 2 ^ 32 →
        (fl.writeDir a b st).dir = { erased := false, crcOk := true, seq := fl.dir.seq + 1, a := a, b := b, staging := st })
    ∧ (fl.useCopy0 = true → (fl.writeDir a b st).dir0 = fl.dir0
        ∧ ({ fl.writeDir a b st with dir1 := { (fl.writeDir a b st).dir1 with crcOk := false } } : Flash).dir = fl.dir)
    ∧ (fl.useCopy0 = false → (fl.writeDir a b st).dir1 = fl.dir1
        ∧ (fl.dir1.usable = true → ({ fl.writeDir a b st with dir0 := { (fl.writeDir a b st).dir0 with crcOk := false } } : Flash).dir = fl.dir))

/-- R40, R42, R44, R45, Tables 2-7 and 2-13. -/
def Obligations.StartSteps : Prop :=
  ∀ (s : State) (x : StepFind), s.pw.mode = .starting →
    (∀ n : Nat, n ≠ s.f F.BOOT_STATUS_STAGE + 1 → exec (.startStepDone n x) s = .next s ∧ exec (.startStepLimit n) s = .next s)
    ∧ (s.f F.BOOT_STATUS_STAGE = 0 → exec (.startStepDone 1 x) s
        = .next (((s.setF F.BOOT_TIME_MS (s.mono / 1000000) 0).setF F.BOOT_STATUS_STAGE 1).event 0x1 0 1))
    ∧ (s.f F.BOOT_STATUS_STAGE = 2 → s.fl.train0.erased = true → s.fl.train1.erased = true →
        (∀ c < 4, bitOf (s.f F.MEM_DDR_CFG_CH_MASK) c = true → bitOf x.trainBad c = true) → (∀ c < 4, s.f F.MEM_CH_STATE_STATE c = 0) →
        ∃ t : State, exec (.startStepDone 3 x) s = .next t ∧ t.pw.mode = .halted ∧ t.f F.BOOT_STATUS_ERROR = 0x0B)
    ∧ (s.f F.BOOT_STATUS_STAGE = 4 → s.bt.waitOver = true → (∀ n ∈ s.sensors, s.sensorPassed n = true ∨ n ∈ s.bt.sensorsFailed) →
        ∃ t : State, exec (.startStepDone 5 x) s = .next t ∧ t.f F.BOOT_STATUS_STAGE = 5 ∧ t.f F.BOOT_TIME_MS 4 = s.mono / 1000000 % 2 ^ 32
          ∧ t.pw = s.pw ∧ t.bt = s.bt)
    ∧ (s.f F.BOOT_STATUS_STAGE = 5 → ∃ t : State, exec (.startStepDone 6 x) s = .next t ∧ t.f F.BOOT_STATUS_STAGE = 6
          ∧ t.f F.BOOT_TIME_MS 5 = s.mono / 1000000 % 2 ^ 32 ∧ t.pw = s.pw)
    ∧ (s.f F.BOOT_STATUS_STAGE = 6 → s.allPosed = true → exec (.startStepDone 7 x) s
        = .next { (s.setF F.BOOT_TIME_MS (s.mono / 1000000) 6).setF F.BOOT_STATUS_RUNNING 1 with
                    pw := { s.pw with mode := .running }
                    bt := { s.bt with seqs := (List.range 32).map (fun n => s.pair R.FRM_SES_SEQ_LO R.FRM_SES_SEQ_HI n), gap := none } })
    ∧ ∀ n : Nat, n = s.f F.BOOT_STATUS_STAGE + 1 → ∃ t : State, exec (.startStepLimit n) s = .next t
        ∧ (t.pw.mode = .starting ∨ t.pw.mode = .recovery) ∧ t.f F.PWR_RESET_CAUSE_CAUSE = 2

/-- R37, R42, R45, R440. Which code the WARNING carries the spec does not say (log entry 23). -/
def Obligations.AfterTheStart : Prop :=
  ∀ s : State,
    (s.up = true → s.f F.BOOT_STATUS_STAGE = 4 → s.bt.waitOver = true → ∀ n ∈ s.sensors, s.sensorPassed n = false → n ∉ s.bt.sensorsFailed →
      ∃ t : State, exec (.sensorCheckExpire n) s = .next t ∧ Touches [] { s with bt := { s.bt with sensorsFailed := n :: s.bt.sensorsFailed } } t)
    ∧ (s.pw.mode = .running → ∀ jt : Int, s.bt.trained = some jt → ∃ (t : State) (c : TrainCopy), exec .trainingCacheWrite s = .next t
        ∧ c.erased = false ∧ c.crcOk = true ∧ c.device = s.otp.idDigest ∧ c.cfg = s.ddrDigest ∧ c.jt = jt
        ∧ (t.fl = { s.fl with train0 := c } ∨ t.fl = { s.fl with train1 := c })
        ∧ (s.fl.train0.erased = false → s.fl.train0.crcOk = true → s.fl.train1.erased = false → s.fl.train1.crcOk = true →
            (s.fl.train0.seq < s.fl.train1.seq → t.fl = { s.fl with train0 := c } ∧ c.seq = s.fl.train1.seq + 1)
            ∧ (s.fl.train1.seq < s.fl.train0.seq → t.fl = { s.fl with train1 := c } ∧ c.seq = s.fl.train0.seq + 1))
        ∧ Touches [] { s with fl := t.fl, bt := { s.bt with trained := none } } t)
    ∧ (s.pw.mode = .running → ∀ b : Bool, s.bt.slot = some b → (s.fl.slotDir b).state = 2 → s.bt.wdSeen = false → s.allPosing = true →
        s.fl.dir.seq + 1 < 2 ^ 32 →
        ∃ t : State, exec .trialConfirm s = .next t ∧ (t.fl.slotDir b).state = 3 ∧ (t.fl.slotDir b).trials = (s.fl.slotDir b).trials
          ∧ t.fl.slotDir (!b) = s.fl.slotDir (!b) ∧ t.fl.slotA = s.fl.slotA ∧ t.fl.slotB = s.fl.slotB
          ∧ t.otp = { s.otp with svc := Nat.max s.otp.svc (Nat.min (96 - s.otp.svcLost) s.bt.img.secver) } ∧ t.mem = s.mem ∧ t.pw = s.pw)

/-- R57, R69, with a carry below 2⁻¹⁶ ns kept in parts of 10⁻¹² (the spec names no residue: DESIGN CHOICE of log entry 38). -/
def Obligations.DeviceTimeTick : Prop :=
  ∀ s : State, s.up = true → -500000000 ≤ s.fs F.TIME_RATE_PPT → s.fs F.TIME_RATE_PPT ≤ 500000000 →
    ∃ (t : State) (st : Int), exec .deviceTimeTick s = .next t
      ∧ st = (if s.f F.LNK_STATUS_ROLE ≤ 1 ∧ s.tm.selected ≠ none ∧ (s.dom 0).locked = false ∧ (s.dom 1).locked = false then 0
          else max (-(131072 * 200000000)) (min (131072 * 200000000) s.tm.slew))
      ∧ (t.tm.dev * 1000000000000 + t.tm.rem : Int)
          = s.tm.dev * 1000000000000 + s.tm.rem + 131072 * 1000000000000 + 131072 * s.fs F.TIME_RATE_PPT + st
      ∧ t.tm.rem < 1000000000000 ∧ s.tm.dev < t.tm.dev
      ∧ t.tm = { s.tm with dev := t.tm.dev, rem := t.tm.rem, slew := s.tm.slew - st, tick := s.tm.tick + 1 }
      ∧ Touches [R.TIME_SLEW_REMAIN.addr 0 0] { s with tm := t.tm } t

/-- R57, R58, R65, R69: the state after an offset of `off` with the servo's estimate `est`, both in units of 2⁻¹⁶ ns, and rate `ppt`. -/
def Sys2Proof.Safety.offsetTaken (s t : State) (n : Nat) (off est ppt : Int) : Prop :=
  let conv := if (off - est).natAbs < 1000 * 65536 then (s.dom n).conv + 1 else 0
  let dvg := if 10000 * 65536 < (off - est).natAbs then (s.dom n).dvg + 1 else 0
  t.pair R.TIME_D_OFFSET_LO R.TIME_D_OFFSET_HI n = uns 64 (off.tdiv 65536) ∧ (t.dom n).off = off ∧ (t.dom n).est = est ∧ (t.dom n).qualified = (s.dom n).qualified
    ∧ (t.dom n).locked = (if (s.dom n).locked then decide (dvg < 4) else (s.dom n).qualified && decide (4 ≤ conv))
    ∧ (s.tm.selected = some n → (t.dom 0).locked = true ∨ (t.dom 1).locked = true → t.fs F.TIME_RATE_PPT = max (-500000000) (min 500000000 ppt))
    ∧ (s.tm.selected ≠ some n ∨ ((t.dom 0).locked = false ∧ (t.dom 1).locked = false) → t.fs F.TIME_RATE_PPT = s.fs F.TIME_RATE_PPT)
    ∧ t.tm.dev = s.tm.dev ∧ t.tm.slew = s.tm.slew ∧ t.tm.selected = s.tm.selected ∧ t.mem = s.mem ∧ t.tally = s.tally

/-- A PTP message as it leaves a port (R62, R64): its kind 1 Delay_Req, 2 Pdelay_Req, 3 Pdelay_Resp, 4 an answer, 5 a refusal; over UDP with
checksum 0 unless its profile is 802.1AS; its transmit time in eighths of a nanosecond. -/
def Sys2Proof.Safety.ptpSent (s : State) (port kind seq : Nat) (as unicast : Bool) : Out :=
  .ptp { port := port, kind := kind, seq := seq, time := (s.tm.dev / 8192 : Nat) + Config.phyEgress port, udp := !as,
         sum := if as then none else some 0, unicast := unicast }

/-- A mean path delay of `d`, in units of 2⁻¹⁶ ns, in force and shown. -/
def Sys2Proof.Safety.withMpd (s : State) (n : Nat) (d : Int) : State :=
  (s.setDom n { s.dom n with mpd := d }).setFs F.TIME_D_MPD_NS (d.tdiv 65536) n

/-- R62, R63, R64 and Table 3-2. R57, R58, R65. -/
def Obligations.PtpMessages : Prop :=
  (∀ (s : State) (n port seq : Nat), s.up = true →
    (s.domOn n (s.dom n).port = true →
      exec (.ptpDelayReqTx n) s = .next ((s.setDom n { s.dom n with
              t3 := ((s.tm.dev / 8192 : Nat) + Config.phyEgress (s.dom n).port) * 8192, reqSeq := ((s.dom n).reqSeq + 1) % 65536 }).emit
          (Safety.ptpSent s (s.dom n).port (if s.f F.TIME_D_CFG_PROFILE n = 2 then 2 else 1) (((s.dom n).reqSeq + 1) % 65536)
            (s.f F.TIME_D_CFG_PROFILE n == 2) (s.fb F.TIME_D_CFG_HYBRID n && s.f F.TIME_D_CFG_PROFILE n != 2)))
      ∧ (seq = (s.dom n).reqSeq → s.f F.TIME_D_CFG_PROFILE n ≠ 2 → ∀ t4 : Int, exec (.ptpDelayRespRx n seq t4) s
          = .next (Safety.withMpd s n ((((s.dom n).t2 - (s.dom n).t1) + (t4 - (s.dom n).t3)) / 2)))
      ∧ (seq = (s.dom n).reqSeq → s.f F.TIME_D_CFG_PROFILE n = 2 → ∀ t4 turn : Int, exec (.ptpPdelayRespRx n seq t4 turn) s
          = .next (Safety.withMpd s n (((t4 - Config.phyIngress (s.dom n).port) * 8192 - (s.dom n).t3 - turn) / 2)))
      ∧ (s.f F.LNK_STATUS_ROLE ≤ 1 → port = (s.dom n).port → ∀ m : SyncMsg, exec (.ptpSyncRx n port true m) s
          = .next (s.setDom n { s.dom n with syncSeq := some (m.seq, (m.rx - Config.phyIngress port) * 8192) })))
    ∧ ((s.domOn 0 port = true ∧ s.f F.TIME_D_CFG_PROFILE 0 = 2) ∨ (s.domOn 1 port = true ∧ s.f F.TIME_D_CFG_PROFILE 1 = 2) →
        exec (.ptpPdelayReqRx port seq) s = .next (({ s with tm := { s.tm with
            reqRx := setNth s.tm.reqRx port (((s.tm.dev / 8192 : Nat) - Config.phyIngress port) * 8192) } } : State).emit
          (Safety.ptpSent s port 3 seq true false)))
    ∧ (∀ as : Bool, as = (if s.domOn 0 port = true then s.f F.TIME_D_CFG_PROFILE 0 == 2 else s.f F.TIME_D_CFG_PROFILE 1 == 2) →
        s.domOn 0 port = true ∨ s.domOn 1 port = true →
        exec (.ptpManagementGet port seq) s = .next (s.emit (Safety.ptpSent s port 4 seq as false))
        ∧ exec (.ptpManagementSet port seq) s = .next (s.emit (Safety.ptpSent s port 5 seq as false))
        ∧ exec (.ptpManagementCommand port seq) s = .next (s.emit (Safety.ptpSent s port 5 seq as false))))
  ∧
  (∀ (s : State) (n : Nat) (m : SyncMsg), s.up = true → s.f F.LNK_STATUS_ROLE ≤ 1 → s.tm.doms.length = 2 →
    s.domOn n (s.dom n).port = true → s.tm.stepOpen = false →
    (∃ t : State, exec (.ptpSyncRx n (s.dom n).port false m) s = .next t
      ∧ Safety.offsetTaken s t n (m.origin * 65536 + m.corr + (s.dom n).mpd - (m.rx - Config.phyIngress (s.dom n).port) * 8192) m.est m.ppt)
    ∧ ∀ rx : Int, (s.dom n).syncSeq = some (m.seq, rx) → ∃ t : State, exec (.ptpFollowUpRx n (s.dom n).port m) s = .next t
      ∧ (t.dom n).syncSeq = none ∧ Safety.offsetTaken s t n (m.origin * 65536 + m.corr + (s.dom n).mpd - rx) m.est m.ppt)

/-- R65, where only one port of the domain hears a master (which data set wins otherwise is IEEE 1588's comparison: PRESUMED, log entry 12). -/
def Obligations.PtpQualification : Prop :=
  ∀ (s : State) (n port : Nat), s.up = true → s.domOn n port = true → s.tm.doms.length = 2 → (s.dom n).ports.length = 4 →
    (∀ q < 4, q ≠ port → (nth {} (s.dom n).ports q).valid = false) →
    (∀ a : Announce, (s.dom n).qualified = false → (s.dom n).locked = false → (s.dom n).conv < 4 → ∃ (t : State) (cnt : Nat), exec (.ptpAnnounceRx n port a) s = .next t
      ∧ (t.dom n).port = port ∧ (t.dom n).gm = a.gm
      ∧ ((nth {} (s.dom n).ports port).valid = true → (nth {} (s.dom n).ports port).gm = a.gm → (s.dom n).gm = a.gm →
          s.mono - (nth {} (s.dom n).ports port).last ≤ 4 * logInterval (s.fs F.TIME_D_CFG_LOG_ANNOUNCE n) →
          cnt = (nth {} (s.dom n).ports port).count + 1)
      ∧ ((nth {} (s.dom n).ports port).valid = false ∨ (nth {} (s.dom n).ports port).gm ≠ a.gm ∨ (s.dom n).gm ≠ a.gm → cnt = 1)
      ∧ (t.dom n).qualified = (decide (2 ≤ cnt) && a.ptpScale && decide (a.cls ≤ s.f F.TIME_D_QUAL_CLASS_MAX n))
      ∧ (t.dom n).locked = false ∧ t.tm.dev = s.tm.dev ∧ t.tm.slew = s.tm.slew ∧ t.tm.selected = s.tm.selected)
    ∧ (∀ a : Announce, (s.dom n).qualified = false → (s.dom n).locked = false → 4 ≤ (s.dom n).conv → s.f F.LNK_STATUS_ROLE ≤ 1 → s.tm.stepOpen = false →
        (nth {} (s.dom n).ports port).valid = true → (nth {} (s.dom n).ports port).gm = a.gm → (s.dom n).gm = a.gm →
        1 ≤ (nth {} (s.dom n).ports port).count → s.mono - (nth {} (s.dom n).ports port).last ≤ 4 * logInterval (s.fs F.TIME_D_CFG_LOG_ANNOUNCE n) →
        a.ptpScale = true → a.cls ≤ s.f F.TIME_D_QUAL_CLASS_MAX n → ∃ t : State, exec (.ptpAnnounceRx n port a) s = .next t
          ∧ (t.dom n).qualified = true ∧ (t.dom n).locked = true ∧ t.tm.dev = s.tm.dev)
    ∧ ((s.dom n).port = port → ∃ t : State, exec (.announceReceiptTimeout n port) s = .next t
      ∧ (t.dom n).qualified = false ∧ (t.dom n).locked = false ∧ (nth {} (t.dom n).ports port).valid = false
      ∧ t.tm.dev = s.tm.dev ∧ t.tm.selected = s.tm.selected)

/-- R61, R66, R69, R70, Table 3-1. -/
def Obligations.SelectionAndHoldOver : Prop :=
  ∀ s : State, s.up = true →
    (s.f F.LNK_STATUS_ROLE ≤ 1 → s.tm.selected = none → (s.dom 0).locked = true → ∃ t : State, exec .selectionEval s = .next t
      ∧ t.tm.selected = some 0 ∧ t.tm.doms = s.tm.doms ∧ t.tm.dev = s.tm.dev ∧ t.f F.TIME_STATUS_SELECTED = 0
      ∧ t.tm.slew = (if (s.domOffset 0).natAbs ≤ 10000000 then slewOf (s.domOffset 0) else 0)
      ∧ t.f F.TIME_STATUS_STATE = (if (s.domOffset 0).natAbs < 1000 then 2 else 3))
    ∧ (s.f F.LNK_STATUS_ROLE ≤ 1 → s.tm.selected = some 0 → (s.dom 0).locked = false → (s.dom 1).locked = false →
        ∃ t : State, exec .selectionEval s = .next t ∧ t.tm.selected = none ∧ t.tm.slew = 0 ∧ t.fs F.TIME_SLEW_REMAIN_NS = 0
          ∧ t.tm.dev = s.tm.dev ∧ t.fs F.TIME_RATE_PPT = s.fs F.TIME_RATE_PPT ∧ t.f F.TIME_STATUS_STATE = (if s.tm.everLocked then 1 else 0))
    ∧ (2 ≤ s.f F.TIME_STATUS_STATE → ∃ t : State, exec .holdErrUpdate s = .next t ∧ t.f F.TIME_HOLD_ERR_NS = 0
        ∧ Touches [R.TIME_HOLD_ERR.addr 0 0] { s with tm := t.tm } t ∧ t.tm.lockedNs = s.tm.lockedNs + 1000000)
    ∧ (s.f F.TIME_STATUS_STATE < 2 → s.tm.everLocked = false → exec .holdErrUpdate s = .next (s.setF F.TIME_HOLD_ERR_NS 0xFFFFFFFF))
    ∧ (s.f F.TIME_STATUS_STATE = 1 → s.fb F.TIME_STATUS_PPS_OK = false ∨ s.fb F.TIME_STATUS_REF10M_OK = false →
        exec .holdoverLimitExpire s = .next ((({ s with tm := { s.tm with limitPassed := true, states := (s.now, 0) :: s.tm.states } } : State).setF F.TIME_STATUS_STATE 0).event 0x2 3))
    ∧ (s.fb F.TIME_STATUS_PPS_OK = false → 3 ≤ s.tm.ppsGood → ∀ m : Nat, s.tm.selected = some m → (s.dom m).locked = true →
        ∀ err off : Int, err.natAbs ≤ 1000 →
        exec (.ppsEdge err off) s = .next ((({ s with tm := { s.tm with ppsGood := s.tm.ppsGood + 1, ppsLearnt := true } } : State).setF F.TIME_STATUS_PPS_OK 1).setFs
          F.TIME_PPS_OFFSET_NS off))
    ∧ (s.fb F.TIME_STATUS_PPS_OK = true → exec .ppsInputLost s
        = .next ((({ s with tm := { s.tm with ppsGood := 0 } } : State).setF F.TIME_STATUS_PPS_OK 0).event 0x2 7 0))
    ∧ (s.fb F.TIME_STATUS_REF10M_OK = false → 3 ≤ s.tm.refGood → s.fb F.TIME_HOLD_CFG_USE_10M = true →
        (∀ m : Nat, (s.dom m).locked = false) → ∀ err ppt : Int, err.natAbs ≤ 1000 → exec (.ref10mEdge err ppt) s
          = .next ((({ s with tm := { s.tm with refGood := s.tm.refGood + 1 } } : State).setF F.TIME_STATUS_REF10M_OK 1).setFs
            F.TIME_RATE_PPT (max (-500000000) (min 500000000 ppt))))

/-- R71, R73–R75, R81. Edge `k` of a schedule lies at PHASE + k × NUM / DEN; in eighths of a nanosecond, ties upward, it is `e8`. -/
def Obligations.TriggersAndCaptures : Prop :=
  ∀ (s : State) (n : Nat), s.up = true →
    (∀ k num den e8 start len : Nat, n < 32 → s.tm.trigOn = true → s.fb F.TIME_TRIG_CTL_ENABLE n = true → k = tget 0 s.tm.trigNext n →
      den = s.f F.TIME_TRIG_DEN_DEN n → num = s.f F.TIME_TRIG_PHASE_NS n * den + k * s.f F.TIME_TRIG_NUM_NUM n →
      e8 = (16 * num + den) / (2 * den) → e8 ≤ s.tm.dev / 8192 → start = num + s.f F.TIME_TRIG_DELAY_NS n * den →
      len = (if s.f F.TIME_TRIG_CTL_WIDTH_EXPOSE n ≠ 0 then s.f F.TIME_TRIG_WIDTH_NS n else s.f F.TIME_TRIG_EXPOSE_NS n) →
      exec (.exposureTriggerEdge n) s
        = .next ((({ s with tm := { s.tm with
              trigNext := tput 0 s.tm.trigNext n (k + 1),
              expos := tput [] s.tm.expos n (tget [] s.tm.expos n
                ++ [{ edge8 := e8, stop := (start + len * den) / den, mid := (2 * start + len * den) / (2 * den) }]) } } : State).addWrap
            F.TIME_TRIG_COUNT_COUNT 1 n).emit (.edge n k)))
    ∧ (n < 16 → s.fb F.TIME_CAP_CTL_ENABLE n = true → ∀ (start stop : Nat) (rising : Bool), s.capWants n rising = true →
        s.f F.TIME_CAP_CTL_FILTER n * 64 ≤ stop - start →
        (16 ≤ (tget [] s.tm.caps n).length → exec (.captureEdge n start stop rising) s
          = .next ((s.addSat F.TIME_CAP_INFO_OVERRUNS 1 n).event 0x2 6 n))
        ∧ ((tget [] s.tm.caps n).length < 16 → ∃ t : State, exec (.captureEdge n start stop rising) s = .next t
          ∧ t.tm = { s.tm with caps := tput [] s.tm.caps n (tget [] s.tm.caps n ++ [({ start := start, stop := stop, rising := rising } : Stamp)]) }
          ∧ t.pair R.TIME_CAP_SEC_LO R.TIME_CAP_SEC_HI n = start / 8 / 1000000000 % 2 ^ 64 ∧ t.f F.TIME_CAP_NS_NS n = start / 8 % 1000000000
          ∧ t.fb F.TIME_CAP_INFO_RISING n = rising
          ∧ Touches [R.TIME_CAP_SEC_LO.addr n 0, R.TIME_CAP_SEC_HI.addr n 0, R.TIME_CAP_NS.addr n 0, R.TIME_CAP_INFO.addr n 0] { s with tm := t.tm } t))
    ∧ ((s.mon n).fell = true → (s.mon n).above = false → exec (.slipHoldExpire n) s
        = .next ((s.setMon n { s.mon n with fell := false }).setF F.TIME_SNS_STATE_SLIP 0 n))
    ∧ (s.fb F.TIME_SNS_STATE_HELD n = true → (s.mon n).within = true → exec (.heldClear n) s = .next (s.setF F.TIME_SNS_STATE_HELD 0 n))
    ∧ (s.f F.BOOT_STATUS_STAGE = 4 → s.tm.trigOn = false → ∃ t : State, exec .ptpWaitExpire s = .next t
        ∧ t.bt = { s.bt with waitOver := true } ∧ t.tm.stepOpen = false ∧ t.tm.trigOn = true ∧ t.tm.dev = s.tm.dev
        ∧ t.regs = s.regs ∧ t.mem = s.mem ∧ t.tally = s.tally ∧ t.out = s.out
        ∧ ∀ m < 48, s.fb F.TIME_TRIG_CTL_ENABLE m = true → s.f F.TIME_TRIG_DEN_DEN m ≠ 0 → s.f F.TIME_TRIG_NUM_NUM m ≠ 0 →
            (s.tm.dev + 1000000 * 65536) * s.f F.TIME_TRIG_DEN_DEN m ≤ s.edgeNum m (tget 0 t.tm.trigNext m) * 65536)

/-- Data has come in on a port. -/
def Sys2Proof.Safety.heard (s : State) (port : Nat) : State :=
  (({ s with ing := { s.ing with hs := tput 0 s.ing.hs port s.mono } } : State).setF F.ING_PORT_STATUS_SYNC
    (2 ^ (s.f F.ING_PORT_CTL_LANES port + 1) - 1) port).setF F.ING_PORT_STATUS_HS_ACTIVE 1 port

/-- Sensor `n` takes packets of a port and virtual channel. -/
def Sys2Proof.Safety.feeds (s : State) (port vc n : Nat) : Prop :=
  n < 32 ∧ s.fb F.ING_SNS_SRC_ENABLE n = true ∧ s.fb F.ING_SNS_SRC_KIND n = false ∧ s.f F.ING_SNS_SRC_SOURCE n = port
    ∧ s.f F.ING_SNS_SRC_VC n = vc

/-- Where and what descriptor a closing frame of sensor `n` writes (Table 4-4). -/
def Sys2Proof.Safety.frameDesc (s : State) (n : Nat) (f : FrameSt) (status bands : Nat) : List Byte :=
  leBytes 4 (s.sns n).nextId ++ leBytes 1 n ++ leBytes 1 status ++ leBytes 2 f.flags
    ++ (leBytes 8 (f.ts / 1000000000) ++ leBytes 4 (f.ts % 1000000000))
    ++ leBytes 2 (s.f F.ING_SNS_GEOM_WIDTH n) ++ leBytes 2 (s.f F.ING_SNS_GEOM_HEIGHT n)
    ++ (leBytes 8 (f.start / 1000000000) ++ leBytes 4 (f.start % 1000000000))
    ++ leBytes 4 f.expo ++ leBytes 8 f.valid ++ leBytes 8 (s.sns n).q ++ leBytes 1 bands
    ++ leBytes 1 (if s.fb F.ING_SNS_FMT_KEEP_C n then 3 else 1) ++ leBytes 2 0 ++ leBytes 4 f.sat

/-- R83, R85, Tables 4-1 and 4-6; that a header with two errors flags every open frame of its port is log entry 16. `ecc` is 0 for a clean
header, 1 for one corrected bit, 2 for two errors. R85, R88, R90, R91, R97, Table 4-4, for a port with one sensor on the virtual channel. -/
def Obligations.CsiTraffic : Prop :=
  (∀ (s : State) (port vc dt : Nat), s.up = true → port < 16 → s.fb F.ING_PORT_CTL_ENABLE port = true →
    (dt = 2 ∨ dt = 3 ∨ (8 ≤ dt ∧ dt ≤ 15) → exec (.csi2IgnoredPacket port vc dt 0) s = .next (Safety.heard s port)
      ∧ exec (.csi2IgnoredPacket port vc dt 1) s = .next (((Safety.heard s port).addSat F.ING_PORT_ECC_CORR 1 port).event 0x3 0 port))
    ∧ ((∀ n, ¬ Safety.feeds s port vc n) → ∀ (ok : Bool) (px : List Px),
        ∀ c ∈ [Instr.csi2FrameStart port vc 0, .csi2FrameEnd port vc 0, .csi2LongPacket port vc dt 0 ok px,
          .csi2IgnoredPacket port vc (if dt < 16 then 16 else dt) 0],
          exec c s = .next ((Safety.heard s port).addSat F.ING_PORT_OTHER_UNMAPPED 1 port))
    ∧ (∀ (ok : Bool) (px : List Px),
        ∀ c ∈ [Instr.csi2FrameStart port vc 2, .csi2FrameEnd port vc 2, .csi2LongPacket port vc dt 2 ok px,
          .csi2IgnoredPacket port vc dt 2],
          ∃ t : State, exec c s = .next t
            ∧ { t with ing := (Safety.heard s port).ing } = (Safety.heard s port).addSat F.ING_PORT_ECC_UNCORR 1 port
            ∧ ∀ (n : Nat) (f : FrameSt), (s.sns n).frame = some f →
                (t.sns n).frame = some (if n < 32 ∧ s.snsPort n = port then { f with flags := f.flags ||| 2 } else f))
    ∧ ∀ lane < 4, exec (.csi2LaneSyncLoss port lane) s
        = .next ((s.setF F.ING_PORT_STATUS_SYNC (clrBit (s.f F.ING_PORT_STATUS_SYNC port) lane) port).event 0x3 1 port))
  ∧
  (∀ (s u : State) (port vc n : Nat), s.up = true → port < 16 → s.fb F.ING_PORT_CTL_ENABLE port = true →
    (∀ m, Safety.feeds s port vc m ↔ m = n) → u = Safety.heard s port →
    ((s.sns n).frame = none → s.sec.defer = [] → 2 ≤ s.f F.ING_SNS_SRC_TIMING n →
        ((∀ x, (s.sns n).lastStart = some x → s.f F.ING_SNS_PERIOD_NS n ≤ 2 * (s.now - x)) →
          ∃ t : State, exec (.csi2FrameStart port vc 0) s = .next t
            ∧ t.ing = { u.ing with sns := tput {} s.ing.sns n { s.sns n with
                frame := some { start := s.now, ts := s.now - s.f F.TIME_SNS_LATENCY_NS n } } }
            ∧ t.mem = s.mem ∧ t.tally = s.tally)
        ∧ (∀ x, (s.sns n).lastStart = some x → 2 * (s.now - x) < s.f F.ING_SNS_PERIOD_NS n →
          exec (.csi2FrameStart port vc 0) s = .next ((u.addSat F.ING_SNS_DISCARD_EARLY 1 n).event 0x3 5 n)))
    ∧ ((s.sns n).frame = none → s.sec.defer = [] → s.f F.ING_SNS_SRC_TIMING n = 0 → tget [] s.tm.expos (s.f F.ING_SNS_SRC_TRIGGER n) = [] →
        exec (.csi2FrameStart port vc 0) s = .next ((u.addSat F.ING_SNS_DISCARD_STALE 1 n).event 0x3 6 n))
    ∧ ((s.sns n).frame = none → ∀ (ok : Bool) (px : List Px), exec (.csi2LongPacket port vc (s.f F.ING_SNS_SRC_DT n) 0 ok px) s
        = .next ((u.addSat F.ING_PORT_CRC_ORPHAN 1 port).event 0x3 7 port))
    ∧ (∀ (f : FrameSt) (ok : Bool) (px : List Px), (s.sns n).frame = some f →
        (s.f F.ING_SNS_GEOM_HEIGHT n ≤ f.taken + f.wait.length → exec (.csi2LongPacket port vc (s.f F.ING_SNS_SRC_DT n) 0 true px) s
          = .next { u with ing := { u.ing with sns := tput {} s.ing.sns n { s.sns n with
              frame := some { f with bad := true, flags := f.flags ||| 4 } } } })
        ∧ (f.taken + 1 < s.f F.ING_SNS_GEOM_HEIGHT n → f.ended = false → f.wait = [] → f.cur ≠ [] → f.cur.length < 63 →
          ∃ (t : State) (f' : FrameSt), exec (.csi2LongPacket port vc (s.f F.ING_SNS_SRC_DT n) 0 ok px) s = .next t
            ∧ t = { (if ok then u else u.addSat F.ING_PORT_CRC_CRC 1 port) with
                    ing := { u.ing with sns := tput {} s.ing.sns n { s.sns n with frame := some f' } } }
            ∧ f' = { f with cur := f.cur ++ [({ px := px, crcBad := !ok } : Line)], taken := f.taken + 1, sat := f'.sat, bad := f'.bad, flags := f'.flags }
            ∧ f'.bad = (f.bad || !ok || decide (px.length ≠ s.f F.ING_SNS_GEOM_WIDTH n))
            ∧ f'.flags = f.flags ||| ((if ok then 0 else 1) + (if px.length = s.f F.ING_SNS_GEOM_WIDTH n then 0 else 8))))
    ∧ ∀ (f : FrameSt) (bands : Nat), (s.sns n).frame = some f → f.bad = false → f.ended = false → f.wait = [] → f.row = [] →
        bands = ceilDiv (s.f F.ING_SNS_GEOM_HEIGHT n) 64 → f.band = bands → s.mm.poison = [] → s.role = 0 →
        ∃ t : State, exec (.csi2FrameEnd port vc 0) s = .next t
          ∧ t.mem = s.mem.writeList (s.pair R.ING_SNS_DESC_LO R.ING_SNS_DESC_HI n + 64 * ((s.sns n).nextId % 64)) (Safety.frameDesc s n f 0 bands)
          ∧ t.f F.ING_SNS_FRAME_ID_ID n = (s.sns n).nextId % 2 ^ 32 ∧ t.f F.ING_SNS_LAST_STATUS n = 0 ∧ t.f F.ING_SNS_LAST_FLAGS n = f.flags % 65536
          ∧ (t.sns n).frame = none ∧ (t.sns n).nextId = (s.sns n).nextId + 1 ∧ (t.sns n).q = (s.sns n).q + bands
          ∧ (t.sns n).okAt = some s.now ∧ (t.sns n).lastStart = some f.start
          ∧ (∀ m, m ≠ n → t.sns m = s.sns m) ∧ t.tm = s.tm ∧ t.lnk = s.lnk
          ∧ (∀ k, t.tallyOf k = if k = s.f F.ING_SNS_TALLY_INGEST n ∧ s.producer 3 k = true
              then (s.tallyOf k).add 1 (some f.ts) else s.tallyOf k))

/-- R89, R94–R96. -/
def Obligations.BandsAndTimeout : Prop :=
  ∀ (s : State) (n : Nat), s.up = true →
    (∀ f : FrameSt, (s.sns n).frame = some f → f.ended = false → ∃ (t : State) (f' : FrameSt), exec (.bandSlotFree n) s = .next t
        ∧ (t.sns n).frame = some f' ∧ f'.wait <:+ f.wait ∧ f'.taken + f'.wait.length = f.taken + f.wait.length
        ∧ (f'.wait ≠ [] → f'.cur = [] ∧ t.tv (s.f F.ING_SNS_TALLY_RELEASE n) + s.f F.ING_SNS_RING_CFG_SLOTS n ≤ (s.sns n).q + f'.band)
        ∧ (t.sns n).q = (s.sns n).q ∧ ∀ m, m ≠ n → t.sns m = s.sns m)
    ∧ (s.now < s.snsRef n + s.snsTimeout n → exec (.frameTimeout n) s = .next s)
    ∧ (n < 32 → s.fb F.ING_SNS_SRC_ENABLE n = true → (s.sns n).frame ≠ none ∨ (s.sns n).lastStart ≠ none ∨ s.tm.trigOn = true → s.snsRef n + s.snsTimeout n ≤ s.now →
        ((s.sns n).frame = none → ∃ (t : State) (ts : Nat), exec (.frameTimeout n) s = .next t
          ∧ (t.sns n).frame = none ∧ (t.sns n).nextId = (s.sns n).nextId + 1
          ∧ (t.sns n).q = (s.sns n).q + ceilDiv (s.f F.ING_SNS_GEOM_HEIGHT n) 64 ∧ (t.sns n).prevOk = false ∧ (t.sns n).okAt = (s.sns n).okAt
          ∧ t.f F.ING_SNS_FRAME_ID_ID n = (s.sns n).nextId % 2 ^ 32 ∧ t.f F.ING_SNS_LAST_STATUS n = 9 ∧ t.f F.ING_SNS_LAST_FLAGS n = 32
          ∧ t.fb F.ING_EVT_ABSENT = true
          ∧ (∀ k, t.tallyOf k = if k = s.f F.ING_SNS_TALLY_INGEST n ∧ s.producer 3 k = true ∧ s.f F.ING_SNS_GEOM_HEIGHT n ≠ 0
              then (s.tallyOf k).add (ceilDiv (s.f F.ING_SNS_GEOM_HEIGHT n) 64) (some ts) else s.tallyOf k))
        ∧ (∀ f : FrameSt, (s.sns n).frame = some f → ∃ t : State, exec (.frameTimeout n) s = .next t
          ∧ (t.sns n).frame = none ∧ (t.sns n).nextId = (s.sns n).nextId + 1
          ∧ t.f F.ING_SNS_FRAME_ID_ID n = (s.sns n).nextId % 2 ^ 32
          ∧ bitOf (t.f F.ING_SNS_LAST_FLAGS n) 4 = true ∧ bitOf (t.f F.ING_SNS_LAST_FLAGS n) 7 = true))

/-- A packet's stream is `k`: port, addresses, UDP port and payload type match. -/
def Sys2Proof.Safety.ofStream (s : State) (p : StPacket) (k : Nat) : Prop :=
  s.fb F.ING_ST_CTL_ENABLE k = true ∧ s.f F.ING_ST_CTL_PORT k = p.port ∧ s.f F.ING_ST_GROUP_ADDR k = p.dst ∧ s.f F.ING_ST_UDP_PORT k = p.dport
    ∧ s.f F.ING_ST_CTL_PT k = p.pt ∧ (s.f F.ING_ST_SOURCE_ADDR k = 0 ∨ s.f F.ING_ST_SOURCE_ADDR k = p.src)

/-- R86–R88. `x` is the reordering state of the stream, `d` how far the packet lies ahead of the next expected one, modulo 2³². -/
def Obligations.NetworkVideo : Prop :=
  ∀ (s : State) (p : StPacket), s.up = true →
    ((∀ k < 16, ¬ Safety.ofStream s p k) → exec (.st2110PacketRx p) s = .next s)
    ∧ ∀ (k n : Nat) (x : StSt) (q : Nat), (∀ m, m < 16 ∧ Safety.ofStream s p m ↔ m = k) →
      (∀ m, m < 32 ∧ s.fb F.ING_SNS_SRC_ENABLE m = true ∧ s.fb F.ING_SNS_SRC_KIND m = true ∧ s.f F.ING_SNS_SRC_SOURCE m = k ↔ m = n) →
      x = tget {} s.ing.st k → x.next = some q → q < 2 ^ 32 → p.seq < 2 ^ 32 →
      (2 ^ 31 ≤ (p.seq + 2 ^ 32 - q) % 2 ^ 32 → (s.sns n).frame = none →
        exec (.st2110PacketRx p) s = .next (s.addSat F.ING_ST_SEQ_GAPS_COUNT 1 k))
      ∧ (2 ^ 31 ≤ (p.seq + 2 ^ 32 - q) % 2 ^ 32 → ∀ f : FrameSt, (s.sns n).frame = some f →
        exec (.st2110PacketRx p) s = .next { s.addSat F.ING_ST_SEQ_GAPS_COUNT 1 k with
          ing := { s.ing with sns := tput {} s.ing.sns n { s.sns n with frame := some { f with flags := f.flags ||| 512 } } } })
      ∧ (0 < (p.seq + 2 ^ 32 - q) % 2 ^ 32 → (p.seq + 2 ^ 32 - q) % 2 ^ 32 < 32 → x.held = [] →
        exec (.st2110PacketRx p) s = .next { s with ing := { s.ing with st := tput {} s.ing.st k { next := some q, held := [(s.now, p)] } } })
      ∧ (p.seq = q → x.held = [] → 3 < p.segs.length ∨ (∃ g ∈ p.segs, s.f F.ING_SNS_GEOM_HEIGHT n ≤ g.row
            ∨ s.f F.ING_SNS_GEOM_WIDTH n < g.off + g.px.length) →
        exec (.st2110PacketRx p) s
          = .next { s.addSat F.ING_ST_REJECT_COUNT 1 k with
                    ing := { s.ing with st := tput {} s.ing.st k { next := some ((q + 1) % 2 ^ 32), held := [] } } })
      ∧ (p.seq = q → x.held = [] → ∀ (f : FrameSt) (g : StSeg) (row : List (Option Px)), (s.sns n).frame = some f → f.rtp = p.rtp → p.rtp < 2 ^ 32 →
        p.segs = [g] → p.marker = false → s.stFits k n p = true → g.row = f.taken + f.wait.length → f.ended = false →
        row = layRow (if f.row = [] then List.replicate (s.f F.ING_SNS_GEOM_WIDTH n) none else f.row) g.off g.px → none ∈ row →
        exec (.st2110PacketRx p) s
          = .next { s.addWrap F.ING_ST_PACKETS_COUNT 1 k with
                    ing := { s.ing with st := tput {} s.ing.st k { next := some ((q + 1) % 2 ^ 32), held := [] },
                                        sns := tput {} s.ing.sns n { s.sns n with frame := some { f with row := row } } } })
      ∧ (p.seq = q → x.held = [] → ∀ f : FrameSt, (s.sns n).frame = some f → f.rtp = p.rtp → p.rtp < 2 ^ 32 → p.segs = [] → p.marker = true →
        ∃ t : State, exec (.st2110PacketRx p) s = .next t ∧ (t.sns n).frame = none ∧ (t.sns n).nextId = (s.sns n).nextId + 1
          ∧ t.f F.ING_ST_PACKETS_COUNT k = (s.f F.ING_ST_PACKETS_COUNT k + 1) % 2 ^ 32
          ∧ t.f F.ING_SNS_FRAME_ID_ID n = (s.sns n).nextId % 2 ^ 32)

/-- Schedule `n` has fired its next edge, number `k` (R73). -/
def Sys2Proof.Safety.fired (s : State) (n k : Nat) : State :=
  (({ s with tm := { s.tm with trigNext := tput 0 s.tm.trigNext n (k + 1) } } : State).addWrap F.TIME_TRIG_COUNT_COUNT 1 n).emit (.edge n k)

/-- The time of edge `k` of schedule `n` in eighths of a nanosecond: PHASE + k × NUM / DEN, ties upward (R71). -/
def Sys2Proof.Safety.edgeTime (s : State) (n k : Nat) : Nat :=
  (16 * (s.f F.TIME_TRIG_PHASE_NS n * s.f F.TIME_TRIG_DEN_DEN n + k * s.f F.TIME_TRIG_NUM_NUM n) + s.f F.TIME_TRIG_DEN_DEN n)
    / (2 * s.f F.TIME_TRIG_DEN_DEN n)

/-- R73, R101–R103. Measurement times are in sixteenths of a nanosecond. R73, R104, R105, R485. Which direction counts up is the model's choice (log entry 22), so a legal step is stated as one count either way. -/
def Obligations.InputPorts : Prop :=
  (∀ (s : State) (p : Nat), s.up = true → p < 8 → s.fb F.SPG_SPI_CTL_ENABLE p = true → s.sec.defer = [] →
    (∀ k : Nat, k = tget 0 s.tm.trigNext (32 + p) → s.tm.trigOn = true → s.fb F.TIME_TRIG_CTL_ENABLE (32 + p) = true →
        Safety.edgeTime s (32 + p) k ≤ s.tm.dev / 8192 → s.fb F.SPG_SPI_CTL_STROBED p = true →
        ((s.spi p).conv = none → exec (.conversionStrobeEdge p) s
          = .next { Safety.fired s (32 + p) k with
              spg := { s.spg with spi := tput {} s.spg.spi p { s.spi p with conv := some (k, 2 * Safety.edgeTime s (32 + p) k), drdy := none } } })
        ∧ ((s.spi p).conv ≠ none → ∃ t : State, exec (.conversionStrobeEdge p) s = .next t
          ∧ (t.spi p).conv = some (k, 2 * Safety.edgeTime s (32 + p) k) ∧ (t.spi p).run = 0 ∧ t.fb F.SPG_EVT_CHECK = true
          ∧ t.f F.SPG_SPI_STAT_MISSED p = Nat.min 65535 (s.f F.SPG_SPI_STAT_MISSED p + 1)))
    ∧ (∀ cmd : List Byte, (s.spi p).reading = none →
        cmd = (leBytes 4 (s.f F.SPG_SPI_CMD_BYTES p)).take (s.f F.SPG_SPI_WAIT_CMD_LEN p) →
        (s.fb F.SPG_SPI_CTL_DRDY p = true → s.fb F.SPG_SPI_CTL_STROBED p = true → ∀ c, (s.spi p).conv = some c →
          exec (.spiDataReady p) s = .next (({ s with spg := { s.spg with spi := tput {} s.spg.spi p { s.spi p with
               conv := none, reading := some c, drdy := some s.now } } } : State).emit (.spi p cmd)))
        ∧ (s.fb F.SPG_SPI_CTL_DRDY p = true → s.fb F.SPG_SPI_CTL_STROBED p = false →
          exec (.spiDataReady p) s = .next (({ s with spg := { s.spg with spi := tput {} s.spg.spi p { s.spi p with
               reading := some ((s.spi p).count, 16 * (s.now - s.f F.SPG_SPI_LATENCY_NS p)), drdy := some s.now,
                           count := (s.spi p).count + 1 } } } : State).emit (.spi p cmd)))
        ∧ (s.fb F.SPG_SPI_CTL_DRDY p = false → s.fb F.SPG_SPI_CTL_STROBED p = true → ∀ c, (s.spi p).conv = some c →
          exec (.spiWaitExpire p) s = .next (({ s with spg := { s.spg with spi := tput {} s.spg.spi p { s.spi p with
               conv := none, reading := some c, drdy := none } } } : State).emit (.spi p cmd))))
    ∧ (∀ data : List Byte, (s.spi p).reading ≠ none → data.length = s.f F.SPG_SPI_CTL_LEN p →
        (s.f F.SPG_SPI_CTL_CHECK p = 0 ∨ s.f F.SPG_SPI_CTL_CHECK p = 3 →
          ∃ t : State, exec (.spiTransactionDone p data) s = .next t
            ∧ (t.spi p).reading = none ∧ (t.spi p).run = (s.spi p).run + 1 ∧ t.f F.SPG_SPI_STAT_CHECK_FAIL p = s.f F.SPG_SPI_STAT_CHECK_FAIL p)
        ∧ (s.f F.SPG_SPI_CTL_CHECK p = 1 → ∀ off : Nat, off = s.f F.SPG_SPI_CTL_CHECK_OFF p → off + 2 ≤ data.length →
          ((data.take off).map (·.toNat)).foldr (· + ·) 0 % 65536
            ≠ (nth 0#8 data off).toNat + 256 * (nth 0#8 data (off + 1)).toNat →
          ∃ t : State, exec (.spiTransactionDone p data) s = .next t
            ∧ (t.spi p).reading = none ∧ (t.spi p).run = 0 ∧ t.fb F.SPG_EVT_CHECK = true
            ∧ t.f F.SPG_SPI_STAT_CHECK_FAIL p = Nat.min 255 (s.f F.SPG_SPI_STAT_CHECK_FAIL p + 1)))
    ∧ (s.fb F.SPG_SPI_STAT_ID_OK p = false → ∀ value : Nat,
        ∃ t : State, exec (.imuIdentityRead p value) s = .next t ∧ (t.spi p).reading = none ∧ (t.spi p).run = 0
          ∧ (if value &&& s.f F.SPG_SPI_ID_ID_MASK p = s.f F.SPG_SPI_ID_ID_VALUE p &&& s.f F.SPG_SPI_ID_ID_MASK p then
              t.fb F.SPG_SPI_STAT_ID_OK p = true ∧ t.f F.SPG_SPI_STAT_REINITS p = Nat.min 127 (s.f F.SPG_SPI_STAT_REINITS p + 1)
            else t.fb F.SPG_SPI_STAT_ID_OK p = false ∧ t.f F.SPG_SPI_STAT_REINITS p = s.f F.SPG_SPI_STAT_REINITS p
              ∧ t.fb F.SPG_EVT_ID_FAIL = true)))
  ∧
  (∀ (s : State) (n : Nat), s.up = true → n < 8 → s.sec.defer = [] →
    (∀ k : Nat, k = tget 0 s.tm.trigNext (40 + n) → s.tm.trigOn = true → s.fb F.TIME_TRIG_CTL_ENABLE (40 + n) = true →
        Safety.edgeTime s (40 + n) k ≤ s.tm.dev / 8192 → s.f F.TIME_TRIG_DELAY_NS (40 + n) = 0 → s.fb F.TIME_TRIG_CTL_TALLY_EN (40 + n) = false →
        exec (.controlCycleEdge n) s = .next (Safety.fired s (40 + n) k))
    ∧ (∀ k : Nat, k = tget 0 s.tm.trigNext (40 + n) → s.tm.trigOn = true → s.fb F.TIME_TRIG_CTL_ENABLE (40 + n) = true →
        Safety.edgeTime s (40 + n) k ≤ s.tm.dev / 8192 → ∃ t : State, exec (.controlCycleEdge n) s = .next t
          ∧ tget 0 t.tm.trigNext (40 + n) = k + 1 ∧ t.f F.TIME_TRIG_COUNT_COUNT (40 + n) = (s.f F.TIME_TRIG_COUNT_COUNT (40 + n) + 1) % 2 ^ 32
          ∧ ∀ p < 8, s.fb F.SPG_SSI_CTL_ENABLE p = true → (s.ssi p).reading = none → (s.ssi p).ended = none →
              (t.ssi p).reading = if bitOf (s.f F.TIME_TRIG_DELAY_NS (40 + n)) (8 + p) then some (k, 2 * Safety.edgeTime s (40 + n) k) else none)
    ∧ (s.fb F.SPG_SSI_CTL_ENABLE n = true → ∀ (k t16 : Nat) (bits : List Bool) (first : Option Int), (s.ssi n).reading = some (k, t16) →
        (∃ t : State, exec (.ssiReadDone n bits true false first) s = .next t
          ∧ (t.ssi n).reading = none ∧ (t.ssi n).ended = some s.now ∧ (t.ssi n).run = 0 ∧ t.fb F.SPG_EVT_SSI = true
          ∧ t.f F.SPG_SSI_STAT_FRAME_ERR n = Nat.min 65535 (s.f F.SPG_SSI_STAT_FRAME_ERR n + 1))
        ∧ (s.f F.SPG_SSI_CTL_PARITY n = 0 → s.f F.SPG_SSI_CTL_ERR_BITS n = 0 → bits.length = s.f F.SPG_SSI_CTL_BITS n →
            s.f F.SPG_SSI_CTL_GRAY n = 0 → s.fb F.SPG_CH_CTL_ENABLE (56 + n) = true → s.fb F.SPG_CH_SRC_WRAP (56 + n) = false →
          ∀ raw : Int, raw = (if s.fb F.SPG_CH_SRC_SIGNED (56 + n) then
              sgn (s.f F.SPG_CH_SRC_WIDTH (56 + n)) (bits.foldl (fun a b => 2 * a + if b then 1 else 0) 0)
              else ((bits.foldl (fun a b => 2 * a + if b then 1 else 0) 0 % 2 ^ s.f F.SPG_CH_SRC_WIDTH (56 + n) : Nat) : Int)) →
            s.fs F.SPG_CH_MIN_MIN (56 + n) ≤ raw → raw ≤ s.fs F.SPG_CH_MAX_MAX (56 + n) →
          ∃ t : State, exec (.ssiReadDone n bits true true first) s = .next t
            ∧ (t.ssi n).reading = none ∧ (t.ssi n).ended = some s.now ∧ (t.ssi n).run = (s.ssi n).run + 1
            ∧ (t.chan (56 + n)).last = some (raw, raw) ∧ (t.chan (56 + n)).out = false))
    ∧ (s.fb F.SPG_QUAD_CTL_ENABLE n = true → ∀ (a b : Bool) (ns : Nat) (x : QuadSt), x = tget {} s.spg.quad n →
        (ns < 8 * s.f F.SPG_QUAD_CTL_FILTER n → exec (.quadTransition n a b ns) s = .next s)
        ∧ (8 * s.f F.SPG_QUAD_CTL_FILTER n ≤ ns → s.fb F.SPG_QUAD_CTL_SWAP n = false →
          (x.a ≠ a → x.b ≠ b → exec (.quadTransition n a b ns) s
            = .next ((({ s with spg := { s.spg with quad := tput {} s.spg.quad n { x with a := a, b := b, err := true } } } : State).addSat
                F.SPG_QUAD_STAT_ILLEGAL 1 n).event 0x4 6 n))
          ∧ (x.a ≠ a ∧ x.b = b ∨ x.a = a ∧ x.b ≠ b → ∃ d : Int, (d = 1 ∨ d = -1) ∧ exec (.quadTransition n a b ns) s
            = .next (({ s with spg := { s.spg with quad := tput {} s.spg.quad n { x with a := a, b := b } } } : State).setF
                F.SPG_QUAD_COUNT_COUNT (uns 32 (s.fs F.SPG_QUAD_COUNT_COUNT n + d)) n)))))

/-- R106, R107; the error counters' rules are ISO 11898-1's (PRESUMED, log entry 21). -/
def Obligations.CanControllers : Prop :=
  ∀ (s : State) (n tec rec : Nat), s.up = true → n < 2 → tec = s.f F.SPG_CAN_STAT_TEC n → rec = s.f F.SPG_CAN_STAT_REC n →
    (s.fb F.SPG_CAN_CTL_ENABLE n = true → s.f F.SPG_CAN_STAT_STATE n ≠ 2 →
      (∀ (ext fd : Bool) (id ago : Nat) (data : List Byte), s.sec.defer = [] →
        (fd = true → s.fb F.SPG_CAN_CTL_FD n = false → exec (.canFrameRx n ext fd id ago data) s = .next s) ∧
        ((fd = true → s.fb F.SPG_CAN_CTL_FD n = true) →
        ∃ t : State, exec (.canFrameRx n ext fd id ago data) s = .next t
          ∧ t.f F.SPG_CAN_RX_COUNT n = (s.f F.SPG_CAN_RX_COUNT n + 1) % 2 ^ 32
          ∧ t.f F.SPG_CAN_STAT_REC n = (if 127 < rec then 127 else rec - 1) ∧ t.f F.SPG_CAN_STAT_TEC n = tec
          ∧ t.f F.SPG_CAN_STAT_STATE n = (if 127 < tec then 1 else 0)
          ∧ ∀ c, 72 ≤ c → c < 88 → (t.chan c).arrivals = (s.chan c).arrivals
              + if s.fb F.SPG_CH_CTL_ENABLE c = true ∧ s.f F.SPG_CH_ID_CTRL c = n ∧ s.fb F.SPG_CH_ID_EXT c = ext ∧ s.f F.SPG_CH_ID_ID c = id then 1
                else 0))
      ∧ (∀ fr : CanFrame, s.fb F.SPG_CAN_CTL_LISTEN n = false → s.spg.tx.find? (fun e => e.1 == n) = some (n, fr) → exec (.canTxDone n) s
          = .next ((((({ s with spg := { s.spg with tx := s.spg.tx.filter (fun e => e.1 != n) } } : State).emit (.can n fr)).setF
              F.SPG_CAN_STAT_TEC (tec - 1) n).setF
              F.SPG_CAN_STAT_REC rec n).setF F.SPG_CAN_STAT_STATE (if 127 < tec - 1 ∨ 127 < rec then 1 else 0) n))
      ∧ (∀ u : State, u = s.addSat F.SPG_CAN_ERR_COUNT 1 n →
          (tec + 8 ≤ 255 → ∀ (d : Bool) (kind : Nat), kind ≠ 2 → (kind = 1 → d = true ∨ s.f F.SPG_CAN_STAT_STATE n ≠ 1) →
            exec (.canBusError n true d kind) s = .next (((u.setF F.SPG_CAN_STAT_TEC (tec + 8) n).setF F.SPG_CAN_STAT_REC rec n).setF F.SPG_CAN_STAT_STATE
                (if 127 < tec + 8 ∨ 127 < rec then 1 else 0) n))
          ∧ (255 < tec + 8 → ∀ (d : Bool) (kind : Nat), kind ≠ 2 → (kind = 1 → d = true ∨ s.f F.SPG_CAN_STAT_STATE n ≠ 1) →
            exec (.canBusError n true d kind) s = .next ((((u.setF F.SPG_CAN_STAT_TEC 255 n).setF F.SPG_CAN_STAT_REC rec n).setF F.SPG_CAN_STAT_STATE 2 n).event 0x4 7 n))
          ∧ (∀ (d : Bool) (kind : Nat), kind = 2 ∨ (kind = 1 ∧ d = false ∧ s.f F.SPG_CAN_STAT_STATE n = 1) →
            exec (.canBusError n true d kind) s = .next u)
          ∧ (rec + 1 ≤ 255 → ∀ kind : Nat, exec (.canBusError n false false kind) s
            = .next (((u.setF F.SPG_CAN_STAT_TEC tec n).setF F.SPG_CAN_STAT_REC (rec + 1) n).setF F.SPG_CAN_STAT_STATE
                (if 127 < tec ∨ 127 < rec + 1 then 1 else 0) n))))
    ∧ (s.f F.SPG_CAN_STAT_STATE n = 2 → ∀ u : State,
        u = (((s.setF F.SPG_CAN_STAT_TEC 0 n).setF F.SPG_CAN_STAT_REC 0 n).setF F.SPG_CAN_STAT_STATE 0 n).addSat F.SPG_CAN_STAT_BUSOFF 1 n →
        exec (.canBusoffRecover n) s = .next u)

/-- The record of a channel (Table 5-4): measurement time `t16` in sixteenths of a nanosecond, `delay` the group delay in the same unit. -/
def Sys2Proof.Safety.chanRecord (c seq t16 delay value status flags : Nat) (raw : Int) : List Byte :=
  leBytes 8 ((t16 - delay) / 16 / 1000000000) ++ leBytes 4 ((t16 - delay) / 16 % 1000000000) ++ leBytes 4 value ++ leBytes 4 seq ++ leBytes 1 c
    ++ leBytes 1 status ++ leBytes 2 flags ++ leBytes 4 (uns 32 raw) ++ leBytes 4 ((delay + 8) / 16)

/-- The next slot of a channel's ring. -/
def Sys2Proof.Safety.chanSlot (s : State) (c : Nat) : Nat :=
  s.pair R.SPG_CH_RING_LO R.SPG_CH_RING_HI c + 32 * ((s.chan c).seq % (64 * 2 ^ s.f F.SPG_CH_RING_CFG_LEN c))

/-- R105, R109–R111, R119, R120, Table 5-4. What the value of an ABSENT record is the spec does not say (log entry 35). -/
def Obligations.SpargeRecords : Prop :=
  ∀ s : State, s.up = true → s.sec.defer = [] → s.mm.poison = [] →
    (∀ q c k period : Nat, ∀ raw : Int, q < 8 → c = 64 + q → s.fb F.SPG_QUAD_CTL_ENABLE q = true → s.fb F.SPG_CH_CTL_ENABLE c = true →
        period = s.f F.SPG_QUAD_PERIOD_NS q → period ≠ 0 →
        k = s.now / period → (∀ u, (tget {} s.spg.quad q).last = some u → u < k * period) →
        (∀ u, (s.chan c).lastTs = some u → u < (16 * (k * period) - s.delay16 c) / 16) → raw = s.fs F.SPG_QUAD_COUNT_COUNT q →
        s.fs F.SPG_CH_MIN_MIN c ≤ raw → raw ≤ s.fs F.SPG_CH_MAX_MAX c → (s.chan c).out = false → s.fb F.SPG_CH_SRC_WRAP c = false →
        (k % 2 ^ s.f F.SPG_CH_CTL_RATIO c ≠ s.f F.SPG_CH_CTL_DEC_PHASE c →
          ∃ t : State, exec (.quadSample q) s = .next t ∧ t.mem = s.mem ∧ t.tally = s.tally ∧ (t.chan c).since = (s.chan c).since + 1
            ∧ (t.chan c).win = (raw :: (s.chan c).win).take (2 * s.f F.SPG_CH_CTL_MEDIAN c + 1) ∧ (t.chan c).last = some (raw, raw)
            ∧ (t.chan c).seq = (s.chan c).seq ∧ ∀ d, d ≠ c → t.chan d = s.chan d)
        ∧ (k % 2 ^ s.f F.SPG_CH_CTL_RATIO c = s.f F.SPG_CH_CTL_DEC_PHASE c →
          ∃ (t : State) (value flags : Nat), exec (.quadSample q) s = .next t
            ∧ t.mem = s.mem.writeList (Safety.chanSlot s c) (Safety.chanRecord c (s.chan c).seq (16 * (k * period)) (s.delay16 c) value
                (if (s.chan c).since + 1 < s.support c then 9 else 0) flags raw)
            ∧ ((s.chan c).since + 1 < s.support c → bitOf flags 3 = true)
            ∧ (t.chan c).since = (s.chan c).since + 1 ∧ (t.chan c).seq = ((s.chan c).seq + 1) % 2 ^ 32
            ∧ (∀ j, t.tv j = if j = s.f F.SPG_CH_RING_CFG_TALLY c ∧ s.producer 4 j = true then Nat.min (2 ^ 64 - 1) (s.tv j + 1) else s.tv j)
            ∧ ∀ d, d ≠ c → t.chan d = s.chan d))
    ∧ ∀ c < 88, s.fb F.SPG_CH_CTL_ENABLE c = true →
        (∀ q l : Nat, c = 64 + q → q < 8 → (tget {} s.spg.quad q).last = some l → s.now / s.f F.SPG_QUAD_PERIOD_NS q * s.f F.SPG_QUAD_PERIOD_NS q ≤ l →
          exec (.quadSample q) s = .next s) ∧
        ((c < 64 ∨ 72 ≤ c) → (s.chan c).out = false → ∃ t : State, exec (.channelTimeout c) s = .next t
          ∧ (t.chan c).out = true ∧ (t.chan c).win = [] ∧ (t.chan c).dl = [] ∧ (t.chan c).seq = (s.chan c).seq
          ∧ t.f F.SPG_CH_COUNT_TIMEOUTS c = Nat.min 255 (s.f F.SPG_CH_COUNT_TIMEOUTS c + 1) ∧ t.fb F.SPG_EVT_TIMEOUT = true
          ∧ bitOf (t.f F.SPG_VALID_MASK (c / 32)) (c % 32) = false ∧ t.mem = s.mem ∧ t.tally = s.tally)
        ∧ ((s.chan c).out = true → 16 * s.now + 15 < (s.nextInstant c).2 → exec (.channelAbsentInstant c) s = .next s)
        ∧ ((s.chan c).out = true → ∀ u t16 : Nat, t16 = (s.nextInstant c).2 → t16 ≤ 16 * s.now + 15 → (s.chan c).lastTs = some u →
            (t16 - s.delay16 c) / 16 ≤ u → ∃ t : State, exec (.channelAbsentInstant c) s = .next t ∧ t.mem = s.mem ∧ t.tally = s.tally
              ∧ (t.chan c).seq = (s.chan c).seq ∧ (t.chan c).lastOut = some (s.nextInstant c))
        ∧ ((s.chan c).out = true → ∀ t16 : Nat, t16 = (s.nextInstant c).2 → t16 ≤ 16 * s.now + 15 →
            (∀ u, (s.chan c).lastTs = some u → u < (t16 - s.delay16 c) / 16) →
          ∃ (t : State) (value flags : Nat), exec (.channelAbsentInstant c) s = .next t
          ∧ t.mem = s.mem.writeList (Safety.chanSlot s c) (Safety.chanRecord c (s.chan c).seq t16 (s.delay16 c) value 9 flags 0)
          ∧ bitOf flags 2 = true ∧ (t.chan c).out = true ∧ (t.chan c).seq = ((s.chan c).seq + 1) % 2 ^ 32 ∧ t.fb F.SPG_EVT_TIMEOUT = true
          ∧ (∀ j, t.tv j = if j = s.f F.SPG_CH_RING_CFG_TALLY c ∧ s.producer 4 j = true then Nat.min (2 ^ 64 - 1) (s.tv j + 1) else s.tv j))

/-- A lane is at work on band b of a sensor job's frame, the next one in order and not the last, nothing beyond it done and none of its tiles held, and
the band's ingest Tally is not its front-end Tally. -/
def Sys2Proof.Safety.bandAtWork (s : State) (n b lane : Nat) : Prop :=
  n < 32 ∧ s.laneUp lane = true ∧ tget (0, 0) s.mill.lanes lane = (n + 1, b) ∧ (∀ h ∈ (s.job n).held, h.lane ≠ lane) ∧ s.mm.poison = []
    ∧ b = (s.job n).rect ∧ (s.job n).ahead = [] ∧ (s.fb F.MILL_SNS_CTL_PATH_EN n = true → b = (s.job n).sent ∧ (s.job n).sentAhead = [])
    ∧ (s.job n).run = true
    ∧ (∃ x, s.src n (s.job n).next = some x) ∧ b + 1 < s.snsBands n ∧ s.f F.ING_SNS_TALLY_RELEASE n ≠ s.f F.MILL_SNS_TALLY_FRONT n

/-- R21, R125, R127, R145, R150, R155, R157. -/
def Obligations.MillJobs : Prop :=
  ∀ s : State, s.up = true →
    (∀ (n b lane cols : Nat) (room : Nat → Bool), Safety.bandAtWork s n b lane → cols = ceilDiv (s.jobW n 0) 64 →
        (∀ i, room i = s.pathRoom n (s.job n).next (b * cols + i)) →
        (∀ c, c ≠ b → exec (.millBandDone n c lane) s = .next s.lanesTake)
        ∧ (s.fb F.MILL_SNS_CTL_PATH_EN n = false ∨ (∀ i < cols, room i = true) → (s.job n).rel + 1 = b →
            ∃ t : State, exec (.millBandDone n b lane) s = .next t
              ∧ (t.job n).rect = b + 1 ∧ (t.job n).held = (s.job n).held ∧ tget (0, 0) t.mill.lanes lane = (0, 0) ∧ (t.job n).next = (s.job n).next
              ∧ (t.job n).rel = b ∧ (s.job n).bands ≤ (t.job n).bands
              ∧ t.tv (s.f F.ING_SNS_TALLY_RELEASE n) = (if s.producer 5 (s.f F.ING_SNS_TALLY_RELEASE n)
                  then Nat.min (2 ^ 64 - 1) (s.tv (s.f F.ING_SNS_TALLY_RELEASE n) + 1) else s.tv (s.f F.ING_SNS_TALLY_RELEASE n))
              ∧ (∀ j, j ≠ n → t.job j = s.job j) ∧ t.ing = s.ing
              ∧ (∀ k : Nat, k = (s.job n).bands → s.fb F.MILL_SNS_CTL_KLT_EN n = false → s.fb F.MILL_SNS_CTL_PATH_EN n = false →
                  ceilDiv (s.needRows n k) 64 ≤ b + 1 → b + 1 < ceilDiv (s.needRows n (k + 1)) 64 → k + 2 < s.snsBands n →
                  (t.job n).bands = k + 1 ∧ t.tv (s.f F.MILL_SNS_TALLY_FRONT n) = (if s.producer 5 (s.f F.MILL_SNS_TALLY_FRONT n)
                    then Nat.min (2 ^ 64 - 1) (s.tv (s.f F.MILL_SNS_TALLY_FRONT n) + 1) else s.tv (s.f F.MILL_SNS_TALLY_FRONT n))))
        ∧ (∀ k : Nat, s.fb F.MILL_SNS_CTL_PATH_EN n = true → k < cols → (∀ i < k, room i = true) → room k = false → b ≤ (s.job n).bands →
            ∃ t : State, exec (.millBandDone n b lane) s = .next t
              ∧ (t.job n).held = { band := b, lane := lane, col := k, since := s.mono } :: (s.job n).held
              ∧ tget (0, 0) t.mill.lanes lane = (n + 1, b) ∧ tget 0 t.mill.tiles n = tget 0 s.mill.tiles n + k
              ∧ (t.job n).bands = (s.job n).bands ∧ bitOf (t.job n).flags 5 = true ∧ t.fb F.MILL_EVT_PATH_HOLD = true
              ∧ t.tv (s.f F.MILL_SNS_TALLY_FRONT n) = s.tv (s.f F.MILL_SNS_TALLY_FRONT n)))
    ∧ (∀ n : Nat, (s.job n).held = [] → exec (.pathSpaceFreed n) s = .next s)
    ∧ (∀ (n cols : Nat) (h : PathHold), (s.job n).held = [h] → cols = ceilDiv (s.jobW n 0) 64 → h.col < cols →
        (∀ i, h.col ≤ i → i < cols → s.pathRoom n (s.job n).next (h.band * cols + i) = true) →
        ∃ t : State, exec (.pathSpaceFreed n) s = .next t
          ∧ (t.job n).held = [] ∧ tget (0, 0) t.mill.lanes h.lane = (0, 0) ∧ tget 0 t.mill.tiles n = tget 0 s.mill.tiles n + (cols - h.col)
          ∧ t.f F.MILL_PATH_HOLD_US = satU 32 (s.f F.MILL_PATH_HOLD_US + (s.mono - h.since) / 1000))
    ∧ (∀ n m a b : Nat, s.laneChoice = some (n, a) → m < 32 → s.bandTask m = some b →
        ∀ key : Nat → Nat → Nat, (∀ i c, key i c = s.storedAt i ((s.job i).next * s.snsBands i + Nat.min (c + 1) (s.snsBands i - 1))) →
        s.bandTask n = some a ∧ (key n a < key m b ∨ key n a = key m b ∧ n ≤ m))
    ∧ (∀ (p b : Nat) (l r : Src), p < 16 → (s.job (32 + p)).run = true →
        s.src (s.f F.MILL_SGM_CTL_LEFT p) (s.job (32 + p)).next = some l → s.src (s.f F.MILL_SGM_CTL_RIGHT p) (s.job (32 + p)).next = some r →
        s.fb F.MILL_SGM_CTL_PATHS p = false → s.mm.poison = [] →
        (b ≠ (s.job (32 + p)).bands → exec (.sgmBandDone p b) s = .next s)
        ∧ (b = (s.job (32 + p)).bands → b + 1 < s.sgmBands p →
            (∀ n ∈ [s.f F.MILL_SGM_CTL_LEFT p, s.f F.MILL_SGM_CTL_RIGHT p],
              Nat.min (s.sgmH p) (64 * (b + 1) + 3) ≤ s.rowsOf n (s.job (32 + p)).next (s.f F.MILL_SGM_CTL_LEVEL p)) →
          ∃ t : State, exec (.sgmBandDone p b) s = .next t
            ∧ (t.job (32 + p)).bands = b + 1 ∧ (t.job (32 + p)).next = (s.job (32 + p)).next ∧ (∀ j, j ≠ 32 + p → t.job j = s.job j)
            ∧ ∀ k, t.tallyOf k = if k = s.f F.MILL_SGM_TALLY_OUT p ∧ s.producer 5 k = true then (s.tallyOf k).add 1 (some l.ts) else s.tallyOf k))
    ∧ ∀ (f level n k : Nat) (x : Src), f < 16 → (s.job (64 + f)).run = true → s.mm.poison = [] →
        n = s.f F.MILL_FLOW_CTL_SENSOR f → k = (s.job (64 + f)).next → s.src n k = some x → (s.job (64 + f)).level = some level →
        (∀ j, j ≠ level → exec (.flowLevelDone f j) s = .next s)
        ∧ (level ≠ s.f F.MILL_FLOW_CTL_LEVEL f → ∃ t : State, exec (.flowLevelDone f level) s = .next t
          ∧ (t.job (64 + f)).level = some (level - 1) ∧ (t.job (64 + f)).next = k ∧ t.tally = s.tally ∧ t.log = s.log
          ∧ t.regs = s.regs)

/-- R134, R135, R149, R154. -/
def Obligations.MillKernels : Prop :=
  ∀ m : MillNum.Img,
    (∀ i j : Nat, i + 1 < m.w → j + 1 < m.h → m.ok i j = true → m.ok (i + 1) j = true → m.ok i (j + 1) = true → m.ok (i + 1) (j + 1) = true →
        MillNum.sample m (65536 * i) (65536 * j) = some (m.v i j))
    ∧ (∀ i j : Nat, ((MillNum.pyrPixel m i j).2 = true ↔ ∀ dx dy : Int, -2 ≤ dx → dx ≤ 2 → -2 ≤ dy → dy ≤ 2 →
        m.good ((2 * i : Nat) + dx) ((2 * j : Nat) + dy) = true))
    ∧ (∀ v : Nat, (∀ x y, m.v x y = v) → (∀ x y, m.ok x y = true) → ∀ i j, MillNum.pyrPixel m i j = (v, true))
    ∧ (∀ (k : MillNum.SgmCfg) (c prev : List Nat) (dl d : Nat), d < k.dnum →
        nth 0 c d ≤ nth 0 (MillNum.pathCost k c prev dl) d
        ∧ nth 0 (MillNum.pathCost k c prev dl) d ≤ nth 0 c d + Nat.max (k.p1 + 1) k.p2)
    ∧ ∀ fb : Nat, MillNum.depth fb 0xFFFF = 0x7FFF ∧ MillNum.depth fb 0xFFFE = 0x7FFE ∧ MillNum.depth fb 0xFFFD = 0x7FFD
        ∧ MillNum.depth fb 0xFFFC = 0x7FFC ∧ MillNum.depth fb 0 = 0x7C00

/-- R179, R180, R182, R191–R193. -/
def Obligations.NetworkInstances : Prop :=
  ∀ s : State, s.up = true →
    (∀ (i b core n : Nat) (splits : List KSplit) (x : Src), i < 64 → s.insOn i = true → n = s.insSensor i → s.src n (s.ins i).next = some x →
        x.absent = false → b = (s.ins i).bands → b < s.snsBands n → s.frontFate n (s.ins i).next ≠ 2 → s.frontFate n (s.ins i).next ≠ 3 → s.groupOn i ≠ [] →
        (s.tv (s.f F.MILL_SNS_TALLY_FRONT n) < (s.ins i).next * s.snsBands n + (b + 1) → exec (.networkBandDone i b core splits) s = .next s)
        ∧ (s.tv (s.f F.TNS_INS_TALLY_RELEASE i) + s.f F.TNS_INS_CTL_OUT_FRAMES i ≤ (s.ins i).next →
            exec (.networkBandDone i b core splits) s = .next s)
        ∧ (core / 4 ∉ s.groupOn i → exec (.networkBandDone i b core splits) s = .next (s.insRun i))
        ∧ (b + 1 < s.snsBands n → ((s.ins i).next + 1) * s.snsBands n ≤ s.tv (s.f F.MILL_SNS_TALLY_FRONT n) →
            (s.ins i).next < s.tv (s.f F.TNS_INS_TALLY_RELEASE i) + s.f F.TNS_INS_CTL_OUT_FRAMES i → core / 4 ∈ s.groupOn i →
            (∀ k, k < (s.bodyOf i b).top → s.weightsHere i b k = true) → s.mm.poison = [] →
          ∃ (t : State) (bytes : List Byte), exec (.networkBandDone i b core splits) s = .next t
            ∧ t.mem = s.mem.writeList (s.bandArea i (s.ins i).next b) (bytes.take (s.areaSize i))
            ∧ (s.fb F.TNS_INS_CTL_KEYPOINTS i = true → ∃ kps : List Kp, bytes.take 32
                = leBytes 4 (Nat.min (s.f F.TNS_INS_KP_MAX_BAND i) kps.length) ++ leBytes 4 kps.length ++ leBytes 1 b ++ zeroBytes 23)
            ∧ (t.ins i).bands = b + 1 ∧ (t.ins i).next = (s.ins i).next ∧ (∀ j, j ≠ i → t.ins j = s.ins j)
            ∧ (∀ k, t.tallyOf k = if k = s.f F.TNS_INS_TALLY_OUT i ∧ s.producer 6 k = true then (s.tallyOf k).add 1 (some x.ts) else s.tallyOf k)
            ∧ s.f F.TNS_SAT_COUNT_COUNT ≤ t.f F.TNS_SAT_COUNT_COUNT ∧ s.f F.TNS_NAN_COUNT_COUNT ≤ t.f F.TNS_NAN_COUNT_COUNT))
    ∧ (∀ (i f n : Nat) (x : Src) (y : InsSt), i < 64 → s.insOn i = true → n = s.insSensor i → f = (s.ins i).next →
        s.src n f = some x → x.absent = false → s.frontFate n f ≠ 3 → s.groupOn i ≠ [] → y = s.ins i →
        ((∃ e ∈ y.late, e.1 = f) → exec (.networkDeadline i f) s = .next s)
        ∧ (s.now < x.ts + s.insDeadline i → exec (.networkDeadline i f) s = .next s)
        ∧ ((∀ e ∈ y.late, e.1 ≠ f) → (x.ts + s.insDeadline i : Nat) ≤ s.now →
            (y.heldAt = none → exec (.networkDeadline i f) s = .next ((({ s with tns := { s.tns with ins := tput {} s.tns.ins i { y with
                late := y.late ++ [(f, false)], fbFrom := some (y.fbFrom.getD y.bands), at' := 0 } } } : State).addSat
                  F.TNS_LATE_OTHER_COUNT).event 0x6 1 i 0 2 x.id))
            ∧ (∀ since : Nat, y.heldAt = some since → ∃ t : State, exec (.networkDeadline i f) s = .next t
                ∧ t.ins i = { y with late := y.late ++ [(f, true)], fbFrom := some (y.fbFrom.getD y.bands), at' := 0, heldAt := none,
                                     held := y.held + (s.mono - since) }
                ∧ (∀ j, j ≠ i → t.ins j = s.ins j)
                ∧ t.f F.TNS_LATE_WEIGHTS_COUNT = satU 32 (s.f F.TNS_LATE_WEIGHTS_COUNT + 1)
                ∧ t.f F.TNS_INS_FALLBACKS_LATE_WEIGHTS i = satU 16 (s.f F.TNS_INS_FALLBACKS_LATE_WEIGHTS i + 1)
                ∧ t.f F.TNS_LATE_OTHER_COUNT = s.f F.TNS_LATE_OTHER_COUNT
                ∧ t.f F.TNS_STALL_US_US = satU 32 (s.f F.TNS_STALL_US_US + (s.mono - since) / 1000)
                ∧ t.fb F.TNS_EVT_LATE_WEIGHTS = true)))
    ∧ ∀ net layer cluster : Nat, net < 16 →
        (s.fetchable net layer = false ∨ bitOf (s.f F.TNS_NET_CTL_GROUP net) cluster = false ∨ s.physOf 4 0 cluster = none →
          exec (.weightsStaged net layer cluster) s = .next s)
        ∧ (s.fetchable net layer = true → bitOf (s.f F.TNS_NET_CTL_GROUP net) cluster = true → s.physOf 4 0 cluster ≠ none →
          ∃ t : State, exec (.weightsStaged net layer cluster) s = .next t
          ∧ t.tns.staged.head? = some (net, layer, cluster) ∧ (∀ e ∈ t.tns.staged, e = (net, layer, cluster) ∨ e ∈ s.tns.staged)
          ∧ (t.tns.staged.filter (fun e => e.1 == net && e.2.2 == cluster)).length ≤ Nat.max 1 (s.f F.TNS_NET_CTL_PREFETCH net)
          ∧ (∀ m c, m ≠ net ∨ c ≠ cluster →
              t.tns.staged.filter (fun e => e.1 == m && e.2.2 == c) = s.tns.staged.filter (fun e => e.1 == m && e.2.2 == c))
          ∧ t.mem = s.mem ∧ t.tally = s.tally
          ∧ (∀ i : Nat, (t.ins i).next = (s.ins i).next ∧ (t.ins i).bands = (s.ins i).bands ∧ (t.ins i).late = (s.ins i).late)
          ∧ ∀ i since : Nat, i < 64 → s.insOn i = true → s.insNet i = net → cluster ∈ s.groupOn i → (s.ins i).heldAt = some since →
              (s.ins i).at' = layer → (s.ins i).bands < s.snsBands (s.insSensor i) → s.bandReady i (s.ins i).bands = true →
              s.onFallback i (s.ins i).bands = false → s.refilling net false ((s.netOf i).main.layer layer) = false →
              (t.ins i).held = (s.ins i).held + (s.mono - since) ∧ layer < (t.ins i).at')

/-- R162–R165, R167, R170, R174: formats 3 (INT8), 4 (UINT8), 7 (FP4) and 13 (FP16) of Table 7-1. -/
def Obligations.TensorNumbers : Prop :=
  (∀ v : Int, ((formOf 3).conv (Fv.ofInt v)).sat = decide (v < -128 ∨ 127 < v)
      ∧ sgn 8 ((formOf 3).conv (Fv.ofInt v)).code = max (-128) (min 127 v)
      ∧ ((formOf 4).conv (Fv.ofInt v)).sat = decide (v < 0 ∨ 255 < v)
      ∧ (((formOf 4).conv (Fv.ofInt v)).code : Int) = max 0 (min 255 v))
  ∧ (∀ n : Nat, 1 ≤ n → n ≤ 6 → ((formOf n).conv .nan).code = 0 ∧ ((formOf n).conv .nan).nan = true)
  ∧ (∀ n : Nat, 65504 < n → ((formOf 13).conv (Fv.ofInt n)).code = 0x7BFF ∧ ((formOf 13).conv (Fv.ofInt n)).sat = true
      ∧ ((formOf 13).conv (Fv.ofInt (-n))).code = 0xFBFF)
  ∧ (∀ (zero acc bias mult : Int) (shift : Nat), -128 ≤ (epiInt 8 true zero acc bias mult shift).1 ∧ (epiInt 8 true zero acc bias mult shift).1 ≤ 127
      ∧ (-2147483648 ≤ acc + bias → acc + bias ≤ 2147483647 → (epiInt 8 true zero acc bias 1 1).1
          = max (-128) (min 127 ((acc + bias + 1) / 2 + zero))))
  ∧ (∀ zero lo hi y : Int, zero ≤ actInt 1 zero lo hi y ∧ (zero ≤ y → actInt 1 zero lo hi y = y))
  ∧ (∀ (e : Int) (n p : Nat), p % fp32.sign ≤ fp32.inf → ulpMove n e p / fp32.sign = p / fp32.sign ∧ ulpMove n e p ≤ p + n ∧ p ≤ ulpMove n e p + n)
  ∧ (∀ (f : VFn) (x : Nat), fp32.special x = false → f.exact (fp32.dec x) % fp32.sign ≤ fp32.inf →
      f.run x ≤ f.exact (fp32.dec x) + f.ulps ∧ f.exact (fp32.dec x) ≤ f.run x + f.ulps)
  ∧ (∀ m : Nat, quantBlock (formOf 7) (List.replicate m 0) = (0, List.replicate m 0))
  ∧ ∀ (a : Int × Nat) (ps : List (Int × Int)), -2147483648 ≤ (accInt a ps).1 ∧ (accInt a ps).1 ≤ 2147483647
      ∧ (a.2 = (accInt a ps).2 ↔ (accInt a ps).1 = a.1 + sumZ (ps.map (fun p => p.1 * p.2)))

/-- What a self-restart leaves (R466): the start sequence begun, or recovery; the cause of reset SELF; memory and Tallies as reset leaves
them; the restart and its cause in the log, unless an earlier restart's folding second still ran. -/
def Sys2Proof.Safety.restarted (cause : Nat) (s t : State) : Prop :=
  (t.pw.mode = .starting ∨ t.pw.mode = .recovery) ∧ t.f F.PWR_RESET_CAUSE_CAUSE = 2 ∧ t.mem = [] ∧ t.tally = [] ∧ t.mm.pages = []
    ∧ (s.foldOf 1 Ev.restart 0 = none → ∃ e ∈ t.log, e.source = 1 ∧ e.code = Ev.restart ∧ e.arg1 = cause)

/-- R205, R206, R208, R211, R212, R223, R225 and Table 8-8. The tier and unit recorded for an address fault are free values: the spec
gives such an address none. R209, R212. -/
def Obligations.MemoryUpkeep : Prop :=
  (∀ s : State, s.up = true →
    (∀ tier unit kind addr : Nat, exec (.scrubStep tier unit addr false) s = .next s
      ∧ exec (.scrubStep tier unit addr true) s = exec (.correctedError tier unit 1 addr) s
      ∧ ∃ u : State, u = ((s.setF F.MEM_ERR_INFO_TIER tier).setF F.MEM_ERR_INFO_KIND kind).setF F.MEM_ERR_INFO_UNIT unit
        ∧ (tier ∈ [0, 1, 2, 6] → exec (.correctedError tier unit kind addr) s = .next ((u.addSat F.MEM_SRAM_CE_COUNT).event 0x7 2 unit addr))
        ∧ (tier = 3 → unit < 2 → exec (.correctedError tier unit kind addr) s
            = .next (if kind = 3 then (u.addSat F.MEM_HOP_LINK_RETRIES 1 unit).event 0x7 1 unit addr
                     else (u.addSat F.MEM_HOP_CE_COUNT 1 unit).event 0x7 2 unit addr))
        ∧ (tier = 4 → unit < 4 → kind = 3 → exec (.correctedError tier unit kind addr) s = .next (u.addSat F.MEM_CH_WCRC_COUNT 1 unit))
        ∧ (tier = 5 → exec (.correctedError tier unit kind addr) s = .next (u.addSat F.MEM_CELLAR_CRC_COUNT))
        ∧ (tier = 7 → exec (.correctedError tier unit kind addr) s = .next ((u.addSat F.MEM_NOC_CRC_RETRIES).event 0x7 1 unit addr)))
    ∧ (∀ unit kind addr : Nat, unit < 4 → kind ≠ 3 → ∃ (t : State) (l : List Nat),
        l = s.mono :: (tget [] s.mm.ce unit).filter (fun x => decide (s.mono < x + 3600 * 1000000000))
        ∧ exec (.correctedError 4 unit kind addr) s = .next t ∧ tget [] t.mm.ce unit = l
        ∧ t.f F.MEM_CH_CE_COUNT unit = satU 32 (s.f F.MEM_CH_CE_COUNT unit + 1) ∧ t.mem = s.mem ∧ t.mm.poison = s.mm.poison
        ∧ t.f F.MEM_CH_STATE_STATE unit = (if s.f F.MEM_CE_LIMIT_LIMIT < l.length ∧ s.f F.MEM_CH_STATE_STATE unit = 1 ∧ s.chOn ≠ [unit]
            then 2 else s.f F.MEM_CH_STATE_STATE unit))
    ∧ (∀ addr block : Nat, (s.reaches block addr = true → exec (.addressFault addr block) s = .next s)
        ∧ (s.reaches block addr = false → ∃ t : State, exec (.addressFault addr block) s = .next t
            ∧ t.f F.MEM_ERR_INFO_BLOCK = block % 2 ^ 8 ∧ t.f F.MEM_ERR_INFO_KIND = 5
            ∧ t.pair R.MEM_ERR_ADDR_LO R.MEM_ERR_ADDR_HI = addr % 2 ^ 64
            ∧ t.f F.MEM_ADDR_FAULTS_COUNT = satU 32 (s.f F.MEM_ADDR_FAULTS_COUNT + 1) ∧ t.fb F.MEM_EVT_ADDR_FAULT = true
            ∧ Touches ([R.MEM_ERR_INFO, R.MEM_ERR_ADDR_LO, R.MEM_ERR_ADDR_HI, R.MEM_ADDR_FAULTS].map (fun r => r.addr 0 0)) s t))
    ∧ ∀ tier unit kind addr block : Nat, kind ≠ 1 → tier ≠ 4 ∨ (tget [] s.mm.ue unit).length < 7 → ∃ t : State,
        exec (.uncorrectableError tier unit kind addr block) s = .next t ∧ t.mem = s.mem ∧ t.fb F.MEM_EVT_UE = true
        ∧ t.f F.MEM_ERR_INFO_BLOCK = block % 2 ^ 8 ∧ t.pair R.MEM_ERR_ADDR_LO R.MEM_ERR_ADDR_HI = addr % 2 ^ 64
        ∧ (∀ m ∈ t.mm.moves, m.page ≠ addr / 65536)
        ∧ (s.mm.pages.any (fun e => e.1 == addr / 65536) = true ∧ s.isShared (s.pg (addr / 65536)) = true ∨ s.copyOwner (addr / 65536) ≠ none →
            t.mm.poison = s.mm.poison ∧ t.mm.refills = if s.mm.refills.contains (addr / 65536) then s.mm.refills else addr / 65536 :: s.mm.refills)
        ∧ (s.mm.pages.any (fun e => e.1 == addr / 65536) = false ∨ s.isShared (s.pg (addr / 65536)) = false → s.copyOwner (addr / 65536) = none →
            t.mm.refills = s.mm.refills
            ∧ t.mm.poison = if (s.poisonOf (addr / 64)).isSome then s.mm.poison
                else { line := addr / 64, n := 1, tier := tier, unit := unit } :: s.mm.poison))
  ∧
  (∀ (s : State) (c : Nat), s.up = true → c < 4 →
    (s.f F.MEM_CH_STATE_STATE c ≠ 0 →
      (∀ d : Int, exec (.ddrDqsTrack c d) s = .next { s with mm := { s.mm with dqs := tput 0 s.mm.dqs c d } })
      ∧ exec (.ddrZqCal c) s = .next { s with mm := { s.mm with zqAt := tput 0 s.mm.zqAt c s.mono } }
      ∧ ∀ hot : Bool, exec (.ddrMr4Read c hot) s = .next (s.setB F.MEM_CH_STATE_HOT_REFRESH hot c))
    ∧ (s.f F.MEM_CH_STATE_STATE c = 0 → (∀ d : Int, exec (.ddrDqsTrack c d) s = .next s) ∧ exec (.ddrZqCal c) s = .next s
        ∧ ∀ hot : Bool, exec (.ddrMr4Read c hot) s = .next s)
    ∧ (s.f F.MEM_CH_STATE_STATE c = 1 ∨ s.f F.MEM_CH_STATE_STATE c = 2 → c ∉ s.mm.retrain →
        ∃ t : State, exec (.phyLockLoss c) s = .next t ∧ t.mm = { s.mm with retrain := c :: s.mm.retrain } ∧ t.mem = s.mem ∧ t.tally = s.tally
          ∧ t.out = s.out ∧ ∀ page : Nat, (s.pg page).hop = none → (s.pg page).ddr = some c → t.accessHeld page = true)
    ∧ (c ∉ s.mm.retrain → exec (.ddrRetrainDone c) s = .next s)
    ∧ (c ∈ s.mm.retrain → ∃ t : State, exec (.ddrRetrainDone c) s = .next t ∧ t.mm.retrain = s.mm.retrain.filter (· != c) ∧ t.mem = s.mem
        ∧ t.tally = s.tally ∧ (s.mm.bar4 = [] → t.out = s.out ∧ t.mm.pages = s.mm.pages))
    ∧ (c ∉ s.mm.retrain → exec (.retrainTimeout c) s = .next s)
    ∧ (c ∈ s.mm.retrain → (c ∈ s.mm.pt → ∃ d ∈ s.mm.pt, d ≠ c) → s.mm.pages = [] → ∃ t : State, exec (.retrainTimeout c) s = .next t
        ∧ t.f F.MEM_CH_STATE_STATE c = 3 ∧ t.f F.MEM_CH_STATE_CAUSE c = 4 ∧ c ∉ t.mm.retrain ∧ c ∉ t.mm.pt
        ∧ t.fb F.MEM_EVT_CH_RETIRED = true ∧ t.mem = s.mem)
    ∧ (c ∈ s.mm.retrain → c ∈ s.mm.pt → (∀ d ∈ s.mm.pt, d = c) → ∃ t : State, exec (.retrainTimeout c) s = .next t
        ∧ Safety.restarted 9 s t)
    ∧ (s.f F.MEM_CH_STATE_STATE c ≠ 2 → exec (.channelDrainDone c) s = .next s)
    ∧ (s.f F.MEM_CH_STATE_STATE c = 2 → (∀ e ∈ s.mm.pages, e.2.ddr ≠ some c) → ∃ t : State, exec (.channelDrainDone c) s = .next t
        ∧ t.f F.MEM_CH_STATE_STATE c = 3 ∧ t.f F.MEM_CH_STATE_CAUSE c = s.f F.MEM_CH_STATE_CAUSE c ∧ t.mm.poison = s.mm.poison
        ∧ t.mem = s.mem ∧ t.fb F.MEM_EVT_CH_RETIRED = true))

/-- R204, R220, R221, R223, R225. -/
def Obligations.PagesMove : Prop :=
  ∀ s : State, s.up = true →
    (s.chOn.length * s.chFrames * s.f F.MEM_MIG_CFG_LOW_WATER ≤ 100 * s.ddrFree →
      (s.mm.moves ≠ [] → exec (.migrationPass []) s = .next (s.addSat F.MEM_MIG_SKIPPED_COUNT))
      ∧ (s.mm.moves = [] → Canon {} s.mm.pages = true → ∃ t : State, exec (.migrationPass []) s = .next t
          ∧ (∀ p : Nat, t.pg p = if s.migrates (s.pg p) then { s.pg p with score := (s.pg p).score * 3 / 4 + (s.pg p).count, count := 0 }
              else s.pg p)
          ∧ (∀ m ∈ t.mm.moves, m.die = none → ((s.pg m.page).hop).isSome = true) ∧ (∀ m ∈ t.mm.moves, s.migrates (s.pg m.page) = true)
          ∧ t = { s with mm := { s.mm with pages := t.mm.pages, moves := t.mm.moves } }))
    ∧ (∀ page : Nat, (∀ m ∈ s.mm.moves, m.page ≠ page) → exec (.pageMigrateSwitch page) s = .next s)
    ∧ (∀ m : Move, s.mm.moves = [m] →
        (m.die = none → ∃ t : State, exec (.pageMigrateSwitch m.page) s = .next t ∧ t.mem = s.mem ∧ t.mm.moves = []
          ∧ t.pg m.page = { s.pg m.page with hop := none, hopDirty := false } ∧ ∀ p : Nat, p ≠ m.page → t.pg p = s.pg p)
        ∧ (m.die ≠ none → s.fb F.MEM_RGN_CTL_AFFINITY (s.pg m.page).rgn = true → s.hopFree (s.f F.MEM_RGN_CTL_DIE (s.pg m.page).rgn) = 0 →
          exec (.pageMigrateSwitch m.page) s = .next { s with mm := { s.mm with moves := [] } })
        ∧ (m.die ≠ none → (if s.fb F.MEM_RGN_CTL_AFFINITY (s.pg m.page).rgn then 0 < s.hopFree (s.f F.MEM_RGN_CTL_DIE (s.pg m.page).rgn)
              else 0 < s.hopFree 0 ∨ 0 < s.hopFree 1) → ∃ (t : State) (d : Nat), exec (.pageMigrateSwitch m.page) s = .next t
          ∧ t.mem = s.mem ∧ t.mm.moves = [] ∧ t.pg m.page = { s.pg m.page with hop := some d, hopDirty := false }
          ∧ (s.fb F.MEM_RGN_CTL_AFFINITY (s.pg m.page).rgn = true → d = s.f F.MEM_RGN_CTL_DIE (s.pg m.page).rgn)
          ∧ t.pair R.MEM_MIG_BYTES_LO R.MEM_MIG_BYTES_HI = (s.pair R.MEM_MIG_BYTES_LO R.MEM_MIG_BYTES_HI + 65536) % 2 ^ 64
          ∧ ∀ p : Nat, p ≠ m.page → t.pg p = s.pg p))
    ∧ (∀ page bad : Nat,
        (page ∉ s.mm.refills → exec (.refillDone page bad) s = .next s)
        ∧ (page ∈ s.mm.refills →
          (bitOf bad 0 = false → (s.pg page).ddr.isSome = true → ∃ t : State, exec (.refillDone page bad) s = .next t
            ∧ t.f F.MEM_REFILL_DDR_COUNT = satU 32 (s.f F.MEM_REFILL_DDR_COUNT + 1) ∧ t.fb F.MEM_EVT_REFILL = true ∧ page ∉ t.mm.refills
            ∧ t.mem = s.mem
            ∧ ∀ q : Poison, q ∈ t.mm.poison ↔ q ∈ s.mm.poison ∧ (q.line < page * 1024 ∨ page * 1024 + 1024 ≤ q.line))
          ∧ (bitOf bad 0 = true ∨ (s.pg page).ddr.isSome = false → 65536 ≤ page → bitOf bad 1 = false → s.cellarReady = true → (s.pg page).cellar = true →
            ∃ t : State, exec (.refillDone page bad) s = .next t
            ∧ t.f F.MEM_REFILL_CELLAR_COUNT = satU 32 (s.f F.MEM_REFILL_CELLAR_COUNT + 1) ∧ t.fb F.MEM_EVT_REFILL = true
            ∧ page ∉ t.mm.refills ∧ t.mem = s.mem)
          ∧ (bad % 4 = 3 → bitOf bad 2 = false → ∃ t : State, exec (.refillDone page bad) s = .next t
            ∧ t.f F.MEM_REFILL_FLASH_COUNT = satU 32 (s.f F.MEM_REFILL_FLASH_COUNT + 1) ∧ t.fb F.MEM_EVT_REFILL_FLASH = true
            ∧ page ∉ t.mm.refills ∧ t.mem = s.mem))
        ∧ (page ∈ s.mm.refills → bad % 8 = 7 → 65536 ≤ page → s.netOfPage page = none → ∃ t : State, exec (.refillDone page bad) s = .next t ∧ Safety.restarted 3 s t)
        ∧ (page ∈ s.mm.refills → bad % 8 = 7 → 65536 ≤ page → s.netOfPage page ≠ none → ∃ t : State, exec (.refillDone page bad) s = .next t
          ∧ (t.pg page).lost = true ∧ t.fb F.MEM_EVT_PAGE_LOST = true ∧ page ∉ t.mm.refills))
    ∧ ∀ (page fails : Nat) (bad : Bool), bad = (decide (2 ≤ fails) || s.badAtRest page) → s.cellarReady = true →
        s.mm.pages.any (fun e => e.1 == page) = true → s.isDeep (s.pg page) = true →
        (s.pg page).cellar = true → (s.pg page).ddr = none → s.mm.waitDdr = [] → 0 < s.ddrFree → Canon {} s.mm.pages = true →
        s.chOn.length * s.chFrames * s.f F.MEM_MIG_CFG_LOW_WATER + 100 ≤ 100 * s.ddrFree →
        ∃ t : State, exec (.demandFillDone page fails) s = .next t ∧ (t.pg page).ddr = s.newFrame 4 ∧ (t.pg page).ddr ≠ none
          ∧ t.mem = s.mem ∧ t.f F.MEM_CELLAR_CRC_COUNT = satU 32 (s.f F.MEM_CELLAR_CRC_COUNT + if bad then 2 else fails)
          ∧ (bad = false → t.mm.poison = s.mm.poison ∧ (t.pg page).lost = (s.pg page).lost)
          ∧ (bad = true → (t.pg page).lost = true ∧ t.poisoned (page * 65536) 65536 = true ∧ t.fb F.MEM_EVT_PAGE_LOST = true
              ∧ t.f F.MEM_PAGES_LOST_COUNT = satU 32 (s.f F.MEM_PAGES_LOST_COUNT + 1))

/-- R214, R215, R216, R217, R218. The abort's command identifier is the page (log entry 100). A write-back is stated for a journal that reaches to
its superblock's head, as the part writes it; what another maker's SSD holds the spec does not bound. -/
def Obligations.CellarCommands : Prop :=
  ∀ s : State, s.up = true →
    (∀ op page : Nat, s.cellarGone = false → s.mm.resetting = false →
        (∀ e ∈ s.mm.nvme, ¬ (e.1 = op ∧ e.2.1 = page)) →
        exec (.nvmeTimeout op page true) s = .next ((({ s.addSat F.MEM_CELLAR_TIMEOUTS_COUNT with mm := { s.mm with nvme := (op, page, 1) :: s.mm.nvme } } : State).emit
            (.nvme 9 page false)).emit (s.nvmeOut op page))
        ∧ ((s.mm.resets.filter (fun t => decide (s.mono ≤ t + 60000000000))).length < 2 →
          exec (.nvmeTimeout op page false) s = .next (((({ s.addSat F.MEM_CELLAR_TIMEOUTS_COUNT with
            out := .nvme 9 page false :: s.out,
            mm := { s.mm with
              nvme := (op, page, 1) :: s.mm.nvme, resetting := true,
              resets := s.mono :: s.mm.resets.filter (fun t => decide (s.mono ≤ t + 60000000000)) } } : State)).addSat F.MEM_CELLAR_STATUS_RESETS).event 0x7 6))
        ∧ (2 ≤ (s.mm.resets.filter (fun t => decide (s.mono ≤ t + 60000000000))).length → op ≠ 0 → s.mm.nvme = [] →
          ∃ t : State, exec (.nvmeTimeout op page false) s = .next t ∧ t.f F.MEM_CELLAR_STATUS_STATE = 5 ∧ t.fb F.MEM_STATUS_CELLAR_FAILED = true
            ∧ t.fb F.MEM_STATUS_CELLAR_READY = false ∧ t.fb F.MEM_EVT_CELLAR_RESET = true ∧ t.fb F.MEM_EVT_CELLAR_FAIL = true
            ∧ t.mm.resetting = false ∧ t.mm.nvme = [] ∧ t.mem = s.mem))
    ∧ (∀ op page n : Nat, s.cellarGone = false → s.mm.resetting = false → s.mm.nvme = [(op, page, n + 1)] → s.mm.resets = [] →
        exec (.nvmeTimeout op page true) s = .next (((({ s.addSat F.MEM_CELLAR_TIMEOUTS_COUNT with mm := { s.mm with
            nvme := [(op, page, n + 2)], resetting := true, resets := [s.mono] } } : State)).addSat F.MEM_CELLAR_STATUS_RESETS).event 0x7 6))
    ∧ (s.mm.resetting = false → exec .cellarResetDone s = .next s)
    ∧ (s.mm.resetting = true → s.mm.waitDdr = [] → exec .cellarResetDone s = .next ({ s with
        mm := { s.mm with resetting := false, nvme := s.mm.nvme.map (fun e => (e.1, e.2.1, 0)) },
        out := (s.mm.nvme.map (fun e => s.nvmeOut e.1 e.2.1)).reverse ++ s.out } : State).syncMem)
    ∧ (∀ (op page warn used : Nat) (err : Bool) (u : State), op ≠ 4 →
        u = { s with mm := { s.mm with nvme := s.mm.nvme.filter (fun e => !(e.1 == op && e.2.1 == page)) } } →
        (err = false ∨ op ≠ 0 → exec (.nvmeCompletion op page err warn used) s = .next u)
        ∧ (err = true → op = 0 → (∀ e ∈ s.mm.nvme, ¬ (e.1 = 0 ∧ e.2.1 = page)) →
            exec (.nvmeCompletion op page err warn used) s = .next (u.addSat F.MEM_CELLAR_CRC_COUNT))
        ∧ (err = true → op = 0 → (∃ e ∈ s.mm.nvme, e.1 = 0 ∧ e.2.1 = page) → page ∉ s.mm.reread →
            exec (.nvmeCompletion op page err warn used) s = .next (({ u.addSat F.MEM_CELLAR_CRC_COUNT with
              mm := { u.mm with reread := page :: s.mm.reread, nvme := (0, page, 0) :: u.mm.nvme } } : State).emit (s.nvmeOut 0 page)))
        ∧ (err = true → op = 0 → (∃ e ∈ s.mm.nvme, e.1 = 0 ∧ e.2.1 = page) → page ∈ s.mm.reread →
            ∃ t : State, exec (.nvmeCompletion op page err warn used) s = .next t ∧ (t.pg page).lost = true ∧ t.fb F.MEM_EVT_PAGE_LOST = true
              ∧ (∀ e ∈ t.mm.nvme, ¬ (e.1 = 0 ∧ e.2.1 = page)) ∧ page ∉ t.mm.reread ∧ t.mem = s.mem))
    ∧ (∀ (page warn used : Nat) (err : Bool), exec (.nvmeCompletion 4 page err warn used) s
        = .next ((({ s with mm := { s.mm with nvme := s.mm.nvme.filter (fun e => !(e.1 == 4 && e.2.1 == page)) } } : State).setF
            F.MEM_CELLAR_HEALTH_WARNING warn).setF F.MEM_CELLAR_HEALTH_USED_PCT used))
    ∧ (∀ b : Super, s.cellarReady = true → s.mm.resetting = false → s.ssd.super = some b →
        ∃ t : State, exec .cellarCheckpoint s = .next t ∧ t = { s with ssd := t.ssd, out := t.out }
          ∧ t.ssd.super = some { b with ckpt := !b.ckpt, seq := b.seq + 1, head := s.ssd.first + s.ssd.journal.length }
          ∧ (t.ssd.sb0 = some b ∨ t.ssd.sb1 = some b) ∧ t.ssd.live = s.ssd.live ∧ t.ssd.store = s.ssd.store ∧ t.ssd.lbas = s.ssd.lbas)
    ∧ (s.cellarReady = false ∨ s.mm.resetting = true → exec .cellarCheckpoint s = .next s ∧ ∀ p : Nat, exec (.cellarWriteback p) s = .next s)
    ∧ (∀ (page n : Nat) (b : Super), s.cellarReady = true → s.mm.resetting = false → s.mm.pages.any (fun e => e.1 == page) = true →
        s.isDeep (s.pg page) = true → (s.pg page).lost = false → s.ssd.super = some b → b.head ≤ s.ssd.first + s.ssd.journal.length →
        ((s.pg page).stale = false → exec (.cellarWriteback page) s = .next s)
        ∧ (s.ssd.free = none → exec (.cellarWriteback page) s = .next s)
        ∧ ((s.pg page).stale = true → s.ssd.free = some n → ∃ (t : State) (c : CellarPage), exec (.cellarWriteback page) s = .next t
          ∧ t.pg page = { s.pg page with cellar := true, stale := false } ∧ t.mem = s.mem ∧ t.ssd.find { page := page } = some (n, c)
          ∧ c.page = page ∧ c.data = s.pageCells page ∧ c.key = s.f F.MEM_RGN_CTL_KEY (s.pg page).rgn ∧ c.crc = c.sums s.cellarKey b.p n
          ∧ bitOf c.flags 0 = s.fb F.MEM_CELLAR_CFG_ENCRYPT
          ∧ (∀ o, s.ssd.find { page := page } = some o → c.gen = o.2.gen + 1)
          ∧ (s.ssd.find { page := page } = none → c.gen = 1 ∧ t.out = .nvme 1 (journalLba (s.ssd.first + s.ssd.journal.length)) true
              :: .nvme 1 (pageLba b.p n + 16) true :: .nvme 1 (pageLba b.p n) false :: s.out)
          ∧ ∀ (k : Nat) (o : CellarPage), o.same { page := page } = false → ((k, o) ∈ t.ssd.pages ↔ (k, o) ∈ s.ssd.pages)))
    ∧ (s.fb F.MEM_CELLAR_CFG_ENABLE = true → s.f F.MEM_CELLAR_STATUS_STATE < 3 → s.mm.noSsd = false →
        (s.mm.nvme = [] → ∀ x : CellarFind, x.present = false → ∃ t : State, exec (.cellarBringupDone x) s = .next t
          ∧ t.f F.MEM_CELLAR_STATUS_STATE = 0 ∧ t.cellarGone = true ∧ t.mem = s.mem ∧ t.ssd = s.ssd)
        ∧ (∀ n : Nat, s.fb F.SEC_STATUS_ID_FAIL = false ∨ s.fb F.MEM_CELLAR_CFG_ENCRYPT = false → s.mm.pages = [] → s.mm.waitDdr = [] → ∃ t : State,
          exec (.cellarBringupDone { swap := some { lbas := n } }) s = .next t
          ∧ t.f F.MEM_CELLAR_STATUS_STATE = 3 ∧ t.fb F.MEM_STATUS_CELLAR_READY = true ∧ t.mem = s.mem ∧ t.ssd.pages = []
          ∧ t.ssd.super = some { ident := s.otp.idDigest, enc := s.fb F.MEM_CELLAR_CFG_ENCRYPT, p := 256 * (n - 262400) / 4353, seq := 1 }
          ∧ t.pair R.MEM_CELLAR_CAP_LO R.MEM_CELLAR_CAP_HI = (256 * (n - 262400) / 4353) % 2 ^ 64)
        ∧ (s.mm.nvme = [] → s.fb F.SEC_STATUS_ID_FAIL = false ∨ s.fb F.MEM_CELLAR_CFG_ENCRYPT = false → s.fb F.MEM_CELLAR_CFG_FOREIGN_INIT = false →
          ∀ d : Ssd, ∀ b : Super, d.super = some b → b.ident ≠ s.otp.idDigest ∨ b.version ≠ 1 →
          ∃ t : State, exec (.cellarBringupDone { swap := some d }) s = .next t ∧ t.f F.MEM_CELLAR_STATUS_STATE = 4
            ∧ t.fb F.MEM_STATUS_CELLAR_FOREIGN = true ∧ t.ssd = d ∧ t.mem = s.mem))

/-- What lets a session's next vision step run (R229, R235): its frame has arrived and started after the session entered INITIALISING, and
the Tallies of its inputs have come far enough. -/
def Sys2Proof.Safety.stepOpens (s : State) (n : Nat) : Prop :=
  s.sesOn n = true ∧ ∃ (c : Nat × Nat) (f : Src) (st t0 : Nat), (s.cams n).head? = some c ∧ s.src c.2 (s.ses n).next = some f ∧ f.closed = true
    ∧ s.frameStart c.2 (s.ses n).next = some st ∧ (s.ses n).initAt = some t0 ∧ t0 ≤ st ∧ s.stepReady n (s.ses n).next f.ts = true

/-- R229, R230, R235, R236, R258, R260–R262. The accepted observations and the sources used are those that the step shows. -/
def Obligations.VisionSteps : Prop :=
  ∀ (s : State) (n : Nat), s.up = true →
    (s.sesState n = 0 ∨ s.sesOn n = false ∨ s.cams n = [] → exec (.visionStep n) s = .next s)
    ∧ (Safety.stepOpens s n → s.sesState n ≠ 0 → ∃ t : State, exec (.visionStep n) s = .next t
      ∧ (t.ses n).next = (s.ses n).next + 1 ∧ t.sesState n ≠ 0
      ∧ (s.sesState n = 2 ∨ s.sesState n = 3 →
          t.pair R.FRM_SES_SEQ_LO R.FRM_SES_SEQ_HI n = (s.pair R.FRM_SES_SEQ_LO R.FRM_SES_SEQ_HI n + 1) % 2 ^ 64
          ∧ ∃ r ∈ t.hst.outq, r.kind = 0 ∧ r.source = n ∧ r.vision = true ∧ r.bytes.length = 256
              ∧ r.bytes.take 8 = leBytes 8 ((s.pair R.FRM_SES_SEQ_LO R.FRM_SES_SEQ_HI n + 1) % 2 ^ 64))
      ∧ (s.mm.poison = [] →
        (s.sesState n = 3 → s.joints n = [] → (s.ses n).reloc = none → t.sesState n = 3 ∧ t.f F.FRM_SES_STATE_STATUS n = St.lost)
        ∧ (s.sesState n = 2 → (s.ses n).gateRun + 1 < s.f F.FRM_SES_GATE_GATE_RESET n →
            (t.ses n).lostRun = (if t.f F.FRM_SES_OBS_ACCEPTED n < s.f F.FRM_SES_LOST_LOST_MIN n ∧ bitOf (t.f F.FRM_SES_SOURCES_USED n) 9 = false
                ∧ bitOf (t.f F.FRM_SES_SOURCES_USED n) 11 = false then (s.ses n).lostRun + 1 else 0)
            ∧ (t.sesState n = 3 ↔ s.f F.FRM_SES_LOST_LOST_STEPS n ≤ (t.ses n).lostRun
                ∨ (t.ses n).pose.above (s.f F.FRM_SES_LOST_SIGMA_M n) = true)
            ∧ (t.sesState n ≠ 3 → t.sesState n = 2) ∧ (t.f F.FRM_SES_STATE_STATUS n = St.lost ↔ t.sesState n = 3)
            ∧ (t.sesState n = 3 → t.fb F.FRM_EVT_LOST = true)
            ∧ t.f F.FRM_SES_COUNTS_LOSSES n = satU 16 (s.f F.FRM_SES_COUNTS_LOSSES n + if t.sesState n = 3 then 1 else 0))
        ∧ (s.sesState n = 1 → s.f F.FRM_SES_CTL_INIT_MODE n = 1 → (s.ses n).reloc = none →
            t.sesState n = 1 ∧ (if (s.ses n).timedOut = true
              then t.pair R.FRM_SES_SEQ_LO R.FRM_SES_SEQ_HI n = (s.pair R.FRM_SES_SEQ_LO R.FRM_SES_SEQ_HI n + 1) % 2 ^ 64
                ∧ t.f F.FRM_SES_STATE_STATUS n = St.lost
              else t.pair R.FRM_SES_SEQ_LO R.FRM_SES_SEQ_HI n = s.pair R.FRM_SES_SEQ_LO R.FRM_SES_SEQ_HI n))))

/-- R230, R257, R258, R297, R299, R378. -/
def Obligations.SessionTimers : Prop :=
  ∀ (s : State) (n : Nat), s.up = true → s.sesOn n = true →
    (s.sesState n = 1 → (s.ses n).timedOut = false →
        exec (.initTimeout n) s = .next ((s.setSes n { s.ses n with timedOut := true }).event 0x8 10 n))
    ∧ (s.sesState n ≠ 1 ∨ (s.ses n).timedOut = true → exec (.initTimeout n) s = .next s)
    ∧ (s.sesState n = 3 → exec (.coastExpire n) s = .next (s.setSes n { s.ses n with coastOver := true }))
    ∧ (s.sesState n ≠ 3 → exec (.coastExpire n) s = .next s)
    ∧ (∀ kind r kf : Nat, s.foldable n kind r = false → exec (.foldIn n kind r kf) s = .next s)
    ∧ (∀ kind r : Nat, s.rdNum (r + 8) 8 = 0 ∨ s.tv (s.f F.KTL_PROB_TALLY_OUT (s.rdNum r 1)) < s.rdNum (r + 8) 8 → kind ≠ 1 →
        s.foldable n kind r = false)
    ∧ (∀ kind r kf : Nat, kind < 3 → s.foldable n kind r = true → exec (.foldIn n kind r kf) s
        = .next (s.setSes n { s.ses n with folds := (s.ses n).folds ++ [{ kind := kind, record := r }] }))
    ∧ (∀ r kf : Nat, s.mapProb (s.f F.FRM_SES_MAP_MAP_ID n) = none ∨ bitOf (s.rdNum (r + 4) 4) 11 = false →
        exec (.foldIn n 3 r kf) s = .next s)
    ∧ (∀ r kf p : Nat, s.mapProb (s.f F.FRM_SES_MAP_MAP_ID n) = some p → bitOf (s.rdNum (r + 4) 4) 11 = true → s.sharedGraph p = false →
        s.foldable n 3 r = true → s.producer 8 (s.f F.KTL_PROB_TALLY_IN p) = true →
        ∃ (t : State) (d : Delta), exec (.foldIn n 3 r kf) s = .next t ∧ (t.prob p).ring = (s.prob p).ring ++ [d]
          ∧ (t.prob p).pendingLoop = true ∧ (t.prob p).vars = (s.prob p).vars ∧ (t.prob p).facs = (s.prob p).facs ∧ t.mem = s.mem
          ∧ ((s.rdNum (r + 96) 8, kf) ∈ (s.prob p).loops → d.op = 5 ∧ (t.prob p).loops = (s.prob p).loops)
          ∧ ((s.rdNum (r + 96) 8, kf) ∉ (s.prob p).loops → d.op = 4 ∧ d.vars.length = 2
              ∧ (t.prob p).loops = (s.rdNum (r + 96) 8, kf) :: (s.prob p).loops))
    ∧ (s.sesProb 4 n = none ∨ s.calEntries n = ([], []) → exec (.calibPost n) s = .next s)
    ∧ ∀ (p : Nat) (r : Run), s.sesProb 4 n = some p → s.calEntries n ≠ ([], []) → (s.prob p).run = some r → r.unit.isSome = true →
        s.freeKettles = [] → s.producer 8 (s.f F.KTL_PROB_TALLY_IN p) = true →
        ∃ (t : State) (l : List Delta) (g : Trig), exec (.calibPost n) s = .next t ∧ (t.prob p).ring = (s.prob p).ring ++ l
          ∧ l.getLast? = some { op := 7, ts := s.now, key := s.f F.FRM_SES_KEYFRAMES_COUNT n - 1 }
          ∧ (t.prob p).ready = [g] ∧ g.key = s.f F.FRM_SES_KEYFRAMES_COUNT n - 1 ∧ g.since = s.mono
          ∧ (t.ses n).calAt = s.f F.FRM_SES_KEYFRAMES_COUNT n ∧ t.mem = s.mem

/-- R238, R259, R261, R350. -/
def Obligations.PropagationAndQueries : Prop :=
  ∀ (s : State) (n : Nat), s.up = true → s.sesOn n = true →
    (∀ c seq ts : Nat, (s.imuChans n).head? = some c → seq = (s.chan c).seq - 1 →
        ts = s.rdNum (s.pair R.SPG_CH_RING_LO R.SPG_CH_RING_HI c + 32 * (seq % (64 * 2 ^ s.f F.SPG_CH_RING_CFG_LEN c))) 8 * 1000000000
          + s.rdNum (s.pair R.SPG_CH_RING_LO R.SPG_CH_RING_HI c + 32 * (seq % (64 * 2 ^ s.f F.SPG_CH_RING_CFG_LEN c)) + 8) 4 →
        (s.sesState n < 2 ∨ s.f F.FRM_SES_CTL_PROP_DIV n = 0 ∨ seq % s.f F.FRM_SES_CTL_PROP_DIV n ≠ 0 ∨ s.imuValid n = false
          ∨ s.srcHeld n 8 = true ∨ (s.ses n).lastImu = some seq → exec (.propagatedRecord n) s = .next s)
        ∧ (s.sesState n = 2 ∨ s.sesState n = 3 → s.f F.FRM_SES_CTL_PROP_DIV n ≠ 0 → (s.chan c).seq ≠ 0 →
            seq % s.f F.FRM_SES_CTL_PROP_DIV n = 0 → s.imuValid n = true → s.srcHeld n 8 = false → (s.ses n).lastImu ≠ some seq →
          ∃ (t : State) (r : Pub), exec (.propagatedRecord n) s = .next t ∧ t.mem = s.mem ∧ (t.ses n).lastImu = some seq
            ∧ t.hst.outq = s.hst.outq ++ [r] ∧ r.kind = 0 ∧ r.source = n ∧ r.vision = false ∧ r.bytes.length = 256
            ∧ (r.bytes.drop 8).take 12 = tsBytes ts
            ∧ t.pair R.FRM_SES_SEQ_LO R.FRM_SES_SEQ_HI n = (s.pair R.FRM_SES_SEQ_LO R.FRM_SES_SEQ_HI n + 1) % 2 ^ 64
            ∧ (t.f F.FRM_SES_STATE_STATUS n = St.lost ↔ s.sesState n = 3) ∧ t.sesState n = s.sesState n
            ∧ ∀ k : Nat, t.tallyOf k = if k = (s.sesParam n).pose ∧ s.producer 8 k = true then (s.tallyOf k).add 1 (some ts) else s.tallyOf k))
    ∧ (s.imuChans n = [] → exec (.propagatedRecord n) s = .next s)
    ∧ (s.sesState n ≠ 3 → s.sesState n ≠ 1 ∨ s.f F.FRM_SES_CTL_INIT_MODE n ≠ 1 → exec (.relocQueryPost n) s = .next s)
    ∧ (s.tv (s.f F.TNS_INS_TALLY_OUT (s.f F.FRM_SES_RELOC_PLACE_INS n))
          < (s.ses n).next * s.snsBands (s.insSensor (s.f F.FRM_SES_RELOC_PLACE_INS n)) → 0 < (s.ses n).next →
        exec (.relocQueryPost n) s = .next s)
    ∧ ∀ (q : Nat) (d : List Byte), q = (s.sesParam n).queue → q < 16 → 0 < (s.ses n).next → s.placeDesc n ((s.ses n).next - 1) = some d →
        s.placeReady n ((s.ses n).next - 1) = true →
        s.sesState n = 3 ∨ (s.sesState n = 1 ∧ s.f F.FRM_SES_CTL_INIT_MODE n = 1) →
        (∀ x : Nat, (s.ses n).posted = some x → s.mono * s.f F.FRM_SES_RELOC_RELOC_HZ n < x * s.f F.FRM_SES_RELOC_RELOC_HZ n + 1000000000 →
          exec (.relocQueryPost n) s = .next s)
        ∧ (s.mm.poison = [] → (∀ x : Nat, (s.ses n).posted = some x →
            x * s.f F.FRM_SES_RELOC_RELOC_HZ n + 1000000000 ≤ s.mono * s.f F.FRM_SES_RELOC_RELOC_HZ n) →
          ∃ (t : State) (b : List Byte), exec (.relocQueryPost n) s = .next t ∧ (t.ses n).posted = some s.mono ∧ b.length = 320
            ∧ t.f F.FRM_SES_RELOCS_QUERIES n = satU 16 (s.f F.FRM_SES_RELOCS_QUERIES n + 1)
            ∧ t.mem = s.mem.writeList (s.pair R.CSK_Q_IN_LO R.CSK_Q_IN_HI q
                + 320 * (s.tv (s.f F.CSK_Q_TALLY_IN q) % 2 ^ s.f F.CSK_Q_CTL_LOG2_LEN q)) b
            ∧ nth 0#8 b 8 = BitVec.ofNat 8 (s.f F.CSK_Q_CTL_INDEX q) ∧ nth 0#8 b 9 = BitVec.ofNat 8 (s.f F.FRM_SES_RELOC_RELOC_K n)
            ∧ b.drop 64 = fitBytes 256 d
            ∧ ∀ k : Nat, t.tallyOf k = if k = s.f F.CSK_Q_TALLY_IN q ∧ s.producer 8 k = true then (s.tallyOf k).add 1 none else s.tallyOf k)

/-- R250, R251. -/
def Obligations.SourceArbitration : Prop :=
  ∀ (prior : Nat → Bool) (pair : Nat → Nat → Bool) (score : Nat → Nat) (c : List Nat), c.Nodup →
    let a := arbitrate prior pair score c
    (∀ x ∈ a.used ++ a.withheld ++ a.outvoted ++ a.rejected ++ a.probation, x ∈ c)
    ∧ (∀ x ∈ c, (x ∈ a.used ∨ x ∈ a.withheld ∨ x ∈ a.outvoted ∨ x ∈ a.rejected))
    ∧ (∀ x ∈ a.used, prior x = true) ∧ (a.conflict = true ↔ a.withheld = c ∧ c ≠ [])
    ∧ (∀ x : Nat, c = [x] → (x ∈ a.used ↔ prior x = true) ∧ a.conflict = false)
    ∧ (∀ x y : Nat, c = [x, y] → (pair x y = true → a.used = c.filter prior ∧ a.conflict = false)
        ∧ (pair x y = false → (a.conflict = true ↔ prior x = prior y) ∧ (prior x ≠ prior y → a.used = c.filter prior)))
    ∧ (3 ≤ c.length → (a.conflict = false → c.length < 2 * a.used.length ∧ (∀ x ∈ a.used, ∀ y ∈ a.used, x ≠ y → pair x y = true)
          ∧ a.outvoted = c.filter (fun x => !a.used.contains x) ∧ a.probation = a.outvoted)
        ∧ (a.conflict = true ↔ ∀ l : List Nat, l.Sublist c → (∀ x ∈ l, prior x = true) → (∀ x ∈ l, ∀ y ∈ l, x ≠ y → pair x y = true) →
            2 * l.length ≤ c.length))
    ∧ (a.conflict = true → ∃ b ∈ c, (∀ x ∈ c, score x ≤ score b ∧ (score x = score b → b ≤ x)) ∧ a.probation = c.filter (· != b))

/-- R267, R282–R286. The numbers of the iteration are functions of the problem, its settings and the iterate (`kIter`). -/
def Obligations.KettleIterations : Prop :=
  ∀ (s : State) (p : Nat) (bad1 bad2 : Bool), s.up = true →
    ((s.prob p).run = none ∨ s.kindOf p = 5 → exec (.kettleIterationDone p bad1 bad2) s = .next s)
    ∧ ∀ r : Run, (s.prob p).run = some r →
      (r.unit = none ∨ r.ended = true → exec (.kettleIterationDone p bad1 bad2) s = .next s)
      ∧ (let o := (s.kIter p r bad1 bad2).1
        r.unit.isSome = true → r.ended = false → s.probOn p = true → s.kindOf p ≠ 5 → s.mm.poison = [] →
        ∃ (t : State) (r' : Run), exec (.kettleIterationDone p bad1 bad2) s = .next t
          ∧ (t.prob p).run = some r' ∧ r'.iters = r.iters + 1 ∧ r'.unit = r.unit ∧ r'.trig = r.trig
          ∧ t.mem = s.mem ∧ (∀ q : Nat, q ≠ p → t.prob q = s.prob q)
          ∧ t.f F.KTL_FX_SAT_COUNT = satU 32 (s.f F.KTL_FX_SAT_COUNT + o.fxSat)
          ∧ t.f F.KTL_CHECK_FAIL_FIRST = satU 16 (s.f F.KTL_CHECK_FAIL_FIRST + b2n (!o.first))
          ∧ t.f F.KTL_CHECK_FAIL_SECOND = satU 16 (s.f F.KTL_CHECK_FAIL_SECOND + b2n (!o.first && !o.second))
          ∧ (o.first = false → o.second = false → bitOf r'.flags 4 = true)
          ∧ r'.x0 = r.x0 ∧ r'.cost0 = r.cost0 ∧ r'.eta = (s.kIter p r bad1 bad2).2.2
          ∧ (o.abandoned = false → o.fxSat = 0 → o.first = true ∨ o.second = true → (Fv.ofInt 0).lt (fp64.dec o.gain) = true →
              r'.x = (s.kIter p r bad1 bad2).2.1 ∧ r'.cost1 = o.cost1)
          ∧ (o.abandoned = true ∨ 0 < o.fxSat ∨ (o.first = false ∧ o.second = false) ∨ (Fv.ofInt 0).lt (fp64.dec o.gain) = false →
              r'.x = r.x ∧ r'.cost1 = r.cost1)
          ∧ (s.f F.KTL_PROB_CTL_ITER_MAX p ≤ r.iters + 1 → r'.ended = true)
          ∧ (∀ lam nu : Nat, s.f F.KTL_PROB_CTL_STEP p = 0 → r.damp = some (lam, nu) →
              (o.abandoned = false → o.fxSat = 0 → o.first = true ∨ o.second = true → (Fv.ofInt 0).lt (fp64.dec o.gain) = true →
                r'.damp = some (lambdaDown lam o.gain, fp64.ofInt 2)
                ∧ (r'.ended = true ↔ s.stepSmall p o = true ∨ s.gradSmall p o.grad = true ∨ s.f F.KTL_PROB_CTL_ITER_MAX p ≤ r.iters + 1
                    ∨ (s.kindOf p = 2 ∧ 20 ≤ r.iters + 1))
                ∧ (s.stepSmall p o = true → r'.conds = r.conds ∧ bitOf r'.flags 0 = true)
                ∧ (s.stepSmall p o = false → s.f F.KTL_PROB_CTL_ITER_MAX p ≤ r.iters + 1 → r'.conds = St.notConverged :: r.conds))
              ∧ (o.abandoned = true ∨ (Fv.ofInt 0).lt (fp64.dec o.gain) = false →
                (((fp64.dec o.maxDiag).mul (Fv.ofInt (2 ^ 40))).lt (fp64.dec (fp64.mul lam nu)) = false →
                  r'.damp = some (fp64.mul lam nu, fp64.mul nu (fp64.ofInt 2)))
                ∧ (((fp64.dec o.maxDiag).mul (Fv.ofInt (2 ^ 40))).lt (fp64.dec (fp64.mul lam nu)) = true →
                  r'.ended = true ∧ r'.conds = St.notConverged :: r.conds ∧ bitOf r'.flags 10 = true)))
          ∧ (∀ d x : Nat, s.f F.KTL_PROB_CTL_STEP p = 1 → s.kindOf p ≠ 2 → r.damp = some (d, x) → o.abandoned = true →
              r'.damp = some (fp64.div d (fp64.ofInt 4), 0)))

/-- R279, R289. -/
def Obligations.SolveDeadlines : Prop :=
  ∀ (s : State) (p n : Nat), s.up = true →
    (s.f F.KTL_DEADLINE_US p = 0 → exec (.solveDeadline p n) s = .next s)
    ∧ (∀ r : Run, (s.prob p).run = some r →
        (r.ended = true ∨ s.kindOf p = 5 ∨ s.mono < r.trig.since + 1000 * s.f F.KTL_DEADLINE_US p → exec (.solveDeadline p n) s = .next s)
        ∧ (s.f F.KTL_DEADLINE_US p ≠ 0 → r.ended = false → s.kindOf p ≠ 5 → r.trig.since + 1000 * s.f F.KTL_DEADLINE_US p ≤ s.mono →
          ∃ q : Nat, s.mono ≤ q ∧ q ≤ s.mono + 20000 ∧ (r.unit = none → q = s.mono)
            ∧ exec (.solveDeadline p n) s = .next (s.setProb p { s.prob p with
                run := some { r with ended := true, conds := St.partial :: r.conds, stopAt := q,
                                     flags := r.flags ||| (if r.unit.isSome && decide (r.began < s.mono) then 4 else 2) } })))
    ∧ ((s.prob p).run = none → (s.prob p).ready.length ≤ n → exec (.solveDeadline p n) s = .next s)
    ∧ (∀ g : Trig, (s.prob p).run = none → ((s.prob p).ready.drop n).head? = some g →
        (s.mono < g.since + 1000 * s.f F.KTL_DEADLINE_US p → exec (.solveDeadline p n) s = .next s)
        ∧ (s.f F.KTL_DEADLINE_US p ≠ 0 → s.mm.poison = [] → g.since + 1000 * s.f F.KTL_DEADLINE_US p ≤ s.mono →
        ∃ (t : State) (b : List Byte), exec (.solveDeadline p n) s = .next t
          ∧ (t.prob p).ready = (s.prob p).ready.take n ++ (s.prob p).ready.drop (n + 1) ∧ (t.prob p).run = none
          ∧ (t.prob p).seq = (s.prob p).seq + 1 ∧ t.f F.KTL_PROB_SEQ_SEQ p = ((s.prob p).seq + 1) % 2 ^ 32
          ∧ t.f F.KTL_PROB_LAST_STATUS p = St.late
          ∧ t.mem = s.mem.writeList (s.ktlSlot p ((s.prob p).seq + 1)) b ∧ b.length = (if s.kindOf p = 5 then 32 else 128)
          ∧ (s.kindOf p = 5 → nth 0#8 b 10 = BitVec.ofNat 8 St.late)
          ∧ (s.kindOf p ≠ 5 → nth 0#8 b 2 = BitVec.ofNat 8 St.late ∧ bitOf (leValue ((b.drop 4).take 4)) 3 = true)
          ∧ (∀ q : Nat, q ≠ p → t.prob q = s.prob q)
          ∧ ∀ k : Nat, t.tallyOf k = if k = s.f F.KTL_PROB_TALLY_OUT p ∧ s.producer 9 k = true then (s.tallyOf k).add 1 none else s.tallyOf k))
    ∧ ∀ (c f : Nat) (qr : Bool), (∀ u ∈ cutWork c ++ cutSupernode qr f, 0 < u ∧ u ≤ 22000) ∧ sumN (cutWork c) = c

/-- R296, R298, R301, R302. -/
def Obligations.SolutionRecords : Prop :=
  ∀ (s : State) (p : Nat), s.up = true →
    ((s.prob p).run = none → exec (.solveComplete p) s = .next s ∧ exec (.bodySolveDone p) s = .next s)
    ∧ (∀ r : Run, (s.prob p).run = some r → r.ended = false ∨ s.mono < r.stopAt ∨ s.kindOf p = 5 →
        exec (.solveComplete p) s = .next s)
    ∧ (s.mm.poison = [] → (∀ q : Nat, (s.prob q).ready = [] ∧ (q ≠ p → (s.prob q).run = none)) → ∀ (r : Run), (s.prob p).run = some r →
        (r.ended = true → r.stopAt ≤ s.mono → s.kindOf p ≠ 5 → s.kindOf p ≠ 2 → ∃ (t : State) (b : List Byte),
          exec (.solveComplete p) s = .next t ∧ (t.prob p).run = none ∧ (t.prob p).seq = (s.prob p).seq + 1 ∧ (t.prob p).vals = r.x
          ∧ t.mem = (s.mem.writeList (s.ktlSlot p ((s.prob p).seq + 1) + 128) (s.solveOut p r).values).writeList
              (s.ktlSlot p ((s.prob p).seq + 1)) b
          ∧ b.length = 128 ∧ b.take 4 = [BitVec.ofNat 8 p, BitVec.ofNat 8 (s.kindOf p), BitVec.ofNat 8 (statusOf r.conds), BitVec.ofNat 8 r.iters]
          ∧ (b.drop 32).take 32 = leBytes 8 r.cost0 ++ leBytes 8 r.cost1 ++ leBytes 8 r.grad ++ leBytes 8 r.eta
          ∧ t.f F.KTL_PROB_LAST_STATUS p = statusOf r.conds ∧ (t.prob p).vars = (s.prob p).vars ∧ (t.prob p).facs = (s.prob p).facs
          ∧ t.pair R.KTL_SOLVES_LO R.KTL_SOLVES_HI = (s.pair R.KTL_SOLVES_LO R.KTL_SOLVES_HI + 1) % 2 ^ 64
          ∧ (∃ q : Pub, t.hst.outq = s.hst.outq ++ [q] ∧ q.kind = 3 ∧ q.source = p ∧ q.bytes = b)
          ∧ (∀ k : Nat, t.tallyOf k = if k = s.f F.KTL_PROB_TALLY_OUT p ∧ s.producer 9 k = true then (s.tallyOf k).add 1 none else s.tallyOf k))
        ∧ (s.kindOf p = 2 → r.ended = true → r.stopAt ≤ s.mono → bitOf r.flags 11 = false → ∃ t : State, exec (.solveComplete p) s = .next t
          ∧ (t.prob p).run = none ∧ (t.prob p).seq = (s.prob p).seq + 1
          ∧ (bitOf (t.f F.KTL_PROB_LAST_FLAGS p) 11 = true ↔
              s.inlierThr p r.trig ≤ (s.solveOut p r).inliers ∧ (s.solveOut p r).eigOk = true ∧ 0 < (s.solveOut p r).inliers)
          ∧ (r.order = [] → bitOf (t.f F.KTL_PROB_LAST_FLAGS p) 11 = false ∧ (s.solveOut p r).values = [])
          ∧ (∀ k : Nat, t.tallyOf k = if k = s.f F.KTL_PROB_TALLY_OUT p ∧ s.producer 9 k = true then (s.tallyOf k).add 1 none else s.tallyOf k))
        ∧ (∀ (body tip : Nat) (v : List Nat), s.kindOf p = 5 → r.trig.inp = body :: tip :: v → body < 8 → ∃ (t : State) (b out : List Byte),
          exec (.bodySolveDone p) s = .next t ∧ (t.prob p).run = none ∧ (t.prob p).seq = (s.prob p).seq + 1
          ∧ t.mem = s.mem.writeList (s.ktlSlot p ((s.prob p).seq + 1)) (b ++ out) ∧ b.length = 32 ∧ b.take 8 = leBytes 8 ((s.prob p).seq + 1)
          ∧ out.length = (if s.bodyInOk body tip v = true then
              64 * s.f F.KTL_BODY_CTL_LINKS body + (if tip = 0xFF then 0 else 48 * s.f F.KTL_BODY_CTL_LINKS body) else 0)
          ∧ t.f F.KTL_BODY_LAST_STATUS body = (if s.bodyInOk body tip v = true then St.ok else St.invalidInput)
          ∧ t.f F.KTL_BODY_LAST_SOLVES body = (s.f F.KTL_BODY_LAST_SOLVES body + 1) % 2 ^ 24
          ∧ (∀ k : Nat, t.tallyOf k = if k = s.f F.KTL_PROB_TALLY_OUT p ∧ s.producer 9 k = true then (s.tallyOf k).add 1 none else s.tallyOf k)))
    ∧ (s.probOn p = false ∨ s.kindOf p ≠ 3 ∨ (s.prob p).pendingLoop = false → exec (.posegraphPost p) s = .next s)
    ∧ (∀ x : Nat, (s.prob p).lastEnd = some x → s.mono < x + 1000000 * s.f F.KTL_PG_GAP_MS → exec (.posegraphPost p) s = .next s)
    ∧ (s.probOn p = true → s.kindOf p = 3 → (s.prob p).pendingLoop = true → s.sharedGraph p = false →
        (∀ x : Nat, (s.prob p).lastEnd = some x → x + 1000000 * s.f F.KTL_PG_GAP_MS ≤ s.mono) →
        ∀ r : Run, (s.prob p).run = some r → r.unit.isSome = true → s.freeKettles = [] →
        s.producer 8 (s.f F.KTL_PROB_TALLY_IN p) = true →
        ∃ (t : State) (d : Delta) (g : Trig), exec (.posegraphPost p) s = .next t ∧ (t.prob p).pendingLoop = false ∧ d.op = 7
          ∧ (t.prob p).ring = (s.prob p).ring ++ [d] ∧ (t.prob p).ready = [g] ∧ g.ts = s.now ∧ g.since = s.mono ∧ t.mem = s.mem)

/-- A consistent problem store: distinct identifiers, factors over variables it holds. -/
def Sys2Proof.Safety.storeOk (x : ProbSt) : Prop :=
  (x.vars.map (·.id)).Nodup ∧ ∀ f ∈ x.facs, ∀ v ∈ f.vars, v ∈ x.vars.map (·.id)

/-- R270, R273, R274, R292. -/
def Obligations.DeltaEntries : Prop :=
  ∀ (a : Applied) (q : EntryCtx) (d : Delta) (f : KFac), Safety.storeOk a.x →
    f = { id := d.id, typ := d.typ, vars := d.vars, val := d.val, info := d.info } →
    let b := a.entry q d
    Safety.storeOk b.x ∧ (b.dropped = a.dropped ∨ b.dropped = a.dropped + 1)
    ∧ (b.dropped = a.dropped + 1 → b.x = a.x)
    ∧ (d.op = 7 → b = a)
    ∧ (d.op ≠ 7 → d.bad = true → b.dropped = a.dropped + 1)
    ∧ (d.bad = false →
        (d.op = 1 → d.id ∈ a.x.vars.map (·.id) ∨ d.id ∈ a.x.facs.map (·.id) ∨ idTyp d.id ≠ d.typ ∨ d.val.length ≠ varLen d.typ →
            b.dropped = a.dropped + 1)
        ∧ (d.op = 1 → d.id ∉ a.x.vars.map (·.id) → d.id ∉ a.x.facs.map (·.id) → valFits d.id d.typ d.val = true →
            (a.x.overfull q.room d = false → b.dropped = a.dropped ∧ d.id ∈ b.x.vars.map (·.id))
            ∧ (a.x.overfull q.room d = true → b.dropped = a.dropped + 1 ∧ b.full = true))
        ∧ (d.op = 2 → d.id ∈ a.x.vars.map (·.id) → b.dropped = a.dropped ∧ d.id ∉ b.x.vars.map (·.id))
        ∧ (d.op = 2 ∨ d.op = 3 → d.id ∉ a.x.vars.map (·.id) → b.dropped = a.dropped + 1)
        ∧ (d.op = 4 → (∃ v ∈ d.vars, v ∉ a.x.vars.map (·.id)) → b.dropped = a.dropped + 1)
        ∧ (d.op = 4 → f.pd = false → b.dropped = a.dropped + 1)
        ∧ (d.op = 5 → (∀ g ∈ a.x.facs, g.id = d.id → ({ g with val := d.val, info := d.info } : KFac).pd = false) → b.dropped = a.dropped + 1)
        ∧ (d.op = 4 → q.kind ≠ 0 → (∀ v ∈ d.vars, v ∈ a.x.vars.map (·.id)) → d.id ∉ a.x.vars.map (·.id) → d.id ∉ a.x.facs.map (·.id) → f.pd = true →
            (a.x.overfull q.room d = false → b.dropped = a.dropped ∧ d.id ∈ b.x.facs.map (·.id))
            ∧ (a.x.overfull q.room d = true → b.dropped = a.dropped + 1 ∧ b.full = true))
        ∧ (d.op = 5 ∨ d.op = 6 → d.id ∉ a.x.facs.map (·.id) → b.dropped = a.dropped + 1)
        ∧ (d.op = 6 → d.id ∈ a.x.facs.map (·.id) → b.dropped = a.dropped ∧ d.id ∉ b.x.facs.map (·.id))
        ∧ (d.op = 3 ∨ d.op = 5 → b.x.vars.map (·.id) = a.x.vars.map (·.id) ∧ b.x.facs.map (·.id) = a.x.facs.map (·.id)))

/-- R311–R313, R316–R319, R330. -/
def Obligations.KilnViewPasses : Prop :=
  ∀ s : State, s.up = true →
    (∀ u : Nat, (∀ p ∈ s.kln.passes, ¬(p.unit = some u ∧ p.stage = 1)) → exec (.kilnBinningDone u) s = .next s)
    ∧ (∀ u : Nat, (∀ p ∈ s.kln.passes, ¬(p.unit = some u ∧ p.stage = 2)) → exec (.kilnCompositingDone u) s = .next s)
    ∧ (∀ v : Nat, (∀ p ∈ s.kln.passes, ¬(p.cls = 1 ∧ p.idx = v ∧ p.stage = 0)) → exec (.viewPassDeadline v) s = .next s)
    ∧ ∀ p : Pass, s.kln.passes = [p] → p.cls = 1 →
      (∀ u b : Nat, p.unit = some u → p.stage = 1 → p.late = false →
          s.inView p b = true → b ∈ (s.kmap p.map).wanted → b ∉ p.resident → tget 0 (s.kmap p.map).resident b = 0 →
          ∃ (t : State) (q : Pass), exec (.kilnBinningDone u) s = .next t ∧ t.kln.passes = [q] ∧ q.unit = none ∧ q.stage = 0
            ∧ b ∈ q.waits ∧ q.idx = p.idx ∧ t.mem = s.mem ∧ t.regs = s.regs)
      ∧ (∀ u : Nat, p.unit = some u → p.stage = 1 →
          (∀ b ∈ (s.kmap p.map).wanted, s.inView p b = true → b ∈ p.resident) →
          ∃ (t : State) (q : Pass), exec (.kilnBinningDone u) s = .next t ∧ t.kln.passes = [q] ∧ q.unit = some u ∧ q.stage = 2
            ∧ q.epoch = p.epoch ∧ q.insts ≤ 1000 * s.f F.KLN_VIEW_LIMIT_INST_K p.idx ∧ t.mem = s.mem
            ∧ (∀ x ∈ q.proj, x = s.project p x.prim ∧ x.prim / 1024 ∈ p.resident ∧ s.inView p (x.prim / 1024) = true
                ∧ s.primValid p.map x.prim = true ∧ s.primFinite p.map x.prim = true)
            ∧ t.f F.KLN_NAN_COUNT = satU 32 (s.f F.KLN_NAN_COUNT + ((s.passPrims p).filter (fun i => !s.primFinite p.map i)).length)
            ∧ q.proj.Pairwise (fun x y => x.prim ≤ y.prim))
      ∧ (∀ u : Nat, p.unit = some u → p.stage = 2 → s.mm.poison = [] → ∃ (t : State) (q : Pub), exec (.kilnCompositingDone u) s = .next t ∧ t.kln.passes = []
          ∧ t.hst.outq = s.hst.outq ++ [q] ∧ q.kind = 4 ∧ q.source = p.idx ∧ q.bytes.length = 64 ∧ q.slot = s.viewSlot p.idx
          ∧ t.f F.KLN_VIEW_LAST_STATUS p.idx = (if p.late = true ∨ (∃ d : Nat, p.due = some d ∧ d < s.now) then St.late else St.ok)
          ∧ t.f F.KLN_VIEW_COUNT_COUNT p.idx = (s.f F.KLN_VIEW_COUNT_COUNT p.idx + 1) % 2 ^ 32
          ∧ tget 0 t.kln.outs p.idx = tget 0 s.kln.outs p.idx + 1
          ∧ ∀ k : Nat, t.tallyOf k = if k = s.f F.KLN_VIEW_TALLY_OUT p.idx ∧ s.producer 0xA k = true then (s.tallyOf k).add 1 (some p.ts)
              else s.tallyOf k)
      ∧ (p.stage = 0 → p.late = true ∨ (∀ d : Nat, p.due = some d → s.now < d) → exec (.viewPassDeadline p.idx) s = .next s)
      ∧ (∀ d : Nat, p.stage = 0 → p.late = false → p.due = some d → d ≤ s.now → p.begun = false → s.mm.poison = [] →
          ∃ (t : State) (b : List Byte), exec (.viewPassDeadline p.idx) s = .next t
          ∧ t.kln.passes = [] ∧ t.mem = s.mem.writeList (s.viewSlot p.idx) b ∧ b.length = 64 ∧ nth 0#8 b 6 = BitVec.ofNat 8 St.late
          ∧ t.f F.KLN_VIEW_LAST_STATUS p.idx = St.late ∧ bitOf (t.f F.KLN_VIEW_LAST_FLAGS p.idx) 3 = true
          ∧ t.f F.KLN_SKIPS_COUNT = satU 32 (s.f F.KLN_SKIPS_COUNT + 1) ∧ t.fb F.KLN_EVT_SKIP = true
          ∧ ∀ k : Nat, t.tallyOf k = if k = s.f F.KLN_VIEW_TALLY_OUT p.idx ∧ s.producer 0xA k = true then (s.tallyOf k).add 1 (some p.ts)
              else s.tallyOf k)
      ∧ (∀ d : Nat, p.stage = 0 → p.late = false → p.due = some d → d ≤ s.now → p.begun = true → ∃ (t : State) (q : Pass), exec (.viewPassDeadline p.idx) s = .next t ∧ t.kln.passes = [q]
          ∧ q.late = true ∧ q.waits = [] ∧ q.idx = p.idx ∧ t.mem = s.mem ∧ t.regs = s.regs ∧ t.tally = s.tally)

/-- R321, R322, R324, R326, R328, R329. -/
def Obligations.KilnRefinement : Prop :=
  ∀ s : State, s.up = true →
    (∀ (p : Pass) (u : Nat), s.kln.passes = [p] → p.unit = some u → p.cls = 2 →
        (p.stage = 2 → s.mm.poison = [] → ∃ t : State, exec (.kilnCompositingDone u) s = .next t ∧ t.kln = { s.kln with passes := [{ p with stage := 3 }] } ∧ t.mem = s.mem)
        ∧ (p.stage ≠ 3 → exec (.kilnBackwardDone u) s = .next s)
        ∧ (p.stage = 3 → ∀ j : RefJob, (s.kmap p.map).job = some j →
          ∃ (t : State) (j' : RefJob) (g : List (List Byte)), exec (.kilnBackwardDone u) s = .next t ∧ (t.kmap p.map).job = some j'
            ∧ j'.recs = j.recs ++ g ∧ g = s.gradRecords p j (s.passLoss p j).length ∧ j'.pixels = j.pixels + (s.passLoss p j).length
            ∧ (∀ r ∈ g, r.length = 48 ∧ nth 1#8 r 7 = 0#8 ∧ nth 0#8 r 6 = BitVec.ofNat 8 (s.slotOf j p)
                ∧ ∃ q ∈ p.proj, gradPrim r = q.prim % 2 ^ 32)
            ∧ j'.iters = j.iters ∧ (∀ k ∈ j'.left, k ∈ j.left) ∧ t.kln.passes = [] ∧ t.mem = s.mem ∧ t.regs = s.regs))
    ∧ (∀ m : Nat,
        ((s.kmap m).job = none → exec (.kilnCommit m) s = .next s ∧ exec (.refineJobDone m) s = .next s)
        ∧ ∀ j : RefJob, (s.kmap m).job = some j →
          (j.left ≠ [] ∨ (∃ p ∈ s.kln.passes, p.map = m ∧ p.stage = 1) ∨ s.f F.KLN_MAP_CTL_REFINE_ITERS m ≤ j.iters →
            exec (.kilnCommit m) s = .next s)
          ∧ (s.kmapOn m = true → j.left = [] → (∀ p ∈ s.kln.passes, ¬(p.map = m ∧ p.stage = 1)) → j.iters < s.f F.KLN_MAP_CTL_REFINE_ITERS m →
            ∃ (t : State) (j' : RefJob), exec (.kilnCommit m) s = .next t
              ∧ t.f F.KLN_MAP_EPOCH_EPOCH m = (s.f F.KLN_MAP_EPOCH_EPOCH m + 1) % 2 ^ 32
              ∧ (t.kmap m).job = some j' ∧ j'.iters = j.iters + 1 ∧ (t.kmap m).commits = (s.kmap m).commits + 1
              ∧ ∀ k : Nat, t.tallyOf k = if k = s.f F.KLN_MAP_TALLY_EPOCH m ∧ s.producer 0xA k = true then (s.tallyOf k).add 1 none
                  else s.tallyOf k)
          ∧ (j.iters < s.f F.KLN_MAP_CTL_REFINE_ITERS m → exec (.refineJobDone m) s = .next s)
          ∧ (s.f F.KLN_MAP_CTL_REFINE_ITERS m ≤ j.iters → (s.kmap m).queue = [] → s.mm.poison = [] →
            ∃ (t : State) (b : List Byte), exec (.refineJobDone m) s = .next t ∧ (t.kmap m).job = none
              ∧ (t.kmap m).recs = (s.kmap m).recs + 1 ∧ b.length = 64 ∧ nth 0#8 b 6 = BitVec.ofNat 8 St.ok
              ∧ t.mem = s.mem.writeList (s.pair R.KLN_MAP_OUT_LO R.KLN_MAP_OUT_HI m + 64 * ((s.kmap m).recs % 64)) b
              ∧ t.f F.KLN_MAP_LOSS_LOSS m = j.loss % 2 ^ 32
              ∧ ∀ k : Nat, t.tallyOf k = if k = s.f F.KLN_MAP_TALLY_OUT m ∧ s.producer 0xA k = true then (s.tallyOf k).add 1 (some j.ts)
                  else s.tallyOf k))
    ∧ ((∀ p ∈ s.kln.passes, p.cls ≠ 0 ∨ p.unit = none ∨ p.stage ≠ 2) → exec .kilnRelocDone s = .next s)
    ∧ ∀ (p : Pass) (u n : Nat) (o : RelocFit), s.kln.passes = [p] → p.cls = 0 → p.unit = some u → p.stage = 2 → s.mm.poison = [] →
        s.relocFit p = o → o.pixels = n →
        ∃ (t : State) (b : List Byte), exec .kilnRelocDone s = .next t ∧ t.kln.passes = [] ∧ t.kln.relocDone = s.kln.relocDone + 1
          ∧ b.length = 160
          ∧ t.mem = s.mem.writeList (s.pair R.KLN_RELOC_RING_LO R.KLN_RELOC_RING_HI + 4096 + 160 * (s.kln.relocDone % 64)) b
          ∧ nth 0#8 b 9 = BitVec.ofNat 8 (if n = 0 then St.invalidInput else St.ok)
          ∧ (bitOf (nth 0#8 b 11).toNat 0 = true ↔ n ≠ 0 ∧ (s.passSize p).1 * (s.passSize p).2 ≤ 10 * n
              ∧ (fp32.dec o.e1).le ((Fv.ofRat (s.f F.KLN_RELOC_REL_GAIN : Nat) 65536).mul (fp32.dec o.e0)) = true)
          ∧ ∀ k : Nat, t.tallyOf k = if k = s.f F.KLN_RELOC_TALLY_OUT ∧ s.producer 0xA k = true then (s.tallyOf k).add 1 none
              else s.tallyOf k

/-- R317, R327. -/
def Obligations.KilnActiveSet : Prop :=
  ∀ (s : State) (m : Nat), s.up = true →
    (s.kmapOn m = false → exec (.activeSetUpdate m) s = .next s)
    ∧ (s.kmapOn m = true → ∃ t : State, exec (.activeSetUpdate m) s = .next t ∧ t.mem = s.mem
        ∧ (t.kmap m).wanted.length ≤ s.f F.KLN_MAP_SIZE_ACTIVE_BLOCKS m ∧ (t.kmap m).resident = (s.kmap m).resident
        ∧ (∀ b : Nat, b ∈ (t.kmap m).wanted → s.blockUsed m b = true ∧ ∃ d : Fv, s.nearest m b = some d
            ∧ d.le ((Fv.ofInt (s.f F.KLN_MAP_CELL_RANGE_M m : Nat)).mul (Fv.ofInt (s.f F.KLN_MAP_CELL_RANGE_M m : Nat))) = true)
        ∧ ((t.kmap m).wanted.length < s.f F.KLN_MAP_SIZE_ACTIVE_BLOCKS m → ∀ (b : Nat) (d : Fv), b < s.mapBlocks m → s.blockUsed m b = true →
            s.nearest m b = some d →
            d.le ((Fv.ofInt (s.f F.KLN_MAP_CELL_RANGE_M m : Nat)).mul (Fv.ofInt (s.f F.KLN_MAP_CELL_RANGE_M m : Nat))) = true →
            b ∈ (t.kmap m).wanted)
        ∧ (∀ b : Nat, b ∈ (t.kmap m).loading ↔ b ∈ (t.kmap m).wanted ∧ tget 0 (s.kmap m).resident b = 0))
    ∧ (∀ b : Nat, b ∉ (s.kmap m).loading ∨ s.freeFrame m = none ∨ s.cellarOnly (s.blockPage m b / 65536) = true
        ∨ (∃ e ∈ s.lnk.reads, e.2.2.1 = s.blockPage m b / 65536) →
        exec (.blockLoadDone m b) s = .next s)
    ∧ (∀ b f : Nat, b ∈ (s.kmap m).loading → s.freeFrame m = some f → s.cellarOnly (s.blockPage m b / 65536) = false →
        (∀ e ∈ s.lnk.reads, e.2.2.1 ≠ s.blockPage m b / 65536) → s.mm.poison = [] →
        ∃ t : State, exec (.blockLoadDone m b) s = .next t
          ∧ t.mem = s.mem.writeList (s.mapActive m + 65536 * f) (s.rdList (s.blockPage m b) 65536)
          ∧ tget 0 (t.kmap m).resident b = f + 1 ∧ (∀ c : Nat, c ≠ b → tget 0 (t.kmap m).resident c = tget 0 (s.kmap m).resident c)
          ∧ b ∉ (t.kmap m).loading ∧ (∀ p ∈ t.kln.passes, p.map = m → b ∉ p.waits) ∧ t.tally = s.tally)
    ∧ ((s.kmap m).loading = [] ∨ (s.freeFrame m).isSome = true ∨ (∃ p ∈ s.kln.passes, p.map = m ∧ p.stage = 1)
        ∨ (∀ e ∈ (s.kmap m).resident, e.1 ∈ (s.kmap m).wanted) → exec (.blockEvict m) s = .next s)
    ∧ ((s.kmap m).loading ≠ [] → s.freeFrame m = none → (∀ p ∈ s.kln.passes, ¬(p.map = m ∧ p.stage = 1)) →
        (∃ e ∈ (s.kmap m).resident, e.1 ∉ (s.kmap m).wanted) → ∃ (t : State) (e : Nat × Nat), exec (.blockEvict m) s = .next t
          ∧ e ∈ (s.kmap m).resident ∧ e.1 ∉ (s.kmap m).wanted ∧ tget 0 (t.kmap m).resident e.1 = 0
          ∧ (∀ c : Nat, c ≠ e.1 → tget 0 (t.kmap m).resident c = tget 0 (s.kmap m).resident c)
          ∧ (bitOf (s.rdNum (s.descAddr m e.1 + 12) 2) 1 = false → t.mem = s.mem)
          ∧ (bitOf (s.rdNum (s.descAddr m e.1 + 12) 2) 1 = true → s.mm.poison = [] →
              t.mem = (s.mem.writeList (s.blockPage m e.1) (s.rdList (s.mapActive m + 65536 * (e.2 - 1)) 65536)).writeList
                (s.descAddr m e.1 + 12) (leBytes 2 (s.rdNum (s.descAddr m e.1 + 12) 2 - 2))))

/-- A host query's slot is answered with a result record of 1,088 bytes: the request's key, status, count, k and flags (Table 12-7). -/
def Sys2Proof.Safety.slotResult (s t : State) (q : CQuery) (b : List Byte) (status count flags : Nat) : Prop :=
  tget {} t.hst.slots q.k = { tget {} s.hst.slots q.k with state := 2, result := b } ∧ b.length = 1088 ∧ b.take 8 = q.req.take 8
    ∧ (nth 0#8 b 8).toNat = status ∧ (nth 0#8 b 9).toNat = count ∧ (nth 0#8 b 10).toNat = rqK q.req
    ∧ (nth 0#8 b 11).toNat % 64 = flags % 64

/-- The part's own walk of an unsharded query from a host slot: the only walk and the only query, not yet answered. -/
def Sys2Proof.Safety.hostWalk (s : State) (x : Walk) (q : CQuery) : Prop :=
  s.csk.walks = [x] ∧ s.csk.qs = [q] ∧ x.q = q.tag ∧ x.asker = none ∧ x.replica = false ∧ x.req = q.req ∧ x.idx = rqIdx q.req
    ∧ q.asked = [x.shard] ∧ q.answers = [] ∧ q.missing = [] ∧ s.fb F.CSK_IDX_CTL_SHARDED x.idx = false ∧ x.shard = 0
    ∧ tget 0 s.csk.epochs (x.idx * 16 + x.shard) ≤ x.epoch ∧ q.req.length = 320 ∧ rqK q.req ≤ 64 ∧ x.flags < 8

/-- R342, R344, R350, R351, R354, R355. The Cask reacts to what a command leaves (`caskSettle`): waiting requests take contexts. With no
walk waiting, no queue enabled and every index in service that reaction stores nothing and answers nothing. -/
def Obligations.CaskWalks : Prop :=
  ∀ s : State, s.up = true →
    (s.csk.walks = [] → (∀ q < 16, s.fb F.CSK_Q_CTL_ENABLE q = false) → (∀ i < 8, s.idxOn i = true → i ∈ s.csk.ready) →
        s.caskSettle.mem = s.mem ∧ s.caskSettle.hst.slots = s.hst.slots ∧ s.caskSettle.tally = s.tally ∧ s.caskSettle.csk.qs = s.csk.qs
        ∧ s.caskSettle.csk.queues = s.csk.queues)
    ∧ (∀ w n : Nat, (∀ x ∈ s.csk.walks, x.id = w → x.ended = true ∨ x.unit = none ∨ (∀ e ∈ x.batch, e.1 ≠ n) ∧ n ∉ x.spec) →
        exec (.nodeReadReturn w n) s = .next s)
    ∧ (∀ (x : Walk) (n g : Nat) (nd : CNode), s.csk.walks = [x] → x.ended = false → x.unit ≠ none → x.batch = [(n, g)] → x.got = [] → x.pre = [] →
        s.mono < x.due → s.mm.poison = [] → s.f F.CSK_IDX_CTL_FORM x.idx ≠ 2 → (∀ p ∈ (s.shd x.idx x.replica).nodePages n, s.cellarOnly p = false) →
        nd = s.nodeRd (s.shd x.idx x.replica) n →
        ∃ (t : State) (y : Walk), exec (.nodeReadReturn x.id n) s = .next t ∧ t.csk.walks = [y] ∧ y.reads = x.reads + 1 ∧ y.unit = x.unit
          ∧ t.mem = s.mem ∧ (s.fb F.CSK_STATUS_PREFETCH = false → y.spec = x.spec.filter (· != n))
          ∧ (nd.gen ≠ g → y.dangling = x.dangling + 1 ∧ y.best = x.best ∧ y.visited = x.visited
              ∧ t.f F.CSK_DANGLING_COUNT = satU 32 (s.f F.CSK_DANGLING_COUNT + 1) ∧ t.fb F.CSK_EVT_DANGLING = true)
          ∧ (nd.gen = g → y.dangling = x.dangling ∧ y.visited.length = x.visited.length + 1 ∧ t.regs = s.regs
              ∧ (x.best.length ≤ s.efOf x.req → y.best.length ≤ s.efOf x.req)
              ∧ ∀ b ∈ y.best, b ∈ x.best ∨ (b.2.1 = n ∧ b.2.2.1 = nd.rev ∧ nd.isLive b.2.2.2 = true
                  ∧ passes x.req (nth 0 nd.attrs b.2.2.2) = true)))
    ∧ (∀ w : Nat, (∀ x ∈ s.csk.walks, x.id ≠ w) → exec (.caskQueryDeadline w) s = .next s ∧ exec (.caskQueryDone w) s = .next s)
    ∧ (∀ x : Walk, s.csk.walks = [x] →
        (x.ended = false ∨ x.unit = none → exec (.caskQueryDone x.id) s = .next s)
        ∧ (x.ended = true → x.unit ≠ none → exec (.caskQueryDeadline x.id) s = .next s)
        ∧ (x.unit = none → s.idxReady x.idx = true ∨ s.idxGone x.idx = true → exec (.caskQueryDeadline x.id) s = .next s)
        ∧ (s.mono < x.due → exec (.caskQueryDeadline x.id) s = .next s)
        ∧ (x.due ≤ s.mono → x.ended = false → x.unit ≠ none → exec (.caskQueryDeadline x.id) s
            = .next { s with csk := { s.csk with walks :=
                [{ x with ended := true, flags := x.flags ||| 2, batch := [], got := [], spec := [], pre := [] }] } }))
    ∧ (∀ (x : Walk) (q : CQuery), Safety.hostWalk s x q → q.origin = 16 → (tget {} s.hst.slots q.k).state = 1 →
        (tget {} s.hst.slots q.k).posts = q.who →
        (x.due ≤ s.mono → x.unit = none → s.idxReady x.idx = false → s.idxGone x.idx = false → 1 ≤ rqK q.req →
          ∃ (t : State) (b : List Byte), exec (.caskQueryDeadline x.id) s = .next t
            ∧ Safety.slotResult s t q b (if s.walkersShort = true then St.degraded else St.late) 0 2
            ∧ t.csk.walks = [] ∧ t.csk.qs = [] ∧ t.mem = s.mem
            ∧ t.pair R.CSK_QUERIES_LO R.CSK_QUERIES_HI = (s.pair R.CSK_QUERIES_LO R.CSK_QUERIES_HI + 1) % 2 ^ 64)
        ∧ (x.ended = true → x.unit ≠ none → s.f F.CSK_IDX_CTL_FORM x.idx ≠ 2 → s.mm.poison = [] →
          ∃ (u : State) (b : List Byte), exec (.caskQueryDone x.id) s = .next u.caskSettle
            ∧ Safety.slotResult s u q b
                (if s.walkersShort = true then St.degraded else if bitOf x.flags 1 = true then St.late
                  else if (s.rerank x).1.length < rqK q.req then St.short else St.ok) (s.rerank x).1.length x.flags
            ∧ (∀ j < rqK q.req, leValue ((b.drop (64 + 16 * j)).take 8) = (nth (noIdent, 0, 0) (s.rerank x).1 j).1)
            ∧ u.csk.walks = [] ∧ u.csk.qs = [] ∧ u.mem = s.mem
            ∧ u.f F.CSK_REVISED_COUNT = satU 32 (s.f F.CSK_REVISED_COUNT + (s.rerank x).2)
            ∧ u.pair R.CSK_QUERIES_LO R.CSK_QUERIES_HI = (s.pair R.CSK_QUERIES_LO R.CSK_QUERIES_HI + 1) % 2 ^ 64))
    ∧ (∀ (x : Walk) (q : CQuery), Safety.hostWalk s x q → q.origin < 16 → x.ended = true → x.unit ≠ none →
        s.f F.CSK_IDX_CTL_FORM x.idx ≠ 2 → s.f F.CSK_Q_CTL_KIND q.origin = 0 → (s.cqueue q.origin).out = q.k →
        (s.cqueue q.origin).done = [] → (s.cqueue q.origin).ended = [] → s.mm.poison = [] →
        ∃ (u : State) (b : List Byte), exec (.caskQueryDone x.id) s = .next u.caskSettle ∧ b.length = 1088
          ∧ u.mem = s.mem.writeList (s.pair R.CSK_Q_OUT_LO R.CSK_Q_OUT_HI q.origin + 1088 * (q.k % 2 ^ s.f F.CSK_Q_CTL_LOG2_LEN q.origin)) b
          ∧ b.take 8 = q.req.take 8 ∧ (nth 0#8 b 9).toNat = (s.rerank x).1.length ∧ (u.cqueue q.origin).out = q.k + 1
          ∧ u.f F.CSK_Q_COUNT_DONE q.origin = (s.f F.CSK_Q_COUNT_DONE q.origin + 1) % 2 ^ 16
          ∧ ∀ k : Nat, u.tallyOf k = if k = s.f F.CSK_Q_TALLY_OUT q.origin ∧ s.producer 0xB k = true then (s.tallyOf k).add 1 none
              else s.tallyOf k)
    ∧ (∀ (tag : Nat) (a : ShardAns),
        ((∀ q ∈ s.csk.qs, q.tag ≠ tag) →
          exec (.shardAnswerRx tag a) s = .next (s.addSat F.CSK_LATE_SHARD_COUNT).caskSettle ∧ exec (.shardMergeTimeout tag) s = .next s)
        ∧ ∀ q : CQuery, s.csk.qs.find? (fun x => x.tag == tag) = some q →
          (a.epoch < tget 0 s.csk.epochs (rqIdx q.req * 16 + a.shard) →
            exec (.shardAnswerRx tag a) s = .next (s.addSat F.DSP_STALE_EPOCH_COUNT).caskSettle)
          ∧ (tget 0 s.csk.epochs (rqIdx q.req * 16 + a.shard) ≤ a.epoch → a.shard ∈ q.asked → (∀ b ∈ q.answers, b.shard ≠ a.shard) →
            a.shard ∉ q.missing → a.missing = false → q.answers.length + q.missing.length + 1 < q.asked.length →
            exec (.shardAnswerRx tag a) s
              = .next ({ s with csk := { s.csk with qs := s.csk.qs.map (fun x => if x.tag = tag then { q with answers := q.answers ++ [a] }
                    else x) } } : State).caskSettle)
          ∧ (q.asked.length ≤ 1 ∨ s.mono < s.dueOf q.req q.since + 1000 * s.f F.CSK_IDX_TIMEOUT_SHARD_US (rqIdx q.req) →
              exec (.shardMergeTimeout tag) s = .next s))
    ∧ ∀ (q : CQuery) (sh : Nat), s.csk.qs = [q] → 1 < q.asked.length → s.role ≤ 1 →
        s.dueOf q.req q.since + 1000 * s.f F.CSK_IDX_TIMEOUT_SHARD_US (rqIdx q.req) ≤ s.mono → sh ∈ q.asked → (∀ a ∈ q.answers, a.shard ≠ sh) →
        q.origin = 16 → (tget {} s.hst.slots q.k).state = 1 → (tget {} s.hst.slots q.k).posts = q.who → q.req.length = 320 →
        rqK q.req ≤ 64 → (∀ a ∈ q.answers, a.flags < 64) →
        ∃ (u : State) (b : List Byte), exec (.shardMergeTimeout q.tag) s = .next u.caskSettle ∧ b.length = 1088
          ∧ tget {} u.hst.slots q.k = { tget {} s.hst.slots q.k with state := 2, result := b }
          ∧ (nth 0#8 b 8).toNat = St.degraded ∧ bitOf (nth 0#8 b 11).toNat 3 = true ∧ (nth 0#8 b 13).toNat = q.answers.length % 256
          ∧ (nth 0#8 b 14).toNat = q.asked.length % 256 ∧ u.fb F.CSK_EVT_SHARD_MISSING = true ∧ u.csk.qs = [] ∧ u.mem = s.mem

/-- The next change of a queue gives code `c` in the state `t` after it; `m` is the memory before its result is stored. -/
def Sys2Proof.Safety.changed (s t : State) (q k c : Nat) (m : Memory) : Prop :=
  (∃ n < 2 ^ 32, t.mem = m.writeList (s.pair R.CSK_Q_OUT_LO R.CSK_Q_OUT_HI q + 16 * (k % 2 ^ s.f F.CSK_Q_CTL_LOG2_LEN q))
      (leBytes 8 (rqNum (s.readReq q k) 8 8) ++ leBytes 1 (if s.walkersShort = true then St.degraded else St.ok) ++ leBytes 1 c
        ++ leBytes 2 0 ++ leBytes 4 n))
    ∧ (t.cqueue q).next = k + 1 ∧ (t.cqueue q).out = k + 1
    ∧ t.f F.CSK_Q_COUNT_DONE q = (s.f F.CSK_Q_COUNT_DONE q + 1) % 2 ^ 16
    ∧ ∀ i : Nat, t.tallyOf i = if i = s.f F.CSK_Q_TALLY_OUT q ∧ s.producer 0xB i = true then (s.tallyOf i).add 1 none else s.tallyOf i

/-- R336, R337, R346–R348, R350, R351, R353. -/
def Obligations.CaskChanges : Prop :=
  (∀ (s : State) (q : Nat), s.up = true →
    ((s.cqueue q).seen ≤ (s.cqueue q).next ∨ 16 ≤ q ∨ s.fb F.CSK_Q_CTL_ENABLE q = false ∨ s.f F.CSK_Q_CTL_KIND q ≠ 1 →
      exec (.caskInsert q) s = .next s ∧ exec (.caskDelete q) s = .next s ∧ exec (.caskReplace q) s = .next s)
    ∧ ∀ (k i op : Nat) (req : List Byte), (s.cqueue q).next = k → k < (s.cqueue q).seen → req = s.readReq q k → op = rqNum req 0 1 →
      i = rqNum req 1 1 →
      (op ≠ 1 ∨ s.idxReady i = false → exec (.caskInsert q) s = .next s)
      ∧ (op ≠ 2 ∨ s.idxReady i = false → exec (.caskDelete q) s = .next s)
      ∧ (op ≠ 3 ∨ s.idxReady i = false → exec (.caskReplace q) s = .next s)
      ∧ (q < 16 → s.fb F.CSK_Q_CTL_ENABLE q = true → s.f F.CSK_Q_CTL_KIND q = 1 → s.idxReady i = true →
        (∀ (sh m : Nat) (rep : Bool), s.fb F.CSK_IDX_CTL_SHARDED i = true → sh = shardFor (rqNum req 8 8) (s.shardsOf i) →
          s.shardHolder i sh = some (m, rep) → m ≠ s.deviceId →
          ∀ c ∈ [Instr.caskInsert q, .caskDelete q, .caskReplace q],
            (c = .caskInsert q ∧ op = 1 ∨ c = .caskDelete q ∧ op = 2 ∨ c = .caskReplace q ∧ op = 3) →
            ∃ (t : State) (p : CPend), exec c s = .next t ∧ t.csk.pend = s.csk.pend ++ [p] ∧ p.q = q ∧ p.k = k ∧ p.shard = sh ∧ p.req = req
              ∧ p.res = none ∧ t.mem = s.mem ∧ (t.cqueue q).next = k + 1 ∧ (t.cqueue q).out = (s.cqueue q).out)
        ∧ (s.fb F.CSK_IDX_CTL_SHARDED i = false → (s.cqueue q).out = k → (s.cqueue q).done = [] → (s.cqueue q).ended = [] →
          s.mm.poison = [] → ∀ (d : Shd) (ident attr : Nat) (desc : List Byte), d = s.shd i false → ident = rqNum req 8 8 →
          attr = rqNum req 4 4 → desc = rqDesc req →
          (op = 2 → s.findIdent d ident true = none → s.findIdent d ident false = none →
            ∃ t : State, exec (.caskDelete q) s = .next t ∧ Safety.changed s t q k 3 s.mem)
          ∧ (op = 2 → ∀ p : Nat × Nat, s.findIdent d ident true = some p →
            ∃ t : State, exec (.caskDelete q) s = .next t ∧ Safety.changed s t q k 0 (s.tombstone d p.1 p.2).mem)
          ∧ (op = 1 → ∀ p : Nat × Nat, s.findIdent d ident true = some p →
            ∃ t : State, exec (.caskInsert q) s = .next t ∧ Safety.changed s t q k 1 s.mem
              ∧ t.f F.CSK_IDX_REFUSED_DUPLICATE i = satU 16 (s.f F.CSK_IDX_REFUSED_DUPLICATE i + 1)
              ∧ t.fb F.CSK_EVT_INSERT_REFUSED = true)
          ∧ (∀ (u : State) (r : State × Change), (op = 1 ∧ s.findIdent d ident true = none ∧ u = s)
                ∨ (op = 3 ∧ u = match s.findIdent d ident true with | some p => s.tombstone d p.1 p.2 | none => s) →
              r = u.insertEntry d ident attr desc →
              ∃ t : State, exec (if op = 1 then .caskInsert q else .caskReplace q) s = .next t ∧ Safety.changed s t q k r.2.1 r.1.mem
                ∧ (r.2.1 = 0 → t.f F.CSK_INSERTS_COUNT = (s.f F.CSK_INSERTS_COUNT + 1) % 2 ^ 32)
                ∧ (r.2.1 = 2 → t.f F.CSK_IDX_REFUSED_FULL i = satU 16 (s.f F.CSK_IDX_REFUSED_FULL i + 1)
                    ∧ t.fb F.CSK_EVT_INDEX_FULL = true ∧ t.fb F.CSK_EVT_INSERT_REFUSED = true)))))
  ∧ (∀ (s : State) (k : Nat), s.up = true →
    (16 ≤ k ∨ s.idxReady (k % 8) = false ∨ s.nextNode (s.shd (k % 8) (decide (8 ≤ k))) (tget 0 s.csk.pos k) = none
        ∨ s.holdsShard (k % 8) = false ∨ s.freeCtx = none →
      exec (.caskCompactNode k) s = .next s)
    ∧ ∀ (d : Shd) (n : Nat), k < 8 → s.idxOn k = true → s.idxReady k = true → s.holdsShard k = true → s.freeCtx ≠ none → s.mm.poison = [] → d = s.shd k false →
      s.nextNode d (tget 0 s.csk.pos k) = some n →
      ∃ t : State, exec (.caskCompactNode k) s = .next t ∧ tget 0 t.csk.pos k = n + 1 ∧ t.tally = s.tally
        ∧ (n < 2 ^ 32 → (∀ sl < 32, (s.nodeRd d n).isLive sl = false) → bitOf (s.nodeRd d n).flags 0 = false →
            t.hdr d 20 4 = n ∧ (t.nodeRd d n).gen = ((s.nodeRd d n).gen + 1) % 65536))
  ∧ (∀ (s : State) (d : Shd) (n sl : Nat), s.mm.poison = [] → sl < 32 →
      ((s.tombstone d n sl).nodeRd d n).isLive sl = false ∧ ((s.tombstone d n sl).nodeRd d n).isTomb sl = true
      ∧ ((s.tombstone d n sl).nodeRd d n).codes = (s.nodeRd d n).codes ∧ ((s.tombstone d n sl).nodeRd d n).rep = (s.nodeRd d n).rep
      ∧ ∀ k < 32, k ≠ sl → nth 0 ((s.tombstone d n sl).nodeRd d n).attrs k = nth 0 (s.nodeRd d n).attrs k)
  ∧ (∀ (deep : Bool) (cb x : List Byte), (codeOf deep cb x).length = codeLen deep ∧ ∀ j < caskSubs deep, ∀ c < 16,
      sqDist (subOf deep x j) (centroid deep cb j (nibble (codeOf deep cb x) j)) ≤ sqDist (subOf deep x j) (centroid deep cb j c)
      ∧ (sqDist (subOf deep x j) (centroid deep cb j (nibble (codeOf deep cb x) j)) = sqDist (subOf deep x j) (centroid deep cb j c) →
          nibble (codeOf deep cb x) j ≤ c))
  ∧ (∀ (deep : Bool) (cb x code : List Byte) (sh : Nat), approxOf (lutOf deep cb x sh) code ≤ 255 * caskSubs deep)
  ∧ ∀ ident n : Nat, 0 < n → shardFor ident n < n

/-- The HIT bit of a wait slot. -/
def Sys2Proof.Safety.hit (s : State) (n : Nat) : Bool :=
  bitOf (s.f (if n < 32 then F.DSP_HOST_WAIT_HIT_LO_HIT else F.DSP_HOST_WAIT_HIT_HI_HIT)) (n % 32)

/-- R360, R363. -/
def Obligations.HostTallies : Prop :=
  ∀ (s : State) (index : Nat), s.up = true → s.loaded = true → s.reach 0 = true → index < 65536 →
    (∀ amount : Nat, ((∀ e, s.dsp.graph.tallies.find? (fun e => e.index == index) = some e → bitOf e.flags 0 = false) ∨ amount = 0 ∨ 65535 < amount) →
        exec (.hostTallyAdvance index amount) s = .next (s.event 0xC 10 index))
    ∧ (∀ (amount : Nat) (e : TallyEnt), s.dsp.graph.tallies.find? (fun e => e.index == index) = some e → bitOf e.flags 0 = true →
        bitOf e.flags 1 = false → 1 ≤ amount → amount ≤ 65535 → s.mm.fresh = [] → ∃ t : State, exec (.hostTallyAdvance index amount) s = .next t
          ∧ (t.tallyOf index).value = (if 2 ^ 64 - 1 < (s.tallyOf index).value + amount then 2 ^ 64 - 1 else (s.tallyOf index).value + amount)
          ∧ (t.tallyOf index).stamp = (s.tallyOf index).stamp ∧ (∀ k, k ≠ index → t.tallyOf k = s.tallyOf k)
          ∧ (∀ n < 64, if s.fb F.DSP_HOST_WAIT_CTL_ARM n = true ∧ s.f F.DSP_HOST_WAIT_CTL_INDEX n = index
                ∧ s.pair R.DSP_HOST_WAIT_TH_LO R.DSP_HOST_WAIT_TH_HI n ≤ (t.tallyOf index).value
              then t.fb F.DSP_HOST_WAIT_CTL_ARM n = false ∧ Safety.hit t n = true
              else t.fb F.DSP_HOST_WAIT_CTL_ARM n = s.fb F.DSP_HOST_WAIT_CTL_ARM n ∧ Safety.hit t n = Safety.hit s n)
          ∧ t.mem = s.mem ∧ t.lnk = s.lnk)
    ∧ ∀ slot < 64, ∀ u : State, u = (s.setF F.DSP_HOST_WAIT_CTL_INDEX index slot).setF F.DSP_HOST_WAIT_CTL_ARM 1 slot →
        (s.tv index < s.pair R.DSP_HOST_WAIT_TH_LO R.DSP_HOST_WAIT_TH_HI slot → exec (.hostWaitArm slot index) s = .next u)
        ∧ (s.pair R.DSP_HOST_WAIT_TH_LO R.DSP_HOST_WAIT_TH_HI slot ≤ s.tv index → ∃ t : State, exec (.hostWaitArm slot index) s = .next t
          ∧ t.fb F.DSP_HOST_WAIT_CTL_ARM slot = false ∧ t.f F.DSP_HOST_WAIT_CTL_INDEX slot = index ∧ Safety.hit t slot = true
          ∧ Safety.Touches [R.DSP_HOST_WAIT_CTL.addr slot 0, R.DSP_HOST_WAIT_HIT_LO.addr 0 0, R.DSP_HOST_WAIT_HIT_HI.addr 0 0] s t)
        ∧ exec (.hostWaitDisarm slot index) s
            = .next ((s.setF F.DSP_HOST_WAIT_CTL_INDEX index slot).setF F.DSP_HOST_WAIT_CTL_ARM 0 slot)

/-- R360, R362, R370, R371. When what waits reacts is log entry 8: `settle` is its reaction, and an idle step settles too (log entry 9). -/
def Obligations.TallyAdvances : Prop :=
  ∀ (s : State) (src i amount : Nat) (stamp : Option Nat), s.up = true → 1 ≤ amount → amount < 2 ^ 32 → s.mm.poison = [] →
    (∀ stores : List (Nat × List Byte), s.badStore src stores ≠ none → ∃ t : State, exec (.tallyAdvance src i amount stamp none stores []) s = .next t
      ∧ t.mem = s.mem ∧ t.tally = s.tally ∧ t.f F.MEM_ADDR_FAULTS_COUNT = satU 32 (s.f F.MEM_ADDR_FAULTS_COUNT + 1))
    ∧ (∀ stores : List (Nat × List Byte), s.badStore src stores = none →
      ∃ u : State, exec (.tallyAdvance src i amount stamp none stores []) s = .next (u.settle 64)
      ∧ u.mem = stores.foldl (fun m e => Memory.writeList m e.1 e.2) s.mem
      ∧ (s.producer src i = true →
          (u.tallyOf i).value = (if 2 ^ 64 - 1 < (s.tallyOf i).value + amount then 2 ^ 64 - 1 else (s.tallyOf i).value + amount)
          ∧ (u.tallyOf i).stamp = stamp.getD (s.tallyOf i).stamp ∧ ∀ k, k ≠ i → u.tallyOf k = s.tallyOf k)
      ∧ (s.producer src i = false → u.tally = s.tally ∧ u.dsp.kick = s.dsp.kick))
    ∧ (∀ t : TaskRef, t.epoch < s.epochOf t.node → exec (.tallyAdvance src i amount stamp (some t) [] []) s
        = .next ((s.addSat F.DSP_STALE_EPOCH_COUNT).settle 64))
    ∧ (∀ n : Nat, s.dsp.kick = [] → s.settle n = s)
    ∧ step { s with pending := [] } = .next (({ s with pending := [] } : State).settle 64)

/-- R361, R365. -/
def Obligations.DispatcherBounds : Prop :=
  ∀ s : State,
    (∀ h : Nat, (s.dsp.flight.filter (fun j => (s.node j.node).home == h)).length ≤ 512) → s.pendingWaits ≤ 16384 →
    (∀ h : Nat, (s.dispatchRound.1.dsp.flight.filter (fun j => (s.node j.node).home == h)).length ≤ 512)
    ∧ s.dispatchRound.1.pendingWaits ≤ 16384 ∧ s.dispatchRound.1.dsp.graph = s.dsp.graph
    ∧ ∀ i ∈ s.dispatchRound.1.dsp.pend, i.met = 0 ∨ ∃ j < (s.node i.node).waits.length, bitOf i.met j = false

/-- R367, R368, R370, R375, for the classes whose units run tasks of a graph: MAC columns to clusters (1–4), the Mill's units (5–9) and fusion pipelines (0xD). -/
def Obligations.TasksAndUnits : Prop :=
  ∀ s : State, s.up = true →
    (∀ (node k cause : Nat) (x : Inst), s.inFlight node k = some x → ∃ t : State, exec (.taskFailed node k cause) s = .next t
      ∧ t.inFlight node k = none ∧ t.fb F.DSP_EVT_TASK_FAILED = true
      ∧ ((s.node node).block ∈ [2, 3, 4, 7] → (s.node node).advs = [] →
          t.mem = s.mem ∧ t.tally = s.tally ∧ t.f F.DSP_TASK_FAILED_COUNT = satU 32 (s.f F.DSP_TASK_FAILED_COUNT + 1)))
    ∧ ∀ (c i l g sp : Nat) (rest : List Nat), (1 ≤ c ∧ c ≤ 9 ∨ c = 0xD) → i < builtOf c * groupsOf c → g = (if c ≤ 3 then i / builtOf c else 0) →
        (s.unitSt c i).out = false → (s.unitSt c i).failedAt = none → s.placeOf c i = some l → s.goodSpares c g = sp :: rest →
        (∀ v ∈ s.dsp.visits, v.cls ≠ c) → s.dsp.handover = [] →
        (∃ t : State, exec (.unitFault c i none) s = .next t
          ∧ (t.unitSt c i).out = true ∧ (t.unitSt c i).failedAt = some s.mono ∧ t.physOf c g l = some sp ∧ (t.unitSt c sp) = s.unitSt c sp
          ∧ t.mem = s.mem ∧ t.tally = s.tally ∧ t.otp = s.otp ∧ t.pw = s.pw ∧ t.dsp.flight = s.dsp.flight)
        ∧ ∀ (node k : Nat) (x : Inst), s.inFlight node k = some x → x.node = node → x.faults = 0 →
          (s.mono < x.began + 1000 * s.limitOf node → exec (.taskLimitExpire node k c i) s = .next s)
          ∧ (x.began + 1000 * s.limitOf node ≤ s.mono → ∃ t : State, exec (.taskLimitExpire node k c i) s = .next t
            ∧ (t.unitSt c i).out = true ∧ t.physOf c g l = some sp ∧ t.epochOf node = (s.epochOf node + 1) % 2 ^ 32
            ∧ (∃ y : Inst, t.inFlight node k = some y ∧ y.faults = 1 ∧ y.epoch = t.epochOf node ∧ y.began = s.mono)
            ∧ t.f F.DSP_MIGRATIONS_COUNT = satU 32 (s.f F.DSP_MIGRATIONS_COUNT + 1) ∧ t.fb F.DSP_EVT_MIGRATED = true
            ∧ t.mem = s.mem ∧ t.tally = s.tally)

/-- R369, R382, R387, Table 13-6. Loads are in permille, the limits in percent. -/
def Obligations.WaitsLoadAndFolding : Prop :=
  ∀ s : State, s.up = true →
    (∀ (node k : Nat) (x : Inst), s.dsp.pend.find? (fun i => i.node == node && i.k == k) = some x →
        (node ∈ s.dsp.stuck ∨ s.mono < x.since + 1000000000 * s.f F.DSP_WAIT_LIMIT_S → exec (.waitLimitExpire node k) s = .next s)
        ∧ (node ∉ s.dsp.stuck → x.since + 1000000000 * s.f F.DSP_WAIT_LIMIT_S ≤ s.mono → ∃ tally : Nat, exec (.waitLimitExpire node k) s
            = .next ((({ s with dsp := { s.dsp with stuck := node :: s.dsp.stuck } } : State).addSat F.DSP_STUCK_COUNT).event 0xC 9 node tally)))
    ∧ (∀ l0 l1 l2 load lvl : Nat, l0 < 1024 → l1 < 1024 → l2 < 1024 → load = Nat.max l0 (Nat.max l1 l2) → lvl = s.f F.DSP_COOPER_SHED_LEVEL →
        s.f F.DSP_COOPER_CFG_RESTORE_PCT < s.f F.DSP_COOPER_CFG_SHED_PCT →
        ∃ t : State, exec (.cooperLoadEval l0 l1 l2) s = .next t
          ∧ (lvl = 0 ∨ lvl = 1 ∧ Nat.max (tget 0 s.dsp.tele (R.DSP_COOPER_LOAD.addr 0 0)) s.dsp.shedAt + 10000000000 ≤ s.mono →
              t.f F.DSP_COOPER_LOAD_CORE0 = l0 ∧ t.f F.DSP_COOPER_LOAD_CORE1 = l1 ∧ t.f F.DSP_COOPER_LOAD_CORE2 = l2)
          ∧ (lvl = 1 ∧ s.mono < Nat.max (tget 0 s.dsp.tele (R.DSP_COOPER_LOAD.addr 0 0)) s.dsp.shedAt + 10000000000 ∨ 2 ≤ lvl →
              t.word R.DSP_COOPER_LOAD 0 0 = s.word R.DSP_COOPER_LOAD 0 0)
          ∧ (load ≤ 10 * s.f F.DSP_COOPER_CFG_SHED_PCT → 10 * s.f F.DSP_COOPER_CFG_RESTORE_PCT ≤ load → t.f F.DSP_COOPER_SHED_LEVEL = lvl
              ∧ t.dsp.loadSince = none ∧ t.dsp.lowSince = none)
          ∧ (10 * s.f F.DSP_COOPER_CFG_SHED_PCT < load → (∀ x, s.dsp.loadSince = some x →
              t.f F.DSP_COOPER_SHED_LEVEL = (if Nat.max x s.dsp.shedAt + 1000000000 ≤ s.mono ∧ lvl < 3 then lvl + 1 else lvl))
              ∧ (s.dsp.loadSince = none → s.dsp.shedAt ≤ s.mono → t.f F.DSP_COOPER_SHED_LEVEL = lvl ∧ t.dsp.loadSince = some s.mono))
          ∧ (load < 10 * s.f F.DSP_COOPER_CFG_RESTORE_PCT → ∀ x, s.dsp.lowSince = some x →
              t.f F.DSP_COOPER_SHED_LEVEL = (if Nat.max x s.dsp.shedAt + 5000000000 ≤ s.mono ∧ 0 < lvl then lvl - 1 else lvl))
          ∧ t.mem = s.mem ∧ t.tally = s.tally ∧ t.tm = s.tm)
    ∧ ∀ (src code unit : Nat) (f : Fold), s.dsp.folds.find? (fun f => f.source == src && f.code == code && f.unit == unit) = some f →
        ∃ t : State, exec (.eventFoldFlush src code unit) s = .next t
          ∧ (f.count = 0 → t = { s with dsp := { s.dsp with folds := t.dsp.folds } } ∧ t.foldOf src code unit = none)
          ∧ (f.count ≠ 0 → (∃ e : Evt, t.log = (e :: s.log).take 4096 ∧ e.seq = s.dsp.evtSeq + 1 ∧ e.source = src ∧ e.code = code
              ∧ e.unit = unit % 65536 ∧ e.rep = satU 16 f.count ∧ e.ts = f.ts) ∧ t.dsp.evtSeq = s.dsp.evtSeq + 1
              ∧ ∃ g : Fold, t.foldOf src code unit = some g ∧ g.count = 0 ∧ g.since = s.mono)

/-- R372, R373, R375, R377, R381, R384. Phases of a visit: 0 the spare under test, 1 swap in due, 2 the unit under test, 3 swap back due. -/
def Obligations.SpareRotation : Prop :=
  ∀ (s : State) (c : Nat), s.up = true →
    (∀ g < groupsOf c, s.pw.mode = .running → s.handling c = false →
        (s.freeSpares c g = [] → exec (.spareVisit c g [] none) s = .next s)
        ∧ (∀ sp : Nat, ∀ tgt : Nat × Nat × Bool, s.freeSpares c g = [sp] → s.visitTarget c g = some tgt → ∃ t : State, exec (.spareVisit c g [] none) s = .next t
          ∧ t.dsp.visits = s.dsp.visits ++ [{ cls := c, group := g, spare := sp, logical := tgt.1, phys := tgt.2.1, phase := 0 }]
          ∧ t.f F.DSP_ST_STATUS_VISITS = (s.f F.DSP_ST_STATUS_VISITS + 1) % 65536 ∧ t.mem = s.mem ∧ t.tally = s.tally))
    ∧ (∀ (v : Visit) (i : Nat), s.dsp.visits = [v] → v.cls = c → (v.phase = 0 ∧ v.spare = i ∨ v.phase = 2 ∧ v.phys = i) →
        (∃ t : State, exec (.selfTestDone c i true) s = .next t ∧ t.dsp.visits = [{ v with phase := v.phase + 1 }] ∧ t.dsp.place = s.dsp.place
          ∧ t.f F.DSP_ST_LAST_CLASS = c % 256 ∧ t.f F.DSP_ST_LAST_INDEX = i % 65536 ∧ t.f F.DSP_ST_LAST_RESULT = 0
          ∧ t.f F.DSP_ST_STATUS_FAILURES = s.f F.DSP_ST_STATUS_FAILURES)
        ∧ (i < 65536 → (s.unitSt c i).out = false → ∃ t : State, exec (.selfTestDone c i false) s = .next t ∧ (t.unitSt c i).out = true
          ∧ t.f F.DSP_ST_STATUS_FAILURES = satU 8 (s.f F.DSP_ST_STATUS_FAILURES + 1) ∧ t.fb F.DSP_EVT_ST_FAIL = true))
    ∧ (∀ v : Visit, s.dsp.visits = [v] → v.cls = c → v.group < 65536 → v.logical < 64 → v.spare < 65536 → v.phys < 65536 →
        (v.phase = 1 → ∃ t : State, exec (.unitSwap c v.spare) s = .next t ∧ t.physOf c v.group v.logical = some v.spare
          ∧ t.dsp.visits = [{ v with phase := 2 }] ∧ t.fb F.DSP_EVT_SWAP = true ∧ t.mem = s.mem ∧ t.tally = s.tally)
        ∧ (v.phase = 3 → ∃ t : State, exec (.unitSwap c v.spare) s = .next t ∧ t.physOf c v.group v.logical = some v.phys
          ∧ t.dsp.visits = [] ∧ t.fb F.DSP_EVT_SWAP = true ∧ t.mem = s.mem ∧ t.tally = s.tally))
    ∧ (∀ i < 65536, (s.unitSt c i).out = true → (s.unitSt c i).retired = false →
        (∃ t : State, exec (.retest c i false) s = .next t ∧ (t.unitSt c i).retired = true ∧ (t.unitSt c i).out = true
          ∧ t.f F.DSP_ST_LAST_RESULT = 2
          ∧ t.otp.retire = (if s.otp.retire.length < 32 then s.otp.retire ++ [(true, 2 ^ 31 + c * 2 ^ 16 + i)] else s.otp.retire))
        ∧ ((s.unitSt c i).passes = 0 → ∃ t : State, exec (.retest c i true) s = .next t ∧ (t.unitSt c i).out = true ∧ (t.unitSt c i).passes = 1
          ∧ t.f F.DSP_ST_LAST_RESULT = 0)
        ∧ ((s.unitSt c i).passes = 1 → ∃ t : State, exec (.retest c i true) s = .next t ∧ (t.unitSt c i).out = false ∧ (t.unitSt c i).passes = 0))
    ∧ (∀ g < groupsOf c, s.handling c = true → ∃ t : State, exec (.visitWaitWarning c g) s = .next t ∧ Safety.Touches [] s t
        ∧ ∃ e : Evt, t.log = (e :: s.log).take 4096 ∧ e.source = 0xC ∧ e.sev = 1 ∧ e.unit = g % 65536)
    ∧ ∀ core < 4, (s.unitSt 0xE core).out = false →
        ((s.dsp.wdTimes.filter (fun x => decide (s.mono ≤ x + 60000000000))).length < 2 → s.dsp.handover = [] →
          exec (.firmwareWatchdog core) s
            = .next { (s.addSat F.DSP_COOPER_SHED_WD_RESETS).event 0xC 8 core with
                dsp := { ((s.addSat F.DSP_COOPER_SHED_WD_RESETS).event 0xC 8 core).dsp with
                  wdTimes := s.mono :: s.dsp.wdTimes.filter (fun x => decide (s.mono ≤ x + 60000000000)) }, bt := { s.bt with wdSeen := true } })
        ∧ (2 ≤ (s.dsp.wdTimes.filter (fun x => decide (s.mono ≤ x + 60000000000))).length → ∃ t : State, exec (.firmwareWatchdog core) s = .next t
          ∧ t.f F.PWR_RESET_CAUSE_CAUSE = 2 ∧ (t.pw.mode = .starting ∨ t.pw.mode = .recovery) ∧ t.mem = [])

/-- R6, R7, R8, R9, R51, Table 0-4: host writes to BAR0. `target` names the register that answers at an address, its window being open (R43);
which part sets bits of a W1C register in the clock of the write is the operand `same` (log entry 91). -/
def Obligations.HostRegisters : Prop :=
  ∀ (s : State) (addr v : Nat),
    (s.target addr = none →
        (pfVectorAt addr = false → exec (.regWrite addr v) s = .next s) ∧ (∀ same : Nat, exec (.eventBitsClear addr v same) s = .next s)
        ∧ exec (.blRegisterWrite addr v) s = .next s ∧ exec (.reg64LoWrite addr v) s = .next s ∧ exec (.reg64HiWrite addr v) s = .next s)
    ∧ (pfVectorAt addr = true → s.windowOpen 0xD = true → ∃ t : State, exec (.regWrite addr v) s = .next t
        ∧ t.msixWord 0 (addr - 0xD10000) = v % 2 ^ 32 ∧ t.regs = s.regs ∧ t.mem = s.mem ∧ t.tally = s.tally)
    ∧ ∀ (r : Reg) (i j : Nat), s.target addr = some (r, i, j) → pfVectorAt addr = false →
        (r.bl ≠ 0 → ∃ t : State, exec (.blRegisterWrite addr v) s = .next t ∧ exec (.regWrite addr v) s = .next t ∧ Safety.Touches [] s t
            ∧ t.fb F.BOOT_EVT_ACCESS = true ∧ t.mem = s.mem)
        ∧ (r.bl = 0 → exec (.blRegisterWrite addr v) s = .next s)
        ∧ (r.bl = 0 → r.w1c ≠ 0 → ∃ t : State, exec (.regWrite addr v) s = .next t ∧ exec (.eventBitsClear addr v 0) s = .next t
            ∧ t = s.setWord r (s.word r i j &&& ~~~(BitVec.ofNat 32 v &&& BitVec.ofNat 32 r.w1c)) i j)
        ∧ (r.w1c ≠ 0 → ∀ same : Nat, ∃ t : State, exec (.eventBitsClear addr v same) s = .next t ∧ Safety.Touches [r.addr i j] s t
            ∧ ∀ b < 32, bitOf (t.word r i j).toNat b
                = (bitOf (s.word r i j).toNat b && !(bitOf v b && bitOf r.w1c b) || bitOf same b && bitOf r.w1c b))
        ∧ (r.w1c = 0 → ∀ same : Nat, exec (.eventBitsClear addr v same) s = .next s)
        ∧ (r.rw = 0 ∧ r.w1c = 0 ∧ r.wo = 0 ∧ r.bl = 0 → exec (.regWrite addr v) s = .next s)
        ∧ (r = R.HST_MBX_REQ → exec (.regWrite addr v) s = .next (s.setWord r (BitVec.ofNat 32 v) i))
        ∧ (r = R.DSP_HOST_ADV → ∀ x n : Nat, v < 2 ^ 32 → x = v / 65536 → n = v % 65536 →
            exec (.regWrite addr v) s = .next (hostTallyAdvance x n s))
        ∧ (r = R.DSP_HOST_WAIT_CTL → bitOf v 31 = true → exec (.regWrite addr v) s = .next (hostWaitArm i (v % 65536) s))
        ∧ (r = R.DSP_HOST_WAIT_CTL → bitOf v 31 = false → exec (.regWrite addr v) s = .next (hostWaitDisarm i (v % 65536) s))
        ∧ (r = R.DSP_HOST_WAIT_TH_LO ∨ r = R.HST_RING_RD_LO →
            exec (.reg64LoWrite addr v) s = .next { s with hst := { s.hst with lo := tput 0 s.hst.lo (addr + 4) (v % 2 ^ 32 + 1) } }
            ∧ exec (.regWrite addr v) s = exec (.reg64LoWrite addr v) s)
        ∧ (r ≠ R.DSP_HOST_WAIT_TH_LO → r ≠ R.HST_RING_RD_LO → exec (.reg64LoWrite addr v) s = .next s)
        ∧ (r ≠ R.DSP_HOST_WAIT_TH_HI → r ≠ R.HST_RING_RD_HI → exec (.reg64HiWrite addr v) s = .next s)
        ∧ (r = R.DSP_HOST_WAIT_TH_HI → ∀ x : Nat, tget 0 s.hst.lo addr ≤ 2 ^ 32 →
            x = v % 2 ^ 32 * 2 ^ 32 + (if tget 0 s.hst.lo addr = 0 then (s.word R.DSP_HOST_WAIT_TH_LO i).toNat else tget 0 s.hst.lo addr - 1) →
            ∃ t : State, exec (.reg64HiWrite addr v) s = .next t ∧ exec (.regWrite addr v) s = .next t
              ∧ t.pair R.DSP_HOST_WAIT_TH_LO R.DSP_HOST_WAIT_TH_HI i = x ∧ tget 0 t.hst.lo addr = 0 ∧ t.mem = s.mem ∧ t.tally = s.tally)
        ∧ (r = R.HST_RING_RD_HI → ∀ x : Nat, tget 0 s.hst.lo addr ≤ 2 ^ 32 →
            x = v % 2 ^ 32 * 2 ^ 32 + (if tget 0 s.hst.lo addr = 0 then (s.word R.HST_RING_RD_LO i).toNat else tget 0 s.hst.lo addr - 1) →
            s.loaded = true → i < 64 → s.pair R.HST_RING_RD_LO R.HST_RING_RD_HI i ≤ x → x ≤ s.pair R.HST_RING_WR_LO R.HST_RING_WR_HI i →
            ∃ t : State, exec (.reg64HiWrite addr v) s = .next t ∧ exec (.regWrite addr v) s = .next t
              ∧ t.pair R.HST_RING_RD_LO R.HST_RING_RD_HI i = x ∧ tget 0 t.hst.lo addr = 0 ∧ t.mem = s.mem)

/-- R2, R6, R8, R9, R60, R392: host reads of BAR0, and accesses that are not naturally aligned 4-byte ones. -/
def Obligations.HostReads : Prop :=
  ∀ s : State,
    (∀ (addr : Nat) (r : Reg) (i j : Nat), s.target addr = some (r, i, j) → r ∈ pairLos → r ≠ R.LNK_PORT_FEC_CORR_LO → r ≠ R.TIME_CAP_SEC_LO →
        ∀ (h : Reg) (i' j' : Nat), regAt (addr + 4) = some (h, i', j') → (addr < 0xC80000 ∨ 0xD00000 ≤ addr) →
        exec (.reg64LoRead addr) s
          = .next (({ s with hst := { s.hst with hi := tput 0 s.hst.hi (addr + 4) ((s.word h i j).toNat + 1) } } : State).emit
              (.cpl 0 (leBytes 4 (s.word r i j).toNat) false)))
    ∧ (∀ n < 65536, s.windowOpen 0xC = true → s.target (0xC80000 + 8 * n) = none →
        exec (.reg64LoRead (0xC80000 + 8 * n)) s
          = .next (({ s with hst := { s.hst with hi := tput 0 s.hst.hi (0xC80000 + 8 * n + 4) ((s.tallyOf n).value / 2 ^ 32 + 1) } } : State).emit
              (.cpl 0 (leBytes 4 (s.tallyOf n).value) false)))
    ∧ (∀ addr : Nat, addr % 4 = 0 → s.reach 0 = true →
        (s.readOpen addr = false → exec (.reg64LoRead addr) s = .next (s.emit (.cpl 0 (leBytes 4 0) false)))
        ∧ (s.readOpen addr = true → s.pairAt addr = none → tget 0 s.hst.hi addr = 0 → timeNowKey addr = none → addr ≠ 0x200010 →
            (∀ i : Nat, addr ≠ R.LNK_PORT_FEC_CORR_LO.addr i 0) → (∀ i : Nat, addr ≠ R.TIME_CAP_SEC_LO.addr i 0) →
            exec (.reg64LoRead addr) s = .next (s.emit (.cpl 0 (leBytes 4 (s.liveWord addr)) false))
            ∧ (regAt addr = none → (addr < 0xC40000 ∨ 0xD00000 ≤ addr) → pfVectorAt addr = false → (addr < 0xD11000 ∨ 0xD11010 ≤ addr) →
                (addr < 0x880000 ∨ 0x900000 ≤ addr) → s.liveWord addr = 0)
            ∧ (∀ i k : Nat, addr = 0x880000 + 256 * i + 4 * k → k < 64 → i < 2048 →
                s.liveWord addr = leValue (((s.ttEntry i).drop (4 * k)).take 4))
            ∧ ∀ c : Nat, exec (.reg64LoRead addr) { s with hst := { s.hst with hi := tput 0 s.hst.hi addr (c + 1) } }
                = .next (({ s with hst := { s.hst with hi := tput 0 (tput 0 s.hst.hi addr (c + 1)) addr 0 } } : State).emit
                    (.cpl 0 (leBytes 4 c) false))))
    ∧ (∀ fn : Nat, (fn ≠ 0 ∨ s.reach 0 = false → exec (.timeNowCapture fn) s = .next s)
        ∧ (s.reach 0 = true → s.windowOpen 2 = false → exec (.timeNowCapture 0) s = .next (s.emit (.cpl 0 (leBytes 4 0) false)))
        ∧ (s.windowOpen 2 = true → ∃ t : State, exec (.timeNowCapture 0) s = .next t ∧ tget 0 t.tm.capt 0 = s.tm.dev + 1
            ∧ tget 0 t.tm.capt 1 = s.tm.dev + 1 ∧ tget 0 t.tm.capt 2 = s.tm.dev + 1
            ∧ t.out = .cpl 0 (leBytes 4 (s.now / 1000000000)) false :: s.out ∧ t.regs = s.regs ∧ t.mem = s.mem))
    ∧ ∀ (addr len v : Nat), exec (.bar0BadAccess true addr len v) s = .next s
        ∧ (s.reach 0 = true → addr % 4 ≠ 0 ∨ len ≠ 4 → exec (.bar0BadAccess false addr len v) s = .next (s.emit (.unsupported 0)))

/-- A function's vector is raised from `s` to `t`: a message where neither the vector's mask nor D3hot holds it, else its pending bit (R405). -/
def Sys2Proof.Safety.raised (s t : State) (fn vec : Nat) : Prop :=
  (bitOf (s.vecCtl fn vec) 0 = false → bitOf s.hst.d3 fn = false → t.out = .irq fn vec :: s.out ∧ t.hst.pba = s.hst.pba)
    ∧ (bitOf (s.vecCtl fn vec) 0 = true ∨ bitOf s.hst.d3 fn = true → t.out = s.out ∧ fn * 128 + vec ∈ t.hst.pba)

/-- Only ring `n` takes the records of a source, no window and no pose stream does. -/
def Sys2Proof.Safety.onlyRing (s : State) (n kind source : Nat) : Prop :=
  (∀ m < 64, s.fb F.HST_RING_CTL_ENABLE m = true ∧ s.f F.HST_RING_CTL_KIND m = kind ∧ s.f F.HST_RING_CTL_SOURCE m = source ↔ m = n)
    ∧ n < 64 ∧ (∀ w < 256, s.fb F.HST_WIN_ENABLE w = false) ∧ ∀ m < 32, s.fb F.HST_STR_CTL_ENABLE m = false

/-- R389, R392, R395, R398–R403, R405, R43. -/
def Obligations.HostInterface : Prop :=
  ∀ s : State,
    (∀ fn off v : Nat, (fn = 0 ∨ 15 < fn ∨ 16 ≤ off ∨ off % 4 ≠ 0 ∨ s.reach fn = false → exec (.msixTableWrite fn off v) s = .next s)
        ∧ (1 ≤ fn → fn ≤ 15 → off < 16 → off % 4 = 0 → s.reach fn = true → ∃ t : State, exec (.msixTableWrite fn off v) s = .next t
            ∧ t.msixWord fn off = v % 2 ^ 32 ∧ t.regs = s.regs ∧ t.mem = s.mem
            ∧ (off = 12 → bitOf v 0 = false → fn * 128 ∈ s.hst.pba → fn * 128 ∉ t.hst.pba ∧ t.out = .irq fn 0 :: s.out)
            ∧ (fn * 128 ∉ s.hst.pba → t.out = s.out ∧ t.hst.pba = s.hst.pba)))
    ∧ (∀ n seq : Nat, (s.loaded = false ∨ s.reach 0 = false ∨ seq < s.pair R.HST_RING_RD_LO R.HST_RING_RD_HI n
            ∨ s.pair R.HST_RING_WR_LO R.HST_RING_WR_HI n < seq → exec (.hstRingRdWrite n seq) s = .next s)
        ∧ (n < 64 → s.loaded = true → s.reach 0 = true → s.pair R.HST_RING_RD_LO R.HST_RING_RD_HI n ≤ seq →
            s.pair R.HST_RING_WR_LO R.HST_RING_WR_HI n = seq → ∃ t : State, exec (.hstRingRdWrite n seq) s = .next t
              ∧ t.pair R.HST_RING_RD_LO R.HST_RING_RD_HI n = seq ∧ n ∉ t.hst.fired ∧ t.mem = s.mem ∧ t.out = s.out))
    ∧ (s.up = true →
        (∀ k src : Nat, (∀ p ∈ s.hst.outq, ¬(p.kind = k ∧ p.source = src)) → exec (.ringRecordCopy k src) s = .next s)
        ∧ (∀ (p : Pub) (n sq at_ : Nat), s.hst.outq = [p] → 1 ≤ p.kind → Safety.onlyRing s n p.kind p.source →
            sq = tget 0 s.hst.seqs n + 1 → sq < 2 ^ 64 → s.mm.poison = [] → p.bytes.length ≤ 224 →
            at_ = s.pair R.HST_RING_BACK_LO R.HST_RING_BACK_HI n + 256 * (sq % 2 ^ s.f F.HST_RING_CTL_LOG2_LEN n) →
            ∃ t : State, exec (.ringRecordCopy p.kind p.source) s = .next t ∧ t.hst.outq = [] ∧ tget 0 t.hst.seqs n = sq
              ∧ t.pair R.HST_RING_WR_LO R.HST_RING_WR_HI n = sq
              ∧ t.mem = s.mem.writeList at_ (leBytes 8 sq ++ leBytes 1 p.kind ++ leBytes 1 p.source ++ leBytes 2 p.bytes.length ++ leBytes 4 0
                  ++ p.bytes ++ zeroBytes (224 - p.bytes.length) ++ leBytes 8 p.slot ++ leBytes 8 sq)
              ∧ (s.rdNum at_ 8 = 0 ∨ s.rdNum at_ 8 ≤ s.pair R.HST_RING_RD_LO R.HST_RING_RD_HI n →
                  t.f F.HST_RING_OVERRUN_COUNT n = s.f F.HST_RING_OVERRUN_COUNT n)
              ∧ (s.rdNum at_ 8 ≠ 0 → s.pair R.HST_RING_RD_LO R.HST_RING_RD_HI n < s.rdNum at_ 8 →
                  t.f F.HST_RING_OVERRUN_COUNT n = satU 32 (s.f F.HST_RING_OVERRUN_COUNT n + 1) ∧ t.fb F.HST_EVT_RING_OVERRUN = true)
              ∧ t.hst.holds = s.hst.holds ++ (if s.f F.HST_RING_REL_HOLD_US n = 0 then []
                  else [{ tally := s.f F.HST_RING_REL_TALLY n, due := s.mono + 1000 * s.f F.HST_RING_REL_HOLD_US n }]))
        ∧ (∀ n : Nat,
            (s.fb F.HST_RING_CTL_ENABLE n = false ∨ n ∈ s.hst.fired ∨ s.f F.HST_RING_IRQ_IRQ_US n = 0
              ∨ s.pair R.HST_RING_WR_LO R.HST_RING_WR_HI n ≤ s.pair R.HST_RING_RD_LO R.HST_RING_RD_HI n →
              exec (.ringIrqTimer n) s = .next s)
            ∧ (n < 64 → s.fb F.HST_RING_CTL_ENABLE n = true → n ∉ s.hst.fired → s.f F.HST_RING_IRQ_IRQ_US n ≠ 0 →
              s.pair R.HST_RING_RD_LO R.HST_RING_RD_HI n < s.pair R.HST_RING_WR_LO R.HST_RING_WR_HI n →
              ∃ t : State, exec (.ringIrqTimer n) s = .next t ∧ t.hst.fired = n :: s.hst.fired ∧ t.regs = s.regs ∧ Safety.raised s t 0 (4 + n)))
        ∧ ((∀ h ∈ s.hst.holds, s.mono < h.due) → exec .holdRelease s = .next s)
        ∧ (∀ h : Hold, s.hst.holds.find? (fun x => decide (x.due ≤ s.mono)) = some h → ∃ t : State, exec .holdRelease s = .next t
            ∧ t.hst.holds = s.hst.holds.erase h
            ∧ t.mem = s.mem
            ∧ ∀ k : Nat, t.tallyOf k = if k = h.tally ∧ s.producer 0xD k = true then (s.tallyOf k).add 1 none else s.tallyOf k))
    ∧ (∀ fn n : Nat,
        (s.slotHere fn n = false → (∀ (off : Nat) (b : List Byte), exec (.slotRequestWrite fn n off b) s = .next s)
            ∧ exec (.slotPost fn n) s = .next s ∧ exec (.slotRelease fn n) s = .next s)
        ∧ (s.slotHere fn n = true →
          (∀ (off : Nat) (b : List Byte), (320 < off + b.length → exec (.slotRequestWrite fn n off b) s = .next s)
            ∧ (off + b.length ≤ 320 → ∃ t : State, exec (.slotRequestWrite fn n off b) s = .next t
                ∧ (t.slot fn n).request.length = 320 ∧ ((t.slot fn n).request.drop off).take b.length = b
                ∧ (t.slot fn n).state = (s.slot fn n).state ∧ t.regs = s.regs ∧ t.mem = s.mem
                ∧ ∀ k < 320, k < off ∨ off + b.length ≤ k →
                    nth 0#8 (t.slot fn n).request k = nth 0#8 (fitBytes 320 (s.slot fn n).request) k))
          ∧ ((s.slot fn n).state ≠ 0 → ∃ t : State, exec (.slotPost fn n) s = .next t ∧ t.hst.slots = s.hst.slots ∧ t.csk = s.csk
              ∧ t.f F.HST_SLOT_BUSY_COUNT = satU 32 (s.f F.HST_SLOT_BUSY_COUNT + 1) ∧ t.fb F.HST_EVT_SLOT_BUSY = true)
          ∧ ((s.slot fn n).state = 0 → ∀ r : List Byte, r = fitBytes 320 (s.slot fn n).request →
              (bitOf (s.f F.HST_FN_INDEX_MASK fn) (rqIdx r) = false ∨ rqInTable r = false → ∃ (t : State) (b : List Byte),
                exec (.slotPost fn n) s = .next t ∧ (t.slot fn n).state = 2 ∧ (t.slot fn n).result = b ∧ b.length = 1088
                  ∧ (nth 0#8 b 8).toNat = St.invalidInput ∧ (nth 0#8 b 9).toNat = 0 ∧ t.csk = s.csk ∧ t.mem = s.mem)
              ∧ (bitOf (s.f F.HST_FN_INDEX_MASK fn) (rqIdx r) = true → rqInTable r = true → s.queryBad r = false →
                s.fb F.CSK_IDX_CTL_SHARDED (rqIdx r) = false → ∃ (u : State) (q : CQuery) (w : Walk),
                  exec (.slotPost fn n) s = .next u.caskSettle ∧ (u.slot fn n).state = 1 ∧ (u.slot fn n).result = []
                  ∧ (u.slot fn n).posts = ((s.slot fn n).posts + 1) % 65536 ∧ u.csk.qs = s.csk.qs ++ [q] ∧ q.origin = 16 ∧ q.k = fn * 64 + n
                  ∧ q.req = r ∧ q.who = (u.slot fn n).posts ∧ u.csk.walks = s.csk.walks ++ [w] ∧ w.q = q.tag ∧ w.unit = none ∧ u.mem = s.mem))
          ∧ ∃ u : State, exec (.slotRelease fn n) s = .next u.caskSettle ∧ (u.slot fn n).state = 0 ∧ u.mem = s.mem ∧ u.regs = s.regs
              ∧ ((s.slot fn n).state ≠ 0 → ∀ q ∈ u.csk.qs, ¬(q.origin = 16 ∧ q.k = fn * 64 + n))))
    ∧ (∀ fn off len : Nat,
        (15 < fn ∨ s.loaded = false ∨ s.reach fn = false → exec (.bar4Read fn off len) s = .next s ∧ exec (.bar4Slow fn off) s = .next s)
        ∧ (fn ≤ 15 → s.loaded = true → s.reach fn = true →
          ((∀ e ∈ s.mm.bar4, ¬(e.1 = fn ∧ e.2.1 = off)) ∨ s.cellarOnly (s.apAddr off / 65536) = false → exec (.bar4Slow fn off) s = .next s)
          ∧ ((∀ i < len, s.apOpen fn (off + i) = true) → 0 < len →
            s.accessHeld (s.apAddr off / 65536) = false → s.poisoned (s.apAddr off) len = false → ∃ t : State, exec (.bar4Read fn off len) s = .next t
              ∧ t.out = .cpl fn ((List.range len).map (fun i => s.rd (s.apAddr (off + i)))) false :: s.out ∧ t.mem = s.mem ∧ t.regs = s.regs)
          ∧ ((∀ i < len, s.apOpen fn (off + i) = true) → 0 < len → s.accessHeld (s.apAddr off / 65536) = true →
            s.cellarOnly (s.apAddr off / 65536) = false ∨ s.cellarGone = false → ∃ t : State, exec (.bar4Read fn off len) s = .next t
              ∧ t.mm.bar4 = s.mm.bar4 ++ [(fn, off, len)] ∧ (∀ o ∈ t.out, o ∈ s.out ∨ o = s.nvmeOut 0 (s.apAddr off / 65536))
              ∧ (s.cellarOnly (s.apAddr off / 65536) = false → t.out = s.out) ∧ t.mem = s.mem ∧ t.regs = s.regs)
          ∧ ((∀ i < len, s.apOpen fn (off + i) = true) → 0 < len →
            s.accessHeld (s.apAddr off / 65536) = false → s.poisoned (s.apAddr off) len = true →
            ∃ t : State, exec (.bar4Read fn off len) s = .next t ∧ t.f F.HST_POISONED_COUNT = satU 32 (s.f F.HST_POISONED_COUNT + 1)
              ∧ (∃ b : List Byte, t.out.head? = some (.cpl fn b true)) ∧ t.mem = s.mem)
          ∧ ((∀ i < len, s.apOpen fn (off + i) = false) → 0 < len →
            ∃ t : State, exec (.bar4Read fn off len) s = .next t ∧ t.out.head? = some (.cpl fn (zeroBytes len) false)
              ∧ t.f F.HST_BAR4_DENIED_COUNT = satU 32 (s.f F.HST_BAR4_DENIED_COUNT + 1) ∧ t.fb F.HST_EVT_BAR4_DENIED = true ∧ t.mem = s.mem)
          ∧ ((∃ l : Nat, (fn, off, l) ∈ s.mm.bar4) → s.cellarOnly (s.apAddr off / 65536) = true →
            ∃ t : State, exec (.bar4Slow fn off) s = .next t ∧ t.out.head? = some (.cpl fn [] true) ∧ t.mem = s.mem
              ∧ (∀ e ∈ t.mm.bar4, e ∈ s.mm.bar4 ∧ ¬(e.1 = fn ∧ e.2.1 = off))
              ∧ t.f F.HST_BAR4_SLOW_COUNT = satU 32 (s.f F.HST_BAR4_SLOW_COUNT + 1))))
    ∧ (s.awake = false → exec .perstN s = .next s ∧ ∀ (fn : Nat) (d3 : Bool), exec (.pciePowerStateChange fn d3) s = .next s)
    ∧ (s.awake = true →
        (∃ t : State, exec .perstN s = .next t
            ∧ (∀ n < 64, t.fb F.DSP_HOST_WAIT_CTL_ARM n = false
                ∧ t.pair R.HST_RING_RD_LO R.HST_RING_RD_HI n = s.pair R.HST_RING_WR_LO R.HST_RING_WR_HI n ∧ ∀ fn < 16, (t.slot fn n).state = 0)
            ∧ t.hst.d3 = 0 ∧ t.fb F.HST_EVT_FLR = true ∧ t.mem = s.mem ∧ t.tally = s.tally ∧ t.pw = s.pw ∧ t.frm = s.frm)
        ∧ ∀ (fn : Nat) (d3 : Bool), fn ≤ 15 → ∃ t : State, exec (.pciePowerStateChange fn d3) s = .next t ∧ bitOf t.hst.d3 fn = d3
            ∧ (∀ k ≠ fn, bitOf t.hst.d3 k = bitOf s.hst.d3 k) ∧ t.regs = s.regs ∧ t.mem = s.mem)

/-- What an endpoint reset may change beside registers (R406): events with their interrupts, query slots with their queries, BAR4 reads
that wait, and that a mailbox response is to be discarded. -/
def Sys2Proof.Safety.resetFrame (s t : State) : Prop :=
  t = { s with regs := t.regs, log := t.log, out := t.out, dsp := { s.dsp with evtSeq := t.dsp.evtSeq, folds := t.dsp.folds },
               hst := { s.hst with pba := t.hst.pba, slots := t.hst.slots, drop := t.hst.drop },
               csk := { s.csk with qs := t.csk.qs, walks := t.csk.walks }, mm := { s.mm with bar4 := t.mm.bar4 } }

/-- The slots of the functions of `l` are free and their queries gone; every other slot and query is as it was; their BAR4 reads
that wait are dropped. -/
def Sys2Proof.Safety.released (l : List Nat) (s t : State) : Prop :=
  (∀ fn ∈ l, ∀ n < 64, (t.slot fn n).state = 0) ∧ (∀ fn ∉ l, ∀ n < 64, t.slot fn n = s.slot fn n)
    ∧ t.mm.bar4 = s.mm.bar4.filter (fun e => !l.contains e.1) ∧ (∀ q ∈ t.csk.qs, q ∈ s.csk.qs) ∧ (∀ q ∈ s.csk.qs, q.origin ≠ 16 ∨ q.k / 64 ∉ l → q ∈ t.csk.qs)

/-- R406: what a PF FLR or hot reset does, and a VF FLR. The mailbox is BUSY (STATE 1) while a STAGE_DATA waits for its DMA. -/
def Obligations.EndpointResets : Prop :=
  ∀ s : State,
    (s.awake = false → exec .pfReset s = .next s ∧ ∀ fn : Nat, exec (.vfFlr fn) s = .next s)
    ∧ (s.awake = true →
      (∃ t : State, exec .pfReset s = .next t ∧ Safety.resetFrame s t ∧ Safety.released [0] s t
          ∧ (∀ n < 64, t.fb F.DSP_HOST_WAIT_CTL_ARM n = false ∧ t.f F.DSP_HOST_WAIT_CTL_INDEX n = s.f F.DSP_HOST_WAIT_CTL_INDEX n
              ∧ t.pair R.HST_RING_RD_LO R.HST_RING_RD_HI n = s.pair R.HST_RING_WR_LO R.HST_RING_WR_HI n)
          ∧ t.hst.drop = (s.hst.drop || s.f F.HST_MBX_STATUS_STATE == 1) ∧ t.fb F.HST_EVT_FLR = true
          ∧ (∀ (r : Reg) (i j : Nat), r.addr i j ∉ Safety.logRegs →
              (∀ n < 64, r.addr i j ≠ R.DSP_HOST_WAIT_CTL.addr n 0 ∧ r.addr i j ≠ R.HST_RING_RD_LO.addr n 0 ∧ r.addr i j ≠ R.HST_RING_RD_HI.addr n 0) →
              t.word r i j = s.word r i j)
          ∧ (∀ k : Nat, s.hst.dma = some k → s.f F.HST_MBX_STATUS_STATE = 1 → ∃ u : State, exec .mbxDmaTimeout t = .next u
              ∧ u.f F.HST_MBX_STATUS_STATE = 0 ∧ u.f F.HST_MBX_STATUS_RESULT = s.f F.HST_MBX_STATUS_RESULT
              ∧ u.f F.HST_MBX_STATUS_TAG = s.f F.HST_MBX_STATUS_TAG ∧ (∀ n < 64, u.f F.HST_MBX_RSP_DATA n = s.f F.HST_MBX_RSP_DATA n)
              ∧ u.hst.dma = none ∧ u.hst.drop = false))
      ∧ ∀ fn : Nat, (fn = 0 ∨ 15 < fn → exec (.vfFlr fn) s = .next s)
        ∧ (1 ≤ fn → fn ≤ 15 → ∃ t : State, exec (.vfFlr fn) s = .next t ∧ Safety.resetFrame s t ∧ Safety.released [fn] s t
            ∧ t.hst.drop = s.hst.drop ∧ t.fb F.HST_EVT_FLR = true
            ∧ ∀ (r : Reg) (i j : Nat), r.addr i j ∉ Safety.logRegs → t.word r i j = s.word r i j))

/-- R407–R412. -/
def Obligations.EthernetServices : Prop :=
  ∀ s : State, s.up = true →
    (∀ port ip from_ : Nat,
        (s.portServes port = true → ip = s.f F.HST_PORT_IP_ADDR port →
          exec (.arpRequestRx port ip from_) s = .next (s.emit (.arp port 2 from_ (s.portMac port)))
          ∧ ∀ b : List Byte, exec (.icmpEchoRx port ip from_ b) s = .next (s.emit (.icmp port from_ b)))
        ∧ (s.portServes port = false ∨ ip ≠ s.f F.HST_PORT_IP_ADDR port →
          exec (.arpRequestRx port ip from_) s = .next s ∧ ∀ b : List Byte, exec (.icmpEchoRx port ip from_ b) s = .next s))
    ∧ (∀ port ip : Nat, ((port, ip) ∉ s.hst.arpWait → exec (.arpRetry port ip) s = .next s
            ∧ ∀ mac : Nat, exec (.arpReplyRx port ip mac) s = .next s)
        ∧ ((port, ip) ∈ s.hst.arpWait → exec (.arpRetry port ip) s = .next (s.emit (.arp port 1 ip (s.portMac port)))
            ∧ ∀ mac : Nat, s.portServes port = true → ∃ t : State, exec (.arpReplyRx port ip mac) s = .next t ∧ (port, ip, mac) ∈ t.hst.arp
                ∧ (port, ip) ∉ t.hst.arpWait ∧ (∀ e ∈ t.hst.arp, e.1 = port → e.2.1 = ip → e.2.2 = mac) ∧ t.regs = s.regs ∧ t.mem = s.mem))
    ∧ (∀ n : Nat, ((s.stream n).out = [] → exec (.poseStreamSend n) s = .next s)
        ∧ ((s.stream n).held = [] ∨ s.mono < (s.stream n).since + 500000 → exec (.poseBatchTimeout n) s = .next s)
        ∧ ((s.stream n).held ≠ [] → (s.stream n).since + 500000 ≤ s.mono → ∃ t : State, exec (.poseBatchTimeout n) s = .next t ∧ (t.stream n).held = []
            ∧ (t.stream n).out = (s.stream n).out ++ [(s.stream n).held] ∧ (t.stream n).seq = (s.stream n).seq ∧ t.regs = s.regs ∧ t.mem = s.mem)
        ∧ (∀ (p : List (List Byte)) (rest : List (List (List Byte))) (h : EthHdr), (s.stream n).out = p :: rest → h = s.streamHdr n →
            s.portServes h.port = true → isMulti h.dst = true → ∃ t : State, exec (.poseStreamSend n) s = .next t
              ∧ t.out = .eth { h with smac := s.portMac h.port, mac := 0x01005E000000 + h.dst % 2 ^ 23 } (s.svcHeader h.port 1 n p.length (s.stream n).seq ++ p.flatten) :: s.out
              ∧ (t.stream n).out = rest ∧ (t.stream n).seq = ((s.stream n).seq + 1) % 2 ^ 32
              ∧ t.f F.HST_STR_PACKETS_COUNT n = (s.f F.HST_STR_PACKETS_COUNT n + 1) % 2 ^ 32 ∧ t.mem = s.mem)
        ∧ (∀ (p : List (List Byte)) (rest : List (List (List Byte))) (h : EthHdr) (hop : Nat), (s.stream n).out = p :: rest →
            h = s.streamHdr n → hop = s.nextHop h.port h.dst →
            s.portServes h.port = true → isMulti h.dst = false → (∀ e ∈ s.hst.arp, ¬(e.1 = h.port ∧ e.2.1 = hop)) →
            ∃ t : State, exec (.poseStreamSend n) s = .next t ∧ (t.stream n).out = rest ∧ (h.port, hop) ∈ t.hst.arpWait
              ∧ t.f F.HST_PORT_ARP_COUNT h.port = satU 32 (s.f F.HST_PORT_ARP_COUNT h.port + 1)
              ∧ t.f F.HST_STR_PACKETS_COUNT n = s.f F.HST_STR_PACKETS_COUNT n ∧ (∀ o ∈ t.out, o ∈ s.out ∨ o = .arp h.port 1 hop (s.portMac h.port)))
        ∧ (s.sesState (s.f F.HST_STR_CTL_SESSION n) ≠ 0 ∨ 32 ≤ n → exec (.streamHeartbeat n) s = .next s)
        ∧ (n < 32 → s.fb F.HST_STR_CTL_ENABLE n = true → s.sesState (s.f F.HST_STR_CTL_SESSION n) = 0 → ∀ h : EthHdr, h = s.streamHdr n →
            s.portServes h.port = true → isMulti h.dst = true → ∃ t : State, exec (.streamHeartbeat n) s = .next t
              ∧ t.out = .eth { h with smac := s.portMac h.port, mac := 0x01005E000000 + h.dst % 2 ^ 23 } (s.svcHeader h.port 5 n 0 (s.stream n).seq) :: s.out
              ∧ (t.stream n).seq = ((s.stream n).seq + 1) % 2 ^ 32 ∧ (t.stream n).out = (s.stream n).out))
    ∧ (∀ port n typ count seq : Nat, (s.svcHeader port typ n count seq).length = 32 ∧ (s.svcHeader port typ n count seq).take 4 = leBytes 4 0x4B565331
        ∧ nth 0#8 (s.svcHeader port typ n count seq) 5 = BitVec.ofNat 8 typ
        ∧ ((s.svcHeader port typ n count seq).drop 12).take 4 = leBytes 4 seq
        ∧ ((s.svcHeader port typ n count seq).drop 16).take 12 = tsBytes (((s.tm.dev / 8192 : Nat) + Config.phyEgress port : Int).toNat / 8))
    ∧ ∀ (r : TileReq) (c : Instr), c ∈ [Instr.tileReqDense r, .tileReqDirectory r, .tileReqLandmark r] →
        (s.loaded = false ∨ s.portServes r.port = false ∨ s.fb F.HST_PORT_MAP_MAP_EN r.port = false ∨ r.dport ≠ s.f F.HST_PORT_MAP_MAP_UDP r.port →
          exec c s = .next s)
        ∧ (s.loaded = true → s.portServes r.port = true → s.fb F.HST_PORT_MAP_MAP_EN r.port = true → r.dport = s.f F.HST_PORT_MAP_MAP_UDP r.port →
          (s.aclOk r.src = false ∨ r.multicast = true ∨ r.ok = false ∨ r.tiles = [] ∨ 16 < r.tiles.length →
            exec c s = .next (s.addSat F.HST_MAP_IGNORED_COUNT))
          ∧ (∀ x : Nat, s.aclOk r.src = true → r.multicast = false → r.ok = true → r.tiles = [x] → isMulti r.src = false →
            (∃ e ∈ s.hst.arp, e.1 = r.port ∧ e.2.1 = s.nextHop r.port r.src) → ∃ t : State, exec c s = .next t
              ∧ t.f F.HST_MAP_REQS_COUNT = (s.f F.HST_MAP_REQS_COUNT + 1) % 2 ^ 32 ∧ t.mem = s.mem
              ∧ (0 < s.hst.reqCount → s.mono < s.hst.reqWindow + 1000000000 → s.ctrlRate ≤ s.hst.reqCount →
                  t.fb F.HST_EVT_MAP_BUSY = true ∧ t.f F.HST_MAP_NAKS_COUNT = satU 32 (s.f F.HST_MAP_NAKS_COUNT + 1)
                  ∧ t.f F.HST_MAP_TILES_COUNT = s.f F.HST_MAP_TILES_COUNT)
              ∧ (s.hst.reqCount + 1 ≤ s.ctrlRate →
                (c ≠ .tileReqLandmark r → s.mapOfId r.map = none → t.f F.HST_MAP_NAKS_COUNT = satU 32 (s.f F.HST_MAP_NAKS_COUNT + 1)
                    ∧ t.f F.HST_MAP_TILES_COUNT = s.f F.HST_MAP_TILES_COUNT)
                ∧ (∀ m : Nat, c = .tileReqDense r → s.mapOfId r.map = some m →
                    (x < s.mapBlocks m → s.blockUsed m x = true → r.since < s.rdNum (s.descAddr m x + 8) 4 →
                      (∀ n < 32, s.fb F.LNK_SHARED_RGN_ENABLE n = false) →
                      t.f F.HST_MAP_TILES_COUNT = (s.f F.HST_MAP_TILES_COUNT + 1) % 2 ^ 32 ∧ t.out.length = s.out.length + 64)
                    ∧ (s.mapBlocks m ≤ x ∨ (∀ n < 32, s.fb F.LNK_SHARED_RGN_ENABLE n = false)
                        ∧ (s.blockUsed m x = false ∨ s.rdNum (s.descAddr m x + 8) 4 ≤ r.since) →
                      t.f F.HST_MAP_NAKS_COUNT = satU 32 (s.f F.HST_MAP_NAKS_COUNT + 1) ∧ t.out.length = s.out.length + 1))
                ∧ (∀ m : Nat, c = .tileReqDirectory r → s.mapOfId r.map = some m →
                    (x < s.mapBlocks m → r.since < s.f F.KLN_MAP_EPOCH_EPOCH m → (∀ n < 32, s.fb F.LNK_SHARED_RGN_ENABLE n = false) →
                      t.f F.HST_MAP_TILES_COUNT = (s.f F.HST_MAP_TILES_COUNT + 1) % 2 ^ 32 ∧ t.out.length = s.out.length + 64)
                    ∧ (s.mapBlocks m ≤ x ∨ s.f F.KLN_MAP_EPOCH_EPOCH m ≤ r.since →
                      t.f F.HST_MAP_NAKS_COUNT = satU 32 (s.f F.HST_MAP_NAKS_COUNT + 1) ∧ t.out.length = s.out.length + 1))
                ∧ (c = .tileReqLandmark r → x * 65536 < s.f F.FRM_LM_CAP_ENTRIES * 64 → (∀ n < 32, s.fb F.LNK_SHARED_RGN_ENABLE n = false) →
                    t.f F.HST_MAP_TILES_COUNT = (s.f F.HST_MAP_TILES_COUNT + 1) % 2 ^ 32 ∧ t.out.length = s.out.length + 64))))

/-- A port has gone DOWN (R423): its link sequence numbers and replay buffer are lost. -/
def Sys2Proof.Safety.portLost (s t : State) (p : Nat) : Prop :=
  t.f F.LNK_PORT_STATUS_STATE p = 0 ∧ t.f F.LNK_PORT_STATUS_LANES_UP p = 0 ∧ t.f F.LNK_PORT_STATUS_HALF p = 0 ∧ t.linkPort p = {}
    ∧ t.f F.LNK_PORT_DOWNS_DOWNS p = satU 16 (s.f F.LNK_PORT_DOWNS_DOWNS p + 1) ∧ t.fb F.LNK_EVT_LINK_DOWN = true
    ∧ t.lnk.sent = s.lnk.sent ∧ t.mem = s.mem ∧ t.tally = s.tally

/-- R414, R417, R421–R423, R435. States of a port: 0 DOWN, then the steps of Table 15-2, 7 UP. -/
def Obligations.RamhelLinks : Prop :=
  ∀ (s : State) (p st : Nat), s.up = true → st = s.f F.LNK_PORT_STATUS_STATE p →
    (∀ (n : Nat) (x : LinkFind), s.linkOn p = false ∨ (s.linkPort p).trying = false ∨ bitOf s.pw.oeHot p = true ∨ st + 1 ≠ n →
        exec (.linkBringupStep p n x) s = .next s)
    ∧ (s.linkOn p = true → (s.linkPort p).trying = true → bitOf s.pw.oeHot p = false → ∀ x : LinkFind,
        (st = 0 → ∃ t : State, exec (.linkBringupStep p 1 x) s = .next t ∧ t.mem = s.mem ∧ t.lnk = s.lnk
            ∧ (150 ≤ x.in0 → x.in0 ≤ 180 → 150 ≤ x.in1 → x.in1 ≤ 180 → s.engineOk p = true → t.f F.LNK_PORT_STATUS_STATE p = 1
                ∧ t.f F.LNK_PORT_STATUS_LANES_UP p = 0xFF ∧ t.fb F.LNK_PORT_LASER_IN0_OK p = true ∧ t.fb F.LNK_PORT_LASER_IN1_OK p = true)
            ∧ (150 ≤ x.in0 → x.in0 ≤ 180 → x.in1 < 140 → s.engineOk p = true → t.fb F.LNK_EVT_LASER_LOW = true
                ∧ t.fb F.LNK_PORT_LASER_IN1_OK p = false
                ∧ t.f F.LNK_PORT_STATUS_STATE p = (if s.fb F.LNK_PORT_CTL_HALF_OK p = true then 1 else 0)
                ∧ (s.fb F.LNK_PORT_CTL_HALF_OK p = true → t.f F.LNK_PORT_STATUS_LANES_UP p = 0x0F ∧ t.fb F.LNK_PORT_STATUS_HALF p = true
                    ∧ t.fb F.LNK_EVT_LANES_REDUCED = true))
            ∧ (s.engineOk p = false ∨ (x.in0 < 150 ∧ x.in1 < 150) → t.f F.LNK_PORT_STATUS_STATE p = 0))
        ∧ (∀ n ∈ [2, 4, 5], st + 1 = n → exec (.linkBringupStep p n x) s = .next (s.setF F.LNK_PORT_STATUS_STATE n p))
        ∧ (st = 2 → ∃ t : State, exec (.linkBringupStep p 3 x) s = .next t ∧ t.mem = s.mem
            ∧ (x.lanes &&& s.f F.LNK_PORT_STATUS_LANES_UP p = s.f F.LNK_PORT_STATUS_LANES_UP p → t.f F.LNK_PORT_STATUS_STATE p = 3)
            ∧ (s.f F.LNK_PORT_STATUS_LANES_UP p = 0xFF → x.lanes = 0xF0 → s.fb F.LNK_PORT_CTL_HALF_OK p = true →
                t.f F.LNK_PORT_STATUS_STATE p = 3 ∧ t.f F.LNK_PORT_STATUS_LANES_UP p = 0xF0 ∧ t.fb F.LNK_PORT_STATUS_HALF p = true)
            ∧ (s.f F.LNK_PORT_STATUS_LANES_UP p = 0xFF → x.lanes = 0xF0 → s.fb F.LNK_PORT_CTL_HALF_OK p = false →
                t.f F.LNK_PORT_STATUS_STATE p = 2)
            ∧ ∀ l < 8, t.fb F.LNK_LANE_CDR p l = bitOf x.lanes l)
        ∧ (st = 5 → ((s.linkPort p).hello = 1 → exec (.linkBringupStep p 6 x) s
                = .next ((s.setF F.LNK_PORT_DELAY_NS x.delay p).setF F.LNK_PORT_STATUS_STATE 6 p))
            ∧ ((s.linkPort p).hello ≠ 1 → exec (.linkBringupStep p 6 x) s = .next s))
        ∧ (st = 6 → ∃ t : State, exec (.linkBringupStep p 7 x) s = .next t ∧ t.portUp p = true ∧ (t.linkPort p).trying = false
            ∧ (t.linkPort p).tx = 0 ∧ (t.linkPort p).rx = 0 ∧ (t.linkPort p).replay = [] ∧ t.fb F.LNK_EVT_LINK_UP = true ∧ t.mem = s.mem))
    ∧ (∀ (id peer part digest : Nat) (dup : Bool), (s.linkOn p = false ∨ (st ≠ 4 ∧ st ≠ 5) → exec (.helloRx p id peer part digest dup) s = .next s)
        ∧ (s.linkOn p = true → st = 4 ∨ st = 5 → id < 16 → ∃ t : State, exec (.helloRx p id peer part digest dup) s = .next t ∧ t.mem = s.mem
            ∧ t.f F.LNK_PORT_STATUS_STATE p = 5 ∧ t.f F.LNK_PORT_STATUS_PEER_ID p = id
            ∧ (id ≠ (if p = 1 then (s.deviceId + 1) % s.ringN else (s.deviceId + s.ringN - 1) % s.ringN) →
                (t.linkPort p).hello = 2 ∧ t.fb F.LNK_EVT_MISWIRED = true)
            ∧ (s.helloCheck p id peer part digest dup = 0 → (t.linkPort p).hello = 1 ∧ digest = s.bt.img.cascDigest ∧ dup = false)))
    ∧ (s.linkOn p = false ∨ (s.linkPort p).trying = false ∨ (s.linkPort p).hello = 2 → exec (.linkStepLimit p) s = .next s)
    ∧ (s.linkOn p = true → (s.linkPort p).trying = true → (s.linkPort p).hello ≠ 2 → ∃ t : State, exec (.linkStepLimit p) s = .next t
        ∧ Safety.portLost s t p ∧ (st = 0 → bitOf t.pw.laserEn p = false) ∧ (st ≠ 0 → t.pw = s.pw))
    ∧ (s.linkOn p = false ∨ (s.linkPort p).trying = true ∨ st ≠ 0 ∨ bitOf s.pw.oeHot p = true → exec (.linkRetrain p) s = .next s)
    ∧ (s.linkOn p = true → (s.linkPort p).trying = false → st = 0 → bitOf s.pw.oeHot p = false → ∃ t : State, exec (.linkRetrain p) s = .next t
        ∧ t.linkPort p = { trying := true } ∧ bitOf t.pw.laserEn p = true
        ∧ t.f F.LNK_PORT_DOWNS_RETRAINS p = satU 16 (s.f F.LNK_PORT_DOWNS_RETRAINS p + 1) ∧ t.mem = s.mem)
    ∧ (s.portUp p = false → exec (.linkSilence p) s = .next s ∧ exec (.uncorrectableCodeword p) s = .next s
        ∧ exec (.linkRetryTimeout p) s = .next s)
    ∧ (s.portUp p = true →
        (∃ t : State, exec (.linkSilence p) s = .next t ∧ Safety.portLost s t p)
        ∧ (∃ t : State, exec (.uncorrectableCodeword p) s = .next t ∧ t.fb F.LNK_EVT_FEC_UNCORR = true ∧ t.mem = s.mem
            ∧ t.f F.LNK_PORT_FEC_UNCORR_COUNT p = satU 32 (s.f F.LNK_PORT_FEC_UNCORR_COUNT p + 1)
            ∧ ((s.linkPort p).ucw.length + 1 ≤ s.f F.LNK_PORT_UCW_LIMIT_LIMIT p → t.portUp p = true)
            ∧ (s.f F.LNK_PORT_UCW_LIMIT_LIMIT p ≤ (s.linkPort p).ucw.length → (∀ x ∈ (s.linkPort p).ucw, s.mono < x + 1000000000) →
                t.portUp p = false ∧ t.fb F.LNK_EVT_LINK_DOWN = true))
        ∧ ((s.linkPort p).replay = [] → exec (.linkRetryTimeout p) s = .next s)
        ∧ ((s.linkPort p).replay ≠ [] → 8 ≤ (s.linkPort p).resends → ∃ t : State, exec (.linkRetryTimeout p) s = .next t ∧ Safety.portLost s t p)
        ∧ ((s.linkPort p).replay ≠ [] → (s.linkPort p).resends < 8 → ∃ t : State, exec (.linkRetryTimeout p) s = .next t
            ∧ t.out = (((s.linkPort p).replay.take 256).map (fun e => Out.frame e.1 e.2)).reverse ++ s.out
            ∧ t.linkPort p = { s.linkPort p with resends := (s.linkPort p).resends + 1 } ∧ t.mem = s.mem
            ∧ t.f F.LNK_PORT_REPLAY_COUNT p = satU 32 (s.f F.LNK_PORT_REPLAY_COUNT p + Nat.min 256 (s.linkPort p).replay.length)))
    ∧ ∀ i dbm : Nat, (s.linkOn p = false ∨ 140 ≤ dbm ∨ 1 < i → exec (.laserInputLow p i dbm) s = .next s)
        ∧ (s.linkOn p = true → dbm < 140 → i < 2 → ∃ t : State, exec (.laserInputLow p i dbm) s = .next t ∧ t.fb F.LNK_EVT_LASER_LOW = true
            ∧ t.mem = s.mem ∧ (i = 0 → t.f F.LNK_PORT_LASER_IN0 p = dbm ∧ t.fb F.LNK_PORT_LASER_IN0_OK p = false)
            ∧ (i = 1 → t.f F.LNK_PORT_LASER_IN1 p = dbm ∧ t.fb F.LNK_PORT_LASER_IN1_OK p = false)
            ∧ (s.portUp p = true → s.f F.LNK_PORT_STATUS_LANES_UP p = 0xFF → s.fb F.LNK_PORT_CTL_HALF_OK p = true →
                t.portUp p = true ∧ t.f F.LNK_PORT_STATUS_LANES_UP p = (if i = 0 then 0xF0 else 0x0F) ∧ t.fb F.LNK_PORT_STATUS_HALF p = true)
            ∧ (s.portUp p = true → s.f F.LNK_PORT_STATUS_LANES_UP p = 0xFF → s.fb F.LNK_PORT_CTL_HALF_OK p = false →
                t.portUp p = false ∧ t.linkPort p = {} ∧ t.fb F.LNK_EVT_LINK_DOWN = true))

/-- The receive commands, with the header of the frame. -/
def Sys2Proof.Safety.frameRx (h : FrameHdr) (c : Instr) : Prop :=
  (∃ reach, c = .heartbeatRx h reach) ∨ (∃ x, c = .ramhelControlRx h x) ∨ (∃ d st co p, c = .ramhelTimeRx h d st co p)
    ∨ (∃ e i n st, c = .ramhelTallyRx h e i n st) ∨ (∃ e cls m, c = .ramhelMsgRx h e cls m)
    ∨ (∃ e cls a b, c = .ramhelPageRx h e cls a b) ∨ ∃ cls e, c = .ramhelE2eAckRx h cls e

/-- A frame in link order for this part, from another member whose loss is not newer (R416, R417, R424). -/
def Sys2Proof.Safety.inOrder (s : State) (h : FrameHdr) : Prop :=
  s.portUp h.port = true ∧ h.crcOk = true ∧ h.seq = (s.linkPort h.port).rx ∧ h.src < 16 ∧ h.src ≠ s.deviceId ∧ (h.dst = s.deviceId ∨ h.dst = 0xFF)
    ∧ s.f F.LNK_MBR_STATE_STATE h.src ≠ 4

/-- R416, R417, R419, R424, R425, R427, R428, R429, R430, R431. Roles: 0 standalone, 1 master, 2 standby, 3 member, 4 ISOLATED. A class of
exactly-once frames expects `got - 1` next; 0 is none heard yet. Where a shift of members gives the Cask work, it reacts (`caskSettle`). -/
def Obligations.RamhelRing : Prop :=
  ∀ s : State, s.up = true →
    (∀ (i n : Nat) (e : TallyEnt), s.tallyEnt i = some e → bitOf e.flags 0 = true → bitOf e.flags 1 = true → 1 ≤ n → n ≤ 65535 → s.lnk.mine ≠ [] → s.mm.fresh = [] →
        s.loaded = true → s.reach 0 = true → ∃ t : State, exec (.hostTallyAdvance i n) s = .next t ∧ t.tallyOf i = (s.tallyOf i).add n none ∧ t.lnk.sent = s.lnk.sent
          ∧ t.lnk.wait = s.lnk.wait ++ [(s.lnk.mine.map (·.1), i, n, none)])
    ∧ (∀ (h : FrameHdr) (c : Instr), Safety.frameRx h c →
        (s.portUp h.port = false → ∃ t : State, exec c s = .next t ∧ t = { s with free := t.free })
        ∧ (s.portUp h.port = true → h.crcOk = false → ∃ t : State, exec c s = .next t
            ∧ t = { s.addSat F.LNK_PORT_CRC_COUNT 1 h.port with free := t.free })
        ∧ (s.portUp h.port = true → h.crcOk = true → h.seq ≠ (s.linkPort h.port).rx → ∃ t : State, exec c s = .next t ∧ t.mem = s.mem
            ∧ t.tally = s.tally ∧ t.regs = s.regs ∧ t.tm = s.tm ∧ t.lnk.sent = s.lnk.sent ∧ t.lnk.got = s.lnk.got))
    ∧ (∀ h : FrameHdr, Safety.inOrder s h → s.lnk.held = [] →
        (∀ (e i n : Nat) (st : Option Nat), s.joined = true →
          (tget 0 s.lnk.got (h.src * 4) = 0 ∨ e + 1 = tget 0 s.lnk.got (h.src * 4) → ∃ t : State, exec (.ramhelTallyRx h e i n st) s = .next t
            ∧ (∀ k : Nat, t.tallyOf k = if k = i then (s.tallyOf k).add n st else s.tallyOf k) ∧ t.mem = s.mem
            ∧ tget 0 t.lnk.got (h.src * 4) = (e + 1) % 2 ^ 32 + 1)
          ∧ (e < 2 ^ 32 → e + 1 < tget 0 s.lnk.got (h.src * 4) → tget 0 s.lnk.got (h.src * 4) ≤ e + 2 ^ 31 → ∃ t : State,
              exec (.ramhelTallyRx h e i n st) s = .next t ∧ t.tally = s.tally ∧ t.mem = s.mem ∧ t.lnk.got = s.lnk.got ∧ t.lnk.held = []))
        ∧ (∀ (e cls a : Nat) (b : List Byte), cls < 4 → s.mm.poison = [] →
          (tget 0 s.lnk.got (h.src * 4 + cls) = 0 ∨ e + 1 = tget 0 s.lnk.got (h.src * 4 + cls) →
            (∃ t : State, exec (.ramhelPageRx h e cls a b) s = .next t ∧ t.mem = s.mem.writeList a b ∧ t.tally = s.tally)
            ∧ (∀ tag op : Nat, (op ∉ tget [] s.lnk.ops h.src → ∃ t : State, exec (.ramhelMsgRx h e cls (.write tag op a b)) s = .next t
                  ∧ t.mem = s.mem.writeList a b ∧ op ∈ tget [] t.lnk.ops h.src ∧ t.tally = s.tally)
                ∧ (op ∈ tget [] s.lnk.ops h.src → ∃ t : State, exec (.ramhelMsgRx h e cls (.write tag op a b)) s = .next t
                  ∧ t.mem = s.mem ∧ t.tally = s.tally))))
        ∧ (∀ (e cls tag d p c : Nat) (b : List Byte), cls < 4 → s.mm.poison = [] → s.hst.tiles = [] → s.lnk.reads = [(tag, d, p, c)] →
            (tget 0 s.lnk.got (h.src * 4 + cls) = 0 ∨ e + 1 = tget 0 s.lnk.got (h.src * 4 + cls)) →
            ∃ t : State, exec (.ramhelMsgRx h e cls (.data tag b false)) s = .next t ∧ t.lnk.reads = [] ∧ t.mem = s.mem.writeList (65536 * p) b
              ∧ t.mm.fresh = s.mm.fresh ∧ t.tally = s.tally)
        ∧ (∀ (e cls tag d a i n : Nat) (b : List Byte) (st : Option Nat), cls < 4 →
            (tget 0 s.lnk.got (h.src * 4 + cls) = 0 ∨ e + 1 = tget 0 s.lnk.got (h.src * 4 + cls)) → s.inCascade = true → s.lnk.acks = [] →
            s.lnk.mine = [(tag, d, a, b)] → s.lnk.wait = [([tag], i, n, st)] →
            ∃ (t : State) (x : Sent) (f : Nat), exec (.ramhelMsgRx h e cls (.wrote tag)) s = .next t ∧ t.lnk.mine = [] ∧ t.lnk.wait = []
              ∧ t.lnk.sent = s.lnk.sent ++ [x] ∧ x.dst = 0xFF ∧ x.cls = 0 ∧ x.body = .tally f i n st ∧ t.mem = s.mem ∧ t.tally = s.tally)
        ∧ (∀ (cls e : Nat) (x : Sent), s.lnk.sent = [x] → x.cls = cls → x.seq = e → x.dst = h.src → x.owed = [h.src] →
            ∃ t : State, exec (.ramhelE2eAckRx h cls e) s = .next t ∧ t.lnk.sent = [] ∧ t.mem = s.mem ∧ t.tally = s.tally ∧ t.regs = s.regs)
        ∧ (∀ reach : Nat, s.role ≠ 0 → ∃ t : State, exec (.heartbeatRx h reach) s = .next t ∧ bitOf (t.f F.LNK_STATUS_REACH) h.src = true
            ∧ t.f F.LNK_MBR_HB_AGE_US h.src = 0 ∧ tget 0 t.lnk.heard h.src = s.mono ∧ t.mem = s.mem ∧ t.tally = s.tally
            ∧ (s.role = 1 → 2 < s.ringN → t.role = 1))
        ∧ (s.role ≠ 0 →
            (∀ id e : Nat, id < 16 → id ≠ s.deviceId → e < 2 ^ 32 → ∃ t : State, exec (.ramhelControlRx h (.memberLost id e)) s = .next t
              ∧ t.f F.LNK_RING_EPOCH_EPOCH = e ∧ t.f F.LNK_MBR_STATE_STATE id = 4 ∧ bitOf (t.f F.LNK_STATUS_REACH) id = false
              ∧ t.fb F.LNK_EVT_MEMBER_LOST = true
              ∧ (id = s.f F.LNK_STATUS_MASTER_NOW → t.f F.LNK_STATUS_MASTER_NOW = h.src))
            ∧ (∀ id e : Nat, id < 16 → e < 2 ^ 32 → ∃ t : State, exec (.ramhelControlRx h (.memberJoined id e)) s = .next t
              ∧ t.f F.LNK_RING_EPOCH_EPOCH = e ∧ t.f F.LNK_MBR_STATE_STATE id = 3 ∧ t.fb F.LNK_EVT_MEMBER_JOINED = true
              ∧ (id = s.deviceId → t.fb F.LNK_EVT_RESYNC_DONE = true ∧ (t.role = 2 ∨ t.role = 3)))
            ∧ (s.role ≠ 1 ∨ s.f F.LNK_MBR_STATE_STATE h.src = 3 → ∃ t : State, exec (.ramhelControlRx h (.join h.src)) s = .next t
              ∧ t.mem = s.mem ∧ t.tally = s.tally ∧ t.regs = s.regs ∧ t.lnk.joiners = s.lnk.joiners)
            ∧ (s.role = 1 → h.src < s.ringN → s.f F.LNK_MBR_STATE_STATE h.src = 0 → ∃ t : State,
              exec (.ramhelControlRx h (.join h.src)) s = .next t ∧ t.f F.LNK_MBR_STATE_STATE h.src = 2 ∧ h.src ∈ t.lnk.joiners
              ∧ t.mem = s.mem ∧ t.tally = s.tally)
            ∧ (∀ l : List (Nat × Nat × Nat), (s.f F.LNK_MBR_STATE_STATE s.deviceId ≠ 1 → ∃ t : State,
                exec (.ramhelControlRx h (.snapshot l)) s = .next t ∧ t.tally = s.tally ∧ t.regs = s.regs)
              ∧ ∀ (i v st : Nat), l = [(i, v, st)] → s.isCascade i = true → s.f F.LNK_MBR_STATE_STATE s.deviceId = 1 → ∃ t : State,
                exec (.ramhelControlRx h (.snapshot l)) s = .next t ∧ t.f F.LNK_MBR_STATE_STATE s.deviceId = 2
                ∧ ∀ k : Nat, t.tallyOf k = if k = i then { value := v, stamp := st } else s.tallyOf k)
            ∧ ∀ (i n : Nat) (st : Option Nat), ∃ t : State, exec (.ramhelControlRx h (.forward i n st)) s = .next t ∧ t.mem = s.mem
              ∧ ∀ k : Nat, t.tallyOf k = if k = i ∧ s.f F.LNK_MBR_STATE_STATE s.deviceId = 2 then (s.tallyOf k).add n st else s.tallyOf k)
        ∧ (∀ (dev st corr : Nat) (ppt : Int) (off : Int), s.role = 2 ∨ s.role = 3 → (s.route h.src).map (·.1) = some h.port →
            h.src = s.f F.LNK_STATUS_MASTER_NOW → st < 4 →
            off = (dev : Int) + ((corr + s.f F.LNK_PORT_DELAY_NS h.port : Nat) : Int) * 65536 - (s.tm.dev : Int) → ∃ t : State,
              exec (.ramhelTimeRx h dev st corr ppt) s = .next t ∧ t.f F.TIME_STATUS_STATE = st ∧ t.mem = s.mem ∧ t.tally = s.tally
              ∧ (s.tm.stepOpen = false → t.tm.dev = s.tm.dev ∧ t.fs F.TIME_RATE_PPT = rateClamp ppt)
              ∧ (s.tm.stepOpen = true → t.tm.dev = s.tm.dev + off.toNat ∧ t.tm.stepOpen = false ∧ (0 < off → t.fb F.TIME_STATUS_STEPPED = true)))
        ∧ (∀ (dev st corr : Nat) (ppt : Int), s.role ≠ 2 ∧ s.role ≠ 3 ∨ h.src ≠ s.f F.LNK_STATUS_MASTER_NOW → ∃ t : State,
              exec (.ramhelTimeRx h dev st corr ppt) s = .next t ∧ t.tm = s.tm ∧ t.regs = s.regs ∧ t.mem = s.mem ∧ t.tally = s.tally))
    ∧ ((s.role = 0 → exec .heartbeatTx s = .next s) ∧ (s.role ≠ 1 → exec .timeTx s = .next s)
        ∧ (s.role ≠ 0 → exec .heartbeatTx s = .next (s.txAll (.heartbeat (s.f F.LNK_STATUS_REACH))))
        ∧ (s.role = 1 → exec .timeTx s = .next (s.txAll (.time s.tm.dev (s.f F.TIME_STATUS_STATE) 0)))
        ∧ ∀ b : Body, s.portUp 0 = true → s.portUp 1 = true → (s.linkPort 0).replay.length < 256 → (s.linkPort 1).replay.length < 256 →
          ∃ g h : FrameHdr, (s.txAll b).out = .frame h b :: .frame g b :: s.out ∧ g.port = 0 ∧ h.port = 1 ∧ g.dst = 0xFF ∧ h.dst = 0xFF
            ∧ g.seq = (s.linkPort 0).tx ∧ h.seq = (s.linkPort 1).tx ∧ g.src = s.deviceId
            ∧ ((s.txAll b).linkPort 0).tx = ((s.linkPort 0).tx + 1) % 65536)
    ∧ (∀ id : Nat, (s.inCascade = false ∨ s.ringN ≤ id ∨ id = s.deviceId ∨ s.mono < tget 0 s.lnk.heard id + 2000 * s.f F.LNK_TIMING_HB_US →
          exec (.memberUnreachable id) s = .next s)
        ∧ (s.inCascade = true → id < s.ringN → id ≠ s.deviceId → tget 0 s.lnk.heard id + 2000 * s.f F.LNK_TIMING_HB_US ≤ s.mono → ∃ t : State, exec (.memberUnreachable id) s = .next t
            ∧ bitOf (t.f F.LNK_STATUS_REACH) id = false
            ∧ (s.role ≠ 1 → t.f F.LNK_RING_EPOCH_EPOCH = s.f F.LNK_RING_EPOCH_EPOCH ∧ t.mem = s.mem ∧ t.tally = s.tally ∧ t.lnk = s.lnk)
            ∧ (s.role = 1 → s.f F.LNK_MBR_STATE_STATE id = 3 →
                quorum s.ringN ≤ popCount 16 (setBit (clrBit (s.f F.LNK_STATUS_REACH) id) s.deviceId) →
                t.f F.LNK_RING_EPOCH_EPOCH = (s.f F.LNK_RING_EPOCH_EPOCH + 1) % 2 ^ 32 ∧ t.f F.LNK_MBR_STATE_STATE id = 4
                ∧ t.f F.LNK_MBR_STATE_LOSSES id = satU 16 (s.f F.LNK_MBR_STATE_LOSSES id + 1) ∧ t.fb F.LNK_EVT_MEMBER_LOST = true)))
    ∧ (∀ m : Nat, m = s.f F.LNK_STATUS_MASTER_NOW →
        (s.role ≠ 2 ∨ bitOf (s.f F.LNK_STATUS_REACH) m = true ∨ s.hasQuorum = false → exec .masterTakeover s = .next s)
        ∧ (s.role = 2 → bitOf (s.f F.LNK_STATUS_REACH) m = false → s.hasQuorum = true → s.f F.LNK_MBR_STATE_STATE s.deviceId ≠ 4 →
            m ≠ s.deviceId → ∃ t : State, exec .masterTakeover s = .next t ∧ t.role = 1 ∧ t.f F.LNK_STATUS_MASTER_NOW = s.deviceId
              ∧ t.f F.LNK_MBR_STATE_STATE m = 4 ∧ t.f F.LNK_RING_EPOCH_EPOCH = (s.f F.LNK_RING_EPOCH_EPOCH + 1) % 2 ^ 32
              ∧ t.fb F.LNK_EVT_TAKEOVER = true ∧ t.tm.dev = s.tm.dev)
        ∧ (s.role = 0 ∨ s.role = 4 ∨ (s.role = 1 ∧ s.hasQuorum = true) → exec .memberIsolated s = .next s)
        ∧ ((s.role = 2 ∨ s.role = 3) ∧ bitOf (s.f F.LNK_STATUS_REACH) m = false ∨ s.role = 1 ∧ s.hasQuorum = false →
            ∃ t : State, exec .memberIsolated s = .next t ∧ t.role = 4 ∧ t.f F.TIME_STATUS_STATE = 1 ∧ t.f F.LNK_MBR_STATE_STATE s.deviceId = 0
              ∧ t.fb F.LNK_EVT_ISOLATED = true))
    ∧ (s.role ≠ 2 → s.role ≠ 3 → exec .timeFrameLoss s = .next s)
    ∧ (s.role = 2 ∨ s.role = 3 → ∃ t : State, exec .timeFrameLoss s = .next t ∧ t.f F.TIME_STATUS_STATE = 1 ∧ t.fb F.LNK_EVT_TIME_LOST = true
        ∧ t.tm = s.tm ∧ t.mem = s.mem ∧ t.tally = s.tally)
    ∧ ∀ id : Nat, (s.role ≠ 1 ∨ s.f F.LNK_MBR_STATE_STATE id ≠ 2 → exec (.resyncDone id) s = .next s)
        ∧ (s.role = 1 → id < 16 → s.f F.LNK_MBR_STATE_STATE id = 2 → ∃ t : State, exec (.resyncDone id) s = .next t
            ∧ t.f F.LNK_MBR_STATE_STATE id = 3 ∧ t.f F.LNK_RING_EPOCH_EPOCH = (s.f F.LNK_RING_EPOCH_EPOCH + 1) % 2 ^ 32
            ∧ id ∉ t.lnk.joiners ∧ t.fb F.LNK_EVT_MEMBER_JOINED = true ∧ t.fb F.LNK_EVT_RESYNC_DONE = true)

/-- R388: the log is exposed read-only at the DSP window's log area, survives restarts, and is cleared by system reset and power removal. -/
def Obligations.EventLogLife : Prop :=
  ∀ s : State,
    (∀ addr v : Nat, 0xC40000 ≤ addr → addr < 0xC80000 →
        exec (.regWrite addr v) s = .next s ∧ (∀ same : Nat, exec (.eventBitsClear addr v same) s = .next s)
        ∧ exec (.blRegisterWrite addr v) s = .next s
        ∧ exec (.reg64LoWrite addr v) s = .next s ∧ exec (.reg64HiWrite addr v) s = .next s)
    ∧ (∀ cause : Nat, 1 ≤ cause → cause ≤ 9 → s.pw.thermtripN = true → s.up = true ∨ s.pw.mode = .recovery → ∃ (t : State) (l : List Evt),
        exec (.selfRestart cause) s = .next t ∧ t.log = (l ++ s.log).take 4096 ∧ s.dsp.evtSeq + l.length = t.dsp.evtSeq)
    ∧ (∀ ns : Nat, 10000 ≤ ns → s.pw.mode ≠ .off → ∃ t : State, exec (.sysResetAssert ns) s = .next t ∧ t.log = [] ∧ t.dsp.evtSeq = 0)
    ∧ (s.pw.pwrgd = true → s.awake = true → ∃ t : State, exec .pwrgdFall s = .next t ∧ t.log = [] ∧ t.dsp.evtSeq = 0)
    ∧ ∀ c : Cut, ∃ t : State, exec (.supplyLoss c) s = .next t ∧ t.log = [] ∧ t.dsp.evtSeq = 0

/-- The mailbox answers in `t` from `u` (R404): DONE with the result, the tag and the response words; nothing else of the part changes. -/
def Sys2Proof.Safety.answers (u t : State) (tag result : Nat) (rsp : List Nat) : Prop :=
  t.f F.HST_MBX_STATUS_STATE = 2 ∧ t.f F.HST_MBX_STATUS_RESULT = result ∧ t.f F.HST_MBX_STATUS_TAG = tag % 2 ^ 16
    ∧ (∀ k < rsp.length, t.f F.HST_MBX_RSP_DATA k = nth 0 rsp k % 2 ^ 32)
    ∧ (∀ (r : Reg) (i j : Nat), r.addr i j ≠ R.HST_MBX_STATUS.addr 0 0 → (∀ k < 64, r.addr i j ≠ R.HST_MBX_RSP.addr k 0) →
        t.word r i j = u.word r i j)
    ∧ t.mem = u.mem ∧ t.tally = u.tally ∧ t.log = u.log ∧ t.fl = u.fl ∧ t.frm = u.frm ∧ t.dsp = u.dsp ∧ t.sec = u.sec ∧ t.hst.dma = none
    ∧ (t.out = u.out ∨ t.out = .irq 0 1 :: u.out)

/-- The commands of Table 14-9 with their opcodes; the host memory of a STAGE_DATA comes in time. -/
def Sys2Proof.Safety.mbxCmds (tag : Nat) : List (Instr × Nat) :=
  [(.mbxStatus tag, 0x01), (.mbxAttest tag, 0x02), (.mbxSessionStart tag, 0x10), (.mbxSessionStop tag, 0x11), (.mbxSelftest tag, 0x20),
   (.mbxStageBegin tag, 0x30), (.mbxStageData tag true, 0x31), (.mbxStageData tag false, 0x31), (.mbxStageEnd tag, 0x32),
   (.mbxStageAbort tag, 0x33), (.mbxActivate tag, 0x34)]

/-- R39, R51, R229, R376, R404, R446–R449. Results: 0 DONE, 1 ACCEPTED, 2 BUSY, 3 REFUSED, 4 BAD_COMMAND, 5 TIMEOUT, 6 FAILED. -/
def Obligations.Mailbox : Prop :=
  ∀ (s : State) (tag : Nat),
    (∀ e ∈ Safety.mbxCmds tag,
      (s.reqOp ≠ e.2 ∨ s.mbxOpen = false → exec e.1 s = .next s)
      ∧ (s.mbxOpen = true → s.reqOp = e.2 →
        (s.f F.HST_MBX_STATUS_STATE = 1 → ∃ t : State, exec e.1 s = .next t ∧ t.fb F.HST_EVT_MBX_BUSY = true ∧ Safety.Touches [] s t)
        ∧ (s.f F.HST_MBX_STATUS_STATE ≠ 1 → s.serves e.2 = false → s.hst.drop = false → ∃ t : State, exec e.1 s = .next t
            ∧ Safety.answers s t tag 2 [])))
    ∧ (s.reqOp ∈ mbxOps → s.serves s.reqOp = true → exec (.mbxBadCommand tag) s = .next s)
    ∧ (s.mbxOpen = true → s.f F.HST_MBX_STATUS_STATE ≠ 1 → s.hst.drop = false → s.reqOp ∉ mbxOps → s.pw.mode = .running →
        ∃ t : State, exec (.mbxBadCommand tag) s = .next t ∧ Safety.answers s t tag 4 [])
    ∧ (s.hst.dma = none → exec .mbxDmaTimeout s = .next s)
    ∧ (∀ k : Nat, s.hst.dma = some k → s.hst.drop = false → ∃ (u t : State), u = { s with sec := { s.sec with inData := none } }
        ∧ exec .mbxDmaTimeout s = .next t ∧ Safety.answers u t k 5 [])
    ∧ (s.mbxOpen = true → s.f F.HST_MBX_STATUS_STATE ≠ 1 → s.hst.drop = false → s.serves s.reqOp = true →
      (s.reqOp = 0x01 → ∃ (t : State) (x : Nat), exec (.mbxStatus tag) s = .next t
          ∧ Safety.answers s t tag 0 [(s.word R.BOOT_STATUS).toNat, (s.word R.TIME_STATUS).toNat, (s.word R.DSP_STATUS).toNat, x])
      ∧ (s.reqOp = 0x02 → ∃ t : State, exec (.mbxAttest tag) s = .next t
          ∧ (s.updating = true → Safety.answers s t tag 2 [])
          ∧ (s.updating = false → s.fb F.SEC_STATUS_ID_FAIL = true → Safety.answers s t tag 6 [])
          ∧ (s.updating = false → s.fb F.SEC_STATUS_ID_FAIL = false → t.f F.HST_MBX_STATUS_RESULT = 0 ∧ t.f F.HST_MBX_STATUS_STATE = 2
              ∧ .dmaWrite (s.reqNum 40 8) (s.report (s.reqBytes 8 32)) ∈ t.out ∧ t.fb F.SEC_EVT_ATTEST = true ∧ t.mem = s.mem
              ∧ t.f F.SEC_COUNTS_ATTESTS = (s.f F.SEC_COUNTS_ATTESTS + 1) % 2 ^ 16))
      ∧ (∀ (start : Bool) (n : Nat), s.reqOp = (if start then 0x10 else 0x11) → n = s.reqNum 8 1 →
          (s.sesOn n = true → bitOf (s.f F.BOOT_SESSION_HOST_MASK) n = true →
            ∃ (u t : State), u = (if start then s.startSession n true else s.stopSession n)
              ∧ exec (if start then .mbxSessionStart tag else .mbxSessionStop tag) s = .next t ∧ Safety.answers u t tag 0 [])
          ∧ (s.sesOn n = false ∨ bitOf (s.f F.BOOT_SESSION_HOST_MASK) n = false →
            ∃ t : State, exec (if start then .mbxSessionStart tag else .mbxSessionStop tag) s = .next t
              ∧ t.f F.HST_MBX_STATUS_RESULT = 3 ∧ t.f F.HST_MBX_STATUS_STATE = 2 ∧ t.fb F.FRM_EVT_MAILBOX_REFUSED = true ∧ t.frm = s.frm))
      ∧ (s.reqOp = 0x20 → ∀ c i : Nat, c = s.reqNum 8 1 → i = s.reqNum 9 2 → ∃ t : State, exec (.mbxSelftest tag) s = .next t
          ∧ (c = 0xFF → t.f F.HST_MBX_STATUS_RESULT = 1 ∧ (∀ e ∈ everyUnit, (s.unitSt e.1 e.2).out = false → e ∈ t.dsp.queued)
              ∧ (∀ e ∈ s.dsp.queued, e ∈ t.dsp.queued))
          ∧ (c ≠ 0xFF → builtOf c * groupsOf c ≤ i → Safety.answers s t tag 4 [])
          ∧ (c ≠ 0xFF → i < builtOf c * groupsOf c → (s.unitSt c i).out = true → Safety.answers s t tag 0 [(s.unitSt c i).last])
          ∧ (c ≠ 0xFF → i < builtOf c * groupsOf c → (s.unitSt c i).out = false → (c, i) ∉ s.dsp.queued →
              t.f F.HST_MBX_STATUS_RESULT = 1 ∧ t.dsp.queued = s.dsp.queued ++ [(c, i)]
              ∧ t.f F.DSP_ST_STATUS_QUEUED = satU 8 (s.dsp.queued.length + 1)))
      ∧ (s.reqOp = 0x30 → ∀ st l : Nat, st = s.f F.SEC_STAGE_STATE → l = s.reqNum 8 4 → ∃ t : State, exec (.mbxStageBegin tag) s = .next t
          ∧ (s.longBusy = true → Safety.answers s t tag 2 [])
          ∧ (s.longBusy = false → st = 2 ∨ 6 ≤ st → Safety.answers s t tag 4 [])
          ∧ (s.longBusy = false → st = 0 ∨ st = 4 ∨ st = 5 → l < 4096 ∨ s.fl.slotSize < l ∨ l % 4096 ≠ 0 → Safety.answers s t tag 3 [])
          ∧ (s.longBusy = false → st = 0 ∨ st = 4 ∨ st = 5 → 4096 ≤ l → l ≤ s.fl.slotSize → l % 4096 = 0 →
              t.f F.HST_MBX_STATUS_RESULT = 1 ∧ t.f F.SEC_STAGE_STATE = 1 ∧ t.f F.SEC_STAGE_LEN_BYTES = l ∧ t.f F.SEC_STAGE_DONE_BLOCKS = 0
              ∧ t.f F.SEC_STAGE_REASON = 0 ∧ t.sec.written = [] ∧ t.sec.stageLen = l ∧ t.fl.staged = none))
      ∧ (s.reqOp = 0x31 → ∀ addr len off : Nat, addr = s.reqNum 8 8 → len = s.reqNum 16 4 → off = s.reqNum 20 4 →
          (s.longBusy = true → ∃ t : State, exec (.mbxStageData tag true) s = .next t ∧ Safety.answers s t tag 2 [])
          ∧ (s.longBusy = false → s.f F.SEC_STAGE_STATE ≠ 2 ∨ off % 4096 ≠ 0 ∨ len % 4096 ≠ 0 ∨ 16 * 2 ^ 20 < len ∨ s.sec.stageLen < off + len
              ∨ (∃ b ∈ blocksOf off len, b ∈ s.sec.written) →
              ∃ t : State, exec (.mbxStageData tag true) s = .next t ∧ Safety.answers s t tag 4 [])
          ∧ (s.longBusy = false → s.f F.SEC_STAGE_STATE = 2 → off % 4096 = 0 → len % 4096 = 0 → len ≤ 16 * 2 ^ 20 → off + len ≤ s.sec.stageLen →
              (∀ b ∈ blocksOf off len, b ∉ s.sec.written) → ∀ u : State,
              u = ({ s with sec := { s.sec with inData := some (off, len) } } : State).emit (.dmaRead addr len) →
              (∃ t : State, exec (.mbxStageData tag true) s = .next t ∧ Safety.answers u t tag 1 [])
              ∧ ∃ t : State, exec (.mbxStageData tag false) s = .next t ∧ t.f F.HST_MBX_STATUS_STATE = 1 ∧ t.hst.dma = some tag
                  ∧ t.sec = u.sec ∧ t.out = u.out ∧ t.fl = s.fl))
      ∧ (s.reqOp = 0x32 → ∃ t : State, exec (.mbxStageEnd tag) s = .next t
          ∧ (s.longBusy = true → Safety.answers s t tag 2 [])
          ∧ (s.longBusy = false → s.f F.SEC_STAGE_STATE ≠ 2 ∨ s.sec.written.length ≠ s.sec.stageLen / 4096 → Safety.answers s t tag 4 [])
          ∧ (s.longBusy = false → s.f F.SEC_STAGE_STATE = 2 → s.sec.written.length = s.sec.stageLen / 4096 →
              Safety.answers (s.setF F.SEC_STAGE_STATE 3) t tag 1 []))
      ∧ (s.reqOp = 0x33 → ∃ t : State, exec (.mbxStageAbort tag) s = .next t
          ∧ (s.updating = true → Safety.answers s t tag 2 [])
          ∧ (s.updating = false → s.f F.SEC_STAGE_STATE = 6 → Safety.answers s t tag 4 [])
          ∧ (s.updating = false → s.f F.SEC_STAGE_STATE ≠ 6 → t.f F.HST_MBX_STATUS_RESULT = 0 ∧ t.f F.SEC_STAGE_STATE = 0 ∧ t.sec.written = []
              ∧ t.sec.inData = none ∧ t.fl.staged = none))
      ∧ (s.reqOp = 0x34 → ∃ t : State, exec (.mbxActivate tag) s = .next t
          ∧ (s.longBusy = true → Safety.answers s t tag 2 [])
          ∧ (s.longBusy = false → s.f F.SEC_STAGE_STATE ≠ 4 ∨ s.fl.staged = none → Safety.answers s t tag 4 [])
          ∧ ∀ o : Staged, s.longBusy = false → s.f F.SEC_STAGE_STATE = 4 → s.fl.staged = some o →
            (∀ b : Bool, s.bt.slot = some b → (s.fl.slotDir b).state ≠ 3 → Safety.answers s t tag 3 [])
            ∧ ((∀ b : Bool, s.bt.slot = some b → (s.fl.slotDir b).state = 3) → t.f F.HST_MBX_STATUS_RESULT = 1 ∧ t.f F.SEC_STAGE_STATE = 6
                ∧ t.f F.SEC_STAGE_PATH = (if s.pathOf o = 1 ∨ s.standby3 = false then 1 else 0) ∧ t.f F.SEC_UPDATE_STATE = 1
                ∧ t.fb F.SEC_EVT_ACTIVATE = true ∧ t.fl = s.fl.setSlotDir s.targetSlot {} ∧ t.sec.target = s.targetSlot
                ∧ t.sec.startedAt = s.mono)))

/-- A fault before the takeover abandons the update (R453). -/
def Sys2Proof.Safety.abandoned (s t : State) : Prop :=
  t.f F.SEC_UPDATE_STATE = 0 ∧ t.f F.SEC_STAGE_STATE = 4 ∧ t.f F.SEC_COUNTS_ABANDONED = satU 8 (s.f F.SEC_COUNTS_ABANDONED + 1)
    ∧ t.fb F.SEC_EVT_ABANDONED = true ∧ t.dsp.handover = [] ∧ t.bt.img = s.bt.img ∧ t.bt.slot = s.bt.slot ∧ t.pw.mode = s.pw.mode

/-- R447–R451, R453, R455. Which reason each abandoned handover gives is this model's choice within Table 13-7. -/
def Obligations.FieldUpdate : Prop :=
  ∀ s : State,
    (s.f F.SEC_STAGE_STATE ≠ 1 → exec .stageEraseDone s = .next s)
    ∧ (s.f F.SEC_STAGE_STATE = 1 → exec .stageEraseDone s = .next (s.setF F.SEC_STAGE_STATE 2))
    ∧ (s.sec.inData = none → exec .stageDataDone s = .next s)
    ∧ (∀ off len : Nat, s.sec.inData = some (off, len) → s.hst.dma = none → exec .stageDataDone s
        = .next (({ s with sec := { s.sec with written := s.sec.written ++ blocksOf off len, inData := none } } : State).setF
            F.SEC_STAGE_DONE_BLOCKS (s.sec.written.length + len / 4096)))
    ∧ (∀ o : Staged, (s.f F.SEC_STAGE_STATE ≠ 3 → exec (.stageVerifyDone o) s = .next s)
        ∧ (s.f F.SEC_STAGE_STATE = 3 → ∃ t : State, exec (.stageVerifyDone o) s = .next t ∧ t.fl.staged = some { o with len := s.sec.stageLen }
            ∧ (o.word0 ≠ 0x4B584243 → o.word0 ≠ 0x4B585550 → t.f F.SEC_STAGE_STATE = 5 ∧ t.f F.SEC_STAGE_REASON = 0x0E)
            ∧ (∀ c < 256, s.stageFault o = some c → t.f F.SEC_STAGE_STATE = 5 ∧ t.f F.SEC_STAGE_REASON = c ∧ t.fb F.SEC_EVT_STAGE_REJECT = true
                ∧ (s.pw.mode = .recovery → c ≤ 0x0F → t.f F.BOOT_STATUS_ERROR = c))
            ∧ (s.stageFault o = none → t.f F.SEC_STAGE_STATE = 4 ∧ t.f F.SEC_STAGE_REASON = 0 ∧ t.fb F.SEC_EVT_STAGE_DONE = true
                ∧ t.f F.SEC_STAGE_KIND = b2n (o.word0 == 0x4B585550))))
    ∧ (∀ ok : Bool, (s.f F.SEC_UPDATE_STATE ≠ 1 → exec (.activateCopyDone ok) s = .next s)
        ∧ ∀ (o : Staged) (i : Image), s.f F.SEC_UPDATE_STATE = 1 → s.fl.staged = some o → i = s.assemble o →
          (ok = false ∨ slotError s.otp s.fl.slotSize (some i) ≠ none ∨ (∃ e ∈ i.sects, e.used = true ∧ e.good i.pubDigest = false) →
            ∃ t : State, exec (.activateCopyDone ok) s = .next t ∧ Safety.abandoned s t)
          ∧ (ok = true → slotError s.otp s.fl.slotSize (some i) = none → (∀ e ∈ i.sects, e.used = true → e.good i.pubDigest = true) →
            (s.sec.byHand = true → ∃ t : State, exec (.activateCopyDone ok) s = .next t ∧ t.f F.SEC_UPDATE_STATE = 2 ∧ t.sec.newImg = i
                ∧ (s.sec.target = true → t.fl.slotB = some i) ∧ (s.sec.target = false → t.fl.slotA = some i) ∧ t.pw = s.pw ∧ t.bt = s.bt)
            ∧ (s.sec.byHand = false → ∃ t : State, exec (.activateCopyDone ok) s = .next t
                ∧ (t.pw.mode = .starting ∨ t.pw.mode = .recovery) ∧ t.f F.PWR_RESET_CAUSE_CAUSE = 2
                ∧ (s.sec.target = true → t.fl.slotB = some i) ∧ (s.sec.target = false → t.fl.slotA = some i))))
    ∧ (s.up = true →
      (∀ ok : Bool, (s.f F.SEC_UPDATE_STATE ≠ 2 → exec (.handoverLoadDone ok) s = .next s)
        ∧ (s.f F.SEC_UPDATE_STATE = 2 → ∃ t : State, exec (.handoverLoadDone ok) s = .next t
            ∧ (ok = false → Safety.abandoned s t)
            ∧ (ok = true → t.f F.SEC_UPDATE_STATE = 3 ∧ unitKey 0xE 3 ∈ t.dsp.handover ∧ t.f F.SEC_UPD_TIME_MS = (s.mono - s.sec.startedAt) / 1000000 % 2 ^ 32)))
      ∧ (s.f F.SEC_UPDATE_STATE ≠ 3 → exec .standbyBootDone s = .next s)
      ∧ (s.f F.SEC_UPDATE_STATE = 3 → ∃ t : State, exec .standbyBootDone s = .next t ∧ t.mem = s.mem
          ∧ (s.rehearse.settingsFault s.sec.newImg = none → s.rehearse.missingUnit s.sec.newImg = none → s.sec.newImg.layerFault = none →
              t.f F.SEC_UPDATE_STATE = 4 ∧ t.f F.SEC_UPD_TIME_MS = (s.mono - s.sec.startedAt) / 1000000 % 2 ^ 32)
          ∧ (s.rehearse.settingsFault s.sec.newImg ≠ none ∨ s.rehearse.missingUnit s.sec.newImg ≠ none ∨ s.sec.newImg.layerFault ≠ none →
              Safety.abandoned s t)
          ∧ (∀ u : Nat × Nat, s.rehearse.settingsFault s.sec.newImg = none → s.rehearse.missingUnit s.sec.newImg = some u →
              t.f F.BOOT_MISSING_UNIT = u.1 % 256 ∧ t.f F.BOOT_MISSING_NEEDED = satU 8 u.2))
      ∧ (s.f F.SEC_UPDATE_STATE ≠ 4 → exec .handoverTake s = .next s)
      ∧ (s.f F.SEC_UPDATE_STATE = 4 → ∃ t : State, exec .handoverTake s = .next t ∧ t.f F.SEC_UPDATE_STATE = 5 ∧ t.sec.reloaded = []
          ∧ (s.fb F.SEC_STATUS_ID_FAIL = false → t.sec.issued = (Config.aliasCert s.sec.newImg.firmware s.otp.svc).take 1024)
          ∧ t.bt.img = s.bt.img ∧ t.mem = s.mem)
      ∧ (∀ (core : Nat) (pass : Bool),
          (s.f F.SEC_UPDATE_STATE ≠ 5 ∨ 3 ≤ core ∨ core ∈ s.sec.reloaded → exec (.coreReloadDone core pass) s = .next s)
          ∧ (s.f F.SEC_UPDATE_STATE = 5 → core < 3 → core ∉ s.sec.reloaded →
            (pass = false → ∃ t : State, exec (.coreReloadDone core pass) s = .next t ∧ Safety.restarted 7 s t)
            ∧ (pass = true → s.sec.reloaded.length < 2 →
              exec (.coreReloadDone core pass) s = .next { s with sec := { s.sec with reloaded := s.sec.reloaded ++ [core] } })
            ∧ (pass = true → s.sec.reloaded.length = 2 → ∃ t : State, exec (.coreReloadDone core pass) s = .next t
                ∧ unitKey 0xE 3 ∉ t.dsp.handover ∧ t.mem = s.mem
                ∧ (rolledClasses s.bt.img s.sec.newImg = [] → t.f F.SEC_UPDATE_STATE = 6 ∧ t.bt.img = s.sec.newImg ∧ t.bt.slot = some s.sec.target
                    ∧ t.f F.SEC_COUNTS_HANDOVERS = satU 8 (s.f F.SEC_COUNTS_HANDOVERS + 1) ∧ t.fb F.SEC_EVT_LIVE = true)
                ∧ (rolledClasses s.bt.img s.sec.newImg ≠ [] → t.sec.rolling = rolledClasses s.bt.img s.sec.newImg ∧ t.bt.img = s.bt.img
                    ∧ t.f F.SEC_UPDATE_STATE = 5))))
      ∧ (∀ c : Nat, (s.f F.SEC_UPDATE_STATE ≠ 5 ∨ s.sec.reloaded.length < 3 ∨ s.sec.rolling.head? ≠ some c → exec (.groupUnitReload c) s = .next s)
          ∧ (s.f F.SEC_UPDATE_STATE = 5 → 3 ≤ s.sec.reloaded.length → s.sec.rolling.head? = some c → ∃ t : State,
              exec (.groupUnitReload c) s = .next t ∧ t.mem = s.mem
              ∧ (∀ (sp l p : Nat) (rest : List Nat), s.freeSpares c 0 = sp :: rest → s.oldPlace c = some (l, p) → c < 0xD →
                  s.sec.rolling.drop 1 ≠ [] → s.inTask c l = false → (t.unitSt c sp).newCode = true ∧ (t.unitSt c p).newCode = true
                    ∧ tget 0 t.dsp.standIn (unitKey c sp) = tget 0 s.dsp.standIn (unitKey c p))
              ∧ (∀ (sp l p : Nat) (rest : List Nat), s.freeSpares c 0 = sp :: rest → s.oldPlace c = some (l, p) → s.inTask c l = true →
                  t.dsp.place = s.dsp.place ∧ t.sec.rolling = s.sec.rolling)
              ∧ (t.sec.rolling = s.sec.rolling ∨ t.sec.rolling = s.sec.rolling.drop 1)))
      ∧ (s.f F.SEC_UPDATE_STATE ≠ 5 → exec .rolloutLimit s = .next s)
      ∧ (s.f F.SEC_UPDATE_STATE = 5 → ∃ t : State, exec .rolloutLimit s = .next t ∧ Safety.restarted 7 s t))

/-- R484: what the SMBus target answers. The answer and the missing acknowledgement stand in `out`. R441. -/
def Obligations.ManagementPorts : Prop :=
  (∀ s : State, s.awake = true →
    exec (.smbReadBootStatus false) s = .next (s.emit (.smbWord ((s.word R.BOOT_STATUS).toNat % 65536)))
    ∧ (∃ n < 16, (∀ k < 16, s.fs F.PWR_TEMP_NOW k ≤ s.fs F.PWR_TEMP_NOW n)
        ∧ exec (.smbReadComputeTemp false) s = .next (s.emit (.smbWord (s.f F.PWR_TEMP_NOW n))))
    ∧ (∃ n, 16 ≤ n ∧ n < 20 ∧ (∀ k, 16 ≤ k → k < 20 → s.fs F.PWR_TEMP_NOW k ≤ s.fs F.PWR_TEMP_NOW n)
        ∧ exec (.smbReadHopperTemp false) s = .next (s.emit (.smbWord (s.f F.PWR_TEMP_NOW n))))
    ∧ exec (.smbReadPkgPower false) s = .next (s.emit (.smbWord (s.f F.PWR_PKG_MW / 1000)))
    ∧ exec (.smbReadPwrStatus false) s = .next (s.emit (.smbWord ((s.word R.PWR_STATUS).toNat / 65536)))
    ∧ exec (.smbReadPart false) s = .next (s.emit (.smbWord ((s.word R.GLB_PART).toNat % 65536)))
    ∧ (∀ code : Nat, code < 1 ∨ 6 < code → exec (.smbUnknownCommand code false) s = .next (s.emit .smbNak))
    ∧ ∀ c ∈ [Instr.smbReadBootStatus true, .smbReadComputeTemp true, .smbReadHopperTemp true, .smbReadPkgPower true, .smbReadPwrStatus true,
        .smbReadPart true],
        ∃ t : State, exec c s = .next t ∧ t.word R.PWR_EVT = s.word R.PWR_EVT ||| BitVec.ofNat 32 (2 ^ 6) ∧ Touches [] s t)
  ∧
  (∀ s : State, s.awake = true →
    (s.otp.debugLock = true → exec .jtagPrivateInstruction s = .next s)
    ∧ (s.otp.debugLock = false → exec .jtagPrivateInstruction s = .next ((s.setF F.SEC_STATUS_DEBUG_SEEN 1).event 0xF 9)))

/-- What a failed PMBus transaction makes of a state (R462): counted, logged; the third in a row freezes AVS with an event of its own. -/
def Sys2Proof.Safety.afterPmbusFail (s : State) : State :=
  let u : State := { (s.addSat F.PWR_PMBUS_ERR_COUNT).event 0x10 1 with
                     pw := { s.pw with avsFails := s.pw.avsFails + 1 } }
  if 3 ≤ s.pw.avsFails + 1 ∧ s.f F.PWR_STATUS_AVS ≠ 2 then (u.setF F.PWR_STATUS_AVS 2).event 0x10 0 else u

/-- R461 and R462. Temperatures are in 1/16 °C, so `w` is computed in 1/32 mV before it is rounded up to 5 mV and held within 650 to 850 mV. -/
def Obligations.CoreVoltage : Prop :=
  ∀ (s : State) (n v w : Nat), s.up = true ∨ s.pw.mode = .halted →
    n < 16 → (∀ k < 16, s.fs F.PWR_TEMP_NOW k ≤ s.fs F.PWR_TEMP_NOW n) →
    v = s.f F.PWR_AVS_SET_SET_MV →
    w = Nat.min 850 (Nat.max 650 (ceilDiv (32 * s.f F.PWR_AVS_FUSE_MV + (1360 - s.fs F.PWR_TEMP_NOW n).toNat) 160 * 5)) →
    (s.f F.PWR_STATUS_AVS = 2 → ∀ ack : Bool, exec (.avsUpdate ack) s = .next s)
    ∧ (s.f F.PWR_STATUS_AVS ≠ 2 → w = v → ∀ ack : Bool, exec (.avsUpdate ack) s = .next (s.setF F.PWR_STATUS_AVS 1))
    ∧ (s.f F.PWR_STATUS_AVS ≠ 2 → w ≠ v → ∃ (next : Nat) (u : State),
        (v < w → next = Nat.min w (v + 5)) ∧ (w < v → next = Nat.max w (v - 5))
        ∧ u = s.emit (.pmbus (s.f F.PWR_AVS_CFG_ADDR) (s.f F.PWR_AVS_CFG_PAGE) 0x21 (linear16 s.pw.voutMode next))
        ∧ exec (.avsUpdate true) s
            = .next ((({ u with pw := { s.pw with avsFails := 0 } } : State).setF F.PWR_AVS_SET_SET_MV next).setF F.PWR_STATUS_AVS 1)
        ∧ exec (.avsUpdate false) s = .next (Safety.afterPmbusFail u))
    ∧ ∀ vout iout temp pkg peak : Nat, ∃ u u' : State,
        u = (s.setF F.PWR_PKG_MW pkg).tele R.PWR_PKG_PEAK (fun x => x.setF F.PWR_PKG_PEAK_MW peak)
        ∧ (s.f F.DSP_COOPER_SHED_LEVEL = 0 → u = (s.setF F.PWR_PKG_MW pkg).setF F.PWR_PKG_PEAK_MW peak)
        ∧ (2 ≤ s.f F.DSP_COOPER_SHED_LEVEL → u = s.setF F.PWR_PKG_MW pkg)
        ∧ u' = ((u.setF F.PWR_AVS_SET_READ_MV vout).setF F.PWR_CORE_TELEM_IOUT iout).setF F.PWR_CORE_TELEM_REG_TEMP temp
        ∧ exec (.avsTelemetry false vout iout temp pkg peak) s = .next (Safety.afterPmbusFail u)
        ∧ exec (.avsTelemetry true vout iout temp pkg peak) s
            = .next (if vout ≤ v + 15 ∧ v ≤ vout + 15 then { u' with pw := { s.pw with avsFails := 0 } } else Safety.afterPmbusFail u')

/-- Every unit is as reset leaves it: what is kept is the OTP, the flash, the SSD and the pins (R464). -/
def Sys2Proof.Safety.asReset (s t : State) : Prop :=
  t = { State.reset with otp := s.otp, fl := s.fl, ssd := s.ssd, pw := t.pw, out := s.out, free := t.free, pending := s.pending }

/-- R459, R464, R465 and Table 17-5. Between 1 and 10 µs the spec leaves open whether a reset is taken; the model takes a free value. -/
def Obligations.SuppliesAndReset : Prop :=
  ∀ s : State,
    (∀ r < 10, s.pw.mode = .off → exec (.supplyRamp r) s = .next { s with pw := { s.pw with rails := setBit s.pw.rails r } })
    ∧ (s.pw.mode = .off → s.pw.rails = 0x3FF → s.pw.pwrgd = false →
        ∃ t : State, exec .pwrgdAssert s = .next t ∧ Safety.asReset s t ∧ t.pw.mode = .reset ∧ t.pw.pwrgd = true ∧ t.pw.rails = s.pw.rails
          ∧ t.free = s.free)
    ∧ (s.pw.mode ≠ .off → ∀ ns : Nat,
        (ns < 1000 → exec (.sysResetAssert ns) s = .next s)
        ∧ (10000 ≤ ns → ∃ t : State, exec (.sysResetAssert ns) s = .next t ∧ Safety.asReset s t ∧ t.pw.mode = .reset ∧ t.pw.sysResetN = false
            ∧ t.pw.thermtripN = true ∧ t.pw.nextCause = 1 ∧ t.pw.pwrgd = s.pw.pwrgd ∧ t.pw.rails = s.pw.rails ∧ t.free = s.free)
        ∧ (1000 ≤ ns → ns < 10000 → exec (.sysResetAssert ns) s = .next s.used ∨
            ∃ t : State, exec (.sysResetAssert ns) s = .next t ∧ Safety.asReset s t ∧ t.pw.mode = .reset ∧ t.pw.nextCause = 1))
    ∧ (s.pw.pwrgd = true → s.awake = true →
        ∃ t : State, exec .pwrgdFall s = .next t ∧ Safety.asReset s t ∧ t.pw.mode = .reset ∧ t.pw.pwrgd = false ∧ t.pw.nextCause = 1
          ∧ t.pw.rails = s.pw.rails ∧ t.free = s.free)
    ∧ ∃ t : State, exec (.supplyLoss .none) s = .next t ∧ Safety.asReset s t ∧ t.pw.mode = .off ∧ t.pw.rails = 0 ∧ t.pw.pwrgd = false
        ∧ t.pw.nextCause = 0 ∧ t.free = s.free

/-- R36, R39, R459, R466, Table 17-6. -/
def Obligations.StartBegins : Prop :=
  ∀ s : State,
    (s.pw.mode = .reset → s.pw.pwrgd = true → s.pw.sysResetN = false → ∀ strap puf : Nat, ∃ t : State,
      exec (.sysResetRelease strap puf) s = .next t
      ∧ t.pw = { s.pw with mode := t.pw.mode, sysResetN := true, straps := strap % 4, pufBad := decide (16 ≤ puf), voutMode := t.pw.voutMode }
      ∧ t.f F.PWR_RESET_CAUSE_CAUSE = s.pw.nextCause % 4 ∧ t.f F.PWR_RESET_CAUSE_STARTS = s.f F.PWR_RESET_CAUSE_STARTS
      ∧ t.f F.PWR_SMB_ADDR = 0x40 + strap % 4 ∧ t.f F.PWR_AVS_SET_SET_MV = s.f F.PWR_AVS_SET_SET_MV
      ∧ t.otp = s.otp ∧ t.ssd = s.ssd ∧ t.mem = s.mem ∧ t.tally = s.tally
      ∧ (s.fl.sfdpOk = false → t.pw.mode = .recovery ∧ t.f F.BOOT_STATUS_ERROR = 1)
      ∧ (s.fl.sfdpOk = true → s.fl.dir.staging = 1 → (s.fl.slotDir false).state = 0 → (s.fl.slotDir true).state = 0 →
          t.pw.mode = .recovery ∧ t.f F.BOOT_STATUS_ERROR = 2)
      ∧ (s.fl.sfdpOk = true → s.fl.dir.staging = 1 → (s.fl.slotDir false).state = 1 → (s.fl.slotDir true).state = 0 →
          slotError s.otp s.fl.slotSize s.fl.slotA = none → t.pw.mode = .starting ∧ t.bt.slot = some false ∧ some t.bt.img = s.fl.slotA
            ∧ t.f F.BOOT_STATUS_SLOT = 0))
    ∧ (∀ cause : Nat, 1 ≤ cause → cause ≤ 9 → s.up = true ∨ s.pw.mode = .recovery →
      (s.pw.thermtripN = false → exec (.selfRestart cause) s = .next s)
      ∧ (s.pw.thermtripN = true → ∃ t : State, exec (.selfRestart cause) s = .next t
          ∧ (t.pw.mode = .starting ∨ t.pw.mode = .recovery) ∧ t.f F.PWR_RESET_CAUSE_CAUSE = 2
          ∧ t.f F.PWR_RESET_CAUSE_STARTS = satU 16 (s.f F.PWR_RESET_CAUSE_STARTS + 1)
          ∧ t.f F.PWR_AVS_SET_SET_MV = s.f F.PWR_AVS_SET_SET_MV
          ∧ t.otp = s.otp ∧ t.ssd = s.ssd ∧ t.mem = [] ∧ t.tally = []))

/-- R469, R470, R473. Readings are in 1/16 °C; limits and offsets in °C. That ALERT_N follows CRIT and that TRIP takes the same reading are the model's
reading (DEDUCED). -/
def Obligations.Temperatures : Prop :=
  ∀ (s : State) (n : Nat) (t : Int), s.awake = true → -32768 ≤ t → t < 32768 →
    (n < 22 → ∃ u : State, exec (.tempSensorRead n t) s = .next u
      ∧ u.fs F.PWR_TEMP_NOW n = t
      ∧ u.fs F.PWR_TEMP_MAX n = (if bitOf s.pw.seen n = true ∧ t ≤ s.fs F.PWR_TEMP_MAX n then s.fs F.PWR_TEMP_MAX n else t)
      ∧ (∀ k < 24, k ≠ n → u.fs F.PWR_TEMP_NOW k = s.fs F.PWR_TEMP_NOW k)
      ∧ u.pw.seen = setBit s.pw.seen n
      ∧ (u.fb F.PWR_STATUS_WARN = true ↔ ∃ k < 22, bitOf u.pw.seen k = true ∧ s.warnAt k ≤ u.fs F.PWR_TEMP_NOW k)
      ∧ (u.fb F.PWR_STATUS_CRIT = true ↔ ∃ k < 22, bitOf u.pw.seen k = true ∧ s.tempLimit k ≤ u.fs F.PWR_TEMP_NOW k)
      ∧ (u.pw.alertN = false ↔ u.fb F.PWR_STATUS_CRIT = true)
      ∧ (s.warnAt n ≤ t → bitOf s.pw.seen n = false ∨ s.fs F.PWR_TEMP_NOW n < s.warnAt n → u.fb F.PWR_EVT_WARN = true)
      ∧ (s.tempLimit n ≤ t → bitOf s.pw.seen n = false ∨ s.fs F.PWR_TEMP_NOW n < s.tempLimit n → u.fb F.PWR_EVT_CRIT = true))
    ∧ (22 ≤ n → n < 24 → s.tempLimit n < t → ∃ u : State, exec (.tempSensorRead n t) s = .next u
      ∧ u.fs F.PWR_TEMP_NOW n = t ∧ bitOf u.pw.oeHot (n - 22) = true
      ∧ (bitOf s.pw.oeHot (n - 22) = false → u.f F.LNK_PORT_STATUS_STATE (n - 22) ≠ 7 ∧ bitOf u.pw.laserEn (n - 22) = false
          ∧ u.fb F.PWR_EVT_OE_TEMP = true))
    ∧ (n < 22 → s.tempLimit n + 160 ≤ t → ∃ u : State, exec (.thermtrip n t) s = .next u
      ∧ Safety.asReset { s with out := u.out } u ∧ u.pw.mode = .reset ∧ u.pw.thermtripN = false ∧ u.pw.rails = s.pw.rails)

/-- The invariant at reset. What the fuses hold and what unwritten memory reads as are the model's choices (log entries 2 and 3). -/
def Obligations.InvReset : Prop := Inv State.reset

/-- No command stops the machine (the spec gives each its effect, or none where it does not apply), and none sends another. -/
def Obligations.EveryStepGoesOn : Prop :=
  (∀ (c : Instr) (s : State), ∃ t : State, exec c s = .next t ∧ t.pending = s.pending)
  ∧ ∀ s : State, ∃ t : State, step s = .next t ∧ t.pending = s.pending.tail

/-- The invariant of the machine, over every step: Table 2-11's limits, R53's and R54's one-way fuses, and the canonical form of memory. -/
def Obligations.InvStep : Prop :=
  ∀ s t : State, step s = .next t → Inv s → Inv t ∧ otpLe s.otp t.otp

/-- The parts of the state beside its registers. -/
inductive Sys2Proof.Safety.Part where
  | memory | tallies | log | otp | flash | power | boot | time | eventNumber | dispatcher | msixPending | hostQueue | host | security | ingest
  | sparge | mill | tensor | pages | ssd | fermenter | kettle | kiln | cask | ramhel | sent | freeCount
  deriving DecidableEq, Repr

/-- A part is in `t` as in `s`. The dispatcher and the host interface are each divided: the event number and the folding seconds, MSI-X pending
bits and the records queued for the rings stand apart from the rest. -/
def Sys2Proof.Safety.Part.same (p : Part) (s t : State) : Prop :=
  match p with
  | .memory => t.mem = s.mem ∧ ∀ a : Nat, t.rd a = s.rd a
  | .eventNumber => t.dsp.evtSeq = s.dsp.evtSeq ∧ t.dsp.folds = s.dsp.folds
  | .dispatcher => t.dsp = { s.dsp with evtSeq := t.dsp.evtSeq, folds := t.dsp.folds }
  | .msixPending => t.hst.pba = s.hst.pba
  | .hostQueue => t.hst.outq = s.hst.outq
  | .host => t.hst = { s.hst with pba := t.hst.pba, outq := t.hst.outq }
  | .tallies => t.tally = s.tally
  | .log => t.log = s.log
  | .otp => t.otp = s.otp
  | .flash => t.fl = s.fl
  | .power => t.pw = s.pw
  | .boot => t.bt = s.bt
  | .time => t.tm = s.tm
  | .security => t.sec = s.sec
  | .ingest => t.ing = s.ing
  | .sparge => t.spg = s.spg
  | .mill => t.mill = s.mill
  | .tensor => t.tns = s.tns
  | .pages => t.mm = s.mm
  | .ssd => t.ssd = s.ssd
  | .fermenter => t.frm = s.frm
  | .kettle => t.ktl = s.ktl
  | .kiln => t.kln = s.kln
  | .cask => t.csk = s.csk
  | .ramhel => t.lnk = s.lnk
  | .sent => t.out = s.out
  | .freeCount => t.free = s.free

/-- The registers in which events show. -/
def Sys2Proof.Safety.evtRows : List Reg :=
  [R.BOOT_EVT, R.TIME_EVT, R.ING_EVT, R.SPG_EVT, R.MILL_EVT, R.TNS_EVT, R.MEM_EVT, R.FRM_EVT, R.KTL_EVT, R.KLN_EVT, R.CSK_EVT, R.DSP_EVT,
    R.DSP_EVT_SHED, R.DSP_EVT_HEAD_LO, R.DSP_EVT_HEAD_HI, R.HST_EVT, R.LNK_EVT, R.SEC_EVT, R.PWR_EVT]

/-- R273: what a solve counts and reports. -/
def Sys2Proof.Safety.solverRows : List Reg :=
  [R.KTL_SOLVES_LO, R.KTL_SOLVES_HI, R.KTL_PARTIAL, R.KTL_NOT_CONVERGED, R.KTL_LATE, R.KTL_REANALYSE, R.KTL_QUEUE, R.KTL_PROB_LAST,
    R.KTL_PROB_SEQ, R.KTL_PROB_VARS, R.KTL_PROB_FACTORS, R.KTL_PROB_TIME, R.KTL_PROB_WAIT, R.KTL_PROB_COUNTS, R.KTL_PROB_DIGEST_LO,
    R.KTL_PROB_DIGEST_HI]

/-- The registers that show the OTP. -/
def Sys2Proof.Safety.otpRows : List Reg :=
  [R.GLB_PART, R.GLB_SERIAL_LO, R.GLB_SERIAL_HI, R.BOOT_OTP_SVC, R.BOOT_OTP_KEYS, R.BOOT_OTP_DEBUG, R.BOOT_OTP_CASCADE, R.BOOT_OTP_RETIRE,
    R.DSP_RETIRE, R.SEC_CERT_LEN, R.SEC_CERT, R.PWR_AVS_FUSE, R.PWR_LIMITS]

/-- The registers that show which unit holds which place. -/
def Sys2Proof.Safety.unitRows : List Reg :=
  [R.MILL_SPARE, R.TNS_CLUSTER_MAP, R.TNS_CLUSTER_PHYS, R.KTL_SPARE, R.KLN_SPARE, R.CSK_SPARE, R.DSP_CLS_UNITS, R.DSP_CLS_SPARES,
    R.DSP_CLS_PERIOD]

/-- What SGM and flow show of their frames. -/
def Sys2Proof.Safety.stereoRows : List Reg :=
  [R.MILL_SGM_LAST, R.MILL_SGM_VALID, R.MILL_SGM_CODES, R.MILL_SGM_SKIPS, R.MILL_FLOW_LAST, R.MILL_FLOW_INVALID, R.MILL_FLOW_SKIPS]

/-- What a network instance shows of its frames. -/
def Sys2Proof.Safety.networkRows : List Reg :=
  [R.TNS_REDUCED_FRAMES, R.TNS_OPS_LO, R.TNS_OPS_HI, R.TNS_INS_LAST, R.TNS_INS_FRAME_ID, R.TNS_INS_LAT, R.TNS_INS_KP_COUNT]

/-- What feature extraction shows of its frames. -/
def Sys2Proof.Safety.featureRows : List Reg :=
  [R.MILL_SKIPS, R.MILL_SNS_LAST, R.MILL_SNS_FRAME_ID, R.MILL_SNS_CORNERS, R.MILL_SNS_TRACKS, R.MILL_SNS_SKIPS]

/-- The counters of uncorrectable errors that a read may meet. -/
def Sys2Proof.Safety.memErrRows : List Reg :=
  [R.MEM_SRAM_UE, R.MEM_NOC_CRC, R.MEM_HOP_UE, R.MEM_CH_UE, R.MEM_CELLAR_CRC]

/-- What an index of Cask shows of its contents. -/
def Sys2Proof.Safety.indexRows : List Reg :=
  [R.CSK_IDX_LIVE_LO, R.CSK_IDX_LIVE_HI, R.CSK_IDX_NODES, R.CSK_IDX_TOMB_LO, R.CSK_IDX_TOMB_HI]

/-- What an advance of a Tally can touch: the host wait slots and the count of advances sent. -/
def Sys2Proof.Safety.tallyRows : List Reg :=
  [R.DSP_HOST_WAIT_HIT_LO, R.DSP_HOST_WAIT_HIT_HI, R.DSP_HOST_WAIT_CTL, R.LNK_TALLY_SENT]

/-- What a query answered short or late counts. -/
def Sys2Proof.Safety.answerRows : List Reg :=
  [R.CSK_SHORT, R.CSK_LATE, R.CSK_LATE_SHARD, R.DSP_STALE_EPOCH]

/-- The counters of queries. -/
def Sys2Proof.Safety.queryRows : List Reg :=
  [R.CSK_QUERIES_LO, R.CSK_QUERIES_HI, R.CSK_Q_COUNT]

/-- What placing and moving pages shows. -/
def Sys2Proof.Safety.placeRows : List Reg :=
  [R.MEM_STATUS, R.MEM_HOP_FRAMES, R.MEM_CH_FRAMES, R.MEM_RGN_HOPPER]

/-- The status of the blocks whose units spares cover. -/
def Sys2Proof.Safety.statusRows : List Reg :=
  [R.MILL_STATUS, R.TNS_STATUS, R.KTL_STATUS, R.KLN_STATUS]

/-- What a sensor shows of its frames. -/
def Sys2Proof.Safety.sensorRows : List Reg :=
  [R.ING_ACTIVE, R.ING_SNS_LAST, R.ING_SNS_FRAME_ID, R.ING_SNS_BAD]

/-- What a PTP domain shows of its grandmaster. -/
def Sys2Proof.Safety.domainRows : List Reg :=
  [R.TIME_D_STATUS, R.TIME_D_GMID_LO, R.TIME_D_GMID_HI, R.TIME_D_LOSS_COUNT]

/-- What a lost Cellar page changes. -/
def Sys2Proof.Safety.lostRows : List Reg :=
  [R.MEM_PAGES_LOST, R.MEM_CELLAR_USED_LO, R.MEM_CELLAR_USED_HI]

/-- What the cascade shows of its members. -/
def Sys2Proof.Safety.memberRows : List Reg :=
  [R.LNK_STATUS, R.LNK_MEMBERS, R.LNK_MBR_STATE]

/-- What a view shows of its frames. -/
def Sys2Proof.Safety.viewRows : List Reg :=
  [R.KLN_VIEW_LAST, R.KLN_VIEW_LAT, R.KLN_VIEW_COUNT]

/-- What a command may change: the parts it may change, and the registers, `none` where it may be any. -/
structure Sys2Proof.Safety.Scope where
  parts : List Part
  regs : Option (List Reg)

/-- The scope of each command. -/
def Sys2Proof.Safety.scope (c : Instr) : Scope :=
  match c with
  | .supplyRamp .. =>
      ⟨[.power], some []⟩
  | .pwrgdAssert .. | .pwrgdFall .. =>
      ⟨[.memory, .tallies, .log, .power, .boot, .time, .eventNumber, .dispatcher, .msixPending, .hostQueue, .host, .security, .ingest, .sparge,
        .mill, .tensor, .pages, .fermenter, .kettle, .kiln, .cask, .ramhel], none⟩
  | .sysResetRelease .. =>
      ⟨[.log, .flash, .power, .boot, .time, .eventNumber, .msixPending, .sent], some (evtRows ++ otpRows ++ unitRows ++ statusRows ++
        [R.BOOT_STATUS, R.BOOT_IMAGE_SEQ_LO, R.BOOT_IMAGE_SEQ_HI, R.BOOT_IMAGE_VER, R.BOOT_SLOTS, R.BOOT_FLASH, R.CSK_STATUS, R.SEC_STATUS,
        R.SEC_ID_DIGEST, R.SEC_STAGE, R.SEC_STAGE_LEN, R.SEC_STAGE_DONE, R.SEC_STAGE_SEQ_LO, R.SEC_STAGE_SEQ_HI, R.PWR_STATUS,
        R.PWR_RESET_CAUSE, R.PWR_SMB])⟩
  | .sysResetAssert .. =>
      ⟨[.memory, .tallies, .log, .power, .boot, .time, .eventNumber, .dispatcher, .msixPending, .hostQueue, .host, .security, .ingest, .sparge,
        .mill, .tensor, .pages, .fermenter, .kettle, .kiln, .cask, .ramhel, .freeCount], none⟩
  | .supplyLoss .. =>
      ⟨[.memory, .tallies, .log, .otp, .flash, .power, .boot, .time, .eventNumber, .dispatcher, .msixPending, .hostQueue, .host, .security,
        .ingest, .sparge, .mill, .tensor, .pages, .fermenter, .kettle, .kiln, .cask, .ramhel], none⟩
  | .perstN .. | .pfReset .. =>
      ⟨[.log, .eventNumber, .msixPending, .host, .cask, .sent], some (evtRows ++ [R.DSP_HOST_WAIT_CTL, R.HST_RING_RD_LO, R.HST_RING_RD_HI])⟩
  | .selfRestart .. | .startStepLimit .. | .spareVisit .. | .firmwareWatchdog .. | .uncorrectableError .. | .retrainTimeout .. |
  .refillDone .. | .activateCopyDone .. | .coreReloadDone .. | .rolloutLimit .. =>
      ⟨[.memory, .tallies, .log, .flash, .power, .boot, .time, .eventNumber, .dispatcher, .msixPending, .hostQueue, .host, .security, .ingest,
        .sparge, .mill, .tensor, .pages, .fermenter, .kettle, .kiln, .cask, .ramhel, .sent], none⟩
  | .tempSensorRead .. =>
      ⟨[.log, .power, .eventNumber, .msixPending, .ramhel, .sent], some (evtRows ++ memberRows ++ [R.CSK_IDX_SHARD, R.LNK_E2E_RESENT,
        R.LNK_PORT_STATUS, R.LNK_PORT_DOWNS, R.PWR_STATUS, R.PWR_TEMP])⟩
  | .thermtrip .. =>
      ⟨[.memory, .tallies, .log, .power, .boot, .time, .eventNumber, .dispatcher, .msixPending, .hostQueue, .host, .security, .ingest, .sparge,
        .mill, .tensor, .pages, .fermenter, .kettle, .kiln, .cask, .ramhel, .sent], none⟩
  | .avsUpdate .. =>
      ⟨[.log, .power, .eventNumber, .msixPending, .sent], some (evtRows ++ [R.PWR_STATUS, R.PWR_AVS_SET, R.PWR_PMBUS_ERR])⟩
  | .avsTelemetry .. =>
      ⟨[.log, .power, .eventNumber, .msixPending, .sent], some (evtRows ++ [R.PWR_STATUS, R.PWR_AVS_SET, R.PWR_CORE_TELEM, R.PWR_PKG,
        R.PWR_PKG_PEAK, R.PWR_PMBUS_ERR])⟩
  | .smbReadBootStatus .. | .smbReadComputeTemp .. | .smbReadHopperTemp .. | .smbReadPkgPower .. | .smbReadPwrStatus .. | .smbReadPart .. |
  .smbUnknownCommand .. | .eventFoldFlush .. | .blRegisterWrite .. =>
      ⟨[.log, .eventNumber, .msixPending, .sent], some (evtRows)⟩
  | .startStepDone .. =>
      ⟨[.memory, .tallies, .log, .otp, .flash, .power, .boot, .time, .eventNumber, .dispatcher, .msixPending, .hostQueue, .host, .security,
        .ingest, .sparge, .mill, .tensor, .pages, .fermenter, .kettle, .kiln, .cask, .ramhel, .sent, .freeCount], none⟩
  | .ptpWaitExpire .. =>
      ⟨[.boot, .time], some []⟩
  | .sensorCheckExpire .. =>
      ⟨[.log, .boot, .eventNumber, .msixPending, .sent, .freeCount], some (evtRows)⟩
  | .trainingCacheWrite .. =>
      ⟨[.log, .flash, .boot, .eventNumber, .msixPending, .sent], some (evtRows)⟩
  | .trialConfirm .. =>
      ⟨[.log, .otp, .flash, .eventNumber, .msixPending, .sent], some (evtRows ++ otpRows ++ [R.BOOT_SLOTS, R.SEC_UPDATE, R.SEC_UPD_TIME])⟩
  | .cellarBringupDone .. =>
      ⟨[.memory, .log, .eventNumber, .msixPending, .pages, .ssd, .sent, .freeCount], some (evtRows ++ placeRows ++ lostRows ++
        [R.MEM_CELLAR_STATUS, R.MEM_CELLAR_CAP_LO, R.MEM_CELLAR_CAP_HI])⟩
  | .deviceTimeTick .. =>
      ⟨[.time], some ([R.TIME_SLEW_REMAIN])⟩
  | .ptpAnnounceRx .. =>
      ⟨[.log, .time, .eventNumber, .msixPending, .sent], some (evtRows ++ domainRows ++ [R.TIME_STATUS, R.TIME_UTC])⟩
  | .ptpSyncRx .. | .ptpFollowUpRx .. =>
      ⟨[.log, .boot, .time, .eventNumber, .msixPending, .sent], some (evtRows ++ domainRows ++ [R.TIME_STATUS, R.TIME_RATE, R.TIME_D_OFFSET_LO,
        R.TIME_D_OFFSET_HI])⟩
  | .ptpDelayRespRx .. | .ptpPdelayRespRx .. =>
      ⟨[.time], some ([R.TIME_D_MPD])⟩
  | .ptpDelayReqTx .. | .timeNowCapture .. =>
      ⟨[.time, .sent], some []⟩
  | .ptpPdelayReqRx .. | .ptpManagementGet .. | .ptpManagementSet .. | .ptpManagementCommand .. | .bar0BadAccess .. | .arpRequestRx .. |
  .icmpEchoRx .. | .arpRetry .. =>
      ⟨[.sent], some []⟩
  | .announceReceiptTimeout .. =>
      ⟨[.log, .time, .eventNumber, .msixPending, .sent], some (evtRows ++ domainRows ++ [R.TIME_STATUS])⟩
  | .selectionEval .. =>
      ⟨[.log, .time, .eventNumber, .msixPending, .sent], some (evtRows ++ [R.TIME_STATUS, R.TIME_SLEW_REMAIN, R.TIME_UTC, R.TIME_SWITCH_COUNT])⟩
  | .holdErrUpdate .. =>
      ⟨[.time], some ([R.TIME_HOLD_ERR])⟩
  | .holdoverLimitExpire .. | .ppsInputLost .. =>
      ⟨[.log, .time, .eventNumber, .msixPending, .sent], some (evtRows ++ [R.TIME_STATUS])⟩
  | .ppsEdge .. =>
      ⟨[.log, .time, .eventNumber, .msixPending, .sent], some (evtRows ++ [R.TIME_STATUS, R.TIME_SLEW_REMAIN, R.TIME_PPS_OFFSET])⟩
  | .ref10mEdge .. =>
      ⟨[.log, .time, .eventNumber, .msixPending, .sent], some (evtRows ++ [R.TIME_STATUS, R.TIME_RATE])⟩
  | .exposureTriggerEdge .. =>
      ⟨[.time, .sent], some ([R.TIME_TRIG_COUNT])⟩
  | .conversionStrobeEdge .. | .spiTransactionDone .. | .ssiReadDone .. | .canFrameRx .. =>
      ⟨[.memory, .tallies, .log, .time, .eventNumber, .dispatcher, .msixPending, .security, .sparge, .pages, .ramhel, .sent], none⟩
  | .controlCycleEdge .. =>
      ⟨[.tallies, .log, .time, .eventNumber, .dispatcher, .msixPending, .sparge, .ramhel, .sent], some (evtRows ++ tallyRows ++
        [R.TIME_TRIG_COUNT])⟩
  | .captureEdge .. =>
      ⟨[.log, .time, .eventNumber, .msixPending, .sent], some (evtRows ++ [R.TIME_CAP_SEC_LO, R.TIME_CAP_SEC_HI, R.TIME_CAP_NS, R.TIME_CAP_INFO])⟩
  | .slipHoldExpire .. =>
      ⟨[.time], some ([R.TIME_SNS_STATE])⟩
  | .heldClear .. =>
      ⟨[], some ([R.TIME_SNS_STATE])⟩
  | .csi2FrameStart .. =>
      ⟨[.memory, .tallies, .log, .time, .eventNumber, .dispatcher, .msixPending, .security, .ingest, .pages, .ramhel, .sent], none⟩
  | .csi2FrameEnd .. =>
      ⟨[.memory, .tallies, .log, .eventNumber, .dispatcher, .msixPending, .ingest, .pages, .ramhel, .sent], some (evtRows ++ memErrRows ++
        tallyRows ++ sensorRows ++ [R.ING_PORT_STATUS, R.ING_PORT_ECC, R.ING_PORT_OTHER, R.ING_SNS_DISCARD])⟩
  | .csi2LongPacket .. =>
      ⟨[.memory, .tallies, .log, .eventNumber, .dispatcher, .msixPending, .ingest, .pages, .ramhel, .sent], some (evtRows ++ memErrRows ++
        tallyRows ++ [R.ING_PORT_STATUS, R.ING_PORT_ECC, R.ING_PORT_CRC, R.ING_PORT_OTHER, R.ING_SNS_DISCARD])⟩
  | .csi2IgnoredPacket .. =>
      ⟨[.log, .eventNumber, .msixPending, .ingest, .sent], some (evtRows ++ [R.ING_PORT_STATUS, R.ING_PORT_ECC, R.ING_PORT_OTHER])⟩
  | .bandSlotFree .. =>
      ⟨[.memory, .tallies, .log, .eventNumber, .dispatcher, .msixPending, .ingest, .pages, .ramhel, .sent], some (evtRows ++ memErrRows ++
        tallyRows ++ [R.ING_PORT_OTHER])⟩
  | .st2110PacketRx .. =>
      ⟨[.memory, .tallies, .log, .time, .eventNumber, .dispatcher, .msixPending, .ingest, .pages, .ramhel, .sent], some (evtRows ++ memErrRows ++
        tallyRows ++ sensorRows ++ [R.TIME_SNS_OFFSET, R.TIME_SNS_SPAN, R.TIME_SNS_STATE, R.ING_PORT_OTHER, R.ING_ST_PACKETS,
        R.ING_ST_SEQ_GAPS, R.ING_ST_REJECT, R.ING_SNS_DISCARD])⟩
  | .frameTimeout .. =>
      ⟨[.memory, .tallies, .log, .eventNumber, .dispatcher, .msixPending, .ingest, .pages, .ramhel, .sent], some (evtRows ++ memErrRows ++
        tallyRows ++ sensorRows ++ [R.ING_PORT_OTHER, R.ING_SNS_DISCARD])⟩
  | .spiDataReady .. | .spiWaitExpire .. =>
      ⟨[.sparge, .sent], some []⟩
  | .imuIdentityRead .. | .quadSample .. =>
      ⟨[.memory, .tallies, .log, .eventNumber, .dispatcher, .msixPending, .security, .sparge, .pages, .ramhel, .sent], none⟩
  | .quadTransition .. =>
      ⟨[.log, .eventNumber, .msixPending, .sparge, .sent], some (evtRows ++ [R.SPG_QUAD_STAT, R.SPG_QUAD_COUNT])⟩
  | .canTxDone .. =>
      ⟨[.log, .eventNumber, .msixPending, .sparge, .sent], some (evtRows ++ [R.SPG_CAN_STAT])⟩
  | .canBusoffRecover .. =>
      ⟨[.sent], some ([R.SPG_CAN_STAT])⟩
  | .channelTimeout .. =>
      ⟨[.sparge], some (evtRows ++ [R.SPG_VALID, R.SPG_CH_SWITCH, R.SPG_CH_COUNT, R.SPG_SPI_STAT])⟩
  | .channelAbsentInstant .. =>
      ⟨[.memory, .tallies, .log, .eventNumber, .dispatcher, .msixPending, .sparge, .pages, .ramhel, .sent, .freeCount], some (evtRows ++
        memErrRows ++ tallyRows ++ [R.SPG_VALID, R.SPG_CH_DELAY])⟩
  | .tallyAdvance .. =>
      ⟨[.memory, .tallies, .log, .eventNumber, .dispatcher, .msixPending, .hostQueue, .host, .security, .mill, .tensor, .pages, .ssd,
        .fermenter, .kettle, .kiln, .cask, .ramhel, .sent, .freeCount], none⟩
  | .taskLimitExpire .. | .unitFault .. =>
      ⟨[.memory, .tallies, .log, .otp, .flash, .power, .boot, .time, .eventNumber, .dispatcher, .msixPending, .hostQueue, .host, .security,
        .ingest, .sparge, .mill, .tensor, .pages, .ssd, .fermenter, .kettle, .kiln, .cask, .ramhel, .sent, .freeCount], none⟩
  | .taskFailed .. =>
      ⟨[.memory, .tallies, .log, .eventNumber, .dispatcher, .msixPending, .hostQueue, .host, .mill, .tensor, .pages, .ssd, .fermenter, .kettle,
        .kiln, .cask, .ramhel, .sent, .freeCount], some (evtRows ++ solverRows ++ stereoRows ++ networkRows ++ featureRows ++ memErrRows ++
        indexRows ++ tallyRows ++ answerRows ++ queryRows ++ lostRows ++ viewRows ++ [R.TNS_INS_FALLBACKS, R.FRM_SES_STATE,
        R.FRM_SES_SEQ_LO, R.FRM_SES_SEQ_HI, R.FRM_SES_COND, R.KTL_BAND_DROP, R.KTL_INPUT_DROPPED, R.KLN_SKIPS, R.KLN_MAP_LOSS, R.CSK_STATUS,
        R.CSK_CONTEXTS, R.CSK_IDX_SHARD, R.CSK_Q_FULL, R.DSP_STATUS, R.DSP_CAPACITY, R.DSP_PENDING, R.DSP_TASK_FAILED,
        R.TNS_STALL_US, R.FRM_SES_EXCLUDED])⟩
  | .waitLimitExpire .. =>
      ⟨[.log, .eventNumber, .dispatcher, .msixPending, .sent], some (evtRows ++ [R.DSP_STUCK])⟩
  | .hostTallyAdvance .. =>
      ⟨[.tallies, .log, .eventNumber, .dispatcher, .msixPending, .ramhel, .sent], some (evtRows ++ tallyRows)⟩
  | .hostWaitArm .. =>
      ⟨[.msixPending, .sent], some ([R.DSP_HOST_WAIT_HIT_LO, R.DSP_HOST_WAIT_HIT_HI, R.DSP_HOST_WAIT_CTL])⟩
  | .hostWaitDisarm .. =>
      ⟨[], some ([R.DSP_HOST_WAIT_CTL])⟩
  | .selfTestDone .. =>
      ⟨[.log, .otp, .eventNumber, .dispatcher, .msixPending, .tensor, .sent, .freeCount], some (evtRows ++ otpRows ++ unitRows ++ statusRows ++
        [R.BOOT_STATUS, R.BOOT_FIT, R.TNS_FIT, R.CSK_STATUS, R.DSP_STATUS, R.DSP_ST_STATUS, R.DSP_ST_LAST])⟩
  | .unitSwap .. =>
      ⟨[.log, .eventNumber, .dispatcher, .msixPending, .sent], some (evtRows ++ unitRows ++ statusRows ++ [R.CSK_STATUS])⟩
  | .retest .. =>
      ⟨[.log, .otp, .eventNumber, .dispatcher, .msixPending, .tensor, .sent], some (evtRows ++ otpRows ++ unitRows ++ statusRows ++
        [R.BOOT_STATUS, R.BOOT_FIT, R.TNS_FIT, R.CSK_STATUS, R.DSP_STATUS, R.DSP_ST_STATUS, R.DSP_ST_LAST])⟩
  | .visitWaitWarning .. =>
      ⟨[.log, .eventNumber, .msixPending, .sent, .freeCount], some (evtRows)⟩
  | .calibPost .. | .foldIn .. =>
      ⟨[.memory, .tallies, .log, .eventNumber, .dispatcher, .msixPending, .hostQueue, .pages, .fermenter, .kettle, .ramhel, .sent, .freeCount],
        some (evtRows ++ solverRows ++ memErrRows ++ tallyRows ++ [R.KTL_BAND_DROP, R.KTL_INPUT_DROPPED, R.KTL_PREEMPT, R.KTL_COALESCED])⟩
  | .cooperLoadEval .. =>
      ⟨[.log, .eventNumber, .dispatcher, .msixPending, .sent], some (evtRows ++ [R.DSP_COOPER_LOAD, R.DSP_COOPER_SHED])⟩
  | .millBandDone .. =>
      ⟨[.memory, .tallies, .log, .eventNumber, .dispatcher, .msixPending, .hostQueue, .security, .mill, .pages, .ramhel, .sent, .freeCount], none⟩
  | .sgmBandDone .. | .flowLevelDone .. =>
      ⟨[.memory, .tallies, .log, .eventNumber, .dispatcher, .msixPending, .hostQueue, .security, .mill, .pages, .ramhel, .sent], none⟩
  | .pathSpaceFreed .. =>
      ⟨[.memory, .tallies, .log, .eventNumber, .dispatcher, .msixPending, .hostQueue, .mill, .pages, .ramhel, .sent], some (evtRows ++ featureRows
        ++ memErrRows ++ tallyRows ++ [R.MILL_PATH_HOLD])⟩
  | .networkBandDone .. =>
      ⟨[.memory, .tallies, .log, .eventNumber, .dispatcher, .msixPending, .hostQueue, .tensor, .pages, .ramhel, .sent], some (evtRows ++
        networkRows ++ memErrRows ++ tallyRows ++ [R.TNS_SAT_COUNT, R.TNS_NAN_COUNT, R.TNS_INS_FALLBACKS, R.TNS_STALL_US])⟩
  | .networkDeadline .. =>
      ⟨[.log, .eventNumber, .msixPending, .tensor, .sent], some (evtRows ++ [R.TNS_LATE_WEIGHTS, R.TNS_LATE_OTHER, R.TNS_INS_FALLBACKS, R.TNS_STALL_US])⟩
  | .weightsStaged .. =>
      ⟨[.tensor], some ([R.TNS_STALL_US])⟩
  | .migrationPass .. =>
      ⟨[.log, .eventNumber, .msixPending, .pages, .ssd, .sent], some (evtRows ++ lostRows ++ [R.MEM_MIG_SKIPPED])⟩
  | .pageMigrateSwitch .. =>
      ⟨[.pages], some (placeRows ++ [R.MEM_MIG_COUNT, R.MEM_MIG_BYTES_LO, R.MEM_MIG_BYTES_HI])⟩
  | .demandFillDone .. =>
      ⟨[.log, .eventNumber, .msixPending, .pages, .ssd, .sent], some (evtRows ++ placeRows ++ lostRows ++ [R.MEM_CELLAR_CRC])⟩
  | .scrubStep .. | .correctedError .. =>
      ⟨[.log, .eventNumber, .msixPending, .pages, .sent], some (evtRows ++ placeRows ++ statusRows ++ [R.MEM_DDR_TRAIN, R.MEM_DDR_SIZE_LO,
        R.MEM_DDR_SIZE_HI, R.MEM_ERR_INFO, R.MEM_SRAM_CE, R.MEM_NOC_CRC, R.MEM_HOP_CE, R.MEM_HOP_LINK, R.MEM_CH_STATE, R.MEM_CH_CE,
        R.MEM_CH_WCRC, R.MEM_CELLAR_CRC, R.DSP_STATUS])⟩
  | .channelDrainDone .. =>
      ⟨[.log, .eventNumber, .msixPending, .pages, .ssd, .sent], some (evtRows ++ placeRows ++ statusRows ++ [R.MEM_DDR_TRAIN, R.MEM_DDR_SIZE_LO,
        R.MEM_DDR_SIZE_HI, R.MEM_CH_STATE, R.MEM_CELLAR_USED_LO, R.MEM_CELLAR_USED_HI, R.DSP_STATUS])⟩
  | .phyLockLoss .. | .ddrDqsTrack .. | .ddrZqCal .. | .ddrRetrainDone .. =>
      ⟨[.pages], some []⟩
  | .addressFault .. =>
      ⟨[.log, .eventNumber, .msixPending, .sent, .freeCount], some (evtRows ++ [R.MEM_ERR_ADDR_LO, R.MEM_ERR_ADDR_HI, R.MEM_ERR_INFO,
        R.MEM_ADDR_FAULTS])⟩
  | .ddrMr4Read .. =>
      ⟨[], some ([R.MEM_CH_STATE])⟩
  | .nvmeCompletion .. =>
      ⟨[.pages], some ([R.MEM_CELLAR_CRC, R.MEM_CELLAR_HEALTH])⟩
  | .nvmeTimeout .. =>
      ⟨[.log, .eventNumber, .msixPending, .pages, .ssd, .sent], some (evtRows ++ placeRows ++ lostRows ++ [R.MEM_CELLAR_STATUS,
        R.MEM_CELLAR_TIMEOUTS])⟩
  | .cellarCheckpoint .. =>
      ⟨[.ssd], some []⟩
  | .cellarWriteback .. =>
      ⟨[.pages, .ssd], some ([R.MEM_CELLAR_USED_LO, R.MEM_CELLAR_USED_HI])⟩
  | .visionStep .. =>
      ⟨[.memory, .tallies, .log, .time, .eventNumber, .dispatcher, .msixPending, .hostQueue, .security, .pages, .fermenter, .kettle, .ramhel,
        .sent, .freeCount], some (evtRows ++ solverRows ++ memErrRows ++ tallyRows ++ [R.TIME_SNS_OFFSET, R.TIME_SNS_SPAN, R.TIME_SNS_STATE,
        R.FRM_STATUS, R.FRM_LM_USED, R.FRM_LM_FULL, R.FRM_TT_VERSION, R.FRM_LM_EVICTED, R.FRM_SES_STATE, R.FRM_SES_SEQ_LO, R.FRM_SES_SEQ_HI,
        R.FRM_SES_COND, R.FRM_SES_SOURCES, R.FRM_SES_EXCLUDED, R.FRM_SES_TRACKS, R.FRM_SES_OBS, R.FRM_SES_LAT, R.FRM_SES_COUNTS,
        R.FRM_SES_RELOCS, R.FRM_SES_KEYFRAMES, R.FRM_SES_SCORE, R.FRM_SES_TD, R.KTL_BAND_DROP, R.KTL_INPUT_DROPPED, R.KTL_PREEMPT,
        R.KTL_COALESCED])⟩
  | .propagatedRecord .. =>
      ⟨[.tallies, .log, .eventNumber, .dispatcher, .msixPending, .hostQueue, .fermenter, .ramhel, .sent], some (evtRows ++ tallyRows ++
        [R.FRM_SES_STATE, R.FRM_SES_SEQ_LO, R.FRM_SES_SEQ_HI, R.FRM_SES_COND])⟩
  | .initTimeout .. =>
      ⟨[.log, .eventNumber, .msixPending, .fermenter, .sent], some (evtRows)⟩
  | .coastExpire .. =>
      ⟨[.fermenter], some []⟩
  | .relocQueryPost .. =>
      ⟨[.memory, .tallies, .log, .eventNumber, .dispatcher, .msixPending, .pages, .fermenter, .ramhel, .sent], some (evtRows ++ memErrRows ++
        tallyRows ++ [R.FRM_SES_RELOCS])⟩
  | .kettleIterationDone .. =>
      ⟨[.dispatcher, .kettle], some ([R.KTL_CHECK_FAIL, R.KTL_FX_SAT])⟩
  | .solveDeadline .. =>
      ⟨[.memory, .tallies, .log, .eventNumber, .dispatcher, .msixPending, .hostQueue, .pages, .kettle, .ramhel, .sent, .freeCount], some (evtRows
        ++ solverRows ++ memErrRows ++ tallyRows)⟩
  | .solveComplete .. =>
      ⟨[.memory, .tallies, .log, .eventNumber, .dispatcher, .msixPending, .hostQueue, .pages, .fermenter, .kettle, .ramhel, .sent, .freeCount],
        some (evtRows ++ solverRows ++ memErrRows ++ tallyRows ++ [R.FRM_LM_EVICTED, R.KTL_BAND_DROP, R.KTL_INPUT_DROPPED, R.KTL_PROB_F,
        R.KTL_PROB_NNZ, R.KTL_PROB_SUPERNODES])⟩
  | .bodySolveDone .. =>
      ⟨[.memory, .tallies, .log, .eventNumber, .dispatcher, .msixPending, .hostQueue, .pages, .kettle, .ramhel, .sent, .freeCount], some (evtRows
        ++ solverRows ++ memErrRows ++ tallyRows ++ [R.KTL_BAND_DROP, R.KTL_INPUT_DROPPED, R.KTL_BODY_LAST])⟩
  | .posegraphPost .. =>
      ⟨[.memory, .tallies, .log, .eventNumber, .dispatcher, .msixPending, .hostQueue, .pages, .kettle, .ramhel, .sent, .freeCount], some (evtRows
        ++ solverRows ++ memErrRows ++ tallyRows ++ [R.KTL_BAND_DROP, R.KTL_INPUT_DROPPED, R.KTL_PREEMPT, R.KTL_COALESCED])⟩
  | .viewPassDeadline .. =>
      ⟨[.memory, .tallies, .log, .eventNumber, .dispatcher, .msixPending, .hostQueue, .pages, .kiln, .ramhel, .sent], some (evtRows ++ memErrRows
        ++ tallyRows ++ viewRows ++ [R.KLN_SKIPS])⟩
  | .kilnBinningDone .. =>
      ⟨[.kiln], some ([R.KLN_NAN])⟩
  | .kilnCompositingDone .. =>
      ⟨[.memory, .tallies, .log, .eventNumber, .dispatcher, .msixPending, .hostQueue, .pages, .kiln, .ramhel, .sent], some (evtRows ++ memErrRows
        ++ tallyRows ++ viewRows ++ [R.KLN_BLENDS_LO, R.KLN_BLENDS_HI, R.KLN_SKIPS])⟩
  | .kilnBackwardDone .. =>
      ⟨[.kiln], some []⟩
  | .kilnCommit .. =>
      ⟨[.memory, .tallies, .log, .eventNumber, .dispatcher, .msixPending, .pages, .kiln, .ramhel, .sent], some (evtRows ++ memErrRows ++ tallyRows
        ++ [R.KLN_NAN, R.KLN_MAP_PRIMS, R.KLN_MAP_EPOCH, R.KLN_MAP_RESIDENT, R.KLN_MAP_COUNTS])⟩
  | .refineJobDone .. =>
      ⟨[.memory, .tallies, .log, .eventNumber, .dispatcher, .msixPending, .hostQueue, .pages, .kiln, .ramhel, .sent], some (evtRows ++ memErrRows
        ++ tallyRows ++ [R.KLN_SKIPS, R.KLN_MAP_LOSS])⟩
  | .activeSetUpdate .. =>
      ⟨[.log, .eventNumber, .msixPending, .pages, .ssd, .kiln, .sent], some (evtRows ++ lostRows ++ [R.KLN_MAP_PRIMS, R.KLN_MAP_RESIDENT])⟩
  | .blockLoadDone .. | .blockEvict .. =>
      ⟨[.memory, .pages, .kiln], some (memErrRows ++ [R.KLN_MAP_PRIMS, R.KLN_MAP_RESIDENT])⟩
  | .kilnRelocDone .. =>
      ⟨[.memory, .tallies, .log, .eventNumber, .dispatcher, .msixPending, .pages, .kiln, .ramhel, .sent], some (evtRows ++ memErrRows ++
        tallyRows)⟩
  | .nodeReadReturn .. =>
      ⟨[.log, .eventNumber, .msixPending, .pages, .ssd, .cask, .sent], some (evtRows ++ lostRows ++ [R.CSK_DANGLING])⟩
  | .caskQueryDeadline .. =>
      ⟨[.memory, .tallies, .log, .eventNumber, .dispatcher, .msixPending, .host, .pages, .cask, .ramhel, .sent, .freeCount], some (evtRows ++
        memErrRows ++ tallyRows ++ answerRows ++ queryRows)⟩
  | .caskQueryDone .. =>
      ⟨[.memory, .tallies, .log, .eventNumber, .dispatcher, .msixPending, .host, .pages, .ssd, .cask, .ramhel, .sent, .freeCount], some (evtRows
        ++ memErrRows ++ indexRows ++ tallyRows ++ answerRows ++ queryRows ++ lostRows ++ [R.CSK_STATUS, R.CSK_REVISED, R.CSK_CONTEXTS,
        R.CSK_IDX_SHARD, R.CSK_Q_FULL])⟩
  | .caskInsert .. | .caskDelete .. | .caskReplace .. =>
      ⟨[.memory, .tallies, .log, .eventNumber, .dispatcher, .msixPending, .pages, .cask, .ramhel, .sent, .freeCount], some (evtRows ++ memErrRows
        ++ indexRows ++ tallyRows ++ queryRows ++ [R.CSK_INSERTS, R.CSK_DANGLING, R.CSK_IDX_REFUSED])⟩
  | .caskCompactNode .. =>
      ⟨[.memory, .pages, .cask], some (memErrRows ++ indexRows)⟩
  | .shardAnswerRx .. | .shardMergeTimeout .. | .slotRelease .. =>
      ⟨[.memory, .tallies, .log, .eventNumber, .dispatcher, .msixPending, .host, .pages, .ssd, .cask, .ramhel, .sent, .freeCount], some (evtRows
        ++ memErrRows ++ indexRows ++ tallyRows ++ answerRows ++ queryRows ++ lostRows ++ [R.CSK_STATUS, R.CSK_CONTEXTS, R.CSK_IDX_SHARD,
        R.CSK_Q_FULL])⟩
  | .regWrite .. =>
      ⟨[.tallies, .log, .flash, .boot, .eventNumber, .dispatcher, .msixPending, .host, .security, .fermenter, .ramhel, .sent, .freeCount], none⟩
  | .eventBitsClear .. =>
      ⟨[], none⟩
  | .reg64LoWrite .. | .slotRequestWrite .. | .poseBatchTimeout .. | .arpReplyRx .. | .pciePowerStateChange .. =>
      ⟨[.host], some []⟩
  | .reg64HiWrite .. =>
      ⟨[.msixPending, .host, .sent], some ([R.DSP_HOST_WAIT_HIT_LO, R.DSP_HOST_WAIT_HIT_HI, R.DSP_HOST_WAIT_CTL, R.DSP_HOST_WAIT_TH_LO,
        R.DSP_HOST_WAIT_TH_HI, R.HST_RING_RD_LO, R.HST_RING_RD_HI])⟩
  | .reg64LoRead .. =>
      ⟨[.time, .host, .sent, .freeCount], some ([R.LNK_PORT_FEC_CORR_LO, R.LNK_PORT_FEC_CORR_HI])⟩
  | .msixTableWrite .. | .ringIrqTimer .. =>
      ⟨[.msixPending, .host, .sent], some []⟩
  | .hstRingRdWrite .. =>
      ⟨[.msixPending, .host, .sent], some ([R.HST_RING_RD_LO, R.HST_RING_RD_HI])⟩
  | .ringRecordCopy .. =>
      ⟨[.memory, .log, .eventNumber, .msixPending, .hostQueue, .host, .pages, .sent], some (evtRows ++ memErrRows ++ [R.HST_RING_WR_LO,
        R.HST_RING_WR_HI, R.HST_RING_OVERRUN])⟩
  | .holdRelease .. =>
      ⟨[.tallies, .log, .eventNumber, .dispatcher, .msixPending, .host, .ramhel, .sent], some (evtRows ++ tallyRows)⟩
  | .slotPost .. =>
      ⟨[.memory, .tallies, .log, .eventNumber, .dispatcher, .msixPending, .host, .pages, .ssd, .cask, .ramhel, .sent, .freeCount], some (evtRows
        ++ memErrRows ++ indexRows ++ tallyRows ++ answerRows ++ queryRows ++ lostRows ++ [R.CSK_STATUS, R.CSK_CONTEXTS, R.CSK_IDX_SHARD,
        R.CSK_Q_FULL, R.HST_SLOT_BUSY])⟩
  | .bar4Read .. =>
      ⟨[.log, .eventNumber, .msixPending, .pages, .sent], some (evtRows ++ [R.HST_BAR4_DENIED, R.HST_POISONED])⟩
  | .bar4Slow .. =>
      ⟨[.log, .eventNumber, .msixPending, .sent], some (evtRows ++ [R.HST_BAR4_SLOW])⟩
  | .mbxStatus .. | .mbxAttest .. | .mbxSessionStart .. | .mbxSessionStop .. | .mbxSelftest .. | .mbxStageBegin .. | .mbxStageData .. |
  .mbxStageEnd .. | .mbxStageAbort .. | .mbxActivate .. | .mbxBadCommand .. =>
      ⟨[.log, .flash, .boot, .eventNumber, .dispatcher, .msixPending, .host, .security, .fermenter, .sent, .freeCount], some (evtRows ++ [R.BOOT_SLOTS,
        R.FRM_STATUS, R.FRM_SES_STATE, R.FRM_SES_SOURCES, R.FRM_SES_SCORE, R.DSP_ST_STATUS, R.HST_MBX_STATUS, R.HST_MBX_RSP, R.SEC_STAGE,
        R.SEC_STAGE_LEN, R.SEC_STAGE_DONE, R.SEC_UPDATE, R.SEC_UPD_TIME, R.SEC_COUNTS])⟩
  | .mbxDmaTimeout .. =>
      ⟨[.msixPending, .host, .security, .sent], some ([R.HST_MBX_STATUS, R.HST_MBX_RSP])⟩
  | .stageEraseDone .. =>
      ⟨[], some ([R.SEC_STAGE])⟩
  | .stageDataDone .. =>
      ⟨[.msixPending, .host, .security, .sent], some ([R.HST_MBX_STATUS, R.HST_MBX_RSP, R.SEC_STAGE_DONE])⟩
  | .stageVerifyDone .. =>
      ⟨[.log, .flash, .eventNumber, .msixPending, .sent], some (evtRows ++ [R.BOOT_STATUS, R.SEC_STAGE, R.SEC_STAGE_LEN, R.SEC_STAGE_DONE,
        R.SEC_STAGE_SEQ_LO, R.SEC_STAGE_SEQ_HI])⟩
  | .vfFlr .. =>
      ⟨[.log, .eventNumber, .msixPending, .host, .cask, .sent], some (evtRows)⟩
  | .tileReqDense .. | .tileReqDirectory .. | .tileReqLandmark .. =>
      ⟨[.log, .eventNumber, .msixPending, .host, .sent], some (evtRows ++ [R.HST_MAP_REQS, R.HST_MAP_NAKS, R.HST_MAP_IGNORED, R.HST_MAP_TILES,
        R.HST_PORT_ARP])⟩
  | .poseStreamSend .. | .streamHeartbeat .. =>
      ⟨[.host, .sent], some ([R.HST_STR_PACKETS, R.HST_PORT_ARP])⟩
  | .linkBringupStep .. =>
      ⟨[.log, .eventNumber, .msixPending, .ramhel, .sent], some (evtRows ++ memberRows ++ [R.CSK_IDX_SHARD, R.LNK_PORT_STATUS, R.LNK_PORT_LASER,
        R.LNK_PORT_DELAY, R.LNK_LANE])⟩
  | .helloRx .. =>
      ⟨[.log, .eventNumber, .msixPending, .ramhel, .sent], some (evtRows ++ [R.LNK_PORT_STATUS])⟩
  | .linkStepLimit .. =>
      ⟨[.log, .power, .eventNumber, .msixPending, .ramhel, .sent], some (evtRows ++ memberRows ++ [R.CSK_IDX_SHARD, R.LNK_E2E_RESENT,
        R.LNK_PORT_STATUS, R.LNK_PORT_DOWNS])⟩
  | .linkRetrain .. =>
      ⟨[.power, .ramhel], some ([R.LNK_PORT_DOWNS])⟩
  | .heartbeatTx .. | .timeTx .. =>
      ⟨[.ramhel, .sent], some []⟩
  | .heartbeatRx .. =>
      ⟨[.ramhel, .sent], some (memberRows ++ [R.CSK_IDX_SHARD, R.LNK_MBR_HB_AGE, R.LNK_MBR_EPOCH, R.LNK_PORT_CRC])⟩
  | .ramhelControlRx .. =>
      ⟨[.memory, .tallies, .log, .eventNumber, .dispatcher, .msixPending, .host, .pages, .ssd, .cask, .ramhel, .sent, .freeCount], some (evtRows
        ++ memErrRows ++ indexRows ++ tallyRows ++ answerRows ++ queryRows ++ lostRows ++ memberRows ++ [R.CSK_STATUS, R.CSK_INSERTS,
        R.CSK_DANGLING, R.CSK_CONTEXTS, R.CSK_IDX_SHARD, R.CSK_IDX_REFUSED, R.CSK_Q_FULL, R.LNK_RING_EPOCH, R.LNK_E2E_RESENT,
        R.LNK_MBR_EPOCH, R.LNK_PORT_CRC])⟩
  | .ramhelTimeRx .. =>
      ⟨[.log, .boot, .time, .eventNumber, .msixPending, .ramhel, .sent, .freeCount], some (evtRows ++ [R.TIME_STATUS, R.TIME_RATE,
        R.TIME_SLEW_REMAIN, R.LNK_TIME_OFFSET, R.LNK_PORT_CRC])⟩
  | .ramhelTallyRx .. | .ramhelMsgRx .. | .ramhelPageRx .. =>
      ⟨[.memory, .tallies, .log, .eventNumber, .dispatcher, .msixPending, .hostQueue, .host, .pages, .ssd, .kettle, .cask, .ramhel, .sent,
        .freeCount], some (evtRows ++ solverRows ++ memErrRows ++ indexRows ++ tallyRows ++ answerRows ++ queryRows ++ lostRows ++
        [R.KTL_BAND_DROP, R.KTL_INPUT_DROPPED, R.KTL_PREEMPT, R.KTL_COALESCED, R.CSK_STATUS, R.CSK_INSERTS, R.CSK_DANGLING, R.CSK_CONTEXTS,
        R.CSK_IDX_SHARD, R.CSK_IDX_REFUSED, R.CSK_Q_FULL, R.LNK_PORT_CRC])⟩
  | .ramhelE2eAckRx .. =>
      ⟨[.ramhel, .sent], some ([R.LNK_PORT_CRC])⟩
  | .linkRetryTimeout .. =>
      ⟨[.log, .eventNumber, .msixPending, .ramhel, .sent], some (evtRows ++ memberRows ++ [R.CSK_IDX_SHARD, R.LNK_E2E_RESENT, R.LNK_PORT_STATUS,
        R.LNK_PORT_REPLAY, R.LNK_PORT_DOWNS])⟩
  | .linkSilence .. =>
      ⟨[.log, .eventNumber, .msixPending, .ramhel, .sent], some (evtRows ++ memberRows ++ [R.CSK_IDX_SHARD, R.LNK_E2E_RESENT, R.LNK_PORT_STATUS,
        R.LNK_PORT_DOWNS])⟩
  | .memberUnreachable .. =>
      ⟨[.memory, .tallies, .log, .eventNumber, .dispatcher, .msixPending, .host, .pages, .ssd, .cask, .ramhel, .sent, .freeCount], some (evtRows
        ++ memErrRows ++ indexRows ++ tallyRows ++ answerRows ++ queryRows ++ lostRows ++ memberRows ++ [R.CSK_STATUS, R.CSK_INSERTS,
        R.CSK_DANGLING, R.CSK_CONTEXTS, R.CSK_IDX_SHARD, R.CSK_IDX_REFUSED, R.CSK_Q_FULL, R.LNK_RING_EPOCH, R.LNK_E2E_RESENT,
        R.LNK_MBR_HB_AGE, R.LNK_MBR_EPOCH])⟩
  | .masterTakeover .. =>
      ⟨[.memory, .tallies, .log, .eventNumber, .dispatcher, .msixPending, .host, .pages, .ssd, .cask, .ramhel, .sent, .freeCount], some (evtRows
        ++ memErrRows ++ indexRows ++ tallyRows ++ answerRows ++ queryRows ++ lostRows ++ memberRows ++ [R.CSK_STATUS, R.CSK_INSERTS,
        R.CSK_DANGLING, R.CSK_CONTEXTS, R.CSK_IDX_SHARD, R.CSK_IDX_REFUSED, R.CSK_Q_FULL, R.LNK_RING_EPOCH, R.LNK_E2E_RESENT,
        R.LNK_MBR_EPOCH])⟩
  | .memberIsolated .. =>
      ⟨[.memory, .tallies, .log, .time, .eventNumber, .dispatcher, .msixPending, .host, .pages, .ssd, .cask, .ramhel, .sent, .freeCount], some (evtRows
        ++ memErrRows ++ indexRows ++ tallyRows ++ answerRows ++ queryRows ++ lostRows ++ memberRows ++ [R.TIME_STATUS, R.CSK_STATUS,
        R.CSK_CONTEXTS, R.CSK_IDX_SHARD, R.CSK_Q_FULL, R.LNK_MBR_EPOCH])⟩
  | .timeFrameLoss .. =>
      ⟨[.log, .time, .eventNumber, .msixPending, .sent], some (evtRows ++ [R.TIME_STATUS])⟩
  | .resyncDone .. =>
      ⟨[.memory, .tallies, .log, .eventNumber, .dispatcher, .msixPending, .host, .pages, .ssd, .cask, .ramhel, .sent, .freeCount], some (evtRows
        ++ memErrRows ++ indexRows ++ tallyRows ++ answerRows ++ queryRows ++ lostRows ++ memberRows ++ [R.CSK_STATUS, R.CSK_CONTEXTS,
        R.CSK_IDX_SHARD, R.CSK_Q_FULL, R.LNK_RING_EPOCH, R.LNK_E2E_RESENT, R.LNK_MBR_EPOCH])⟩
  | .laserInputLow .. =>
      ⟨[.log, .eventNumber, .msixPending, .ramhel, .sent], some (evtRows ++ memberRows ++ [R.CSK_IDX_SHARD, R.LNK_E2E_RESENT, R.LNK_PORT_STATUS,
        R.LNK_PORT_LASER, R.LNK_PORT_DOWNS])⟩
  | .handoverLoadDone .. =>
      ⟨[.log, .flash, .eventNumber, .dispatcher, .msixPending, .sent], some (evtRows ++ [R.BOOT_SLOTS, R.SEC_STAGE, R.SEC_STAGE_LEN,
        R.SEC_STAGE_DONE, R.SEC_STAGE_SEQ_LO, R.SEC_STAGE_SEQ_HI, R.SEC_UPDATE, R.SEC_UPD_TIME, R.SEC_COUNTS])⟩
  | .standbyBootDone .. =>
      ⟨[.log, .flash, .boot, .eventNumber, .dispatcher, .msixPending, .fermenter, .sent], none⟩
  | .handoverTake .. =>
      ⟨[.flash, .security], some ([R.SEC_STATUS, R.SEC_ALIAS_LEN, R.SEC_UPDATE, R.SEC_UPD_TIME, R.SEC_ALIAS])⟩
  | .groupUnitReload .. =>
      ⟨[.log, .boot, .eventNumber, .dispatcher, .msixPending, .security, .sparge, .fermenter, .sent], none⟩
  | .jtagPrivateInstruction .. =>
      ⟨[.log, .eventNumber, .msixPending, .sent], some (evtRows ++ [R.SEC_STATUS])⟩
  | .csi2LaneSyncLoss .. =>
      ⟨[.log, .eventNumber, .msixPending, .sent], some (evtRows ++ [R.ING_PORT_STATUS])⟩
  | .canBusError .. =>
      ⟨[.log, .eventNumber, .msixPending, .sent], some (evtRows ++ [R.SPG_CAN_STAT, R.SPG_CAN_ERR])⟩
  | .cellarResetDone .. =>
      ⟨[.pages, .sent], some []⟩
  | .uncorrectableCodeword .. =>
      ⟨[.log, .eventNumber, .msixPending, .ramhel, .sent], some (evtRows ++ memberRows ++ [R.CSK_IDX_SHARD, R.LNK_E2E_RESENT, R.LNK_PORT_STATUS,
        R.LNK_PORT_FEC_UNCORR, R.LNK_PORT_DOWNS])⟩

/-- From `s` to `t` nothing has changed outside a scope; the queue has not. -/
def Sys2Proof.Safety.within (k : Scope) (s t : State) : Prop :=
  t.pending = s.pending ∧ (∀ p : Part, p ∉ k.parts → p.same s t)
  ∧ ∀ l : List Reg, k.regs = some l →
      ∀ (r : Reg) (i j : Nat), (∀ q ∈ l, ∀ i' j' : Nat, r.addr i j ≠ q.addr i' j') → t.word r i j = s.word r i j

/-- The frame of every command (the spec says of each what it does, Tables of every chapter; that it does nothing else is derived). -/
def Obligations.Frames : Prop := ∀ (c : Instr) (s t : State), exec c s = .next t → within (scope c) s t
end

