-- ==== Sys2Proof/Laws/State.lean ====
section
/-!
SUPPORT. What each named update of the state leaves alone: one lemma per field, each true by definition.
-/

namespace Sys2Proof.Machine

variable (s : State)

/-! ## State.setWord -/

@[simp] theorem State.setWord_mem (r : Reg) (w : Word) (i j : Nat) : (s.setWord r w i j).mem = s.mem := (rfl)
@[simp] theorem State.setWord_tally (r : Reg) (w : Word) (i j : Nat) : (s.setWord r w i j).tally = s.tally := (rfl)
@[simp] theorem State.setWord_log (r : Reg) (w : Word) (i j : Nat) : (s.setWord r w i j).log = s.log := (rfl)
@[simp] theorem State.setWord_otp (r : Reg) (w : Word) (i j : Nat) : (s.setWord r w i j).otp = s.otp := (rfl)
@[simp] theorem State.setWord_fl (r : Reg) (w : Word) (i j : Nat) : (s.setWord r w i j).fl = s.fl := (rfl)
@[simp] theorem State.setWord_pw (r : Reg) (w : Word) (i j : Nat) : (s.setWord r w i j).pw = s.pw := (rfl)
@[simp] theorem State.setWord_bt (r : Reg) (w : Word) (i j : Nat) : (s.setWord r w i j).bt = s.bt := (rfl)
@[simp] theorem State.setWord_tm (r : Reg) (w : Word) (i j : Nat) : (s.setWord r w i j).tm = s.tm := (rfl)
@[simp] theorem State.setWord_dsp (r : Reg) (w : Word) (i j : Nat) : (s.setWord r w i j).dsp = s.dsp := (rfl)
@[simp] theorem State.setWord_hst (r : Reg) (w : Word) (i j : Nat) : (s.setWord r w i j).hst = s.hst := (rfl)
@[simp] theorem State.setWord_sec (r : Reg) (w : Word) (i j : Nat) : (s.setWord r w i j).sec = s.sec := (rfl)
@[simp] theorem State.setWord_ing (r : Reg) (w : Word) (i j : Nat) : (s.setWord r w i j).ing = s.ing := (rfl)
@[simp] theorem State.setWord_spg (r : Reg) (w : Word) (i j : Nat) : (s.setWord r w i j).spg = s.spg := (rfl)
@[simp] theorem State.setWord_mill (r : Reg) (w : Word) (i j : Nat) : (s.setWord r w i j).mill = s.mill := (rfl)
@[simp] theorem State.setWord_tns (r : Reg) (w : Word) (i j : Nat) : (s.setWord r w i j).tns = s.tns := (rfl)
@[simp] theorem State.setWord_mm (r : Reg) (w : Word) (i j : Nat) : (s.setWord r w i j).mm = s.mm := (rfl)
@[simp] theorem State.setWord_ssd (r : Reg) (w : Word) (i j : Nat) : (s.setWord r w i j).ssd = s.ssd := (rfl)
@[simp] theorem State.setWord_frm (r : Reg) (w : Word) (i j : Nat) : (s.setWord r w i j).frm = s.frm := (rfl)
@[simp] theorem State.setWord_ktl (r : Reg) (w : Word) (i j : Nat) : (s.setWord r w i j).ktl = s.ktl := (rfl)
@[simp] theorem State.setWord_kln (r : Reg) (w : Word) (i j : Nat) : (s.setWord r w i j).kln = s.kln := (rfl)
@[simp] theorem State.setWord_csk (r : Reg) (w : Word) (i j : Nat) : (s.setWord r w i j).csk = s.csk := (rfl)
@[simp] theorem State.setWord_lnk (r : Reg) (w : Word) (i j : Nat) : (s.setWord r w i j).lnk = s.lnk := (rfl)
@[simp] theorem State.setWord_out (r : Reg) (w : Word) (i j : Nat) : (s.setWord r w i j).out = s.out := (rfl)
@[simp] theorem State.setWord_free (r : Reg) (w : Word) (i j : Nat) : (s.setWord r w i j).free = s.free := (rfl)
@[simp] theorem State.setWord_pending (r : Reg) (w : Word) (i j : Nat) : (s.setWord r w i j).pending = s.pending := (rfl)

/-! ## State.setF -/

@[simp] theorem State.setF_mem (x : Fld) (v i j : Nat) : (s.setF x v i j).mem = s.mem := (rfl)
@[simp] theorem State.setF_tally (x : Fld) (v i j : Nat) : (s.setF x v i j).tally = s.tally := (rfl)
@[simp] theorem State.setF_log (x : Fld) (v i j : Nat) : (s.setF x v i j).log = s.log := (rfl)
@[simp] theorem State.setF_otp (x : Fld) (v i j : Nat) : (s.setF x v i j).otp = s.otp := (rfl)
@[simp] theorem State.setF_fl (x : Fld) (v i j : Nat) : (s.setF x v i j).fl = s.fl := (rfl)
@[simp] theorem State.setF_pw (x : Fld) (v i j : Nat) : (s.setF x v i j).pw = s.pw := (rfl)
@[simp] theorem State.setF_bt (x : Fld) (v i j : Nat) : (s.setF x v i j).bt = s.bt := (rfl)
@[simp] theorem State.setF_tm (x : Fld) (v i j : Nat) : (s.setF x v i j).tm = s.tm := (rfl)
@[simp] theorem State.setF_dsp (x : Fld) (v i j : Nat) : (s.setF x v i j).dsp = s.dsp := (rfl)
@[simp] theorem State.setF_hst (x : Fld) (v i j : Nat) : (s.setF x v i j).hst = s.hst := (rfl)
@[simp] theorem State.setF_sec (x : Fld) (v i j : Nat) : (s.setF x v i j).sec = s.sec := (rfl)
@[simp] theorem State.setF_ing (x : Fld) (v i j : Nat) : (s.setF x v i j).ing = s.ing := (rfl)
@[simp] theorem State.setF_spg (x : Fld) (v i j : Nat) : (s.setF x v i j).spg = s.spg := (rfl)
@[simp] theorem State.setF_mill (x : Fld) (v i j : Nat) : (s.setF x v i j).mill = s.mill := (rfl)
@[simp] theorem State.setF_tns (x : Fld) (v i j : Nat) : (s.setF x v i j).tns = s.tns := (rfl)
@[simp] theorem State.setF_mm (x : Fld) (v i j : Nat) : (s.setF x v i j).mm = s.mm := (rfl)
@[simp] theorem State.setF_ssd (x : Fld) (v i j : Nat) : (s.setF x v i j).ssd = s.ssd := (rfl)
@[simp] theorem State.setF_frm (x : Fld) (v i j : Nat) : (s.setF x v i j).frm = s.frm := (rfl)
@[simp] theorem State.setF_ktl (x : Fld) (v i j : Nat) : (s.setF x v i j).ktl = s.ktl := (rfl)
@[simp] theorem State.setF_kln (x : Fld) (v i j : Nat) : (s.setF x v i j).kln = s.kln := (rfl)
@[simp] theorem State.setF_csk (x : Fld) (v i j : Nat) : (s.setF x v i j).csk = s.csk := (rfl)
@[simp] theorem State.setF_lnk (x : Fld) (v i j : Nat) : (s.setF x v i j).lnk = s.lnk := (rfl)
@[simp] theorem State.setF_out (x : Fld) (v i j : Nat) : (s.setF x v i j).out = s.out := (rfl)
@[simp] theorem State.setF_free (x : Fld) (v i j : Nat) : (s.setF x v i j).free = s.free := (rfl)
@[simp] theorem State.setF_pending (x : Fld) (v i j : Nat) : (s.setF x v i j).pending = s.pending := (rfl)

/-! ## State.setFs -/

@[simp] theorem State.setFs_mem (x : Fld) (v : Int) (i j : Nat) : (s.setFs x v i j).mem = s.mem := (rfl)
@[simp] theorem State.setFs_tally (x : Fld) (v : Int) (i j : Nat) : (s.setFs x v i j).tally = s.tally := (rfl)
@[simp] theorem State.setFs_log (x : Fld) (v : Int) (i j : Nat) : (s.setFs x v i j).log = s.log := (rfl)
@[simp] theorem State.setFs_otp (x : Fld) (v : Int) (i j : Nat) : (s.setFs x v i j).otp = s.otp := (rfl)
@[simp] theorem State.setFs_fl (x : Fld) (v : Int) (i j : Nat) : (s.setFs x v i j).fl = s.fl := (rfl)
@[simp] theorem State.setFs_pw (x : Fld) (v : Int) (i j : Nat) : (s.setFs x v i j).pw = s.pw := (rfl)
@[simp] theorem State.setFs_bt (x : Fld) (v : Int) (i j : Nat) : (s.setFs x v i j).bt = s.bt := (rfl)
@[simp] theorem State.setFs_tm (x : Fld) (v : Int) (i j : Nat) : (s.setFs x v i j).tm = s.tm := (rfl)
@[simp] theorem State.setFs_dsp (x : Fld) (v : Int) (i j : Nat) : (s.setFs x v i j).dsp = s.dsp := (rfl)
@[simp] theorem State.setFs_hst (x : Fld) (v : Int) (i j : Nat) : (s.setFs x v i j).hst = s.hst := (rfl)
@[simp] theorem State.setFs_sec (x : Fld) (v : Int) (i j : Nat) : (s.setFs x v i j).sec = s.sec := (rfl)
@[simp] theorem State.setFs_ing (x : Fld) (v : Int) (i j : Nat) : (s.setFs x v i j).ing = s.ing := (rfl)
@[simp] theorem State.setFs_spg (x : Fld) (v : Int) (i j : Nat) : (s.setFs x v i j).spg = s.spg := (rfl)
@[simp] theorem State.setFs_mill (x : Fld) (v : Int) (i j : Nat) : (s.setFs x v i j).mill = s.mill := (rfl)
@[simp] theorem State.setFs_tns (x : Fld) (v : Int) (i j : Nat) : (s.setFs x v i j).tns = s.tns := (rfl)
@[simp] theorem State.setFs_mm (x : Fld) (v : Int) (i j : Nat) : (s.setFs x v i j).mm = s.mm := (rfl)
@[simp] theorem State.setFs_ssd (x : Fld) (v : Int) (i j : Nat) : (s.setFs x v i j).ssd = s.ssd := (rfl)
@[simp] theorem State.setFs_frm (x : Fld) (v : Int) (i j : Nat) : (s.setFs x v i j).frm = s.frm := (rfl)
@[simp] theorem State.setFs_ktl (x : Fld) (v : Int) (i j : Nat) : (s.setFs x v i j).ktl = s.ktl := (rfl)
@[simp] theorem State.setFs_kln (x : Fld) (v : Int) (i j : Nat) : (s.setFs x v i j).kln = s.kln := (rfl)
@[simp] theorem State.setFs_csk (x : Fld) (v : Int) (i j : Nat) : (s.setFs x v i j).csk = s.csk := (rfl)
@[simp] theorem State.setFs_lnk (x : Fld) (v : Int) (i j : Nat) : (s.setFs x v i j).lnk = s.lnk := (rfl)
@[simp] theorem State.setFs_out (x : Fld) (v : Int) (i j : Nat) : (s.setFs x v i j).out = s.out := (rfl)
@[simp] theorem State.setFs_free (x : Fld) (v : Int) (i j : Nat) : (s.setFs x v i j).free = s.free := (rfl)
@[simp] theorem State.setFs_pending (x : Fld) (v : Int) (i j : Nat) : (s.setFs x v i j).pending = s.pending := (rfl)

/-! ## State.setB -/

@[simp] theorem State.setB_mem (x : Fld) (b : Bool) (i j : Nat) : (s.setB x b i j).mem = s.mem := (rfl)
@[simp] theorem State.setB_tally (x : Fld) (b : Bool) (i j : Nat) : (s.setB x b i j).tally = s.tally := (rfl)
@[simp] theorem State.setB_log (x : Fld) (b : Bool) (i j : Nat) : (s.setB x b i j).log = s.log := (rfl)
@[simp] theorem State.setB_otp (x : Fld) (b : Bool) (i j : Nat) : (s.setB x b i j).otp = s.otp := (rfl)
@[simp] theorem State.setB_fl (x : Fld) (b : Bool) (i j : Nat) : (s.setB x b i j).fl = s.fl := (rfl)
@[simp] theorem State.setB_pw (x : Fld) (b : Bool) (i j : Nat) : (s.setB x b i j).pw = s.pw := (rfl)
@[simp] theorem State.setB_bt (x : Fld) (b : Bool) (i j : Nat) : (s.setB x b i j).bt = s.bt := (rfl)
@[simp] theorem State.setB_tm (x : Fld) (b : Bool) (i j : Nat) : (s.setB x b i j).tm = s.tm := (rfl)
@[simp] theorem State.setB_dsp (x : Fld) (b : Bool) (i j : Nat) : (s.setB x b i j).dsp = s.dsp := (rfl)
@[simp] theorem State.setB_hst (x : Fld) (b : Bool) (i j : Nat) : (s.setB x b i j).hst = s.hst := (rfl)
@[simp] theorem State.setB_sec (x : Fld) (b : Bool) (i j : Nat) : (s.setB x b i j).sec = s.sec := (rfl)
@[simp] theorem State.setB_ing (x : Fld) (b : Bool) (i j : Nat) : (s.setB x b i j).ing = s.ing := (rfl)
@[simp] theorem State.setB_spg (x : Fld) (b : Bool) (i j : Nat) : (s.setB x b i j).spg = s.spg := (rfl)
@[simp] theorem State.setB_mill (x : Fld) (b : Bool) (i j : Nat) : (s.setB x b i j).mill = s.mill := (rfl)
@[simp] theorem State.setB_tns (x : Fld) (b : Bool) (i j : Nat) : (s.setB x b i j).tns = s.tns := (rfl)
@[simp] theorem State.setB_mm (x : Fld) (b : Bool) (i j : Nat) : (s.setB x b i j).mm = s.mm := (rfl)
@[simp] theorem State.setB_ssd (x : Fld) (b : Bool) (i j : Nat) : (s.setB x b i j).ssd = s.ssd := (rfl)
@[simp] theorem State.setB_frm (x : Fld) (b : Bool) (i j : Nat) : (s.setB x b i j).frm = s.frm := (rfl)
@[simp] theorem State.setB_ktl (x : Fld) (b : Bool) (i j : Nat) : (s.setB x b i j).ktl = s.ktl := (rfl)
@[simp] theorem State.setB_kln (x : Fld) (b : Bool) (i j : Nat) : (s.setB x b i j).kln = s.kln := (rfl)
@[simp] theorem State.setB_csk (x : Fld) (b : Bool) (i j : Nat) : (s.setB x b i j).csk = s.csk := (rfl)
@[simp] theorem State.setB_lnk (x : Fld) (b : Bool) (i j : Nat) : (s.setB x b i j).lnk = s.lnk := (rfl)
@[simp] theorem State.setB_out (x : Fld) (b : Bool) (i j : Nat) : (s.setB x b i j).out = s.out := (rfl)
@[simp] theorem State.setB_free (x : Fld) (b : Bool) (i j : Nat) : (s.setB x b i j).free = s.free := (rfl)
@[simp] theorem State.setB_pending (x : Fld) (b : Bool) (i j : Nat) : (s.setB x b i j).pending = s.pending := (rfl)

/-! ## State.addSat -/

@[simp] theorem State.addSat_mem (x : Fld) (n i j : Nat) : (s.addSat x n i j).mem = s.mem := (rfl)
@[simp] theorem State.addSat_tally (x : Fld) (n i j : Nat) : (s.addSat x n i j).tally = s.tally := (rfl)
@[simp] theorem State.addSat_log (x : Fld) (n i j : Nat) : (s.addSat x n i j).log = s.log := (rfl)
@[simp] theorem State.addSat_otp (x : Fld) (n i j : Nat) : (s.addSat x n i j).otp = s.otp := (rfl)
@[simp] theorem State.addSat_fl (x : Fld) (n i j : Nat) : (s.addSat x n i j).fl = s.fl := (rfl)
@[simp] theorem State.addSat_pw (x : Fld) (n i j : Nat) : (s.addSat x n i j).pw = s.pw := (rfl)
@[simp] theorem State.addSat_bt (x : Fld) (n i j : Nat) : (s.addSat x n i j).bt = s.bt := (rfl)
@[simp] theorem State.addSat_tm (x : Fld) (n i j : Nat) : (s.addSat x n i j).tm = s.tm := (rfl)
@[simp] theorem State.addSat_dsp (x : Fld) (n i j : Nat) : (s.addSat x n i j).dsp = s.dsp := (rfl)
@[simp] theorem State.addSat_hst (x : Fld) (n i j : Nat) : (s.addSat x n i j).hst = s.hst := (rfl)
@[simp] theorem State.addSat_sec (x : Fld) (n i j : Nat) : (s.addSat x n i j).sec = s.sec := (rfl)
@[simp] theorem State.addSat_ing (x : Fld) (n i j : Nat) : (s.addSat x n i j).ing = s.ing := (rfl)
@[simp] theorem State.addSat_spg (x : Fld) (n i j : Nat) : (s.addSat x n i j).spg = s.spg := (rfl)
@[simp] theorem State.addSat_mill (x : Fld) (n i j : Nat) : (s.addSat x n i j).mill = s.mill := (rfl)
@[simp] theorem State.addSat_tns (x : Fld) (n i j : Nat) : (s.addSat x n i j).tns = s.tns := (rfl)
@[simp] theorem State.addSat_mm (x : Fld) (n i j : Nat) : (s.addSat x n i j).mm = s.mm := (rfl)
@[simp] theorem State.addSat_ssd (x : Fld) (n i j : Nat) : (s.addSat x n i j).ssd = s.ssd := (rfl)
@[simp] theorem State.addSat_frm (x : Fld) (n i j : Nat) : (s.addSat x n i j).frm = s.frm := (rfl)
@[simp] theorem State.addSat_ktl (x : Fld) (n i j : Nat) : (s.addSat x n i j).ktl = s.ktl := (rfl)
@[simp] theorem State.addSat_kln (x : Fld) (n i j : Nat) : (s.addSat x n i j).kln = s.kln := (rfl)
@[simp] theorem State.addSat_csk (x : Fld) (n i j : Nat) : (s.addSat x n i j).csk = s.csk := (rfl)
@[simp] theorem State.addSat_lnk (x : Fld) (n i j : Nat) : (s.addSat x n i j).lnk = s.lnk := (rfl)
@[simp] theorem State.addSat_out (x : Fld) (n i j : Nat) : (s.addSat x n i j).out = s.out := (rfl)
@[simp] theorem State.addSat_free (x : Fld) (n i j : Nat) : (s.addSat x n i j).free = s.free := (rfl)
@[simp] theorem State.addSat_pending (x : Fld) (n i j : Nat) : (s.addSat x n i j).pending = s.pending := (rfl)

/-! ## State.addWrap -/

@[simp] theorem State.addWrap_mem (x : Fld) (n i j : Nat) : (s.addWrap x n i j).mem = s.mem := (rfl)
@[simp] theorem State.addWrap_tally (x : Fld) (n i j : Nat) : (s.addWrap x n i j).tally = s.tally := (rfl)
@[simp] theorem State.addWrap_log (x : Fld) (n i j : Nat) : (s.addWrap x n i j).log = s.log := (rfl)
@[simp] theorem State.addWrap_otp (x : Fld) (n i j : Nat) : (s.addWrap x n i j).otp = s.otp := (rfl)
@[simp] theorem State.addWrap_fl (x : Fld) (n i j : Nat) : (s.addWrap x n i j).fl = s.fl := (rfl)
@[simp] theorem State.addWrap_pw (x : Fld) (n i j : Nat) : (s.addWrap x n i j).pw = s.pw := (rfl)
@[simp] theorem State.addWrap_bt (x : Fld) (n i j : Nat) : (s.addWrap x n i j).bt = s.bt := (rfl)
@[simp] theorem State.addWrap_tm (x : Fld) (n i j : Nat) : (s.addWrap x n i j).tm = s.tm := (rfl)
@[simp] theorem State.addWrap_dsp (x : Fld) (n i j : Nat) : (s.addWrap x n i j).dsp = s.dsp := (rfl)
@[simp] theorem State.addWrap_hst (x : Fld) (n i j : Nat) : (s.addWrap x n i j).hst = s.hst := (rfl)
@[simp] theorem State.addWrap_sec (x : Fld) (n i j : Nat) : (s.addWrap x n i j).sec = s.sec := (rfl)
@[simp] theorem State.addWrap_ing (x : Fld) (n i j : Nat) : (s.addWrap x n i j).ing = s.ing := (rfl)
@[simp] theorem State.addWrap_spg (x : Fld) (n i j : Nat) : (s.addWrap x n i j).spg = s.spg := (rfl)
@[simp] theorem State.addWrap_mill (x : Fld) (n i j : Nat) : (s.addWrap x n i j).mill = s.mill := (rfl)
@[simp] theorem State.addWrap_tns (x : Fld) (n i j : Nat) : (s.addWrap x n i j).tns = s.tns := (rfl)
@[simp] theorem State.addWrap_mm (x : Fld) (n i j : Nat) : (s.addWrap x n i j).mm = s.mm := (rfl)
@[simp] theorem State.addWrap_ssd (x : Fld) (n i j : Nat) : (s.addWrap x n i j).ssd = s.ssd := (rfl)
@[simp] theorem State.addWrap_frm (x : Fld) (n i j : Nat) : (s.addWrap x n i j).frm = s.frm := (rfl)
@[simp] theorem State.addWrap_ktl (x : Fld) (n i j : Nat) : (s.addWrap x n i j).ktl = s.ktl := (rfl)
@[simp] theorem State.addWrap_kln (x : Fld) (n i j : Nat) : (s.addWrap x n i j).kln = s.kln := (rfl)
@[simp] theorem State.addWrap_csk (x : Fld) (n i j : Nat) : (s.addWrap x n i j).csk = s.csk := (rfl)
@[simp] theorem State.addWrap_lnk (x : Fld) (n i j : Nat) : (s.addWrap x n i j).lnk = s.lnk := (rfl)
@[simp] theorem State.addWrap_out (x : Fld) (n i j : Nat) : (s.addWrap x n i j).out = s.out := (rfl)
@[simp] theorem State.addWrap_free (x : Fld) (n i j : Nat) : (s.addWrap x n i j).free = s.free := (rfl)
@[simp] theorem State.addWrap_pending (x : Fld) (n i j : Nat) : (s.addWrap x n i j).pending = s.pending := (rfl)

/-! ## State.setPair -/

@[simp] theorem State.setPair_mem (lo hi : Reg) (v i : Nat) : (s.setPair lo hi v i).mem = s.mem := (rfl)
@[simp] theorem State.setPair_tally (lo hi : Reg) (v i : Nat) : (s.setPair lo hi v i).tally = s.tally := (rfl)
@[simp] theorem State.setPair_log (lo hi : Reg) (v i : Nat) : (s.setPair lo hi v i).log = s.log := (rfl)
@[simp] theorem State.setPair_otp (lo hi : Reg) (v i : Nat) : (s.setPair lo hi v i).otp = s.otp := (rfl)
@[simp] theorem State.setPair_fl (lo hi : Reg) (v i : Nat) : (s.setPair lo hi v i).fl = s.fl := (rfl)
@[simp] theorem State.setPair_pw (lo hi : Reg) (v i : Nat) : (s.setPair lo hi v i).pw = s.pw := (rfl)
@[simp] theorem State.setPair_bt (lo hi : Reg) (v i : Nat) : (s.setPair lo hi v i).bt = s.bt := (rfl)
@[simp] theorem State.setPair_tm (lo hi : Reg) (v i : Nat) : (s.setPair lo hi v i).tm = s.tm := (rfl)
@[simp] theorem State.setPair_dsp (lo hi : Reg) (v i : Nat) : (s.setPair lo hi v i).dsp = s.dsp := (rfl)
@[simp] theorem State.setPair_hst (lo hi : Reg) (v i : Nat) : (s.setPair lo hi v i).hst = s.hst := (rfl)
@[simp] theorem State.setPair_sec (lo hi : Reg) (v i : Nat) : (s.setPair lo hi v i).sec = s.sec := (rfl)
@[simp] theorem State.setPair_ing (lo hi : Reg) (v i : Nat) : (s.setPair lo hi v i).ing = s.ing := (rfl)
@[simp] theorem State.setPair_spg (lo hi : Reg) (v i : Nat) : (s.setPair lo hi v i).spg = s.spg := (rfl)
@[simp] theorem State.setPair_mill (lo hi : Reg) (v i : Nat) : (s.setPair lo hi v i).mill = s.mill := (rfl)
@[simp] theorem State.setPair_tns (lo hi : Reg) (v i : Nat) : (s.setPair lo hi v i).tns = s.tns := (rfl)
@[simp] theorem State.setPair_mm (lo hi : Reg) (v i : Nat) : (s.setPair lo hi v i).mm = s.mm := (rfl)
@[simp] theorem State.setPair_ssd (lo hi : Reg) (v i : Nat) : (s.setPair lo hi v i).ssd = s.ssd := (rfl)
@[simp] theorem State.setPair_frm (lo hi : Reg) (v i : Nat) : (s.setPair lo hi v i).frm = s.frm := (rfl)
@[simp] theorem State.setPair_ktl (lo hi : Reg) (v i : Nat) : (s.setPair lo hi v i).ktl = s.ktl := (rfl)
@[simp] theorem State.setPair_kln (lo hi : Reg) (v i : Nat) : (s.setPair lo hi v i).kln = s.kln := (rfl)
@[simp] theorem State.setPair_csk (lo hi : Reg) (v i : Nat) : (s.setPair lo hi v i).csk = s.csk := (rfl)
@[simp] theorem State.setPair_lnk (lo hi : Reg) (v i : Nat) : (s.setPair lo hi v i).lnk = s.lnk := (rfl)
@[simp] theorem State.setPair_out (lo hi : Reg) (v i : Nat) : (s.setPair lo hi v i).out = s.out := (rfl)
@[simp] theorem State.setPair_free (lo hi : Reg) (v i : Nat) : (s.setPair lo hi v i).free = s.free := (rfl)
@[simp] theorem State.setPair_pending (lo hi : Reg) (v i : Nat) : (s.setPair lo hi v i).pending = s.pending := (rfl)

/-! ## State.addPair -/

@[simp] theorem State.addPair_mem (lo hi : Reg) (n i : Nat) : (s.addPair lo hi n i).mem = s.mem := (rfl)
@[simp] theorem State.addPair_tally (lo hi : Reg) (n i : Nat) : (s.addPair lo hi n i).tally = s.tally := (rfl)
@[simp] theorem State.addPair_log (lo hi : Reg) (n i : Nat) : (s.addPair lo hi n i).log = s.log := (rfl)
@[simp] theorem State.addPair_otp (lo hi : Reg) (n i : Nat) : (s.addPair lo hi n i).otp = s.otp := (rfl)
@[simp] theorem State.addPair_fl (lo hi : Reg) (n i : Nat) : (s.addPair lo hi n i).fl = s.fl := (rfl)
@[simp] theorem State.addPair_pw (lo hi : Reg) (n i : Nat) : (s.addPair lo hi n i).pw = s.pw := (rfl)
@[simp] theorem State.addPair_bt (lo hi : Reg) (n i : Nat) : (s.addPair lo hi n i).bt = s.bt := (rfl)
@[simp] theorem State.addPair_tm (lo hi : Reg) (n i : Nat) : (s.addPair lo hi n i).tm = s.tm := (rfl)
@[simp] theorem State.addPair_dsp (lo hi : Reg) (n i : Nat) : (s.addPair lo hi n i).dsp = s.dsp := (rfl)
@[simp] theorem State.addPair_hst (lo hi : Reg) (n i : Nat) : (s.addPair lo hi n i).hst = s.hst := (rfl)
@[simp] theorem State.addPair_sec (lo hi : Reg) (n i : Nat) : (s.addPair lo hi n i).sec = s.sec := (rfl)
@[simp] theorem State.addPair_ing (lo hi : Reg) (n i : Nat) : (s.addPair lo hi n i).ing = s.ing := (rfl)
@[simp] theorem State.addPair_spg (lo hi : Reg) (n i : Nat) : (s.addPair lo hi n i).spg = s.spg := (rfl)
@[simp] theorem State.addPair_mill (lo hi : Reg) (n i : Nat) : (s.addPair lo hi n i).mill = s.mill := (rfl)
@[simp] theorem State.addPair_tns (lo hi : Reg) (n i : Nat) : (s.addPair lo hi n i).tns = s.tns := (rfl)
@[simp] theorem State.addPair_mm (lo hi : Reg) (n i : Nat) : (s.addPair lo hi n i).mm = s.mm := (rfl)
@[simp] theorem State.addPair_ssd (lo hi : Reg) (n i : Nat) : (s.addPair lo hi n i).ssd = s.ssd := (rfl)
@[simp] theorem State.addPair_frm (lo hi : Reg) (n i : Nat) : (s.addPair lo hi n i).frm = s.frm := (rfl)
@[simp] theorem State.addPair_ktl (lo hi : Reg) (n i : Nat) : (s.addPair lo hi n i).ktl = s.ktl := (rfl)
@[simp] theorem State.addPair_kln (lo hi : Reg) (n i : Nat) : (s.addPair lo hi n i).kln = s.kln := (rfl)
@[simp] theorem State.addPair_csk (lo hi : Reg) (n i : Nat) : (s.addPair lo hi n i).csk = s.csk := (rfl)
@[simp] theorem State.addPair_lnk (lo hi : Reg) (n i : Nat) : (s.addPair lo hi n i).lnk = s.lnk := (rfl)
@[simp] theorem State.addPair_out (lo hi : Reg) (n i : Nat) : (s.addPair lo hi n i).out = s.out := (rfl)
@[simp] theorem State.addPair_free (lo hi : Reg) (n i : Nat) : (s.addPair lo hi n i).free = s.free := (rfl)
@[simp] theorem State.addPair_pending (lo hi : Reg) (n i : Nat) : (s.addPair lo hi n i).pending = s.pending := (rfl)

/-! ## State.used -/

@[simp] theorem State.used_regs : (s.used).regs = s.regs := (rfl)
@[simp] theorem State.used_mem : (s.used).mem = s.mem := (rfl)
@[simp] theorem State.used_tally : (s.used).tally = s.tally := (rfl)
@[simp] theorem State.used_log : (s.used).log = s.log := (rfl)
@[simp] theorem State.used_otp : (s.used).otp = s.otp := (rfl)
@[simp] theorem State.used_fl : (s.used).fl = s.fl := (rfl)
@[simp] theorem State.used_pw : (s.used).pw = s.pw := (rfl)
@[simp] theorem State.used_bt : (s.used).bt = s.bt := (rfl)
@[simp] theorem State.used_tm : (s.used).tm = s.tm := (rfl)
@[simp] theorem State.used_dsp : (s.used).dsp = s.dsp := (rfl)
@[simp] theorem State.used_hst : (s.used).hst = s.hst := (rfl)
@[simp] theorem State.used_sec : (s.used).sec = s.sec := (rfl)
@[simp] theorem State.used_ing : (s.used).ing = s.ing := (rfl)
@[simp] theorem State.used_spg : (s.used).spg = s.spg := (rfl)
@[simp] theorem State.used_mill : (s.used).mill = s.mill := (rfl)
@[simp] theorem State.used_tns : (s.used).tns = s.tns := (rfl)
@[simp] theorem State.used_mm : (s.used).mm = s.mm := (rfl)
@[simp] theorem State.used_ssd : (s.used).ssd = s.ssd := (rfl)
@[simp] theorem State.used_frm : (s.used).frm = s.frm := (rfl)
@[simp] theorem State.used_ktl : (s.used).ktl = s.ktl := (rfl)
@[simp] theorem State.used_kln : (s.used).kln = s.kln := (rfl)
@[simp] theorem State.used_csk : (s.used).csk = s.csk := (rfl)
@[simp] theorem State.used_lnk : (s.used).lnk = s.lnk := (rfl)
@[simp] theorem State.used_out : (s.used).out = s.out := (rfl)
@[simp] theorem State.used_pending : (s.used).pending = s.pending := (rfl)

/-! ## State.emit -/

@[simp] theorem State.emit_regs (o : Out) : (s.emit o).regs = s.regs := (rfl)
@[simp] theorem State.emit_mem (o : Out) : (s.emit o).mem = s.mem := (rfl)
@[simp] theorem State.emit_tally (o : Out) : (s.emit o).tally = s.tally := (rfl)
@[simp] theorem State.emit_log (o : Out) : (s.emit o).log = s.log := (rfl)
@[simp] theorem State.emit_otp (o : Out) : (s.emit o).otp = s.otp := (rfl)
@[simp] theorem State.emit_fl (o : Out) : (s.emit o).fl = s.fl := (rfl)
@[simp] theorem State.emit_pw (o : Out) : (s.emit o).pw = s.pw := (rfl)
@[simp] theorem State.emit_bt (o : Out) : (s.emit o).bt = s.bt := (rfl)
@[simp] theorem State.emit_tm (o : Out) : (s.emit o).tm = s.tm := (rfl)
@[simp] theorem State.emit_dsp (o : Out) : (s.emit o).dsp = s.dsp := (rfl)
@[simp] theorem State.emit_hst (o : Out) : (s.emit o).hst = s.hst := (rfl)
@[simp] theorem State.emit_sec (o : Out) : (s.emit o).sec = s.sec := (rfl)
@[simp] theorem State.emit_ing (o : Out) : (s.emit o).ing = s.ing := (rfl)
@[simp] theorem State.emit_spg (o : Out) : (s.emit o).spg = s.spg := (rfl)
@[simp] theorem State.emit_mill (o : Out) : (s.emit o).mill = s.mill := (rfl)
@[simp] theorem State.emit_tns (o : Out) : (s.emit o).tns = s.tns := (rfl)
@[simp] theorem State.emit_mm (o : Out) : (s.emit o).mm = s.mm := (rfl)
@[simp] theorem State.emit_ssd (o : Out) : (s.emit o).ssd = s.ssd := (rfl)
@[simp] theorem State.emit_frm (o : Out) : (s.emit o).frm = s.frm := (rfl)
@[simp] theorem State.emit_ktl (o : Out) : (s.emit o).ktl = s.ktl := (rfl)
@[simp] theorem State.emit_kln (o : Out) : (s.emit o).kln = s.kln := (rfl)
@[simp] theorem State.emit_csk (o : Out) : (s.emit o).csk = s.csk := (rfl)
@[simp] theorem State.emit_lnk (o : Out) : (s.emit o).lnk = s.lnk := (rfl)
@[simp] theorem State.emit_free (o : Out) : (s.emit o).free = s.free := (rfl)
@[simp] theorem State.emit_pending (o : Out) : (s.emit o).pending = s.pending := (rfl)

/-! ## State.publish -/

@[simp] theorem State.publish_regs (k n : Nat) (v : Bool) (b : List Byte) (m : Nat) : (s.publish k n v b m).regs = s.regs := (rfl)
@[simp] theorem State.publish_mem (k n : Nat) (v : Bool) (b : List Byte) (m : Nat) : (s.publish k n v b m).mem = s.mem := (rfl)
@[simp] theorem State.publish_tally (k n : Nat) (v : Bool) (b : List Byte) (m : Nat) : (s.publish k n v b m).tally = s.tally := (rfl)
@[simp] theorem State.publish_log (k n : Nat) (v : Bool) (b : List Byte) (m : Nat) : (s.publish k n v b m).log = s.log := (rfl)
@[simp] theorem State.publish_otp (k n : Nat) (v : Bool) (b : List Byte) (m : Nat) : (s.publish k n v b m).otp = s.otp := (rfl)
@[simp] theorem State.publish_fl (k n : Nat) (v : Bool) (b : List Byte) (m : Nat) : (s.publish k n v b m).fl = s.fl := (rfl)
@[simp] theorem State.publish_pw (k n : Nat) (v : Bool) (b : List Byte) (m : Nat) : (s.publish k n v b m).pw = s.pw := (rfl)
@[simp] theorem State.publish_bt (k n : Nat) (v : Bool) (b : List Byte) (m : Nat) : (s.publish k n v b m).bt = s.bt := (rfl)
@[simp] theorem State.publish_tm (k n : Nat) (v : Bool) (b : List Byte) (m : Nat) : (s.publish k n v b m).tm = s.tm := (rfl)
@[simp] theorem State.publish_dsp (k n : Nat) (v : Bool) (b : List Byte) (m : Nat) : (s.publish k n v b m).dsp = s.dsp := (rfl)
@[simp] theorem State.publish_sec (k n : Nat) (v : Bool) (b : List Byte) (m : Nat) : (s.publish k n v b m).sec = s.sec := (rfl)
@[simp] theorem State.publish_ing (k n : Nat) (v : Bool) (b : List Byte) (m : Nat) : (s.publish k n v b m).ing = s.ing := (rfl)
@[simp] theorem State.publish_spg (k n : Nat) (v : Bool) (b : List Byte) (m : Nat) : (s.publish k n v b m).spg = s.spg := (rfl)
@[simp] theorem State.publish_mill (k n : Nat) (v : Bool) (b : List Byte) (m : Nat) : (s.publish k n v b m).mill = s.mill := (rfl)
@[simp] theorem State.publish_tns (k n : Nat) (v : Bool) (b : List Byte) (m : Nat) : (s.publish k n v b m).tns = s.tns := (rfl)
@[simp] theorem State.publish_mm (k n : Nat) (v : Bool) (b : List Byte) (m : Nat) : (s.publish k n v b m).mm = s.mm := (rfl)
@[simp] theorem State.publish_ssd (k n : Nat) (v : Bool) (b : List Byte) (m : Nat) : (s.publish k n v b m).ssd = s.ssd := (rfl)
@[simp] theorem State.publish_frm (k n : Nat) (v : Bool) (b : List Byte) (m : Nat) : (s.publish k n v b m).frm = s.frm := (rfl)
@[simp] theorem State.publish_ktl (k n : Nat) (v : Bool) (b : List Byte) (m : Nat) : (s.publish k n v b m).ktl = s.ktl := (rfl)
@[simp] theorem State.publish_kln (k n : Nat) (v : Bool) (b : List Byte) (m : Nat) : (s.publish k n v b m).kln = s.kln := (rfl)
@[simp] theorem State.publish_csk (k n : Nat) (v : Bool) (b : List Byte) (m : Nat) : (s.publish k n v b m).csk = s.csk := (rfl)
@[simp] theorem State.publish_lnk (k n : Nat) (v : Bool) (b : List Byte) (m : Nat) : (s.publish k n v b m).lnk = s.lnk := (rfl)
@[simp] theorem State.publish_out (k n : Nat) (v : Bool) (b : List Byte) (m : Nat) : (s.publish k n v b m).out = s.out := (rfl)
@[simp] theorem State.publish_free (k n : Nat) (v : Bool) (b : List Byte) (m : Nat) : (s.publish k n v b m).free = s.free := (rfl)
@[simp] theorem State.publish_pending (k n : Nat) (v : Bool) (b : List Byte) (m : Nat) : (s.publish k n v b m).pending = s.pending := (rfl)

/-! ## What the model's own records become -/

@[simp] theorem State.used_free : s.used.free = s.free + 1 := (rfl)
@[simp] theorem State.emit_out (o : Out) : (s.emit o).out = o :: s.out := (rfl)
@[simp] theorem State.used_word (r : Reg) (i j : Nat) : s.used.word r i j = s.word r i j := (rfl)
@[simp] theorem State.emit_word (o : Out) (r : Reg) (i j : Nat) : (s.emit o).word r i j = s.word r i j := (rfl)
@[simp] theorem State.publish_word (k n : Nat) (v : Bool) (b : List Byte) (m : Nat) (r : Reg) (i j : Nat) :
    (s.publish k n v b m).word r i j = s.word r i j := (rfl)
@[simp] theorem State.used_f (x : Fld) (i j : Nat) : s.used.f x i j = s.f x i j := (rfl)
@[simp] theorem State.emit_f (o : Out) (x : Fld) (i j : Nat) : (s.emit o).f x i j = s.f x i j := (rfl)
@[simp] theorem State.publish_f (k n : Nat) (v : Bool) (b : List Byte) (m : Nat) (x : Fld) (i j : Nat) :
    (s.publish k n v b m).f x i j = s.f x i j := (rfl)

end Sys2Proof.Machine
end

