-- ==== Sys2Proof/Laws/Table.lean ====
section
/-!
SUPPORT. The laws of sparse tables: read after write, other keys, and the canonical form.
-/

namespace Sys2Proof.Machine

variable {α : Type}

theorem tget_tins_same (d : α) (m : Table α) (a : Nat) (v : α) : tget d (tins m a v) a = v := by
  induction m with
  | nil => simp [tins, tget]
  | cons e m ih =>
    obtain ⟨k, w⟩ := e
    unfold tins
    split
    · simp [tget]
    · split
      · simp [tget]
      · rename_i h; simp [tget, h, ih]

theorem tget_tins_ne (d : α) (m : Table α) {a b : Nat} (v : α) (h : b ≠ a) : tget d (tins m a v) b = tget d m b := by
  induction m with
  | nil => simp [tins, tget, h]
  | cons e m ih =>
    obtain ⟨k, w⟩ := e
    unfold tins
    split
    · simp [tget, h]
    · split
      · rename_i h'; subst h'; simp [tget, h]
      · simp only [tget, ih]

theorem tget_drop_same (d : α) (m : Table α) (a : Nat) : tget d (m.filter (fun e => e.1 != a)) a = d := by
  induction m with
  | nil => simp [tget]
  | cons e m ih =>
    obtain ⟨k, w⟩ := e
    by_cases h : k = a
    · rw [List.filter_cons_of_neg (by simp [h])]; exact ih
    · have h' : ¬ a = k := fun x => h x.symm
      rw [List.filter_cons_of_pos (by simpa using h)]; simp [tget, h', ih]

theorem tget_drop_ne (d : α) (m : Table α) {a b : Nat} (h : b ≠ a) : tget d (m.filter (fun e => e.1 != a)) b = tget d m b := by
  induction m with
  | nil => simp [tget]
  | cons e m ih =>
    obtain ⟨k, w⟩ := e
    by_cases hk : k = a
    · subst hk; rw [List.filter_cons_of_neg (by simp)]; simp [tget, h, ih]
    · rw [List.filter_cons_of_pos (by simpa using hk)]; simp only [tget, ih]

variable [DecidableEq α]

/-- A key reads as what was last written to it. -/
@[simp] theorem tget_tput_same (d : α) (m : Table α) (a : Nat) (v : α) : tget d (tput d m a v) a = v := by
  unfold tput
  split
  · rename_i h; rw [h]; exact tget_drop_same d m a
  · exact tget_tins_same d m a v

/-- A write leaves every other key alone, whatever its unlisted value. -/
theorem tget_tput_ne (d d' : α) (m : Table α) {a b : Nat} (v : α) (h : b ≠ a) : tget d' (tput d m a v) b = tget d' m b := by
  unfold tput
  split
  · exact tget_drop_ne d' m h
  · exact tget_tins_ne d' m v h

/-- Reading any key after a write. -/
theorem tget_tput (d : α) (m : Table α) (a b : Nat) (v : α) : tget d (tput d m a v) b = if b = a then v else tget d m b := by
  split
  · rename_i h; subst h; exact tget_tput_same d m b v
  · rename_i h; exact tget_tput_ne d d m v h

/-! ## The canonical form -/

/-- Whether key `k` may follow bound `b`. -/
def above (b : Option Nat) (k : Nat) : Bool := match b with | none => true | some j => decide (j < k)

theorem canonFrom_cons (d : α) (b : Option Nat) (k : Nat) (v : α) (m : Table α) :
    canonFrom d b ((k, v) :: m) = (above b k && decide (v ≠ d) && canonFrom d (some k) m) := by
  cases b <;> rfl

theorem above_trans {b : Option Nat} {k j : Nat} (h : above b k = true) (hkj : k < j) : above b j = true := by
  cases b with
  | none => rfl
  | some i => simp [above] at *; omega

theorem canonFrom_tins (d : α) (m : Table α) {a : Nat} {v : α} (hv : v ≠ d) :
    ∀ b, above b a = true → canonFrom d b m = true → canonFrom d b (tins m a v) = true := by
  induction m with
  | nil => intro b hb _; simp [tins, canonFrom_cons, hb, hv, canonFrom]
  | cons e m ih =>
    obtain ⟨k, w⟩ := e
    intro b hb h
    simp only [canonFrom_cons, Bool.and_eq_true, decide_eq_true_eq] at h
    unfold tins
    split
    · rename_i hak
      have hk : above (some a) k = true := by simp [above, hak]
      simp [canonFrom_cons, hb, hv, h.1.2, h.2, hk]
    · split
      · rename_i hak; subst hak; simp [canonFrom_cons, hb, hv, h.2]
      · have : above (some k) a = true := by simp [above]; omega
        simp [canonFrom_cons, h.1.1, h.1.2, ih (some k) this h.2]

theorem canonFrom_weaken (d : α) {b : Option Nat} {k : Nat} (hb : above b k = true) :
    ∀ m : Table α, canonFrom d (some k) m = true → canonFrom d b m = true := by
  intro m h
  cases m with
  | nil => cases b <;> rfl
  | cons e m =>
    obtain ⟨j, w⟩ := e
    simp only [canonFrom_cons, Bool.and_eq_true, decide_eq_true_eq] at h ⊢
    refine ⟨⟨above_trans hb ?_, h.1.2⟩, h.2⟩
    simpa [above] using h.1.1

theorem canonFrom_filter (d : α) (p : Nat × α → Bool) (m : Table α) :
    ∀ b, canonFrom d b m = true → canonFrom d b (m.filter p) = true := by
  induction m with
  | nil => intro b h; exact h
  | cons e m ih =>
    obtain ⟨k, w⟩ := e
    intro b h
    simp only [canonFrom_cons, Bool.and_eq_true, decide_eq_true_eq] at h
    by_cases hp : p (k, w)
    · simp [hp, canonFrom_cons, h.1.1, h.1.2, ih (some k) h.2]
    · rw [List.filter_cons_of_neg hp]
      exact canonFrom_weaken d h.1.1 _ (ih (some k) h.2)

/-- A write keeps the canonical form. -/
theorem Canon.tput {d : α} {m : Table α} (h : Canon d m = true) (a : Nat) (v : α) : Canon d (tput d m a v) = true := by
  unfold Machine.tput
  split
  · exact canonFrom_filter d _ m none h
  · rename_i hv; exact canonFrom_tins d m hv none rfl h

/-- Dropping entries keeps the canonical form. -/
theorem Canon.filter {d : α} {m : Table α} (h : Canon d m = true) (p : Nat × α → Bool) : Canon d (m.filter p) = true :=
  canonFrom_filter d p m none h

/-! ## Memory -/

/-- A byte reads as what was last written there. -/
@[simp] theorem Memory.read_write_same (m : Memory) (a : Nat) (b : Byte) : (m.write a b).read a = b := tget_tput_same _ m a b

/-- A byte write leaves every other byte alone. -/
theorem Memory.read_write_ne (m : Memory) {a x : Nat} (b : Byte) (h : x ≠ a) : (m.write a b).read x = m.read x := tget_tput_ne _ _ m b h

/-- A run written leaves the bytes outside it alone. -/
theorem Memory.read_writeList_outside (bs : List Byte) :
    ∀ (m : Memory) (a x : Nat), x < a ∨ a + bs.length ≤ x → (m.writeList a bs).read x = m.read x := by
  induction bs with
  | nil => intro m a x _; rfl
  | cons b bs ih =>
    intro m a x h
    simp only [List.length_cons] at h
    rw [Memory.writeList, ih (m.write a b) (a + 1) x (by omega)]
    exact Memory.read_write_ne m b (by omega)

/-- A run reads back byte by byte. -/
theorem Memory.read_writeList_inside (bs : List Byte) :
    ∀ (m : Memory) (a k : Nat) (h : k < bs.length), (m.writeList a bs).read (a + k) = bs[k] := by
  induction bs with
  | nil => intro m a k h; simp at h
  | cons b bs ih =>
    intro m a k h
    rw [Memory.writeList]
    cases k with
    | zero => rw [Memory.read_writeList_outside bs _ _ _ (by omega)]; simp
    | succ k => rw [show a + (k + 1) = a + 1 + k by omega, ih _ (a + 1) k (by simpa using h)]; simp

/-- A byte write keeps memory in its canonical form. -/
theorem Memory.wf_write {m : Memory} (h : m.wf = true) (a : Nat) (b : Byte) : (m.write a b).wf = true := Canon.tput h a b

/-- Writing a run keeps memory in its canonical form. -/
theorem Memory.wf_writeList (bs : List Byte) : ∀ {m : Memory} (_ : m.wf = true) (a : Nat), (m.writeList a bs).wf = true := by
  induction bs with
  | nil => intro m h a; exact h
  | cons b bs ih => intro m h a; exact ih (Memory.wf_write h a b) (a + 1)

end Sys2Proof.Machine
end

