-- ==== Sys2Proof/Laws/Reg.lean ====
section
/-!
SUPPORT. Registers: reading a word or a field after a write of one.
-/

namespace Sys2Proof.Machine

/-! ## Bit fields -/

theorem fieldPut_toNat (w : Word) {hi lo : Nat} (v : Nat) (h : hi < 32) (hl : lo ≤ hi) :
    (fieldPut w hi lo v).toNat
      = w.toNat / 2 ^ (hi + 1) * 2 ^ (hi + 1) + v % 2 ^ (hi - lo + 1) * 2 ^ lo + w.toNat % 2 ^ lo := by
  unfold fieldPut
  rw [BitVec.toNat_ofNat, Nat.mul_comm (2 ^ lo), Nat.mul_comm (2 ^ (hi + 1)), Nat.add_comm (v % 2 ^ (hi - lo + 1) * 2 ^ lo)]
  apply Nat.mod_eq_of_lt
  have h1 : v % 2 ^ (hi - lo + 1) + 1 ≤ 2 ^ (hi - lo + 1) := Nat.mod_lt _ (Nat.two_pow_pos _)
  have h2 : w.toNat % 2 ^ lo < 2 ^ lo := Nat.mod_lt _ (Nat.two_pow_pos _)
  have h3 : 2 ^ (hi - lo + 1) * 2 ^ lo = 2 ^ (hi + 1) := by rw [← Nat.pow_add]; congr 1; omega
  have h4 : w.toNat / 2 ^ (hi + 1) + 1 ≤ 2 ^ (31 - hi) := by
    rw [Nat.succ_le_iff, Nat.div_lt_iff_lt_mul (Nat.two_pow_pos _), ← Nat.pow_add]
    have := w.isLt
    rwa [show 31 - hi + (hi + 1) = 32 by omega]
  have h5 : 2 ^ (31 - hi) * 2 ^ (hi + 1) = 2 ^ 32 := by rw [← Nat.pow_add]; congr 1; omega
  have h6 := Nat.mul_le_mul_right (2 ^ lo) h1
  have h7 := Nat.mul_le_mul_right (2 ^ (hi + 1)) h4
  rw [h3, Nat.add_mul] at h6
  rw [h5, Nat.add_mul] at h7
  omega

/-- A field reads as what was written to it. -/
theorem fieldGet_fieldPut_same (w : Word) {hi lo : Nat} (v : Nat) (h : hi < 32) (hl : lo ≤ hi) :
    fieldGet (fieldPut w hi lo v) hi lo = v % 2 ^ (hi - lo + 1) := by
  unfold fieldGet
  rw [fieldPut_toNat w v h hl]
  have h3 : 2 ^ (hi + 1) = 2 ^ (hi - lo + 1) * 2 ^ lo := by rw [← Nat.pow_add]; congr 1; omega
  have h2 : w.toNat % 2 ^ lo < 2 ^ lo := Nat.mod_lt _ (Nat.two_pow_pos _)
  generalize w.toNat % 2 ^ lo = c at h2
  rw [h3, ← Nat.mul_assoc, ← Nat.add_mul, Nat.mul_comm, Nat.mul_add_div (Nat.two_pow_pos _), Nat.div_eq_of_lt h2, Nat.add_zero,
    Nat.mul_add_mod_self_right, Nat.mod_mod]

/-- A write to a field leaves the fields below it alone. -/
theorem fieldGet_fieldPut_below (w : Word) {hi lo hi' lo' : Nat} (v : Nat) (h : hi < 32) (hl : lo ≤ hi) (hb : hi' < lo) (hl' : lo' ≤ hi') :
    fieldGet (fieldPut w hi lo v) hi' lo' = fieldGet w hi' lo' := by
  unfold fieldGet
  rw [fieldPut_toNat w v h hl]
  have key : ∀ a : Nat, a / 2 ^ lo' % 2 ^ (hi' - lo' + 1) = a % 2 ^ lo / 2 ^ lo' % 2 ^ (hi' - lo' + 1) := by
    intro a
    have e : 2 ^ lo = 2 ^ lo' * (2 ^ (hi' - lo' + 1) * 2 ^ (lo - hi' - 1)) := by
      rw [← Nat.pow_add, ← Nat.pow_add]; congr 1; omega
    rw [e, Nat.mod_mul_right_div_self, Nat.mod_mul_right_mod]
  rw [key, key w.toNat]
  congr 2
  have h3 : 2 ^ (hi + 1) = 2 ^ (hi - lo + 1) * 2 ^ lo := by rw [← Nat.pow_add]; congr 1; omega
  rw [h3, ← Nat.mul_assoc, ← Nat.add_mul, Nat.mul_add_mod_self_right, Nat.mod_mod]

/-- A write to a field leaves the fields above it alone. -/
theorem fieldGet_fieldPut_above (w : Word) {hi lo hi' lo' : Nat} (v : Nat) (h : hi < 32) (hl : lo ≤ hi) (hb : hi < lo') :
    fieldGet (fieldPut w hi lo v) hi' lo' = fieldGet w hi' lo' := by
  unfold fieldGet
  rw [fieldPut_toNat w v h hl]
  have key : ∀ a : Nat, a / 2 ^ lo' = a / 2 ^ (hi + 1) / 2 ^ (lo' - hi - 1) := by
    intro a
    rw [Nat.div_div_eq_div_mul, ← Nat.pow_add]; congr 2; omega
  have h1 : v % 2 ^ (hi - lo + 1) + 1 ≤ 2 ^ (hi - lo + 1) := Nat.mod_lt _ (Nat.two_pow_pos _)
  have h2 : w.toNat % 2 ^ lo < 2 ^ lo := Nat.mod_lt _ (Nat.two_pow_pos _)
  have h3 : 2 ^ (hi - lo + 1) * 2 ^ lo = 2 ^ (hi + 1) := by rw [← Nat.pow_add]; congr 1; omega
  have h6 := Nat.mul_le_mul_right (2 ^ lo) h1
  rw [h3, Nat.add_mul] at h6
  have : (v % 2 ^ (hi - lo + 1) * 2 ^ lo + w.toNat % 2 ^ lo) / 2 ^ (hi + 1) = 0 := Nat.div_eq_of_lt (by omega)
  have e : (w.toNat / 2 ^ (hi + 1) * 2 ^ (hi + 1) + v % 2 ^ (hi - lo + 1) * 2 ^ lo + w.toNat % 2 ^ lo) / 2 ^ (hi + 1)
      = w.toNat / 2 ^ (hi + 1) := by
    rw [Nat.add_assoc, Nat.mul_comm (w.toNat / 2 ^ (hi + 1)), Nat.mul_add_div (Nat.two_pow_pos _), this, Nat.add_zero]
  rw [key, key w.toNat, e]

/-! ## Words -/

/-- A register instance reads as the word last written to it. -/
@[simp] theorem State.word_setWord_same (s : State) (r : Reg) (w : Word) (i j : Nat) : (s.setWord r w i j).word r i j = w := by
  simp [State.word, State.setWord]

/-- A register write leaves every other address alone. -/
theorem State.word_setWord_ne (s : State) (r r' : Reg) (w : Word) {i j i' j' : Nat} (h : r'.addr i' j' ≠ r.addr i j) :
    (s.setWord r w i j).word r' i' j' = s.word r' i' j' := by
  simp [State.word, State.setWord, tget_tput_ne _ _ _ _ h]

/-! ## Fields -/

/-- A field that lies within a word. -/
def Fld.ok (x : Fld) : Bool := decide (x.hi < 32) && decide (x.lo ≤ x.hi)

/-- A field reads as what was last written to it. -/
theorem State.f_setF_same (s : State) {x : Fld} (v i j : Nat) (h : x.ok = true := by decide) :
    (s.setF x v i j).f x i j = v % 2 ^ (x.hi - x.lo + 1) := by
  simp only [Fld.ok, Bool.and_eq_true, decide_eq_true_eq] at h
  simp [State.f, State.setF, fieldGet_fieldPut_same _ _ h.1 h.2]

/-- A field write leaves the fields of other addresses alone. -/
theorem State.f_setF_addr (s : State) {x y : Fld} (v : Nat) {i j i' j' : Nat} (h : y.reg.addr i' j' ≠ x.reg.addr i j) :
    (s.setF x v i j).f y i' j' = s.f y i' j' := by
  simp only [State.f, State.setF, State.word_setWord_ne _ _ _ _ h]

/-- Two fields of one register that share no bit. -/
def Fld.apart (x y : Fld) : Bool := decide (x.reg = y.reg) && x.ok && y.ok && (decide (x.hi < y.lo) || decide (y.hi < x.lo))

/-- A field write leaves the register's other fields alone. -/
theorem State.f_setF_apart (s : State) {x y : Fld} (v i j : Nat) (h : x.apart y = true := by decide) :
    (s.setF x v i j).f y i j = s.f y i j := by
  simp only [Fld.apart, Fld.ok, Bool.and_eq_true, Bool.or_eq_true, decide_eq_true_eq] at h
  obtain ⟨⟨⟨hr, hx⟩, hy⟩, hb⟩ := h
  simp only [State.f, State.setF, ← hr, State.word_setWord_same]
  cases hb with
  | inl hb => exact fieldGet_fieldPut_above _ _ hx.1 hx.2 hb
  | inr hb => exact fieldGet_fieldPut_below _ _ hx.1 hx.2 hb hy.2

end Sys2Proof.Machine
end

