-- ==== Sys2Proof/Laws/Events.lean ====
section
/-!
SUPPORT. What logging an event, raising an interrupt and writing registers can change.
-/

namespace Sys2Proof.Safety
open Sys2Proof Sys2Proof.Machine

theorem Touches.refl (l : List Nat) (s : State) : Touches l s s := ⟨rfl, fun _ _ _ _ _ => rfl, [], rfl, fun _ h => nomatch h⟩

theorem Touches.mono {l m : List Nat} {s t : State} (h : Touches l s t) (hm : l ⊆ m) : Touches m s t :=
  ⟨h.same, fun r i j a b => h.regs r i j (fun x => a (hm x)) b, h.out⟩

theorem Touches.trans {l : List Nat} {s t u : State} (h : Touches l s t) (k : Touches l t u) : Touches l s u := by
  refine ⟨?_, fun r i j a b => (k.regs r i j a b).trans (h.regs r i j a b), ?_⟩
  rotate_left
  · obtain ⟨x, hx, px⟩ := h.out
    obtain ⟨y, hy, py⟩ := k.out
    exact ⟨y ++ x, by rw [hy, hx, List.append_assoc], fun o ho => (List.mem_append.mp ho).elim (py o) (px o)⟩
  have e := k.same
  rw [h.same] at e
  exact e

section
variable {l : List Nat} {s t : State} (h : Touches l s t)
include h
theorem Touches.mem : t.mem = s.mem := by rw [h.same]
theorem Touches.tally : t.tally = s.tally := by rw [h.same]
theorem Touches.otp : t.otp = s.otp := by rw [h.same]
theorem Touches.fl : t.fl = s.fl := by rw [h.same]
theorem Touches.pw : t.pw = s.pw := by rw [h.same]
theorem Touches.bt : t.bt = s.bt := by rw [h.same]
theorem Touches.tm : t.tm = s.tm := by rw [h.same]
theorem Touches.sec : t.sec = s.sec := by rw [h.same]
theorem Touches.ing : t.ing = s.ing := by rw [h.same]
theorem Touches.spg : t.spg = s.spg := by rw [h.same]
theorem Touches.mill : t.mill = s.mill := by rw [h.same]
theorem Touches.tns : t.tns = s.tns := by rw [h.same]
theorem Touches.mm : t.mm = s.mm := by rw [h.same]
theorem Touches.ssd : t.ssd = s.ssd := by rw [h.same]
theorem Touches.frm : t.frm = s.frm := by rw [h.same]
theorem Touches.ktl : t.ktl = s.ktl := by rw [h.same]
theorem Touches.kln : t.kln = s.kln := by rw [h.same]
theorem Touches.csk : t.csk = s.csk := by rw [h.same]
theorem Touches.lnk : t.lnk = s.lnk := by rw [h.same]
theorem Touches.pending : t.pending = s.pending := by rw [h.same]
theorem Touches.f (x : Fld) (i j : Nat) (hl : x.reg.addr i j ∉ l) (hg : x.reg.addr i j ∉ logRegs) : t.f x i j = s.f x i j := by
  simp only [State.f, h.regs x.reg i j hl hg]
end

theorem touches_setWord (l : List Nat) (s : State) (r : Reg) (w : Word) (i j : Nat) (h : r.addr i j ∈ l) : Touches l s (s.setWord r w i j) :=
  ⟨rfl, fun r' i' j' a _ => State.word_setWord_ne s r r' w (fun e => a (e ▸ h)), [], rfl, fun _ h => nomatch h⟩

theorem touches_setF (l : List Nat) (s : State) (x : Fld) (v i j : Nat) (h : x.reg.addr i j ∈ l) : Touches l s (s.setF x v i j) :=
  touches_setWord l s _ _ i j h

theorem touches_setWord_log (l : List Nat) (s : State) (r : Reg) (w : Word) (i j : Nat) (h : r.addr i j ∈ logRegs) :
    Touches l s (s.setWord r w i j) :=
  ⟨rfl, fun r' i' j' _ b => State.word_setWord_ne s r r' w (fun e => b (e ▸ h)), [], rfl, fun _ h => nomatch h⟩

theorem touches_used (l : List Nat) (s : State) : Touches l s s.used := ⟨rfl, fun _ _ _ _ _ => rfl, [], rfl, fun _ h => nomatch h⟩

/-- An interrupt: a message sent outward, or a pending bit. -/
theorem touches_irq (l : List Nat) (s : State) (fn vec : Nat) : Touches l s (s.irq fn vec) := by
  unfold State.irq
  split
  · exact ⟨rfl, fun _ _ _ _ _ => rfl, [], rfl, fun _ h => nomatch h⟩
  · exact ⟨rfl, fun _ _ _ _ _ => rfl, [_], rfl, fun o h => ⟨fn, vec, by simpa using h⟩⟩

theorem touches_setEvt (l : List Nat) (s : State) (src bit : Nat) : Touches l s (s.setEvt src bit) := by
  unfold State.setEvt
  split
  · rename_i r hr
    refine touches_setWord_log l s r _ 0 0 ?_
    unfold evtReg at hr
    split at hr <;> cases hr <;> decide
  · exact Touches.refl l s

/-- A record of the log: the log, its number, and vector 0. -/
theorem touches_pushEvt (l : List Nat) (s : State) (ts src code unit rep a0 a1 a2 : Nat) :
    Touches l s (s.pushEvt ts src code unit rep a0 a1 a2) := by
  have h1 : ∀ (e : Evt) (n : Nat), Touches l s { s with log := (e :: s.log).take 4096, dsp.evtSeq := n } :=
    fun _ _ => ⟨rfl, fun _ _ _ _ _ => rfl, [], rfl, fun _ h => nomatch h⟩
  have h2 : ∀ (t : State) (n : Nat), Touches l t (t.setPair R.DSP_EVT_HEAD_LO R.DSP_EVT_HEAD_HI n) := fun t n =>
    (touches_setWord_log l t R.DSP_EVT_HEAD_LO _ 0 0 (by decide)).trans
      (touches_setWord_log l _ R.DSP_EVT_HEAD_HI _ 0 0 (by decide))
  unfold State.pushEvt
  simp only
  split
  · exact ((h1 _ _).trans (h2 _ _)).trans (touches_irq l _ 0 0)
  · exact (h1 _ _).trans (h2 _ _)

theorem touches_folds (l : List Nat) (s : State) (fs : List Fold) : Touches l s { s with dsp.folds := fs } := ⟨rfl, fun _ _ _ _ _ => rfl, [], rfl, fun _ h => nomatch h⟩

theorem touches_flushFold (l : List Nat) (s : State) (src code unit : Nat) : Touches l s (s.flushFold src code unit) := by
  unfold State.flushFold
  split
  · exact Touches.refl l s
  · simp only
    split
    · exact touches_folds l s _
    · exact (touches_pushEvt l s _ _ _ _ _ _ _ _).trans (touches_folds l _ _)

theorem touches_addSat_log (l : List Nat) (s : State) (x : Fld) (n i j : Nat) (h : x.reg.addr i j ∈ logRegs) : Touches l s (s.addSat x n i j) :=
  touches_setWord_log l s _ _ i j h

theorem touches_endFold (l : List Nat) (s : State) (src code unit : Nat) : Touches l s (s.endFold src code unit) := by
  unfold State.endFold
  split
  · split
    · exact touches_flushFold l s _ _ _
    · exact Touches.refl l s
  · exact Touches.refl l s

/-- An occurrence for the log: its record at once, or counted in its folding second, or counted as shed. -/
theorem touches_logEvt (l : List Nat) (s : State) (src code unit a0 a1 a2 : Nat) : Touches l s (s.logEvt src code unit a0 a1 a2) := by
  unfold State.logEvt
  split
  · exact touches_addSat_log l s _ _ _ _ (by decide)
  · have h1 := touches_endFold l s src code unit
    simp only
    generalize s.endFold src code unit = t at h1
    split
    · exact h1.trans (touches_folds l _ _)
    · exact (h1.trans (touches_pushEvt l t _ _ _ _ _ _ _ _)).trans (touches_folds l _ _)

/-- An event: its _EVT bit, and the log. -/
theorem touches_event (l : List Nat) (s : State) (src code unit a0 a1 a2 : Nat) : Touches l s (s.event src code unit a0 a1 a2) := by
  unfold State.event
  simp only
  split
  · exact (touches_setEvt l s _ _).trans (touches_logEvt l _ _ _ _ _ _ _)
  · exact touches_logEvt l s _ _ _ _ _ _

theorem touches_warnOpen (l : List Nat) (s : State) (src unit a1 : Nat) : Touches l s (s.warnOpen src unit a1) := by
  have h1 : ∀ (e : Evt) (n : Nat), Touches l s (({ s with log := (e :: s.log).take 4096, dsp.evtSeq := n } : State).used) :=
    fun _ _ => ⟨rfl, fun _ _ _ _ _ => rfl, [], rfl, fun _ h => nomatch h⟩
  have h2 : ∀ (t : State) (n : Nat), Touches l t (t.setPair R.DSP_EVT_HEAD_LO R.DSP_EVT_HEAD_HI n) := fun t n =>
    (touches_setWord_log l t R.DSP_EVT_HEAD_LO _ 0 0 (by decide)).trans
      (touches_setWord_log l _ R.DSP_EVT_HEAD_HI _ 0 0 (by decide))
  unfold State.warnOpen
  simp only
  split
  · exact ((h1 _ _).trans (h2 _ _)).trans (touches_irq l _ 0 0)
  · exact (h1 _ _).trans (h2 _ _)

/-! ## What an event shows -/

/-- The addresses of the registers that the log itself writes. -/
def headRegs : List Nat := [R.DSP_EVT_HEAD_LO.addr 0 0, R.DSP_EVT_HEAD_HI.addr 0 0, R.DSP_EVT_SHED.addr 0 0]

theorem word_setPair_head (s : State) (n : Nat) (r : Reg) (i j : Nat) (h : r.addr i j ∉ headRegs) :
    (s.setPair R.DSP_EVT_HEAD_LO R.DSP_EVT_HEAD_HI n).word r i j = s.word r i j := by
  simp only [headRegs, List.mem_cons, not_or] at h
  simp only [State.setPair]
  rw [State.word_setWord_ne _ _ _ _ h.2.1, State.word_setWord_ne _ _ _ _ h.1]

theorem word_pushEvt (s : State) (ts src code unit rep a0 a1 a2 : Nat) (r : Reg) (i j : Nat) (h : r.addr i j ∉ headRegs) :
    (s.pushEvt ts src code unit rep a0 a1 a2).word r i j = s.word r i j := by
  unfold State.pushEvt
  simp only
  split
  · unfold State.irq
    split
    · exact word_setPair_head _ _ r i j h
    · exact word_setPair_head _ _ r i j h
  · exact word_setPair_head _ _ r i j h

theorem word_logEvt (s : State) (src code unit a0 a1 a2 : Nat) (r : Reg) (i j : Nat) (h : r.addr i j ∉ headRegs) :
    (s.logEvt src code unit a0 a1 a2).word r i j = s.word r i j := by
  have h1 : (s.endFold src code unit).word r i j = s.word r i j := by
    unfold State.endFold State.flushFold
    split
    · split
      · split
        · rfl
        · simp only
          split
          · rfl
          · exact word_pushEvt s _ _ _ _ _ _ _ _ r i j h
      · rfl
    · rfl
  unfold State.logEvt
  split
  · simp only [headRegs, List.mem_cons, not_or] at h
    exact State.word_setWord_ne _ _ _ _ h.2.2.1
  · simp only
    split
    · exact h1
    · exact (word_pushEvt _ _ _ _ _ _ _ _ _ r i j h).trans h1

/-- An event sets its bit in its source's _EVT register. -/
theorem word_event_evt (s : State) {src code : Nat} (unit a0 a1 a2 : Nat) {r : Reg} (h : evtReg src = some r) (hc : code < 32) :
    (s.event src code unit a0 a1 a2).word r = s.word r ||| BitVec.ofNat 32 (2 ^ code) := by
  have hn : r.addr 0 0 ∉ headRegs := by
    unfold evtReg at h
    split at h <;> cases h <;> decide
  unfold State.event
  simp only [if_pos hc]
  rw [word_logEvt _ _ _ _ _ _ _ r 0 0 hn]
  simp [State.setEvt, h]

/-! ## The bits of the _EVT registers -/

theorem fieldGet_or_bit (w : Word) {k b : Nat} (hb : b < 32) (hk : k < 32) :
    (fieldGet (w ||| BitVec.ofNat 32 (2 ^ k)) b b != 0) = ((fieldGet w b b != 0) || decide (k = b)) := by
  have g : ∀ v : Word, (fieldGet v b b != 0) = v.toNat.testBit b := by
    intro v
    rw [Nat.testBit_eq_decide_div_mod_eq]
    unfold fieldGet
    have : v.toNat / 2 ^ b % 2 = 0 ∨ v.toNat / 2 ^ b % 2 = 1 := by omega
    rcases this with h | h <;> simp [h]
  rw [g, g, BitVec.toNat_or, Nat.testBit_or, BitVec.toNat_ofNat, Nat.mod_eq_of_lt (Nat.pow_lt_pow_right (by decide) hk), Nat.testBit_two_pow]

/-- The _EVT bits after an event: its own is set, the others stay. -/
theorem event_fb (s : State) (src code unit a0 a1 a2 : Nat) (x : Fld) (hx : x.hi = x.lo) (hb : x.lo < 32) (hz : x.reg.reset = 0) (hn : x.reg.addr 0 0 ∉ headRegs) :
    (s.event src code unit a0 a1 a2).fb x
      = (s.fb x || decide (code = x.lo ∧ code < 32 ∧ (evtReg src).map (fun r => r.addr 0 0) = some (x.reg.addr 0 0))) := by
  have h0 : (s.event src code unit a0 a1 a2).word x.reg = (if code < 32 then s.setEvt src code else s).word x.reg := by
    unfold State.event
    simp only
    rw [word_logEvt _ _ _ _ _ _ _ _ 0 0 hn]
  have h1 : ∀ u : State, u.fb x = (fieldGet (u.word x.reg) x.lo x.lo != 0) := fun u => by rw [← hx]; simp only [State.fb, State.f, hx]
  rw [h1, h1, h0]
  split
  · rename_i hc
    simp only [hc, true_and]
    unfold State.setEvt
    cases e : evtReg src with
    | none => simp
    | some r =>
      simp only [Option.map_some, Option.some.injEq]
      by_cases a : r.addr 0 0 = x.reg.addr 0 0
      · have hr : r.reset = 0 := by
          unfold evtReg at e
          split at e <;> cases e <;> rfl
        have w1 : (s.setWord r (s.word r ||| BitVec.ofNat 32 (2 ^ code))).word x.reg = s.word x.reg ||| BitVec.ofNat 32 (2 ^ code) := by
          simp only [State.word, State.setWord, ← a, hr, hz, tget_tput_same]
        rw [w1, fieldGet_or_bit _ hb hc]
        simp [a]
      · rw [State.word_setWord_ne _ _ _ _ (fun h => a h.symm)]
        simp [a]
  · rename_i hc
    simp [hc]

/-! ## What events and interrupts leave alone -/

section
variable (s : State) (src code unit a0 a1 a2 fn vec : Nat) (on : Bool)
@[simp] theorem event_mem : (s.event src code unit a0 a1 a2).mem = s.mem := (touches_event [] s src code unit a0 a1 a2).mem
@[simp] theorem event_tally : (s.event src code unit a0 a1 a2).tally = s.tally := (touches_event [] s src code unit a0 a1 a2).tally
@[simp] theorem event_otp : (s.event src code unit a0 a1 a2).otp = s.otp := (touches_event [] s src code unit a0 a1 a2).otp
@[simp] theorem event_fl : (s.event src code unit a0 a1 a2).fl = s.fl := (touches_event [] s src code unit a0 a1 a2).fl
@[simp] theorem event_pw : (s.event src code unit a0 a1 a2).pw = s.pw := (touches_event [] s src code unit a0 a1 a2).pw
@[simp] theorem event_bt : (s.event src code unit a0 a1 a2).bt = s.bt := (touches_event [] s src code unit a0 a1 a2).bt
@[simp] theorem event_tm : (s.event src code unit a0 a1 a2).tm = s.tm := (touches_event [] s src code unit a0 a1 a2).tm
@[simp] theorem event_sec : (s.event src code unit a0 a1 a2).sec = s.sec := (touches_event [] s src code unit a0 a1 a2).sec
@[simp] theorem event_ing : (s.event src code unit a0 a1 a2).ing = s.ing := (touches_event [] s src code unit a0 a1 a2).ing
@[simp] theorem event_spg : (s.event src code unit a0 a1 a2).spg = s.spg := (touches_event [] s src code unit a0 a1 a2).spg
@[simp] theorem event_mill : (s.event src code unit a0 a1 a2).mill = s.mill := (touches_event [] s src code unit a0 a1 a2).mill
@[simp] theorem event_tns : (s.event src code unit a0 a1 a2).tns = s.tns := (touches_event [] s src code unit a0 a1 a2).tns
@[simp] theorem event_mm : (s.event src code unit a0 a1 a2).mm = s.mm := (touches_event [] s src code unit a0 a1 a2).mm
@[simp] theorem event_ssd : (s.event src code unit a0 a1 a2).ssd = s.ssd := (touches_event [] s src code unit a0 a1 a2).ssd
@[simp] theorem event_frm : (s.event src code unit a0 a1 a2).frm = s.frm := (touches_event [] s src code unit a0 a1 a2).frm
@[simp] theorem event_ktl : (s.event src code unit a0 a1 a2).ktl = s.ktl := (touches_event [] s src code unit a0 a1 a2).ktl
@[simp] theorem event_kln : (s.event src code unit a0 a1 a2).kln = s.kln := (touches_event [] s src code unit a0 a1 a2).kln
@[simp] theorem event_csk : (s.event src code unit a0 a1 a2).csk = s.csk := (touches_event [] s src code unit a0 a1 a2).csk
@[simp] theorem event_lnk : (s.event src code unit a0 a1 a2).lnk = s.lnk := (touches_event [] s src code unit a0 a1 a2).lnk
@[simp] theorem event_pending : (s.event src code unit a0 a1 a2).pending = s.pending := (touches_event [] s src code unit a0 a1 a2).pending
@[simp] theorem irq_mem : (s.irq fn vec).mem = s.mem := (touches_irq [] s fn vec).mem
@[simp] theorem irq_tally : (s.irq fn vec).tally = s.tally := (touches_irq [] s fn vec).tally
@[simp] theorem irq_otp : (s.irq fn vec).otp = s.otp := (touches_irq [] s fn vec).otp
@[simp] theorem irq_fl : (s.irq fn vec).fl = s.fl := (touches_irq [] s fn vec).fl
@[simp] theorem irq_pw : (s.irq fn vec).pw = s.pw := (touches_irq [] s fn vec).pw
@[simp] theorem irq_bt : (s.irq fn vec).bt = s.bt := (touches_irq [] s fn vec).bt
@[simp] theorem irq_tm : (s.irq fn vec).tm = s.tm := (touches_irq [] s fn vec).tm
@[simp] theorem irq_sec : (s.irq fn vec).sec = s.sec := (touches_irq [] s fn vec).sec
@[simp] theorem irq_ing : (s.irq fn vec).ing = s.ing := (touches_irq [] s fn vec).ing
@[simp] theorem irq_spg : (s.irq fn vec).spg = s.spg := (touches_irq [] s fn vec).spg
@[simp] theorem irq_mill : (s.irq fn vec).mill = s.mill := (touches_irq [] s fn vec).mill
@[simp] theorem irq_tns : (s.irq fn vec).tns = s.tns := (touches_irq [] s fn vec).tns
@[simp] theorem irq_mm : (s.irq fn vec).mm = s.mm := (touches_irq [] s fn vec).mm
@[simp] theorem irq_ssd : (s.irq fn vec).ssd = s.ssd := (touches_irq [] s fn vec).ssd
@[simp] theorem irq_frm : (s.irq fn vec).frm = s.frm := (touches_irq [] s fn vec).frm
@[simp] theorem irq_ktl : (s.irq fn vec).ktl = s.ktl := (touches_irq [] s fn vec).ktl
@[simp] theorem irq_kln : (s.irq fn vec).kln = s.kln := (touches_irq [] s fn vec).kln
@[simp] theorem irq_csk : (s.irq fn vec).csk = s.csk := (touches_irq [] s fn vec).csk
@[simp] theorem irq_lnk : (s.irq fn vec).lnk = s.lnk := (touches_irq [] s fn vec).lnk
@[simp] theorem irq_pending : (s.irq fn vec).pending = s.pending := (touches_irq [] s fn vec).pending
@[simp] theorem warnOpen_mem : (s.warnOpen src unit a1).mem = s.mem := (touches_warnOpen [] s src unit a1).mem
@[simp] theorem warnOpen_tally : (s.warnOpen src unit a1).tally = s.tally := (touches_warnOpen [] s src unit a1).tally
@[simp] theorem warnOpen_otp : (s.warnOpen src unit a1).otp = s.otp := (touches_warnOpen [] s src unit a1).otp
@[simp] theorem warnOpen_fl : (s.warnOpen src unit a1).fl = s.fl := (touches_warnOpen [] s src unit a1).fl
@[simp] theorem warnOpen_pw : (s.warnOpen src unit a1).pw = s.pw := (touches_warnOpen [] s src unit a1).pw
@[simp] theorem warnOpen_bt : (s.warnOpen src unit a1).bt = s.bt := (touches_warnOpen [] s src unit a1).bt
@[simp] theorem warnOpen_tm : (s.warnOpen src unit a1).tm = s.tm := (touches_warnOpen [] s src unit a1).tm
@[simp] theorem warnOpen_sec : (s.warnOpen src unit a1).sec = s.sec := (touches_warnOpen [] s src unit a1).sec
@[simp] theorem warnOpen_ing : (s.warnOpen src unit a1).ing = s.ing := (touches_warnOpen [] s src unit a1).ing
@[simp] theorem warnOpen_spg : (s.warnOpen src unit a1).spg = s.spg := (touches_warnOpen [] s src unit a1).spg
@[simp] theorem warnOpen_mill : (s.warnOpen src unit a1).mill = s.mill := (touches_warnOpen [] s src unit a1).mill
@[simp] theorem warnOpen_tns : (s.warnOpen src unit a1).tns = s.tns := (touches_warnOpen [] s src unit a1).tns
@[simp] theorem warnOpen_mm : (s.warnOpen src unit a1).mm = s.mm := (touches_warnOpen [] s src unit a1).mm
@[simp] theorem warnOpen_ssd : (s.warnOpen src unit a1).ssd = s.ssd := (touches_warnOpen [] s src unit a1).ssd
@[simp] theorem warnOpen_frm : (s.warnOpen src unit a1).frm = s.frm := (touches_warnOpen [] s src unit a1).frm
@[simp] theorem warnOpen_ktl : (s.warnOpen src unit a1).ktl = s.ktl := (touches_warnOpen [] s src unit a1).ktl
@[simp] theorem warnOpen_kln : (s.warnOpen src unit a1).kln = s.kln := (touches_warnOpen [] s src unit a1).kln
@[simp] theorem warnOpen_csk : (s.warnOpen src unit a1).csk = s.csk := (touches_warnOpen [] s src unit a1).csk
@[simp] theorem warnOpen_lnk : (s.warnOpen src unit a1).lnk = s.lnk := (touches_warnOpen [] s src unit a1).lnk
@[simp] theorem warnOpen_pending : (s.warnOpen src unit a1).pending = s.pending := (touches_warnOpen [] s src unit a1).pending

theorem event_f (x : Fld) (i j : Nat) (h : x.reg.addr i j ∉ logRegs) : (s.event src code unit a0 a1 a2).f x i j = s.f x i j :=
  (touches_event [] s src code unit a0 a1 a2).f x i j (by simp) h
theorem event_word (r : Reg) (i j : Nat) (h : r.addr i j ∉ logRegs) : (s.event src code unit a0 a1 a2).word r i j = s.word r i j :=
  (touches_event [] s src code unit a0 a1 a2).regs r i j (by simp) h
theorem warnOpen_f (x : Fld) (i j : Nat) (h : x.reg.addr i j ∉ logRegs) : (s.warnOpen src unit a1).f x i j = s.f x i j :=
  (touches_warnOpen [] s src unit a1).f x i j (by simp) h
theorem irq_f (x : Fld) (i j : Nat) : (s.irq fn vec).f x i j = s.f x i j := by
  unfold State.irq; split <;> rfl
end

/-! A part other than registers changes on both sides. -/

section
variable {l : List Nat} {s t : State} (h : Touches l s t)
include h
theorem Touches.set_mem (x : Memory) : Touches l { s with mem := x } { t with mem := x } := by
  refine ⟨?_, h.regs, h.out⟩
  rw [h.same]
theorem Touches.set_tally (x : Table Tally) : Touches l { s with tally := x } { t with tally := x } := by
  refine ⟨?_, h.regs, h.out⟩
  rw [h.same]
theorem Touches.set_otp (x : Otp) : Touches l { s with otp := x } { t with otp := x } := by
  refine ⟨?_, h.regs, h.out⟩
  rw [h.same]
theorem Touches.set_fl (x : Flash) : Touches l { s with fl := x } { t with fl := x } := by
  refine ⟨?_, h.regs, h.out⟩
  rw [h.same]
theorem Touches.set_pw (x : PwrSt) : Touches l { s with pw := x } { t with pw := x } := by
  refine ⟨?_, h.regs, h.out⟩
  rw [h.same]
theorem Touches.set_bt (x : BootSt) : Touches l { s with bt := x } { t with bt := x } := by
  refine ⟨?_, h.regs, h.out⟩
  rw [h.same]
theorem Touches.set_tm (x : TimeSt) : Touches l { s with tm := x } { t with tm := x } := by
  refine ⟨?_, h.regs, h.out⟩
  rw [h.same]
theorem Touches.set_sec (x : SecSt) : Touches l { s with sec := x } { t with sec := x } := by
  refine ⟨?_, h.regs, h.out⟩
  rw [h.same]
theorem Touches.set_ing (x : IngSt) : Touches l { s with ing := x } { t with ing := x } := by
  refine ⟨?_, h.regs, h.out⟩
  rw [h.same]
theorem Touches.set_spg (x : SpgSt) : Touches l { s with spg := x } { t with spg := x } := by
  refine ⟨?_, h.regs, h.out⟩
  rw [h.same]
theorem Touches.set_mill (x : MillSt) : Touches l { s with mill := x } { t with mill := x } := by
  refine ⟨?_, h.regs, h.out⟩
  rw [h.same]
theorem Touches.set_tns (x : TnsSt) : Touches l { s with tns := x } { t with tns := x } := by
  refine ⟨?_, h.regs, h.out⟩
  rw [h.same]
theorem Touches.set_mm (x : MemSt) : Touches l { s with mm := x } { t with mm := x } := by
  refine ⟨?_, h.regs, h.out⟩
  rw [h.same]
theorem Touches.set_ssd (x : Ssd) : Touches l { s with ssd := x } { t with ssd := x } := by
  refine ⟨?_, h.regs, h.out⟩
  rw [h.same]
theorem Touches.set_frm (x : FrmSt) : Touches l { s with frm := x } { t with frm := x } := by
  refine ⟨?_, h.regs, h.out⟩
  rw [h.same]
theorem Touches.set_ktl (x : KtlSt) : Touches l { s with ktl := x } { t with ktl := x } := by
  refine ⟨?_, h.regs, h.out⟩
  rw [h.same]
theorem Touches.set_kln (x : KlnSt) : Touches l { s with kln := x } { t with kln := x } := by
  refine ⟨?_, h.regs, h.out⟩
  rw [h.same]
theorem Touches.set_csk (x : CskSt) : Touches l { s with csk := x } { t with csk := x } := by
  refine ⟨?_, h.regs, h.out⟩
  rw [h.same]
theorem Touches.set_lnk (x : LnkSt) : Touches l { s with lnk := x } { t with lnk := x } := by
  refine ⟨?_, h.regs, h.out⟩
  rw [h.same]
end

end Sys2Proof.Safety
end

