-- ==== Sys2Proof/Laws/Only.lean ====
section
/-!
SUPPORT. Which parts of the state a function can change at most: a mask with one bit for each part, and how such bounds compose.
-/

namespace Sys2Proof.Machine
open Sys2Proof Sys2Proof.Safety

/-- What every change of the OTP keeps: its limits, and the one-way order of its fuses. -/
def otpStep (a b : Otp) : Prop := otpWf a = true → otpWf b = true ∧ otpLe a b

/-- The register in a place among all registers. -/
def regOf (k : Nat) : Reg := nth R.BOOT_STATUS (nth [] regChunks (k / 32)) (k % 32)

/-- From `s` to `t` only the parts whose bits `m` holds have changed; the queue has not, memory stays canonical, the OTP goes one way. Bit 0
stands for any register, bit 28 + k for register k. -/
structure Only (m : Nat) (s t : State) : Prop where
  pending : t.pending = s.pending
  wf : Memory.wf s.mem = true → Memory.wf t.mem = true
  fuses : otpStep s.otp t.otp
  regs : m.testBit 0 = false → m / 2 ^ 28 = 0 → t.regs = s.regs
  words : m.testBit 0 = false → ∀ (a : Nat) (d : Word), (∀ k, m.testBit (28 + k) = true → ∀ i j, a ≠ (regOf k).addr i j) →
    tget d t.regs a = tget d s.regs a
  mem : m.testBit 1 = false → t.mem = s.mem
  tally : m.testBit 2 = false → t.tally = s.tally
  log : m.testBit 3 = false → t.log = s.log
  otp : m.testBit 4 = false → t.otp = s.otp
  fl : m.testBit 5 = false → t.fl = s.fl
  pw : m.testBit 6 = false → t.pw = s.pw
  bt : m.testBit 7 = false → t.bt = s.bt
  tm : m.testBit 8 = false → t.tm = s.tm
  dspEv : m.testBit 9 = false → (t.dsp.evtSeq, t.dsp.folds) = (s.dsp.evtSeq, s.dsp.folds)
  dsp : m.testBit 10 = false → { t.dsp with evtSeq := 0, folds := [] } = { s.dsp with evtSeq := 0, folds := [] }
  hstPba : m.testBit 11 = false → t.hst.pba = s.hst.pba
  hstOut : m.testBit 12 = false → t.hst.outq = s.hst.outq
  hst : m.testBit 13 = false → { t.hst with pba := [], outq := [] } = { s.hst with pba := [], outq := [] }
  sec : m.testBit 14 = false → t.sec = s.sec
  ing : m.testBit 15 = false → t.ing = s.ing
  spg : m.testBit 16 = false → t.spg = s.spg
  mill : m.testBit 17 = false → t.mill = s.mill
  tns : m.testBit 18 = false → t.tns = s.tns
  mm : m.testBit 19 = false → t.mm = s.mm
  ssd : m.testBit 20 = false → t.ssd = s.ssd
  frm : m.testBit 21 = false → t.frm = s.frm
  ktl : m.testBit 22 = false → t.ktl = s.ktl
  kln : m.testBit 23 = false → t.kln = s.kln
  csk : m.testBit 24 = false → t.csk = s.csk
  lnk : m.testBit 25 = false → t.lnk = s.lnk
  out : m.testBit 26 = false → t.out = s.out
  free : m.testBit 27 = false → t.free = s.free

theorem keyLe_refl (k : KeySlot) : keyLe k k := ⟨fun h => ⟨h, rfl⟩, id, id, id⟩

theorem otpStep_refl (a : Otp) : otpStep a a := fun h =>
  ⟨h, rfl, rfl, rfl, rfl, rfl, rfl, rfl, Nat.le_refl _, Nat.le_refl _, id, id, fun _ _ => keyLe_refl _, List.prefix_refl _, List.prefix_refl _⟩

theorem otpStep_trans {a b c : Otp} (h : otpStep a b) (k : otpStep b c) : otpStep a c := by
  intro w
  obtain ⟨wb, a1, a2, a3, a4, a5, a6, a7, a8, a9, a10, a11, a12, a13, a14⟩ := h w
  obtain ⟨wc, b1, b2, b3, b4, b5, b6, b7, b8, b9, b10, b11, b12, b13, b14⟩ := k wb
  refine ⟨wc, b1.trans a1, b2.trans a2, b3.trans a3, b4.trans a4, b5.trans a5, b6.trans a6, b7.trans a7, Nat.le_trans a8 b8, Nat.le_trans a9 b9,
    b10 ∘ a10, b11 ∘ a11, fun n hn => ?_, a13.trans b13, a14.trans b14⟩
  obtain ⟨x1, x2, x3, x4⟩ := a12 n hn
  obtain ⟨y1, y2, y3, y4⟩ := b12 n hn
  exact ⟨fun h => ⟨(y1 (x1 h).1).1, (y1 (x1 h).1).2.trans (x1 h).2⟩, y2 ∘ x2, y3 ∘ x3, y4 ∘ x4⟩

theorem Only.refl (m : Nat) (s : State) : Only m s s :=
  ⟨rfl, id, otpStep_refl _, fun _ _ => rfl, fun _ _ _ _ => rfl, fun _ => rfl, fun _ => rfl, fun _ => rfl, fun _ => rfl, fun _ => rfl, fun _ => rfl, fun _ => rfl, fun _ => rfl, fun _ => rfl, fun _ => rfl, fun _ => rfl, fun _ => rfl, fun _ => rfl, fun _ => rfl, fun _ => rfl, fun _ => rfl, fun _ => rfl, fun _ => rfl, fun _ => rfl, fun _ => rfl, fun _ => rfl, fun _ => rfl, fun _ => rfl, fun _ => rfl, fun _ => rfl, fun _ => rfl, fun _ => rfl⟩

theorem Only.trans {m : Nat} {s t u : State} (h : Only m s t) (k : Only m t u) : Only m s u :=
  ⟨k.pending.trans h.pending, k.wf ∘ h.wf, otpStep_trans h.fuses k.fuses,
   fun e f => (k.regs e f).trans (h.regs e f), fun e a d l => (k.words e a d l).trans (h.words e a d l), fun e => (k.mem e).trans (h.mem e), fun e => (k.tally e).trans (h.tally e), fun e => (k.log e).trans (h.log e), fun e => (k.otp e).trans (h.otp e), fun e => (k.fl e).trans (h.fl e), fun e => (k.pw e).trans (h.pw e), fun e => (k.bt e).trans (h.bt e), fun e => (k.tm e).trans (h.tm e), fun e => (k.dspEv e).trans (h.dspEv e), fun e => (k.dsp e).trans (h.dsp e), fun e => (k.hstPba e).trans (h.hstPba e), fun e => (k.hstOut e).trans (h.hstOut e), fun e => (k.hst e).trans (h.hst e), fun e => (k.sec e).trans (h.sec e), fun e => (k.ing e).trans (h.ing e), fun e => (k.spg e).trans (h.spg e), fun e => (k.mill e).trans (h.mill e), fun e => (k.tns e).trans (h.tns e), fun e => (k.mm e).trans (h.mm e), fun e => (k.ssd e).trans (h.ssd e), fun e => (k.frm e).trans (h.frm e), fun e => (k.ktl e).trans (h.ktl e), fun e => (k.kln e).trans (h.kln e), fun e => (k.csk e).trans (h.csk e), fun e => (k.lnk e).trans (h.lnk e), fun e => (k.out e).trans (h.out e), fun e => (k.free e).trans (h.free e)⟩

/-- A wider mask bounds what a narrower one does. -/
theorem Only.widen {n m : Nat} {s t : State} (h : Only n s t) (hm : n &&& m = n) : Only m s t := by
  have b : ∀ k, m.testBit k = false → n.testBit k = false := by
    intro k hk
    rw [← hm, Nat.testBit_and, hk, Bool.and_false]
  have c : ∀ k, n.testBit (28 + k) = true → m.testBit (28 + k) = true := by
    intro k hk
    rw [← hm, Nat.testBit_and, Bool.and_eq_true] at hk
    exact hk.2
  exact ⟨h.pending, h.wf, h.fuses, fun e f => h.regs (b _ e) (by rw [Nat.div_eq_zero_iff_lt (Nat.two_pow_pos _)] at f ⊢; rw [← hm]; exact Nat.lt_of_le_of_lt Nat.and_le_right f), fun e a d l => h.words (b _ e) a d (fun k hk => l k (c k hk)), fun e => h.mem (b _ e), fun e => h.tally (b _ e), fun e => h.log (b _ e), fun e => h.otp (b _ e), fun e => h.fl (b _ e), fun e => h.pw (b _ e), fun e => h.bt (b _ e), fun e => h.tm (b _ e), fun e => h.dspEv (b _ e), fun e => h.dsp (b _ e), fun e => h.hstPba (b _ e), fun e => h.hstOut (b _ e), fun e => h.hst (b _ e), fun e => h.sec (b _ e), fun e => h.ing (b _ e), fun e => h.spg (b _ e), fun e => h.mill (b _ e), fun e => h.tns (b _ e), fun e => h.mm (b _ e), fun e => h.ssd (b _ e), fun e => h.frm (b _ e), fun e => h.ktl (b _ e), fun e => h.kln (b _ e), fun e => h.csk (b _ e), fun e => h.lnk (b _ e), fun e => h.out (b _ e), fun e => h.free (b _ e)⟩

/-- A step within the mask, after steps within it. -/
theorem Only.then {n m : Nat} {s t u : State} (k : Only n t u) (hm : n &&& m = n) (h : Only m s t) : Only m s u := h.trans (k.widen hm)

/-- A state written out, as the second state of the relation. -/
def OnlyLit (m : Nat) (s : State) (xregs : Table Word) (xmem : Memory) (xtally : Table Tally) (xlog : List Evt) (xotp : Otp) (xfl : Flash) (xpw : PwrSt) (xbt : BootSt) (xtm : TimeSt) (xdsp : DspSt) (xhst : HstSt) (xsec : SecSt) (xing : IngSt) (xspg : SpgSt) (xmill : MillSt) (xtns : TnsSt) (xmm : MemSt) (xssd : Ssd) (xfrm : FrmSt) (xktl : KtlSt) (xkln : KlnSt) (xcsk : CskSt) (xlnk : LnkSt) (xout : List Out) (xfree : Nat) (xpending : List Instr) : Prop :=
  Only m s ⟨xregs, xmem, xtally, xlog, xotp, xfl, xpw, xbt, xtm, xdsp, xhst, xsec, xing, xspg, xmill, xtns, xmm, xssd, xfrm, xktl, xkln, xcsk, xlnk, xout, xfree, xpending⟩

theorem Only.lit {m : Nat} {s : State} {xregs : Table Word} {xmem : Memory} {xtally : Table Tally} {xlog : List Evt} {xotp : Otp} {xfl : Flash} {xpw : PwrSt} {xbt : BootSt} {xtm : TimeSt} {xdsp : DspSt} {xhst : HstSt} {xsec : SecSt} {xing : IngSt} {xspg : SpgSt} {xmill : MillSt} {xtns : TnsSt} {xmm : MemSt} {xssd : Ssd} {xfrm : FrmSt} {xktl : KtlSt} {xkln : KlnSt} {xcsk : CskSt} {xlnk : LnkSt} {xout : List Out} {xfree : Nat} {xpending : List Instr} :
    Only m s ⟨xregs, xmem, xtally, xlog, xotp, xfl, xpw, xbt, xtm, xdsp, xhst, xsec, xing, xspg, xmill, xtns, xmm, xssd, xfrm, xktl, xkln, xcsk, xlnk, xout, xfree, xpending⟩ = OnlyLit m s xregs xmem xtally xlog xotp xfl xpw xbt xtm xdsp xhst xsec xing xspg xmill xtns xmm xssd xfrm xktl xkln xcsk xlnk xout xfree xpending := rfl

/-- A record update. -/
theorem Only.upd {m : Nat} {s t : State} (xregs : Table Word) (xmem : Memory) (xtally : Table Tally) (xlog : List Evt) (xotp : Otp) (xfl : Flash) (xpw : PwrSt) (xbt : BootSt) (xtm : TimeSt) (xdsp : DspSt) (xhst : HstSt) (xsec : SecSt) (xing : IngSt) (xspg : SpgSt) (xmill : MillSt) (xtns : TnsSt) (xmm : MemSt) (xssd : Ssd) (xfrm : FrmSt) (xktl : KtlSt) (xkln : KlnSt) (xcsk : CskSt) (xlnk : LnkSt) (xout : List Out) (xfree : Nat) (xpending : List Instr)
    (hpending : xpending = t.pending) (h : Only m s t) (hmem : xmem = t.mem ∨ m.testBit 1 = true ∧ (Memory.wf t.mem = true → Memory.wf xmem = true))
    (hotp : xotp = t.otp ∨ m.testBit 4 = true ∧ otpStep t.otp xotp)
    (hregs : xregs = t.regs ∨ m.testBit 0 = true) (htally : m.testBit 2 = true ∨ xtally = t.tally) (hlog : m.testBit 3 = true ∨ xlog = t.log)
    (hfl : m.testBit 5 = true ∨ xfl = t.fl) (hpw : m.testBit 6 = true ∨ xpw = t.pw) (hbt : m.testBit 7 = true ∨ xbt = t.bt)
    (htm : m.testBit 8 = true ∨ xtm = t.tm) (hdspEv : m.testBit 9 = true ∨ (xdsp.evtSeq, xdsp.folds) = (t.dsp.evtSeq, t.dsp.folds)) (hdsp : m.testBit 10 = true ∨ { xdsp with evtSeq := 0, folds := [] } = { t.dsp with evtSeq := 0, folds := [] })
    (hhstPba : m.testBit 11 = true ∨ xhst.pba = t.hst.pba) (hhstOut : m.testBit 12 = true ∨ xhst.outq = t.hst.outq) (hhst : m.testBit 13 = true ∨ { xhst with pba := [], outq := [] } = { t.hst with pba := [], outq := [] })
    (hsec : m.testBit 14 = true ∨ xsec = t.sec) (hing : m.testBit 15 = true ∨ xing = t.ing) (hspg : m.testBit 16 = true ∨ xspg = t.spg)
    (hmill : m.testBit 17 = true ∨ xmill = t.mill) (htns : m.testBit 18 = true ∨ xtns = t.tns) (hmm : m.testBit 19 = true ∨ xmm = t.mm)
    (hssd : m.testBit 20 = true ∨ xssd = t.ssd) (hfrm : m.testBit 21 = true ∨ xfrm = t.frm) (hktl : m.testBit 22 = true ∨ xktl = t.ktl)
    (hkln : m.testBit 23 = true ∨ xkln = t.kln) (hcsk : m.testBit 24 = true ∨ xcsk = t.csk) (hlnk : m.testBit 25 = true ∨ xlnk = t.lnk)
    (hout : m.testBit 26 = true ∨ xout = t.out) (hfree : m.testBit 27 = true ∨ xfree = t.free) :
    OnlyLit m s xregs xmem xtally xlog xotp xfl xpw xbt xtm xdsp xhst xsec xing xspg xmill xtns xmm xssd xfrm xktl xkln xcsk xlnk xout xfree xpending := by
  unfold OnlyLit
  refine h.trans ⟨hpending, ?_, ?_, ?_, ?_, ?_, ?_, ?_, ?_, ?_, ?_, ?_, ?_, ?_, ?_, ?_, ?_, ?_, ?_, ?_, ?_, ?_, ?_, ?_, ?_, ?_, ?_, ?_, ?_, ?_, ?_, ?_⟩
  · rcases hmem with e | e
    · subst e; exact id
    · exact e.2
  · rcases hotp with e | e
    · subst e; exact otpStep_refl _
    · exact e.2
  rotate_left
  · intro b a d l
    rcases hregs with e | e
    · rw [e]
    · rw [e] at b; cases b
  rotate_right
  · intro b _
    rcases hregs with e | e
    · exact e
    · rw [e] at b; cases b
  all_goals intro b
  all_goals first
    | exact (by rcases hmem with e | e; exact e; rw [e.1] at b; cases b)
    | exact (by rcases hotp with e | e; exact e; rw [e.1] at b; cases b)
    | exact (by rcases htally with e | e; (rw [e] at b; cases b); exact e)
    | exact (by rcases hlog with e | e; (rw [e] at b; cases b); exact e)
    | exact (by rcases hfl with e | e; (rw [e] at b; cases b); exact e)
    | exact (by rcases hpw with e | e; (rw [e] at b; cases b); exact e)
    | exact (by rcases hbt with e | e; (rw [e] at b; cases b); exact e)
    | exact (by rcases htm with e | e; (rw [e] at b; cases b); exact e)
    | exact (by rcases hdspEv with e | e; (rw [e] at b; cases b); exact e)
    | exact (by rcases hdsp with e | e; (rw [e] at b; cases b); exact e)
    | exact (by rcases hhstPba with e | e; (rw [e] at b; cases b); exact e)
    | exact (by rcases hhstOut with e | e; (rw [e] at b; cases b); exact e)
    | exact (by rcases hhst with e | e; (rw [e] at b; cases b); exact e)
    | exact (by rcases hsec with e | e; (rw [e] at b; cases b); exact e)
    | exact (by rcases hing with e | e; (rw [e] at b; cases b); exact e)
    | exact (by rcases hspg with e | e; (rw [e] at b; cases b); exact e)
    | exact (by rcases hmill with e | e; (rw [e] at b; cases b); exact e)
    | exact (by rcases htns with e | e; (rw [e] at b; cases b); exact e)
    | exact (by rcases hmm with e | e; (rw [e] at b; cases b); exact e)
    | exact (by rcases hssd with e | e; (rw [e] at b; cases b); exact e)
    | exact (by rcases hfrm with e | e; (rw [e] at b; cases b); exact e)
    | exact (by rcases hktl with e | e; (rw [e] at b; cases b); exact e)
    | exact (by rcases hkln with e | e; (rw [e] at b; cases b); exact e)
    | exact (by rcases hcsk with e | e; (rw [e] at b; cases b); exact e)
    | exact (by rcases hlnk with e | e; (rw [e] at b; cases b); exact e)
    | exact (by rcases hout with e | e; (rw [e] at b; cases b); exact e)
    | exact (by rcases hfree with e | e; (rw [e] at b; cases b); exact e)

/-! ## Registers -/

/-- The mask of one register. -/
def Reg.mask (r : Reg) : Nat := 2 ^ ((28 + r.ix) / 3) * 2 ^ ((29 + r.ix) / 3) * 2 ^ ((30 + r.ix) / 3)

theorem Reg.mask_eq (r : Reg) : r.mask = 2 ^ (28 + r.ix) := by
  unfold Reg.mask
  rw [← Nat.pow_add, ← Nat.pow_add]
  congr 1
  omega

theorem State.setWord_only {s : State} {r : Reg} {w : Word} {i j : Nat} (h : regOf r.ix = r) : Only r.mask s (s.setWord r w i j) := by
  have h0 : r.mask.testBit 0 = false := by simp [Reg.mask_eq]
  have hb : r.mask.testBit (28 + r.ix) = true := by simp [Reg.mask_eq, Nat.testBit_two_pow_self]
  have hd : ¬ r.mask / 2 ^ 28 = 0 := by
    rw [Reg.mask_eq, Nat.pow_add, Nat.mul_div_cancel_left _ (Nat.two_pow_pos _)]
    exact Nat.ne_of_gt (Nat.two_pow_pos _)
  refine ⟨rfl, id, otpStep_refl _, fun _ e => absurd e hd, fun _ a d e => ?_, fun _ => rfl, fun _ => rfl, fun _ => rfl, fun _ => rfl, fun _ => rfl, fun _ => rfl, fun _ => rfl, fun _ => rfl, fun _ => rfl, fun _ => rfl, fun _ => rfl, fun _ => rfl, fun _ => rfl, fun _ => rfl, fun _ => rfl, fun _ => rfl, fun _ => rfl, fun _ => rfl, fun _ => rfl, fun _ => rfl, fun _ => rfl, fun _ => rfl, fun _ => rfl, fun _ => rfl, fun _ => rfl, fun _ => rfl, fun _ => rfl⟩
  have := e r.ix hb i j
  rw [h] at this
  exact tget_tput_ne _ _ _ _ this

theorem State.setWord_any {s : State} {r : Reg} {w : Word} {i j : Nat} : Only 1 s (s.setWord r w i j) := by
  unfold State.setWord
  simp only [Only.lit]
  apply Only.upd (hpending := rfl) (h := Only.refl _ _) (hregs := Or.inr (by decide)) <;> first | exact Or.inl rfl | exact Or.inr rfl

theorem State.setF_only {s : State} {x : Fld} {v i j : Nat} (h : regOf x.reg.ix = x.reg) : Only x.reg.mask s (s.setF x v i j) := State.setWord_only h
theorem State.setFs_only {s : State} {x : Fld} {v : Int} {i j : Nat} (h : regOf x.reg.ix = x.reg) : Only x.reg.mask s (s.setFs x v i j) :=
  State.setF_only h
theorem State.setB_only {s : State} {x : Fld} {b : Bool} {i j : Nat} (h : regOf x.reg.ix = x.reg) : Only x.reg.mask s (s.setB x b i j) :=
  State.setF_only h
theorem State.addSat_only {s : State} {x : Fld} {n i j : Nat} (h : regOf x.reg.ix = x.reg) : Only x.reg.mask s (s.addSat x n i j) :=
  State.setF_only h
theorem State.addWrap_only {s : State} {x : Fld} {n i j : Nat} (h : regOf x.reg.ix = x.reg) : Only x.reg.mask s (s.addWrap x n i j) :=
  State.setF_only h

theorem and_or_self (a b : Nat) : a &&& (a ||| b) = a := by
  apply Nat.eq_of_testBit_eq; intro i; simp only [Nat.testBit_and, Nat.testBit_or]; cases a.testBit i <;> rfl

theorem State.setPair_only {s : State} {lo hi : Reg} {v i : Nat} (h : regOf lo.ix = lo) (h' : regOf hi.ix = hi) :
    Only (lo.mask ||| hi.mask) s (s.setPair lo hi v i) :=
  ((State.setWord_only h).widen (and_or_self _ _)).trans ((State.setWord_only h').widen (by rw [Nat.or_comm]; exact and_or_self _ _))
theorem State.addPair_only {s : State} {lo hi : Reg} {n i : Nat} (h : regOf lo.ix = lo) (h' : regOf hi.ix = hi) :
    Only (lo.mask ||| hi.mask) s (s.addPair lo hi n i) := State.setPair_only h h'

/-- The bytes that the instances of a register span beyond its first. -/
def Reg.span (r : Reg) : Nat := r.stride * (r.count - 1) + r.stride2 * (r.count2 - 1)

/-- Two registers share no address: they lie apart, or they interleave at one stride. -/
def Reg.clear (r q : Reg) : Bool :=
  decide (0 < r.count) && decide (0 < r.count2) && decide (0 < q.count) && decide (0 < q.count2)
    && (decide (r.base + r.span < q.base) || decide (q.base + q.span < r.base)
      || (decide (r.stride = q.stride) && decide (r.base % r.stride + r.stride2 * (r.count2 - 1) < r.stride)
        && decide (q.base % r.stride + q.stride2 * (q.count2 - 1) < r.stride)
        && (decide (r.base % r.stride + r.stride2 * (r.count2 - 1) < q.base % r.stride)
          || decide (q.base % r.stride + q.stride2 * (q.count2 - 1) < r.base % r.stride))))

theorem Reg.addr_ne {r q : Reg} (h : r.clear q = true) (i j i' j' : Nat) : r.addr i j ≠ q.addr i' j' := by
  simp only [Reg.clear, Bool.and_eq_true, Bool.or_eq_true, decide_eq_true_eq] at h
  obtain ⟨⟨⟨⟨h1, h2⟩, h3⟩, h4⟩, h5⟩ := h
  have a1 : r.stride * (i % r.count) ≤ r.stride * (r.count - 1) := Nat.mul_le_mul_left _ (by have := Nat.mod_lt i h1; omega)
  have a2 : r.stride2 * (j % r.count2) ≤ r.stride2 * (r.count2 - 1) := Nat.mul_le_mul_left _ (by have := Nat.mod_lt j h2; omega)
  have a3 : q.stride * (i' % q.count) ≤ q.stride * (q.count - 1) := Nat.mul_le_mul_left _ (by have := Nat.mod_lt i' h3; omega)
  have a4 : q.stride2 * (j' % q.count2) ≤ q.stride2 * (q.count2 - 1) := Nat.mul_le_mul_left _ (by have := Nat.mod_lt j' h4; omega)
  intro e
  simp only [Reg.addr] at e
  rcases h5 with (h5 | h5) | ⟨⟨⟨h5, h6⟩, h7⟩, h8⟩
  · simp only [Reg.span] at h5; omega
  · simp only [Reg.span] at h5; omega
  · rw [← h5] at e
    have m1 : (r.base + r.stride * (i % r.count) + r.stride2 * (j % r.count2)) % r.stride = r.base % r.stride + r.stride2 * (j % r.count2) := by
      rw [Nat.add_right_comm, Nat.add_mul_mod_self_left, ← Nat.mod_add_mod]
      exact Nat.mod_eq_of_lt (by omega)
    have m2 : (q.base + r.stride * (i' % q.count) + q.stride2 * (j' % q.count2)) % r.stride = q.base % r.stride + q.stride2 * (j' % q.count2) := by
      rw [Nat.add_right_comm, Nat.add_mul_mod_self_left, ← Nat.mod_add_mod]
      exact Nat.mod_eq_of_lt (by omega)
    rw [e, m2] at m1
    omega

/-- Whether a mask leaves a register alone. -/
def spares (m : Nat) (r : Reg) : Bool :=
  !m.testBit 0 && decide (m / 2 ^ 223 / 2 ^ 223 / 2 ^ 222 = 0)
    && (List.range 20).all (fun c => (List.range 32).all (fun i => !m.testBit (28 + (32 * c + i)) || r.clear (regOf (32 * c + i))))

set_option exponentiation.threshold 700 in
/-- A register outside the mask holds what it held. -/
theorem Only.word {m : Nat} {s t : State} (h : Only m s t) (r : Reg) (i j : Nat) (hr : spares m r = true) : t.word r i j = s.word r i j := by
  simp only [spares, Bool.and_eq_true, Bool.not_eq_true', decide_eq_true_eq, List.all_eq_true, List.mem_range, Bool.or_eq_true] at hr
  obtain ⟨⟨h0, h1⟩, h2⟩ := hr
  refine h.words h0 _ _ (fun k hk i' j' => ?_)
  have hlt : k < 640 := by
    apply Nat.lt_of_not_le
    intro c
    have h1' : m < 2 ^ 668 := by
      rw [Nat.div_div_eq_div_mul, Nat.div_div_eq_div_mul, ← Nat.pow_add, ← Nat.pow_add] at h1
      exact (Nat.div_eq_zero_iff_lt (Nat.two_pow_pos _)).mp h1
    have : m < 2 ^ (28 + k) := Nat.lt_of_lt_of_le h1' (Nat.pow_le_pow_right (by decide) (by omega))
    rw [Nat.testBit_lt_two_pow this] at hk
    cases hk
  have := h2 (k / 32) (by omega) (k % 32) (Nat.mod_lt _ (by decide))
  rw [show 32 * (k / 32) + k % 32 = k from Nat.div_add_mod k 32] at this
  rcases this with e | e
  · rw [e] at hk; cases hk
  · exact Reg.addr_ne e i j i' j'

/-- A field outside the mask holds what it held. -/
theorem Only.f {m : Nat} {s t : State} (h : Only m s t) (x : Fld) (i j : Nat) (hr : spares m x.reg = true) : t.f x i j = s.f x i j := by
  simp only [State.f, h.word x.reg i j hr]

/-! ## The OTP -/

/-- A step of the OTP that leaves the key slots and what Glonaro programmed: the other fields may only grow, within their limits. -/
theorem otpStep_of {o : Otp} (v l : Nat) (d u : Bool) (c r : List (Bool × Nat)) (hv : o.svc ≤ v) (hl : o.svcLost ≤ l)
    (hd : o.debugLock = true → d = true) (hu : o.lockUsed = true → u = true) (hc : o.cascade <+: c) (hr : o.retire <+: r)
    (w : otpWf o = true → c.length ≤ 8 ∧ r.length ≤ 32 ∧ v + l ≤ 96 ∧ (d = true → u = true)) :
    otpStep o { o with svc := v, svcLost := l, debugLock := d, lockUsed := u, cascade := c, retire := r } := by
  intro h
  obtain ⟨w1, w2, w3, w4⟩ := w h
  simp only [otpWf, Bool.and_eq_true, decide_eq_true_eq] at h ⊢
  refine ⟨⟨⟨⟨⟨h.1.1.1.1, w1⟩, w2⟩, w3⟩, ?_⟩, rfl, rfl, rfl, rfl, rfl, rfl, rfl, hv, hl, hd, hu, fun _ _ => keyLe_refl _, hc, hr⟩
  cases d <;> simp_all

theorem otpWf_iff {o : Otp} : otpWf o = true ↔ o.keys.length = 4 ∧ o.keys.all keyWf = true ∧ o.cascade.length ≤ 8 ∧ o.retire.length ≤ 32
    ∧ o.svc + o.svcLost ≤ 96 ∧ (o.debugLock = true → o.lockUsed = true) := by
  cases h : o.debugLock <;> simp [otpWf, h, and_assoc]

theorem otpStep_retire {o : Otp} (x : Bool × Nat) (h : o.retire.length < 32) : otpStep o { o with retire := o.retire ++ [x] } :=
  otpStep_of _ _ _ _ _ _ (Nat.le_refl _) (Nat.le_refl _) id id (List.prefix_refl _) (List.prefix_append _ _)
    (fun w => by obtain ⟨_, _, a, _, b, c⟩ := otpWf_iff.mp w; exact ⟨a, by simp; omega, b, c⟩)

theorem otpStep_cascade {o : Otp} (x : Bool × Nat) (h : o.cascade.length < 8) : otpStep o { o with cascade := o.cascade ++ [x] } :=
  otpStep_of _ _ _ _ _ _ (Nat.le_refl _) (Nat.le_refl _) id id (List.prefix_append _ _) (List.prefix_refl _)
    (fun w => by obtain ⟨_, _, _, a, b, c⟩ := otpWf_iff.mp w; exact ⟨by simp; omega, a, b, c⟩)

theorem otpStep_lock (o : Otp) : otpStep o { o with debugLock := true, lockUsed := true } :=
  otpStep_of _ _ _ _ _ _ (Nat.le_refl _) (Nat.le_refl _) (fun _ => rfl) (fun _ => rfl) (List.prefix_refl _) (List.prefix_refl _)
    (fun w => by obtain ⟨_, _, a, b, c, _⟩ := otpWf_iff.mp w; exact ⟨a, b, c, fun _ => rfl⟩)

theorem otpStep_lockUsed (o : Otp) : otpStep o { o with lockUsed := true } :=
  otpStep_of _ _ _ _ _ _ (Nat.le_refl _) (Nat.le_refl _) id (fun _ => rfl) (List.prefix_refl _) (List.prefix_refl _)
    (fun w => by obtain ⟨_, _, a, b, c, _⟩ := otpWf_iff.mp w; exact ⟨a, b, c, fun _ => rfl⟩)

theorem otpStep_svc {o : Otp} {v : Nat} (h : o.svc < Nat.min (96 - o.svcLost) v) :
    otpStep o { o with svc := Nat.min (96 - o.svcLost) v } :=
  otpStep_of _ _ _ _ _ _ (Nat.le_of_lt h) (Nat.le_refl _) id id (List.prefix_refl _) (List.prefix_refl _)
    (fun w => by
      obtain ⟨_, _, a, b, c, d⟩ := otpWf_iff.mp w
      exact ⟨a, b, Nat.le_trans (Nat.add_le_add_right (Nat.min_le_left (96 - o.svcLost) v) _) (by omega), d⟩)

theorem otpStep_svcLost {o : Otp} (h : o.svc + o.svcLost < 96) : otpStep o { o with svcLost := o.svcLost + 1 } :=
  otpStep_of _ _ _ _ _ _ (Nat.le_refl _) (Nat.le_succ _) id id (List.prefix_refl _) (List.prefix_refl _)
    (fun w => by obtain ⟨_, _, a, b, _, d⟩ := otpWf_iff.mp w; exact ⟨a, b, by omega, d⟩)

theorem nth_setNth_same {α : Type} (d : α) (l : List α) (i : Nat) (v : α) (h : i < l.length) : nth d (setNth l i v) i = v := by
  induction l generalizing i with
  | nil => simp at h
  | cons x l ih => cases i with
    | zero => rfl
    | succ i => exact ih i (by simpa using h)

theorem nth_setNth_ne {α : Type} (d : α) (l : List α) {i j : Nat} (v : α) (h : j ≠ i) : nth d (setNth l i v) j = nth d l j := by
  induction l generalizing i j with
  | nil => rfl
  | cons x l ih => cases i with
    | zero => cases j with
      | zero => exact absurd rfl h
      | succ j => rfl
    | succ i => cases j with
      | zero => rfl
      | succ j => exact ih (by omega)

theorem setNth_length {α : Type} (l : List α) (i : Nat) (v : α) : (setNth l i v).length = l.length := by
  induction l generalizing i with
  | nil => rfl
  | cons x l ih => cases i with
    | zero => rfl
    | succ i => simp [setNth, ih]

theorem setNth_all {α : Type} (p : α → Bool) (l : List α) (i : Nat) {v : α} (hv : p v = true) (h : l.all p = true) :
    (setNth l i v).all p = true := by
  induction l generalizing i with
  | nil => rfl
  | cons x l ih =>
    simp only [List.all_cons, Bool.and_eq_true] at h
    cases i with
    | zero => simp [setNth, hv, h.2]
    | succ i => simp [setNth, h.1, ih i h.2]

theorem nth_all {α : Type} (p : α → Bool) {d : α} (hd : p d = true) (l : List α) (j : Nat) (h : l.all p = true) : p (nth d l j) = true := by
  induction l generalizing j with
  | nil => exact hd
  | cons x l ih =>
    simp only [List.all_cons, Bool.and_eq_true] at h
    cases j with
    | zero => exact h.1
    | succ j => exact ih j h.2

/-- A key slot changes one way. -/
theorem otpStep_key {o : Otp} (n : Nat) {k : KeySlot}
    (hle : keyWf (nth {} o.keys n) = true → keyWf k = true ∧ keyLe (nth {} o.keys n) k) : otpStep o { o with keys := setNth o.keys n k } := by
  intro w
  obtain ⟨w1, w2, w3⟩ := otpWf_iff.mp w
  have hk := hle (nth_all keyWf rfl _ n w2)
  refine ⟨otpWf_iff.mpr ⟨by simp [setNth_length, w1], setNth_all _ _ _ hk.1 w2, w3⟩, rfl, rfl, rfl, rfl, rfl, rfl, rfl,
    Nat.le_refl _, Nat.le_refl _, id, id, fun j hj => ?_, List.prefix_refl _, List.prefix_refl _⟩
  by_cases e : j = n
  · subst e
    rw [nth_setNth_same _ _ _ _ (by omega)]
    exact hk.2
  · rw [nth_setNth_ne _ _ _ e]; exact keyLe_refl _

theorem keyUse {k : KeySlot} (h : k.used ≠ true) (w : keyWf k = true) :
    keyWf { k with used := true } = true ∧ keyLe k { k with used := true } := by
  obtain ⟨u, p, r, d, v⟩ := k; cases u <;> cases p <;> cases r <;> cases v <;> simp_all [keyWf, keyLe]

theorem keyRevUse {k : KeySlot} (h : ¬ ((!k.programmed) = true ∨ k.revUsed = true)) (w : keyWf k = true) :
    keyWf { k with revUsed := true } = true ∧ keyLe k { k with revUsed := true } := by
  obtain ⟨u, p, r, d, v⟩ := k; cases u <;> cases p <;> cases r <;> cases v <;> simp_all [keyWf, keyLe]

/-- A choice between two steps within the mask. -/
theorem Only.ite {c : Prop} [Decidable c] {m : Nat} {s t u : State} (ht : Only m s t) (hu : Only m s u) : Only m s (if c then t else u) := by
  split
  · exact ht
  · exact hu

/-! ## Folds -/

/-- What a telemetry register takes changes no more than what sets it, and when it did. -/
theorem State.tele_only {m : Nat} {s t : State} {r : Reg} {set : State → State} {i : Nat} (hm : 0x400 &&& m = 0x400) (h : Only m t s)
    (hs : ∀ u : State, Only m t u → Only m t (set u)) : Only m t (s.tele r set i) := by
  unfold State.tele
  dsimp only
  split
  · exact hs s h
  · split
    · refine Only.then (n := 0x400) ?_ hm (hs s h)
      simp only [Only.lit]
      apply Only.upd (hpending := rfl) (h := Only.refl _ _) <;> first | exact Or.inl rfl | exact Or.inr rfl
    · exact h
  · exact h


/-- A fold of steps within the mask, with an accumulator beside the state. -/
theorem Only.foldl1 {α β : Type} {m : Nat} {s : State} {t : State × β} {f : State × β → α → State × β} (l : List α)
    (hf : ∀ u x, Only m s u.1 → Only m s (f u x).1) (h : Only m s t.1) : Only m s (l.foldl f t).1 := by
  induction l generalizing t with
  | nil => exact h
  | cons x l ih => exact ih (hf t x h)

/-- A fold of steps within the mask. -/
theorem Only.foldl {α : Type} {m : Nat} {s t : State} {f : State → α → State} (l : List α)
    (hf : ∀ u x, Only m s u → Only m s (f u x)) (h : Only m s t) : Only m s (l.foldl f t) := by
  induction l generalizing t with
  | nil => exact h
  | cons x l ih => exact ih (hf t x h)

theorem State.setKey_only {s : State} {n : Nat} {k : KeySlot}
    (h : keyWf (nth {} s.otp.keys n) = true → keyWf k = true ∧ keyLe (nth {} s.otp.keys n) k) : Only 16 s (s.setKey n k) := by
  unfold State.setKey
  simp only [Only.lit]
  apply Only.upd (hpending := rfl) (h := Only.refl _ _) (hotp := Or.inr ⟨rfl, otpStep_key n h⟩) <;> first | exact Or.inl rfl | exact Or.inr rfl

/-- A step of the OTP alone. -/
theorem Only.ofOtp {s : State} {o : Otp} (h : otpStep s.otp o) : Only 48 s { s with otp := o } := by
  simp only [Only.lit]
  apply Only.upd (hpending := rfl) (h := Only.refl _ _) (hotp := Or.inr ⟨rfl, h⟩) <;> first | exact Or.inl rfl | exact Or.inr rfl

/-- A step of the flash alone. -/
theorem Only.ofFl {s : State} {f : Flash} : Only 48 s { s with fl := f } := by
  simp only [Only.lit]
  apply Only.upd (hpending := rfl) (h := Only.refl _ _) <;> first | exact Or.inl rfl | exact Or.inr rfl

/-- Dropping bytes keeps memory canonical. -/
theorem Memory.wf_filter {m : Memory} (p : Host.Cell → Bool) (h : m.wf = true) : Memory.wf (m.filter p) = true := Canon.filter h p

/-- Filling keeps memory canonical. -/
theorem Memory.wf_fill {m : Memory} (but : List (Nat × Nat)) (l : List (Nat × Byte)) (h : m.wf = true) : (m.fill but l).wf = true := by
  induction l generalizing m with
  | nil => exact h
  | cons x l ih =>
    refine ih (m := if but.any (fun r => decide (r.1 ≤ x.1) && decide (x.1 < r.1 + r.2)) then m else m.write x.1 x.2) ?_
    split
    · exact h
    · exact Memory.wf_write h _ _

end Sys2Proof.Machine
end

