-- ==== Sys2Proof/Laws/BoundOps.lean ====
section
/-!
SUPPORT. What each function of Machine/Ops.lean can change at most.
-/

namespace Sys2Proof.Machine
open Sys2Proof Sys2Proof.Safety

theorem State.emit_only {s : State} {x1 : _} : Only 0x4000000 s (State.emit s x1) := by
  unfold State.emit
  repeat' first
    | decide
    | with_reducible exact Only.refl _ _
    | (simp only [Only.lit]; with_reducible apply Only.upd (hpending := rfl) <;> first | exact Or.inl rfl | exact Or.inr (by with_reducible rfl) | skip)

theorem State.countUe_only {s : State} {x1 : _} {x2 : _} : Only 0x10041300000000000000000000000000000000000000000000000000000000000000000000000 s (State.countUe s x1 x2) := by
  unfold State.countUe
  repeat' first
    | decide
    | with_reducible exact Only.refl _ _
    | with_reducible apply Only.then (State.addSat_only ?_)
    | split
    | dsimp only

theorem State.wrLine_only {s : State} {x1 : _} {x2 : _} {x3 : _} : Only 0x10041300000000000000000000000000000000000000000000000000000000000000000080002 s (State.wrLine s x1 x2 x3) := by
  unfold State.wrLine
  repeat' first
    | decide
    | with_reducible exact Only.refl _ _
    | with_reducible apply Only.then State.countUe_only
    | split
    | dsimp only
    | (simp only [Only.lit]; with_reducible apply Only.upd (hpending := rfl) <;> first | exact Or.inl rfl | exact Or.inr (by with_reducible rfl) | exact Or.inr ⟨rfl, fun w => Memory.wf_writeList _ w _⟩ | skip)

theorem State.setPg_only {s : State} {x1 : _} {x2 : _} : Only 0x80000 s (State.setPg s x1 x2) := by
  unfold State.setPg
  repeat' first
    | with_reducible assumption
    | decide
    | with_reducible exact Only.refl _ _
    | with_reducible apply Only.foldl
    | with_reducible apply Only.foldl1
    | intro _ _ _
    | split
    | dsimp only
    | (simp only [Only.lit]; with_reducible apply Only.upd (hpending := rfl) <;> first | exact Or.inl rfl | exact Or.inr (by with_reducible rfl) | skip)

theorem State.touch_only {s : State} {x1 : _} {x2 : _} {x3 : _} : Only 0x80000 s (State.touch s x1 x2 x3) := by
  unfold State.touch
  repeat' first
    | with_reducible assumption
    | decide
    | with_reducible exact Only.refl _ _
    | with_reducible apply Only.then State.setPg_only
    | with_reducible apply Only.foldl
    | with_reducible apply Only.foldl1
    | intro _ _ _
    | split
    | dsimp only

theorem State.markStore_only {s : State} {x1 : _} {x2 : _} : Only 0x80000 s (State.markStore s x1 x2) := by
  unfold State.markStore
  repeat' first
    | with_reducible assumption
    | decide
    | with_reducible exact Only.refl _ _
    | with_reducible apply Only.then State.touch_only
    | with_reducible apply Only.foldl
    | with_reducible apply Only.foldl1
    | intro _ _ _
    | split
    | dsimp only
    | (simp only [Only.lit]; with_reducible apply Only.upd (hpending := rfl) <;> first | exact Or.inl rfl | exact Or.inr (by with_reducible rfl) | skip)

theorem State.wrList_only {s : State} {x1 : _} {x2 : _} : Only 0x10041300000000000000000000000000000000000000000000000000000000000000000080002 s (State.wrList s x1 x2) := by
  unfold State.wrList
  repeat' first
    | with_reducible assumption
    | decide
    | with_reducible exact Only.refl _ _
    | with_reducible apply Only.then State.markStore_only
    | with_reducible apply Only.then State.wrLine_only
    | with_reducible apply Only.foldl
    | with_reducible apply Only.foldl1
    | intro _ _ _
    | split
    | dsimp only
    | (simp only [Only.lit]; with_reducible apply Only.upd (hpending := rfl) <;> first | exact Or.inl rfl | exact Or.inr (by with_reducible rfl) | exact Or.inr ⟨rfl, fun w => Memory.wf_writeList _ w _⟩ | skip)

theorem State.wrNum_only {s : State} {x1 : _} {x2 : _} {x3 : _} : Only 0x10041300000000000000000000000000000000000000000000000000000000000000000080002 s (State.wrNum s x1 x2 x3) := by
  unfold State.wrNum
  repeat' first
    | decide
    | with_reducible exact Only.refl _ _
    | with_reducible apply Only.then State.wrList_only

theorem State.publish_only {s : State} {x1 : _} {x2 : _} {x3 : _} {x4 : _} {x5 : _} : Only 0x1000 s (State.publish s x1 x2 x3 x4 x5) := by
  unfold State.publish
  repeat' first
    | decide
    | with_reducible exact Only.refl _ _
    | dsimp only
    | (simp only [Only.lit]; with_reducible apply Only.upd (hpending := rfl) <;> first | exact Or.inl rfl | exact Or.inr (by with_reducible rfl) | skip)

theorem State.used_only {s : State} : Only 0x8000000 s (State.used s) := by
  unfold State.used
  repeat' first
    | decide
    | with_reducible exact Only.refl _ _
    | (simp only [Only.lit]; with_reducible apply Only.upd (hpending := rfl) <;> first | exact Or.inl rfl | exact Or.inr (by with_reducible rfl) | skip)

theorem State.putSetting_only {s : State} {x1 : _} : Only 0x3fffffffffffffffffffffffffffffffffffffffffffffffffffffffffffffffffffffffffffffffffffffffffffffffffffffffffffffffffffffffffffffffffffffffffffffffffffffffff0000001 s (State.putSetting s x1) := by
  unfold State.putSetting
  repeat' first
    | decide
    | with_reducible exact Only.refl _ _
    | with_reducible apply Only.then State.setWord_any
    | split
    | dsimp only

theorem State.putSettings_only {s : State} {x1 : _} : Only 0x3fffffffffffffffffffffffffffffffffffffffffffffffffffffffffffffffffffffffffffffffffffffffffffffffffffffffffffffffffffffffffffffffffffffffffffffffffffffffff0000001 s (State.putSettings s x1) := by
  unfold State.putSettings
  repeat' first
    | with_reducible assumption
    | decide
    | with_reducible exact Only.refl _ _
    | with_reducible apply Only.then State.putSetting_only
    | with_reducible apply Only.foldl
    | with_reducible apply Only.foldl1
    | intro _ _ _
    | dsimp only

theorem State.takeDeferred_only {s : State} {x1 : _} : Only 0x3fffffffffffffffffffffffffffffffffffffffffffffffffffffffffffffffffffffffffffffffffffffffffffffffffffffffffffffffffffffffffffffffffffffffffffffffffffffffff0004001 s (State.takeDeferred s x1) := by
  unfold State.takeDeferred
  repeat' first
    | with_reducible assumption
    | decide
    | with_reducible exact Only.refl _ _
    | with_reducible apply Only.then State.putSetting_only
    | with_reducible apply Only.foldl
    | with_reducible apply Only.foldl1
    | intro _ _ _
    | split
    | dsimp only
    | (simp only [Only.lit]; with_reducible apply Only.upd (hpending := rfl) <;> first | exact Or.inl rfl | exact Or.inr (by with_reducible rfl) | skip)

theorem State.wrHere_only {s : State} {x1 : _} {x2 : _} : Only 0x10041300000000000000000000000000000000000000000000000000000000000000000080002 s (State.wrHere s x1 x2) := by
  unfold State.wrHere
  repeat' first
    | with_reducible assumption
    | decide
    | with_reducible exact Only.refl _ _
    | with_reducible apply Only.then State.wrList_only
    | with_reducible apply Only.foldl
    | with_reducible apply Only.foldl1
    | intro _ _ _
    | split
    | dsimp only
    | (simp only [Only.lit]; with_reducible apply Only.upd (hpending := rfl) <;> first | exact Or.inl rfl | exact Or.inr (by with_reducible rfl) | skip)

end Sys2Proof.Machine
end

