-- ==== Sys2Proof/Laws/BoundFlags.lean ====
section
/-!
SUPPORT. What each function of Machine/Flags.lean can change at most.
-/

namespace Sys2Proof.Machine
open Sys2Proof Sys2Proof.Safety

theorem State.setEvt_only {s : State} {x1 x2 : Nat} : Only 0x20002000000100000000000200000010000000000100000000000008000000000001000000000002000000000000400000000100000000000002000000000020000000800004000008000000000000 s (s.setEvt x1 x2) := by
  unfold State.setEvt
  split
  · next r h =>
    unfold evtReg at h
    split at h <;> first | cases h; done | (cases h; exact (State.setWord_only (by decide)).widen (by decide))
  · exact Only.refl _ _

end Sys2Proof.Machine
end

