-- ==== Sys2Proof/Laws/BoundRing.lean ====
section
/-!
SUPPORT. What each function of Machine/Ring.lean can change at most.
-/

namespace Sys2Proof.Machine
open Sys2Proof Sys2Proof.Safety

theorem State.setLinkPort_only {s : State} {x1 : _} {x2 : _} : Only 0x2000000 s (State.setLinkPort s x1 x2) := by
  unfold State.setLinkPort
  repeat' first
    | decide
    | with_reducible exact Only.refl _ _
    | dsimp only
    | (simp only [Only.lit]; with_reducible apply Only.upd (hpending := rfl) <;> first | exact Or.inl rfl | exact Or.inr (by with_reducible rfl) | skip)

theorem State.txFrame_only {s : State} {x1 : _} {x2 : _} {x3 : _} {x4 : _} {x5 : _} : Only 0x6000000 s (State.txFrame s x1 x2 x3 x4 x5) := by
  unfold State.txFrame
  repeat' first
    | decide
    | with_reducible exact Only.refl _ _
    | with_reducible apply Only.then State.setLinkPort_only
    | with_reducible apply Only.then State.emit_only
    | split
    | dsimp only

theorem State.txTo_only {s : State} {x1 : _} {x2 : _} : Only 0x6000000 s (State.txTo s x1 x2) := by
  unfold State.txTo
  repeat' first
    | decide
    | with_reducible exact Only.refl _ _
    | with_reducible apply Only.then State.txFrame_only
    | split
    | dsimp only

theorem State.forwardJoin_only {s : State} {x1 : _} {x2 : _} {x3 : _} : Only 0x6000000 s (State.forwardJoin s x1 x2 x3) := by
  unfold State.forwardJoin
  repeat' first
    | with_reducible assumption
    | decide
    | with_reducible exact Only.refl _ _
    | with_reducible apply Only.then State.txTo_only
    | with_reducible apply Only.foldl
    | with_reducible apply Only.foldl1
    | intro _ _ _
    | split
    | dsimp only

theorem State.txAll_only {s : State} {x1 : _} : Only 0x6000000 s (State.txAll s x1) := by
  unfold State.txAll
  repeat' first
    | decide
    | with_reducible exact Only.refl _ _
    | with_reducible apply Only.then State.txFrame_only

theorem State.sendKept_only {s : State} {x1 : _} {x2 : _} {x3 : _} : Only 0x6000000 s (State.sendKept s x1 x2 x3) := by
  unfold State.sendKept
  repeat' first
    | decide
    | with_reducible exact Only.refl _ _
    | with_reducible apply Only.then State.txAll_only
    | with_reducible apply Only.then State.txTo_only
    | split
    | dsimp only
    | (simp only [Only.lit]; with_reducible apply Only.upd (hpending := rfl) <;> first | exact Or.inl rfl | exact Or.inr (by with_reducible rfl) | skip)

theorem State.tallyFrame_only {s : State} {x1 : _} {x2 : _} {x3 : _} : Only 0x20000000000000000000000000000000000000000000000000000000000000000000000000000000000000000000000000000000000000000000000000000000000000000000006000000 s (State.tallyFrame s x1 x2 x3) := by
  unfold State.tallyFrame
  repeat' first
    | with_reducible assumption
    | decide
    | with_reducible exact Only.refl _ _
    | with_reducible apply Only.then State.forwardJoin_only
    | with_reducible apply Only.then State.sendKept_only
    | with_reducible apply Only.then (State.addWrap_only ?_)
    | with_reducible apply Only.foldl
    | with_reducible apply Only.foldl1
    | intro _ _ _
    | split
    | dsimp only

theorem State.sendTally_only {s : State} {x1 : _} {x2 : _} {x3 : _} : Only 0x20000000000000000000000000000000000000000000000000000000000000000000000000000000000000000000000000000000000000000000000000000000000000000000006000000 s (State.sendTally s x1 x2 x3) := by
  unfold State.sendTally
  repeat' first
    | decide
    | with_reducible exact Only.refl _ _
    | with_reducible apply Only.then State.tallyFrame_only
    | with_reducible apply Only.then State.forwardJoin_only
    | with_reducible apply Only.then (State.addWrap_only ?_)
    | with_reducible apply Only.then State.sendKept_only
    | split
    | dsimp only
    | (simp only [Only.lit]; with_reducible apply Only.upd (hpending := rfl) <;> first | exact Or.inl rfl | exact Or.inr (by with_reducible rfl) | skip)

theorem State.sendMsg_only {s : State} {x1 : _} {x2 : _} {x3 : _} : Only 0x6000000 s (State.sendMsg s x1 x2 x3) := by
  unfold State.sendMsg
  repeat' first
    | decide
    | with_reducible exact Only.refl _ _
    | with_reducible apply Only.then State.sendKept_only

theorem State.writeOver_only {s : State} {x1 : _} : Only 0x20000000000000000000000000000000000000000000000000000000000000000000000000000000000000000000000000000000000000000000000000000000000000000000006000000 s (State.writeOver s x1) := by
  unfold State.writeOver
  repeat' first
    | with_reducible assumption
    | decide
    | with_reducible exact Only.refl _ _
    | with_reducible apply Only.then State.tallyFrame_only
    | with_reducible apply Only.foldl
    | with_reducible apply Only.foldl1
    | intro _ _ _
    | split
    | dsimp only
    | (simp only [Only.lit]; with_reducible apply Only.upd (hpending := rfl) <;> first | exact Or.inl rfl | exact Or.inr (by with_reducible rfl) | skip)

theorem State.askPage_only {s : State} {x1 : _} {x2 : _} : Only 0x6000000 s (State.askPage s x1 x2) := by
  unfold State.askPage
  repeat' first
    | with_reducible assumption
    | decide
    | with_reducible exact Only.refl _ _
    | with_reducible apply Only.then State.sendMsg_only
    | with_reducible apply Only.foldl
    | with_reducible apply Only.foldl1
    | intro _ _ _
    | split
    | dsimp only
    | (simp only [Only.lit]; with_reducible apply Only.upd (hpending := rfl) <;> first | exact Or.inl rfl | exact Or.inr (by with_reducible rfl) | skip)

theorem State.ship_only {s : State} {x1 : _} {x2 : _} {x3 : _} : Only 0x6000000 s (State.ship s x1 x2 x3) := by
  unfold State.ship
  repeat' first
    | with_reducible assumption
    | decide
    | with_reducible exact Only.refl _ _
    | with_reducible apply Only.then State.sendMsg_only
    | with_reducible apply Only.foldl
    | with_reducible apply Only.foldl1
    | intro _ _ _
    | split
    | dsimp only
    | (simp only [Only.lit]; with_reducible apply Only.upd (hpending := rfl) <;> first | exact Or.inl rfl | exact Or.inr (by with_reducible rfl) | skip)

theorem State.shipStores_only {s : State} : Only 0x6080000 s (State.shipStores s) := by
  unfold State.shipStores
  repeat' first
    | with_reducible assumption
    | decide
    | with_reducible exact Only.refl _ _
    | with_reducible apply Only.then State.ship_only
    | with_reducible apply Only.foldl
    | with_reducible apply Only.foldl1
    | intro _ _ _
    | split
    | dsimp only
    | (simp only [Only.lit]; with_reducible apply Only.upd (hpending := rfl) <;> first | exact Or.inl rfl | exact Or.inr (by with_reducible rfl) | skip)

end Sys2Proof.Machine
end

