-- ==== Sys2Proof/Laws/BoundEvents.lean ====
section
/-!
SUPPORT. What each function of Machine/Events.lean can change at most.
-/

namespace Sys2Proof.Machine
open Sys2Proof Sys2Proof.Safety

theorem State.irq_only {s : State} {x1 : _} {x2 : _} : Only 0x4000800 s (State.irq s x1 x2) := by
  unfold State.irq
  repeat' first
    | decide
    | with_reducible exact Only.refl _ _
    | with_reducible apply Only.then State.emit_only
    | split
    | dsimp only
    | (simp only [Only.lit]; with_reducible apply Only.upd (hpending := rfl) <;> first | exact Or.inl rfl | exact Or.inr (by with_reducible rfl) | skip)

theorem State.pushEvt_only {s : State} {x1 : _} {x2 : _} {x3 : _} {x4 : _} {x5 : _} {x6 : _} {x7 : _} {x8 : _} : Only 0x300000000000000000000000000000000000000000000000000000000000000000000000000000000000000000000000000000000000000000000000000004000a08 s (State.pushEvt s x1 x2 x3 x4 x5 x6 x7 x8) := by
  unfold State.pushEvt
  repeat' first
    | decide
    | with_reducible exact Only.refl _ _
    | with_reducible apply Only.then (State.setPair_only ?_ ?_)
    | with_reducible apply Only.then State.irq_only
    | split
    | dsimp only
    | (simp only [Only.lit]; with_reducible apply Only.upd (hpending := rfl) <;> first | exact Or.inl rfl | exact Or.inr (by with_reducible rfl) | skip)

theorem State.flushFold_only {s : State} {x1 : _} {x2 : _} {x3 : _} : Only 0x300000000000000000000000000000000000000000000000000000000000000000000000000000000000000000000000000000000000000000000000000004000a08 s (State.flushFold s x1 x2 x3) := by
  unfold State.flushFold
  repeat' first
    | decide
    | with_reducible exact Only.refl _ _
    | with_reducible apply Only.then State.pushEvt_only
    | split
    | dsimp only
    | (simp only [Only.lit]; with_reducible apply Only.upd (hpending := rfl) <;> first | exact Or.inl rfl | exact Or.inr (by with_reducible rfl) | skip)

theorem State.endFold_only {s : State} {x1 : _} {x2 : _} {x3 : _} : Only 0x300000000000000000000000000000000000000000000000000000000000000000000000000000000000000000000000000000000000000000000000000004000a08 s (State.endFold s x1 x2 x3) := by
  unfold State.endFold
  repeat' first
    | decide
    | with_reducible exact Only.refl _ _
    | with_reducible apply Only.then State.flushFold_only
    | split
    | dsimp only

theorem State.logEvt_only {s : State} {x1 : _} {x2 : _} {x3 : _} {x4 : _} {x5 : _} {x6 : _} : Only 0x380000000000000000000000000000000000000000000000000000000000000000000000000000000000000000000000000000000000000000000000000004000a08 s (State.logEvt s x1 x2 x3 x4 x5 x6) := by
  unfold State.logEvt
  repeat' first
    | decide
    | with_reducible exact Only.refl _ _
    | with_reducible apply Only.then (State.addSat_only ?_)
    | with_reducible apply Only.then State.endFold_only
    | with_reducible apply Only.then State.pushEvt_only
    | split
    | dsimp only
    | (simp only [Only.lit]; with_reducible apply Only.upd (hpending := rfl) <;> first | exact Or.inl rfl | exact Or.inr (by with_reducible rfl) | skip)

theorem State.event_only {s : State} {x1 : _} {x2 : _} {x3 : _} {x4 : _} {x5 : _} {x6 : _} : Only 0x20002000000100000000000200380010000000000100000000000008000000000001000000000002000000000000400000000100000000000002000000000020000000800004000008000004000a08 s (State.event s x1 x2 x3 x4 x5 x6) := by
  unfold State.event
  repeat' first
    | decide
    | with_reducible exact Only.refl _ _
    | with_reducible apply Only.then State.setEvt_only
    | with_reducible apply Only.then State.logEvt_only
    | split
    | dsimp only

theorem State.hitSlot_only {s : State} {x1 : _} : Only 0x11800000000000000000000000000000000000000000000000000000000000000000000000000000000000000000000000000000000000000000000000000004000800 s (State.hitSlot s x1) := by
  unfold State.hitSlot
  repeat' first
    | decide
    | with_reducible exact Only.refl _ _
    | with_reducible apply Only.then (State.setB_only ?_)
    | with_reducible apply Only.then (State.setWord_only ?_)
    | with_reducible apply Only.then State.irq_only
    | split
    | dsimp only

theorem State.testSlot_only {s : State} {x1 : _} : Only 0x11800000000000000000000000000000000000000000000000000000000000000000000000000000000000000000000000000000000000000000000000000004000800 s (State.testSlot s x1) := by
  unfold State.testSlot
  repeat' first
    | decide
    | with_reducible exact Only.refl _ _
    | with_reducible apply Only.then State.hitSlot_only
    | split

theorem State.testSlots_only {s : State} {x1 : _} : Only 0x11800000000000000000000000000000000000000000000000000000000000000000000000000000000000000000000000000000000000000000000000000004000800 s (State.testSlots s x1) := by
  unfold State.testSlots
  repeat' first
    | with_reducible assumption
    | decide
    | with_reducible exact Only.refl _ _
    | with_reducible apply Only.then State.testSlot_only
    | with_reducible apply Only.foldl
    | with_reducible apply Only.foldl1
    | intro _ _ _
    | split
    | dsimp only

theorem State.applyAdvance_only {s : State} {x1 : _} {x2 : _} {x3 : _} : Only 0x20002000000100000000000211b80010000000000100000000000008000000000001000000000002000000000000400000000100000000000002000000000020000000800004000008000004000e0c s (State.applyAdvance s x1 x2 x3) := by
  unfold State.applyAdvance
  repeat' first
    | decide
    | with_reducible exact Only.refl _ _
    | with_reducible apply Only.then State.event_only
    | with_reducible apply Only.then State.testSlots_only
    | split
    | dsimp only
    | (simp only [Only.lit]; with_reducible apply Only.upd (hpending := rfl) <;> first | exact Or.inl rfl | exact Or.inr (by with_reducible rfl) | skip)

theorem State.advanceRaw_only {s : State} {x1 : _} {x2 : _} {x3 : _} {x4 : _} : Only 0x20002000020100000000000211b80010000000000100000000000008000000000001000000000002000000000000400000000100000000000002000000000020000000800004000008000006080e0c s (State.advanceRaw s x1 x2 x3 x4) := by
  unfold State.advanceRaw
  repeat' first
    | decide
    | with_reducible exact Only.refl _ _
    | with_reducible apply Only.then State.shipStores_only
    | with_reducible apply Only.then State.applyAdvance_only
    | with_reducible apply Only.then State.sendTally_only
    | with_reducible apply Only.then State.event_only
    | split
    | dsimp only

theorem State.creditTask_only {s : State} {x1 : _} {x2 : _} {x3 : _} : Only 0x400 s (State.creditTask s x1 x2 x3) := by
  unfold State.creditTask
  repeat' first
    | decide
    | with_reducible exact Only.refl _ _
    | split
    | dsimp only
    | (simp only [Only.lit]; with_reducible apply Only.upd (hpending := rfl) <;> first | exact Or.inl rfl | exact Or.inr (by with_reducible rfl) | skip)

theorem State.advance_only {s : State} {x1 : _} {x2 : _} {x3 : _} {x4 : _} : Only 0x20002000020100000000000211b80010000000000100000000000008000000000001000000000002000000000000400000000100000000000002000000000020000000800004000008000006080e0c s (State.advance s x1 x2 x3 x4) := by
  unfold State.advance
  repeat' first
    | decide
    | with_reducible exact Only.refl _ _
    | with_reducible apply Only.then State.advanceRaw_only
    | with_reducible apply Only.then State.creditTask_only
    | split

theorem State.warnOpen_only {s : State} {x1 : _} {x2 : _} {x3 : _} : Only 0x30000000000000000000000000000000000000000000000000000000000000000000000000000000000000000000000000000000000000000000000000000c000a08 s (State.warnOpen s x1 x2 x3) := by
  unfold State.warnOpen
  repeat' first
    | decide
    | with_reducible exact Only.refl _ _
    | with_reducible apply Only.then State.used_only
    | with_reducible apply Only.then (State.setPair_only ?_ ?_)
    | with_reducible apply Only.then State.irq_only
    | split
    | dsimp only
    | (simp only [Only.lit]; with_reducible apply Only.upd (hpending := rfl) <;> first | exact Or.inl rfl | exact Or.inr (by with_reducible rfl) | skip)

theorem State.eventIf_only {s : State} {x1 : _} {x2 : _} {x3 : _} {x4 : _} {x5 : _} {x6 : _} {x7 : _} : Only 0x20002000000100000000000200380010000000000100000000000008000000000001000000000002000000000000400000000100000000000002000000000020000000800004000008000004000a08 s (State.eventIf s x1 x2 x3 x4 x5 x6 x7) := by
  unfold State.eventIf
  repeat' first
    | decide
    | with_reducible exact Only.refl _ _
    | with_reducible apply Only.then State.event_only
    | split

theorem State.logHidden_only {s : State} {x1 : _} {x2 : _} {x3 : _} {x4 : _} {x5 : _} : Only 0x20002000000100000000000200380010000000000100000000000008000000000001000000000002000000000000400000000100000000000002000000000020000000800004000008000004000a08 s (State.logHidden s x1 x2 x3 x4 x5) := by
  unfold State.logHidden
  repeat' first
    | with_reducible assumption
    | decide
    | with_reducible exact Only.refl _ _
    | with_reducible apply Only.then State.event_only
    | with_reducible apply Only.then State.logEvt_only
    | with_reducible apply Only.foldl
    | with_reducible apply Only.foldl1
    | intro _ _ _
    | split
    | dsimp only

theorem State.poisonTask_only {s : State} {x1 : _} : Only 0x20002000000100000000000200380110000000000100000000000008000000000001000000000002000000000000400000000100000000000002000000000020000000800004000008000004000a08 s (State.poisonTask s x1) := by
  unfold State.poisonTask
  repeat' first
    | with_reducible assumption
    | decide
    | with_reducible exact Only.refl _ _
    | with_reducible apply Only.then State.event_only
    | with_reducible apply Only.then (State.addSat_only ?_)
    | with_reducible apply Only.foldl
    | with_reducible apply Only.foldl1
    | intro _ _ _
    | split
    | dsimp only

end Sys2Proof.Machine
end

