-- ==== Sys2Proof/Laws/BoundUnits.lean ====
section
/-!
SUPPORT. What each function of Machine/Units.lean can change at most.
-/

namespace Sys2Proof.Machine
open Sys2Proof Sys2Proof.Safety

theorem State.putPlace_only {s : State} {x1 : _} {x2 : _} {x3 : _} {x4 : _} : Only 0x400 s (State.putPlace s x1 x2 x3 x4) := by
  unfold State.putPlace
  repeat' first
    | decide
    | with_reducible exact Only.refl _ _
    | split
    | dsimp only
    | (simp only [Only.lit]; with_reducible apply Only.upd (hpending := rfl) <;> first | exact Or.inl rfl | exact Or.inr (by with_reducible rfl) | skip)

theorem State.syncBlock_only {s : State} {x1 : _} : Only 0x280000000000014000000000002800000000000000000000000000000000680000000000005000000000000000000000000000000000000000000 s (State.syncBlock s x1) := by
  unfold State.syncBlock
  repeat' first
    | decide
    | with_reducible exact Only.refl _ _
    | with_reducible apply Only.then (State.setF_only ?_)
    | split
    | dsimp only

theorem State.syncCls_only {s : State} {x1 : _} : Only 0xe000000000000000000000000000000000000000000000000000000000000000000000000000000000000000000000000000000000000000000000000000000000000 s (State.syncCls s x1) := by
  unfold State.syncCls
  repeat' first
    | decide
    | with_reducible exact Only.refl _ _
    | with_reducible apply Only.then (State.setF_only ?_)
    | split
    | dsimp only

theorem State.syncUnits_only {s : State} {x1 : _} : Only 0xe000000000000000280000000000014000000000002800000000000000000000000000000000680000000000005000000000000000000000000000000000000000000 s (State.syncUnits s x1) := by
  unfold State.syncUnits
  repeat' first
    | decide
    | with_reducible exact Only.refl _ _
    | with_reducible apply Only.then State.syncBlock_only
    | with_reducible apply Only.then State.syncCls_only

theorem State.syncAll_only {s : State} : Only 0xe000000000000000280000000000014000000000002800000000000000000000000000000000680000000000005000000000000000000000000000000000000000000 s (State.syncAll s) := by
  unfold State.syncAll
  repeat' first
    | with_reducible assumption
    | decide
    | with_reducible exact Only.refl _ _
    | with_reducible apply Only.then State.syncUnits_only
    | with_reducible apply Only.foldl
    | with_reducible apply Only.foldl1
    | intro _ _ _
    | dsimp only

theorem State.mirrorOtp_only {s : State} : Only 0x10104008000000000000000000080000000000000000000000000000000000000000000000000000000000000000000000000000000000000000000000000000000000000000000000000f80070000000 s (State.mirrorOtp s) := by
  unfold State.mirrorOtp
  repeat' first
    | with_reducible assumption
    | decide
    | with_reducible exact Only.refl _ _
    | with_reducible apply Only.then (State.setF_only ?_)
    | with_reducible apply Only.then (State.setB_only ?_)
    | with_reducible apply Only.then (State.setPair_only ?_ ?_)
    | with_reducible apply Only.then (State.setWord_only ?_)
    | with_reducible apply Only.foldl
    | with_reducible apply Only.foldl1
    | intro _ _ _
    | split
    | dsimp only

theorem State.setUnit_only {s : State} {x1 : _} {x2 : _} {x3 : _} : Only 0x400 s (State.setUnit s x1 x2 x3) := by
  unfold State.setUnit
  repeat' first
    | decide
    | with_reducible exact Only.refl _ _
    | dsimp only
    | (simp only [Only.lit]; with_reducible apply Only.upd (hpending := rfl) <;> first | exact Or.inl rfl | exact Or.inr (by with_reducible rfl) | skip)

theorem State.retireUnit_only {s : State} {x1 : _} {x2 : _} : Only 0x1012400a000000100000000000280380010000000000100000000000008000000000001000000000002000000000000400000000100000000000002000000000020000000800004000008f80074000e18 s (State.retireUnit s x1 x2) := by
  unfold State.retireUnit
  repeat' first
    | decide
    | with_reducible exact Only.refl _ _
    | with_reducible apply Only.then State.setUnit_only
    | with_reducible apply Only.then State.event_only
    | with_reducible apply Only.then State.mirrorOtp_only
    | split
    | dsimp only
    | (simp only [Only.lit]; with_reducible apply Only.upd (hpending := rfl) <;> first | exact Or.inl rfl | exact Or.inr (by with_reducible rfl) | exact Or.inr ⟨rfl, otpStep_retire _ (by assumption)⟩ | skip)

theorem State.syncDegraded_only {s : State} : Only 0x8000000000000000000000004000000000000800000000000000000000000000000000080000000000001000000000000000000000000000000000000000000 s (State.syncDegraded s) := by
  unfold State.syncDegraded
  repeat' first
    | decide
    | with_reducible exact Only.refl _ _
    | with_reducible apply Only.then (State.setB_only ?_)
    | dsimp only

end Sys2Proof.Machine
end

