-- ==== Sys2Proof/Laws/BoundRestart.lean ====
section
/-!
SUPPORT. What each function of Machine/Restart.lean can change at most.
-/

namespace Sys2Proof.Machine
open Sys2Proof Sys2Proof.Safety

theorem State.syncSlots_only {s : State} : Only 0x10000000000 s (State.syncSlots s) := by
  unfold State.syncSlots
  repeat' first
    | decide
    | with_reducible exact Only.refl _ _
    | with_reducible apply Only.then (State.setF_only ?_)
    | dsimp only

theorem State.setSlotState_only {s : State} {x1 : _} {x2 : _} : Only 0x10000000020 s (State.setSlotState s x1 x2) := by
  unfold State.setSlotState
  repeat' first
    | decide
    | with_reducible exact Only.refl _ _
    | with_reducible apply Only.then State.syncSlots_only
    | dsimp only
    | (simp only [Only.lit]; with_reducible apply Only.upd (hpending := rfl) <;> first | exact Or.inl rfl | exact Or.inr (by with_reducible rfl) | skip)

theorem State.showStaged_only {s : State} {x1 : _} : Only 0x3e0000000000000000000000000000000000000000000000000000000000000000000000000000000000000000000000000000000000000000000000000000000000000000000000000000000000 s (State.showStaged s x1) := by
  unfold State.showStaged
  repeat' first
    | decide
    | with_reducible exact Only.refl _ _
    | with_reducible apply Only.then (State.setF_only ?_)
    | with_reducible apply Only.then (State.setB_only ?_)
    | with_reducible apply Only.then (State.setPair_only ?_ ?_)
    | split
    | dsimp only

theorem State.bootSlot_only {s : State} {x1 : _} : Only 0x1d00000080 s (State.bootSlot s x1) := by
  unfold State.bootSlot
  repeat' first
    | decide
    | with_reducible exact Only.refl _ _
    | with_reducible apply Only.then (State.setF_only ?_)
    | with_reducible apply Only.then (State.setPair_only ?_ ?_)
    | dsimp only
    | (simp only [Only.lit]; with_reducible apply Only.upd (hpending := rfl) <;> first | exact Or.inl rfl | exact Or.inr (by with_reducible rfl) | skip)

theorem State.noteRefusal_only {s : State} {x1 : _} {x2 : _} : Only 0x20002000000100000000000200380010000000000100000000000008000000000001000000000002000000000000400000000100000000000002000000000020000000800004000008000104000a88 s (State.noteRefusal s x1 x2) := by
  unfold State.noteRefusal
  repeat' first
    | decide
    | with_reducible exact Only.refl _ _
    | with_reducible apply Only.then State.event_only
    | with_reducible apply Only.then (State.setF_only ?_)
    | dsimp only
    | (simp only [Only.lit]; with_reducible apply Only.upd (hpending := rfl) <;> first | exact Or.inl rfl | exact Or.inr (by with_reducible rfl) | skip)

theorem State.checkSlot_only {s : State} {x1 : _} : Only 0x20002000000100000000000200380010000000000100000000000008000000000001000000000002000000000000400000000100000000000002000000000020000000800004000008030104000aa8 s (State.checkSlot s x1).1 := by
  unfold State.checkSlot
  repeat' first
    | decide
    | with_reducible exact Only.refl _ _
    | with_reducible apply Only.then State.setSlotState_only
    | with_reducible apply Only.then State.noteRefusal_only
    | with_reducible apply Only.then (State.addSat_only ?_)
    | split
    | dsimp only

theorem State.unitsReset_only {s : State} : Only 0x3fffffffffffffffffffffffffffffffffffffffffffffffffffffffffffffffffffffffffffffffffffffffffffffffffffffffffffffffffffffffffffffffffffffffffffffffffffffffff3efffcf s (State.unitsReset s) := by
  unfold State.unitsReset
  repeat' first
    | decide
    | with_reducible exact Only.refl _ _
    | dsimp only
    | (simp only [Only.lit]; with_reducible apply Only.upd (hpending := rfl) <;> first | exact Or.inl rfl | exact Or.inr (by with_reducible rfl) | exact Or.inr ⟨rfl, fun _ => rfl⟩ | exact Or.inr (by decide) | skip)

theorem State.enterRecovery_only {s : State} {x1 : _} : Only 0x20002000000100000000000200380010000000000100000000000008000000000001000000000002000000000000400000000100000000000002000000000020000000800004000008000104000ac8 s (State.enterRecovery s x1) := by
  unfold State.enterRecovery
  repeat' first
    | decide
    | with_reducible exact Only.refl _ _
    | with_reducible apply Only.then (State.setB_only ?_)
    | with_reducible apply Only.then State.event_only
    | with_reducible apply Only.then (State.setF_only ?_)
    | dsimp only
    | (simp only [Only.lit]; with_reducible apply Only.upd (hpending := rfl) <;> first | exact Or.inl rfl | exact Or.inr (by with_reducible rfl) | skip)

theorem State.selectSlot_only {s : State} : Only 0x20002000000100000000000200380010000000000100000000000008000000000001000000000002000000000000400000000100000000000002000000000020000000800004000008030104000aa8 s (State.selectSlot s).1 := by
  unfold State.selectSlot
  repeat' first
    | decide
    | with_reducible exact Only.refl _ _
    | with_reducible apply Only.then State.checkSlot_only
    | with_reducible apply Only.then State.syncSlots_only
    | with_reducible apply Only.then State.event_only
    | with_reducible apply Only.then State.setSlotState_only
    | split
    | dsimp only
    | (simp only [Only.lit]; with_reducible apply Only.upd (hpending := rfl) <;> first | exact Or.inl rfl | exact Or.inr (by with_reducible rfl) | skip)

theorem State.romFlash_only {s : State} : Only 0x3e1000000000000000000000000000000000000000000000000000000000000000000000000000000000000000000000000000000000000000000000000000000000000000000000030000000020 s (State.romFlash s) := by
  unfold State.romFlash
  repeat' first
    | decide
    | with_reducible exact Only.refl _ _
    | with_reducible apply Only.then (State.setF_only ?_)
    | with_reducible apply Only.then State.showStaged_only
    | with_reducible apply Only.then State.syncSlots_only
    | with_reducible apply Only.then (State.setB_only ?_)
    | split
    | dsimp only
    | (simp only [Only.lit]; with_reducible apply Only.upd (hpending := rfl) <;> first | exact Or.inl rfl | exact Or.inr (by with_reducible rfl) | skip)

theorem State.romBoot_only {s : State} : Only 0x203e3000000100000000000200380010000000000100000000000008000000000001000000000002000000000000400000000100000000000002000000000020000000800004000008031d04000ae8 s (State.romBoot s) := by
  unfold State.romBoot
  repeat' first
    | decide
    | with_reducible exact Only.refl _ _
    | with_reducible apply Only.then State.enterRecovery_only
    | with_reducible apply Only.then State.selectSlot_only
    | with_reducible apply Only.then State.romFlash_only
    | with_reducible apply Only.then State.bootSlot_only
    | split
    | dsimp only

theorem State.showDigest_only {s : State} : Only 0x4000000000000000000000000000000000000000000000000000000000000000000000000000000000000000000000000000000000000000000000000000000000000000000000000000000000 s (State.showDigest s) := by
  unfold State.showDigest
  repeat' first
    | with_reducible assumption
    | decide
    | with_reducible exact Only.refl _ _
    | with_reducible apply Only.then (State.setF_only ?_)
    | with_reducible apply Only.foldl
    | with_reducible apply Only.foldl1
    | intro _ _ _
    | dsimp only

theorem State.showIdentity_only {s : State} : Only 0x20007000000100000000000200380010000000000100000000000008000000000001000000000002000000000000400000000100000000000002000000000020000000800004000008000004000a08 s (State.showIdentity s) := by
  unfold State.showIdentity
  repeat' first
    | decide
    | with_reducible exact Only.refl _ _
    | with_reducible apply Only.then State.event_only
    | with_reducible apply Only.then (State.setB_only ?_)
    | with_reducible apply Only.then State.showDigest_only
    | split
    | dsimp only

theorem State.readVoutMode_only {s : State} : Only 0xc000040 s (State.readVoutMode s) := by
  unfold State.readVoutMode
  repeat' first
    | with_reducible assumption
    | decide
    | with_reducible exact Only.refl _ _
    | with_reducible apply Only.then State.emit_only
    | with_reducible apply Only.then State.used_only
    | with_reducible apply Only.foldl
    | with_reducible apply Only.foldl1
    | intro _ _ _
    | split
    | dsimp only
    | (simp only [Only.lit]; with_reducible apply Only.upd (hpending := rfl) <;> first | exact Or.inl rfl | exact Or.inr (by with_reducible rfl) | skip)

theorem State.romShow_only {s : State} : Only 0x1413400f00000010000000000028e38001000000000038000000000001c000000000003800000000002000000000000400000000780000000000007000000000020000000800004000008f8007c000b48 s (State.romShow s) := by
  unfold State.romShow
  repeat' first
    | decide
    | with_reducible exact Only.refl _ _
    | with_reducible apply Only.then State.readVoutMode_only
    | with_reducible apply Only.then State.syncAll_only
    | with_reducible apply Only.then State.mirrorOtp_only
    | with_reducible apply Only.then (State.setF_only ?_)
    | with_reducible apply Only.then State.event_only
    | with_reducible apply Only.then State.showIdentity_only
    | with_reducible apply Only.then (State.setB_only ?_)
    | dsimp only
    | (simp only [Only.lit]; with_reducible apply Only.upd (hpending := rfl) <;> first | exact Or.inl rfl | exact Or.inr (by with_reducible rfl) | skip)

theorem State.romStart_only {s : State} : Only 0x141343ef00000010000000000028e38001000000000038000000000001c000000000003800000000002000000000000400000000780000000000007000000000020000000800004000008fb1d7c000be8 s (State.romStart s) := by
  unfold State.romStart
  repeat' first
    | decide
    | with_reducible exact Only.refl _ _
    | with_reducible apply Only.then State.romBoot_only
    | with_reducible apply Only.then State.romShow_only

theorem State.restart_only {s : State} {x1 : _} : Only 0x3ffffffffffffffffffffffffffffffffffffffffffffffffffffffffffffffffffffffffffffffffffffffffffffffffffffffffffffffffffffffffffffffffffffffffffffffffffffffffffefffef s (State.restart s x1) := by
  unfold State.restart
  repeat' first
    | with_reducible assumption
    | decide
    | with_reducible exact Only.refl _ _
    | with_reducible apply Only.then State.event_only
    | with_reducible apply Only.then State.unitsReset_only
    | with_reducible apply Only.then (State.setPair_only ?_ ?_)
    | with_reducible apply Only.then (State.setF_only ?_)
    | with_reducible apply Only.then (State.setB_only ?_)
    | with_reducible apply Only.then State.romStart_only
    | with_reducible apply Only.foldl
    | with_reducible apply Only.foldl1
    | intro _ _ _
    | dsimp only
    | (simp only [Only.lit]; with_reducible apply Only.upd (hpending := rfl) <;> first | exact Or.inl rfl | exact Or.inr (by with_reducible rfl) | skip)

theorem State.halt_only {s : State} {x1 : _} : Only 0x20002000000100000000000200380010000000000100000000000008000000000001000000000002000000000000400000000100000000000002000000000020000000800004000008000104000a48 s (State.halt s x1) := by
  unfold State.halt
  repeat' first
    | decide
    | with_reducible exact Only.refl _ _
    | with_reducible apply Only.then State.event_only
    | with_reducible apply Only.then (State.setF_only ?_)
    | dsimp only
    | (simp only [Only.lit]; with_reducible apply Only.upd (hpending := rfl) <;> first | exact Or.inl rfl | exact Or.inr (by with_reducible rfl) | skip)

theorem State.refuseSlot_only {s : State} {x1 : _} {x2 : _} : Only 0x3ffffffffffffffffffffffffffffffffffffffffffffffffffffffffffffffffffffffffffffffffffffffffffffffffffffffffffffffffffffffffffffffffffffffffffffffffffffffffffefffef s (State.refuseSlot s x1 x2) := by
  unfold State.refuseSlot
  repeat' first
    | decide
    | with_reducible exact Only.refl _ _
    | with_reducible apply Only.then State.setSlotState_only
    | with_reducible apply Only.then State.noteRefusal_only
    | with_reducible apply Only.then State.restart_only
    | with_reducible apply Only.then (State.setF_only ?_)
    | split
    | dsimp only

theorem State.systemReset_only {s : State} : Only 0x3fffffffffffffffffffffffffffffffffffffffffffffffffffffffffffffffffffffffffffffffffffffffffffffffffffffffffffffffffffffffffffffffffffffffffffffffffffffffff3efffcf s (State.systemReset s) := by
  unfold State.systemReset
  repeat' first
    | decide
    | with_reducible exact Only.refl _ _
    | with_reducible apply Only.then State.unitsReset_only
    | dsimp only
    | (simp only [Only.lit]; with_reducible apply Only.upd (hpending := rfl) <;> first | exact Or.inl rfl | exact Or.inr (by with_reducible rfl) | skip)

end Sys2Proof.Machine
end

