-- ==== Sys2Proof/Laws/BoundContainer.lean ====
section
/-!
SUPPORT. What each function of Machine/Container.lean can change at most.
-/

namespace Sys2Proof.Machine
open Sys2Proof Sys2Proof.Safety

theorem State.issueAlias_only {s : State} {x1 : _} : Only 0x8010000000000000000000000000000000000000000000000000000000000000000000000000000000000000000000000000000000000000000000000000000000000000000000000000000004000 s (State.issueAlias s x1) := by
  unfold State.issueAlias
  repeat' first
    | with_reducible assumption
    | decide
    | with_reducible exact Only.refl _ _
    | with_reducible apply Only.then (State.setF_only ?_)
    | with_reducible apply Only.foldl
    | with_reducible apply Only.foldl1
    | intro _ _ _
    | split
    | dsimp only
    | (simp only [Only.lit]; with_reducible apply Only.upd (hpending := rfl) <;> first | exact Or.inl rfl | exact Or.inr (by with_reducible rfl) | skip)

theorem State.migrateOne_only {s : State} {x1 : _} {x2 : _} {x3 : _} {x4 : _} : Only 0x20002000000100000000000200380010000000000100000000000008000000000001000000000002000000000000400000000100000000000002000000000020000000800004000008050104000a28 s (State.migrateOne s x1 x2 x3 x4) := by
  unfold State.migrateOne
  repeat' first
    | decide
    | with_reducible exact Only.refl _ _
    | with_reducible apply Only.then (State.setB_only ?_)
    | with_reducible apply Only.then (State.addSat_only ?_)
    | with_reducible apply Only.then State.event_only
    | with_reducible apply Only.then State.syncSlots_only
    | split
    | dsimp only
    | (simp only [Only.lit]; with_reducible apply Only.upd (hpending := rfl) <;> first | exact Or.inl rfl | exact Or.inr (by with_reducible rfl) | skip)

theorem State.migrate_only {s : State} {x1 : _} {x2 : _} : Only 0x20002000000100000000000200380010000000000100000000000008000000000001000000000002000000000000400000000100000000000002000000000020000000800004000008050104000a28 s (State.migrate s x1 x2) := by
  unfold State.migrate
  repeat' first
    | with_reducible assumption
    | decide
    | with_reducible exact Only.refl _ _
    | with_reducible apply Only.then State.migrateOne_only
    | with_reducible apply Only.foldl
    | with_reducible apply Only.foldl1
    | intro _ _ _
    | split
    | dsimp only

end Sys2Proof.Machine
end

