-- ==== Sys2Proof/Laws/BoundFit.lean ====
section
/-!
SUPPORT. What each function of Machine/Fit.lean can change at most.
-/

namespace Sys2Proof.Machine
open Sys2Proof Sys2Proof.Safety

theorem State.setIns_only {s : State} {x1 : _} {x2 : _} : Only 0x40000 s (State.setIns s x1 x2) := by
  unfold State.setIns
  repeat' first
    | decide
    | with_reducible exact Only.refl _ _
    | dsimp only
    | (simp only [Only.lit]; with_reducible apply Only.upd (hpending := rfl) <;> first | exact Or.inl rfl | exact Or.inr (by with_reducible rfl) | skip)

theorem State.keepRate_only {s : State} {x1 : _} : Only 0x40000 s (State.keepRate s x1) := by
  unfold State.keepRate
  repeat' first
    | decide
    | with_reducible exact Only.refl _ _
    | with_reducible apply Only.then State.setIns_only
    | split
    | dsimp only

theorem State.setFit_only {s : State} : Only 0x880000000000000000000000000000000000000000000004100000000 s (State.setFit s) := by
  unfold State.setFit
  repeat' first
    | decide
    | with_reducible exact Only.refl _ _
    | with_reducible apply Only.then (State.setF_only ?_)
    | with_reducible apply Only.then (State.setB_only ?_)
    | dsimp only

theorem State.refit_only {s : State} {x1 : _} : Only 0x20002000000100000000000200380010000000000100000000000008000000000001000000000002000000000000400000000980000000000002000000000020000000800004000008004104040a08 s (State.refit s x1) := by
  unfold State.refit
  repeat' first
    | with_reducible assumption
    | decide
    | with_reducible exact Only.refl _ _
    | with_reducible apply Only.then State.keepRate_only
    | with_reducible apply Only.then State.event_only
    | with_reducible apply Only.then State.setFit_only
    | with_reducible apply Only.foldl
    | with_reducible apply Only.foldl1
    | intro _ _ _
    | dsimp only
    | (simp only [Only.lit]; with_reducible apply Only.upd (hpending := rfl) <;> first | exact Or.inl rfl | exact Or.inr (by with_reducible rfl) | skip)

theorem State.clusterLost_only {s : State} {x1 : _} {x2 : _} : Only 0x20002000000100000000000200380010000000000100000000000008000000000001000000000002000000000000400000000980000000000002000000000020000000800004000008004104040e08 s (State.clusterLost s x1 x2) := by
  unfold State.clusterLost
  repeat' first
    | decide
    | with_reducible exact Only.refl _ _
    | with_reducible apply Only.then State.putPlace_only
    | with_reducible apply Only.then State.refit_only
    | split
    | dsimp only
    | (simp only [Only.lit]; with_reducible apply Only.upd (hpending := rfl) <;> first | exact Or.inl rfl | exact Or.inr (by with_reducible rfl) | skip)

end Sys2Proof.Machine
end

