-- ==== Sys2Proof/Laws/BoundFailures.lean ====
section
/-!
SUPPORT. What each function of Machine/Failures.lean can change at most.
-/

namespace Sys2Proof.Machine
open Sys2Proof Sys2Proof.Safety

theorem State.setNextVisit_only {s : State} {x1 : _} {x2 : _} {x3 : _} : Only 0x400 s (State.setNextVisit s x1 x2 x3) := by
  unfold State.setNextVisit
  repeat' first
    | decide
    | with_reducible exact Only.refl _ _
    | dsimp only
    | (simp only [Only.lit]; with_reducible apply Only.upd (hpending := rfl) <;> first | exact Or.inl rfl | exact Or.inr (by with_reducible rfl) | skip)

theorem State.dropVisit_only {s : State} {x1 : _} : Only 0x400 s (State.dropVisit s x1) := by
  unfold State.dropVisit
  repeat' first
    | decide
    | with_reducible exact Only.refl _ _
    | dsimp only
    | (simp only [Only.lit]; with_reducible apply Only.upd (hpending := rfl) <;> first | exact Or.inl rfl | exact Or.inr (by with_reducible rfl) | skip)

theorem State.lastTest_only {s : State} {x1 : _} {x2 : _} {x3 : _} : Only 0x8000000000000000000000000000000000000000000000000000000000000000000000000000000000000000000000000000000000000000000000000000000000 s (State.lastTest s x1 x2 x3) := by
  unfold State.lastTest
  repeat' first
    | decide
    | with_reducible exact Only.refl _ _
    | with_reducible apply Only.then (State.setF_only ?_)

theorem State.returnUnit_only {s : State} {x1 : _} : Only 0x8000000000000000000000000000000000000000000000000000000000000000000000000000000000000000000000000000000000000000000000000000000400 s (State.returnUnit s x1) := by
  unfold State.returnUnit
  repeat' first
    | decide
    | with_reducible exact Only.refl _ _
    | with_reducible apply Only.then State.putPlace_only
    | with_reducible apply Only.then State.dropVisit_only
    | with_reducible apply Only.then State.setNextVisit_only
    | with_reducible apply Only.then State.lastTest_only
    | split
    | dsimp only

theorem State.endVisit_only {s : State} {x1 : _} {x2 : _} : Only 0x8000000000000000000000000000000000000000000000000000000000000000000000000000000000000000000000000000000000000000000000000000000400 s (State.endVisit s x1 x2) := by
  unfold State.endVisit
  repeat' first
    | decide
    | with_reducible exact Only.refl _ _
    | with_reducible apply Only.then State.dropVisit_only
    | with_reducible apply Only.then State.lastTest_only
    | with_reducible apply Only.then State.returnUnit_only
    | split
    | dsimp only
    | (simp only [Only.lit]; with_reducible apply Only.upd (hpending := rfl) <;> first | exact Or.inl rfl | exact Or.inr (by with_reducible rfl) | skip)

theorem State.takeOut_only {s : State} {x1 : _} {x2 : _} : Only 0x1012400a000000100000000000280380010000000000100000000000008000000000001000000000002000000000000400000000100000000000002000000000020000000800004000008f80074000e18 s (State.takeOut s x1 x2) := by
  unfold State.takeOut
  repeat' first
    | decide
    | with_reducible exact Only.refl _ _
    | with_reducible apply Only.then State.retireUnit_only
    | with_reducible apply Only.then State.setUnit_only
    | split
    | dsimp only

theorem State.noteSpares_only {s : State} {x1 : _} {x2 : _} : Only 0x20002000000100000000000200380010000000000100000000000008000000000001000000000002000000000000400000000100000000000002000000000020000000800004000008000004000a08 s (State.noteSpares s x1 x2) := by
  unfold State.noteSpares
  repeat' first
    | decide
    | with_reducible exact Only.refl _ _
    | with_reducible apply Only.then State.event_only
    | split

theorem State.coverSpare_only {s : State} {x1 : _} {x2 : _} : Only 0x8000000000000000000000000000000000000000000000000000000000000000000000000000000000000000000000000000000000000000000000000000000400 s (State.coverSpare s x1 x2).1 := by
  unfold State.coverSpare
  repeat' first
    | decide
    | with_reducible exact Only.refl _ _
    | with_reducible apply Only.then State.dropVisit_only
    | with_reducible apply Only.then State.lastTest_only
    | with_reducible apply Only.then State.returnUnit_only
    | split
    | dsimp only

theorem State.coverPlace_only {s : State} {x1 : _} {x2 : _} {x3 : _} : Only 0x8000000000000000000000000000000000000000000000000000000000000000000000000000000000000000000000000000000000000000000000000000000400 s (State.coverPlace s x1 x2 x3).1 := by
  unfold State.coverPlace
  repeat' first
    | decide
    | with_reducible exact Only.refl _ _
    | with_reducible apply Only.then State.coverSpare_only
    | with_reducible apply Only.then State.putPlace_only
    | split
    | dsimp only
    | (simp only [Only.lit]; with_reducible apply Only.upd (hpending := rfl) <;> first | exact Or.inl rfl | exact Or.inr (by with_reducible rfl) | skip)

theorem State.failHere_only {s : State} {x1 : _} {x2 : _} : Only 0x1012400a00000010000000000028e38801000000000038000000000001c000000000003800000000002000000000000400000000780000000000007000000000020000000800004000008f80074000e18 s (State.failHere s x1 x2).1 := by
  unfold State.failHere
  repeat' first
    | decide
    | with_reducible exact Only.refl _ _
    | with_reducible apply Only.then State.endVisit_only
    | with_reducible apply Only.then State.takeOut_only
    | with_reducible apply Only.then State.noteSpares_only
    | with_reducible apply Only.then State.syncUnits_only
    | with_reducible apply Only.then State.coverPlace_only
    | split
    | dsimp only
    | (simp only [Only.lit]; with_reducible apply Only.upd (hpending := rfl) <;> first | exact Or.inl rfl | exact Or.inr (by with_reducible rfl) | skip)

theorem State.markLost_only {s : State} {x1 : _} {x2 : _} : Only 0x2000200000010000000000020038001800000000018000000000000c000000000001800000000002000000000000400000000180000000000003000000000020000000800004000008000004000a08 s (State.markLost s x1 x2) := by
  unfold State.markLost
  repeat' first
    | decide
    | with_reducible exact Only.refl _ _
    | with_reducible apply Only.then State.event_only
    | with_reducible apply Only.then State.syncDegraded_only
    | with_reducible apply Only.then (State.setB_only ?_)
    | split
    | dsimp only

theorem State.failUnit_only {s : State} {x1 : _} {x2 : _} {x3 : _} : Only 0x1012400a00000010000000000028e38801800000000038000000000001c000000000003800000000002000000000000400000000f80000000000007000000000020000000800004000008f84174040e18 s (State.failUnit s x1 x2 x3) := by
  induction x3 generalizing s x1 x2 with
  | zero =>
    unfold State.failUnit
    repeat' first
      | decide
      | with_reducible exact Only.refl _ _
      | with_reducible apply Only.then State.clusterLost_only
      | with_reducible apply Only.then State.failHere_only
      | with_reducible apply Only.then State.markLost_only
      | with_reducible apply Only.then State.syncUnits_only
      | split
      | dsimp only
  | succ n ih =>
    unfold State.failUnit
    repeat' first
      | decide
      | with_reducible exact Only.refl _ _
      | with_reducible apply Only.then ih
      | with_reducible apply Only.then State.clusterLost_only
      | with_reducible apply Only.then State.failHere_only
      | with_reducible apply Only.then State.markLost_only
      | with_reducible apply Only.then State.syncUnits_only
      | split
      | dsimp only

theorem State.unitFails_only {s : State} {x1 : _} {x2 : _} : Only 0x1012400a00000010000000000028e38801800000000038000000000001c000000000003800000000002000000000000400000000f80000000000007000000000020000000800004000008f84174040e18 s (State.unitFails s x1 x2) := by
  unfold State.unitFails
  repeat' first
    | decide
    | with_reducible exact Only.refl _ _
    | with_reducible apply Only.then State.failUnit_only
    | split

theorem State.swapEvent_only {s : State} {x1 : _} {x2 : _} : Only 0x20002000000100000000000200380010000000000100000000000008000000000001000000000002000000000000400000000100000000000002000000000020000000800004000008000004000a08 s (State.swapEvent s x1 x2) := by
  unfold State.swapEvent
  repeat' first
    | decide
    | with_reducible exact Only.refl _ _
    | with_reducible apply Only.then State.event_only
    | split
    | dsimp only

end Sys2Proof.Machine
end

