-- ==== Sys2Proof/Laws/BoundTime.lean ====
section
/-!
SUPPORT. What each function of Machine/Time.lean can change at most.
-/

namespace Sys2Proof.Machine
open Sys2Proof Sys2Proof.Safety

theorem State.captureNow_only {s : State} {x1 : _} : Only 0x100 s (State.captureNow s x1) := by
  unfold State.captureNow
  repeat' first
    | decide
    | with_reducible exact Only.refl _ _
    | dsimp only
    | (simp only [Only.lit]; with_reducible apply Only.upd (hpending := rfl) <;> first | exact Or.inl rfl | exact Or.inr (by with_reducible rfl) | skip)

theorem State.endPtpWait_only {s : State} : Only 0x180 s (State.endPtpWait s) := by
  unfold State.endPtpWait
  repeat' first
    | with_reducible assumption
    | decide
    | with_reducible exact Only.refl _ _
    | with_reducible apply Only.foldl
    | with_reducible apply Only.foldl1
    | intro _ _ _
    | split
    | dsimp only
    | (simp only [Only.lit]; with_reducible apply Only.upd (hpending := rfl) <;> first | exact Or.inl rfl | exact Or.inr (by with_reducible rfl) | skip)

theorem State.fireEdge_only {s : State} {x1 : _} : Only 0x400000000000004000100 s (State.fireEdge s x1) := by
  unfold State.fireEdge
  repeat' first
    | decide
    | with_reducible exact Only.refl _ _
    | with_reducible apply Only.then State.emit_only
    | with_reducible apply Only.then (State.addWrap_only ?_)
    | dsimp only
    | (simp only [Only.lit]; with_reducible apply Only.upd (hpending := rfl) <;> first | exact Or.inl rfl | exact Or.inr (by with_reducible rfl) | skip)

theorem State.setDom_only {s : State} {x1 : _} {x2 : _} : Only 0x100 s (State.setDom s x1 x2) := by
  unfold State.setDom
  repeat' first
    | decide
    | with_reducible exact Only.refl _ _
    | dsimp only
    | (simp only [Only.lit]; with_reducible apply Only.upd (hpending := rfl) <;> first | exact Or.inl rfl | exact Or.inr (by with_reducible rfl) | skip)

theorem State.unlock_only {s : State} {x1 : _} : Only 0x20002000000100000000000200380010000000000100000000000008000000000001000000000002000000000000400000000100000000000002000000000020000000800004800008000004000b08 s (State.unlock s x1) := by
  unfold State.unlock
  repeat' first
    | decide
    | with_reducible exact Only.refl _ _
    | with_reducible apply Only.then State.event_only
    | with_reducible apply Only.then (State.addSat_only ?_)
    | with_reducible apply Only.then State.setDom_only
    | split
    | dsimp only
    | (simp only [Only.lit]; with_reducible apply Only.upd (hpending := rfl) <;> first | exact Or.inl rfl | exact Or.inr (by with_reducible rfl) | skip)

theorem State.syncDom_only {s : State} {x1 : _} : Only 0xe0010000000000000 s (State.syncDom s x1) := by
  unfold State.syncDom
  repeat' first
    | decide
    | with_reducible exact Only.refl _ _
    | with_reducible apply Only.then (State.setF_only ?_)
    | with_reducible apply Only.then (State.setPair_only ?_ ?_)
    | with_reducible apply Only.then (State.setB_only ?_)
    | split
    | dsimp only

theorem State.unqualify_only {s : State} {x1 : _} : Only 0x200020000001000000000002003800100000000001000000000000080000000000010000000000020000000000004000000001000000000000020000000000200000008000048e0018000004000b08 s (State.unqualify s x1) := by
  unfold State.unqualify
  repeat' first
    | decide
    | with_reducible exact Only.refl _ _
    | with_reducible apply Only.then State.unlock_only
    | with_reducible apply Only.then State.syncDom_only
    | with_reducible apply Only.then State.setDom_only
    | dsimp only

theorem State.showOffset_only {s : State} {x1 : _} : Only 0x300000000000000000 s (State.showOffset s x1) := by
  unfold State.showOffset
  repeat' first
    | with_reducible assumption
    | decide
    | with_reducible exact Only.refl _ _
    | with_reducible apply Only.then (State.setPair_only ?_ ?_)
    | with_reducible apply Only.foldl
    | with_reducible apply Only.foldl1
    | intro _ _ _
    | split
    | dsimp only

theorem State.stepTo_only {s : State} {x1 : _} {x2 : _} : Only 0x300010000000000100 s (State.stepTo s x1 x2) := by
  unfold State.stepTo
  repeat' first
    | with_reducible assumption
    | decide
    | with_reducible exact Only.refl _ _
    | with_reducible apply Only.then State.showOffset_only
    | with_reducible apply Only.then (State.setPair_only ?_ ?_)
    | with_reducible apply Only.then (State.setB_only ?_)
    | with_reducible apply Only.foldl
    | with_reducible apply Only.foldl1
    | intro _ _ _
    | split
    | dsimp only
    | (simp only [Only.lit]; with_reducible apply Only.upd (hpending := rfl) <;> first | exact Or.inl rfl | exact Or.inr (by with_reducible rfl) | skip)

theorem State.lock_only {s : State} {x1 : _} {x2 : _} : Only 0x20002000000100000000000200380010000000000100000000000008000000000001000000000002000000000000400000000100000000000002000000000020000000800004300018000004000b88 s (State.lock s x1 x2) := by
  unfold State.lock
  repeat' first
    | decide
    | with_reducible exact Only.refl _ _
    | with_reducible apply Only.then State.setDom_only
    | with_reducible apply Only.then State.event_only
    | with_reducible apply Only.then State.endPtpWait_only
    | with_reducible apply Only.then State.stepTo_only
    | split
    | dsimp only
    | (simp only [Only.lit]; with_reducible apply Only.upd (hpending := rfl) <;> first | exact Or.inl rfl | exact Or.inr (by with_reducible rfl) | skip)

theorem State.followBest_only {s : State} {x1 : _} {x2 : _} : Only 0x20002000000100000000000200380010000000000100000000000008000000000001000000000002000000000000400000000100000000000002000000000020000000800004be0018000004000b88 s (State.followBest s x1 x2) := by
  unfold State.followBest
  repeat' first
    | decide
    | with_reducible exact Only.refl _ _
    | with_reducible apply Only.then State.lock_only
    | with_reducible apply Only.then State.unqualify_only
    | with_reducible apply Only.then State.setDom_only
    | with_reducible apply Only.then State.syncDom_only
    | split
    | dsimp only

theorem State.offsetSample_only {s : State} {x1 : _} {x2 : _} {x3 : _} {x4 : _} {x5 : _} : Only 0x20002000000100000000000200380010000000000100000000000008000000000001000000000002000000000000400000000100000000000002000000000020000000800004be0218000004000b88 s (State.offsetSample s x1 x2 x3 x4 x5) := by
  unfold State.offsetSample
  repeat' first
    | decide
    | with_reducible exact Only.refl _ _
    | with_reducible apply Only.then State.showOffset_only
    | with_reducible apply Only.then State.setDom_only
    | with_reducible apply Only.then (State.setPair_only ?_ ?_)
    | with_reducible apply Only.then State.lock_only
    | with_reducible apply Only.then State.unlock_only
    | with_reducible apply Only.then State.syncDom_only
    | with_reducible apply Only.then (State.setFs_only ?_)
    | split
    | dsimp only

theorem State.setMon_only {s : State} {x1 : _} {x2 : _} : Only 0x100 s (State.setMon s x1 x2) := by
  unfold State.setMon
  repeat' first
    | decide
    | with_reducible exact Only.refl _ _
    | dsimp only
    | (simp only [Only.lit]; with_reducible apply Only.upd (hpending := rfl) <;> first | exact Or.inl rfl | exact Or.inr (by with_reducible rfl) | skip)

theorem State.offsetUpdate_only {s : State} {x1 : _} {x2 : _} : Only 0x20002000000100000000000200380010000000000100000000000008000000000001000000000002000000000000400000000100000000000002000000000020000000870004000008000004000b08 s (State.offsetUpdate s x1 x2) := by
  unfold State.offsetUpdate
  repeat' first
    | with_reducible assumption
    | decide
    | with_reducible exact Only.refl _ _
    | with_reducible apply Only.then (State.setF_only ?_)
    | with_reducible apply Only.then (State.setFs_only ?_)
    | with_reducible apply Only.then State.setMon_only
    | with_reducible apply Only.then State.event_only
    | with_reducible apply Only.then (State.setB_only ?_)
    | with_reducible apply Only.then (State.addSat_only ?_)
    | with_reducible apply Only.foldl
    | with_reducible apply Only.foldl1
    | intro _ _ _
    | split
    | dsimp only

theorem State.setSlew_only {s : State} {x1 : _} : Only 0x400000000000100 s (State.setSlew s x1) := by
  unfold State.setSlew
  repeat' first
    | decide
    | with_reducible exact Only.refl _ _
    | with_reducible apply Only.then (State.setFs_only ?_)
    | dsimp only
    | (simp only [Only.lit]; with_reducible apply Only.upd (hpending := rfl) <;> first | exact Or.inl rfl | exact Or.inr (by with_reducible rfl) | skip)

theorem State.setTimeState_only {s : State} {x1 : _} : Only 0x20002000000100000000000200380010000000000100000000000008000000000001000000000002000000000000400000000100000000000002000000000020000000800004000018000004000b08 s (State.setTimeState s x1) := by
  unfold State.setTimeState
  repeat' first
    | decide
    | with_reducible exact Only.refl _ _
    | with_reducible apply Only.then (State.setF_only ?_)
    | with_reducible apply Only.then State.event_only
    | split
    | dsimp only
    | (simp only [Only.lit]; with_reducible apply Only.upd (hpending := rfl) <;> first | exact Or.inl rfl | exact Or.inr (by with_reducible rfl) | skip)

theorem State.showUtc_only {s : State} {x1 : _} : Only 0x20002000000100000000000200380010000000000100000000000008000000000001000000000002000000000000400000000100000000000002000000000020000000800004001008000004000a08 s (State.showUtc s x1) := by
  unfold State.showUtc
  repeat' first
    | decide
    | with_reducible exact Only.refl _ _
    | with_reducible apply Only.then State.event_only
    | with_reducible apply Only.then (State.setWord_only ?_)
    | split
    | dsimp only

theorem State.switchTo_only {s : State} {x1 : _} : Only 0x20002000000100000000000200380010000000000100000000000008000000000001000000000002000000000000400000000100000000000002000000000020000000800004005418000004000b08 s (State.switchTo s x1) := by
  unfold State.switchTo
  repeat' first
    | decide
    | with_reducible exact Only.refl _ _
    | with_reducible apply Only.then State.setSlew_only
    | with_reducible apply Only.then (State.setB_only ?_)
    | with_reducible apply Only.then State.event_only
    | with_reducible apply Only.then (State.addSat_only ?_)
    | with_reducible apply Only.then State.showUtc_only
    | split
    | dsimp only
    | (simp only [Only.lit]; with_reducible apply Only.upd (hpending := rfl) <;> first | exact Or.inl rfl | exact Or.inr (by with_reducible rfl) | skip)

theorem announceReceiptTimeout_only {x0 : _} {x1 : _} {s : State} : Only 0x20002000000100000000000200380010000000000100000000000008000000000001000000000002000000000000400000000100000000000002000000000020000000800004be0018000004000b88 s (announceReceiptTimeout x0 x1 s) := by
  unfold announceReceiptTimeout
  repeat' first
    | decide
    | with_reducible exact Only.refl _ _
    | with_reducible apply Only.then State.setDom_only
    | with_reducible apply Only.then State.followBest_only
    | with_reducible apply Only.then State.unqualify_only
    | split
    | dsimp only

theorem captureEdge_only {x0 : _} {x1 : _} {x2 : _} {x3 : _} {s : State} : Only 0x2000200000010000000000020038001000000000010000000000000800000000000100000000000200000000000040000000010000000000000200000000002000000080f004000008000004000b08 s (captureEdge x0 x1 x2 x3 s) := by
  unfold captureEdge
  repeat' first
    | decide
    | with_reducible exact Only.refl _ _
    | with_reducible apply Only.then State.event_only
    | with_reducible apply Only.then (State.addSat_only ?_)
    | with_reducible apply Only.then (State.setPair_only ?_ ?_)
    | with_reducible apply Only.then (State.setF_only ?_)
    | with_reducible apply Only.then (State.setB_only ?_)
    | with_reducible apply Only.then (State.addWrap_only ?_)
    | split
    | dsimp only
    | (simp only [Only.lit]; with_reducible apply Only.upd (hpending := rfl) <;> first | exact Or.inl rfl | exact Or.inr (by with_reducible rfl) | skip)

theorem deviceTimeTick_only {s : State} : Only 0x400000000000100 s (deviceTimeTick s) := by
  unfold deviceTimeTick
  repeat' first
    | decide
    | with_reducible exact Only.refl _ _
    | with_reducible apply Only.then State.setSlew_only
    | dsimp only
    | (simp only [Only.lit]; with_reducible apply Only.upd (hpending := rfl) <;> first | exact Or.inl rfl | exact Or.inr (by with_reducible rfl) | skip)

theorem exposureTriggerEdge_only {x0 : _} {s : State} : Only 0x400000000000004000100 s (exposureTriggerEdge x0 s) := by
  unfold exposureTriggerEdge
  repeat' first
    | decide
    | with_reducible exact Only.refl _ _
    | with_reducible apply Only.then State.fireEdge_only
    | split
    | dsimp only
    | (simp only [Only.lit]; with_reducible apply Only.upd (hpending := rfl) <;> first | exact Or.inl rfl | exact Or.inr (by with_reducible rfl) | skip)

theorem heldClear_only {x0 : _} {s : State} : Only 0x40000000000000000000000 s (heldClear x0 s) := by
  unfold heldClear
  repeat' first
    | decide
    | with_reducible exact Only.refl _ _
    | with_reducible apply Only.then (State.setB_only ?_)
    | split

theorem holdErrUpdate_only {s : State} : Only 0x800000000000100 s (holdErrUpdate s) := by
  unfold holdErrUpdate
  repeat' first
    | decide
    | with_reducible exact Only.refl _ _
    | with_reducible apply Only.then (State.setF_only ?_)
    | split
    | dsimp only
    | (simp only [Only.lit]; with_reducible apply Only.upd (hpending := rfl) <;> first | exact Or.inl rfl | exact Or.inr (by with_reducible rfl) | skip)

theorem holdoverLimitExpire_only {s : State} : Only 0x20002000000100000000000200380010000000000100000000000008000000000001000000000002000000000000400000000100000000000002000000000020000000800004000018000004000b08 s (holdoverLimitExpire s) := by
  unfold holdoverLimitExpire
  repeat' first
    | decide
    | with_reducible exact Only.refl _ _
    | with_reducible apply Only.then State.setTimeState_only
    | split
    | dsimp only
    | (simp only [Only.lit]; with_reducible apply Only.upd (hpending := rfl) <;> first | exact Or.inl rfl | exact Or.inr (by with_reducible rfl) | skip)

theorem ppsEdge_only {x0 : _} {x1 : _} {s : State} : Only 0x20002000000100000000000200380010000000000100000000000008000000000001000000000002000000000000400000000100000000000002000000000020000000800004002418000004000b08 s (ppsEdge x0 x1 s) := by
  unfold ppsEdge
  repeat' first
    | decide
    | with_reducible exact Only.refl _ _
    | with_reducible apply Only.then (State.setB_only ?_)
    | with_reducible apply Only.then (State.setFs_only ?_)
    | with_reducible apply Only.then State.setSlew_only
    | with_reducible apply Only.then State.event_only
    | split
    | dsimp only
    | (simp only [Only.lit]; with_reducible apply Only.upd (hpending := rfl) <;> first | exact Or.inl rfl | exact Or.inr (by with_reducible rfl) | skip)

theorem ppsInputLost_only {s : State} : Only 0x20002000000100000000000200380010000000000100000000000008000000000001000000000002000000000000400000000100000000000002000000000020000000800004000018000004000b08 s (ppsInputLost s) := by
  unfold ppsInputLost
  repeat' first
    | decide
    | with_reducible exact Only.refl _ _
    | with_reducible apply Only.then State.event_only
    | with_reducible apply Only.then (State.setB_only ?_)
    | split
    | dsimp only
    | (simp only [Only.lit]; with_reducible apply Only.upd (hpending := rfl) <;> first | exact Or.inl rfl | exact Or.inr (by with_reducible rfl) | skip)

theorem ptpAnnounceRx_only {x0 : _} {x1 : _} {x2 : _} {s : State} : Only 0x20002000000100000000000200380010000000000100000000000008000000000001000000000002000000000000400000000100000000000002000000000020000000800004be1018000004000b88 s (ptpAnnounceRx x0 x1 x2 s) := by
  unfold ptpAnnounceRx
  repeat' first
    | decide
    | with_reducible exact Only.refl _ _
    | with_reducible apply Only.then State.setDom_only
    | with_reducible apply Only.then State.followBest_only
    | with_reducible apply Only.then State.showUtc_only
    | split
    | dsimp only

theorem State.ptpOut_only {s : State} {x1 : _} {x2 : _} {x3 : _} {x4 : _} {x5 : _} : Only 0x4000000 s (State.ptpOut s x1 x2 x3 x4 x5) := by
  unfold State.ptpOut
  repeat' first
    | with_reducible assumption
    | decide
    | with_reducible exact Only.refl _ _
    | with_reducible apply Only.then State.emit_only
    | with_reducible apply Only.foldl
    | with_reducible apply Only.foldl1
    | intro _ _ _
    | split
    | dsimp only

theorem ptpDelayReqTx_only {x0 : _} {s : State} : Only 0x4000100 s (ptpDelayReqTx x0 s) := by
  unfold ptpDelayReqTx
  repeat' first
    | decide
    | with_reducible exact Only.refl _ _
    | with_reducible apply Only.then State.ptpOut_only
    | with_reducible apply Only.then State.setDom_only
    | with_reducible apply Only.then State.emit_only
    | split
    | dsimp only

theorem State.setMpd_only {s : State} {x1 : _} {x2 : _} : Only 0x400000000000000100 s (State.setMpd s x1 x2) := by
  unfold State.setMpd
  repeat' first
    | with_reducible assumption
    | decide
    | with_reducible exact Only.refl _ _
    | with_reducible apply Only.then State.setDom_only
    | with_reducible apply Only.then (State.setFs_only ?_)
    | with_reducible apply Only.foldl
    | with_reducible apply Only.foldl1
    | intro _ _ _
    | split
    | dsimp only

theorem ptpDelayRespRx_only {x0 : _} {x1 : _} {x2 : _} {s : State} : Only 0x400000000000000100 s (ptpDelayRespRx x0 x1 x2 s) := by
  unfold ptpDelayRespRx
  repeat' first
    | decide
    | with_reducible exact Only.refl _ _
    | with_reducible apply Only.then State.setMpd_only
    | with_reducible apply Only.then (State.setFs_only ?_)
    | split
    | dsimp only

theorem ptpFollowUpRx_only {x0 : _} {x1 : _} {x2 : _} {s : State} : Only 0x20002000000100000000000200380010000000000100000000000008000000000001000000000002000000000000400000000100000000000002000000000020000000800004be0218000004000b88 s (ptpFollowUpRx x0 x1 x2 s) := by
  unfold ptpFollowUpRx
  repeat' first
    | decide
    | with_reducible exact Only.refl _ _
    | with_reducible apply Only.then State.offsetSample_only
    | with_reducible apply Only.then State.setDom_only
    | split
    | dsimp only

theorem ptpManagementGet_only {x0 : _} {x1 : _} {s : State} : Only 0x4000000 s (ptpManagementGet x0 x1 s) := by
  unfold ptpManagementGet
  repeat' first
    | decide
    | with_reducible exact Only.refl _ _
    | with_reducible apply Only.then State.ptpOut_only
    | with_reducible apply Only.then State.emit_only
    | split

theorem ptpManagementRefuse_only {x0 : _} {x1 : _} {s : State} : Only 0x4000000 s (ptpManagementRefuse x0 x1 s) := by
  unfold ptpManagementRefuse
  repeat' first
    | decide
    | with_reducible exact Only.refl _ _
    | with_reducible apply Only.then State.ptpOut_only
    | with_reducible apply Only.then State.emit_only
    | split

theorem ptpPdelayReqRx_only {x0 : _} {x1 : _} {s : State} : Only 0x4000100 s (ptpPdelayReqRx x0 x1 s) := by
  unfold ptpPdelayReqRx
  repeat' first
    | decide
    | with_reducible exact Only.refl _ _
    | dsimp only
    | (simp only [Only.lit]; with_reducible apply Only.upd (hpending := rfl) <;> first | exact Or.inl rfl | exact Or.inr (by with_reducible rfl) | skip)
    | with_reducible apply Only.then State.ptpOut_only
    | with_reducible apply Only.then State.emit_only
    | split

theorem ptpPdelayRespRx_only {x0 : _} {x1 : _} {x2 : _} {x3 : _} {s : State} : Only 0x400000000000000100 s (ptpPdelayRespRx x0 x1 x2 x3 s) := by
  unfold ptpPdelayRespRx
  repeat' first
    | decide
    | with_reducible exact Only.refl _ _
    | with_reducible apply Only.then State.setMpd_only
    | with_reducible apply Only.then (State.setFs_only ?_)
    | split
    | dsimp only

theorem ptpSyncRx_only {x0 : _} {x1 : _} {x2 : _} {x3 : _} {s : State} : Only 0x20002000000100000000000200380010000000000100000000000008000000000001000000000002000000000000400000000100000000000002000000000020000000800004be0218000004000b88 s (ptpSyncRx x0 x1 x2 x3 s) := by
  unfold ptpSyncRx
  repeat' first
    | decide
    | with_reducible exact Only.refl _ _
    | with_reducible apply Only.then State.setDom_only
    | with_reducible apply Only.then State.offsetSample_only
    | split
    | dsimp only

theorem ptpWaitExpire_only {s : State} : Only 0x180 s (ptpWaitExpire s) := by
  unfold ptpWaitExpire
  repeat' first
    | decide
    | with_reducible exact Only.refl _ _
    | with_reducible apply Only.then State.endPtpWait_only

theorem ref10mEdge_only {x0 : _} {x1 : _} {s : State} : Only 0x20002000000100000000000200380010000000000100000000000008000000000001000000000002000000000000400000000100000000000002000000000020000000800004000218000004000b08 s (ref10mEdge x0 x1 s) := by
  unfold ref10mEdge
  repeat' first
    | decide
    | with_reducible exact Only.refl _ _
    | with_reducible apply Only.then (State.setB_only ?_)
    | with_reducible apply Only.then (State.setFs_only ?_)
    | with_reducible apply Only.then State.event_only
    | split
    | dsimp only
    | (simp only [Only.lit]; with_reducible apply Only.upd (hpending := rfl) <;> first | exact Or.inl rfl | exact Or.inr (by with_reducible rfl) | skip)

theorem selectionEval_only {s : State} : Only 0x20002000000100000000000200380010000000000100000000000008000000000001000000000002000000000000400000000100000000000002000000000020000000800004005418000004000b08 s (selectionEval s) := by
  unfold selectionEval
  repeat' first
    | decide
    | with_reducible exact Only.refl _ _
    | with_reducible apply Only.then State.switchTo_only
    | with_reducible apply Only.then State.setTimeState_only
    | split
    | dsimp only

theorem slipHoldExpire_only {x0 : _} {s : State} : Only 0x40000000000000000000100 s (slipHoldExpire x0 s) := by
  unfold slipHoldExpire
  repeat' first
    | decide
    | with_reducible exact Only.refl _ _
    | with_reducible apply Only.then (State.setB_only ?_)
    | with_reducible apply Only.then State.setMon_only
    | split
    | dsimp only

theorem State.trackRate_only {s : State} {x1 : _} {x2 : _} : Only 0x100 s (State.trackRate s x1 x2).1 := by
  unfold State.trackRate
  repeat' first
    | with_reducible assumption
    | decide
    | with_reducible exact Only.refl _ _
    | with_reducible apply Only.then State.setMon_only
    | with_reducible apply Only.foldl
    | with_reducible apply Only.foldl1
    | intro _ _ _
    | split
    | dsimp only

theorem State.trackedUpdate_only {s : State} {x1 : _} {x2 : _} : Only 0x200020000001000000000002003800100000000001000000000000080000000000010000000000020000000000004000000001000000000000020000000000200000008f0004000008000004000b08 s (State.trackedUpdate s x1 x2) := by
  unfold State.trackedUpdate
  repeat' first
    | with_reducible assumption
    | decide
    | with_reducible exact Only.refl _ _
    | with_reducible apply Only.then State.trackRate_only
    | with_reducible apply Only.then State.offsetUpdate_only
    | with_reducible apply Only.then (State.setFs_only ?_)
    | with_reducible apply Only.foldl
    | with_reducible apply Only.foldl1
    | intro _ _ _
    | split
    | dsimp only

/-! ## Commands -/

theorem execDeviceTimeTick_only {s : State} {t : State} (h : execDeviceTimeTick s = .next t) : Only 0x400000000000100 s t := by
  simp only [execDeviceTimeTick, done, whenUp, whenOn] at h
  injection h with h
  subst h
  repeat' first
    | decide
    | with_reducible exact Only.refl _ _
    | with_reducible apply Only.then deviceTimeTick_only
    | split

theorem execSlipHoldExpire_only {x0 : _} {s : State} {t : State} (h : execSlipHoldExpire x0 s = .next t) : Only 0x40000000000000000000100 s t := by
  simp only [execSlipHoldExpire, done, whenUp, whenOn] at h
  injection h with h
  subst h
  repeat' first
    | decide
    | with_reducible exact Only.refl _ _
    | with_reducible apply Only.then slipHoldExpire_only
    | split

theorem execPpsEdge_only {x0 : _} {x1 : _} {s : State} {t : State} (h : execPpsEdge x0 x1 s = .next t) : Only 0x20002000000100000000000200380010000000000100000000000008000000000001000000000002000000000000400000000100000000000002000000000020000000800004002418000004000b08 s t := by
  simp only [execPpsEdge, done, whenUp, whenOn] at h
  injection h with h
  subst h
  repeat' first
    | decide
    | with_reducible exact Only.refl _ _
    | with_reducible apply Only.then ppsEdge_only
    | split

theorem execPpsInputLost_only {s : State} {t : State} (h : execPpsInputLost s = .next t) : Only 0x20002000000100000000000200380010000000000100000000000008000000000001000000000002000000000000400000000100000000000002000000000020000000800004000018000004000b08 s t := by
  simp only [execPpsInputLost, done, whenUp, whenOn] at h
  injection h with h
  subst h
  repeat' first
    | decide
    | with_reducible exact Only.refl _ _
    | with_reducible apply Only.then ppsInputLost_only
    | split

theorem execSelectionEval_only {s : State} {t : State} (h : execSelectionEval s = .next t) : Only 0x20002000000100000000000200380010000000000100000000000008000000000001000000000002000000000000400000000100000000000002000000000020000000800004005418000004000b08 s t := by
  simp only [execSelectionEval, done, whenUp, whenOn] at h
  injection h with h
  subst h
  repeat' first
    | decide
    | with_reducible exact Only.refl _ _
    | with_reducible apply Only.then selectionEval_only
    | split

theorem execPtpAnnounceRx_only {x0 : _} {x1 : _} {x2 : _} {s : State} {t : State} (h : execPtpAnnounceRx x0 x1 x2 s = .next t) : Only 0x20002000000100000000000200380010000000000100000000000008000000000001000000000002000000000000400000000100000000000002000000000020000000800004be1018000004000b88 s t := by
  simp only [execPtpAnnounceRx, done, whenUp, whenOn] at h
  injection h with h
  subst h
  repeat' first
    | decide
    | with_reducible exact Only.refl _ _
    | with_reducible apply Only.then ptpAnnounceRx_only
    | split

theorem execHoldoverLimitExpire_only {s : State} {t : State} (h : execHoldoverLimitExpire s = .next t) : Only 0x20002000000100000000000200380010000000000100000000000008000000000001000000000002000000000000400000000100000000000002000000000020000000800004000018000004000b08 s t := by
  simp only [execHoldoverLimitExpire, done, whenUp, whenOn] at h
  injection h with h
  subst h
  repeat' first
    | decide
    | with_reducible exact Only.refl _ _
    | with_reducible apply Only.then holdoverLimitExpire_only
    | split

theorem execPtpManagementGet_only {x0 : _} {x1 : _} {s : State} {t : State} (h : execPtpManagementGet x0 x1 s = .next t) : Only 0x4000000 s t := by
  simp only [execPtpManagementGet, done, whenUp, whenOn] at h
  injection h with h
  subst h
  repeat' first
    | decide
    | with_reducible exact Only.refl _ _
    | with_reducible apply Only.then ptpManagementGet_only
    | split

theorem execPtpFollowUpRx_only {x0 : _} {x1 : _} {x2 : _} {s : State} {t : State} (h : execPtpFollowUpRx x0 x1 x2 s = .next t) : Only 0x20002000000100000000000200380010000000000100000000000008000000000001000000000002000000000000400000000100000000000002000000000020000000800004be0218000004000b88 s t := by
  simp only [execPtpFollowUpRx, done, whenUp, whenOn] at h
  injection h with h
  subst h
  repeat' first
    | decide
    | with_reducible exact Only.refl _ _
    | with_reducible apply Only.then ptpFollowUpRx_only
    | split

theorem execPtpSyncRx_only {x0 : _} {x1 : _} {x2 : _} {x3 : _} {s : State} {t : State} (h : execPtpSyncRx x0 x1 x2 x3 s = .next t) : Only 0x20002000000100000000000200380010000000000100000000000008000000000001000000000002000000000000400000000100000000000002000000000020000000800004be0218000004000b88 s t := by
  simp only [execPtpSyncRx, done, whenUp, whenOn] at h
  injection h with h
  subst h
  repeat' first
    | decide
    | with_reducible exact Only.refl _ _
    | with_reducible apply Only.then ptpSyncRx_only
    | split

theorem execCaptureEdge_only {x0 : _} {x1 : _} {x2 : _} {x3 : _} {s : State} {t : State} (h : execCaptureEdge x0 x1 x2 x3 s = .next t) : Only 0x2000200000010000000000020038001000000000010000000000000800000000000100000000000200000000000040000000010000000000000200000000002000000080f004000008000004000b08 s t := by
  simp only [execCaptureEdge, done, whenUp, whenOn] at h
  injection h with h
  subst h
  repeat' first
    | decide
    | with_reducible exact Only.refl _ _
    | with_reducible apply Only.then captureEdge_only
    | split

theorem execPtpPdelayReqRx_only {x0 : _} {x1 : _} {s : State} {t : State} (h : execPtpPdelayReqRx x0 x1 s = .next t) : Only 0x4000100 s t := by
  simp only [execPtpPdelayReqRx, done, whenUp, whenOn] at h
  injection h with h
  subst h
  repeat' first
    | decide
    | with_reducible exact Only.refl _ _
    | with_reducible apply Only.then ptpPdelayReqRx_only
    | split

theorem execPtpManagementCommand_only {x0 : _} {x1 : _} {s : State} {t : State} (h : execPtpManagementCommand x0 x1 s = .next t) : Only 0x4000000 s t := by
  simp only [execPtpManagementCommand, done, whenUp, whenOn] at h
  injection h with h
  subst h
  repeat' first
    | decide
    | with_reducible exact Only.refl _ _
    | with_reducible apply Only.then ptpManagementRefuse_only
    | split

theorem execPtpWaitExpire_only {s : State} {t : State} (h : execPtpWaitExpire s = .next t) : Only 0x180 s t := by
  simp only [execPtpWaitExpire, done, whenUp, whenOn] at h
  injection h with h
  subst h
  repeat' first
    | decide
    | with_reducible exact Only.refl _ _
    | with_reducible apply Only.then ptpWaitExpire_only
    | split

theorem execExposureTriggerEdge_only {x0 : _} {s : State} {t : State} (h : execExposureTriggerEdge x0 s = .next t) : Only 0x400000000000004000100 s t := by
  simp only [execExposureTriggerEdge, done, whenUp, whenOn] at h
  injection h with h
  subst h
  repeat' first
    | decide
    | with_reducible exact Only.refl _ _
    | with_reducible apply Only.then exposureTriggerEdge_only
    | split

theorem execHeldClear_only {x0 : _} {s : State} {t : State} (h : execHeldClear x0 s = .next t) : Only 0x40000000000000000000000 s t := by
  simp only [execHeldClear, done, whenUp, whenOn] at h
  injection h with h
  subst h
  repeat' first
    | decide
    | with_reducible exact Only.refl _ _
    | with_reducible apply Only.then heldClear_only
    | split

theorem execPtpDelayReqTx_only {x0 : _} {s : State} {t : State} (h : execPtpDelayReqTx x0 s = .next t) : Only 0x4000100 s t := by
  simp only [execPtpDelayReqTx, done, whenUp, whenOn] at h
  injection h with h
  subst h
  repeat' first
    | decide
    | with_reducible exact Only.refl _ _
    | with_reducible apply Only.then ptpDelayReqTx_only
    | split

theorem execPtpDelayRespRx_only {x0 : _} {x1 : _} {x2 : _} {s : State} {t : State} (h : execPtpDelayRespRx x0 x1 x2 s = .next t) : Only 0x400000000000000100 s t := by
  simp only [execPtpDelayRespRx, done, whenUp, whenOn] at h
  injection h with h
  subst h
  repeat' first
    | decide
    | with_reducible exact Only.refl _ _
    | with_reducible apply Only.then ptpDelayRespRx_only
    | split

theorem execRef10mEdge_only {x0 : _} {x1 : _} {s : State} {t : State} (h : execRef10mEdge x0 x1 s = .next t) : Only 0x20002000000100000000000200380010000000000100000000000008000000000001000000000002000000000000400000000100000000000002000000000020000000800004000218000004000b08 s t := by
  simp only [execRef10mEdge, done, whenUp, whenOn] at h
  injection h with h
  subst h
  repeat' first
    | decide
    | with_reducible exact Only.refl _ _
    | with_reducible apply Only.then ref10mEdge_only
    | split

theorem execPtpPdelayRespRx_only {x0 : _} {x1 : _} {x2 : _} {x3 : _} {s : State} {t : State} (h : execPtpPdelayRespRx x0 x1 x2 x3 s = .next t) : Only 0x400000000000000100 s t := by
  simp only [execPtpPdelayRespRx, done, whenUp, whenOn] at h
  injection h with h
  subst h
  repeat' first
    | decide
    | with_reducible exact Only.refl _ _
    | with_reducible apply Only.then ptpPdelayRespRx_only
    | split

theorem execHoldErrUpdate_only {s : State} {t : State} (h : execHoldErrUpdate s = .next t) : Only 0x800000000000100 s t := by
  simp only [execHoldErrUpdate, done, whenUp, whenOn] at h
  injection h with h
  subst h
  repeat' first
    | decide
    | with_reducible exact Only.refl _ _
    | with_reducible apply Only.then holdErrUpdate_only
    | split

theorem execPtpManagementSet_only {x0 : _} {x1 : _} {s : State} {t : State} (h : execPtpManagementSet x0 x1 s = .next t) : Only 0x4000000 s t := by
  simp only [execPtpManagementSet, done, whenUp, whenOn] at h
  injection h with h
  subst h
  repeat' first
    | decide
    | with_reducible exact Only.refl _ _
    | with_reducible apply Only.then ptpManagementRefuse_only
    | split

theorem execAnnounceReceiptTimeout_only {x0 : _} {x1 : _} {s : State} {t : State} (h : execAnnounceReceiptTimeout x0 x1 s = .next t) : Only 0x20002000000100000000000200380010000000000100000000000008000000000001000000000002000000000000400000000100000000000002000000000020000000800004be0018000004000b88 s t := by
  simp only [execAnnounceReceiptTimeout, done, whenUp, whenOn] at h
  injection h with h
  subst h
  repeat' first
    | decide
    | with_reducible exact Only.refl _ _
    | with_reducible apply Only.then announceReceiptTimeout_only
    | split

end Sys2Proof.Machine
end

