-- ==== Sys2Proof/Laws/BoundIngest.lean ====
section
/-!
SUPPORT. What each function of Machine/Ingest.lean can change at most.
-/

namespace Sys2Proof.Machine
open Sys2Proof Sys2Proof.Safety

theorem State.setSns_only {s : State} {x1 : _} {x2 : _} : Only 0x8000 s (State.setSns s x1 x2) := by
  unfold State.setSns
  repeat' first
    | decide
    | with_reducible exact Only.refl _ _
    | dsimp only
    | (simp only [Only.lit]; with_reducible apply Only.upd (hpending := rfl) <;> first | exact Or.inl rfl | exact Or.inr (by with_reducible rfl) | skip)

theorem State.syncActive_only {s : State} {x1 : _} : Only 0x400000000000000000000000 s (State.syncActive s x1) := by
  unfold State.syncActive
  repeat' first
    | decide
    | with_reducible exact Only.refl _ _
    | with_reducible apply Only.then (State.setF_only ?_)
    | split
    | dsimp only

theorem State.ingAdvance_only {s : State} {x1 : _} {x2 : _} {x3 : _} : Only 0x20002000020100000000000211b80010000000000100000000000008000000000001000000000002000000000000400000000100000000000002000000000020000000800004000008000006088e0c s (State.ingAdvance s x1 x2 x3) := by
  unfold State.ingAdvance
  repeat' first
    | decide
    | with_reducible exact Only.refl _ _
    | with_reducible apply Only.then State.setSns_only
    | with_reducible apply Only.then State.advance_only

theorem State.endFrame_only {s : State} {x1 : _} {x2 : _} {x3 : _} : Only 0x20002000020100000000000211b80010000000000100000000000008000000000001000000000002010041300000400000000100000000000002000000000027000000c00004000008000006088e0e s (State.endFrame s x1 x2 x3) := by
  unfold State.endFrame
  repeat' first
    | decide
    | with_reducible exact Only.refl _ _
    | with_reducible apply Only.then State.wrList_only
    | with_reducible apply Only.then (State.setF_only ?_)
    | with_reducible apply Only.then State.setSns_only
    | with_reducible apply Only.then State.syncActive_only
    | with_reducible apply Only.then State.event_only
    | with_reducible apply Only.then (State.addSat_only ?_)
    | with_reducible apply Only.then State.ingAdvance_only
    | split
    | dsimp only

theorem State.absentFrame_only {s : State} {x1 : _} : Only 0x20002000020100000000000211b80010000000000100000000000008000000000001000000000002010041300000400000000100000000000002000000000027000000c00004000008000006088e0e s (State.absentFrame s x1) := by
  unfold State.absentFrame
  repeat' first
    | decide
    | with_reducible exact Only.refl _ _
    | with_reducible apply Only.then State.setSns_only
    | with_reducible apply Only.then State.event_only
    | with_reducible apply Only.then (State.addSat_only ?_)
    | with_reducible apply Only.then State.endFrame_only
    | split
    | dsimp only

theorem State.setFrame_only {s : State} {x1 : _} {x2 : _} : Only 0x8000 s (State.setFrame s x1 x2) := by
  unfold State.setFrame
  repeat' first
    | decide
    | with_reducible exact Only.refl _ _
    | with_reducible apply Only.then State.setSns_only
    | dsimp only

theorem State.writeBand_only {s : State} {x1 : _} {x2 : _} {x3 : _} {x4 : _} {x5 : _} : Only 0x10041300000000000000000000000000000000000000000000000000000000000000000080002 s (State.writeBand s x1 x2 x3 x4 x5) := by
  unfold State.writeBand
  repeat' first
    | with_reducible assumption
    | decide
    | with_reducible exact Only.refl _ _
    | with_reducible apply Only.then State.wrList_only
    | with_reducible apply Only.foldl
    | with_reducible apply Only.foldl1
    | intro _ _ _
    | split
    | dsimp only

theorem State.storeBand_only {s : State} {x1 : _} {x2 : _} {x3 : _} {x4 : _} : Only 0x20002000020100000000000211b80010000000000100000000000008000000000001000000000002010041300000400000000100000000000002000000000020000000800004000008000006088e0e s (State.storeBand s x1 x2 x3 x4) := by
  unfold State.storeBand
  repeat' first
    | decide
    | with_reducible exact Only.refl _ _
    | with_reducible apply Only.then State.writeBand_only
    | with_reducible apply Only.then State.setFrame_only
    | with_reducible apply Only.then State.ingAdvance_only
    | split
    | dsimp only

theorem State.closeBands_only {s : State} {x1 : _} {x2 : _} : Only 0x20002000020100000000000211b80010000000000100000000000008000000000001000000000002010041300000400000000100000000000002000000000020000000800004000008000006088e0e s (State.closeBands s x1 x2) := by
  induction x2 generalizing s x1 with
  | zero =>
    unfold State.closeBands
    repeat' first
      | decide
      | with_reducible exact Only.refl _ _
      | with_reducible apply Only.then State.ingAdvance_only
      | with_reducible apply Only.then State.setFrame_only
      | with_reducible apply Only.then State.storeBand_only
      | split
      | dsimp only
  | succ n ih =>
    unfold State.closeBands
    repeat' first
      | decide
      | with_reducible exact Only.refl _ _
      | with_reducible apply Only.then ih
      | with_reducible apply Only.then State.ingAdvance_only
      | with_reducible apply Only.then State.setFrame_only
      | with_reducible apply Only.then State.storeBand_only
      | split
      | dsimp only

theorem State.putLine_only {s : State} {x1 : _} {x2 : _} {x3 : _} : Only 0x20002000020100000000000211b80010000000000100000000000008000000000001000000000002010041300000400000000100000000000002000000000020000000800004000008000006088e0e s (State.putLine s x1 x2 x3) := by
  unfold State.putLine
  repeat' first
    | decide
    | with_reducible exact Only.refl _ _
    | with_reducible apply Only.then State.storeBand_only
    | with_reducible apply Only.then State.setFrame_only
    | split
    | dsimp only

theorem State.notePeak_only {s : State} {x1 : _} : Only 0x10000000000000000000008400 s (State.notePeak s x1) := by
  unfold State.notePeak
  repeat' first
    | with_reducible assumption
    | decide
    | with_reducible exact Only.refl _ _
    | with_reducible apply State.tele_only (hs := fun _ _ => ?_)
    | with_reducible apply Only.then (State.setF_only ?_)
    | with_reducible apply Only.foldl
    | with_reducible apply Only.foldl1
    | intro _ _ _
    | split
    | dsimp only
    | (simp only [Only.lit]; with_reducible apply Only.upd (hpending := rfl) <;> first | exact Or.inl rfl | exact Or.inr (by with_reducible rfl) | skip)

theorem State.overflow_only {s : State} {x1 : _} {x2 : _} : Only 0x20002000000100000000000200380010000000000100000000000008000000000001000000000002000000000000400000000100000000000002000000000028000010800004000008000004008e08 s (State.overflow s x1 x2) := by
  unfold State.overflow
  repeat' first
    | decide
    | with_reducible exact Only.refl _ _
    | with_reducible apply Only.then State.notePeak_only
    | with_reducible apply Only.then State.setFrame_only
    | with_reducible apply Only.then State.event_only
    | with_reducible apply Only.then (State.addSat_only ?_)
    | dsimp only

theorem State.flushBand_only {s : State} {x1 : _} {x2 : _} : Only 0x20002000020100000000000211b80010000000000100000000000008000000000001000000000002010041300000400000000100000000000002000000000020000000800004000008000006088e0e s (State.flushBand s x1 x2) := by
  unfold State.flushBand
  repeat' first
    | with_reducible assumption
    | decide
    | with_reducible exact Only.refl _ _
    | with_reducible apply Only.then State.storeBand_only
    | with_reducible apply Only.foldl
    | with_reducible apply Only.foldl1
    | intro _ _ _
    | split
    | dsimp only

theorem State.placeLine_only {s : State} {x1 : _} {x2 : _} {x3 : _} : Only 0x20002000020100000000000211b80010000000000100000000000008000000000001000000000002010041300000400000000100000000000002000000000028000010800004000008000006088e0e s (State.placeLine s x1 x2 x3) := by
  unfold State.placeLine
  repeat' first
    | with_reducible assumption
    | decide
    | with_reducible exact Only.refl _ _
    | with_reducible apply Only.then State.putLine_only
    | with_reducible apply Only.then State.notePeak_only
    | with_reducible apply Only.then State.setFrame_only
    | with_reducible apply Only.then State.overflow_only
    | with_reducible apply Only.foldl
    | with_reducible apply Only.foldl1
    | intro _ _ _
    | split
    | dsimp only

theorem State.takeLine_only {s : State} {x1 : _} {x2 : _} {x3 : _} : Only 0x20002000020100000000000211b80010000000000100000000000008000000000001000000000002010041300000400000000100000000000002000000000028000010800004000008000006088e0e s (State.takeLine s x1 x2 x3) := by
  unfold State.takeLine
  repeat' first
    | decide
    | with_reducible exact Only.refl _ _
    | with_reducible apply Only.then State.placeLine_only
    | with_reducible apply Only.then State.flushBand_only
    | with_reducible apply Only.then State.setFrame_only
    | with_reducible apply Only.then State.putLine_only
    | with_reducible apply Only.then State.notePeak_only
    | with_reducible apply Only.then State.overflow_only
    | split
    | dsimp only

theorem State.endRow_only {s : State} {x1 : _} : Only 0x20002000020100000000000211b80010000000000100000000000008000000000001000000000002010041300000400000000100000000000002000000000028000010800004000008000006088e0e s (State.endRow s x1) := by
  unfold State.endRow
  repeat' first
    | decide
    | with_reducible exact Only.refl _ _
    | with_reducible apply Only.then State.takeLine_only
    | with_reducible apply Only.then State.setFrame_only
    | split
    | dsimp only

theorem State.closeFrame_only {s : State} {x1 : _} {x2 : _} : Only 0x20002000020100000000000211b8001000000000010000000000000800000000000100000000000201004130000040000000010000000000000200000000002f000010c00004000008000006088e0e s (State.closeFrame s x1 x2) := by
  unfold State.closeFrame
  repeat' first
    | decide
    | with_reducible exact Only.refl _ _
    | with_reducible apply Only.then State.endRow_only
    | with_reducible apply Only.then State.setFrame_only
    | with_reducible apply Only.then State.notePeak_only
    | with_reducible apply Only.then State.overflow_only
    | with_reducible apply Only.then State.closeBands_only
    | with_reducible apply Only.then State.endFrame_only
    | split
    | dsimp only

theorem State.drain_only {s : State} {x1 : _} {x2 : _} : Only 0x20002000020100000000000211b80010000000000100000000000008000000000001000000000002010041300000400000000100000000000002000000000020000000800004000008000006088e0e s (State.drain s x1 x2) := by
  induction x2 generalizing s with
  | nil => exact Only.refl _ _
  | cons l ls ih =>
    unfold State.drain
    repeat' first
      | decide
      | with_reducible exact Only.refl _ _
      | with_reducible apply Only.then State.flushBand_only
      | with_reducible apply Only.then ih
      | with_reducible apply Only.then State.putLine_only
      | split
      | dsimp only

theorem State.portSeen_only {s : State} {x1 : _} : Only 0x2000000000000000000008000 s (State.portSeen s x1) := by
  unfold State.portSeen
  repeat' first
    | decide
    | with_reducible exact Only.refl _ _
    | dsimp only
    | (simp only [Only.lit]; with_reducible apply Only.upd (hpending := rfl) <;> first | exact Or.inl rfl | exact Or.inr (by with_reducible rfl) | skip)
    | with_reducible apply Only.then (State.setB_only ?_)
    | with_reducible apply Only.then (State.setF_only ?_)
    | split

theorem State.header_only {s : State} {x1 : _} {x2 : _} : Only 0x20002000000100000000000200380010000000000100000000000008000000000001000000000002000000000000400000000100000000000002000000000020000006800004000008000004008a08 s (State.header s x1 x2).1 := by
  unfold State.header
  repeat' first
    | with_reducible assumption
    | decide
    | with_reducible exact Only.refl _ _
    | with_reducible apply Only.then State.portSeen_only
    | with_reducible apply Only.then State.event_only
    | with_reducible apply Only.then (State.addSat_only ?_)
    | with_reducible apply Only.then State.setFrame_only
    | with_reducible apply Only.foldl
    | with_reducible apply Only.foldl1
    | intro _ _ _
    | split
    | dsimp only

theorem State.takePulses_only {s : State} {x1 : _} {x2 : _} : Only 0x100 s (State.takePulses s x1 x2) := by
  unfold State.takePulses
  repeat' first
    | with_reducible assumption
    | decide
    | with_reducible exact Only.refl _ _
    | with_reducible apply Only.foldl
    | with_reducible apply Only.foldl1
    | intro _ _ _
    | split
    | dsimp only
    | (simp only [Only.lit]; with_reducible apply Only.upd (hpending := rfl) <;> first | exact Or.inl rfl | exact Or.inr (by with_reducible rfl) | skip)

theorem State.noteStart_only {s : State} {x1 : _} {x2 : _} {x3 : _} : Only 0x8000000080000000000000000000100 s (State.noteStart s x1 x2 x3) := by
  unfold State.noteStart
  repeat' first
    | with_reducible assumption
    | decide
    | with_reducible exact Only.refl _ _
    | with_reducible apply Only.then State.takePulses_only
    | with_reducible apply Only.then (State.addSat_only ?_)
    | with_reducible apply Only.then (State.setFs_only ?_)
    | with_reducible apply Only.foldl
    | with_reducible apply Only.foldl1
    | intro _ _ _
    | split
    | dsimp only

theorem State.openFrame_only {s : State} {x1 : _} {x2 : _} : Only 0x3fffffffffffffffffffffffffffffffffffffffffffffffffffffffffffffffffffffffffffffffffffffffffffffffffffffffffffffffffffffffffffffffffffffffffffffffffffffffff400cb09 s (State.openFrame s x1 x2) := by
  unfold State.openFrame
  repeat' first
    | decide
    | with_reducible exact Only.refl _ _
    | with_reducible apply Only.then State.noteStart_only
    | with_reducible apply Only.then State.takePulses_only
    | with_reducible apply Only.then State.trackRate_only
    | with_reducible apply Only.then State.takeDeferred_only
    | with_reducible apply Only.then State.event_only
    | with_reducible apply Only.then (State.addSat_only ?_)
    | with_reducible apply Only.then State.setSns_only
    | with_reducible apply Only.then (State.setFs_only ?_)
    | with_reducible apply Only.then State.offsetUpdate_only
    | split
    | dsimp only
    | (simp only [Only.lit]; with_reducible apply Only.upd (hpending := rfl) <;> first | exact Or.inl rfl | exact Or.inr (by with_reducible rfl) | skip)

theorem State.seqGap_only {s : State} {x1 : _} {x2 : _} : Only 0x400000000000000000000008000 s (State.seqGap s x1 x2) := by
  unfold State.seqGap
  repeat' first
    | decide
    | with_reducible exact Only.refl _ _
    | with_reducible apply Only.then (State.addSat_only ?_)
    | with_reducible apply Only.then State.setFrame_only
    | split
    | dsimp only

theorem State.skipRows_only {s : State} {x1 : _} {x2 : _} : Only 0x20002000020100000000000211b80010000000000100000000000008000000000001000000000002010041300000400000000100000000000002000000000028000010800004000008000006088e0e s (State.skipRows s x1 x2) := by
  induction x2 generalizing s x1 with
  | zero =>
    unfold State.skipRows
    repeat' first
      | decide
      | with_reducible exact Only.refl _ _
      | with_reducible apply Only.then State.takeLine_only
      | split
      | dsimp only
  | succ n ih =>
    unfold State.skipRows
    repeat' first
      | decide
      | with_reducible exact Only.refl _ _
      | with_reducible apply Only.then ih
      | with_reducible apply Only.then State.takeLine_only
      | split
      | dsimp only

theorem State.takeSeg_only {s : State} {x1 : _} {x2 : _} : Only 0x20002000020100000000000211b80010000000000100000000000008000000000001000000000002010041300000400000000100000000000002000000000028000010800004000008000006088e0e s (State.takeSeg s x1 x2) := by
  unfold State.takeSeg
  repeat' first
    | decide
    | with_reducible exact Only.refl _ _
    | with_reducible apply Only.then State.endRow_only
    | with_reducible apply Only.then State.skipRows_only
    | with_reducible apply Only.then State.setFrame_only
    | split
    | dsimp only

theorem State.stAccept_only {s : State} {x1 : _} {x2 : _} {x3 : _} {x4 : _} : Only 0x3fffffffffffffffffffffffffffffffffffffffffffffffffffffffffffffffffffffffffffffffffffffffffffffffffffffffffffffffffffffffffffffffffffffffffffffffffffffffff608cf0f s (State.stAccept s x1 x2 x3 x4) := by
  unfold State.stAccept
  repeat' first
    | with_reducible assumption
    | decide
    | with_reducible exact Only.refl _ _
    | with_reducible apply Only.then State.takeDeferred_only
    | with_reducible apply Only.then (State.addWrap_only ?_)
    | with_reducible apply Only.then State.closeFrame_only
    | with_reducible apply Only.then State.setSns_only
    | with_reducible apply Only.then State.event_only
    | with_reducible apply Only.then (State.addSat_only ?_)
    | with_reducible apply Only.then State.offsetUpdate_only
    | with_reducible apply Only.then State.takeSeg_only
    | with_reducible apply Only.foldl
    | with_reducible apply Only.foldl1
    | intro _ _ _
    | split
    | dsimp only

theorem State.stDeliver_only {s : State} {x1 : _} {x2 : _} {x3 : _} {x4 : _} : Only 0x3fffffffffffffffffffffffffffffffffffffffffffffffffffffffffffffffffffffffffffffffffffffffffffffffffffffffffffffffffffffffffffffffffffffffffffffffffffffffff608cf0f s (State.stDeliver s x1 x2 x3 x4) := by
  unfold State.stDeliver
  repeat' first
    | decide
    | with_reducible exact Only.refl _ _
    | with_reducible apply Only.then State.stAccept_only
    | with_reducible apply Only.then (State.addSat_only ?_)
    | split

theorem State.stRun_only {s : State} {x1 : _} {x2 : _} {x3 : _} : Only 0x3fffffffffffffffffffffffffffffffffffffffffffffffffffffffffffffffffffffffffffffffffffffffffffffffffffffffffffffffffffffffffffffffffffffffffffffffffffffffff608cf0f s (State.stRun s x1 x2 x3) := by
  induction x3 generalizing s x1 x2 with
  | zero =>
    unfold State.stRun
    repeat' first
      | with_reducible assumption
      | decide
      | with_reducible exact Only.refl _ _
      | with_reducible apply Only.then State.seqGap_only
      | with_reducible apply Only.then State.stDeliver_only
      | with_reducible apply Only.foldl
      | with_reducible apply Only.foldl1
      | intro _ _ _
      | split
      | dsimp only
      | (simp only [Only.lit]; with_reducible apply Only.upd (hpending := rfl) <;> first | exact Or.inl rfl | exact Or.inr (by with_reducible rfl) | skip)
  | succ n ih =>
    unfold State.stRun
    repeat' first
      | with_reducible assumption
      | decide
      | with_reducible exact Only.refl _ _
      | with_reducible apply Only.then ih
      | with_reducible apply Only.then State.seqGap_only
      | with_reducible apply Only.then State.stDeliver_only
      | with_reducible apply Only.foldl
      | with_reducible apply Only.foldl1
      | intro _ _ _
      | split
      | dsimp only
      | (simp only [Only.lit]; with_reducible apply Only.upd (hpending := rfl) <;> first | exact Or.inl rfl | exact Or.inr (by with_reducible rfl) | skip)

theorem State.unmapped_only {s : State} {x1 : _} : Only 0x10000000000000000000000000 s (State.unmapped s x1) := by
  unfold State.unmapped
  repeat' first
    | decide
    | with_reducible exact Only.refl _ _
    | with_reducible apply Only.then (State.addSat_only ?_)

theorem bandSlotFree_only {x0 : _} {s : State} : Only 0x20002000020100000000000211b80010000000000100000000000008000000000001000000000002010041300000400000000100000000000002000000000020000010800004000008000006088e0e s (bandSlotFree x0 s) := by
  unfold bandSlotFree
  repeat' first
    | decide
    | with_reducible exact Only.refl _ _
    | with_reducible apply Only.then State.notePeak_only
    | with_reducible apply Only.then State.drain_only
    | split
    | dsimp only

theorem csi2FrameEnd_only {x0 : _} {x1 : _} {x2 : _} {s : State} : Only 0x20002000020100000000000211b8001000000000010000000000000800000000000100000000000201004130000040000000010000000000000200000000002f000016c00004000008000006088e0e s (csi2FrameEnd x0 x1 x2 s) := by
  unfold csi2FrameEnd
  repeat' first
    | with_reducible assumption
    | decide
    | with_reducible exact Only.refl _ _
    | with_reducible apply Only.then State.header_only
    | with_reducible apply Only.then State.unmapped_only
    | with_reducible apply Only.then State.closeFrame_only
    | with_reducible apply Only.foldl
    | with_reducible apply Only.foldl1
    | intro _ _ _
    | split
    | dsimp only

theorem csi2FrameStart_only {x0 : _} {x1 : _} {x2 : _} {s : State} : Only 0x3fffffffffffffffffffffffffffffffffffffffffffffffffffffffffffffffffffffffffffffffffffffffffffffffffffffffffffffffffffffffffffffffffffffffffffffffffffffffff608cf0f s (csi2FrameStart x0 x1 x2 s) := by
  unfold csi2FrameStart
  repeat' first
    | with_reducible assumption
    | decide
    | with_reducible exact Only.refl _ _
    | with_reducible apply Only.then State.header_only
    | with_reducible apply Only.then State.unmapped_only
    | with_reducible apply Only.then State.openFrame_only
    | with_reducible apply Only.then State.closeFrame_only
    | with_reducible apply Only.foldl
    | with_reducible apply Only.foldl1
    | intro _ _ _
    | split
    | dsimp only

theorem csi2IgnoredPacket_only {x0 : _} {x1 : _} {x2 : _} {x3 : _} {s : State} : Only 0x20002000000100000000000200380010000000000100000000000008000000000001000000000002000000000000400000000100000000000002000000000020000016800004000008000004008a08 s (csi2IgnoredPacket x0 x1 x2 x3 s) := by
  unfold csi2IgnoredPacket
  repeat' first
    | decide
    | with_reducible exact Only.refl _ _
    | with_reducible apply Only.then State.header_only
    | with_reducible apply Only.then State.unmapped_only
    | split
    | dsimp only

theorem csi2LaneSyncLoss_only {x0 : _} {x1 : _} {s : State} : Only 0x20002000000100000000000200380010000000000100000000000008000000000001000000000002000000000000400000000100000000000002000000000020000002800004000008000004000a08 s (csi2LaneSyncLoss x0 x1 s) := by
  unfold csi2LaneSyncLoss
  repeat' first
    | decide
    | with_reducible exact Only.refl _ _
    | with_reducible apply Only.then State.event_only
    | with_reducible apply Only.then (State.setF_only ?_)
    | split

theorem csi2LongPacket_only {x0 : _} {x1 : _} {x2 : _} {x3 : _} {x4 : _} {x5 : _} {s : State} : Only 0x20002000020100000000000211b8001000000000010000000000000800000000000100000000000201004130000040000000010000000000000200000000002800001e800004000008000006088e0e s (csi2LongPacket x0 x1 x2 x3 x4 x5 s) := by
  unfold csi2LongPacket
  repeat' first
    | decide
    | with_reducible exact Only.refl _ _
    | with_reducible apply Only.then State.header_only
    | with_reducible apply Only.then State.unmapped_only
    | with_reducible apply Only.then State.event_only
    | with_reducible apply Only.then (State.addSat_only ?_)
    | with_reducible apply Only.then State.takeLine_only
    | split
    | dsimp only

theorem frameTimeout_only {x0 : _} {s : State} : Only 0x20002000020100000000000211b8001000000000010000000000000800000000000100000000000201004130000040000000010000000000000200000000002f000010c00004000008000006088e0e s (frameTimeout x0 s) := by
  unfold frameTimeout
  repeat' first
    | decide
    | with_reducible exact Only.refl _ _
    | with_reducible apply Only.then State.closeFrame_only
    | with_reducible apply Only.then State.absentFrame_only
    | split

theorem st2110PacketRx_only {x0 : _} {s : State} : Only 0x3fffffffffffffffffffffffffffffffffffffffffffffffffffffffffffffffffffffffffffffffffffffffffffffffffffffffffffffffffffffffffffffffffffffffffffffffffffffffff608cf0f s (st2110PacketRx x0 s) := by
  unfold st2110PacketRx
  repeat' first
    | decide
    | with_reducible exact Only.refl _ _
    | with_reducible apply Only.then State.seqGap_only
    | with_reducible apply Only.then State.stRun_only
    | split
    | dsimp only
    | (simp only [Only.lit]; with_reducible apply Only.upd (hpending := rfl) <;> first | exact Or.inl rfl | exact Or.inr (by with_reducible rfl) | skip)

theorem State.joinNew_only {s : State} {x1 : _} : Only 0x4000000 s (State.joinNew s x1) := by
  unfold State.joinNew
  repeat' first
    | with_reducible assumption
    | decide
    | with_reducible exact Only.refl _ _
    | with_reducible apply Only.then State.emit_only
    | with_reducible apply Only.foldl
    | with_reducible apply Only.foldl1
    | intro _ _ _
    | split
    | dsimp only

theorem State.joinGroups_only {s : State} : Only 0x4000000 s (State.joinGroups s) := by
  unfold State.joinGroups
  repeat' first
    | with_reducible assumption
    | decide
    | with_reducible exact Only.refl _ _
    | with_reducible apply Only.then State.joinNew_only
    | with_reducible apply Only.then State.emit_only
    | with_reducible apply Only.foldl
    | with_reducible apply Only.foldl1
    | intro _ _ _
    | split
    | dsimp only
    | (simp only [Only.lit]; with_reducible apply Only.upd (hpending := rfl) <;> first | exact Or.inl rfl | exact Or.inr (by with_reducible rfl) | exact Or.inr ⟨rfl, fun w => Memory.wf_writeList _ w _⟩ | skip)

/-! ## Commands -/

theorem execBandSlotFree_only {x0 : _} {s : State} {t : State} (h : execBandSlotFree x0 s = .next t) : Only 0x20002000020100000000000211b80010000000000100000000000008000000000001000000000002010041300000400000000100000000000002000000000020000010800004000008000006088e0e s t := by
  simp only [execBandSlotFree, done, whenUp, whenOn] at h
  injection h with h
  subst h
  repeat' first
    | decide
    | with_reducible exact Only.refl _ _
    | with_reducible apply Only.then bandSlotFree_only
    | split

theorem execFrameTimeout_only {x0 : _} {s : State} {t : State} (h : execFrameTimeout x0 s = .next t) : Only 0x20002000020100000000000211b8001000000000010000000000000800000000000100000000000201004130000040000000010000000000000200000000002f000010c00004000008000006088e0e s t := by
  simp only [execFrameTimeout, done, whenUp, whenOn] at h
  injection h with h
  subst h
  repeat' first
    | decide
    | with_reducible exact Only.refl _ _
    | with_reducible apply Only.then frameTimeout_only
    | split

theorem execCsi2FrameEnd_only {x0 : _} {x1 : _} {x2 : _} {s : State} {t : State} (h : execCsi2FrameEnd x0 x1 x2 s = .next t) : Only 0x20002000020100000000000211b8001000000000010000000000000800000000000100000000000201004130000040000000010000000000000200000000002f000016c00004000008000006088e0e s t := by
  simp only [execCsi2FrameEnd, done, whenUp, whenOn] at h
  injection h with h
  subst h
  repeat' first
    | decide
    | with_reducible exact Only.refl _ _
    | with_reducible apply Only.then csi2FrameEnd_only
    | split

theorem execCsi2IgnoredPacket_only {x0 : _} {x1 : _} {x2 : _} {x3 : _} {s : State} {t : State} (h : execCsi2IgnoredPacket x0 x1 x2 x3 s = .next t) : Only 0x20002000000100000000000200380010000000000100000000000008000000000001000000000002000000000000400000000100000000000002000000000020000016800004000008000004008a08 s t := by
  simp only [execCsi2IgnoredPacket, done, whenUp, whenOn] at h
  injection h with h
  subst h
  repeat' first
    | decide
    | with_reducible exact Only.refl _ _
    | with_reducible apply Only.then csi2IgnoredPacket_only
    | split

theorem execSt2110PacketRx_only {x0 : _} {s : State} {t : State} (h : execSt2110PacketRx x0 s = .next t) : Only 0x3fffffffffffffffffffffffffffffffffffffffffffffffffffffffffffffffffffffffffffffffffffffffffffffffffffffffffffffffffffffffffffffffffffffffffffffffffffffffff608cf0f s t := by
  simp only [execSt2110PacketRx, done, whenUp, whenOn] at h
  injection h with h
  subst h
  repeat' first
    | decide
    | with_reducible exact Only.refl _ _
    | with_reducible apply Only.then st2110PacketRx_only
    | split

theorem execCsi2LongPacket_only {x0 : _} {x1 : _} {x2 : _} {x3 : _} {x4 : _} {x5 : _} {s : State} {t : State} (h : execCsi2LongPacket x0 x1 x2 x3 x4 x5 s = .next t) : Only 0x20002000020100000000000211b8001000000000010000000000000800000000000100000000000201004130000040000000010000000000000200000000002800001e800004000008000006088e0e s t := by
  simp only [execCsi2LongPacket, done, whenUp, whenOn] at h
  injection h with h
  subst h
  repeat' first
    | decide
    | with_reducible exact Only.refl _ _
    | with_reducible apply Only.then csi2LongPacket_only
    | split

theorem execCsi2FrameStart_only {x0 : _} {x1 : _} {x2 : _} {s : State} {t : State} (h : execCsi2FrameStart x0 x1 x2 s = .next t) : Only 0x3fffffffffffffffffffffffffffffffffffffffffffffffffffffffffffffffffffffffffffffffffffffffffffffffffffffffffffffffffffffffffffffffffffffffffffffffffffffffff608cf0f s t := by
  simp only [execCsi2FrameStart, done, whenUp, whenOn] at h
  injection h with h
  subst h
  repeat' first
    | decide
    | with_reducible exact Only.refl _ _
    | with_reducible apply Only.then csi2FrameStart_only
    | split

theorem execCsi2LaneSyncLoss_only {x0 : _} {x1 : _} {s : State} {t : State} (h : execCsi2LaneSyncLoss x0 x1 s = .next t) : Only 0x20002000000100000000000200380010000000000100000000000008000000000001000000000002000000000000400000000100000000000002000000000020000002800004000008000004000a08 s t := by
  simp only [execCsi2LaneSyncLoss, done, whenUp, whenOn] at h
  injection h with h
  subst h
  repeat' first
    | decide
    | with_reducible exact Only.refl _ _
    | with_reducible apply Only.then csi2LaneSyncLoss_only
    | split

end Sys2Proof.Machine
end

