-- ==== Sys2Proof/Laws/BoundMill.lean ====
section
/-!
SUPPORT. What each function of Machine/Mill.lean can change at most.
-/

namespace Sys2Proof.Machine
open Sys2Proof Sys2Proof.Safety

theorem State.setJob_only {s : State} {x1 : _} {x2 : _} : Only 0x20000 s (State.setJob s x1 x2) := by
  unfold State.setJob
  repeat' first
    | decide
    | with_reducible exact Only.refl _ _
    | dsimp only
    | (simp only [Only.lit]; with_reducible apply Only.upd (hpending := rfl) <;> first | exact Or.inl rfl | exact Or.inr (by with_reducible rfl) | skip)

theorem State.cornerList_only {s : State} {x1 : _} {x2 : _} : Only 0x100413000000000000000000000000000000000000000000000000000000000000000000a0002 s (State.cornerList s x1 x2) := by
  unfold State.cornerList
  repeat' first
    | decide
    | with_reducible exact Only.refl _ _
    | with_reducible apply Only.then State.setJob_only
    | with_reducible apply Only.then State.wrList_only
    | split
    | dsimp only

theorem State.flwAdvance_only {s : State} {x1 : _} {x2 : _} {x3 : _} : Only 0x20002000020100000000000211b80010000000000100000000000008000000000001000000000002000000000000400000000100000000000002000000000020000000800004000008000006080e0c s (State.flwAdvance s x1 x2 x3) := by
  unfold State.flwAdvance
  repeat' first
    | decide
    | with_reducible exact Only.refl _ _
    | with_reducible apply Only.then State.advance_only

theorem State.jobNext_only {s : State} {x1 : _} {x2 : _} : Only 0x20000 s (State.jobNext s x1 x2) := by
  unfold State.jobNext
  repeat' first
    | decide
    | with_reducible exact Only.refl _ _
    | with_reducible apply Only.then State.setJob_only
    | dsimp only

theorem State.flwRecord_only {s : State} {x1 : _} {x2 : _} {x3 : _} {x4 : _} : Only 0x20002000000100000000000200380010000000000100000000000008000000000001000000000002010041300000400000000130000000000002000000000020000000800004000008000004081a0a s (State.flwRecord s x1 x2 x3 x4) := by
  unfold State.flwRecord
  repeat' first
    | decide
    | with_reducible exact Only.refl _ _
    | with_reducible apply Only.then State.logHidden_only
    | with_reducible apply Only.then State.publish_only
    | with_reducible apply Only.then State.wrList_only
    | with_reducible apply Only.then (State.setF_only ?_)
    | with_reducible apply Only.then State.event_only
    | split
    | dsimp only

theorem State.frontAdvance_only {s : State} {x1 : _} {x2 : _} {x3 : _} : Only 0x20002000020100000000000211b80010000000000100000000000008000000000001000000000002000000000000400000000100000000000002000000000020000000800004000008000006080e0c s (State.frontAdvance s x1 x2 x3) := by
  unfold State.frontAdvance
  repeat' first
    | decide
    | with_reducible exact Only.refl _ _
    | with_reducible apply Only.then State.advance_only

theorem State.snsRecord_only {s : State} {x1 : _} {x2 : _} {x3 : _} {x4 : _} : Only 0x2000200000010000000000020038001000000000010000000000000800000000000100000000000201004130000040000000010000000f000002000000000020000000800004000008000004081a0a s (State.snsRecord s x1 x2 x3 x4) := by
  unfold State.snsRecord
  repeat' first
    | decide
    | with_reducible exact Only.refl _ _
    | with_reducible apply Only.then State.logHidden_only
    | with_reducible apply Only.then State.publish_only
    | with_reducible apply Only.then State.wrList_only
    | with_reducible apply Only.then (State.setF_only ?_)
    | with_reducible apply Only.then State.event_only
    | split
    | dsimp only

theorem State.ingRelease_only {s : State} {x1 : _} {x2 : _} {x3 : _} : Only 0x20002000020100000000000211b80010000000000100000000000008000000000001000000000002000000000000400000000100000000000002000000000020000000800004000008000006080e0c s (State.ingRelease s x1 x2 x3) := by
  unfold State.ingRelease
  repeat' first
    | decide
    | with_reducible exact Only.refl _ _
    | with_reducible apply Only.then State.advance_only

theorem State.paid_only {s : State} {x1 : _} : Only 0x20000 s (State.paid s x1) := by
  unfold State.paid
  repeat' first
    | with_reducible assumption
    | decide
    | with_reducible exact Only.refl _ _
    | with_reducible apply Only.then State.setJob_only
    | with_reducible apply Only.foldl
    | with_reducible apply Only.foldl1
    | intro _ _ _
    | split
    | dsimp only

theorem State.passOver_only {s : State} {x1 : _} {x2 : _} {x3 : _} : Only 0x20000 s (State.passOver s x1 x2 x3) := by
  unfold State.passOver
  repeat' first
    | with_reducible assumption
    | decide
    | with_reducible exact Only.refl _ _
    | with_reducible apply Only.then State.setJob_only
    | with_reducible apply Only.foldl
    | with_reducible apply Only.foldl1
    | intro _ _ _
    | split
    | dsimp only

theorem State.snsPay_only {s : State} {x1 : _} {x2 : _} : Only 0x20002000020100000000000211b8001000000000010000000000000800000000000100000000000201004130000040000000010000000f0000020000000000200000008000040000080000060a1e0e s (State.snsPay s x1 x2) := by
  induction x2 generalizing s x1 with
  | zero =>
    unfold State.snsPay
    repeat' first
      | with_reducible assumption
      | decide
      | with_reducible exact Only.refl _ _
      | with_reducible apply Only.then State.frontAdvance_only
      | with_reducible apply Only.then State.paid_only
      | with_reducible apply Only.then State.snsRecord_only
      | with_reducible apply Only.foldl
      | with_reducible apply Only.foldl1
      | intro _ _ _
      | split
      | dsimp only
  | succ n ih =>
    unfold State.snsPay
    repeat' first
      | with_reducible assumption
      | decide
      | with_reducible exact Only.refl _ _
      | with_reducible apply Only.then ih
      | with_reducible apply Only.then State.frontAdvance_only
      | with_reducible apply Only.then State.paid_only
      | with_reducible apply Only.then State.snsRecord_only
      | with_reducible apply Only.foldl
      | with_reducible apply Only.foldl1
      | intro _ _ _
      | split
      | dsimp only

theorem State.noteSkip_only {s : State} {x1 : _} {x2 : _} : Only 0x20002000000100000000000200380010000000000100000000000008000000000001000000000002000000000000400000000100000000000002000000000020000000800004000008000004000a08 s (State.noteSkip s x1 x2) := by
  unfold State.noteSkip
  repeat' first
    | with_reducible assumption
    | decide
    | with_reducible exact Only.refl _ _
    | with_reducible apply Only.then State.event_only
    | with_reducible apply Only.foldl
    | with_reducible apply Only.foldl1
    | intro _ _ _
    | split
    | dsimp only

theorem State.snsSettle_only {s : State} {x1 : _} {x2 : _} : Only 0x20002000020100000000000211b8001000000000010000000000000800000000000100000000000201004130000040000000010000001f0000120000000000200000008000040000080000060a1e0e s (State.snsSettle s x1 x2) := by
  induction x2 generalizing s x1 with
  | zero =>
    unfold State.snsSettle
    repeat' first
      | with_reducible assumption
      | decide
      | with_reducible exact Only.refl _ _
      | with_reducible apply Only.then State.snsPay_only
      | with_reducible apply Only.then State.passOver_only
      | with_reducible apply Only.then State.noteSkip_only
      | with_reducible apply Only.then State.ingRelease_only
      | with_reducible apply Only.then (State.addSat_only ?_)
      | with_reducible apply Only.foldl
      | with_reducible apply Only.foldl1
      | intro _ _ _
      | split
      | dsimp only
  | succ n ih =>
    unfold State.snsSettle
    repeat' first
      | with_reducible assumption
      | decide
      | with_reducible exact Only.refl _ _
      | with_reducible apply Only.then ih
      | with_reducible apply Only.then State.snsPay_only
      | with_reducible apply Only.then State.passOver_only
      | with_reducible apply Only.then State.noteSkip_only
      | with_reducible apply Only.then State.ingRelease_only
      | with_reducible apply Only.then (State.addSat_only ?_)
      | with_reducible apply Only.foldl
      | with_reducible apply Only.foldl1
      | intro _ _ _
      | split
      | dsimp only

theorem State.frontDone_only {s : State} {x1 : _} {x2 : _} {x3 : _} : Only 0x20002000020100000000000211b8001000000000010000000000000800000000000100000000000201004130000040000000010000000f0000020000000000200000008000040000080000060a1e0e s (State.frontDone s x1 x2 x3) := by
  unfold State.frontDone
  repeat' first
    | decide
    | with_reducible exact Only.refl _ _
    | with_reducible apply Only.then State.snsPay_only
    | with_reducible apply Only.then State.frontAdvance_only
    | with_reducible apply Only.then State.setJob_only
    | with_reducible apply Only.then State.snsRecord_only
    | with_reducible apply Only.then State.snsSettle_only
    | with_reducible apply Only.then State.jobNext_only
    | split
    | dsimp only

theorem State.sgmAdvance_only {s : State} {x1 : _} {x2 : _} {x3 : _} : Only 0x20002000020100000000000211b80010000000000100000000000008000000000001000000000002000000000000400000000100000000000002000000000020000000800004000008000006080e0c s (State.sgmAdvance s x1 x2 x3) := by
  unfold State.sgmAdvance
  repeat' first
    | decide
    | with_reducible exact Only.refl _ _
    | with_reducible apply Only.then State.advance_only

theorem State.sgmRecord_only {s : State} {x1 : _} {x2 : _} {x3 : _} {x4 : _} : Only 0x200020000001000000000002003800100000000001000000000000080000000000010000000000020100413000004000000001000e0000000002000000000020000000800004000008000004081a0a s (State.sgmRecord s x1 x2 x3 x4) := by
  unfold State.sgmRecord
  repeat' first
    | decide
    | with_reducible exact Only.refl _ _
    | with_reducible apply Only.then State.logHidden_only
    | with_reducible apply Only.then State.publish_only
    | with_reducible apply Only.then State.wrList_only
    | with_reducible apply Only.then (State.setF_only ?_)
    | with_reducible apply Only.then State.event_only
    | split
    | dsimp only

theorem State.flwWriteRow_only {s : State} {x1 : _} {x2 : _} {x3 : _} {x4 : _} : Only 0x10041300000000000000000000000000000000000000000000000000000000000000000080002 s (State.flwWriteRow s x1 x2 x3 x4) := by
  unfold State.flwWriteRow
  repeat' first
    | with_reducible assumption
    | decide
    | with_reducible exact Only.refl _ _
    | with_reducible apply Only.then State.wrList_only
    | with_reducible apply Only.foldl
    | with_reducible apply Only.foldl1
    | intro _ _ _
    | split
    | dsimp only

theorem State.loadWarp_only {s : State} {x1 : _} : Only 0x10041300000000000000000000000000000000000000000000000000000000000000000080002 s (State.loadWarp s x1) := by
  unfold State.loadWarp
  repeat' first
    | with_reducible assumption
    | decide
    | with_reducible exact Only.refl _ _
    | with_reducible apply Only.then State.wrList_only
    | with_reducible apply Only.foldl
    | with_reducible apply Only.foldl1
    | intro _ _ _
    | split
    | dsimp only

theorem State.startFrame_only {s : State} {x1 : _} : Only 0x3fffffffffffffffffffffffffffffffffffffffffffffffffffffffffffffffffffffffffffffffffffffffffffffffffffffffffffffffffffffffffffffffffffffffffffffffffffffffff00a4003 s (State.startFrame s x1) := by
  unfold State.startFrame
  repeat' first
    | with_reducible assumption
    | decide
    | with_reducible exact Only.refl _ _
    | with_reducible apply Only.then State.takeDeferred_only
    | with_reducible apply Only.then State.loadWarp_only
    | with_reducible apply Only.then State.setJob_only
    | with_reducible apply Only.foldl
    | with_reducible apply Only.foldl1
    | intro _ _ _
    | split
    | dsimp only
    | (simp only [Only.lit]; with_reducible apply Only.upd (hpending := rfl) <;> first | exact Or.inl rfl | exact Or.inr (by with_reducible rfl) | skip)

theorem State.laneTakes_only {s : State} {x1 : _} : Only 0x3fffffffffffffffffffffffffffffffffffffffffffffffffffffffffffffffffffffffffffffffffffffffffffffffffffffffffffffffffffffffffffffffffffffffffffffffffffffffff00a4003 s (State.laneTakes s x1) := by
  unfold State.laneTakes
  repeat' first
    | with_reducible assumption
    | decide
    | with_reducible exact Only.refl _ _
    | with_reducible apply Only.then State.startFrame_only
    | with_reducible apply Only.foldl
    | with_reducible apply Only.foldl1
    | intro _ _ _
    | split
    | dsimp only
    | (simp only [Only.lit]; with_reducible apply Only.upd (hpending := rfl) <;> first | exact Or.inl rfl | exact Or.inr (by with_reducible rfl) | skip)

theorem State.lanesTake_only {s : State} : Only 0x3fffffffffffffffffffffffffffffffffffffffffffffffffffffffffffffffffffffffffffffffffffffffffffffffffffffffffffffffffffffffffffffffffffffffffffffffffffffffff00a4003 s (State.lanesTake s) := by
  unfold State.lanesTake
  repeat' first
    | with_reducible assumption
    | decide
    | with_reducible exact Only.refl _ _
    | with_reducible apply Only.then State.laneTakes_only
    | with_reducible apply Only.foldl
    | with_reducible apply Only.foldl1
    | intro _ _ _
    | split
    | dsimp only
    | (simp only [Only.lit]; with_reducible apply Only.upd (hpending := rfl) <;> first | exact Or.inl rfl | exact Or.inr (by with_reducible rfl) | skip)

theorem State.runTracks_only {s : State} {x1 : _} {x2 : _} {x3 : _} {x4 : _} {x5 : _} : Only 0x200020000001000000000002003800100000000001000000000000080000000000010000000000020100413000004000000001000000000000020000000000200000008000040000080000040a0a0a s (State.runTracks s x1 x2 x3 x4 x5) := by
  induction x5 generalizing s x1 x2 x3 x4 with
  | zero =>
    unfold State.runTracks
    repeat' first
      | decide
      | with_reducible exact Only.refl _ _
      | with_reducible apply Only.then State.event_only
      | with_reducible apply Only.then State.setJob_only
      | with_reducible apply Only.then State.wrList_only
      | split
      | dsimp only
      | (simp only [Only.lit]; with_reducible apply Only.upd (hpending := rfl) <;> first | exact Or.inl rfl | exact Or.inr (by with_reducible rfl) | skip)
  | succ n ih =>
    unfold State.runTracks
    repeat' first
      | decide
      | with_reducible exact Only.refl _ _
      | with_reducible apply Only.then ih
      | with_reducible apply Only.then State.event_only
      | with_reducible apply Only.then State.setJob_only
      | with_reducible apply Only.then State.wrList_only
      | split
      | dsimp only
      | (simp only [Only.lit]; with_reducible apply Only.upd (hpending := rfl) <;> first | exact Or.inl rfl | exact Or.inr (by with_reducible rfl) | skip)

theorem State.frontUp_only {s : State} {x1 : _} {x2 : _} : Only 0x20002000020100000000000211b8001000000000010000000000000800000000000100000000000201004130000040000000010000000f0000020000000000200000008000040000080000060a1e0e s (State.frontUp s x1 x2) := by
  induction x2 generalizing s x1 with
  | zero =>
    unfold State.frontUp
    repeat' first
      | with_reducible assumption
      | decide
      | with_reducible exact Only.refl _ _
      | with_reducible apply Only.then State.setJob_only
      | with_reducible apply Only.then State.runTracks_only
      | with_reducible apply Only.then State.frontDone_only
      | with_reducible apply Only.foldl
      | with_reducible apply Only.foldl1
      | intro _ _ _
      | split
      | dsimp only
  | succ n ih =>
    unfold State.frontUp
    repeat' first
      | with_reducible assumption
      | decide
      | with_reducible exact Only.refl _ _
      | with_reducible apply Only.then ih
      | with_reducible apply Only.then State.setJob_only
      | with_reducible apply Only.then State.runTracks_only
      | with_reducible apply Only.then State.frontDone_only
      | with_reducible apply Only.foldl
      | with_reducible apply Only.foldl1
      | intro _ _ _
      | split
      | dsimp only

theorem State.sgmTake_only {s : State} {x1 : _} : Only 0x3fffffffffffffffffffffffffffffffffffffffffffffffffffffffffffffffffffffffffffffffffffffffffffffffffffffffffffffffffffffffffffffffffffffffffffffffffffffffff00a4003 s (State.sgmTake s x1) := by
  induction x1 generalizing s with
  | zero =>
    unfold State.sgmTake
    repeat' first
      | with_reducible assumption
      | decide
      | with_reducible exact Only.refl _ _
      | with_reducible apply Only.then State.startFrame_only
      | with_reducible apply Only.foldl
      | with_reducible apply Only.foldl1
      | intro _ _ _
      | split
      | dsimp only
  | succ n ih =>
    unfold State.sgmTake
    repeat' first
      | with_reducible assumption
      | decide
      | with_reducible exact Only.refl _ _
      | with_reducible apply Only.then ih
      | with_reducible apply Only.then State.startFrame_only
      | with_reducible apply Only.foldl
      | with_reducible apply Only.foldl1
      | intro _ _ _
      | split
      | dsimp only

theorem State.sgmPay_only {s : State} {x1 : _} {x2 : _} : Only 0x20002000020100000000000211b800100000000001000000000000080000000000010000000000020100413000004000000001000e00000000020000000000200000008000040000080000060a1e0e s (State.sgmPay s x1 x2) := by
  induction x2 generalizing s x1 with
  | zero =>
    unfold State.sgmPay
    repeat' first
      | with_reducible assumption
      | decide
      | with_reducible exact Only.refl _ _
      | with_reducible apply Only.then State.sgmAdvance_only
      | with_reducible apply Only.then State.paid_only
      | with_reducible apply Only.then State.sgmRecord_only
      | with_reducible apply Only.foldl
      | with_reducible apply Only.foldl1
      | intro _ _ _
      | split
      | dsimp only
  | succ n ih =>
    unfold State.sgmPay
    repeat' first
      | with_reducible assumption
      | decide
      | with_reducible exact Only.refl _ _
      | with_reducible apply Only.then ih
      | with_reducible apply Only.then State.sgmAdvance_only
      | with_reducible apply Only.then State.paid_only
      | with_reducible apply Only.then State.sgmRecord_only
      | with_reducible apply Only.foldl
      | with_reducible apply Only.foldl1
      | intro _ _ _
      | split
      | dsimp only

theorem State.sgmSettle_only {s : State} {x1 : _} {x2 : _} : Only 0x20002000020100000000000211b800100000000001000000000000080000000000010000000000020100413000004000000001001e00000000120000000000200000008000040000080000060a1e0e s (State.sgmSettle s x1 x2) := by
  induction x2 generalizing s x1 with
  | zero =>
    unfold State.sgmSettle
    repeat' first
      | with_reducible assumption
      | decide
      | with_reducible exact Only.refl _ _
      | with_reducible apply Only.then State.passOver_only
      | with_reducible apply Only.then State.noteSkip_only
      | with_reducible apply Only.then State.sgmPay_only
      | with_reducible apply Only.then (State.addSat_only ?_)
      | with_reducible apply Only.foldl
      | with_reducible apply Only.foldl1
      | intro _ _ _
      | split
      | dsimp only
  | succ n ih =>
    unfold State.sgmSettle
    repeat' first
      | with_reducible assumption
      | decide
      | with_reducible exact Only.refl _ _
      | with_reducible apply Only.then ih
      | with_reducible apply Only.then State.passOver_only
      | with_reducible apply Only.then State.noteSkip_only
      | with_reducible apply Only.then State.sgmPay_only
      | with_reducible apply Only.then (State.addSat_only ?_)
      | with_reducible apply Only.foldl
      | with_reducible apply Only.foldl1
      | intro _ _ _
      | split
      | dsimp only

theorem State.flwTake_only {s : State} {x1 : _} : Only 0x3fffffffffffffffffffffffffffffffffffffffffffffffffffffffffffffffffffffffffffffffffffffffffffffffffffffffffffffffffffffffffffffffffffffffffffffffffffffffff00a4003 s (State.flwTake s x1) := by
  induction x1 generalizing s with
  | zero =>
    unfold State.flwTake
    repeat' first
      | with_reducible assumption
      | decide
      | with_reducible exact Only.refl _ _
      | with_reducible apply Only.then State.startFrame_only
      | with_reducible apply Only.foldl
      | with_reducible apply Only.foldl1
      | intro _ _ _
      | split
      | dsimp only
  | succ n ih =>
    unfold State.flwTake
    repeat' first
      | with_reducible assumption
      | decide
      | with_reducible exact Only.refl _ _
      | with_reducible apply Only.then ih
      | with_reducible apply Only.then State.startFrame_only
      | with_reducible apply Only.foldl
      | with_reducible apply Only.foldl1
      | intro _ _ _
      | split
      | dsimp only

theorem State.flwPay_only {s : State} {x1 : _} {x2 : _} : Only 0x20002000020100000000000211b800100000000001000000000000080000000000010000000000020100413000004000000001300000000000020000000000200000008000040000080000060a1e0e s (State.flwPay s x1 x2) := by
  induction x2 generalizing s x1 with
  | zero =>
    unfold State.flwPay
    repeat' first
      | with_reducible assumption
      | decide
      | with_reducible exact Only.refl _ _
      | with_reducible apply Only.then State.flwAdvance_only
      | with_reducible apply Only.then State.paid_only
      | with_reducible apply Only.then State.flwRecord_only
      | with_reducible apply Only.foldl
      | with_reducible apply Only.foldl1
      | intro _ _ _
      | split
      | dsimp only
  | succ n ih =>
    unfold State.flwPay
    repeat' first
      | with_reducible assumption
      | decide
      | with_reducible exact Only.refl _ _
      | with_reducible apply Only.then ih
      | with_reducible apply Only.then State.flwAdvance_only
      | with_reducible apply Only.then State.paid_only
      | with_reducible apply Only.then State.flwRecord_only
      | with_reducible apply Only.foldl
      | with_reducible apply Only.foldl1
      | intro _ _ _
      | split
      | dsimp only

theorem State.flwSettle_only {s : State} {x1 : _} {x2 : _} : Only 0x20002000020100000000000211b800100000000001000000000000080000000000010000000000020100413000004000000001700000000000120000000000200000008000040000080000060a1e0e s (State.flwSettle s x1 x2) := by
  induction x2 generalizing s x1 with
  | zero =>
    unfold State.flwSettle
    repeat' first
      | with_reducible assumption
      | decide
      | with_reducible exact Only.refl _ _
      | with_reducible apply Only.then State.flwPay_only
      | with_reducible apply Only.then State.passOver_only
      | with_reducible apply Only.then State.noteSkip_only
      | with_reducible apply Only.then (State.addSat_only ?_)
      | with_reducible apply Only.foldl
      | with_reducible apply Only.foldl1
      | intro _ _ _
      | split
      | dsimp only
  | succ n ih =>
    unfold State.flwSettle
    repeat' first
      | with_reducible assumption
      | decide
      | with_reducible exact Only.refl _ _
      | with_reducible apply Only.then ih
      | with_reducible apply Only.then State.flwPay_only
      | with_reducible apply Only.then State.passOver_only
      | with_reducible apply Only.then State.noteSkip_only
      | with_reducible apply Only.then (State.addSat_only ?_)
      | with_reducible apply Only.foldl
      | with_reducible apply Only.foldl1
      | intro _ _ _
      | split
      | dsimp only

theorem State.millSettle_only {s : State} : Only 0x3fffffffffffffffffffffffffffffffffffffffffffffffffffffffffffffffffffffffffffffffffffffffffffffffffffffffffffffffffffffffffffffffffffffffffffffffffffffffff60a5e0f s (State.millSettle s) := by
  unfold State.millSettle
  repeat' first
    | with_reducible assumption
    | decide
    | with_reducible exact Only.refl _ _
    | with_reducible apply Only.then State.flwTake_only
    | with_reducible apply Only.then State.sgmTake_only
    | with_reducible apply Only.then State.frontUp_only
    | with_reducible apply Only.then State.lanesTake_only
    | with_reducible apply Only.then State.snsSettle_only
    | with_reducible apply Only.then State.sgmSettle_only
    | with_reducible apply Only.then State.flwSettle_only
    | with_reducible apply Only.foldl
    | with_reducible apply Only.foldl1
    | intro _ _ _
    | dsimp only

theorem State.writeRow_only {s : State} {x1 : _} {x2 : _} {x3 : _} {x4 : _} {x5 : _} : Only 0x10041300000000000000000000000000000000000000000000000000000000000000000080002 s (State.writeRow s x1 x2 x3 x4 x5) := by
  unfold State.writeRow
  repeat' first
    | with_reducible assumption
    | decide
    | with_reducible exact Only.refl _ _
    | with_reducible apply Only.then State.wrList_only
    | with_reducible apply Only.then State.wrNum_only
    | with_reducible apply Only.foldl
    | with_reducible apply Only.foldl1
    | intro _ _ _
    | split
    | dsimp only

theorem State.pyrRows_only {s : State} {x1 : _} {x2 : _} {x3 : _} {x4 : _} {x5 : _} : Only 0x10041300000000000000000000000000060000000000000000000000000000000000000080002 s (State.pyrRows s x1 x2 x3 x4 x5) := by
  unfold State.pyrRows
  repeat' first
    | with_reducible assumption
    | decide
    | with_reducible exact Only.refl _ _
    | with_reducible apply Only.then State.writeRow_only
    | with_reducible apply Only.then (State.addPair_only ?_ ?_)
    | with_reducible apply Only.foldl
    | with_reducible apply Only.foldl1
    | intro _ _ _
    | dsimp only

theorem State.pyrUp_only {s : State} {x1 : _} {x2 : _} {x3 : _} : Only 0x100413000000000000000000000000000600000000000000000000000000000000000000a0002 s (State.pyrUp s x1 x2 x3) := by
  unfold State.pyrUp
  repeat' first
    | with_reducible assumption
    | decide
    | with_reducible exact Only.refl _ _
    | with_reducible apply Only.then State.pyrRows_only
    | with_reducible apply Only.then State.setJob_only
    | with_reducible apply Only.foldl
    | with_reducible apply Only.foldl1
    | intro _ _ _
    | dsimp only

theorem State.rectBand_only {s : State} {x1 : _} {x2 : _} {x3 : _} : Only 0x10041300000000000000000000000000060000000000000000000000000000000000000080002 s (State.rectBand s x1 x2 x3) := by
  unfold State.rectBand
  repeat' first
    | with_reducible assumption
    | decide
    | with_reducible exact Only.refl _ _
    | with_reducible apply Only.then State.writeRow_only
    | with_reducible apply Only.then (State.addPair_only ?_ ?_)
    | with_reducible apply Only.foldl
    | with_reducible apply Only.foldl1
    | intro _ _ _
    | dsimp only

theorem State.sgmForwardRow_only {s : State} {x1 : _} {x2 : _} {x3 : _} : Only 0x100413000000000000000000000000000000000000000000000000000000000000000000a0002 s (State.sgmForwardRow s x1 x2 x3) := by
  unfold State.sgmForwardRow
  repeat' first
    | decide
    | with_reducible exact Only.refl _ _
    | with_reducible apply Only.then State.wrList_only
    | with_reducible apply Only.then State.setJob_only
    | dsimp only

theorem State.sgmWriteRow_only {s : State} {x1 : _} {x2 : _} {x3 : _} {x4 : _} : Only 0x10041300000000000000000000000000000000000000000000000000000000000000000080002 s (State.sgmWriteRow s x1 x2 x3 x4) := by
  unfold State.sgmWriteRow
  repeat' first
    | with_reducible assumption
    | decide
    | with_reducible exact Only.refl _ _
    | with_reducible apply Only.then State.wrList_only
    | with_reducible apply Only.foldl
    | with_reducible apply Only.foldl1
    | intro _ _ _
    | split
    | dsimp only

theorem State.sgmRow_only {s : State} {x1 : _} {x2 : _} {x3 : _} {x4 : _} : Only 0x100413000000000000000000000000000000000000000000000000000000000000000000a0002 s (State.sgmRow s x1 x2 x3 x4) := by
  unfold State.sgmRow
  repeat' first
    | decide
    | with_reducible exact Only.refl _ _
    | with_reducible apply Only.then State.sgmWriteRow_only
    | with_reducible apply Only.then State.setJob_only
    | split
    | dsimp only

theorem State.sgmBand_only {s : State} {x1 : _} {x2 : _} {x3 : _} {x4 : _} {x5 : _} : Only 0x20002000020100000000000211b800100000000001000000000000080000000000010000000000020100413000004000000001000e00000000020000000000200000008000040000080000060a1e0e s (State.sgmBand s x1 x2 x3 x4 x5) := by
  unfold State.sgmBand
  repeat' first
    | with_reducible assumption
    | decide
    | with_reducible exact Only.refl _ _
    | with_reducible apply Only.then State.sgmPay_only
    | with_reducible apply Only.then State.setJob_only
    | with_reducible apply Only.then State.sgmForwardRow_only
    | with_reducible apply Only.then State.sgmRow_only
    | with_reducible apply Only.then State.sgmAdvance_only
    | with_reducible apply Only.then State.sgmRecord_only
    | with_reducible apply Only.then State.sgmSettle_only
    | with_reducible apply Only.then State.jobNext_only
    | with_reducible apply Only.foldl
    | with_reducible apply Only.foldl1
    | intro _ _ _
    | split
    | dsimp only

theorem State.failFlw_only {s : State} {x1 : _} : Only 0x20002000020100000000000211b800100000000001000000000000080000000000010000000000020100413000004000000001300000000000020000000000200000008000040000080000060a1e0e s (State.failFlw s x1) := by
  unfold State.failFlw
  repeat' first
    | with_reducible assumption
    | decide
    | with_reducible exact Only.refl _ _
    | with_reducible apply Only.then State.flwAdvance_only
    | with_reducible apply Only.then State.flwPay_only
    | with_reducible apply Only.then State.jobNext_only
    | with_reducible apply Only.then State.flwRecord_only
    | with_reducible apply Only.foldl
    | with_reducible apply Only.foldl1
    | intro _ _ _
    | split
    | dsimp only

theorem flowLevelDone_only {x0 : _} {x1 : _} {s : State} : Only 0x3fffffffffffffffffffffffffffffffffffffffffffffffffffffffffffffffffffffffffffffffffffffffffffffffffffffffffffffffffffffffffffffffffffffffffffffffffffffffff60a5e0f s (flowLevelDone x0 x1 s) := by
  unfold flowLevelDone
  repeat' first
    | with_reducible assumption
    | decide
    | with_reducible exact Only.refl _ _
    | with_reducible apply Only.then State.poisonTask_only
    | with_reducible apply Only.then State.failFlw_only
    | with_reducible apply Only.then State.flwPay_only
    | with_reducible apply Only.then State.flwTake_only
    | with_reducible apply Only.then State.takeDeferred_only
    | with_reducible apply Only.then State.flwSettle_only
    | with_reducible apply Only.then State.wrList_only
    | with_reducible apply Only.then State.setJob_only
    | with_reducible apply Only.then State.flwWriteRow_only
    | with_reducible apply Only.then State.flwAdvance_only
    | with_reducible apply Only.then State.flwRecord_only
    | with_reducible apply Only.then State.jobNext_only
    | with_reducible apply Only.foldl
    | with_reducible apply Only.foldl1
    | intro _ _ _
    | split
    | dsimp only

theorem State.rectNext_only {s : State} {x1 : _} {x2 : _} {x3 : _} : Only 0x100413000000000000000000000000000600000000000000000000000000000000000000a0002 s (State.rectNext s x1 x2 x3) := by
  unfold State.rectNext
  repeat' first
    | with_reducible assumption
    | decide
    | with_reducible exact Only.refl _ _
    | with_reducible apply Only.then State.rectBand_only
    | with_reducible apply Only.then State.setJob_only
    | with_reducible apply Only.then State.ingRelease_only
    | with_reducible apply Only.foldl
    | with_reducible apply Only.foldl1
    | intro _ _ _
    | split
    | dsimp only

theorem State.sendTile_only {s : State} {x1 : _} {x2 : _} {x3 : _} {x4 : _} : Only 0x100413000000000000000000000000000000000000000000000000000000000000000000a0002 s (State.sendTile s x1 x2 x3 x4) := by
  unfold State.sendTile
  repeat' first
    | with_reducible assumption
    | decide
    | with_reducible exact Only.refl _ _
    | with_reducible apply Only.then State.wrList_only
    | with_reducible apply Only.foldl
    | with_reducible apply Only.foldl1
    | intro _ _ _
    | split
    | dsimp only
    | (simp only [Only.lit]; with_reducible apply Only.upd (hpending := rfl) <;> first | exact Or.inl rfl | exact Or.inr (by with_reducible rfl) | skip)

theorem State.sendBand_only {s : State} {x1 : _} {x2 : _} {x3 : _} {x4 : _} {x5 : _} : Only 0x200020000001000000000002003800100000000001000000000000080000000000010000000000020100413000004000000001000000000000020000000000200000008000040000080000040a0a0a s (State.sendBand s x1 x2 x3 x4 x5) := by
  unfold State.sendBand
  repeat' first
    | with_reducible assumption
    | decide
    | with_reducible exact Only.refl _ _
    | with_reducible apply Only.then State.sendTile_only
    | with_reducible apply Only.then State.event_only
    | with_reducible apply Only.then State.setJob_only
    | with_reducible apply Only.foldl
    | with_reducible apply Only.foldl1
    | intro _ _ _
    | split
    | dsimp only
    | (simp only [Only.lit]; with_reducible apply Only.upd (hpending := rfl) <;> first | exact Or.inl rfl | exact Or.inr (by with_reducible rfl) | skip)

theorem State.frontRelease_only {s : State} {x1 : _} {x2 : _} : Only 0x20002000020100000000000211b800100000000001000000000000080000000000010000000000020000000000004000000001000000000000020000000000200000008000040000080000060a0e0c s (State.frontRelease s x1 x2) := by
  unfold State.frontRelease
  repeat' first
    | with_reducible assumption
    | decide
    | with_reducible exact Only.refl _ _
    | with_reducible apply Only.then State.ingRelease_only
    | with_reducible apply Only.then State.setJob_only
    | with_reducible apply Only.foldl
    | with_reducible apply Only.foldl1
    | intro _ _ _
    | split
    | dsimp only

theorem State.failSns_only {s : State} {x1 : _} : Only 0x20002000020100000000000211b8001000000000010000000000000800000000000100000000000201004130000040000000010000000f0000020000000000200000008000040000080000060a1e0e s (State.failSns s x1) := by
  unfold State.failSns
  repeat' first
    | with_reducible assumption
    | decide
    | with_reducible exact Only.refl _ _
    | with_reducible apply Only.then State.setJob_only
    | with_reducible apply Only.then State.frontRelease_only
    | with_reducible apply Only.then State.frontDone_only
    | with_reducible apply Only.foldl
    | with_reducible apply Only.foldl1
    | intro _ _ _
    | split
    | dsimp only
    | (simp only [Only.lit]; with_reducible apply Only.upd (hpending := rfl) <;> first | exact Or.inl rfl | exact Or.inr (by with_reducible rfl) | skip)

theorem millBandDone_only {x0 : _} {x1 : _} {x2 : _} {s : State} : Only 0x3fffffffffffffffffffffffffffffffffffffffffffffffffffffffffffffffffffffffffffffffffffffffffffffffffffffffffffffffffffffffffffffffffffffffffffffffffffffffff60a5e0f s (millBandDone x0 x1 x2 s) := by
  unfold millBandDone
  repeat' first
    | decide
    | with_reducible exact Only.refl _ _
    | with_reducible apply Only.then State.frontRelease_only
    | with_reducible apply Only.then State.poisonTask_only
    | with_reducible apply Only.then State.failSns_only
    | with_reducible apply Only.then State.frontUp_only
    | with_reducible apply Only.then State.sendBand_only
    | with_reducible apply Only.then State.rectNext_only
    | with_reducible apply Only.then State.lanesTake_only
    | with_reducible apply Only.then State.takeDeferred_only
    | with_reducible apply Only.then State.setJob_only
    | with_reducible apply Only.then State.pyrUp_only
    | with_reducible apply Only.then State.cornerList_only
    | with_reducible apply Only.then State.runTracks_only
    | with_reducible apply Only.then State.event_only
    | with_reducible apply Only.then State.frontDone_only
    | split
    | dsimp only
    | (simp only [Only.lit]; with_reducible apply Only.upd (hpending := rfl) <;> first | exact Or.inl rfl | exact Or.inr (by with_reducible rfl) | skip)

theorem State.sendHeld_only {s : State} {x1 : _} {x2 : _} : Only 0x2000200000010000000000020038001000000000010000000000000800000000000100000000000201004130000040000000010000000000000a0000000000200000008000040000080000040a0a0a s (State.sendHeld s x1 x2) := by
  unfold State.sendHeld
  repeat' first
    | with_reducible assumption
    | decide
    | with_reducible exact Only.refl _ _
    | with_reducible apply Only.then State.setJob_only
    | with_reducible apply Only.then State.sendBand_only
    | with_reducible apply Only.then (State.addSat_only ?_)
    | with_reducible apply Only.foldl
    | with_reducible apply Only.foldl1
    | intro _ _ _
    | split
    | dsimp only

theorem pathSpaceFreed_only {x0 : _} {s : State} : Only 0x20002000020100000000000211b8001000000000010000000000000800000000000100000000000201004130000040000000010000000f00000a0000000000200000008000040000080000060a1e0e s (pathSpaceFreed x0 s) := by
  unfold pathSpaceFreed
  repeat' first
    | decide
    | with_reducible exact Only.refl _ _
    | with_reducible assumption
    | with_reducible apply Only.foldl
    | with_reducible apply Only.foldl1
    | intro _ _ _
    | with_reducible apply Only.then State.frontRelease_only
    | with_reducible apply Only.then State.sendHeld_only
    | with_reducible apply Only.then State.sendBand_only
    | with_reducible apply Only.then State.frontUp_only
    | with_reducible apply Only.then State.frontDone_only
    | with_reducible apply Only.then (State.addSat_only ?_)
    | split
    | dsimp only

theorem State.failSgm_only {s : State} {x1 : _} : Only 0x20002000020100000000000211b800100000000001000000000000080000000000010000000000020100413000004000000001000e00000000020000000000200000008000040000080000060a1e0e s (State.failSgm s x1) := by
  unfold State.failSgm
  repeat' first
    | with_reducible assumption
    | decide
    | with_reducible exact Only.refl _ _
    | with_reducible apply Only.then State.setJob_only
    | with_reducible apply Only.then State.sgmAdvance_only
    | with_reducible apply Only.then State.sgmRecord_only
    | with_reducible apply Only.then State.sgmPay_only
    | with_reducible apply Only.then State.jobNext_only
    | with_reducible apply Only.foldl
    | with_reducible apply Only.foldl1
    | intro _ _ _
    | split
    | dsimp only

theorem sgmBandDone_only {x0 : _} {x1 : _} {s : State} : Only 0x3fffffffffffffffffffffffffffffffffffffffffffffffffffffffffffffffffffffffffffffffffffffffffffffffffffffffffffffffffffffffffffffffffffffffffffffffffffffffff60a5e0f s (sgmBandDone x0 x1 s) := by
  unfold sgmBandDone
  repeat' first
    | decide
    | with_reducible exact Only.refl _ _
    | with_reducible apply Only.then State.poisonTask_only
    | with_reducible apply Only.then State.failSgm_only
    | with_reducible apply Only.then State.sgmTake_only
    | with_reducible apply Only.then State.takeDeferred_only
    | with_reducible apply Only.then State.sgmSettle_only
    | with_reducible apply Only.then State.sgmBand_only
    | split
    | dsimp only

/-! ## Commands -/

theorem execPathSpaceFreed_only {x0 : _} {s : State} {t : State} (h : execPathSpaceFreed x0 s = .next t) : Only 0x20002000020100000000000211b8001000000000010000000000000800000000000100000000000201004130000040000000010000000f00000a0000000000200000008000040000080000060a1e0e s t := by
  simp only [execPathSpaceFreed, done, whenUp, whenOn] at h
  injection h with h
  subst h
  repeat' first
    | decide
    | with_reducible exact Only.refl _ _
    | with_reducible apply Only.then pathSpaceFreed_only
    | split

theorem execSgmBandDone_only {x0 : _} {x1 : _} {s : State} {t : State} (h : execSgmBandDone x0 x1 s = .next t) : Only 0x3fffffffffffffffffffffffffffffffffffffffffffffffffffffffffffffffffffffffffffffffffffffffffffffffffffffffffffffffffffffffffffffffffffffffffffffffffffffffff60a5e0f s t := by
  simp only [execSgmBandDone, done, whenUp, whenOn] at h
  injection h with h
  subst h
  repeat' first
    | decide
    | with_reducible exact Only.refl _ _
    | with_reducible apply Only.then sgmBandDone_only
    | split

theorem execFlowLevelDone_only {x0 : _} {x1 : _} {s : State} {t : State} (h : execFlowLevelDone x0 x1 s = .next t) : Only 0x3fffffffffffffffffffffffffffffffffffffffffffffffffffffffffffffffffffffffffffffffffffffffffffffffffffffffffffffffffffffffffffffffffffffffffffffffffffffffff60a5e0f s t := by
  simp only [execFlowLevelDone, done, whenUp, whenOn] at h
  injection h with h
  subst h
  repeat' first
    | decide
    | with_reducible exact Only.refl _ _
    | with_reducible apply Only.then flowLevelDone_only
    | split

theorem execMillBandDone_only {x0 : _} {x1 : _} {x2 : _} {s : State} {t : State} (h : execMillBandDone x0 x1 x2 s = .next t) : Only 0x3fffffffffffffffffffffffffffffffffffffffffffffffffffffffffffffffffffffffffffffffffffffffffffffffffffffffffffffffffffffffffffffffffffffffffffffffffffffffff60a5e0f s t := by
  simp only [execMillBandDone, done, whenUp, whenOn] at h
  injection h with h
  subst h
  repeat' first
    | decide
    | with_reducible exact Only.refl _ _
    | with_reducible apply Only.then millBandDone_only
    | split

end Sys2Proof.Machine
end

