-- ==== Sys2Proof/Laws/BoundTensor.lean ====
section
/-!
SUPPORT. What each function of Machine/Tensor.lean can change at most.
-/

namespace Sys2Proof.Machine
open Sys2Proof Sys2Proof.Safety

theorem State.insAdvance_only {s : State} {x1 : _} {x2 : _} {x3 : _} : Only 0x20002000020100000000000211b80010000000000100000000000008000000000001000000000002000000000000400000000100000000000002000000000020000000800004000008000006080e0c s (State.insAdvance s x1 x2 x3) := by
  unfold State.insAdvance
  repeat' first
    | decide
    | with_reducible exact Only.refl _ _
    | with_reducible apply Only.then State.advance_only

theorem State.netRecord_only {s : State} {x1 : _} {x2 : _} {x3 : _} {x4 : _} {x5 : _} {x6 : _} {x7 : _} {x8 : _} : Only 0x200020000001000000000002003800100000000001000000000000080000000000010000000000020100413000005f00006201000000000000020000000000200000008000040000080000040c1a0a s (State.netRecord s x1 x2 x3 x4 x5 x6 x7 x8) := by
  unfold State.netRecord
  repeat' first
    | decide
    | with_reducible exact Only.refl _ _
    | with_reducible apply Only.then State.logHidden_only
    | with_reducible apply Only.then State.publish_only
    | with_reducible apply Only.then State.wrList_only
    | with_reducible apply Only.then (State.setF_only ?_)
    | with_reducible apply Only.then (State.addSat_only ?_)
    | with_reducible apply Only.then State.event_only
    | with_reducible apply Only.then (State.setPair_only ?_ ?_)
    | split
    | dsimp only
    | (simp only [Only.lit]; with_reducible apply Only.upd (hpending := rfl) <;> first | exact Or.inl rfl | exact Or.inr (by with_reducible rfl) | skip)

theorem State.insNext_only {s : State} {x1 : _} : Only 0x40000 s (State.insNext s x1) := by
  unfold State.insNext
  repeat' first
    | decide
    | with_reducible exact Only.refl _ _
    | with_reducible apply Only.then State.setIns_only
    | split
    | dsimp only

theorem State.endHold_only {s : State} {x1 : _} : Only 0x100000000000000000000000000000000000000000000000000000040000 s (State.endHold s x1) := by
  unfold State.endHold
  repeat' first
    | with_reducible assumption
    | decide
    | with_reducible exact Only.refl _ _
    | with_reducible apply Only.then State.setIns_only
    | with_reducible apply Only.then (State.addSat_only ?_)
    | with_reducible apply Only.foldl
    | with_reducible apply Only.foldl1
    | intro _ _ _
    | split
    | dsimp only

theorem State.insSettle_only {s : State} {x1 : _} {x2 : _} : Only 0x20002000020100000000000211b800100000000001000000000000080000000000010000000000020100413000005f00007201000000000000020000000000200000008000040000080000060c1e0e s (State.insSettle s x1 x2) := by
  induction x2 generalizing s x1 with
  | zero =>
    unfold State.insSettle
    repeat' first
      | decide
      | with_reducible exact Only.refl _ _
      | with_reducible apply Only.then State.endHold_only
      | with_reducible apply Only.then State.insAdvance_only
      | with_reducible apply Only.then State.insNext_only
      | with_reducible apply Only.then State.netRecord_only
      | split
      | dsimp only
  | succ n ih =>
    unfold State.insSettle
    repeat' first
      | decide
      | with_reducible exact Only.refl _ _
      | with_reducible apply Only.then State.endHold_only
      | with_reducible apply Only.then ih
      | with_reducible apply Only.then State.insAdvance_only
      | with_reducible apply Only.then State.insNext_only
      | with_reducible apply Only.then State.netRecord_only
      | split
      | dsimp only

theorem State.netLost_only {s : State} {x1 : _} : Only 0x40000 s (State.netLost s x1) := by
  unfold State.netLost
  repeat' first
    | with_reducible assumption
    | decide
    | with_reducible exact Only.refl _ _
    | with_reducible apply Only.then State.setIns_only
    | with_reducible apply Only.foldl
    | with_reducible apply Only.foldl1
    | intro _ _ _
    | split
    | dsimp only

theorem State.insRun_only {s : State} {x1 : _} : Only 0x100000000000000000000000000000000000000000000000000000040000 s (State.insRun s x1) := by
  unfold State.insRun
  repeat' first
    | with_reducible assumption
    | decide
    | with_reducible exact Only.refl _ _
    | with_reducible apply Only.then State.setIns_only
    | with_reducible apply Only.then State.endHold_only
    | with_reducible apply Only.foldl
    | with_reducible apply Only.foldl1
    | intro _ _ _
    | split
    | dsimp only

theorem State.tnsRun_only {s : State} : Only 0x100000000000000000000000000000000000000000000000000000040000 s (State.tnsRun s) := by
  unfold State.tnsRun
  repeat' first
    | with_reducible assumption
    | decide
    | with_reducible exact Only.refl _ _
    | with_reducible apply Only.then State.insRun_only
    | with_reducible apply Only.foldl
    | with_reducible apply Only.foldl1
    | intro _ _ _
    | split
    | dsimp only

theorem State.tnsSettle_only {s : State} : Only 0x20002000020100000000000211b800100000000001000000000000080000000000010000000000020100413000005f00007201000000000000020000000000200000008000040000080000060c1e0e s (State.tnsSettle s) := by
  unfold State.tnsSettle
  repeat' first
    | with_reducible assumption
    | decide
    | with_reducible exact Only.refl _ _
    | with_reducible apply Only.then State.tnsRun_only
    | with_reducible apply Only.then State.insSettle_only
    | with_reducible apply Only.foldl
    | with_reducible apply Only.foldl1
    | intro _ _ _
    | dsimp only

theorem State.takeInput_only {s : State} {x1 : _} : Only 0x40000 s (State.takeInput s x1) := by
  unfold State.takeInput
  repeat' first
    | with_reducible assumption
    | decide
    | with_reducible exact Only.refl _ _
    | with_reducible apply Only.then State.setIns_only
    | with_reducible apply Only.foldl
    | with_reducible apply Only.foldl1
    | intro _ _ _
    | split
    | dsimp only

theorem State.bandOver_only {s : State} {x1 : _} {x2 : _} {x3 : _} {x4 : _} {x5 : _} : Only 0x20002000020100000000000211b800100000000001000000000000080000000000010000000000020100413000005f00007201000000000000020000000000200000008000040000080000060c1e0e s (State.bandOver s x1 x2 x3 x4 x5) := by
  unfold State.bandOver
  repeat' first
    | with_reducible assumption
    | decide
    | with_reducible exact Only.refl _ _
    | with_reducible apply Only.then State.endHold_only
    | with_reducible apply Only.then State.setIns_only
    | with_reducible apply Only.then State.insRun_only
    | with_reducible apply Only.then State.insAdvance_only
    | with_reducible apply Only.then State.netRecord_only
    | with_reducible apply Only.then State.insSettle_only
    | with_reducible apply Only.then State.insNext_only
    | with_reducible apply Only.foldl
    | with_reducible apply Only.foldl1
    | intro _ _ _
    | split
    | dsimp only

theorem State.failIns_only {s : State} {x1 : _} : Only 0x20002000020100000000000211b800100000000001000000000000080000000000010000000000020100413000005f00007201000000000000020000000000200000008000040000080000060c1e0e s (State.failIns s x1) := by
  unfold State.failIns
  repeat' first
    | with_reducible assumption
    | decide
    | with_reducible exact Only.refl _ _
    | with_reducible apply Only.then State.bandOver_only
    | with_reducible apply Only.foldl
    | with_reducible apply Only.foldl1
    | intro _ _ _
    | split
    | dsimp only

theorem State.loadTiles_only {s : State} {x1 : _} {x2 : _} : Only 0x40000 s (State.loadTiles s x1 x2) := by
  unfold State.loadTiles
  repeat' first
    | with_reducible assumption
    | decide
    | with_reducible exact Only.refl _ _
    | with_reducible apply Only.foldl
    | with_reducible apply Only.foldl1
    | intro _ _ _
    | split
    | dsimp only
    | (simp only [Only.lit]; with_reducible apply Only.upd (hpending := rfl) <;> first | exact Or.inl rfl | exact Or.inr (by with_reducible rfl) | skip)

theorem networkBandDone_only {x0 : _} {x1 : _} {x2 : _} {x3 : _} {s : State} : Only 0x20002000020100000000000211b801100000000001000000000000080000000000010000000000020100413000005f00007e01000000000000020000000000200000008000040000080000060c1e0e s (networkBandDone x0 x1 x2 x3 s) := by
  unfold networkBandDone
  repeat' first
    | decide
    | with_reducible exact Only.refl _ _
    | with_reducible apply Only.then State.loadTiles_only
    | with_reducible apply Only.then State.poisonTask_only
    | with_reducible apply Only.then State.failIns_only
    | with_reducible apply Only.then State.bandOver_only
    | with_reducible apply Only.then State.takeInput_only
    | with_reducible apply Only.then State.insRun_only
    | with_reducible apply Only.then State.wrList_only
    | with_reducible apply Only.then (State.addSat_only ?_)
    | with_reducible apply Only.then State.setIns_only
    | with_reducible apply Only.then State.insAdvance_only
    | with_reducible apply Only.then State.netRecord_only
    | with_reducible apply Only.then State.insSettle_only
    | with_reducible apply Only.then State.insNext_only
    | split
    | dsimp only

theorem networkDeadline_only {x0 : _} {x1 : _} {s : State} : Only 0x20002000000100000000000200380010000000000100000000000008000000000001000000000002000000000000480000118100000000000002000000000020000000800004000008000004040a08 s (networkDeadline x0 x1 s) := by
  unfold networkDeadline
  repeat' first
    | decide
    | with_reducible exact Only.refl _ _
    | with_reducible apply Only.then State.endHold_only
    | with_reducible apply Only.then State.setIns_only
    | with_reducible apply Only.then State.event_only
    | with_reducible apply Only.then (State.addSat_only ?_)
    | split
    | dsimp only

theorem weightsStaged_only {x0 : _} {x1 : _} {x2 : _} {s : State} : Only 0x100000000000000000000000000000000000000000000000000000040000 s (weightsStaged x0 x1 x2 s) := by
  unfold weightsStaged
  repeat' first
    | with_reducible assumption
    | decide
    | with_reducible exact Only.refl _ _
    | with_reducible apply Only.then State.tnsRun_only
    | with_reducible apply Only.then (State.addSat_only ?_)
    | with_reducible apply Only.then State.setIns_only
    | with_reducible apply Only.foldl
    | with_reducible apply Only.foldl1
    | intro _ _ _
    | split
    | dsimp only
    | (simp only [Only.lit]; with_reducible apply Only.upd (hpending := rfl) <;> first | exact Or.inl rfl | exact Or.inr (by with_reducible rfl) | skip)

/-! ## Commands -/

theorem execNetworkBandDone_only {x0 : _} {x1 : _} {x2 : _} {x3 : _} {s : State} {t : State} (h : execNetworkBandDone x0 x1 x2 x3 s = .next t) : Only 0x20002000020100000000000211b801100000000001000000000000080000000000010000000000020100413000005f00007e01000000000000020000000000200000008000040000080000060c1e0e s t := by
  simp only [execNetworkBandDone, done, whenUp, whenOn] at h
  injection h with h
  subst h
  repeat' first
    | decide
    | with_reducible exact Only.refl _ _
    | with_reducible apply Only.then networkBandDone_only
    | split

theorem execWeightsStaged_only {x0 : _} {x1 : _} {x2 : _} {s : State} {t : State} (h : execWeightsStaged x0 x1 x2 s = .next t) : Only 0x100000000000000000000000000000000000000000000000000000040000 s t := by
  simp only [execWeightsStaged, done, whenUp, whenOn] at h
  injection h with h
  subst h
  repeat' first
    | decide
    | with_reducible exact Only.refl _ _
    | with_reducible apply Only.then weightsStaged_only
    | split

theorem execNetworkDeadline_only {x0 : _} {x1 : _} {s : State} {t : State} (h : execNetworkDeadline x0 x1 s = .next t) : Only 0x20002000000100000000000200380010000000000100000000000008000000000001000000000002000000000000480000118100000000000002000000000020000000800004000008000004040a08 s t := by
  simp only [execNetworkDeadline, done, whenUp, whenOn] at h
  injection h with h
  subst h
  repeat' first
    | decide
    | with_reducible exact Only.refl _ _
    | with_reducible apply Only.then networkDeadline_only
    | split

end Sys2Proof.Machine
end

