-- ==== Sys2Proof/Laws/BoundMemory.lean ====
section
/-!
SUPPORT. What each function of Machine/Memory.lean can change at most.
-/

namespace Sys2Proof.Machine
open Sys2Proof Sys2Proof.Safety

theorem State.addPoison_only {s : State} {x1 : _} {x2 : _} {x3 : _} {x4 : _} : Only 0x80000 s (State.addPoison s x1 x2 x3 x4) := by
  unfold State.addPoison
  repeat' first
    | decide
    | with_reducible exact Only.refl _ _
    | dsimp only
    | (simp only [Only.lit]; with_reducible apply Only.upd (hpending := rfl) <;> first | exact Or.inl rfl | exact Or.inr (by with_reducible rfl) | skip)

theorem State.bar4Answer_only {s : State} {x1 : _} {x2 : _} {x3 : _} : Only 0x20002000000100000000020200380010000000000100000000000008000000000001000000000002000000000000400000000100000000000002000000000020000000800004000008000004080a08 s (State.bar4Answer s x1 x2 x3) := by
  unfold State.bar4Answer
  repeat' first
    | with_reducible assumption
    | decide
    | with_reducible exact Only.refl _ _
    | with_reducible apply Only.then State.touch_only
    | with_reducible apply Only.then State.event_only
    | with_reducible apply Only.then State.emit_only
    | with_reducible apply Only.then (State.addSat_only ?_)
    | with_reducible apply Only.foldl
    | with_reducible apply Only.foldl1
    | intro _ _ _
    | split
    | dsimp only

theorem State.serveBar4_only {s : State} : Only 0x20002000000100000000020200380010000000000100000000000008000000000001000000000002000000000000400000000100000000000002000000000020000000800004000008000004080a08 s (State.serveBar4 s) := by
  unfold State.serveBar4
  repeat' first
    | with_reducible assumption
    | decide
    | with_reducible exact Only.refl _ _
    | with_reducible apply Only.then State.bar4Answer_only
    | with_reducible apply Only.foldl
    | with_reducible apply Only.foldl1
    | intro _ _ _
    | split
    | dsimp only
    | (simp only [Only.lit]; with_reducible apply Only.upd (hpending := rfl) <;> first | exact Or.inl rfl | exact Or.inr (by with_reducible rfl) | skip)

theorem State.losePage_only {s : State} {x1 : _} {x2 : _} {x3 : _} : Only 0x20002000000100000000020200380010000000000100000000000008000000000001000000000002000000040000400000000100000000000002000000000020000000800004000008000004080a08 s (State.losePage s x1 x2 x3) := by
  unfold State.losePage
  repeat' first
    | decide
    | with_reducible exact Only.refl _ _
    | with_reducible apply Only.then State.serveBar4_only
    | with_reducible apply Only.then State.addPoison_only
    | with_reducible apply Only.then State.setPg_only
    | with_reducible apply Only.then (State.addSat_only ?_)
    | with_reducible apply Only.then State.event_only
    | dsimp only
    | (simp only [Only.lit]; with_reducible apply Only.upd (hpending := rfl) <;> first | exact Or.inl rfl | exact Or.inr (by with_reducible rfl) | skip)

theorem State.syncCellar_only {s : State} : Only 0xc000000000000000000000000000000000000000000000000000000000000000000000000000 s (State.syncCellar s) := by
  unfold State.syncCellar
  repeat' first
    | decide
    | with_reducible exact Only.refl _ _
    | with_reducible apply Only.then (State.setPair_only ?_ ?_)

theorem State.dealloc_only {s : State} {x1 : _} : Only 0x4080000 s (State.dealloc s x1) := by
  unfold State.dealloc
  repeat' first
    | with_reducible assumption
    | decide
    | with_reducible exact Only.refl _ _
    | with_reducible apply Only.then State.emit_only
    | with_reducible apply Only.foldl
    | with_reducible apply Only.foldl1
    | intro _ _ _
    | split
    | dsimp only
    | (simp only [Only.lit]; with_reducible apply Only.upd (hpending := rfl) <;> first | exact Or.inl rfl | exact Or.inr (by with_reducible rfl) | skip)

theorem State.putCellar_only {s : State} {x1 : _} : Only 0xc000000000000000000000000000000000000000000000000000000000000000000004180000 s (State.putCellar s x1) := by
  unfold State.putCellar
  repeat' first
    | with_reducible assumption
    | decide
    | with_reducible exact Only.refl _ _
    | with_reducible apply Only.then State.emit_only
    | with_reducible apply Only.then State.syncCellar_only
    | with_reducible apply Only.then State.dealloc_only
    | with_reducible apply Only.foldl
    | with_reducible apply Only.foldl1
    | intro _ _ _
    | split
    | dsimp only
    | (simp only [Only.lit]; with_reducible apply Only.upd (hpending := rfl) <;> first | exact Or.inl rfl | exact Or.inr (by with_reducible rfl) | skip)

theorem State.writeBack_only {s : State} {x1 : _} : Only 0xc000000000000000000000000000000000000000000000000000000000000000000004180000 s (State.writeBack s x1) := by
  unfold State.writeBack
  repeat' first
    | decide
    | with_reducible exact Only.refl _ _
    | with_reducible apply Only.then State.putCellar_only
    | with_reducible apply Only.then State.syncCellar_only
    | with_reducible apply Only.then State.setPg_only
    | split
    | dsimp only
    | (simp only [Only.lit]; with_reducible apply Only.upd (hpending := rfl) <;> first | exact Or.inl rfl | exact Or.inr (by with_reducible rfl) | skip)

theorem State.dropUe_only {s : State} {x1 : _} {x2 : _} : Only 0x80000 s (State.dropUe s x1 x2) := by
  unfold State.dropUe
  repeat' first
    | with_reducible assumption
    | decide
    | with_reducible exact Only.refl _ _
    | with_reducible apply Only.foldl
    | with_reducible apply Only.foldl1
    | intro _ _ _
    | split
    | dsimp only
    | (simp only [Only.lit]; with_reducible apply Only.upd (hpending := rfl) <;> first | exact Or.inl rfl | exact Or.inr (by with_reducible rfl) | skip)

theorem State.evict_only {s : State} {x1 : _} : Only 0xc000000000000000000000000000000000000000000000000000000000000000000004180000 s (State.evict s x1) := by
  unfold State.evict
  repeat' first
    | decide
    | with_reducible exact Only.refl _ _
    | with_reducible apply Only.then State.dropUe_only
    | with_reducible apply Only.then State.writeBack_only
    | with_reducible apply Only.then State.setPg_only
    | split
    | dsimp only

theorem State.placeDdr_only {s : State} {x1 : _} : Only 0x80000 s (State.placeDdr s x1) := by
  unfold State.placeDdr
  repeat' first
    | decide
    | with_reducible exact Only.refl _ _
    | with_reducible apply Only.then State.setPg_only
    | split
    | dsimp only

theorem State.needDdr_only {s : State} {x1 : _} : Only 0xc000000000000000000000000000000000000000000000000000000000000000000004180000 s (State.needDdr s x1) := by
  unfold State.needDdr
  repeat' first
    | decide
    | with_reducible exact Only.refl _ _
    | with_reducible apply Only.then State.evict_only
    | with_reducible apply Only.then State.placeDdr_only
    | split
    | dsimp only
    | (simp only [Only.lit]; with_reducible apply Only.upd (hpending := rfl) <;> first | exact Or.inl rfl | exact Or.inr (by with_reducible rfl) | skip)

theorem State.loseAbsent_only {s : State} {x1 : _} : Only 0x2000200000010000000002020038001000000000010000000000000800000000000100000000000200c000040000400000000100000000000002000000000020000000800004000008000004180a08 s (State.loseAbsent s x1) := by
  unfold State.loseAbsent
  repeat' first
    | with_reducible assumption
    | decide
    | with_reducible exact Only.refl _ _
    | with_reducible apply Only.then State.losePage_only
    | with_reducible apply Only.then State.needDdr_only
    | with_reducible apply Only.foldl
    | with_reducible apply Only.foldl1
    | intro _ _ _
    | split
    | dsimp only

theorem State.fetchPage_only {s : State} {x1 : _} : Only 0x2000200000010000000002020038001000000000010000000000000800000000000100000000000200c000040000400000000100000000000002000000000020000000800004000008000004180a08 s (State.fetchPage s x1) := by
  unfold State.fetchPage
  repeat' first
    | decide
    | with_reducible exact Only.refl _ _
    | with_reducible apply Only.then State.loseAbsent_only
    | with_reducible apply Only.then State.losePage_only
    | with_reducible apply Only.then State.needDdr_only
    | with_reducible apply Only.then State.emit_only
    | split
    | dsimp only
    | (simp only [Only.lit]; with_reducible apply Only.upd (hpending := rfl) <;> first | exact Or.inl rfl | exact Or.inr (by with_reducible rfl) | skip)

theorem State.syncMem_only {s : State} : Only 0x800204000000200000000000000000000000000000000000000000000000000000000000000000 s (State.syncMem s) := by
  unfold State.syncMem
  repeat' first
    | with_reducible assumption
    | decide
    | with_reducible exact Only.refl _ _
    | with_reducible apply Only.then (State.setF_only ?_)
    | with_reducible apply Only.foldl
    | with_reducible apply Only.foldl1
    | intro _ _ _
    | dsimp only

theorem State.enterPages_only {s : State} {x1 : _} : Only 0x80000 s (State.enterPages s x1) := by
  unfold State.enterPages
  repeat' first
    | with_reducible assumption
    | decide
    | with_reducible exact Only.refl _ _
    | with_reducible apply Only.then State.setPg_only
    | with_reducible apply Only.foldl
    | with_reducible apply Only.foldl1
    | intro _ _ _
    | dsimp only

theorem State.errInfo_only {s : State} {x1 : _} {x2 : _} {x3 : _} {x4 : _} {x5 : _} : Only 0x7000000000000000000000000000000000000000000000000000000000000000000000 s (State.errInfo s x1 x2 x3 x4 x5) := by
  unfold State.errInfo
  repeat' first
    | decide
    | with_reducible exact Only.refl _ _
    | with_reducible apply Only.then (State.setF_only ?_)
    | with_reducible apply Only.then (State.setPair_only ?_ ?_)
    | split
    | dsimp only

theorem State.evictLow_only {s : State} {x1 : _} {x2 : _} : Only 0xc000000000000000000000000000000000000000000000000000000000000000000004180000 s (State.evictLow s x1 x2) := by
  induction x2 generalizing s x1 with
  | zero =>
    unfold State.evictLow
    repeat' first
      | decide
      | with_reducible exact Only.refl _ _
      | with_reducible apply Only.then State.evict_only
      | split
      | dsimp only
  | succ n ih =>
    unfold State.evictLow
    repeat' first
      | decide
      | with_reducible exact Only.refl _ _
      | with_reducible apply Only.then ih
      | with_reducible apply Only.then State.evict_only
      | split
      | dsimp only

theorem State.fillRegion_only {s : State} {x1 : _} : Only 0x80000 s (State.fillRegion s x1).1 := by
  unfold State.fillRegion
  repeat' first
    | with_reducible assumption
    | decide
    | with_reducible exact Only.refl _ _
    | with_reducible apply Only.then State.placeDdr_only
    | with_reducible apply Only.then State.enterPages_only
    | with_reducible apply Only.foldl
    | with_reducible apply Only.foldl1
    | intro _ _ _
    | split
    | dsimp only

theorem State.frameError_only {s : State} {x1 : _} {x2 : _} {x3 : _} : Only 0x800204000000200000000000000000000000000000000000000000000000000000000000080000 s (State.frameError s x1 x2 x3) := by
  unfold State.frameError
  repeat' first
    | decide
    | with_reducible exact Only.refl _ _
    | with_reducible apply Only.then State.syncMem_only
    | with_reducible apply Only.then State.setPg_only
    | split
    | dsimp only
    | (simp only [Only.lit]; with_reducible apply Only.upd (hpending := rfl) <;> first | exact Or.inl rfl | exact Or.inr (by with_reducible rfl) | skip)

theorem State.loseCellar_only {s : State} : Only 0x2000200000010000000002020038001000000000010000000000000800000000000100000000000200c000040000400000000100000000000002000000000020000000800004000008000004180a08 s (State.loseCellar s) := by
  unfold State.loseCellar
  repeat' first
    | with_reducible assumption
    | decide
    | with_reducible exact Only.refl _ _
    | with_reducible apply Only.then State.loseAbsent_only
    | with_reducible apply Only.then State.losePage_only
    | with_reducible apply Only.then State.needDdr_only
    | with_reducible apply Only.foldl
    | with_reducible apply Only.foldl1
    | intro _ _ _
    | dsimp only
    | (simp only [Only.lit]; with_reducible apply Only.upd (hpending := rfl) <;> first | exact Or.inl rfl | exact Or.inr (by with_reducible rfl) | skip)

theorem State.putReplica_only {s : State} {x1 : _} : Only 0xc000000000000000000000000000000000000000000000000000000000000000000004180000 s (State.putReplica s x1) := by
  unfold State.putReplica
  repeat' first
    | with_reducible assumption
    | decide
    | with_reducible exact Only.refl _ _
    | with_reducible apply Only.then State.putCellar_only
    | with_reducible apply Only.then State.setPg_only
    | with_reducible apply Only.foldl
    | with_reducible apply Only.foldl1
    | intro _ _ _
    | split
    | dsimp only

theorem State.serveWaits_only {s : State} : Only 0xc000000000000000000000000000000000000000000000000000000000000000000004180000 s (State.serveWaits s) := by
  unfold State.serveWaits
  repeat' first
    | with_reducible assumption
    | decide
    | with_reducible exact Only.refl _ _
    | with_reducible apply Only.then State.needDdr_only
    | with_reducible apply Only.foldl
    | with_reducible apply Only.foldl1
    | intro _ _ _
    | split
    | dsimp only

theorem State.mountCellar_only {s : State} : Only 0x80ca04000000200000000000000000000000000000000000000000000000000000000004180002 s (State.mountCellar s) := by
  unfold State.mountCellar
  repeat' first
    | with_reducible assumption
    | decide
    | with_reducible exact Only.refl _ _
    | with_reducible apply Only.then State.serveWaits_only
    | with_reducible apply Only.then State.syncMem_only
    | with_reducible apply Only.then State.putReplica_only
    | with_reducible apply Only.then State.dealloc_only
    | with_reducible apply Only.then State.setPg_only
    | with_reducible apply Only.then (State.setB_only ?_)
    | with_reducible apply Only.then (State.setF_only ?_)
    | with_reducible apply Only.then State.syncCellar_only
    | with_reducible apply Only.then State.emit_only
    | with_reducible apply Only.foldl
    | with_reducible apply Only.foldl1
    | intro _ _ _
    | split
    | dsimp only
    | (simp only [Only.lit]; with_reducible apply Only.upd (hpending := rfl) <;> first | exact Or.inl rfl | exact Or.inr (by with_reducible rfl) | exact Or.inr ⟨rfl, Memory.wf_fill _ _⟩ | skip)

theorem State.noteAccess_only {s : State} {x1 : _} : Only 0x2000200000010000000002020038001000000000010000000000000800000000000100000000000200c000040000400000000100000000000002000000000020000000800004000008000004180a08 s (State.noteAccess s x1) := by
  unfold State.noteAccess
  repeat' first
    | decide
    | with_reducible exact Only.refl _ _
    | with_reducible apply Only.then State.fetchPage_only
    | with_reducible apply Only.then State.needDdr_only
    | with_reducible apply Only.then State.setPg_only
    | split
    | dsimp only

theorem State.noteMove_only {s : State} {x1 : _} : Only 0x80000000000000000000000000000000000000000000000000000000000000080400 s (State.noteMove s x1) := by
  unfold State.noteMove
  repeat' first
    | with_reducible assumption
    | decide
    | with_reducible exact Only.refl _ _
    | with_reducible apply State.tele_only (hs := fun _ _ => ?_)
    | with_reducible apply Only.then (State.setF_only ?_)
    | dsimp only
    | (simp only [Only.lit]; with_reducible apply Only.upd (hpending := rfl) <;> first | exact Or.inl rfl | exact Or.inr (by with_reducible rfl) | skip)

theorem State.nvmeReset_only {s : State} : Only 0x2000200000010000000002020038001000000000010000000000000800000000000100000000000280ca04040000600000000100000000000002000000000020000000800004000008000004180a08 s (State.nvmeReset s) := by
  unfold State.nvmeReset
  repeat' first
    | decide
    | with_reducible exact Only.refl _ _
    | with_reducible apply Only.then State.event_only
    | with_reducible apply Only.then (State.addSat_only ?_)
    | with_reducible apply Only.then (State.setB_only ?_)
    | with_reducible apply Only.then (State.setF_only ?_)
    | with_reducible apply Only.then State.syncMem_only
    | with_reducible apply Only.then State.loseCellar_only
    | split
    | dsimp only
    | (simp only [Only.lit]; with_reducible apply Only.upd (hpending := rfl) <;> first | exact Or.inl rfl | exact Or.inr (by with_reducible rfl) | skip)

theorem State.placeHop_only {s : State} {x1 : _} {x2 : _} {x3 : _} : Only 0x80000 s (State.placeHop s x1 x2 x3) := by
  unfold State.placeHop
  repeat' first
    | decide
    | with_reducible exact Only.refl _ _
    | with_reducible apply Only.then State.setPg_only
    | split
    | dsimp only

theorem State.placeRegions_only {s : State} : Only 0x20002000000100000000000200380010000000000100000000000008000000000001000000000002800204000800600000000100000000000002000000000020000000800004000008000004080a08 s (State.placeRegions s).1 := by
  unfold State.placeRegions
  repeat' first
    | with_reducible assumption
    | decide
    | with_reducible exact Only.refl _ _
    | with_reducible apply Only.then (State.setF_only ?_)
    | with_reducible apply Only.then State.placeHop_only
    | with_reducible apply Only.then State.fillRegion_only
    | with_reducible apply Only.then State.enterPages_only
    | with_reducible apply Only.then State.event_only
    | with_reducible apply Only.then State.syncMem_only
    | with_reducible apply Only.foldl
    | with_reducible apply Only.foldl1
    | intro _ _ _
    | split
    | dsimp only
    | (simp only [Only.lit]; with_reducible apply Only.upd (hpending := rfl) <;> first | exact Or.inl rfl | exact Or.inr (by with_reducible rfl) | skip)

theorem State.startRefill_only {s : State} {x1 : _} : Only 0x8002040000002000001000000000000000000000000000000000000000000000000000000c0000 s (State.startRefill s x1) := by
  unfold State.startRefill
  repeat' first
    | decide
    | with_reducible exact Only.refl _ _
    | with_reducible apply Only.then State.tnsRun_only
    | with_reducible apply Only.then State.syncMem_only
    | split
    | dsimp only
    | (simp only [Only.lit]; with_reducible apply Only.upd (hpending := rfl) <;> first | exact Or.inl rfl | exact Or.inr (by with_reducible rfl) | skip)

theorem State.rescuePage_only {s : State} {x1 : _} {x2 : _} : Only 0x2000200000010000000002020038001000000000010000000000000800000000000100000000000280c2040400006000001001000000000000020000000000200000008000040000080000041c0a08 s (State.rescuePage s x1 x2) := by
  unfold State.rescuePage
  repeat' first
    | decide
    | with_reducible exact Only.refl _ _
    | with_reducible apply Only.then State.fetchPage_only
    | with_reducible apply Only.then State.dropUe_only
    | with_reducible apply Only.then State.startRefill_only
    | with_reducible apply Only.then State.setPg_only
    | with_reducible apply Only.then State.losePage_only
    | split
    | dsimp only

theorem State.rescuePt_only {s : State} {x1 : _} {t : State} (h : State.rescuePt s x1 = some t) : Only 0x80000 s t := by
  unfold State.rescuePt at h
  dsimp only at h
  repeat' split at h
  all_goals first | cases h | skip
  all_goals
    repeat' first
      | decide
      | with_reducible exact Only.refl _ _
      | split
      | dsimp only
      | (simp only [Only.lit]; with_reducible apply Only.upd (hpending := rfl) <;> first | exact Or.inl rfl | exact Or.inr (by with_reducible rfl) | skip)

theorem State.rescued_only {s : State} {x1 : _} : Only 0x80000 s (State.rescued s x1) := by
  unfold State.rescued
  repeat' first
    | decide
    | with_reducible exact Only.refl _ _
    | (with_reducible apply Only.then (State.rescuePt_only (by assumption)))
    | split
    | dsimp only

theorem State.setTrain_only {s : State} {x1 : _} {x2 : _} : Only 0x1000000000000000000000000000000000000000000000000000000000000000000 s (State.setTrain s x1 x2) := by
  unfold State.setTrain
  repeat' first
    | decide
    | with_reducible exact Only.refl _ _
    | with_reducible apply Only.then (State.setF_only ?_)
    | dsimp only

theorem State.setCh_only {s : State} {x1 : _} {x2 : _} {x3 : _} : Only 0x8000000000000000000000004000000000000800000000000000010000007200000000080000000000001000000000000000000000000000000000000000000 s (State.setCh s x1 x2 x3) := by
  unfold State.setCh
  repeat' first
    | decide
    | with_reducible exact Only.refl _ _
    | with_reducible apply Only.then (State.setF_only ?_)
    | with_reducible apply Only.then State.setTrain_only
    | with_reducible apply Only.then State.syncDegraded_only
    | with_reducible apply Only.then (State.setPair_only ?_ ?_)
    | split
    | dsimp only

theorem State.retireCh_only {s : State} {x1 : _} {x2 : _} : Only 0x3ffffffffffffffffffffffffffffffffffffffffffffffffffffffffffffffffffffffffffffffffffffffffffffffffffffffffffffffffffffffffffffffffffffffffffffffffffffffffffffffef s (State.retireCh s x1 x2) := by
  unfold State.retireCh
  repeat' first
    | with_reducible assumption
    | decide
    | with_reducible exact Only.refl _ _
    | with_reducible apply Only.then State.tnsRun_only
    | with_reducible apply Only.then State.serveBar4_only
    | (with_reducible apply Only.then (State.rescuePt_only (by assumption)))
    | with_reducible apply Only.then State.setCh_only
    | with_reducible apply Only.then State.event_only
    | with_reducible apply Only.then State.restart_only
    | with_reducible apply Only.then State.syncMem_only
    | with_reducible apply Only.then State.rescuePage_only
    | with_reducible apply Only.foldl
    | with_reducible apply Only.foldl1
    | intro _ _ _
    | split
    | dsimp only
    | (simp only [Only.lit]; with_reducible apply Only.upd (hpending := rfl) <;> first | exact Or.inl rfl | exact Or.inr (by with_reducible rfl) | skip)

theorem State.scorePages_only {s : State} : Only 0x80000 s (State.scorePages s) := by
  unfold State.scorePages
  repeat' first
    | with_reducible assumption
    | decide
    | with_reducible exact Only.refl _ _
    | with_reducible apply Only.foldl
    | with_reducible apply Only.foldl1
    | intro _ _ _
    | split
    | dsimp only
    | (simp only [Only.lit]; with_reducible apply Only.upd (hpending := rfl) <;> first | exact Or.inl rfl | exact Or.inr (by with_reducible rfl) | skip)

theorem addressFault_only {x0 : _} {x1 : _} {s : State} : Only 0x2000200000010000000000020038001000000000010000000000000800000000000100000000000200000040700040000000010000000000000200000000002000000080000400000800000c000a08 s (addressFault x0 x1 s) := by
  unfold addressFault
  repeat' first
    | decide
    | with_reducible exact Only.refl _ _
    | with_reducible apply Only.then State.event_only
    | with_reducible apply Only.then (State.addSat_only ?_)
    | with_reducible apply Only.then State.errInfo_only
    | with_reducible apply Only.then State.used_only
    | split
    | dsimp only

theorem State.noCellar_only {s : State} {x1 : _} : Only 0x2000200000010000000002020038001000000000010000000000000800000000000100000000000280ca04040000600000000100000000000002000000000020000000800004000008000004180a08 s (State.noCellar s x1) := by
  unfold State.noCellar
  repeat' first
    | with_reducible assumption
    | decide
    | with_reducible exact Only.refl _ _
    | with_reducible apply Only.then State.syncMem_only
    | with_reducible apply Only.then State.loseCellar_only
    | with_reducible apply Only.then (State.setF_only ?_)
    | with_reducible apply Only.foldl
    | with_reducible apply Only.foldl1
    | intro _ _ _
    | split
    | dsimp only
    | (simp only [Only.lit]; with_reducible apply Only.upd (hpending := rfl) <;> first | exact Or.inl rfl | exact Or.inr (by with_reducible rfl) | skip)

theorem State.nvmeStart_only {s : State} : Only 0x4000000 s (State.nvmeStart s) := by
  unfold State.nvmeStart
  repeat' first
    | with_reducible assumption
    | decide
    | with_reducible exact Only.refl _ _
    | with_reducible apply Only.then State.emit_only
    | with_reducible apply Only.foldl
    | with_reducible apply Only.foldl1
    | intro _ _ _
    | split
    | dsimp only

theorem cellarBringupDone_only {x0 : _} {s : State} : Only 0x2000200000010000000002020038001000000000010000000000000800000000000100000000000280fa0404000060000000010000000000000200000000002000000080000400000800000c180a0a s (cellarBringupDone x0 s) := by
  unfold cellarBringupDone
  repeat' first
    | decide
    | with_reducible exact Only.refl _ _
    | with_reducible apply Only.then State.nvmeStart_only
    | with_reducible apply Only.then State.noCellar_only
    | with_reducible apply Only.then State.syncMem_only
    | with_reducible apply Only.then State.loseCellar_only
    | with_reducible apply Only.then (State.setF_only ?_)
    | with_reducible apply Only.then State.mountCellar_only
    | with_reducible apply Only.then (State.setPair_only ?_ ?_)
    | with_reducible apply Only.then (State.setB_only ?_)
    | with_reducible apply Only.then State.warnOpen_only
    | split
    | dsimp only
    | (simp only [Only.lit]; with_reducible apply Only.upd (hpending := rfl) <;> first | exact Or.inl rfl | exact Or.inr (by with_reducible rfl) | skip)

theorem cellarCheckpoint_only {s : State} : Only 0x4100000 s (cellarCheckpoint s) := by
  unfold cellarCheckpoint
  repeat' first
    | decide
    | with_reducible exact Only.refl _ _
    | with_reducible apply Only.then State.emit_only
    | split
    | dsimp only
    | (simp only [Only.lit]; with_reducible apply Only.upd (hpending := rfl) <;> first | exact Or.inl rfl | exact Or.inr (by with_reducible rfl) | skip)

theorem cellarResetDone_only {s : State} : Only 0x80c204000000200000000000000000000000000000000000000000000000000000000004180000 s (cellarResetDone s) := by
  unfold cellarResetDone
  repeat' first
    | with_reducible assumption
    | decide
    | with_reducible exact Only.refl _ _
    | with_reducible apply Only.then State.serveWaits_only
    | with_reducible apply Only.then State.syncMem_only
    | with_reducible apply Only.then State.emit_only
    | with_reducible apply Only.foldl
    | with_reducible apply Only.foldl1
    | intro _ _ _
    | split
    | dsimp only
    | (simp only [Only.lit]; with_reducible apply Only.upd (hpending := rfl) <;> first | exact Or.inl rfl | exact Or.inr (by with_reducible rfl) | skip)

theorem cellarWriteback_only {x0 : _} {s : State} : Only 0xc000000000000000000000000000000000000000000000000000000000000000000004180000 s (cellarWriteback x0 s) := by
  unfold cellarWriteback
  repeat' first
    | decide
    | with_reducible exact Only.refl _ _
    | with_reducible apply Only.then State.writeBack_only
    | split
    | dsimp only

theorem channelDrainDone_only {x0 : _} {s : State} : Only 0x2000200000010000000000020038001800000000010000000000000c00000000000180000000000280c214000007600000000180000000000003000000000020000000800004000008000004180a08 s (channelDrainDone x0 s) := by
  unfold channelDrainDone
  repeat' first
    | with_reducible assumption
    | decide
    | with_reducible exact Only.refl _ _
    | with_reducible apply Only.then State.dropUe_only
    | with_reducible apply Only.then State.needDdr_only
    | with_reducible apply Only.then State.setPg_only
    | with_reducible apply Only.then State.rescued_only
    | with_reducible apply Only.then State.syncMem_only
    | with_reducible apply Only.then State.event_only
    | with_reducible apply Only.then State.setCh_only
    | with_reducible apply Only.foldl
    | with_reducible apply Only.foldl1
    | intro _ _ _
    | split
    | dsimp only
    | (simp only [Only.lit]; with_reducible apply Only.upd (hpending := rfl) <;> first | exact Or.inl rfl | exact Or.inr (by with_reducible rfl) | skip)

theorem correctedError_only {x0 : _} {x1 : _} {x2 : _} {x3 : _} {s : State} : Only 0x2000200000010000000000020038001800000000010000000000000c0000000000018000000000028102b6a84007600000000180000000000003000000000020000000800004000008000004080a08 s (correctedError x0 x1 x2 x3 s) := by
  unfold correctedError
  repeat' first
    | decide
    | with_reducible exact Only.refl _ _
    | with_reducible apply Only.then (State.setF_only ?_)
    | with_reducible apply Only.then State.event_only
    | with_reducible apply Only.then (State.addSat_only ?_)
    | with_reducible apply Only.then State.syncMem_only
    | with_reducible apply Only.then State.setCh_only
    | split
    | dsimp only
    | (simp only [Only.lit]; with_reducible apply Only.upd (hpending := rfl) <;> first | exact Or.inl rfl | exact Or.inr (by with_reducible rfl) | skip)

theorem ddrDqsTrack_only {x0 : _} {x1 : _} {s : State} : Only 0x80000 s (ddrDqsTrack x0 x1 s) := by
  unfold ddrDqsTrack
  repeat' first
    | decide
    | with_reducible exact Only.refl _ _
    | split
    | dsimp only
    | (simp only [Only.lit]; with_reducible apply Only.upd (hpending := rfl) <;> first | exact Or.inl rfl | exact Or.inr (by with_reducible rfl) | skip)

theorem ddrMr4Read_only {x0 : _} {x1 : _} {s : State} : Only 0x10000000000000000000000000000000000000000000000000000000000000000000000000 s (ddrMr4Read x0 x1 s) := by
  unfold ddrMr4Read
  repeat' first
    | decide
    | with_reducible exact Only.refl _ _
    | with_reducible apply Only.then (State.setB_only ?_)
    | split

theorem ddrRetrainDone_only {x0 : _} {s : State} : Only 0x200020000001000000000202003800100000000001000000000000080000000000010000000000020000000000004000001001000000000000020000000000200000008000040000080000040c0a08 s (ddrRetrainDone x0 s) := by
  unfold ddrRetrainDone
  repeat' first
    | decide
    | with_reducible exact Only.refl _ _
    | with_reducible assumption
    | with_reducible apply Only.foldl
    | with_reducible apply Only.foldl1
    | intro _ _ _
    | with_reducible apply Only.then State.tnsRun_only
    | with_reducible apply Only.then State.serveBar4_only
    | dsimp only
    | split
    | (simp only [Only.lit]; with_reducible apply Only.upd (hpending := rfl) <;> first | exact Or.inl rfl | exact Or.inr (by with_reducible rfl) | skip)

theorem ddrZqCal_only {x0 : _} {s : State} : Only 0x80000 s (ddrZqCal x0 s) := by
  unfold ddrZqCal
  repeat' first
    | decide
    | with_reducible exact Only.refl _ _
    | split
    | dsimp only
    | (simp only [Only.lit]; with_reducible apply Only.upd (hpending := rfl) <;> first | exact Or.inl rfl | exact Or.inr (by with_reducible rfl) | skip)

theorem demandFillDone_only {x0 : _} {x1 : _} {s : State} : Only 0x2000200000010000000002020038001000000000010000000000000800000000000100000000000281c204040000600000000100000000000002000000000020000000800004000008000004180a08 s (demandFillDone x0 x1 s) := by
  unfold demandFillDone
  repeat' first
    | decide
    | with_reducible exact Only.refl _ _
    | with_reducible apply Only.then State.serveWaits_only
    | with_reducible apply Only.then State.serveBar4_only
    | with_reducible apply Only.then (State.addSat_only ?_)
    | with_reducible apply Only.then State.needDdr_only
    | with_reducible apply Only.then State.losePage_only
    | with_reducible apply Only.then State.syncMem_only
    | with_reducible apply Only.then State.evictLow_only
    | split
    | dsimp only
    | (simp only [Only.lit]; with_reducible apply Only.upd (hpending := rfl) <;> first | exact Or.inl rfl | exact Or.inr (by with_reducible rfl) | skip)

theorem migrationPass_only {x0 : _} {s : State} : Only 0x2000200000010000000002020038001000000000010000000000000800000000000100000000000200c000040100400000000100000000000002000000000020000000800004000008000004180a08 s (migrationPass x0 s) := by
  unfold migrationPass
  repeat' first
    | with_reducible assumption
    | decide
    | with_reducible exact Only.refl _ _
    | with_reducible apply Only.then State.evictLow_only
    | with_reducible apply Only.then State.noteAccess_only
    | with_reducible apply Only.then (State.addSat_only ?_)
    | with_reducible apply Only.then State.scorePages_only
    | with_reducible apply Only.foldl
    | with_reducible apply Only.foldl1
    | intro _ _ _
    | split
    | dsimp only
    | (simp only [Only.lit]; with_reducible apply Only.upd (hpending := rfl) <;> first | exact Or.inl rfl | exact Or.inr (by with_reducible rfl) | skip)

theorem nvmeCompletion_only {x0 : _} {x1 : _} {x2 : _} {x3 : _} {x4 : _} {s : State} : Only 0x2000200000010000000002020038001000000000010000000000000800000000000100000000000289c204040000600000000100000000000002000000000020000000800004000008000004180a08 s (nvmeCompletion x0 x1 x2 x3 x4 s) := by
  unfold nvmeCompletion
  repeat' first
    | decide
    | with_reducible exact Only.refl _ _
    | with_reducible apply Only.then State.emit_only
    | with_reducible apply Only.then State.loseAbsent_only
    | with_reducible apply Only.then State.syncMem_only
    | with_reducible apply Only.then (State.addSat_only ?_)
    | with_reducible apply Only.then (State.setF_only ?_)
    | split
    | dsimp only
    | (simp only [Only.lit]; with_reducible apply Only.upd (hpending := rfl) <;> first | exact Or.inl rfl | exact Or.inr (by with_reducible rfl) | skip)

theorem nvmeTimeout_only {x0 : _} {x1 : _} {x2 : _} {s : State} : Only 0x2000200000010000000002020038001000000000010000000000000800000000000100000000000282ca04040000600000000100000000000002000000000020000000800004000008000004180a08 s (nvmeTimeout x0 x1 x2 s) := by
  unfold nvmeTimeout
  repeat' first
    | decide
    | with_reducible exact Only.refl _ _
    | with_reducible apply Only.then (State.addSat_only ?_)
    | with_reducible apply Only.then State.emit_only
    | with_reducible apply Only.then State.nvmeReset_only
    | split
    | dsimp only
    | (simp only [Only.lit]; with_reducible apply Only.upd (hpending := rfl) <;> first | exact Or.inl rfl | exact Or.inr (by with_reducible rfl) | skip)

theorem pageMigrateSwitch_only {x0 : _} {s : State} : Only 0x800204000680200000000000000000000000000000000000000000000000000000000000080400 s (pageMigrateSwitch x0 s) := by
  unfold pageMigrateSwitch
  repeat' first
    | decide
    | with_reducible exact Only.refl _ _
    | with_reducible apply Only.then State.dropUe_only
    | with_reducible apply Only.then State.noteMove_only
    | with_reducible apply Only.then State.setPg_only
    | with_reducible apply Only.then State.syncMem_only
    | with_reducible apply Only.then (State.addPair_only ?_ ?_)
    | split
    | dsimp only
    | (simp only [Only.lit]; with_reducible apply Only.upd (hpending := rfl) <;> first | exact Or.inl rfl | exact Or.inr (by with_reducible rfl) | skip)

theorem phyLockLoss_only {x0 : _} {s : State} : Only 0x1000000000000000000000000000000000000000000000000000000c0000 s (phyLockLoss x0 s) := by
  unfold phyLockLoss
  repeat' first
    | decide
    | with_reducible exact Only.refl _ _
    | with_reducible apply Only.then State.tnsRun_only
    | split
    | dsimp only
    | (simp only [Only.lit]; with_reducible apply Only.upd (hpending := rfl) <;> first | exact Or.inl rfl | exact Or.inr (by with_reducible rfl) | skip)

theorem State.badCopies_only {s : State} {x1 : _} {x2 : _} {x3 : _} : Only 0x10041300000000000000000000000000000000000000000000000000000000000000000000000 s (State.badCopies s x1 x2 x3) := by
  unfold State.badCopies
  repeat' first
    | with_reducible assumption
    | decide
    | with_reducible exact Only.refl _ _
    | with_reducible apply Only.then State.countUe_only
    | with_reducible apply Only.then (State.addSat_only ?_)
    | with_reducible apply Only.foldl
    | with_reducible apply Only.foldl1
    | intro _ _ _
    | split
    | dsimp only

theorem State.refilled_only {s : State} {x1 : _} {x2 : _} : Only 0x2000200000010000000002020038001000000000010000000000000800000000000100000000000280c2040000006000001001000000000000020000000000200000008000040000080000041c0a08 s (State.refilled s x1 x2) := by
  unfold State.refilled
  repeat' first
    | with_reducible assumption
    | decide
    | with_reducible exact Only.refl _ _
    | with_reducible apply Only.then State.placeDdr_only
    | with_reducible apply Only.then State.putReplica_only
    | with_reducible apply Only.then State.serveBar4_only
    | with_reducible apply Only.then State.tnsRun_only
    | with_reducible apply Only.then State.syncMem_only
    | with_reducible apply Only.foldl
    | with_reducible apply Only.foldl1
    | intro _ _ _
    | split
    | dsimp only
    | (simp only [Only.lit]; with_reducible apply Only.upd (hpending := rfl) <;> first | exact Or.inl rfl | exact Or.inr (by with_reducible rfl) | skip)

theorem refillDone_only {x0 : _} {x1 : _} {s : State} : Only 0x3ffffffffffffffffffffffffffffffffffffffffffffffffffffffffffffffffffffffffffffffffffffffffffffffffffffffffffffffffffffffffffffffffffffffffffffffffffffffffffffffef s (refillDone x0 x1 s) := by
  unfold refillDone
  repeat' first
    | decide
    | with_reducible exact Only.refl _ _
    | with_reducible apply Only.then State.refilled_only
    | with_reducible apply Only.then State.badCopies_only
    | with_reducible assumption
    | with_reducible apply Only.foldl
    | with_reducible apply Only.foldl1
    | intro _ _ _
    | with_reducible apply Only.then State.serveBar4_only
    | with_reducible apply Only.then State.putReplica_only
    | with_reducible apply Only.then State.countUe_only
    | with_reducible apply Only.then State.tnsRun_only
    | with_reducible apply Only.then State.syncMem_only
    | with_reducible apply Only.then State.placeDdr_only
    | with_reducible apply Only.then State.event_only
    | with_reducible apply Only.then (State.addSat_only ?_)
    | with_reducible apply Only.then State.netLost_only
    | with_reducible apply Only.then State.losePage_only
    | with_reducible apply Only.then State.restart_only
    | split
    | dsimp only
    | (simp only [Only.lit]; with_reducible apply Only.upd (hpending := rfl) <;> first | exact Or.inl rfl | exact Or.inr (by with_reducible rfl) | skip)

theorem retrainTimeout_only {x0 : _} {s : State} : Only 0x3ffffffffffffffffffffffffffffffffffffffffffffffffffffffffffffffffffffffffffffffffffffffffffffffffffffffffffffffffffffffffffffffffffffffffffffffffffffffffffffffef s (retrainTimeout x0 s) := by
  unfold retrainTimeout
  repeat' first
    | decide
    | with_reducible exact Only.refl _ _
    | with_reducible apply Only.then State.retireCh_only
    | split

theorem scrubStep_only {x0 : _} {x1 : _} {x2 : _} {x3 : _} {s : State} : Only 0x2000200000010000000000020038001800000000010000000000000c0000000000018000000000028102b6a84007600000000180000000000003000000000020000000800004000008000004080a08 s (scrubStep x0 x1 x2 x3 s) := by
  unfold scrubStep
  repeat' first
    | decide
    | with_reducible exact Only.refl _ _
    | with_reducible apply Only.then correctedError_only
    | split

theorem uncorrectableError_only {x0 : _} {x1 : _} {x2 : _} {x3 : _} {x4 : _} {s : State} : Only 0x3ffffffffffffffffffffffffffffffffffffffffffffffffffffffffffffffffffffffffffffffffffffffffffffffffffffffffffffffffffffffffffffffffffffffffffffffffffffffffffffffef s (uncorrectableError x0 x1 x2 x3 x4 s) := by
  unfold uncorrectableError
  repeat' first
    | decide
    | with_reducible exact Only.refl _ _
    | with_reducible apply Only.then State.event_only
    | with_reducible apply Only.then State.countUe_only
    | with_reducible apply Only.then State.errInfo_only
    | with_reducible apply Only.then State.startRefill_only
    | with_reducible apply Only.then State.addPoison_only
    | with_reducible apply Only.then State.frameError_only
    | with_reducible apply Only.then State.retireCh_only
    | split
    | dsimp only
    | (simp only [Only.lit]; with_reducible apply Only.upd (hpending := rfl) <;> first | exact Or.inl rfl | exact Or.inr (by with_reducible rfl) | skip)

/-! ## Commands -/

theorem execCellarResetDone_only {s : State} {t : State} (h : execCellarResetDone s = .next t) : Only 0x80c204000000200000000000000000000000000000000000000000000000000000000004180000 s t := by
  simp only [execCellarResetDone, done, whenUp, whenOn] at h
  injection h with h
  subst h
  repeat' first
    | decide
    | with_reducible exact Only.refl _ _
    | with_reducible apply Only.then cellarResetDone_only
    | split

theorem execAddressFault_only {x0 : _} {x1 : _} {s : State} {t : State} (h : execAddressFault x0 x1 s = .next t) : Only 0x2000200000010000000000020038001000000000010000000000000800000000000100000000000200000040700040000000010000000000000200000000002000000080000400000800000c000a08 s t := by
  simp only [execAddressFault, done, whenUp, whenOn] at h
  injection h with h
  subst h
  repeat' first
    | decide
    | with_reducible exact Only.refl _ _
    | with_reducible apply Only.then addressFault_only
    | split

theorem execDdrRetrainDone_only {x0 : _} {s : State} {t : State} (h : execDdrRetrainDone x0 s = .next t) : Only 0x200020000001000000000202003800100000000001000000000000080000000000010000000000020000000000004000001001000000000000020000000000200000008000040000080000040c0a08 s t := by
  simp only [execDdrRetrainDone, done, whenUp, whenOn] at h
  injection h with h
  subst h
  repeat' first
    | decide
    | with_reducible exact Only.refl _ _
    | with_reducible apply Only.then ddrRetrainDone_only
    | split

theorem execPageMigrateSwitch_only {x0 : _} {s : State} {t : State} (h : execPageMigrateSwitch x0 s = .next t) : Only 0x800204000680200000000000000000000000000000000000000000000000000000000000080400 s t := by
  simp only [execPageMigrateSwitch, done, whenUp, whenOn] at h
  injection h with h
  subst h
  repeat' first
    | decide
    | with_reducible exact Only.refl _ _
    | with_reducible apply Only.then pageMigrateSwitch_only
    | split

theorem execRetrainTimeout_only {x0 : _} {s : State} {t : State} (h : execRetrainTimeout x0 s = .next t) : Only 0x3ffffffffffffffffffffffffffffffffffffffffffffffffffffffffffffffffffffffffffffffffffffffffffffffffffffffffffffffffffffffffffffffffffffffffffffffffffffffffffffffef s t := by
  simp only [execRetrainTimeout, done, whenUp, whenOn] at h
  injection h with h
  subst h
  repeat' first
    | decide
    | with_reducible exact Only.refl _ _
    | with_reducible apply Only.then retrainTimeout_only
    | split

theorem execNvmeTimeout_only {x0 : _} {x1 : _} {x2 : _} {s : State} {t : State} (h : execNvmeTimeout x0 x1 x2 s = .next t) : Only 0x2000200000010000000002020038001000000000010000000000000800000000000100000000000282ca04040000600000000100000000000002000000000020000000800004000008000004180a08 s t := by
  simp only [execNvmeTimeout, done, whenUp, whenOn] at h
  injection h with h
  subst h
  repeat' first
    | decide
    | with_reducible exact Only.refl _ _
    | with_reducible apply Only.then nvmeTimeout_only
    | split

theorem execPhyLockLoss_only {x0 : _} {s : State} {t : State} (h : execPhyLockLoss x0 s = .next t) : Only 0x1000000000000000000000000000000000000000000000000000000c0000 s t := by
  simp only [execPhyLockLoss, done, whenUp, whenOn] at h
  injection h with h
  subst h
  repeat' first
    | decide
    | with_reducible exact Only.refl _ _
    | with_reducible apply Only.then phyLockLoss_only
    | split

theorem execCorrectedError_only {x0 : _} {x1 : _} {x2 : _} {x3 : _} {s : State} {t : State} (h : execCorrectedError x0 x1 x2 x3 s = .next t) : Only 0x2000200000010000000000020038001800000000010000000000000c0000000000018000000000028102b6a84007600000000180000000000003000000000020000000800004000008000004080a08 s t := by
  simp only [execCorrectedError, done, whenUp, whenOn] at h
  injection h with h
  subst h
  repeat' first
    | decide
    | with_reducible exact Only.refl _ _
    | with_reducible apply Only.then correctedError_only
    | split

theorem execRefillDone_only {x0 : _} {x1 : _} {s : State} {t : State} (h : execRefillDone x0 x1 s = .next t) : Only 0x3ffffffffffffffffffffffffffffffffffffffffffffffffffffffffffffffffffffffffffffffffffffffffffffffffffffffffffffffffffffffffffffffffffffffffffffffffffffffffffffffef s t := by
  simp only [execRefillDone, done, whenUp, whenOn] at h
  injection h with h
  subst h
  repeat' first
    | decide
    | with_reducible exact Only.refl _ _
    | with_reducible apply Only.then refillDone_only
    | split

theorem execDdrMr4Read_only {x0 : _} {x1 : _} {s : State} {t : State} (h : execDdrMr4Read x0 x1 s = .next t) : Only 0x10000000000000000000000000000000000000000000000000000000000000000000000000 s t := by
  simp only [execDdrMr4Read, done, whenUp, whenOn] at h
  injection h with h
  subst h
  repeat' first
    | decide
    | with_reducible exact Only.refl _ _
    | with_reducible apply Only.then ddrMr4Read_only
    | split

theorem execDdrDqsTrack_only {x0 : _} {x1 : _} {s : State} {t : State} (h : execDdrDqsTrack x0 x1 s = .next t) : Only 0x80000 s t := by
  simp only [execDdrDqsTrack, done, whenUp, whenOn] at h
  injection h with h
  subst h
  repeat' first
    | decide
    | with_reducible exact Only.refl _ _
    | with_reducible apply Only.then ddrDqsTrack_only
    | split

theorem execCellarBringupDone_only {x0 : _} {s : State} {t : State} (h : execCellarBringupDone x0 s = .next t) : Only 0x2000200000010000000002020038001000000000010000000000000800000000000100000000000280fa0404000060000000010000000000000200000000002000000080000400000800000c180a0a s t := by
  simp only [execCellarBringupDone, done, whenUp, whenOn] at h
  injection h with h
  subst h
  repeat' first
    | decide
    | with_reducible exact Only.refl _ _
    | with_reducible apply Only.then cellarBringupDone_only
    | split

theorem execCellarWriteback_only {x0 : _} {s : State} {t : State} (h : execCellarWriteback x0 s = .next t) : Only 0xc000000000000000000000000000000000000000000000000000000000000000000004180000 s t := by
  simp only [execCellarWriteback, done, whenUp, whenOn] at h
  injection h with h
  subst h
  repeat' first
    | decide
    | with_reducible exact Only.refl _ _
    | with_reducible apply Only.then cellarWriteback_only
    | split

theorem execUncorrectableError_only {x0 : _} {x1 : _} {x2 : _} {x3 : _} {x4 : _} {s : State} {t : State} (h : execUncorrectableError x0 x1 x2 x3 x4 s = .next t) : Only 0x3ffffffffffffffffffffffffffffffffffffffffffffffffffffffffffffffffffffffffffffffffffffffffffffffffffffffffffffffffffffffffffffffffffffffffffffffffffffffffffffffef s t := by
  simp only [execUncorrectableError, done, whenUp, whenOn] at h
  injection h with h
  subst h
  repeat' first
    | decide
    | with_reducible exact Only.refl _ _
    | with_reducible apply Only.then uncorrectableError_only
    | split

theorem execMigrationPass_only {x0 : _} {s : State} {t : State} (h : execMigrationPass x0 s = .next t) : Only 0x2000200000010000000002020038001000000000010000000000000800000000000100000000000200c000040100400000000100000000000002000000000020000000800004000008000004180a08 s t := by
  simp only [execMigrationPass, done, whenUp, whenOn] at h
  injection h with h
  subst h
  repeat' first
    | decide
    | with_reducible exact Only.refl _ _
    | with_reducible apply Only.then migrationPass_only
    | split

theorem execDdrZqCal_only {x0 : _} {s : State} {t : State} (h : execDdrZqCal x0 s = .next t) : Only 0x80000 s t := by
  simp only [execDdrZqCal, done, whenUp, whenOn] at h
  injection h with h
  subst h
  repeat' first
    | decide
    | with_reducible exact Only.refl _ _
    | with_reducible apply Only.then ddrZqCal_only
    | split

theorem execDemandFillDone_only {x0 : _} {x1 : _} {s : State} {t : State} (h : execDemandFillDone x0 x1 s = .next t) : Only 0x2000200000010000000002020038001000000000010000000000000800000000000100000000000281c204040000600000000100000000000002000000000020000000800004000008000004180a08 s t := by
  simp only [execDemandFillDone, done, whenUp, whenOn] at h
  injection h with h
  subst h
  repeat' first
    | decide
    | with_reducible exact Only.refl _ _
    | with_reducible apply Only.then demandFillDone_only
    | split

theorem execCellarCheckpoint_only {s : State} {t : State} (h : execCellarCheckpoint s = .next t) : Only 0x4100000 s t := by
  simp only [execCellarCheckpoint, done, whenUp, whenOn] at h
  injection h with h
  subst h
  repeat' first
    | decide
    | with_reducible exact Only.refl _ _
    | with_reducible apply Only.then cellarCheckpoint_only
    | split

theorem execChannelDrainDone_only {x0 : _} {s : State} {t : State} (h : execChannelDrainDone x0 s = .next t) : Only 0x2000200000010000000000020038001800000000010000000000000c00000000000180000000000280c214000007600000000180000000000003000000000020000000800004000008000004180a08 s t := by
  simp only [execChannelDrainDone, done, whenUp, whenOn] at h
  injection h with h
  subst h
  repeat' first
    | decide
    | with_reducible exact Only.refl _ _
    | with_reducible apply Only.then channelDrainDone_only
    | split

theorem execScrubStep_only {x0 : _} {x1 : _} {x2 : _} {x3 : _} {s : State} {t : State} (h : execScrubStep x0 x1 x2 x3 s = .next t) : Only 0x2000200000010000000000020038001800000000010000000000000c0000000000018000000000028102b6a84007600000000180000000000003000000000020000000800004000008000004080a08 s t := by
  simp only [execScrubStep, done, whenUp, whenOn] at h
  injection h with h
  subst h
  repeat' first
    | decide
    | with_reducible exact Only.refl _ _
    | with_reducible apply Only.then scrubStep_only
    | split

theorem execNvmeCompletion_only {x0 : _} {x1 : _} {x2 : _} {x3 : _} {x4 : _} {s : State} {t : State} (h : execNvmeCompletion x0 x1 x2 x3 x4 s = .next t) : Only 0x2000200000010000000002020038001000000000010000000000000800000000000100000000000289c204040000600000000100000000000002000000000020000000800004000008000004180a08 s t := by
  simp only [execNvmeCompletion, done, whenUp, whenOn] at h
  injection h with h
  subst h
  repeat' first
    | decide
    | with_reducible exact Only.refl _ _
    | with_reducible apply Only.then nvmeCompletion_only
    | split

end Sys2Proof.Machine
end

