-- ==== Sys2Proof/Laws/BoundKettle.lean ====
section
/-!
SUPPORT. What each function of Machine/Kettle.lean can change at most.
-/

namespace Sys2Proof.Machine
open Sys2Proof Sys2Proof.Safety

theorem State.setProb_only {s : State} {x1 : _} {x2 : _} : Only 0x400000 s (State.setProb s x1 x2) := by
  unfold State.setProb
  repeat' first
    | decide
    | with_reducible exact Only.refl _ _
    | dsimp only
    | (simp only [Only.lit]; with_reducible apply Only.upd (hpending := rfl) <;> first | exact Or.inl rfl | exact Or.inr (by with_reducible rfl) | skip)

theorem State.syncKtl_only {s : State} : Only 0x8000000000000000000000000000000000000000000000000000000000000000000000000000000000000000000000 s (State.syncKtl s) := by
  unfold State.syncKtl
  repeat' first
    | decide
    | with_reducible exact Only.refl _ _
    | with_reducible apply Only.then (State.setF_only ?_)
    | dsimp only

theorem State.ktlCount_only {s : State} {x1 : _} {x2 : _} {x3 : _} {x4 : _} : Only 0x20002000000100000000000200380010000000000100000000000008080000000271000000000002000000000000400000000100000000000002000000000020000000800004000008000004000a08 s (State.ktlCount s x1 x2 x3 x4) := by
  unfold State.ktlCount
  repeat' first
    | decide
    | with_reducible exact Only.refl _ _
    | with_reducible apply Only.then State.event_only
    | with_reducible apply Only.then (State.addSat_only ?_)
    | split
    | dsimp only

theorem State.ktlRecord_only {s : State} {x1 : _} {x2 : _} {x3 : _} {x4 : _} : Only 0x20002000020100000000000211b800100000000001000000000000083e3c0000027d000000000002010041300000400000000100000000000002000000000020000000800004000008000006481e0e s (State.ktlRecord s x1 x2 x3 x4) := by
  unfold State.ktlRecord
  repeat' first
    | decide
    | with_reducible exact Only.refl _ _
    | with_reducible apply Only.then State.logHidden_only
    | with_reducible apply Only.then State.publish_only
    | with_reducible apply Only.then State.wrList_only
    | with_reducible apply Only.then State.setProb_only
    | with_reducible apply Only.then (State.setF_only ?_)
    | with_reducible apply Only.then (State.setPair_only ?_ ?_)
    | with_reducible apply Only.then State.ktlCount_only
    | with_reducible apply Only.then (State.addPair_only ?_ ?_)
    | with_reducible apply Only.then State.advance_only
    | split
    | dsimp only

theorem State.notRun_only {s : State} {x1 : _} {x2 : _} {x3 : _} {x4 : _} {x5 : _} {x6 : _} : Only 0x20002000020100000000000211b800100000000001000000000000083e3c0000027d00000000000201004130000040000000010000000000000200000000002000000080000400000800000e481e0e s (State.notRun s x1 x2 x3 x4 x5 x6) := by
  unfold State.notRun
  repeat' first
    | decide
    | with_reducible exact Only.refl _ _
    | with_reducible apply Only.then State.ktlCount_only
    | with_reducible apply Only.then State.wrList_only
    | with_reducible apply Only.then (State.setF_only ?_)
    | with_reducible apply Only.then State.setProb_only
    | with_reducible apply Only.then (State.addPair_only ?_ ?_)
    | with_reducible apply Only.then State.advance_only
    | with_reducible apply Only.then State.ktlRecord_only
    | split
    | dsimp only
    | (simp only [Only.lit]; with_reducible apply Only.upd (hpending := rfl) <;> first | exact Or.inl rfl | exact Or.inr (by with_reducible rfl) | skip)

theorem State.cacheAt_only {s : State} {x1 : _} {x2 : _} : Only 0x400000 s (State.cacheAt s x1 x2) := by
  unfold State.cacheAt
  repeat' first
    | with_reducible assumption
    | decide
    | with_reducible exact Only.refl _ _
    | with_reducible apply Only.foldl
    | with_reducible apply Only.foldl1
    | intro _ _ _
    | split
    | dsimp only
    | (simp only [Only.lit]; with_reducible apply Only.upd (hpending := rfl) <;> first | exact Or.inl rfl | exact Or.inr (by with_reducible rfl) | skip)

theorem State.refuseSolve_only {s : State} {x1 : _} {x2 : _} {x3 : _} {x4 : _} : Only 0x20002000020100000000000211b800100000000001000000000000083e3c0000027d00000000000201004130000040000000010000000000000200000000002000000080000400000800000e481e0e s (State.refuseSolve s x1 x2 x3 x4) := by
  unfold State.refuseSolve
  repeat' first
    | with_reducible assumption
    | decide
    | with_reducible exact Only.refl _ _
    | with_reducible apply Only.then State.notRun_only
    | with_reducible apply Only.foldl
    | with_reducible apply Only.foldl1
    | intro _ _ _
    | split
    | dsimp only

theorem State.startRel_only {s : State} {x1 : _} {x2 : _} {x3 : _} : Only 0x400000 s (State.startRel s x1 x2 x3) := by
  unfold State.startRel
  repeat' first
    | with_reducible assumption
    | decide
    | with_reducible exact Only.refl _ _
    | with_reducible apply Only.then State.setProb_only
    | with_reducible apply Only.foldl
    | with_reducible apply Only.foldl1
    | intro _ _ _
    | split
    | dsimp only

theorem State.startRun_only {s : State} {x1 : _} {x2 : _} {x3 : _} {x4 : _} {x5 : _} {x6 : _} {x7 : _} {x8 : _} : Only 0x400000 s (State.startRun s x1 x2 x3 x4 x5 x6 x7 x8) := by
  unfold State.startRun
  repeat' first
    | with_reducible assumption
    | decide
    | with_reducible exact Only.refl _ _
    | with_reducible apply Only.then State.setProb_only
    | with_reducible apply Only.foldl
    | with_reducible apply Only.foldl1
    | intro _ _ _
    | split
    | dsimp only

theorem State.startSolve_only {s : State} {x1 : _} {x2 : _} : Only 0x20002000020100000000000211b800100000000001000000000000083e3c00000e7d00000000000201004130000040000000010000000000000200000000002000000080000400000800000e481e0e s (State.startSolve s x1 x2) := by
  unfold State.startSolve
  repeat' first
    | with_reducible assumption
    | decide
    | with_reducible exact Only.refl _ _
    | with_reducible apply Only.then State.startRun_only
    | with_reducible apply Only.then State.startRel_only
    | with_reducible apply Only.then State.refuseSolve_only
    | with_reducible apply Only.then State.cacheAt_only
    | with_reducible apply Only.then State.setProb_only
    | with_reducible apply Only.then (State.addSat_only ?_)
    | with_reducible apply Only.then State.event_only
    | with_reducible apply Only.then State.notRun_only
    | with_reducible apply Only.foldl
    | with_reducible apply Only.foldl1
    | intro _ _ _
    | split
    | dsimp only

theorem State.startSolves_only {s : State} {x1 : _} : Only 0x20002000020100000000000211b800100000000001000000000000083e3c00000e7d00000000000201004130000040000000010000000000000200000000002000000080000400000800000e481e0e s (State.startSolves s x1) := by
  induction x1 generalizing s with
  | zero =>
    unfold State.startSolves
    repeat' first
      | decide
      | with_reducible exact Only.refl _ _
      | with_reducible apply Only.then State.startSolve_only
      | split
      | dsimp only
  | succ n ih =>
    unfold State.startSolves
    repeat' first
      | decide
      | with_reducible exact Only.refl _ _
      | with_reducible apply Only.then ih
      | with_reducible apply Only.then State.startSolve_only
      | split
      | dsimp only

theorem State.onReady_only {s : State} {x1 : _} : Only 0x20002000020100000000000211b800100000000001000000000000083e3c00001e7d00000000000201004130000040000000010000000000000200000000002000000080000400000800000e481e0e s (State.onReady s x1) := by
  unfold State.onReady
  repeat' first
    | decide
    | with_reducible exact Only.refl _ _
    | with_reducible apply Only.then State.startSolves_only
    | with_reducible apply Only.then (State.addSat_only ?_)
    | with_reducible apply Only.then State.setProb_only
    | split
    | dsimp only

theorem State.newSolve_only {s : State} {x1 : _} {x2 : _} : Only 0x20002000020100000000000211b800100000000001000000000000083e3c0000be7d00000000000201004130000040000000010000000000000200000000002000000080000400000800000e481e0e s (State.newSolve s x1 x2) := by
  unfold State.newSolve
  repeat' first
    | decide
    | with_reducible exact Only.refl _ _
    | with_reducible apply Only.then State.syncKtl_only
    | with_reducible apply Only.then State.event_only
    | with_reducible apply Only.then State.notRun_only
    | with_reducible apply Only.then State.onReady_only
    | with_reducible apply Only.then State.setProb_only
    | with_reducible apply Only.then (State.addSat_only ?_)
    | split
    | dsimp only

theorem State.takeDeltas_only {s : State} {x1 : _} {x2 : _} : Only 0x20002000020100000000000211b800100000000001000000000000083e3c0000be7d00000000000201004130000040000000010000000000000200000000002000000080000400000800000e481e0e s (State.takeDeltas s x1 x2) := by
  unfold State.takeDeltas
  repeat' first
    | with_reducible assumption
    | decide
    | with_reducible exact Only.refl _ _
    | with_reducible apply Only.then State.setProb_only
    | with_reducible apply Only.then State.newSolve_only
    | with_reducible apply Only.foldl
    | with_reducible apply Only.foldl1
    | intro _ _ _
    | split
    | dsimp only

theorem State.keepDeltas_only {s : State} {x1 : _} {x2 : _} : Only 0x20002000020100000000000211b800100000000001000000000000083e3c0000be7d00000000000201004130000040000000010000000000000200000000002000000080000400000800000e481e0e s (State.keepDeltas s x1 x2) := by
  unfold State.keepDeltas
  repeat' first
    | decide
    | with_reducible exact Only.refl _ _
    | with_reducible apply Only.then State.sendMsg_only
    | with_reducible apply Only.then State.takeDeltas_only
    | split
    | dsimp only

theorem State.askSwap_only {s : State} {x1 : _} : Only 0x400 s (State.askSwap s x1) := by
  unfold State.askSwap
  repeat' first
    | decide
    | with_reducible exact Only.refl _ _
    | split
    | dsimp only
    | (simp only [Only.lit]; with_reducible apply Only.upd (hpending := rfl) <;> first | exact Or.inl rfl | exact Or.inr (by with_reducible rfl) | skip)

theorem State.takeSlot_only {s : State} {x1 : _} : Only 0x8000010041300000000000000000000000000000000000000000000000000000000000000000280002 s (State.takeSlot s x1) := by
  unfold State.takeSlot
  repeat' first
    | decide
    | with_reducible exact Only.refl _ _
    | with_reducible apply Only.then (State.addSat_only ?_)
    | with_reducible apply Only.then State.wrNum_only
    | split
    | dsimp only
    | (simp only [Only.lit]; with_reducible apply Only.upd (hpending := rfl) <;> first | exact Or.inl rfl | exact Or.inr (by with_reducible rfl) | skip)

theorem State.postDeltas_only {s : State} {x1 : _} {x2 : _} : Only 0x20002000020100000000000211b800100000000001000000000000083e3c0000be7d00000000000201004130000040000000010000000000000200000000002000000080000400000800000e481e0e s (State.postDeltas s x1 x2) := by
  unfold State.postDeltas
  repeat' first
    | with_reducible assumption
    | decide
    | with_reducible exact Only.refl _ _
    | with_reducible apply Only.then State.sendMsg_only
    | with_reducible apply Only.then State.keepDeltas_only
    | with_reducible apply Only.foldl
    | with_reducible apply Only.foldl1
    | intro _ _ _
    | split
    | dsimp only

theorem State.ktlPostBy_only {s : State} {x1 : _} {x2 : _} {x3 : _} {x4 : _} {x5 : _} : Only 0x20002000020100000000000211b800100000000001000000000000083e3c0000be7d00000000000201004130000040000000010000000000000200000000002000000080000400000800000e481e0e s (State.ktlPostBy s x1 x2 x3 x4 x5) := by
  unfold State.ktlPostBy
  repeat' first
    | with_reducible assumption
    | decide
    | with_reducible exact Only.refl _ _
    | with_reducible apply Only.then State.advance_only
    | with_reducible apply Only.then State.postDeltas_only
    | with_reducible apply Only.foldl
    | with_reducible apply Only.foldl1
    | intro _ _ _
    | split
    | dsimp only

theorem State.ktlPost_only {s : State} {x1 : _} {x2 : _} {x3 : _} : Only 0x20002000020100000000000211b800100000000001000000000000083e3c0000be7d00000000000201004130000040000000010000000000000200000000002000000080000400000800000e481e0e s (State.ktlPost s x1 x2 x3) := by
  unfold State.ktlPost
  repeat' first
    | decide
    | with_reducible exact Only.refl _ _
    | with_reducible apply Only.then State.ktlPostBy_only
    | with_reducible apply Only.then State.advance_only
    | with_reducible apply Only.then State.sendMsg_only
    | with_reducible apply Only.then State.keepDeltas_only
    | split
    | dsimp only

theorem bodySolveDone_only {x0 : _} {s : State} : Only 0x20002000020100000000000211b8001000000000010000000000000a3e3c00008e7d00000000000201004130000040000000010000000000000200000000002000000080000400000800000e481e0e s (bodySolveDone x0 s) := by
  unfold bodySolveDone
  repeat' first
    | decide
    | with_reducible exact Only.refl _ _
    | with_reducible apply Only.then State.wrList_only
    | with_reducible apply Only.then State.setProb_only
    | with_reducible apply Only.then (State.addWrap_only ?_)
    | with_reducible apply Only.then (State.setF_only ?_)
    | with_reducible apply Only.then (State.addPair_only ?_ ?_)
    | with_reducible apply Only.then State.advance_only
    | with_reducible apply Only.then State.syncKtl_only
    | with_reducible apply Only.then State.startSolves_only
    | split
    | dsimp only

theorem State.failSolve_only {s : State} {x1 : _} : Only 0x20002000020100000000000211b800100000000001000000000000083e3c00008e7d00000000000201004130000040000000010000000000000200000000002000000080000400000800000e481e0e s (State.failSolve s x1) := by
  unfold State.failSolve
  repeat' first
    | with_reducible assumption
    | decide
    | with_reducible exact Only.refl _ _
    | with_reducible apply Only.then State.setProb_only
    | with_reducible apply Only.then State.refuseSolve_only
    | with_reducible apply Only.then State.syncKtl_only
    | with_reducible apply Only.then State.startSolves_only
    | with_reducible apply Only.foldl
    | with_reducible apply Only.foldl1
    | intro _ _ _
    | split
    | dsimp only

theorem kettleIterationDone_only {x0 : _} {x1 : _} {x2 : _} {s : State} : Only 0x20002000020100000000000211b801100000000001000000000000083e3c00008ffd00000000000201004130000040000000010000000000000200000000002000000080000400000800000e481e0e s (kettleIterationDone x0 x1 x2 s) := by
  unfold kettleIterationDone
  repeat' first
    | decide
    | with_reducible exact Only.refl _ _
    | with_reducible apply Only.then State.poisonTask_only
    | with_reducible apply Only.then State.failSolve_only
    | with_reducible apply Only.then (State.addSat_only ?_)
    | with_reducible apply Only.then State.askSwap_only
    | with_reducible apply Only.then State.setProb_only
    | split
    | dsimp only
    | (simp only [Only.lit]; with_reducible apply Only.upd (hpending := rfl) <;> first | exact Or.inl rfl | exact Or.inr (by with_reducible rfl) | skip)

theorem posegraphPost_only {x0 : _} {s : State} : Only 0x20002000020100000000000211b800100000000001000000000000083e3c0000be7d00000000000201004130000040000000010000000000000200000000002000000080000400000800000e481e0e s (posegraphPost x0 s) := by
  unfold posegraphPost
  repeat' first
    | decide
    | with_reducible exact Only.refl _ _
    | with_reducible apply Only.then State.ktlPost_only
    | with_reducible apply Only.then State.setProb_only
    | split
    | dsimp only

theorem solveComplete_only {x0 : _} {s : State} : Only 0x20002000020100000000000211b800100000000001000000000000083ffc00008e7d00000000800201004130000040000000010000000000000200000000002000000080000400000800000e681e0e s (solveComplete x0 s) := by
  unfold solveComplete
  repeat' first
    | with_reducible assumption
    | decide
    | with_reducible exact Only.refl _ _
    | with_reducible apply Only.then State.wrList_only
    | with_reducible apply Only.then (State.setF_only ?_)
    | with_reducible apply Only.then State.setProb_only
    | with_reducible apply Only.then State.sendMsg_only
    | with_reducible apply Only.then State.takeSlot_only
    | with_reducible apply Only.then State.ktlRecord_only
    | with_reducible apply Only.then State.syncKtl_only
    | with_reducible apply Only.then State.startSolves_only
    | with_reducible apply Only.foldl
    | with_reducible apply Only.foldl1
    | intro _ _ _
    | split
    | dsimp only

theorem solveDeadline_only {x0 : _} {x1 : _} {s : State} : Only 0x20002000020100000000000211b800100000000001000000000000083e3c0000827d00000000000201004130000040000000010000000000000200000000002000000080000400000800000e481e0e s (solveDeadline x0 x1 s) := by
  unfold solveDeadline
  repeat' first
    | decide
    | with_reducible exact Only.refl _ _
    | with_reducible apply Only.then State.setProb_only
    | with_reducible apply Only.then State.syncKtl_only
    | with_reducible apply Only.then State.notRun_only
    | split
    | dsimp only

/-! ## Commands -/

theorem execSolveComplete_only {x0 : _} {s : State} {t : State} (h : execSolveComplete x0 s = .next t) : Only 0x20002000020100000000000211b800100000000001000000000000083ffc00008e7d00000000800201004130000040000000010000000000000200000000002000000080000400000800000e681e0e s t := by
  simp only [execSolveComplete, done, whenUp, whenOn] at h
  injection h with h
  subst h
  repeat' first
    | decide
    | with_reducible exact Only.refl _ _
    | with_reducible apply Only.then solveComplete_only
    | split

theorem execSolveDeadline_only {x0 : _} {x1 : _} {s : State} {t : State} (h : execSolveDeadline x0 x1 s = .next t) : Only 0x20002000020100000000000211b800100000000001000000000000083e3c0000827d00000000000201004130000040000000010000000000000200000000002000000080000400000800000e481e0e s t := by
  simp only [execSolveDeadline, done, whenUp, whenOn] at h
  injection h with h
  subst h
  repeat' first
    | decide
    | with_reducible exact Only.refl _ _
    | with_reducible apply Only.then solveDeadline_only
    | split

theorem execKettleIterationDone_only {x0 : _} {x1 : _} {x2 : _} {s : State} {t : State} (h : execKettleIterationDone x0 x1 x2 s = .next t) : Only 0x20002000020100000000000211b801100000000001000000000000083e3c00008ffd00000000000201004130000040000000010000000000000200000000002000000080000400000800000e481e0e s t := by
  simp only [execKettleIterationDone, done, whenUp, whenOn] at h
  injection h with h
  subst h
  repeat' first
    | decide
    | with_reducible exact Only.refl _ _
    | with_reducible apply Only.then kettleIterationDone_only
    | split

theorem execPosegraphPost_only {x0 : _} {s : State} {t : State} (h : execPosegraphPost x0 s = .next t) : Only 0x20002000020100000000000211b800100000000001000000000000083e3c0000be7d00000000000201004130000040000000010000000000000200000000002000000080000400000800000e481e0e s t := by
  simp only [execPosegraphPost, done, whenUp, whenOn] at h
  injection h with h
  subst h
  repeat' first
    | decide
    | with_reducible exact Only.refl _ _
    | with_reducible apply Only.then posegraphPost_only
    | split

theorem execBodySolveDone_only {x0 : _} {s : State} {t : State} (h : execBodySolveDone x0 s = .next t) : Only 0x20002000020100000000000211b8001000000000010000000000000a3e3c00008e7d00000000000201004130000040000000010000000000000200000000002000000080000400000800000e481e0e s t := by
  simp only [execBodySolveDone, done, whenUp, whenOn] at h
  injection h with h
  subst h
  repeat' first
    | decide
    | with_reducible exact Only.refl _ _
    | with_reducible apply Only.then bodySolveDone_only
    | split

end Sys2Proof.Machine
end

