-- ==== Sys2Proof/Laws/BoundRig.lean ====
section
/-!
SUPPORT. What each function of Machine/Rig.lean can change at most.
-/

namespace Sys2Proof.Machine
open Sys2Proof Sys2Proof.Safety

theorem State.hear_only {s : State} {x1 : _} {x2 : _} : Only 0x200000 s (State.hear s x1 x2) := by
  unfold State.hear
  repeat' first
    | with_reducible assumption
    | decide
    | with_reducible exact Only.refl _ _
    | with_reducible apply Only.foldl
    | with_reducible apply Only.foldl1
    | intro _ _ _
    | split
    | dsimp only
    | (simp only [Only.lit]; with_reducible apply Only.upd (hpending := rfl) <;> first | exact Or.inl rfl | exact Or.inr (by with_reducible rfl) | skip)

end Sys2Proof.Machine
end

