-- ==== Sys2Proof/Laws/BoundSparge.lean ====
section
/-!
SUPPORT. What each function of Machine/Sparge.lean can change at most.
-/

namespace Sys2Proof.Machine
open Sys2Proof Sys2Proof.Safety

theorem State.canCounts_only {s : State} {x1 : _} {x2 : _} {x3 : _} : Only 0x20002000000100000000000200380010000000000100000000000008000000000001000000000002000000000000400000000100000000000002200000000020000000800004000008000004000a08 s (State.canCounts s x1 x2 x3) := by
  unfold State.canCounts
  repeat' first
    | decide
    | with_reducible exact Only.refl _ _
    | with_reducible apply Only.then (State.setF_only ?_)
    | with_reducible apply Only.then State.event_only
    | split
    | dsimp only

theorem State.canSend_only {s : State} {x1 : _} : Only 0x10000 s (State.canSend s x1) := by
  unfold State.canSend
  repeat' first
    | decide
    | with_reducible exact Only.refl _ _
    | split
    | dsimp only
    | (simp only [Only.lit]; with_reducible apply Only.upd (hpending := rfl) <;> first | exact Or.inl rfl | exact Or.inr (by with_reducible rfl) | skip)

theorem State.setChan_only {s : State} {x1 : _} {x2 : _} : Only 0x10000 s (State.setChan s x1 x2) := by
  unfold State.setChan
  repeat' first
    | decide
    | with_reducible exact Only.refl _ _
    | dsimp only
    | (simp only [Only.lit]; with_reducible apply Only.upd (hpending := rfl) <;> first | exact Or.inl rfl | exact Or.inr (by with_reducible rfl) | skip)

theorem State.chanChanged_only {s : State} {x1 : _} {x2 : _} {x3 : _} : Only 0x20002000000100000000000200380010000000000100000000000008000000000001000000000002000000000000400000000100000000000002000000000020000000800004000008000004010a08 s (State.chanChanged s x1 x2 x3) := by
  unfold State.chanChanged
  repeat' first
    | decide
    | with_reducible exact Only.refl _ _
    | with_reducible apply Only.then State.event_only
    | with_reducible apply Only.then State.setChan_only
    | split
    | dsimp only

theorem State.syncSwitch_only {s : State} {x1 : _} : Only 0x80000000000000000000000000000000000 s (State.syncSwitch s x1) := by
  unfold State.syncSwitch
  repeat' first
    | decide
    | with_reducible exact Only.refl _ _
    | with_reducible apply Only.then (State.setB_only ?_)

theorem State.fadeStep_only {s : State} {x1 : _} : Only 0x80000000000000000000000000000010000 s (State.fadeStep s x1).1 := by
  unfold State.fadeStep
  repeat' first
    | decide
    | with_reducible exact Only.refl _ _
    | with_reducible apply Only.then State.syncSwitch_only
    | with_reducible apply Only.then State.setChan_only
    | split
    | dsimp only

theorem State.setValid_only {s : State} {x1 : _} {x2 : _} : Only 0x10000000000000000000000000000000 s (State.setValid s x1 x2) := by
  unfold State.setValid
  repeat' first
    | decide
    | with_reducible exact Only.refl _ _
    | with_reducible apply Only.then (State.setF_only ?_)

theorem State.writeRecord_only {s : State} {x1 : _} {x2 : _} {x3 : _} {x4 : _} {x5 : _} {x6 : _} {x7 : _} : Only 0x20002000020100000000000211b80010000000000100000000000008000000000001000000000002010041300000400000000100000000000002000000100030000000800004000008000006290e0e s (State.writeRecord s x1 x2 x3 x4 x5 x6 x7) := by
  unfold State.writeRecord
  repeat' first
    | with_reducible assumption
    | decide
    | with_reducible exact Only.refl _ _
    | with_reducible apply Only.then State.hear_only
    | with_reducible apply Only.then State.wrList_only
    | with_reducible apply Only.then State.setChan_only
    | with_reducible apply Only.then State.setValid_only
    | with_reducible apply Only.then State.advance_only
    | with_reducible apply Only.then (State.setF_only ?_)
    | with_reducible apply Only.foldl
    | with_reducible apply Only.foldl1
    | intro _ _ _
    | split
    | dsimp only

theorem State.spgRecord_only {s : State} {x1 : _} {x2 : _} {x3 : _} {x4 : _} {x5 : _} {x6 : _} {x7 : _} : Only 0x20002000020100000000000211b80010000000000100000000000008000000000001000000000002010041300000400000000100000000000002000000100030000000800004000008000006290e0e s (State.spgRecord s x1 x2 x3 x4 x5 x6 x7) := by
  unfold State.spgRecord
  repeat' first
    | decide
    | with_reducible exact Only.refl _ _
    | with_reducible apply Only.then State.writeRecord_only
    | with_reducible apply Only.then State.wrList_only
    | with_reducible apply Only.then State.setChan_only
    | with_reducible apply Only.then (State.setF_only ?_)
    | with_reducible apply Only.then State.setValid_only
    | with_reducible apply Only.then State.advance_only
    | split
    | dsimp only

theorem State.chanOutput_only {s : State} {x1 : _} {x2 : _} {x3 : _} {x4 : _} {x5 : _} : Only 0x20002000020100000000000211b80010000000000100000000000008000000000001000000000002010041300000400000000100000000000002000000180030000000800004000008000006290e0e s (State.chanOutput s x1 x2 x3 x4 x5) := by
  unfold State.chanOutput
  repeat' first
    | with_reducible assumption
    | decide
    | with_reducible exact Only.refl _ _
    | with_reducible apply Only.then State.setChan_only
    | with_reducible apply Only.then State.fadeStep_only
    | with_reducible apply Only.then State.spgRecord_only
    | with_reducible apply Only.foldl
    | with_reducible apply Only.foldl1
    | intro _ _ _
    | split
    | dsimp only

theorem State.feed_only {s : State} {x1 : _} {x2 : _} {x3 : _} {x4 : _} {x5 : _} {x6 : _} {x7 : _} : Only 0x20002000020100000000000211b80010000000000100000000000008000000000001000000000002010041300000400000000100000000000002000000380030000000800004000008000006290e0e s (State.feed s x1 x2 x3 x4 x5 x6 x7) := by
  unfold State.feed
  repeat' first
    | decide
    | with_reducible exact Only.refl _ _
    | with_reducible apply Only.then State.setChan_only
    | with_reducible apply Only.then State.event_only
    | with_reducible apply Only.then (State.addSat_only ?_)
    | with_reducible apply Only.then State.chanOutput_only
    | split
    | dsimp only

theorem State.showDelays_only {s : State} : Only 0x100000000000000000000000000000000000 s (State.showDelays s) := by
  unfold State.showDelays
  repeat' first
    | with_reducible assumption
    | decide
    | with_reducible exact Only.refl _ _
    | with_reducible apply Only.then (State.setF_only ?_)
    | with_reducible apply Only.foldl
    | with_reducible apply Only.foldl1
    | intro _ _ _
    | dsimp only

theorem State.idCheck_only {s : State} {x1 : _} {x2 : _} : Only 0x20002000000100000000000200380010000000000100000000000008000000000001000000000002000000000000400000000100000000000002000020000020000000800004000008000004000a08 s (State.idCheck s x1 x2).1 := by
  unfold State.idCheck
  repeat' first
    | decide
    | with_reducible exact Only.refl _ _
    | with_reducible apply Only.then (State.setB_only ?_)
    | with_reducible apply Only.then State.event_only
    | split
    | dsimp only

theorem State.imuWrites_only {s : State} {x1 : _} : Only 0x4000000 s (State.imuWrites s x1) := by
  unfold State.imuWrites
  repeat' first
    | with_reducible assumption
    | decide
    | with_reducible exact Only.refl _ _
    | with_reducible apply Only.then State.emit_only
    | with_reducible apply Only.foldl
    | with_reducible apply Only.foldl1
    | intro _ _ _
    | dsimp only

theorem State.setSpi_only {s : State} {x1 : _} {x2 : _} : Only 0x10000 s (State.setSpi s x1 x2) := by
  unfold State.setSpi
  repeat' first
    | decide
    | with_reducible exact Only.refl _ _
    | dsimp only
    | (simp only [Only.lit]; with_reducible apply Only.upd (hpending := rfl) <;> first | exact Or.inl rfl | exact Or.inr (by with_reducible rfl) | skip)

theorem State.imuInit_only {s : State} {x1 : _} {x2 : _} : Only 0x20002000000100000000000200380010000000000100000000000008000000000001000000000002000000000000400000000100000000000002000020000020000000800004000008000004010a08 s (State.imuInit s x1 x2) := by
  unfold State.imuInit
  repeat' first
    | decide
    | with_reducible exact Only.refl _ _
    | with_reducible apply Only.then State.idCheck_only
    | with_reducible apply Only.then State.emit_only
    | with_reducible apply Only.then State.imuWrites_only
    | with_reducible apply Only.then State.setSpi_only
    | split
    | dsimp only

theorem State.takeChan_only {s : State} {x1 : _} {x2 : _} : Only 0x3fffffffffffffffffffffffffffffffffffffffffffffffffffffffffffffffffffffffffffffffffffffffffffffffffffffffffffffffffffffffffffffffffffffffffffffffffffffffff4014a09 s (State.takeChan s x1 x2) := by
  unfold State.takeChan
  repeat' first
    | decide
    | with_reducible exact Only.refl _ _
    | with_reducible apply Only.then State.chanChanged_only
    | with_reducible apply Only.then State.takeDeferred_only
    | split

theorem State.sample_only {s : State} {x1 : _} {x2 : _} {x3 : _} {x4 : _} {x5 : _} : Only 0x3fffffffffffffffffffffffffffffffffffffffffffffffffffffffffffffffffffffffffffffffffffffffffffffffffffffffffffffffffffffffffffffffffffffffffffffffffffffffff6294e0f s (State.sample s x1 x2 x3 x4 x5) := by
  unfold State.sample
  repeat' first
    | decide
    | with_reducible exact Only.refl _ _
    | with_reducible apply Only.then State.takeChan_only
    | with_reducible apply Only.then State.event_only
    | with_reducible apply Only.then State.setChan_only
    | with_reducible apply Only.then (State.addSat_only ?_)
    | with_reducible apply Only.then State.feed_only
    | split
    | dsimp only

theorem State.missAll_only {s : State} {x1 : _} {x2 : _} {x3 : _} : Only 0x3fffffffffffffffffffffffffffffffffffffffffffffffffffffffffffffffffffffffffffffffffffffffffffffffffffffffffffffffffffffffffffffffffffffffffffffffffffffffff6294e0f s (State.missAll s x1 x2 x3) := by
  unfold State.missAll
  repeat' first
    | with_reducible assumption
    | decide
    | with_reducible exact Only.refl _ _
    | with_reducible apply Only.then State.sample_only
    | with_reducible apply Only.foldl
    | with_reducible apply Only.foldl1
    | intro _ _ _
    | dsimp only

theorem State.missConv_only {s : State} {x1 : _} : Only 0x3fffffffffffffffffffffffffffffffffffffffffffffffffffffffffffffffffffffffffffffffffffffffffffffffffffffffffffffffffffffffffffffffffffffffffffffffffffffffff6294e0f s (State.missConv s x1) := by
  unfold State.missConv
  repeat' first
    | decide
    | with_reducible exact Only.refl _ _
    | with_reducible apply Only.then State.setSpi_only
    | with_reducible apply Only.then State.event_only
    | with_reducible apply Only.then (State.addSat_only ?_)
    | with_reducible apply Only.then State.missAll_only
    | split
    | dsimp only

theorem State.setSsi_only {s : State} {x1 : _} {x2 : _} : Only 0x10000 s (State.setSsi s x1 x2) := by
  unfold State.setSsi
  repeat' first
    | decide
    | with_reducible exact Only.refl _ _
    | dsimp only
    | (simp only [Only.lit]; with_reducible apply Only.upd (hpending := rfl) <;> first | exact Or.inl rfl | exact Or.inr (by with_reducible rfl) | skip)

theorem State.ssiStart_only {s : State} {x1 : _} {x2 : _} {x3 : _} : Only 0x4010000 s (State.ssiStart s x1 x2 x3) := by
  unfold State.ssiStart
  repeat' first
    | decide
    | with_reducible exact Only.refl _ _
    | with_reducible apply Only.then State.emit_only
    | with_reducible apply Only.then State.setSsi_only
    | split
    | dsimp only

theorem canBusError_only {x0 : _} {x1 : _} {x2 : _} {x3 : _} {s : State} : Only 0x20002000000100000000000200380010000000000100000000000008000000000001000000000002000000000000400000000100000000000002a00000000020000000800004000008000004000a08 s (canBusError x0 x1 x2 x3 s) := by
  unfold canBusError
  repeat' first
    | decide
    | with_reducible exact Only.refl _ _
    | with_reducible apply Only.then (State.addSat_only ?_)
    | with_reducible apply Only.then State.canCounts_only
    | split
    | dsimp only

theorem canBusoffRecover_only {x0 : _} {s : State} : Only 0x200000000000000000000000000000000000000000 s (canBusoffRecover x0 s) := by
  unfold canBusoffRecover
  repeat' first
    | decide
    | with_reducible exact Only.refl _ _
    | with_reducible apply Only.then (State.setF_only ?_)
    | with_reducible apply Only.then (State.addSat_only ?_)
    | split
    | dsimp only

theorem canFrameRx_only {x0 : _} {x1 : _} {x2 : _} {x3 : _} {x4 : _} {x5 : _} {s : State} : Only 0x3fffffffffffffffffffffffffffffffffffffffffffffffffffffffffffffffffffffffffffffffffffffffffffffffffffffffffffffffffffffffffffffffffffffffffffffffffffffffff6294f0f s (canFrameRx x0 x1 x2 x3 x4 x5 s) := by
  unfold canFrameRx
  repeat' first
    | with_reducible assumption
    | decide
    | with_reducible exact Only.refl _ _
    | with_reducible apply Only.then State.trackedUpdate_only
    | with_reducible apply Only.then (State.addWrap_only ?_)
    | with_reducible apply Only.then State.canCounts_only
    | with_reducible apply Only.then State.offsetUpdate_only
    | with_reducible apply Only.then (State.setFs_only ?_)
    | with_reducible apply Only.then State.setChan_only
    | with_reducible apply Only.then State.sample_only
    | with_reducible apply Only.foldl
    | with_reducible apply Only.foldl1
    | intro _ _ _
    | split
    | dsimp only
    | (simp only [Only.lit]; with_reducible apply Only.upd (hpending := rfl) <;> first | exact Or.inl rfl | exact Or.inr (by with_reducible rfl) | skip)

theorem canTxDone_only {x0 : _} {s : State} : Only 0x20002000000100000000000200380010000000000100000000000008000000000001000000000002000000000000400000000100000000000002200000000020000000800004000008000004010a08 s (canTxDone x0 s) := by
  unfold canTxDone
  repeat' first
    | decide
    | with_reducible exact Only.refl _ _
    | with_reducible apply Only.then State.emit_only
    | with_reducible apply Only.then State.canCounts_only
    | split
    | dsimp only
    | (simp only [Only.lit]; with_reducible apply Only.upd (hpending := rfl) <;> first | exact Or.inl rfl | exact Or.inr (by with_reducible rfl) | skip)

theorem channelAbsentInstant_only {x0 : _} {s : State} : Only 0x20002000020100000000000211b8001000000000010000000000000800000000000100000000000201004130000040000000010000000000000200000010003000000080000400000800000e290e0e s (channelAbsentInstant x0 s) := by
  unfold channelAbsentInstant
  repeat' first
    | decide
    | with_reducible exact Only.refl _ _
    | with_reducible apply Only.then State.setChan_only
    | with_reducible apply Only.then State.spgRecord_only
    | with_reducible apply Only.then State.used_only
    | with_reducible apply Only.then State.event_only
    | split
    | dsimp only

theorem channelTimeout_only {x0 : _} {s : State} : Only 0x20002000000100000000000200000010000000000100000000000008000000000001000000000002000000000000400000000100000000000002000020280030000000800004000008000000010000 s (channelTimeout x0 s) := by
  unfold channelTimeout
  repeat' first
    | decide
    | with_reducible exact Only.refl _ _
    | with_reducible apply Only.then State.setChan_only
    | with_reducible apply Only.then State.syncSwitch_only
    | with_reducible apply Only.then State.setEvt_only
    | with_reducible apply Only.then (State.addSat_only ?_)
    | with_reducible apply Only.then State.setValid_only
    | with_reducible apply Only.then (State.setB_only ?_)
    | split
    | dsimp only

theorem controlCycleEdge_only {x0 : _} {s : State} : Only 0x20002000020100000000000211b80010000000000100000000000008000000000001000000000002000000000000400000000100000000000002000000000020000000800404000008000006090f0c s (controlCycleEdge x0 s) := by
  unfold controlCycleEdge
  repeat' first
    | with_reducible assumption
    | decide
    | with_reducible exact Only.refl _ _
    | with_reducible apply Only.then State.fireEdge_only
    | with_reducible apply Only.then State.ssiStart_only
    | with_reducible apply Only.then State.canSend_only
    | with_reducible apply Only.then State.advance_only
    | with_reducible apply Only.foldl
    | with_reducible apply Only.foldl1
    | intro _ _ _
    | split
    | dsimp only

theorem conversionStrobeEdge_only {x0 : _} {s : State} : Only 0x3fffffffffffffffffffffffffffffffffffffffffffffffffffffffffffffffffffffffffffffffffffffffffffffffffffffffffffffffffffffffffffffffffffffffffffffffffffffffff6294f0f s (conversionStrobeEdge x0 s) := by
  unfold conversionStrobeEdge
  repeat' first
    | decide
    | with_reducible exact Only.refl _ _
    | with_reducible apply Only.then State.fireEdge_only
    | with_reducible apply Only.then State.missConv_only
    | with_reducible apply Only.then State.setSpi_only
    | split
    | dsimp only

theorem imuIdentityRead_only {x0 : _} {x1 : _} {s : State} : Only 0x3fffffffffffffffffffffffffffffffffffffffffffffffffffffffffffffffffffffffffffffffffffffffffffffffffffffffffffffffffffffffffffffffffffffffffffffffffffffffff6294e0f s (imuIdentityRead x0 x1 s) := by
  unfold imuIdentityRead
  repeat' first
    | decide
    | with_reducible exact Only.refl _ _
    | with_reducible apply Only.then State.setSpi_only
    | with_reducible apply Only.then State.missAll_only
    | with_reducible apply Only.then State.idCheck_only
    | with_reducible apply Only.then State.emit_only
    | with_reducible apply Only.then (State.addSat_only ?_)
    | with_reducible apply Only.then State.imuWrites_only
    | split
    | dsimp only

theorem quadSample_only {x0 : _} {s : State} : Only 0x3fffffffffffffffffffffffffffffffffffffffffffffffffffffffffffffffffffffffffffffffffffffffffffffffffffffffffffffffffffffffffffffffffffffffffffffffffffffffff6294e0f s (quadSample x0 s) := by
  unfold quadSample
  repeat' first
    | decide
    | with_reducible exact Only.refl _ _
    | with_reducible apply Only.then State.sample_only
    | split
    | dsimp only
    | (simp only [Only.lit]; with_reducible apply Only.upd (hpending := rfl) <;> first | exact Or.inl rfl | exact Or.inr (by with_reducible rfl) | skip)

theorem quadTransition_only {x0 : _} {x1 : _} {x2 : _} {x3 : _} {s : State} : Only 0x20002000000100000000000200380010000000000100000000000008000000000001000000000002000000000000400000000100000000000002003000000020000000800004000008000004010a08 s (quadTransition x0 x1 x2 x3 s) := by
  unfold quadTransition
  repeat' first
    | decide
    | with_reducible exact Only.refl _ _
    | with_reducible apply Only.then State.event_only
    | with_reducible apply Only.then (State.addSat_only ?_)
    | with_reducible apply Only.then (State.setF_only ?_)
    | split
    | dsimp only
    | (simp only [Only.lit]; with_reducible apply Only.upd (hpending := rfl) <;> first | exact Or.inl rfl | exact Or.inr (by with_reducible rfl) | skip)

theorem spiDataReady_only {x0 : _} {s : State} : Only 0x4010000 s (spiDataReady x0 s) := by
  unfold spiDataReady
  repeat' first
    | decide
    | with_reducible exact Only.refl _ _
    | with_reducible apply Only.then State.emit_only
    | with_reducible apply Only.then State.setSpi_only
    | split
    | dsimp only

theorem spiTransactionDone_only {x0 : _} {x1 : _} {s : State} : Only 0x3fffffffffffffffffffffffffffffffffffffffffffffffffffffffffffffffffffffffffffffffffffffffffffffffffffffffffffffffffffffffffffffffffffffffffffffffffffffffff6294f0f s (spiTransactionDone x0 x1 s) := by
  unfold spiTransactionDone
  repeat' first
    | with_reducible assumption
    | decide
    | with_reducible exact Only.refl _ _
    | with_reducible apply Only.then State.trackedUpdate_only
    | with_reducible apply Only.then State.setSpi_only
    | with_reducible apply Only.then State.offsetUpdate_only
    | with_reducible apply Only.then (State.setFs_only ?_)
    | with_reducible apply Only.then State.sample_only
    | with_reducible apply Only.then State.missAll_only
    | with_reducible apply Only.then State.event_only
    | with_reducible apply Only.then (State.addSat_only ?_)
    | with_reducible apply Only.foldl
    | with_reducible apply Only.foldl1
    | intro _ _ _
    | split
    | dsimp only

theorem spiWaitExpire_only {x0 : _} {s : State} : Only 0x4010000 s (spiWaitExpire x0 s) := by
  unfold spiWaitExpire
  repeat' first
    | decide
    | with_reducible exact Only.refl _ _
    | with_reducible apply Only.then State.emit_only
    | with_reducible apply Only.then State.setSpi_only
    | split
    | dsimp only

theorem ssiReadDone_only {x0 : _} {x1 : _} {x2 : _} {x3 : _} {x4 : _} {s : State} : Only 0x3fffffffffffffffffffffffffffffffffffffffffffffffffffffffffffffffffffffffffffffffffffffffffffffffffffffffffffffffffffffffffffffffffffffffffffffffffffffffff6294f0f s (ssiReadDone x0 x1 x2 x3 x4 s) := by
  unfold ssiReadDone
  repeat' first
    | decide
    | with_reducible exact Only.refl _ _
    | with_reducible apply Only.then State.setSsi_only
    | with_reducible apply Only.then State.offsetUpdate_only
    | with_reducible apply Only.then State.sample_only
    | with_reducible apply Only.then State.event_only
    | with_reducible apply Only.then (State.addSat_only ?_)
    | split
    | dsimp only

/-! ## Commands -/

theorem execCanFrameRx_only {x0 : _} {x1 : _} {x2 : _} {x3 : _} {x4 : _} {x5 : _} {s : State} {t : State} (h : execCanFrameRx x0 x1 x2 x3 x4 x5 s = .next t) : Only 0x3fffffffffffffffffffffffffffffffffffffffffffffffffffffffffffffffffffffffffffffffffffffffffffffffffffffffffffffffffffffffffffffffffffffffffffffffffffffffff6294f0f s t := by
  simp only [execCanFrameRx, done, whenUp, whenOn] at h
  injection h with h
  subst h
  repeat' first
    | decide
    | with_reducible exact Only.refl _ _
    | with_reducible apply Only.then canFrameRx_only
    | split

theorem execQuadSample_only {x0 : _} {s : State} {t : State} (h : execQuadSample x0 s = .next t) : Only 0x3fffffffffffffffffffffffffffffffffffffffffffffffffffffffffffffffffffffffffffffffffffffffffffffffffffffffffffffffffffffffffffffffffffffffffffffffffffffffff6294e0f s t := by
  simp only [execQuadSample, done, whenUp, whenOn] at h
  injection h with h
  subst h
  repeat' first
    | decide
    | with_reducible exact Only.refl _ _
    | with_reducible apply Only.then quadSample_only
    | split

theorem execSpiTransactionDone_only {x0 : _} {x1 : _} {s : State} {t : State} (h : execSpiTransactionDone x0 x1 s = .next t) : Only 0x3fffffffffffffffffffffffffffffffffffffffffffffffffffffffffffffffffffffffffffffffffffffffffffffffffffffffffffffffffffffffffffffffffffffffffffffffffffffffff6294f0f s t := by
  simp only [execSpiTransactionDone, done, whenUp, whenOn] at h
  injection h with h
  subst h
  repeat' first
    | decide
    | with_reducible exact Only.refl _ _
    | with_reducible apply Only.then spiTransactionDone_only
    | split

theorem execConversionStrobeEdge_only {x0 : _} {s : State} {t : State} (h : execConversionStrobeEdge x0 s = .next t) : Only 0x3fffffffffffffffffffffffffffffffffffffffffffffffffffffffffffffffffffffffffffffffffffffffffffffffffffffffffffffffffffffffffffffffffffffffffffffffffffffffff6294f0f s t := by
  simp only [execConversionStrobeEdge, done, whenUp, whenOn] at h
  injection h with h
  subst h
  repeat' first
    | decide
    | with_reducible exact Only.refl _ _
    | with_reducible apply Only.then conversionStrobeEdge_only
    | split

theorem execChannelTimeout_only {x0 : _} {s : State} {t : State} (h : execChannelTimeout x0 s = .next t) : Only 0x20002000000100000000000200000010000000000100000000000008000000000001000000000002000000000000400000000100000000000002000020280030000000800004000008000000010000 s t := by
  simp only [execChannelTimeout, done, whenUp, whenOn] at h
  injection h with h
  subst h
  repeat' first
    | decide
    | with_reducible exact Only.refl _ _
    | with_reducible apply Only.then channelTimeout_only
    | split

theorem execSpiWaitExpire_only {x0 : _} {s : State} {t : State} (h : execSpiWaitExpire x0 s = .next t) : Only 0x4010000 s t := by
  simp only [execSpiWaitExpire, done, whenUp, whenOn] at h
  injection h with h
  subst h
  repeat' first
    | decide
    | with_reducible exact Only.refl _ _
    | with_reducible apply Only.then spiWaitExpire_only
    | split

theorem execSpiDataReady_only {x0 : _} {s : State} {t : State} (h : execSpiDataReady x0 s = .next t) : Only 0x4010000 s t := by
  simp only [execSpiDataReady, done, whenUp, whenOn] at h
  injection h with h
  subst h
  repeat' first
    | decide
    | with_reducible exact Only.refl _ _
    | with_reducible apply Only.then spiDataReady_only
    | split

theorem execCanBusoffRecover_only {x0 : _} {s : State} {t : State} (h : execCanBusoffRecover x0 s = .next t) : Only 0x200000000000000000000000000000000000000000 s t := by
  simp only [execCanBusoffRecover, done, whenUp, whenOn] at h
  injection h with h
  subst h
  repeat' first
    | decide
    | with_reducible exact Only.refl _ _
    | with_reducible apply Only.then canBusoffRecover_only
    | split

theorem execSsiReadDone_only {x0 : _} {x1 : _} {x2 : _} {x3 : _} {x4 : _} {s : State} {t : State} (h : execSsiReadDone x0 x1 x2 x3 x4 s = .next t) : Only 0x3fffffffffffffffffffffffffffffffffffffffffffffffffffffffffffffffffffffffffffffffffffffffffffffffffffffffffffffffffffffffffffffffffffffffffffffffffffffffff6294f0f s t := by
  simp only [execSsiReadDone, done, whenUp, whenOn] at h
  injection h with h
  subst h
  repeat' first
    | decide
    | with_reducible exact Only.refl _ _
    | with_reducible apply Only.then ssiReadDone_only
    | split

theorem execControlCycleEdge_only {x0 : _} {s : State} {t : State} (h : execControlCycleEdge x0 s = .next t) : Only 0x20002000020100000000000211b80010000000000100000000000008000000000001000000000002000000000000400000000100000000000002000000000020000000800404000008000006090f0c s t := by
  simp only [execControlCycleEdge, done, whenUp, whenOn] at h
  injection h with h
  subst h
  repeat' first
    | decide
    | with_reducible exact Only.refl _ _
    | with_reducible apply Only.then controlCycleEdge_only
    | split

theorem execCanBusError_only {x0 : _} {x1 : _} {x2 : _} {x3 : _} {s : State} {t : State} (h : execCanBusError x0 x1 x2 x3 s = .next t) : Only 0x20002000000100000000000200380010000000000100000000000008000000000001000000000002000000000000400000000100000000000002a00000000020000000800004000008000004000a08 s t := by
  simp only [execCanBusError, done, whenUp, whenOn] at h
  injection h with h
  subst h
  repeat' first
    | decide
    | with_reducible exact Only.refl _ _
    | with_reducible apply Only.then canBusError_only
    | split

theorem execQuadTransition_only {x0 : _} {x1 : _} {x2 : _} {x3 : _} {s : State} {t : State} (h : execQuadTransition x0 x1 x2 x3 s = .next t) : Only 0x20002000000100000000000200380010000000000100000000000008000000000001000000000002000000000000400000000100000000000002003000000020000000800004000008000004010a08 s t := by
  simp only [execQuadTransition, done, whenUp, whenOn] at h
  injection h with h
  subst h
  repeat' first
    | decide
    | with_reducible exact Only.refl _ _
    | with_reducible apply Only.then quadTransition_only
    | split

theorem execCanTxDone_only {x0 : _} {s : State} {t : State} (h : execCanTxDone x0 s = .next t) : Only 0x20002000000100000000000200380010000000000100000000000008000000000001000000000002000000000000400000000100000000000002200000000020000000800004000008000004010a08 s t := by
  simp only [execCanTxDone, done, whenUp, whenOn] at h
  injection h with h
  subst h
  repeat' first
    | decide
    | with_reducible exact Only.refl _ _
    | with_reducible apply Only.then canTxDone_only
    | split

theorem execChannelAbsentInstant_only {x0 : _} {s : State} {t : State} (h : execChannelAbsentInstant x0 s = .next t) : Only 0x20002000020100000000000211b8001000000000010000000000000800000000000100000000000201004130000040000000010000000000000200000010003000000080000400000800000e290e0e s t := by
  simp only [execChannelAbsentInstant, done, whenUp, whenOn] at h
  injection h with h
  subst h
  repeat' first
    | decide
    | with_reducible exact Only.refl _ _
    | with_reducible apply Only.then channelAbsentInstant_only
    | split

theorem execImuIdentityRead_only {x0 : _} {x1 : _} {s : State} {t : State} (h : execImuIdentityRead x0 x1 s = .next t) : Only 0x3fffffffffffffffffffffffffffffffffffffffffffffffffffffffffffffffffffffffffffffffffffffffffffffffffffffffffffffffffffffffffffffffffffffffffffffffffffffffff6294e0f s t := by
  simp only [execImuIdentityRead, done, whenUp, whenOn] at h
  injection h with h
  subst h
  repeat' first
    | decide
    | with_reducible exact Only.refl _ _
    | with_reducible apply Only.then imuIdentityRead_only
    | split

end Sys2Proof.Machine
end

