-- ==== Sys2Proof/Laws/BoundFermenter.lean ====
section
/-!
SUPPORT. What each function of Machine/Fermenter.lean can change at most.
-/

namespace Sys2Proof.Machine
open Sys2Proof Sys2Proof.Safety

theorem State.applyCalib_only {s : State} {x1 : _} : Only 0x1000000000000000000000000000000000000000000000000000000000000000000000000000200000 s (State.applyCalib s x1) := by
  unfold State.applyCalib
  repeat' first
    | with_reducible assumption
    | decide
    | with_reducible exact Only.refl _ _
    | with_reducible apply Only.then (State.addSat_only ?_)
    | with_reducible apply Only.foldl
    | with_reducible apply Only.foldl1
    | intro _ _ _
    | split
    | dsimp only
    | (simp only [Only.lit]; with_reducible apply Only.upd (hpending := rfl) <;> first | exact Or.inl rfl | exact Or.inr (by with_reducible rfl) | skip)

theorem State.applyWindow_only {s : State} {x1 : _} : Only 0x10041300000000000000000000000000000000000000000000000000000000000000000080002 s (State.applyWindow s x1) := by
  unfold State.applyWindow
  repeat' first
    | with_reducible assumption
    | decide
    | with_reducible exact Only.refl _ _
    | with_reducible apply Only.then State.wrList_only
    | with_reducible apply Only.then State.wrNum_only
    | with_reducible apply Only.foldl
    | with_reducible apply Only.foldl1
    | intro _ _ _
    | split
    | dsimp only

theorem State.setSes_only {s : State} {x1 : _} {x2 : _} : Only 0x200000 s (State.setSes s x1 x2) := by
  unfold State.setSes
  repeat' first
    | decide
    | with_reducible exact Only.refl _ _
    | dsimp only
    | (simp only [Only.lit]; with_reducible apply Only.upd (hpending := rfl) <;> first | exact Or.inl rfl | exact Or.inr (by with_reducible rfl) | skip)

theorem State.poseRecord_only {s : State} {x1 : _} {x2 : _} {x3 : _} {x4 : _} {x5 : _} {x6 : _} {x7 : _} {x8 : _} : Only 0x20002000000100000000000200380010000000000100000000000008000000000001001e00000002000000000000400000000100000000000002000000000020000000800004000008000004201a88 s (State.poseRecord s x1 x2 x3 x4 x5 x6 x7 x8) := by
  unfold State.poseRecord
  repeat' first
    | decide
    | with_reducible exact Only.refl _ _
    | with_reducible apply Only.then State.logHidden_only
    | with_reducible apply Only.then (State.setPair_only ?_ ?_)
    | with_reducible apply Only.then (State.setF_only ?_)
    | with_reducible apply Only.then (State.setWord_only ?_)
    | with_reducible apply Only.then State.publish_only
    | with_reducible apply Only.then State.setSes_only
    | split
    | dsimp only
    | (simp only [Only.lit]; with_reducible apply Only.upd (hpending := rfl) <;> first | exact Or.inl rfl | exact Or.inr (by with_reducible rfl) | skip)

theorem State.noteConds_only {s : State} {x1 : _} {x2 : _} {x3 : _} : Only 0x20002000000100000000000200380010000000000100000000000008000000000001004000000002000000000000400000000100000000000002000000000020000000800004000008000004200a08 s (State.noteConds s x1 x2 x3) := by
  unfold State.noteConds
  repeat' first
    | with_reducible assumption
    | decide
    | with_reducible exact Only.refl _ _
    | with_reducible apply Only.then State.eventIf_only
    | with_reducible apply Only.then State.setSes_only
    | with_reducible apply Only.then (State.setF_only ?_)
    | with_reducible apply Only.foldl
    | with_reducible apply Only.foldl1
    | intro _ _ _
    | split
    | dsimp only

theorem State.blindPose_only {s : State} : Only 0x8000000 s (State.blindPose s).1 := by
  unfold State.blindPose
  repeat' first
    | with_reducible assumption
    | decide
    | with_reducible exact Only.refl _ _
    | with_reducible apply Only.foldl
    | with_reducible apply Only.foldl1
    | intro _ _ _
    | split
    | dsimp only
    | (simp only [Only.lit]; with_reducible apply Only.upd (hpending := rfl) <;> first | exact Or.inl rfl | exact Or.inr (by with_reducible rfl) | skip)

theorem State.blindStep_only {s : State} {x1 : _} {x2 : _} {x3 : _} : Only 0x20002000000100000000000200380010000000000100000000000008000000000001005e0000000200000000000040000000010000000000000200000000002000000080000400000800000c201a88 s (State.blindStep s x1 x2 x3) := by
  unfold State.blindStep
  repeat' first
    | decide
    | with_reducible exact Only.refl _ _
    | with_reducible apply Only.then State.blindPose_only
    | with_reducible apply Only.then State.noteConds_only
    | with_reducible apply Only.then State.poseRecord_only
    | split
    | dsimp only

theorem State.frmRelease_only {s : State} {x1 : _} {x2 : _} : Only 0x20002000020100000000000211b80010000000000100000000000008000000000001000000000002000000000000400000000100000000000002000000000020000000800004000008000006080e0c s (State.frmRelease s x1 x2) := by
  unfold State.frmRelease
  repeat' first
    | decide
    | with_reducible exact Only.refl _ _
    | with_reducible apply Only.then State.advance_only
    | split

theorem State.writeList_only {s : State} {x1 : _} {x2 : _} : Only 0x20002000020100000000000211b80010000000000100000000000008000000000001000000000002010041300000400000000100000000000002000000000020000000800004000008000006080e0e s (State.writeList s x1 x2) := by
  unfold State.writeList
  repeat' first
    | decide
    | with_reducible exact Only.refl _ _
    | with_reducible apply Only.then State.frmRelease_only
    | with_reducible apply Only.then State.wrList_only
    | split
    | dsimp only

theorem State.releaseCam_only {s : State} {x1 : _} {x2 : _} {x3 : _} {x4 : _} {x5 : _} : Only 0x20002000020100000000000211b80010000000000100000000000008000000000001000000000002000000000000400000000100000000000002000000000020000000800004000008000006280e0c s (State.releaseCam s x1 x2 x3 x4 x5) := by
  unfold State.releaseCam
  repeat' first
    | decide
    | with_reducible exact Only.refl _ _
    | with_reducible apply Only.then State.setSes_only
    | with_reducible apply Only.then State.frmRelease_only
    | split
    | dsimp only

theorem State.camSettle_only {s : State} {x1 : _} {x2 : _} {x3 : _} {x4 : _} : Only 0x20002000020100000000000211b80010000000000100000000000008000000000001000000000002010041300000400000000100000000000002000000000020000000800004000008000006280e0e s (State.camSettle s x1 x2 x3 x4) := by
  induction x4 generalizing s x1 x2 x3 with
  | zero => exact Only.refl _ _
  | succ n ih =>
    unfold State.camSettle
    extract_lets k head
    refine Only.ite (Only.refl _ _) (Only.then ih (by decide) (Only.ite ?_ ?_))
    · exact Only.then State.setSes_only (by decide)
        (Only.then State.writeList_only (by decide) (Only.then State.releaseCam_only (by decide) (Only.refl _ _)))
    · exact Only.then State.writeList_only (by decide) (Only.then State.releaseCam_only (by decide) (Only.refl _ _))

theorem State.caskPost_only {s : State} {x1 : _} {x2 : _} {x3 : _} : Only 0x20002000020100000000000211b80010000000000100000000000008000000000001000000000002010041300000400000000100000000000002000000000020000000800004000008000006080e0e s (State.caskPost s x1 x2 x3) := by
  unfold State.caskPost
  repeat' first
    | decide
    | with_reducible exact Only.refl _ _
    | with_reducible apply Only.then State.advance_only
    | with_reducible apply Only.then State.wrList_only
    | split
    | dsimp only

theorem State.ttTake_only {s : State} {x1 : _} : Only 0x204000 s (State.ttTake s x1) := by
  unfold State.ttTake
  repeat' first
    | with_reducible assumption
    | decide
    | with_reducible exact Only.refl _ _
    | with_reducible apply Only.foldl
    | with_reducible apply Only.foldl1
    | intro _ _ _
    | split
    | dsimp only
    | (simp only [Only.lit]; with_reducible apply Only.upd (hpending := rfl) <;> first | exact Or.inl rfl | exact Or.inr (by with_reducible rfl) | skip)

theorem State.checkpoint_only {s : State} {x1 : _} : Only 0x20002000000100000000000200380010000000000100000000000008000000000001000000001002010041300000400000000100000000000002000000000020000000800004000008000004284a0a s (State.checkpoint s x1) := by
  unfold State.checkpoint
  repeat' first
    | with_reducible assumption
    | decide
    | with_reducible exact Only.refl _ _
    | with_reducible apply Only.then State.ttTake_only
    | with_reducible apply Only.then State.applyCalib_only
    | with_reducible apply Only.then State.applyWindow_only
    | with_reducible apply Only.then State.setSes_only
    | with_reducible apply Only.then State.event_only
    | with_reducible apply Only.foldl
    | with_reducible apply Only.foldl1
    | intro _ _ _
    | split
    | dsimp only

theorem State.newLm_only {s : State} {x1 : _} {x2 : _} {x3 : _} : Only 0x2000200000010000000000020038001000000000010000000000000800000000000100000000830201004130000040000000010000000000000200000000002000000080000400000800000c280a0a s (State.newLm s x1 x2 x3).1 := by
  unfold State.newLm
  repeat' first
    | decide
    | with_reducible exact Only.refl _ _
    | with_reducible apply Only.then State.event_only
    | with_reducible apply Only.then (State.addSat_only ?_)
    | with_reducible apply Only.then State.wrList_only
    | with_reducible apply Only.then State.used_only
    | with_reducible apply Only.then State.takeSlot_only
    | with_reducible apply Only.then (State.setF_only ?_)
    | split
    | dsimp only
    | (simp only [Only.lit]; with_reducible apply Only.upd (hpending := rfl) <;> first | exact Or.inl rfl | exact Or.inr (by with_reducible rfl) | skip)

theorem State.confirm_only {s : State} {x1 : _} {x2 : _} {x3 : _} {x4 : _} {x5 : _} : Only 0x2000200000010000000000020038001000000000010000000000000800000000000100000000830201004130000040000000010000000000000200000000002000000080000400000800000c280a0a s (State.confirm s x1 x2 x3 x4 x5).1 := by
  unfold State.confirm
  repeat' first
    | with_reducible assumption
    | decide
    | with_reducible exact Only.refl _ _
    | with_reducible apply Only.then State.setSes_only
    | with_reducible apply Only.then State.newLm_only
    | with_reducible apply Only.foldl
    | with_reducible apply Only.foldl1
    | intro _ _ _
    | split
    | dsimp only

theorem State.countObs_only {s : State} {x1 : _} {x2 : _} : Only 0x8000010041300000000000000000000000000000000000000000000000000000000000000000280002 s (State.countObs s x1 x2) := by
  unfold State.countObs
  repeat' first
    | decide
    | with_reducible exact Only.refl _ _
    | with_reducible apply Only.then State.wrNum_only
    | with_reducible apply Only.then State.takeSlot_only
    | split
    | dsimp only

theorem State.dropSlot_only {s : State} {x1 : _} : Only 0x10041300000000000000000000000000000000000000000000000000000000000000000280002 s (State.dropSlot s x1) := by
  unfold State.dropSlot
  repeat' first
    | decide
    | with_reducible exact Only.refl _ _
    | with_reducible apply Only.then State.wrNum_only
    | split
    | dsimp only
    | (simp only [Only.lit]; with_reducible apply Only.upd (hpending := rfl) <;> first | exact Or.inl rfl | exact Or.inr (by with_reducible rfl) | skip)

theorem State.nextLists_only {s : State} {x1 : _} {x2 : _} {x3 : _} {x4 : _} : Only 0x20002000020100000000000211b80010000000000100000000000008000000000001000000000002010041300000400000000100000000000002000000000020000000800004000008000006080e0e s (State.nextLists s x1 x2 x3 x4).1 := by
  unfold State.nextLists
  repeat' first
    | with_reducible assumption
    | decide
    | with_reducible exact Only.refl _ _
    | with_reducible apply Only.then State.writeList_only
    | with_reducible apply Only.foldl
    | with_reducible apply Only.foldl1
    | intro _ _ _
    | split
    | dsimp only

theorem State.freeLm_only {s : State} {x1 : _} : Only 0x100010041300000000000000000000000000000000000000000000000000000000000000000280002 s (State.freeLm s x1) := by
  unfold State.freeLm
  repeat' first
    | decide
    | with_reducible exact Only.refl _ _
    | with_reducible apply Only.then State.dropSlot_only
    | with_reducible apply Only.then (State.setF_only ?_)
    | dsimp only
    | (simp only [Only.lit]; with_reducible apply Only.upd (hpending := rfl) <;> first | exact Or.inl rfl | exact Or.inr (by with_reducible rfl) | skip)

theorem State.syncFrm_only {s : State} : Only 0x1000000000000000000000000000000000000000000000000000000000000000000000000000000 s (State.syncFrm s) := by
  unfold State.syncFrm
  repeat' first
    | decide
    | with_reducible exact Only.refl _ _
    | with_reducible apply Only.then (State.setF_only ?_)
    | dsimp only

theorem State.setSesState_only {s : State} {x1 : _} {x2 : _} : Only 0x200000001000000000000000000000000000000000000000000000000000000000000000000000000000000 s (State.setSesState s x1 x2) := by
  unfold State.setSesState
  repeat' first
    | decide
    | with_reducible exact Only.refl _ _
    | with_reducible apply Only.then State.syncFrm_only
    | with_reducible apply Only.then (State.setF_only ?_)

theorem State.sgmInit_only {s : State} {x1 : _} {x2 : _} : Only 0x2000200000010000000000020038001000000000010000000000000800000000000100000000830201004130000040000000010000000000000200000000002000000080000400000800000c280a0a s (State.sgmInit s x1 x2) := by
  unfold State.sgmInit
  repeat' first
    | with_reducible assumption
    | decide
    | with_reducible exact Only.refl _ _
    | with_reducible apply Only.then State.newLm_only
    | with_reducible apply Only.then State.setSes_only
    | with_reducible apply Only.foldl
    | with_reducible apply Only.foldl1
    | intro _ _ _
    | split
    | dsimp only

theorem State.askPlace_only {s : State} {x1 : _} {x2 : _} {x3 : _} {x4 : _} : Only 0x20002000020100000000000211b80010000000000100000000000008000000000001000000000002010041300000400000000100000000000002000000000020000000800004000008000006280e0e s (State.askPlace s x1 x2 x3 x4) := by
  unfold State.askPlace
  repeat' first
    | with_reducible assumption
    | decide
    | with_reducible exact Only.refl _ _
    | with_reducible apply Only.then State.caskPost_only
    | with_reducible apply Only.then State.setSes_only
    | with_reducible apply Only.foldl
    | with_reducible apply Only.foldl1
    | intro _ _ _
    | split
    | dsimp only

theorem State.kfCask_only {s : State} {x1 : _} {x2 : _} : Only 0x20002000020100000000000211b80010000000000100000000000008000000000001000000000002010041300000400000000100000000000002000000000020000000800004000008000006280e0e s (State.kfCask s x1 x2) := by
  unfold State.kfCask
  repeat' first
    | decide
    | with_reducible exact Only.refl _ _
    | with_reducible apply Only.then State.askPlace_only
    | with_reducible apply Only.then State.caskPost_only
    | split
    | dsimp only

theorem State.kfSettle_only {s : State} {x1 : _} : Only 0x20002000020100000000000211b8001000000000010000000000000800000000000100000000830201004130000040000000010000000000000200000000002000000080000400000800000e280e0e s (State.kfSettle s x1) := by
  unfold State.kfSettle
  repeat' first
    | with_reducible assumption
    | decide
    | with_reducible exact Only.refl _ _
    | with_reducible apply Only.then State.setSes_only
    | with_reducible apply Only.then State.sgmInit_only
    | with_reducible apply Only.then State.kfCask_only
    | with_reducible apply Only.foldl
    | with_reducible apply Only.foldl1
    | intro _ _ _
    | split
    | dsimp only

theorem State.takePlaces_only {s : State} {x1 : _} {x2 : _} : Only 0x20002000020100000000000211b800100000000001000000000000083e3c0000be7d00000000000201004130000040000000010000000000000200000000002000000080000400000800000e681e0e s (State.takePlaces s x1 x2) := by
  unfold State.takePlaces
  repeat' first
    | with_reducible assumption
    | decide
    | with_reducible exact Only.refl _ _
    | with_reducible apply Only.then State.setSes_only
    | with_reducible apply Only.then State.ktlPost_only
    | with_reducible apply Only.foldl
    | with_reducible apply Only.foldl1
    | intro _ _ _
    | split
    | dsimp only

theorem State.setReloc_only {s : State} {x1 : _} {x2 : _} : Only 0x200000 s (State.setReloc s x1 x2) := by
  unfold State.setReloc
  repeat' first
    | with_reducible assumption
    | decide
    | with_reducible exact Only.refl _ _
    | with_reducible apply Only.then State.setSes_only
    | with_reducible apply Only.foldl
    | with_reducible apply Only.foldl1
    | intro _ _ _
    | split
    | dsimp only

theorem State.takeVerified_only {s : State} {x1 : _} {x2 : _} : Only 0x20002000020100000000000211b80010000000000100000000000008000000000001000000000002010041300000400000000100000000000002000000000020000000800004000008000006280e0e s (State.takeVerified s x1 x2) := by
  unfold State.takeVerified
  repeat' first
    | with_reducible assumption
    | decide
    | with_reducible exact Only.refl _ _
    | with_reducible apply Only.then State.setSes_only
    | with_reducible apply Only.then State.wrList_only
    | with_reducible apply Only.then State.advance_only
    | with_reducible apply Only.then State.setReloc_only
    | with_reducible apply Only.foldl
    | with_reducible apply Only.foldl1
    | intro _ _ _
    | split
    | dsimp only

theorem State.takeRefined_only {s : State} {x1 : _} {x2 : _} : Only 0x200000 s (State.takeRefined s x1 x2) := by
  unfold State.takeRefined
  repeat' first
    | with_reducible assumption
    | decide
    | with_reducible exact Only.refl _ _
    | with_reducible apply Only.then State.setReloc_only
    | with_reducible apply Only.foldl
    | with_reducible apply Only.foldl1
    | intro _ _ _
    | split
    | dsimp only

theorem State.placeSettle_only {s : State} {x1 : _} : Only 0x20002000020100000000000211b800100000000001000000000000083e3c0000be7d00000000000201004130000040000000010000000000000200000000002000000080000400000800000e681e0e s (State.placeSettle s x1) := by
  unfold State.placeSettle
  repeat' first
    | with_reducible assumption
    | decide
    | with_reducible exact Only.refl _ _
    | with_reducible apply Only.then State.setSes_only
    | with_reducible apply Only.then State.takePlaces_only
    | with_reducible apply Only.then State.takeVerified_only
    | with_reducible apply Only.then State.takeRefined_only
    | with_reducible apply Only.foldl
    | with_reducible apply Only.foldl1
    | intro _ _ _
    | split
    | dsimp only

theorem State.sesSettle_only {s : State} {x1 : _} : Only 0x20002000020100000000000211b800100000000001000000000000083e3c0000be7d00020000830301004130000040000000010000000000000200000000002000000080000400000800000e681e0e s (State.sesSettle s x1) := by
  unfold State.sesSettle
  repeat' first
    | with_reducible assumption
    | decide
    | with_reducible exact Only.refl _ _
    | with_reducible apply Only.then State.placeSettle_only
    | with_reducible apply Only.then State.kfSettle_only
    | with_reducible apply Only.then State.writeList_only
    | with_reducible apply Only.then State.setSesState_only
    | with_reducible apply Only.then State.setSes_only
    | with_reducible apply Only.then State.camSettle_only
    | with_reducible apply Only.foldl
    | with_reducible apply Only.foldl1
    | intro _ _ _
    | split
    | dsimp only

theorem State.frmSettle_only {s : State} : Only 0x20002000020100000000000211b800100000000001000000000000083e3c0000be7d00020000830301004130000040000000010000000000000200000000002000000080000400000800000e681e0e s (State.frmSettle s) := by
  unfold State.frmSettle
  repeat' first
    | with_reducible assumption
    | decide
    | with_reducible exact Only.refl _ _
    | with_reducible apply Only.then State.sesSettle_only
    | with_reducible apply Only.foldl
    | with_reducible apply Only.foldl1
    | intro _ _ _
    | dsimp only

theorem State.noteScores_only {s : State} {x1 : _} {x2 : _} {x3 : _} {x4 : _} {x5 : _} {x6 : _} : Only 0x200000000000000000000000000000000000000000000000000000000000000000000000000000000000200000 s (State.noteScores s x1 x2 x3 x4 x5 x6) := by
  unfold State.noteScores
  repeat' first
    | with_reducible assumption
    | decide
    | with_reducible exact Only.refl _ _
    | with_reducible apply Only.then State.setSes_only
    | with_reducible apply Only.then (State.setF_only ?_)
    | with_reducible apply Only.foldl
    | with_reducible apply Only.foldl1
    | intro _ _ _
    | dsimp only

theorem State.keepOff_only {s : State} {x1 : _} {x2 : _} {x3 : _} : Only 0x200000 s (State.keepOff s x1 x2 x3) := by
  unfold State.keepOff
  repeat' first
    | with_reducible assumption
    | decide
    | with_reducible exact Only.refl _ _
    | with_reducible apply Only.then State.setSes_only
    | with_reducible apply Only.foldl
    | with_reducible apply Only.foldl1
    | intro _ _ _
    | split
    | dsimp only

theorem State.correct_only {s : State} {x1 : _} {x2 : _} {x3 : _} : Only 0x200000 s (State.correct s x1 x2 x3).1 := by
  unfold State.correct
  repeat' first
    | with_reducible assumption
    | decide
    | with_reducible exact Only.refl _ _
    | with_reducible apply Only.then State.keepOff_only
    | with_reducible apply Only.then State.setSes_only
    | with_reducible apply Only.foldl
    | with_reducible apply Only.foldl1
    | intro _ _ _
    | split
    | dsimp only

theorem State.fuse_only {s : State} {x1 : _} {x2 : _} {x3 : _} {x4 : _} {x5 : _} {x6 : _} {x7 : _} {x8 : _} : Only 0x200020000001000000000002003800100000000001000000000000080000000000012d7e00000003000000000000400000000100000000000002000000000020000000800004000008000004201a88 s (State.fuse s x1 x2 x3 x4 x5 x6 x7 x8).1 := by
  unfold State.fuse
  repeat' first
    | with_reducible assumption
    | decide
    | with_reducible exact Only.refl _ _
    | with_reducible apply Only.then State.keepOff_only
    | with_reducible apply Only.then State.correct_only
    | with_reducible apply Only.then State.noteConds_only
    | with_reducible apply Only.then State.noteScores_only
    | with_reducible apply Only.then (State.setF_only ?_)
    | with_reducible apply Only.then (State.addSat_only ?_)
    | with_reducible apply Only.then State.eventIf_only
    | with_reducible apply Only.then State.setSesState_only
    | with_reducible apply Only.then State.setSes_only
    | with_reducible apply Only.then State.poseRecord_only
    | with_reducible apply Only.foldl
    | with_reducible apply Only.foldl1
    | intro _ _ _
    | split
    | dsimp only

theorem State.kfGraph_only {s : State} {x1 : _} {x2 : _} {x3 : _} : Only 0x20002000020100000000000211b800100000000001000000000000083e3c0000be7d00000000000201004130000040000000010000000000000200000000002000000080000400000800000e481e0e s (State.kfGraph s x1 x2 x3) := by
  unfold State.kfGraph
  repeat' first
    | decide
    | with_reducible exact Only.refl _ _
    | with_reducible apply Only.then State.ktlPost_only
    | split
    | dsimp only
    | (simp only [Only.lit]; with_reducible apply Only.upd (hpending := rfl) <;> first | exact Or.inl rfl | exact Or.inr (by with_reducible rfl) | skip)

theorem State.kfWindow_only {s : State} {x1 : _} {x2 : _} {x3 : _} {x4 : _} {x5 : _} : Only 0x20002000020100000000000211b800100000000001000000000000083e3c0000be7d00000000000201004130000040000000010000000000000200000000002000000080000400000800000e481e0e s (State.kfWindow s x1 x2 x3 x4 x5) := by
  unfold State.kfWindow
  repeat' first
    | decide
    | with_reducible exact Only.refl _ _
    | with_reducible apply Only.then State.ktlPost_only
    | split
    | dsimp only

theorem State.keyframe_only {s : State} {x1 : _} {x2 : _} {x3 : _} {x4 : _} {x5 : _} : Only 0x20002000020100000000000211b800100000000001000000000000083e3c0000be7d10000000000201004130000040000000010000000000000200000000002000000080000400000800000e681e0e s (State.keyframe s x1 x2 x3 x4 x5) := by
  unfold State.keyframe
  repeat' first
    | with_reducible assumption
    | decide
    | with_reducible exact Only.refl _ _
    | with_reducible apply Only.then State.wrList_only
    | with_reducible apply Only.then State.wrNum_only
    | with_reducible apply Only.then State.freeLm_only
    | with_reducible apply Only.then (State.addWrap_only ?_)
    | with_reducible apply Only.then State.setSes_only
    | with_reducible apply Only.then State.advance_only
    | with_reducible apply Only.then State.kfCask_only
    | with_reducible apply Only.then State.kfGraph_only
    | with_reducible apply Only.then State.kfWindow_only
    | with_reducible apply Only.foldl
    | with_reducible apply Only.foldl1
    | intro _ _ _
    | split
    | dsimp only

theorem State.startSession_only {s : State} {x1 : _} {x2 : _} : Only 0x202200000001000000000000000000000000000000000000000000000000000000000000000000000000200000 s (State.startSession s x1 x2) := by
  unfold State.startSession
  repeat' first
    | with_reducible assumption
    | decide
    | with_reducible exact Only.refl _ _
    | with_reducible apply Only.then State.setSes_only
    | with_reducible apply Only.then (State.setF_only ?_)
    | with_reducible apply Only.then State.setSesState_only
    | with_reducible apply Only.foldl
    | with_reducible apply Only.foldl1
    | intro _ _ _
    | split
    | dsimp only

theorem State.dropVerifs_only {s : State} {x1 : _} : Only 0x400000 s (State.dropVerifs s x1) := by
  unfold State.dropVerifs
  repeat' first
    | with_reducible assumption
    | decide
    | with_reducible exact Only.refl _ _
    | with_reducible apply Only.then State.setProb_only
    | with_reducible apply Only.foldl
    | with_reducible apply Only.foldl1
    | intro _ _ _
    | split
    | dsimp only

theorem State.stopSession_only {s : State} {x1 : _} : Only 0x200000001000000000000000000000000000000000000000000000000000000000000000000000000600080 s (State.stopSession s x1) := by
  unfold State.stopSession
  repeat' first
    | decide
    | with_reducible exact Only.refl _ _
    | with_reducible apply Only.then State.dropVerifs_only
    | with_reducible apply Only.then State.setSesState_only
    | with_reducible apply Only.then State.setSes_only
    | split
    | dsimp only
    | (simp only [Only.lit]; with_reducible apply Only.upd (hpending := rfl) <;> first | exact Or.inl rfl | exact Or.inr (by with_reducible rfl) | skip)

theorem State.mergeLms_only {s : State} {x1 : _} {x2 : _} : Only 0x100010041300000000000000000000000000000000000000000000000000000000000000000280002 s (State.mergeLms s x1 x2).1 := by
  unfold State.mergeLms
  repeat' first
    | with_reducible assumption
    | decide
    | with_reducible exact Only.refl _ _
    | with_reducible apply Only.then State.freeLm_only
    | with_reducible apply Only.foldl
    | with_reducible apply Only.foldl1
    | intro _ _ _
    | split
    | dsimp only
    | (simp only [Only.lit]; with_reducible apply Only.upd (hpending := rfl) <;> first | exact Or.inl rfl | exact Or.inr (by with_reducible rfl) | skip)

theorem State.noteFilter_only {s : State} {x1 : _} {x2 : _} : Only 0x200000 s (State.noteFilter s x1 x2) := by
  unfold State.noteFilter
  repeat' first
    | decide
    | with_reducible exact Only.refl _ _
    | with_reducible apply Only.then State.setSes_only
    | dsimp only

theorem State.noteLat_only {s : State} {x1 : _} {x2 : _} : Only 0x20000000000000000000000000000000000000000000000000000000000000000000000000000000000200400 s (State.noteLat s x1 x2) := by
  unfold State.noteLat
  repeat' first
    | with_reducible assumption
    | decide
    | with_reducible exact Only.refl _ _
    | with_reducible apply State.tele_only (hs := fun _ _ => ?_)
    | with_reducible apply Only.then State.setSes_only
    | with_reducible apply Only.then (State.setF_only ?_)
    | with_reducible apply Only.foldl
    | with_reducible apply Only.foldl1
    | intro _ _ _
    | dsimp only

theorem State.setResid_only {s : State} {x1 : _} {x2 : _} : Only 0x20002000000100000000000200380010000000000100000000000008000000000001000000000002000000000000400000000100000000000002000000000020000000870004000008000004000b08 s (State.setResid s x1 x2) := by
  unfold State.setResid
  repeat' first
    | decide
    | with_reducible exact Only.refl _ _
    | with_reducible apply Only.then State.offsetUpdate_only
    | with_reducible apply Only.then State.setMon_only
    | split
    | dsimp only

theorem State.fit_only {s : State} {x1 : _} {x2 : _} {x3 : _} {x4 : _} {x5 : _} : Only 0x200000 s (State.fit s x1 x2 x3 x4 x5).1 := by
  unfold State.fit
  repeat' first
    | with_reducible assumption
    | decide
    | with_reducible exact Only.refl _ _
    | with_reducible apply Only.then State.setSes_only
    | with_reducible apply Only.foldl
    | with_reducible apply Only.foldl1
    | intro _ _ _
    | split
    | dsimp only

theorem State.residuals_only {s : State} {x1 : _} {x2 : _} {x3 : _} {x4 : _} : Only 0x20002000000100000000000200380010000000000100000000000008000000000001400000000002000000000000400000000100000000000002000000000020000000870004000008000004200b08 s (State.residuals s x1 x2 x3 x4) := by
  unfold State.residuals
  repeat' first
    | with_reducible assumption
    | decide
    | with_reducible exact Only.refl _ _
    | with_reducible apply Only.then State.fit_only
    | with_reducible apply Only.then State.setResid_only
    | with_reducible apply Only.then (State.setWord_only ?_)
    | with_reducible apply Only.foldl
    | with_reducible apply Only.foldl1
    | intro _ _ _
    | split
    | dsimp only

theorem State.stepEnd_only {s : State} {x1 : _} {x2 : _} {x3 : _} {x4 : _} {x5 : _} {x6 : _} : Only 0x20002000020100000000000211b80010000000000100000000000008000000000001028000000002010041300000400000000100000000000002000000000020000000800004000008000006280e0e s (State.stepEnd s x1 x2 x3 x4 x5 x6) := by
  unfold State.stepEnd
  repeat' first
    | with_reducible assumption
    | decide
    | with_reducible exact Only.refl _ _
    | with_reducible apply Only.then State.advance_only
    | with_reducible apply Only.then State.nextLists_only
    | with_reducible apply Only.then (State.setF_only ?_)
    | with_reducible apply Only.then State.setSes_only
    | with_reducible apply Only.then State.noteLat_only
    | with_reducible apply Only.then State.releaseCam_only
    | with_reducible apply Only.foldl
    | with_reducible apply Only.foldl1
    | intro _ _ _
    | split
    | dsimp only

theorem State.stepFuse_only {s : State} {x1 : _} {x2 : _} {x3 : _} {x4 : _} {x5 : _} {x6 : _} : Only 0x20002000020100000000000211b800100000000001000000000000083e3c0000be7d3d7e0000830301004130000040000000010000000000000200000000002000000080000400000800000e681e8e s (State.stepFuse s x1 x2 x3 x4 x5 x6).1 := by
  unfold State.stepFuse
  repeat' first
    | decide
    | with_reducible exact Only.refl _ _
    | with_reducible assumption
    | with_reducible apply Only.foldl
    | with_reducible apply Only.foldl1
    | intro _ _ _
    | with_reducible apply Only.then State.freeLm_only
    | with_reducible apply Only.then State.blindStep_only
    | with_reducible apply Only.then State.fuse_only
    | with_reducible apply Only.then State.confirm_only
    | with_reducible apply Only.then State.mergeLms_only
    | with_reducible apply Only.then State.keyframe_only
    | split
    | dsimp only

theorem State.stepSmooth_only {s : State} {x1 : _} {x2 : _} {x3 : _} {x4 : _} {x5 : _} {x6 : _} : Only 0x20002000020100000000000211b800100000000001000000000000083e3c0000be7d00000000000201004130000040000000010000000000000200000000002000000080000400000800000e481e0e s (State.stepSmooth s x1 x2 x3 x4 x5 x6) := by
  unfold State.stepSmooth
  repeat' first
    | decide
    | with_reducible exact Only.refl _ _
    | with_reducible apply Only.then State.ktlPost_only
    | split
    | dsimp only
    | (simp only [Only.lit]; with_reducible apply Only.upd (hpending := rfl) <;> first | exact Or.inl rfl | exact Or.inr (by with_reducible rfl) | skip)

theorem State.stepKeep_only {s : State} {x1 : _} {x2 : _} {x3 : _} {x4 : _} {x5 : _} {x6 : _} {x7 : _} : Only 0x20002000020100000000000211b800100000000001000000000000083e3c0000be7d40000000000201004130000040000000010000000000000200000000002000000087000400000800000e681f0e s (State.stepKeep s x1 x2 x3 x4 x5 x6 x7).1 := by
  unfold State.stepKeep
  repeat' first
    | decide
    | with_reducible exact Only.refl _ _
    | with_reducible assumption
    | with_reducible apply Only.foldl
    | with_reducible apply Only.foldl1
    | intro _ _ _
    | with_reducible apply Only.then State.residuals_only
    | with_reducible apply Only.then State.setSes_only
    | with_reducible apply Only.then State.noteFilter_only
    | with_reducible apply Only.then State.stepSmooth_only
    | split
    | dsimp only

theorem State.trackLevel_only {s : State} {x1 : _} {x2 : _} {x3 : _} : Only 0x8000010041300000000000000000000000000000000000000000000000000000000000000000280002 s (State.trackLevel s x1 x2 x3).1 := by
  unfold State.trackLevel
  repeat' first
    | with_reducible assumption
    | decide
    | with_reducible exact Only.refl _ _
    | with_reducible apply Only.then State.setSes_only
    | with_reducible apply Only.then State.countObs_only
    | with_reducible apply Only.foldl
    | with_reducible apply Only.foldl1
    | intro _ _ _
    | dsimp only

theorem State.slipReset_only {s : State} {x1 : _} : Only 0x200100 s (State.slipReset s x1) := by
  unfold State.slipReset
  repeat' first
    | with_reducible assumption
    | decide
    | with_reducible exact Only.refl _ _
    | with_reducible apply Only.then State.setSes_only
    | with_reducible apply Only.then State.setMon_only
    | with_reducible apply Only.foldl
    | with_reducible apply Only.foldl1
    | intro _ _ _
    | split
    | dsimp only

theorem State.takeStep_only {s : State} {x1 : _} {x2 : _} {x3 : _} : Only 0x20002000020100000000000211b800100000000001000000000000083e3c0000be7d7ffe0000930301004130000040000000010000000000000200000000002000000087000400000800000e685f8e s (State.takeStep s x1 x2 x3) := by
  unfold State.takeStep
  repeat' first
    | decide
    | with_reducible exact Only.refl _ _
    | with_reducible apply Only.then State.slipReset_only
    | with_reducible apply Only.then State.kfSettle_only
    | with_reducible apply Only.then State.trackLevel_only
    | with_reducible apply Only.then State.checkpoint_only
    | with_reducible apply Only.then State.stepFuse_only
    | with_reducible apply Only.then State.residuals_only
    | with_reducible apply Only.then State.stepKeep_only
    | with_reducible apply Only.then State.stepEnd_only
    | split
    | dsimp only

theorem calibPost_only {x0 : _} {s : State} : Only 0x20002000020100000000000211b800100000000001000000000000083e3c0000be7d00000000000201004130000040000000010000000000000200000000002000000080000400000800000e681e0e s (calibPost x0 s) := by
  unfold calibPost
  repeat' first
    | with_reducible assumption
    | decide
    | with_reducible exact Only.refl _ _
    | with_reducible apply Only.then State.ktlPost_only
    | with_reducible apply Only.then State.setSes_only
    | with_reducible apply Only.foldl
    | with_reducible apply Only.foldl1
    | intro _ _ _
    | split
    | dsimp only
    | (simp only [Only.lit]; with_reducible apply Only.upd (hpending := rfl) <;> first | exact Or.inl rfl | exact Or.inr (by with_reducible rfl) | skip)

theorem coastExpire_only {x0 : _} {s : State} : Only 0x200000 s (coastExpire x0 s) := by
  unfold coastExpire
  repeat' first
    | decide
    | with_reducible exact Only.refl _ _
    | with_reducible apply Only.then State.setSes_only
    | split
    | dsimp only

theorem foldIn_only {x0 : _} {x1 : _} {x2 : _} {x3 : _} {s : State} : Only 0x20002000020100000000000211b800100000000001000000000000083e3c0000be7d00000000000201004130000040000000010000000000000200000000002000000080000400000800000e681e0e s (foldIn x0 x1 x2 x3 s) := by
  unfold foldIn
  repeat' first
    | decide
    | with_reducible exact Only.refl _ _
    | with_reducible apply Only.then State.setSes_only
    | with_reducible apply Only.then State.ktlPost_only
    | with_reducible apply Only.then State.setProb_only
    | split
    | dsimp only
    | (simp only [Only.lit]; with_reducible apply Only.upd (hpending := rfl) <;> first | exact Or.inl rfl | exact Or.inr (by with_reducible rfl) | skip)

theorem initTimeout_only {x0 : _} {s : State} : Only 0x20002000000100000000000200380010000000000100000000000008000000000001000000000002000000000000400000000100000000000002000000000020000000800004000008000004200a08 s (initTimeout x0 s) := by
  unfold initTimeout
  repeat' first
    | decide
    | with_reducible exact Only.refl _ _
    | with_reducible apply Only.then State.event_only
    | with_reducible apply Only.then State.setSes_only
    | split
    | dsimp only

theorem propagatedRecord_only {x0 : _} {s : State} : Only 0x20002000020100000000000211b80010000000000100000000000008000000000001001e00000002000000000000400000000100000000000002000000000020000000800004000008000006281e8c s (propagatedRecord x0 s) := by
  unfold propagatedRecord
  repeat' first
    | decide
    | with_reducible exact Only.refl _ _
    | with_reducible apply Only.then State.advance_only
    | with_reducible apply Only.then State.poseRecord_only
    | with_reducible apply Only.then State.setSes_only
    | split
    | dsimp only

theorem relocQueryPost_only {x0 : _} {s : State} : Only 0x20002000020100000000000211b80010000000000100000000000008000000000001080000000002010041300000400000000100000000000002000000000020000000800004000008000006280e0e s (relocQueryPost x0 s) := by
  unfold relocQueryPost
  repeat' first
    | decide
    | with_reducible exact Only.refl _ _
    | with_reducible apply Only.then State.askPlace_only
    | with_reducible apply Only.then (State.addSat_only ?_)
    | with_reducible apply Only.then State.setSes_only
    | with_reducible apply Only.then State.caskPost_only
    | split
    | dsimp only

theorem State.failStep_only {s : State} {x1 : _} : Only 0x20002000020100000000000211b80010000000000100000000000008000000000001005e00000002010041300000400000000100000000000002000000000020000000800004000008000006281e8e s (State.failStep s x1) := by
  unfold State.failStep
  repeat' first
    | with_reducible assumption
    | decide
    | with_reducible exact Only.refl _ _
    | with_reducible apply Only.then State.poseRecord_only
    | with_reducible apply Only.then State.noteConds_only
    | with_reducible apply Only.then State.advance_only
    | with_reducible apply Only.then State.nextLists_only
    | with_reducible apply Only.then State.setSes_only
    | with_reducible apply Only.then State.releaseCam_only
    | with_reducible apply Only.foldl
    | with_reducible apply Only.foldl1
    | intro _ _ _
    | split
    | dsimp only

theorem visionStep_only {x0 : _} {s : State} : Only 0x20002000020100000000000211b801100000000001000000000000083e3c0000be7d7ffe0000930301004130000040000000010000000000000200000000002000000087000400000800000e685f8e s (visionStep x0 s) := by
  unfold visionStep
  repeat' first
    | decide
    | with_reducible exact Only.refl _ _
    | with_reducible apply Only.then State.poisonTask_only
    | with_reducible apply Only.then State.failStep_only
    | with_reducible apply Only.then State.takeStep_only
    | split
    | dsimp only

/-! ## Commands -/

theorem execPropagatedRecord_only {x0 : _} {s : State} {t : State} (h : execPropagatedRecord x0 s = .next t) : Only 0x20002000020100000000000211b80010000000000100000000000008000000000001001e00000002000000000000400000000100000000000002000000000020000000800004000008000006281e8c s t := by
  simp only [execPropagatedRecord, done, whenUp, whenOn] at h
  injection h with h
  subst h
  repeat' first
    | decide
    | with_reducible exact Only.refl _ _
    | with_reducible apply Only.then propagatedRecord_only
    | split

theorem execInitTimeout_only {x0 : _} {s : State} {t : State} (h : execInitTimeout x0 s = .next t) : Only 0x20002000000100000000000200380010000000000100000000000008000000000001000000000002000000000000400000000100000000000002000000000020000000800004000008000004200a08 s t := by
  simp only [execInitTimeout, done, whenUp, whenOn] at h
  injection h with h
  subst h
  repeat' first
    | decide
    | with_reducible exact Only.refl _ _
    | with_reducible apply Only.then initTimeout_only
    | split

theorem execCalibPost_only {x0 : _} {s : State} {t : State} (h : execCalibPost x0 s = .next t) : Only 0x20002000020100000000000211b800100000000001000000000000083e3c0000be7d00000000000201004130000040000000010000000000000200000000002000000080000400000800000e681e0e s t := by
  simp only [execCalibPost, done, whenUp, whenOn] at h
  injection h with h
  subst h
  repeat' first
    | decide
    | with_reducible exact Only.refl _ _
    | with_reducible apply Only.then calibPost_only
    | split

theorem execCoastExpire_only {x0 : _} {s : State} {t : State} (h : execCoastExpire x0 s = .next t) : Only 0x200000 s t := by
  simp only [execCoastExpire, done, whenUp, whenOn] at h
  injection h with h
  subst h
  repeat' first
    | decide
    | with_reducible exact Only.refl _ _
    | with_reducible apply Only.then coastExpire_only
    | split

theorem execRelocQueryPost_only {x0 : _} {s : State} {t : State} (h : execRelocQueryPost x0 s = .next t) : Only 0x20002000020100000000000211b80010000000000100000000000008000000000001080000000002010041300000400000000100000000000002000000000020000000800004000008000006280e0e s t := by
  simp only [execRelocQueryPost, done, whenUp, whenOn] at h
  injection h with h
  subst h
  repeat' first
    | decide
    | with_reducible exact Only.refl _ _
    | with_reducible apply Only.then relocQueryPost_only
    | split

theorem execFoldIn_only {x0 : _} {x1 : _} {x2 : _} {x3 : _} {s : State} {t : State} (h : execFoldIn x0 x1 x2 x3 s = .next t) : Only 0x20002000020100000000000211b800100000000001000000000000083e3c0000be7d00000000000201004130000040000000010000000000000200000000002000000080000400000800000e681e0e s t := by
  simp only [execFoldIn, done, whenUp, whenOn] at h
  injection h with h
  subst h
  repeat' first
    | decide
    | with_reducible exact Only.refl _ _
    | with_reducible apply Only.then foldIn_only
    | split

theorem execVisionStep_only {x0 : _} {s : State} {t : State} (h : execVisionStep x0 s = .next t) : Only 0x20002000020100000000000211b801100000000001000000000000083e3c0000be7d7ffe0000930301004130000040000000010000000000000200000000002000000087000400000800000e685f8e s t := by
  simp only [execVisionStep, done, whenUp, whenOn] at h
  injection h with h
  subst h
  repeat' first
    | decide
    | with_reducible exact Only.refl _ _
    | with_reducible apply Only.then visionStep_only
    | split

end Sys2Proof.Machine
end

