-- ==== Sys2Proof/Laws/BoundKiln.lean ====
section
/-!
SUPPORT. What each function of Machine/Kiln.lean can change at most.
-/

namespace Sys2Proof.Machine
open Sys2Proof Sys2Proof.Safety

theorem State.syncMap_only {s : State} {x1 : _} : Only 0x5000000000000000000000000000000000000000000000000000000000000000000000000000000000000000000000000000000000000000 s (State.syncMap s x1) := by
  unfold State.syncMap
  repeat' first
    | decide
    | with_reducible exact Only.refl _ _
    | with_reducible apply Only.then (State.setF_only ?_)
    | dsimp only

theorem State.setPass_only {s : State} {x1 : _} : Only 0x800000 s (State.setPass s x1) := by
  unfold State.setPass
  repeat' first
    | decide
    | with_reducible exact Only.refl _ _
    | split
    | dsimp only
    | (simp only [Only.lit]; with_reducible apply Only.upd (hpending := rfl) <;> first | exact Or.inl rfl | exact Or.inr (by with_reducible rfl) | skip)

theorem State.startPass_only {s : State} {x1 : _} {x2 : _} : Only 0x800000 s (State.startPass s x1 x2) := by
  unfold State.startPass
  repeat' first
    | decide
    | with_reducible exact Only.refl _ _
    | with_reducible apply Only.then State.setPass_only
    | split

theorem State.startPasses_only {s : State} {x1 : _} : Only 0x800000 s (State.startPasses s x1) := by
  induction x1 generalizing s with
  | zero =>
    unfold State.startPasses
    repeat' first
      | decide
      | with_reducible exact Only.refl _ _
      | with_reducible apply Only.then State.setPass_only
      | with_reducible apply Only.then State.startPass_only
      | split
      | dsimp only
  | succ n ih =>
    unfold State.startPasses
    repeat' first
      | decide
      | with_reducible exact Only.refl _ _
      | with_reducible apply Only.then ih
      | with_reducible apply Only.then State.setPass_only
      | with_reducible apply Only.then State.startPass_only
      | split
      | dsimp only

theorem State.setKmap_only {s : State} {x1 : _} {x2 : _} : Only 0x800000 s (State.setKmap s x1 x2) := by
  unfold State.setKmap
  repeat' first
    | decide
    | with_reducible exact Only.refl _ _
    | dsimp only
    | (simp only [Only.lit]; with_reducible apply Only.upd (hpending := rfl) <;> first | exact Or.inl rfl | exact Or.inr (by with_reducible rfl) | skip)

theorem State.iterate_only {s : State} {x1 : _} {x2 : _} : Only 0x800000 s (State.iterate s x1 x2) := by
  unfold State.iterate
  repeat' first
    | decide
    | with_reducible exact Only.refl _ _
    | with_reducible apply Only.then State.setKmap_only
    | dsimp only
    | (simp only [Only.lit]; with_reducible apply Only.upd (hpending := rfl) <;> first | exact Or.inl rfl | exact Or.inr (by with_reducible rfl) | skip)

theorem State.advanceEpoch_only {s : State} {x1 : _} {x2 : _} {x3 : _} : Only 0x20002000020100000000000211b80010000000000100007000000008000000000001000000000002000000000000400000000100000000000002000000000020000000800004000008000006880e0c s (State.advanceEpoch s x1 x2 x3) := by
  unfold State.advanceEpoch
  repeat' first
    | decide
    | with_reducible exact Only.refl _ _
    | with_reducible apply Only.then State.syncMap_only
    | with_reducible apply Only.then (State.setF_only ?_)
    | with_reducible apply Only.then State.advance_only
    | with_reducible apply Only.then State.startPasses_only
    | with_reducible apply Only.then State.iterate_only
    | split
    | dsimp only

theorem State.afterCommit_only {s : State} {x1 : _} {x2 : _} : Only 0x800000 s (State.afterCommit s x1 x2) := by
  unfold State.afterCommit
  repeat' first
    | decide
    | with_reducible exact Only.refl _ _
    | with_reducible apply Only.then State.setKmap_only
    | dsimp only

theorem State.setParam_only {s : State} {x1 : _} {x2 : _} {x3 : _} {x4 : _} : Only 0x10041300000000000000000000000000000000000000000000000000000000000000000080002 s (State.setParam s x1 x2 x3 x4) := by
  unfold State.setParam
  repeat' first
    | decide
    | with_reducible exact Only.refl _ _
    | with_reducible apply Only.then State.wrNum_only
    | split
    | dsimp only

theorem State.applyGrad_only {s : State} {x1 : _} {x2 : _} {x3 : _} : Only 0x200000000000000000000000000010041300000000000000000000000000000000000000000000000000000000000000000080002 s (State.applyGrad s x1 x2 x3).1 := by
  unfold State.applyGrad
  repeat' first
    | with_reducible assumption
    | decide
    | with_reducible exact Only.refl _ _
    | with_reducible apply Only.then (State.addSat_only ?_)
    | with_reducible apply Only.then State.setParam_only
    | with_reducible apply Only.then State.wrNum_only
    | with_reducible apply Only.foldl
    | with_reducible apply Only.foldl1
    | intro _ _ _
    | split
    | dsimp only

theorem State.applyGrads_only {s : State} {x1 : _} {x2 : _} {x3 : _} : Only 0x200000000000000000000000000010041300000000000000000000000000000000000000000000000000000000000000000080002 s (State.applyGrads s x1 x2 x3).1 := by
  unfold State.applyGrads
  repeat' first
    | with_reducible assumption
    | decide
    | with_reducible exact Only.refl _ _
    | with_reducible apply Only.then State.applyGrad_only
    | with_reducible apply Only.foldl
    | with_reducible apply Only.foldl1
    | intro _ _ _
    | split
    | dsimp only

theorem State.viewRecord_only {s : State} {x1 : _} {x2 : _} {x3 : _} {x4 : _} {x5 : _} {x6 : _} : Only 0x20002000020100000000000211b80010000000000170000000000108000000000001000000000002010041300000400000000100000000000002000000000020000000800004000008000006881e0e s (State.viewRecord s x1 x2 x3 x4 x5 x6) := by
  unfold State.viewRecord
  repeat' first
    | decide
    | with_reducible exact Only.refl _ _
    | with_reducible apply Only.then State.logHidden_only
    | with_reducible apply Only.then State.publish_only
    | with_reducible apply Only.then State.wrList_only
    | with_reducible apply Only.then (State.setF_only ?_)
    | with_reducible apply Only.then (State.addWrap_only ?_)
    | with_reducible apply Only.then State.event_only
    | with_reducible apply Only.then (State.addSat_only ?_)
    | with_reducible apply Only.then State.advance_only
    | split
    | dsimp only
    | (simp only [Only.lit]; with_reducible apply Only.upd (hpending := rfl) <;> first | exact Or.inl rfl | exact Or.inr (by with_reducible rfl) | skip)

theorem State.dropPass_only {s : State} {x1 : _} : Only 0x800000 s (State.dropPass s x1) := by
  unfold State.dropPass
  repeat' first
    | decide
    | with_reducible exact Only.refl _ _
    | dsimp only
    | (simp only [Only.lit]; with_reducible apply Only.upd (hpending := rfl) <;> first | exact Or.inl rfl | exact Or.inr (by with_reducible rfl) | skip)

theorem State.relocRecord_only {s : State} {x1 : _} {x2 : _} {x3 : _} {x4 : _} {x5 : _} : Only 0x20002000020100000000000211b80010000000000100000000000008000000000001000000000002010041300000400000000100000000000002000000000020000000800004000008000006880e0e s (State.relocRecord s x1 x2 x3 x4 x5) := by
  unfold State.relocRecord
  repeat' first
    | decide
    | with_reducible exact Only.refl _ _
    | with_reducible apply Only.then State.wrList_only
    | with_reducible apply Only.then State.event_only
    | with_reducible apply Only.then State.advance_only
    | split
    | dsimp only
    | (simp only [Only.lit]; with_reducible apply Only.upd (hpending := rfl) <;> first | exact Or.inl rfl | exact Or.inr (by with_reducible rfl) | skip)

theorem State.refRecord_only {s : State} {x1 : _} {x2 : _} {x3 : _} : Only 0x20002000020100000000000211b80010000000000100010000000108000000000001000000000002010041300000400000000100000000000002000000000020000000800004000008000006881e0e s (State.refRecord s x1 x2 x3) := by
  unfold State.refRecord
  repeat' first
    | decide
    | with_reducible exact Only.refl _ _
    | with_reducible apply Only.then State.publish_only
    | with_reducible apply Only.then State.wrList_only
    | with_reducible apply Only.then (State.setF_only ?_)
    | with_reducible apply Only.then State.setKmap_only
    | with_reducible apply Only.then State.event_only
    | with_reducible apply Only.then (State.addSat_only ?_)
    | with_reducible apply Only.then State.advance_only
    | split
    | dsimp only

theorem State.noKilns_only {s : State} : Only 0x20002000020100000000000211b80010000000000170010000000108000000000001000000000002010041300000400000000100000000000002000000000020000000800004000008000006881e0e s (State.noKilns s) := by
  unfold State.noKilns
  repeat' first
    | with_reducible assumption
    | decide
    | with_reducible exact Only.refl _ _
    | with_reducible apply Only.then State.viewRecord_only
    | with_reducible apply Only.then State.dropPass_only
    | with_reducible apply Only.then State.relocRecord_only
    | with_reducible apply Only.then State.refRecord_only
    | with_reducible apply Only.then State.setKmap_only
    | with_reducible apply Only.foldl
    | with_reducible apply Only.foldl1
    | intro _ _ _
    | split
    | dsimp only

theorem State.copyPage_only {s : State} {x1 : _} {x2 : _} : Only 0x10041300000000000000000000000000000000000000000000000000000000000000000080002 s (State.copyPage s x1 x2) := by
  unfold State.copyPage
  repeat' first
    | decide
    | with_reducible exact Only.refl _ _
    | with_reducible assumption
    | with_reducible apply Only.foldl
    | with_reducible apply Only.foldl1
    | intro _ _ _
    | with_reducible apply Only.then State.addPoison_only
    | with_reducible apply Only.then State.wrList_only
    | split
    | dsimp only

theorem State.touchBlock_only {s : State} {x1 : _} {x2 : _} {x3 : _} : Only 0x10041300000000000000000000000000000000000000000000000000000000000000000080002 s (State.touchBlock s x1 x2 x3) := by
  unfold State.touchBlock
  repeat' first
    | decide
    | with_reducible exact Only.refl _ _
    | with_reducible apply Only.then State.wrNum_only
    | split
    | dsimp only

theorem State.createPrim_only {s : State} {x1 : _} {x2 : _} {x3 : _} : Only 0x10041300000000000000000000000000000000000000000000000000000000000000000880002 s (State.createPrim s x1 x2 x3).1 := by
  unfold State.createPrim
  repeat' first
    | decide
    | with_reducible exact Only.refl _ _
    | with_reducible apply Only.then State.wrList_only
    | with_reducible apply Only.then State.touchBlock_only
    | with_reducible apply Only.then State.setKmap_only
    | split
    | dsimp only

theorem State.countCreate_only {s : State} {x1 : _} {x2 : _} {x3 : _} {x4 : _} : Only 0x8000000000000000000000000000000000010041300000000000000000000000000000000000000000000000000000000000000000880002 s (State.countCreate s x1 x2 x3 x4).1 := by
  unfold State.countCreate
  repeat' first
    | decide
    | with_reducible exact Only.refl _ _
    | with_reducible apply Only.then State.createPrim_only
    | with_reducible apply Only.then (State.addSat_only ?_)
    | split
    | dsimp only

theorem State.densify_only {s : State} {x1 : _} {x2 : _} {x3 : _} {x4 : _} : Only 0x8000000000000000000000000000000000010041300000000000000000000000000000000000000000000000000000000000000000880002 s (State.densify s x1 x2 x3 x4).1 := by
  unfold State.densify
  repeat' first
    | decide
    | with_reducible exact Only.refl _ _
    | with_reducible apply Only.then State.countCreate_only
    | with_reducible apply Only.then State.wrNum_only
    | with_reducible apply Only.then State.wrList_only
    | split
    | dsimp only

theorem State.freePrim_only {s : State} {x1 : _} {x2 : _} {x3 : _} : Only 0x10041300000000000000000000000000000000000000000000000000000000000000000080002 s (State.freePrim s x1 x2 x3) := by
  unfold State.freePrim
  repeat' first
    | decide
    | with_reducible exact Only.refl _ _
    | with_reducible apply Only.then State.touchBlock_only
    | with_reducible apply Only.then State.wrNum_only

theorem State.movePrim_only {s : State} {x1 : _} {x2 : _} {x3 : _} : Only 0x10041300000000000000000000000000000000000000000000000000000000000000000880002 s (State.movePrim s x1 x2 x3) := by
  unfold State.movePrim
  repeat' first
    | decide
    | with_reducible exact Only.refl _ _
    | with_reducible apply Only.then State.createPrim_only
    | with_reducible apply Only.then State.freePrim_only
    | with_reducible apply Only.then State.wrList_only
    | split
    | dsimp only

theorem State.densifyMap_only {s : State} {x1 : _} {x2 : _} {x3 : _} {x4 : _} : Only 0x8000000000000000000000000000000000010041300000000000000000000000000000000000000000000000000000000000000000880002 s (State.densifyMap s x1 x2 x3 x4).1 := by
  unfold State.densifyMap
  repeat' first
    | with_reducible assumption
    | decide
    | with_reducible exact Only.refl _ _
    | with_reducible apply Only.then State.freePrim_only
    | with_reducible apply Only.then State.densify_only
    | with_reducible apply Only.then State.movePrim_only
    | with_reducible apply Only.then State.countCreate_only
    | with_reducible apply Only.then State.wrNum_only
    | with_reducible apply Only.foldl
    | with_reducible apply Only.foldl1
    | intro _ _ _
    | dsimp only
    | split

theorem State.queueJob_only {s : State} {x1 : _} {x2 : _} : Only 0x20002000020100000000000211b80010000000000100010000000108000000000001000000000002010041300000400000000100000000000002000000000020000000800004000008000006881e0e s (State.queueJob s x1 x2) := by
  unfold State.queueJob
  repeat' first
    | decide
    | with_reducible exact Only.refl _ _
    | with_reducible apply Only.then State.refRecord_only
    | with_reducible apply Only.then State.setKmap_only
    | split
    | dsimp only

theorem State.startJob_only {s : State} {x1 : _} : Only 0x20002000020100000000000211b80010000000000100010000000108000000000001000000000002010041300000400000000100000000000002000000000020000000800004000008000006881e0e s (State.startJob s x1) := by
  unfold State.startJob
  repeat' first
    | decide
    | with_reducible exact Only.refl _ _
    | with_reducible apply Only.then State.setKmap_only
    | with_reducible apply Only.then State.refRecord_only
    | with_reducible apply Only.then State.iterate_only
    | split
    | dsimp only

theorem State.jobSettle_only {s : State} {x1 : _} : Only 0x20002000020100000000000211b80010000000000100010000000108000000000001000000000002010041300000400000000100000000000002000000000020000000800004000008000006881e0e s (State.jobSettle s x1) := by
  unfold State.jobSettle
  repeat' first
    | with_reducible assumption
    | decide
    | with_reducible exact Only.refl _ _
    | with_reducible apply Only.then State.setKmap_only
    | with_reducible apply Only.then State.queueJob_only
    | with_reducible apply Only.then State.startJob_only
    | with_reducible apply Only.foldl
    | with_reducible apply Only.foldl1
    | intro _ _ _
    | split
    | dsimp only

theorem State.skipPass_only {s : State} {x1 : _} : Only 0x20002000020100000000000211b80010000000000170000000000108000000000001000000000002010041300000400000000100000000000002000000000020000000800004000008000006881e0e s (State.skipPass s x1) := by
  unfold State.skipPass
  repeat' first
    | decide
    | with_reducible exact Only.refl _ _
    | with_reducible apply Only.then State.viewRecord_only
    | with_reducible apply Only.then State.dropPass_only

theorem State.viewPose_only {s : State} {x1 : _} {x2 : _} : Only 0x20002000020100000000000211b80010000000000170000000000108000000000001000000000002010041300000400000000100000000000002000000000020000000800004000008000006881e0e s (State.viewPose s x1 x2) := by
  unfold State.viewPose
  repeat' first
    | decide
    | with_reducible exact Only.refl _ _
    | with_reducible apply Only.then State.skipPass_only
    | with_reducible apply Only.then State.viewRecord_only
    | split
    | dsimp only
    | (simp only [Only.lit]; with_reducible apply Only.upd (hpending := rfl) <;> first | exact Or.inl rfl | exact Or.inr (by with_reducible rfl) | skip)

theorem State.viewSettle_only {s : State} {x1 : _} : Only 0x20002000020100000000000211b80010000000000170000000000108000000000001000000000002010041300000400000000100000000000002000000000020000000800004000008000006a81e0e s (State.viewSettle s x1) := by
  unfold State.viewSettle
  repeat' first
    | with_reducible assumption
    | decide
    | with_reducible exact Only.refl _ _
    | with_reducible apply Only.then State.setSes_only
    | with_reducible apply Only.then State.viewPose_only
    | with_reducible apply Only.foldl
    | with_reducible apply Only.foldl1
    | intro _ _ _
    | split
    | dsimp only

theorem State.takeRelocs_only {s : State} {x1 : _} : Only 0x20002000020100000000000211b80010000000000100000000000008000000000001000000000002010041300000400000000100000000000002000000000020000000800004000008000006880e0e s (State.takeRelocs s x1) := by
  induction x1 generalizing s with
  | zero =>
    unfold State.takeRelocs
    repeat' first
      | decide
      | with_reducible exact Only.refl _ _
      | with_reducible apply Only.then State.relocRecord_only
      | split
      | dsimp only
      | (simp only [Only.lit]; with_reducible apply Only.upd (hpending := rfl) <;> first | exact Or.inl rfl | exact Or.inr (by with_reducible rfl) | skip)
  | succ n ih =>
    unfold State.takeRelocs
    repeat' first
      | decide
      | with_reducible exact Only.refl _ _
      | with_reducible apply Only.then ih
      | with_reducible apply Only.then State.relocRecord_only
      | split
      | dsimp only
      | (simp only [Only.lit]; with_reducible apply Only.upd (hpending := rfl) <;> first | exact Or.inl rfl | exact Or.inr (by with_reducible rfl) | skip)

theorem State.klnSettle_only {s : State} : Only 0x20002000020100000000000211b80010000000000170010000000108000000000001000000000002010041300000400000000100000000000002000000000020000000800004000008000006a81e0e s (State.klnSettle s) := by
  unfold State.klnSettle
  repeat' first
    | with_reducible assumption
    | decide
    | with_reducible exact Only.refl _ _
    | with_reducible apply Only.then State.viewSettle_only
    | with_reducible apply Only.then State.jobSettle_only
    | with_reducible apply Only.then State.noKilns_only
    | with_reducible apply Only.then State.startPasses_only
    | with_reducible apply Only.then State.takeRelocs_only
    | with_reducible apply Only.foldl
    | with_reducible apply Only.foldl1
    | intro _ _ _
    | dsimp only

theorem State.markSeen_only {s : State} {x1 : _} {x2 : _} {x3 : _} {x4 : _} : Only 0x10041300000000000000000000000000000000000000000000000000000000000000000080002 s (State.markSeen s x1 x2 x3 x4) := by
  unfold State.markSeen
  repeat' first
    | with_reducible assumption
    | decide
    | with_reducible exact Only.refl _ _
    | with_reducible apply Only.then State.wrNum_only
    | with_reducible apply Only.then State.touchBlock_only
    | with_reducible apply Only.foldl
    | with_reducible apply Only.foldl1
    | intro _ _ _
    | dsimp only

theorem State.writePlanes_only {s : State} {x1 : _} : Only 0x10041300000000000000000000000000000000000000000000000000000000000000000080002 s (State.writePlanes s x1).1 := by
  unfold State.writePlanes
  repeat' first
    | with_reducible assumption
    | decide
    | with_reducible exact Only.refl _ _
    | with_reducible apply Only.then State.wrList_only
    | with_reducible apply Only.foldl
    | with_reducible apply Only.foldl1
    | intro _ _ _
    | split
    | dsimp only

theorem activeSetUpdate_only {x0 : _} {s : State} : Only 0x2000200000010000000002020038001000000000010000500000000800000000000100000000000200c000040000400000000100000000000002000000000020000000800004000008000006980a08 s (activeSetUpdate x0 s) := by
  unfold activeSetUpdate
  repeat' first
    | with_reducible assumption
    | decide
    | with_reducible exact Only.refl _ _
    | with_reducible apply Only.then State.askPage_only
    | with_reducible apply Only.then State.addPoison_only
    | with_reducible apply Only.then State.syncMap_only
    | with_reducible apply Only.then State.setKmap_only
    | with_reducible apply Only.then State.fetchPage_only
    | with_reducible apply Only.foldl
    | with_reducible apply Only.foldl1
    | intro _ _ _
    | split
    | dsimp only

theorem blockEvict_only {x0 : _} {s : State} : Only 0x5000000000000000000000000000000000010041300000000000000000000000000000000000000000000000000000000000000000880002 s (blockEvict x0 s) := by
  unfold blockEvict
  repeat' first
    | decide
    | with_reducible exact Only.refl _ _
    | with_reducible apply Only.then State.wrNum_only
    | with_reducible apply Only.then State.copyPage_only
    | with_reducible apply Only.then State.syncMap_only
    | with_reducible apply Only.then State.setKmap_only
    | split
    | dsimp only

theorem blockLoadDone_only {x0 : _} {x1 : _} {s : State} : Only 0x5000000000000000000000000000000000010041300000000000000000000000000000000000000000000000000000000000000000880002 s (blockLoadDone x0 x1 s) := by
  unfold blockLoadDone
  repeat' first
    | decide
    | with_reducible exact Only.refl _ _
    | with_reducible apply Only.then State.copyPage_only
    | with_reducible apply Only.then State.setKmap_only
    | with_reducible apply Only.then State.startPasses_only
    | with_reducible apply Only.then State.syncMap_only
    | split
    | dsimp only
    | (simp only [Only.lit]; with_reducible apply Only.upd (hpending := rfl) <;> first | exact Or.inl rfl | exact Or.inr (by with_reducible rfl) | skip)

theorem kilnBackwardDone_only {x0 : _} {s : State} : Only 0x800000 s (kilnBackwardDone x0 s) := by
  unfold kilnBackwardDone
  repeat' first
    | decide
    | with_reducible exact Only.refl _ _
    | with_reducible apply Only.then State.dropPass_only
    | with_reducible apply Only.then State.startPasses_only
    | with_reducible apply Only.then State.setKmap_only
    | split
    | dsimp only

theorem kilnBinningDone_only {x0 : _} {s : State} : Only 0x20002000000100000000000200380010000000000100000000000208000000000001000000000002000000000000400000000100000000000002000000000020000000800004000008000004800a08 s (kilnBinningDone x0 s) := by
  unfold kilnBinningDone
  repeat' first
    | decide
    | with_reducible exact Only.refl _ _
    | with_reducible apply Only.then State.eventIf_only
    | with_reducible apply Only.then State.setPass_only
    | with_reducible apply Only.then State.setKmap_only
    | with_reducible apply Only.then State.startPasses_only
    | with_reducible apply Only.then (State.addSat_only ?_)
    | split
    | dsimp only

theorem kilnCommit_only {x0 : _} {s : State} : Only 0x20002000020100000000000211b8001000000000010000f000000208000000000001000000000002010041300000400000000100000000000002000000000020000000800004000008000006880e0e s (kilnCommit x0 s) := by
  unfold kilnCommit
  repeat' first
    | decide
    | with_reducible exact Only.refl _ _
    | with_reducible apply Only.then State.applyGrads_only
    | with_reducible apply Only.then State.markSeen_only
    | with_reducible apply Only.then State.densifyMap_only
    | with_reducible apply Only.then State.eventIf_only
    | with_reducible apply Only.then State.advanceEpoch_only
    | with_reducible apply Only.then State.afterCommit_only
    | split
    | dsimp only

theorem State.failPass_only {s : State} {x1 : _} : Only 0x20002000020100000000000211b80010000000000170010000000108000000000001000000000002010041300000400000000100000000000002000000000020000000800004000008000006881e0e s (State.failPass s x1) := by
  unfold State.failPass
  repeat' first
    | with_reducible assumption
    | decide
    | with_reducible exact Only.refl _ _
    | with_reducible apply Only.then State.startPasses_only
    | with_reducible apply Only.then State.viewRecord_only
    | with_reducible apply Only.then State.dropPass_only
    | with_reducible apply Only.then State.relocRecord_only
    | with_reducible apply Only.then State.refRecord_only
    | with_reducible apply Only.then State.setKmap_only
    | with_reducible apply Only.foldl
    | with_reducible apply Only.foldl1
    | intro _ _ _
    | split
    | dsimp only
    | (simp only [Only.lit]; with_reducible apply Only.upd (hpending := rfl) <;> first | exact Or.inl rfl | exact Or.inr (by with_reducible rfl) | skip)

theorem kilnCompositingDone_only {x0 : _} {s : State} : Only 0x20002000020100000000000211b80110000000000170010000000168000000000001000000000002010041300000400000000100000000000002000000000020000000800004000008000006881e0e s (kilnCompositingDone x0 s) := by
  unfold kilnCompositingDone
  repeat' first
    | decide
    | with_reducible exact Only.refl _ _
    | with_reducible apply Only.then State.poisonTask_only
    | with_reducible apply Only.then State.failPass_only
    | with_reducible apply Only.then State.writePlanes_only
    | with_reducible apply Only.then (State.addPair_only ?_ ?_)
    | with_reducible apply Only.then State.viewRecord_only
    | with_reducible apply Only.then State.dropPass_only
    | with_reducible apply Only.then State.startPasses_only
    | with_reducible apply Only.then State.setPass_only
    | split
    | dsimp only

theorem kilnRelocDone_only {s : State} : Only 0x20002000020100000000000211b80110000000000170010000000108000000000001000000000002010041300000400000000100000000000002000000000020000000800004000008000006881e0e s (kilnRelocDone s) := by
  unfold kilnRelocDone
  repeat' first
    | decide
    | with_reducible exact Only.refl _ _
    | with_reducible apply Only.then State.poisonTask_only
    | with_reducible apply Only.then State.failPass_only
    | with_reducible apply Only.then State.startPasses_only
    | with_reducible apply Only.then State.relocRecord_only
    | with_reducible apply Only.then State.dropPass_only
    | split
    | dsimp only

theorem refineJobDone_only {x0 : _} {s : State} : Only 0x20002000020100000000000211b80010000000000100010000000108000000000001000000000002010041300000400000000100000000000002000000000020000000800004000008000006881e0e s (refineJobDone x0 s) := by
  unfold refineJobDone
  repeat' first
    | decide
    | with_reducible exact Only.refl _ _
    | with_reducible apply Only.then State.startPasses_only
    | with_reducible apply Only.then State.startJob_only
    | with_reducible apply Only.then State.refRecord_only
    | with_reducible apply Only.then State.setKmap_only
    | split
    | dsimp only

theorem viewPassDeadline_only {x0 : _} {s : State} : Only 0x20002000020100000000000211b80010000000000170000000000108000000000001000000000002010041300000400000000100000000000002000000000020000000800004000008000006881e0e s (viewPassDeadline x0 s) := by
  unfold viewPassDeadline
  repeat' first
    | decide
    | with_reducible exact Only.refl _ _
    | with_reducible apply Only.then State.startPasses_only
    | with_reducible apply Only.then State.skipPass_only
    | with_reducible apply Only.then State.setPass_only
    | split
    | dsimp only

/-! ## Commands -/

theorem execBlockEvict_only {x0 : _} {s : State} {t : State} (h : execBlockEvict x0 s = .next t) : Only 0x5000000000000000000000000000000000010041300000000000000000000000000000000000000000000000000000000000000000880002 s t := by
  simp only [execBlockEvict, done, whenUp, whenOn] at h
  injection h with h
  subst h
  repeat' first
    | decide
    | with_reducible exact Only.refl _ _
    | with_reducible apply Only.then blockEvict_only
    | split

theorem execKilnCommit_only {x0 : _} {s : State} {t : State} (h : execKilnCommit x0 s = .next t) : Only 0x20002000020100000000000211b8001000000000010000f000000208000000000001000000000002010041300000400000000100000000000002000000000020000000800004000008000006880e0e s t := by
  simp only [execKilnCommit, done, whenUp, whenOn] at h
  injection h with h
  subst h
  repeat' first
    | decide
    | with_reducible exact Only.refl _ _
    | with_reducible apply Only.then kilnCommit_only
    | split

theorem execBlockLoadDone_only {x0 : _} {x1 : _} {s : State} {t : State} (h : execBlockLoadDone x0 x1 s = .next t) : Only 0x5000000000000000000000000000000000010041300000000000000000000000000000000000000000000000000000000000000000880002 s t := by
  simp only [execBlockLoadDone, done, whenUp, whenOn] at h
  injection h with h
  subst h
  repeat' first
    | decide
    | with_reducible exact Only.refl _ _
    | with_reducible apply Only.then blockLoadDone_only
    | split

theorem execKilnBinningDone_only {x0 : _} {s : State} {t : State} (h : execKilnBinningDone x0 s = .next t) : Only 0x20002000000100000000000200380010000000000100000000000208000000000001000000000002000000000000400000000100000000000002000000000020000000800004000008000004800a08 s t := by
  simp only [execKilnBinningDone, done, whenUp, whenOn] at h
  injection h with h
  subst h
  repeat' first
    | decide
    | with_reducible exact Only.refl _ _
    | with_reducible apply Only.then kilnBinningDone_only
    | split

theorem execKilnCompositingDone_only {x0 : _} {s : State} {t : State} (h : execKilnCompositingDone x0 s = .next t) : Only 0x20002000020100000000000211b80110000000000170010000000168000000000001000000000002010041300000400000000100000000000002000000000020000000800004000008000006881e0e s t := by
  simp only [execKilnCompositingDone, done, whenUp, whenOn] at h
  injection h with h
  subst h
  repeat' first
    | decide
    | with_reducible exact Only.refl _ _
    | with_reducible apply Only.then kilnCompositingDone_only
    | split

theorem execActiveSetUpdate_only {x0 : _} {s : State} {t : State} (h : execActiveSetUpdate x0 s = .next t) : Only 0x2000200000010000000002020038001000000000010000500000000800000000000100000000000200c000040000400000000100000000000002000000000020000000800004000008000006980a08 s t := by
  simp only [execActiveSetUpdate, done, whenUp, whenOn] at h
  injection h with h
  subst h
  repeat' first
    | decide
    | with_reducible exact Only.refl _ _
    | with_reducible apply Only.then activeSetUpdate_only
    | split

theorem execViewPassDeadline_only {x0 : _} {s : State} {t : State} (h : execViewPassDeadline x0 s = .next t) : Only 0x20002000020100000000000211b80010000000000170000000000108000000000001000000000002010041300000400000000100000000000002000000000020000000800004000008000006881e0e s t := by
  simp only [execViewPassDeadline, done, whenUp, whenOn] at h
  injection h with h
  subst h
  repeat' first
    | decide
    | with_reducible exact Only.refl _ _
    | with_reducible apply Only.then viewPassDeadline_only
    | split

theorem execKilnRelocDone_only {s : State} {t : State} (h : execKilnRelocDone s = .next t) : Only 0x20002000020100000000000211b80110000000000170010000000108000000000001000000000002010041300000400000000100000000000002000000000020000000800004000008000006881e0e s t := by
  simp only [execKilnRelocDone, done, whenUp, whenOn] at h
  injection h with h
  subst h
  repeat' first
    | decide
    | with_reducible exact Only.refl _ _
    | with_reducible apply Only.then kilnRelocDone_only
    | split

theorem execKilnBackwardDone_only {x0 : _} {s : State} {t : State} (h : execKilnBackwardDone x0 s = .next t) : Only 0x800000 s t := by
  simp only [execKilnBackwardDone, done, whenUp, whenOn] at h
  injection h with h
  subst h
  repeat' first
    | decide
    | with_reducible exact Only.refl _ _
    | with_reducible apply Only.then kilnBackwardDone_only
    | split

theorem execRefineJobDone_only {x0 : _} {s : State} {t : State} (h : execRefineJobDone x0 s = .next t) : Only 0x20002000020100000000000211b80010000000000100010000000108000000000001000000000002010041300000400000000100000000000002000000000020000000800004000008000006881e0e s t := by
  simp only [execRefineJobDone, done, whenUp, whenOn] at h
  injection h with h
  subst h
  repeat' first
    | decide
    | with_reducible exact Only.refl _ _
    | with_reducible apply Only.then refineJobDone_only
    | split

end Sys2Proof.Machine
end

