-- ==== Sys2Proof/Laws/BoundCask.lean ====
section
/-!
SUPPORT. What each function of Machine/Cask.lean can change at most.
-/

namespace Sys2Proof.Machine
open Sys2Proof Sys2Proof.Safety

theorem State.setHdr_only {s : State} {x1 : _} {x2 : _} {x3 : _} {x4 : _} : Only 0x10041300000000000000000000000000000000000000000000000000000000000000000080002 s (State.setHdr s x1 x2 x3 x4) := by
  unfold State.setHdr
  repeat' first
    | decide
    | with_reducible exact Only.refl _ _
    | with_reducible apply Only.then State.wrNum_only

theorem State.addHdr_only {s : State} {x1 : _} {x2 : _} {x3 : _} {x4 : _} : Only 0x10041300000000000000000000000000000000000000000000000000000000000000000080002 s (State.addHdr s x1 x2 x3 x4) := by
  unfold State.addHdr
  repeat' first
    | decide
    | with_reducible exact Only.refl _ _
    | with_reducible apply Only.then State.setHdr_only

theorem State.addWalk_only {s : State} {x1 : _} : Only 0x1000000 s (State.addWalk s x1) := by
  unfold State.addWalk
  repeat' first
    | decide
    | with_reducible exact Only.refl _ _
    | dsimp only
    | (simp only [Only.lit]; with_reducible apply Only.upd (hpending := rfl) <;> first | exact Or.inl rfl | exact Or.inr (by with_reducible rfl) | skip)

theorem State.allocNode_only {s : State} {x1 : _} {t : State} {n : _} (h : State.allocNode s x1 = some (n, t)) : Only 0x10041300000000000000000000000000000000000000000000000000000000000000000080002 s t := by
  unfold State.allocNode at h
  dsimp only at h
  repeat' split at h
  all_goals first | cases h | skip
  all_goals
    repeat' first
      | decide
      | with_reducible exact Only.refl _ _
      | with_reducible apply Only.then State.setHdr_only
      | split
      | dsimp only

theorem State.answerSlot_only {s : State} {x1 : _} {x2 : _} {x3 : _} : Only 0x4002800 s (State.answerSlot s x1 x2 x3) := by
  unfold State.answerSlot
  repeat' first
    | decide
    | with_reducible exact Only.refl _ _
    | with_reducible apply Only.then State.irq_only
    | split
    | dsimp only
    | (simp only [Only.lit]; with_reducible apply Only.upd (hpending := rfl) <;> first | exact Or.inl rfl | exact Or.inr (by with_reducible rfl) | skip)

theorem State.nodeWr_only {s : State} {x1 : _} {x2 : _} {x3 : _} : Only 0x10041300000000000000000000000000000000000000000000000000000000000000001080002 s (State.nodeWr s x1 x2 x3) := by
  unfold State.nodeWr
  repeat' first
    | decide
    | with_reducible exact Only.refl _ _
    | dsimp only
    | (simp only [Only.lit]; with_reducible apply Only.upd (hpending := rfl) <;> first | exact Or.inl rfl | exact Or.inr (by with_reducible rfl) | skip)
    | with_reducible apply Only.then State.wrList_only

theorem State.tombstone_only {s : State} {x1 : _} {x2 : _} {x3 : _} : Only 0x10041300000000000000000000000000000000000000000000000000000000000000001080002 s (State.tombstone s x1 x2 x3) := by
  unfold State.tombstone
  repeat' first
    | decide
    | with_reducible exact Only.refl _ _
    | with_reducible apply Only.then State.nodeWr_only
    | with_reducible apply Only.then State.addHdr_only
    | dsimp only

theorem State.noteDangling_only {s : State} {x1 : _} {x2 : _} : Only 0x20002000000100000000000200380010000000002100000000000008000000000001000000000002000000000000400000000100000000000002000000000020000000800004000008000004000a08 s (State.noteDangling s x1 x2) := by
  unfold State.noteDangling
  repeat' first
    | decide
    | with_reducible exact Only.refl _ _
    | with_reducible apply Only.then State.event_only
    | with_reducible apply Only.then (State.addSat_only ?_)
    | split

theorem State.locPut_only {s : State} {x1 : _} {x2 : _} {x3 : _} {x4 : _} : Only 0x10041300000000000000000000000000000000000000000000000000000000000000000080002 s (State.locPut s x1 x2 x3 x4) := by
  unfold State.locPut
  repeat' first
    | decide
    | with_reducible exact Only.refl _ _
    | with_reducible apply Only.then State.wrList_only
    | split
    | dsimp only

theorem State.putEntry_only {s : State} {x1 : _} {x2 : _} {x3 : _} {x4 : _} {x5 : _} {x6 : _} {x7 : _} {x8 : _} : Only 0x10041300000000000000000000000000000000000000000000000000000000000000001080002 s (State.putEntry s x1 x2 x3 x4 x5 x6 x7 x8) := by
  unfold State.putEntry
  repeat' first
    | decide
    | with_reducible exact Only.refl _ _
    | with_reducible apply Only.then State.nodeWr_only
    | with_reducible apply Only.then State.wrList_only
    | with_reducible apply Only.then State.addHdr_only
    | with_reducible apply Only.then State.locPut_only
    | split
    | dsimp only

theorem State.backEdge_only {s : State} {x1 : _} {x2 : _} {x3 : _} {x4 : _} {x5 : _} : Only 0x10041300000000000000000000000000000000000000000000000000000000000000001080002 s (State.backEdge s x1 x2 x3 x4 x5) := by
  unfold State.backEdge
  repeat' first
    | decide
    | with_reducible exact Only.refl _ _
    | with_reducible apply Only.then State.nodeWr_only
    | split
    | dsimp only

theorem State.newNode_only {s : State} {x1 : _} {x2 : _} {x3 : _} {x4 : _} {x5 : _} {x6 : _} {x7 : _} : Only 0x4000000000000000000000000000000000000000000000010041300000000000000000000000000000000000000000000000000000000000000001080002 s (State.newNode s x1 x2 x3 x4 x5 x6 x7) := by
  unfold State.newNode
  repeat' first
    | with_reducible assumption
    | decide
    | with_reducible exact Only.refl _ _
    | with_reducible apply Only.then State.putEntry_only
    | with_reducible apply Only.then State.backEdge_only
    | with_reducible apply Only.then State.addHdr_only
    | with_reducible apply Only.then State.wrList_only
    | with_reducible apply Only.then (State.addWrap_only ?_)
    | with_reducible apply Only.foldl
    | with_reducible apply Only.foldl1
    | intro _ _ _
    | split
    | dsimp only

theorem State.insertEntry_only {s : State} {x1 : _} {x2 : _} {x3 : _} {x4 : _} : Only 0x20002000000100000000000200380010004000002100000000000008000000000001000000000002010041300000400000000100000000000002000000000020000000800004000008000005080a0a s (State.insertEntry s x1 x2 x3 x4).1 := by
  unfold State.insertEntry
  repeat' first
    | decide
    | with_reducible exact Only.refl _ _
    | (with_reducible apply Only.then (State.allocNode_only (by assumption)))
    | with_reducible apply Only.then State.noteDangling_only
    | with_reducible apply Only.then State.putEntry_only
    | with_reducible apply Only.then State.newNode_only
    | split
    | dsimp only

theorem State.syncIdx_only {s : State} {x1 : _} : Only 0x1b000000000000000000000000000000000000000000000000000000000000000000000000000000000000000000000000000000000000000000000000000 s (State.syncIdx s x1) := by
  unfold State.syncIdx
  repeat' first
    | decide
    | with_reducible exact Only.refl _ _
    | with_reducible apply Only.then (State.setPair_only ?_ ?_)
    | dsimp only

theorem State.applyChange_only {s : State} {x1 : _} {x2 : _} {x3 : _} : Only 0x2000200000010000000000020038001005f000003100000000000008000000000001000000000002010041300000400000000100000000000002000000000020000000800004000008000005080a0a s (State.applyChange s x1 x2 x3).1 := by
  unfold State.applyChange
  repeat' first
    | decide
    | with_reducible exact Only.refl _ _
    | with_reducible apply Only.then (State.addSat_only ?_)
    | with_reducible apply Only.then State.event_only
    | with_reducible apply Only.then (State.addWrap_only ?_)
    | with_reducible apply Only.then State.tombstone_only
    | with_reducible apply Only.then State.insertEntry_only
    | with_reducible apply Only.then State.syncIdx_only
    | split
    | dsimp only

theorem State.syncCaskDegraded_only {s : State} : Only 0x20002000000100000000000200380010000000000180000000000008000000000001000000000002000000000000400000000100000000000002000000000020000000800004000008000004000a08 s (State.syncCaskDegraded s) := by
  unfold State.syncCaskDegraded
  repeat' first
    | decide
    | with_reducible exact Only.refl _ _
    | with_reducible apply Only.then (State.setB_only ?_)
    | with_reducible apply Only.then State.event_only
    | split
    | dsimp only

theorem State.emptyShard_only {s : State} {x1 : _} {x2 : _} : Only 0x10041300000000000000000000000000000000000000000000000000000000000000000080002 s (State.emptyShard s x1 x2) := by
  unfold State.emptyShard
  repeat' first
    | decide
    | with_reducible exact Only.refl _ _
    | with_reducible apply Only.then State.wrList_only
    | split
    | dsimp only
    | (simp only [Only.lit]; with_reducible apply Only.upd (hpending := rfl) <;> first | exact Or.inl rfl | exact Or.inr (by with_reducible rfl) | exact Or.inr ⟨rfl, Memory.wf_filter _⟩ | skip)

theorem State.openShard_only {s : State} {x1 : _} {x2 : _} : Only 0x30000000000000000000000000000000000000000000000000000001004130000000000000000000000000000000000000000000000000000000000000000c080a0a s (State.openShard s x1 x2) := by
  unfold State.openShard
  repeat' first
    | decide
    | with_reducible exact Only.refl _ _
    | with_reducible apply Only.then State.warnOpen_only
    | with_reducible apply Only.then State.emptyShard_only
    | split
    | dsimp only

theorem State.syncShard_only {s : State} {x1 : _} : Only 0x20000000000000000000000000000000000000000000000000000000000000000000000000000000000000000000000000000000000000000000000000000 s (State.syncShard s x1) := by
  unfold State.syncShard
  repeat' first
    | decide
    | with_reducible exact Only.refl _ _
    | with_reducible apply Only.then (State.setF_only ?_)
    | split
    | dsimp only

theorem State.openIdx_only {s : State} {x1 : _} : Only 0x30000003f00000000000000000000000000000000000000000000001004130000000000000000000000000000000000000000000000000000000000000000d080a0a s (State.openIdx s x1) := by
  unfold State.openIdx
  repeat' first
    | decide
    | with_reducible exact Only.refl _ _
    | with_reducible apply Only.then State.openShard_only
    | with_reducible apply Only.then (State.setF_only ?_)
    | with_reducible apply Only.then State.syncIdx_only
    | with_reducible apply Only.then State.syncShard_only
    | split
    | dsimp only
    | (simp only [Only.lit]; with_reducible apply Only.upd (hpending := rfl) <;> first | exact Or.inl rfl | exact Or.inr (by with_reducible rfl) | skip)

theorem State.openIdxs_only {s : State} : Only 0x30000003f00000000000000000000000000000000000000000000001004130000000000000000000000000000000000000000000000000000000000000000d080a0a s (State.openIdxs s) := by
  unfold State.openIdxs
  repeat' first
    | with_reducible assumption
    | decide
    | with_reducible exact Only.refl _ _
    | with_reducible apply Only.then State.openIdx_only
    | with_reducible apply Only.foldl
    | with_reducible apply Only.foldl1
    | intro _ _ _
    | split
    | dsimp only

theorem State.setQueue_only {s : State} {x1 : _} {x2 : _} : Only 0x1000000 s (State.setQueue s x1 x2) := by
  unfold State.setQueue
  repeat' first
    | decide
    | with_reducible exact Only.refl _ _
    | dsimp only
    | (simp only [Only.lit]; with_reducible apply Only.upd (hpending := rfl) <;> first | exact Or.inl rfl | exact Or.inr (by with_reducible rfl) | skip)

theorem State.writeRes_only {s : State} {x1 : _} {x2 : _} {x3 : _} : Only 0x10041300000000000000000000000000000000000000000000000000000000000000000080002 s (State.writeRes s x1 x2 x3) := by
  unfold State.writeRes
  repeat' first
    | decide
    | with_reducible exact Only.refl _ _
    | with_reducible apply Only.then State.wrList_only

theorem State.overrunRes_only {s : State} {x1 : _} {x2 : _} : Only 0xc00000000000000000000000000000000000000010041300000000000000000000000000000000000000000000000000000000000000008080002 s (State.overrunRes s x1 x2) := by
  unfold State.overrunRes
  repeat' first
    | decide
    | with_reducible exact Only.refl _ _
    | with_reducible apply Only.then (State.addPair_only ?_ ?_)
    | with_reducible apply Only.then State.writeRes_only
    | with_reducible apply Only.then State.used_only
    | split
    | dsimp only

theorem State.flushQueue_only {s : State} {x1 : _} {x2 : _} : Only 0x20002000020100000000000211b80012000000000d0000000000000800000000000100000000000201004130000040000000010000000000000200000000002000000080000400000800000f080e0e s (State.flushQueue s x1 x2) := by
  induction x2 generalizing s x1 with
  | zero =>
    unfold State.flushQueue
    repeat' first
      | decide
      | with_reducible exact Only.refl _ _
      | with_reducible apply Only.then (State.addWrap_only ?_)
      | with_reducible apply Only.then State.advance_only
      | with_reducible apply Only.then State.overrunRes_only
      | with_reducible apply Only.then State.setQueue_only
      | split
      | dsimp only
  | succ n ih =>
    unfold State.flushQueue
    repeat' first
      | decide
      | with_reducible exact Only.refl _ _
      | with_reducible apply Only.then ih
      | with_reducible apply Only.then (State.addWrap_only ?_)
      | with_reducible apply Only.then State.advance_only
      | with_reducible apply Only.then State.overrunRes_only
      | with_reducible apply Only.then State.setQueue_only
      | split
      | dsimp only

theorem State.resDone_only {s : State} {x1 : _} {x2 : _} : Only 0x20002000020100000000000211b80012000000000d0000000000000800000000000100000000000201004130000040000000010000000000000200000000002000000080000400000800000f080e0e s (State.resDone s x1 x2) := by
  unfold State.resDone
  repeat' first
    | decide
    | with_reducible exact Only.refl _ _
    | with_reducible apply Only.then State.flushQueue_only
    | with_reducible apply Only.then State.setQueue_only
    | dsimp only

theorem State.giveResult_only {s : State} {x1 : _} {x2 : _} {x3 : _} : Only 0x20002000020100000000000211b80012000000018d0000000000000800000000000100000000000201004130000040000000010000000000000200000000002000000080000400000800000f082e0e s (State.giveResult s x1 x2 x3) := by
  unfold State.giveResult
  repeat' first
    | decide
    | with_reducible exact Only.refl _ _
    | with_reducible apply Only.then State.logHidden_only
    | with_reducible apply Only.then State.event_only
    | with_reducible apply Only.then (State.addSat_only ?_)
    | with_reducible apply Only.then (State.addPair_only ?_ ?_)
    | with_reducible apply Only.then State.resDone_only
    | with_reducible apply Only.then State.writeRes_only
    | with_reducible apply Only.then State.answerSlot_only
    | with_reducible apply Only.then State.sendMsg_only
    | split
    | dsimp only
    | (simp only [Only.lit]; with_reducible apply Only.upd (hpending := rfl) <;> first | exact Or.inl rfl | exact Or.inr (by with_reducible rfl) | skip)

theorem State.refuseQuery_only {s : State} {x1 : _} : Only 0x20002000020100000000000211b80012000000018d0000000000000800000000000100000000000201004130000040000000010000000000000200000000002000000080000400000800000f082e0e s (State.refuseQuery s x1) := by
  unfold State.refuseQuery
  repeat' first
    | decide
    | with_reducible exact Only.refl _ _
    | with_reducible apply Only.then State.giveResult_only
    | dsimp only

theorem State.finishQuery_only {s : State} {x1 : _} : Only 0x20002000020100000000000211b80012000000018d0000000000000800000000000100000000000201004130000040000000010000000000000200000000002000000080000400000800000f082e0e s (State.finishQuery s x1) := by
  unfold State.finishQuery
  repeat' first
    | with_reducible assumption
    | decide
    | with_reducible exact Only.refl _ _
    | with_reducible apply Only.then State.giveResult_only
    | with_reducible apply Only.foldl
    | with_reducible apply Only.foldl1
    | intro _ _ _
    | split
    | dsimp only

theorem State.mergeIfDone_only {s : State} {x1 : _} : Only 0x20002000020100000000000211b80012000000018d0000000000000800000000000100000000000201004130000040000000010000000000000200000000002000000080000400000800000f082e0e s (State.mergeIfDone s x1) := by
  unfold State.mergeIfDone
  repeat' first
    | decide
    | with_reducible exact Only.refl _ _
    | with_reducible apply Only.then State.finishQuery_only
    | split
    | dsimp only

theorem State.setCq_only {s : State} {x1 : _} : Only 0x1000000 s (State.setCq s x1) := by
  unfold State.setCq
  repeat' first
    | decide
    | with_reducible exact Only.refl _ _
    | split
    | dsimp only
    | (simp only [Only.lit]; with_reducible apply Only.upd (hpending := rfl) <;> first | exact Or.inl rfl | exact Or.inr (by with_reducible rfl) | skip)

theorem State.takeAnswer_only {s : State} {x1 : _} {x2 : _} : Only 0x20002000020100000000000211b80092000000038d0000000000000800000000000100000000000201004130000040000000010000000000000200000000002000000080000400000800000f082e0e s (State.takeAnswer s x1 x2) := by
  unfold State.takeAnswer
  repeat' first
    | decide
    | with_reducible exact Only.refl _ _
    | with_reducible apply Only.then (State.addSat_only ?_)
    | with_reducible apply Only.then State.mergeIfDone_only
    | with_reducible apply Only.then State.setCq_only
    | split
    | dsimp only

theorem State.askShards_only {s : State} {x1 : _} : Only 0x20002000020100000000000211b80092000000038d0000000000000800000000000100000000000201004130000040000000010000000000000200000000002000000080000400000800000f082e0e s (State.askShards s x1) := by
  unfold State.askShards
  repeat' first
    | with_reducible assumption
    | decide
    | with_reducible exact Only.refl _ _
    | with_reducible apply Only.then State.takeAnswer_only
    | with_reducible apply Only.then State.addWalk_only
    | with_reducible apply Only.then State.sendMsg_only
    | with_reducible apply Only.foldl
    | with_reducible apply Only.foldl1
    | intro _ _ _
    | split
    | dsimp only

theorem State.newQuery_only {s : State} {x1 : _} {x2 : _} {x3 : _} {x4 : _} {x5 : _} : Only 0x20002000020100000000000211b80092000000038d0000000000000800000000000100000000000201004130000040000000010000000000000200000000002000000080000400000800000f082e0e s (State.newQuery s x1 x2 x3 x4 x5) := by
  unfold State.newQuery
  repeat' first
    | decide
    | with_reducible exact Only.refl _ _
    | with_reducible apply Only.then State.askShards_only
    | with_reducible apply Only.then State.mergeIfDone_only
    | with_reducible apply Only.then State.refuseQuery_only
    | with_reducible apply Only.then State.sendMsg_only
    | with_reducible apply Only.then State.addWalk_only
    | split
    | dsimp only
    | (simp only [Only.lit]; with_reducible apply Only.upd (hpending := rfl) <;> first | exact Or.inl rfl | exact Or.inr (by with_reducible rfl) | skip)

theorem State.seeRequest_only {s : State} {x1 : _} : Only 0x20002000020100000000000211b80096000000038d0000000000000800000000000100000000000201004130000040000000010000000000000200000000002000000080000400000800000f082e0e s (State.seeRequest s x1) := by
  unfold State.seeRequest
  repeat' first
    | decide
    | with_reducible exact Only.refl _ _
    | with_reducible apply Only.then State.setQueue_only
    | with_reducible apply Only.then State.event_only
    | with_reducible apply Only.then (State.addSat_only ?_)
    | with_reducible apply Only.then State.flushQueue_only
    | with_reducible apply Only.then State.newQuery_only
    | split
    | dsimp only

theorem State.seeQueue_only {s : State} {x1 : _} {x2 : _} : Only 0x20002000020100000000000211b80096000000038d0000000000000800000000000100000000000201004130000040000000010000000000000200000000002000000080000400000800000f082e0e s (State.seeQueue s x1 x2) := by
  induction x2 generalizing s x1 with
  | zero =>
    unfold State.seeQueue
    repeat' first
      | decide
      | with_reducible exact Only.refl _ _
      | with_reducible apply Only.then State.seeRequest_only
      | split
      | dsimp only
  | succ n ih =>
    unfold State.seeQueue
    repeat' first
      | decide
      | with_reducible exact Only.refl _ _
      | with_reducible apply Only.then ih
      | with_reducible apply Only.then State.seeRequest_only
      | split
      | dsimp only

theorem State.passChanges_only {s : State} {x1 : _} {x2 : _} : Only 0x20002000020100000000000211b80012000000000d0000000000000800000000000100000000000201004130000040000000010000000000000200000000002000000080000400000800000f080e0e s (State.passChanges s x1 x2) := by
  induction x2 generalizing s x1 with
  | zero =>
    unfold State.passChanges
    repeat' first
      | decide
      | with_reducible exact Only.refl _ _
      | with_reducible apply Only.then State.event_only
      | with_reducible apply Only.then State.resDone_only
      | with_reducible apply Only.then State.setQueue_only
      | with_reducible apply Only.then State.used_only
      | with_reducible apply Only.then State.writeRes_only
      | split
      | dsimp only
  | succ n ih =>
    unfold State.passChanges
    repeat' first
      | decide
      | with_reducible exact Only.refl _ _
      | with_reducible apply Only.then ih
      | with_reducible apply Only.then State.event_only
      | with_reducible apply Only.then State.resDone_only
      | with_reducible apply Only.then State.setQueue_only
      | with_reducible apply Only.then State.used_only
      | with_reducible apply Only.then State.writeRes_only
      | split
      | dsimp only

theorem State.queueSettle_only {s : State} {x1 : _} : Only 0x20002000020100000000000211b80096000000038d0000000000000800000000000100000000000201004130000040000000010000000000000200000000002000000080000400000800000f082e0e s (State.queueSettle s x1) := by
  unfold State.queueSettle
  repeat' first
    | decide
    | with_reducible exact Only.refl _ _
    | with_reducible apply Only.then State.seeQueue_only
    | with_reducible apply Only.then State.passChanges_only
    | with_reducible apply Only.then (State.setF_only ?_)
    | split
    | dsimp only

theorem State.sendAnswer_only {s : State} {x1 : _} {x2 : _} : Only 0x20002000020100000000000211b80092000000038d0000000000000800000000000100000000000201004130000040000000010000000000000200000000002000000080000400000800000f082e0e s (State.sendAnswer s x1 x2) := by
  unfold State.sendAnswer
  repeat' first
    | decide
    | with_reducible exact Only.refl _ _
    | with_reducible apply Only.then State.takeAnswer_only
    | with_reducible apply Only.then State.sendMsg_only
    | split
    | dsimp only
    | (simp only [Only.lit]; with_reducible apply Only.upd (hpending := rfl) <;> first | exact Or.inl rfl | exact Or.inr (by with_reducible rfl) | skip)

theorem State.goneWalks_only {s : State} : Only 0x20002000020100000000000211b80092000000038d0000000000000800000000000100000000000201004130000040000000010000000000000200000000002000000080000400000800000f082e0e s (State.goneWalks s) := by
  unfold State.goneWalks
  repeat' first
    | with_reducible assumption
    | decide
    | with_reducible exact Only.refl _ _
    | with_reducible apply Only.then State.askShards_only
    | with_reducible apply Only.then State.sendAnswer_only
    | with_reducible apply Only.foldl
    | with_reducible apply Only.foldl1
    | intro _ _ _
    | split
    | dsimp only

theorem State.fetchAll_only {s : State} {x1 : _} : Only 0x2000200000010000000002020038001000000000010000000000000800000000000100000000000200c000040000400000000100000000000002000000000020000000800004000008000004180a08 s (State.fetchAll s x1) := by
  unfold State.fetchAll
  repeat' first
    | with_reducible assumption
    | decide
    | with_reducible exact Only.refl _ _
    | with_reducible apply Only.then State.fetchPage_only
    | with_reducible apply Only.foldl
    | with_reducible apply Only.foldl1
    | intro _ _ _
    | dsimp only

theorem State.setWalk_only {s : State} {x1 : _} : Only 0x1000000 s (State.setWalk s x1) := by
  unfold State.setWalk
  repeat' first
    | decide
    | with_reducible exact Only.refl _ _
    | split
    | dsimp only
    | (simp only [Only.lit]; with_reducible apply Only.upd (hpending := rfl) <;> first | exact Or.inl rfl | exact Or.inr (by with_reducible rfl) | skip)

theorem State.issue_only {s : State} {x1 : _} : Only 0x2000200000010000000002020038001000000000010000000000000800000000000100000000000200c000040000400000000100000000000002000000000020000000800004000008000005180a08 s (State.issue s x1) := by
  unfold State.issue
  repeat' first
    | decide
    | with_reducible exact Only.refl _ _
    | with_reducible apply Only.then State.fetchAll_only
    | with_reducible apply Only.then State.setWalk_only
    | split
    | dsimp only

theorem State.takeCtx_only {s : State} {x1 : _} {x2 : _} : Only 0x20002000020100000000020211b80092000000038d0000000000000800000000000100000000000201c04134000040000000010000000000000200000000002000000080000400000800000f182e0e s (State.takeCtx s x1 x2) := by
  unfold State.takeCtx
  repeat' first
    | decide
    | with_reducible exact Only.refl _ _
    | with_reducible apply Only.then State.askShards_only
    | with_reducible apply Only.then State.issue_only
    | split
    | dsimp only

theorem State.takeLoop_only {s : State} {x1 : _} : Only 0x20002000020100000000020211b80092000000038d0000000000000800000000000100000000000201c04134000040000000010000000000000200000000002000000080000400000800000f182e0e s (State.takeLoop s x1) := by
  induction x1 generalizing s with
  | zero =>
    unfold State.takeLoop
    repeat' first
      | decide
      | with_reducible exact Only.refl _ _
      | with_reducible apply Only.then State.takeCtx_only
      | split
      | dsimp only
  | succ n ih =>
    unfold State.takeLoop
    repeat' first
      | decide
      | with_reducible exact Only.refl _ _
      | with_reducible apply Only.then ih
      | with_reducible apply Only.then State.takeCtx_only
      | split
      | dsimp only

theorem State.syncCtx_only {s : State} : Only 0x80000000000000000000000000000000000000000000000000000000000000000000000000000000000000000000000000000000000000001000400 s (State.syncCtx s) := by
  unfold State.syncCtx
  repeat' first
    | with_reducible assumption
    | decide
    | with_reducible exact Only.refl _ _
    | with_reducible apply State.tele_only (hs := fun _ _ => ?_)
    | with_reducible apply Only.then (State.setF_only ?_)
    | dsimp only
    | (simp only [Only.lit]; with_reducible apply Only.upd (hpending := rfl) <;> first | exact Or.inl rfl | exact Or.inr (by with_reducible rfl) | skip)

theorem State.caskSettle_only {s : State} : Only 0x20002000020100000000020211b8009603f0000b8d8000000000000800000000000100000000000201c04134000040000000010000000000000200000000002000000080000400000800000f182e0e s (State.caskSettle s) := by
  unfold State.caskSettle
  repeat' first
    | with_reducible assumption
    | decide
    | with_reducible exact Only.refl _ _
    | with_reducible apply Only.then State.syncCaskDegraded_only
    | with_reducible apply Only.then State.openIdxs_only
    | with_reducible apply Only.then State.queueSettle_only
    | with_reducible apply Only.then State.goneWalks_only
    | with_reducible apply Only.then State.takeLoop_only
    | with_reducible apply Only.then State.syncCtx_only
    | with_reducible apply Only.foldl
    | with_reducible apply Only.foldl1
    | intro _ _ _
    | split
    | dsimp only
    | (simp only [Only.lit]; with_reducible apply Only.upd (hpending := rfl) <;> first | exact Or.inl rfl | exact Or.inr (by with_reducible rfl) | skip)

theorem State.giveChange_only {s : State} {x1 : _} {x2 : _} {x3 : _} {x4 : _} : Only 0x20002000020100000000000211b80012000000000d0000000000000800000000000100000000000201004130000040000000010000000000000200000000002000000080000400000800000f080e0e s (State.giveChange s x1 x2 x3 x4) := by
  unfold State.giveChange
  repeat' first
    | decide
    | with_reducible exact Only.refl _ _
    | with_reducible apply Only.then State.resDone_only
    | with_reducible apply Only.then State.writeRes_only
    | with_reducible apply Only.then State.sendMsg_only
    | split
    | dsimp only
    | (simp only [Only.lit]; with_reducible apply Only.upd (hpending := rfl) <;> first | exact Or.inl rfl | exact Or.inr (by with_reducible rfl) | skip)

theorem State.routeChange_only {s : State} {x1 : _} : Only 0x20002000020100000000000211b8011205f000003d0000000000000800000000000100000000000201004130000040000000010000000000000200000000002000000080000400000800000f080e0e s (State.routeChange s x1) := by
  unfold State.routeChange
  repeat' first
    | decide
    | with_reducible exact Only.refl _ _
    | with_reducible apply Only.then State.poisonTask_only
    | with_reducible apply Only.then State.used_only
    | with_reducible apply Only.then State.giveChange_only
    | with_reducible apply Only.then State.sendMsg_only
    | with_reducible apply Only.then State.applyChange_only
    | split
    | dsimp only
    | (simp only [Only.lit]; with_reducible apply Only.upd (hpending := rfl) <;> first | exact Or.inl rfl | exact Or.inr (by with_reducible rfl) | skip)

theorem State.caskMsg_only {s : State} {x1 : _} {x2 : _} : Only 0x20002000020100000000020211b8019607f0000bbd8000000000000800000000000100000000000201c04134000040000000010000000000000200000000002000000080000400000800000f182e0e s (State.caskMsg s x1 x2) := by
  unfold State.caskMsg
  repeat' first
    | decide
    | with_reducible exact Only.refl _ _
    | with_reducible apply Only.then State.caskSettle_only
    | with_reducible apply Only.then State.newQuery_only
    | with_reducible apply Only.then State.sendMsg_only
    | with_reducible apply Only.then State.addWalk_only
    | with_reducible apply Only.then State.takeAnswer_only
    | with_reducible apply Only.then State.giveResult_only
    | with_reducible apply Only.then State.applyChange_only
    | with_reducible apply Only.then State.used_only
    | with_reducible apply Only.then State.routeChange_only
    | with_reducible apply Only.then State.giveChange_only
    | split
    | dsimp only
    | (simp only [Only.lit]; with_reducible apply Only.upd (hpending := rfl) <;> first | exact Or.inl rfl | exact Or.inr (by with_reducible rfl) | skip)

theorem State.bumpShards_only {s : State} {x1 : _} : Only 0x20000000000000000000000000000000000000000000000000000000000000000000000000000000000000000000000000000000000000000000001000000 s (State.bumpShards s x1) := by
  unfold State.bumpShards
  repeat' first
    | with_reducible assumption
    | decide
    | with_reducible exact Only.refl _ _
    | with_reducible apply Only.then State.syncShard_only
    | with_reducible apply Only.foldl
    | with_reducible apply Only.foldl1
    | intro _ _ _
    | split
    | dsimp only
    | (simp only [Only.lit]; with_reducible apply Only.upd (hpending := rfl) <;> first | exact Or.inl rfl | exact Or.inr (by with_reducible rfl) | skip)

theorem State.caskMemberLost_only {s : State} {x1 : _} : Only 0x20002000020100000000000211b8019207f00003bd0000000000000800000000000100000000000201004130000040000000010000000000000200000000002000000080000400000800000f082e0e s (State.caskMemberLost s x1) := by
  unfold State.caskMemberLost
  repeat' first
    | with_reducible assumption
    | decide
    | with_reducible exact Only.refl _ _
    | with_reducible apply Only.then State.bumpShards_only
    | with_reducible apply Only.then State.askShards_only
    | with_reducible apply Only.then State.routeChange_only
    | with_reducible apply Only.then State.giveChange_only
    | with_reducible apply Only.foldl
    | with_reducible apply Only.foldl1
    | intro _ _ _
    | split
    | dsimp only
    | (simp only [Only.lit]; with_reducible apply Only.upd (hpending := rfl) <;> first | exact Or.inl rfl | exact Or.inr (by with_reducible rfl) | skip)

theorem State.caskNewMaster_only {s : State} : Only 0x6000000 s (State.caskNewMaster s) := by
  unfold State.caskNewMaster
  repeat' first
    | with_reducible assumption
    | decide
    | with_reducible exact Only.refl _ _
    | with_reducible apply Only.then State.sendMsg_only
    | with_reducible apply Only.foldl
    | with_reducible apply Only.foldl1
    | intro _ _ _
    | dsimp only

theorem State.locClear_only {s : State} {x1 : _} {x2 : _} {x3 : _} {x4 : _} : Only 0x10041300000000000000000000000000000000000000000000000000000000000000000080002 s (State.locClear s x1 x2 x3 x4) := by
  unfold State.locClear
  repeat' first
    | decide
    | with_reducible exact Only.refl _ _
    | with_reducible apply Only.then State.wrList_only
    | split
    | dsimp only

theorem State.freeTombs_only {s : State} {x1 : _} {x2 : _} : Only 0x10041300000000000000000000000000000000000000000000000000000000000000001080002 s (State.freeTombs s x1 x2) := by
  unfold State.freeTombs
  repeat' first
    | with_reducible assumption
    | decide
    | with_reducible exact Only.refl _ _
    | with_reducible apply Only.then State.locClear_only
    | with_reducible apply Only.then State.nodeWr_only
    | with_reducible apply Only.then State.addHdr_only
    | with_reducible apply Only.foldl
    | with_reducible apply Only.foldl1
    | intro _ _ _
    | split
    | dsimp only

theorem State.repairEdges_only {s : State} {x1 : _} {x2 : _} : Only 0x10041300000000000000000000000000000000000000000000000000000000000000001080002 s (State.repairEdges s x1 x2) := by
  unfold State.repairEdges
  repeat' first
    | with_reducible assumption
    | decide
    | with_reducible exact Only.refl _ _
    | with_reducible apply Only.then State.nodeWr_only
    | with_reducible apply Only.foldl
    | with_reducible apply Only.foldl1
    | intro _ _ _
    | split
    | dsimp only

theorem State.compactNode_only {s : State} {x1 : _} {x2 : _} : Only 0x4000000000000000000000000000000000000000000000010041300000000000000000000000000000000000000000000000000000000000000001080002 s (State.compactNode s x1 x2) := by
  unfold State.compactNode
  repeat' first
    | decide
    | with_reducible exact Only.refl _ _
    | with_reducible apply Only.then State.freeTombs_only
    | with_reducible apply Only.then State.nodeWr_only
    | with_reducible apply Only.then State.setHdr_only
    | with_reducible apply Only.then (State.setF_only ?_)
    | with_reducible apply Only.then State.repairEdges_only
    | split
    | dsimp only

theorem caskChange_only {x0 : _} {x1 : _} {s : State} : Only 0x20002000020100000000000211b8011205f000003d0000000000000800000000000100000000000201004130000040000000010000000000000200000000002000000080000400000800000f080e0e s (caskChange x0 x1 s) := by
  unfold caskChange
  repeat' first
    | decide
    | with_reducible exact Only.refl _ _
    | with_reducible apply Only.then State.setQueue_only
    | with_reducible apply Only.then State.routeChange_only
    | split
    | dsimp only
    | (simp only [Only.lit]; with_reducible apply Only.upd (hpending := rfl) <;> first | exact Or.inl rfl | exact Or.inr (by with_reducible rfl) | skip)

theorem caskCompactNode_only {x0 : _} {s : State} : Only 0x1f000000000000000000000000000000000000000000000010041300000000000000000000000000000000000000000000000000000000000000001080002 s (caskCompactNode x0 s) := by
  unfold caskCompactNode
  repeat' first
    | decide
    | with_reducible exact Only.refl _ _
    | with_reducible apply Only.then State.syncIdx_only
    | with_reducible apply Only.then State.compactNode_only
    | split
    | dsimp only
    | (simp only [Only.lit]; with_reducible apply Only.upd (hpending := rfl) <;> first | exact Or.inl rfl | exact Or.inr (by with_reducible rfl) | skip)

theorem caskQueryDeadline_only {x0 : _} {s : State} : Only 0x20002000020100000000000211b80092000000038d0000000000000800000000000100000000000201004130000040000000010000000000000200000000002000000080000400000800000f082e0e s (caskQueryDeadline x0 s) := by
  unfold caskQueryDeadline
  repeat' first
    | decide
    | with_reducible exact Only.refl _ _
    | with_reducible apply Only.then State.setWalk_only
    | with_reducible apply Only.then State.askShards_only
    | with_reducible apply Only.then State.sendAnswer_only
    | split
    | dsimp only

theorem State.failWalk_only {s : State} {x1 : _} : Only 0x20002000020100000000020211b8009603f0000b8d8000000000000800000000000100000000000201c04134000040000000010000000000000200000000002000000080000400000800000f182e0e s (State.failWalk s x1) := by
  unfold State.failWalk
  repeat' first
    | with_reducible assumption
    | decide
    | with_reducible exact Only.refl _ _
    | with_reducible apply Only.then State.caskSettle_only
    | with_reducible apply Only.then State.refuseQuery_only
    | with_reducible apply Only.then State.sendAnswer_only
    | with_reducible apply Only.foldl
    | with_reducible apply Only.foldl1
    | intro _ _ _
    | split
    | dsimp only

theorem caskQueryDone_only {x0 : _} {s : State} : Only 0x20002000020100000000020211b8019603f0000bcd8000000000000800000000000100000000000201c04134000040000000010000000000000200000000002000000080000400000800000f182e0e s (caskQueryDone x0 s) := by
  unfold caskQueryDone
  repeat' first
    | decide
    | with_reducible exact Only.refl _ _
    | with_reducible apply Only.then State.poisonTask_only
    | with_reducible apply Only.then State.failWalk_only
    | with_reducible apply Only.then State.fetchAll_only
    | with_reducible apply Only.then (State.addSat_only ?_)
    | with_reducible apply Only.then State.caskSettle_only
    | with_reducible apply Only.then State.sendAnswer_only
    | split
    | dsimp only

theorem nodeReadReturn_only {x0 : _} {x1 : _} {s : State} : Only 0x20002000020100000000020211b8019603f0000bad8000000000000800000000000100000000000201c04134000040000000010000000000000200000000002000000080000400000800000f182e0e s (nodeReadReturn x0 x1 s) := by
  unfold nodeReadReturn
  repeat' first
    | decide
    | with_reducible exact Only.refl _ _
    | with_reducible apply Only.then State.poisonTask_only
    | with_reducible apply Only.then State.failWalk_only
    | with_reducible apply Only.then State.event_only
    | with_reducible apply Only.then (State.addSat_only ?_)
    | with_reducible apply Only.then State.issue_only
    | split
    | dsimp only

theorem shardMergeTimeout_only {x0 : _} {s : State} : Only 0x20002000020100000000020211b8009603f0000b8d8000000000000800000000000100000000000201c04134000040000000010000000000000200000000002000000080000400000800000f182e0e s (shardMergeTimeout x0 s) := by
  unfold shardMergeTimeout
  repeat' first
    | decide
    | with_reducible exact Only.refl _ _
    | with_reducible apply Only.then State.caskSettle_only
    | with_reducible apply Only.then State.finishQuery_only
    | with_reducible apply Only.then State.setCq_only
    | split
    | dsimp only

/-! ## Commands -/

theorem execShardAnswerRx_only {x0 : _} {x1 : _} {s : State} {t : State} (h : execShardAnswerRx x0 x1 s = .next t) : Only 0x20002000020100000000020211b8009603f0000b8d8000000000000800000000000100000000000201c04134000040000000010000000000000200000000002000000080000400000800000f182e0e s t := by
  simp only [execShardAnswerRx, done, whenUp, whenOn] at h
  injection h with h
  subst h
  repeat' first
    | decide
    | with_reducible exact Only.refl _ _
    | with_reducible apply Only.then State.caskSettle_only
    | with_reducible apply Only.then State.takeAnswer_only
    | split

theorem execCaskQueryDone_only {x0 : _} {s : State} {t : State} (h : execCaskQueryDone x0 s = .next t) : Only 0x20002000020100000000020211b8019603f0000bcd8000000000000800000000000100000000000201c04134000040000000010000000000000200000000002000000080000400000800000f182e0e s t := by
  simp only [execCaskQueryDone, done, whenUp, whenOn] at h
  injection h with h
  subst h
  repeat' first
    | decide
    | with_reducible exact Only.refl _ _
    | with_reducible apply Only.then caskQueryDone_only
    | split

theorem execCaskDelete_only {x0 : _} {s : State} {t : State} (h : execCaskDelete x0 s = .next t) : Only 0x20002000020100000000000211b8011205f000003d0000000000000800000000000100000000000201004130000040000000010000000000000200000000002000000080000400000800000f080e0e s t := by
  simp only [execCaskDelete, done, whenUp, whenOn] at h
  injection h with h
  subst h
  repeat' first
    | decide
    | with_reducible exact Only.refl _ _
    | with_reducible apply Only.then caskChange_only
    | split

theorem execShardMergeTimeout_only {x0 : _} {s : State} {t : State} (h : execShardMergeTimeout x0 s = .next t) : Only 0x20002000020100000000020211b8009603f0000b8d8000000000000800000000000100000000000201c04134000040000000010000000000000200000000002000000080000400000800000f182e0e s t := by
  simp only [execShardMergeTimeout, done, whenUp, whenOn] at h
  injection h with h
  subst h
  repeat' first
    | decide
    | with_reducible exact Only.refl _ _
    | with_reducible apply Only.then shardMergeTimeout_only
    | split

theorem execNodeReadReturn_only {x0 : _} {x1 : _} {s : State} {t : State} (h : execNodeReadReturn x0 x1 s = .next t) : Only 0x20002000020100000000020211b8019603f0000bad8000000000000800000000000100000000000201c04134000040000000010000000000000200000000002000000080000400000800000f182e0e s t := by
  simp only [execNodeReadReturn, done, whenUp, whenOn] at h
  injection h with h
  subst h
  repeat' first
    | decide
    | with_reducible exact Only.refl _ _
    | with_reducible apply Only.then nodeReadReturn_only
    | split

theorem execCaskInsert_only {x0 : _} {s : State} {t : State} (h : execCaskInsert x0 s = .next t) : Only 0x20002000020100000000000211b8011205f000003d0000000000000800000000000100000000000201004130000040000000010000000000000200000000002000000080000400000800000f080e0e s t := by
  simp only [execCaskInsert, done, whenUp, whenOn] at h
  injection h with h
  subst h
  repeat' first
    | decide
    | with_reducible exact Only.refl _ _
    | with_reducible apply Only.then caskChange_only
    | split

theorem execCaskCompactNode_only {x0 : _} {s : State} {t : State} (h : execCaskCompactNode x0 s = .next t) : Only 0x1f000000000000000000000000000000000000000000000010041300000000000000000000000000000000000000000000000000000000000000001080002 s t := by
  simp only [execCaskCompactNode, done, whenUp, whenOn] at h
  injection h with h
  subst h
  repeat' first
    | decide
    | with_reducible exact Only.refl _ _
    | with_reducible apply Only.then caskCompactNode_only
    | split

theorem execCaskQueryDeadline_only {x0 : _} {s : State} {t : State} (h : execCaskQueryDeadline x0 s = .next t) : Only 0x20002000020100000000000211b80092000000038d0000000000000800000000000100000000000201004130000040000000010000000000000200000000002000000080000400000800000f082e0e s t := by
  simp only [execCaskQueryDeadline, done, whenUp, whenOn] at h
  injection h with h
  subst h
  repeat' first
    | decide
    | with_reducible exact Only.refl _ _
    | with_reducible apply Only.then caskQueryDeadline_only
    | split

theorem execCaskReplace_only {x0 : _} {s : State} {t : State} (h : execCaskReplace x0 s = .next t) : Only 0x20002000020100000000000211b8011205f000003d0000000000000800000000000100000000000201004130000040000000010000000000000200000000002000000080000400000800000f080e0e s t := by
  simp only [execCaskReplace, done, whenUp, whenOn] at h
  injection h with h
  subst h
  repeat' first
    | decide
    | with_reducible exact Only.refl _ _
    | with_reducible apply Only.then caskChange_only
    | split

end Sys2Proof.Machine
end

