-- ==== Sys2Proof/Laws/BoundDispatcher.lean ====
section
/-!
SUPPORT. What each function of Machine/Dispatcher.lean can change at most.
-/

namespace Sys2Proof.Machine
open Sys2Proof Sys2Proof.Safety

theorem State.fillNode_only {s : State} {x1 : _} {x2 : _} : Only 0x400 s (State.fillNode s x1 x2) := by
  induction x2 generalizing s x1 with
  | zero =>
    unfold State.fillNode
    repeat' first
      | decide
      | with_reducible exact Only.refl _ _
      | split
      | dsimp only
      | (simp only [Only.lit]; with_reducible apply Only.upd (hpending := rfl) <;> first | exact Or.inl rfl | exact Or.inr (by with_reducible rfl) | skip)
  | succ n ih =>
    unfold State.fillNode
    repeat' first
      | decide
      | with_reducible exact Only.refl _ _
      | with_reducible apply Only.then ih
      | split
      | dsimp only
      | (simp only [Only.lit]; with_reducible apply Only.upd (hpending := rfl) <;> first | exact Or.inl rfl | exact Or.inr (by with_reducible rfl) | skip)

theorem State.fillAll_only {s : State} : Only 0x400 s (State.fillAll s) := by
  unfold State.fillAll
  repeat' first
    | with_reducible assumption
    | decide
    | with_reducible exact Only.refl _ _
    | with_reducible apply Only.then State.fillNode_only
    | with_reducible apply Only.foldl
    | with_reducible apply Only.foldl1
    | intro _ _ _
    | dsimp only

theorem State.readyPass_only {s : State} : Only 0x400 s (State.readyPass s) := by
  unfold State.readyPass
  repeat' first
    | decide
    | with_reducible exact Only.refl _ _
    | dsimp only
    | (simp only [Only.lit]; with_reducible apply Only.upd (hpending := rfl) <;> first | exact Or.inl rfl | exact Or.inr (by with_reducible rfl) | skip)

theorem State.makeAdvances_only {s : State} {x1 : _} {x2 : _} : Only 0x20002000020100000000000211b80010000000000100000000000008000000000001000000000002000000000000400000000100000000000002000000000020000000800004000008000006080e0c s (State.makeAdvances s x1 x2) := by
  unfold State.makeAdvances
  repeat' first
    | with_reducible assumption
    | decide
    | with_reducible exact Only.refl _ _
    | with_reducible apply Only.then State.advanceRaw_only
    | with_reducible apply Only.foldl
    | with_reducible apply Only.foldl1
    | intro _ _ _
    | dsimp only

theorem State.issueOne_only {s : State} {x1 : _} : Only 0x20002000020100000000000211b80010000000000100000000000008000000000001000000000002000000000000400000000100000000000002000000000020000000800004000008000006080e0c s (State.issueOne s x1) := by
  unfold State.issueOne
  repeat' first
    | decide
    | with_reducible exact Only.refl _ _
    | with_reducible apply Only.then State.makeAdvances_only
    | split
    | dsimp only
    | (simp only [Only.lit]; with_reducible apply Only.upd (hpending := rfl) <;> first | exact Or.inl rfl | exact Or.inr (by with_reducible rfl) | skip)

theorem State.issueAll_only {s : State} {x1 : _} : Only 0x20002000020100000000000211b80010000000000100000000000008000000000001000000000002000000000000400000000100000000000002000000000020000000800004000008000006080e0c s (State.issueAll s x1).1 := by
  induction x1 generalizing s with
  | zero =>
    unfold State.issueAll
    repeat' first
      | decide
      | with_reducible exact Only.refl _ _
      | with_reducible apply Only.then State.issueOne_only
      | split
      | dsimp only
  | succ n ih =>
    unfold State.issueAll
    repeat' first
      | decide
      | with_reducible exact Only.refl _ _
      | with_reducible apply Only.then ih
      | with_reducible apply Only.then State.issueOne_only
      | split
      | dsimp only

theorem State.syncDsp_only {s : State} : Only 0x68000000000000000000000000000000000000000000000000000000000000000000000000000000000000000000000000000000000000000000000000000400 s (State.syncDsp s) := by
  unfold State.syncDsp
  repeat' first
    | with_reducible assumption
    | decide
    | with_reducible exact Only.refl _ _
    | with_reducible apply State.tele_only (hs := fun _ _ => ?_)
    | with_reducible apply Only.then (State.setF_only ?_)
    | dsimp only
    | (simp only [Only.lit]; with_reducible apply Only.upd (hpending := rfl) <;> first | exact Or.inl rfl | exact Or.inr (by with_reducible rfl) | skip)

theorem State.dispatchRound_only {s : State} : Only 0x20002000020100000000000211b80078000000000100000000000008000000000001000000000002000000000000400000000100000000000002000000000020000000800004000008000006080e0c s (State.dispatchRound s).1 := by
  unfold State.dispatchRound
  repeat' first
    | decide
    | with_reducible exact Only.refl _ _
    | with_reducible apply Only.then State.fillAll_only
    | with_reducible apply Only.then State.readyPass_only
    | with_reducible apply Only.then State.issueAll_only
    | with_reducible apply Only.then State.syncDsp_only
    | dsimp only

theorem State.failTask_only {s : State} {x1 : _} {x2 : _} : Only 0x20002000020100000000000211b80178000000000100000000000008000000000001000000000002000000000000400000000100000000000002000000000020000000800004000008000006080e0c s (State.failTask s x1 x2) := by
  unfold State.failTask
  repeat' first
    | decide
    | with_reducible exact Only.refl _ _
    | with_reducible apply Only.then State.event_only
    | with_reducible apply Only.then (State.addSat_only ?_)
    | with_reducible apply Only.then State.syncDsp_only
    | with_reducible apply Only.then State.makeAdvances_only
    | dsimp only
    | (simp only [Only.lit]; with_reducible apply Only.upd (hpending := rfl) <;> first | exact Or.inl rfl | exact Or.inr (by with_reducible rfl) | skip)

theorem State.migrateTask_only {s : State} {x1 : _} : Only 0x20002000000100000000000200380210000000000100000000000008000000000001000000000002000000000000400000000100000000000002000000000020000000800004000008000004000e08 s (State.migrateTask s x1) := by
  unfold State.migrateTask
  repeat' first
    | decide
    | with_reducible exact Only.refl _ _
    | with_reducible apply Only.then State.event_only
    | with_reducible apply Only.then (State.addSat_only ?_)
    | dsimp only
    | (simp only [Only.lit]; with_reducible apply Only.upd (hpending := rfl) <;> first | exact Or.inl rfl | exact Or.inr (by with_reducible rfl) | skip)

theorem State.noteLoad_only {s : State} {x1 : _} {x2 : _} : Only 0x400 s (State.noteLoad s x1 x2) := by
  unfold State.noteLoad
  repeat' first
    | decide
    | with_reducible exact Only.refl _ _
    | split
    | dsimp only
    | (simp only [Only.lit]; with_reducible apply Only.upd (hpending := rfl) <;> first | exact Or.inl rfl | exact Or.inr (by with_reducible rfl) | skip)

theorem State.shedTo_only {s : State} {x1 : _} : Only 0x200020000001000000000002003a0010000000000100000000000008000000000001000000000002000000000000400000000100000000000002000000000020000000800004000008000004000e08 s (State.shedTo s x1) := by
  unfold State.shedTo
  repeat' first
    | decide
    | with_reducible exact Only.refl _ _
    | with_reducible apply Only.then State.event_only
    | with_reducible apply Only.then (State.setF_only ?_)
    | dsimp only
    | (simp only [Only.lit]; with_reducible apply Only.upd (hpending := rfl) <;> first | exact Or.inl rfl | exact Or.inr (by with_reducible rfl) | skip)

theorem State.taskAdvance_only {s : State} {x1 : _} {x2 : _} {x3 : _} {x4 : _} {x5 : _} {x6 : _} : Only 0x20002000020100000000000211b800f8000000000100000000000008000000000001000000000002000000000000400000000100000000000002000000000020000000800004000008000006080e0c s (State.taskAdvance s x1 x2 x3 x4 x5 x6) := by
  unfold State.taskAdvance
  repeat' first
    | decide
    | with_reducible exact Only.refl _ _
    | with_reducible apply Only.then (State.addSat_only ?_)
    | with_reducible apply Only.then State.syncDsp_only
    | with_reducible apply Only.then State.advanceRaw_only
    | split
    | dsimp only
    | (simp only [Only.lit]; with_reducible apply Only.upd (hpending := rfl) <;> first | exact Or.inl rfl | exact Or.inr (by with_reducible rfl) | skip)

theorem hostWaitArm_only {x0 : _} {x1 : _} {s : State} : Only 0x11800000000000000000000000000000000000000000000000000000000000000000000000000000000000000000000000000000000000000000000000000004000800 s (hostWaitArm x0 x1 s) := by
  unfold hostWaitArm
  repeat' first
    | decide
    | with_reducible exact Only.refl _ _
    | with_reducible apply Only.then State.testSlot_only
    | with_reducible apply Only.then (State.setB_only ?_)
    | with_reducible apply Only.then (State.setF_only ?_)
    | split

theorem hostWaitDisarm_only {x0 : _} {x1 : _} {s : State} : Only 0x10000000000000000000000000000000000000000000000000000000000000000000000000000000000000000000000000000000000000000000000000000000000000 s (hostWaitDisarm x0 x1 s) := by
  unfold hostWaitDisarm
  repeat' first
    | decide
    | with_reducible exact Only.refl _ _
    | with_reducible apply Only.then (State.setB_only ?_)
    | with_reducible apply Only.then (State.setF_only ?_)
    | split

theorem hostTallyAdvance_only {x0 : _} {x1 : _} {s : State} : Only 0x20002000020100000000000211b80010000000000100000000000008000000000001000000000002000000000000400000000100000000000002000000000020000000800004000008000006080e0c s (hostTallyAdvance x0 x1 s) := by
  unfold hostTallyAdvance
  repeat' first
    | decide
    | with_reducible exact Only.refl _ _
    | with_reducible apply Only.then State.advanceRaw_only
    | with_reducible apply Only.then State.event_only
    | split
    | dsimp only

theorem cooperLoadEval_only {x0 : _} {x1 : _} {x2 : _} {s : State} : Only 0x200020000001000000000002003b0010000000000100000000000008000000000001000000000002000000000000400000000100000000000002000000000020000000800004000008000004000e08 s (cooperLoadEval x0 x1 x2 s) := by
  unfold cooperLoadEval
  repeat' first
    | with_reducible assumption
    | decide
    | with_reducible exact Only.refl _ _
    | with_reducible apply State.tele_only (hs := fun _ _ => ?_)
    | with_reducible apply Only.then (State.setF_only ?_)
    | with_reducible apply Only.then State.noteLoad_only
    | with_reducible apply Only.then State.shedTo_only
    | split
    | dsimp only

theorem eventFoldFlush_only {x0 : _} {x1 : _} {x2 : _} {s : State} : Only 0x300000000000000000000000000000000000000000000000000000000000000000000000000000000000000000000000000000000000000000000000000004000a08 s (eventFoldFlush x0 x1 x2 s) := by
  unfold eventFoldFlush
  repeat' first
    | decide
    | with_reducible exact Only.refl _ _
    | with_reducible apply Only.then State.flushFold_only

theorem waitLimitExpire_only {x0 : _} {x1 : _} {s : State} : Only 0x20002000000100000000000200381010000000000100000000000008000000000001000000000002000000000000400000000100000000000002000000000020000000800004000008000004000e08 s (waitLimitExpire x0 x1 s) := by
  unfold waitLimitExpire
  repeat' first
    | decide
    | with_reducible exact Only.refl _ _
    | with_reducible apply Only.then State.event_only
    | with_reducible apply Only.then (State.addSat_only ?_)
    | split
    | dsimp only
    | (simp only [Only.lit]; with_reducible apply Only.upd (hpending := rfl) <;> first | exact Or.inl rfl | exact Or.inr (by with_reducible rfl) | skip)

/-! ## Commands -/

theorem execWaitLimitExpire_only {x0 : _} {x1 : _} {s : State} {t : State} (h : execWaitLimitExpire x0 x1 s = .next t) : Only 0x20002000000100000000000200381010000000000100000000000008000000000001000000000002000000000000400000000100000000000002000000000020000000800004000008000004000e08 s t := by
  simp only [execWaitLimitExpire, done, whenUp, whenOn] at h
  injection h with h
  subst h
  repeat' first
    | decide
    | with_reducible exact Only.refl _ _
    | with_reducible apply Only.then waitLimitExpire_only
    | split

theorem execHostTallyAdvance_only {x0 : _} {x1 : _} {s : State} {t : State} (h : execHostTallyAdvance x0 x1 s = .next t) : Only 0x20002000020100000000000211b80010000000000100000000000008000000000001000000000002000000000000400000000100000000000002000000000020000000800004000008000006080e0c s t := by
  simp only [execHostTallyAdvance, done, whenUp, whenOn] at h
  injection h with h
  subst h
  repeat' first
    | decide
    | with_reducible exact Only.refl _ _
    | with_reducible apply Only.then hostTallyAdvance_only
    | split

theorem execEventFoldFlush_only {x0 : _} {x1 : _} {x2 : _} {s : State} {t : State} (h : execEventFoldFlush x0 x1 x2 s = .next t) : Only 0x300000000000000000000000000000000000000000000000000000000000000000000000000000000000000000000000000000000000000000000000000004000a08 s t := by
  simp only [execEventFoldFlush, done, whenUp, whenOn] at h
  injection h with h
  subst h
  repeat' first
    | decide
    | with_reducible exact Only.refl _ _
    | with_reducible apply Only.then eventFoldFlush_only
    | split

theorem execCooperLoadEval_only {x0 : _} {x1 : _} {x2 : _} {s : State} {t : State} (h : execCooperLoadEval x0 x1 x2 s = .next t) : Only 0x200020000001000000000002003b0010000000000100000000000008000000000001000000000002000000000000400000000100000000000002000000000020000000800004000008000004000e08 s t := by
  simp only [execCooperLoadEval, done, whenUp, whenOn] at h
  injection h with h
  subst h
  repeat' first
    | decide
    | with_reducible exact Only.refl _ _
    | with_reducible apply Only.then cooperLoadEval_only
    | split

theorem execHostWaitDisarm_only {x0 : _} {x1 : _} {s : State} {t : State} (h : execHostWaitDisarm x0 x1 s = .next t) : Only 0x10000000000000000000000000000000000000000000000000000000000000000000000000000000000000000000000000000000000000000000000000000000000000 s t := by
  simp only [execHostWaitDisarm, done, whenUp, whenOn] at h
  injection h with h
  subst h
  repeat' first
    | decide
    | with_reducible exact Only.refl _ _
    | with_reducible apply Only.then hostWaitDisarm_only
    | split

theorem execHostWaitArm_only {x0 : _} {x1 : _} {s : State} {t : State} (h : execHostWaitArm x0 x1 s = .next t) : Only 0x11800000000000000000000000000000000000000000000000000000000000000000000000000000000000000000000000000000000000000000000000000004000800 s t := by
  simp only [execHostWaitArm, done, whenUp, whenOn] at h
  injection h with h
  subst h
  repeat' first
    | decide
    | with_reducible exact Only.refl _ _
    | with_reducible apply Only.then hostWaitArm_only
    | split

end Sys2Proof.Machine
end

