-- ==== Sys2Proof/Laws/BoundHost.lean ====
section
/-!
SUPPORT. What each function of Machine/Host.lean can change at most.
-/

namespace Sys2Proof.Machine
open Sys2Proof Sys2Proof.Safety

theorem State.allD0_only {s : State} : Only 0x2000 s (State.allD0 s) := by
  unfold State.allD0
  repeat' first
    | decide
    | with_reducible exact Only.refl _ _
    | dsimp only
    | (simp only [Only.lit]; with_reducible apply Only.upd (hpending := rfl) <;> first | exact Or.inl rfl | exact Or.inr (by with_reducible rfl) | skip)

theorem State.sendEth_only {s : State} {x1 : _} {x2 : _} : Only 0x10000000000000000000000000000000000000000000000000000000000000000000000000000000000000000000000000000000000000000000000000000000000000000004002000 s (State.sendEth s x1 x2).1 := by
  unfold State.sendEth
  repeat' first
    | decide
    | with_reducible exact Only.refl _ _
    | with_reducible apply Only.then State.emit_only
    | with_reducible apply Only.then (State.addSat_only ?_)
    | split
    | dsimp only
    | (simp only [Only.lit]; with_reducible apply Only.upd (hpending := rfl) <;> first | exact Or.inl rfl | exact Or.inr (by with_reducible rfl) | skip)

theorem State.tileOut_only {s : State} {x1 : _} {x2 : _} {x3 : _} : Only 0x10000000000000000000000000000000000000000000000000000000000000000000000000000000000000000000000000000000000000000000000000000000000000000004002000 s (State.tileOut s x1 x2 x3) := by
  unfold State.tileOut
  repeat' first
    | decide
    | with_reducible exact Only.refl _ _
    | with_reducible apply Only.then State.sendEth_only
    | dsimp only
    | (simp only [Only.lit]; with_reducible apply Only.upd (hpending := rfl) <;> first | exact Or.inl rfl | exact Or.inr (by with_reducible rfl) | skip)

theorem State.tileNak_only {s : State} {x1 : _} {x2 : _} {x3 : _} : Only 0x10000000100000000000000000000000000000000000000000000000000000000000000000000000000000000000000000000000000000000000000000000000000000000004002000 s (State.tileNak s x1 x2 x3) := by
  unfold State.tileNak
  repeat' first
    | decide
    | with_reducible exact Only.refl _ _
    | with_reducible apply Only.then (State.addSat_only ?_)
    | with_reducible apply Only.then State.tileOut_only

theorem State.tileData_only {s : State} {x1 : _} {x2 : _} {x3 : _} {x4 : _} {x5 : _} : Only 0x10000000400000000000000000000000000000000000000000000000000000000000000000000000000000000000000000000000000000000000000000000000000000000004002000 s (State.tileData s x1 x2 x3 x4 x5) := by
  unfold State.tileData
  repeat' first
    | with_reducible assumption
    | decide
    | with_reducible exact Only.refl _ _
    | with_reducible apply Only.then State.tileOut_only
    | with_reducible apply Only.then (State.addWrap_only ?_)
    | with_reducible apply Only.foldl
    | with_reducible apply Only.foldl1
    | intro _ _ _
    | dsimp only

theorem State.tileAway_only {s : State} {x1 : _} {x2 : _} {x3 : _} {x4 : _} {x5 : _} : Only 0x10000000100000000000000000000000000000000000000000000000000000000000000000000000000000000000000000000000000000000000000000000000000000000006002000 s (State.tileAway s x1 x2 x3 x4 x5) := by
  unfold State.tileAway
  repeat' first
    | with_reducible assumption
    | decide
    | with_reducible exact Only.refl _ _
    | with_reducible apply Only.then State.tileNak_only
    | with_reducible apply Only.then State.askPage_only
    | with_reducible apply Only.foldl
    | with_reducible apply Only.foldl1
    | intro _ _ _
    | split
    | dsimp only
    | (simp only [Only.lit]; with_reducible apply Only.upd (hpending := rfl) <;> first | exact Or.inl rfl | exact Or.inr (by with_reducible rfl) | skip)

theorem State.answerTile_only {s : State} {x1 : _} {x2 : _} {x3 : _} {x4 : _} : Only 0x10000000500000000000000000000000000000000000000000000000000000000000000000000000000000000000000000000000000000000000000000000000000000000006002000 s (State.answerTile s x1 x2 x3 x4) := by
  unfold State.answerTile
  repeat' first
    | decide
    | with_reducible exact Only.refl _ _
    | with_reducible apply Only.then State.tileData_only
    | with_reducible apply Only.then State.tileAway_only
    | with_reducible apply Only.then State.tileNak_only
    | split
    | dsimp only

theorem State.dropQuery_only {s : State} {x1 : _} : Only 0x1000000 s (State.dropQuery s x1) := by
  unfold State.dropQuery
  repeat' first
    | decide
    | with_reducible exact Only.refl _ _
    | dsimp only
    | (simp only [Only.lit]; with_reducible apply Only.upd (hpending := rfl) <;> first | exact Or.inl rfl | exact Or.inr (by with_reducible rfl) | skip)

theorem State.ringIrq_only {s : State} {x1 : _} : Only 0x4002800 s (State.ringIrq s x1) := by
  unfold State.ringIrq
  repeat' first
    | decide
    | with_reducible exact Only.refl _ _
    | with_reducible apply Only.then State.irq_only
    | split
    | dsimp only
    | (simp only [Only.lit]; with_reducible apply Only.upd (hpending := rfl) <;> first | exact Or.inl rfl | exact Or.inr (by with_reducible rfl) | skip)

theorem hstRingRdWrite_only {x0 : _} {x1 : _} {s : State} : Only 0x180000000000000000000000000000000000000000000000000000000000000000000000000000000000000000000000000000000000000000000000000000000000004002800 s (hstRingRdWrite x0 x1 s) := by
  unfold hstRingRdWrite
  repeat' first
    | decide
    | with_reducible exact Only.refl _ _
    | with_reducible apply Only.then (State.setPair_only ?_ ?_)
    | with_reducible apply Only.then State.ringIrq_only
    | split
    | dsimp only
    | (simp only [Only.lit]; with_reducible apply Only.upd (hpending := rfl) <;> first | exact Or.inl rfl | exact Or.inr (by with_reducible rfl) | skip)

theorem State.msixWrite_only {s : State} {x1 : _} {x2 : _} {x3 : _} : Only 0x4002800 s (State.msixWrite s x1 x2 x3) := by
  unfold State.msixWrite
  repeat' first
    | decide
    | with_reducible exact Only.refl _ _
    | with_reducible apply Only.then State.irq_only
    | split
    | dsimp only
    | (simp only [Only.lit]; with_reducible apply Only.upd (hpending := rfl) <;> first | exact Or.inl rfl | exact Or.inr (by with_reducible rfl) | skip)

theorem State.setSlot_only {s : State} {x1 : _} {x2 : _} {x3 : _} : Only 0x2000 s (State.setSlot s x1 x2 x3) := by
  unfold State.setSlot
  repeat' first
    | decide
    | with_reducible exact Only.refl _ _
    | dsimp only
    | (simp only [Only.lit]; with_reducible apply Only.upd (hpending := rfl) <;> first | exact Or.inl rfl | exact Or.inr (by with_reducible rfl) | skip)

theorem State.releaseSlot_only {s : State} {x1 : _} {x2 : _} : Only 0x1002000 s (State.releaseSlot s x1 x2) := by
  unfold State.releaseSlot
  repeat' first
    | decide
    | with_reducible exact Only.refl _ _
    | with_reducible apply Only.then State.setSlot_only
    | with_reducible apply Only.then State.dropQuery_only
    | split
    | dsimp only

theorem State.releaseSlots_only {s : State} {x1 : _} : Only 0x1002000 s (State.releaseSlots s x1) := by
  unfold State.releaseSlots
  repeat' first
    | with_reducible assumption
    | decide
    | with_reducible exact Only.refl _ _
    | with_reducible apply Only.then State.releaseSlot_only
    | with_reducible apply Only.foldl
    | with_reducible apply Only.foldl1
    | intro _ _ _
    | dsimp only

theorem State.ringPut_only {s : State} {x1 : _} {x2 : _} : Only 0x20002000000100000260000200380010000000000100000000000008000000000001000000000002010041300000400000000100000000000002000000000020000000800004000008000004082a0a s (State.ringPut s x1 x2) := by
  unfold State.ringPut
  repeat' first
    | decide
    | with_reducible exact Only.refl _ _
    | with_reducible apply Only.then State.event_only
    | with_reducible apply Only.then (State.addSat_only ?_)
    | with_reducible apply Only.then (State.setPair_only ?_ ?_)
    | with_reducible apply Only.then State.wrList_only
    | with_reducible apply Only.then State.ringIrq_only
    | split
    | dsimp only
    | (simp only [Only.lit]; with_reducible apply Only.upd (hpending := rfl) <;> first | exact Or.inl rfl | exact Or.inr (by with_reducible rfl) | skip)

theorem State.setStream_only {s : State} {x1 : _} {x2 : _} : Only 0x2000 s (State.setStream s x1 x2) := by
  unfold State.setStream
  repeat' first
    | decide
    | with_reducible exact Only.refl _ _
    | dsimp only
    | (simp only [Only.lit]; with_reducible apply Only.upd (hpending := rfl) <;> first | exact Or.inl rfl | exact Or.inr (by with_reducible rfl) | skip)

theorem State.sendStream_only {s : State} {x1 : _} {x2 : _} {x3 : _} : Only 0x10200000000000000000000000000000000000000000000000000000000000000000000000000000000000000000000000000000000000000000000000000000000000000004002000 s (State.sendStream s x1 x2 x3) := by
  unfold State.sendStream
  repeat' first
    | decide
    | with_reducible exact Only.refl _ _
    | with_reducible apply Only.then State.setStream_only
    | with_reducible apply Only.then State.sendEth_only
    | with_reducible apply Only.then (State.addWrap_only ?_)
    | split
    | dsimp only

theorem State.streamPut_only {s : State} {x1 : _} {x2 : _} : Only 0x2000 s (State.streamPut s x1 x2) := by
  unfold State.streamPut
  repeat' first
    | decide
    | with_reducible exact Only.refl _ _
    | with_reducible apply Only.then State.setStream_only
    | split
    | dsimp only

theorem State.winPut_only {s : State} {x1 : _} {x2 : _} : Only 0x2000 s (State.winPut s x1 x2) := by
  unfold State.winPut
  repeat' first
    | decide
    | with_reducible exact Only.refl _ _
    | dsimp only
    | (simp only [Only.lit]; with_reducible apply Only.upd (hpending := rfl) <;> first | exact Or.inl rfl | exact Or.inr (by with_reducible rfl) | skip)

theorem arpReplyRx_only {x0 : _} {x1 : _} {x2 : _} {s : State} : Only 0x2000 s (arpReplyRx x0 x1 x2 s) := by
  unfold arpReplyRx
  repeat' first
    | decide
    | with_reducible exact Only.refl _ _
    | split
    | dsimp only
    | (simp only [Only.lit]; with_reducible apply Only.upd (hpending := rfl) <;> first | exact Or.inl rfl | exact Or.inr (by with_reducible rfl) | skip)

theorem arpRequestRx_only {x0 : _} {x1 : _} {x2 : _} {s : State} : Only 0x4000000 s (arpRequestRx x0 x1 x2 s) := by
  unfold arpRequestRx
  repeat' first
    | decide
    | with_reducible exact Only.refl _ _
    | with_reducible apply Only.then State.emit_only
    | split

theorem arpRetry_only {x0 : _} {x1 : _} {s : State} : Only 0x4000000 s (arpRetry x0 x1 s) := by
  unfold arpRetry
  repeat' first
    | decide
    | with_reducible exact Only.refl _ _
    | with_reducible apply Only.then State.emit_only
    | split
    | dsimp only

theorem bar4Read_only {x0 : _} {x1 : _} {x2 : _} {s : State} : Only 0x2000200000010000000002820038001000000000010000000000000800000000000100000000000200c000040000400000000100000000000002000000000020000000800004000008000004180a08 s (bar4Read x0 x1 x2 s) := by
  unfold bar4Read
  repeat' first
    | decide
    | with_reducible exact Only.refl _ _
    | with_reducible apply Only.then State.bar4Answer_only
    | with_reducible apply Only.then State.fetchPage_only
    | with_reducible apply Only.then State.event_only
    | with_reducible apply Only.then (State.addSat_only ?_)
    | with_reducible apply Only.then State.emit_only
    | split
    | dsimp only
    | (simp only [Only.lit]; with_reducible apply Only.upd (hpending := rfl) <;> first | exact Or.inl rfl | exact Or.inr (by with_reducible rfl) | skip)

theorem bar4Slow_only {x0 : _} {x1 : _} {s : State} : Only 0x20002000000100000000010200380010000000000100000000000008000000000001000000000002000000000000400000000100000000000002000000000020000000800004000008000004080a08 s (bar4Slow x0 x1 s) := by
  unfold bar4Slow
  repeat' first
    | decide
    | with_reducible exact Only.refl _ _
    | with_reducible apply Only.then State.emit_only
    | with_reducible apply Only.then State.event_only
    | with_reducible apply Only.then (State.addSat_only ?_)
    | split
    | dsimp only
    | (simp only [Only.lit]; with_reducible apply Only.upd (hpending := rfl) <;> first | exact Or.inl rfl | exact Or.inr (by with_reducible rfl) | skip)

theorem holdRelease_only {s : State} : Only 0x20002000020100000000000211b80010000000000100000000000008000000000001000000000002000000000000400000000100000000000002000000000020000000800004000008000006082e0c s (holdRelease s) := by
  unfold holdRelease
  repeat' first
    | decide
    | with_reducible exact Only.refl _ _
    | with_reducible apply Only.then State.advance_only
    | split
    | dsimp only
    | (simp only [Only.lit]; with_reducible apply Only.upd (hpending := rfl) <;> first | exact Or.inl rfl | exact Or.inr (by with_reducible rfl) | skip)

theorem icmpEchoRx_only {x0 : _} {x1 : _} {x2 : _} {x3 : _} {s : State} : Only 0x4000000 s (icmpEchoRx x0 x1 x2 x3 s) := by
  unfold icmpEchoRx
  repeat' first
    | decide
    | with_reducible exact Only.refl _ _
    | with_reducible apply Only.then State.emit_only
    | split

theorem msixTableWrite_only {x0 : _} {x1 : _} {x2 : _} {s : State} : Only 0x4002800 s (msixTableWrite x0 x1 x2 s) := by
  unfold msixTableWrite
  repeat' first
    | decide
    | with_reducible exact Only.refl _ _
    | with_reducible apply Only.then State.msixWrite_only
    | split

theorem pciePowerStateChange_only {x0 : _} {x1 : _} {s : State} : Only 0x2000 s (pciePowerStateChange x0 x1 s) := by
  unfold pciePowerStateChange
  repeat' first
    | decide
    | with_reducible exact Only.refl _ _
    | split
    | dsimp only
    | (simp only [Only.lit]; with_reducible apply Only.upd (hpending := rfl) <;> first | exact Or.inl rfl | exact Or.inr (by with_reducible rfl) | skip)

theorem pfReset_only {s : State} : Only 0x20002000000100000180000210380010000000000100000000000008000000000001000000000002000000000000400000000100000000000002000000000020000000800004000008000005082a08 s (pfReset s) := by
  unfold pfReset
  repeat' first
    | with_reducible assumption
    | decide
    | with_reducible exact Only.refl _ _
    | with_reducible apply Only.then (State.setB_only ?_)
    | with_reducible apply Only.then (State.setPair_only ?_ ?_)
    | with_reducible apply Only.then State.releaseSlots_only
    | with_reducible apply Only.then State.event_only
    | with_reducible apply Only.foldl
    | with_reducible apply Only.foldl1
    | intro _ _ _
    | split
    | dsimp only
    | (simp only [Only.lit]; with_reducible apply Only.upd (hpending := rfl) <;> first | exact Or.inl rfl | exact Or.inr (by with_reducible rfl) | skip)

theorem perstN_only {s : State} : Only 0x20002000000100000180000210380010000000000100000000000008000000000001000000000002000000000000400000000100000000000002000000000020000000800004000008000005082a08 s (perstN s) := by
  unfold perstN
  repeat' first
    | with_reducible assumption
    | decide
    | with_reducible exact Only.refl _ _
    | with_reducible apply Only.then State.releaseSlots_only
    | with_reducible apply Only.then pfReset_only
    | with_reducible apply Only.then State.allD0_only
    | with_reducible apply Only.foldl
    | with_reducible apply Only.foldl1
    | intro _ _ _
    | dsimp only

theorem poseBatchTimeout_only {x0 : _} {s : State} : Only 0x2000 s (poseBatchTimeout x0 s) := by
  unfold poseBatchTimeout
  repeat' first
    | decide
    | with_reducible exact Only.refl _ _
    | with_reducible apply Only.then State.setStream_only
    | split
    | dsimp only

theorem poseStreamSend_only {x0 : _} {s : State} : Only 0x10200000000000000000000000000000000000000000000000000000000000000000000000000000000000000000000000000000000000000000000000000000000000000004002000 s (poseStreamSend x0 s) := by
  unfold poseStreamSend
  repeat' first
    | decide
    | with_reducible exact Only.refl _ _
    | with_reducible apply Only.then State.sendStream_only
    | with_reducible apply Only.then State.setStream_only
    | split
    | dsimp only

theorem ringIrqTimer_only {x0 : _} {s : State} : Only 0x4002800 s (ringIrqTimer x0 s) := by
  unfold ringIrqTimer
  repeat' first
    | decide
    | with_reducible exact Only.refl _ _
    | with_reducible apply Only.then State.irq_only
    | split
    | dsimp only
    | (simp only [Only.lit]; with_reducible apply Only.upd (hpending := rfl) <;> first | exact Or.inl rfl | exact Or.inr (by with_reducible rfl) | skip)

theorem ringRecordCopy_only {x0 : _} {x1 : _} {s : State} : Only 0x20002000000100000260000200380010000000000100000000000008000000000001000000000002010041300000400000000100000000000002000000000020000000800004000008000004083a0a s (ringRecordCopy x0 x1 s) := by
  unfold ringRecordCopy
  repeat' first
    | with_reducible assumption
    | decide
    | with_reducible exact Only.refl _ _
    | with_reducible apply Only.then State.ringPut_only
    | with_reducible apply Only.then State.winPut_only
    | with_reducible apply Only.then State.streamPut_only
    | with_reducible apply Only.foldl
    | with_reducible apply Only.foldl1
    | intro _ _ _
    | split
    | dsimp only
    | (simp only [Only.lit]; with_reducible apply Only.upd (hpending := rfl) <;> first | exact Or.inl rfl | exact Or.inr (by with_reducible rfl) | skip)

theorem slotPost_only {x0 : _} {x1 : _} {s : State} : Only 0x20002000020100000000060211b8009603f0000b8d8000000000000800000000000100000000000201c04134000040000000010000000000000200000000002000000080000400000800000f182e0e s (slotPost x0 x1 s) := by
  unfold slotPost
  repeat' first
    | decide
    | with_reducible exact Only.refl _ _
    | with_reducible apply Only.then State.event_only
    | with_reducible apply Only.then (State.addSat_only ?_)
    | with_reducible apply Only.then State.setSlot_only
    | with_reducible apply Only.then State.answerSlot_only
    | with_reducible apply Only.then State.caskSettle_only
    | with_reducible apply Only.then State.newQuery_only
    | split
    | dsimp only

theorem slotRelease_only {x0 : _} {x1 : _} {s : State} : Only 0x20002000020100000000020211b8009603f0000b8d8000000000000800000000000100000000000201c04134000040000000010000000000000200000000002000000080000400000800000f182e0e s (slotRelease x0 x1 s) := by
  unfold slotRelease
  repeat' first
    | decide
    | with_reducible exact Only.refl _ _
    | with_reducible apply Only.then State.caskSettle_only
    | with_reducible apply Only.then State.releaseSlot_only
    | split

theorem slotRequestWrite_only {x0 : _} {x1 : _} {x2 : _} {x3 : _} {s : State} : Only 0x2000 s (slotRequestWrite x0 x1 x2 x3 s) := by
  unfold slotRequestWrite
  repeat' first
    | decide
    | with_reducible exact Only.refl _ _
    | with_reducible apply Only.then State.setSlot_only
    | split
    | dsimp only

theorem streamHeartbeat_only {x0 : _} {s : State} : Only 0x10200000000000000000000000000000000000000000000000000000000000000000000000000000000000000000000000000000000000000000000000000000000000000004002000 s (streamHeartbeat x0 s) := by
  unfold streamHeartbeat
  repeat' first
    | decide
    | with_reducible exact Only.refl _ _
    | with_reducible apply Only.then State.sendStream_only
    | split

theorem tileReq_only {x0 : _} {x1 : _} {s : State} : Only 0x20002000000110000000780200380010000000000100000000000008000000000001000000000002000000000000400000000100000000000002000000000020000000800004000008000006002a08 s (tileReq x0 x1 s) := by
  unfold tileReq
  repeat' first
    | with_reducible assumption
    | decide
    | with_reducible exact Only.refl _ _
    | with_reducible apply Only.then (State.addSat_only ?_)
    | with_reducible apply Only.then (State.addWrap_only ?_)
    | with_reducible apply Only.then State.event_only
    | with_reducible apply Only.then State.tileNak_only
    | with_reducible apply Only.then State.answerTile_only
    | with_reducible apply Only.foldl
    | with_reducible apply Only.foldl1
    | intro _ _ _
    | split
    | dsimp only
    | (simp only [Only.lit]; with_reducible apply Only.upd (hpending := rfl) <;> first | exact Or.inl rfl | exact Or.inr (by with_reducible rfl) | skip)

theorem vfFlr_only {x0 : _} {s : State} : Only 0x20002000000100000000000200380010000000000100000000000008000000000001000000000002000000000000400000000100000000000002000000000020000000800004000008000005082a08 s (vfFlr x0 s) := by
  unfold vfFlr
  repeat' first
    | decide
    | with_reducible exact Only.refl _ _
    | dsimp only
    | (simp only [Only.lit]; with_reducible apply Only.upd (hpending := rfl) <;> first | exact Or.inl rfl | exact Or.inr (by with_reducible rfl) | skip)
    | with_reducible apply Only.then State.event_only
    | with_reducible apply Only.then State.releaseSlots_only
    | split

/-! ## Commands -/

theorem execStreamHeartbeat_only {x0 : _} {s : State} {t : State} (h : execStreamHeartbeat x0 s = .next t) : Only 0x10200000000000000000000000000000000000000000000000000000000000000000000000000000000000000000000000000000000000000000000000000000000000000004002000 s t := by
  simp only [execStreamHeartbeat, done, whenUp, whenOn] at h
  injection h with h
  subst h
  repeat' first
    | decide
    | with_reducible exact Only.refl _ _
    | with_reducible apply Only.then streamHeartbeat_only
    | split

theorem execPerstN_only {s : State} {t : State} (h : execPerstN s = .next t) : Only 0x20002000000100000180000210380010000000000100000000000008000000000001000000000002000000000000400000000100000000000002000000000020000000800004000008000005082a08 s t := by
  simp only [execPerstN, done, whenUp, whenOn] at h
  injection h with h
  subst h
  repeat' first
    | decide
    | with_reducible exact Only.refl _ _
    | with_reducible apply Only.then perstN_only
    | split

theorem execPciePowerStateChange_only {x0 : _} {x1 : _} {s : State} {t : State} (h : execPciePowerStateChange x0 x1 s = .next t) : Only 0x2000 s t := by
  simp only [execPciePowerStateChange, done, whenUp, whenOn] at h
  injection h with h
  subst h
  repeat' first
    | decide
    | with_reducible exact Only.refl _ _
    | with_reducible apply Only.then pciePowerStateChange_only
    | split

theorem execSlotPost_only {x0 : _} {x1 : _} {s : State} {t : State} (h : execSlotPost x0 x1 s = .next t) : Only 0x20002000020100000000060211b8009603f0000b8d8000000000000800000000000100000000000201c04134000040000000010000000000000200000000002000000080000400000800000f182e0e s t := by
  simp only [execSlotPost, done, whenUp, whenOn] at h
  injection h with h
  subst h
  repeat' first
    | decide
    | with_reducible exact Only.refl _ _
    | with_reducible apply Only.then slotPost_only
    | split

theorem execPoseBatchTimeout_only {x0 : _} {s : State} {t : State} (h : execPoseBatchTimeout x0 s = .next t) : Only 0x2000 s t := by
  simp only [execPoseBatchTimeout, done, whenUp, whenOn] at h
  injection h with h
  subst h
  repeat' first
    | decide
    | with_reducible exact Only.refl _ _
    | with_reducible apply Only.then poseBatchTimeout_only
    | split

theorem execPfReset_only {s : State} {t : State} (h : execPfReset s = .next t) : Only 0x20002000000100000180000210380010000000000100000000000008000000000001000000000002000000000000400000000100000000000002000000000020000000800004000008000005082a08 s t := by
  simp only [execPfReset, done, whenUp, whenOn] at h
  injection h with h
  subst h
  repeat' first
    | decide
    | with_reducible exact Only.refl _ _
    | with_reducible apply Only.then pfReset_only
    | split

theorem execSlotRequestWrite_only {x0 : _} {x1 : _} {x2 : _} {x3 : _} {s : State} {t : State} (h : execSlotRequestWrite x0 x1 x2 x3 s = .next t) : Only 0x2000 s t := by
  simp only [execSlotRequestWrite, done, whenUp, whenOn] at h
  injection h with h
  subst h
  repeat' first
    | decide
    | with_reducible exact Only.refl _ _
    | with_reducible apply Only.then slotRequestWrite_only
    | split

theorem execBar4Slow_only {x0 : _} {x1 : _} {s : State} {t : State} (h : execBar4Slow x0 x1 s = .next t) : Only 0x20002000000100000000010200380010000000000100000000000008000000000001000000000002000000000000400000000100000000000002000000000020000000800004000008000004080a08 s t := by
  simp only [execBar4Slow, done, whenUp, whenOn] at h
  injection h with h
  subst h
  repeat' first
    | decide
    | with_reducible exact Only.refl _ _
    | with_reducible apply Only.then bar4Slow_only
    | split

theorem execVfFlr_only {x0 : _} {s : State} {t : State} (h : execVfFlr x0 s = .next t) : Only 0x20002000000100000000000200380010000000000100000000000008000000000001000000000002000000000000400000000100000000000002000000000020000000800004000008000005082a08 s t := by
  simp only [execVfFlr, done, whenUp, whenOn] at h
  injection h with h
  subst h
  repeat' first
    | decide
    | with_reducible exact Only.refl _ _
    | with_reducible apply Only.then vfFlr_only
    | split

theorem execArpReplyRx_only {x0 : _} {x1 : _} {x2 : _} {s : State} {t : State} (h : execArpReplyRx x0 x1 x2 s = .next t) : Only 0x2000 s t := by
  simp only [execArpReplyRx, done, whenUp, whenOn] at h
  injection h with h
  subst h
  repeat' first
    | decide
    | with_reducible exact Only.refl _ _
    | with_reducible apply Only.then arpReplyRx_only
    | split

theorem execArpRetry_only {x0 : _} {x1 : _} {s : State} {t : State} (h : execArpRetry x0 x1 s = .next t) : Only 0x4000000 s t := by
  simp only [execArpRetry, done, whenUp, whenOn] at h
  injection h with h
  subst h
  repeat' first
    | decide
    | with_reducible exact Only.refl _ _
    | with_reducible apply Only.then arpRetry_only
    | split

theorem execHstRingRdWrite_only {x0 : _} {x1 : _} {s : State} {t : State} (h : execHstRingRdWrite x0 x1 s = .next t) : Only 0x180000000000000000000000000000000000000000000000000000000000000000000000000000000000000000000000000000000000000000000000000000000000004002800 s t := by
  simp only [execHstRingRdWrite, done, whenUp, whenOn] at h
  injection h with h
  subst h
  repeat' first
    | decide
    | with_reducible exact Only.refl _ _
    | with_reducible apply Only.then hstRingRdWrite_only
    | split

theorem execRingRecordCopy_only {x0 : _} {x1 : _} {s : State} {t : State} (h : execRingRecordCopy x0 x1 s = .next t) : Only 0x20002000000100000260000200380010000000000100000000000008000000000001000000000002010041300000400000000100000000000002000000000020000000800004000008000004083a0a s t := by
  simp only [execRingRecordCopy, done, whenUp, whenOn] at h
  injection h with h
  subst h
  repeat' first
    | decide
    | with_reducible exact Only.refl _ _
    | with_reducible apply Only.then ringRecordCopy_only
    | split

theorem execSlotRelease_only {x0 : _} {x1 : _} {s : State} {t : State} (h : execSlotRelease x0 x1 s = .next t) : Only 0x20002000020100000000020211b8009603f0000b8d8000000000000800000000000100000000000201c04134000040000000010000000000000200000000002000000080000400000800000f182e0e s t := by
  simp only [execSlotRelease, done, whenUp, whenOn] at h
  injection h with h
  subst h
  repeat' first
    | decide
    | with_reducible exact Only.refl _ _
    | with_reducible apply Only.then slotRelease_only
    | split

theorem execPoseStreamSend_only {x0 : _} {s : State} {t : State} (h : execPoseStreamSend x0 s = .next t) : Only 0x10200000000000000000000000000000000000000000000000000000000000000000000000000000000000000000000000000000000000000000000000000000000000000004002000 s t := by
  simp only [execPoseStreamSend, done, whenUp, whenOn] at h
  injection h with h
  subst h
  repeat' first
    | decide
    | with_reducible exact Only.refl _ _
    | with_reducible apply Only.then poseStreamSend_only
    | split

theorem execTileReqDirectory_only {x0 : _} {s : State} {t : State} (h : execTileReqDirectory x0 s = .next t) : Only 0x20002000000110000000780200380010000000000100000000000008000000000001000000000002000000000000400000000100000000000002000000000020000000800004000008000006002a08 s t := by
  simp only [execTileReqDirectory, done, whenUp, whenOn] at h
  injection h with h
  subst h
  repeat' first
    | decide
    | with_reducible exact Only.refl _ _
    | with_reducible apply Only.then tileReq_only
    | split

theorem execMsixTableWrite_only {x0 : _} {x1 : _} {x2 : _} {s : State} {t : State} (h : execMsixTableWrite x0 x1 x2 s = .next t) : Only 0x4002800 s t := by
  simp only [execMsixTableWrite, done, whenUp, whenOn] at h
  injection h with h
  subst h
  repeat' first
    | decide
    | with_reducible exact Only.refl _ _
    | with_reducible apply Only.then msixTableWrite_only
    | split

theorem execTileReqDense_only {x0 : _} {s : State} {t : State} (h : execTileReqDense x0 s = .next t) : Only 0x20002000000110000000780200380010000000000100000000000008000000000001000000000002000000000000400000000100000000000002000000000020000000800004000008000006002a08 s t := by
  simp only [execTileReqDense, done, whenUp, whenOn] at h
  injection h with h
  subst h
  repeat' first
    | decide
    | with_reducible exact Only.refl _ _
    | with_reducible apply Only.then tileReq_only
    | split

theorem execIcmpEchoRx_only {x0 : _} {x1 : _} {x2 : _} {x3 : _} {s : State} {t : State} (h : execIcmpEchoRx x0 x1 x2 x3 s = .next t) : Only 0x4000000 s t := by
  simp only [execIcmpEchoRx, done, whenUp, whenOn] at h
  injection h with h
  subst h
  repeat' first
    | decide
    | with_reducible exact Only.refl _ _
    | with_reducible apply Only.then icmpEchoRx_only
    | split

theorem execBar4Read_only {x0 : _} {x1 : _} {x2 : _} {s : State} {t : State} (h : execBar4Read x0 x1 x2 s = .next t) : Only 0x2000200000010000000002820038001000000000010000000000000800000000000100000000000200c000040000400000000100000000000002000000000020000000800004000008000004180a08 s t := by
  simp only [execBar4Read, done, whenUp, whenOn] at h
  injection h with h
  subst h
  repeat' first
    | decide
    | with_reducible exact Only.refl _ _
    | with_reducible apply Only.then bar4Read_only
    | split

theorem execHoldRelease_only {s : State} {t : State} (h : execHoldRelease s = .next t) : Only 0x20002000020100000000000211b80010000000000100000000000008000000000001000000000002000000000000400000000100000000000002000000000020000000800004000008000006082e0c s t := by
  simp only [execHoldRelease, done, whenUp, whenOn] at h
  injection h with h
  subst h
  repeat' first
    | decide
    | with_reducible exact Only.refl _ _
    | with_reducible apply Only.then holdRelease_only
    | split

theorem execRingIrqTimer_only {x0 : _} {s : State} {t : State} (h : execRingIrqTimer x0 s = .next t) : Only 0x4002800 s t := by
  simp only [execRingIrqTimer, done, whenUp, whenOn] at h
  injection h with h
  subst h
  repeat' first
    | decide
    | with_reducible exact Only.refl _ _
    | with_reducible apply Only.then ringIrqTimer_only
    | split

theorem execArpRequestRx_only {x0 : _} {x1 : _} {x2 : _} {s : State} {t : State} (h : execArpRequestRx x0 x1 x2 s = .next t) : Only 0x4000000 s t := by
  simp only [execArpRequestRx, done, whenUp, whenOn] at h
  injection h with h
  subst h
  repeat' first
    | decide
    | with_reducible exact Only.refl _ _
    | with_reducible apply Only.then arpRequestRx_only
    | split

theorem execTileReqLandmark_only {x0 : _} {s : State} {t : State} (h : execTileReqLandmark x0 s = .next t) : Only 0x20002000000110000000780200380010000000000100000000000008000000000001000000000002000000000000400000000100000000000002000000000020000000800004000008000006002a08 s t := by
  simp only [execTileReqLandmark, done, whenUp, whenOn] at h
  injection h with h
  subst h
  repeat' first
    | decide
    | with_reducible exact Only.refl _ _
    | with_reducible apply Only.then tileReq_only
    | split

end Sys2Proof.Machine
end

