-- ==== Sys2Proof/Laws/BoundRules.lean ====
section
/-!
SUPPORT. What each function of Machine/Rules.lean can change at most.
-/

namespace Sys2Proof.Machine
open Sys2Proof Sys2Proof.Safety

theorem State.nameMissing_only {s : State} {x1 : _} : Only 0x200000000 s (State.nameMissing s x1) := by
  unfold State.nameMissing
  repeat' first
    | with_reducible assumption
    | decide
    | with_reducible exact Only.refl _ _
    | with_reducible apply Only.then (State.setF_only ?_)
    | with_reducible apply Only.foldl
    | with_reducible apply Only.foldl1
    | intro _ _ _
    | split
    | dsimp only

end Sys2Proof.Machine
end

