-- ==== Sys2Proof/Laws/BoundRamhel.lean ====
section
/-!
SUPPORT. What each function of Machine/Ramhel.lean can change at most.
-/

namespace Sys2Proof.Machine
open Sys2Proof Sys2Proof.Safety

theorem State.remoteWrite_only {s : State} {x1 : _} {x2 : _} {x3 : _} {x4 : _} {x5 : _} : Only 0x10041300000000000000000000000000000000000000000000000000000000000000006080002 s (State.remoteWrite s x1 x2 x3 x4 x5) := by
  unfold State.remoteWrite
  repeat' first
    | decide
    | with_reducible exact Only.refl _ _
    | with_reducible apply Only.then State.wrHere_only
    | with_reducible apply Only.then State.sendMsg_only
    | with_reducible apply Only.then State.wrList_only
    | split
    | dsimp only
    | (simp only [Only.lit]; with_reducible apply Only.upd (hpending := rfl) <;> first | exact Or.inl rfl | exact Or.inr (by with_reducible rfl) | skip)

theorem State.pageArrives_only {s : State} {x1 : _} {x2 : _} {x3 : _} : Only 0x10000000500000000000000000000000000000000000000000000000000000000000010041300000000000000000000000000000000000000000000000000000000000000006082002 s (State.pageArrives s x1 x2 x3) := by
  unfold State.pageArrives
  repeat' first
    | with_reducible assumption
    | decide
    | with_reducible exact Only.refl _ _
    | with_reducible apply Only.then State.addPoison_only
    | with_reducible apply Only.then State.wrHere_only
    | with_reducible apply Only.then State.tileNak_only
    | with_reducible apply Only.then State.answerTile_only
    | with_reducible apply Only.foldl
    | with_reducible apply Only.foldl1
    | intro _ _ _
    | split
    | dsimp only
    | (simp only [Only.lit]; with_reducible apply Only.upd (hpending := rfl) <;> first | exact Or.inl rfl | exact Or.inr (by with_reducible rfl) | skip)

theorem State.takeMsg_only {s : State} {x1 : _} {x2 : _} {x3 : _} : Only 0x20002000020110000000520211b8019607f0000bbd800000000000083e3c0000be7d00000000000201c04134000040000000010000000000000200000000002000000080000400000800000f583e0e s (State.takeMsg s x1 x2 x3) := by
  unfold State.takeMsg
  repeat' first
    | decide
    | with_reducible exact Only.refl _ _
    | with_reducible apply Only.then State.wrHere_only
    | with_reducible apply Only.then State.pageArrives_only
    | with_reducible apply Only.then State.writeOver_only
    | with_reducible apply Only.then State.sendMsg_only
    | with_reducible apply Only.then State.remoteWrite_only
    | with_reducible apply Only.then State.keepDeltas_only
    | with_reducible apply Only.then State.setProb_only
    | with_reducible apply Only.then State.wrList_only
    | with_reducible apply Only.then State.caskMsg_only
    | split
    | dsimp only
    | (simp only [Only.lit]; with_reducible apply Only.upd (hpending := rfl) <;> first | exact Or.inl rfl | exact Or.inr (by with_reducible rfl) | skip)

theorem State.applyKept_only {s : State} {x1 : _} {x2 : _} : Only 0x20002000020110000000520211b8019607f0000bbd800000000000083e3c0000be7d00000000000201c04134000040000000010000000000000200000000002000000080000400000800000f583e0e s (State.applyKept s x1 x2) := by
  unfold State.applyKept
  repeat' first
    | decide
    | with_reducible exact Only.refl _ _
    | with_reducible apply Only.then State.wrHere_only
    | with_reducible apply Only.then State.forwardJoin_only
    | with_reducible apply Only.then State.applyAdvance_only
    | with_reducible apply Only.then State.takeMsg_only
    | with_reducible apply Only.then State.wrList_only
    | split
    | dsimp only

theorem State.syncRing_only {s : State} : Only 0x100480000000000000000000020000000000000000000000000000000000000000000000000000000000000000000000000000000000000000000000000000000000000000000000000000 s (State.syncRing s) := by
  unfold State.syncRing
  repeat' first
    | with_reducible assumption
    | decide
    | with_reducible exact Only.refl _ _
    | with_reducible apply Only.then (State.setB_only ?_)
    | with_reducible apply Only.then (State.setF_only ?_)
    | with_reducible apply Only.then State.syncShard_only
    | with_reducible apply Only.foldl
    | with_reducible apply Only.foldl1
    | intro _ _ _
    | split
    | dsimp only

theorem State.setMember_only {s : State} {x1 : _} {x2 : _} : Only 0x500480000000000000000000020000000000000000000000000000000000000000000000000000000000000000000000000000000000000000000000000000000000000000000000000000 s (State.setMember s x1 x2) := by
  unfold State.setMember
  repeat' first
    | decide
    | with_reducible exact Only.refl _ _
    | with_reducible apply Only.then State.syncRing_only
    | with_reducible apply Only.then (State.setF_only ?_)

theorem State.forgetMember_only {s : State} {x1 : _} : Only 0x2000000 s (State.forgetMember s x1) := by
  unfold State.forgetMember
  repeat' first
    | decide
    | with_reducible exact Only.refl _ _
    | dsimp only
    | (simp only [Only.lit]; with_reducible apply Only.upd (hpending := rfl) <;> first | exact Or.inl rfl | exact Or.inr (by with_reducible rfl) | skip)

theorem State.beginJoin_only {s : State} {x1 : _} : Only 0x500480000000000000000000020000000000000000000000000000000000000000000000000000000000000000000000000000000000000000000000000000000000000000000006000000 s (State.beginJoin s x1) := by
  unfold State.beginJoin
  repeat' first
    | decide
    | with_reducible exact Only.refl _ _
    | with_reducible apply Only.then State.setMember_only
    | with_reducible apply Only.then State.forgetMember_only
    | with_reducible apply Only.then State.txTo_only
    | split
    | dsimp only
    | (simp only [Only.lit]; with_reducible apply Only.upd (hpending := rfl) <;> first | exact Or.inl rfl | exact Or.inr (by with_reducible rfl) | skip)

theorem State.setReach_only {s : State} {x1 : _} {x2 : _} : Only 0x80000000000000000000000000000000000000000000000000000000000000000000000000000000000000000000000000000000000000000000000000000000000000000000000000 s (State.setReach s x1 x2) := by
  unfold State.setReach
  repeat' first
    | decide
    | with_reducible exact Only.refl _ _
    | with_reducible apply Only.then (State.setF_only ?_)

theorem State.resendKept_only {s : State} : Only 0x40000000000000000000000000000000000000000000000000000000000000000000000000000000000000000000000000000000000000000000000000000000000000000000006000000 s (State.resendKept s) := by
  unfold State.resendKept
  repeat' first
    | with_reducible assumption
    | decide
    | with_reducible exact Only.refl _ _
    | with_reducible apply Only.then (State.addSat_only ?_)
    | with_reducible apply Only.then State.txAll_only
    | with_reducible apply Only.then State.txTo_only
    | with_reducible apply Only.foldl
    | with_reducible apply Only.foldl1
    | intro _ _ _
    | split
    | dsimp only

theorem State.readAgain_only {s : State} {x1 : _} : Only 0x10000000500000000000000000000000000000000000000000000000000000000000010041300000000000000000000000000000000000000000000000000000000000000006082002 s (State.readAgain s x1) := by
  unfold State.readAgain
  repeat' first
    | with_reducible assumption
    | decide
    | with_reducible exact Only.refl _ _
    | with_reducible apply Only.then State.pageArrives_only
    | with_reducible apply Only.then State.sendMsg_only
    | with_reducible apply Only.foldl
    | with_reducible apply Only.foldl1
    | intro _ _ _
    | split
    | dsimp only
    | (simp only [Only.lit]; with_reducible apply Only.upd (hpending := rfl) <;> first | exact Or.inl rfl | exact Or.inr (by with_reducible rfl) | skip)

theorem State.reissue_only {s : State} {x1 : _} : Only 0x20010000000500000000000000000000000000000000000000000000000000000000000010041300000000000000000000000000000000000000000000000000000000000000006082002 s (State.reissue s x1) := by
  unfold State.reissue
  repeat' first
    | with_reducible assumption
    | decide
    | with_reducible exact Only.refl _ _
    | with_reducible apply Only.then State.readAgain_only
    | with_reducible apply Only.then State.sendMsg_only
    | with_reducible apply Only.then State.writeOver_only
    | with_reducible apply Only.foldl
    | with_reducible apply Only.foldl1
    | intro _ _ _
    | split
    | dsimp only
    | (simp only [Only.lit]; with_reducible apply Only.upd (hpending := rfl) <;> first | exact Or.inl rfl | exact Or.inr (by with_reducible rfl) | skip)

theorem State.memberLost_only {s : State} {x1 : _} {x2 : _} : Only 0x20002000560790000000500211b8019207f00003bd0000000000000800000000000100000000000201004130000040000000010000000000000200000000002000000080000400000800000f082e0e s (State.memberLost s x1 x2) := by
  unfold State.memberLost
  repeat' first
    | decide
    | with_reducible exact Only.refl _ _
    | with_reducible apply Only.then State.reissue_only
    | with_reducible apply Only.then State.setReach_only
    | with_reducible apply Only.then (State.setF_only ?_)
    | with_reducible apply Only.then State.event_only
    | with_reducible apply Only.then (State.addSat_only ?_)
    | with_reducible apply Only.then State.setMember_only
    | with_reducible apply Only.then State.resendKept_only
    | with_reducible apply Only.then State.caskMemberLost_only
    | with_reducible apply Only.then State.forgetMember_only
    | dsimp only

theorem State.declareLost_only {s : State} {x1 : _} : Only 0x20002000560790000000500211b8019207f00003bd0000000000000800000000000100000000000201004130000040000000010000000000000200000000002000000080000400000800000f082e0e s (State.declareLost s x1) := by
  unfold State.declareLost
  repeat' first
    | decide
    | with_reducible exact Only.refl _ _
    | with_reducible apply Only.then State.txAll_only
    | with_reducible apply Only.then State.memberLost_only
    | dsimp only

theorem State.drainKept_only {s : State} {x1 : _} {x2 : _} {x3 : _} : Only 0x20002000020110000000520211b8019607f0000bbd800000000000083e3c0000be7d00000000000201c04134000040000000010000000000000200000000002000000080000400000800000f583e0e s (State.drainKept s x1 x2 x3) := by
  induction x3 generalizing s x1 x2 with
  | zero =>
    unfold State.drainKept
    repeat' first
      | decide
      | with_reducible exact Only.refl _ _
      | with_reducible apply Only.then State.applyKept_only
      | split
      | dsimp only
      | (simp only [Only.lit]; with_reducible apply Only.upd (hpending := rfl) <;> first | exact Or.inl rfl | exact Or.inr (by with_reducible rfl) | skip)
  | succ n ih =>
    unfold State.drainKept
    repeat' first
      | decide
      | with_reducible exact Only.refl _ _
      | with_reducible apply Only.then ih
      | with_reducible apply Only.then State.applyKept_only
      | split
      | dsimp only
      | (simp only [Only.lit]; with_reducible apply Only.upd (hpending := rfl) <;> first | exact Or.inl rfl | exact Or.inr (by with_reducible rfl) | skip)

theorem State.laserEn_only {s : State} {x1 : _} {x2 : _} : Only 0x40 s (State.laserEn s x1 x2) := by
  unfold State.laserEn
  repeat' first
    | decide
    | with_reducible exact Only.refl _ _
    | dsimp only
    | (simp only [Only.lit]; with_reducible apply Only.upd (hpending := rfl) <;> first | exact Or.inl rfl | exact Or.inr (by with_reducible rfl) | skip)

theorem State.portDown_only {s : State} {x1 : _} : Only 0x20002081140580000000000200380010020000000100000000000008000000000001000000000002000000000000400000000100000000000002000000000020000000800004000008000006000a08 s (State.portDown s x1) := by
  unfold State.portDown
  repeat' first
    | decide
    | with_reducible exact Only.refl _ _
    | with_reducible apply Only.then (State.setF_only ?_)
    | with_reducible apply Only.then State.event_only
    | with_reducible apply Only.then (State.addSat_only ?_)
    | with_reducible apply Only.then State.setLinkPort_only
    | with_reducible apply Only.then State.resendKept_only
    | with_reducible apply Only.then State.syncRing_only
    | dsimp only

theorem State.keptRx_only {s : State} {x1 : _} {x2 : _} {x3 : _} {x4 : _} : Only 0x20002000020110000000520211b8019607f0000bbd800000000000083e3c0000be7d00000000000201c04134000040000000010000000000000200000000002000000080000400000800000f583e0e s (State.keptRx s x1 x2 x3 x4) := by
  unfold State.keptRx
  repeat' first
    | decide
    | with_reducible exact Only.refl _ _
    | with_reducible apply Only.then State.txTo_only
    | with_reducible apply Only.then State.drainKept_only
    | with_reducible apply Only.then State.applyKept_only
    | split
    | dsimp only
    | (simp only [Only.lit]; with_reducible apply Only.upd (hpending := rfl) <;> first | exact Or.inl rfl | exact Or.inr (by with_reducible rfl) | skip)

theorem State.takeAck_only {s : State} {x1 : _} {x2 : _} : Only 0x6000000 s (State.takeAck s x1 x2) := by
  unfold State.takeAck
  repeat' first
    | with_reducible assumption
    | decide
    | with_reducible exact Only.refl _ _
    | with_reducible apply Only.then State.setLinkPort_only
    | with_reducible apply Only.then State.emit_only
    | with_reducible apply Only.foldl
    | with_reducible apply Only.foldl1
    | intro _ _ _
    | split
    | dsimp only

theorem State.linkRx_only {s : State} {x1 : _} {x2 : _} : Only 0x20000000000000000000000000000000000000000000000000000000000000000000000000000000000000000000000000000000000000000000000000000000000000000000000006000000 s (State.linkRx s x1 x2).1 := by
  unfold State.linkRx
  repeat' first
    | decide
    | with_reducible exact Only.refl _ _
    | with_reducible apply Only.then (State.addSat_only ?_)
    | with_reducible apply Only.then State.takeAck_only
    | with_reducible apply Only.then State.setLinkPort_only
    | with_reducible apply Only.then State.txFrame_only
    | split
    | dsimp only

theorem State.tryPort_only {s : State} {x1 : _} : Only 0x2000040 s (State.tryPort s x1) := by
  unfold State.tryPort
  repeat' first
    | decide
    | with_reducible exact Only.refl _ _
    | with_reducible apply Only.then State.setLinkPort_only
    | with_reducible apply Only.then State.laserEn_only

theorem State.linkStart_only {s : State} : Only 0x50c480000000000000000000020000000000000000000000000000000000000000000000000000000000000000000000000000000000000000000000000000000000000000000002000040 s (State.linkStart s) := by
  unfold State.linkStart
  repeat' first
    | with_reducible assumption
    | decide
    | with_reducible exact Only.refl _ _
    | with_reducible apply Only.then (State.setPair_only ?_ ?_)
    | with_reducible apply Only.then (State.setF_only ?_)
    | with_reducible apply Only.then State.setReach_only
    | with_reducible apply Only.then State.setMember_only
    | with_reducible apply Only.then State.syncRing_only
    | with_reducible apply Only.then State.tryPort_only
    | with_reducible apply Only.foldl
    | with_reducible apply Only.foldl1
    | intro _ _ _
    | split
    | dsimp only

theorem State.takeSnapshot_only {s : State} {x1 : _} : Only 0x11800000000000000000000000000000000000000000000000000000000000000000000000000000000000000000000000000000000000000000000000000004000c04 s (State.takeSnapshot s x1) := by
  unfold State.takeSnapshot
  repeat' first
    | with_reducible assumption
    | decide
    | with_reducible exact Only.refl _ _
    | with_reducible apply Only.then State.testSlots_only
    | with_reducible apply Only.foldl
    | with_reducible apply Only.foldl1
    | intro _ _ _
    | split
    | dsimp only
    | (simp only [Only.lit]; with_reducible apply Only.upd (hpending := rfl) <;> first | exact Or.inl rfl | exact Or.inr (by with_reducible rfl) | skip)

theorem heartbeatRx_only {x0 : _} {x1 : _} {s : State} : Only 0x20700480000000000000000000020000000000000000000000000000000000000000000000000000000000000000000000000000000000000000000000000000000000000000000006000000 s (heartbeatRx x0 x1 s) := by
  unfold heartbeatRx
  repeat' first
    | decide
    | with_reducible exact Only.refl _ _
    | with_reducible apply Only.then State.linkRx_only
    | with_reducible apply Only.then (State.setF_only ?_)
    | with_reducible apply Only.then State.setReach_only
    | with_reducible apply Only.then State.setMember_only
    | with_reducible apply Only.then State.txTo_only
    | split
    | dsimp only
    | (simp only [Only.lit]; with_reducible apply Only.upd (hpending := rfl) <;> first | exact Or.inl rfl | exact Or.inr (by with_reducible rfl) | skip)

theorem heartbeatTx_only {s : State} : Only 0x6000000 s (heartbeatTx s) := by
  unfold heartbeatTx
  repeat' first
    | decide
    | with_reducible exact Only.refl _ _
    | with_reducible apply Only.then State.txAll_only
    | split

theorem helloRx_only {x0 : _} {x1 : _} {x2 : _} {x3 : _} {x4 : _} {x5 : _} {s : State} : Only 0x20002001000100000000000200380010000000000100000000000008000000000001000000000002000000000000400000000100000000000002000000000020000000800004000008000006000a08 s (helloRx x0 x1 x2 x3 x4 x5 s) := by
  unfold helloRx
  repeat' first
    | decide
    | with_reducible exact Only.refl _ _
    | with_reducible apply Only.then (State.setF_only ?_)
    | with_reducible apply Only.then State.setLinkPort_only
    | with_reducible apply Only.then State.event_only
    | split
    | dsimp only

theorem laserInputLow_only {x0 : _} {x1 : _} {x2 : _} {s : State} : Only 0x20002083140580000000000200380010020000000100000000000008000000000001000000000002000000000000400000000100000000000002000000000020000000800004000008000006000a08 s (laserInputLow x0 x1 x2 s) := by
  unfold laserInputLow
  repeat' first
    | decide
    | with_reducible exact Only.refl _ _
    | with_reducible apply Only.then (State.setB_only ?_)
    | with_reducible apply Only.then (State.setF_only ?_)
    | with_reducible apply Only.then State.event_only
    | with_reducible apply Only.then State.portDown_only
    | split
    | dsimp only

theorem linkBringupStep_only {x0 : _} {x1 : _} {x2 : _} {s : State} : Only 0x20002a03100580000000000200380010020000000100000000000008000000000001000000000002000000000000400000000100000000000002000000000020000000800004000008000006000a08 s (linkBringupStep x0 x1 x2 s) := by
  unfold linkBringupStep
  repeat' first
    | with_reducible assumption
    | decide
    | with_reducible exact Only.refl _ _
    | with_reducible apply Only.then (State.setF_only ?_)
    | with_reducible apply Only.then (State.setB_only ?_)
    | with_reducible apply Only.then State.event_only
    | with_reducible apply Only.then State.syncRing_only
    | with_reducible apply Only.then State.setLinkPort_only
    | with_reducible apply Only.foldl
    | with_reducible apply Only.foldl1
    | intro _ _ _
    | split
    | dsimp only

theorem linkRetrain_only {x0 : _} {s : State} : Only 0x80000000000000000000000000000000000000000000000000000000000000000000000000000000000000000000000000000000000000000000000000000000000000000000000002000040 s (linkRetrain x0 s) := by
  unfold linkRetrain
  repeat' first
    | decide
    | with_reducible exact Only.refl _ _
    | with_reducible apply Only.then State.tryPort_only
    | with_reducible apply Only.then (State.addSat_only ?_)
    | split

theorem linkRetryTimeout_only {x0 : _} {s : State} : Only 0x200020c1140580000000000200380010020000000100000000000008000000000001000000000002000000000000400000000100000000000002000000000020000000800004000008000006000a08 s (linkRetryTimeout x0 s) := by
  unfold linkRetryTimeout
  repeat' first
    | with_reducible assumption
    | decide
    | with_reducible exact Only.refl _ _
    | with_reducible apply Only.then State.portDown_only
    | with_reducible apply Only.then (State.addSat_only ?_)
    | with_reducible apply Only.then State.setLinkPort_only
    | with_reducible apply Only.then State.emit_only
    | with_reducible apply Only.foldl
    | with_reducible apply Only.foldl1
    | intro _ _ _
    | split
    | dsimp only

theorem linkSilence_only {x0 : _} {s : State} : Only 0x20002081140580000000000200380010020000000100000000000008000000000001000000000002000000000000400000000100000000000002000000000020000000800004000008000006000a08 s (linkSilence x0 s) := by
  unfold linkSilence
  repeat' first
    | decide
    | with_reducible exact Only.refl _ _
    | with_reducible apply Only.then State.portDown_only
    | split

theorem linkStepLimit_only {x0 : _} {s : State} : Only 0x20002081140580000000000200380010020000000100000000000008000000000001000000000002000000000000400000000100000000000002000000000020000000800004000008000006000a48 s (linkStepLimit x0 s) := by
  unfold linkStepLimit
  repeat' first
    | decide
    | with_reducible exact Only.refl _ _
    | with_reducible apply Only.then State.portDown_only
    | with_reducible apply Only.then State.laserEn_only
    | split
    | dsimp only

theorem masterTakeover_only {s : State} : Only 0x20002000560790000000520211b8019607f0000bbd8000000000000800000000000100000000000201c04134000040000000010000000000000200000000002000000080000400000800000f182e0e s (masterTakeover s) := by
  unfold masterTakeover
  repeat' first
    | decide
    | with_reducible exact Only.refl _ _
    | with_reducible apply Only.then State.event_only
    | with_reducible apply Only.then (State.setF_only ?_)
    | with_reducible apply Only.then State.caskSettle_only
    | with_reducible apply Only.then State.declareLost_only
    | split
    | dsimp only

theorem memberIsolated_only {s : State} : Only 0x20002000520590000000520211b8009603f0000b8d8000000000000800000000000100000000000201c04134000040000000010000000000000200000000002000000080000400001800000f182f0e s (memberIsolated s) := by
  unfold memberIsolated
  repeat' first
    | decide
    | with_reducible exact Only.refl _ _
    | with_reducible apply Only.then State.readAgain_only
    | with_reducible apply Only.then State.event_only
    | with_reducible apply Only.then (State.setF_only ?_)
    | with_reducible apply Only.then State.caskSettle_only
    | with_reducible apply Only.then State.setMember_only
    | with_reducible apply Only.then State.setTimeState_only
    | with_reducible apply Only.then State.syncRing_only
    | split
    | dsimp only

theorem memberUnreachable_only {x0 : _} {s : State} : Only 0x20002000760790000000520211b8019607f0000bbd8000000000000800000000000100000000000201c04134000040000000010000000000000200000000002000000080000400000800000f182e0e s (memberUnreachable x0 s) := by
  unfold memberUnreachable
  repeat' first
    | decide
    | with_reducible exact Only.refl _ _
    | with_reducible apply Only.then (State.setF_only ?_)
    | with_reducible apply Only.then State.setReach_only
    | with_reducible apply Only.then State.caskSettle_only
    | with_reducible apply Only.then State.declareLost_only
    | split
    | dsimp only

theorem ramhelControlRx_only {x0 : _} {x1 : _} {s : State} : Only 0x20002020560790000000520211b8019607f0000bbd8000000000000800000000000100000000000201c04134000040000000010000000000000200000000002000000080000400000800000f182e0e s (ramhelControlRx x0 x1 s) := by
  unfold ramhelControlRx
  repeat' first
    | decide
    | with_reducible exact Only.refl _ _
    | with_reducible apply Only.then State.linkRx_only
    | with_reducible apply Only.then State.setMember_only
    | with_reducible apply Only.then (State.setF_only ?_)
    | with_reducible apply Only.then State.txTo_only
    | with_reducible apply Only.then State.memberLost_only
    | with_reducible apply Only.then State.caskSettle_only
    | with_reducible apply Only.then State.caskNewMaster_only
    | with_reducible apply Only.then State.event_only
    | with_reducible apply Only.then State.bumpShards_only
    | with_reducible apply Only.then State.resendKept_only
    | with_reducible apply Only.then State.beginJoin_only
    | with_reducible apply Only.then State.takeSnapshot_only
    | with_reducible apply Only.then State.applyAdvance_only
    | split
    | dsimp only

theorem ramhelE2eAckRx_only {x0 : _} {x1 : _} {x2 : _} {s : State} : Only 0x20000000000000000000000000000000000000000000000000000000000000000000000000000000000000000000000000000000000000000000000000000000000000000000000006000000 s (ramhelE2eAckRx x0 x1 x2 s) := by
  unfold ramhelE2eAckRx
  repeat' first
    | decide
    | with_reducible exact Only.refl _ _
    | with_reducible apply Only.then State.linkRx_only
    | split
    | dsimp only
    | (simp only [Only.lit]; with_reducible apply Only.upd (hpending := rfl) <;> first | exact Or.inl rfl | exact Or.inr (by with_reducible rfl) | skip)

theorem ramhelMsgRx_only {x0 : _} {x1 : _} {x2 : _} {x3 : _} {s : State} : Only 0x20002020020110000000520211b8019607f0000bbd800000000000083e3c0000be7d00000000000201c04134000040000000010000000000000200000000002000000080000400000800000f583e0e s (ramhelMsgRx x0 x1 x2 x3 s) := by
  unfold ramhelMsgRx
  repeat' first
    | decide
    | with_reducible exact Only.refl _ _
    | with_reducible apply Only.then State.linkRx_only
    | with_reducible apply Only.then State.keptRx_only
    | split
    | dsimp only

theorem ramhelPageRx_only {x0 : _} {x1 : _} {x2 : _} {x3 : _} {x4 : _} {s : State} : Only 0x20002020020110000000520211b8019607f0000bbd800000000000083e3c0000be7d00000000000201c04134000040000000010000000000000200000000002000000080000400000800000f583e0e s (ramhelPageRx x0 x1 x2 x3 x4 s) := by
  unfold ramhelPageRx
  repeat' first
    | decide
    | with_reducible exact Only.refl _ _
    | with_reducible apply Only.then State.linkRx_only
    | with_reducible apply Only.then State.keptRx_only
    | split
    | dsimp only

theorem ramhelTallyRx_only {x0 : _} {x1 : _} {x2 : _} {x3 : _} {x4 : _} {s : State} : Only 0x20002020020110000000520211b8019607f0000bbd800000000000083e3c0000be7d00000000000201c04134000040000000010000000000000200000000002000000080000400000800000f583e0e s (ramhelTallyRx x0 x1 x2 x3 x4 s) := by
  unfold ramhelTallyRx
  repeat' first
    | decide
    | with_reducible exact Only.refl _ _
    | with_reducible apply Only.then State.linkRx_only
    | with_reducible apply Only.then State.keptRx_only
    | split
    | dsimp only

theorem ramhelTimeRx_only {x0 : _} {x1 : _} {x2 : _} {x3 : _} {x4 : _} {s : State} : Only 0x2000202001010000000000020038001000000000010000000000000800000000000100000000000200000000000040000000010000000000000200000000002000000080000400061800000e000b88 s (ramhelTimeRx x0 x1 x2 x3 x4 s) := by
  unfold ramhelTimeRx
  repeat' first
    | decide
    | with_reducible exact Only.refl _ _
    | with_reducible apply Only.then State.linkRx_only
    | with_reducible apply Only.then State.used_only
    | with_reducible apply Only.then (State.setFs_only ?_)
    | with_reducible apply Only.then State.endPtpWait_only
    | with_reducible apply Only.then (State.setB_only ?_)
    | with_reducible apply Only.then State.setSlew_only
    | with_reducible apply Only.then State.setTimeState_only
    | split
    | dsimp only
    | (simp only [Only.lit]; with_reducible apply Only.upd (hpending := rfl) <;> first | exact Or.inl rfl | exact Or.inr (by with_reducible rfl) | skip)

theorem resyncDone_only {x0 : _} {s : State} : Only 0x20002000560780000000020211b8009603f0000b8d8000000000000800000000000100000000000201c04134000040000000010000000000000200000000002000000080000400000800000f182e0e s (resyncDone x0 s) := by
  unfold resyncDone
  repeat' first
    | decide
    | with_reducible exact Only.refl _ _
    | with_reducible apply Only.then State.setMember_only
    | with_reducible apply Only.then (State.setF_only ?_)
    | with_reducible apply Only.then State.event_only
    | with_reducible apply Only.then State.bumpShards_only
    | with_reducible apply Only.then State.caskSettle_only
    | with_reducible apply Only.then State.resendKept_only
    | with_reducible apply Only.then State.txAll_only
    | split
    | dsimp only
    | (simp only [Only.lit]; with_reducible apply Only.upd (hpending := rfl) <;> first | exact Or.inl rfl | exact Or.inr (by with_reducible rfl) | skip)

theorem timeFrameLoss_only {s : State} : Only 0x20002000000100000000000200380010000000000100000000000008000000000001000000000002000000000000400000000100000000000002000000000020000000800004000018000004000b08 s (timeFrameLoss s) := by
  unfold timeFrameLoss
  repeat' first
    | decide
    | with_reducible exact Only.refl _ _
    | with_reducible apply Only.then State.setTimeState_only
    | with_reducible apply Only.then State.event_only
    | split

theorem timeTx_only {s : State} : Only 0x6000000 s (timeTx s) := by
  unfold timeTx
  repeat' first
    | decide
    | with_reducible exact Only.refl _ _
    | with_reducible apply Only.then State.txAll_only
    | split

theorem uncorrectableCodeword_only {x0 : _} {s : State} : Only 0x20002091140580000000000200380010020000000100000000000008000000000001000000000002000000000000400000000100000000000002000000000020000000800004000008000006000a08 s (uncorrectableCodeword x0 s) := by
  unfold uncorrectableCodeword
  repeat' first
    | decide
    | with_reducible exact Only.refl _ _
    | with_reducible apply Only.then State.event_only
    | with_reducible apply Only.then (State.addSat_only ?_)
    | with_reducible apply Only.then State.setLinkPort_only
    | with_reducible apply Only.then State.portDown_only
    | split
    | dsimp only

/-! ## Commands -/

theorem execLinkBringupStep_only {x0 : _} {x1 : _} {x2 : _} {s : State} {t : State} (h : execLinkBringupStep x0 x1 x2 s = .next t) : Only 0x20002a03100580000000000200380010020000000100000000000008000000000001000000000002000000000000400000000100000000000002000000000020000000800004000008000006000a08 s t := by
  simp only [execLinkBringupStep, done, whenUp, whenOn] at h
  injection h with h
  subst h
  repeat' first
    | decide
    | with_reducible exact Only.refl _ _
    | with_reducible apply Only.then linkBringupStep_only
    | split

theorem execTimeFrameLoss_only {s : State} {t : State} (h : execTimeFrameLoss s = .next t) : Only 0x20002000000100000000000200380010000000000100000000000008000000000001000000000002000000000000400000000100000000000002000000000020000000800004000018000004000b08 s t := by
  simp only [execTimeFrameLoss, done, whenUp, whenOn] at h
  injection h with h
  subst h
  repeat' first
    | decide
    | with_reducible exact Only.refl _ _
    | with_reducible apply Only.then timeFrameLoss_only
    | split

theorem execLinkRetryTimeout_only {x0 : _} {s : State} {t : State} (h : execLinkRetryTimeout x0 s = .next t) : Only 0x200020c1140580000000000200380010020000000100000000000008000000000001000000000002000000000000400000000100000000000002000000000020000000800004000008000006000a08 s t := by
  simp only [execLinkRetryTimeout, done, whenUp, whenOn] at h
  injection h with h
  subst h
  repeat' first
    | decide
    | with_reducible exact Only.refl _ _
    | with_reducible apply Only.then linkRetryTimeout_only
    | split

theorem execMasterTakeover_only {s : State} {t : State} (h : execMasterTakeover s = .next t) : Only 0x20002000560790000000520211b8019607f0000bbd8000000000000800000000000100000000000201c04134000040000000010000000000000200000000002000000080000400000800000f182e0e s t := by
  simp only [execMasterTakeover, done, whenUp, whenOn] at h
  injection h with h
  subst h
  repeat' first
    | decide
    | with_reducible exact Only.refl _ _
    | with_reducible apply Only.then masterTakeover_only
    | split

theorem execTimeTx_only {s : State} {t : State} (h : execTimeTx s = .next t) : Only 0x6000000 s t := by
  simp only [execTimeTx, done, whenUp, whenOn] at h
  injection h with h
  subst h
  repeat' first
    | decide
    | with_reducible exact Only.refl _ _
    | with_reducible apply Only.then timeTx_only
    | split

theorem execHeartbeatTx_only {s : State} {t : State} (h : execHeartbeatTx s = .next t) : Only 0x6000000 s t := by
  simp only [execHeartbeatTx, done, whenUp, whenOn] at h
  injection h with h
  subst h
  repeat' first
    | decide
    | with_reducible exact Only.refl _ _
    | with_reducible apply Only.then heartbeatTx_only
    | split

theorem execLaserInputLow_only {x0 : _} {x1 : _} {x2 : _} {s : State} {t : State} (h : execLaserInputLow x0 x1 x2 s = .next t) : Only 0x20002083140580000000000200380010020000000100000000000008000000000001000000000002000000000000400000000100000000000002000000000020000000800004000008000006000a08 s t := by
  simp only [execLaserInputLow, done, whenUp, whenOn] at h
  injection h with h
  subst h
  repeat' first
    | decide
    | with_reducible exact Only.refl _ _
    | with_reducible apply Only.then laserInputLow_only
    | split

theorem execMemberUnreachable_only {x0 : _} {s : State} {t : State} (h : execMemberUnreachable x0 s = .next t) : Only 0x20002000760790000000520211b8019607f0000bbd8000000000000800000000000100000000000201c04134000040000000010000000000000200000000002000000080000400000800000f182e0e s t := by
  simp only [execMemberUnreachable, done, whenUp, whenOn] at h
  injection h with h
  subst h
  repeat' first
    | decide
    | with_reducible exact Only.refl _ _
    | with_reducible apply Only.then memberUnreachable_only
    | split

theorem execHeartbeatRx_only {x0 : _} {x1 : _} {s : State} {t : State} (h : execHeartbeatRx x0 x1 s = .next t) : Only 0x20700480000000000000000000020000000000000000000000000000000000000000000000000000000000000000000000000000000000000000000000000000000000000000000006000000 s t := by
  simp only [execHeartbeatRx, done, whenUp, whenOn] at h
  injection h with h
  subst h
  repeat' first
    | decide
    | with_reducible exact Only.refl _ _
    | with_reducible apply Only.then heartbeatRx_only
    | split

theorem execHelloRx_only {x0 : _} {x1 : _} {x2 : _} {x3 : _} {x4 : _} {x5 : _} {s : State} {t : State} (h : execHelloRx x0 x1 x2 x3 x4 x5 s = .next t) : Only 0x20002001000100000000000200380010000000000100000000000008000000000001000000000002000000000000400000000100000000000002000000000020000000800004000008000006000a08 s t := by
  simp only [execHelloRx, done, whenUp, whenOn] at h
  injection h with h
  subst h
  repeat' first
    | decide
    | with_reducible exact Only.refl _ _
    | with_reducible apply Only.then helloRx_only
    | split

theorem execUncorrectableCodeword_only {x0 : _} {s : State} {t : State} (h : execUncorrectableCodeword x0 s = .next t) : Only 0x20002091140580000000000200380010020000000100000000000008000000000001000000000002000000000000400000000100000000000002000000000020000000800004000008000006000a08 s t := by
  simp only [execUncorrectableCodeword, done, whenUp, whenOn] at h
  injection h with h
  subst h
  repeat' first
    | decide
    | with_reducible exact Only.refl _ _
    | with_reducible apply Only.then uncorrectableCodeword_only
    | split

theorem execLinkSilence_only {x0 : _} {s : State} {t : State} (h : execLinkSilence x0 s = .next t) : Only 0x20002081140580000000000200380010020000000100000000000008000000000001000000000002000000000000400000000100000000000002000000000020000000800004000008000006000a08 s t := by
  simp only [execLinkSilence, done, whenUp, whenOn] at h
  injection h with h
  subst h
  repeat' first
    | decide
    | with_reducible exact Only.refl _ _
    | with_reducible apply Only.then linkSilence_only
    | split

theorem execRamhelControlRx_only {x0 : _} {x1 : _} {s : State} {t : State} (h : execRamhelControlRx x0 x1 s = .next t) : Only 0x20002020560790000000520211b8019607f0000bbd8000000000000800000000000100000000000201c04134000040000000010000000000000200000000002000000080000400000800000f182e0e s t := by
  simp only [execRamhelControlRx, done, whenUp, whenOn] at h
  injection h with h
  subst h
  repeat' first
    | decide
    | with_reducible exact Only.refl _ _
    | with_reducible apply Only.then ramhelControlRx_only
    | split

theorem execMemberIsolated_only {s : State} {t : State} (h : execMemberIsolated s = .next t) : Only 0x20002000520590000000520211b8009603f0000b8d8000000000000800000000000100000000000201c04134000040000000010000000000000200000000002000000080000400001800000f182f0e s t := by
  simp only [execMemberIsolated, done, whenUp, whenOn] at h
  injection h with h
  subst h
  repeat' first
    | decide
    | with_reducible exact Only.refl _ _
    | with_reducible apply Only.then memberIsolated_only
    | split

theorem execLinkStepLimit_only {x0 : _} {s : State} {t : State} (h : execLinkStepLimit x0 s = .next t) : Only 0x20002081140580000000000200380010020000000100000000000008000000000001000000000002000000000000400000000100000000000002000000000020000000800004000008000006000a48 s t := by
  simp only [execLinkStepLimit, done, whenUp, whenOn] at h
  injection h with h
  subst h
  repeat' first
    | decide
    | with_reducible exact Only.refl _ _
    | with_reducible apply Only.then linkStepLimit_only
    | split

theorem execRamhelPageRx_only {x0 : _} {x1 : _} {x2 : _} {x3 : _} {x4 : _} {s : State} {t : State} (h : execRamhelPageRx x0 x1 x2 x3 x4 s = .next t) : Only 0x20002020020110000000520211b8019607f0000bbd800000000000083e3c0000be7d00000000000201c04134000040000000010000000000000200000000002000000080000400000800000f583e0e s t := by
  simp only [execRamhelPageRx, done, whenUp, whenOn] at h
  injection h with h
  subst h
  repeat' first
    | decide
    | with_reducible exact Only.refl _ _
    | with_reducible apply Only.then ramhelPageRx_only
    | split

theorem execRamhelTallyRx_only {x0 : _} {x1 : _} {x2 : _} {x3 : _} {x4 : _} {s : State} {t : State} (h : execRamhelTallyRx x0 x1 x2 x3 x4 s = .next t) : Only 0x20002020020110000000520211b8019607f0000bbd800000000000083e3c0000be7d00000000000201c04134000040000000010000000000000200000000002000000080000400000800000f583e0e s t := by
  simp only [execRamhelTallyRx, done, whenUp, whenOn] at h
  injection h with h
  subst h
  repeat' first
    | decide
    | with_reducible exact Only.refl _ _
    | with_reducible apply Only.then ramhelTallyRx_only
    | split

theorem execLinkRetrain_only {x0 : _} {s : State} {t : State} (h : execLinkRetrain x0 s = .next t) : Only 0x80000000000000000000000000000000000000000000000000000000000000000000000000000000000000000000000000000000000000000000000000000000000000000000000002000040 s t := by
  simp only [execLinkRetrain, done, whenUp, whenOn] at h
  injection h with h
  subst h
  repeat' first
    | decide
    | with_reducible exact Only.refl _ _
    | with_reducible apply Only.then linkRetrain_only
    | split

theorem execResyncDone_only {x0 : _} {s : State} {t : State} (h : execResyncDone x0 s = .next t) : Only 0x20002000560780000000020211b8009603f0000b8d8000000000000800000000000100000000000201c04134000040000000010000000000000200000000002000000080000400000800000f182e0e s t := by
  simp only [execResyncDone, done, whenUp, whenOn] at h
  injection h with h
  subst h
  repeat' first
    | decide
    | with_reducible exact Only.refl _ _
    | with_reducible apply Only.then resyncDone_only
    | split

theorem execRamhelE2eAckRx_only {x0 : _} {x1 : _} {x2 : _} {s : State} {t : State} (h : execRamhelE2eAckRx x0 x1 x2 s = .next t) : Only 0x20000000000000000000000000000000000000000000000000000000000000000000000000000000000000000000000000000000000000000000000000000000000000000000000006000000 s t := by
  simp only [execRamhelE2eAckRx, done, whenUp, whenOn] at h
  injection h with h
  subst h
  repeat' first
    | decide
    | with_reducible exact Only.refl _ _
    | with_reducible apply Only.then ramhelE2eAckRx_only
    | split

theorem execRamhelMsgRx_only {x0 : _} {x1 : _} {x2 : _} {x3 : _} {s : State} {t : State} (h : execRamhelMsgRx x0 x1 x2 x3 s = .next t) : Only 0x20002020020110000000520211b8019607f0000bbd800000000000083e3c0000be7d00000000000201c04134000040000000010000000000000200000000002000000080000400000800000f583e0e s t := by
  simp only [execRamhelMsgRx, done, whenUp, whenOn] at h
  injection h with h
  subst h
  repeat' first
    | decide
    | with_reducible exact Only.refl _ _
    | with_reducible apply Only.then ramhelMsgRx_only
    | split

theorem execRamhelTimeRx_only {x0 : _} {x1 : _} {x2 : _} {x3 : _} {x4 : _} {s : State} {t : State} (h : execRamhelTimeRx x0 x1 x2 x3 x4 s = .next t) : Only 0x2000202001010000000000020038001000000000010000000000000800000000000100000000000200000000000040000000010000000000000200000000002000000080000400061800000e000b88 s t := by
  simp only [execRamhelTimeRx, done, whenUp, whenOn] at h
  injection h with h
  subst h
  repeat' first
    | decide
    | with_reducible exact Only.refl _ _
    | with_reducible apply Only.then ramhelTimeRx_only
    | split

end Sys2Proof.Machine
end

