-- ==== Sys2Proof/Laws/BoundSecurity.lean ====
section
/-!
SUPPORT. What each function of Machine/Security.lean can change at most.
-/

namespace Sys2Proof.Machine
open Sys2Proof Sys2Proof.Safety

theorem State.setUpd_only {s : State} {x1 : _} : Only 0x1400000000000000000000000000000000000000000000000000000000000000000000000000000000000000000000000000000000000000000000000000000000000000000000000000000000000 s (State.setUpd s x1) := by
  unfold State.setUpd
  repeat' first
    | decide
    | with_reducible exact Only.refl _ _
    | with_reducible apply Only.then (State.setF_only ?_)

theorem State.abandon_only {s : State} {x1 : _} : Only 0x237e2000000100000000000200380010000000000100000000000008000000000001000000000002000000000000400000000100000000000002000000000020000000800004000008010004000e28 s (State.abandon s x1) := by
  unfold State.abandon
  repeat' first
    | decide
    | with_reducible exact Only.refl _ _
    | with_reducible apply Only.then State.setSlotState_only
    | with_reducible apply Only.then (State.addSat_only ?_)
    | with_reducible apply Only.then State.showStaged_only
    | with_reducible apply Only.then State.setUpd_only
    | with_reducible apply Only.then State.event_only
    | dsimp only
    | (simp only [Only.lit]; with_reducible apply Only.upd (hpending := rfl) <;> first | exact Or.inl rfl | exact Or.inr (by with_reducible rfl) | skip)

theorem State.activate_only {s : State} : Only 0x21422000000100000000000200380010000000000100000000000008000000000001000000000002000000000000400000000100000000000002000000000020000000800004000008010004004a28 s (State.activate s).1 := by
  unfold State.activate
  repeat' first
    | decide
    | with_reducible exact Only.refl _ _
    | with_reducible apply Only.then (State.setF_only ?_)
    | with_reducible apply Only.then State.syncSlots_only
    | with_reducible apply Only.then State.event_only
    | with_reducible apply Only.then State.setUpd_only
    | split
    | dsimp only
    | (simp only [Only.lit]; with_reducible apply Only.upd (hpending := rfl) <;> first | exact Or.inl rfl | exact Or.inr (by with_reducible rfl) | skip)

theorem State.answer_only {s : State} {x1 : _} {x2 : _} {x3 : _} : Only 0x1000800000000000000000000000000000000000000000000000000000000000000000000000000000000000000000000000000000000000000000000000000000004002800 s (State.answer s x1 x2 x3) := by
  unfold State.answer
  repeat' first
    | with_reducible assumption
    | decide
    | with_reducible exact Only.refl _ _
    | with_reducible apply Only.then (State.setF_only ?_)
    | with_reducible apply Only.then State.irq_only
    | with_reducible apply Only.foldl
    | with_reducible apply Only.foldl1
    | intro _ _ _
    | split
    | dsimp only
    | (simp only [Only.lit]; with_reducible apply Only.upd (hpending := rfl) <;> first | exact Or.inl rfl | exact Or.inr (by with_reducible rfl) | skip)

theorem State.attest_only {s : State} : Only 0x22002000000100000000000200380010000000000100000000000008000000000001000000000002000000000000400000000100000000000002000000000020000000800004000008000004000a08 s (State.attest s).1 := by
  unfold State.attest
  repeat' first
    | decide
    | with_reducible exact Only.refl _ _
    | with_reducible apply Only.then State.emit_only
    | with_reducible apply Only.then State.event_only
    | with_reducible apply Only.then (State.addWrap_only ?_)
    | split
    | dsimp only

theorem State.freezeTt_only {s : State} {x1 : _} : Only 0x204000 s (State.freezeTt s x1) := by
  unfold State.freezeTt
  repeat' first
    | with_reducible assumption
    | decide
    | with_reducible exact Only.refl _ _
    | with_reducible apply Only.foldl
    | with_reducible apply Only.foldl1
    | intro _ _ _
    | dsimp only
    | (simp only [Only.lit]; with_reducible apply Only.upd (hpending := rfl) <;> first | exact Or.inl rfl | exact Or.inr (by with_reducible rfl) | skip)

theorem State.giveCode_only {s : State} {x1 : _} {x2 : _} : Only 0x400 s (State.giveCode s x1 x2) := by
  unfold State.giveCode
  repeat' first
    | decide
    | with_reducible exact Only.refl _ _
    | with_reducible apply Only.then State.setUnit_only
    | dsimp only

theorem State.takeSensorSettings_only {s : State} {x1 : _} {x2 : _} : Only 0x3fffffffffffffffffffffffffffffffffffffffffffffffffffffffffffffffffffffffffffffffffffffffffffffffffffffffffffffffffffffffffffffffffffffffffffffffffffffffff4014a09 s (State.takeSensorSettings s x1 x2) := by
  unfold State.takeSensorSettings
  repeat' first
    | with_reducible assumption
    | decide
    | with_reducible exact Only.refl _ _
    | with_reducible apply Only.then State.joinNew_only
    | with_reducible apply Only.then State.putSettings_only
    | with_reducible apply Only.then State.showDelays_only
    | with_reducible apply Only.then State.chanChanged_only
    | with_reducible apply Only.foldl
    | with_reducible apply Only.foldl1
    | intro _ _ _
    | dsimp only
    | (simp only [Only.lit]; with_reducible apply Only.upd (hpending := rfl) <;> first | exact Or.inl rfl | exact Or.inr (by with_reducible rfl) | skip)

theorem State.goLive_only {s : State} : Only 0x3fffffffffffffffffffffffffffffffffffffffffffffffffffffffffffffffffffffffffffffffffffffffffffffffffffffffffffffffffffffffffffffffffffffffffffffffffffffffff4214e89 s (State.goLive s) := by
  unfold State.goLive
  repeat' first
    | decide
    | with_reducible exact Only.refl _ _
    | with_reducible apply Only.then State.freezeTt_only
    | with_reducible apply Only.then State.putSettings_only
    | with_reducible apply Only.then State.takeSensorSettings_only
    | with_reducible apply Only.then (State.setPair_only ?_ ?_)
    | with_reducible apply Only.then (State.setF_only ?_)
    | with_reducible apply Only.then (State.addSat_only ?_)
    | with_reducible apply Only.then State.showStaged_only
    | with_reducible apply Only.then State.setUpd_only
    | with_reducible apply Only.then State.event_only
    | dsimp only
    | (simp only [Only.lit]; with_reducible apply Only.upd (hpending := rfl) <;> first | exact Or.inl rfl | exact Or.inr (by with_reducible rfl) | skip)

theorem State.sessionCmd_only {s : State} {x1 : _} : Only 0x20002000000100000000000200380010000000000100000000000008000000000001202200000003000000000000400000000100000000000002000000000020000000800004000008000004600a88 s (State.sessionCmd s x1).1 := by
  unfold State.sessionCmd
  repeat' first
    | decide
    | with_reducible exact Only.refl _ _
    | with_reducible apply Only.then State.startSession_only
    | with_reducible apply Only.then State.stopSession_only
    | with_reducible apply Only.then State.event_only
    | split
    | dsimp only

theorem State.queueUnits_only {s : State} {x1 : _} : Only 0x4000000000000000000000000000000000000000000000000000000000000000000000000000000000000000000000000000000000000000000000000000000400 s (State.queueUnits s x1) := by
  unfold State.queueUnits
  repeat' first
    | decide
    | with_reducible exact Only.refl _ _
    | with_reducible apply Only.then (State.setF_only ?_)
    | dsimp only
    | (simp only [Only.lit]; with_reducible apply Only.upd (hpending := rfl) <;> first | exact Or.inl rfl | exact Or.inr (by with_reducible rfl) | skip)

theorem State.selfTestCmd_only {s : State} : Only 0x4000000000000000000000000000000000000000000000000000000000000000000000000000000000000000000000000000000000000000000000000000000400 s (State.selfTestCmd s).1 := by
  unfold State.selfTestCmd
  repeat' first
    | decide
    | with_reducible exact Only.refl _ _
    | with_reducible apply Only.then State.queueUnits_only
    | split
    | dsimp only

theorem State.stageBegin_only {s : State} : Only 0xe0000000000000000000000000000000000000000000000000000000000000000000000000000000000000000000000000000000000000000000000000000000000000000000000000000004020 s (State.stageBegin s).1 := by
  unfold State.stageBegin
  repeat' first
    | decide
    | with_reducible exact Only.refl _ _
    | with_reducible apply Only.then (State.setF_only ?_)
    | split
    | dsimp only
    | (simp only [Only.lit]; with_reducible apply Only.upd (hpending := rfl) <;> first | exact Or.inl rfl | exact Or.inr (by with_reducible rfl) | skip)

theorem State.stageData_only {s : State} : Only 0x4004000 s (State.stageData s).1 := by
  unfold State.stageData
  repeat' first
    | decide
    | with_reducible exact Only.refl _ _
    | with_reducible apply Only.then State.emit_only
    | split
    | dsimp only
    | (simp only [Only.lit]; with_reducible apply Only.upd (hpending := rfl) <;> first | exact Or.inl rfl | exact Or.inr (by with_reducible rfl) | skip)

theorem State.stageEnd_only {s : State} : Only 0x20000000000000000000000000000000000000000000000000000000000000000000000000000000000000000000000000000000000000000000000000000000000000000000000000000000000 s (State.stageEnd s).1 := by
  unfold State.stageEnd
  repeat' first
    | decide
    | with_reducible exact Only.refl _ _
    | with_reducible apply Only.then (State.setF_only ?_)
    | split
    | dsimp only

theorem State.stageAbort_only {s : State} : Only 0x20000000000000000000000000000000000000000000000000000000000000000000000000000000000000000000000000000000000000000000000000000000000000000000000000000004020 s (State.stageAbort s).1 := by
  unfold State.stageAbort
  repeat' first
    | decide
    | with_reducible exact Only.refl _ _
    | with_reducible apply Only.then (State.setF_only ?_)
    | split
    | dsimp only
    | (simp only [Only.lit]; with_reducible apply Only.upd (hpending := rfl) <;> first | exact Or.inl rfl | exact Or.inr (by with_reducible rfl) | skip)

theorem State.mbxRun_only {s : State} {x1 : _} : Only 0x234e200000010000000000020038401000000000010000000000000800000000000120220000000300000000000040000000010000000000000200000000002000000080000400000801000c604ea8 s (State.mbxRun s x1).1 := by
  unfold State.mbxRun
  repeat' first
    | decide
    | with_reducible exact Only.refl _ _
    | with_reducible apply Only.then State.used_only
    | with_reducible apply Only.then State.attest_only
    | with_reducible apply Only.then State.sessionCmd_only
    | with_reducible apply Only.then State.selfTestCmd_only
    | with_reducible apply Only.then State.stageBegin_only
    | with_reducible apply Only.then State.stageData_only
    | with_reducible apply Only.then State.stageEnd_only
    | with_reducible apply Only.then State.stageAbort_only
    | with_reducible apply Only.then State.activate_only
    | split
    | dsimp only

theorem State.syncRoll_only {s : State} : Only 0x400000000000000000000000000000000000000000000000000000000000000000000000000000000000000000000000000000000000000000000000000000000000000000000000000000000000 s (State.syncRoll s) := by
  unfold State.syncRoll
  repeat' first
    | decide
    | with_reducible exact Only.refl _ _
    | with_reducible apply Only.then (State.setF_only ?_)
    | split
    | dsimp only

theorem State.tryLive_only {s : State} : Only 0x3fffffffffffffffffffffffffffffffffffffffffffffffffffffffffffffffffffffffffffffffffffffffffffffffffffffffffffffffffffffffffffffffffffffffffffffffffffffffff4214e89 s (State.tryLive s) := by
  unfold State.tryLive
  repeat' first
    | decide
    | with_reducible exact Only.refl _ _
    | with_reducible apply Only.then State.goLive_only
    | with_reducible apply Only.then State.syncRoll_only
    | split

theorem doorbell_only {x0 : _} {x1 : _} {s : State} : Only 0x234e2000000100000001000a0038401000000000010000000000000800000000000120220000000300000000000040000000010000000000000200000000002000000080000400000801000c606ea8 s (doorbell x0 x1 s) := by
  unfold doorbell
  repeat' first
    | decide
    | with_reducible exact Only.refl _ _
    | with_reducible apply Only.then State.event_only
    | with_reducible apply Only.then State.answer_only
    | with_reducible apply Only.then State.mbxRun_only
    | with_reducible apply Only.then (State.setF_only ?_)
    | split
    | dsimp only
    | (simp only [Only.lit]; with_reducible apply Only.upd (hpending := rfl) <;> first | exact Or.inl rfl | exact Or.inr (by with_reducible rfl) | skip)

theorem activateCopyDone_only {x0 : _} {s : State} : Only 0x3ffffffffffffffffffffffffffffffffffffffffffffffffffffffffffffffffffffffffffffffffffffffffffffffffffffffffffffffffffffffffffffffffffffffffffffffffffffffffffefffef s (activateCopyDone x0 s) := by
  unfold activateCopyDone
  repeat' first
    | decide
    | with_reducible exact Only.refl _ _
    | with_reducible apply Only.then State.abandon_only
    | with_reducible apply Only.then State.setUpd_only
    | with_reducible apply Only.then State.syncSlots_only
    | with_reducible apply Only.then State.restart_only
    | split
    | dsimp only
    | (simp only [Only.lit]; with_reducible apply Only.upd (hpending := rfl) <;> first | exact Or.inl rfl | exact Or.inr (by with_reducible rfl) | skip)

theorem coreReloadDone_only {x0 : _} {x1 : _} {s : State} : Only 0x3ffffffffffffffffffffffffffffffffffffffffffffffffffffffffffffffffffffffffffffffffffffffffffffffffffffffffffffffffffffffffffffffffffffffffffffffffffffffffffefffef s (coreReloadDone x0 x1 s) := by
  unfold coreReloadDone
  repeat' first
    | decide
    | with_reducible exact Only.refl _ _
    | with_reducible apply Only.then State.restart_only
    | with_reducible apply Only.then State.tryLive_only
    | split
    | dsimp only
    | (simp only [Only.lit]; with_reducible apply Only.upd (hpending := rfl) <;> first | exact Or.inl rfl | exact Or.inr (by with_reducible rfl) | skip)

theorem groupUnitReload_only {x0 : _} {s : State} : Only 0x3fffffffffffffffffffffffffffffffffffffffffffffffffffffffffffffffffffffffffffffffffffffffffffffffffffffffffffffffffffffffffffffffffffffffffffffffffffffffff4214e89 s (groupUnitReload x0 s) := by
  unfold groupUnitReload
  repeat' first
    | with_reducible assumption
    | decide
    | with_reducible exact Only.refl _ _
    | with_reducible apply Only.then State.giveCode_only
    | with_reducible apply Only.then State.putPlace_only
    | with_reducible apply Only.then State.syncUnits_only
    | with_reducible apply Only.then State.swapEvent_only
    | with_reducible apply Only.then State.tryLive_only
    | with_reducible apply Only.then State.syncRoll_only
    | with_reducible apply Only.foldl
    | with_reducible apply Only.foldl1
    | intro _ _ _
    | split
    | dsimp only
    | (simp only [Only.lit]; with_reducible apply Only.upd (hpending := rfl) <;> first | exact Or.inl rfl | exact Or.inr (by with_reducible rfl) | skip)

theorem handoverLoadDone_only {x0 : _} {s : State} : Only 0x237e2000000100000000000200380010000000000100000000000008000000000001000000000002000000000000400000000100000000000002000000000020000000800004000008010004000e28 s (handoverLoadDone x0 s) := by
  unfold handoverLoadDone
  repeat' first
    | decide
    | with_reducible exact Only.refl _ _
    | with_reducible apply Only.then State.abandon_only
    | with_reducible apply Only.then State.setUpd_only
    | split
    | dsimp only
    | (simp only [Only.lit]; with_reducible apply Only.upd (hpending := rfl) <;> first | exact Or.inl rfl | exact Or.inr (by with_reducible rfl) | skip)

theorem handoverTake_only {s : State} : Only 0x9411000000000000000000000000000000000000000000000000000000000000000000000000000000000000000000000000000000000000000000000000000000000000000000000000000004020 s (handoverTake s) := by
  unfold handoverTake
  repeat' first
    | decide
    | with_reducible exact Only.refl _ _
    | with_reducible apply Only.then State.setUpd_only
    | with_reducible apply Only.then State.issueAlias_only
    | with_reducible apply Only.then (State.setB_only ?_)
    | split
    | dsimp only
    | (simp only [Only.lit]; with_reducible apply Only.upd (hpending := rfl) <;> first | exact Or.inl rfl | exact Or.inr (by with_reducible rfl) | skip)

theorem mbxBadCommand_only {x0 : _} {s : State} : Only 0x234e2000000100000001000a0038401000000000010000000000000800000000000120220000000300000000000040000000010000000000000200000000002000000080000400000801000c606ea8 s (mbxBadCommand x0 s) := by
  unfold mbxBadCommand
  repeat' first
    | decide
    | with_reducible exact Only.refl _ _
    | with_reducible apply Only.then doorbell_only
    | split

theorem mbxCmd_only {x0 : _} {x1 : _} {x2 : _} {s : State} : Only 0x234e2000000100000001000a0038401000000000010000000000000800000000000120220000000300000000000040000000010000000000000200000000002000000080000400000801000c606ea8 s (mbxCmd x0 x1 x2 s) := by
  unfold mbxCmd
  repeat' first
    | decide
    | with_reducible exact Only.refl _ _
    | with_reducible apply Only.then doorbell_only
    | split

theorem mbxDmaTimeout_only {s : State} : Only 0x1000800000000000000000000000000000000000000000000000000000000000000000000000000000000000000000000000000000000000000000000000000000004006800 s (mbxDmaTimeout s) := by
  unfold mbxDmaTimeout
  repeat' first
    | decide
    | with_reducible exact Only.refl _ _
    | with_reducible apply Only.then State.answer_only
    | split
    | dsimp only
    | (simp only [Only.lit]; with_reducible apply Only.upd (hpending := rfl) <;> first | exact Or.inl rfl | exact Or.inr (by with_reducible rfl) | skip)

theorem rolloutLimit_only {s : State} : Only 0x3ffffffffffffffffffffffffffffffffffffffffffffffffffffffffffffffffffffffffffffffffffffffffffffffffffffffffffffffffffffffffffffffffffffffffffffffffffffffffffefffef s (rolloutLimit s) := by
  unfold rolloutLimit
  repeat' first
    | decide
    | with_reducible exact Only.refl _ _
    | with_reducible apply Only.then State.restart_only
    | split

theorem stageDataDone_only {s : State} : Only 0x80000000000000001000800000000000000000000000000000000000000000000000000000000000000000000000000000000000000000000000000000000000000000000000000000004006800 s (stageDataDone s) := by
  unfold stageDataDone
  repeat' first
    | decide
    | with_reducible exact Only.refl _ _
    | with_reducible apply Only.then State.answer_only
    | with_reducible apply Only.then (State.setF_only ?_)
    | split
    | dsimp only
    | (simp only [Only.lit]; with_reducible apply Only.upd (hpending := rfl) <;> first | exact Or.inl rfl | exact Or.inr (by with_reducible rfl) | skip)

theorem stageEraseDone_only {s : State} : Only 0x20000000000000000000000000000000000000000000000000000000000000000000000000000000000000000000000000000000000000000000000000000000000000000000000000000000000 s (stageEraseDone s) := by
  unfold stageEraseDone
  repeat' first
    | decide
    | with_reducible exact Only.refl _ _
    | with_reducible apply Only.then (State.setF_only ?_)
    | split

theorem stageVerifyDone_only {x0 : _} {s : State} : Only 0x203e2000000100000000000200380010000000000100000000000008000000000001000000000002000000000000400000000100000000000002000000000020000000800004000008000104000a28 s (stageVerifyDone x0 s) := by
  unfold stageVerifyDone
  repeat' first
    | decide
    | with_reducible exact Only.refl _ _
    | with_reducible apply Only.then State.event_only
    | with_reducible apply Only.then (State.setF_only ?_)
    | with_reducible apply Only.then State.showStaged_only
    | split
    | dsimp only
    | (simp only [Only.lit]; with_reducible apply Only.upd (hpending := rfl) <;> first | exact Or.inl rfl | exact Or.inr (by with_reducible rfl) | skip)

theorem State.rehearse_only {s : State} : Only 0x3fffffffffffffffffffffffffffffffffffffffffffffffffffffffffffffffffffffffffffffffffffffffffffffffffffffffffffffffffffffffffffffffffffffffffffffffffffffffff4200aa9 s (State.rehearse s) := by
  unfold State.rehearse
  repeat' first
    | with_reducible assumption
    | decide
    | with_reducible exact Only.refl _ _
    | with_reducible apply Only.then State.migrate_only
    | with_reducible apply Only.then State.putSettings_only
    | with_reducible apply Only.foldl
    | with_reducible apply Only.foldl1
    | intro _ _ _
    | split
    | dsimp only
    | (simp only [Only.lit]; with_reducible apply Only.upd (hpending := rfl) <;> first | exact Or.inl rfl | exact Or.inr (by with_reducible rfl) | skip)

theorem standbyBootDone_only {s : State} : Only 0x3fffffffffffffffffffffffffffffffffffffffffffffffffffffffffffffffffffffffffffffffffffffffffffffffffffffffffffffffffffffffffffffffffffffffffffffffffffffffff4200ea9 s (standbyBootDone s) := by
  unfold standbyBootDone
  repeat' first
    | decide
    | with_reducible exact Only.refl _ _
    | with_reducible apply Only.then State.nameMissing_only
    | with_reducible apply Only.then State.rehearse_only
    | with_reducible apply Only.then State.migrate_only
    | with_reducible apply Only.then State.putSettings_only
    | with_reducible apply Only.then State.abandon_only
    | with_reducible apply Only.then State.setUpd_only
    | split
    | dsimp only
    | (simp only [Only.lit]; with_reducible apply Only.upd (hpending := rfl) <;> first | exact Or.inl rfl | exact Or.inr (by with_reducible rfl) | skip)

/-! ## Commands -/

theorem execMbxStatus_only {x0 : _} {s : State} {t : State} (h : execMbxStatus x0 s = .next t) : Only 0x234e2000000100000001000a0038401000000000010000000000000800000000000120220000000300000000000040000000010000000000000200000000002000000080000400000801000c606ea8 s t := by
  simp only [execMbxStatus, done, whenUp, whenOn] at h
  injection h with h
  subst h
  repeat' first
    | decide
    | with_reducible exact Only.refl _ _
    | with_reducible apply Only.then mbxCmd_only
    | split

theorem execMbxStageAbort_only {x0 : _} {s : State} {t : State} (h : execMbxStageAbort x0 s = .next t) : Only 0x234e2000000100000001000a0038401000000000010000000000000800000000000120220000000300000000000040000000010000000000000200000000002000000080000400000801000c606ea8 s t := by
  simp only [execMbxStageAbort, done, whenUp, whenOn] at h
  injection h with h
  subst h
  repeat' first
    | decide
    | with_reducible exact Only.refl _ _
    | with_reducible apply Only.then mbxCmd_only
    | split

theorem execMbxStageData_only {x0 : _} {x1 : _} {s : State} {t : State} (h : execMbxStageData x0 x1 s = .next t) : Only 0x234e2000000100000001000a0038401000000000010000000000000800000000000120220000000300000000000040000000010000000000000200000000002000000080000400000801000c606ea8 s t := by
  simp only [execMbxStageData, done, whenUp, whenOn] at h
  injection h with h
  subst h
  repeat' first
    | decide
    | with_reducible exact Only.refl _ _
    | with_reducible apply Only.then mbxCmd_only
    | split

theorem execCoreReloadDone_only {x0 : _} {x1 : _} {s : State} {t : State} (h : execCoreReloadDone x0 x1 s = .next t) : Only 0x3ffffffffffffffffffffffffffffffffffffffffffffffffffffffffffffffffffffffffffffffffffffffffffffffffffffffffffffffffffffffffffffffffffffffffffffffffffffffffffefffef s t := by
  simp only [execCoreReloadDone, done, whenUp, whenOn] at h
  injection h with h
  subst h
  repeat' first
    | decide
    | with_reducible exact Only.refl _ _
    | with_reducible apply Only.then coreReloadDone_only
    | split

theorem execMbxStageEnd_only {x0 : _} {s : State} {t : State} (h : execMbxStageEnd x0 s = .next t) : Only 0x234e2000000100000001000a0038401000000000010000000000000800000000000120220000000300000000000040000000010000000000000200000000002000000080000400000801000c606ea8 s t := by
  simp only [execMbxStageEnd, done, whenUp, whenOn] at h
  injection h with h
  subst h
  repeat' first
    | decide
    | with_reducible exact Only.refl _ _
    | with_reducible apply Only.then mbxCmd_only
    | split

theorem execStageEraseDone_only {s : State} {t : State} (h : execStageEraseDone s = .next t) : Only 0x20000000000000000000000000000000000000000000000000000000000000000000000000000000000000000000000000000000000000000000000000000000000000000000000000000000000 s t := by
  simp only [execStageEraseDone, done, whenUp, whenOn] at h
  injection h with h
  subst h
  repeat' first
    | decide
    | with_reducible exact Only.refl _ _
    | with_reducible apply Only.then stageEraseDone_only
    | split

theorem execStandbyBootDone_only {s : State} {t : State} (h : execStandbyBootDone s = .next t) : Only 0x3fffffffffffffffffffffffffffffffffffffffffffffffffffffffffffffffffffffffffffffffffffffffffffffffffffffffffffffffffffffffffffffffffffffffffffffffffffffffff4200ea9 s t := by
  simp only [execStandbyBootDone, done, whenUp, whenOn] at h
  injection h with h
  subst h
  repeat' first
    | decide
    | with_reducible exact Only.refl _ _
    | with_reducible apply Only.then standbyBootDone_only
    | split

theorem execMbxActivate_only {x0 : _} {s : State} {t : State} (h : execMbxActivate x0 s = .next t) : Only 0x234e2000000100000001000a0038401000000000010000000000000800000000000120220000000300000000000040000000010000000000000200000000002000000080000400000801000c606ea8 s t := by
  simp only [execMbxActivate, done, whenUp, whenOn] at h
  injection h with h
  subst h
  repeat' first
    | decide
    | with_reducible exact Only.refl _ _
    | with_reducible apply Only.then mbxCmd_only
    | split

theorem execMbxSessionStart_only {x0 : _} {s : State} {t : State} (h : execMbxSessionStart x0 s = .next t) : Only 0x234e2000000100000001000a0038401000000000010000000000000800000000000120220000000300000000000040000000010000000000000200000000002000000080000400000801000c606ea8 s t := by
  simp only [execMbxSessionStart, done, whenUp, whenOn] at h
  injection h with h
  subst h
  repeat' first
    | decide
    | with_reducible exact Only.refl _ _
    | with_reducible apply Only.then mbxCmd_only
    | split

theorem execHandoverLoadDone_only {x0 : _} {s : State} {t : State} (h : execHandoverLoadDone x0 s = .next t) : Only 0x237e2000000100000000000200380010000000000100000000000008000000000001000000000002000000000000400000000100000000000002000000000020000000800004000008010004000e28 s t := by
  simp only [execHandoverLoadDone, done, whenUp, whenOn] at h
  injection h with h
  subst h
  repeat' first
    | decide
    | with_reducible exact Only.refl _ _
    | with_reducible apply Only.then handoverLoadDone_only
    | split

theorem execStageDataDone_only {s : State} {t : State} (h : execStageDataDone s = .next t) : Only 0x80000000000000001000800000000000000000000000000000000000000000000000000000000000000000000000000000000000000000000000000000000000000000000000000000004006800 s t := by
  simp only [execStageDataDone, done, whenUp, whenOn] at h
  injection h with h
  subst h
  repeat' first
    | decide
    | with_reducible exact Only.refl _ _
    | with_reducible apply Only.then stageDataDone_only
    | split

theorem execMbxDmaTimeout_only {s : State} {t : State} (h : execMbxDmaTimeout s = .next t) : Only 0x1000800000000000000000000000000000000000000000000000000000000000000000000000000000000000000000000000000000000000000000000000000000004006800 s t := by
  simp only [execMbxDmaTimeout, done, whenUp, whenOn] at h
  injection h with h
  subst h
  repeat' first
    | decide
    | with_reducible exact Only.refl _ _
    | with_reducible apply Only.then mbxDmaTimeout_only
    | split

theorem execMbxSelftest_only {x0 : _} {s : State} {t : State} (h : execMbxSelftest x0 s = .next t) : Only 0x234e2000000100000001000a0038401000000000010000000000000800000000000120220000000300000000000040000000010000000000000200000000002000000080000400000801000c606ea8 s t := by
  simp only [execMbxSelftest, done, whenUp, whenOn] at h
  injection h with h
  subst h
  repeat' first
    | decide
    | with_reducible exact Only.refl _ _
    | with_reducible apply Only.then mbxCmd_only
    | split

theorem execStageVerifyDone_only {x0 : _} {s : State} {t : State} (h : execStageVerifyDone x0 s = .next t) : Only 0x203e2000000100000000000200380010000000000100000000000008000000000001000000000002000000000000400000000100000000000002000000000020000000800004000008000104000a28 s t := by
  simp only [execStageVerifyDone, done, whenUp, whenOn] at h
  injection h with h
  subst h
  repeat' first
    | decide
    | with_reducible exact Only.refl _ _
    | with_reducible apply Only.then stageVerifyDone_only
    | split

theorem execRolloutLimit_only {s : State} {t : State} (h : execRolloutLimit s = .next t) : Only 0x3ffffffffffffffffffffffffffffffffffffffffffffffffffffffffffffffffffffffffffffffffffffffffffffffffffffffffffffffffffffffffffffffffffffffffffffffffffffffffffefffef s t := by
  simp only [execRolloutLimit, done, whenUp, whenOn] at h
  injection h with h
  subst h
  repeat' first
    | decide
    | with_reducible exact Only.refl _ _
    | with_reducible apply Only.then rolloutLimit_only
    | split

theorem execMbxStageBegin_only {x0 : _} {s : State} {t : State} (h : execMbxStageBegin x0 s = .next t) : Only 0x234e2000000100000001000a0038401000000000010000000000000800000000000120220000000300000000000040000000010000000000000200000000002000000080000400000801000c606ea8 s t := by
  simp only [execMbxStageBegin, done, whenUp, whenOn] at h
  injection h with h
  subst h
  repeat' first
    | decide
    | with_reducible exact Only.refl _ _
    | with_reducible apply Only.then mbxCmd_only
    | split

theorem execActivateCopyDone_only {x0 : _} {s : State} {t : State} (h : execActivateCopyDone x0 s = .next t) : Only 0x3ffffffffffffffffffffffffffffffffffffffffffffffffffffffffffffffffffffffffffffffffffffffffffffffffffffffffffffffffffffffffffffffffffffffffffffffffffffffffffefffef s t := by
  simp only [execActivateCopyDone, done, whenUp, whenOn] at h
  injection h with h
  subst h
  repeat' first
    | decide
    | with_reducible exact Only.refl _ _
    | with_reducible apply Only.then activateCopyDone_only
    | split

theorem execMbxBadCommand_only {x0 : _} {s : State} {t : State} (h : execMbxBadCommand x0 s = .next t) : Only 0x234e2000000100000001000a0038401000000000010000000000000800000000000120220000000300000000000040000000010000000000000200000000002000000080000400000801000c606ea8 s t := by
  simp only [execMbxBadCommand, done, whenUp, whenOn] at h
  injection h with h
  subst h
  repeat' first
    | decide
    | with_reducible exact Only.refl _ _
    | with_reducible apply Only.then mbxBadCommand_only
    | split

theorem execHandoverTake_only {s : State} {t : State} (h : execHandoverTake s = .next t) : Only 0x9411000000000000000000000000000000000000000000000000000000000000000000000000000000000000000000000000000000000000000000000000000000000000000000000000000004020 s t := by
  simp only [execHandoverTake, done, whenUp, whenOn] at h
  injection h with h
  subst h
  repeat' first
    | decide
    | with_reducible exact Only.refl _ _
    | with_reducible apply Only.then handoverTake_only
    | split

theorem execMbxSessionStop_only {x0 : _} {s : State} {t : State} (h : execMbxSessionStop x0 s = .next t) : Only 0x234e2000000100000001000a0038401000000000010000000000000800000000000120220000000300000000000040000000010000000000000200000000002000000080000400000801000c606ea8 s t := by
  simp only [execMbxSessionStop, done, whenUp, whenOn] at h
  injection h with h
  subst h
  repeat' first
    | decide
    | with_reducible exact Only.refl _ _
    | with_reducible apply Only.then mbxCmd_only
    | split

theorem execMbxAttest_only {x0 : _} {s : State} {t : State} (h : execMbxAttest x0 s = .next t) : Only 0x234e2000000100000001000a0038401000000000010000000000000800000000000120220000000300000000000040000000010000000000000200000000002000000080000400000801000c606ea8 s t := by
  simp only [execMbxAttest, done, whenUp, whenOn] at h
  injection h with h
  subst h
  repeat' first
    | decide
    | with_reducible exact Only.refl _ _
    | with_reducible apply Only.then mbxCmd_only
    | split

theorem execGroupUnitReload_only {x0 : _} {s : State} {t : State} (h : execGroupUnitReload x0 s = .next t) : Only 0x3fffffffffffffffffffffffffffffffffffffffffffffffffffffffffffffffffffffffffffffffffffffffffffffffffffffffffffffffffffffffffffffffffffffffffffffffffffffffff4214e89 s t := by
  simp only [execGroupUnitReload, done, whenUp, whenOn] at h
  injection h with h
  subst h
  repeat' first
    | decide
    | with_reducible exact Only.refl _ _
    | with_reducible apply Only.then groupUnitReload_only
    | split

end Sys2Proof.Machine
end

