-- ==== Sys2Proof/Laws/BoundSpares.lean ====
section
/-!
SUPPORT. What each function of Machine/Spares.lean can change at most.
-/

namespace Sys2Proof.Machine
open Sys2Proof Sys2Proof.Safety

theorem State.beginVisit_only {s : State} {x1 : _} {x2 : _} {x3 : _} : Only 0x400 s (State.beginVisit s x1 x2 x3) := by
  unfold State.beginVisit
  repeat' first
    | decide
    | with_reducible exact Only.refl _ _
    | with_reducible apply Only.then State.setNextVisit_only
    | split
    | dsimp only
    | (simp only [Only.lit]; with_reducible apply Only.upd (hpending := rfl) <;> first | exact Or.inl rfl | exact Or.inr (by with_reducible rfl) | skip)

theorem State.dropHandover_only {s : State} {x1 : _} : Only 0x237e2000000100000000000200380010000000000100000000000008000000000001000000000002000000000000400000000100000000000002000000000020000000800004000008010004000e28 s (State.dropHandover s x1) := by
  unfold State.dropHandover
  repeat' first
    | decide
    | with_reducible exact Only.refl _ _
    | with_reducible apply Only.then State.abandon_only
    | split

theorem State.dequeue_only {s : State} {x1 : _} {x2 : _} {x3 : _} : Only 0x30400000000000000000000000000000000000000000000000000000000000000000000000000000000000000000000000000000000000000000000000000c000e08 s (State.dequeue s x1 x2 x3) := by
  unfold State.dequeue
  repeat' first
    | decide
    | with_reducible exact Only.refl _ _
    | with_reducible apply Only.then (State.setF_only ?_)
    | with_reducible apply Only.then State.warnOpen_only
    | split
    | dsimp only
    | (simp only [Only.lit]; with_reducible apply Only.upd (hpending := rfl) <;> first | exact Or.inl rfl | exact Or.inr (by with_reducible rfl) | skip)

theorem State.rejoin_only {s : State} {x1 : _} {x2 : _} : Only 0x2000200000010000000000020e38001800000000038000000000001c000000000003800000000002000000000000400000000f80000000000007000000000020000000800004000008004104040e08 s (State.rejoin s x1 x2) := by
  unfold State.rejoin
  repeat' first
    | decide
    | with_reducible exact Only.refl _ _
    | with_reducible apply Only.then State.setUnit_only
    | with_reducible apply Only.then State.syncUnits_only
    | with_reducible apply Only.then State.putPlace_only
    | with_reducible apply Only.then State.syncDegraded_only
    | with_reducible apply Only.then State.refit_only
    | split
    | dsimp only
    | (simp only [Only.lit]; with_reducible apply Only.upd (hpending := rfl) <;> first | exact Or.inl rfl | exact Or.inr (by with_reducible rfl) | skip)

theorem State.repairLanes_only {s : State} {x1 : _} : Only 0x2000000000000000000000000000000000000000000000000000000000000000000000000 s (State.repairLanes s x1) := by
  unfold State.repairLanes
  repeat' first
    | with_reducible assumption
    | decide
    | with_reducible exact Only.refl _ _
    | with_reducible apply Only.then (State.setF_only ?_)
    | with_reducible apply Only.foldl
    | with_reducible apply Only.foldl1
    | intro _ _ _
    | split
    | dsimp only

theorem State.stepVisit_only {s : State} {x1 : _} : Only 0x400 s (State.stepVisit s x1) := by
  unfold State.stepVisit
  repeat' first
    | decide
    | with_reducible exact Only.refl _ _
    | split
    | dsimp only
    | (simp only [Only.lit]; with_reducible apply Only.upd (hpending := rfl) <;> first | exact Or.inl rfl | exact Or.inr (by with_reducible rfl) | skip)

theorem firmwareWatchdog_only {x0 : _} {s : State} : Only 0x3ffffffffffffffffffffffffffffffffffffffffffffffffffffffffffffffffffffffffffffffffffffffffffffffffffffffffffffffffffffffffffffffffffffffffffffffffffffffffffefffef s (firmwareWatchdog x0 s) := by
  unfold firmwareWatchdog
  repeat' first
    | decide
    | with_reducible exact Only.refl _ _
    | with_reducible apply Only.then State.event_only
    | with_reducible apply Only.then (State.addSat_only ?_)
    | with_reducible apply Only.then State.dropHandover_only
    | with_reducible apply Only.then State.restart_only
    | split
    | dsimp only
    | (simp only [Only.lit]; with_reducible apply Only.upd (hpending := rfl) <;> first | exact Or.inl rfl | exact Or.inr (by with_reducible rfl) | skip)

theorem retest_only {x0 : _} {x1 : _} {x2 : _} {s : State} : Only 0x1012400a00000010000000000028e38c01800000000038000000000001c000000000003800000000002000000000000400000000f80000000000007000000000020000000800004000008f84174040e18 s (retest x0 x1 x2 s) := by
  unfold retest
  repeat' first
    | decide
    | with_reducible exact Only.refl _ _
    | with_reducible apply Only.then State.setUnit_only
    | with_reducible apply Only.then State.lastTest_only
    | with_reducible apply Only.then State.rejoin_only
    | with_reducible apply Only.then State.syncUnits_only
    | with_reducible apply Only.then State.noteSpares_only
    | with_reducible apply Only.then State.retireUnit_only
    | with_reducible apply Only.then (State.addSat_only ?_)
    | split
    | dsimp only

theorem selfTestDone_only {x0 : _} {x1 : _} {x2 : _} {s : State} : Only 0x1012400a00000010000000000028e38c01800000000038000000000001c000000000003800000000002000000000000400000000f80000000000007000000000020000000800004000008f8417c040e18 s (selfTestDone x0 x1 x2 s) := by
  unfold selfTestDone
  repeat' first
    | decide
    | with_reducible exact Only.refl _ _
    | with_reducible apply Only.then State.setUnit_only
    | with_reducible apply Only.then State.lastTest_only
    | with_reducible apply Only.then State.dequeue_only
    | with_reducible apply Only.then State.stepVisit_only
    | with_reducible apply Only.then State.unitFails_only
    | with_reducible apply Only.then State.event_only
    | with_reducible apply Only.then (State.addSat_only ?_)
    | split
    | dsimp only

theorem spareVisit_only {x0 : _} {x1 : _} {x2 : _} {x3 : _} {s : State} : Only 0x3ffffffffffffffffffffffffffffffffffffffffffffffffffffffffffffffffffffffffffffffffffffffffffffffffffffffffffffffffffffffffffffffffffffffffffffffffffffffffffefffef s (spareVisit x0 x1 x2 x3 s) := by
  unfold spareVisit
  repeat' first
    | with_reducible assumption
    | decide
    | with_reducible exact Only.refl _ _
    | with_reducible apply Only.then State.repairLanes_only
    | with_reducible apply Only.then State.restart_only
    | with_reducible apply Only.then State.beginVisit_only
    | with_reducible apply Only.then (State.addWrap_only ?_)
    | with_reducible apply Only.foldl
    | with_reducible apply Only.foldl1
    | intro _ _ _
    | split
    | dsimp only

theorem unitSwap_only {x0 : _} {x1 : _} {s : State} : Only 0x2000200000010000000000020e38001000000000038000000000001c000000000003800000000002000000000000400000000780000000000007000000000020000000800004000008000004000e08 s (unitSwap x0 x1 s) := by
  unfold unitSwap
  repeat' first
    | decide
    | with_reducible exact Only.refl _ _
    | with_reducible apply Only.then State.syncUnits_only
    | with_reducible apply Only.then State.swapEvent_only
    | with_reducible apply Only.then State.putPlace_only
    | with_reducible apply Only.then State.stepVisit_only
    | with_reducible apply Only.then State.dropVisit_only
    | split
    | dsimp only

theorem visitWaitWarning_only {x0 : _} {x1 : _} {s : State} : Only 0x30000000000000000000000000000000000000000000000000000000000000000000000000000000000000000000000000000000000000000000000000000c000a08 s (visitWaitWarning x0 x1 s) := by
  unfold visitWaitWarning
  repeat' first
    | decide
    | with_reducible exact Only.refl _ _
    | with_reducible apply Only.then State.warnOpen_only
    | split

/-! ## Commands -/

theorem execSelfTestDone_only {x0 : _} {x1 : _} {x2 : _} {s : State} {t : State} (h : execSelfTestDone x0 x1 x2 s = .next t) : Only 0x1012400a00000010000000000028e38c01800000000038000000000001c000000000003800000000002000000000000400000000f80000000000007000000000020000000800004000008f8417c040e18 s t := by
  simp only [execSelfTestDone, done, whenUp, whenOn] at h
  injection h with h
  subst h
  repeat' first
    | decide
    | with_reducible exact Only.refl _ _
    | with_reducible apply Only.then selfTestDone_only
    | split

theorem execFirmwareWatchdog_only {x0 : _} {s : State} {t : State} (h : execFirmwareWatchdog x0 s = .next t) : Only 0x3ffffffffffffffffffffffffffffffffffffffffffffffffffffffffffffffffffffffffffffffffffffffffffffffffffffffffffffffffffffffffffffffffffffffffffffffffffffffffffefffef s t := by
  simp only [execFirmwareWatchdog, done, whenUp, whenOn] at h
  injection h with h
  subst h
  repeat' first
    | decide
    | with_reducible exact Only.refl _ _
    | with_reducible apply Only.then firmwareWatchdog_only
    | split

theorem execUnitSwap_only {x0 : _} {x1 : _} {s : State} {t : State} (h : execUnitSwap x0 x1 s = .next t) : Only 0x2000200000010000000000020e38001000000000038000000000001c000000000003800000000002000000000000400000000780000000000007000000000020000000800004000008000004000e08 s t := by
  simp only [execUnitSwap, done, whenUp, whenOn] at h
  injection h with h
  subst h
  repeat' first
    | decide
    | with_reducible exact Only.refl _ _
    | with_reducible apply Only.then unitSwap_only
    | split

theorem execRetest_only {x0 : _} {x1 : _} {x2 : _} {s : State} {t : State} (h : execRetest x0 x1 x2 s = .next t) : Only 0x1012400a00000010000000000028e38c01800000000038000000000001c000000000003800000000002000000000000400000000f80000000000007000000000020000000800004000008f84174040e18 s t := by
  simp only [execRetest, done, whenUp, whenOn] at h
  injection h with h
  subst h
  repeat' first
    | decide
    | with_reducible exact Only.refl _ _
    | with_reducible apply Only.then retest_only
    | split

theorem execSpareVisit_only {x0 : _} {x1 : _} {x2 : _} {x3 : _} {s : State} {t : State} (h : execSpareVisit x0 x1 x2 x3 s = .next t) : Only 0x3ffffffffffffffffffffffffffffffffffffffffffffffffffffffffffffffffffffffffffffffffffffffffffffffffffffffffffffffffffffffffffffffffffffffffffffffffffffffffffefffef s t := by
  simp only [execSpareVisit, done, whenUp, whenOn] at h
  injection h with h
  subst h
  repeat' first
    | decide
    | with_reducible exact Only.refl _ _
    | with_reducible apply Only.then spareVisit_only
    | split

theorem execVisitWaitWarning_only {x0 : _} {x1 : _} {s : State} {t : State} (h : execVisitWaitWarning x0 x1 s = .next t) : Only 0x30000000000000000000000000000000000000000000000000000000000000000000000000000000000000000000000000000000000000000000000000000c000a08 s t := by
  simp only [execVisitWaitWarning, done, whenUp, whenOn] at h
  injection h with h
  subst h
  repeat' first
    | decide
    | with_reducible exact Only.refl _ _
    | with_reducible apply Only.then visitWaitWarning_only
    | split

end Sys2Proof.Machine
end

