-- ==== Sys2Proof/Laws/BoundTasks.lean ====
section
/-!
SUPPORT. What each function of Machine/Tasks.lean can change at most.
-/

namespace Sys2Proof.Machine
open Sys2Proof Sys2Proof.Safety

theorem State.blockFault_only {s : State} {x1 : _} {x2 : _} {x3 : _} : Only 0x20002000020100000000020211b8039603f0000b8df00100000001083e3c00008e7d00000000000201c04134000040000000010000000000000200000000002000000080000400000800000fd83e0e s (State.blockFault s x1 x2 x3) := by
  unfold State.blockFault
  repeat' first
    | with_reducible assumption
    | decide
    | with_reducible exact Only.refl _ _
    | with_reducible apply Only.then State.event_only
    | with_reducible apply Only.then (State.addSat_only ?_)
    | with_reducible apply Only.then State.failSolve_only
    | with_reducible apply Only.then State.startSolves_only
    | with_reducible apply Only.then State.setProb_only
    | with_reducible apply Only.then State.noKilns_only
    | with_reducible apply Only.then State.startPasses_only
    | with_reducible apply Only.then State.failPass_only
    | with_reducible apply Only.then State.setPass_only
    | with_reducible apply Only.then State.failWalk_only
    | with_reducible apply Only.then State.setWalk_only
    | with_reducible apply Only.then State.caskSettle_only
    | with_reducible apply Only.foldl
    | with_reducible apply Only.foldl1
    | intro _ _ _
    | split
    | dsimp only

theorem State.coreFault_only {s : State} {x1 : _} : Only 0x3ffffffffffffffffffffffffffffffffffffffffffffffffffffffffffffffffffffffffffffffffffffffffffffffffffffffffffffffffffffffffffffffffffffffffffffffffffffffffffefffff s (State.coreFault s x1) := by
  unfold State.coreFault
  repeat' first
    | decide
    | with_reducible exact Only.refl _ _
    | with_reducible apply Only.then State.restart_only
    | with_reducible apply Only.then State.dropHandover_only
    | with_reducible apply Only.then State.unitFails_only
    | with_reducible apply Only.then State.halt_only
    | split
    | dsimp only

theorem State.failJobs_only {s : State} {x1 : _} {x2 : _} : Only 0x20002000020100000000020211b8009603f0000b8df00100000001083e3c00008e7d005e0000000201c0413400005f00007201300e000f00000200000000002000000080000400000800000ffe3e8e s (State.failJobs s x1 x2) := by
  unfold State.failJobs
  repeat' first
    | with_reducible assumption
    | decide
    | with_reducible exact Only.refl _ _
    | with_reducible apply Only.then State.failSns_only
    | with_reducible apply Only.then State.failSgm_only
    | with_reducible apply Only.then State.failFlw_only
    | with_reducible apply Only.then State.failIns_only
    | with_reducible apply Only.then State.failStep_only
    | with_reducible apply Only.then State.failSolve_only
    | with_reducible apply Only.then State.failPass_only
    | with_reducible apply Only.then State.failWalk_only
    | with_reducible apply Only.foldl
    | with_reducible apply Only.foldl1
    | intro _ _ _
    | split
    | dsimp only

theorem State.taskFails_only {s : State} {x1 : _} {x2 : _} : Only 0x20002000020100000000020211b801fe03f0000b8df00100000001083e3c00008e7d005e0000000201c0413400005f00007201300e000f00000200000000002000000080000400000800000ffe3e8e s (State.taskFails s x1 x2) := by
  unfold State.taskFails
  repeat' first
    | decide
    | with_reducible exact Only.refl _ _
    | with_reducible apply Only.then State.failJobs_only
    | with_reducible apply Only.then State.failTask_only
    | with_reducible apply Only.then State.syncDsp_only
    | with_reducible apply Only.then State.event_only
    | with_reducible apply Only.then (State.addSat_only ?_)
    | split
    | dsimp only

theorem State.meetFault_only {s : State} {x1 : _} : Only 0x20002000020100000000020211b803fe03f0000b8df00100000001083e3c00008e7d005e0000000201c0413400005f00007201300e000f00000200000000002000000080000400000800000ffe3e8e s (State.meetFault s x1) := by
  unfold State.meetFault
  repeat' first
    | decide
    | with_reducible exact Only.refl _ _
    | with_reducible apply Only.then State.taskFails_only
    | with_reducible apply Only.then State.migrateTask_only
    | split
    | dsimp only

theorem State.settle_only {s : State} {x1 : _} : Only 0x3fffffffffffffffffffffffffffffffffffffffffffffffffffffffffffffffffffffffffffffffffffffffffffffffffffffffffffffffffffffffffffffffffffffffffffffffffffffffffffe7e0f s (State.settle s x1) := by
  induction x1 generalizing s with
  | zero =>
    unfold State.settle
    repeat' first
      | decide
      | with_reducible exact Only.refl _ _
      | with_reducible apply Only.then State.caskSettle_only
      | with_reducible apply Only.then State.dispatchRound_only
      | with_reducible apply Only.then State.frmSettle_only
      | with_reducible apply Only.then State.klnSettle_only
      | with_reducible apply Only.then State.millSettle_only
      | with_reducible apply Only.then State.startSolves_only
      | with_reducible apply Only.then State.syncKtl_only
      | with_reducible apply Only.then State.tnsSettle_only
      | split
      | dsimp only
      | (simp only [Only.lit]; with_reducible apply Only.upd (hpending := rfl) <;> first | exact Or.inl rfl | exact Or.inr (by with_reducible rfl) | skip)
  | succ n ih =>
    unfold State.settle
    repeat' first
      | decide
      | with_reducible exact Only.refl _ _
      | with_reducible apply Only.then ih
      | with_reducible apply Only.then State.caskSettle_only
      | with_reducible apply Only.then State.dispatchRound_only
      | with_reducible apply Only.then State.frmSettle_only
      | with_reducible apply Only.then State.klnSettle_only
      | with_reducible apply Only.then State.millSettle_only
      | with_reducible apply Only.then State.startSolves_only
      | with_reducible apply Only.then State.syncKtl_only
      | with_reducible apply Only.then State.tnsSettle_only
      | split
      | dsimp only
      | (simp only [Only.lit]; with_reducible apply Only.upd (hpending := rfl) <;> first | exact Or.inl rfl | exact Or.inr (by with_reducible rfl) | skip)

theorem tallyAdvance_only {x0 : _} {x1 : _} {x2 : _} {x3 : _} {x4 : _} {x5 : _} {x6 : _} {s : State} : Only 0x3fffffffffffffffffffffffffffffffffffffffffffffffffffffffffffffffffffffffffffffffffffffffffffffffffffffffffffffffffffffffffffffffffffffffffffffffffffffffffffe7e0f s (tallyAdvance x0 x1 x2 x3 x4 x5 x6 s) := by
  unfold tallyAdvance
  repeat' first
    | with_reducible assumption
    | decide
    | with_reducible exact Only.refl _ _
    | with_reducible apply Only.then State.ktlPostBy_only
    | with_reducible apply Only.then State.postDeltas_only
    | with_reducible apply Only.then addressFault_only
    | with_reducible apply Only.then State.wrList_only
    | with_reducible apply Only.then State.taskAdvance_only
    | with_reducible apply Only.then State.ktlPost_only
    | with_reducible apply Only.then State.advance_only
    | with_reducible apply Only.then State.settle_only
    | with_reducible apply Only.foldl
    | with_reducible apply Only.foldl1
    | intro _ _ _
    | split
    | dsimp only

theorem taskFailed_only {x0 : _} {x1 : _} {x2 : _} {s : State} : Only 0x20002000020100000000020211b801fe03f0000b8df00100000001083e3c00008e7d005e0000000201c0413400005f00007201300e000f00000200000000002000000080000400000800000ffe3e8e s (taskFailed x0 x1 x2 s) := by
  unfold taskFailed
  repeat' first
    | decide
    | with_reducible exact Only.refl _ _
    | with_reducible apply Only.then State.taskFails_only
    | split
    | dsimp only

theorem unitFault_only {x0 : _} {x1 : _} {x2 : _} {s : State} : Only 0x3ffffffffffffffffffffffffffffffffffffffffffffffffffffffffffffffffffffffffffffffffffffffffffffffffffffffffffffffffffffffffffffffffffffffffffffffffffffffffffffffff s (unitFault x0 x1 x2 s) := by
  unfold unitFault
  repeat' first
    | decide
    | with_reducible exact Only.refl _ _
    | with_reducible apply Only.then State.coreFault_only
    | with_reducible apply Only.then State.unitFails_only
    | with_reducible apply Only.then State.blockFault_only
    | with_reducible apply Only.then State.meetFault_only
    | split
    | dsimp only

theorem taskLimitExpire_only {x0 : _} {x1 : _} {x2 : _} {x3 : _} {s : State} : Only 0x3ffffffffffffffffffffffffffffffffffffffffffffffffffffffffffffffffffffffffffffffffffffffffffffffffffffffffffffffffffffffffffffffffffffffffffffffffffffffffffffffff s (taskLimitExpire x0 x1 x2 x3 s) := by
  unfold taskLimitExpire
  repeat' first
    | decide
    | with_reducible exact Only.refl _ _
    | with_reducible apply Only.then unitFault_only
    | split
    | dsimp only

/-! ## Commands -/

theorem execTallyAdvance_only {x0 : _} {x1 : _} {x2 : _} {x3 : _} {x4 : _} {x5 : _} {x6 : _} {s : State} {t : State} (h : execTallyAdvance x0 x1 x2 x3 x4 x5 x6 s = .next t) : Only 0x3fffffffffffffffffffffffffffffffffffffffffffffffffffffffffffffffffffffffffffffffffffffffffffffffffffffffffffffffffffffffffffffffffffffffffffffffffffffffffffe7e0f s t := by
  simp only [execTallyAdvance, done, whenUp, whenOn] at h
  injection h with h
  subst h
  repeat' first
    | decide
    | with_reducible exact Only.refl _ _
    | with_reducible apply Only.then tallyAdvance_only
    | split

theorem execTaskFailed_only {x0 : _} {x1 : _} {x2 : _} {s : State} {t : State} (h : execTaskFailed x0 x1 x2 s = .next t) : Only 0x20002000020100000000020211b801fe03f0000b8df00100000001083e3c00008e7d005e0000000201c0413400005f00007201300e000f00000200000000002000000080000400000800000ffe3e8e s t := by
  simp only [execTaskFailed, done, whenUp, whenOn] at h
  injection h with h
  subst h
  repeat' first
    | decide
    | with_reducible exact Only.refl _ _
    | with_reducible apply Only.then taskFailed_only
    | split

theorem execTaskLimitExpire_only {x0 : _} {x1 : _} {x2 : _} {x3 : _} {s : State} {t : State} (h : execTaskLimitExpire x0 x1 x2 x3 s = .next t) : Only 0x3ffffffffffffffffffffffffffffffffffffffffffffffffffffffffffffffffffffffffffffffffffffffffffffffffffffffffffffffffffffffffffffffffffffffffffffffffffffffffffffffff s t := by
  simp only [execTaskLimitExpire, done, whenUp, whenOn] at h
  injection h with h
  subst h
  repeat' first
    | decide
    | with_reducible exact Only.refl _ _
    | with_reducible apply Only.then taskLimitExpire_only
    | split

theorem execUnitFault_only {x0 : _} {x1 : _} {x2 : _} {s : State} {t : State} (h : execUnitFault x0 x1 x2 s = .next t) : Only 0x3ffffffffffffffffffffffffffffffffffffffffffffffffffffffffffffffffffffffffffffffffffffffffffffffffffffffffffffffffffffffffffffffffffffffffffffffffffffffffffffffff s t := by
  simp only [execUnitFault, done, whenUp, whenOn] at h
  injection h with h
  subst h
  repeat' first
    | decide
    | with_reducible exact Only.refl _ _
    | with_reducible apply Only.then unitFault_only
    | split

end Sys2Proof.Machine
end

