-- ==== Sys2Proof/Laws/BoundBoot.lean ====
section
/-!
SUPPORT. What each function of Machine/Boot.lean can change at most.
-/

namespace Sys2Proof.Machine
open Sys2Proof Sys2Proof.Safety

theorem State.dropDies_only {s : State} {x1 : _} : Only 0x800204000000200000000000000000000000000000000000000000000000000000000000080000 s (State.dropDies s x1).1 := by
  unfold State.dropDies
  repeat' first
    | decide
    | with_reducible exact Only.refl _ _
    | with_reducible apply Only.then (State.setF_only ?_)
    | with_reducible apply Only.then State.syncMem_only
    | split
    | dsimp only
    | (simp only [Only.lit]; with_reducible apply Only.upd (hpending := rfl) <;> first | exact Or.inl rfl | exact Or.inr (by with_reducible rfl) | skip)

theorem State.showLink_only {s : State} : Only 0x100000000000000000000000000000000000000000000000000000000000000000000000000000000000000000000000000000000000000000000000000000008000000 s (State.showLink s) := by
  unfold State.showLink
  repeat' first
    | decide
    | with_reducible exact Only.refl _ _
    | with_reducible apply Only.then (State.setF_only ?_)
    | dsimp only
    | (simp only [Only.lit]; with_reducible apply Only.upd (hpending := rfl) <;> first | exact Or.inl rfl | exact Or.inr (by with_reducible rfl) | skip)

theorem State.showNets_only {s : State} {x1 : _} : Only 0x1f0000000000000000000000000000000000000000000000000008000000000 s (State.showNets s x1) := by
  unfold State.showNets
  repeat' first
    | with_reducible assumption
    | decide
    | with_reducible exact Only.refl _ _
    | with_reducible apply Only.then (State.setF_only ?_)
    | with_reducible apply Only.foldl
    | with_reducible apply Only.foldl1
    | intro _ _ _
    | dsimp only

theorem State.loadAll_only {s : State} {x1 : _} {x2 : _} : Only 0x3fffffffffffffffffffffffffffffffffffffffffffffffffffffffffffffffffffffffffffffffffffffffffffffffffffffffffffffffffffffffffffffffffffffffffffffffffffffffffc000e29 s (State.loadAll s x1 x2) := by
  unfold State.loadAll
  repeat' first
    | decide
    | with_reducible exact Only.refl _ _
    | with_reducible apply Only.then State.joinGroups_only
    | with_reducible apply Only.then State.putSettings_only
    | with_reducible apply Only.then State.migrate_only
    | with_reducible apply Only.then (State.setF_only ?_)
    | with_reducible apply Only.then (State.setB_only ?_)
    | with_reducible apply Only.then State.showDelays_only
    | with_reducible apply Only.then State.syncAll_only
    | with_reducible apply Only.then State.setFit_only
    | with_reducible apply Only.then State.showLink_only
    | with_reducible apply Only.then State.showNets_only
    | dsimp only
    | (simp only [Only.lit]; with_reducible apply Only.upd (hpending := rfl) <;> first | exact Or.inl rfl | exact Or.inr (by with_reducible rfl) | skip)

theorem State.orderClusters_only {s : State} : Only 0xe000000000000000280000000000014000000000002800000000000000000000000000000000680000000000005000000000000000000000000000000000000000400 s (State.orderClusters s) := by
  unfold State.orderClusters
  repeat' first
    | with_reducible assumption
    | decide
    | with_reducible exact Only.refl _ _
    | with_reducible apply Only.then State.putPlace_only
    | with_reducible apply Only.then State.syncUnits_only
    | with_reducible apply Only.foldl
    | with_reducible apply Only.foldl1
    | intro _ _ _
    | dsimp only

theorem State.otpRequest_only {s : State} {x1 : _} {x2 : _} {x3 : _} : Only 0x1012400a000000100000000000280380010000000000100000000000008000000000001000000000002000000000000400000000100000000000002000000000020000000800004000008f80074000a18 s (State.otpRequest s x1 x2 x3) := by
  unfold State.otpRequest
  repeat' first
    | decide
    | with_reducible exact Only.refl _ _
    | with_reducible apply Only.then (State.setKey_only ?_)
    | (intro w; generalize nth ({} : KeySlot) s.otp.keys _ = k at *; obtain ⟨u, p, r, d, v⟩ := k; revert w; cases u <;> cases p <;> cases r <;> cases v <;> simp_all [keyWf, keyLe])
    | with_reducible apply Only.then State.event_only
    | with_reducible apply Only.then State.mirrorOtp_only
    | split
    | dsimp only
    | (simp only [Only.lit]; with_reducible apply Only.upd (hpending := rfl) <;> first | exact Or.inl rfl | exact Or.inr (by with_reducible rfl) | exact Or.inr ⟨rfl, otpStep_retire _ (by omega)⟩ | exact Or.inr ⟨rfl, otpStep_cascade _ (by omega)⟩ | exact Or.inr ⟨rfl, otpStep_lock _⟩ | exact Or.inr ⟨rfl, otpStep_key _ (by simp_all [keyWf, keyLe])⟩ | skip)

theorem State.otpRequests_only {s : State} {x1 : _} : Only 0x1012400a000000100000000000280380010000000000100000000000008000000000001000000000002000000000000400000000100000000000002000000000020000000800004000008f80074000a18 s (State.otpRequests s x1) := by
  unfold State.otpRequests
  repeat' first
    | with_reducible assumption
    | decide
    | with_reducible exact Only.refl _ _
    | with_reducible apply Only.then State.otpRequest_only
    | with_reducible apply Only.foldl
    | with_reducible apply Only.foldl1
    | intro _ _ _
    | dsimp only

theorem State.outAtStart_only {s : State} {x1 : _} {x2 : _} {x3 : _} : Only 0x1012400a00000010000000000028e38c01800000000038000000000001c000000000003800000000002000000000000400000000f80000000000007000000000020000000800004000008f84174040e18 s (State.outAtStart s x1 x2 x3) := by
  unfold State.outAtStart
  repeat' first
    | decide
    | with_reducible exact Only.refl _ _
    | with_reducible apply Only.then State.unitFails_only
    | with_reducible apply Only.then State.setUnit_only
    | with_reducible apply Only.then State.lastTest_only
    | with_reducible apply Only.then State.event_only
    | with_reducible apply Only.then (State.addSat_only ?_)
    | split
    | dsimp only

theorem State.setStage_only {s : State} {x1 : _} : Only 0x20002000000100000000000200380010000000000100000000000008000000000001000000000002000000000000400000000100000000000002000000000020000000800004000008000104000a08 s (State.setStage s x1) := by
  unfold State.setStage
  repeat' first
    | decide
    | with_reducible exact Only.refl _ _
    | with_reducible apply Only.then State.event_only
    | with_reducible apply Only.then (State.setF_only ?_)

theorem State.stepTime_only {s : State} {x1 : _} : Only 0x2000000000 s (State.stepTime s x1) := by
  unfold State.stepTime
  repeat' first
    | decide
    | with_reducible exact Only.refl _ _
    | with_reducible apply Only.then (State.setF_only ?_)

theorem State.step2Check_only {s : State} {x1 : _} : Only 0x3ffffffffffffffffffffffffffffffffffffffffffffffffffffffffffffffffffffffffffffffffffffffffffffffffffffffffffffffffffffffffffffffffffffffffffffffffffffffffffefffff s (State.step2Check s x1) := by
  unfold State.step2Check
  repeat' first
    | decide
    | with_reducible exact Only.refl _ _
    | with_reducible apply Only.then State.nameMissing_only
    | with_reducible apply Only.then State.refuseSlot_only
    | with_reducible apply Only.then (State.setF_only ?_)
    | with_reducible apply Only.then State.linkStart_only
    | with_reducible apply Only.then State.setStage_only
    | with_reducible apply Only.then State.stepTime_only
    | with_reducible apply Only.then State.issueAlias_only
    | with_reducible apply Only.then State.otpRequests_only
    | split
    | dsimp only

theorem State.step2_only {s : State} : Only 0x3ffffffffffffffffffffffffffffffffffffffffffffffffffffffffffffffffffffffffffffffffffffffffffffffffffffffffffffffffffffffffffffffffffffffffffffffffffffffffffefffff s (State.step2 s) := by
  unfold State.step2
  repeat' first
    | decide
    | with_reducible exact Only.refl _ _
    | with_reducible apply Only.then State.refuseSlot_only
    | with_reducible apply Only.then (State.addSat_only ?_)
    | with_reducible apply Only.then State.step2Check_only
    | with_reducible apply Only.then State.loadAll_only
    | split
    | dsimp only

theorem State.digestPages_only {s : State} : Only 0x80000 s (State.digestPages s) := by
  unfold State.digestPages
  repeat' first
    | with_reducible assumption
    | decide
    | with_reducible exact Only.refl _ _
    | with_reducible apply Only.foldl
    | with_reducible apply Only.foldl1
    | intro _ _ _
    | split
    | dsimp only
    | (simp only [Only.lit]; with_reducible apply Only.upd (hpending := rfl) <;> first | exact Or.inl rfl | exact Or.inr (by with_reducible rfl) | skip)

theorem State.placeBody_only {s : State} {x1 : _} {x2 : _} {x3 : _} : Only 0x10041300000000000000000000000000000000000000000000000000000000000000000080002 s (State.placeBody s x1 x2 x3) := by
  unfold State.placeBody
  repeat' first
    | with_reducible assumption
    | decide
    | with_reducible exact Only.refl _ _
    | with_reducible apply Only.then State.wrList_only
    | with_reducible apply Only.foldl
    | with_reducible apply Only.foldl1
    | intro _ _ _
    | split
    | dsimp only

theorem State.placeWeights_only {s : State} : Only 0x10041300000000000000000000000000000000000000000000000000000000000000000080002 s (State.placeWeights s) := by
  unfold State.placeWeights
  repeat' first
    | with_reducible assumption
    | decide
    | with_reducible exact Only.refl _ _
    | with_reducible apply Only.then State.placeBody_only
    | with_reducible apply Only.foldl
    | with_reducible apply Only.foldl1
    | intro _ _ _
    | split
    | dsimp only

theorem State.placeAll_only {s : State} : Only 0x20002000000100000000000300380010000000000100000000000008000000000001000000000002810245300800600000000100000000000002000000000020000000800004000008002104080a4a s (State.placeAll s) := by
  unfold State.placeAll
  repeat' first
    | with_reducible assumption
    | decide
    | with_reducible exact Only.refl _ _
    | with_reducible apply Only.then State.placeWeights_only
    | with_reducible apply Only.then State.digestPages_only
    | with_reducible apply Only.then State.placeRegions_only
    | with_reducible apply Only.then State.loadWarp_only
    | with_reducible apply Only.then State.setStage_only
    | with_reducible apply Only.then State.stepTime_only
    | with_reducible apply Only.then State.halt_only
    | with_reducible apply Only.then (State.setB_only ?_)
    | with_reducible apply Only.foldl
    | with_reducible apply Only.foldl1
    | intro _ _ _
    | split
    | dsimp only

theorem State.step3_only {s : State} {x1 : _} : Only 0x2000200000010000000000030038001800000000010000000000000c000000000001800000000002810255300807600000000180000000000003000000000020000000800004000008002104080aca s (State.step3 s x1) := by
  unfold State.step3
  repeat' first
    | with_reducible assumption
    | decide
    | with_reducible exact Only.refl _ _
    | with_reducible apply Only.then State.placeAll_only
    | with_reducible apply Only.then State.setTrain_only
    | with_reducible apply Only.then State.setCh_only
    | with_reducible apply Only.then (State.setB_only ?_)
    | with_reducible apply Only.then State.halt_only
    | with_reducible apply Only.foldl
    | with_reducible apply Only.foldl1
    | intro _ _ _
    | split
    | dsimp only
    | (simp only [Only.lit]; with_reducible apply Only.upd (hpending := rfl) <;> first | exact Or.inl rfl | exact Or.inr (by with_reducible rfl) | skip)

theorem State.sensorFails_only {s : State} {x1 : _} : Only 0x30000000000000000000000000000000000000000000000000000000000000000000000000000000000000000000000000000000000000000000000000000c000a88 s (State.sensorFails s x1) := by
  unfold State.sensorFails
  repeat' first
    | with_reducible assumption
    | decide
    | with_reducible exact Only.refl _ _
    | with_reducible apply Only.then State.warnOpen_only
    | with_reducible apply Only.foldl
    | with_reducible apply Only.foldl1
    | intro _ _ _
    | split
    | dsimp only
    | (simp only [Only.lit]; with_reducible apply Only.upd (hpending := rfl) <;> first | exact Or.inl rfl | exact Or.inr (by with_reducible rfl) | skip)

theorem State.imuStart_only {s : State} {x1 : _} {x2 : _} : Only 0x2000200000010000000000020038001000000000010000000000000800000000000100000000000200000000000040000000010000000000000200002000002000000080000400000800000c010a88 s (State.imuStart s x1 x2) := by
  unfold State.imuStart
  repeat' first
    | with_reducible assumption
    | decide
    | with_reducible exact Only.refl _ _
    | with_reducible apply Only.then State.imuInit_only
    | with_reducible apply Only.then State.sensorFails_only
    | with_reducible apply Only.foldl
    | with_reducible apply Only.foldl1
    | intro _ _ _
    | split
    | dsimp only

theorem State.step4_only {s : State} {x1 : _} : Only 0x1012400a00000010000000000028e38c01800000000038000000000001c000000000003800000000002800206000000600000000f80000000000007000020000020000000800004000008f8617c0d0fd8 s (State.step4 s x1) := by
  unfold State.step4
  repeat' first
    | with_reducible assumption
    | decide
    | with_reducible exact Only.refl _ _
    | with_reducible apply Only.then State.imuStart_only
    | with_reducible apply Only.then State.outAtStart_only
    | with_reducible apply Only.then State.orderClusters_only
    | with_reducible apply Only.then State.setFit_only
    | with_reducible apply Only.then State.dropDies_only
    | with_reducible apply Only.then State.repairLanes_only
    | with_reducible apply Only.then State.syncAll_only
    | with_reducible apply Only.then State.syncDegraded_only
    | with_reducible apply Only.then State.halt_only
    | with_reducible apply Only.then (State.setB_only ?_)
    | with_reducible apply Only.then State.setStage_only
    | with_reducible apply Only.then State.stepTime_only
    | with_reducible apply Only.then State.imuInit_only
    | with_reducible apply Only.then State.endPtpWait_only
    | with_reducible apply Only.foldl
    | with_reducible apply Only.foldl1
    | intro _ _ _
    | split
    | dsimp only
    | (simp only [Only.lit]; with_reducible apply Only.upd (hpending := rfl) <;> first | exact Or.inl rfl | exact Or.inr (by with_reducible rfl) | skip)

theorem State.step5_only {s : State} : Only 0x2000200000010000000000020038001003f00000010000000000000800000000000100000000000201004130000040000000010000000000000200000000002000000080000400000800210d080a0a s (State.step5 s) := by
  unfold State.step5
  repeat' first
    | decide
    | with_reducible exact Only.refl _ _
    | with_reducible apply Only.then State.openIdxs_only
    | with_reducible apply Only.then State.setStage_only
    | with_reducible apply Only.then State.stepTime_only
    | split

theorem State.step6_only {s : State} : Only 0x20002000000100000000000200380010000000000100000000000008000000000001202200000003000000000000400000000100000000000002000000000020000000800004000008002104200a08 s (State.step6 s) := by
  unfold State.step6
  repeat' first
    | with_reducible assumption
    | decide
    | with_reducible exact Only.refl _ _
    | with_reducible apply Only.then State.setStage_only
    | with_reducible apply Only.then State.stepTime_only
    | with_reducible apply Only.then State.startSession_only
    | with_reducible apply Only.foldl
    | with_reducible apply Only.foldl1
    | intro _ _ _
    | dsimp only

theorem State.step7_only {s : State} : Only 0x21000000c0 s (State.step7 s) := by
  unfold State.step7
  repeat' first
    | decide
    | with_reducible exact Only.refl _ _
    | with_reducible apply Only.then (State.setB_only ?_)
    | with_reducible apply Only.then State.stepTime_only
    | split
    | dsimp only
    | (simp only [Only.lit]; with_reducible apply Only.upd (hpending := rfl) <;> first | exact Or.inl rfl | exact Or.inr (by with_reducible rfl) | skip)

theorem sensorCheckExpire_only {x0 : _} {s : State} : Only 0x30000000000000000000000000000000000000000000000000000000000000000000000000000000000000000000000000000000000000000000000000000c000a88 s (sensorCheckExpire x0 s) := by
  unfold sensorCheckExpire
  repeat' first
    | decide
    | with_reducible exact Only.refl _ _
    | with_reducible apply Only.then State.sensorFails_only
    | with_reducible apply Only.then State.warnOpen_only
    | split
    | dsimp only
    | (simp only [Only.lit]; with_reducible apply Only.upd (hpending := rfl) <;> first | exact Or.inl rfl | exact Or.inr (by with_reducible rfl) | skip)

theorem startStepDone_only {x0 : _} {x1 : _} {s : State} : Only 0x3ffffffffffffffffffffffffffffffffffffffffffffffffffffffffffffffffffffffffffffffffffffffffffffffffffffffffffffffffffffffffffffffffffffffffffffffffffffffffffefffff s (startStepDone x0 x1 s) := by
  unfold startStepDone
  repeat' first
    | decide
    | with_reducible exact Only.refl _ _
    | with_reducible apply Only.then State.setStage_only
    | with_reducible apply Only.then State.stepTime_only
    | with_reducible apply Only.then State.step2_only
    | with_reducible apply Only.then State.step3_only
    | with_reducible apply Only.then State.step4_only
    | with_reducible apply Only.then State.step5_only
    | with_reducible apply Only.then State.step6_only
    | with_reducible apply Only.then State.step7_only
    | split
    | dsimp only

theorem startStepLimit_only {x0 : _} {s : State} : Only 0x3ffffffffffffffffffffffffffffffffffffffffffffffffffffffffffffffffffffffffffffffffffffffffffffffffffffffffffffffffffffffffffffffffffffffffffffffffffffffffffefffef s (startStepLimit x0 s) := by
  unfold startStepLimit
  repeat' first
    | decide
    | with_reducible exact Only.refl _ _
    | with_reducible apply Only.then State.restart_only
    | with_reducible apply Only.then State.event_only
    | split

theorem trainingCacheWrite_only {s : State} : Only 0x20002000000100000000000200380010000000000100000000000008000000000001000000000002000000000000400000000100000000000002000000000020000000800004000008000004000aa8 s (trainingCacheWrite s) := by
  unfold trainingCacheWrite
  repeat' first
    | decide
    | with_reducible exact Only.refl _ _
    | with_reducible apply Only.then State.event_only
    | split
    | dsimp only
    | (simp only [Only.lit]; with_reducible apply Only.upd (hpending := rfl) <;> first | exact Or.inl rfl | exact Or.inr (by with_reducible rfl) | skip)

theorem trialConfirm_only {s : State} : Only 0x1012540a000000100000000000280380010000000000100000000000008000000000001000000000002000000000000400000000100000000000002000000000020000000800004000008f90074000a38 s (trialConfirm s) := by
  unfold trialConfirm
  repeat' first
    | decide
    | with_reducible exact Only.refl _ _
    | with_reducible apply Only.then State.setSlotState_only
    | with_reducible apply Only.then State.event_only
    | with_reducible apply Only.then State.mirrorOtp_only
    | with_reducible apply Only.then State.setUpd_only
    | split
    | dsimp only
    | (simp only [Only.lit]; with_reducible apply Only.upd (hpending := rfl) <;> first | exact Or.inl rfl | exact Or.inr (by with_reducible rfl) | exact Or.inr ⟨rfl, otpStep_svc (by assumption)⟩ | skip)

/-! ## Commands -/

theorem execSensorCheckExpire_only {x0 : _} {s : State} {t : State} (h : execSensorCheckExpire x0 s = .next t) : Only 0x30000000000000000000000000000000000000000000000000000000000000000000000000000000000000000000000000000000000000000000000000000c000a88 s t := by
  simp only [execSensorCheckExpire, done, whenUp, whenOn] at h
  injection h with h
  subst h
  repeat' first
    | decide
    | with_reducible exact Only.refl _ _
    | with_reducible apply Only.then sensorCheckExpire_only
    | split

theorem execStartStepDone_only {x0 : _} {x1 : _} {s : State} {t : State} (h : execStartStepDone x0 x1 s = .next t) : Only 0x3ffffffffffffffffffffffffffffffffffffffffffffffffffffffffffffffffffffffffffffffffffffffffffffffffffffffffffffffffffffffffffffffffffffffffffffffffffffffffffefffff s t := by
  simp only [execStartStepDone, done, whenUp, whenOn] at h
  injection h with h
  subst h
  repeat' first
    | decide
    | with_reducible exact Only.refl _ _
    | with_reducible apply Only.then startStepDone_only
    | split

theorem execStartStepLimit_only {x0 : _} {s : State} {t : State} (h : execStartStepLimit x0 s = .next t) : Only 0x3ffffffffffffffffffffffffffffffffffffffffffffffffffffffffffffffffffffffffffffffffffffffffffffffffffffffffffffffffffffffffffffffffffffffffffffffffffffffffffefffef s t := by
  simp only [execStartStepLimit, done, whenUp, whenOn] at h
  injection h with h
  subst h
  repeat' first
    | decide
    | with_reducible exact Only.refl _ _
    | with_reducible apply Only.then startStepLimit_only
    | split

theorem execTrialConfirm_only {s : State} {t : State} (h : execTrialConfirm s = .next t) : Only 0x1012540a000000100000000000280380010000000000100000000000008000000000001000000000002000000000000400000000100000000000002000000000020000000800004000008f90074000a38 s t := by
  simp only [execTrialConfirm, done, whenUp, whenOn] at h
  injection h with h
  subst h
  repeat' first
    | decide
    | with_reducible exact Only.refl _ _
    | with_reducible apply Only.then trialConfirm_only
    | split

theorem execTrainingCacheWrite_only {s : State} {t : State} (h : execTrainingCacheWrite s = .next t) : Only 0x20002000000100000000000200380010000000000100000000000008000000000001000000000002000000000000400000000100000000000002000000000020000000800004000008000004000aa8 s t := by
  simp only [execTrainingCacheWrite, done, whenUp, whenOn] at h
  injection h with h
  subst h
  repeat' first
    | decide
    | with_reducible exact Only.refl _ _
    | with_reducible apply Only.then trainingCacheWrite_only
    | split

end Sys2Proof.Machine
end

