-- ==== Sys2Proof/Laws/BoundBus.lean ====
section
/-!
SUPPORT. What each function of Machine/Bus.lean can change at most.
-/

namespace Sys2Proof.Machine
open Sys2Proof Sys2Proof.Safety

theorem State.blViolation_only {s : State} {x1 : _} : Only 0x20002000000100000000000200380010000000000100000000000008000000000001000000000002000000000000400000000100000000000002000000000020000000800004000008000004000a08 s (State.blViolation s x1) := by
  unfold State.blViolation
  repeat' first
    | decide
    | with_reducible exact Only.refl _ _
    | with_reducible apply Only.then State.event_only

theorem State.capturedWord_only {s : State} {x1 : _} {x2 : _} : Only 0x2000 s (State.capturedWord s x1 x2) := by
  unfold State.capturedWord
  repeat' first
    | decide
    | with_reducible exact Only.refl _ _
    | dsimp only
    | (simp only [Only.lit]; with_reducible apply Only.upd (hpending := rfl) <;> first | exact Or.inl rfl | exact Or.inr (by with_reducible rfl) | skip)

theorem State.clearBits_only {s : State} {x1 : _} {x2 : _} {x3 : _} {x4 : _} : Only 0x3fffffffffffffffffffffffffffffffffffffffffffffffffffffffffffffffffffffffffffffffffffffffffffffffffffffffffffffffffffffffffffffffffffffffffffffffffffffffff0000001 s (State.clearBits s x1 x2 x3 x4) := by
  unfold State.clearBits
  repeat' first
    | decide
    | with_reducible exact Only.refl _ _
    | with_reducible apply Only.then State.setWord_any
    | split

theorem State.hiWrite_only {s : State} {x1 : _} {x2 : _} {x3 : _} {x4 : _} : Only 0x180000071800000000000000000000000000000000000000000000000000000000000000000000000000000000000000000000000000000000000000000000000000004002800 s (State.hiWrite s x1 x2 x3 x4) := by
  unfold State.hiWrite
  repeat' first
    | decide
    | with_reducible exact Only.refl _ _
    | with_reducible apply Only.then State.testSlot_only
    | with_reducible apply Only.then (State.setPair_only ?_ ?_)
    | with_reducible apply Only.then hstRingRdWrite_only
    | split
    | dsimp only
    | (simp only [Only.lit]; with_reducible apply Only.upd (hpending := rfl) <;> first | exact Or.inl rfl | exact Or.inr (by with_reducible rfl) | skip)

theorem State.loPending_only {s : State} {x1 : _} {x2 : _} : Only 0x2000 s (State.loPending s x1 x2) := by
  unfold State.loPending
  repeat' first
    | decide
    | with_reducible exact Only.refl _ _
    | dsimp only
    | (simp only [Only.lit]; with_reducible apply Only.upd (hpending := rfl) <;> first | exact Or.inl rfl | exact Or.inr (by with_reducible rfl) | skip)

theorem State.waitCtl_only {s : State} {x1 : _} {x2 : _} : Only 0x11800000000000000000000000000000000000000000000000000000000000000000000000000000000000000000000000000000000000000000000000000004000800 s (State.waitCtl s x1 x2) := by
  unfold State.waitCtl
  repeat' first
    | decide
    | with_reducible exact Only.refl _ _
    | with_reducible apply Only.then hostWaitArm_only
    | with_reducible apply Only.then hostWaitDisarm_only
    | split
    | dsimp only

theorem State.writeReg_only {s : State} {x1 : _} {x2 : _} {x3 : _} {x4 : _} {x5 : _} : Only 0x3fffffffffffffffffffffffffffffffffffffffffffffffffffffffffffffffffffffffffffffffffffffffffffffffffffffffffffffffffffffffffffffffffffffffffffffffffffffffffe686ead s (State.writeReg s x1 x2 x3 x4 x5) := by
  unfold State.writeReg
  repeat' first
    | decide
    | with_reducible exact Only.refl _ _
    | with_reducible apply Only.then State.blViolation_only
    | with_reducible apply Only.then State.clearBits_only
    | with_reducible apply Only.then State.setWord_any
    | with_reducible apply Only.then doorbell_only
    | with_reducible apply Only.then hostTallyAdvance_only
    | with_reducible apply Only.then State.waitCtl_only
    | with_reducible apply Only.then State.loPending_only
    | with_reducible apply Only.then State.hiWrite_only
    | split
    | dsimp only

theorem bar0BadAccess_only {x0 : _} {x1 : _} {x2 : _} {s : State} : Only 0x4000000 s (bar0BadAccess x0 x1 x2 s) := by
  unfold bar0BadAccess
  repeat' first
    | decide
    | with_reducible exact Only.refl _ _
    | with_reducible apply Only.then State.emit_only
    | split

theorem blRegisterWrite_only {x0 : _} {s : State} : Only 0x20002000000100000000000200380010000000000100000000000008000000000001000000000002000000000000400000000100000000000002000000000020000000800004000008000004000a08 s (blRegisterWrite x0 s) := by
  unfold blRegisterWrite
  repeat' first
    | decide
    | with_reducible exact Only.refl _ _
    | with_reducible apply Only.then State.blViolation_only
    | split
    | dsimp only

theorem State.setSame_only {s : State} {x1 : _} {x2 : _} {x3 : _} {x4 : _} : Only 0x3fffffffffffffffffffffffffffffffffffffffffffffffffffffffffffffffffffffffffffffffffffffffffffffffffffffffffffffffffffffffffffffffffffffffffffffffffffffffff0000001 s (State.setSame s x1 x2 x3 x4) := by
  unfold State.setSame
  repeat' first
    | with_reducible assumption
    | decide
    | with_reducible exact Only.refl _ _
    | with_reducible apply Only.then State.setWord_any
    | with_reducible apply Only.foldl
    | with_reducible apply Only.foldl1
    | intro _ _ _
    | split
    | dsimp only

theorem eventBitsClear_only {x0 : _} {x1 : _} {x2 : _} {s : State} : Only 0x3fffffffffffffffffffffffffffffffffffffffffffffffffffffffffffffffffffffffffffffffffffffffffffffffffffffffffffffffffffffffffffffffffffffffffffffffffffffffff0000001 s (eventBitsClear x0 x1 x2 s) := by
  unfold eventBitsClear
  repeat' first
    | decide
    | with_reducible exact Only.refl _ _
    | with_reducible apply Only.then State.setSame_only
    | with_reducible apply Only.then State.clearBits_only
    | split
    | dsimp only

theorem reg64HiWrite_only {x0 : _} {x1 : _} {s : State} : Only 0x180000071800000000000000000000000000000000000000000000000000000000000000000000000000000000000000000000000000000000000000000000000000004002800 s (reg64HiWrite x0 x1 s) := by
  unfold reg64HiWrite
  repeat' first
    | decide
    | with_reducible exact Only.refl _ _
    | with_reducible apply Only.then State.hiWrite_only
    | split
    | dsimp only

theorem State.completeWord_only {s : State} {x1 : _} : Only 0x4000000 s (State.completeWord s x1) := by
  unfold State.completeWord
  repeat' first
    | with_reducible assumption
    | decide
    | with_reducible exact Only.refl _ _
    | with_reducible apply Only.then State.emit_only
    | with_reducible apply Only.foldl
    | with_reducible apply Only.foldl1
    | intro _ _ _
    | split
    | dsimp only

theorem State.readWord_only {s : State} {x1 : _} : Only 0x4002100 s (State.readWord s x1) := by
  unfold State.readWord
  repeat' first
    | with_reducible assumption
    | decide
    | with_reducible exact Only.refl _ _
    | with_reducible apply Only.then State.completeWord_only
    | with_reducible apply Only.foldl
    | with_reducible apply Only.foldl1
    | intro _ _ _
    | split
    | dsimp only
    | (simp only [Only.lit]; with_reducible apply Only.upd (hpending := rfl) <;> first | exact Or.inl rfl | exact Or.inr (by with_reducible rfl) | skip)

theorem State.readLo_only {s : State} {x1 : _} : Only 0xc00000000000000000000000000000000000000000000000000000000000000000000000000000000000000000000000000000000000000000000000000000000000000000000000c002100 s (State.readLo s x1) := by
  unfold State.readLo
  repeat' first
    | with_reducible assumption
    | decide
    | with_reducible exact Only.refl _ _
    | with_reducible apply Only.then State.used_only
    | with_reducible apply Only.then State.capturedWord_only
    | with_reducible apply Only.then State.emit_only
    | with_reducible apply Only.then State.completeWord_only
    | with_reducible apply Only.then State.captureNow_only
    | with_reducible apply Only.then State.readWord_only
    | with_reducible apply Only.then (State.setPair_only ?_ ?_)
    | with_reducible apply Only.foldl
    | with_reducible apply Only.foldl1
    | intro _ _ _
    | split
    | dsimp only

theorem reg64LoRead_only {x0 : _} {s : State} : Only 0xc00000000000000000000000000000000000000000000000000000000000000000000000000000000000000000000000000000000000000000000000000000000000000000000000c002100 s (reg64LoRead x0 s) := by
  unfold reg64LoRead
  repeat' first
    | decide
    | with_reducible exact Only.refl _ _
    | with_reducible apply Only.then State.readLo_only
    | with_reducible apply Only.then State.used_only
    | with_reducible apply Only.then (State.setPair_only ?_ ?_)
    | with_reducible apply Only.then State.capturedWord_only
    | with_reducible apply Only.then State.emit_only
    | split
    | dsimp only

theorem reg64LoWrite_only {x0 : _} {x1 : _} {s : State} : Only 0x2000 s (reg64LoWrite x0 x1 s) := by
  unfold reg64LoWrite
  repeat' first
    | decide
    | with_reducible exact Only.refl _ _
    | with_reducible apply Only.then State.loPending_only
    | split
    | dsimp only

theorem regWrite_only {x0 : _} {x1 : _} {s : State} : Only 0x3fffffffffffffffffffffffffffffffffffffffffffffffffffffffffffffffffffffffffffffffffffffffffffffffffffffffffffffffffffffffffffffffffffffffffffffffffffffffffe686ead s (regWrite x0 x1 s) := by
  unfold regWrite
  repeat' first
    | decide
    | with_reducible exact Only.refl _ _
    | with_reducible apply Only.then State.msixWrite_only
    | with_reducible apply Only.then State.writeReg_only
    | split
    | dsimp only

theorem timeNowCapture_only {x0 : _} {s : State} : Only 0x4000100 s (timeNowCapture x0 s) := by
  unfold timeNowCapture
  repeat' first
    | decide
    | with_reducible exact Only.refl _ _
    | with_reducible apply Only.then State.completeWord_only
    | with_reducible apply Only.then State.emit_only
    | with_reducible apply Only.then State.captureNow_only
    | split

/-! ## Commands -/

theorem execTimeNowCapture_only {x0 : _} {s : State} {t : State} (h : execTimeNowCapture x0 s = .next t) : Only 0x4000100 s t := by
  simp only [execTimeNowCapture, done, whenUp, whenOn] at h
  injection h with h
  subst h
  repeat' first
    | decide
    | with_reducible exact Only.refl _ _
    | with_reducible apply Only.then timeNowCapture_only
    | split

theorem execRegWrite_only {x0 : _} {x1 : _} {s : State} {t : State} (h : execRegWrite x0 x1 s = .next t) : Only 0x3fffffffffffffffffffffffffffffffffffffffffffffffffffffffffffffffffffffffffffffffffffffffffffffffffffffffffffffffffffffffffffffffffffffffffffffffffffffffffe686ead s t := by
  simp only [execRegWrite, done, whenUp, whenOn] at h
  injection h with h
  subst h
  repeat' first
    | decide
    | with_reducible exact Only.refl _ _
    | with_reducible apply Only.then regWrite_only
    | split

theorem execReg64LoWrite_only {x0 : _} {x1 : _} {s : State} {t : State} (h : execReg64LoWrite x0 x1 s = .next t) : Only 0x2000 s t := by
  simp only [execReg64LoWrite, done, whenUp, whenOn] at h
  injection h with h
  subst h
  repeat' first
    | decide
    | with_reducible exact Only.refl _ _
    | with_reducible apply Only.then reg64LoWrite_only
    | split

theorem execEventBitsClear_only {x0 : _} {x1 : _} {x2 : _} {s : State} {t : State} (h : execEventBitsClear x0 x1 x2 s = .next t) : Only 0x3fffffffffffffffffffffffffffffffffffffffffffffffffffffffffffffffffffffffffffffffffffffffffffffffffffffffffffffffffffffffffffffffffffffffffffffffffffffffff0000001 s t := by
  simp only [execEventBitsClear, done, whenUp, whenOn] at h
  injection h with h
  subst h
  repeat' first
    | decide
    | with_reducible exact Only.refl _ _
    | with_reducible apply Only.then eventBitsClear_only
    | split

theorem execBlRegisterWrite_only {x0 : _} {x1 : _} {s : State} {t : State} (h : execBlRegisterWrite x0 x1 s = .next t) : Only 0x20002000000100000000000200380010000000000100000000000008000000000001000000000002000000000000400000000100000000000002000000000020000000800004000008000004000a08 s t := by
  simp only [execBlRegisterWrite, done, whenUp, whenOn] at h
  injection h with h
  subst h
  repeat' first
    | decide
    | with_reducible exact Only.refl _ _
    | with_reducible apply Only.then blRegisterWrite_only
    | split

theorem execReg64HiWrite_only {x0 : _} {x1 : _} {s : State} {t : State} (h : execReg64HiWrite x0 x1 s = .next t) : Only 0x180000071800000000000000000000000000000000000000000000000000000000000000000000000000000000000000000000000000000000000000000000000000004002800 s t := by
  simp only [execReg64HiWrite, done, whenUp, whenOn] at h
  injection h with h
  subst h
  repeat' first
    | decide
    | with_reducible exact Only.refl _ _
    | with_reducible apply Only.then reg64HiWrite_only
    | split

theorem execReg64LoRead_only {x0 : _} {s : State} {t : State} (h : execReg64LoRead x0 s = .next t) : Only 0xc00000000000000000000000000000000000000000000000000000000000000000000000000000000000000000000000000000000000000000000000000000000000000000000000c002100 s t := by
  simp only [execReg64LoRead, done, whenUp, whenOn] at h
  injection h with h
  subst h
  repeat' first
    | decide
    | with_reducible exact Only.refl _ _
    | with_reducible apply Only.then reg64LoRead_only
    | split

theorem execBar0BadAccess_only {x0 : _} {x1 : _} {x2 : _} {x3 : _} {s : State} {t : State} (h : execBar0BadAccess x0 x1 x2 x3 s = .next t) : Only 0x4000000 s t := by
  simp only [execBar0BadAccess, done, whenUp, whenOn] at h
  injection h with h
  subst h
  repeat' first
    | decide
    | with_reducible exact Only.refl _ _
    | with_reducible apply Only.then bar0BadAccess_only
    | split

end Sys2Proof.Machine
end

