-- ==== Sys2Proof/Laws/BoundPower.lean ====
section
/-!
SUPPORT. What each function of Machine/Power.lean can change at most.
-/

namespace Sys2Proof.Machine
open Sys2Proof Sys2Proof.Safety

theorem State.cutOff_only {s : State} {x1 : _} : Only 0x30 s (State.cutOff s x1) := by
  cases x1 <;> simp only [State.cutOff]
  · exact Only.refl _ _
  · split <;> exact Only.ofFl
  · split
    · exact Only.refl _ _
    · exact Only.ofOtp (otpStep_key _ (keyUse (by assumption)))
  · split
    · exact Only.refl _ _
    · exact Only.ofOtp (otpStep_key _ (keyRevUse (by assumption)))
  · split
    · exact Only.ofOtp (otpStep_svcLost (by assumption))
    · exact Only.refl _ _
  · split
    · exact Only.refl _ _
    · exact Only.ofOtp (otpStep_lockUsed _)
  · split
    · exact Only.ofOtp (otpStep_cascade _ (by assumption))
    · exact Only.refl _ _
  · split
    · exact Only.ofOtp (otpStep_retire _ (by assumption))
    · exact Only.refl _ _

theorem State.engineHeat_only {s : State} {x1 : _} {x2 : _} : Only 0x20002081140580000000000200380010020000000100000000000008000000000001000000000002000000000000400000000100000000000002000000000020000000800004000008000006000a48 s (State.engineHeat s x1 x2) := by
  unfold State.engineHeat
  repeat' first
    | decide
    | with_reducible exact Only.refl _ _
    | with_reducible apply Only.then State.laserEn_only
    | with_reducible apply Only.then State.portDown_only
    | with_reducible apply Only.then State.event_only
    | split
    | dsimp only
    | (simp only [Only.lit]; with_reducible apply Only.upd (hpending := rfl) <;> first | exact Or.inl rfl | exact Or.inr (by with_reducible rfl) | skip)

theorem State.hopperHeat_only {s : State} {x1 : _} : Only 0x30002000000100000000000200380010000000000100000000000008000000000001000000000002000000000000400000000100000000000002000000000020000000800004000008000004000a48 s (State.hopperHeat s x1) := by
  unfold State.hopperHeat
  repeat' first
    | decide
    | with_reducible exact Only.refl _ _
    | with_reducible apply Only.then State.event_only
    | with_reducible apply Only.then (State.setB_only ?_)
    | split
    | dsimp only
    | (simp only [Only.lit]; with_reducible apply Only.upd (hpending := rfl) <;> first | exact Or.inl rfl | exact Or.inr (by with_reducible rfl) | skip)

theorem State.pmbusFail_only {s : State} : Only 0x8030002000000100000000000200380010000000000100000000000008000000000001000000000002000000000000400000000100000000000002000000000020000000800004000008000004000a48 s (State.pmbusFail s) := by
  unfold State.pmbusFail
  repeat' first
    | decide
    | with_reducible exact Only.refl _ _
    | with_reducible apply Only.then State.event_only
    | with_reducible apply Only.then (State.addSat_only ?_)
    | with_reducible apply Only.then (State.setF_only ?_)
    | split
    | dsimp only
    | (simp only [Only.lit]; with_reducible apply Only.upd (hpending := rfl) <;> first | exact Or.inl rfl | exact Or.inr (by with_reducible rfl) | skip)

theorem State.smbPecFail_only {s : State} : Only 0x20002000000100000000000200380010000000000100000000000008000000000001000000000002000000000000400000000100000000000002000000000020000000800004000008000004000a08 s (State.smbPecFail s) := by
  unfold State.smbPecFail
  repeat' first
    | decide
    | with_reducible exact Only.refl _ _
    | with_reducible apply Only.then State.event_only

theorem State.thermLevels_only {s : State} {x1 : _} {x2 : _} {x3 : _} : Only 0x30002000000100000000000200380010000000000100000000000008000000000001000000000002000000000000400000000100000000000002000000000020000000800004000008000004000a48 s (State.thermLevels s x1 x2 x3) := by
  unfold State.thermLevels
  repeat' first
    | decide
    | with_reducible exact Only.refl _ _
    | with_reducible apply Only.then (State.setB_only ?_)
    | with_reducible apply Only.then State.event_only
    | split
    | dsimp only
    | (simp only [Only.lit]; with_reducible apply Only.upd (hpending := rfl) <;> first | exact Or.inl rfl | exact Or.inr (by with_reducible rfl) | skip)

theorem avsTelemetry_only {x0 : _} {x1 : _} {x2 : _} {x3 : _} {x4 : _} {x5 : _} {s : State} : Only 0x9cb0002000000100000000000200380010000000000100000000000008000000000001000000000002000000000000400000000100000000000002000000000020000000800004000008000004000e48 s (avsTelemetry x0 x1 x2 x3 x4 x5 s) := by
  unfold avsTelemetry
  repeat' first
    | with_reducible assumption
    | decide
    | with_reducible exact Only.refl _ _
    | with_reducible apply State.tele_only (hs := fun _ _ => ?_)
    | with_reducible apply Only.then (State.setF_only ?_)
    | with_reducible apply Only.then State.pmbusFail_only
    | split
    | dsimp only
    | (simp only [Only.lit]; with_reducible apply Only.upd (hpending := rfl) <;> first | exact Or.inl rfl | exact Or.inr (by with_reducible rfl) | skip)

theorem avsUpdate_only {x0 : _} {s : State} : Only 0x80b0002000000100000000000200380010000000000100000000000008000000000001000000000002000000000000400000000100000000000002000000000020000000800004000008000004000a48 s (avsUpdate x0 s) := by
  unfold avsUpdate
  repeat' first
    | decide
    | with_reducible exact Only.refl _ _
    | with_reducible apply Only.then (State.setF_only ?_)
    | with_reducible apply Only.then State.emit_only
    | with_reducible apply Only.then State.pmbusFail_only
    | split
    | dsimp only
    | (simp only [Only.lit]; with_reducible apply Only.upd (hpending := rfl) <;> first | exact Or.inl rfl | exact Or.inr (by with_reducible rfl) | skip)

theorem jtagPrivate_only {s : State} : Only 0x20003000000100000000000200380010000000000100000000000008000000000001000000000002000000000000400000000100000000000002000000000020000000800004000008000004000a08 s (jtagPrivate s) := by
  unfold jtagPrivate
  repeat' first
    | decide
    | with_reducible exact Only.refl _ _
    | with_reducible apply Only.then State.event_only
    | with_reducible apply Only.then (State.setB_only ?_)
    | split

theorem pwrgdAssert_only {s : State} : Only 0x3fffffffffffffffffffffffffffffffffffffffffffffffffffffffffffffffffffffffffffffffffffffffffffffffffffffffffffffffffffffffffffffffffffffffffffffffffffffffff3efffcf s (pwrgdAssert s) := by
  unfold pwrgdAssert
  repeat' first
    | decide
    | with_reducible exact Only.refl _ _
    | with_reducible apply Only.then State.unitsReset_only
    | split
    | dsimp only
    | (simp only [Only.lit]; with_reducible apply Only.upd (hpending := rfl) <;> first | exact Or.inl rfl | exact Or.inr (by with_reducible rfl) | skip)

theorem pwrgdFall_only {s : State} : Only 0x3fffffffffffffffffffffffffffffffffffffffffffffffffffffffffffffffffffffffffffffffffffffffffffffffffffffffffffffffffffffffffffffffffffffffffffffffffffffffff3efffcf s (pwrgdFall s) := by
  unfold pwrgdFall
  repeat' first
    | decide
    | with_reducible exact Only.refl _ _
    | with_reducible apply Only.then State.systemReset_only
    | split
    | dsimp only
    | (simp only [Only.lit]; with_reducible apply Only.upd (hpending := rfl) <;> first | exact Or.inl rfl | exact Or.inr (by with_reducible rfl) | skip)

theorem selfRestart_only {x0 : _} {s : State} : Only 0x3ffffffffffffffffffffffffffffffffffffffffffffffffffffffffffffffffffffffffffffffffffffffffffffffffffffffffffffffffffffffffffffffffffffffffffffffffffffffffffefffef s (selfRestart x0 s) := by
  unfold selfRestart
  repeat' first
    | decide
    | with_reducible exact Only.refl _ _
    | with_reducible apply Only.then State.restart_only
    | split

theorem smbRead_only {x0 : _} {x1 : _} {s : State} : Only 0x20002000000100000000000200380010000000000100000000000008000000000001000000000002000000000000400000000100000000000002000000000020000000800004000008000004000a08 s (smbRead x0 x1 s) := by
  unfold smbRead
  repeat' first
    | decide
    | with_reducible exact Only.refl _ _
    | with_reducible apply Only.then State.smbPecFail_only
    | with_reducible apply Only.then State.emit_only
    | split

theorem smbUnknown_only {x0 : _} {x1 : _} {s : State} : Only 0x20002000000100000000000200380010000000000100000000000008000000000001000000000002000000000000400000000100000000000002000000000020000000800004000008000004000a08 s (smbUnknown x0 x1 s) := by
  unfold smbUnknown
  repeat' first
    | decide
    | with_reducible exact Only.refl _ _
    | with_reducible apply Only.then State.emit_only
    | with_reducible apply Only.then State.smbPecFail_only
    | split

theorem supplyLoss_only {x0 : _} {s : State} : Only 0x3fffffffffffffffffffffffffffffffffffffffffffffffffffffffffffffffffffffffffffffffffffffffffffffffffffffffffffffffffffffffffffffffffffffffffffffffffffffffff3efffff s (supplyLoss x0 s) := by
  unfold supplyLoss
  repeat' first
    | decide
    | with_reducible exact Only.refl _ _
    | with_reducible apply Only.then State.cutOff_only
    | with_reducible apply Only.then State.unitsReset_only
    | split
    | dsimp only
    | (simp only [Only.lit]; with_reducible apply Only.upd (hpending := rfl) <;> first | exact Or.inl rfl | exact Or.inr (by with_reducible rfl) | skip)

theorem supplyRamp_only {x0 : _} {s : State} : Only 0x40 s (supplyRamp x0 s) := by
  unfold supplyRamp
  repeat' first
    | decide
    | with_reducible exact Only.refl _ _
    | split
    | dsimp only
    | (simp only [Only.lit]; with_reducible apply Only.upd (hpending := rfl) <;> first | exact Or.inl rfl | exact Or.inr (by with_reducible rfl) | skip)

theorem sysResetAssert_only {x0 : _} {s : State} : Only 0x3fffffffffffffffffffffffffffffffffffffffffffffffffffffffffffffffffffffffffffffffffffffffffffffffffffffffffffffffffffffffffffffffffffffffffffffffffffffffffbefffcf s (sysResetAssert x0 s) := by
  unfold sysResetAssert
  repeat' first
    | decide
    | with_reducible exact Only.refl _ _
    | with_reducible apply Only.then State.used_only
    | with_reducible apply Only.then State.systemReset_only
    | split
    | dsimp only
    | (simp only [Only.lit]; with_reducible apply Only.upd (hpending := rfl) <;> first | exact Or.inl rfl | exact Or.inr (by with_reducible rfl) | skip)

theorem sysResetRelease_only {x0 : _} {x1 : _} {s : State} : Only 0x141743ef00000010000000000028e38001000000000038000000000001c000000000003800000000002000000000000400000000780000000000007000000000020000000800004000008fb1d7c000be8 s (sysResetRelease x0 x1 s) := by
  unfold sysResetRelease
  repeat' first
    | decide
    | with_reducible exact Only.refl _ _
    | with_reducible apply Only.then State.romStart_only
    | with_reducible apply Only.then (State.setF_only ?_)
    | split
    | dsimp only
    | (simp only [Only.lit]; with_reducible apply Only.upd (hpending := rfl) <;> first | exact Or.inl rfl | exact Or.inr (by with_reducible rfl) | skip)

theorem tempSensorRead_only {x0 : _} {x1 : _} {s : State} : Only 0x20030002081140580000000000200380010020000000100000000000008000000000001000000000002000000000000400000000100000000000002000000000020000000800004000008000006000a48 s (tempSensorRead x0 x1 s) := by
  unfold tempSensorRead
  repeat' first
    | decide
    | with_reducible exact Only.refl _ _
    | with_reducible apply Only.then (State.setFs_only ?_)
    | with_reducible apply Only.then State.thermLevels_only
    | with_reducible apply Only.then State.hopperHeat_only
    | with_reducible apply Only.then State.engineHeat_only
    | split
    | dsimp only
    | (simp only [Only.lit]; with_reducible apply Only.upd (hpending := rfl) <;> first | exact Or.inl rfl | exact Or.inr (by with_reducible rfl) | skip)

theorem thermtrip_only {x0 : _} {x1 : _} {s : State} : Only 0x3fffffffffffffffffffffffffffffffffffffffffffffffffffffffffffffffffffffffffffffffffffffffffffffffffffffffffffffffffffffffffffffffffffffffffffffffffffffffff7efffcf s (thermtrip x0 x1 s) := by
  unfold thermtrip
  repeat' first
    | decide
    | with_reducible exact Only.refl _ _
    | with_reducible apply Only.then State.systemReset_only
    | with_reducible apply Only.then tempSensorRead_only
    | split
    | dsimp only
    | (simp only [Only.lit]; with_reducible apply Only.upd (hpending := rfl) <;> first | exact Or.inl rfl | exact Or.inr (by with_reducible rfl) | skip)

/-! ## Commands -/

theorem execSysResetRelease_only {x0 : _} {x1 : _} {s : State} {t : State} (h : execSysResetRelease x0 x1 s = .next t) : Only 0x141743ef00000010000000000028e38001000000000038000000000001c000000000003800000000002000000000000400000000780000000000007000000000020000000800004000008fb1d7c000be8 s t := by
  simp only [execSysResetRelease, done, whenUp, whenOn] at h
  injection h with h
  subst h
  repeat' first
    | decide
    | with_reducible exact Only.refl _ _
    | with_reducible apply Only.then sysResetRelease_only
    | split

theorem execTempSensorRead_only {x0 : _} {x1 : _} {s : State} {t : State} (h : execTempSensorRead x0 x1 s = .next t) : Only 0x20030002081140580000000000200380010020000000100000000000008000000000001000000000002000000000000400000000100000000000002000000000020000000800004000008000006000a48 s t := by
  simp only [execTempSensorRead, done, whenUp, whenOn] at h
  injection h with h
  subst h
  repeat' first
    | decide
    | with_reducible exact Only.refl _ _
    | with_reducible apply Only.then tempSensorRead_only
    | split

theorem execPwrgdFall_only {s : State} {t : State} (h : execPwrgdFall s = .next t) : Only 0x3fffffffffffffffffffffffffffffffffffffffffffffffffffffffffffffffffffffffffffffffffffffffffffffffffffffffffffffffffffffffffffffffffffffffffffffffffffffffff3efffcf s t := by
  simp only [execPwrgdFall, done, whenUp, whenOn] at h
  injection h with h
  subst h
  repeat' first
    | decide
    | with_reducible exact Only.refl _ _
    | with_reducible apply Only.then pwrgdFall_only
    | split

theorem execThermtrip_only {x0 : _} {x1 : _} {s : State} {t : State} (h : execThermtrip x0 x1 s = .next t) : Only 0x3fffffffffffffffffffffffffffffffffffffffffffffffffffffffffffffffffffffffffffffffffffffffffffffffffffffffffffffffffffffffffffffffffffffffffffffffffffffffff7efffcf s t := by
  simp only [execThermtrip, done, whenUp, whenOn] at h
  injection h with h
  subst h
  repeat' first
    | decide
    | with_reducible exact Only.refl _ _
    | with_reducible apply Only.then thermtrip_only
    | split

theorem execSmbUnknownCommand_only {x0 : _} {x1 : _} {s : State} {t : State} (h : execSmbUnknownCommand x0 x1 s = .next t) : Only 0x20002000000100000000000200380010000000000100000000000008000000000001000000000002000000000000400000000100000000000002000000000020000000800004000008000004000a08 s t := by
  simp only [execSmbUnknownCommand, done, whenUp, whenOn] at h
  injection h with h
  subst h
  repeat' first
    | decide
    | with_reducible exact Only.refl _ _
    | with_reducible apply Only.then smbUnknown_only
    | split

theorem execSmbReadHopperTemp_only {x0 : _} {s : State} {t : State} (h : execSmbReadHopperTemp x0 s = .next t) : Only 0x20002000000100000000000200380010000000000100000000000008000000000001000000000002000000000000400000000100000000000002000000000020000000800004000008000004000a08 s t := by
  simp only [execSmbReadHopperTemp, done, whenUp, whenOn] at h
  injection h with h
  subst h
  repeat' first
    | decide
    | with_reducible exact Only.refl _ _
    | with_reducible apply Only.then smbRead_only
    | split

theorem execSmbReadBootStatus_only {x0 : _} {s : State} {t : State} (h : execSmbReadBootStatus x0 s = .next t) : Only 0x20002000000100000000000200380010000000000100000000000008000000000001000000000002000000000000400000000100000000000002000000000020000000800004000008000004000a08 s t := by
  simp only [execSmbReadBootStatus, done, whenUp, whenOn] at h
  injection h with h
  subst h
  repeat' first
    | decide
    | with_reducible exact Only.refl _ _
    | with_reducible apply Only.then smbRead_only
    | split

theorem execAvsUpdate_only {x0 : _} {s : State} {t : State} (h : execAvsUpdate x0 s = .next t) : Only 0x80b0002000000100000000000200380010000000000100000000000008000000000001000000000002000000000000400000000100000000000002000000000020000000800004000008000004000a48 s t := by
  simp only [execAvsUpdate, done, whenUp, whenOn] at h
  injection h with h
  subst h
  repeat' first
    | decide
    | with_reducible exact Only.refl _ _
    | with_reducible apply Only.then avsUpdate_only
    | split

theorem execSmbReadComputeTemp_only {x0 : _} {s : State} {t : State} (h : execSmbReadComputeTemp x0 s = .next t) : Only 0x20002000000100000000000200380010000000000100000000000008000000000001000000000002000000000000400000000100000000000002000000000020000000800004000008000004000a08 s t := by
  simp only [execSmbReadComputeTemp, done, whenUp, whenOn] at h
  injection h with h
  subst h
  repeat' first
    | decide
    | with_reducible exact Only.refl _ _
    | with_reducible apply Only.then smbRead_only
    | split

theorem execSupplyLoss_only {x0 : _} {s : State} {t : State} (h : execSupplyLoss x0 s = .next t) : Only 0x3fffffffffffffffffffffffffffffffffffffffffffffffffffffffffffffffffffffffffffffffffffffffffffffffffffffffffffffffffffffffffffffffffffffffffffffffffffffffff3efffff s t := by
  simp only [execSupplyLoss, done, whenUp, whenOn] at h
  injection h with h
  subst h
  repeat' first
    | decide
    | with_reducible exact Only.refl _ _
    | with_reducible apply Only.then supplyLoss_only
    | split

theorem execSelfRestart_only {x0 : _} {s : State} {t : State} (h : execSelfRestart x0 s = .next t) : Only 0x3ffffffffffffffffffffffffffffffffffffffffffffffffffffffffffffffffffffffffffffffffffffffffffffffffffffffffffffffffffffffffffffffffffffffffffffffffffffffffffefffef s t := by
  simp only [execSelfRestart, done, whenUp, whenOn] at h
  injection h with h
  subst h
  repeat' first
    | decide
    | with_reducible exact Only.refl _ _
    | with_reducible apply Only.then selfRestart_only
    | split

theorem execPwrgdAssert_only {s : State} {t : State} (h : execPwrgdAssert s = .next t) : Only 0x3fffffffffffffffffffffffffffffffffffffffffffffffffffffffffffffffffffffffffffffffffffffffffffffffffffffffffffffffffffffffffffffffffffffffffffffffffffffffff3efffcf s t := by
  simp only [execPwrgdAssert, done, whenUp, whenOn] at h
  injection h with h
  subst h
  repeat' first
    | decide
    | with_reducible exact Only.refl _ _
    | with_reducible apply Only.then pwrgdAssert_only
    | split

theorem execAvsTelemetry_only {x0 : _} {x1 : _} {x2 : _} {x3 : _} {x4 : _} {x5 : _} {s : State} {t : State} (h : execAvsTelemetry x0 x1 x2 x3 x4 x5 s = .next t) : Only 0x9cb0002000000100000000000200380010000000000100000000000008000000000001000000000002000000000000400000000100000000000002000000000020000000800004000008000004000e48 s t := by
  simp only [execAvsTelemetry, done, whenUp, whenOn] at h
  injection h with h
  subst h
  repeat' first
    | decide
    | with_reducible exact Only.refl _ _
    | with_reducible apply Only.then avsTelemetry_only
    | split

theorem execSmbReadPkgPower_only {x0 : _} {s : State} {t : State} (h : execSmbReadPkgPower x0 s = .next t) : Only 0x20002000000100000000000200380010000000000100000000000008000000000001000000000002000000000000400000000100000000000002000000000020000000800004000008000004000a08 s t := by
  simp only [execSmbReadPkgPower, done, whenUp, whenOn] at h
  injection h with h
  subst h
  repeat' first
    | decide
    | with_reducible exact Only.refl _ _
    | with_reducible apply Only.then smbRead_only
    | split

theorem execJtagPrivateInstruction_only {s : State} {t : State} (h : execJtagPrivateInstruction s = .next t) : Only 0x20003000000100000000000200380010000000000100000000000008000000000001000000000002000000000000400000000100000000000002000000000020000000800004000008000004000a08 s t := by
  simp only [execJtagPrivateInstruction, done, whenUp, whenOn] at h
  injection h with h
  subst h
  repeat' first
    | decide
    | with_reducible exact Only.refl _ _
    | with_reducible apply Only.then jtagPrivate_only
    | split

theorem execSmbReadPart_only {x0 : _} {s : State} {t : State} (h : execSmbReadPart x0 s = .next t) : Only 0x20002000000100000000000200380010000000000100000000000008000000000001000000000002000000000000400000000100000000000002000000000020000000800004000008000004000a08 s t := by
  simp only [execSmbReadPart, done, whenUp, whenOn] at h
  injection h with h
  subst h
  repeat' first
    | decide
    | with_reducible exact Only.refl _ _
    | with_reducible apply Only.then smbRead_only
    | split

theorem execSmbReadPwrStatus_only {x0 : _} {s : State} {t : State} (h : execSmbReadPwrStatus x0 s = .next t) : Only 0x20002000000100000000000200380010000000000100000000000008000000000001000000000002000000000000400000000100000000000002000000000020000000800004000008000004000a08 s t := by
  simp only [execSmbReadPwrStatus, done, whenUp, whenOn] at h
  injection h with h
  subst h
  repeat' first
    | decide
    | with_reducible exact Only.refl _ _
    | with_reducible apply Only.then smbRead_only
    | split

theorem execSupplyRamp_only {x0 : _} {s : State} {t : State} (h : execSupplyRamp x0 s = .next t) : Only 0x40 s t := by
  simp only [execSupplyRamp, done, whenUp, whenOn] at h
  injection h with h
  subst h
  repeat' first
    | decide
    | with_reducible exact Only.refl _ _
    | with_reducible apply Only.then supplyRamp_only
    | split

theorem execSysResetAssert_only {x0 : _} {s : State} {t : State} (h : execSysResetAssert x0 s = .next t) : Only 0x3fffffffffffffffffffffffffffffffffffffffffffffffffffffffffffffffffffffffffffffffffffffffffffffffffffffffffffffffffffffffffffffffffffffffffffffffffffffffffbefffcf s t := by
  simp only [execSysResetAssert, done, whenUp, whenOn] at h
  injection h with h
  subst h
  repeat' first
    | decide
    | with_reducible exact Only.refl _ _
    | with_reducible apply Only.then sysResetAssert_only
    | split

end Sys2Proof.Machine
end

