-- ==== Sys2Proof/Laws/PerInstr.lean ====
section
/-!
SUPPORT. One lemma per command: a queue with the command in front is well formed exactly when the command and the rest are, and no word
spells the command.
-/

namespace Sys2Proof.Laws
open Sys2Proof Sys2Proof.Machine

/-- The command's well-formedness decides that of a queue that begins with it, and no word of the table spells it. -/
def WellFormed.Statement (i : Instr) : Prop :=
  (∀ q : List Instr, (i :: q).all Instr.wf = (i.wf && q.all Instr.wf)) ∧ ∀ n w : Nat, decodeTableWord n w ≠ some i

/-- The statement for any command. -/
theorem wellFormed_of (i : Instr) : WellFormed.Statement i := ⟨fun _ => rfl, fun _ _ h => by cases h⟩

theorem WellFormed.supplyRamp (rail : Nat) : WellFormed.Statement (.supplyRamp rail) := wellFormed_of _
theorem WellFormed.pwrgdAssert : WellFormed.Statement (.pwrgdAssert) := wellFormed_of _
theorem WellFormed.sysResetRelease (strap pufFails : Nat) : WellFormed.Statement (.sysResetRelease strap pufFails) := wellFormed_of _
theorem WellFormed.sysResetAssert (ns : Nat) : WellFormed.Statement (.sysResetAssert ns) := wellFormed_of _
theorem WellFormed.pwrgdFall : WellFormed.Statement (.pwrgdFall) := wellFormed_of _
theorem WellFormed.supplyLoss (cut : Cut) : WellFormed.Statement (.supplyLoss cut) := wellFormed_of _
theorem WellFormed.perstN : WellFormed.Statement (.perstN) := wellFormed_of _
theorem WellFormed.selfRestart (cause : Nat) : WellFormed.Statement (.selfRestart cause) := wellFormed_of _
theorem WellFormed.tempSensorRead (sensor : Nat) (t : Int) : WellFormed.Statement (.tempSensorRead sensor t) := wellFormed_of _
theorem WellFormed.thermtrip (sensor : Nat) (t : Int) : WellFormed.Statement (.thermtrip sensor t) := wellFormed_of _
theorem WellFormed.avsUpdate (ack : Bool) : WellFormed.Statement (.avsUpdate ack) := wellFormed_of _
theorem WellFormed.avsTelemetry (ack : Bool) (vout iout temp pkg peak : Nat) : WellFormed.Statement (.avsTelemetry ack vout iout temp pkg peak) := wellFormed_of _
theorem WellFormed.smbReadBootStatus (pecBad : Bool) : WellFormed.Statement (.smbReadBootStatus pecBad) := wellFormed_of _
theorem WellFormed.smbReadComputeTemp (pecBad : Bool) : WellFormed.Statement (.smbReadComputeTemp pecBad) := wellFormed_of _
theorem WellFormed.smbReadHopperTemp (pecBad : Bool) : WellFormed.Statement (.smbReadHopperTemp pecBad) := wellFormed_of _
theorem WellFormed.smbReadPkgPower (pecBad : Bool) : WellFormed.Statement (.smbReadPkgPower pecBad) := wellFormed_of _
theorem WellFormed.smbReadPwrStatus (pecBad : Bool) : WellFormed.Statement (.smbReadPwrStatus pecBad) := wellFormed_of _
theorem WellFormed.smbReadPart (pecBad : Bool) : WellFormed.Statement (.smbReadPart pecBad) := wellFormed_of _
theorem WellFormed.smbUnknownCommand (code : Nat) (pecBad : Bool) : WellFormed.Statement (.smbUnknownCommand code pecBad) := wellFormed_of _
theorem WellFormed.startStepDone (step : Nat) (find : StepFind) : WellFormed.Statement (.startStepDone step find) := wellFormed_of _
theorem WellFormed.startStepLimit (step : Nat) : WellFormed.Statement (.startStepLimit step) := wellFormed_of _
theorem WellFormed.ptpWaitExpire : WellFormed.Statement (.ptpWaitExpire) := wellFormed_of _
theorem WellFormed.sensorCheckExpire (sensor : Nat) : WellFormed.Statement (.sensorCheckExpire sensor) := wellFormed_of _
theorem WellFormed.trainingCacheWrite : WellFormed.Statement (.trainingCacheWrite) := wellFormed_of _
theorem WellFormed.trialConfirm : WellFormed.Statement (.trialConfirm) := wellFormed_of _
theorem WellFormed.cellarBringupDone (found : CellarFind) : WellFormed.Statement (.cellarBringupDone found) := wellFormed_of _
theorem WellFormed.deviceTimeTick : WellFormed.Statement (.deviceTimeTick) := wellFormed_of _
theorem WellFormed.ptpAnnounceRx (n port : Nat) (a : Announce) : WellFormed.Statement (.ptpAnnounceRx n port a) := wellFormed_of _
theorem WellFormed.ptpSyncRx (n port : Nat) (twoStep : Bool) (m : SyncMsg) : WellFormed.Statement (.ptpSyncRx n port twoStep m) := wellFormed_of _
theorem WellFormed.ptpFollowUpRx (n port : Nat) (m : SyncMsg) : WellFormed.Statement (.ptpFollowUpRx n port m) := wellFormed_of _
theorem WellFormed.ptpDelayRespRx (n seq : Nat) (t4 : Int) : WellFormed.Statement (.ptpDelayRespRx n seq t4) := wellFormed_of _
theorem WellFormed.ptpDelayReqTx (n : Nat) : WellFormed.Statement (.ptpDelayReqTx n) := wellFormed_of _
theorem WellFormed.ptpPdelayReqRx (port seq : Nat) : WellFormed.Statement (.ptpPdelayReqRx port seq) := wellFormed_of _
theorem WellFormed.ptpPdelayRespRx (n seq : Nat) (t4 turn : Int) : WellFormed.Statement (.ptpPdelayRespRx n seq t4 turn) := wellFormed_of _
theorem WellFormed.ptpManagementGet (port seq : Nat) : WellFormed.Statement (.ptpManagementGet port seq) := wellFormed_of _
theorem WellFormed.ptpManagementSet (port seq : Nat) : WellFormed.Statement (.ptpManagementSet port seq) := wellFormed_of _
theorem WellFormed.ptpManagementCommand (port seq : Nat) : WellFormed.Statement (.ptpManagementCommand port seq) := wellFormed_of _
theorem WellFormed.announceReceiptTimeout (n port : Nat) : WellFormed.Statement (.announceReceiptTimeout n port) := wellFormed_of _
theorem WellFormed.selectionEval : WellFormed.Statement (.selectionEval) := wellFormed_of _
theorem WellFormed.holdErrUpdate : WellFormed.Statement (.holdErrUpdate) := wellFormed_of _
theorem WellFormed.holdoverLimitExpire : WellFormed.Statement (.holdoverLimitExpire) := wellFormed_of _
theorem WellFormed.ppsEdge (err off : Int) : WellFormed.Statement (.ppsEdge err off) := wellFormed_of _
theorem WellFormed.ref10mEdge (err ppt : Int) : WellFormed.Statement (.ref10mEdge err ppt) := wellFormed_of _
theorem WellFormed.exposureTriggerEdge (n : Nat) : WellFormed.Statement (.exposureTriggerEdge n) := wellFormed_of _
theorem WellFormed.conversionStrobeEdge (n : Nat) : WellFormed.Statement (.conversionStrobeEdge n) := wellFormed_of _
theorem WellFormed.controlCycleEdge (n : Nat) : WellFormed.Statement (.controlCycleEdge n) := wellFormed_of _
theorem WellFormed.captureEdge (n start stop : Nat) (rising : Bool) : WellFormed.Statement (.captureEdge n start stop rising) := wellFormed_of _
theorem WellFormed.slipHoldExpire (n : Nat) : WellFormed.Statement (.slipHoldExpire n) := wellFormed_of _
theorem WellFormed.heldClear (n : Nat) : WellFormed.Statement (.heldClear n) := wellFormed_of _
theorem WellFormed.csi2FrameStart (port vc ecc : Nat) : WellFormed.Statement (.csi2FrameStart port vc ecc) := wellFormed_of _
theorem WellFormed.csi2FrameEnd (port vc ecc : Nat) : WellFormed.Statement (.csi2FrameEnd port vc ecc) := wellFormed_of _
theorem WellFormed.csi2LongPacket (port vc dt ecc : Nat) (crcOk : Bool) (px : List Px) : WellFormed.Statement (.csi2LongPacket port vc dt ecc crcOk px) := wellFormed_of _
theorem WellFormed.csi2IgnoredPacket (port vc dt ecc : Nat) : WellFormed.Statement (.csi2IgnoredPacket port vc dt ecc) := wellFormed_of _
theorem WellFormed.bandSlotFree (n : Nat) : WellFormed.Statement (.bandSlotFree n) := wellFormed_of _
theorem WellFormed.st2110PacketRx (p : StPacket) : WellFormed.Statement (.st2110PacketRx p) := wellFormed_of _
theorem WellFormed.frameTimeout (n : Nat) : WellFormed.Statement (.frameTimeout n) := wellFormed_of _
theorem WellFormed.spiDataReady (p : Nat) : WellFormed.Statement (.spiDataReady p) := wellFormed_of _
theorem WellFormed.spiWaitExpire (p : Nat) : WellFormed.Statement (.spiWaitExpire p) := wellFormed_of _
theorem WellFormed.spiTransactionDone (p : Nat) (data : List Byte) : WellFormed.Statement (.spiTransactionDone p data) := wellFormed_of _
theorem WellFormed.imuIdentityRead (p value : Nat) : WellFormed.Statement (.imuIdentityRead p value) := wellFormed_of _
theorem WellFormed.ssiReadDone (p : Nat) (bits : List Bool) (high low : Bool) (first : Option Int) : WellFormed.Statement (.ssiReadDone p bits high low first) := wellFormed_of _
theorem WellFormed.quadTransition (q : Nat) (a b : Bool) (ns : Nat) : WellFormed.Statement (.quadTransition q a b ns) := wellFormed_of _
theorem WellFormed.quadSample (q : Nat) : WellFormed.Statement (.quadSample q) := wellFormed_of _
theorem WellFormed.canFrameRx (ctl : Nat) (ext fd : Bool) (id ago : Nat) (data : List Byte) : WellFormed.Statement (.canFrameRx ctl ext fd id ago data) := wellFormed_of _
theorem WellFormed.canTxDone (ctl : Nat) : WellFormed.Statement (.canTxDone ctl) := wellFormed_of _
theorem WellFormed.canBusoffRecover (ctl : Nat) : WellFormed.Statement (.canBusoffRecover ctl) := wellFormed_of _
theorem WellFormed.channelTimeout (c : Nat) : WellFormed.Statement (.channelTimeout c) := wellFormed_of _
theorem WellFormed.channelAbsentInstant (c : Nat) : WellFormed.Statement (.channelAbsentInstant c) := wellFormed_of _
theorem WellFormed.tallyAdvance (src tally amount : Nat) (stamp : Option Nat) (task : Option TaskRef) (stores : List (Nat × List Byte)) (deltas : List Delta) : WellFormed.Statement (.tallyAdvance src tally amount stamp task stores deltas) := wellFormed_of _
theorem WellFormed.taskLimitExpire (node k cls unit : Nat) : WellFormed.Statement (.taskLimitExpire node k cls unit) := wellFormed_of _
theorem WellFormed.unitFault (cls unit : Nat) (task : Option TaskRef) : WellFormed.Statement (.unitFault cls unit task) := wellFormed_of _
theorem WellFormed.taskFailed (node k cause : Nat) : WellFormed.Statement (.taskFailed node k cause) := wellFormed_of _
theorem WellFormed.waitLimitExpire (node k : Nat) : WellFormed.Statement (.waitLimitExpire node k) := wellFormed_of _
theorem WellFormed.hostTallyAdvance (index amount : Nat) : WellFormed.Statement (.hostTallyAdvance index amount) := wellFormed_of _
theorem WellFormed.hostWaitArm (slot index : Nat) : WellFormed.Statement (.hostWaitArm slot index) := wellFormed_of _
theorem WellFormed.hostWaitDisarm (slot index : Nat) : WellFormed.Statement (.hostWaitDisarm slot index) := wellFormed_of _
theorem WellFormed.spareVisit (cls group : Nat) (lanes : List (Nat × Nat)) (die : Option Nat) : WellFormed.Statement (.spareVisit cls group lanes die) := wellFormed_of _
theorem WellFormed.selfTestDone (cls unit : Nat) (pass : Bool) : WellFormed.Statement (.selfTestDone cls unit pass) := wellFormed_of _
theorem WellFormed.unitSwap (cls spare : Nat) : WellFormed.Statement (.unitSwap cls spare) := wellFormed_of _
theorem WellFormed.retest (cls unit : Nat) (pass : Bool) : WellFormed.Statement (.retest cls unit pass) := wellFormed_of _
theorem WellFormed.visitWaitWarning (cls group : Nat) : WellFormed.Statement (.visitWaitWarning cls group) := wellFormed_of _
theorem WellFormed.calibPost (n : Nat) : WellFormed.Statement (.calibPost n) := wellFormed_of _
theorem WellFormed.cooperLoadEval (l0 l1 l2 : Nat) : WellFormed.Statement (.cooperLoadEval l0 l1 l2) := wellFormed_of _
theorem WellFormed.firmwareWatchdog (core : Nat) : WellFormed.Statement (.firmwareWatchdog core) := wellFormed_of _
theorem WellFormed.eventFoldFlush (src code unit : Nat) : WellFormed.Statement (.eventFoldFlush src code unit) := wellFormed_of _
theorem WellFormed.millBandDone (n b lane : Nat) : WellFormed.Statement (.millBandDone n b lane) := wellFormed_of _
theorem WellFormed.sgmBandDone (p b : Nat) : WellFormed.Statement (.sgmBandDone p b) := wellFormed_of _
theorem WellFormed.flowLevelDone (f level : Nat) : WellFormed.Statement (.flowLevelDone f level) := wellFormed_of _
theorem WellFormed.pathSpaceFreed (n : Nat) : WellFormed.Statement (.pathSpaceFreed n) := wellFormed_of _
theorem WellFormed.networkBandDone (i b core : Nat) (splits : List KSplit) : WellFormed.Statement (.networkBandDone i b core splits) := wellFormed_of _
theorem WellFormed.networkDeadline (i f : Nat) : WellFormed.Statement (.networkDeadline i f) := wellFormed_of _
theorem WellFormed.weightsStaged (net layer cluster : Nat) : WellFormed.Statement (.weightsStaged net layer cluster) := wellFormed_of _
theorem WellFormed.migrationPass (counts : List (Nat × Nat × Bool)) : WellFormed.Statement (.migrationPass counts) := wellFormed_of _
theorem WellFormed.pageMigrateSwitch (page : Nat) : WellFormed.Statement (.pageMigrateSwitch page) := wellFormed_of _
theorem WellFormed.demandFillDone (page fails : Nat) : WellFormed.Statement (.demandFillDone page fails) := wellFormed_of _
theorem WellFormed.scrubStep (tier unit addr : Nat) (fixed : Bool) : WellFormed.Statement (.scrubStep tier unit addr fixed) := wellFormed_of _
theorem WellFormed.correctedError (tier unit kind addr : Nat) : WellFormed.Statement (.correctedError tier unit kind addr) := wellFormed_of _
theorem WellFormed.channelDrainDone (ch : Nat) : WellFormed.Statement (.channelDrainDone ch) := wellFormed_of _
theorem WellFormed.uncorrectableError (tier unit kind addr block : Nat) : WellFormed.Statement (.uncorrectableError tier unit kind addr block) := wellFormed_of _
theorem WellFormed.phyLockLoss (ch : Nat) : WellFormed.Statement (.phyLockLoss ch) := wellFormed_of _
theorem WellFormed.retrainTimeout (ch : Nat) : WellFormed.Statement (.retrainTimeout ch) := wellFormed_of _
theorem WellFormed.refillDone (page bad : Nat) : WellFormed.Statement (.refillDone page bad) := wellFormed_of _
theorem WellFormed.addressFault (addr block : Nat) : WellFormed.Statement (.addressFault addr block) := wellFormed_of _
theorem WellFormed.ddrDqsTrack (ch : Nat) (drift : Int) : WellFormed.Statement (.ddrDqsTrack ch drift) := wellFormed_of _
theorem WellFormed.ddrZqCal (ch : Nat) : WellFormed.Statement (.ddrZqCal ch) := wellFormed_of _
theorem WellFormed.ddrMr4Read (ch : Nat) (hot : Bool) : WellFormed.Statement (.ddrMr4Read ch hot) := wellFormed_of _
theorem WellFormed.nvmeCompletion (op page : Nat) (err : Bool) (warn used : Nat) : WellFormed.Statement (.nvmeCompletion op page err warn used) := wellFormed_of _
theorem WellFormed.nvmeTimeout (op page : Nat) (abortOk : Bool) : WellFormed.Statement (.nvmeTimeout op page abortOk) := wellFormed_of _
theorem WellFormed.cellarCheckpoint : WellFormed.Statement (.cellarCheckpoint) := wellFormed_of _
theorem WellFormed.cellarWriteback (page : Nat) : WellFormed.Statement (.cellarWriteback page) := wellFormed_of _
theorem WellFormed.visionStep (n : Nat) : WellFormed.Statement (.visionStep n) := wellFormed_of _
theorem WellFormed.propagatedRecord (n : Nat) : WellFormed.Statement (.propagatedRecord n) := wellFormed_of _
theorem WellFormed.foldIn (n kind record kf : Nat) : WellFormed.Statement (.foldIn n kind record kf) := wellFormed_of _
theorem WellFormed.initTimeout (n : Nat) : WellFormed.Statement (.initTimeout n) := wellFormed_of _
theorem WellFormed.coastExpire (n : Nat) : WellFormed.Statement (.coastExpire n) := wellFormed_of _
theorem WellFormed.relocQueryPost (n : Nat) : WellFormed.Statement (.relocQueryPost n) := wellFormed_of _
theorem WellFormed.kettleIterationDone (p : Nat) (bad1 bad2 : Bool) : WellFormed.Statement (.kettleIterationDone p bad1 bad2) := wellFormed_of _
theorem WellFormed.solveDeadline (p n : Nat) : WellFormed.Statement (.solveDeadline p n) := wellFormed_of _
theorem WellFormed.solveComplete (p : Nat) : WellFormed.Statement (.solveComplete p) := wellFormed_of _
theorem WellFormed.bodySolveDone (p : Nat) : WellFormed.Statement (.bodySolveDone p) := wellFormed_of _
theorem WellFormed.posegraphPost (p : Nat) : WellFormed.Statement (.posegraphPost p) := wellFormed_of _
theorem WellFormed.viewPassDeadline (v : Nat) : WellFormed.Statement (.viewPassDeadline v) := wellFormed_of _
theorem WellFormed.kilnBinningDone (u : Nat) : WellFormed.Statement (.kilnBinningDone u) := wellFormed_of _
theorem WellFormed.kilnCompositingDone (u : Nat) : WellFormed.Statement (.kilnCompositingDone u) := wellFormed_of _
theorem WellFormed.kilnBackwardDone (u : Nat) : WellFormed.Statement (.kilnBackwardDone u) := wellFormed_of _
theorem WellFormed.kilnCommit (m : Nat) : WellFormed.Statement (.kilnCommit m) := wellFormed_of _
theorem WellFormed.refineJobDone (m : Nat) : WellFormed.Statement (.refineJobDone m) := wellFormed_of _
theorem WellFormed.activeSetUpdate (m : Nat) : WellFormed.Statement (.activeSetUpdate m) := wellFormed_of _
theorem WellFormed.blockLoadDone (m b : Nat) : WellFormed.Statement (.blockLoadDone m b) := wellFormed_of _
theorem WellFormed.blockEvict (m : Nat) : WellFormed.Statement (.blockEvict m) := wellFormed_of _
theorem WellFormed.kilnRelocDone : WellFormed.Statement .kilnRelocDone := wellFormed_of _
theorem WellFormed.nodeReadReturn (w node : Nat) : WellFormed.Statement (.nodeReadReturn w node) := wellFormed_of _
theorem WellFormed.caskQueryDeadline (w : Nat) : WellFormed.Statement (.caskQueryDeadline w) := wellFormed_of _
theorem WellFormed.caskQueryDone (w : Nat) : WellFormed.Statement (.caskQueryDone w) := wellFormed_of _
theorem WellFormed.caskInsert (q : Nat) : WellFormed.Statement (.caskInsert q) := wellFormed_of _
theorem WellFormed.caskDelete (q : Nat) : WellFormed.Statement (.caskDelete q) := wellFormed_of _
theorem WellFormed.caskReplace (q : Nat) : WellFormed.Statement (.caskReplace q) := wellFormed_of _
theorem WellFormed.caskCompactNode (i : Nat) : WellFormed.Statement (.caskCompactNode i) := wellFormed_of _
theorem WellFormed.shardAnswerRx (tag : Nat) (a : ShardAns) : WellFormed.Statement (.shardAnswerRx tag a) := wellFormed_of _
theorem WellFormed.shardMergeTimeout (tag : Nat) : WellFormed.Statement (.shardMergeTimeout tag) := wellFormed_of _
theorem WellFormed.regWrite (addr v : Nat) : WellFormed.Statement (.regWrite addr v) := wellFormed_of _
theorem WellFormed.eventBitsClear (addr v same : Nat) : WellFormed.Statement (.eventBitsClear addr v same) := wellFormed_of _
theorem WellFormed.blRegisterWrite (addr v : Nat) : WellFormed.Statement (.blRegisterWrite addr v) := wellFormed_of _
theorem WellFormed.reg64LoWrite (addr v : Nat) : WellFormed.Statement (.reg64LoWrite addr v) := wellFormed_of _
theorem WellFormed.reg64HiWrite (addr v : Nat) : WellFormed.Statement (.reg64HiWrite addr v) := wellFormed_of _
theorem WellFormed.reg64LoRead (addr : Nat) : WellFormed.Statement (.reg64LoRead addr) := wellFormed_of _
theorem WellFormed.timeNowCapture (fn : Nat) : WellFormed.Statement (.timeNowCapture fn) := wellFormed_of _
theorem WellFormed.bar0BadAccess (write : Bool) (addr len v : Nat) : WellFormed.Statement (.bar0BadAccess write addr len v) := wellFormed_of _
theorem WellFormed.msixTableWrite (fn off v : Nat) : WellFormed.Statement (.msixTableWrite fn off v) := wellFormed_of _
theorem WellFormed.hstRingRdWrite (n seq : Nat) : WellFormed.Statement (.hstRingRdWrite n seq) := wellFormed_of _
theorem WellFormed.ringRecordCopy (kind source : Nat) : WellFormed.Statement (.ringRecordCopy kind source) := wellFormed_of _
theorem WellFormed.ringIrqTimer (n : Nat) : WellFormed.Statement (.ringIrqTimer n) := wellFormed_of _
theorem WellFormed.holdRelease : WellFormed.Statement (.holdRelease) := wellFormed_of _
theorem WellFormed.slotRequestWrite (fn n off : Nat) (bytes : List Byte) : WellFormed.Statement (.slotRequestWrite fn n off bytes) := wellFormed_of _
theorem WellFormed.slotPost (fn n : Nat) : WellFormed.Statement (.slotPost fn n) := wellFormed_of _
theorem WellFormed.slotRelease (fn n : Nat) : WellFormed.Statement (.slotRelease fn n) := wellFormed_of _
theorem WellFormed.bar4Read (fn off len : Nat) : WellFormed.Statement (.bar4Read fn off len) := wellFormed_of _
theorem WellFormed.bar4Slow (fn off : Nat) : WellFormed.Statement (.bar4Slow fn off) := wellFormed_of _
theorem WellFormed.mbxStatus (tag : Nat) : WellFormed.Statement (.mbxStatus tag) := wellFormed_of _
theorem WellFormed.mbxAttest (tag : Nat) : WellFormed.Statement (.mbxAttest tag) := wellFormed_of _
theorem WellFormed.mbxSessionStart (tag : Nat) : WellFormed.Statement (.mbxSessionStart tag) := wellFormed_of _
theorem WellFormed.mbxSessionStop (tag : Nat) : WellFormed.Statement (.mbxSessionStop tag) := wellFormed_of _
theorem WellFormed.mbxSelftest (tag : Nat) : WellFormed.Statement (.mbxSelftest tag) := wellFormed_of _
theorem WellFormed.mbxStageBegin (tag : Nat) : WellFormed.Statement (.mbxStageBegin tag) := wellFormed_of _
theorem WellFormed.mbxStageData (tag : Nat) (dma : Bool) : WellFormed.Statement (.mbxStageData tag dma) := wellFormed_of _
theorem WellFormed.mbxStageEnd (tag : Nat) : WellFormed.Statement (.mbxStageEnd tag) := wellFormed_of _
theorem WellFormed.mbxStageAbort (tag : Nat) : WellFormed.Statement (.mbxStageAbort tag) := wellFormed_of _
theorem WellFormed.mbxActivate (tag : Nat) : WellFormed.Statement (.mbxActivate tag) := wellFormed_of _
theorem WellFormed.mbxBadCommand (tag : Nat) : WellFormed.Statement (.mbxBadCommand tag) := wellFormed_of _
theorem WellFormed.mbxDmaTimeout : WellFormed.Statement (.mbxDmaTimeout) := wellFormed_of _
theorem WellFormed.stageEraseDone : WellFormed.Statement (.stageEraseDone) := wellFormed_of _
theorem WellFormed.stageDataDone : WellFormed.Statement (.stageDataDone) := wellFormed_of _
theorem WellFormed.stageVerifyDone (o : Staged) : WellFormed.Statement (.stageVerifyDone o) := wellFormed_of _
theorem WellFormed.activateCopyDone (ok : Bool) : WellFormed.Statement (.activateCopyDone ok) := wellFormed_of _
theorem WellFormed.pfReset : WellFormed.Statement (.pfReset) := wellFormed_of _
theorem WellFormed.vfFlr (fn : Nat) : WellFormed.Statement (.vfFlr fn) := wellFormed_of _
theorem WellFormed.arpRequestRx (port target sender : Nat) : WellFormed.Statement (.arpRequestRx port target sender) := wellFormed_of _
theorem WellFormed.icmpEchoRx (port dst src : Nat) (payload : List Byte) : WellFormed.Statement (.icmpEchoRx port dst src payload) := wellFormed_of _
theorem WellFormed.arpRetry (port ip : Nat) : WellFormed.Statement (.arpRetry port ip) := wellFormed_of _
theorem WellFormed.tileReqDense (r : TileReq) : WellFormed.Statement (.tileReqDense r) := wellFormed_of _
theorem WellFormed.tileReqDirectory (r : TileReq) : WellFormed.Statement (.tileReqDirectory r) := wellFormed_of _
theorem WellFormed.tileReqLandmark (r : TileReq) : WellFormed.Statement (.tileReqLandmark r) := wellFormed_of _
theorem WellFormed.poseStreamSend (n : Nat) : WellFormed.Statement (.poseStreamSend n) := wellFormed_of _
theorem WellFormed.poseBatchTimeout (n : Nat) : WellFormed.Statement (.poseBatchTimeout n) := wellFormed_of _
theorem WellFormed.streamHeartbeat (n : Nat) : WellFormed.Statement (.streamHeartbeat n) := wellFormed_of _
theorem WellFormed.linkBringupStep (port step : Nat) (x : LinkFind) : WellFormed.Statement (.linkBringupStep port step x) := wellFormed_of _
theorem WellFormed.helloRx (port id peer part digest : Nat) (dup : Bool) : WellFormed.Statement (.helloRx port id peer part digest dup) := wellFormed_of _
theorem WellFormed.linkStepLimit (port : Nat) : WellFormed.Statement (.linkStepLimit port) := wellFormed_of _
theorem WellFormed.linkRetrain (port : Nat) : WellFormed.Statement (.linkRetrain port) := wellFormed_of _
theorem WellFormed.heartbeatTx : WellFormed.Statement (.heartbeatTx) := wellFormed_of _
theorem WellFormed.heartbeatRx (h : FrameHdr) (reach : Nat) : WellFormed.Statement (.heartbeatRx h reach) := wellFormed_of _
theorem WellFormed.ramhelControlRx (h : FrameHdr) (c : Ctl) : WellFormed.Statement (.ramhelControlRx h c) := wellFormed_of _
theorem WellFormed.ramhelTimeRx (h : FrameHdr) (dev state corr : Nat) (ppt : Int) : WellFormed.Statement (.ramhelTimeRx h dev state corr ppt) := wellFormed_of _
theorem WellFormed.ramhelTallyRx (h : FrameHdr) (e2e index amount : Nat) (stamp : Option Nat) : WellFormed.Statement (.ramhelTallyRx h e2e index amount stamp) := wellFormed_of _
theorem WellFormed.ramhelMsgRx (h : FrameHdr) (e2e cls : Nat) (m : Msg) : WellFormed.Statement (.ramhelMsgRx h e2e cls m) := wellFormed_of _
theorem WellFormed.ramhelPageRx (h : FrameHdr) (e2e cls addr : Nat) (bytes : List Byte) : WellFormed.Statement (.ramhelPageRx h e2e cls addr bytes) := wellFormed_of _
theorem WellFormed.ramhelE2eAckRx (h : FrameHdr) (cls e2e : Nat) : WellFormed.Statement (.ramhelE2eAckRx h cls e2e) := wellFormed_of _
theorem WellFormed.linkRetryTimeout (port : Nat) : WellFormed.Statement (.linkRetryTimeout port) := wellFormed_of _
theorem WellFormed.timeTx : WellFormed.Statement (.timeTx) := wellFormed_of _
theorem WellFormed.linkSilence (port : Nat) : WellFormed.Statement (.linkSilence port) := wellFormed_of _
theorem WellFormed.memberUnreachable (id : Nat) : WellFormed.Statement (.memberUnreachable id) := wellFormed_of _
theorem WellFormed.masterTakeover : WellFormed.Statement (.masterTakeover) := wellFormed_of _
theorem WellFormed.memberIsolated : WellFormed.Statement (.memberIsolated) := wellFormed_of _
theorem WellFormed.timeFrameLoss : WellFormed.Statement (.timeFrameLoss) := wellFormed_of _
theorem WellFormed.resyncDone (id : Nat) : WellFormed.Statement (.resyncDone id) := wellFormed_of _
theorem WellFormed.laserInputLow (port input dbm : Nat) : WellFormed.Statement (.laserInputLow port input dbm) := wellFormed_of _
theorem WellFormed.handoverLoadDone (ok : Bool) : WellFormed.Statement (.handoverLoadDone ok) := wellFormed_of _
theorem WellFormed.standbyBootDone : WellFormed.Statement (.standbyBootDone) := wellFormed_of _
theorem WellFormed.handoverTake : WellFormed.Statement (.handoverTake) := wellFormed_of _
theorem WellFormed.coreReloadDone (core : Nat) (pass : Bool) : WellFormed.Statement (.coreReloadDone core pass) := wellFormed_of _
theorem WellFormed.groupUnitReload (cls : Nat) : WellFormed.Statement (.groupUnitReload cls) := wellFormed_of _
theorem WellFormed.rolloutLimit : WellFormed.Statement (.rolloutLimit) := wellFormed_of _
theorem WellFormed.jtagPrivateInstruction : WellFormed.Statement (.jtagPrivateInstruction) := wellFormed_of _
theorem WellFormed.ppsInputLost : WellFormed.Statement (.ppsInputLost) := wellFormed_of _
theorem WellFormed.csi2LaneSyncLoss (port lane : Nat) : WellFormed.Statement (.csi2LaneSyncLoss port lane) := wellFormed_of _
theorem WellFormed.canBusError (ctl : Nat) (tx dominant : Bool) (kind : Nat) : WellFormed.Statement (.canBusError ctl tx dominant kind) := wellFormed_of _
theorem WellFormed.ddrRetrainDone (ch : Nat) : WellFormed.Statement (.ddrRetrainDone ch) := wellFormed_of _
theorem WellFormed.cellarResetDone : WellFormed.Statement (.cellarResetDone) := wellFormed_of _
theorem WellFormed.arpReplyRx (port ip mac : Nat) : WellFormed.Statement (.arpReplyRx port ip mac) := wellFormed_of _
theorem WellFormed.uncorrectableCodeword (port : Nat) : WellFormed.Statement (.uncorrectableCodeword port) := wellFormed_of _
theorem WellFormed.pciePowerStateChange (fn : Nat) (d3 : Bool) : WellFormed.Statement (.pciePowerStateChange fn d3) := wellFormed_of _

end Sys2Proof.Laws
end

