-- ==== Sys2Proof/Tests/Slice0.lean ====
section
/-!
SUPPORT. Tests: small theorems on fixed values. Expected values are the manual's, or worked by hand from the rule named.
-/

namespace Sys2Proof.Tests
open Sys2Proof Sys2Proof.Machine

-- one kernel evaluation after the other: side by side they take more memory than the check gives them
set_option Elab.async false

theorem test_reset_inv : Memory.wf State.reset.mem = true := by decide

/-! ## Well-formedness: ill-formed commands are refused, their neighbours are not -/

theorem test_wf_board : ([.supplyRamp 10, .sysResetRelease 4 0, .tempSensorRead 24 0, .thermtrip 24 0, .smbUnknownCommand 256 false, .startStepDone 0 {}, .startStepDone 8 {}, .startStepLimit 0, .startStepLimit 8, .sensorCheckExpire 50] : List Instr).all (fun c => !c.wf) = true := by decide
theorem test_wf_time : ([.ptpAnnounceRx 2 0 {}, .ptpAnnounceRx 0 4 {}, .ptpSyncRx 2 0 false {}, .ptpFollowUpRx 0 4 {}, .ptpDelayRespRx 2 0 0, .ptpDelayReqTx 2, .ptpPdelayReqRx 4 0, .ptpPdelayRespRx 2 0 0 0, .ptpManagementGet 4 0, .ptpManagementSet 4 0, .ptpManagementCommand 4 0, .announceReceiptTimeout 0 4, .exposureTriggerEdge 32, .conversionStrobeEdge 8, .controlCycleEdge 8, .captureEdge 16 0 0 true, .captureEdge 0 2 1 true, .slipHoldExpire 50, .heldClear 50] : List Instr).all (fun c => !c.wf) = true := by decide
theorem test_wf_inputs : ([.csi2FrameStart 16 0 0, .csi2FrameStart 0 16 0, .csi2FrameStart 0 0 3, .csi2FrameEnd 16 0 0, .csi2LongPacket 0 0 64 0 true [], .csi2IgnoredPacket 0 0 64 0, .bandSlotFree 32, .st2110PacketRx { port := 4 }, .frameTimeout 32, .spiDataReady 8, .spiWaitExpire 8, .spiTransactionDone 8 [], .imuIdentityRead 8 0, .ssiReadDone 8 [] true true none, .quadTransition 8 true true 0, .quadSample 8, .canFrameRx 2 false false 0 0 [], .canFrameRx 0 false false 2048 0 [], .canFrameRx 0 true false 536870912 0 [], .canFrameRx 0 false false 0 0 (List.replicate 65 0#8), .canTxDone 2, .canBusoffRecover 2, .channelTimeout 88, .channelAbsentInstant 88, .csi2LaneSyncLoss 16 0, .canBusError 2 true false 0, .canBusError 0 true false 3] : List Instr).all (fun c => !c.wf) = true := by decide
theorem test_wf_dispatch : ([.tallyAdvance 32 0 1 none none [] [], .tallyAdvance 0 65536 1 none none [] [], .tallyAdvance 0 0 0 none none [] [], .tallyAdvance 0 0 4294967296 none none [] [], .taskLimitExpire 0 0 15 0, .unitFault 15 0 none, .taskFailed 0 0 1, .taskFailed 0 0 5, .hostTallyAdvance 65536 1, .hostTallyAdvance 0 65536, .hostWaitArm 64 0, .hostWaitArm 0 65536, .hostWaitDisarm 64 0, .spareVisit 15 0 [] none, .selfTestDone 15 0 true, .unitSwap 15 0, .retest 15 0 true, .visitWaitWarning 15 0, .calibPost 32, .firmwareWatchdog 4, .groupUnitReload 15, .coreReloadDone 4 true] : List Instr).all (fun c => !c.wf) = true := by decide
theorem test_wf_engines : ([.millBandDone 32 0 0, .millBandDone 0 0 4, .sgmBandDone 16 0, .flowLevelDone 16 0, .flowLevelDone 0 8, .pathSpaceFreed 32, .networkBandDone 64 0 0 [], .networkDeadline 64 0, .weightsStaged 16 0 0, .weightsStaged 0 0 8, .visionStep 32, .propagatedRecord 32, .foldIn 32 0 0 0, .foldIn 0 4 0 0, .initTimeout 32, .coastExpire 32, .relocQueryPost 32, .kettleIterationDone 64 false false, .solveDeadline 64 0, .solveComplete 64, .bodySolveDone 64, .posegraphPost 64, .viewPassDeadline 16, .kilnBinningDone 2, .kilnCompositingDone 2, .kilnBackwardDone 2, .kilnCommit 8, .refineJobDone 8, .activeSetUpdate 8, .blockLoadDone 8 0, .blockEvict 8, .nodeReadReturn 0 268435456, .caskInsert 16, .caskDelete 16, .caskReplace 16, .caskCompactNode 16] : List Instr).all (fun c => !c.wf) = true := by decide
theorem test_wf_memory : ([.pageMigrateSwitch 4294967296, .demandFillDone 4294967296 0, .scrubStep 0 0 281474976710656 false, .correctedError 0 0 0 281474976710656, .channelDrainDone 4, .uncorrectableError 0 0 0 281474976710656 0, .phyLockLoss 4, .retrainTimeout 4, .refillDone 4294967296 0, .addressFault 281474976710656 0, .ddrDqsTrack 4 0, .ddrZqCal 4, .ddrMr4Read 4 false, .nvmeCompletion 10 0 false 0 0, .nvmeTimeout 10 0 true, .cellarWriteback 4294967296, .ddrRetrainDone 4] : List Instr).all (fun c => !c.wf) = true := by decide
theorem test_wf_host : ([.regWrite 2 0, .regWrite 0x2000000 0, .regWrite 0 4294967296, .eventBitsClear 2 0 0, .blRegisterWrite 2 0, .reg64LoWrite 2 0, .reg64HiWrite 2 0, .reg64LoRead 2, .timeNowCapture 16, .bar0BadAccess true 0 4 0, .msixTableWrite 0 0 0, .msixTableWrite 16 0 0, .msixTableWrite 1 16 0, .hstRingRdWrite 64 0, .ringRecordCopy 256 0, .ringIrqTimer 64, .slotRequestWrite 16 0 0 [], .slotRequestWrite 0 64 0 [], .slotRequestWrite 0 0 513 [], .slotPost 16 0, .slotRelease 0 64, .bar4Read 16 0 4, .bar4Slow 16 0, .mbxStatus 256, .mbxAttest 256, .mbxSessionStart 256, .mbxSessionStop 256, .mbxSelftest 256, .mbxStageBegin 256, .mbxStageData 256 true, .mbxStageEnd 256, .mbxStageAbort 256, .mbxActivate 256, .mbxBadCommand 256, .vfFlr 0, .vfFlr 16, .pciePowerStateChange 16 true] : List Instr).all (fun c => !c.wf) = true := by decide
theorem test_wf_network : ([.arpRequestRx 4 0 0, .arpRequestRx 0 4294967296 0, .icmpEchoRx 4 0 0 [], .arpRetry 4 0, .arpReplyRx 4 0 0, .arpReplyRx 0 0 281474976710656, .tileReqDense { port := 4, src := 0, sport := 0 }, .tileReqDirectory { port := 4, src := 0, sport := 0 }, .tileReqLandmark { port := 4, src := 0, sport := 0 }, .poseStreamSend 32, .poseBatchTimeout 32, .streamHeartbeat 32] : List Instr).all (fun c => !c.wf) = true := by decide
theorem test_wf_ring : ([.linkBringupStep 2 1 {}, .linkBringupStep 0 0 {}, .linkBringupStep 0 8 {}, .helloRx 2 0 0 0 0 false, .linkStepLimit 2, .linkRetrain 2, .heartbeatRx { port := 2, src := 0 } 0, .ramhelControlRx { port := 2, src := 0 } (.join 0), .ramhelTimeRx { port := 2, src := 0 } 0 0 0 0, .ramhelTallyRx { port := 2, src := 0 } 0 0 0 none, .ramhelMsgRx { port := 2, src := 0 } 0 0 (.wrote 0), .ramhelPageRx { port := 2, src := 0 } 0 0 0 [], .ramhelE2eAckRx { port := 2, src := 0 } 0 0, .linkRetryTimeout 2, .linkSilence 2, .memberUnreachable 16, .resyncDone 16, .laserInputLow 2 0 0, .laserInputLow 0 2 0, .uncorrectableCodeword 2] : List Instr).all (fun c => !c.wf) = true := by decide
/-- Their neighbours within the counts are well formed. -/
theorem test_wf_inside : ([.supplyRamp 9, .startStepDone 1 {}, .startStepDone 7 {}, .ptpSyncRx 1 3 false {}, .captureEdge 15 2 2 true,
  .csi2FrameStart 15 15 2, .canFrameRx 1 false false 2047 0 [], .channelTimeout 87, .tallyAdvance 31 65535 4294967295 none none [] [],
  .taskFailed 0 0 2, .taskFailed 0 0 4, .hostWaitArm 63 65535, .networkDeadline 63 0, .visionStep 31, .solveComplete 63,
  .regWrite 0x1FFFFFC 4294967295, .msixTableWrite 15 12 0, .slotRequestWrite 15 63 512 [], .linkBringupStep 1 7 {}, .memberUnreachable 15]
  : List Instr).all Instr.wf = true := by decide

/-! ## Number formats (chapter 07) -/

/-- Table 7-1: the largest finite E4M3 is 448, its code 0x7E; R162: above it a conversion saturates. -/
theorem test_e4m3_top : ((formOf 10).conv (Fv.ofInt 448)).code = 0x7E := by decide
theorem test_e4m3_saturates : (formOf 10).conv (Fv.ofInt 1000) = { code := 0x7E, sat := true } := by decide
/-- R163: the codes a NaN is converted to. -/
theorem test_nan_codes : [10, 11, 12, 13, 14, 7, 3].map (fun n => ((formOf n).conv .nan).code) = [0x7F, 0x7E, 0x7FC0, 0x7E00, 0x7FC00000, 0, 0] := by decide
/-- R164: ties to even, then saturation. -/
theorem test_int8_ties : ((formOf 3).conv (Fv.ofRat 5 2)).code = 2 := by decide
theorem test_int8_saturates : (formOf 3).conv (Fv.ofInt (-200)) = { code := 0x80, sat := true } := by decide
/-- R165: halves round toward +∞: (−3 × 1 + 1) >> 1 = −1. -/
theorem test_epilogue_half : epiInt 8 true 0 (-3) 0 1 1 = (-1, 0) := by decide
/-- R171 on layer B of Table 7-10: ceil(288 / 16) × ceil(64 / 32) × 576,000 + 24. -/
theorem test_matrix_cycles : matrixCycles 8 288 64 576000 = 18 * 2 * 576000 + 24 := by decide
/-- R175: a half of the last place rounds away from zero. -/
theorem test_fx32_mul_ties : fx32Mul (-1) 32768 = -1 := by decide
/-- R167: the scale of a block whose largest magnitude is 6.0 in E2M1 is 2⁰, code 127. -/
theorem test_block_scale : (quantBlock (formOf 7) [0x40C00000, 0x3F800000]).1 = 127 := by decide

/-! ## Steps on small states -/

/-- A part whose start has completed step 2, in state STARTING. -/
def loadedPart : State := ({ State.reset with pw := { State.reset.pw with mode := .starting, sysResetN := true } } : State).setF F.BOOT_STATUS_STAGE 2

/-- What is read off the next state of an outcome. -/
def after {α : Type} (d : α) (f : State → α) : Host.Outcome State Fault Refusal → α
  | .next s => f s
  | _ => d

/-- The conditions that most statements ask of a state are met (`up`, `loaded`). -/
theorem test_loaded_witness : loadedPart.up = true ∧ loadedPart.loaded = true ∧ loadedPart.reach 0 = true := by decide
/-- R459, R36, R39: with an erased flash a released reset ends in recovery with error 0x02. -/
theorem test_reset_to_recovery :
    after (PMode.off, 0) (fun s => (s.pw.mode, s.f F.BOOT_STATUS_ERROR)) (exec (.sysResetRelease 1 0) State.reset) = (.recovery, 0x02) := by decide +kernel
/-- R465: a low level of 10 µs is always taken, one below 1 µs never. -/
theorem test_reset_pulse : loadedPart.takesReset 10000 = true ∧ loadedPart.takesReset 999 = false := by decide
/-- R57: one CLK_S cycle is 2 ns, 131,072 units of 2⁻¹⁶ ns. -/
theorem test_tick : after 0 (fun s => s.tm.dev) (exec .deviceTimeTick loadedPart) = 131072 := by decide
/-- R6, R51: a host write to a BL register changes nothing of it and sets BOOT_EVT's violation bit. -/
theorem test_bl_write : after (0, 1) (fun s => ((s.word R.KTL_GRAVITY).toNat, s.log.length)) (exec (.blRegisterWrite 0x900068 5) loadedPart)
    = (0x411CF5C3, 1) := by decide
/-- R392: a write of another size is dropped, a read completes with Unsupported Request. -/
theorem test_bad_access : after [] (fun s => s.out) (exec (.bar0BadAccess false 2 4 0) loadedPart) = [.unsupported 0]
    ∧ after [.smbNak] (fun s => s.out) (exec (.bar0BadAccess true 2 4 0) loadedPart) = [] := by decide
/-- R9: a pair's upper half is the one captured with its lower half. -/
theorem test_pair_capture : after 0 (fun s => tget 0 s.hst.hi 0xC80004)
    (exec (.reg64LoRead 0xC80000) { loadedPart with tally := [(0, { value := 2 ^ 32 * 7 + 3 })] }) = 8 := by decide
/-- Table 8-8: part of a poisoned line is discarded, a full line clears it. -/
theorem test_poison : ((loadedPart.addPoison 4 1 3 0).wrNum 256 4 7).rd 256 = 0#8
    ∧ ((loadedPart.addPoison 4 1 3 0).wrList 256 (List.replicate 64 7#8)).mm.poison = [] := by decide
/-- R220: with a free frame the hottest page is promoted; without one, only past the hysteresis (8 quarters: more than twice the score). -/
theorem test_migration_pass : pickMoves 8 [(9, 20)] [(3, 10)] 1 5 = [(9, true)] ∧ pickMoves 8 [(9, 20)] [(3, 10)] 0 5 = []
    ∧ pickMoves 8 [(9, 21)] [(3, 10)] 0 5 = [(3, false), (9, true)] := by decide
/-- R215: P of a namespace of 262,400 + 4,353 LBAs. -/
theorem test_cellar_pages : cellarP 266753 = 256 := by decide
/-- R250: of three sources one that agrees with nobody is outvoted and goes on probation; two that disagree and both fit the prior
conflict. -/
theorem test_arbitration :
    (arbitrate (fun _ => true) (fun a b => a != 2 && b != 2) (fun _ => 9) [0, 1, 2]).used = [0, 1]
    ∧ (arbitrate (fun _ => true) (fun a b => a != 2 && b != 2) (fun _ => 9) [0, 1, 2]).probation = [2]
    ∧ (arbitrate (fun _ => true) (fun _ _ => false) (fun x => x) [0, 1]).conflict = true
    ∧ (arbitrate (fun _ => true) (fun _ _ => false) (fun x => x) [0, 1]).probation = [0] := by decide
/-- R249, Table 9-7: the threshold of one degree is 8.81: 8.80 passes, 8.82 does not. -/
theorem test_gate : gateK (fp64.ofRat 880 100) 1 = true ∧ gateK (fp64.ofRat 882 100) 1 = false := by decide
/-- R12, Table 0-5: where several conditions hold the status is the first of the priority order, and none gives OK. -/
theorem test_status : statusOf [] = 0 := by decide
/-- R353: with one shard every identifier belongs to it; with 16 its shard is below 16. -/
theorem test_shard : shardFor 12345 1 = 0 ∧ shardFor (2 ^ 64 - 1) 16 < 16 := by decide
/-- An empty queue: nothing waits, nothing changes. -/
theorem test_idle : after false (fun s => s == loadedPart) (step loadedPart) = true := by decide +kernel

/-! ## Witnesses: for each statement with hypotheses, states and operands that meet them, clause by clause -/

/-- A state with fields at given values. -/
def fields (s : State) (l : List (Fld × Nat × Nat)) : State := l.foldl (fun s e => s.setF e.1 e.2.1 e.2.2) s

/-- A started part with fields at given values. -/
def part (l : List (Fld × Nat × Nat)) : State := fields loadedPart l

theorem witness_DirectoryWrites :
    ({} : Flash).dir.seq + 1 < 2 ^ 32 ∧ ({ dir0 := { erased := false, seq := 1 } } : Flash).useCopy0 = true
    ∧ ({ dir1 := { erased := false, seq := 1 } } : Flash).useCopy0 = false ∧ (({ dir1 := { erased := false, seq := 1 } } : Flash).dir1).usable = true := by
  decide +kernel

theorem witness_StartSteps :
    (∀ st ∈ [0, 2, 4, 5, 6], (part [(F.BOOT_STATUS_STAGE, st, 0)]).pw.mode = .starting ∧ (part [(F.BOOT_STATUS_STAGE, st, 0)]).f F.BOOT_STATUS_STAGE = st)
    ∧ loadedPart.fl.train0.erased = true ∧ loadedPart.fl.train1.erased = true
    ∧ (∀ c < 4, bitOf (loadedPart.f F.MEM_DDR_CFG_CH_MASK) c = true → bitOf ({ trainBad := 15 } : StepFind).trainBad c = true)
    ∧ (∀ c < 4, loadedPart.f F.MEM_CH_STATE_STATE c = 0) ∧ ({ loadedPart with bt := { waitOver := true } } : State).bt.waitOver = true
    ∧ (∀ n ∈ (part [(F.BOOT_STATUS_STAGE, 4, 0), (F.ING_SNS_SRC_ENABLE, 1, 0)]).sensors, n ∈ ({ sensorsFailed := [0] } : BootSt).sensorsFailed)
    ∧ (part [(F.BOOT_STATUS_STAGE, 6, 0)]).allPosed = true := by decide +kernel

theorem witness_AfterTheStart :
    (let s : State := { part [(F.BOOT_STATUS_STAGE, 4, 0), (F.ING_SNS_SRC_ENABLE, 1, 0)] with bt := { waitOver := true } }
     s.up = true ∧ s.f F.BOOT_STATUS_STAGE = 4 ∧ s.bt.waitOver = true ∧ 0 ∈ s.sensors ∧ s.sensorPassed 0 = false ∧ 0 ∉ s.bt.sensorsFailed)
    ∧ (let c : TrainCopy := { erased := false }
       let s : State := { loadedPart with pw := { loadedPart.pw with mode := .running }, bt := { trained := some 40 },
                                          fl := { train0 := c, train1 := { c with seq := 1 } } }
       s.pw.mode = .running ∧ s.bt.trained = some 40 ∧ s.fl.train0.erased = false ∧ s.fl.train0.crcOk = true ∧ s.fl.train1.erased = false
         ∧ s.fl.train1.crcOk = true ∧ s.fl.train0.seq < s.fl.train1.seq)
    ∧ (let s : State := { loadedPart with pw := { loadedPart.pw with mode := .running }, bt := { slot := some false },
                                          fl := { dir0 := { erased := false, seq := 1, a := { state := 2, trials := 1 } } } }
       s.pw.mode = .running ∧ s.bt.slot = some false ∧ (s.fl.slotDir false).state = 2 ∧ s.bt.wdSeen = false ∧ s.allPosing = true
         ∧ s.fl.dir.seq + 1 < 2 ^ 32) := by decide +kernel

theorem witness_DeviceTimeTick : loadedPart.up = true ∧ -500000000 ≤ loadedPart.fs F.TIME_RATE_PPT ∧ loadedPart.fs F.TIME_RATE_PPT ≤ 500000000 := by
  decide +kernel

/-- A part whose PTP domain 0 runs on port 1, in a given profile. -/
def ptpPart (profile : Nat) : State :=
  let s := part [(F.TIME_D_CFG_ENABLE, 1, 0), (F.TIME_D_CFG_PORT_MASK, 2, 0), (F.TIME_D_CFG_PROFILE, profile, 0)]
  { s with tm := { s.tm with doms := [{ port := 1, syncSeq := some (5, 100), reqSeq := 3 }, {}] } }

theorem witness_PtpMessages : ∀ profile ∈ [0, 2], (ptpPart profile).up = true ∧ (ptpPart profile).domOn 0 ((ptpPart profile).dom 0).port = true
    ∧ 3 = ((ptpPart profile).dom 0).reqSeq ∧ (ptpPart profile).f F.TIME_D_CFG_PROFILE 0 = profile ∧ (ptpPart profile).f F.LNK_STATUS_ROLE ≤ 1
    ∧ (ptpPart profile).tm.doms.length = 2 ∧ (ptpPart profile).tm.stepOpen = false
    ∧ ((ptpPart profile).dom 0).syncSeq = some (({ seq := 5 } : SyncMsg).seq, 100) := by decide +kernel

theorem witness_PtpQualification : (ptpPart 0).up = true ∧ (ptpPart 0).domOn 0 1 = true ∧ (ptpPart 0).tm.doms.length = 2 ∧ ((ptpPart 0).dom 0).ports.length = 4
    ∧ (∀ q < 4, q ≠ 1 → (nth {} ((ptpPart 0).dom 0).ports q).valid = false) ∧ ((ptpPart 0).dom 0).qualified = false
    ∧ ((ptpPart 0).dom 0).locked = false ∧ (nth {} ((ptpPart 0).dom 0).ports 1).valid = false ∧ ((ptpPart 0).dom 0).port = 1
    ∧ (let m : PortMaster := { valid := true, gm := 7 }
       let d : Dom := { port := 1, gm := 7, ports := [{}, m, {}, {}] }
       let s : State := { ptpPart 0 with tm := { loadedPart.tm with doms := [d, {}] } }
       (nth {} (s.dom 0).ports 1).valid = true ∧ (nth {} (s.dom 0).ports 1).gm = ({ gm := 7 } : Announce).gm ∧ (s.dom 0).gm = 7
         ∧ s.mono - (nth {} (s.dom 0).ports 1).last ≤ 4 * logInterval (s.fs F.TIME_D_CFG_LOG_ANNOUNCE 0) ∧ (s.dom 0).conv < 4)
    ∧ (let m : PortMaster := { valid := true, gm := 7, count := 1 }
       let d : Dom := { port := 1, gm := 7, conv := 4, ports := [{}, m, {}, {}] }
       let s : State := { ptpPart 0 with tm := { loadedPart.tm with doms := [d, {}], stepOpen := false } }
       let a : Announce := { gm := 7, cls := 6, ptpScale := true }
       (s.dom 0).qualified = false ∧ (s.dom 0).locked = false ∧ 4 ≤ (s.dom 0).conv ∧ s.f F.LNK_STATUS_ROLE ≤ 1 ∧ s.tm.stepOpen = false
         ∧ (nth {} (s.dom 0).ports 1).valid = true ∧ (nth {} (s.dom 0).ports 1).gm = a.gm ∧ (s.dom 0).gm = a.gm ∧ 1 ≤ (nth {} (s.dom 0).ports 1).count
         ∧ s.mono - (nth {} (s.dom 0).ports 1).last ≤ 4 * logInterval (s.fs F.TIME_D_CFG_LOG_ANNOUNCE 0) ∧ a.ptpScale = true
         ∧ a.cls ≤ (fields s [(F.TIME_D_QUAL_CLASS_MAX, 6, 0)]).f F.TIME_D_QUAL_CLASS_MAX 0) := by decide +kernel

theorem witness_SelectionAndHoldOver :
    (let s : State := { loadedPart with tm := { loadedPart.tm with doms := [{ locked := true }, {}] } }
     s.up = true ∧ s.f F.LNK_STATUS_ROLE ≤ 1 ∧ s.tm.selected = none ∧ (s.dom 0).locked = true)
    ∧ (let s : State := { loadedPart with tm := { loadedPart.tm with selected := some 0 } }
       s.tm.selected = some 0 ∧ (s.dom 0).locked = false ∧ (s.dom 1).locked = false)
    ∧ 2 ≤ (part [(F.TIME_STATUS_STATE, 2, 0)]).f F.TIME_STATUS_STATE ∧ loadedPart.f F.TIME_STATUS_STATE < 2 ∧ loadedPart.tm.everLocked = false
    ∧ (part [(F.TIME_STATUS_STATE, 1, 0)]).f F.TIME_STATUS_STATE = 1 ∧ (part [(F.TIME_STATUS_STATE, 1, 0)]).fb F.TIME_STATUS_PPS_OK = false
    ∧ (let s : State := { loadedPart with tm := { loadedPart.tm with doms := [{ locked := true }, {}], selected := some 0, ppsGood := 3 } }
       s.fb F.TIME_STATUS_PPS_OK = false ∧ 3 ≤ s.tm.ppsGood ∧ s.tm.selected = some 0 ∧ (s.dom 0).locked = true ∧ (1000 : Int).natAbs ≤ 1000)
    ∧ (part [(F.TIME_STATUS_PPS_OK, 1, 0)]).fb F.TIME_STATUS_PPS_OK = true
    ∧ (let s : State := { part [(F.TIME_HOLD_CFG_USE_10M, 1, 0)] with tm := { refGood := 3 } }
       s.fb F.TIME_STATUS_REF10M_OK = false ∧ 3 ≤ s.tm.refGood ∧ s.fb F.TIME_HOLD_CFG_USE_10M = true
         ∧ (s.dom 0).locked = false ∧ (s.dom 1).locked = false) := by decide +kernel
/-- Beyond the two domains nothing is locked. -/
theorem witness_unlocked : ∀ m : Nat, (loadedPart.dom m).locked = false
  | 0 | 1 => by decide +kernel
  | _ + 2 => rfl

/-- A part whose schedule `n` fires every millisecond from 0 on, at device time 1 ms. -/
def trigPart (n : Nat) : State :=
  let s := part [(F.TIME_TRIG_CTL_ENABLE, 1, n), (F.TIME_TRIG_NUM_NUM, 1000000, n), (F.TIME_TRIG_DEN_DEN, 1, n)]
  { s with tm := { s.tm with trigOn := true, dev := 1000000 * 65536 } }

theorem witness_TriggersAndCaptures :
    (let s := trigPart 31
     s.up = true ∧ s.tm.trigOn = true ∧ s.fb F.TIME_TRIG_CTL_ENABLE 31 = true ∧ tget 0 s.tm.trigNext 31 = 0 ∧ (16 * 0 + 1) / (2 * 1) ≤ s.tm.dev / 8192)
    ∧ (let s := part [(F.TIME_CAP_CTL_ENABLE, 1, 15), (F.TIME_CAP_CTL_EDGE, 1, 15), (F.TIME_CAP_CTL_FILTER, 1, 15)]
       s.fb F.TIME_CAP_CTL_ENABLE 15 = true ∧ s.capWants 15 true = true ∧ s.f F.TIME_CAP_CTL_FILTER 15 * 64 ≤ 164 - 100
         ∧ (tget [] s.tm.caps 15).length < 16
         ∧ 16 ≤ (tget [] ([(15, List.replicate 16 ({ start := 0, stop := 8, rising := true } : Stamp))] : Table (List Stamp)) 15).length)
    ∧ (let s : State := { loadedPart with tm := { loadedPart.tm with sns := [(3, { fell := true })] } }
       (s.mon 3).fell = true ∧ (s.mon 3).above = false)
    ∧ (let s : State := { part [(F.TIME_SNS_STATE_HELD, 1, 3)] with tm := { sns := [(3, { within := true })] } }
       s.fb F.TIME_SNS_STATE_HELD 3 = true ∧ (s.mon 3).within = true)
    ∧ (let s := part [(F.BOOT_STATUS_STAGE, 4, 0), (F.TIME_TRIG_CTL_ENABLE, 1, 47), (F.TIME_TRIG_NUM_NUM, 1000000, 47), (F.TIME_TRIG_DEN_DEN, 1, 47)]
       s.f F.BOOT_STATUS_STAGE = 4 ∧ s.tm.trigOn = false ∧ s.fb F.TIME_TRIG_CTL_ENABLE 47 = true ∧ s.f F.TIME_TRIG_DEN_DEN 47 ≠ 0
         ∧ s.f F.TIME_TRIG_NUM_NUM 47 ≠ 0) := by decide +kernel

/-- A part whose sensor 3 listens to virtual channel 1 of port 15, 128 lines of 64 pixels a frame. -/
def camPart (frame : Option FrameSt) : State :=
  let s := part [(F.ING_PORT_CTL_ENABLE, 1, 15), (F.ING_SNS_SRC_ENABLE, 1, 3), (F.ING_SNS_SRC_SOURCE, 15, 3), (F.ING_SNS_SRC_VC, 1, 3),
    (F.ING_SNS_GEOM_WIDTH, 64, 3), (F.ING_SNS_GEOM_HEIGHT, 128, 3), (F.ING_SNS_SRC_TIMING, 2, 3), (F.ING_SNS_PERIOD_NS, 1000, 3)]
  { s with ing := { sns := [(3, { frame := frame })] }, tm := { s.tm with dev := 10000 * 65536, trigOn := true } }

theorem witness_CsiTraffic :
    (let s := camPart none
     s.up = true ∧ s.fb F.ING_PORT_CTL_ENABLE 15 = true ∧ Safety.feeds s 15 1 3 ∧ (∀ m < 32, Safety.feeds s 15 1 m → m = 3)
       ∧ (∀ m < 32, ¬ Safety.feeds s 15 2 m) ∧ (s.sns 3).frame = none ∧ s.sec.defer = [] ∧ 2 ≤ s.f F.ING_SNS_SRC_TIMING 3
       ∧ (s.sns 3).lastStart = none)
    ∧ (let s : State := { camPart none with ing := { sns := [(3, { lastStart := some 9900 })] } }
       (s.sns 3).frame = none ∧ (s.sns 3).lastStart = some 9900 ∧ 2 * (s.now - 9900) < s.f F.ING_SNS_PERIOD_NS 3)
    ∧ (let s := fields (camPart none) [(F.ING_SNS_SRC_TIMING, 0, 3)]
       s.f F.ING_SNS_SRC_TIMING 3 = 0 ∧ tget [] s.tm.expos (s.f F.ING_SNS_SRC_TRIGGER 3) = [])
    ∧ (let f : FrameSt := { cur := [{}], taken := 1 }
       let s := camPart (some f)
       (s.sns 3).frame = some f ∧ f.taken + 1 < s.f F.ING_SNS_GEOM_HEIGHT 3 ∧ f.ended = false ∧ f.wait = [] ∧ f.cur ≠ [] ∧ f.cur.length < 63)
    ∧ (let f : FrameSt := { taken := 128, band := 2 }
       let s := camPart (some f)
       (s.sns 3).frame = some f ∧ s.f F.ING_SNS_GEOM_HEIGHT 3 ≤ f.taken + f.wait.length ∧ f.bad = false ∧ f.ended = false ∧ f.wait = []
         ∧ f.row = [] ∧ 2 = ceilDiv (s.f F.ING_SNS_GEOM_HEIGHT 3) 64 ∧ f.band = 2 ∧ s.mm.poison = [] ∧ s.role = 0)
    ∧ (∃ n ∈ [0, 1, 2, 3], (2 = 2 ∨ 8 ≤ n) ∧ n < 4) := by
  unfold Safety.feeds; decide +kernel

theorem witness_BandsAndTimeout :
    (let f : FrameSt := {}
     ((camPart (some f)).sns 3).frame = some f ∧ f.ended = false ∧ (camPart (some f)).fb F.ING_SNS_SRC_ENABLE 3 = true
       ∧ (camPart (some f)).tm.trigOn = true ∧ (camPart (some f)).snsRef 3 + (camPart (some f)).snsTimeout 3 ≤ (camPart (some f)).now)
    ∧ (let f : FrameSt := { start := 9999 }
       (camPart (some f)).now < (camPart (some f)).snsRef 3 + (camPart (some f)).snsTimeout 3)
    ∧ ((camPart none).sns 3).frame = none ∧ (camPart none).snsRef 3 + (camPart none).snsTimeout 3 ≤ (camPart none).now := by decide +kernel

/-- A part whose sensor 2 takes network stream 15, the next packet expected being number 7. -/
def videoPart (frame : Option FrameSt) : State :=
  let s := part [(F.ING_ST_CTL_ENABLE, 1, 15), (F.ING_ST_CTL_PORT, 3, 15), (F.ING_ST_GROUP_ADDR, 0xEF000001, 15), (F.ING_ST_UDP_PORT, 5000, 15),
    (F.ING_ST_CTL_PT, 96, 15), (F.ING_SNS_SRC_ENABLE, 1, 2), (F.ING_SNS_SRC_KIND, 1, 2), (F.ING_SNS_SRC_SOURCE, 15, 2),
    (F.ING_SNS_GEOM_WIDTH, 64, 2), (F.ING_SNS_GEOM_HEIGHT, 128, 2)]
  { s with ing := { sns := [(2, { frame := frame })], st := [(15, { next := some 7 })] } }

theorem witness_NetworkVideo :
    (let p : StPacket := { port := 3, dst := 0xEF000001, dport := 5000, seq := 7, rtp := 9, segs := [{ row := 0, off := 0, px := [{}, {}] }] }
     let f : FrameSt := { rtp := 9 }
     let s := videoPart (some f)
     s.up = true ∧ Safety.ofStream s p 15 ∧ (∀ m < 16, Safety.ofStream s p m → m = 15)
       ∧ (∀ m < 32, (s.fb F.ING_SNS_SRC_ENABLE m = true ∧ s.fb F.ING_SNS_SRC_KIND m = true ∧ s.f F.ING_SNS_SRC_SOURCE m = 15) ↔ m = 2)
       ∧ (tget {} s.ing.st 15).next = some 7 ∧ (tget {} s.ing.st 15).held = [] ∧ p.seq = 7 ∧ (s.sns 2).frame = some f ∧ f.rtp = p.rtp
       ∧ s.stFits 15 2 p = true) := by
  unfold Safety.ofStream; decide +kernel
theorem witness_NetworkVideo_rows :
    (let f : FrameSt := { rtp := 9 }
     let s := videoPart (some f)
     f.taken + f.wait.length = 0 ∧ f.ended = false
       ∧ none ∈ layRow (List.replicate (s.f F.ING_SNS_GEOM_WIDTH 2) none) 0 [({} : Px), {}])
    ∧ (∀ m < 16, ¬ Safety.ofStream loadedPart {} m) ∧ 2 ^ 31 ≤ (6 + 2 ^ 32 - 7) % 2 ^ 32 ∧ ((videoPart none).sns 2).frame = none
    ∧ 0 < (38 + 2 ^ 32 - 7) % 2 ^ 32 ∧ (38 + 2 ^ 32 - 7) % 2 ^ 32 < 32
    ∧ (videoPart none).f F.ING_SNS_GEOM_HEIGHT 2 ≤ 128 := by
  unfold Safety.ofStream; decide +kernel

theorem witness_InputPorts :
    (let s := fields (trigPart 39) [(F.SPG_SPI_CTL_ENABLE, 1, 7), (F.SPG_SPI_CTL_STROBED, 1, 7), (F.SPG_SPI_CTL_DRDY, 1, 7)]
     s.up = true ∧ s.fb F.SPG_SPI_CTL_ENABLE 7 = true ∧ s.sec.defer = [] ∧ s.tm.trigOn = true ∧ s.fb F.TIME_TRIG_CTL_ENABLE 39 = true
       ∧ Safety.edgeTime s 39 0 ≤ s.tm.dev / 8192 ∧ s.fb F.SPG_SPI_CTL_STROBED 7 = true ∧ (s.spi 7).conv = none ∧ (s.spi 7).reading = none
       ∧ s.fb F.SPG_SPI_CTL_DRDY 7 = true ∧ s.fb F.SPG_SPI_STAT_ID_OK 7 = false)
    ∧ (let s : State := { part [(F.SPG_SPI_CTL_ENABLE, 1, 7), (F.SPG_SPI_CTL_STROBED, 1, 7), (F.SPG_SPI_CTL_LEN, 3, 7), (F.SPG_SPI_CTL_CHECK, 1, 7),
         (F.SPG_SPI_CTL_CHECK_OFF, 1, 7)] with spg := { spi := [(7, { conv := some (4, 64), reading := some (3, 48) })] } }
       s.fb F.SPG_SPI_CTL_DRDY 7 = false ∧ (s.spi 7).conv = some (4, 64) ∧ (s.spi 7).reading ≠ none ∧ [1#8, 5#8, 5#8].length = s.f F.SPG_SPI_CTL_LEN 7
         ∧ s.f F.SPG_SPI_CTL_CHECK 7 = 1 ∧ 1 = s.f F.SPG_SPI_CTL_CHECK_OFF 7 ∧ 1 + 2 ≤ [1#8, 5#8, 5#8].length
         ∧ (([1#8, 5#8, 5#8].take 1).map (·.toNat)).foldr (· + ·) 0 % 65536 ≠ (nth 0#8 [1#8, 5#8, 5#8] 1).toNat + 256 * (nth 0#8 [1#8, 5#8, 5#8] 2).toNat)
    ∧ (let s := fields (trigPart 47) [(F.SPG_SSI_CTL_ENABLE, 1, 7)]
       s.tm.trigOn = true ∧ s.fb F.TIME_TRIG_CTL_ENABLE 47 = true ∧ Safety.edgeTime s 47 0 ≤ s.tm.dev / 8192 ∧ s.f F.TIME_TRIG_DELAY_NS 47 = 0
         ∧ s.fb F.TIME_TRIG_CTL_TALLY_EN 47 = false ∧ s.fb F.SPG_SSI_CTL_ENABLE 7 = true ∧ (s.ssi 7).reading = none ∧ (s.ssi 7).ended = none)
    ∧ (let s : State := { part [(F.SPG_SSI_CTL_ENABLE, 1, 7), (F.SPG_SSI_CTL_BITS, 2, 7), (F.SPG_CH_CTL_ENABLE, 1, 63), (F.SPG_CH_SRC_WIDTH, 2, 63),
         (F.SPG_CH_MAX_MAX, 9, 63)] with spg := { ssi := [(7, { reading := some (3, 48) })] } }
       (s.ssi 7).reading = some (3, 48) ∧ s.f F.SPG_SSI_CTL_PARITY 7 = 0 ∧ s.f F.SPG_SSI_CTL_ERR_BITS 7 = 0
         ∧ [true, false].length = s.f F.SPG_SSI_CTL_BITS 7 ∧ s.f F.SPG_SSI_CTL_GRAY 7 = 0 ∧ s.fb F.SPG_CH_CTL_ENABLE 63 = true
         ∧ s.fb F.SPG_CH_SRC_WRAP 63 = false ∧ s.fs F.SPG_CH_MIN_MIN 63 ≤ 2 ∧ 2 ≤ s.fs F.SPG_CH_MAX_MAX 63)
    ∧ (let s := part [(F.SPG_QUAD_CTL_ENABLE, 1, 7), (F.SPG_QUAD_CTL_FILTER, 2, 7)]
       s.fb F.SPG_QUAD_CTL_ENABLE 7 = true ∧ 15 < 8 * s.f F.SPG_QUAD_CTL_FILTER 7 ∧ 8 * s.f F.SPG_QUAD_CTL_FILTER 7 ≤ 16
         ∧ s.fb F.SPG_QUAD_CTL_SWAP 7 = false ∧ (tget {} s.spg.quad 7).a ≠ true ∧ (tget {} s.spg.quad 7).b ≠ true) := by decide +kernel

theorem witness_CanControllers :
    (let s : State := { part [(F.SPG_CAN_CTL_ENABLE, 1, 1), (F.SPG_CAN_CTL_FD, 1, 1), (F.SPG_CAN_STAT_TEC, 247, 1)] with
         spg := { tx := [(1, { id := 5, ext := false, fd := false, brs := false, data := [] })] } }
     s.up = true ∧ s.fb F.SPG_CAN_CTL_ENABLE 1 = true ∧ s.f F.SPG_CAN_STAT_STATE 1 ≠ 2 ∧ s.sec.defer = [] ∧ s.fb F.SPG_CAN_CTL_FD 1 = true
       ∧ s.spg.tx.find? (fun e => e.1 == 1) = some (1, { id := 5, ext := false, fd := false, brs := false, data := [] })
       ∧ s.f F.SPG_CAN_STAT_TEC 1 + 8 ≤ 255 ∧ s.f F.SPG_CAN_STAT_REC 1 + 1 ≤ 255 ∧ s.fb F.SPG_CAN_CTL_LISTEN 1 = false ∧ s.f F.SPG_CAN_STAT_STATE 1 ≠ 1)
    ∧ (part [(F.SPG_CAN_STAT_STATE, 1, 1)]).f F.SPG_CAN_STAT_STATE 1 = 1
    ∧ 255 < (part [(F.SPG_CAN_STAT_TEC, 248, 1)]).f F.SPG_CAN_STAT_TEC 1 + 8
    ∧ (part [(F.SPG_CAN_CTL_ENABLE, 1, 1)]).fb F.SPG_CAN_CTL_FD 1 = false ∧ (part [(F.SPG_CAN_STAT_STATE, 2, 1)]).f F.SPG_CAN_STAT_STATE 1 = 2 := by
  decide +kernel

/-- A part whose quadrature input 7 is sampled every 1,000 ns. -/
def quadPart (last : Nat) : State :=
  let s := part [(F.SPG_QUAD_CTL_ENABLE, 1, 7), (F.SPG_CH_CTL_ENABLE, 1, 71), (F.SPG_QUAD_PERIOD_NS, 1000, 7), (F.SPG_CH_MAX_MAX, 9, 71)]
  { s with spg := { quad := [(7, { last := some last })] }, tm := { s.tm with dev := 10000 * 65536 } }

theorem witness_SpargeRecords :
    (let s := quadPart 9000
     s.up = true ∧ s.sec.defer = [] ∧ s.mm.poison = [] ∧ s.fb F.SPG_QUAD_CTL_ENABLE 7 = true ∧ s.fb F.SPG_CH_CTL_ENABLE 71 = true
       ∧ s.f F.SPG_QUAD_PERIOD_NS 7 = 1000 ∧ 10 = s.now / 1000 ∧ (tget {} s.spg.quad 7).last = some 9000 ∧ (s.chan 71).lastTs = none
       ∧ s.fs F.SPG_CH_MIN_MIN 71 ≤ s.fs F.SPG_QUAD_COUNT_COUNT 7 ∧ s.fs F.SPG_QUAD_COUNT_COUNT 7 ≤ s.fs F.SPG_CH_MAX_MAX 71
       ∧ (s.chan 71).out = false ∧ s.fb F.SPG_CH_SRC_WRAP 71 = false ∧ 10 % 2 ^ s.f F.SPG_CH_CTL_RATIO 71 = s.f F.SPG_CH_CTL_DEC_PHASE 71)
    ∧ (let s := fields (quadPart 9000) [(F.SPG_CH_CTL_RATIO, 1, 71), (F.SPG_CH_CTL_DEC_PHASE, 1, 71)]
       10 % 2 ^ s.f F.SPG_CH_CTL_RATIO 71 ≠ s.f F.SPG_CH_CTL_DEC_PHASE 71)
    ∧ (quadPart 10000).now / (quadPart 10000).f F.SPG_QUAD_PERIOD_NS 7 * (quadPart 10000).f F.SPG_QUAD_PERIOD_NS 7 ≤ 10000
    ∧ (let s := part [(F.SPG_CH_CTL_ENABLE, 1, 87)]
       s.fb F.SPG_CH_CTL_ENABLE 87 = true ∧ (s.chan 87).out = false)
    ∧ (let s : State := { part [(F.SPG_CH_CTL_ENABLE, 1, 87), (F.SPG_CH_PERIOD_NS, 1000, 87)] with spg := { ch := [(87, { out := true, lastOut := some (4, 64) })] } }
       (s.chan 87).out = true ∧ 16 * s.now + 15 < (s.nextInstant 87).2)
    ∧ (let s : State := { part [(F.SPG_CH_CTL_ENABLE, 1, 87)] with spg := { ch := [(87, { out := true })] } }
       (s.chan 87).out = true ∧ (s.nextInstant 87).2 ≤ 16 * s.now + 15 ∧ (s.chan 87).lastTs = none)
    ∧ (let s : State := { part [(F.SPG_CH_CTL_ENABLE, 1, 87)] with spg := { ch := [(87, { out := true, lastTs := some (10 ^ 9) })] } }
       (s.nextInstant 87).2 ≤ 16 * s.now + 15 ∧ ((s.nextInstant 87).2 - s.delay16 87) / 16 ≤ 10 ^ 9) := by decide +kernel

/-- A part with four bands a frame of sensor 3, the second of which lane 3 is at work on; its path buffer holds two tiles. -/
def millPart (pathEn : Nat) (job : JobSt) : State :=
  let s := part [(F.ING_SNS_SRC_ENABLE, 1, 3), (F.ING_SNS_GEOM_HEIGHT, 256, 3), (F.ING_SNS_TALLY_RELEASE, 7, 3), (F.MILL_SNS_CTL_ENABLE, 1, 3),
    (F.MILL_SNS_CTL_PATH_EN, pathEn, 3), (F.MILL_SNS_GEOM_OUT_W, 128, 3), (F.MILL_SNS_CTL_OUT_FRAMES, 2, 3),
    (F.TNS_INS_CTL_ENABLE, 1, 63), (F.TNS_INS_CTL_SENSOR, 3, 63)]
  { s with ing := { sns := [(3, { frame := some {} })] }, tally := [(0, { value := 9 })],
           mill := { jobs := [(3, job)], lanes := [(3, (4, 1))], tiles := [(3, 3)], starts := [(3, [(0, 0)])] },
           dsp := { s.dsp with graph := { paths := [{ sensor := 3, addr := 0, len := 4 * 8704 }] } } }

theorem witness_MillJobs :
    (let s := millPart 0 { run := true, rect := 1, bands := 1 }
     s.up = true ∧ s.laneUp 3 = true ∧ tget (0, 0) s.mill.lanes 3 = (3 + 1, 1) ∧ (s.job 3).held = [] ∧ s.mm.poison = [] ∧ 1 = (s.job 3).rect
       ∧ (s.job 3).ahead = [] ∧ (s.job 3).run = true
       ∧ (s.src 3 (s.job 3).next).isSome = true ∧ 1 + 1 < s.snsBands 3 ∧ s.f F.ING_SNS_TALLY_RELEASE 3 ≠ s.f F.MILL_SNS_TALLY_FRONT 3
       ∧ s.fb F.MILL_SNS_CTL_PATH_EN 3 = false ∧ (s.job 3).rel + 1 = 1 ∧ s.fb F.MILL_SNS_CTL_KLT_EN 3 = false
       ∧ ceilDiv (s.needRows 3 1) 64 ≤ 1 + 1 ∧ 1 + 1 < ceilDiv (s.needRows 3 2) 64 ∧ 1 + 2 < s.snsBands 3)
    ∧ (let s := millPart 1 { run := true, rect := 1, bands := 1, sent := 1 }
       s.fb F.MILL_SNS_CTL_PATH_EN 3 = true ∧ (s.job 3).sent = 1 ∧ (s.job 3).sentAhead = [] ∧ (s.job 3).bands = 1
         ∧ ceilDiv (s.jobW 3 0) 64 = 2 ∧ s.pathRoom 3 0 (1 * 2 + 0) = true ∧ s.pathRoom 3 0 (1 * 2 + 1) = true ∧ s.pathRoom 3 0 (2 * 2) = false)
    ∧ (let s : State := { millPart 1 { run := true, rect := 1, bands := 1, sent := 1 } with dsp := { graph := { paths := [{ sensor := 3, addr := 0, len := 3 * 8704 }] } } }
       s.pathRoom 3 0 (1 * 2 + 0) = true ∧ s.pathRoom 3 0 (1 * 2 + 1) = false)
    ∧ (let s := millPart 1 { run := true, rect := 1, held := [{ band := 1, lane := 3, col := 1 }] }
       1 < ceilDiv (s.jobW 3 0) 64 ∧ s.pathRoom 3 (s.job 3).next (1 * 2 + 1) = true) := by decide +kernel
theorem witness_MillJobs_choice :
    (let s : State := { millPart 0 {} with mill := {} }
     s.laneChoice = some (3, 0) ∧ s.bandTask 3 = some 0)
    ∧ (let x : JobSt := { run := true, bands := 1 }
       let s := fields (millPart 0 { run := true, rect := 4 }) [(F.MILL_SGM_CTL_LEFT, 3, 15), (F.MILL_SGM_CTL_RIGHT, 3, 15), (F.MILL_SGM_CTL_PATHS, 0, 15)]
       let s : State := { s with mill := { s.mill with jobs := (47, x) :: s.mill.jobs } }
       s.mm.poison = [] ∧ (s.job 47).run = true ∧ (s.src (s.f F.MILL_SGM_CTL_LEFT 15) (s.job 47).next).isSome = true
         ∧ (s.src (s.f F.MILL_SGM_CTL_RIGHT 15) (s.job 47).next).isSome = true ∧ s.fb F.MILL_SGM_CTL_PATHS 15 = false
         ∧ 1 = (s.job 47).bands ∧ 1 + 1 < s.sgmBands 15
         ∧ (∀ n ∈ [s.f F.MILL_SGM_CTL_LEFT 15, s.f F.MILL_SGM_CTL_RIGHT 15],
             Nat.min (s.sgmH 15) (64 * (1 + 1) + 3) ≤ s.rowsOf n (s.job 47).next (s.f F.MILL_SGM_CTL_LEVEL 15)))
    ∧ (let x : JobSt := { run := true, level := some 3 }
       let s := fields (millPart 0 {}) [(F.MILL_FLOW_CTL_SENSOR, 3, 15)]
       let s : State := { s with mill := { s.mill with jobs := [(79, x)] } }
       s.mm.poison = [] ∧ (s.job 79).run = true ∧ 3 = s.f F.MILL_FLOW_CTL_SENSOR 15 ∧ (s.src 3 (s.job 79).next).isSome = true ∧ (s.job 79).level = some 3
         ∧ 3 ≠ s.f F.MILL_FLOW_CTL_LEVEL 15) := by decide +kernel

theorem witness_MillKernels :
    (let m : MillNum.Img := { w := 2, h := 2, v := fun _ _ => 5, ok := fun _ _ => true }
     0 + 1 < m.w ∧ 0 + 1 < m.h ∧ m.ok 0 0 = true ∧ m.ok 1 0 = true ∧ m.ok 0 1 = true ∧ m.ok 1 1 = true)
    ∧ (∀ x y : Nat, (fun (_ _ : Nat) => 5) x y = 5) ∧ 0 < (MillNum.SgmCfg.mk 0 1 1 2 0 false 0 0 false 0).dnum :=
  ⟨by decide, fun _ _ => rfl, by decide⟩

/-- A body of one 1 × 1 convolution of one channel. -/
def oneLayer (p : LayerPlan) : WBody :=
  { bytes := zeroBytes 4 ++ [1#8] ++ zeroBytes 59
      ++ [1#8, 0#8, 3#8, 3#8, 1#8, 1#8, 1#8, 1#8, 1#8, 0#8, 1#8, 0#8, 1#8, 0#8, 255#8, 255#8] ++ zeroBytes 16, plan := [p] }

/-- A part whose instance 63 runs network 15 of one streamed layer on sensor 3, which has had `front` bands. -/
def netPart (front : Nat) (x : InsSt) (staged : List (Nat × Nat × Nat)) : State :=
  let s := part [(F.ING_SNS_GEOM_HEIGHT, 256, 3), (F.ING_SNS_PERIOD_NS, 1000, 3), (F.TNS_INS_CTL_ENABLE, 1, 63), (F.TNS_INS_CTL_SENSOR, 3, 63),
    (F.TNS_INS_CTL_NET, 15, 63), (F.TNS_INS_CTL_OUT_FRAMES, 2, 63), (F.TNS_NET_CTL_GROUP, 255, 15), (F.TNS_NET_CTL_PREFETCH, 1, 15),
    (F.MILL_SNS_TALLY_FRONT, 9, 3), (F.TNS_FIT_RATE, 65536, 0)]
  let net : Net := { main := oneLayer { cls := 2 } }
  { s with ing := { sns := [(3, { frame := some {} })] }, tns := { ins := [(63, x)], staged := staged }, tally := [(9, { value := front })],
           bt := { img := { nets := List.replicate 15 {} ++ [net] } }, tm := { s.tm with dev := 1000 * 65536 } }

theorem witness_NetworkInstances :
    (let s := netPart 4 { bands := 1 } [(15, 0, 7)]
     s.up = true ∧ s.insOn 63 = true ∧ 3 = s.insSensor 63 ∧ (s.src 3 (s.ins 63).next).map (·.absent) = some false ∧ 1 = (s.ins 63).bands
       ∧ 1 < s.snsBands 3 ∧ s.frontFate 3 (s.ins 63).next ≠ 2 ∧ s.frontFate 3 (s.ins 63).next ≠ 3 ∧ s.groupOn 63 ≠ [] ∧ 31 / 4 ∈ s.groupOn 63
       ∧ 32 / 4 ∉ s.groupOn 63 ∧ 1 + 1 < s.snsBands 3 ∧ ((s.ins 63).next + 1) * s.snsBands 3 ≤ s.tv (s.f F.MILL_SNS_TALLY_FRONT 3)
       ∧ (s.ins 63).next < s.tv (s.f F.TNS_INS_TALLY_RELEASE 63) + s.f F.TNS_INS_CTL_OUT_FRAMES 63
       ∧ (s.bodyOf 63 1).top = 1 ∧ s.weightsHere 63 1 0 = true ∧ s.mm.poison = []
       ∧ (s.src 3 0).map (fun x => decide (x.ts + s.insDeadline 63 ≤ s.now)) = some true ∧ (s.ins 63).late = [] ∧ (s.ins 63).heldAt = none)
    ∧ (let s := netPart 1 { bands := 1 } []
       s.tv (s.f F.MILL_SNS_TALLY_FRONT 3) < (s.ins 63).next * s.snsBands 3 + (1 + 1) ∧ s.fetchable 15 0 = true ∧ s.fetchable 15 1 = false
         ∧ bitOf (s.f F.TNS_NET_CTL_GROUP 15) 7 = true ∧ s.physOf 4 0 7 ≠ none ∧ 7 ∈ s.groupOn 63)
    ∧ (let s := netPart 4 { bands := 1, heldAt := some 0, late := [(5, true)] } []
       (s.ins 63).heldAt = some 0 ∧ (∃ e ∈ (s.ins 63).late, e.1 = 5) ∧ (s.ins 63).at' = 0 ∧ (s.ins 63).bands < s.snsBands (s.insSensor 63)
         ∧ s.bandReady 63 (s.ins 63).bands = true ∧ s.onFallback 63 (s.ins 63).bands = false
         ∧ s.refilling 15 false ((s.netOf 63).main.layer 0) = false) := by decide +kernel

/-- A part with a region of class `c`, both Hopper dies and two DDR channels. -/
def memPart (c : Nat) (mm : MemSt) : State :=
  { part [(F.MEM_RGN_CTL_CLASS, c, 5), (F.MEM_STATUS_HOPPER_OK, 3, 0), (F.MEM_CH_STATE_STATE, 1, 0), (F.MEM_CH_STATE_STATE, 1, 3),
      (F.MEM_CELLAR_CFG_ENABLE, 1, 0), (F.MEM_CELLAR_STATUS_STATE, 3, 0)] with mm := mm }

theorem witness_MemoryUpkeep :
    loadedPart.up = true ∧ loadedPart.reaches 0xB (2 ^ 48) = false ∧ loadedPart.reaches 6 0x100000 = true
    ∧ (tget [] loadedPart.mm.ue 3).length < 7 ∧ loadedPart.copyOwner 0 = none
    ∧ (let p : Page := { rgn := 5, ddr := some 0 }
       (memPart 4 { pages := [(65536, p)] }).mm.pages.any (fun e => e.1 == 65536) = true
         ∧ (memPart 4 { pages := [(65536, p)] }).isShared ((memPart 4 { pages := [(65536, p)] }).pg 65536) = true
         ∧ (memPart 2 { pages := [(65536, p)] }).isShared ((memPart 2 { pages := [(65536, p)] }).pg 65536) = false)
    ∧ (memPart 2 {}).f F.MEM_CH_STATE_STATE 3 = 1 ∧ 3 ∉ (memPart 2 {}).mm.retrain ∧ (memPart 2 {}).f F.MEM_CH_STATE_STATE 2 = 0
    ∧ 3 ∈ (memPart 2 { retrain := [3], pt := [0, 3] }).mm.retrain ∧ (∃ d ∈ (memPart 2 { retrain := [3], pt := [0, 3] }).mm.pt, d ≠ 3)
    ∧ 3 ∈ (memPart 2 { retrain := [3], pt := [3] }).mm.pt ∧ (∀ d ∈ (memPart 2 { retrain := [3], pt := [3] }).mm.pt, d = 3)
    ∧ (memPart 2 { pages := [(65536, { rgn := 5, ddr := some 3 })] }).pg 65536 = { rgn := 5, ddr := some 3 }
    ∧ (part [(F.MEM_CH_STATE_STATE, 2, 3)]).f F.MEM_CH_STATE_STATE 3 = 2 := by decide +kernel

theorem witness_PagesMove :
    (let s := memPart 2 {}
     s.up = true ∧ s.chOn.length * s.chFrames * s.f F.MEM_MIG_CFG_LOW_WATER ≤ 100 * s.ddrFree ∧ s.mm.moves = [] ∧ Canon {} s.mm.pages = true
       ∧ 0 < s.hopFree 0)
    ∧ (let m : Move := { page := 65536, die := some 1 }
       (memPart 2 { moves := [m] }).mm.moves = [m] ∧ m.die ≠ none ∧ ({ page := 65536, die := none } : Move).die = none
         ∧ (memPart 2 { moves := [m] }).fb F.MEM_RGN_CTL_AFFINITY 5 = false)
    ∧ (let s := fields (memPart 2 { pages := [(65536, { rgn := 5, ddr := some 0 })] }) [(F.MEM_RGN_CTL_AFFINITY, 1, 5), (F.MEM_RGN_CTL_DIE, 1, 5)]
       s.fb F.MEM_RGN_CTL_AFFINITY (s.pg 65536).rgn = true ∧ 0 < s.hopFree (s.f F.MEM_RGN_CTL_DIE (s.pg 65536).rgn)
         ∧ (s.setF F.MEM_STATUS_HOPPER_OK 1).hopFree 1 = 0)
    ∧ (let p : Page := { rgn := 5, ddr := some 0, cellar := true }
       let s := memPart 4 { pages := [(65536, p)], refills := [65536] }
       65536 ∈ s.mm.refills ∧ bitOf 0 0 = false ∧ (s.pg 65536).ddr.isSome = true ∧ bitOf 1 0 = true ∧ bitOf 1 1 = false ∧ s.cellarReady = true
         ∧ (s.pg 65536).cellar = true ∧ 3 % 4 = 3 ∧ bitOf 3 2 = false ∧ 7 % 8 = 7 ∧ s.netOfPage 65536 = none)
    ∧ (let net : Net := { main := oneLayer { pages := [65536] } }
       let s : State := { memPart 4 { refills := [65536] } with bt := { img := { nets := [net] } } }
       65536 ∈ s.mm.refills ∧ s.netOfPage 65536 ≠ none)
    ∧ (let p : Page := { rgn := 5, cellar := true }
       let s := memPart 3 { pages := [(65536, p)] }
       s.cellarReady = true ∧ s.mm.pages.any (fun e => e.1 == 65536) = true ∧ s.isDeep (s.pg 65536) = true ∧ (s.pg 65536).cellar = true
         ∧ (s.pg 65536).ddr = none ∧ s.mm.waitDdr = [] ∧ s.badAtRest 65536 = false ∧ 0 < s.ddrFree ∧ Canon {} s.mm.pages = true
         ∧ s.chOn.length * s.chFrames * s.f F.MEM_MIG_CFG_LOW_WATER + 100 ≤ 100 * s.ddrFree) := by decide +kernel

theorem witness_CellarCommands :
    (let s := memPart 3 { resets := [0, 0] }
     s.up = true ∧ s.cellarGone = false ∧ s.mm.resetting = false ∧ s.mm.nvme = []
       ∧ 2 ≤ (s.mm.resets.filter (fun t => decide (s.mono ≤ t + 60000000000))).length)
    ∧ ((memPart 3 {}).mm.resets.filter (fun t => decide ((memPart 3 {}).mono ≤ t + 60000000000))).length < 2
    ∧ (memPart 3 { nvme := [(1, 65536, 1)] }).mm.nvme = [(1, 65536, 0 + 1)] ∧ (memPart 3 { resetting := true }).mm.resetting = true
    ∧ (memPart 3 { resetting := true }).mm.waitDdr = []
    ∧ (let s := memPart 3 { nvme := [(0, 65536, 0)], reread := [65536] }
       (∃ e ∈ s.mm.nvme, e.1 = 0 ∧ e.2.1 = 65536) ∧ 65536 ∈ s.mm.reread ∧ (∀ e ∈ s.mm.nvme, ¬ (e.1 = 0 ∧ e.2.1 = 65537)) ∧ 65537 ∉ s.mm.reread)
    ∧ (let p : Page := { rgn := 5, stale := true, ddr := some 0 }
       let b : Super := { p := 4, head := 1 }
       let s : State := { memPart 3 { pages := [(65536, p)] } with ssd := { sb0 := some b, journal := [(0, true)] } }
       s.cellarReady = true ∧ s.mm.resetting = false ∧ s.ssd.super = some b ∧ s.isDeep (s.pg 65536) = true ∧ (s.pg 65536).lost = false
         ∧ (s.pg 65536).stale = true ∧ b.head ≤ s.ssd.first + s.ssd.journal.length ∧ s.ssd.free = some 0 ∧ s.ssd.find { page := 65536 } = none)
    ∧ (let b : Super := { p := 0 }
       ({ sb0 := some b } : Ssd).free = none)
    ∧ (let s := part [(F.MEM_CELLAR_CFG_ENABLE, 1, 0)]
       let b : Super := { ident := 1 }
       let d : Ssd := { sb0 := some b }
       s.fb F.MEM_CELLAR_CFG_ENABLE = true ∧ s.f F.MEM_CELLAR_STATUS_STATE < 3 ∧ s.mm.noSsd = false ∧ s.mm.nvme = [] ∧ s.mm.pages = []
         ∧ s.mm.waitDdr = [] ∧ s.fb F.SEC_STATUS_ID_FAIL = false ∧ ({ present := false } : CellarFind).present = false
         ∧ s.fb F.MEM_CELLAR_CFG_FOREIGN_INIT = false ∧ d.super = some b ∧ b.ident ≠ s.otp.idDigest) := by decide +kernel

/-- A part whose session 31 runs camera 3 in a given state, in the first frame of which `front` bands are rectified. -/
def sesPart (state front : Nat) (x : SesSt) : State :=
  let s := part [(F.FRM_SES_CTL_ENABLE, 1, 31), (F.FRM_SES_CAM0_SLOTS, 0x83, 31), (F.FRM_SES_SRC_IMU, 65535, 31), (F.FRM_SES_SRC_CHAIN, 65535, 31),
    (F.FRM_SES_STATE_STATE, state, 31), (F.ING_SNS_GEOM_HEIGHT, 256, 3), (F.MILL_SNS_TALLY_FRONT, 9, 3), (F.FRM_SES_LOST_LOST_STEPS, 5, 31),
    (F.FRM_SES_MAP_MAP_ID, 1, 31), (F.FRM_SES_LOST_SIGMA_M, 0x40000000, 31), (F.FRM_SES_GATE_GATE_RESET, 5, 31)]
  { s with ing := { sns := [(3, { nextId := 1 })] }, tally := [(9, { value := front })], frm := { ses := [(31, x)] } }

theorem witness_VisionSteps :
    (∀ st ∈ [1, 2, 3], (sesPart st 4 { initAt := some 0 }).up = true ∧ (sesPart st 4 { initAt := some 0 }).sesState 31 = st)
    ∧ (let s := sesPart 2 4 { initAt := some 0 }
       s.sesOn 31 = true ∧ (s.cams 31).head? = some (0, 3) ∧ (s.src 3 (s.ses 31).next).map (·.closed) = some true
         ∧ s.frameStart 3 (s.ses 31).next = some 0 ∧ (s.ses 31).initAt = some 0
         ∧ (s.src 3 (s.ses 31).next).map (fun f => s.stepReady 31 (s.ses 31).next f.ts) = some true)
    ∧ (sesPart 3 4 {}).mm.poison = [] ∧ (sesPart 3 4 {}).joints 31 = [] ∧ ((sesPart 3 4 {}).ses 31).reloc = none
    ∧ ((sesPart 2 4 {}).ses 31).gateRun + 1 < (sesPart 2 4 {}).f F.FRM_SES_GATE_GATE_RESET 31
    ∧ (fields (sesPart 1 4 { timedOut := true }) [(F.FRM_SES_CTL_INIT_MODE, 1, 31)]).f F.FRM_SES_CTL_INIT_MODE 31 = 1
    ∧ ((sesPart 1 4 { timedOut := true }).ses 31).reloc = none := by decide +kernel

/-- A part whose problem 63 is of a kind, for session 31 and map 1, with output Tally 11. -/
def ktlPart (kind : Nat) (x : ProbSt) : State :=
  let s := fields (sesPart 2 4 {}) [(F.KTL_PROB_CTL_ENABLE, 1, 63), (F.KTL_PROB_CTL_KIND, kind, 63), (F.KTL_PROB_CTL_SESSION, 31, 63),
    (F.KTL_PROB_CTL_ITER_MAX, 1, 63), (F.KTL_PROB_MAP_MAP_ID, 1, 63), (F.KTL_PROB_TALLY_OUT, 11, 63), (F.KTL_PROB_CTL_OUT_FRAMES, 2, 63),
    (F.KTL_DEADLINE_US, 1, 63)]
  { s with ktl := { probs := [(63, x)] }, dsp := { s.dsp with graph := { tallies := [{ index := 0, producers := 256 }] } }, tally := [(11, { value := 1 })], tm := { s.tm with tick := 500 } }

/-- A run that has its unit. -/
def runOn : Run := { trig := {}, unit := some 0, damp := some (0, 0) }

theorem witness_SessionTimers :
    (∀ st ∈ [1, 3], (sesPart st 4 {}).up = true ∧ (sesPart st 4 {}).sesOn 31 = true ∧ (sesPart st 4 {}).sesState 31 = st)
    ∧ ((sesPart 1 4 {}).ses 31).timedOut = false ∧ (sesPart 1 4 { timedOut := true }).ses 31 = { timedOut := true }
    ∧ (sesPart 2 4 {}).foldable 31 0 0 = false ∧ (sesPart 2 4 {}).rdNum 8 8 = 0
    ∧ (let r : Nat := 131072
       ∀ e ∈ [(0, 0), (1, 3), (2, 4)],
         let s := fields ({ ktlPart e.2 { seq := 1 } with mem := [(r, 63#8), (r + 8, 1#8)] } : State) [(F.KTL_PROB_OUT_LO_ADDR, r, 63)]
         s.up = true ∧ e.1 < 3 ∧ s.foldable 31 e.1 r = true)
    ∧ (sesPart 2 4 {}).mapProb 1 = none ∧ bitOf ((sesPart 2 4 {}).rdNum 4 4) 11 = false := by decide +kernel

/-- Problems that hold every Kettle. -/
def busyKettles : Table ProbSt := (List.range 16).map (fun i => (i, { run := some { runOn with unit := some i } }))

theorem witness_SessionTimers_graph :
    (let r : Nat := 131072
     let l : List (Fld × Nat × Nat) := [(F.KTL_PROB_CTL_ENABLE, 1, 62), (F.KTL_PROB_CTL_KIND, 2, 62), (F.KTL_PROB_TALLY_OUT, 11, 62), (F.KTL_PROB_OUT_LO_ADDR, r, 62)]
     let s := fields ({ ktlPart 3 {} with mem := [(r, 62#8), (r + 5, 8#8), (r + 8, 1#8)] } : State) l
     s.up = true ∧ s.sesOn 31 = true ∧ s.mapProb (s.f F.FRM_SES_MAP_MAP_ID 31) = some 63 ∧ bitOf (s.rdNum (r + 4) 4) 11 = true
       ∧ s.sharedGraph 63 = false ∧ s.foldable 31 3 r = true ∧ s.producer 8 (s.f F.KTL_PROB_TALLY_IN 63) = true ∧ (s.rdNum (r + 96) 8, 5) ∉ (s.prob 63).loops)
    ∧ (0, 5) ∈ ({ loops := [(0, 5)] } : ProbSt).loops
    ∧ (let e : List Byte := [0, 1, 0, 0, 0, 0, 31]
       let s := ktlPart 4 { run := some runOn }
       let s : State := { s with bt := { img := { tt := [e] } }, ktl := { probs := busyKettles ++ s.ktl.probs } }
       s.up = true ∧ s.sesOn 31 = true ∧ s.sesProb 4 31 = some 63 ∧ s.calEntries 31 ≠ ([], []) ∧ (s.prob 63).run = some runOn
         ∧ runOn.unit.isSome = true ∧ s.freeKettles = [] ∧ s.producer 8 (s.f F.KTL_PROB_TALLY_IN 63) = true)
    ∧ (sesPart 2 4 {}).sesProb 4 31 = none := by decide +kernel

theorem witness_PropagationAndQueries :
    (let l : List (Fld × Nat × Nat) := [(F.FRM_SES_SRC_IMU, 0, 31), (F.FRM_SES_CTL_PROP_DIV, 2, 31), (F.SPG_CH_RING_CFG_LEN, 0, 7)]
     let e : List Byte := [0, 0, 0, 0, 7, 0, 0, 0]
     ∀ st ∈ [2, 3], let s := fields (sesPart st 4 {}) l
       let s : State := { s with bt := { img := { tt := [e] } }, spg := { ch := [(7, { seq := 3 })] } }
       s.up = true ∧ s.sesOn 31 = true ∧ (s.imuChans 31).head? = some 7 ∧ s.sesState 31 = st ∧ s.f F.FRM_SES_CTL_PROP_DIV 31 ≠ 0
         ∧ (s.chan 7).seq ≠ 0 ∧ ((s.chan 7).seq - 1) % s.f F.FRM_SES_CTL_PROP_DIV 31 = 0 ∧ s.imuValid 31 = true ∧ s.srcHeld 31 8 = false
         ∧ (s.ses 31).lastImu ≠ some 2)
    ∧ (sesPart 2 4 {}).imuChans 31 = [] ∧ (sesPart 2 4 {}).sesState 31 ≠ 3 ∧ (sesPart 2 4 {}).sesState 31 ≠ 1
    ∧ (∀ st ∈ [1, 3], let l : List (Fld × Nat × Nat) := [(F.FRM_SES_CTL_INIT_MODE, 1, 31), (F.FRM_SES_RELOC_PLACE_INS, 63, 31), (F.TNS_INS_CTL_ENABLE, 1, 63),
         (F.TNS_INS_CTL_SENSOR, 3, 63), (F.TNS_INS_TALLY_OUT, 9, 63), (F.TNS_INS_CTL_OUT_FRAMES, 2, 63), (F.FRM_SES_RELOC_RELOC_HZ, 1, 31)]
       let s := fields (sesPart st 4 { next := 1, posted := some 0 }) l
       let q : SesParam := { queue := 15 }
       let s : State := { s with bt := { img := { ses := List.replicate 31 {} ++ [q] } } }
       s.up = true ∧ s.sesOn 31 = true ∧ (s.sesParam 31).queue < 16 ∧ 0 < (s.ses 31).next ∧ (s.placeDesc 31 ((s.ses 31).next - 1)).isSome = true
         ∧ s.placeReady 31 ((s.ses 31).next - 1) = true ∧ s.sesState 31 = st ∧ s.f F.FRM_SES_CTL_INIT_MODE 31 = 1
         ∧ (s.ses 31).posted = some 0 ∧ s.mono * s.f F.FRM_SES_RELOC_RELOC_HZ 31 < 1000000000 ∧ s.mm.poison = []
         ∧ 1000000000 ≤ ({ s with tm := { s.tm with tick := 500000000 } } : State).mono * s.f F.FRM_SES_RELOC_RELOC_HZ 31)
    ∧ (let s := fields (sesPart 3 0 { next := 1 }) [(F.TNS_INS_TALLY_OUT, 9, 0), (F.TNS_INS_CTL_SENSOR, 3, 0)]
       s.f F.FRM_SES_RELOC_PLACE_INS 31 = 0 ∧ s.tv (s.f F.TNS_INS_TALLY_OUT 0) < (s.ses 31).next * s.snsBands (s.insSensor 0) ∧ 0 < (s.ses 31).next) := by
  decide +kernel

theorem witness_SourceArbitration :
    [0].Nodup ∧ [0, 1].Nodup ∧ [0, 1, 2].Nodup ∧ 3 ≤ [0, 1, 2].length
    ∧ (arbitrate (fun _ => true) (fun _ _ => true) (fun _ => 0) [0, 1, 2]).conflict = false
    ∧ (arbitrate (fun _ => true) (fun _ _ => false) (fun _ => 0) [0, 1, 2]).conflict = true
    ∧ (arbitrate (fun n => n == 0) (fun _ _ => false) (fun _ => 0) [0, 1]).used = [0] := by decide +kernel

/-- The hypotheses beside the iteration's numbers. -/
theorem witness_KettleIterations :
    (let s := ktlPart 0 { run := some runOn }
     s.up = true ∧ (s.prob 63).run = some runOn ∧ runOn.unit.isSome = true ∧ runOn.ended = false ∧ s.probOn 63 = true ∧ s.kindOf 63 ≠ 2
       ∧ s.mm.poison = [] ∧ s.kindOf 63 ≠ 5 ∧ s.f F.KTL_PROB_CTL_STEP 63 = 0 ∧ runOn.damp = some (0, 0) ∧ s.f F.KTL_PROB_CTL_ITER_MAX 63 ≤ runOn.iters + 1)
    ∧ (fields (ktlPart 0 {}) [(F.KTL_PROB_CTL_STEP, 1, 63)]).f F.KTL_PROB_CTL_STEP 63 = 1
    ∧ (ktlPart 0 {}).prob 63 = {} ∧ (ktlPart 2 {}).kindOf 63 = 2 ∧ (ktlPart 5 {}).kindOf 63 = 5 := by decide +kernel

theorem witness_SolveDeadlines :
    (let s := ktlPart 0 { run := some runOn }
     s.up = true ∧ s.f F.KTL_DEADLINE_US 63 ≠ 0 ∧ (s.prob 63).run = some runOn ∧ runOn.ended = false ∧ s.kindOf 63 ≠ 5
       ∧ runOn.trig.since + 1000 * s.f F.KTL_DEADLINE_US 63 ≤ s.mono ∧ s.mono < ({ since := 1 } : Trig).since + 1000 * s.f F.KTL_DEADLINE_US 63)
    ∧ (∀ kind ∈ [0, 5], let g : Trig := {}
       let s := ktlPart kind { ready := [g, g] }
       (s.prob 63).run = none ∧ ((s.prob 63).ready.drop 1).head? = some g ∧ s.f F.KTL_DEADLINE_US 63 ≠ 0 ∧ s.mm.poison = []
         ∧ g.since + 1000 * s.f F.KTL_DEADLINE_US 63 ≤ s.mono)
    ∧ loadedPart.f F.KTL_DEADLINE_US 63 = 0 := by decide +kernel

theorem witness_SolutionRecords :
    (∀ kind ∈ [0, 2], let r : Run := { runOn with ended := true }
     let s := ktlPart kind { run := some r }
     s.up = true ∧ s.mm.poison = [] ∧ (∀ q < 64, (s.prob q).ready = [] ∧ (q ≠ 63 → (s.prob q).run = none)) ∧ (s.prob 63).run = some r
       ∧ r.ended = true ∧ r.stopAt ≤ s.mono ∧ s.kindOf 63 = kind ∧ bitOf r.flags 11 = false ∧ r.order = [])
    ∧ (let r : Run := { runOn with trig := { inp := [7, 255] } }
       let s := ktlPart 5 { run := some r }
       (s.prob 63).run = some r ∧ s.kindOf 63 = 5 ∧ r.trig.inp = 7 :: 255 :: [] ∧ 7 < 8 ∧ s.bodyInOk 7 255 [] = false)
    ∧ (let s := fields (ktlPart 5 {}) [(F.KTL_BODY_CTL_ENABLE, 1, 7)]
       s.bodyInOk 7 255 (List.replicate 9 0) = true)
    ∧ (let s := ktlPart 3 { run := some runOn, pendingLoop := true, lastEnd := some 0 }
       let s : State := { s with ktl := { probs := busyKettles ++ s.ktl.probs }, tm := { s.tm with tick := 1000000000 } }
       s.probOn 63 = true ∧ s.kindOf 63 = 3 ∧ (s.prob 63).pendingLoop = true ∧ s.sharedGraph 63 = false
         ∧ (s.prob 63).lastEnd = some 0 ∧ 1000000 * s.f F.KTL_PG_GAP_MS ≤ s.mono ∧ (s.prob 63).run = some runOn ∧ s.freeKettles = []
         ∧ s.producer 8 (s.f F.KTL_PROB_TALLY_IN 63) = true)
    ∧ (ktlPart 3 {}).mono < 1000 + 1000000 * (fields (ktlPart 3 {}) [(F.KTL_PG_GAP_MS, 1, 0)]).f F.KTL_PG_GAP_MS
    ∧ (ktlPart 3 {}).mono < ({ runOn with stopAt := 1001 } : Run).stopAt := by decide +kernel
/-- Beyond the listed problems nothing waits or runs. -/
theorem witness_idle_problem (kind : Nat) (x : ProbSt) : ∀ q : Nat, q ≠ 63 → (ktlPart kind x).prob q = {} := by
  intro q h; simp [ktlPart, State.prob, tget, h]

theorem witness_DeltaEntries :
    (let x : ProbSt := { vars := [{ id := 1, typ := 0 }, { id := 2, typ := 0 }], facs := [{ id := 9, typ := 0, vars := [1, 2] }] }
     Safety.storeOk x ∧ Safety.storeOk ({ x := x } : Applied).x ∧ 9 ∈ x.facs.map (·.id) ∧ 1 ∈ x.vars.map (·.id) ∧ 3 ∉ x.vars.map (·.id)
       ∧ 3 ∉ x.facs.map (·.id) ∧ (∀ v ∈ ({ op := 4, id := 3, vars := [1, 2] } : Delta).vars, v ∈ x.vars.map (·.id))
       ∧ (∃ v ∈ ({ op := 4, id := 3, vars := [1, 3] } : Delta).vars, v ∉ x.vars.map (·.id)))
    ∧ ({ op := 7 } : Delta).bad = false ∧ ({ op := 2, id := 1 } : Delta).bad = false ∧ ({ op := 6, id := 9 } : Delta).bad = false
    ∧ ({ op := 4, val := [0x7FF0000000000000] } : Delta).bad = true ∧ valFits 3 0 (List.replicate 7 0) = true ∧ valFits 3 1 (List.replicate 8 0) = false
    ∧ ({ id := 3, typ := 1, vars := [1, 2], val := [0, 0, 0, 0x3FF0000000000000] } : KFac).pd = true
    ∧ ({ id := 3, typ := 1, vars := [1, 2] } : KFac).pd = false := by
  unfold Safety.storeOk; decide +kernel
/-- Whatever a store's structures take, an entry fits in as much room as it and they take, and not in none. -/
theorem witness_DeltaEntries_room (x : ProbSt) : x.overfull (({ x with ring := [] } : ProbSt).stored + ({ op := 1, id := 3 } : Delta).size) { op := 1, id := 3 } = false
    ∧ x.overfull 0 { op := 1, id := 3 } = true := by
  have h : 0 < ({ op := 1, id := 3 } : Delta).size := by decide
  exact ⟨by simp [ProbSt.overfull], by simp only [ProbSt.overfull, decide_eq_true_eq]; omega⟩

/-- A part whose Kiln map 7 of four blocks keeps at most one of them, with one pass. -/
def kilnPart (m : KMap) (p : List Pass) : State :=
  let s := part [(F.KLN_MAP_CTL_ENABLE, 1, 7), (F.KLN_MAP_SIZE_MAP_BLOCKS, 4, 7), (F.KLN_MAP_SIZE_ACTIVE_BLOCKS, 1, 7),
    (F.KLN_MAP_CTL_REFINE_ITERS, 1, 7), (F.KLN_MAP_ACTIVE_LO_ADDR, 4194304, 7)]
  { s with kln := { maps := [(7, m)], passes := p } }

/-- A view pass of view 15 over map 7. -/
def viewPass : Pass := { cls := 1, idx := 15, map := 7 }

theorem witness_KilnViewPasses :
    (kilnPart {} []).up = true ∧ (∀ p ∈ (kilnPart {} []).kln.passes, ¬(p.unit = some 1 ∧ p.stage = 1))
    ∧ (let p : Pass := { viewPass with unit := some 1, stage := 1, resident := [0] }
       let s := kilnPart { wanted := [0, 1] } [p]
       s.kln.passes = [p] ∧ p.cls = 1 ∧ p.unit = some 1 ∧ p.stage = 1 ∧ p.late = false ∧ 1 ∈ (s.kmap p.map).wanted ∧ 1 ∉ p.resident
         ∧ tget 0 (s.kmap p.map).resident 1 = 0 ∧ ∀ b ∈ ((kilnPart { wanted := [0] } [p]).kmap p.map).wanted, b ∈ p.resident)
    ∧ (let p : Pass := { viewPass with unit := some 1, stage := 2, due := some 0 }
       (kilnPart {} [p]).kln.passes = [p] ∧ p.cls = 1 ∧ p.unit = some 1 ∧ p.stage = 2 ∧ (kilnPart {} [p]).mm.poison = [])
    ∧ (let p : Pass := { viewPass with due := some 0 }
       (kilnPart {} [p]).kln.passes = [p] ∧ p.cls = 1 ∧ p.stage = 0 ∧ p.late = false ∧ p.due = some 0 ∧ 0 ≤ (kilnPart {} [p]).now ∧ p.begun = false ∧ ({ p with begun := true } : Pass).begun = true
         ∧ (kilnPart {} [p]).mm.poison = [] ∧ (kilnPart {} [p]).now < 1)
    ∧ ({ viewPass with late := true } : Pass).late = true := by decide +kernel

theorem witness_KilnRefinement :
    (∀ st ∈ [2, 3], let p : Pass := { cls := 2, idx := 0, map := 7, unit := some 1, stage := st }
     let j : RefJob := { ses := 31, kf := 0 }
     let s := kilnPart { job := some j } [p]
     s.up = true ∧ s.kln.passes = [p] ∧ p.unit = some 1 ∧ p.cls = 2 ∧ p.stage = st ∧ (s.kmap p.map).job = some j ∧ s.mm.poison = [])
    ∧ (let j : RefJob := { ses := 31, kf := 0 }
       let s := kilnPart { job := some j } []
       (s.kmap 7).job = some j ∧ s.kmapOn 7 = true ∧ j.left = [] ∧ (∀ p ∈ s.kln.passes, ¬(p.map = 7 ∧ p.stage = 1))
         ∧ j.iters < s.f F.KLN_MAP_CTL_REFINE_ITERS 7)
    ∧ (let j : RefJob := { ses := 31, kf := 0, iters := 1 }
       let s := kilnPart { job := some j } []
       (s.kmap 7).job = some j ∧ s.f F.KLN_MAP_CTL_REFINE_ITERS 7 ≤ j.iters ∧ (s.kmap 7).queue = [] ∧ s.mm.poison = [])
    ∧ (kilnPart {} []).kmap 7 = {} ∧ ({ ses := 31, kf := 0, left := [1] } : RefJob).left ≠ []
    ∧ (let p : Pass := { cls := 0, idx := 0, map := 7, unit := some 0, stage := 2 }
       (kilnPart {} [p]).kln.passes = [p] ∧ p.cls = 0 ∧ p.unit = some 0 ∧ p.stage = 2 ∧ (kilnPart {} [p]).mm.poison = []) := by decide +kernel

theorem witness_KilnActiveSet :
    (let s := kilnPart { loading := [3], wanted := [3] } []
     s.up = true ∧ s.kmapOn 7 = true ∧ s.kmapOn 8 = false ∧ 3 ∈ (s.kmap 7).loading ∧ s.freeFrame 7 = some 0
       ∧ s.cellarOnly (s.blockPage 7 3 / 65536) = false ∧ s.lnk.reads = [] ∧ s.mm.poison = [] ∧ 0 ∉ (s.kmap 7).loading)
    ∧ (let s := kilnPart { loading := [3], wanted := [3], resident := [(0, 1)] } []
       (s.kmap 7).loading ≠ [] ∧ s.freeFrame 7 = none ∧ (∀ p ∈ s.kln.passes, ¬(p.map = 7 ∧ p.stage = 1))
         ∧ (∃ e ∈ (s.kmap 7).resident, e.1 ∉ (s.kmap 7).wanted) ∧ bitOf (s.rdNum (s.descAddr 7 0 + 12) 2) 1 = false)
    ∧ (let s : State := { kilnPart {} [] with mem := [(12, 2#8)] }
       bitOf (s.rdNum (s.descAddr 7 0 + 12) 2) 1 = true) := by decide +kernel

/-- A part whose Cask index 7 is in service, with nodes from 1 MiB on. -/
def caskPart (form : Nat) (c : CskSt) : State :=
  let s := part [(F.CSK_IDX_CTL_ENABLE, 1, 7), (F.CSK_IDX_CTL_FORM, form, 7), (F.CSK_IDX_NODE_LO_ADDR, 1048576, 7), (F.CSK_IDX_CAP_MAX_NODES, 4, 7),
    (F.CSK_IDX_ENTRY_LO_ADDR, 2097152, 7), (F.CSK_IDX_LOC_LO_ADDR, 3145728, 7), (F.CSK_Q_CTL_ENABLE, 1, 15), (F.CSK_Q_CTL_KIND, 1, 15)]
  { s with csk := c }

/-- A query of index 7 for one result. -/
def queryReq : List Byte := [0, 0, 0, 0, 0, 0, 0, 0, 7, 1] ++ zeroBytes 310

/-- Its walk and its query entry. -/
def ownWalk (unit : Option Nat) (ended : Bool) : Walk := { id := 9, q := 5, idx := 7, req := queryReq, unit := unit, ended := ended }
def ownQuery (origin : Nat) : CQuery := { tag := 5, origin := origin, k := 0, req := queryReq, asked := [0] }

theorem witness_CaskWalks :
    (let s := part [(F.CSK_IDX_CTL_ENABLE, 1, 7)]
     let s : State := { s with csk := { ready := [7] } }
     s.up = true ∧ s.csk.walks = [] ∧ (∀ q < 16, s.fb F.CSK_Q_CTL_ENABLE q = false) ∧ ∀ i < 8, s.idxOn i = true → i ∈ s.csk.ready) := by decide +kernel
theorem witness_CaskWalks_reads :
    (let x : Walk := { ownWalk (some 0) false with batch := [(3, 0)], due := 1 }
       let s := caskPart 0 { ready := [7], walks := [x] }
       s.csk.walks = [x] ∧ x.ended = false ∧ x.unit ≠ none ∧ x.batch = [(3, 0)] ∧ x.got = [] ∧ x.pre = [] ∧ x.spec = [] ∧ s.mono < x.due ∧ s.mm.poison = []
         ∧ s.fb F.CSK_STATUS_PREFETCH = false ∧ s.f F.CSK_IDX_CTL_FORM x.idx ≠ 2
         ∧ (∀ p ∈ (s.shd x.idx x.replica).nodePages 3, s.cellarOnly p = false) ∧ (s.nodeRd (s.shd x.idx x.replica) 3).gen = 0) := by decide +kernel
theorem witness_CaskWalks_own :
    (∀ e ∈ [(16, none, false, []), (16, some 0, true, [7]), (0, some 0, true, [7])],
       let x := ownWalk e.2.1 e.2.2.1
       let q := ownQuery e.1
       let s := fields (caskPart 0 { ready := e.2.2.2, walks := [x], qs := [q] }) [(F.CSK_Q_CTL_KIND, 0, 0)]
       let s : State := { s with hst := { slots := [(0, { state := 1 })] } }
       s.csk.walks = [x] ∧ s.csk.qs = [q] ∧ x.q = q.tag ∧ x.asker = none ∧ x.replica = false ∧ x.req = q.req ∧ x.idx = rqIdx q.req
         ∧ q.asked = [x.shard] ∧ q.answers = [] ∧ q.missing = [] ∧ s.fb F.CSK_IDX_CTL_SHARDED x.idx = false ∧ x.shard = 0
         ∧ tget 0 s.csk.epochs (x.idx * 16 + x.shard) ≤ x.epoch ∧ q.req.length = 320 ∧ rqK q.req ≤ 64 ∧ x.flags < 8
         ∧ (tget {} s.hst.slots q.k).state = 1 ∧ (tget {} s.hst.slots q.k).posts = q.who ∧ (s.idxReady x.idx = false ↔ x.unit = none)
         ∧ s.idxGone x.idx = false ∧ x.due ≤ s.mono ∧ 1 ≤ rqK q.req ∧ s.f F.CSK_IDX_CTL_FORM x.idx ≠ 2 ∧ s.mm.poison = []
         ∧ s.f F.CSK_Q_CTL_KIND 0 = 0 ∧ (s.cqueue 0).out = q.k ∧ (s.cqueue 0).done = [] ∧ (s.cqueue 0).ended = []) := by decide +kernel
theorem witness_CaskWalks_shards :
    (let q : CQuery := { ownQuery 16 with asked := [0, 1, 2] }
       let a : ShardAns := { shard := 1 }
       let s : State := { caskPart 0 { qs := [q] } with hst := { slots := [(0, { state := 1 })] }, tm := { tick := 10 ^ 12 } }
       s.csk.qs = [q] ∧ s.csk.qs.find? (fun x => x.tag == 5) = some q ∧ tget 0 s.csk.epochs (rqIdx q.req * 16 + a.shard) ≤ a.epoch
         ∧ a.shard ∈ q.asked ∧ a.shard ∉ q.missing ∧ a.missing = false ∧ q.answers.length + q.missing.length + 1 < q.asked.length
         ∧ s.dueOf q.req q.since + 1000 * s.f F.CSK_IDX_TIMEOUT_SHARD_US (rqIdx q.req) ≤ s.mono
         ∧ (let u := fields (caskPart 0 { qs := [q] }) [(F.CSK_IDX_DEADLINE_US, 1, 7)]
            u.mono < u.dueOf q.req q.since + 1000 * u.f F.CSK_IDX_TIMEOUT_SHARD_US (rqIdx q.req))
         ∧ 1 < q.asked.length ∧ s.role ≤ 1 ∧ 2 ∈ q.asked ∧ (∀ b ∈ q.answers, b.shard ≠ 2) ∧ q.origin = 16
         ∧ (tget {} s.hst.slots q.k).state = 1 ∧ (tget {} s.hst.slots q.k).posts = q.who ∧ q.req.length = 320 ∧ rqK q.req ≤ 64)
    ∧ ({ shard := 1 } : ShardAns).epoch < tget 0 (caskPart 0 { epochs := [(7 * 16 + 1, 1)] }).csk.epochs (rqIdx queryReq * 16 + 1) := by decide +kernel

/-- A part whose queue 15 has one change request of an operation for index 7 and identifier 12, and which holds further bytes. -/
def changePart (op : Nat) (m : List (Nat × List Byte)) : State :=
  { caskPart 0 { ready := [7], queues := [(15, { seen := 1 })] } with
    mem := m.foldl (fun l e => Memory.writeList l e.1 e.2) (Memory.writeList [] 0 ([BitVec.ofNat 8 op, 7#8] ++ zeroBytes 6 ++ leBytes 8 12)) }

theorem witness_CaskChanges :
    (∀ op ∈ [1, 2, 3], let s := changePart op []
     s.up = true ∧ (s.cqueue 15).next = 0 ∧ 0 < (s.cqueue 15).seen ∧ rqNum (s.readReq 15 0) 0 1 = op ∧ rqNum (s.readReq 15 0) 1 1 = 7
       ∧ s.fb F.CSK_Q_CTL_ENABLE 15 = true ∧ s.f F.CSK_Q_CTL_KIND 15 = 1 ∧ s.idxReady 7 = true ∧ s.fb F.CSK_IDX_CTL_SHARDED 7 = false
       ∧ (s.cqueue 15).out = 0 ∧ (s.cqueue 15).done = [] ∧ (s.cqueue 15).ended = [] ∧ s.mm.poison = []
       ∧ s.findIdent (s.shd 7 false) 12 true = none ∧ s.findIdent (s.shd 7 false) 12 false = none)
    ∧ (∀ op ∈ [1, 2, 3], (changePart op [(1048592, [1#8]), (1114243, [0x80#8]), (2097408, [12#8])]).findIdent ((changePart op []).shd 7 false) 12 true
        = some (0, 0))
    ∧ (let s := fields (changePart 1 []) [(F.CSK_IDX_CTL_SHARDED, 1, 7), (F.CSK_IDX_CTL_SHARDS_M1, 1, 7), (F.LNK_STATUS_ROLE, 1, 0),
         (F.LNK_MBR_STATE_STATE, 3, 1), (F.LNK_CFG_N_M1, 1, 0), (F.LNK_STATUS_MY_ID, 1 - shardFor 12 2, 0), (F.LNK_MBR_STATE_STATE, 3, 0)]
       s.fb F.CSK_IDX_CTL_SHARDED 7 = true ∧ s.shardHolder 7 (shardFor (rqNum (s.readReq 15 0) 8 8) (s.shardsOf 7)) = some (shardFor 12 2, false)
         ∧ shardFor 12 2 ≠ s.deviceId) := by decide +kernel
theorem witness_CaskChanges_compaction :
    (let s := fields (changePart 1 [(1048592, [1#8]), (1048596, [255#8, 255#8, 255#8, 255#8])]) []
     s.up = true ∧ s.idxOn 7 = true ∧ s.idxReady 7 = true ∧ s.holdsShard 7 = true ∧ s.freeCtx.isSome = true ∧ s.mm.poison = [] ∧ s.nextNode (s.shd 7 false) (tget 0 s.csk.pos 7) = some 0
       ∧ 0 < 2 ^ 32 ∧ (∀ sl < 32, (s.nodeRd (s.shd 7 false) 0).isLive sl = false) ∧ bitOf (s.nodeRd (s.shd 7 false) 0).flags 0 = false)
    ∧ (changePart 1 []).nextNode ((changePart 1 []).shd 7 false) 0 = none
    ∧ (fields (changePart 1 []) [(F.CSK_IDX_CTL_SHARDED, 1, 7), (F.LNK_STATUS_MY_ID, 1, 0)]).holdsShard 7 = false := by decide +kernel

theorem witness_HostTallies :
    (let e : TallyEnt := { index := 65535, flags := 1 }
     let s := fields ({ loadedPart with dsp := { graph := { tallies := [e] } } } : State) [(F.DSP_HOST_WAIT_CTL_ARM, 1, 63), (F.DSP_HOST_WAIT_CTL_INDEX, 65535, 63)]
     s.up = true ∧ s.loaded = true ∧ s.reach 0 = true ∧ s.dsp.graph.tallies.find? (fun e => e.index == 65535) = some e ∧ bitOf e.flags 0 = true
       ∧ bitOf e.flags 1 = false ∧ s.mm.fresh = [] ∧ s.fb F.DSP_HOST_WAIT_CTL_ARM 63 = true ∧ s.f F.DSP_HOST_WAIT_CTL_INDEX 63 = 65535
       ∧ s.pair R.DSP_HOST_WAIT_TH_LO R.DSP_HOST_WAIT_TH_HI 63 ≤ s.tv 65535)
    ∧ loadedPart.dsp.graph.tallies.find? (fun e => e.index == 65535) = none
    ∧ loadedPart.tv 65535 < (part [(F.DSP_HOST_WAIT_TH_LO_TH, 1, 63)]).pair R.DSP_HOST_WAIT_TH_LO R.DSP_HOST_WAIT_TH_HI 63 := by decide +kernel

theorem witness_TallyAdvances :
    loadedPart.up = true ∧ loadedPart.mm.poison = [] ∧ loadedPart.badStore 0xB [(2 ^ 48, [0#8])] ≠ none ∧ loadedPart.badStore 6 [(0x100000, [0#8])] = none
    ∧ (let e : TallyEnt := { index := 9, producers := 64 }
       ({ loadedPart with dsp := { graph := { tallies := [e] } } } : State).producer 6 9 = true)
    ∧ loadedPart.producer 6 9 = false ∧ ({ loadedPart with dsp := { epochs := [(3, 1)] } } : State).epochOf 3 = 1 ∧ loadedPart.dsp.kick = [] := by
  decide +kernel

theorem witness_DispatcherBounds : (∀ h : Nat, (loadedPart.dsp.flight.filter (fun j => (loadedPart.node j.node).home == h)).length ≤ 512)
    ∧ loadedPart.pendingWaits ≤ 16384 := by
  refine ⟨fun h => ?_, by decide +kernel⟩
  simp [loadedPart, State.setF, State.setWord, State.reset]

theorem witness_TasksAndUnits :
    (∀ c ∈ [2, 4, 9, 0xD], let x : Inst := { node := 0, k := 3 }
     let n : Node := { block := 2, limitUs := 1 }
     let s : State := { loadedPart with dsp := { graph := { nodes := [n] }, flight := [x] }, tm := { tick := 10 ^ 9 } }
     s.up = true ∧ s.inFlight 0 3 = some x ∧ x.node = 0 ∧ x.faults = 0 ∧ x.began + 1000 * s.limitOf 0 ≤ s.mono
       ∧ loadedPart.mono < x.began + 1000 * ({ loadedPart with dsp := { graph := { nodes := [n] } } } : State).limitOf 0 ∧ (s.node 0).block ∈ [2, 3, 4, 7] ∧ (s.node 0).advs = []
       ∧ 0 < builtOf c * groupsOf c ∧ (s.unitSt c 0).out = false ∧ (s.unitSt c 0).failedAt = none ∧ (s.placeOf c 0).isSome = true
       ∧ s.goodSpares c 0 ≠ [] ∧ s.dsp.handover = [] ∧ s.dsp.visits = []) := by decide +kernel

theorem witness_WaitsLoadAndFolding :
    (let x : Inst := { node := 5, k := 3 }
     let s : State := { part [(F.DSP_WAIT_LIMIT_S, 1, 0)] with dsp := { pend := [x] }, tm := { tick := 10 ^ 9 } }
     s.up = true ∧ x.since + 1000000000 * s.f F.DSP_WAIT_LIMIT_S ≤ s.mono ∧ loadedPart.mono < x.since + 1000000000 * s.f F.DSP_WAIT_LIMIT_S ∧ s.dsp.pend.find? (fun i => i.node == 5 && i.k == 3) = some x ∧ 5 ∉ s.dsp.stuck
       ∧ 5 ∈ ({ s with dsp := { s.dsp with stuck := [5] } } : State).dsp.stuck)
    ∧ (let s : State := { part [(F.DSP_COOPER_CFG_RESTORE_PCT, 60, 0), (F.DSP_COOPER_CFG_SHED_PCT, 80, 0)] with dsp := { loadSince := some 0, lowSince := some 0 } }
       s.f F.DSP_COOPER_CFG_RESTORE_PCT < s.f F.DSP_COOPER_CFG_SHED_PCT ∧ 10 * s.f F.DSP_COOPER_CFG_SHED_PCT < 1023
         ∧ 0 < 10 * s.f F.DSP_COOPER_CFG_RESTORE_PCT ∧ 700 ≤ 10 * s.f F.DSP_COOPER_CFG_SHED_PCT ∧ s.dsp.loadSince = some 0
         ∧ 10 * s.f F.DSP_COOPER_CFG_RESTORE_PCT ≤ 700 ∧ s.dsp.lowSince = some 0 ∧ loadedPart.dsp.loadSince = none
         ∧ loadedPart.dsp.shedAt ≤ loadedPart.mono ∧ loadedPart.f F.DSP_COOPER_SHED_LEVEL = 0
         ∧ (∀ l ∈ [1, 2], (part [(F.DSP_COOPER_SHED_LEVEL, l, 0)]).f F.DSP_COOPER_SHED_LEVEL = l)
         ∧ loadedPart.mono < Nat.max (tget 0 loadedPart.dsp.tele (R.DSP_COOPER_LOAD.addr 0 0)) loadedPart.dsp.shedAt + 10000000000
         ∧ (let u : State := { loadedPart with tm := { tick := 10 ^ 10 } }
            Nat.max (tget 0 u.dsp.tele (R.DSP_COOPER_LOAD.addr 0 0)) u.dsp.shedAt + 10000000000 ≤ u.mono))
    ∧ (∀ n ∈ [0, 2], let f : Fold := { source := 1, code := 2, unit := 3, since := 0, ts := 0, count := n, arg0 := 0, arg1 := 0, arg2 := 0 }
       ({ loadedPart with dsp := { folds := [f] } } : State).dsp.folds.find? (fun f => f.source == 1 && f.code == 2 && f.unit == 3) = some f) := by
  decide +kernel

theorem witness_SpareRotation :
    (let s : State := { loadedPart with pw := { loadedPart.pw with mode := .running } }
     s.up = true ∧ 0 < groupsOf 9 ∧ s.pw.mode = .running ∧ s.handling 9 = false ∧ s.freeSpares 9 0 = [4] ∧ s.visitTarget 9 0 = some (0, 0, false)
       ∧ ({ s with dsp := { units := [(unitKey 9 4, { out := true })] } } : State).freeSpares 9 0 = [])
    ∧ (∀ ph ∈ [0, 1, 2, 3], let v : Visit := { cls := 9, group := 0, spare := 4, logical := 2, phys := 2, phase := ph }
       let s : State := { loadedPart with dsp := { visits := [v] } }
       s.up = true ∧ s.dsp.visits = [v] ∧ v.cls = 9 ∧ v.phase = ph ∧ (s.unitSt 9 4).out = false ∧ (s.unitSt 9 2).out = false ∧ v.group < 65536 ∧ v.logical < 64)
    ∧ (∀ n ∈ [0, 1], let s : State := { loadedPart with dsp := { units := [(unitKey 9 4, { out := true, passes := n })] } }
       (s.unitSt 9 4).out = true ∧ (s.unitSt 9 4).retired = false ∧ (s.unitSt 9 4).passes = n)
    ∧ (part [(F.SEC_UPDATE_STATE, 3, 0)]).handling 0xE = true ∧ 0 < groupsOf 0xE
    ∧ (∀ core < 4, (loadedPart.unitSt 0xE core).out = false)
    ∧ (loadedPart.dsp.wdTimes.filter (fun x => decide (loadedPart.mono ≤ x + 60000000000))).length < 2 ∧ loadedPart.dsp.handover = []
    ∧ (let s : State := { loadedPart with dsp := { wdTimes := [0, 0] } }
       2 ≤ (s.dsp.wdTimes.filter (fun x => decide (s.mono ≤ x + 60000000000))).length) := by decide +kernel

theorem witness_HostRegisters :
    loadedPart.target 0x900002 = none ∧ pfVectorAt 0x900002 = false
    ∧ (∀ r ∈ [R.KTL_GRAVITY, R.HST_EVT, R.GLB_PART, R.HST_MBX_REQ, R.DSP_HOST_WAIT_TH_LO, R.DSP_HOST_WAIT_TH_HI, R.HST_RING_RD_LO, R.HST_RING_RD_HI,
         R.HST_RING_WR_LO, R.DSP_HOST_ADV, R.DSP_HOST_WAIT_CTL], loadedPart.target (r.addr 0 0) = some (r, 0, 0) ∧ pfVectorAt (r.addr 0 0) = false)
    ∧ R.KTL_GRAVITY.bl ≠ 0 ∧ R.HST_EVT.bl = 0 ∧ R.HST_EVT.w1c ≠ 0
    ∧ (R.GLB_PART.rw = 0 ∧ R.GLB_PART.w1c = 0 ∧ R.GLB_PART.wo = 0 ∧ R.GLB_PART.bl = 0)
    ∧ tget 0 loadedPart.hst.lo (R.HST_RING_RD_HI.addr 0 0) ≤ 2 ^ 32 ∧ loadedPart.loaded = true
    ∧ (part [(F.HST_RING_WR_LO_SEQ, 9, 63)]).pair R.HST_RING_RD_LO R.HST_RING_RD_HI 63 ≤ 9 ∧ 9 ≤ (part [(F.HST_RING_WR_LO_SEQ, 9, 63)]).pair R.HST_RING_WR_LO R.HST_RING_WR_HI 63
    ∧ pfVectorAt 0xD10430 = true ∧ loadedPart.windowOpen 0xD = true ∧ bitOf (2 ^ 31 + 5) 31 = true ∧ bitOf 5 31 = false := by decide +kernel

theorem witness_HostReads :
    (loadedPart.target (R.HST_RING_WR_LO.addr 0 0) = some (R.HST_RING_WR_LO, 0, 0) ∧ R.HST_RING_WR_LO ∈ pairLos
      ∧ R.HST_RING_WR_LO ≠ R.LNK_PORT_FEC_CORR_LO ∧ R.HST_RING_WR_LO ≠ R.TIME_CAP_SEC_LO
      ∧ (regAt (R.HST_RING_WR_LO.addr 0 0 + 4)).isSome = true ∧ 0xD00000 ≤ R.HST_RING_WR_LO.addr 0 0)
    ∧ loadedPart.readOpen 0x8FFFFC = true ∧ 0x8FFFFC = 0x880000 + 256 * 2047 + 4 * 63 ∧ loadedPart.pairAt 0x8FFFFC = none
    ∧ loadedPart.windowOpen 0xC = true ∧ loadedPart.target 0xC80000 = none ∧ loadedPart.reach 0 = true
    ∧ (let s : State := { loadedPart with otp := { part := 0x71 } }
       s.reach 0 = true ∧ s.readOpen (R.KLN_STATUS.addr 0 0) = false)
    ∧ (∀ a ∈ [R.GLB_PART.addr 0 0, 0xFF0000], a % 4 = 0 ∧ loadedPart.readOpen a = true ∧ loadedPart.pairAt a = none ∧ tget 0 loadedPart.hst.hi a = 0
         ∧ timeNowKey a = none ∧ a ≠ 0x200010)
    ∧ regAt 0xFF0000 = none ∧ pfVectorAt 0xFF0000 = false ∧ loadedPart.windowOpen 2 = true
    ∧ (part [(F.BOOT_STATUS_STAGE, 1, 0)]).windowOpen 2 = false ∧ (part [(F.BOOT_STATUS_STAGE, 1, 0)]).reach 0 = true := by decide +kernel

/-- A part whose ring 63 takes the records of problem 5 and whose last record has the sequence number `wr`. -/
def ringPart (wr rd : Nat) (h : HstSt) : State :=
  { part [(F.HST_RING_CTL_ENABLE, 1, 63), (F.HST_RING_CTL_KIND, 3, 63), (F.HST_RING_CTL_SOURCE, 5, 63), (F.HST_RING_CTL_LOG2_LEN, 4, 63),
      (F.HST_RING_WR_LO_SEQ, wr, 63), (F.HST_RING_RD_LO_SEQ, rd, 63), (F.HST_RING_IRQ_IRQ_US, 7, 63)] with hst := h }

theorem witness_HostInterface :
    loadedPart.reach 15 = true
    ∧ (let s := ringPart 9 2 {}
       s.up = true ∧ s.loaded = true ∧ s.reach 0 = true ∧ s.pair R.HST_RING_RD_LO R.HST_RING_RD_HI 63 ≤ 9 ∧ s.pair R.HST_RING_WR_LO R.HST_RING_WR_HI 63 = 9
         ∧ s.fb F.HST_RING_CTL_ENABLE 63 = true ∧ 63 ∉ s.hst.fired ∧ s.f F.HST_RING_IRQ_IRQ_US 63 ≠ 0
         ∧ s.pair R.HST_RING_RD_LO R.HST_RING_RD_HI 63 < s.pair R.HST_RING_WR_LO R.HST_RING_WR_HI 63
         ∧ s.pair R.HST_RING_WR_LO R.HST_RING_WR_HI 63 < 10)
    ∧ (let p : Pub := { kind := 3, source := 5, bytes := zeroBytes 224 }
       let s := ringPart 0 0 { outq := [p] }
       s.up = true ∧ s.hst.outq = [p] ∧ 1 ≤ p.kind ∧ tget 0 s.hst.seqs 63 + 1 < 2 ^ 64 ∧ s.mm.poison = [] ∧ p.bytes.length ≤ 224
         ∧ s.rdNum (s.pair R.HST_RING_BACK_LO R.HST_RING_BACK_HI 63 + 256 * (1 % 2 ^ s.f F.HST_RING_CTL_LOG2_LEN 63)) 8 = 0)
    ∧ (let s : State := { ringPart 0 0 {} with mem := [(256, 1#8)] }
       s.rdNum 256 8 ≠ 0 ∧ s.pair R.HST_RING_RD_LO R.HST_RING_RD_HI 63 < s.rdNum 256 8)
    ∧ (let h : Hold := { tally := 1, due := 0 }
       let s := ringPart 0 0 { holds := [{ tally := 2, due := 1 }, h] }
       s.hst.holds.find? (fun x => decide (x.due ≤ s.mono)) = some h ∧ ∀ x ∈ s.hst.holds.take 1, s.mono < x.due)
    ∧ loadedPart.slotHere 16 0 = false ∧ loadedPart.slotHere 15 63 = true ∧ 0 + ([0#8] : List Byte).length ≤ 320 ∧ 320 < 320 + ([0#8] : List Byte).length
    ∧ (loadedPart.slot 15 63).state = 0
    ∧ (let x : Slot := { state := 2 }
       ∃ k < 1024, (({ loadedPart with hst := { slots := [(k, x)] } } : State).slot 15 63).state ≠ 0)
    ∧ rqInTable queryReq = true ∧ bitOf (loadedPart.f F.HST_FN_INDEX_MASK 15) 7 = false := by decide +kernel
theorem witness_HostInterface_onlyRing : Safety.onlyRing (ringPart 0 0 {}) 63 3 5 := by unfold Safety.onlyRing; decide +kernel
theorem witness_HostInterface_slots :
    (let d : List Byte := List.replicate 256 1#8
     let r := (queryReq.take 64) ++ d
     let x : Slot := { request := r }
     let s : State := { fields (caskPart 0 { ready := [7] }) [(F.HST_FN_INDEX_MASK, 255, 15)] with hst := { slots := [(15 * 64 + 63, x)] } }
     s.slotHere 15 63 = true ∧ (s.slot 15 63).state = 0 ∧ fitBytes 320 (s.slot 15 63).request = r ∧ bitOf (s.f F.HST_FN_INDEX_MASK 15) (rqIdx r) = true
       ∧ rqInTable r = true ∧ s.queryBad r = false ∧ s.fb F.CSK_IDX_CTL_SHARDED (rqIdx r) = false)
    ∧ (let l : List (Fld × Nat × Nat) := [(F.HST_FN_APERTURE_MASK, 65535, 15), (F.HST_AP_PAGES_PAGES, 1, 15), (F.HST_AP_BASE_LO_ADDR, 65536, 15)]
       let off := 15 * 2 ^ 32
       let s := part l
       s.loaded = true ∧ s.reach 15 = true ∧ s.apOpen 15 off = true ∧ (∀ i < 4, s.apOpen 15 (off + i) = true) ∧ s.apOpen 15 0 = false
         ∧ (∀ i < 4, s.apOpen 15 (0 + i) = false) ∧ s.accessHeld (s.apAddr off / 65536) = false ∧ s.poisoned (s.apAddr off) 4 = false
         ∧ (s.addPoison (s.apAddr off / 64) 1 3 0).poisoned (s.apAddr off) 4 = true
         ∧ (let p : Page := { rgn := 5, cellar := true }
            let t : State := { fields s [(F.MEM_RGN_CTL_CLASS, 3, 5), (F.MEM_CELLAR_CFG_ENABLE, 1, 0)] with mm := { pages := [(s.apAddr off / 65536, p)], bar4 := [(15, off, 4)] } }
            (∀ i < 4, t.apOpen 15 (off + i) = true) ∧ t.accessHeld (t.apAddr off / 65536) = true ∧ t.cellarOnly (t.apAddr off / 65536) = true
              ∧ t.cellarGone = false ∧ (15, off, 4) ∈ t.mm.bar4)
         ∧ (let t : State := { s with mm := { refills := [s.apAddr off / 65536] } }
            t.accessHeld (t.apAddr off / 65536) = true ∧ t.cellarOnly (t.apAddr off / 65536) = false))
    ∧ loadedPart.awake = true ∧ State.reset.awake = false := by decide +kernel

theorem witness_EndpointResets :
    State.reset.awake = false ∧ loadedPart.awake = true
    ∧ (let s : State := { part [(F.HST_MBX_STATUS_STATE, 1, 0)] with hst := { dma := some 7 } }
       s.awake = true ∧ s.hst.dma = some 7 ∧ s.f F.HST_MBX_STATUS_STATE = 1) := by decide +kernel

/-- A part whose port 3 has an address, with stream 31 to a destination. -/
def ethPart (dst : Nat) (h : HstSt) : State :=
  { part [(F.HST_PORT_IP_ADDR, 0xC0A80001, 3), (F.HST_PORT_NET_PREFIX, 24, 3), (F.HST_STR_CTL_ENABLE, 1, 31), (F.HST_STR_CTL_PORT, 3, 31),
      (F.HST_STR_DST_ADDR, dst, 31), (F.HST_PORT_MAP_MAP_EN, 1, 3), (F.HST_ACL_CTL_ENABLE, 1, 15), (F.HST_ACL_CTL_PREFIX, 24, 15),
      (F.HST_ACL_ADDR_ADDR, 0xC0A80000, 15), (F.HST_MAP_CFG_CTRL_RATE, 4, 0), (F.KLN_MAP_CTL_ENABLE, 1, 7), (F.KLN_MAP_ID_MAP_ID, 1, 7),
      (F.KLN_MAP_SIZE_MAP_BLOCKS, 4, 7), (F.KLN_MAP_EPOCH_EPOCH, 9, 7), (F.FRM_LM_CAP_ENTRIES, 4096, 0)] with hst := h }

theorem witness_EthernetServices :
    (let s : State := { ethPart 0xE0000001 { arpWait := [(3, 0xC0A80002)], streams := [(31, { held := [[0#8]], out := [[[0#8]]] })] } with tm := { tick := 10 ^ 9 } }
     s.up = true ∧ s.portServes 3 = true ∧ s.portServes 2 = false ∧ (3, 0xC0A80002) ∈ s.hst.arpWait ∧ (s.stream 31).held ≠ [] ∧ (s.stream 31).since + 500000 ≤ s.mono ∧ loadedPart.mono < (s.stream 31).since + 500000
       ∧ (s.stream 31).out = [[0#8]] :: [] ∧ s.portServes (s.streamHdr 31).port = true ∧ isMulti (s.streamHdr 31).dst = true
       ∧ s.fb F.HST_STR_CTL_ENABLE 31 = true ∧ s.sesState (s.f F.HST_STR_CTL_SESSION 31) = 0)
    ∧ (let s := ethPart 0xC0A80002 { streams := [(31, { out := [[[0#8]]] })] }
       (s.stream 31).out = [[0#8]] :: [] ∧ s.portServes (s.streamHdr 31).port = true ∧ isMulti (s.streamHdr 31).dst = false ∧ s.hst.arp = [])
    ∧ (let r : TileReq := { port := 3, src := 0xC0A80002, sport := 5, map := 1, tiles := [3] }
       let s := ethPart 0 { arp := [(3, 0xC0A80002, 1)] }
       let s : State := { s with mem := [(56, 10#8), (60, 1#8)] }
       s.loaded = true ∧ s.portServes r.port = true ∧ s.fb F.HST_PORT_MAP_MAP_EN r.port = true ∧ r.dport = s.f F.HST_PORT_MAP_MAP_UDP r.port ∧ s.aclOk r.src = true ∧ r.multicast = false ∧ r.ok = true
         ∧ r.tiles = [3] ∧ isMulti r.src = false ∧ (∃ e ∈ s.hst.arp, e.1 = r.port ∧ e.2.1 = s.nextHop r.port r.src) ∧ s.hst.reqCount + 1 ≤ s.ctrlRate
         ∧ s.mapOfId r.map = some 7 ∧ 3 < s.mapBlocks 7 ∧ s.blockUsed 7 3 = true ∧ r.since < s.rdNum (s.descAddr 7 3 + 8) 4
         ∧ (∀ n < 32, s.fb F.LNK_SHARED_RGN_ENABLE n = false) ∧ s.mapBlocks 7 ≤ 4 ∧ s.mapOfId 2 = none ∧ r.since < s.f F.KLN_MAP_EPOCH_EPOCH 7
         ∧ 3 * 65536 < s.f F.FRM_LM_CAP_ENTRIES * 64)
    ∧ (let s := ethPart 0 { reqCount := 4 }
       0 < s.hst.reqCount ∧ s.mono < s.hst.reqWindow + 1000000000 ∧ s.ctrlRate ≤ s.hst.reqCount) := by decide +kernel

/-- A ring of three on part 1 in a given role, its master member 0, both ports up. -/
def linkPart (role state : Nat) (x : LinkPort) (l : LnkSt) : State :=
  { part [(F.LNK_STATUS_ROLE, role, 0), (F.LNK_STATUS_MY_ID, 1, 0), (F.LNK_STATUS_MASTER_NOW, if role = 1 then 1 else 0, 0), (F.LNK_CFG_N_M1, 2, 0),
      (F.LNK_STATUS_REACH, 5, 0), (F.LNK_PORT_CTL_ENABLE, 1, 0), (F.LNK_PORT_CTL_ENABLE, 1, 1), (F.LNK_PORT_STATUS_STATE, state, 0),
      (F.LNK_PORT_STATUS_STATE, state, 1), (F.LNK_MBR_STATE_STATE, 3, 0), (F.LNK_MBR_STATE_STATE, 3, 2), (F.PWR_TEMP_NOW, 400, 22),
      (F.PWR_TEMP_NOW, 400, 23), (F.LNK_PORT_UCW_LIMIT_LIMIT, 1, 1)] with lnk := { l with ports := [(1, x)] } }

theorem witness_RamhelLinks :
    (∀ st ∈ [0, 1, 2, 3, 4, 5, 6], (linkPart 3 st { trying := true } {}).up = true ∧ (linkPart 3 st { trying := true } {}).linkOn 1 = true
      ∧ ((linkPart 3 st { trying := true } {}).linkPort 1).trying = true ∧ bitOf (linkPart 3 st {} {}).pw.oeHot 1 = false
      ∧ (linkPart 3 st {} {}).f F.LNK_PORT_STATUS_STATE 1 = st ∧ (linkPart 3 st {} {}).engineOk 1 = true)
    ∧ ((linkPart 3 5 { hello := 1 } {}).linkPort 1).hello = 1 ∧ (linkPart 3 5 {} {}).helloCheck 1 2 0 0x73 0 false = 0
    ∧ (1 + 1) % (linkPart 3 5 {} {}).ringN = 2
    ∧ (let s := linkPart 3 0 {} {}
       s.linkOn 1 = true ∧ (s.linkPort 1).trying = false ∧ s.f F.LNK_PORT_STATUS_STATE 1 = 0 ∧ bitOf s.pw.oeHot 1 = false)
    ∧ (let h : FrameHdr := { port := 1, src := 1 }
       let s := linkPart 3 7 { replay := [(h, .heartbeat 0)], resends := 8, ucw := [0] } {}
       s.portUp 1 = true ∧ (s.linkPort 1).replay ≠ [] ∧ 8 ≤ (s.linkPort 1).resends ∧ s.f F.LNK_PORT_UCW_LIMIT_LIMIT 1 ≤ (s.linkPort 1).ucw.length
         ∧ (∀ x ∈ (s.linkPort 1).ucw, s.mono < x + 1000000000) ∧ s.linkOn 1 = true)
    ∧ (fields (linkPart 3 7 {} {}) [(F.LNK_PORT_STATUS_LANES_UP, 255, 1)]).f F.LNK_PORT_STATUS_LANES_UP 1 = 255
    ∧ (∀ b < 2, (fields (linkPart 3 7 {} {}) [(F.LNK_PORT_CTL_HALF_OK, b, 1)]).fb F.LNK_PORT_CTL_HALF_OK 1 = decide (b = 1)) := by decide +kernel

/-- A frame in link order from member 0. -/
def rxHdr : FrameHdr := { port := 0, src := 0, dst := 0xFF }

theorem witness_RamhelRing :
    (∀ role ∈ [1, 2, 3], let s := linkPart role 7 {} {}
     s.up = true ∧ s.role = role ∧ s.portUp rxHdr.port = true ∧ rxHdr.crcOk = true ∧ rxHdr.seq = (s.linkPort rxHdr.port).rx ∧ rxHdr.src < 16
       ∧ rxHdr.src ≠ s.deviceId ∧ rxHdr.dst = 0xFF ∧ s.f F.LNK_MBR_STATE_STATE rxHdr.src ≠ 4 ∧ s.lnk.held = [] ∧ s.mm.poison = []
       ∧ tget 0 s.lnk.got (rxHdr.src * 4) = 0 ∧ (0 : Nat) ∉ tget [] s.lnk.ops rxHdr.src ∧ s.inCascade = true ∧ s.lnk.acks = []
       ∧ 2 < s.ringN ∧ s.hst.tiles = [] ∧ tget 0 s.lnk.heard 2 = 0
       ∧ 2000 * s.f F.LNK_TIMING_HB_US ≤ ({ s with tm := { tick := 10 ^ 12 } } : State).mono ∧ (role = 1 → s.joined = true ∧ s.f F.LNK_MBR_STATE_STATE 2 = 3
           ∧ quorum s.ringN ≤ popCount 16 (setBit (clrBit (s.f F.LNK_STATUS_REACH) 2) s.deviceId))
       ∧ (role ≠ 1 → (s.route rxHdr.src).map (·.1) = some rxHdr.port ∧ rxHdr.src = s.f F.LNK_STATUS_MASTER_NOW)
       ∧ (s.linkPort 0).replay.length < 256 ∧ (s.linkPort 1).replay.length < 256)
    ∧ (∃ reach, Safety.frameRx rxHdr (.heartbeatRx rxHdr reach)) ∧ tget 0 ({ got := [(0, 9)] } : LnkSt).got (rxHdr.src * 4) = 9
    ∧ 7 < 2 ^ 32 ∧ 7 + 1 < 9 ∧ 9 ≤ 7 + 2 ^ 31 :=
  ⟨by decide +kernel, ⟨0, .inl ⟨0, rfl⟩⟩, by decide, by decide, by decide, by decide⟩
theorem witness_RamhelRing_changes :
     let e : TallyEnt := { index := 9, flags := 3 }
     let m : Nat × Nat × Nat × List Byte := (5, 0, 65536, [0#8])
     let s : State := { linkPart 1 7 {} { mine := [m], wait := [([5], 9, 1, none)] } with dsp := { graph := { tallies := [e] } } }
     s.tallyEnt 9 = some e ∧ bitOf e.flags 0 = true ∧ bitOf e.flags 1 = true ∧ s.lnk.mine = [m] ∧ s.lnk.wait = [([5], 9, 1, none)] ∧ s.loaded = true
       ∧ s.reach 0 = true ∧ s.isCascade 9 = true ∧ s.mm.fresh = []
       ∧ (linkPart 1 7 {} { reads := [(6, 0, 3, 1)] }).lnk.reads = [(6, 0, 3, 1)] := by decide +kernel
theorem witness_RamhelRing_members :
    (let x : Sent := { dst := 0, cls := 1, seq := 4, body := .heartbeat 0, owed := [0] }
     (linkPart 3 7 {} { sent := [x] }).lnk.sent = [x] ∧ x.cls = 1 ∧ x.seq = 4 ∧ x.dst = rxHdr.src ∧ x.owed = [rxHdr.src])
    ∧ (∀ st ∈ [0, 1, 2], (fields (linkPart 3 7 {} {}) [(F.LNK_MBR_STATE_STATE, st, 1)]).f F.LNK_MBR_STATE_STATE 1 = st)
    ∧ (let s := fields (linkPart 1 7 {} {}) [(F.LNK_MBR_STATE_STATE, 0, 0)]
       s.role = 1 ∧ rxHdr.src < s.ringN ∧ s.f F.LNK_MBR_STATE_STATE rxHdr.src = 0)
    ∧ (let s := fields (linkPart 2 7 {} {}) [(F.LNK_STATUS_REACH, 4, 0)]
       s.role = 2 ∧ bitOf (s.f F.LNK_STATUS_REACH) (s.f F.LNK_STATUS_MASTER_NOW) = false ∧ s.hasQuorum = true
         ∧ s.f F.LNK_MBR_STATE_STATE s.deviceId ≠ 4 ∧ s.f F.LNK_STATUS_MASTER_NOW ≠ s.deviceId)
    ∧ (let s := fields (linkPart 1 7 {} {}) [(F.LNK_STATUS_REACH, 0, 0)]
       s.role = 1 ∧ s.hasQuorum = false)
    ∧ (let s := fields (linkPart 1 7 {} {}) [(F.LNK_MBR_STATE_STATE, 2, 15)]
       s.role = 1 ∧ s.f F.LNK_MBR_STATE_STATE 15 = 2) := by decide +kernel

/-- A section and an image with signatures that verify with the image's public key, and fuses that take it. -/
def goodSect : Sect :=
  let e : Sect := { typ := 1, fmt := 1 }
  { e with sig := { key := ({} : Image).pubDigest, msg := e.msg } }
def goodImage : Image :=
  let i : Image := { count := 1, len := 8192, sects := [goodSect] }
  { i with hdrSig := { key := i.pubDigest, msg := Config.sm3 i.signedBytes } }
def goodOtp : Otp := { keys := [{ used := true, programmed := true, digest := ({} : Image).pubDigest }, {}, {}, {}] }

/-- A slot that holds it passes the ROM's checks. -/
theorem witness_goodImage : slotError goodOtp ({} : Flash).slotSize (some goodImage) = none := by
  have hs : goodImage.hdrSigOk = true := by
    show (goodImage.hdrSig.key == goodImage.hdrSig.key && goodImage.hdrSig.msg == goodImage.hdrSig.msg) = true
    simp only [beq_self_eq_true, Bool.and_self]
  have hk : (nth {} goodOtp.keys 0).digest = goodImage.pubDigest := rfl
  have hg : goodSect.reads goodImage.pubDigest = (0, true) := by
    have h : goodSect.good goodImage.pubDigest = true := by
      show (goodSect.digest == goodSect.digest && goodSect.sig.key == goodSect.sig.key && goodSect.sig.msg == goodSect.sig.msg) = true
      simp only [beq_self_eq_true, Bool.and_self]
    simp only [Sect.reads, h]; decide
  have hh : goodImage.headerOk ({} : Flash).slotSize = true := by decide +kernel
  have he : (goodImage.entryOk goodSect && goodImage.apart ((goodImage.find 1).getD 0xFF) goodSect) = true := by decide +kernel
  have hf : goodImage.sects.filter (fun e => e.typ == 1) = [goodSect] := rfl
  have hp : ((nth {} goodOtp.keys 0).programmed && !(nth {} goodOtp.keys 0).revoked) = true := rfl
  have hi : goodImage.keySlot = 0 ∧ goodImage.secver = 0 ∧ goodImage.partMask = 7 ∧ goodOtp.svc = 0 ∧ bitOf 7 (partBit goodOtp.part) = true :=
    ⟨rfl, rfl, rfl, rfl, by decide⟩
  simp [slotError, hs, hk, hg, hh, he, hf, hp, hi]

theorem witness_EventLogLife :
    loadedPart.pw.thermtripN = true ∧ loadedPart.up = true ∧ loadedPart.pw.mode ≠ .off ∧ loadedPart.awake = true
    ∧ ({ loadedPart with pw := { loadedPart.pw with pwrgd := true } } : State).pw.pwrgd = true := by decide +kernel

/-- A running part with a request in the mailbox: opcode and the words after it. -/
def mbxPart (op : Nat) (l : List Nat) (f : List (Fld × Nat × Nat)) : State :=
  let s := part ((F.HST_MBX_REQ_DATA, op, 0) :: (List.range l.length).map (fun k => (F.HST_MBX_REQ_DATA, nth 0 l k, k + 1)) ++ f)
  { s with pw := { s.pw with mode := .running } }

theorem witness_Mailbox :
    (∀ e ∈ Safety.mbxCmds 7, let s := mbxPart e.2 [] []
     s.mbxOpen = true ∧ s.reqOp = e.2 ∧ s.f F.HST_MBX_STATUS_STATE ≠ 1 ∧ s.hst.drop = false ∧ s.serves s.reqOp = true ∧ s.reqOp ∈ mbxOps
       ∧ s.longBusy = false ∧ s.updating = false)
    ∧ (mbxPart 1 [] [(F.HST_MBX_STATUS_STATE, 1, 0)]).f F.HST_MBX_STATUS_STATE = 1
    ∧ (part [(F.HST_MBX_REQ_DATA, 0x34, 0)]).serves 0x34 = false ∧ (part [(F.HST_MBX_REQ_DATA, 0x34, 0)]).mbxOpen = true
    ∧ (mbxPart 0x35 [] []).reqOp ∉ mbxOps ∧ (mbxPart 0x35 [] []).pw.mode = .running
    ∧ ({ loadedPart with hst := { dma := some 7 } } : State).hst.dma = some 7 := by decide +kernel
theorem witness_Mailbox_sessions :
    (∀ op ∈ [0x10, 0x11], let s := mbxPart op [0, 31] [(F.FRM_SES_CTL_ENABLE, 1, 31), (F.BOOT_SESSION_HOST_MASK, 0xFFFFFFFF, 0)]
     s.reqOp = op ∧ s.reqNum 8 1 = 31 ∧ s.sesOn 31 = true ∧ bitOf (s.f F.BOOT_SESSION_HOST_MASK) 31 = true)
    ∧ (mbxPart 0x10 [] []).sesOn 0 = false ∧ (mbxPart 0x20 [0, 0xFF] []).reqNum 8 1 = 0xFF
    ∧ (let s := mbxPart 0x20 [0, 9 + 256] []
       s.reqNum 8 1 = 9 ∧ s.reqNum 9 2 = 1 ∧ 1 < builtOf 9 * groupsOf 9 ∧ (s.unitSt 9 1).out = false ∧ (9, 1) ∉ s.dsp.queued
         ∧ builtOf 9 * groupsOf 9 ≤ 256)
    ∧ (fields loadedPart [(F.SEC_STATUS_ID_FAIL, 1, 0)]).fb F.SEC_STATUS_ID_FAIL = true ∧ loadedPart.fb F.SEC_STATUS_ID_FAIL = false := by
  decide +kernel
theorem witness_Mailbox_staging :
    (∀ st ∈ [0, 4, 5, 2, 6], let s := mbxPart 0x30 [0, 8192] [(F.SEC_STAGE_STATE, st, 0)]
     s.reqOp = 0x30 ∧ s.longBusy = false ∧ s.f F.SEC_STAGE_STATE = st ∧ s.reqNum 8 4 = 8192 ∧ 8192 ≤ s.fl.slotSize)
    ∧ (mbxPart 0x30 [0, 100] []).reqNum 8 4 < 4096 ∧ (mbxPart 0x30 [] [(F.SEC_STAGE_STATE, 1, 0)]).longBusy = true
    ∧ (let s : State := { mbxPart 0x31 [0, 65536, 0, 4096, 4096] [(F.SEC_STAGE_STATE, 2, 0)] with sec := { stageLen := 8192, written := [0] } }
       s.reqOp = 0x31 ∧ s.longBusy = false ∧ s.f F.SEC_STAGE_STATE = 2 ∧ s.reqNum 8 8 = 65536 ∧ s.reqNum 16 4 = 4096 ∧ s.reqNum 20 4 = 4096
         ∧ 4096 + 4096 ≤ s.sec.stageLen ∧ (∀ b ∈ blocksOf 4096 4096, b ∉ s.sec.written) ∧ ∃ b ∈ blocksOf 0 4096, b ∈ s.sec.written)
    ∧ (let s : State := { mbxPart 0x32 [] [(F.SEC_STAGE_STATE, 2, 0)] with sec := { stageLen := 4096, written := [0] } }
       s.longBusy = false ∧ s.f F.SEC_STAGE_STATE = 2 ∧ s.sec.written.length = s.sec.stageLen / 4096)
    ∧ (let o : Staged := {}
       let s : State := { mbxPart 0x34 [] [(F.SEC_STAGE_STATE, 4, 0)] with
           bt := { slot := some true }, fl := { dir0 := { erased := false, b := { state := 3 } }, staged := some o } }
       s.longBusy = false ∧ s.f F.SEC_STAGE_STATE = 4 ∧ s.fl.staged = some o ∧ s.bt.slot = some true ∧ (s.fl.slotDir true).state = 3
         ∧ ({ s with fl := {} } : State).fl.staged = none ∧ (({} : Flash).slotDir true).state ≠ 3)
    ∧ (mbxPart 0x33 [] [(F.SEC_UPDATE_STATE, 3, 0)]).updating = true := by decide +kernel

theorem witness_FieldUpdate :
    (∀ st ∈ [1, 3], (part [(F.SEC_STAGE_STATE, st, 0)]).f F.SEC_STAGE_STATE = st)
    ∧ (∀ st ∈ [1, 2, 3, 4, 5], (part [(F.SEC_UPDATE_STATE, st, 0)]).f F.SEC_UPDATE_STATE = st ∧ (part [(F.SEC_UPDATE_STATE, st, 0)]).up = true)
    ∧ (let s : State := { loadedPart with sec := { inData := some (0, 4096) } }
       s.sec.inData = some (0, 4096) ∧ s.hst.dma = none)
    ∧ loadedPart.stageFault { word0 := 0 } = some 0x0E ∧ (0x0E : Nat) < 256
    ∧ (let o : Staged := {}
       let s : State := { part [(F.SEC_UPDATE_STATE, 1, 0)] with fl := { staged := some o } }
       s.fl.staged = some o ∧ ∀ e ∈ (s.assemble o).sects, e.used = true → e.good (s.assemble o).pubDigest = true)
    ∧ (let s := part [(F.SEC_UPDATE_STATE, 3, 0)]
       s.rehearse.settingsFault s.sec.newImg = none ∧ s.rehearse.missingUnit s.sec.newImg = none ∧ s.sec.newImg.layerFault = none)
    ∧ (let i : Image := { kettles := 99 }
       let s : State := { part [(F.SEC_UPDATE_STATE, 3, 0)] with sec := { newImg := i } }
       s.rehearse.settingsFault s.sec.newImg = none ∧ s.rehearse.missingUnit s.sec.newImg ≠ none) := by decide +kernel
theorem witness_FieldUpdate_activation :
    (let o : Staged := { img := goodImage }
     let s : State := { part [(F.SEC_UPDATE_STATE, 1, 0)] with otp := goodOtp, fl := { staged := some o } }
     s.fl.staged = some o ∧ s.assemble o = goodImage ∧ slotError s.otp s.fl.slotSize (some (s.assemble o)) = none) :=
  ⟨rfl, rfl, witness_goodImage⟩
theorem witness_FieldUpdate_rollout :
    (∀ l ∈ [[], [0, 1]], let s : State := { part [(F.SEC_UPDATE_STATE, 5, 0)] with sec := { reloaded := l } }
     s.f F.SEC_UPDATE_STATE = 5 ∧ 2 ∉ s.sec.reloaded ∧ s.sec.reloaded = l ∧ rolledClasses s.bt.img s.sec.newImg = [])
    ∧ (let e : Sect := { typ := 3, fmt := 1 }
       let i : Image := { sects := [e] }
       rolledClasses ({} : Image) i = [0xA])
    ∧ (let s : State := { part [(F.SEC_UPDATE_STATE, 5, 0)] with sec := { reloaded := [0, 1, 2], rolling := [9, 5] } }
       3 ≤ s.sec.reloaded.length ∧ s.sec.rolling.head? = some 9 ∧ s.freeSpares 9 0 = 4 :: [] ∧ s.oldPlace 9 = some (0, 0) ∧ 9 < 0xD ∧ s.inTask 9 0 = false
         ∧ s.sec.rolling.drop 1 ≠ [])
    ∧ (let s : State := { part [(F.SEC_UPDATE_STATE, 5, 0)] with sec := { reloaded := [0, 1, 2], rolling := [5] }, mill := { lanes := [(0, (1, 0))] } }
       s.freeSpares 5 0 = 4 :: [] ∧ s.oldPlace 5 = some (0, 0) ∧ s.inTask 5 0 = true) := by decide +kernel

theorem witness_ManagementPorts : loadedPart.awake = true ∧ loadedPart.otp.debugLock = false
    ∧ ({ loadedPart with otp := { debugLock := true } } : State).otp.debugLock = true := by decide +kernel

/-- A part whose compute sensors read `t` sixteenths of a degree, with a fused and a set voltage. -/
def avsPart (fuse set : Nat) (t : Nat) : State :=
  part ((F.PWR_AVS_FUSE_MV, fuse, 0) :: (F.PWR_AVS_SET_SET_MV, set, 0) :: (List.range 16).map (fun k => (F.PWR_TEMP_NOW, t, k)))

theorem witness_CoreVoltage :
    (∀ e ∈ [(700, 700, 1360), (700, 720, 1360), (720, 700, 1360)], let s := avsPart e.1 e.2.1 e.2.2
     s.up = true ∧ (∀ k < 16, s.fs F.PWR_TEMP_NOW k ≤ s.fs F.PWR_TEMP_NOW 15) ∧ s.f F.PWR_STATUS_AVS ≠ 2
       ∧ Nat.min 850 (Nat.max 650 (ceilDiv (32 * s.f F.PWR_AVS_FUSE_MV + (1360 - s.fs F.PWR_TEMP_NOW 15).toNat) 160 * 5)) = e.1
       ∧ s.f F.PWR_AVS_SET_SET_MV = e.2.1)
    ∧ (part [(F.PWR_STATUS_AVS, 2, 0)]).f F.PWR_STATUS_AVS = 2 ∧ loadedPart.f F.DSP_COOPER_SHED_LEVEL = 0
    ∧ 2 ≤ (part [(F.DSP_COOPER_SHED_LEVEL, 2, 0)]).f F.DSP_COOPER_SHED_LEVEL := by decide +kernel

theorem witness_SuppliesAndReset :
    State.reset.pw.mode = .reset ∧ State.reset.pw.mode ≠ .off
    ∧ (let s : State := { State.reset with pw := { mode := .off, rails := 0x3FF, pwrgd := false } }
       s.pw.mode = .off ∧ s.pw.rails = 0x3FF ∧ s.pw.pwrgd = false)
    ∧ ({ loadedPart with pw := { loadedPart.pw with pwrgd := true } } : State).pw.pwrgd = true ∧ loadedPart.awake = true := by decide +kernel

/-- A part held in reset with a flash. -/
def heldPart (fl : Flash) : State := { State.reset with otp := goodOtp, fl := fl }

theorem witness_StartBegins :
    (∀ ok ∈ [true, false], let s := heldPart { sfdpOk := ok, dir0 := { erased := false, staging := 1 } }
     s.pw.mode = .reset ∧ s.pw.pwrgd = true ∧ s.pw.sysResetN = false ∧ s.fl.sfdpOk = ok ∧ s.fl.dir.staging = 1 ∧ (s.fl.slotDir false).state = 0
       ∧ (s.fl.slotDir true).state = 0)
    ∧ loadedPart.up = true ∧ loadedPart.pw.thermtripN = true ∧ ({ loadedPart.pw with thermtripN := false } : PwrSt).thermtripN = false := by decide +kernel
theorem witness_StartBegins_slot :
    let s := heldPart { dir0 := { erased := false, staging := 1, a := { state := 1 } }, slotA := some goodImage }
    s.fl.sfdpOk = true ∧ s.fl.dir.staging = 1 ∧ (s.fl.slotDir false).state = 1 ∧ (s.fl.slotDir true).state = 0
      ∧ slotError s.otp s.fl.slotSize s.fl.slotA = none := ⟨rfl, rfl, rfl, rfl, witness_goodImage⟩

theorem witness_Temperatures : loadedPart.awake = true
    ∧ (∀ n < 22, bitOf loadedPart.pw.seen n = false ∧ -32768 ≤ loadedPart.tempLimit n + 160 ∧ loadedPart.tempLimit n + 160 < 32768)
    ∧ (∀ n < 24, 22 ≤ n → bitOf loadedPart.pw.oeHot (n - 22) = false ∧ loadedPart.tempLimit n + 1 < 32768)
    ∧ bitOf ({ loadedPart.pw with seen := 2 ^ 21 } : PwrSt).seen 21 = true := by decide +kernel

theorem witness_TensorNumbers : 65504 < 65505 ∧ -2147483648 ≤ (0 : Int) + 0 ∧ (0x7F800000 : Nat) % fp32.sign ≤ fp32.inf ∧ fp32.special 0 = false
    ∧ VFn.hardSwish.exact (fp32.dec 0) % fp32.sign ≤ fp32.inf := by decide +kernel

theorem witness_InvStep : step State.reset = .next State.reset ∧ Safety.Inv State.reset := ⟨rfl, by unfold Safety.Inv; decide +kernel⟩
theorem witness_Frames : ∃ t : State, exec .deviceTimeTick loadedPart = .next t := ⟨_, rfl⟩

end Sys2Proof.Tests
end

section
/-!
PROOFS. Host accesses to BAR0 (chapter 00, R6 to R9): which register answers, what a write does by its register's access type, and what a
read answers.
-/

namespace Sys2Proof.Machine
open Sys2Proof Sys2Proof.Safety

/-! ## Which register answers -/

theorem Reg.addr_of_instanceAt {r : Reg} {a i j : Nat} (h : r.instanceAt a = some (i, j)) : r.addr i j = a := by
  simp only [Reg.instanceAt, Option.ite_none_left_eq_some, Option.ite_none_right_eq_some, Option.some.injEq, Prod.mk.injEq] at h
  obtain ⟨_, ⟨_, _, ha⟩, hi, hj⟩ := h
  rwa [hj, hi] at ha

theorem regFind_addr {a : Nat} {r : Reg} {i j : Nat} : ∀ l : List Reg, regFind a l = some (r, i, j) → r.addr i j = a
  | [], h => by cases h
  | q :: l, h => by
    unfold regFind at h
    split at h
    · rename_i hq
      cases h
      exact Reg.addr_of_instanceAt hq
    · exact regFind_addr l h

/-- The register and indexes that an address names lie at that address. -/
theorem regAt_addr {a : Nat} {r : Reg} {i j : Nat} (h : regAt a = some (r, i, j)) : r.addr i j = a := regFind_addr _ h

theorem State.reach_of_windowOpen {s : State} {w : Nat} (h : s.windowOpen w = true) : s.reach 0 = true := by
  rw [State.windowOpen, Bool.and_eq_true] at h
  exact h.1

theorem State.reach_of_addrOpen {s : State} {addr : Nat} (h : s.addrOpen addr = true) : s.reach 0 = true := by
  simp only [State.addrOpen, Bool.or_eq_true, Bool.and_eq_true] at h
  rcases h with h | ⟨⟨h, _⟩, _⟩
  · exact State.reach_of_windowOpen h
  · exact h

theorem State.readOpen_of_addrOpen {s : State} {addr : Nat} (h : s.addrOpen addr = true) : s.readOpen addr = true := by
  rw [State.readOpen, h, Bool.true_or]

theorem State.addrOpen_of_windowOpen {s : State} {addr : Nat} (h : s.windowOpen (addr / 0x100000) = true) : s.addrOpen addr = true := by
  rw [State.addrOpen, h, Bool.true_or]

/-- A register answers the host at an aligned address that is open. -/
theorem State.target_eq_some {s : State} {addr : Nat} {x : Reg × Nat × Nat} :
    s.target addr = some x ↔ (addr % 4 = 0 ∧ s.addrOpen addr = true) ∧ regAt addr = some x := by
  unfold State.target
  split <;> simp [*]

theorem State.readTarget_eq_some {s : State} {addr : Nat} {x : Reg × Nat × Nat} :
    s.readTarget addr = some x ↔ (addr % 4 = 0 ∧ s.readOpen addr = true) ∧ regAt addr = some x := by
  unfold State.readTarget
  split <;> simp [*]

theorem State.readTarget_of_target {s : State} {addr : Nat} {x : Reg × Nat × Nat} (h : s.target addr = some x) : s.readTarget addr = some x := by
  rw [State.target_eq_some] at h
  rw [State.readTarget_eq_some]
  exact ⟨⟨h.1.1, State.readOpen_of_addrOpen h.1.2⟩, h.2⟩

theorem State.reach_of_target {s : State} {addr : Nat} {x : Reg × Nat × Nat} (h : s.target addr = some x) : s.reach 0 = true :=
  State.reach_of_addrOpen (State.target_eq_some.mp h).1.2

/-! ## What the commands of a host write do at a register and where none answers -/

section
variable {s : State} {addr : Nat} (v : Nat)

theorem regWrite_vector (hv : pfVectorAt addr = true) (ho : s.windowOpen 0xD = true) :
    regWrite addr v s = s.msixWrite 0 (addr - 0xD10000) v := by
  rw [regWrite, if_pos hv, if_pos ho]

theorem regWrite_none (hv : pfVectorAt addr = false) (h : s.target addr = none) : regWrite addr v s = s := by
  simp [regWrite, hv, h]

theorem eventBitsClear_none (same : Nat) (h : s.target addr = none) : eventBitsClear addr v same s = s := by
  simp [eventBitsClear, h]

theorem blRegisterWrite_none (h : s.target addr = none) : blRegisterWrite addr s = s := by
  simp [blRegisterWrite, h]

theorem reg64LoWrite_none (h : s.target addr = none) : reg64LoWrite addr v s = s := by
  simp [reg64LoWrite, h]

theorem reg64HiWrite_none (h : s.target addr = none) : reg64HiWrite addr v s = s := by
  simp [reg64HiWrite, h]

variable {r : Reg} {i j : Nat} (h : s.target addr = some (r, i, j))
include h

theorem regWrite_target (hv : pfVectorAt addr = false) : regWrite addr v s = s.writeReg r i j addr v := by
  simp [regWrite, hv, h]

theorem eventBitsClear_target (same : Nat) :
    eventBitsClear addr v same s = if r.w1c = 0 then s else (s.clearBits r i j v).setSame r i j same := by
  simp [eventBitsClear, h]

theorem blRegisterWrite_target : blRegisterWrite addr s = if r.bl ≠ 0 then s.blViolation addr else s := by
  simp [blRegisterWrite, h]

theorem reg64LoWrite_target : reg64LoWrite addr v s = if rwPair r then s.loPending addr v else s := by
  simp [reg64LoWrite, h]

theorem reg64HiWrite_target :
    reg64HiWrite addr v s = if r = R.DSP_HOST_WAIT_TH_HI ∨ r = R.HST_RING_RD_HI then s.hiWrite r i addr v else s := by
  simp [reg64HiWrite, h]

end

/-! ## A write by its register's access type (Table 0-4) -/

section
variable (s : State) (i j addr v : Nat)

theorem State.writeReg_bl {r : Reg} (h : r.bl ≠ 0) : s.writeReg r i j addr v = s.blViolation addr := by
  rw [State.writeReg, if_pos h]

theorem State.writeReg_w1c {r : Reg} (hb : r.bl = 0) (hw : r.w1c ≠ 0) : s.writeReg r i j addr v = s.clearBits r i j v := by
  rw [State.writeReg, if_neg (not_not_intro hb), if_pos hw]

/-- A register whose every bit is read-only or reserved: each register with an effect of its own has a bit of type RW or WO. -/
theorem State.writeReg_readOnly {r : Reg} (hrw : r.rw = 0) (hw1c : r.w1c = 0) (hwo : r.wo = 0) (hbl : r.bl = 0) :
    s.writeReg r i j addr v = s := by
  have ne : ∀ q : Reg, q.rw ≠ 0 ∨ q.wo ≠ 0 → r ≠ q := by
    rintro q hq rfl
    exact hq.elim (· hrw) (· hwo)
  simp [State.writeReg, hbl, hw1c, rwPair, ne R.HST_MBX_REQ (by decide), ne R.HST_MBX_DOORBELL (by decide), ne R.DSP_HOST_ADV (by decide),
    ne R.DSP_HOST_WAIT_CTL (by decide), ne R.DSP_HOST_WAIT_TH_LO (by decide), ne R.HST_RING_RD_LO (by decide),
    ne R.DSP_HOST_WAIT_TH_HI (by decide), ne R.HST_RING_RD_HI (by decide)]

theorem State.writeReg_mbxReq : s.writeReg R.HST_MBX_REQ i j addr v = s.setWord R.HST_MBX_REQ (BitVec.ofNat 32 v) i := rfl

/-- The fields of a write of DSP_HOST_ADV: the Tally in the upper half, the amount in the lower. -/
theorem State.writeReg_hostAdv (h : v < 2 ^ 32) :
    s.writeReg R.DSP_HOST_ADV i j addr v = hostTallyAdvance (v / 65536) (v % 65536) s := by
  have hi : fieldGet (BitVec.ofNat 32 v) F.DSP_HOST_ADV_INDEX.hi F.DSP_HOST_ADV_INDEX.lo = v / 65536 := by
    simp only [fieldGet, F.DSP_HOST_ADV_INDEX, BitVec.toNat_ofNat]
    omega
  have lo : fieldGet (BitVec.ofNat 32 v) F.DSP_HOST_ADV_AMOUNT.hi F.DSP_HOST_ADV_AMOUNT.lo = v % 65536 := by
    simp only [fieldGet, F.DSP_HOST_ADV_AMOUNT, BitVec.toNat_ofNat]
    omega
  rw [← hi, ← lo]
  rfl

/-- Bit 31 of a write of DSP_HOST_WAIT_CTL arms or disarms the slot, the lower half names the Tally. -/
theorem State.writeReg_waitCtl :
    s.writeReg R.DSP_HOST_WAIT_CTL i j addr v = if bitOf v 31 then hostWaitArm i (v % 65536) s else hostWaitDisarm i (v % 65536) s := by
  have hix : fieldGet (BitVec.ofNat 32 v) F.DSP_HOST_WAIT_CTL_INDEX.hi F.DSP_HOST_WAIT_CTL_INDEX.lo = v % 65536 := by
    simp only [fieldGet, F.DSP_HOST_WAIT_CTL_INDEX, BitVec.toNat_ofNat]
    omega
  have harm : (fieldGet (BitVec.ofNat 32 v) F.DSP_HOST_WAIT_CTL_ARM.hi F.DSP_HOST_WAIT_CTL_ARM.lo = 1) = (bitOf v 31 = true) := by
    simp only [fieldGet, F.DSP_HOST_WAIT_CTL_ARM, bitOf, BitVec.toNat_ofNat, beq_iff_eq, eq_iff_iff]
    omega
  have hw : s.writeReg R.DSP_HOST_WAIT_CTL i j addr v = s.waitCtl i v := rfl
  rw [hw, State.waitCtl]
  simp only [hix, harm]

theorem State.writeReg_rwPair {r : Reg} (h : r = R.DSP_HOST_WAIT_TH_LO ∨ r = R.HST_RING_RD_LO) :
    s.writeReg r i j addr v = s.loPending addr v := by
  rcases h with rfl | rfl <;> rfl

theorem State.writeReg_upper {r : Reg} (h : r = R.DSP_HOST_WAIT_TH_HI ∨ r = R.HST_RING_RD_HI) :
    s.writeReg r i j addr v = s.hiWrite r i addr v := by
  rcases h with rfl | rfl <;> simp +decide [State.writeReg]

end

theorem rwPair_iff {r : Reg} : rwPair r = true ↔ r = R.DSP_HOST_WAIT_TH_LO ∨ r = R.HST_RING_RD_LO := by
  simp [rwPair]

/-! ## W1C registers (R7) -/

theorem bitOf_eq_testBit (v n : Nat) : bitOf v n = v.testBit n := by
  rw [Nat.testBit_eq_decide_div_mod_eq]
  rfl

/-- A bit after a clear by `v` and a set by `same`, both held to the W1C bits `c`. -/
theorem bitOf_clear_set (w : Word) (v same c : Nat) {b : Nat} (hb : b < 32) :
    bitOf ((w &&& ~~~(BitVec.ofNat 32 v &&& BitVec.ofNat 32 c)) ||| (BitVec.ofNat 32 same &&& BitVec.ofNat 32 c)).toNat b
      = (bitOf w.toNat b && !(bitOf v b && bitOf c b) || bitOf same b && bitOf c b) := by
  have hof : ∀ n : Nat, (BitVec.ofNat 32 n).getLsbD b = n.testBit b := fun n => by
    rw [BitVec.getLsbD_ofNat, decide_eq_true hb, Bool.true_and]
  simp only [bitOf_eq_testBit, BitVec.testBit_toNat, BitVec.getLsbD_or, BitVec.getLsbD_and, BitVec.getLsbD_not, hof, hb, decide_true,
    Bool.true_and]

section
variable (s : State) (r : Reg) (i j v same : Nat)

theorem State.clearBits_w1c {r : Reg} (h : r.w1c ≠ 0) :
    s.clearBits r i j v = s.setWord r (s.word r i j &&& ~~~(BitVec.ofNat 32 v &&& BitVec.ofNat 32 r.w1c)) i j := by
  rw [State.clearBits, if_neg h]

theorem State.setSame_zero : s.setSame r i j 0 = s := by
  simp [State.setSame]

theorem State.word_setSame :
    (s.setSame r i j same).word r i j = s.word r i j ||| (BitVec.ofNat 32 same &&& BitVec.ofNat 32 r.w1c) := by
  unfold State.setSame
  dsimp only
  split
  · rename_i h
    rw [h]
    exact BitVec.or_zero.symm
  · exact State.word_setWord_same _ _ _ _ _

theorem touches_clearBits : Touches [r.addr i j] s (s.clearBits r i j v) := by
  unfold State.clearBits
  split
  · exact Touches.refl _ s
  · exact touches_setWord _ s r _ i j (by simp)

theorem touches_setSame : Touches [r.addr i j] s (s.setSame r i j same) := by
  unfold State.setSame
  dsimp only
  split
  · exact Touches.refl _ s
  · exact touches_setWord _ s r _ i j (by simp)

end

/-! ## BL registers (R51) and the vectors of the PF (R405) -/

theorem blViolation_logs_access (s : State) (addr : Nat) : (s.blViolation addr).fb F.BOOT_EVT_ACCESS = true := by
  unfold State.blViolation
  rw [event_fb s 1 5 0 addr 0 0 F.BOOT_EVT_ACCESS rfl (by decide) rfl (by decide), Bool.or_eq_true, decide_eq_true_eq]
  exact .inr ⟨rfl, by decide, rfl⟩

theorem State.msixWord_irq (s : State) (fn vec fn' off : Nat) : (s.irq fn vec).msixWord fn' off = s.msixWord fn' off := by
  unfold State.irq
  split <;> rfl

theorem State.msixWord_msixWrite (s : State) (fn off v : Nat) : (s.msixWrite fn off v).msixWord fn off = v % 2 ^ 32 := by
  unfold State.msixWrite
  dsimp only
  split
  · rw [State.msixWord_irq]
    exact tget_tput_same _ _ _ _
  · exact tget_tput_same _ _ _ _

/-! ## Upper halves of RW pairs (R9) -/

/-- A register pair reads as the 64-bit value last written to it. -/
theorem State.pair_setPair (s : State) (lo hi : Reg) {x : Nat} (i : Nat) (hx : x < 2 ^ 64) (h : lo.addr i 0 ≠ hi.addr i 0) :
    (s.setPair lo hi x i).pair lo hi i = x := by
  unfold State.pair State.setPair
  rw [State.word_setWord_same, State.word_setWord_ne _ _ _ _ h, State.word_setWord_same, BitVec.toNat_ofNat, BitVec.toNat_ofNat]
  omega

/-- The value of a write of an upper half, with the pending lower half `p` (one more than it, 0 for none) or the one in force, is a 64-bit one. -/
theorem hiWrite_value_lt (v : Nat) (w : Word) {p : Nat} (h : p ≤ 2 ^ 32) :
    v % 2 ^ 32 * 2 ^ 32 + (if p = 0 then w.toNat else p - 1) < 2 ^ 64 := by
  have := w.isLt
  split <;> omega

theorem Only.hst_lo {m : Nat} {s t : State} (h : Only m s t) (hm : m.testBit 13 = false) : t.hst.lo = s.hst.lo :=
  (congrArg HstSt.lo (h.hst hm) :)

theorem ringIrq_hst_lo (s : State) (n : Nat) : (s.ringIrq n).hst.lo = s.hst.lo := by
  unfold State.ringIrq
  dsimp only
  split
  · rfl
  · exact State.irq_only.hst_lo (by decide)

theorem testSlot_threshold (s : State) (n i : Nat) :
    (s.testSlot n).pair R.DSP_HOST_WAIT_TH_LO R.DSP_HOST_WAIT_TH_HI i = s.pair R.DSP_HOST_WAIT_TH_LO R.DSP_HOST_WAIT_TH_HI i := by
  unfold State.pair
  rw [State.testSlot_only.word R.DSP_HOST_WAIT_TH_LO i 0 (by decide +kernel), State.testSlot_only.word R.DSP_HOST_WAIT_TH_HI i 0 (by decide +kernel)]

/-- The upper half of a wait threshold applies the 64-bit value, tests the slot and drops the pending half. -/
theorem hiWrite_threshold (s : State) (i addr v : Nat) {x : Nat} (hp : tget 0 s.hst.lo addr ≤ 2 ^ 32)
    (hx : x = v % 2 ^ 32 * 2 ^ 32 + (if tget 0 s.hst.lo addr = 0 then (s.word R.DSP_HOST_WAIT_TH_LO i).toNat else tget 0 s.hst.lo addr - 1)) :
    (s.hiWrite R.DSP_HOST_WAIT_TH_HI i addr v).pair R.DSP_HOST_WAIT_TH_LO R.DSP_HOST_WAIT_TH_HI i = x
      ∧ tget 0 (s.hiWrite R.DSP_HOST_WAIT_TH_HI i addr v).hst.lo addr = 0
      ∧ (s.hiWrite R.DSP_HOST_WAIT_TH_HI i addr v).mem = s.mem ∧ (s.hiWrite R.DSP_HOST_WAIT_TH_HI i addr v).tally = s.tally := by
  have hlt : x < 2 ^ 64 := hx ▸ hiWrite_value_lt v _ hp
  have heq : s.hiWrite R.DSP_HOST_WAIT_TH_HI i addr v
      = (({ s with hst.lo := tput 0 s.hst.lo addr 0 } : State).setPair R.DSP_HOST_WAIT_TH_LO R.DSP_HOST_WAIT_TH_HI x i).testSlot i := by
    rw [hx]
    simp [State.hiWrite]
  rw [heq]
  refine ⟨?_, ?_, State.testSlot_only.mem (by decide), State.testSlot_only.tally (by decide)⟩
  · rw [testSlot_threshold]
    exact State.pair_setPair _ _ _ i hlt (Reg.addr_ne (by decide) i 0 i 0)
  · rw [State.testSlot_only.hst_lo (by decide)]
    exact tget_tput_same 0 s.hst.lo addr 0

/-- RD of a ring within the unread entries: the pair holds it; memory and the pending halves stay. -/
theorem hstRingRdWrite_accepted (s : State) {n seq : Nat} (hn : n < 64) (hl : s.loaded = true) (hr : s.reach 0 = true) (hseq : seq < 2 ^ 64)
    (hlo : s.pair R.HST_RING_RD_LO R.HST_RING_RD_HI n ≤ seq) (hhi : seq ≤ s.pair R.HST_RING_WR_LO R.HST_RING_WR_HI n) :
    (hstRingRdWrite n seq s).pair R.HST_RING_RD_LO R.HST_RING_RD_HI n = seq ∧ (hstRingRdWrite n seq s).hst.lo = s.hst.lo
      ∧ (hstRingRdWrite n seq s).mem = s.mem := by
  have hset : (s.setPair R.HST_RING_RD_LO R.HST_RING_RD_HI seq n).pair R.HST_RING_RD_LO R.HST_RING_RD_HI n = seq :=
    State.pair_setPair _ _ _ n hseq (Reg.addr_ne (by decide) n 0 n 0)
  unfold hstRingRdWrite
  rw [if_neg (by simp [hl, hr]; omega)]
  dsimp only
  split
  · refine ⟨?_, ringIrq_hst_lo _ n, State.ringIrq_only.mem (by decide)⟩
    unfold State.pair State.word
    rw [State.ringIrq_only.regs (by decide) (by decide)]
    exact hset
  · exact ⟨hset, rfl, rfl⟩

/-- The upper half of a ring's read pointer applies the 64-bit value where it lies within the unread entries, and drops the pending half. -/
theorem hiWrite_readPointer (s : State) {i : Nat} (addr v : Nat) {x : Nat} (hp : tget 0 s.hst.lo addr ≤ 2 ^ 32)
    (hx : x = v % 2 ^ 32 * 2 ^ 32 + (if tget 0 s.hst.lo addr = 0 then (s.word R.HST_RING_RD_LO i).toNat else tget 0 s.hst.lo addr - 1))
    (hi : i < 64) (hl : s.loaded = true) (hr : s.reach 0 = true) (hlo : s.pair R.HST_RING_RD_LO R.HST_RING_RD_HI i ≤ x)
    (hhi : x ≤ s.pair R.HST_RING_WR_LO R.HST_RING_WR_HI i) :
    (s.hiWrite R.HST_RING_RD_HI i addr v).pair R.HST_RING_RD_LO R.HST_RING_RD_HI i = x
      ∧ tget 0 (s.hiWrite R.HST_RING_RD_HI i addr v).hst.lo addr = 0 ∧ (s.hiWrite R.HST_RING_RD_HI i addr v).mem = s.mem := by
  have hlt : x < 2 ^ 64 := hx ▸ hiWrite_value_lt v _ hp
  have heq : s.hiWrite R.HST_RING_RD_HI i addr v = hstRingRdWrite i x { s with hst.lo := tput 0 s.hst.lo addr 0 } := by
    rw [hx]
    simp [State.hiWrite, show R.HST_RING_RD_HI ≠ R.DSP_HOST_WAIT_TH_HI by decide]
  obtain ⟨hpair, hpend, hmem⟩ := hstRingRdWrite_accepted { s with hst.lo := tput 0 s.hst.lo addr 0 } hi hl hr hlt hlo hhi
  rw [heq]
  refine ⟨hpair, ?_, hmem⟩
  rw [hpend]
  exact tget_tput_same 0 s.hst.lo addr 0

/-! ## The commands of a host write, as outcomes -/

section
variable {s t : State} {addr v : Nat}

theorem exec_regWrite (h : regWrite addr v s = t) : exec (.regWrite addr v) s = .next t := congrArg Host.Outcome.next h
theorem exec_eventBitsClear {same : Nat} (h : eventBitsClear addr v same s = t) : exec (.eventBitsClear addr v same) s = .next t :=
  congrArg Host.Outcome.next h
theorem exec_blRegisterWrite (h : blRegisterWrite addr s = t) : exec (.blRegisterWrite addr v) s = .next t := congrArg Host.Outcome.next h
theorem exec_reg64LoWrite (h : reg64LoWrite addr v s = t) : exec (.reg64LoWrite addr v) s = .next t := congrArg Host.Outcome.next h
theorem exec_reg64HiWrite (h : reg64HiWrite addr v s = t) : exec (.reg64HiWrite addr v) s = .next t := congrArg Host.Outcome.next h

/-- A write of an upper half, by either command. -/
theorem exec_upper {r : Reg} {i j : Nat} (h : s.target addr = some (r, i, j)) (hv : pfVectorAt addr = false)
    (hr : r = R.DSP_HOST_WAIT_TH_HI ∨ r = R.HST_RING_RD_HI) :
    exec (.reg64HiWrite addr v) s = .next (s.hiWrite r i addr v) ∧ exec (.regWrite addr v) s = .next (s.hiWrite r i addr v) :=
  ⟨exec_reg64HiWrite ((reg64HiWrite_target v h).trans (if_pos hr)),
    exec_regWrite ((regWrite_target v h hv).trans (State.writeReg_upper s i j addr v hr))⟩

/-- A write of a lower half, by either command. -/
theorem exec_lower {r : Reg} {i j : Nat} (h : s.target addr = some (r, i, j)) (hv : pfVectorAt addr = false)
    (hr : r = R.DSP_HOST_WAIT_TH_LO ∨ r = R.HST_RING_RD_LO) :
    exec (.reg64LoWrite addr v) s = .next (s.loPending addr v) ∧ exec (.regWrite addr v) s = .next (s.loPending addr v) :=
  ⟨exec_reg64LoWrite ((reg64LoWrite_target v h).trans (if_pos (rwPair_iff.mpr hr))),
    exec_regWrite ((regWrite_target v h hv).trans (State.writeReg_rwPair s i j addr v hr))⟩

/-- A write to a BL register logs an access violation and changes no register but those of the log. -/
theorem exec_write_bl {r : Reg} {i j : Nat} (h : s.target addr = some (r, i, j)) (hv : pfVectorAt addr = false) (hb : r.bl ≠ 0) :
    ∃ t : State, exec (.blRegisterWrite addr v) s = .next t ∧ exec (.regWrite addr v) s = .next t ∧ Touches [] s t
      ∧ t.fb F.BOOT_EVT_ACCESS = true ∧ t.mem = s.mem :=
  ⟨s.blViolation addr, exec_blRegisterWrite ((blRegisterWrite_target h).trans (if_pos hb)),
    exec_regWrite ((regWrite_target v h hv).trans (State.writeReg_bl s i j addr v hb)), touches_event [] s 1 5 0 addr 0 0,
    blViolation_logs_access s addr, event_mem s 1 5 0 addr 0 0⟩

/-- A write to a W1C register in a clock in which the part sets nothing, by either command. -/
theorem exec_write_w1c {r : Reg} {i j : Nat} (h : s.target addr = some (r, i, j)) (hv : pfVectorAt addr = false) (hb : r.bl = 0) (hw : r.w1c ≠ 0) :
    ∃ t : State, exec (.regWrite addr v) s = .next t ∧ exec (.eventBitsClear addr v 0) s = .next t
      ∧ t = s.setWord r (s.word r i j &&& ~~~(BitVec.ofNat 32 v &&& BitVec.ofNat 32 r.w1c)) i j :=
  ⟨s.clearBits r i j v, exec_regWrite ((regWrite_target v h hv).trans (State.writeReg_w1c s i j addr v hb hw)),
    exec_eventBitsClear (by rw [eventBitsClear_target v h, if_neg hw, State.setSame_zero]), State.clearBits_w1c s i j v hw⟩

/-- A write to a W1C register, bit by bit: the bits written as 1 clear, the bits that the part sets in the same clock read 1 (R7). -/
theorem exec_eventBitsClear_bits {r : Reg} {i j : Nat} (h : s.target addr = some (r, i, j)) (hw : r.w1c ≠ 0) (same : Nat) :
    ∃ t : State, exec (.eventBitsClear addr v same) s = .next t ∧ Touches [r.addr i j] s t
      ∧ ∀ b < 32, bitOf (t.word r i j).toNat b
          = (bitOf (s.word r i j).toNat b && !(bitOf v b && bitOf r.w1c b) || bitOf same b && bitOf r.w1c b) := by
  refine ⟨(s.clearBits r i j v).setSame r i j same, exec_eventBitsClear ((eventBitsClear_target v h same).trans (if_neg hw)),
    (touches_clearBits s r i j v).trans (touches_setSame _ r i j same), fun b hb => ?_⟩
  rw [State.word_setSame, State.clearBits_w1c s i j v hw, State.word_setWord_same]
  exact bitOf_clear_set _ v same r.w1c hb

/-- A write to the PF's vector table (R405). -/
theorem exec_write_vector (hv : pfVectorAt addr = true) (ho : s.windowOpen 0xD = true) :
    ∃ t : State, exec (.regWrite addr v) s = .next t ∧ t.msixWord 0 (addr - 0xD10000) = v % 2 ^ 32 ∧ t.regs = s.regs ∧ t.mem = s.mem
      ∧ t.tally = s.tally :=
  ⟨s.msixWrite 0 (addr - 0xD10000) v, exec_regWrite (regWrite_vector v hv ho), State.msixWord_msixWrite s 0 _ v,
    State.msixWrite_only.regs (by decide) (by decide), State.msixWrite_only.mem (by decide), State.msixWrite_only.tally (by decide)⟩

end

/-- Settles O42: the register that answers decides by its access type (Table 0-4); an RW pair's upper half goes through its own rule. -/
theorem hostRegisters : Obligations.HostRegisters := by
  intro s addr v
  refine ⟨fun h => ⟨fun hv => exec_regWrite (regWrite_none v hv h), fun same => exec_eventBitsClear (eventBitsClear_none v same h),
    exec_blRegisterWrite (blRegisterWrite_none h), exec_reg64LoWrite (reg64LoWrite_none v h), exec_reg64HiWrite (reg64HiWrite_none v h)⟩,
    exec_write_vector, fun r i j h hv => ?_⟩
  have write {t : State} (ht : s.writeReg r i j addr v = t) : exec (.regWrite addr v) s = .next t :=
    exec_regWrite ((regWrite_target v h hv).trans ht)
  refine ⟨exec_write_bl h hv, fun hb => ?bl, exec_write_w1c h hv, exec_eventBitsClear_bits h, fun hw same => ?notW1c, ?readOnly, ?mailbox,
    ?advance, ?arm, ?disarm, ?lower, fun hth hrd => ?notLower, fun hth hrd => ?notUpper, ?threshold, ?readPointer⟩
  case bl => exact exec_blRegisterWrite ((blRegisterWrite_target h).trans (if_neg (not_not_intro hb)))
  case notW1c => exact exec_eventBitsClear ((eventBitsClear_target v h same).trans (if_pos hw))
  case readOnly =>
    rintro ⟨hrw, hw1c, hwo, hbl⟩
    exact write (State.writeReg_readOnly s i j addr v hrw hw1c hwo hbl)
  case mailbox =>
    rintro rfl
    exact write (State.writeReg_mbxReq s i j addr v)
  case advance =>
    rintro rfl x n hlt rfl rfl
    exact write (State.writeReg_hostAdv s i j addr v hlt)
  case arm =>
    rintro rfl harm
    exact write ((State.writeReg_waitCtl s i j addr v).trans (if_pos harm))
  case disarm =>
    rintro rfl harm
    exact write ((State.writeReg_waitCtl s i j addr v).trans (if_neg (Bool.eq_false_iff.mp harm)))
  case lower =>
    intro hr
    obtain ⟨hlo, hreg⟩ := exec_lower (v := v) h hv hr
    exact ⟨hlo, hreg.trans hlo.symm⟩
  case notLower =>
    exact exec_reg64LoWrite ((reg64LoWrite_target v h).trans (if_neg fun hr => (rwPair_iff.mp hr).elim hth hrd))
  case notUpper =>
    exact exec_reg64HiWrite ((reg64HiWrite_target v h).trans (if_neg fun hr => hr.elim hth hrd))
  case threshold =>
    rintro rfl x hp hx
    obtain ⟨hhi, hreg⟩ := exec_upper (v := v) h hv (.inl rfl)
    exact ⟨_, hhi, hreg, hiWrite_threshold s i addr v hp hx⟩
  case readPointer =>
    rintro rfl x hp hx hl hi hlo hhi
    obtain ⟨hup, hreg⟩ := exec_upper (v := v) h hv (.inr rfl)
    exact ⟨_, hup, hreg, hiWrite_readPointer s addr v hp hx hi hl (State.reach_of_target h) hlo hhi⟩

/-! ## Host reads (R8, R9, R60) -/

/-- The bytes of a number depend on its low bits only. -/
theorem leBytes_add_mul (n : Nat) : ∀ v k : Nat, leBytes n (v + 256 ^ n * k) = leBytes n v := by
  induction n with
  | zero => intro v k; rfl
  | succ n ih =>
    intro v k
    have e : v + 256 ^ (n + 1) * k = v + 256 * (256 ^ n * k) := by
      rw [Nat.pow_succ, Nat.mul_comm (256 ^ n) 256, Nat.mul_assoc]
    have hb : byteOf (v + 256 * (256 ^ n * k)) = byteOf v := by
      apply BitVec.eq_of_toNat_eq
      simp only [byteOf, BitVec.toNat_ofNat]
      omega
    rw [e, leBytes, leBytes, hb, Nat.add_mul_div_left _ _ (by decide), ih]

/-- A read of the register at an address captures nothing beside the pair's own upper half. -/
def State.plainRead (s : State) (addr : Nat) : Prop :=
  ∀ r i j, s.readTarget addr = some (r, i, j) → r ≠ R.LNK_PORT_FEC_CORR_LO ∧ r ≠ R.TIME_CAP_SEC_LO

section
variable {s : State} {addr : Nat}

theorem State.plainRead_none (h : s.readTarget addr = none) : s.plainRead addr := by
  intro r i j h'
  rw [h] at h'
  cases h'

theorem State.plainRead_target {r : Reg} {i j : Nat} (h : s.readTarget addr = some (r, i, j)) (hf : r ≠ R.LNK_PORT_FEC_CORR_LO)
    (hc : r ≠ R.TIME_CAP_SEC_LO) : s.plainRead addr := by
  intro r' i' j' h'
  rw [h] at h'
  cases h'
  exact ⟨hf, hc⟩

/-- An address that is none of the two registers' own. -/
theorem State.plainRead_addr (hf : ∀ i, addr ≠ R.LNK_PORT_FEC_CORR_LO.addr i 0) (hc : ∀ i, addr ≠ R.TIME_CAP_SEC_LO.addr i 0) :
    s.plainRead addr := by
  intro r i j h
  have ha := (regAt_addr (State.readTarget_eq_some.mp h).2).symm
  have one : ∀ q : Reg, q.count2 = 1 → q.addr i j = q.addr i 0 := by
    intro q hq
    simp [Reg.addr, hq, Nat.mod_one]
  constructor
  · rintro rfl
    exact hf i (ha.trans (one _ rfl))
  · rintro rfl
    exact hc i (ha.trans (one _ rfl))

theorem State.readLo_pair (h : s.plainRead addr) {v : Nat} (hp : s.pairAt addr = some v) :
    s.readLo addr = (s.capturedWord (addr + 4) (v / 2 ^ 32)).emit (.cpl 0 (leBytes 4 v) false) := by
  unfold State.readLo
  cases ht : s.readTarget addr with
  | none => simp [ht, hp]
  | some x =>
    obtain ⟨r, i, j⟩ := x
    obtain ⟨hf, hc⟩ := h r i j ht
    simp [ht, hf, hc, hp]

theorem State.readLo_single (h : s.plainRead addr) (hp : s.pairAt addr = none) (hn : ¬ (addr = 0x200010 ∧ s.windowOpen 2 = true)) :
    s.readLo addr = s.readWord addr := by
  unfold State.readLo
  cases ht : s.readTarget addr with
  | none => simp [ht, hp, hn]
  | some x =>
    obtain ⟨r, i, j⟩ := x
    obtain ⟨hf, hc⟩ := h r i j ht
    simp [ht, hf, hc, hp, hn]

theorem State.pairAt_registers {r h : Reg} {i j i' j' : Nat} (ht : s.readTarget addr = some (r, i, j)) (hr : r ∈ pairLos)
    (hh : regAt (addr + 4) = some (h, i', j')) (ha : addr < 0xC80000 ∨ 0xD00000 ≤ addr) :
    s.pairAt addr = some ((s.word r i j).toNat + 2 ^ 32 * (s.word h i j).toNat) := by
  have hc : pairLos.contains r = true := List.contains_iff_mem.mpr hr
  unfold State.pairAt
  rw [if_neg (by omega)]
  simp only [ht, hc, hh, if_true]

theorem State.pairAt_tally {n : Nat} (hn : n < 65536) (ho : s.windowOpen 0xC = true) :
    s.pairAt (0xC80000 + 8 * n) = some (s.tallyOf n).value := by
  unfold State.pairAt
  rw [if_pos (by omega), if_pos ho, show (0xC80000 + 8 * n - 0xC80000) / 8 = n by omega]

/-- Where an address is not open, no pair answers. -/
theorem State.pairAt_closed (h : s.readOpen addr = false) : s.pairAt addr = none := by
  have hw : s.windowOpen (addr / 0x100000) = false := by
    cases hw : s.windowOpen (addr / 0x100000) with
    | false => rfl
    | true =>
      rw [State.readOpen_of_addrOpen (State.addrOpen_of_windowOpen hw)] at h
      cases h
  unfold State.pairAt
  split
  · rename_i ha
    rw [show addr / 0x100000 = 0xC by omega] at hw
    rw [if_neg (by simp [hw])]
  · simp [State.readTarget, h]

/-! What a read of one word answers: what an earlier read captured, else what the address holds now. -/

theorem State.readWord_closed (h : s.readOpen addr = false) : s.readWord addr = s.completeWord 0 := by
  simp [State.readWord, h]

theorem State.readWord_captured {c : Nat} (h : s.readOpen addr = true) (hc : tget 0 s.hst.hi addr = c + 1) :
    s.readWord addr = ({ s with hst.hi := tput 0 s.hst.hi addr 0 } : State).completeWord c := by
  simp [State.readWord, h, hc]

theorem State.readWord_live (h : s.readOpen addr = true) (hc : tget 0 s.hst.hi addr = 0) (ht : timeNowKey addr = none) :
    s.readWord addr = s.completeWord (s.liveWord addr) := by
  simp [State.readWord, h, hc, ht]

/-- Where no register lies and no table, log or clock of a block, an address holds 0 (R8). -/
theorem State.liveWord_none (h : regAt addr = none) (hd : addr < 0xC40000 ∨ 0xD00000 ≤ addr) (hv : pfVectorAt addr = false)
    (hp : addr < 0xD11000 ∨ 0xD11010 ≤ addr) (hn : addr < 0x200010 ∨ 0x200020 ≤ addr) (ht : addr < 0x880000 ∨ 0x900000 ≤ addr) :
    s.liveWord addr = 0 := by
  unfold State.liveWord
  rw [if_neg (by omega), if_neg (by omega), if_neg (by simp [hv]), if_neg (by omega), if_neg (by omega), if_neg (by omega), h]

/-- A word of the window of transform entries (Table 9-13). -/
theorem State.liveWord_transform {i k : Nat} (ha : addr = 0x880000 + 256 * i + 4 * k) (hk : k < 64) (hi : i < 2048) :
    s.liveWord addr = leValue (((s.ttEntry i).drop (4 * k)).take 4) := by
  have hv : ¬ pfVectorAt addr = true := by
    simp only [pfVectorAt, Bool.and_eq_true, decide_eq_true_eq]
    omega
  unfold State.liveWord State.ttWord
  rw [if_neg (by omega), if_neg (by omega), if_neg hv, if_neg (by omega), if_neg (by omega), if_pos (by omega),
    show (addr - 0x880000) / 256 = i by omega, show (addr - 0x880000) % 256 = 4 * k by omega]

/-- An aligned address outside the words of device time. -/
theorem timeNowKey_none_outside (ha : addr % 4 = 0) (ht : timeNowKey addr = none) (hn : addr ≠ 0x200010) :
    addr < 0x200010 ∨ 0x200020 ≤ addr := by
  unfold timeNowKey at ht
  split at ht
  · cases ht
  · omega

theorem exec_reg64LoRead {t : State} (ha : addr % 4 = 0) (hr : s.reach 0 = true) (h : s.readLo addr = t) :
    exec (.reg64LoRead addr) s = .next t :=
  congrArg Host.Outcome.next ((if_pos ⟨ha, hr⟩).trans h)

/-- A read of a register pair's lower half. -/
theorem exec_read_pair {r h : Reg} {i j i' j' : Nat} (ht : s.target addr = some (r, i, j)) (hr : r ∈ pairLos) (hf : r ≠ R.LNK_PORT_FEC_CORR_LO)
    (hc : r ≠ R.TIME_CAP_SEC_LO) (hh : regAt (addr + 4) = some (h, i', j')) (ha : addr < 0xC80000 ∨ 0xD00000 ≤ addr) :
    exec (.reg64LoRead addr) s
      = .next ((s.capturedWord (addr + 4) (s.word h i j).toNat).emit (.cpl 0 (leBytes 4 (s.word r i j).toNat) false)) := by
  have hrt := State.readTarget_of_target ht
  have hupper : ((s.word r i j).toNat + 2 ^ 32 * (s.word h i j).toNat) / 2 ^ 32 = (s.word h i j).toNat := by
    have := (s.word r i j).isLt
    omega
  refine exec_reg64LoRead (State.target_eq_some.mp ht).1.1 (State.reach_of_target ht) ?_
  rw [State.readLo_pair (State.plainRead_target hrt hf hc) (State.pairAt_registers hrt hr hh ha), hupper]
  rw [show (2 : Nat) ^ 32 = 256 ^ 4 by decide, leBytes_add_mul]

/-- A read of a Tally's lower half. -/
theorem exec_read_tally {n : Nat} (hn : n < 65536) (ho : s.windowOpen 0xC = true) (ht : s.target (0xC80000 + 8 * n) = none) :
    exec (.reg64LoRead (0xC80000 + 8 * n)) s
      = .next ((s.capturedWord (0xC80000 + 8 * n + 4) ((s.tallyOf n).value / 2 ^ 32)).emit (.cpl 0 (leBytes 4 (s.tallyOf n).value) false)) := by
  have ha : (0xC80000 + 8 * n) % 4 = 0 := by omega
  have hopen : s.addrOpen (0xC80000 + 8 * n) = true :=
    State.addrOpen_of_windowOpen (by rw [show (0xC80000 + 8 * n) / 0x100000 = 0xC by omega]; exact ho)
  have hrt : s.readTarget (0xC80000 + 8 * n) = none := by
    rw [State.target, if_pos ⟨ha, hopen⟩] at ht
    rw [State.readTarget, ht, ite_self]
  exact exec_reg64LoRead ha (State.reach_of_windowOpen ho) (State.readLo_pair (State.plainRead_none hrt) (State.pairAt_tally hn ho))

/-- A read where nothing is open. -/
theorem exec_read_closed (ha : addr % 4 = 0) (hr : s.reach 0 = true) (ho : s.readOpen addr = false) :
    exec (.reg64LoRead addr) s = .next (s.completeWord 0) := by
  have hrt : s.readTarget addr = none := by simp [State.readTarget, ho]
  have hn : ¬ (addr = 0x200010 ∧ s.windowOpen 2 = true) := by
    rintro ⟨rfl, hw⟩
    rw [State.readOpen_of_addrOpen (State.addrOpen_of_windowOpen hw)] at ho
    cases ho
  exact exec_reg64LoRead ha hr
    ((State.readLo_single (State.plainRead_none hrt) (State.pairAt_closed ho) hn).trans (State.readWord_closed ho))

end

section
variable {s : State} {addr : Nat} (ha : addr % 4 = 0) (hr : s.reach 0 = true) (ho : s.readOpen addr = true) (hp : s.pairAt addr = none)
  (hn : addr ≠ 0x200010) (hplain : s.plainRead addr)
include ha hr ho hp hn hplain

/-- A read of an open word for which nothing was captured. -/
theorem exec_read_live (hc : tget 0 s.hst.hi addr = 0) (ht : timeNowKey addr = none) :
    exec (.reg64LoRead addr) s = .next (s.completeWord (s.liveWord addr)) :=
  exec_reg64LoRead ha hr ((State.readLo_single hplain hp fun h => hn h.1).trans (State.readWord_live ho hc ht))

/-- A read of an open word that an earlier read captured: the capture is answered and used up. -/
theorem exec_read_captured {c : Nat} (hc : tget 0 s.hst.hi addr = c + 1) :
    exec (.reg64LoRead addr) s = .next (({ s with hst.hi := tput 0 s.hst.hi addr 0 } : State).completeWord c) :=
  exec_reg64LoRead ha hr ((State.readLo_single hplain hp fun h => hn h.1).trans (State.readWord_captured ho hc))

end

/-! ## TIME_NOW (R60) and accesses of another width or alignment (R392) -/

/-- The three words after the low seconds are captured at the device time of the read. -/
theorem captureNow_keys (s : State) (k : Nat) (hk : k < 3) : tget 0 (s.captureNow 0).tm.capt k = s.tm.dev + 1 := by
  have : k = 0 ∨ k = 1 ∨ k = 2 := by omega
  rcases this with rfl | rfl | rfl <;> simp [State.captureNow, tget_tput]

theorem exec_timeNowCapture_other {s : State} {fn : Nat} (h : fn ≠ 0 ∨ s.reach 0 = false) : exec (.timeNowCapture fn) s = .next s := by
  refine congrArg Host.Outcome.next (if_neg ?_)
  rintro ⟨h0, hr⟩
  rcases h with h | h
  · exact h h0
  · rw [hr] at h
    cases h

theorem exec_timeNowCapture_closed {s : State} (hr : s.reach 0 = true) (hw : s.windowOpen 2 = false) :
    exec (.timeNowCapture 0) s = .next (s.completeWord 0) :=
  congrArg Host.Outcome.next ((if_pos ⟨rfl, hr⟩).trans (if_neg (by simp [hw])))

theorem exec_timeNowCapture_open {s : State} (hw : s.windowOpen 2 = true) :
    exec (.timeNowCapture 0) s = .next ((s.captureNow 0).emit (.cpl 0 (leBytes 4 (s.now / 1000000000)) false)) :=
  congrArg Host.Outcome.next ((if_pos ⟨rfl, State.reach_of_windowOpen hw⟩).trans (if_pos hw))

theorem exec_bar0BadAccess_write (s : State) (addr len v : Nat) : exec (.bar0BadAccess true addr len v) s = .next s :=
  congrArg Host.Outcome.next (if_pos (Bool.or_true _))

theorem exec_bar0BadAccess_read {s : State} {addr len : Nat} (v : Nat) (hr : s.reach 0 = true) (h : addr % 4 ≠ 0 ∨ len ≠ 4) :
    exec (.bar0BadAccess false addr len v) s = .next (s.emit (.unsupported 0)) := by
  refine congrArg Host.Outcome.next (if_neg ?_)
  simp only [hr, Bool.not_true, Bool.false_or, Bool.or_false, Bool.and_eq_true, beq_iff_eq]
  omega

/-- Settles O60: the pair or Tally at an address decides, then a captured half, then what the address holds. One command carries every
read (log entry 66). -/
theorem hostReads : Obligations.HostReads := by
  intro s
  refine ⟨fun addr r i j ht hr hf hc h i' j' hh ha => exec_read_pair ht hr hf hc hh ha, fun n hn ho ht => exec_read_tally hn ho ht,
    fun addr ha hr => ⟨exec_read_closed ha hr, fun ho hp hc ht hn hf hcap => ?single⟩, fun fn => ⟨exec_timeNowCapture_other,
    exec_timeNowCapture_closed, fun hw => ?timeNow⟩,
    fun addr len v => ⟨exec_bar0BadAccess_write s addr len v, exec_bar0BadAccess_read v⟩⟩
  case single =>
    refine ⟨exec_read_live ha hr ho hp hn (State.plainRead_addr hf hcap) hc ht,
      fun h hd hv hpba htt => State.liveWord_none h hd hv hpba (timeNowKey_none_outside ha ht hn) htt,
      fun i k hik hk hi => State.liveWord_transform hik hk hi, fun c => ?_⟩
    exact exec_read_captured (s := { s with hst.hi := tput 0 s.hst.hi addr (c + 1) }) ha hr ho hp hn (State.plainRead_addr hf hcap)
      (tget_tput_same 0 s.hst.hi addr (c + 1))
  case timeNow =>
    exact ⟨_, exec_timeNowCapture_open hw, captureNow_keys s 0 (by decide), captureNow_keys s 1 (by decide), captureNow_keys s 2 (by decide),
      rfl, rfl, rfl⟩

end Sys2Proof.Machine
end

section
/-!
PROOFS. The machine's invariant (R53, R54, R438, R439, chapter 08): it holds at reset, and every step keeps it. What a command can change is
bounded by its meaning's mask (Sys2Proof/Laws/Only.lean), and every bound keeps the invariant.
-/

namespace Sys2Proof.Machine
open Sys2Proof Sys2Proof.Safety

/-- Every command's effect lies within a mask: its meaning's. -/
theorem exec_bounded {c : Instr} {s t : State} (h : exec c s = .next t) : ∃ m, Only m s t := by
  cases c with
  | supplyRamp => exact ⟨_, execSupplyRamp_only h⟩
  | pwrgdAssert => exact ⟨_, execPwrgdAssert_only h⟩
  | sysResetRelease => exact ⟨_, execSysResetRelease_only h⟩
  | sysResetAssert => exact ⟨_, execSysResetAssert_only h⟩
  | pwrgdFall => exact ⟨_, execPwrgdFall_only h⟩
  | supplyLoss => exact ⟨_, execSupplyLoss_only h⟩
  | perstN => exact ⟨_, execPerstN_only h⟩
  | selfRestart => exact ⟨_, execSelfRestart_only h⟩
  | tempSensorRead => exact ⟨_, execTempSensorRead_only h⟩
  | thermtrip => exact ⟨_, execThermtrip_only h⟩
  | avsUpdate => exact ⟨_, execAvsUpdate_only h⟩
  | avsTelemetry => exact ⟨_, execAvsTelemetry_only h⟩
  | smbReadBootStatus => exact ⟨_, execSmbReadBootStatus_only h⟩
  | smbReadComputeTemp => exact ⟨_, execSmbReadComputeTemp_only h⟩
  | smbReadHopperTemp => exact ⟨_, execSmbReadHopperTemp_only h⟩
  | smbReadPkgPower => exact ⟨_, execSmbReadPkgPower_only h⟩
  | smbReadPwrStatus => exact ⟨_, execSmbReadPwrStatus_only h⟩
  | smbReadPart => exact ⟨_, execSmbReadPart_only h⟩
  | smbUnknownCommand => exact ⟨_, execSmbUnknownCommand_only h⟩
  | startStepDone => exact ⟨_, execStartStepDone_only h⟩
  | startStepLimit => exact ⟨_, execStartStepLimit_only h⟩
  | ptpWaitExpire => exact ⟨_, execPtpWaitExpire_only h⟩
  | sensorCheckExpire => exact ⟨_, execSensorCheckExpire_only h⟩
  | trainingCacheWrite => exact ⟨_, execTrainingCacheWrite_only h⟩
  | trialConfirm => exact ⟨_, execTrialConfirm_only h⟩
  | cellarBringupDone => exact ⟨_, execCellarBringupDone_only h⟩
  | deviceTimeTick => exact ⟨_, execDeviceTimeTick_only h⟩
  | ptpAnnounceRx => exact ⟨_, execPtpAnnounceRx_only h⟩
  | ptpSyncRx => exact ⟨_, execPtpSyncRx_only h⟩
  | ptpFollowUpRx => exact ⟨_, execPtpFollowUpRx_only h⟩
  | ptpDelayRespRx => exact ⟨_, execPtpDelayRespRx_only h⟩
  | ptpDelayReqTx => exact ⟨_, execPtpDelayReqTx_only h⟩
  | ptpPdelayReqRx => exact ⟨_, execPtpPdelayReqRx_only h⟩
  | ptpPdelayRespRx => exact ⟨_, execPtpPdelayRespRx_only h⟩
  | ptpManagementGet => exact ⟨_, execPtpManagementGet_only h⟩
  | ptpManagementSet => exact ⟨_, execPtpManagementSet_only h⟩
  | ptpManagementCommand => exact ⟨_, execPtpManagementCommand_only h⟩
  | announceReceiptTimeout => exact ⟨_, execAnnounceReceiptTimeout_only h⟩
  | selectionEval => exact ⟨_, execSelectionEval_only h⟩
  | holdErrUpdate => exact ⟨_, execHoldErrUpdate_only h⟩
  | holdoverLimitExpire => exact ⟨_, execHoldoverLimitExpire_only h⟩
  | ppsEdge => exact ⟨_, execPpsEdge_only h⟩
  | ref10mEdge => exact ⟨_, execRef10mEdge_only h⟩
  | exposureTriggerEdge => exact ⟨_, execExposureTriggerEdge_only h⟩
  | conversionStrobeEdge => exact ⟨_, execConversionStrobeEdge_only h⟩
  | controlCycleEdge => exact ⟨_, execControlCycleEdge_only h⟩
  | captureEdge => exact ⟨_, execCaptureEdge_only h⟩
  | slipHoldExpire => exact ⟨_, execSlipHoldExpire_only h⟩
  | heldClear => exact ⟨_, execHeldClear_only h⟩
  | csi2FrameStart => exact ⟨_, execCsi2FrameStart_only h⟩
  | csi2FrameEnd => exact ⟨_, execCsi2FrameEnd_only h⟩
  | csi2LongPacket => exact ⟨_, execCsi2LongPacket_only h⟩
  | csi2IgnoredPacket => exact ⟨_, execCsi2IgnoredPacket_only h⟩
  | bandSlotFree => exact ⟨_, execBandSlotFree_only h⟩
  | st2110PacketRx => exact ⟨_, execSt2110PacketRx_only h⟩
  | frameTimeout => exact ⟨_, execFrameTimeout_only h⟩
  | spiDataReady => exact ⟨_, execSpiDataReady_only h⟩
  | spiWaitExpire => exact ⟨_, execSpiWaitExpire_only h⟩
  | spiTransactionDone => exact ⟨_, execSpiTransactionDone_only h⟩
  | imuIdentityRead => exact ⟨_, execImuIdentityRead_only h⟩
  | ssiReadDone => exact ⟨_, execSsiReadDone_only h⟩
  | quadTransition => exact ⟨_, execQuadTransition_only h⟩
  | quadSample => exact ⟨_, execQuadSample_only h⟩
  | canFrameRx => exact ⟨_, execCanFrameRx_only h⟩
  | canTxDone => exact ⟨_, execCanTxDone_only h⟩
  | canBusoffRecover => exact ⟨_, execCanBusoffRecover_only h⟩
  | channelTimeout => exact ⟨_, execChannelTimeout_only h⟩
  | channelAbsentInstant => exact ⟨_, execChannelAbsentInstant_only h⟩
  | tallyAdvance => exact ⟨_, execTallyAdvance_only h⟩
  | taskLimitExpire => exact ⟨_, execTaskLimitExpire_only h⟩
  | unitFault => exact ⟨_, execUnitFault_only h⟩
  | taskFailed => exact ⟨_, execTaskFailed_only h⟩
  | waitLimitExpire => exact ⟨_, execWaitLimitExpire_only h⟩
  | hostTallyAdvance => exact ⟨_, execHostTallyAdvance_only h⟩
  | hostWaitArm => exact ⟨_, execHostWaitArm_only h⟩
  | hostWaitDisarm => exact ⟨_, execHostWaitDisarm_only h⟩
  | spareVisit => exact ⟨_, execSpareVisit_only h⟩
  | selfTestDone => exact ⟨_, execSelfTestDone_only h⟩
  | unitSwap => exact ⟨_, execUnitSwap_only h⟩
  | retest => exact ⟨_, execRetest_only h⟩
  | visitWaitWarning => exact ⟨_, execVisitWaitWarning_only h⟩
  | calibPost => exact ⟨_, execCalibPost_only h⟩
  | cooperLoadEval => exact ⟨_, execCooperLoadEval_only h⟩
  | firmwareWatchdog => exact ⟨_, execFirmwareWatchdog_only h⟩
  | eventFoldFlush => exact ⟨_, execEventFoldFlush_only h⟩
  | millBandDone => exact ⟨_, execMillBandDone_only h⟩
  | sgmBandDone => exact ⟨_, execSgmBandDone_only h⟩
  | flowLevelDone => exact ⟨_, execFlowLevelDone_only h⟩
  | pathSpaceFreed => exact ⟨_, execPathSpaceFreed_only h⟩
  | networkBandDone => exact ⟨_, execNetworkBandDone_only h⟩
  | networkDeadline => exact ⟨_, execNetworkDeadline_only h⟩
  | weightsStaged => exact ⟨_, execWeightsStaged_only h⟩
  | migrationPass => exact ⟨_, execMigrationPass_only h⟩
  | pageMigrateSwitch => exact ⟨_, execPageMigrateSwitch_only h⟩
  | demandFillDone => exact ⟨_, execDemandFillDone_only h⟩
  | scrubStep => exact ⟨_, execScrubStep_only h⟩
  | correctedError => exact ⟨_, execCorrectedError_only h⟩
  | channelDrainDone => exact ⟨_, execChannelDrainDone_only h⟩
  | uncorrectableError => exact ⟨_, execUncorrectableError_only h⟩
  | phyLockLoss => exact ⟨_, execPhyLockLoss_only h⟩
  | retrainTimeout => exact ⟨_, execRetrainTimeout_only h⟩
  | refillDone => exact ⟨_, execRefillDone_only h⟩
  | addressFault => exact ⟨_, execAddressFault_only h⟩
  | ddrDqsTrack => exact ⟨_, execDdrDqsTrack_only h⟩
  | ddrZqCal => exact ⟨_, execDdrZqCal_only h⟩
  | ddrMr4Read => exact ⟨_, execDdrMr4Read_only h⟩
  | nvmeCompletion => exact ⟨_, execNvmeCompletion_only h⟩
  | nvmeTimeout => exact ⟨_, execNvmeTimeout_only h⟩
  | cellarCheckpoint => exact ⟨_, execCellarCheckpoint_only h⟩
  | cellarWriteback => exact ⟨_, execCellarWriteback_only h⟩
  | visionStep => exact ⟨_, execVisionStep_only h⟩
  | propagatedRecord => exact ⟨_, execPropagatedRecord_only h⟩
  | foldIn => exact ⟨_, execFoldIn_only h⟩
  | initTimeout => exact ⟨_, execInitTimeout_only h⟩
  | coastExpire => exact ⟨_, execCoastExpire_only h⟩
  | relocQueryPost => exact ⟨_, execRelocQueryPost_only h⟩
  | kettleIterationDone => exact ⟨_, execKettleIterationDone_only h⟩
  | solveDeadline => exact ⟨_, execSolveDeadline_only h⟩
  | solveComplete => exact ⟨_, execSolveComplete_only h⟩
  | bodySolveDone => exact ⟨_, execBodySolveDone_only h⟩
  | posegraphPost => exact ⟨_, execPosegraphPost_only h⟩
  | viewPassDeadline => exact ⟨_, execViewPassDeadline_only h⟩
  | kilnBinningDone => exact ⟨_, execKilnBinningDone_only h⟩
  | kilnCompositingDone => exact ⟨_, execKilnCompositingDone_only h⟩
  | kilnBackwardDone => exact ⟨_, execKilnBackwardDone_only h⟩
  | kilnCommit => exact ⟨_, execKilnCommit_only h⟩
  | refineJobDone => exact ⟨_, execRefineJobDone_only h⟩
  | activeSetUpdate => exact ⟨_, execActiveSetUpdate_only h⟩
  | blockLoadDone => exact ⟨_, execBlockLoadDone_only h⟩
  | blockEvict => exact ⟨_, execBlockEvict_only h⟩
  | kilnRelocDone => exact ⟨_, execKilnRelocDone_only h⟩
  | nodeReadReturn => exact ⟨_, execNodeReadReturn_only h⟩
  | caskQueryDeadline => exact ⟨_, execCaskQueryDeadline_only h⟩
  | caskQueryDone => exact ⟨_, execCaskQueryDone_only h⟩
  | caskInsert => exact ⟨_, execCaskInsert_only h⟩
  | caskDelete => exact ⟨_, execCaskDelete_only h⟩
  | caskReplace => exact ⟨_, execCaskReplace_only h⟩
  | caskCompactNode => exact ⟨_, execCaskCompactNode_only h⟩
  | shardAnswerRx => exact ⟨_, execShardAnswerRx_only h⟩
  | shardMergeTimeout => exact ⟨_, execShardMergeTimeout_only h⟩
  | regWrite => exact ⟨_, execRegWrite_only h⟩
  | eventBitsClear => exact ⟨_, execEventBitsClear_only h⟩
  | blRegisterWrite _ v => exact ⟨_, execBlRegisterWrite_only (x1 := v) h⟩
  | reg64LoWrite => exact ⟨_, execReg64LoWrite_only h⟩
  | reg64HiWrite => exact ⟨_, execReg64HiWrite_only h⟩
  | reg64LoRead => exact ⟨_, execReg64LoRead_only h⟩
  | timeNowCapture => exact ⟨_, execTimeNowCapture_only h⟩
  | bar0BadAccess _ _ _ v => exact ⟨_, execBar0BadAccess_only (x3 := v) h⟩
  | msixTableWrite => exact ⟨_, execMsixTableWrite_only h⟩
  | hstRingRdWrite => exact ⟨_, execHstRingRdWrite_only h⟩
  | ringRecordCopy => exact ⟨_, execRingRecordCopy_only h⟩
  | ringIrqTimer => exact ⟨_, execRingIrqTimer_only h⟩
  | holdRelease => exact ⟨_, execHoldRelease_only h⟩
  | slotRequestWrite => exact ⟨_, execSlotRequestWrite_only h⟩
  | slotPost => exact ⟨_, execSlotPost_only h⟩
  | slotRelease => exact ⟨_, execSlotRelease_only h⟩
  | bar4Read => exact ⟨_, execBar4Read_only h⟩
  | bar4Slow => exact ⟨_, execBar4Slow_only h⟩
  | mbxStatus => exact ⟨_, execMbxStatus_only h⟩
  | mbxAttest => exact ⟨_, execMbxAttest_only h⟩
  | mbxSessionStart => exact ⟨_, execMbxSessionStart_only h⟩
  | mbxSessionStop => exact ⟨_, execMbxSessionStop_only h⟩
  | mbxSelftest => exact ⟨_, execMbxSelftest_only h⟩
  | mbxStageBegin => exact ⟨_, execMbxStageBegin_only h⟩
  | mbxStageData => exact ⟨_, execMbxStageData_only h⟩
  | mbxStageEnd => exact ⟨_, execMbxStageEnd_only h⟩
  | mbxStageAbort => exact ⟨_, execMbxStageAbort_only h⟩
  | mbxActivate => exact ⟨_, execMbxActivate_only h⟩
  | mbxBadCommand => exact ⟨_, execMbxBadCommand_only h⟩
  | mbxDmaTimeout => exact ⟨_, execMbxDmaTimeout_only h⟩
  | stageEraseDone => exact ⟨_, execStageEraseDone_only h⟩
  | stageDataDone => exact ⟨_, execStageDataDone_only h⟩
  | stageVerifyDone => exact ⟨_, execStageVerifyDone_only h⟩
  | activateCopyDone => exact ⟨_, execActivateCopyDone_only h⟩
  | pfReset => exact ⟨_, execPfReset_only h⟩
  | vfFlr => exact ⟨_, execVfFlr_only h⟩
  | arpRequestRx => exact ⟨_, execArpRequestRx_only h⟩
  | icmpEchoRx => exact ⟨_, execIcmpEchoRx_only h⟩
  | arpRetry => exact ⟨_, execArpRetry_only h⟩
  | tileReqDense => exact ⟨_, execTileReqDense_only h⟩
  | tileReqDirectory => exact ⟨_, execTileReqDirectory_only h⟩
  | tileReqLandmark => exact ⟨_, execTileReqLandmark_only h⟩
  | poseStreamSend => exact ⟨_, execPoseStreamSend_only h⟩
  | poseBatchTimeout => exact ⟨_, execPoseBatchTimeout_only h⟩
  | streamHeartbeat => exact ⟨_, execStreamHeartbeat_only h⟩
  | linkBringupStep => exact ⟨_, execLinkBringupStep_only h⟩
  | helloRx => exact ⟨_, execHelloRx_only h⟩
  | linkStepLimit => exact ⟨_, execLinkStepLimit_only h⟩
  | linkRetrain => exact ⟨_, execLinkRetrain_only h⟩
  | heartbeatTx => exact ⟨_, execHeartbeatTx_only h⟩
  | heartbeatRx => exact ⟨_, execHeartbeatRx_only h⟩
  | ramhelControlRx => exact ⟨_, execRamhelControlRx_only h⟩
  | ramhelTimeRx => exact ⟨_, execRamhelTimeRx_only h⟩
  | ramhelTallyRx => exact ⟨_, execRamhelTallyRx_only h⟩
  | ramhelMsgRx => exact ⟨_, execRamhelMsgRx_only h⟩
  | ramhelPageRx => exact ⟨_, execRamhelPageRx_only h⟩
  | ramhelE2eAckRx => exact ⟨_, execRamhelE2eAckRx_only h⟩
  | linkRetryTimeout => exact ⟨_, execLinkRetryTimeout_only h⟩
  | timeTx => exact ⟨_, execTimeTx_only h⟩
  | linkSilence => exact ⟨_, execLinkSilence_only h⟩
  | memberUnreachable => exact ⟨_, execMemberUnreachable_only h⟩
  | masterTakeover => exact ⟨_, execMasterTakeover_only h⟩
  | memberIsolated => exact ⟨_, execMemberIsolated_only h⟩
  | timeFrameLoss => exact ⟨_, execTimeFrameLoss_only h⟩
  | resyncDone => exact ⟨_, execResyncDone_only h⟩
  | laserInputLow => exact ⟨_, execLaserInputLow_only h⟩
  | handoverLoadDone => exact ⟨_, execHandoverLoadDone_only h⟩
  | standbyBootDone => exact ⟨_, execStandbyBootDone_only h⟩
  | handoverTake => exact ⟨_, execHandoverTake_only h⟩
  | coreReloadDone => exact ⟨_, execCoreReloadDone_only h⟩
  | groupUnitReload => exact ⟨_, execGroupUnitReload_only h⟩
  | rolloutLimit => exact ⟨_, execRolloutLimit_only h⟩
  | jtagPrivateInstruction => exact ⟨_, execJtagPrivateInstruction_only h⟩
  | ppsInputLost => exact ⟨_, execPpsInputLost_only h⟩
  | csi2LaneSyncLoss => exact ⟨_, execCsi2LaneSyncLoss_only h⟩
  | canBusError => exact ⟨_, execCanBusError_only h⟩
  | ddrRetrainDone => exact ⟨_, execDdrRetrainDone_only h⟩
  | cellarResetDone => exact ⟨_, execCellarResetDone_only h⟩
  | arpReplyRx => exact ⟨_, execArpReplyRx_only h⟩
  | uncorrectableCodeword => exact ⟨_, execUncorrectableCodeword_only h⟩
  | pciePowerStateChange => exact ⟨_, execPciePowerStateChange_only h⟩

/-- What a step leaves of the queue. -/
def State.dequeued (s : State) : State := { s with pending := s.pending.tail }

/-- A step lies within a mask, the command it takes off the queue aside. -/
theorem step_bounded {s t : State} (h : step s = .next t) : ∃ m, Only m s.dequeued t := by
  unfold step at h
  split at h
  next c rest hq =>
    have hs : s.dequeued = { s with pending := rest } := by rw [State.dequeued, hq, List.tail_cons]
    rw [hs]
    exact exec_bounded h
  next hq =>
    have hs : s.dequeued = s := by rw [State.dequeued, hq, List.tail_nil, ← hq]
    cases h
    rw [hs]
    exact ⟨_, State.settle_only⟩

/-- A bound on a change keeps the invariant, and its OTP goes one way. -/
theorem Only.inv {m : Nat} {s t : State} (h : Only m s t) (hs : Inv s) : Inv t ∧ otpLe s.otp t.otp := by
  obtain ⟨hmem, hotp⟩ := hs
  obtain ⟨hotp', hle⟩ := h.fuses hotp
  exact ⟨⟨h.wf hmem, hotp'⟩, hle⟩

/-- Settles O58: every step lies within a mask, and every mask keeps memory canonical and the fuses one way. -/
theorem invStep : Obligations.InvStep := by
  intro s t h hs
  obtain ⟨m, hb⟩ := step_bounded h
  exact hb.inv (s := s.dequeued) hs

/-- Settles O56: nothing is written at reset, and only Glonaro's own key slot is programmed (log entries 1 and 2). -/
theorem invReset : Obligations.InvReset := by
  have hmem : Memory.wf State.reset.mem = true := rfl
  have hotp : otpWf State.reset.otp = true := otpWf_iff.mpr ⟨rfl, rfl, by decide, by decide, by decide, nofun⟩
  exact ⟨hmem, hotp⟩

end Sys2Proof.Machine
end

section
/-!
PROOFS. The flash directory (R30) and the confirmation of a trial slot (R37, R440): which copy a write takes, and which copy is then in force.
-/

namespace Sys2Proof.Machine
open Sys2Proof Sys2Proof.Safety

/-! ## The directory in force -/

/-- The copy that a write of the directory stores. -/
def Flash.nextDir (fl : Flash) (a b : SlotDir) (st : Nat) : DirCopy :=
  { erased := false, crcOk := true, seq := (fl.dir.seq + 1) % 2 ^ 32, a := a, b := b, staging := st }

section
variable {fl : Flash} (a b : SlotDir) (st : Nat)

theorem Flash.useCopy0_iff :
    fl.useCopy0 = true ↔ fl.dir0.usable = true ∧ (fl.dir1.usable = true → fl.dir1.seq ≤ fl.dir0.seq) := by
  cases h : fl.dir1.usable <;> simp [Flash.useCopy0, h]

theorem Flash.dir_of_copy0 (h : fl.useCopy0 = true) : fl.dir = fl.dir0 := if_pos h

theorem Flash.dir_of_copy1 (h : fl.useCopy0 = false) (h1 : fl.dir1.usable = true) : fl.dir = fl.dir1 := by
  simp [Flash.dir, h, h1]

theorem Flash.writeDir_over1 (h : fl.useCopy0 = true) : fl.writeDir a b st = { fl with dir1 := fl.nextDir a b st } := if_pos h

theorem Flash.writeDir_over0 (h : fl.useCopy0 = false) : fl.writeDir a b st = { fl with dir0 := fl.nextDir a b st } :=
  if_neg (Bool.eq_false_iff.mp h)

theorem Flash.nextDir_seq (h : fl.dir.seq + 1 < 2 ^ 32) : (fl.nextDir a b st).seq = fl.dir.seq + 1 := Nat.mod_eq_of_lt h

/-- A write of the directory takes effect: the copy written is the newer one. -/
theorem Flash.dir_writeDir (h : fl.dir.seq + 1 < 2 ^ 32) : (fl.writeDir a b st).dir = fl.nextDir a b st := by
  have hseq := Flash.nextDir_seq a b st h
  cases h0 : fl.useCopy0 with
  | true =>
    rw [Flash.dir_of_copy0 h0] at hseq
    have older : ({ fl with dir1 := fl.nextDir a b st } : Flash).useCopy0 = false := by
      refine Bool.eq_false_iff.mpr fun hu => ?_
      have hle : (fl.nextDir a b st).seq ≤ fl.dir0.seq := (Flash.useCopy0_iff.mp hu).2 rfl
      omega
    rw [Flash.writeDir_over1 a b st h0]
    exact Flash.dir_of_copy1 older rfl
  | false =>
    rw [Flash.writeDir_over0 a b st h0]
    refine Flash.dir_of_copy0 (Flash.useCopy0_iff.mpr ⟨rfl, fun h1 => ?_⟩)
    rw [Flash.dir_of_copy1 h0 h1] at hseq
    show fl.dir1.seq ≤ (fl.nextDir a b st).seq
    omega

/-- With copy 1 failing its CRC, a usable copy 0 is in force. -/
theorem Flash.dir_bad1 (d : DirCopy) (h : fl.dir0.usable = true) : ({ fl with dir1 := { d with crcOk := false } } : Flash).dir = fl.dir0 :=
  Flash.dir_of_copy0 (Flash.useCopy0_iff.mpr ⟨h, fun h1 => by simp [DirCopy.usable] at h1⟩)

/-- With copy 0 failing its CRC, a usable copy 1 is in force. -/
theorem Flash.dir_bad0 (d : DirCopy) (h : fl.dir1.usable = true) : ({ fl with dir0 := { d with crcOk := false } } : Flash).dir = fl.dir1 :=
  Flash.dir_of_copy1 (Bool.eq_false_iff.mpr fun hu => by simpa [DirCopy.usable] using (Flash.useCopy0_iff.mp hu).1) h

end

/-- Settles O2: the copy not in force is written, with the higher sequence number; the other one is left, and answers for a failed CRC. -/
theorem directoryWrites : Obligations.DirectoryWrites := by
  intro fl a b st
  refine ⟨fun h => ?inForce, fun h0 => ?copy0, fun h0 => ?copy1⟩
  case inForce =>
    rw [Flash.dir_writeDir a b st h, Flash.nextDir, Nat.mod_eq_of_lt h]
  case copy0 =>
    rw [Flash.writeDir_over1 a b st h0, Flash.dir_of_copy0 h0]
    exact ⟨rfl, Flash.dir_bad1 _ (Flash.useCopy0_iff.mp h0).1⟩
  case copy1 =>
    rw [Flash.writeDir_over0 a b st h0]
    exact ⟨rfl, fun h1 => (Flash.dir_bad0 _ h1).trans (Flash.dir_of_copy1 h0 h1).symm⟩

/-! ## A slot's entry in the directory -/

section
variable {fl : Flash} (b : Bool) (d : SlotDir)

theorem Flash.slotDir_setSlotDir_same (h : fl.dir.seq + 1 < 2 ^ 32) : (fl.setSlotDir b d).slotDir b = d := by
  cases b <;> simp [Flash.slotDir, Flash.setSlotDir, Flash.dir_writeDir _ _ _ h, Flash.nextDir]

theorem Flash.slotDir_setSlotDir_other (h : fl.dir.seq + 1 < 2 ^ 32) : (fl.setSlotDir b d).slotDir (!b) = fl.slotDir (!b) := by
  cases b <;> simp [Flash.slotDir, Flash.setSlotDir, Flash.dir_writeDir _ _ _ h, Flash.nextDir]

theorem Flash.slots_writeDir (x y : SlotDir) (st : Nat) : (fl.writeDir x y st).slotA = fl.slotA ∧ (fl.writeDir x y st).slotB = fl.slotB := by
  unfold Flash.writeDir
  split <;> exact ⟨rfl, rfl⟩

theorem Flash.slots_setSlotDir : (fl.setSlotDir b d).slotA = fl.slotA ∧ (fl.setSlotDir b d).slotB = fl.slotB := by
  cases b <;> exact Flash.slots_writeDir _ _ _

end

theorem State.setSlotState_fl (s : State) (b : Bool) (st : Nat) :
    (s.setSlotState b st).fl = s.fl.setSlotDir b { s.fl.slotDir b with state := st } := rfl

/-! ## After the start (R37, R42, R45, R440) -/

theorem State.up_of_starting {s : State} (h : s.pw.mode = .starting) : s.up = true := by simp [State.up, h]
theorem State.up_of_running {s : State} (h : s.pw.mode = .running) : s.up = true := by simp [State.up, h]

theorem whenUp_up {f : State → State} {s : State} (h : s.up = true) : whenUp f s = f s := if_pos h

/-- A configured sensor that has neither passed nor failed when its count ends fails, with a WARNING. -/
theorem exec_sensorCheckExpire_fails {s : State} {n : Nat} (hup : s.up = true) (hstage : s.f F.BOOT_STATUS_STAGE = 4)
    (hwait : s.bt.waitOver = true) (hn : n ∈ s.sensors) (hpass : s.sensorPassed n = false) (hfail : n ∉ s.bt.sensorsFailed) :
    exec (.sensorCheckExpire n) s = .next (s.sensorFails n) :=
  congrArg Host.Outcome.next ((whenUp_up hup).trans (if_neg (by simp [hstage, hwait, hn, hpass, hfail])))

/-- The age of a training cache copy: 0 for one that is not valid. -/
def TrainCopy.age (c : TrainCopy) : Nat := if c.erased || !c.crcOk then 0 else c.seq + 1

theorem TrainCopy.age_valid {c : TrainCopy} (he : c.erased = false) (hc : c.crcOk = true) : c.age = c.seq + 1 := by simp [TrainCopy.age, he, hc]

/-- What a full training at a junction temperature leaves in the training cache. -/
def State.nextTrain (s : State) (jt : Int) : TrainCopy :=
  { erased := false, crcOk := true, seq := Nat.max s.fl.train0.age s.fl.train1.age, device := s.otp.idDigest, cfg := s.ddrDigest,
    code := Config.trainCode s.bt.img.firmware, jt := jt }

/-- The flash with a training cache copy in the older one's place. -/
def Flash.putTrain (fl : Flash) (c : TrainCopy) : Flash :=
  if fl.train0.age ≤ fl.train1.age then { fl with train0 := c } else { fl with train1 := c }

theorem exec_trainingCacheWrite {s : State} {jt : Int} (hm : s.pw.mode = .running) (hj : s.bt.trained = some jt) :
    exec .trainingCacheWrite s
      = .next (({ s with fl := s.fl.putTrain (s.nextTrain jt), bt := { s.bt with trained := none } } : State).event 0x1 3) := by
  refine congrArg Host.Outcome.next ((whenUp_up (State.up_of_running hm)).trans ?_)
  unfold trainingCacheWrite
  rw [hj]
  exact if_neg (not_not_intro hm)

theorem Flash.putTrain_cases (fl : Flash) (c : TrainCopy) : fl.putTrain c = { fl with train0 := c } ∨ fl.putTrain c = { fl with train1 := c } :=
  (Decidable.em (fl.train0.age ≤ fl.train1.age)).imp (fun h => if_pos h) (fun h => if_neg h)

/-- Of two valid copies the older one is replaced, by one with the next sequence number. -/
theorem State.putTrain_older {s : State} (jt : Int) (he0 : s.fl.train0.erased = false) (hc0 : s.fl.train0.crcOk = true)
    (he1 : s.fl.train1.erased = false) (hc1 : s.fl.train1.crcOk = true) :
    (s.fl.train0.seq < s.fl.train1.seq →
        s.fl.putTrain (s.nextTrain jt) = { s.fl with train0 := s.nextTrain jt } ∧ (s.nextTrain jt).seq = s.fl.train1.seq + 1)
    ∧ (s.fl.train1.seq < s.fl.train0.seq →
        s.fl.putTrain (s.nextTrain jt) = { s.fl with train1 := s.nextTrain jt } ∧ (s.nextTrain jt).seq = s.fl.train0.seq + 1) := by
  have h0 := TrainCopy.age_valid he0 hc0
  have h1 := TrainCopy.age_valid he1 hc1
  have hseq : (s.nextTrain jt).seq = max s.fl.train0.age s.fl.train1.age := rfl
  exact ⟨fun h => ⟨if_pos (by omega), by omega⟩, fun h => ⟨if_neg (by omega), by omega⟩⟩

/-- The security version counter rises to a value, where it is below (R440). -/
def State.raiseSvc (s : State) (v : Nat) : State :=
  if s.otp.svc < v then ({ s with otp.svc := v } : State).mirrorOtp.event 0x1 4 0 0 v else s

/-- An update that waited for its trial is over. -/
def State.endTrial (s : State) : State := if s.f F.SEC_UPDATE_STATE = 6 then s.setUpd 0 else s

theorem State.endTrial_parts (s : State) : s.endTrial.fl = s.fl ∧ s.endTrial.otp = s.otp ∧ s.endTrial.mem = s.mem ∧ s.endTrial.pw = s.pw := by
  unfold State.endTrial
  split <;> exact ⟨rfl, rfl, rfl, rfl⟩

theorem State.raiseSvc_parts (s : State) (v : Nat) :
    (s.raiseSvc v).fl = s.fl ∧ (s.raiseSvc v).otp = { s.otp with svc := Nat.max s.otp.svc v } ∧ (s.raiseSvc v).mem = s.mem
      ∧ (s.raiseSvc v).pw = s.pw := by
  unfold State.raiseSvc
  split
  next h =>
    have hmax : Nat.max s.otp.svc v = v := Nat.max_eq_right (Nat.le_of_lt h)
    have hm := State.mirrorOtp_only (s := { s with otp.svc := v })
    rw [event_fl, event_otp, event_mem, event_pw, hm.fl rfl, hm.otp rfl, hm.mem rfl, hm.pw rfl, hmax]
    exact ⟨rfl, rfl, rfl, rfl⟩
  next h =>
    have hmax : Nat.max s.otp.svc v = s.otp.svc := Nat.max_eq_left (Nat.le_of_not_lt h)
    rw [hmax]
    exact ⟨rfl, rfl, rfl, rfl⟩

theorem exec_trialConfirm {s : State} {b : Bool} (hm : s.pw.mode = .running) (hb : s.bt.slot = some b) (hst : (s.fl.slotDir b).state = 2)
    (hwd : s.bt.wdSeen = false) (hpose : s.allPosing = true) :
    exec .trialConfirm s
      = .next (((s.setSlotState b 3).raiseSvc (Nat.min (96 - s.otp.svcLost) s.bt.img.secver)).endTrial.event 0xF 6) := by
  refine congrArg Host.Outcome.next ((whenUp_up (State.up_of_running hm)).trans ?_)
  unfold trialConfirm
  rw [hb]
  exact if_neg (by simp [hm, hst, hwd, hpose])

/-- Settles O4: each command's effect, written out, touches what its rule names; the WARNING's code is free (log entry 23). -/
theorem afterTheStart : Obligations.AfterTheStart := by
  intro s
  refine ⟨fun hup hstage hwait n hn hpass hfail => ?sensor, fun hm jt hj => ?training, fun hm b hb hst hwd hpose hseq => ?trial⟩
  case sensor =>
    exact ⟨_, exec_sensorCheckExpire_fails hup hstage hwait hn hpass hfail, touches_warnOpen [] _ _ _ _⟩
  case training =>
    refine ⟨_, s.nextTrain jt, exec_trainingCacheWrite hm hj, rfl, rfl, rfl, rfl, rfl, ?_, fun he0 hc0 he1 hc1 => ?_, ?_⟩
    · rw [event_fl]
      exact Flash.putTrain_cases _ _
    · rw [event_fl]
      exact State.putTrain_older jt he0 hc0 he1 hc1
    · rw [event_fl]
      exact touches_event [] _ _ _ _ _ _ _
  case trial =>
    obtain ⟨hfl, hotp, hmem, hpw⟩ := State.endTrial_parts ((s.setSlotState b 3).raiseSvc (Nat.min (96 - s.otp.svcLost) s.bt.img.secver))
    obtain ⟨hfl', hotp', hmem', hpw'⟩ := State.raiseSvc_parts (s.setSlotState b 3) (Nat.min (96 - s.otp.svcLost) s.bt.img.secver)
    obtain ⟨hA, hB⟩ := Flash.slots_setSlotDir (fl := s.fl) b { s.fl.slotDir b with state := 3 }
    refine ⟨_, exec_trialConfirm hm hb hst hwd hpose, ?_⟩
    rw [event_fl, event_otp, event_mem, event_pw, hfl, hotp, hmem, hpw, hfl', hotp', hmem', hpw', State.setSlotState_fl,
      Flash.slotDir_setSlotDir_same _ _ hseq, Flash.slotDir_setSlotDir_other _ _ hseq]
    exact ⟨rfl, rfl, rfl, hA, hB, rfl, State.setSlotState_only.mem rfl, State.setSlotState_only.pw rfl⟩

end Sys2Proof.Machine
end

section
/-!
PROOFS. Resets and the beginning of a start (R36, R39, R459, R466): what the boot ROM shows, the slot it selects, and what a restart keeps.
-/

namespace Sys2Proof.Machine
open Sys2Proof Sys2Proof.Safety

theorem satU_lt (w v : Nat) : satU w v < 2 ^ w := by
  unfold satU
  split
  · assumption
  · exact Nat.sub_lt (Nat.two_pow_pos w) Nat.one_pos

theorem State.f_lt (s : State) (x : Fld) (i j : Nat) : s.f x i j < 2 ^ (x.hi - x.lo + 1) := Nat.mod_lt _ (Nat.two_pow_pos _)

/-! ## What the boot ROM shows -/

/-- The ROM shows the OTP and the units, and asks the regulator. -/
def State.romUnits (s : State) : State := ({ s with pw.mode := .starting, tm := {} } : State).mirrorOtp.syncAll.readVoutMode

theorem State.readVoutMode_pw (s : State) : s.readVoutMode.pw = { s.pw with voutMode := s.freeVal % 32 } := rfl

theorem State.romUnits_pw (s : State) : ∃ v : Nat, s.romUnits.pw = { s.pw with mode := .starting, voutMode := v } := by
  have h := ({ s with pw.mode := .starting, tm := {} } : State).mirrorOtp.syncAll.readVoutMode_pw
  rw [State.syncAll_only.pw rfl, State.mirrorOtp_only.pw rfl] at h
  exact ⟨_, h⟩

theorem State.romShow_eq (s : State) :
    s.romShow = ((s.romUnits.setF F.PWR_SMB_ADDR (0x40 + s.romUnits.pw.straps % 4)).setB F.PWR_STATUS_PWRGD true).showIdentity.event 0x1 Ev.start :=
  rfl

/-- The ROM's first part leaves the part starting; of the pins and counters of power only the regulator's answer is new. -/
theorem State.romShow_pw (s : State) : ∃ v : Nat, s.romShow.pw = { s.pw with mode := .starting, voutMode := v } := by
  rw [State.romShow_eq, event_pw, State.showIdentity_only.pw rfl]
  exact s.romUnits_pw

/-- The straps give the SMBus address (R484). -/
theorem State.romShow_address (s : State) : s.romShow.f F.PWR_SMB_ADDR = 0x40 + s.pw.straps % 4 := by
  obtain ⟨v, hv⟩ := s.romUnits_pw
  have hlt : 0x40 + s.pw.straps % 4 < 2 ^ 7 := by omega
  rw [State.romShow_eq, event_f _ _ _ _ _ _ _ _ _ _ (by decide), State.showIdentity_only.f _ _ _ (by decide), State.setB,
    State.f_setF_addr _ _ (by decide), State.f_setF_same, hv]
  exact Nat.mod_eq_of_lt hlt

/-! ## Slot selection (R36) -/

section
variable {s : State}

theorem State.checkSlot_empty {b : Bool} (h : (s.fl.slotDir b).state = 0) : s.checkSlot b = (s, false) := if_pos h

theorem State.checkSlot_passes {b : Bool} (h : (s.fl.slotDir b).state ≠ 0) (hp : slotError s.otp s.fl.slotSize (s.fl.slot b) = none) :
    s.checkSlot b = (s.addSat F.BOOT_FLASH_REREADS (romRereads (s.fl.slot b)), true) := by
  rw [State.checkSlot, if_neg h, hp]

/-- Two empty slots: none to boot. -/
theorem State.selectSlot_empty (ha : (s.fl.slotDir false).state = 0) (hb : (s.fl.slotDir true).state = 0) : s.selectSlot = (s, none) := by
  unfold State.selectSlot
  rw [State.checkSlot_empty ha]
  dsimp only
  rw [State.checkSlot_empty hb]
  rfl

/-- A VALID slot A that passes its checks, beside an empty slot B: it is booted. -/
theorem State.selectSlot_validA (ha : (s.fl.slotDir false).state = 1) (hb : (s.fl.slotDir true).state = 0)
    (hp : slotError s.otp s.fl.slotSize s.fl.slotA = none) :
    s.selectSlot = (s.addSat F.BOOT_FLASH_REREADS (romRereads s.fl.slotA), some false) := by
  unfold State.selectSlot
  rw [State.checkSlot_passes (by rw [ha]; decide) hp]
  dsimp only
  rw [State.checkSlot_empty (s := s.addSat F.BOOT_FLASH_REREADS (romRereads (s.fl.slot false))) hb]
  simp [pickSlot, ha, Flash.slot]

/-- A staging area that is verified stays, and with it the flash (R447). -/
theorem State.romFlash_fl (h : s.fl.dir.staging = 1) : s.romFlash.fl = s.fl := by
  unfold State.romFlash
  dsimp only
  rw [if_pos (by simpa using h), State.syncSlots_only.fl rfl, State.setB_fl, State.showStaged_only.fl rfl, State.setF_fl, State.setF_fl]

end

theorem slotError_none {o : Otp} {size : Nat} {img : Option Image} (h : slotError o size img = none) : ∃ i, img = some i := by
  cases img with
  | none => cases h
  | some i => exact ⟨i, rfl⟩

/-! ## Recovery, and a slot booted -/

theorem State.enterRecovery_pw (s : State) (err : Nat) : (s.enterRecovery err).pw = { s.pw with mode := .recovery } := by
  simp [State.enterRecovery]

theorem State.enterRecovery_error (s : State) (err : Nat) : (s.enterRecovery err).f F.BOOT_STATUS_ERROR = err % 256 :=
  State.f_setF_same _ _ _ _

theorem State.bootSlot_bt (s : State) (b : Bool) : (s.bootSlot b).bt = { s.bt with slot := some b, img := (s.fl.slot b).getD {} } := rfl

theorem State.bootSlot_slot (s : State) (b : Bool) : (s.bootSlot b).f F.BOOT_STATUS_SLOT = b2n b := by
  unfold State.bootSlot
  dsimp only
  rw [State.f_setF_addr _ _ (by decide), State.f_setF_addr _ _ (by decide), (State.setPair_only rfl rfl).f _ _ _ (by decide),
    State.f_setF_apart, State.f_setF_same]
  cases b <;> rfl

/-- The ROM leaves the part in recovery, or ready to start. -/
theorem State.romBoot_pw (s : State) : s.romBoot.pw = { s.pw with mode := .recovery } ∨ s.romBoot.pw = s.pw := by
  have hsel : s.romFlash.selectSlot.1.pw = s.pw := (State.selectSlot_only.pw rfl).trans (State.romFlash_only.pw rfl)
  unfold State.romBoot
  split
  · exact .inl (State.enterRecovery_pw _ _)
  · dsimp only
    split
    · exact .inl (by rw [State.enterRecovery_pw, hsel])
    · exact .inr ((State.bootSlot_only.pw rfl).trans hsel)

/-- The boot ROM's part of step 1 changes the mode and the regulator's answer only, of the pins and counters of power. -/
theorem State.romStart_pw (s : State) :
    ∃ (m : PMode) (v : Nat), (m = .starting ∨ m = .recovery) ∧ s.romStart.pw = { s.pw with mode := m, voutMode := v } := by
  obtain ⟨v, hv⟩ := s.romShow_pw
  rcases s.romShow.romBoot_pw with h | h
  · exact ⟨.recovery, v, .inr rfl, by rw [State.romStart, h, hv]⟩
  · exact ⟨.starting, v, .inl rfl, by rw [State.romStart, h, hv]⟩

theorem State.romStart_address (s : State) : s.romStart.f F.PWR_SMB_ADDR = 0x40 + s.pw.straps % 4 :=
  (State.romBoot_only.f _ _ _ (by decide)).trans s.romShow_address

section
variable {s : State}

/-- A flash that does not answer: recovery with error 0x01. -/
theorem State.romBoot_unreadable (h : s.fl.sfdpOk = false) : s.romBoot = s.enterRecovery 0x01 := if_pos (by simp [h])

theorem State.romBoot_none {r : State} (h : s.fl.sfdpOk = true) (hs : s.romFlash.selectSlot = (r, none)) : s.romBoot = r.enterRecovery 0x02 := by
  rw [State.romBoot, if_neg (by simp [h]), hs]

theorem State.romBoot_some {r : State} {b : Bool} (h : s.fl.sfdpOk = true) (hs : s.romFlash.selectSlot = (r, some b)) :
    s.romBoot = r.bootSlot b := by
  rw [State.romBoot, if_neg (by simp [h]), hs]

end

/-! ## A release of SYS_RESET_N (R459) -/

section
variable {s : State}

/-- The pins and counters of power once SYS_RESET_N is released. -/
def PwrSt.released (p : PwrSt) (strap puf : Nat) : PwrSt := { p with sysResetN := true, straps := strap % 4, pufBad := decide (16 ≤ puf) }

/-- The part when the ROM begins after a release. -/
def State.released (s : State) (strap puf : Nat) : State :=
  ({ s with pw := s.pw.released strap puf } : State).setF F.PWR_RESET_CAUSE_CAUSE s.pw.nextCause

theorem exec_sysResetRelease (hm : s.pw.mode = .reset) (hp : s.pw.pwrgd = true) (hn : s.pw.sysResetN = false) (strap puf : Nat) :
    exec (.sysResetRelease strap puf) s = .next (s.released strap puf).romStart :=
  congrArg Host.Outcome.next (if_neg (by simp [hm, hp, hn]))

/-- The registers that tell of resets, and the one that holds the AVS set point. -/
def resetRegs : List Reg := [R.PWR_RESET_CAUSE, R.PWR_AVS_SET]

theorem resetRegs_cases {r : Reg} (h : r ∈ resetRegs) : r = R.PWR_RESET_CAUSE ∨ r = R.PWR_AVS_SET := by simpa [resetRegs] using h

/-- The ROM leaves the cause of reset, the count of starts and the AVS set point alone. -/
theorem State.romStart_f {x : Fld} (h : x.reg ∈ resetRegs) : s.romStart.f x = s.f x := by
  refine State.romStart_only.f x 0 0 ?_
  rcases resetRegs_cases h with h | h <;> rw [h] <;> decide

end

/-! ## A restart (R466) -/

theorem keptTemps_only (g : Nat → Nat) (u : State) :
    Only R.PWR_TEMP.mask u ((List.range 24).foldl (fun r n => r.setF F.PWR_TEMP_MAX (g n) n) u) :=
  Only.foldl _ (fun _ _ h => h.trans (State.setF_only (x := F.PWR_TEMP_MAX) rfl)) (Only.refl _ _)

/-- What a restart keeps: the event log and its number, the count of starts with this one, and the AVS set point; the cause reads SELF. -/
def State.restartShown (s : State) : State :=
  let r := ({ s.unitsReset with log := s.log, dsp.evtSeq := s.dsp.evtSeq } : State).setPair R.DSP_EVT_HEAD_LO R.DSP_EVT_HEAD_HI s.dsp.evtSeq
  ((r.setF F.PWR_RESET_CAUSE_STARTS (satU 16 (s.f F.PWR_RESET_CAUSE_STARTS + 1))).setF F.PWR_RESET_CAUSE_CAUSE 2).setF F.PWR_AVS_SET_SET_MV
    (s.f F.PWR_AVS_SET_SET_MV)

/-- What a restart keeps until system reset: DEBUG_SEEN, the rejected slot and the highest temperatures. -/
def State.restartKept (s r : State) : State :=
  let r := (r.setB F.SEC_STATUS_DEBUG_SEEN (s.fb F.SEC_STATUS_DEBUG_SEEN)).setB F.BOOT_EVT_SLOT_REJECTED s.bt.refused
  (List.range 24).foldl (fun r n => r.setF F.PWR_TEMP_MAX (s.f F.PWR_TEMP_MAX n) n) { r with pw.seen := s.pw.seen }

theorem State.restart_eq (s : State) (cause : Nat) :
    s.restart cause = ((s.event 0x1 Ev.restart 0 0 cause).restartKept (s.event 0x1 Ev.restart 0 0 cause).restartShown).romStart := rfl

theorem State.restartShown_cause (s : State) : s.restartShown.f F.PWR_RESET_CAUSE_CAUSE = 2 := by
  rw [State.restartShown, State.f_setF_addr _ _ (by decide), State.f_setF_same]
  rfl

theorem State.restartShown_starts (s : State) : s.restartShown.f F.PWR_RESET_CAUSE_STARTS = satU 16 (s.f F.PWR_RESET_CAUSE_STARTS + 1) := by
  rw [State.restartShown, State.f_setF_addr _ _ (by decide), State.f_setF_apart, State.f_setF_same]
  exact Nat.mod_eq_of_lt (satU_lt 16 _)

theorem State.restartShown_mv (s : State) : s.restartShown.f F.PWR_AVS_SET_SET_MV = s.f F.PWR_AVS_SET_SET_MV := by
  rw [State.restartShown, State.f_setF_same]
  exact Nat.mod_eq_of_lt (s.f_lt _ _ _)

theorem State.restartShown_parts (s : State) : s.restartShown.mem = [] ∧ s.restartShown.tally = [] ∧ s.restartShown.otp = s.otp
    ∧ s.restartShown.ssd = s.ssd := by
  simp [State.restartShown, State.unitsReset, State.reset]

theorem State.f_set_pw (s : State) (p : PwrSt) (x : Fld) (i j : Nat) : ({ s with pw := p } : State).f x i j = s.f x i j := rfl

theorem State.restartKept_f (s r : State) {x : Fld} (h : x.reg ∈ resetRegs) : (s.restartKept r).f x = r.f x := by
  obtain ⟨hsec, hevt, htemp⟩ : x.reg.addr 0 0 ≠ R.SEC_STATUS.addr 0 0 ∧ x.reg.addr 0 0 ≠ R.BOOT_EVT.addr 0 0
      ∧ spares R.PWR_TEMP.mask x.reg = true := by
    rcases resetRegs_cases h with h | h <;> rw [h] <;> decide
  unfold State.restartKept
  dsimp only
  rw [(keptTemps_only _ _).f x 0 0 htemp, State.f_set_pw, State.setB, State.f_setF_addr _ _ hevt, State.setB, State.f_setF_addr _ _ hsec]

theorem State.restart_shows (s : State) (cause : Nat) :
    (s.restart cause).f F.PWR_RESET_CAUSE_CAUSE = 2
    ∧ (s.restart cause).f F.PWR_RESET_CAUSE_STARTS = satU 16 (s.f F.PWR_RESET_CAUSE_STARTS + 1)
    ∧ (s.restart cause).f F.PWR_AVS_SET_SET_MV = s.f F.PWR_AVS_SET_SET_MV := by
  have hev : ∀ x : Fld, x.reg ∈ resetRegs → (s.event 0x1 Ev.restart 0 0 cause).f x = s.f x := fun x h =>
    event_f _ _ _ _ _ _ _ x 0 0 (by rcases resetRegs_cases h with h | h <;> rw [h] <;> decide)
  have hsaw : ∀ x : Fld, x.reg ∈ resetRegs →
      (s.restart cause).f x = (s.event 0x1 Ev.restart 0 0 cause).restartShown.f x := fun x h => by
    rw [State.restart_eq, State.romStart_f h, State.restartKept_f _ _ h]
  have hin : R.PWR_RESET_CAUSE ∈ resetRegs ∧ R.PWR_AVS_SET ∈ resetRegs := by decide
  rw [hsaw _ hin.1, hsaw _ hin.1, hsaw _ hin.2, State.restartShown_cause, State.restartShown_starts, State.restartShown_mv, hev _ hin.1,
    hev _ hin.2]
  exact ⟨rfl, rfl, rfl⟩

theorem State.restartKept_parts (s r : State) : (s.restartKept r).mem = r.mem ∧ (s.restartKept r).tally = r.tally ∧ (s.restartKept r).otp = r.otp
    ∧ (s.restartKept r).ssd = r.ssd := by
  unfold State.restartKept
  dsimp only
  rw [(keptTemps_only _ _).mem (by decide), (keptTemps_only _ _).tally (by decide), (keptTemps_only _ _).otp (by decide),
    (keptTemps_only _ _).ssd (by decide)]
  exact ⟨rfl, rfl, rfl, rfl⟩

theorem State.restart_parts (s : State) (cause : Nat) : (s.restart cause).mem = [] ∧ (s.restart cause).tally = []
    ∧ (s.restart cause).otp = s.otp ∧ (s.restart cause).ssd = s.ssd := by
  rw [State.restart_eq, State.romStart_only.mem rfl, State.romStart_only.tally rfl, State.romStart_only.otp rfl, State.romStart_only.ssd rfl]
  obtain ⟨hmem, htally, hotp, hssd⟩ := (s.event 0x1 Ev.restart 0 0 cause).restartKept_parts (s.event 0x1 Ev.restart 0 0 cause).restartShown
  obtain ⟨hmem', htally', hotp', hssd'⟩ := (s.event 0x1 Ev.restart 0 0 cause).restartShown_parts
  rw [hmem, htally, hotp, hssd, hmem', htally', hotp', hssd', event_otp, event_ssd]
  exact ⟨rfl, rfl, rfl, rfl⟩

theorem State.restart_mode (s : State) (cause : Nat) : (s.restart cause).pw.mode = .starting ∨ (s.restart cause).pw.mode = .recovery := by
  obtain ⟨m, v, hm, hpw⟩ := ((s.event 0x1 Ev.restart 0 0 cause).restartKept (s.event 0x1 Ev.restart 0 0 cause).restartShown).romStart_pw
  rw [State.restart_eq, hpw]
  exact hm

/-! ## A start begins -/

section
variable {s : State}

/-- A release of SYS_RESET_N shows the cause of reset; the count of starts and the AVS set point stay. -/
theorem State.released_shows (s : State) (strap puf : Nat) :
    (s.released strap puf).f F.PWR_RESET_CAUSE_CAUSE = s.pw.nextCause % 4
    ∧ (s.released strap puf).f F.PWR_RESET_CAUSE_STARTS = s.f F.PWR_RESET_CAUSE_STARTS
    ∧ (s.released strap puf).f F.PWR_AVS_SET_SET_MV = s.f F.PWR_AVS_SET_SET_MV :=
  ⟨State.f_setF_same _ _ _ _, State.f_setF_apart _ _ _ _, State.f_setF_addr _ _ (by decide)⟩

theorem State.romShow_keeps (s : State) : s.romShow.fl = s.fl ∧ s.romShow.otp = s.otp := ⟨State.romShow_only.fl rfl, State.romShow_only.otp rfl⟩

theorem State.romStart_unreadable (h : s.fl.sfdpOk = false) : s.romStart.pw.mode = .recovery ∧ s.romStart.f F.BOOT_STATUS_ERROR = 1 := by
  rw [State.romStart, State.romBoot_unreadable (by rw [s.romShow_keeps.1, h]), State.enterRecovery_pw, State.enterRecovery_error]
  exact ⟨rfl, rfl⟩

/-- The flash and the OTP as slot selection finds them, where a verified staging area stays. -/
theorem State.romFlash_romShow (h : s.fl.dir.staging = 1) : s.romShow.romFlash.fl = s.fl ∧ s.romShow.romFlash.otp = s.otp := by
  obtain ⟨hfl, hotp⟩ := s.romShow_keeps
  exact ⟨(State.romFlash_fl (by rw [hfl, h])).trans hfl, (State.romFlash_only.otp rfl).trans hotp⟩

theorem State.romStart_empty (h : s.fl.sfdpOk = true) (hst : s.fl.dir.staging = 1) (ha : (s.fl.slotDir false).state = 0)
    (hb : (s.fl.slotDir true).state = 0) : s.romStart.pw.mode = .recovery ∧ s.romStart.f F.BOOT_STATUS_ERROR = 2 := by
  obtain ⟨hfl, -⟩ := State.romFlash_romShow hst
  have hsel := State.selectSlot_empty (s := s.romShow.romFlash) (by rw [hfl, ha]) (by rw [hfl, hb])
  rw [State.romStart, State.romBoot_none (by rw [s.romShow_keeps.1, h]) hsel, State.enterRecovery_pw, State.enterRecovery_error]
  exact ⟨rfl, rfl⟩

theorem State.romStart_validA (h : s.fl.sfdpOk = true) (hst : s.fl.dir.staging = 1) (ha : (s.fl.slotDir false).state = 1)
    (hb : (s.fl.slotDir true).state = 0) (hp : slotError s.otp s.fl.slotSize s.fl.slotA = none) :
    s.romStart.pw.mode = .starting ∧ s.romStart.bt.slot = some false ∧ some s.romStart.bt.img = s.fl.slotA
      ∧ s.romStart.f F.BOOT_STATUS_SLOT = 0 := by
  obtain ⟨hfl, hotp⟩ := State.romFlash_romShow hst
  have hsel := State.selectSlot_validA (s := s.romShow.romFlash) (by rw [hfl, ha]) (by rw [hfl, hb]) (by rw [hfl, hotp, hp])
  obtain ⟨v, hv⟩ := s.romShow_pw
  obtain ⟨i, hi⟩ := slotError_none hp
  have hslot : s.fl.slot false = some i := hi
  rw [State.romStart, State.romBoot_some (by rw [s.romShow_keeps.1, h]) hsel, State.bootSlot_slot, State.bootSlot_bt, State.bootSlot_only.pw rfl,
    State.addSat_pw, State.romFlash_only.pw rfl, hv, State.addSat_fl, hfl, hslot, hi]
  exact ⟨rfl, rfl, rfl, rfl⟩

theorem exec_selfRestart {cause : Nat} (h : s.up = true ∨ s.pw.mode = .recovery) : exec (.selfRestart cause) s = .next (selfRestart cause s) :=
  congrArg Host.Outcome.next (if_pos (by simpa using h))

theorem restartCauses_mem {cause : Nat} (h1 : 1 ≤ cause) (h9 : cause ≤ 9) : restartCauses.contains cause = true := by
  simp [restartCauses]
  omega

end

/-- Settles O54: the ROM's part of step 1, after a release and after a restart. -/
theorem startBegins : Obligations.StartBegins := by
  intro s
  refine ⟨fun hm hp hn strap puf => ?release, fun cause h1 h9 hup => ⟨fun ht => ?held, fun ht => ?restarts⟩⟩
  case release =>
    obtain ⟨m, v, -, hpw⟩ := (s.released strap puf).romStart_pw
    obtain ⟨hcause, hstarts, hmv⟩ := s.released_shows strap puf
    have haddr : (s.released strap puf).romStart.f F.PWR_SMB_ADDR = 0x40 + strap % 4 := by
      rw [State.romStart_address]
      exact congrArg (0x40 + ·) (Nat.mod_mod _ _)
    refine ⟨_, exec_sysResetRelease hm hp hn strap puf, ?_, ?_, ?_, haddr, ?_, State.romStart_only.otp rfl, State.romStart_only.ssd rfl,
      State.romStart_only.mem rfl, State.romStart_only.tally rfl, State.romStart_unreadable (s := s.released strap puf),
      State.romStart_empty (s := s.released strap puf), State.romStart_validA (s := s.released strap puf)⟩
    · rw [hpw]
      rfl
    · rw [State.romStart_f (by decide), hcause]
    · rw [State.romStart_f (by decide), hstarts]
    · rw [State.romStart_f (by decide), hmv]
  case held =>
    exact (exec_selfRestart hup).trans (congrArg Host.Outcome.next (if_neg (by simp [ht])))
  case restarts =>
    have he : exec (.selfRestart cause) s = .next (s.restart cause) :=
      (exec_selfRestart hup).trans (congrArg Host.Outcome.next (if_pos (by rw [restartCauses_mem h1 h9, ht]; rfl)))
    obtain ⟨hcause, hstarts, hmv⟩ := s.restart_shows cause
    obtain ⟨hmem, htally, hotp, hssd⟩ := s.restart_parts cause
    exact ⟨_, he, s.restart_mode cause, hcause, hstarts, hmv, hotp, hssd, hmem, htally⟩

end Sys2Proof.Machine
end

section
/-!
PROOFS. The steps of a start (R40, R42, R44, R45): the step in progress ends and shows its time and STAGE; no other step's end does anything.
-/

namespace Sys2Proof.Machine
open Sys2Proof Sys2Proof.Safety

/-! ## Which step is in progress (R40) -/

section
variable {s : State} {n : Nat} {x : StepFind}

theorem startStepDone_other (hn : n ≠ s.f F.BOOT_STATUS_STAGE + 1) : startStepDone n x s = s := if_pos (.inr hn)

theorem startStepLimit_other (hn : n ≠ s.f F.BOOT_STATUS_STAGE + 1) : startStepLimit n s = s := if_pos (.inr hn)

theorem inProgress (hm : s.pw.mode = .starting) (hn : n = s.f F.BOOT_STATUS_STAGE + 1) :
    ¬ (s.pw.mode ≠ .starting ∨ n ≠ s.f F.BOOT_STATUS_STAGE + 1) := by simp [hm, hn]

theorem exec_startStepDone (hm : s.pw.mode = .starting) : exec (.startStepDone n x) s = .next (startStepDone n x s) :=
  congrArg Host.Outcome.next (whenUp_up (State.up_of_starting hm))

theorem exec_startStepLimit (hm : s.pw.mode = .starting) : exec (.startStepLimit n) s = .next (startStepLimit n s) :=
  congrArg Host.Outcome.next (whenUp_up (State.up_of_starting hm))

/-- How each step ends (Table 2-7). -/
def State.endOfStep (s : State) (x : StepFind) : Nat → State
  | 1 => (s.stepTime 1).setStage 1
  | 2 => s.step2
  | 3 => s.step3 x
  | 4 => s.step4 x
  | 5 => s.step5
  | 6 => s.step6
  | _ => s.step7

theorem exec_startStepDone_now (hm : s.pw.mode = .starting) (hn : n = s.f F.BOOT_STATUS_STAGE + 1) :
    exec (.startStepDone n x) s = .next (s.endOfStep x n) := by
  have hend : startStepDone n x s = s.endOfStep x n := (if_neg (inProgress hm hn)).trans rfl
  rw [exec_startStepDone hm, hend]

theorem exec_startStepLimit_now (hm : s.pw.mode = .starting) (hn : n = s.f F.BOOT_STATUS_STAGE + 1) :
    exec (.startStepLimit n) s = .next ((s.event 0x1 Ev.stepLimit n).restart 2) :=
  (exec_startStepLimit hm).trans (congrArg _ (if_neg (inProgress hm hn)))

end

/-! ## The end of a step: its time and STAGE -/

section
variable (s : State) (n : Nat)

theorem State.setStage_stage : (s.setStage n).f F.BOOT_STATUS_STAGE = n % 16 := by
  rw [State.setStage, event_f _ _ _ _ _ _ _ _ _ _ (by decide), State.f_setF_same]
  rfl

theorem State.setStage_time (i : Nat) : (s.setStage n).f F.BOOT_TIME_MS i = s.f F.BOOT_TIME_MS i :=
  State.setStage_only.f _ _ _ (by decide)

theorem State.stepTime_time : (s.stepTime n).f F.BOOT_TIME_MS (n - 1) = s.mono / 1000000 % 2 ^ 32 := State.f_setF_same _ _ _ _

theorem State.endStep_shows : ((s.stepTime n).setStage n).f F.BOOT_STATUS_STAGE = n % 16
    ∧ ((s.stepTime n).setStage n).f F.BOOT_TIME_MS (n - 1) = s.mono / 1000000 % 2 ^ 32 :=
  ⟨State.setStage_stage _ _, (State.setStage_time _ _ _).trans (State.stepTime_time _ _)⟩

end

/-! ## Step 3 without a channel (R45) -/

section
variable {s : State} {x : StepFind}

theorem State.cacheOk_erased {c : TrainCopy} (jt : Int) (h : c.erased = true) : s.cacheOk jt c = false := by simp [State.cacheOk, h]

/-- No channel is in service. -/
def State.noCh (s : State) : Prop := ∀ c < 4, s.f F.MEM_CH_STATE_STATE c = 0

theorem State.chOn_noCh (h : s.noCh) : s.chOn = [] := by
  refine List.filter_eq_nil_iff.mpr fun c hc => ?_
  rw [h c (List.mem_range.mp hc)]
  decide

theorem chState_addr_ne {c k : Nat} (hc : c < 4) (hk : k < 4) (h : k ≠ c) : R.MEM_CH_STATE.addr k 0 ≠ R.MEM_CH_STATE.addr c 0 := by
  intro e
  simp only [Reg.addr, R.MEM_CH_STATE] at e
  omega

theorem State.setCh_state (c cause k : Nat) :
    (s.setCh c 0 cause).f F.MEM_CH_STATE_STATE k
      = ((s.setF F.MEM_CH_STATE_STATE 0 c).setF F.MEM_CH_STATE_CAUSE cause c).f F.MEM_CH_STATE_STATE k := by
  rw [State.setCh, if_neg (by decide), State.syncDegraded_only.f _ _ _ (by decide), (State.setPair_only rfl rfl).f _ _ _ (by decide),
    State.f_setF_addr _ _ (Reg.addr_ne (by decide) _ _ _ _)]

/-- A channel that fails its training leaves service; the others are as they were. -/
theorem State.noCh_setCh {c : Nat} (hc : c < 4) (cause : Nat) (h : s.noCh) : (s.setCh c 0 cause).noCh := by
  intro k hk
  rw [State.setCh_state]
  by_cases e : k = c
  · rw [e, State.f_setF_apart, State.f_setF_same]
    rfl
  · rw [State.f_setF_addr _ _ (chState_addr_ne hc hk e), State.f_setF_addr _ _ (chState_addr_ne hc hk e), h k hk]

theorem State.noCh_setTrain {c v : Nat} (h : s.noCh) : (s.setTrain c v).noCh := fun k hk =>
  (State.setTrain_only.f _ _ _ (by decide)).trans (h k hk)

/-- Full training of one channel. -/
def State.trainCh (x : StepFind) (s : State) (c : Nat) : State :=
  if bitOf x.trainBad c then (s.setCh c 0 1).setTrain c 3 else (s.setCh c 1 0).setTrain c 2

/-- The part after full training of every fitted channel. -/
def State.trainAll (s : State) (x : StepFind) : State :=
  let s : State := { s with bt.trained := some x.jt }
  s.fitted.foldl (State.trainCh x) s

/-- Where no copy of the training cache holds, step 3 trains every fitted channel, and halts where none is left (R45, Table 2-13). -/
theorem State.step3_trains (h0 : s.fl.train0.erased = true) (h1 : s.fl.train1.erased = true) :
    s.step3 x = if (s.trainAll x).chOn.isEmpty then (s.trainAll x).halt 0x0B else (s.trainAll x).placeAll :=
  if_neg (by simp [State.cacheOk_erased _ h0, State.cacheOk_erased _ h1])

theorem State.noCh_trainAll (hbad : ∀ c < 4, bitOf (s.f F.MEM_DDR_CFG_CH_MASK) c = true → bitOf x.trainBad c = true) (h : s.noCh) :
    (s.trainAll x).noCh := by
  refine List.foldlRecOn (motive := State.noCh) _ _ h fun u hu c hc => ?_
  obtain ⟨hlt, hfit⟩ := List.mem_filter.mp hc
  have hlt : c < 4 := List.mem_range.mp hlt
  rw [State.trainCh, if_pos (hbad c hlt hfit)]
  exact State.noCh_setTrain (State.noCh_setCh hlt 1 hu)

theorem State.halt_shows (s : State) (code : Nat) : (s.halt code).pw.mode = .halted ∧ (s.halt code).f F.BOOT_STATUS_ERROR = code % 256 := by
  refine ⟨rfl, ?_⟩
  rw [State.halt, State.f_set_pw, event_f _ _ _ _ _ _ _ _ _ _ (by decide), State.f_setF_same]
  rfl

end

/-! ## Steps 5 to 7 -/

section
variable {s : State}

theorem State.step5_ends (hw : s.bt.waitOver = true) (hs : ∀ n ∈ s.sensors, s.sensorPassed n = true ∨ n ∈ s.bt.sensorsFailed) :
    s.step5 = ((s.stepTime 5).setStage 5).openIdxs := if_pos (by simpa [hw] using hs)

/-- Opening the indices leaves what the step shows. -/
theorem State.step5_shows (hw : s.bt.waitOver = true) (hs : ∀ n ∈ s.sensors, s.sensorPassed n = true ∨ n ∈ s.bt.sensorsFailed) :
    s.step5.f F.BOOT_STATUS_STAGE = 5 ∧ s.step5.f F.BOOT_TIME_MS 4 = s.mono / 1000000 % 2 ^ 32 := by
  rw [State.step5_ends hw hs, State.openIdxs_only.f _ _ _ (by decide), State.openIdxs_only.f _ _ _ (by decide)]
  exact s.endStep_shows 5

/-- The autostart sessions are started. -/
def State.startSessions (s : State) : State := s.autoSes.foldl (fun s n => s.startSession n false) s

theorem State.startSessions_tm (s : State) : s.startSessions.tm = s.tm :=
  (Only.foldl (m := 0x202200000001000000000000000000000000000000000000000000000000000000000000000000000000200000) s.autoSes
    (fun _ _ h => h.trans State.startSession_only) (Only.refl _ s)).tm rfl

theorem State.step6_eq (s : State) : s.step6 = (s.startSessions.stepTime 6).setStage 6 := rfl

theorem State.step6_shows (s : State) : s.step6.f F.BOOT_STATUS_STAGE = 6 ∧ s.step6.f F.BOOT_TIME_MS 5 = s.mono / 1000000 % 2 ^ 32 := by
  have h := s.startSessions.endStep_shows 6
  rw [State.mono, State.startSessions_tm] at h
  rw [State.step6_eq]
  exact h

theorem State.pair_setF (s : State) {x : Fld} {lo hi : Reg} (v i n : Nat) (hlo : lo.clear x.reg = true) (hhi : hi.clear x.reg = true) :
    (s.setF x v i).pair lo hi n = s.pair lo hi n := by
  simp only [State.pair, State.setF, State.word_setWord_ne _ _ _ _ (Reg.addr_ne hlo _ _ _ _), State.word_setWord_ne _ _ _ _ (Reg.addr_ne hhi _ _ _ _)]

theorem State.poseCounts_setF (s : State) {x : Fld} (v i : Nat) (hlo : R.FRM_SES_SEQ_LO.clear x.reg = true)
    (hhi : R.FRM_SES_SEQ_HI.clear x.reg = true) : (s.setF x v i).poseCounts = s.poseCounts :=
  List.map_congr_left fun n _ => s.pair_setF v i n hlo hhi

theorem State.step7_eq (h : s.allPosed = true) : s.step7 =
    { (s.setF F.BOOT_TIME_MS (s.mono / 1000000) 6).setF F.BOOT_STATUS_RUNNING 1 with
      pw := { s.pw with mode := .running }
      bt := { s.bt with seqs := (List.range 32).map (fun n => s.pair R.FRM_SES_SEQ_LO R.FRM_SES_SEQ_HI n), gap := none } } := by
  have hseq : ((s.stepTime 7).setB F.BOOT_STATUS_RUNNING true).poseCounts = s.poseCounts := by
    rw [State.setB, State.poseCounts_setF _ _ _ (by decide) (by decide), State.stepTime, State.poseCounts_setF _ _ _ (by decide) (by decide)]
  rw [State.step7, if_neg (by simp [h])]
  dsimp only
  rw [hseq]
  rfl

end

/-- Settles O3: each step's end, where the step is in progress and its conditions hold. -/
theorem startSteps : Obligations.StartSteps := by
  intro s x hm
  refine ⟨fun n hn => ?other, fun h0 => ?step1, fun h2 he0 he1 hbad hch => ?step3, fun h4 hw hs => ?step5, fun h5 => ?step6, fun h6 hp => ?step7,
    fun n hn => ?limit⟩
  case other =>
    exact ⟨(exec_startStepDone hm).trans (congrArg _ (startStepDone_other hn)),
      (exec_startStepLimit hm).trans (congrArg _ (startStepLimit_other hn))⟩
  case step1 =>
    exact exec_startStepDone_now hm (by rw [h0])
  case step3 =>
    have hend : s.step3 x = (s.trainAll x).halt 0x0B :=
      (State.step3_trains he0 he1).trans (if_pos (by rw [State.chOn_noCh (State.noCh_trainAll hbad hch)]; rfl))
    obtain ⟨hmode, herr⟩ := (s.trainAll x).halt_shows 0x0B
    exact ⟨_, (exec_startStepDone_now hm (by rw [h2])).trans (congrArg _ hend), hmode, herr⟩
  case step5 =>
    obtain ⟨hstage, htime⟩ := State.step5_shows hw hs
    exact ⟨s.step5, exec_startStepDone_now hm (by rw [h4]), hstage, htime, State.step5_only.pw rfl, State.step5_only.bt rfl⟩
  case step6 =>
    obtain ⟨hstage, htime⟩ := s.step6_shows
    exact ⟨s.step6, exec_startStepDone_now hm (by rw [h5]), hstage, htime, State.step6_only.pw rfl⟩
  case step7 =>
    exact (exec_startStepDone_now hm (by rw [h6])).trans (congrArg _ (State.step7_eq hp))
  case limit =>
    exact ⟨_, exec_startStepLimit_now hm hn, State.restart_mode _ _, (State.restart_shows _ _).1⟩

end Sys2Proof.Machine
end

section
/-!
PROOFS. What the steps of ingest (chapter 04) do to a sensor's open frame, and what the end of a frame shows (R91, R96–R98).
-/

namespace Sys2Proof.Machine
open Sys2Proof Sys2Proof.Safety

/-! ## One sensor of ingest -/

section
variable (s : State) (n : Nat) (x : SnsSt)

@[simp] theorem State.sns_setSns_same : (s.setSns n x).sns n = x := tget_tput_same _ _ _ _

theorem State.sns_setSns_ne {m : Nat} (h : m ≠ n) : (s.setSns n x).sns m = s.sns m := tget_tput_ne _ _ _ _ h

@[simp] theorem State.setSns_st : (s.setSns n x).ing.st = s.ing.st := rfl

theorem State.sns_congr {s t : State} (h : t.ing.sns = s.ing.sns) : t.sns = s.sns := by
  funext m
  rw [State.sns, State.sns, h]

theorem State.notePeak_sns (port : Nat) : (s.notePeak port).ing.sns = s.ing.sns ∧ (s.notePeak port).ing.st = s.ing.st := by
  unfold State.notePeak State.tele
  dsimp only
  repeat' split
  all_goals exact ⟨rfl, rfl⟩

end

/-- From `s` to `t` sensor `n` keeps a frame open, one of which `P` holds. Beside it only the times of the sensor's stored bands and the FIFO peaks
of ingest have changed. -/
structure FrameStep (n : Nat) (P : FrameSt → Prop) (s t : State) : Prop where
  frame : ∃ f, (t.sns n).frame = some f ∧ P f
  same : t.sns n = { s.sns n with frame := (t.sns n).frame, stored := (t.sns n).stored }
  others : ∀ m, m ≠ n → t.sns m = s.sns m
  st : t.ing.st = s.ing.st

section
variable {n : Nat} {P Q : FrameSt → Prop} {s t u : State} {f : FrameSt}

theorem FrameStep.refl (h : (s.sns n).frame = some f) (hp : P f) : FrameStep n P s s := ⟨⟨f, h, hp⟩, rfl, fun _ _ => rfl, rfl⟩

theorem FrameStep.trans (h : FrameStep n P s t) (k : ∀ f, (t.sns n).frame = some f → P f → FrameStep n Q t u) : FrameStep n Q s u := by
  obtain ⟨f, hf, hp⟩ := h.frame
  have hk := k f hf hp
  refine ⟨hk.frame, ?_, fun m hm => (hk.others m hm).trans (h.others m hm), hk.st.trans h.st⟩
  rw [hk.same, h.same]

theorem FrameStep.mono (h : FrameStep n P s t) (hpq : ∀ f, P f → Q f) : FrameStep n Q s t :=
  h.trans fun _ hf hp => .refl hf (hpq _ hp)

theorem FrameStep.of_sns (h : FrameStep n P s t) (hs : u.ing.sns = t.ing.sns) (hst : u.ing.st = t.ing.st) : FrameStep n P s u := by
  have e := State.sns_congr hs
  exact ⟨e ▸ h.frame, e ▸ h.same, e ▸ h.others, hst.trans h.st⟩

theorem FrameStep.of_ing (h : FrameStep n P s t) (hi : u.ing = t.ing) : FrameStep n P s u :=
  h.of_sns (congrArg IngSt.sns hi) (congrArg IngSt.st hi)

theorem FrameStep.notePeak (h : FrameStep n P s t) (port : Nat) : FrameStep n P s (t.notePeak port) :=
  h.of_sns (t.notePeak_sns port).1 (t.notePeak_sns port).2

/-- A step of ingest that begins in a state with the same ingest. -/
theorem FrameStep.from_ing (h : FrameStep n P t u) (hi : t.ing = s.ing) : FrameStep n P s u := by
  have e : t.sns = s.sns := State.sns_congr (congrArg IngSt.sns hi)
  exact ⟨h.frame, e ▸ h.same, e ▸ h.others, h.st.trans (congrArg IngSt.st hi)⟩

theorem State.setFrame_step (s : State) (n : Nat) (f : FrameSt) : FrameStep n (· = f) s (s.setFrame n f) :=
  ⟨⟨f, congrArg SnsSt.frame (State.sns_setSns_same _ _ _), rfl⟩, by rw [State.setFrame, State.sns_setSns_same],
    fun _ hm => State.sns_setSns_ne _ _ _ hm, rfl⟩

/-- The advance of the ingest Tally notes when the bands were stored, and leaves the rest of ingest. -/
theorem State.ingAdvance_sns (s : State) (n amount ts : Nat) :
    (s.ingAdvance n amount ts).sns n = { s.sns n with stored := ((s.ingAdvance n amount ts).sns n).stored }
      ∧ (∀ m, m ≠ n → (s.ingAdvance n amount ts).sns m = s.sns m) ∧ (s.ingAdvance n amount ts).ing.st = s.ing.st := by
  have hi : (s.advance 3 (s.f F.ING_SNS_TALLY_INGEST n) amount (some ts)).ing = s.ing := State.advance_only.ing rfl
  have e : (s.advance 3 (s.f F.ING_SNS_TALLY_INGEST n) amount (some ts)).sns = s.sns := State.sns_congr (congrArg IngSt.sns hi)
  unfold State.ingAdvance
  dsimp only
  rw [State.sns_setSns_same, State.setSns_st, hi, e]
  exact ⟨rfl, fun m hm => (State.sns_setSns_ne _ _ _ hm).trans (congrFun e m), rfl⟩

theorem FrameStep.ingAdvance (h : FrameStep n P s t) (amount ts : Nat) : FrameStep n P s (t.ingAdvance n amount ts) := by
  obtain ⟨hn, hm, hst⟩ := t.ingAdvance_sns n amount ts
  exact h.trans fun f hf hp => ⟨⟨f, by rw [hn, hf], hp⟩, by rw [hn], hm, hst⟩

/-- The frame once its band is complete. -/
def State.bandDone (s : State) (n : Nat) (f : FrameSt) (ok : Bool) : FrameSt :=
  { f with band := f.band + 1
           valid := if ok && f.cur.all (fun l => !l.bad (s.f F.ING_SNS_GEOM_WIDTH n)) then setBit f.valid f.band else f.valid
           prev := f.cur.getLast?, cur := [] }

/-- The state with a band's planes written and the frame past it. -/
def State.bandWritten (s : State) (n : Nat) (f : FrameSt) (ok : Bool) (next : Option Line) : State :=
  (s.writeBand n ((s.sns n).q + f.band) (f.prev.map (s.linePx n)) (next.map (s.linePx n)) (f.cur.map (s.linePx n))).setFrame n (s.bandDone n f ok)

theorem State.storeBand_eq (s : State) (n : Nat) (f : FrameSt) (ok : Bool) (next : Option Line) :
    s.storeBand n f ok next = if f.band + 1 < (s.bandWritten n f ok next).snsBands n then (s.bandWritten n f ok next).ingAdvance n 1 f.ts
      else s.bandWritten n f ok next := rfl

theorem State.storeBand_step (s : State) (n : Nat) (f : FrameSt) (ok : Bool) (next : Option Line) :
    FrameStep n (· = s.bandDone n f ok) s (s.storeBand n f ok next) := by
  have h : FrameStep n (· = s.bandDone n f ok) s (s.bandWritten n f ok next) :=
    (State.setFrame_step _ n _).from_ing (State.writeBand_only.ing rfl)
  rw [State.storeBand_eq]
  split
  · exact h.ingAdvance _ _
  · exact h

end

/-! ## A frame's flags stay -/

/-- The frame's flags hold every bit of `k`. -/
def FrameSt.flagged (k : Nat) (f : FrameSt) : Prop := k &&& f.flags = k

theorem flagged_or {k v : Nat} (h : k &&& v = k) (c : Nat) : k &&& (v ||| c) = k := by
  rw [← h, Nat.and_assoc, and_or_self]

section
variable {n k : Nat} {s : State} {f : FrameSt}

theorem State.flushBand_flagged (l : Line) (hf : (s.sns n).frame = some f) (hk : f.flagged k) :
    FrameStep n (FrameSt.flagged k) s (s.flushBand n l) := by
  rw [State.flushBand, hf]
  dsimp only
  split
  · exact (s.storeBand_step n f _ _).mono fun _ h => h ▸ hk
  · exact .refl hf hk

theorem State.putLine_flagged (l : Line) (hk : f.flagged k) : FrameStep n (FrameSt.flagged k) s (s.putLine n f l) := by
  have hl := flagged_or hk (l.flags (s.f F.ING_SNS_GEOM_WIDTH n))
  unfold State.putLine
  dsimp only
  split
  · exact (s.storeBand_step n _ _ _).mono fun _ h => h ▸ hl
  · exact (s.setFrame_step n _).mono fun _ h => h ▸ hl

theorem State.overflow_flagged (hk : f.flagged k) : FrameStep n (FrameSt.flagged k) s (s.overflow n f) := by
  have hk' : ({ f with ended := true, bad := true, wait := [], cur := [], flags := f.flags ||| 64 } : FrameSt).flagged k := flagged_or hk 64
  unfold State.overflow
  refine FrameStep.of_ing (((s.setFrame_step n _).notePeak (s.snsPort n)).mono fun _ h => h ▸ hk') ?_
  rw [event_ing]
  rfl

theorem State.placeLine_flagged (l : Line) (hk : f.flagged k) : FrameStep n (FrameSt.flagged k) s (s.placeLine n f l) := by
  have hwait : FrameStep n (FrameSt.flagged k) s ((s.setFrame n { f with wait := f.wait ++ [l] }).notePeak
      ((s.setFrame n { f with wait := f.wait ++ [l] }).snsPort n)) := ((s.setFrame_step n _).notePeak _).mono fun _ h => h ▸ hk
  unfold State.placeLine
  dsimp only
  split
  · exact State.putLine_flagged l hk
  · split
    · exact hwait.trans fun _ _ _ => State.overflow_flagged (f := { f with wait := f.wait ++ [l] }) hk
    · exact hwait

theorem State.takeLine_flagged (l : Line) (hf : (s.sns n).frame = some f) (hk : f.flagged k) :
    FrameStep n (FrameSt.flagged k) s (s.takeLine n f l) := by
  unfold State.takeLine
  dsimp only
  split
  · exact (s.setFrame_step n _).mono fun _ h => h ▸ flagged_or hk 4
  · split
    · exact .refl hf hk
    · refine (State.flushBand_flagged l hf hk).trans fun g hg hkg => ?_
      rw [hg]
      exact State.placeLine_flagged l hkg

theorem State.endRow_flagged (hf : (s.sns n).frame = some f) (hk : f.flagged k) : FrameStep n (FrameSt.flagged k) s (s.endRow n) := by
  rw [State.endRow, hf]
  dsimp only
  split
  · exact .refl hf hk
  · refine (s.setFrame_step n { f with row := [] }).trans ?_
    rintro _ hg rfl
    exact State.takeLine_flagged _ hg hk

theorem State.closeBands_flagged (left : Nat) : ∀ {s : State} {f : FrameSt}, (s.sns n).frame = some f → f.flagged k →
    FrameStep n (FrameSt.flagged k) s (s.closeBands n left) := by
  induction left with
  | zero => exact fun hf hk => .refl hf hk
  | succ left ih =>
    intro s f hf hk
    rw [State.closeBands, hf]
    dsimp only
    refine FrameStep.trans (P := FrameSt.flagged k) ?_ fun g hg hkg => ih hg hkg
    split
    · exact (s.storeBand_step n f _ _).mono fun _ h => h ▸ hk
    · split
      · have h := (s.setFrame_step n { f with band := f.band + 1, cur := [], bad := true }).mono (Q := FrameSt.flagged k) fun _ h => h ▸ hk
        split
        · exact h.ingAdvance _ _
        · exact h
      · exact (s.storeBand_step n _ _ _).mono fun _ h => h ▸ hk

/-- A frame about to close loses the lines that still wait. -/
def State.dropWaiting (s : State) (n : Nat) (f : FrameSt) : State :=
  if f.wait.isEmpty then s.setFrame n f else (s.setFrame n f).overflow n f

theorem State.dropWaiting_flagged (hk : f.flagged k) : FrameStep n (FrameSt.flagged k) s (s.dropWaiting n f) := by
  have h := (s.setFrame_step n f).mono (Q := FrameSt.flagged k) fun _ h => h ▸ hk
  unfold State.dropWaiting
  split
  · exact h
  · exact h.trans fun _ _ _ => State.overflow_flagged hk

/-- What a close does before the frame's end. -/
def State.lastBands (s : State) (n : Nat) (f : FrameSt) : State :=
  (s.dropWaiting n f).closeBands n ((s.dropWaiting n f).snsBands n - f.band)

theorem State.lastBands_flagged (hk : f.flagged k) : FrameStep n (FrameSt.flagged k) s (s.lastBands n f) :=
  (State.dropWaiting_flagged hk).trans fun _ hg hkg => State.closeBands_flagged _ hg hkg

theorem State.closeFrame_eq {flags : Nat} {g : FrameSt} (hf : ((s.endRow n).sns n).frame = some f)
    (hg : (((s.endRow n).lastBands n { f with flags := f.flags ||| flags }).sns n).frame = some g) :
    s.closeFrame n flags = ((s.endRow n).lastBands n { f with flags := f.flags ||| flags }).endFrame n g 1 := by
  unfold State.lastBands State.dropWaiting at hg ⊢
  rw [State.closeFrame, hf]
  dsimp only at hg ⊢
  rw [hg]

/-- The close of an open frame: its last lines and bands, then its end, with the flags of the close among its own. -/
theorem State.closeFrame_ends (flags : Nat) (hf : (s.sns n).frame = some f) :
    ∃ (u : State) (g : FrameSt), FrameStep n (FrameSt.flagged flags) s u ∧ (u.sns n).frame = some g ∧ g.flagged flags
      ∧ s.closeFrame n flags = u.endFrame n g 1 := by
  have hrow := State.endRow_flagged (k := 0) hf (Nat.zero_and _)
  obtain ⟨f1, hf1, -⟩ := hrow.frame
  have hk : ({ f1 with flags := f1.flags ||| flags } : FrameSt).flagged flags := by
    rw [FrameSt.flagged, Nat.or_comm]
    exact and_or_self _ _
  have h := hrow.trans fun _ _ _ => State.lastBands_flagged (s := s.endRow n) (n := n) hk
  obtain ⟨g, hg, hkg⟩ := h.frame
  exact ⟨_, g, h, hg, hkg, State.closeFrame_eq hf1 hg⟩

end

/-! ## The end of a frame (R91, R96–R98) -/

section
variable (s : State) (n : Nat) (f : FrameSt)

/-- The status of Table 0-5 that a frame ends with. -/
def FrameSt.status (f : FrameSt) : Nat := if f.bad then St.invalidInput else St.ok

/-- A frame's descriptor is stored, and its number, flags and status show. -/
def State.frameShown : State :=
  (((s.wrList (s.pair R.ING_SNS_DESC_LO R.ING_SNS_DESC_HI n + 64 * ((s.sns n).nextId % 64)) (s.descBytes n f f.status (s.snsBands n))).setF
    F.ING_SNS_LAST_FLAGS f.flags n).setF F.ING_SNS_LAST_STATUS f.status n).setF F.ING_SNS_FRAME_ID_ID ((s.sns n).nextId % 2 ^ 32) n

/-- A sensor once its frame is over, shown in `s`. -/
def State.snsOver (s : State) (x : SnsSt) (n bands : Nat) (f : FrameSt) : SnsSt :=
  let near := match x.okAt with | some t => decide (s.now ≤ t + s.snsTimeout n) | none => false
  { x with frame := none, nextId := x.nextId + 1, q := x.q + bands, lastStart := some f.start
           okAt := if !f.bad then some s.now else x.okAt, passed := x.passed || (!f.bad && near && x.prevOk), prevOk := !f.bad
           lastRtp := if s.fb F.ING_SNS_SRC_KIND n ∧ !bitOf f.flags 5 then some f.rtp else x.lastRtp }

/-- A frame's end, before the advance that follows its descriptor. -/
def State.frameOver : State :=
  let t := ((s.frameShown n f).setSns n ((s.frameShown n f).snsOver (s.sns n) n (s.snsBands n) f)).syncActive n
  if f.bad then (t.addSat F.ING_SNS_BAD_BAD 1 n).event 0x3 2 n 0 f.flags else t

theorem State.endFrame_eq (last : Nat) : s.endFrame n f last = (s.frameOver n f).ingAdvance n last f.ts := rfl

theorem State.frameOver_ing :
    (s.frameOver n f).ing = ((s.frameShown n f).setSns n ((s.frameShown n f).snsOver (s.sns n) n (s.snsBands n) f)).ing := by
  unfold State.frameOver
  dsimp only
  split
  · exact event_ing _ _ _ _ _ _ _
  · rfl

theorem State.frameShown_ing : (s.frameShown n f).ing = s.ing := State.wrList_only.ing rfl

theorem State.frameOver_sns : (s.frameOver n f).sns n = (s.frameShown n f).snsOver (s.sns n) n (s.snsBands n) f := by
  rw [State.sns, State.frameOver_ing]
  exact State.sns_setSns_same _ _ _

/-- A frame's end leaves its sensor with no frame, the next number and the band numbers past the frame's. -/
theorem State.endFrame_sns (last : Nat) :
    ((s.endFrame n f last).sns n).frame = none ∧ ((s.endFrame n f last).sns n).nextId = (s.sns n).nextId + 1
      ∧ ((s.endFrame n f last).sns n).q = (s.sns n).q + s.snsBands n ∧ ((s.endFrame n f last).sns n).prevOk = !f.bad
      ∧ (f.bad = true → ((s.endFrame n f last).sns n).okAt = (s.sns n).okAt) := by
  have h := ((s.frameOver n f).ingAdvance_sns n last f.ts).1
  rw [← State.endFrame_eq, State.frameOver_sns] at h
  rw [h]
  refine ⟨rfl, rfl, rfl, rfl, fun hb => ?_⟩
  simp [State.snsOver, hb]

theorem State.endFrame_st (last : Nat) : (s.endFrame n f last).ing.st = s.ing.st := by
  rw [State.endFrame_eq, ((s.frameOver n f).ingAdvance_sns n last f.ts).2.2, State.frameOver_ing, State.setSns_st, State.frameShown_ing]

/-! ### What shows -/

theorem State.frameShown_flags : (s.frameShown n f).f F.ING_SNS_LAST_FLAGS n = f.flags % 65536 := by
  rw [State.frameShown, State.f_setF_addr _ _ (Reg.addr_ne (by decide) _ _ _ _), State.f_setF_apart, State.f_setF_same]
  rfl

theorem State.frameShown_status : (s.frameShown n f).f F.ING_SNS_LAST_STATUS n = f.status := by
  have hlt : f.status < 256 := by
    unfold FrameSt.status
    split <;> decide
  rw [State.frameShown, State.f_setF_addr _ _ (Reg.addr_ne (by decide) _ _ _ _), State.f_setF_same]
  exact Nat.mod_eq_of_lt hlt

theorem State.frameShown_id : (s.frameShown n f).f F.ING_SNS_FRAME_ID_ID n = (s.sns n).nextId % 2 ^ 32 := by
  rw [State.frameShown, State.f_setF_same]
  exact Nat.mod_mod _ _

theorem State.frameShown_only : Only 0x10041300000000000000000000000000000000000000003000000000000000000000000080002 s (s.frameShown n f) :=
  (State.setF_only (by decide)).then (by decide) ((State.setF_only (by decide)).then (by decide)
    ((State.setF_only (by decide)).then (by decide) (State.wrList_only.widen (by decide))))

theorem State.frameOver_only_shown : Only 0x20002000000100000000000200380010000000000100000000000008000000000001000000000002000000000000400000000100000000000002000000000024000000c00004000008000004008a08
    (s.frameShown n f) (s.frameOver n f) := by
  have h : Only 0x20002000000100000000000200380010000000000100000000000008000000000001000000000002000000000000400000000100000000000002000000000024000000c00004000008000004008a08
      (s.frameShown n f) (((s.frameShown n f).setSns n ((s.frameShown n f).snsOver (s.sns n) n (s.snsBands n) f)).syncActive n) :=
    State.syncActive_only.then (by decide) (State.setSns_only.widen (by decide))
  unfold State.frameOver
  dsimp only
  split
  · exact State.event_only.then (by decide) ((State.addSat_only (by decide)).then (by decide) h)
  · exact h

theorem State.frameOver_only : Only 0x20002000000100000000000200380010000000000100000000000008000000000001000000000002010041300000400000000100000000000002000000000027000000c00004000008000004088a0a
    s (s.frameOver n f) :=
  (s.frameOver_only_shown n f).then (by decide) ((s.frameShown_only n f).widen (by decide))

theorem State.endFrame_only_shown (last : Nat) : Only 0x20002000020100000000000211b80010000000000100000000000008000000000001000000000002000000000000400000000100000000000002000000000024000000c00004000008000006088e0c
    (s.frameShown n f) (s.endFrame n f last) :=
  State.ingAdvance_only.then (by decide) ((s.frameOver_only_shown n f).widen (by decide))

theorem State.endFrame_shows (last : Nat) :
    (s.endFrame n f last).f F.ING_SNS_FRAME_ID_ID n = (s.sns n).nextId % 2 ^ 32
      ∧ (s.endFrame n f last).f F.ING_SNS_LAST_STATUS n = f.status ∧ (s.endFrame n f last).f F.ING_SNS_LAST_FLAGS n = f.flags % 65536 := by
  have h := s.endFrame_only_shown n f last
  rw [h.f _ _ _ (by decide), h.f _ _ _ (by decide), h.f _ _ _ (by decide)]
  exact ⟨s.frameShown_id n f, s.frameShown_status n f, s.frameShown_flags n f⟩

end

/-- The close of an open frame: no frame is open, the next one has the next number, and the number and flags show. -/
theorem State.closeFrame_shows {s : State} {n : Nat} {f : FrameSt} (flags : Nat) (hf : (s.sns n).frame = some f) :
    ((s.closeFrame n flags).sns n).frame = none ∧ ((s.closeFrame n flags).sns n).nextId = (s.sns n).nextId + 1
      ∧ (s.closeFrame n flags).f F.ING_SNS_FRAME_ID_ID n = (s.sns n).nextId % 2 ^ 32 ∧ (s.closeFrame n flags).ing.st = s.ing.st
      ∧ ∃ v : Nat, flags &&& v = flags ∧ (s.closeFrame n flags).f F.ING_SNS_LAST_FLAGS n = v % 65536 := by
  obtain ⟨u, g, hu, -, hk, heq⟩ := State.closeFrame_ends flags hf
  obtain ⟨hframe, hid, -⟩ := u.endFrame_sns n g 1
  obtain ⟨hshown, -, hflags⟩ := u.endFrame_shows n g 1
  have hnext : (u.sns n).nextId = (s.sns n).nextId := by rw [hu.same]
  rw [heq, hid, hshown, hnext]
  exact ⟨hframe, rfl, rfl, (u.endFrame_st n g 1).trans hu.st, g.flags, hk, hflags⟩

end Sys2Proof.Machine
end

section
/-!
PROOFS. Lines that wait for a band slot (R94, R95) and the frame timeout (R88, R89).
-/

namespace Sys2Proof.Machine
open Sys2Proof Sys2Proof.Safety

/-! ## Advances (R360, R362) -/

section
variable (s : State)

theorem Only.graph {m : Nat} {s t : State} (h : Only m s t) (hm : m.testBit 10 = false) : t.dsp.graph = s.dsp.graph :=
  (congrArg DspSt.graph (h.dsp hm) :)

theorem State.producer_congr {s t : State} (h : t.dsp.graph = s.dsp.graph) (src i : Nat) : t.producer src i = s.producer src i := by
  rw [State.producer, State.producer, State.tallyEnt, State.tallyEnt, h]

theorem State.creditTask_graph (src i amount : Nat) : (s.creditTask src i amount).dsp.graph = s.dsp.graph := by
  unfold State.creditTask
  dsimp only
  split
  · rfl
  · split <;> rfl

theorem State.applyAdvance_tally (i amount : Nat) (stamp : Option Nat) :
    (s.applyAdvance i amount stamp).tally = tput {} s.tally i ((s.tallyOf i).add amount stamp) := by
  unfold State.applyAdvance
  dsimp only
  rw [State.testSlots_only.tally rfl]
  split
  · exact event_tally _ _ _ _ _ _ _
  · rfl

theorem State.advanceRaw_tally (src i amount : Nat) (stamp : Option Nat) : (s.advanceRaw src i amount stamp).tally
    = if amount ≠ 0 ∧ s.producer src i = true then tput {} s.tally i ((s.tallyOf i).add amount stamp) else s.tally := by
  have hship : s.shipStores.tally = s.tally := State.shipStores_only.tally rfl
  have happly : (s.shipStores.applyAdvance i amount stamp).tally = tput {} s.tally i ((s.tallyOf i).add amount stamp) := by
    rw [State.applyAdvance_tally, State.tallyOf, State.tallyOf, hship]
  by_cases h : amount ≠ 0 ∧ s.producer src i = true
  · rw [if_pos h, State.advanceRaw, if_neg h.1, if_pos h.2]
    dsimp only
    split
    · rw [State.sendTally_only.tally rfl, happly]
    · exact happly
  · rw [if_neg h, State.advanceRaw]
    split
    next => rfl
    next h0 => rw [if_neg fun hp => h ⟨h0, hp⟩, event_tally]

/-- What a Tally holds after an advance: the advance is added to the Tally it names, where the block is a producer of it (R362). -/
theorem State.advance_tallyOf (src i amount : Nat) (stamp : Option Nat) (k : Nat) : (s.advance src i amount stamp).tallyOf k
    = if k = i ∧ s.producer src k = true ∧ amount ≠ 0 then (s.tallyOf k).add amount stamp else s.tallyOf k := by
  have hcredit : (s.creditTask src i amount).tally = s.tally := State.creditTask_only.tally rfl
  have hraw := (s.creditTask src i amount).advanceRaw_tally src i amount stamp
  rw [State.tallyOf, hcredit, State.producer_congr (s.creditTask_graph src i amount)] at hraw
  by_cases h0 : amount = 0
  · rw [State.advance, if_pos h0, if_neg fun h => h.2.2 h0]
  · rw [State.advance, if_neg h0, State.tallyOf, hraw]
    by_cases hk : k = i
    · subst hk
      by_cases hp : s.producer src k = true
      · rw [if_pos ⟨h0, hp⟩, if_pos ⟨rfl, hp, h0⟩, tget_tput_same]
        rfl
      · rw [if_neg fun h => hp h.2, if_neg fun h => hp h.2.1]
        rfl
    · rw [if_neg fun h : k = i ∧ _ => hk h.1]
      split
      · exact tget_tput_ne _ _ _ _ hk
      · rfl

theorem State.ingAdvance_tallyOf (n amount ts k : Nat) : (s.ingAdvance n amount ts).tallyOf k
    = if k = s.f F.ING_SNS_TALLY_INGEST n ∧ s.producer 3 k = true ∧ amount ≠ 0 then (s.tallyOf k).add amount (some ts) else s.tallyOf k :=
  s.advance_tallyOf 3 _ amount (some ts) k

/-! ## ING_EVT_ABSENT stays -/

theorem event_keeps_absent (src code unit a0 a1 a2 : Nat) (h : s.fb F.ING_EVT_ABSENT = true) :
    (s.event src code unit a0 a1 a2).fb F.ING_EVT_ABSENT = true := by
  rw [event_fb s src code unit a0 a1 a2 F.ING_EVT_ABSENT rfl (by decide) rfl (by decide), h, Bool.true_or]

theorem Only.keeps_absent {m : Nat} {s t : State} (hs : Only m s t) (hm : spares m R.ING_EVT = true) (h : s.fb F.ING_EVT_ABSENT = true) :
    t.fb F.ING_EVT_ABSENT = true := by
  rw [State.fb, hs.f F.ING_EVT_ABSENT 0 0 hm]
  exact h

theorem State.applyAdvance_keeps_absent (i amount : Nat) (stamp : Option Nat) (h : s.fb F.ING_EVT_ABSENT = true) :
    (s.applyAdvance i amount stamp).fb F.ING_EVT_ABSENT = true := by
  unfold State.applyAdvance
  dsimp only
  refine State.testSlots_only.keeps_absent (by decide) ?_
  split
  · exact event_keeps_absent _ _ _ _ _ _ _ h
  · exact h

theorem State.advanceRaw_keeps_absent (src i amount : Nat) (stamp : Option Nat) (h : s.fb F.ING_EVT_ABSENT = true) :
    (s.advanceRaw src i amount stamp).fb F.ING_EVT_ABSENT = true := by
  have happly := State.applyAdvance_keeps_absent _ i amount stamp (State.shipStores_only.keeps_absent (by decide) h)
  unfold State.advanceRaw
  split
  · exact h
  · split
    · dsimp only
      split
      · exact State.sendTally_only.keeps_absent (by decide) happly
      · exact happly
    · exact event_keeps_absent _ _ _ _ _ _ _ h

theorem State.ingAdvance_keeps_absent (n amount ts : Nat) (h : s.fb F.ING_EVT_ABSENT = true) :
    (s.ingAdvance n amount ts).fb F.ING_EVT_ABSENT = true := by
  refine State.setSns_only.keeps_absent (by decide) ?_
  unfold State.advance
  split
  · exact h
  · exact State.advanceRaw_keeps_absent _ _ _ _ _ (State.creditTask_only.keeps_absent (by decide) h)

end

/-! ## The absent frame (R89) -/

section
variable (s : State) (n : Nat) (f : FrameSt)

/-- The Tally of a frame's end: its ingest Tally takes the advance, where ingest is a producer of it. -/
theorem State.endFrame_tallyOf (last k : Nat) : (s.endFrame n f last).tallyOf k
    = if k = s.f F.ING_SNS_TALLY_INGEST n ∧ s.producer 3 k = true ∧ last ≠ 0 then (s.tallyOf k).add last (some f.ts) else s.tallyOf k := by
  have h := s.frameOver_only n f
  rw [State.endFrame_eq, State.ingAdvance_tallyOf, h.f _ _ _ (by decide), State.producer_congr (h.graph rfl), State.tallyOf, h.tally rfl]
  rfl

theorem State.endFrame_keeps_absent (last : Nat) (h : s.fb F.ING_EVT_ABSENT = true) : (s.endFrame n f last).fb F.ING_EVT_ABSENT = true := by
  have hshown : (s.frameShown n f).fb F.ING_EVT_ABSENT = true := (s.frameShown_only n f).keeps_absent (by decide) h
  have hsync := State.syncActive_only (x1 := n).keeps_absent (by decide)
    (State.setSns_only (x1 := n) (x2 := (s.frameShown n f).snsOver (s.sns n) n (s.snsBands n) f).keeps_absent (by decide) hshown)
  rw [State.endFrame_eq]
  refine State.ingAdvance_keeps_absent _ _ _ _ ?_
  unfold State.frameOver
  dsimp only
  split
  · exact event_keeps_absent _ _ _ _ _ _ _ ((State.addSat_only (by decide)).keeps_absent (by decide) hsync)
  · exact hsync

/-- An absent frame is noted: its exposure edge is used up, it counts, and its event shows. -/
def State.absentNoted (x : SnsSt) : State := ((s.setSns n x).addSat F.ING_SNS_BAD_ABSENT 1 n).event 0x3 3 n

theorem State.absentFrame_ends : ∃ (e : Option Nat) (g : FrameSt), g.bad = true ∧ g.flags = 32
    ∧ s.absentFrame n = (s.absentNoted n { s.sns n with lastExpo := e }).endFrame n g ((s.absentNoted n { s.sns n with lastExpo := e }).snsBands n) :=
  ⟨_, _, rfl, rfl, rfl⟩

end

section
variable (s : State) (n : Nat) (x : SnsSt)

theorem State.absentNoted_sns : (s.absentNoted n x).sns n = x := by
  rw [State.absentNoted, State.sns, event_ing]
  exact State.sns_setSns_same _ _ _

theorem State.absentNoted_only :
    Only 0x20002000000100000000000200380010000000000100000000000008000000000001000000000002000000000000400000000100000000000002000000000024000000c00004000008000004008a08
      s (s.absentNoted n x) :=
  State.event_only.then (by decide) ((State.addSat_only (by decide)).then (by decide) (State.setSns_only.widen (by decide)))

theorem State.absentNoted_bands : (s.absentNoted n x).snsBands n = ceilDiv (s.f F.ING_SNS_GEOM_HEIGHT n) 64 := by
  rw [State.snsBands, (s.absentNoted_only n x).f _ _ _ (by decide)]

theorem State.absentNoted_event : (s.absentNoted n x).fb F.ING_EVT_ABSENT = true := by
  rw [State.absentNoted, event_fb _ 3 3 n 0 0 0 F.ING_EVT_ABSENT rfl (by decide) rfl (by decide), Bool.or_eq_true, decide_eq_true_eq]
  exact .inr ⟨rfl, by decide, rfl⟩

end

theorem ceilDiv_ne_zero (a : Nat) {b : Nat} (hb : 0 < b) : ceilDiv a b ≠ 0 ↔ a ≠ 0 := by
  rw [ceilDiv, Nat.div_ne_zero_iff]
  omega

/-! ## Lines that wait for a band slot (R94, R95) -/

/-- Of the lines `ls` the last ones wait, and `total` lines have been taken or wait. -/
def FrameSt.waiting (ls : List Line) (total : Nat) (f : FrameSt) : Prop := f.wait <:+ ls ∧ f.taken + f.wait.length = total

section
variable {s : State} {n : Nat} {f : FrameSt}

theorem State.flushBand_waiting (l : Line) (hf : (s.sns n).frame = some f) :
    FrameStep n (fun g => g.wait = f.wait ∧ g.taken = f.taken) s (s.flushBand n l) := by
  rw [State.flushBand, hf]
  dsimp only
  split
  · exact (s.storeBand_step n f _ _).mono fun _ h => h ▸ ⟨rfl, rfl⟩
  · exact .refl hf ⟨rfl, rfl⟩

theorem State.putLine_waiting (l : Line) : FrameStep n (fun g => g.wait = f.wait ∧ g.taken = f.taken + 1) s (s.putLine n f l) := by
  unfold State.putLine
  dsimp only
  split
  · exact (s.storeBand_step n _ _ _).mono fun _ h => h ▸ ⟨rfl, rfl⟩
  · exact (s.setFrame_step n _).mono fun _ h => h ▸ ⟨rfl, rfl⟩

/-- Waiting lines go on in their order, until none waits or the next band has no slot. -/
theorem State.drain_waiting (ls : List Line) : ∀ {s : State} {f : FrameSt}, (s.sns n).frame = some f → f.wait = ls →
    FrameStep n (fun g => g.waiting ls (f.taken + ls.length)
      ∧ (g.wait ≠ [] → g.cur = [] ∧ (s.drain n ls).slotFree n (((s.drain n ls).sns n).q + g.band) = false)) s (s.drain n ls) := by
  induction ls with
  | nil =>
    intro s f hf hw
    exact .refl hf ⟨⟨hw ▸ List.suffix_refl _, by rw [hw]⟩, fun h => absurd hw h⟩
  | cons l ls ih =>
    intro s f hf hw
    have hflush := State.flushBand_waiting l hf
    obtain ⟨g, hg, hgw, hgt⟩ := hflush.frame
    by_cases hslot : (!g.cur.isEmpty || (s.flushBand n l).slotFree n (((s.flushBand n l).sns n).q + g.band)) = true
    · have hdrain : s.drain n (l :: ls) = ((s.flushBand n l).putLine n { g with wait := ls } l).drain n ls := by
        rw [State.drain, hg]
        exact if_pos hslot
      have hput : FrameStep n (fun h => h.wait = ls ∧ h.taken = g.taken + 1) s ((s.flushBand n l).putLine n { g with wait := ls } l) :=
        hflush.trans fun _ _ _ => State.putLine_waiting (f := { g with wait := ls }) l
      rw [hdrain]
      refine hput.trans fun h hh hhw => (ih hh hhw.1).mono fun e he => ⟨⟨he.1.1.trans (List.suffix_cons _ _), ?_⟩, he.2⟩
      rw [he.1.2, hhw.2, hgt, List.length_cons]
      omega
    · have hdrain : s.drain n (l :: ls) = s.flushBand n l := by
        rw [State.drain, hg]
        exact if_neg hslot
      simp only [Bool.or_eq_true, Bool.not_eq_true', not_or, Bool.not_eq_false, List.isEmpty_iff, Bool.not_eq_true] at hslot
      rw [hdrain]
      refine hflush.trans fun e he _ => .refl he ?_
      obtain rfl : g = e := Option.some.inj (hg.symm.trans he)
      exact ⟨⟨hgw.trans hw ▸ List.suffix_refl _, by rw [hgw, hw, hgt]⟩, fun _ => hslot⟩

theorem bandSlotFree_open (hf : (s.sns n).frame = some f) (he : f.ended = false) :
    bandSlotFree n s = (s.drain n f.wait).notePeak (s.snsPort n) := by
  rw [bandSlotFree, hf]
  dsimp only
  exact if_neg (Bool.eq_false_iff.mp he)

theorem State.notePeak_tv (port i : Nat) : (s.notePeak port).tv i = s.tv i := by
  rw [State.tv, State.tallyOf, State.notePeak_only.tally rfl]
  rfl

end

/-! ## The frame timeout (R88, R89) -/

section
variable {s : State} {n : Nat}

theorem frameTimeout_notDue (h : s.now < s.snsRef n + s.snsTimeout n) : frameTimeout n s = s :=
  if_pos (by simp [State.snsLate, h])

theorem frameTimeout_due (hn : n < 32) (hen : s.fb F.ING_SNS_SRC_ENABLE n = true)
    (hst : (s.sns n).frame ≠ none ∨ (s.sns n).lastStart ≠ none ∨ s.tm.trigOn = true) (hdue : s.snsRef n + s.snsTimeout n ≤ s.now) :
    frameTimeout n s = if (s.sns n).frame.isSome then s.closeFrame n 144 else s.absentFrame n := by
  have hstarted : s.snsStarted n = true := by simpa [State.snsStarted, Option.isSome_iff_ne_none, or_assoc] using hst
  exact if_neg (by simp [State.snsLate, hn, hen, hstarted, hdue])

end

/-- A bit that a mask holds, of flags held to 16 bits. -/
theorem bitOf_of_flagged {k v b : Nat} (h : k &&& v = k) (hb : b < 16) (hk : k.testBit b = true) : bitOf (v % 65536) b = true := by
  have hv := congrArg (Nat.testBit · b) h
  simp only [Nat.testBit_and, hk, Bool.true_and] at hv
  rw [bitOf_eq_testBit, show 65536 = 2 ^ 16 from rfl, Nat.testBit_mod_two_pow, hv, decide_eq_true hb]
  rfl

/-- Settles O11: the waiting lines by induction over them; a due timeout ends the open frame, or an absent one. -/
theorem bandsAndTimeout : Obligations.BandsAndTimeout := by
  intro s n hup
  refine ⟨fun f hf he => ?slot, fun hnow => ?notDue, fun hn hen hst hdue => ⟨fun hf => ?absent, fun f hf => ?close⟩⟩
  case slot =>
    have hstep := (State.drain_waiting f.wait hf rfl).notePeak (s.snsPort n)
    have hset := State.drain_only (s := s) (x1 := n) (x2 := f.wait)
    obtain ⟨g, hg, ⟨hsuf, hcount⟩, hstop⟩ := hstep.frame
    refine ⟨_, g, congrArg Host.Outcome.next ((whenUp_up hup).trans (bandSlotFree_open hf he)), hg, hsuf, hcount, fun hw => ?_, ?_, hstep.others⟩
    · obtain ⟨hcur, hfree⟩ := hstop hw
      rw [State.slotFree, decide_eq_false_iff_not, hset.f _ _ _ (by decide), hset.f _ _ _ (by decide),
        (State.drain_waiting f.wait hf rfl).same] at hfree
      rw [State.notePeak_tv]
      exact ⟨hcur, Nat.le_of_not_lt hfree⟩
    · rw [hstep.same]
  case notDue => exact congrArg Host.Outcome.next ((whenUp_up hup).trans (frameTimeout_notDue hnow))
  case absent =>
    obtain ⟨e, g, hbad, hflags, heq⟩ := s.absentFrame_ends n
    let x : SnsSt := { s.sns n with lastExpo := e }
    let u := s.absentNoted n x
    have hu : u.sns n = x := s.absentNoted_sns n x
    have honly := s.absentNoted_only n x
    obtain ⟨hframe, hid, hq, hok, hokAt⟩ := u.endFrame_sns n g (u.snsBands n)
    obtain ⟨hfid, hstatus, hfl⟩ := u.endFrame_shows n g (u.snsBands n)
    have htally := u.endFrame_tallyOf n g (u.snsBands n)
    have hexec : exec (.frameTimeout n) s = .next (u.endFrame n g (u.snsBands n)) :=
      congrArg Host.Outcome.next ((whenUp_up hup).trans ((frameTimeout_due hn hen hst hdue).trans ((if_neg (by simp [hf])).trans heq)))
    rw [hu] at hid hq hokAt hfid
    refine ⟨_, g.ts, hexec, hframe, hid, hq.trans (congrArg _ (s.absentNoted_bands n x)), by rw [hok, hbad]; rfl, hokAt hbad, hfid, ?_, by rw [hfl, hflags],
      u.endFrame_keeps_absent n g _ (s.absentNoted_event n x), fun k => ?_⟩
    · rw [hstatus, FrameSt.status, hbad]
      rfl
    · rw [htally k, honly.f _ _ _ (by decide), State.producer_congr (honly.graph rfl), State.tallyOf, honly.tally rfl, s.absentNoted_bands]
      simp only [ceilDiv_ne_zero _ (show 0 < 64 by decide)]
      rfl
  case close =>
    obtain ⟨hframe, hid, hfid, -, v, hv, hfl⟩ := State.closeFrame_shows 144 hf
    have hexec : exec (.frameTimeout n) s = .next (s.closeFrame n 144) :=
      congrArg Host.Outcome.next ((whenUp_up hup).trans ((frameTimeout_due hn hen hst hdue).trans (if_pos (by simp [hf]))))
    refine ⟨_, hexec, hframe, hid, hfid, ?_, ?_⟩
    · rw [hfl]
      exact bitOf_of_flagged hv (by decide) (by decide)
    · rw [hfl]
      exact bitOf_of_flagged hv (by decide) (by decide)

end Sys2Proof.Machine
end

section
/-!
PROOFS. ST 2110-20 packets (R86–R88): where a packet lies against the window, and what the expected one does.
-/

namespace Sys2Proof.Machine
open Sys2Proof Sys2Proof.Safety

/-! ## ST 2110-20 packets (R86–R88) -/

/-- The one number of a range of which a condition holds. -/
theorem find?_range_unique {p : Nat → Bool} {N k : Nat} (h : ∀ m, m < N ∧ p m = true ↔ m = k) : (List.range N).find? p = some k := by
  obtain ⟨hk, hp⟩ := (h k).mpr rfl
  refine List.find?_range_eq_some.mpr ⟨hp, List.mem_range.mpr hk, fun j hj => ?_⟩
  have hne : ¬ (j < N ∧ p j = true) := fun hj' => absurd ((h j).mp hj') (Nat.ne_of_lt hj)
  rw [Bool.not_eq_true', Bool.eq_false_iff]
  exact fun hpj => hne ⟨Nat.lt_trans hj hk, hpj⟩

/-- A second write of a key replaces the first, where both list it. -/
theorem tput_tput_same {α : Type} [DecidableEq α] {d v w : α} (m : Table α) (a : Nat) (hv : v ≠ d) (hw : w ≠ d) :
    tput d (tput d m a v) a w = tput d m a w := by
  rw [tput, tput, tput, if_neg hv, if_neg hw, if_neg hw]
  induction m with
  | nil => simp [tins]
  | cons e m ih =>
    obtain ⟨b, x⟩ := e
    rcases Nat.lt_trichotomy a b with h | rfl | h
    · simp [tins, h]
    · simp [tins]
    · simp [tins, Nat.not_lt_of_gt h, Nat.ne_of_gt h, ih]

/-- How far a sequence number lies ahead of another, as the part computes it. -/
theorem sgn_ahead (a : Nat) {q : Nat} (hq : q < 2 ^ 32) : sgn 32 (a + (2 ^ 32 - q))
    = if (a + 2 ^ 32 - q) % 2 ^ 32 < 2 ^ 31 then (((a + 2 ^ 32 - q) % 2 ^ 32 : Nat) : Int) else ((a + 2 ^ 32 - q) % 2 ^ 32 : Nat) - (2 ^ 32 : Nat) := by
  rw [← Nat.add_sub_assoc (Nat.le_of_lt hq)]
  rfl

section
variable {s : State} {p : StPacket} {k n q : Nat} {x : StSt}

theorem State.stStream_none (h : ∀ k < 16, ¬ ofStream s p k) : s.stStream p = none := by
  refine List.find?_eq_none.mpr fun k hk => ?_
  simpa [ofStream, and_assoc] using h k (List.mem_range.mp hk)

theorem State.stStream_some (h : ∀ m, m < 16 ∧ ofStream s p m ↔ m = k) : s.stStream p = some k :=
  find?_range_unique fun m => by simpa [ofStream, and_assoc] using h m

theorem State.stSensor_some (h : ∀ m, m < 32 ∧ s.fb F.ING_SNS_SRC_ENABLE m = true ∧ s.fb F.ING_SNS_SRC_KIND m = true
    ∧ s.f F.ING_SNS_SRC_SOURCE m = k ↔ m = n) : s.stSensor k = some n :=
  find?_range_unique fun m => by simpa [and_assoc] using h m

/-- The reordering of stream `k` is at `x`. -/
def State.setSt (s : State) (k : Nat) (x : StSt) : State := { s with ing.st := tput {} s.ing.st k x }

theorem State.setSt_st (s : State) (k : Nat) (x : StSt) : tget {} (s.setSt k x).ing.st k = x := tget_tput_same {} s.ing.st k x

/-- A stream past the expected packet `q`, with none held. -/
def stPast (q : Nat) : StSt := { next := some ((q + 1) % 2 ^ 32), held := [] }

/-- The next packet is not held and none lies beyond the window: the reordering has come to its end. -/
theorem State.stRun_waits (hx : (tget {} s.ing.st k).next = some q)
    (h : ∀ e ∈ (tget {} s.ing.st k).held, e.2.seq ≠ q ∧ sgn 32 (e.2.seq + (2 ^ 32 - q)) < 32) (fuel : Nat) : s.stRun k n fuel = s := by
  have hfind : (tget {} s.ing.st k).held.find? (fun e => e.2.seq == q) = none := by
    simpa using fun t p he => (h (t, p) he).1
  have hfar : (tget {} s.ing.st k).held.any (fun e => decide (32 ≤ sgn 32 (e.2.seq + (2 ^ 32 - q)))) = false := by
    simpa using fun t p he => (h (t, p) he).2
  cases fuel with
  | zero => rfl
  | succ m =>
    rw [State.stRun]
    dsimp only
    rw [hx]
    dsimp only
    rw [hfind]
    dsimp only
    rw [hfar]
    rfl

theorem State.stRun_past (h : tget {} s.ing.st k = stPast q) (fuel : Nat) : s.stRun k n fuel = s :=
  State.stRun_waits (q := (q + 1) % 2 ^ 32) (by rw [h]; rfl) (by rw [h]; exact nofun) fuel

/-- The next packet, the only one held, goes on. -/
theorem State.stRun_next {t : Nat} (hseq : p.seq = q) (fuel : Nat) :
    (s.setSt k { next := some q, held := [(t, p)] }).stRun k n (fuel + 1) = ((s.setSt k (stPast q)).stDeliver k n t p).stRun k n fuel := by
  have hput : (s.setSt k { next := some q, held := [(t, p)] }).setSt k (stPast q) = s.setSt k (stPast q) := by
    unfold State.setSt
    dsimp only
    rw [tput_tput_same _ _ (by simp) (by simp [stPast])]
  have hfind : [(t, p)].find? (fun e => e.2.seq == q) = some (t, p) := by simp [hseq]
  have hrest : [(t, p)].filter (fun e => e.2.seq != q) = [] := by simp [hseq]
  rw [State.stRun, State.setSt_st]
  dsimp only
  rw [hfind, hrest]
  dsimp only
  exact congrArg (fun u : State => (u.stDeliver k n t p).stRun k n fuel) hput

variable (hst : s.stStream p = some k) (hsn : s.stSensor k = some n) (hx : (tget {} s.ing.st k).next = some q) (hq : q < 2 ^ 32)
include hst hsn hx hq

/-- A packet behind the window. -/
theorem st2110PacketRx_behind (hd : 2 ^ 31 ≤ (p.seq + 2 ^ 32 - q) % 2 ^ 32) : st2110PacketRx p s = s.seqGap k n := by
  have hsgn := sgn_ahead p.seq hq
  rw [if_neg (Nat.not_lt_of_le hd)] at hsgn
  have hlt : (p.seq + 2 ^ 32 - q) % 2 ^ 32 < 2 ^ 32 := Nat.mod_lt _ (by decide)
  rw [st2110PacketRx, hst]
  dsimp only
  rw [hsn]
  dsimp only
  rw [hx, Option.getD_some, hsgn, if_pos (by omega)]

variable (hheld : (tget {} s.ing.st k).held = []) (hd : (p.seq + 2 ^ 32 - q) % 2 ^ 32 < 2 ^ 31)
include hheld hd

theorem st2110PacketRx_held :
    st2110PacketRx p s = (s.setSt k { next := some q, held := [(s.now, p)] }).stRun k n 4 := by
  have hsgn := sgn_ahead p.seq hq
  rw [if_pos hd] at hsgn
  rw [st2110PacketRx, hst]
  dsimp only
  rw [hsn]
  dsimp only
  rw [hx, Option.getD_some, hsgn, if_neg (by omega), hheld]
  rfl

/-- A packet ahead of a gap within the window is held. -/
theorem st2110PacketRx_ahead (h0 : 0 < (p.seq + 2 ^ 32 - q) % 2 ^ 32) (h32 : (p.seq + 2 ^ 32 - q) % 2 ^ 32 < 32) :
    st2110PacketRx p s = s.setSt k { next := some q, held := [(s.now, p)] } := by
  have hne : p.seq ≠ q := by
    rintro rfl
    simp at h0
  have hsgn := sgn_ahead p.seq hq
  rw [if_pos hd] at hsgn
  rw [st2110PacketRx_held hst hsn hx hq hheld hd]
  refine State.stRun_waits (q := q) (by rw [State.setSt_st]) (fun e he => ?_) 4
  rw [State.setSt_st, List.mem_singleton] at he
  rw [he, hsgn]
  exact ⟨hne, by omega⟩

/-- The expected packet goes on, and the next one is expected. -/
theorem st2110PacketRx_expected {u : State} (hseq : p.seq = q) (hdel : (s.setSt k (stPast q)).stDeliver k n s.now p = u)
    (hu : u.ing.st = (s.setSt k (stPast q)).ing.st) : st2110PacketRx p s = u := by
  rw [st2110PacketRx_held hst hsn hx hq hheld hd, State.stRun_next hseq, hdel]
  exact State.stRun_past (by rw [hu]; exact State.setSt_st _ _ _) 3

end

/-! ### A packet in its order -/

section
variable {s : State} {p : StPacket} {k n t : Nat}

theorem State.stFits_of_oversize (h : 3 < p.segs.length ∨ ∃ g ∈ p.segs, s.f F.ING_SNS_GEOM_HEIGHT n ≤ g.row
    ∨ s.f F.ING_SNS_GEOM_WIDTH n < g.off + g.px.length) : s.stFits k n p = false := by
  refine Bool.eq_false_iff.mpr fun hfit => ?_
  simp only [State.stFits, Bool.and_eq_true, decide_eq_true_eq, List.all_eq_true] at hfit
  obtain ⟨hlen, hall⟩ := hfit
  rcases h with h | ⟨g, hg, h⟩
  · omega
  · obtain ⟨⟨⟨hrow, hoff⟩, -⟩, -⟩ := hall g hg
    omega

theorem State.stDeliver_rejects (h : s.stFits k n p = false) : s.stDeliver k n t p = s.addSat F.ING_ST_REJECT_COUNT 1 k :=
  if_neg (Bool.eq_false_iff.mp h)

theorem State.stDeliver_accepts (h : s.stFits k n p = true) : s.stDeliver k n t p = s.stAccept k n t p := if_pos h

theorem sgn_same {r : Nat} (h : r < 2 ^ 32) : sgn 32 (r + (2 ^ 32 - r)) = 0 := by
  rw [show r + (2 ^ 32 - r) = 2 ^ 32 by omega]
  rfl

theorem State.seqGap_closed (h : (s.sns n).frame = none) : s.seqGap k n = s.addSat F.ING_ST_SEQ_GAPS_COUNT 1 k := by
  have h' : ((s.addSat F.ING_ST_SEQ_GAPS_COUNT 1 k).sns n).frame = none := h
  rw [State.seqGap, h']

theorem State.seqGap_open {f : FrameSt} (h : (s.sns n).frame = some f) :
    s.seqGap k n = (s.addSat F.ING_ST_SEQ_GAPS_COUNT 1 k).setFrame n { f with flags := f.flags ||| 512 } := by
  have h' : ((s.addSat F.ING_ST_SEQ_GAPS_COUNT 1 k).sns n).frame = some f := h
  rw [State.seqGap, h']

/-- A packet with the open frame's timestamp: its segments, and the frame's close where it carries the marker. -/
theorem State.stAccept_open {f : FrameSt} (hf : (s.sns n).frame = some f) (hr : f.rtp = p.rtp) (hlt : p.rtp < 2 ^ 32) :
    s.stAccept k n t p = if p.marker then (p.segs.foldl (fun s g => s.takeSeg n g) (s.addWrap F.ING_ST_PACKETS_COUNT 1 k)).closeFrame n 0
      else p.segs.foldl (fun s g => s.takeSeg n g) (s.addWrap F.ING_ST_PACKETS_COUNT 1 k) := by
  have hf' : ((s.addWrap F.ING_ST_PACKETS_COUNT 1 k).sns n).frame = some f := hf
  have hold : ¬ decide (0 < sgn 32 (p.rtp + (2 ^ 32 - f.rtp))) = true := by
    rw [hr, sgn_same hlt]
    decide
  unfold State.stAccept
  dsimp only
  rw [hf']
  dsimp only
  rw [if_neg hold, hf']
  dsimp only
  exact if_neg (not_not_intro hr)

/-- A segment of the row being received, which it does not complete, is laid into it. -/
theorem State.takeSeg_lays {f : FrameSt} {g : StSeg} {row : List (Option Px)} (hf : (s.sns n).frame = some f)
    (hrow : g.row = f.taken + f.wait.length) (he : f.ended = false)
    (hlay : row = layRow (if f.row = [] then List.replicate (s.f F.ING_SNS_GEOM_WIDTH n) none else f.row) g.off g.px) (hnone : none ∈ row) :
    s.takeSeg n g = s.setFrame n { f with row := row } := by
  have hat : g.row = f.at := hrow
  have hall : row.all (·.isSome) = false := List.all_eq_false.mpr ⟨none, hnone, by simp⟩
  rw [State.takeSeg, hf]
  simp only [hat, he, Nat.lt_irrefl, Bool.false_eq_true, or_self, if_false, hf, Nat.sub_self, State.skipRows, List.isEmpty_iff, ← hlay, hall]

end

/-- Settles O12: where the packet lies against the window, and what the expected packet does to the frame. That a packet behind the window flags the
open frame is log entry 73's choice, that a rejected one keeps its place in the sequence log entry 34's. -/
theorem networkVideo : Obligations.NetworkVideo := by
  intro s p hup
  have hexec : exec (.st2110PacketRx p) s = .next (st2110PacketRx p s) := congrArg Host.Outcome.next (whenUp_up hup)
  refine ⟨fun h => ?noStream, fun k n x q hk hn hxk hx hq hseq => ?stream⟩
  case noStream => rw [hexec, st2110PacketRx, State.stStream_none h]
  case stream =>
    subst hxk
    have hst := State.stStream_some hk
    have hsn := State.stSensor_some hn
    have hsame : p.seq = q → (p.seq + 2 ^ 32 - q) % 2 ^ 32 < 2 ^ 31 := by
      rintro rfl
      rw [Nat.add_sub_cancel_left]
      decide
    rw [hexec]
    refine ⟨fun hd hf => ?behind, fun hd f hf => ?behindOpen, fun h0 h32 hheld => ?ahead, fun hpq hheld hbig => ?rejected,
      fun hpq hheld f g row hf hr hlt hsegs hmark hfit hrow he hlay hnone => ?lays,
      fun hpq hheld f hf hr hlt hsegs hmark => ?closes⟩
    case behind =>
      rw [st2110PacketRx_behind hst hsn hx hq hd, State.seqGap_closed hf]
    case behindOpen =>
      rw [st2110PacketRx_behind hst hsn hx hq hd, State.seqGap_open hf]
      rfl
    case ahead =>
      rw [st2110PacketRx_ahead hst hsn hx hq hheld (by omega) h0 h32]
      rfl
    case rejected =>
      exact congrArg _ (st2110PacketRx_expected hst hsn hx hq hheld (hsame hpq) hpq (State.stDeliver_rejects (State.stFits_of_oversize hbig)) rfl)
    case lays =>
      have hwidth : ((s.setSt k (stPast q)).addWrap F.ING_ST_PACKETS_COUNT 1 k).f F.ING_SNS_GEOM_WIDTH n = s.f F.ING_SNS_GEOM_WIDTH n :=
        (State.addWrap_only (by decide)).f _ _ _ (by decide)
      have hdel : (s.setSt k (stPast q)).stDeliver k n s.now p
          = ((s.setSt k (stPast q)).addWrap F.ING_ST_PACKETS_COUNT 1 k).setFrame n { f with row := row } := by
        rw [State.stDeliver_accepts (s := s.setSt k (stPast q)) hfit, State.stAccept_open (s := s.setSt k (stPast q)) hf hr hlt, hmark, hsegs]
        exact State.takeSeg_lays hf hrow he (by rw [hwidth]; exact hlay) hnone
      exact congrArg _ (st2110PacketRx_expected hst hsn hx hq hheld (hsame hpq) hpq hdel rfl)
    case closes =>
      have hfit : (s.setSt k (stPast q)).stFits k n p = true := by simp [State.stFits, hsegs]
      have hdel : (s.setSt k (stPast q)).stDeliver k n s.now p
          = ((s.setSt k (stPast q)).addWrap F.ING_ST_PACKETS_COUNT 1 k).closeFrame n 0 := by
        rw [State.stDeliver_accepts hfit, State.stAccept_open (s := s.setSt k (stPast q)) hf hr hlt, hmark, hsegs]
        rfl
      obtain ⟨hframe, hid, hshown, hkeep, -⟩ := State.closeFrame_shows
        (s := (s.setSt k (stPast q)).addWrap F.ING_ST_PACKETS_COUNT 1 k) 0 hf
      refine ⟨_, congrArg _ (st2110PacketRx_expected hst hsn hx hq hheld (hsame hpq) hpq hdel hkeep), hframe, hid, ?_, hshown⟩
      rw [State.closeFrame_only.f _ _ _ (by decide), State.addWrap, State.f_setF_same]
      rfl

end Sys2Proof.Machine
end

section
/-!
PROOFS. CSI-2 traffic (R83, R85, R88–R97): a part with role 0 whose Frame End does not leave the ring's state.
-/

namespace Sys2Proof.Machine
open Sys2Proof Sys2Proof.Safety

/-- The open frame of the part below: its 64 lines are in its one band, which is stored. -/
def storedFrame : FrameSt := { taken := 64, band := 1 }

/-- A part with role 0 on whose port 0 sensor 0 has a frame whose band is stored; its ingest Tally is flagged CASCADE, and one remote write made
here is not acknowledged yet. -/
def unackedPart : State :=
  let s : State := { State.reset with
    pw := { mode := .running }
    ing := { sns := [(0, { frame := some storedFrame })] }
    dsp := { graph := { tallies := [{ index := 0, flags := 2, producers := 8 }] } }
    lnk := { mine := [(0, 0, 0, [])] } }
  ((s.setF F.ING_PORT_CTL_ENABLE 1).setF F.ING_SNS_SRC_ENABLE 1).setF F.ING_SNS_GEOM_HEIGHT 64

theorem feeds_unackedPart (m : Nat) : feeds unackedPart 0 0 m ↔ m = 0 := by
  refine ⟨fun h => ?_, ?_⟩
  · have only : ∀ m < 32, unackedPart.fb F.ING_SNS_SRC_ENABLE m = true → m = 0 := by decide +kernel
    exact only m h.1 h.2.1
  · rintro rfl
    unfold feeds
    decide +kernel

/-- The last band's advance is CASCADE: it waits for the write, whatever the part's role (R429). -/
theorem csi2FrameEnd_unackedPart_wait : (csi2FrameEnd 0 0 0 unackedPart).lnk.wait = [([0], 0, 1, some 0)] := by decide +kernel

/-- Refutes O10 in its last clause, `t.lnk = s.lnk`: role 0 does not keep an ingest advance out of the ring's state. Where the ingest Tally is flagged
CASCADE and a remote write made here is unacknowledged, the Frame End leaves its advance waiting in `lnk` (R429). -/
theorem not_csiTraffic : ¬ Obligations.CsiTraffic := by
  intro ⟨_, h⟩
  have hup : unackedPart.up = true := rfl
  have hen : unackedPart.fb F.ING_PORT_CTL_ENABLE 0 = true := by decide +kernel
  have hheight : 1 = ceilDiv (unackedPart.f F.ING_SNS_GEOM_HEIGHT 0) 64 := by decide +kernel
  have hrole : unackedPart.role = 0 := by decide +kernel
  obtain ⟨-, -, -, -, hend⟩ := h unackedPart _ 0 0 0 hup (by decide) hen feeds_unackedPart rfl
  obtain ⟨t, ht, -, -, -, -, -, -, -, -, -, -, -, hlnk, -⟩ := hend storedFrame 1 rfl rfl rfl rfl rfl hheight rfl rfl hrole
  have hexec : exec (.csi2FrameEnd 0 0 0) unackedPart = .next (csi2FrameEnd 0 0 0 unackedPart) := congrArg Host.Outcome.next (whenUp_up hup)
  have heq : csi2FrameEnd 0 0 0 unackedPart = t := Host.Outcome.next.inj (hexec.symm.trans ht)
  have hwait := csi2FrameEnd_unackedPart_wait
  rw [heq, hlnk] at hwait
  exact absurd hwait (List.cons_ne_nil _ _).symm

end Sys2Proof.Machine
end

section
/-!
PROOFS. The Mill's kernels: bilinear samples at whole coordinates (R134), the pyramid's 5 × 5 kernel (R135), path costs (R149) and depth (R154).
-/

namespace Sys2Proof.MillNum
open Sys2Proof

/-! ## Lists -/

theorem nth_eq_getD {α : Type} (d : α) (l : List α) (i : Nat) : nth d l i = l.getD i d := by
  induction l generalizing i with
  | nil => rfl
  | cons x l ih => cases i with
    | zero => rfl
    | succ i => exact ih i

theorem nth_map_range {α : Type} (d : α) (f : Nat → α) {n i : Nat} (h : i < n) : nth d ((List.range n).map f) i = f i := by
  simp [nth_eq_getD, h]

theorem sumN_cons (x : Nat) (l : List Nat) : sumN (x :: l) = x + sumN l := by
  simp only [sumN, ← List.sum_eq_foldl_nat, List.sum_cons]

theorem sumN_map_mul_left {α : Type} (l : List α) (f : α → Nat) (c : Nat) : sumN (l.map fun x => c * f x) = c * sumN (l.map f) := by
  induction l with
  | nil => rfl
  | cons x l ih => rw [List.map_cons, List.map_cons, sumN_cons, sumN_cons, ih, Nat.mul_add]

theorem sumN_map_mul_right {α : Type} (l : List α) (f : α → Nat) (c : Nat) : sumN (l.map fun x => f x * c) = sumN (l.map f) * c := by
  simp only [Nat.mul_comm _ c, sumN_map_mul_left]

theorem mem_offs {r : Nat} {d : Int} : d ∈ offs r ↔ -r ≤ d ∧ d ≤ r := by
  simp only [offs, List.mem_map, List.mem_range]
  constructor
  · rintro ⟨i, hi, rfl⟩
    omega
  · intro h
    exact ⟨(d + r).toNat, by omega, by omega⟩

/-! ## Samples at whole coordinates (R134) -/

/-- With both fractions 0 the other three source pixels have no weight, and the rounding term is lost. -/
theorem blend_whole (a b c d : Nat) : blend 0 0 a b c d = a := by
  unfold blend
  omega

theorem sample_whole {m : Img} {i j : Nat} (hi : i + 1 < m.w) (hj : j + 1 < m.h) (h00 : m.ok i j = true) (h10 : m.ok (i + 1) j = true)
    (h01 : m.ok i (j + 1) = true) (h11 : m.ok (i + 1) (j + 1) = true) : sample m (65536 * i) (65536 * j) = some (m.v i j) := by
  have hint (n : Nat) : 65536 * n / 65536 = n := Nat.mul_div_cancel_left n (by decide)
  have hfrac (n : Nat) : 65536 * n / 256 % 256 = 0 := by omega
  simp only [sample, hint, hfrac, blend_whole, hi, hj, h00, h10, h01, h11, and_self, Bool.and_self, if_true]

/-! ## Pyramid pixels (R135) -/

theorem pyrPixel_valid_iff (m : Img) (i j : Nat) :
    (pyrPixel m i j).2 = true ↔ ∀ dy ∈ offs 2, ∀ dx ∈ offs 2, m.good ((2 * i : Nat) + dx) ((2 * j : Nat) + dy) = true := by
  simp only [pyrPixel, List.all_eq_true]

/-- The weights of one axis sum to 16; the kernel is separable, so its 25 weights sum to 256. -/
theorem sumN_k5 : sumN ((offs 2).map k5) = 16 := by decide

theorem smooth_const {m : Img} {v : Nat} (hv : ∀ x y, m.v x y = v) (x y : Int) : smooth m x y = v := by
  have hpx (x y : Int) : m.px x y = v := hv _ _
  simp only [smooth, hpx, sumN_map_mul_right, sumN_map_mul_left, sumN_k5]
  omega

theorem pyrPixel_const {m : Img} {v : Nat} (hv : ∀ x y, m.v x y = v) (hok : ∀ x y, m.ok x y = true) (i j : Nat) :
    pyrPixel m i j = (v, true) := by
  have hvalid : (pyrPixel m i j).2 = true := (pyrPixel_valid_iff m i j).mpr fun _ _ _ _ => hok _ _
  have hvalue : (pyrPixel m i j).1 = if (pyrPixel m i j).2 then smooth m (2 * i : Nat) (2 * j : Nat) else 0 := rfl
  rw [if_pos hvalid, smooth_const hv] at hvalue
  exact Prod.ext hvalue hvalid

/-! ## Path costs (R149) -/

/-- The larger penalty as a pixel uses it (p2_eff of R149): with ADAPT, less by the step between the two left pixels, but above P1. -/
def SgmCfg.p2Eff (k : SgmCfg) (dl : Nat) : Nat := if k.adapt then Nat.max (k.p1 + 1) (k.p2 - dl / 2 ^ k.shift) else k.p2

theorem SgmCfg.p2Eff_le (k : SgmCfg) (dl : Nat) : k.p2Eff dl ≤ Nat.max (k.p1 + 1) k.p2 := by
  unfold SgmCfg.p2Eff
  split
  · exact Nat.max_le.mpr ⟨Nat.le_max_left _ _, Nat.le_trans (Nat.sub_le _ _) (Nat.le_max_right _ _)⟩
  · exact Nat.le_max_right _ _

/-- Each path cost is the matching cost and a penalty no larger than p2_eff. -/
theorem pathCost_eq_add (k : SgmCfg) (c prev : List Nat) (dl : Nat) {d : Nat} (h : d < k.dnum) :
    ∃ e ≤ k.p2Eff dl, nth 0 (pathCost k c prev dl) d = nth 0 c d + e :=
  ⟨_, Nat.le_trans (Nat.min_le_right _ _) (Nat.min_le_right _ _), nth_map_range 0 _ h⟩

theorem pathCost_bounds (k : SgmCfg) (c prev : List Nat) (dl : Nat) {d : Nat} (h : d < k.dnum) :
    nth 0 c d ≤ nth 0 (pathCost k c prev dl) d ∧ nth 0 (pathCost k c prev dl) d ≤ nth 0 c d + Nat.max (k.p1 + 1) k.p2 := by
  obtain ⟨e, he, heq⟩ := pathCost_eq_add k c prev dl h
  rw [heq]
  exact ⟨Nat.le_add_right _ _, Nat.add_le_add_left (Nat.le_trans he (k.p2Eff_le dl)) _⟩

/-! ## Depth codes (R154) -/

/-- The coded disparities and a disparity of 0 do not depend on FB: the tests on the code come before the division. -/
theorem depth_codes (fb : Nat) : depth fb 0xFFFF = 0x7FFF ∧ depth fb 0xFFFE = 0x7FFE ∧ depth fb 0xFFFD = 0x7FFD
    ∧ depth fb 0xFFFC = 0x7FFC ∧ depth fb 0 = 0x7C00 :=
  ⟨rfl, rfl, rfl, rfl, rfl⟩

end Sys2Proof.MillNum

namespace Sys2Proof.Machine
open Sys2Proof

/-- Settles O17: the Mill's kernels at whole coordinates, over equal pixels and at their codes, and the bounds of a path cost. -/
theorem millKernels : Obligations.MillKernels := by
  intro m
  refine ⟨fun i j => MillNum.sample_whole, fun i j => ?_, fun v => MillNum.pyrPixel_const,
    fun k c prev dl d => MillNum.pathCost_bounds k c prev dl, MillNum.depth_codes⟩
  rw [MillNum.pyrPixel_valid_iff]
  simp only [MillNum.mem_offs]
  exact ⟨fun h dx dy hx hx' hy hy' => h dy ⟨hy, hy'⟩ dx ⟨hx, hx'⟩, fun h dy hy dx hx => h dx dy hx.1 hx.2 hy.1 hy.2⟩

end Sys2Proof.Machine
end

section
/-!
PROOFS. Numbers of the tensor formats: conversions (R162–R164), the integer epilogue (R165), zero blocks (R167), integer accumulators (R170) and the
error of a vector function (R174).
-/

namespace Sys2Proof

/-! ## Integers held to a range (R164) -/

theorem satS_eq_max_min (w : Nat) (i : Int) : satS w i = max (-((2 ^ (w - 1) : Nat) : Int)) (min (((2 ^ (w - 1) : Nat) : Int) - 1) i) := by
  have hpos : 0 < 2 ^ (w - 1) := Nat.two_pow_pos _
  unfold satS
  dsimp only
  omega

theorem satS_8 (i : Int) : satS 8 i = max (-128) (min 127 i) := satS_eq_max_min 8 i

theorem sat32_eq_max_min (i : Int) : sat32 i = max (-2147483648) (min 2147483647 i) := satS_eq_max_min 32 i

theorem clampU_8 (i : Int) : (clampU 8 i : Int) = max 0 (min 255 i) := by
  unfold clampU satU
  split
  · omega
  · split <;> omega

/-- A number of 8 signed bits is read back from its code. -/
theorem sgn_uns_8 {i : Int} (hlo : -128 ≤ i) (hhi : i ≤ 127) : sgn 8 (uns 8 i) = i := by
  unfold sgn uns
  dsimp only
  omega

theorem uns_8_of_byte {i : Int} (hlo : 0 ≤ i) (hhi : i ≤ 255) : (uns 8 i : Int) = i := by
  unfold uns
  omega

theorem rneNat_one (n : Nat) : rneNat n 1 = n := by
  simp [rneNat, Nat.mod_one]

theorem Fv.rneMul_ofInt (v : Int) : (Fv.ofInt v).rneMul 1 = v := by
  simp only [Fv.ofInt, Fv.rneMul, Nat.mul_one, rneNat_one, decide_eq_true_eq]
  omega

/-- An integer converted into an integer format is held to its range. -/
theorem Form.conv_ofInt (w : Nat) (signed : Bool) (v : Int) : (Form.int w signed).conv (Fv.ofInt v) = satTo w signed v :=
  congrArg (satTo w signed) (Fv.rneMul_ofInt v)

theorem conv_int8 (v : Int) : ((formOf 3).conv (Fv.ofInt v)).sat = decide (v < -128 ∨ 127 < v)
    ∧ sgn 8 ((formOf 3).conv (Fv.ofInt v)).code = max (-128) (min 127 v) := by
  rw [formOf, Form.conv_ofInt, satTo]
  simp only [if_true, satS_8]
  refine ⟨?_, sgn_uns_8 (by omega) (by omega)⟩
  rw [bne, Bool.beq_eq_decide_eq, ← decide_not, decide_eq_decide]
  omega

theorem conv_uint8 (v : Int) : ((formOf 4).conv (Fv.ofInt v)).sat = decide (v < 0 ∨ 255 < v)
    ∧ (((formOf 4).conv (Fv.ofInt v)).code : Int) = max 0 (min 255 v) := by
  rw [formOf, Form.conv_ofInt, satTo]
  simp only [Bool.false_eq_true, if_false, clampU_8]
  refine ⟨?_, uns_8_of_byte (by omega) (by omega)⟩
  rw [bne, Bool.beq_eq_decide_eq, ← decide_not, decide_eq_decide]
  omega

/-! ## NaN and overflow (R162, R163) -/

/-- Formats 1 to 6 are the integer ones of Table 7-1. -/
theorem formOf_int {n : Nat} (hlo : 1 ≤ n) (hhi : n ≤ 6) : ∃ w signed, formOf n = .int w signed := by
  have hcases : n = 1 ∨ n = 2 ∨ n = 3 ∨ n = 4 ∨ n = 5 ∨ n = 6 := by omega
  rcases hcases with rfl | rfl | rfl | rfl | rfl | rfl <;> exact ⟨_, _, rfl⟩

theorem conv_nan_int {n : Nat} (hlo : 1 ≤ n) (hhi : n ≤ 6) : ((formOf n).conv .nan).code = 0 ∧ ((formOf n).conv .nan).nan = true := by
  obtain ⟨w, signed, h⟩ := formOf_int hlo hhi
  rw [h]
  exact ⟨rfl, rfl⟩

/-- A magnitude above the largest of FP16 becomes that one, with its sign. -/
theorem convFin_fp16_big (neg : Bool) {n : Nat} (h : 65504 < n) :
    (formOf 13).convFin neg n 1 = { code := (if neg then 0x8000 else 0) + 0x7BFF, sat := true } := by
  have htop : fp16.finite 0x7BFF = .fin false 65504 1 := by decide
  have hbig : (fp16.finite 0x7BFF).lt (.fin false n 1) = true := by
    rw [htop]
    exact decide_eq_true (show ((65504 * 1 : Nat) : Int) < (n * 1 : Nat) by omega)
  have hform : formOf 13 = .flt fp16 0x7BFF := rfl
  rw [hform, Form.convFin, if_neg (by decide)]
  dsimp only
  rw [hbig]
  rfl

theorem conv_fp16_big {n : Nat} (h : 65504 < n) : ((formOf 13).conv (Fv.ofInt n)).code = 0x7BFF ∧ ((formOf 13).conv (Fv.ofInt n)).sat = true
    ∧ ((formOf 13).conv (Fv.ofInt (-n))).code = 0xFBFF := by
  have hpos : Fv.ofInt n = .fin false n 1 := by simp [Fv.ofInt]
  have hneg : Fv.ofInt (-n) = .fin true n 1 := by
    simp only [Fv.ofInt, Int.natAbs_neg, Int.natAbs_natCast, Fv.fin.injEq, decide_eq_true_eq, and_true]
    omega
  rw [hpos, hneg, Form.conv, Form.conv, convFin_fp16_big false h, convFin_fp16_big true h]
  exact ⟨rfl, rfl, rfl⟩

/-! ## The integer epilogue (R165) -/

theorem epiInt_int8 (zero acc bias mult : Int) (shift : Nat) : (epiInt 8 true zero acc bias mult shift).1
    = max (-128) (min 127 ((sat32 (acc + bias) * mult + 2 ^ (shift - 1)) / 2 ^ shift + zero)) := satS_8 _

theorem sat32_of_range {v : Int} (hlo : -2147483648 ≤ v) (hhi : v ≤ 2147483647) : sat32 v = v := by
  rw [sat32_eq_max_min]
  omega

theorem epiInt_halves (zero : Int) {acc bias : Int} (hlo : -2147483648 ≤ acc + bias) (hhi : acc + bias ≤ 2147483647) :
    (epiInt 8 true zero acc bias 1 1).1 = max (-128) (min 127 ((acc + bias + 1) / 2 + zero)) := by
  rw [epiInt_int8, sat32_of_range hlo hhi, Int.mul_one]
  rfl

/-! ## Functions of the vector engine (R174) -/

/-- What `ulpMove` does below the NaNs: the sign stays, and the magnitude moves by at most `n`. -/
theorem ulpMove_eq (e : Int) (n : Nat) {p : Nat} (h : p % fp32.sign ≤ fp32.inf) :
    ∃ a ≤ fp32.inf, ulpMove n e p = p / fp32.sign * fp32.sign + a ∧ a ≤ p % fp32.sign + n ∧ p % fp32.sign ≤ a + n := by
  refine ⟨_, Nat.min_le_left _ _, if_neg (Nat.not_lt.mpr h), ?_, ?_⟩ <;> omega

theorem ulpMove_within (e : Int) (n : Nat) {p : Nat} (h : p % fp32.sign ≤ fp32.inf) :
    ulpMove n e p / fp32.sign = p / fp32.sign ∧ ulpMove n e p ≤ p + n ∧ p ≤ ulpMove n e p + n := by
  obtain ⟨a, ha, heq, hup, hdown⟩ := ulpMove_eq e n h
  have hlt : a < fp32.sign := Nat.lt_of_le_of_lt ha (by decide)
  have hp : p / fp32.sign * fp32.sign + p % fp32.sign = p := Nat.div_add_mod' p fp32.sign
  rw [heq]
  refine ⟨?_, by omega, by omega⟩
  rw [Nat.mul_comm, Nat.mul_add_div (by decide), Nat.div_eq_of_lt hlt, Nat.add_zero]

theorem VFn.run_within (f : VFn) {x : Nat} (hx : fp32.special x = false) (h : f.exact (fp32.dec x) % fp32.sign ≤ fp32.inf) :
    f.run x ≤ f.exact (fp32.dec x) + f.ulps ∧ f.exact (fp32.dec x) ≤ f.run x + f.ulps := by
  have hrun : f.run x = ulpMove f.ulps (Config.ulpErr f.num x) (f.exact (fp32.dec x)) := if_neg (Bool.eq_false_iff.mp hx)
  rw [hrun]
  exact (ulpMove_within _ _ h).2

/-! ## Blocks of zeros (R167) -/

/-- A zero does not raise the largest magnitude of a block. -/
theorem foldl_maxAbs_zeros (m : Nat) : ((List.replicate m 0).map fp32.dec).foldl Fv.maxAbs (.fin false 0 1) = .fin false 0 1 := by
  have hzero : Fv.maxAbs (.fin false 0 1) (fp32.dec 0) = .fin false 0 1 := by decide +kernel
  induction m with
  | zero => rfl
  | succ m ih => rw [List.replicate_succ, List.map_cons, List.foldl_cons, hzero, ih]

theorem quantBlock_zeros (f : Form) (m : Nat) : quantBlock f (List.replicate m 0) = (0, List.replicate m 0) := by
  rw [quantBlock, foldl_maxAbs_zeros]
  simp

/-! ## Integer accumulators (R170) -/

theorem addSat32_fst (a : Int × Nat) (v : Int) : (addSat32 a v).1 = max (-2147483648) (min 2147483647 (a.1 + v)) := sat32_eq_max_min _

theorem addSat32_counts (a : Int × Nat) (v : Int) : a.2 = (addSat32 a v).2 ↔ (addSat32 a v).1 = a.1 + v := by
  by_cases h : sat32 (a.1 + v) = a.1 + v <;> simp [addSat32, b2n, h]

end Sys2Proof

namespace Sys2Proof.Machine
open Sys2Proof

/-- Settles O19: each format's range decides what a conversion, the epilogue and an accumulator hold and whether that counts; a vector function
moves its exact result by at most its bound. -/
theorem tensorNumbers : Obligations.TensorNumbers := by
  refine ⟨fun v => ⟨(conv_int8 v).1, (conv_int8 v).2, conv_uint8 v⟩, fun n => conv_nan_int, fun n => conv_fp16_big,
    fun zero acc bias mult shift => ?epilogue, fun zero lo hi y => ?relu, fun e n p => ulpMove_within e n, fun f x => f.run_within,
    quantBlock_zeros _, fun a ps => ?accumulator⟩
  case epilogue =>
    refine ⟨?_, ?_, epiInt_halves zero⟩
    all_goals rw [epiInt_int8]; omega
  case relu => exact ⟨Int.le_max_right _ _, Int.max_eq_left⟩
  case accumulator =>
    have hfst := addSat32_fst a (sumZ (ps.map fun p => p.1 * p.2))
    exact ⟨by rw [accInt]; omega, by rw [accInt]; omega, addSat32_counts a _⟩

end Sys2Proof.Machine
end

section
/-!
PROOFS. The tasks of network instances: what they change as they take their weights or are held, and what that leaves to be read (R179, R191).
-/

namespace Sys2Proof.Machine
open Sys2Proof Sys2Proof.Safety

/-! ## Instances -/

theorem State.ins_congr {s t : State} (h : t.tns = s.tns) : t.ins = s.ins := by
  funext j
  rw [State.ins, State.ins, h]

section
variable (s : State) (i : Nat) (x : InsSt)

@[simp] theorem State.ins_setIns_same : (s.setIns i x).ins i = x := tget_tput_same _ _ _ _

theorem State.ins_setIns_ne {j : Nat} (h : j ≠ i) : (s.setIns i x).ins j = s.ins j := tget_tput_ne _ _ _ _ h

theorem State.endHold_none (h : (s.ins i).heldAt = none) : s.endHold i = s := by rw [State.endHold, h]

theorem State.endHold_some {since : Nat} (h : (s.ins i).heldAt = some since) : s.endHold i
    = (s.setIns i { s.ins i with heldAt := none, held := (s.ins i).held + (s.mono - since) }).addSat F.TNS_STALL_US_US ((s.mono - since) / 1000) := by
  rw [State.endHold, h]

end

/-! ## Tasks at work -/

/-- The mask of what tasks at work may write: the tensor clusters' own state and TNS_STALL_US. -/
abbrev tasksMask : Nat := 0x100000000000000000000000000000000000000000000000000000040000

/-- Of the state of one of the network instances: its frame and band, and what decides which network produces it. -/
def InsSt.work (x : InsSt) : Nat × Nat × List (Nat × Bool) × Option Nat × Option Nat × Option (Nat × Nat × Bool) :=
  (x.next, x.bands, x.late, x.fbFrom, x.noMain, x.refit)

/-- `t` differs from `s` within `tasksMask`, and the network instances are at the same bands of the same networks. -/
structure SameWork (s t : State) : Prop where
  only : Only tasksMask s t
  refitted : t.tns.refitted = s.tns.refitted
  work : ∀ j, (t.ins j).work = (s.ins j).work

/-- The same, where the staging stays and only the instances of `P` change. -/
structure TaskStep (P : Nat → Prop) (s t : State) : Prop extends SameWork s t where
  staged : t.tns.staged = s.tns.staged
  others : ∀ j, ¬ P j → t.ins j = s.ins j

section
variable {P Q : Nat → Prop} {s t u : State}

theorem SameWork.trans (h : SameWork s t) (k : SameWork t u) : SameWork s u :=
  ⟨h.only.trans k.only, k.refitted.trans h.refitted, fun j => (k.work j).trans (h.work j)⟩

theorem TaskStep.refl (P : Nat → Prop) (s : State) : TaskStep P s s := ⟨⟨Only.refl _ _, rfl, fun _ => rfl⟩, rfl, fun _ _ => rfl⟩

theorem TaskStep.trans (h : TaskStep P s t) (k : TaskStep P t u) : TaskStep P s u :=
  ⟨h.toSameWork.trans k.toSameWork, k.staged.trans h.staged, fun j hj => (k.others j hj).trans (h.others j hj)⟩

theorem TaskStep.mono (h : TaskStep P s t) (hPQ : ∀ j, P j → Q j) : TaskStep Q s t :=
  ⟨h.toSameWork, h.staged, fun j hj => h.others j (fun hp => hj (hPQ j hp))⟩

/-- A step of the tensor clusters' own state alone. -/
theorem Only.ofTns {s : State} {x : TnsSt} : Only 0x40000 s { s with tns := x } := by
  simp only [Only.lit]
  apply Only.upd (hpending := rfl) (h := Only.refl _ _) <;> first | exact Or.inl rfl | exact Or.inr rfl

/-- One of the instances changes, at the same work. -/
theorem TaskStep.setIns (s : State) {i : Nat} {x : InsSt} (hx : x.work = (s.ins i).work) : TaskStep (· = i) s (s.setIns i x) := by
  refine ⟨⟨State.setIns_only.widen (by decide), rfl, fun j => ?_⟩, rfl, fun j => State.ins_setIns_ne s i _⟩
  by_cases hj : j = i
  · rw [hj, State.ins_setIns_same, hx]
  · rw [State.ins_setIns_ne _ _ _ hj]

theorem TaskStep.endHold (s : State) (i : Nat) : TaskStep (· = i) s (s.endHold i) := by
  cases h : (s.ins i).heldAt with
  | none =>
    rw [State.endHold_none s i h]
    exact .refl _ s
  | some since =>
    have hset := TaskStep.setIns s (x := { s.ins i with heldAt := none, held := (s.ins i).held + (s.mono - since) }) (i := i) rfl
    rw [State.endHold_some s i h]
    exact ⟨⟨(State.addSat_only (by decide)).then (by decide) hset.only, hset.refitted, hset.work⟩, hset.staged, hset.others⟩

end

/-- Whether the band at work can be formed. -/
def State.insReady (s : State) (i : Nat) : Bool :=
  s.insOn i && decide ((s.ins i).bands < s.snsBands (s.insSensor i)) && s.bandReady i (s.ins i).bands

/-- The first layer of the band at work whose weights are not there, from the one its tasks have reached on. -/
def State.reached (s : State) (i : Nat) : Nat :=
  (s.ins i).at' + ((List.range ((s.bodyOf i (s.ins i).bands).top - (s.ins i).at')).takeWhile
    (fun j => s.weightsHere i (s.ins i).bands ((s.ins i).at' + j))).length

section
variable {s : State} {i : Nat}

/-- The tasks of one of the instances (R179, R191): at the layer reached they may be held, or they take the weights that are there and a hold is over. -/
theorem State.insRun_eq (s : State) (i : Nat) : s.insRun i =
    if !s.insReady i then s
    else if s.reached i = (s.ins i).at' ∧ s.reached i < (s.bodyOf i (s.ins i).bands).top then
      if (s.ins i).heldAt.isNone && s.isHold i (s.ins i).bands (s.reached i) then s.setIns i { s.ins i with heldAt := some s.mono } else s
    else (s.endHold i).setIns i { (s.endHold i).ins i with
      at' := s.reached i
      heldAt := if decide (s.reached i < (s.bodyOf i (s.ins i).bands).top) && (s.endHold i).isHold i (s.ins i).bands (s.reached i)
        then some (s.endHold i).mono else none } := rfl

theorem State.insRun_idle (h : s.insReady i = false) : s.insRun i = s := by
  rw [State.insRun_eq, h]
  rfl

/-- The next layer's weights are missing: at most a hold begins. -/
theorem State.insRun_waits (h : s.insReady i = true) (hk : s.reached i = (s.ins i).at' ∧ s.reached i < (s.bodyOf i (s.ins i).bands).top) :
    s.insRun i = s ∨ ∃ hold, s.insRun i = s.setIns i { s.ins i with heldAt := hold } := by
  rw [State.insRun_eq, h, if_neg (by decide), if_pos hk]
  split
  · exact .inr ⟨_, rfl⟩
  · exact .inl rfl

/-- Tasks take the weights that are there: a hold ends, and another may begin at the layer reached. -/
theorem State.insRun_takes (h : s.insReady i = true) (hk : ¬ (s.reached i = (s.ins i).at' ∧ s.reached i < (s.bodyOf i (s.ins i).bands).top)) :
    ∃ hold, s.insRun i = (s.endHold i).setIns i { (s.endHold i).ins i with at' := s.reached i, heldAt := hold } := by
  rw [State.insRun_eq, h, if_neg (by decide), if_neg hk]
  exact ⟨_, rfl⟩

theorem TaskStep.insRun (s : State) (i : Nat) : TaskStep (· = i) s (s.insRun i) := by
  cases hr : s.insReady i with
  | false =>
    rw [State.insRun_idle hr]
    exact .refl _ s
  | true =>
    by_cases hk : s.reached i = (s.ins i).at' ∧ s.reached i < (s.bodyOf i (s.ins i).bands).top
    · rcases State.insRun_waits hr hk with h | ⟨hold, h⟩
      · rw [h]
        exact .refl _ s
      · rw [h]
        exact .setIns s rfl
    · obtain ⟨hold, h⟩ := State.insRun_takes hr hk
      rw [h]
      exact (TaskStep.endHold s i).trans (.setIns _ rfl)

/-- Afterwards the tasks stand at the layer reached. -/
theorem State.insRun_at (h : s.insReady i = true) : ((s.insRun i).ins i).at' = s.reached i := by
  by_cases hk : s.reached i = (s.ins i).at' ∧ s.reached i < (s.bodyOf i (s.ins i).bands).top
  · rcases State.insRun_waits h hk with heq | ⟨hold, heq⟩
    · rw [heq, hk.1]
    · rw [heq, State.ins_setIns_same, hk.1]
  · obtain ⟨hold, heq⟩ := State.insRun_takes h hk
    rw [heq, State.ins_setIns_same]

/-- A hold that ends counts (R191). -/
theorem State.insRun_held (h : s.insReady i = true) (hk : (s.ins i).at' < s.reached i) {since : Nat} (hs : (s.ins i).heldAt = some since) :
    ((s.insRun i).ins i).held = (s.ins i).held + (s.mono - since) := by
  obtain ⟨hold, heq⟩ := State.insRun_takes h fun hw => Nat.ne_of_gt hk hw.1
  have hend : (s.endHold i).ins i = { s.ins i with heldAt := none, held := (s.ins i).held + (s.mono - since) } := by
    rw [State.endHold_some s i hs]
    exact State.ins_setIns_same _ _ _
  rw [heq, State.ins_setIns_same, hend]

/-- Nothing is left out of a list all of whose elements pass. -/
theorem takeWhile_eq_self {α : Type} {p : α → Bool} : ∀ {l : List α}, (∀ a ∈ l, p a = true) → l.takeWhile p = l
  | [], _ => rfl
  | a :: l, h => by
    rw [List.takeWhile_cons_of_pos (h a List.mem_cons_self), takeWhile_eq_self fun b hb => h b (List.mem_cons_of_mem a hb)]

/-- With every layer's weights there, the tasks reach the end of the network. -/
theorem State.reached_top (h : ∀ k < (s.bodyOf i (s.ins i).bands).top, s.weightsHere i (s.ins i).bands k = true) :
    (s.bodyOf i (s.ins i).bands).top ≤ s.reached i := by
  have hall : (List.range ((s.bodyOf i (s.ins i).bands).top - (s.ins i).at')).takeWhile
      (fun j => s.weightsHere i (s.ins i).bands ((s.ins i).at' + j)) = List.range ((s.bodyOf i (s.ins i).bands).top - (s.ins i).at') := by
    refine takeWhile_eq_self fun j hj => h _ ?_
    have := List.mem_range.mp hj
    omega
  rw [State.reached, hall, List.length_range]
  omega

/-- With the next layer's weights there, the tasks go on. -/
theorem State.lt_reached (ht : (s.ins i).at' < (s.bodyOf i (s.ins i).bands).top)
    (hw : s.weightsHere i (s.ins i).bands (s.ins i).at' = true) : (s.ins i).at' < s.reached i := by
  obtain ⟨m, hm⟩ := Nat.exists_eq_add_of_lt ht
  rw [State.reached, show (s.bodyOf i (s.ins i).bands).top - (s.ins i).at' = m + 1 by omega, List.range_succ_eq_map,
    List.takeWhile_cons_of_pos (by exact hw), List.length_cons]
  omega

end

/-! ## What a step of tasks leaves to be read -/

section
variable {s t : State} (h : SameWork s t)
include h

theorem SameWork.f (x : Fld) (i j : Nat) (hx : spares tasksMask x.reg = true) :
    t.f x i j = s.f x i j := h.only.f x i j hx

theorem SameWork.word (r : Reg) (i j : Nat) (hr : spares tasksMask r = true) :
    t.word r i j = s.word r i j := h.only.word r i j hr

theorem SameWork.fb (x : Fld) (i j : Nat) (hx : spares tasksMask x.reg = true) :
    t.fb x i j = s.fb x i j := by
  rw [State.fb, State.fb, h.f x i j hx]

theorem SameWork.tv (k : Nat) : t.tv k = s.tv k := by rw [State.tv, State.tv, State.tallyOf, State.tallyOf, h.only.tally rfl]

theorem SameWork.insOn (i : Nat) : t.insOn i = s.insOn i := h.fb _ _ _ (by decide)
theorem SameWork.insNet (i : Nat) : t.insNet i = s.insNet i := h.f _ _ _ (by decide)
theorem SameWork.insSensor (i : Nat) : t.insSensor i = s.insSensor i := h.f _ _ _ (by decide)

theorem SameWork.snsBands (n : Nat) : t.snsBands n = s.snsBands n := by rw [State.snsBands, State.snsBands, h.f _ _ _ (by decide)]
theorem SameWork.jobW (n l : Nat) : t.jobW n l = s.jobW n l := by rw [State.jobW, State.jobW, h.f _ _ _ (by decide)]
theorem SameWork.jobH (n l : Nat) : t.jobH n l = s.jobH n l := by rw [State.jobH, State.jobH, h.f _ _ _ (by decide)]

theorem SameWork.netOf (i : Nat) : t.netOf i = s.netOf i := by rw [State.netOf, State.netOf, h.insNet, h.only.bt rfl]

theorem SameWork.physOf (c g l : Nat) : t.physOf c g l = s.physOf c g l := by
  have hplace : t.dsp.place = s.dsp.place := (congrArg DspSt.place (h.only.dsp rfl) :)
  rw [State.physOf, State.physOf, hplace]

theorem SameWork.groupOn (i : Nat) : t.groupOn i = s.groupOn i := by
  rw [State.groupOn, State.groupOn, State.places, State.places, h.only.otp rfl]
  simp only [h.insNet, h.physOf, h.f F.TNS_NET_CTL_GROUP _ _ (by decide)]

theorem SameWork.src (n f : Nat) : t.src n f = s.src n f := by
  have hnum : t.rdNum = s.rdNum := by
    funext a k
    rw [State.rdNum, State.rdNum, State.rdList, State.rdList, h.only.mem rfl]
  rw [State.src, State.src, State.sns_congr (congrArg IngSt.sns (h.only.ing rfl)), State.pair, State.pair, h.word _ _ _ (by decide),
    h.word _ _ _ (by decide), hnum]

theorem SameWork.frontFate (n f : Nat) : t.frontFate n f = s.frontFate n f := by
  rw [State.frontFate, State.frontFate, h.tv, h.f _ _ _ (by decide), h.snsBands, State.fate, State.fate, State.job, State.job, h.only.mill rfl]

theorem SameWork.insFree (i f : Nat) : t.insFree i f = s.insFree i f := by
  rw [State.insFree, State.insFree, State.ringFree, State.ringFree, h.tv, h.f _ _ _ (by decide), h.f _ _ _ (by decide)]

theorem SameWork.parts (i : Nat) : (t.ins i).next = (s.ins i).next ∧ (t.ins i).bands = (s.ins i).bands ∧ (t.ins i).late = (s.ins i).late
    ∧ (t.ins i).fbFrom = (s.ins i).fbFrom ∧ (t.ins i).noMain = (s.ins i).noMain ∧ (t.ins i).refit = (s.ins i).refit := by
  simpa only [InsSt.work, Prod.mk.injEq] using h.work i

theorem SameWork.onFallback (i b : Nat) : t.onFallback i b = s.onFallback i b := by
  obtain ⟨hnext, -, -, hfb, hno, hrefit⟩ := h.parts i
  have hrate (k : Nat) : t.rateFor i k = s.rateFor i k := by
    rw [State.rateFor, State.rateFor, hrefit, h.f _ _ _ (by decide), h.refitted]
  rw [State.onFallback, State.onFallback, State.insFrom, State.insFrom, State.mainGone, State.mainGone, State.reducedFrame, State.reducedFrame,
    hrate, hnext, hfb, hno]

theorem SameWork.bodyOf (i b : Nat) : t.bodyOf i b = s.bodyOf i b := by
  rw [State.bodyOf, State.bodyOf, h.onFallback, h.netOf]

theorem SameWork.bandRows (i b : Nat) : t.bandRows i b = s.bandRows i b := by
  rw [State.bandRows, State.bandRows, h.fb _ _ _ (by decide), h.jobH, h.insSensor, h.netOf]

theorem SameWork.areaSize (i : Nat) : t.areaSize i = s.areaSize i := by
  rw [State.areaSize, State.areaSize, h.fb _ _ _ (by decide), h.f _ _ _ (by decide), h.netOf, h.insSensor, h.jobW]

theorem SameWork.bandArea (i f b : Nat) : t.bandArea i f b = s.bandArea i f b := by
  rw [State.bandArea, State.bandArea, State.insSlot, State.insSlot, State.pair, State.pair, h.word _ _ _ (by decide), h.word _ _ _ (by decide),
    h.f _ _ _ (by decide), h.insSensor, h.snsBands, h.areaSize]

theorem SameWork.inputBands (i b : Nat) : t.inputBands i b = s.inputBands i b := by
  rw [State.inputBands, State.inputBands, h.bodyOf, h.bandRows, State.inShape, State.inShape, h.f _ _ _ (by decide), h.insSensor, h.jobH, h.jobW,
    h.snsBands]

theorem SameWork.bandReady (i b : Nat) : t.bandReady i b = s.bandReady i b := by
  obtain ⟨hnext, -⟩ := h.parts i
  rw [State.bandReady, State.bandReady, hnext, h.insSensor, h.snsBands, h.inputBands, h.f _ _ _ (by decide), h.tv, h.insFree, h.groupOn,
    h.frontFate]

theorem SameWork.insReady (i : Nat) : t.insReady i = s.insReady i := by
  obtain ⟨-, hbands, -⟩ := h.parts i
  rw [State.insReady, State.insReady, h.insOn, hbands, h.insSensor, h.snsBands, h.bandReady]

theorem SameWork.refilling (m : Nat) (pinned : Bool) (l : Layer) : t.refilling m pinned l = s.refilling m pinned l := by
  have hheld : t.pageHeld = s.pageHeld := by
    funext page
    rw [State.pageHeld, State.pageHeld, State.pg, State.pg, h.only.mm rfl]
  have hgroup : t.netGroup m = s.netGroup m := by
    rw [State.netGroup, State.netGroup, State.places, State.places, h.only.otp rfl, h.f _ _ _ (by decide)]
  rw [State.refilling, State.refilling, hheld, hgroup, h.only.mm rfl]

theorem SameWork.mono_eq : t.mono = s.mono := by rw [State.mono, State.mono, h.only.tm rfl]

end

theorem TaskStep.weightsHere {P : Nat → Prop} {s t : State} (h : TaskStep P s t) (i b k : Nat) : t.weightsHere i b k = s.weightsHere i b k := by
  rw [State.weightsHere, State.weightsHere, h.bodyOf, h.onFallback, h.groupOn, h.insNet, h.refilling, h.staged]

end Sys2Proof.Machine
end

section
/-!
PROOFS. Weights in staging (R179) and deadlines (R192, R193) of network instances.
-/

namespace Sys2Proof.Machine
open Sys2Proof Sys2Proof.Safety

/-! ## Weights in staging (R179) -/

/-- The tasks of a list of instances take their weights in turn. -/
theorem TaskStep.foldl (l : List Nat) : ∀ s : State, TaskStep (· ∈ l) s (l.foldl State.insRun s) := by
  induction l with
  | nil => exact .refl _
  | cons i l ih =>
    exact fun s => ((TaskStep.insRun s i).mono fun _ h => List.mem_cons.mpr (.inl h)).trans ((ih _).mono fun _ h => List.mem_cons_of_mem _ h)

theorem TaskStep.tnsRun (s : State) : TaskStep (· < 64) s s.tnsRun := (TaskStep.foldl (List.range 64) s).mono fun _ => List.mem_range.mp

/-- Of the instances' steps one is that of number i; the others leave it alone. -/
theorem State.tnsRun_split (s : State) {i : Nat} (hi : i < 64) :
    ∃ u : State, TaskStep (· ≠ i) s u ∧ TaskStep (· ≠ i) (u.insRun i) s.tnsRun := by
  obtain ⟨l, r, hlr⟩ := List.append_of_mem (List.mem_range.mpr hi)
  have hnd : (l ++ i :: r).Nodup := hlr ▸ List.nodup_range
  rw [List.nodup_append, List.nodup_cons] at hnd
  obtain ⟨-, ⟨hr, -⟩, hapart⟩ := hnd
  have hl : i ∉ l := fun h => hapart i h i List.mem_cons_self rfl
  refine ⟨l.foldl State.insRun s, (TaskStep.foldl l s).mono fun j hj => ?_, ?_⟩
  · exact fun h => hl (h ▸ hj)
  · rw [State.tnsRun, hlr, List.foldl_append, List.foldl_cons]
    exact (TaskStep.foldl r _).mono fun j hj h => hr (h ▸ hj)

/-- A task held for a layer whose weights are there goes on, and its hold counts (R191). -/
theorem State.tnsRun_goesOn {s : State} {i since : Nat} (hi : i < 64) (hr : s.insReady i = true)
    (ht : (s.ins i).at' < (s.bodyOf i (s.ins i).bands).top) (hw : s.weightsHere i (s.ins i).bands (s.ins i).at' = true)
    (hs : (s.ins i).heldAt = some since) :
    (s.tnsRun.ins i).held = (s.ins i).held + (s.mono - since) ∧ (s.ins i).at' < (s.tnsRun.ins i).at' := by
  obtain ⟨u, hu, hrest⟩ := s.tnsRun_split hi
  have hui : u.ins i = s.ins i := hu.others i (fun h => h rfl)
  have hur : u.insReady i = true := (hu.insReady i).trans hr
  have hlt : (u.ins i).at' < u.reached i := State.lt_reached (by rwa [hui, hu.bodyOf]) (by rwa [hui, hu.weightsHere])
  rw [hrest.others i (fun h => h rfl), State.insRun_at hur, State.insRun_held hur hlt (by rwa [hui]), ← hu.mono_eq, ← hui]
  exact ⟨rfl, hlt⟩

theorem State.weightsHere_of_staged {s : State} {i b k c : Nat} (hfb : s.onFallback i b = false) (hc : c ∈ s.groupOn i)
    (hs : (s.insNet i, k, c) ∈ s.tns.staged) (hr : s.refilling (s.insNet i) false ((s.netOf i).main.layer k) = false) :
    s.weightsHere i b k = true := by
  have hbody : s.bodyOf i b = (s.netOf i).main := by rw [State.bodyOf, hfb]; rfl
  have hany : (s.groupOn i).any (fun c => s.tns.staged.contains (s.insNet i, k, c)) = true :=
    List.any_eq_true.mpr ⟨c, hc, List.contains_iff_mem.mpr hs⟩
  rw [State.weightsHere, hbody, hfb, hany, hr]
  simp

/-- Whether an entry of the staging is a layer of a network in a cluster. -/
def stagedIn (net cluster : Nat) (e : Nat × Nat × Nat) : Bool := e.1 == net && e.2.2 == cluster

theorem stagedIn_iff {net cluster : Nat} {e : Nat × Nat × Nat} : stagedIn net cluster e = true ↔ e.1 = net ∧ e.2.2 = cluster := by
  rw [stagedIn, Bool.and_eq_true, beq_iff_eq, beq_iff_eq]

/-- Staging once a layer is fetched into a cluster: before it the `keep` − 1 last of its network there, and the rest as it was. -/
def stagedWith (net layer cluster keep : Nat) (l : List (Nat × Nat × Nat)) : List (Nat × Nat × Nat) :=
  let rest := l.filter (fun e => e != (net, layer, cluster))
  (net, layer, cluster) :: ((rest.filter (stagedIn net cluster)).take (keep - 1) ++ rest.filter (fun e => !stagedIn net cluster e))

section
variable (net layer cluster keep : Nat) (l : List (Nat × Nat × Nat))

theorem mem_stagedWith {e : Nat × Nat × Nat} (h : e ∈ stagedWith net layer cluster keep l) : e = (net, layer, cluster) ∨ e ∈ l := by
  rcases List.mem_cons.mp h with h | h
  · exact .inl h
  · rcases List.mem_append.mp h with h | h
    · exact .inr (List.mem_filter.mp (List.mem_filter.mp (List.mem_of_mem_take h)).1).1
    · exact .inr (List.mem_filter.mp (List.mem_filter.mp h).1).1

/-- A cluster's staging holds at most `keep` layers of the network, and the one just fetched (log entry 83). -/
theorem stagedWith_here_length : ((stagedWith net layer cluster keep l).filter (stagedIn net cluster)).length ≤ max 1 keep := by
  have hrest (r : List (Nat × Nat × Nat)) : (r.filter fun e => !stagedIn net cluster e).filter (stagedIn net cluster) = [] :=
    List.filter_eq_nil_iff.mpr fun e he h => by simp [h] at he
  have hmine (r : List (Nat × Nat × Nat)) : ((r.take (keep - 1)).filter (stagedIn net cluster)).length ≤ keep - 1 :=
    Nat.le_trans (List.length_filter_le _ _) (List.length_take_le _ _)
  have hnew : stagedIn net cluster (net, layer, cluster) = true := stagedIn_iff.mpr ⟨rfl, rfl⟩
  rw [stagedWith, List.filter_cons_of_pos hnew, List.filter_append, hrest, List.append_nil, List.length_cons]
  have := hmine ((l.filter (fun e => e != (net, layer, cluster))).filter (stagedIn net cluster))
  omega

/-- The staging of other clusters and of other networks is left alone. -/
theorem stagedWith_elsewhere {m c : Nat} (h : m ≠ net ∨ c ≠ cluster) :
    (stagedWith net layer cluster keep l).filter (stagedIn m c) = l.filter (stagedIn m c) := by
  have hnot {e : Nat × Nat × Nat} (he : stagedIn m c e = true) : stagedIn net cluster e = false := by
    rw [stagedIn_iff] at he
    refine Bool.eq_false_iff.mpr fun hn => ?_
    rw [stagedIn_iff] at hn
    omega
  have hnew : ¬ stagedIn m c (net, layer, cluster) = true := fun hk =>
    Bool.eq_false_iff.mp (hnot hk) (stagedIn_iff.mpr ⟨rfl, rfl⟩)
  have hmine (r : List (Nat × Nat × Nat)) : ((r.filter (stagedIn net cluster)).take (keep - 1)).filter (stagedIn m c) = [] :=
    List.filter_eq_nil_iff.mpr fun e he hk => Bool.eq_false_iff.mp (hnot hk) (List.mem_filter.mp (List.mem_of_mem_take he)).2
  rw [stagedWith, List.filter_cons_of_neg hnew, List.filter_append, hmine, List.nil_append, List.filter_filter, List.filter_filter]
  refine List.filter_congr fun e _ => ?_
  cases hk : stagedIn m c e with
  | false => rfl
  | true =>
    have hne : e ≠ (net, layer, cluster) := fun he => hnew (he ▸ hk)
    simp [hnot hk, hne]

end

/-- The state with a layer in the staging of a cluster. -/
def State.withStaged (s : State) (net layer cluster : Nat) : State :=
  { s with tns.staged := stagedWith net layer cluster (s.f F.TNS_NET_CTL_PREFETCH net) s.tns.staged }

theorem SameWork.withStaged (s : State) (net layer cluster : Nat) : SameWork s (s.withStaged net layer cluster) :=
  ⟨Only.ofTns.widen (by decide), rfl, fun _ => rfl⟩

/-- A prefetch joins the staging, and the tasks of all instances go on (R179, R191). -/
theorem weightsStaged_fetched {s : State} {net layer cluster : Nat} (hn : net < 16) (hf : s.fetchable net layer = true)
    (hg : bitOf (s.f F.TNS_NET_CTL_GROUP net) cluster = true) (hp : s.physOf 4 0 cluster ≠ none) :
    weightsStaged net layer cluster s = (s.withStaged net layer cluster).tnsRun :=
  if_neg (by simp [hf, hg, hp, hn])

theorem weightsStaged_ignored {s : State} {net layer cluster : Nat}
    (h : s.fetchable net layer = false ∨ bitOf (s.f F.TNS_NET_CTL_GROUP net) cluster = false ∨ s.physOf 4 0 cluster = none) :
    weightsStaged net layer cluster s = s := by
  refine if_pos (.inr ?_)
  simpa using h

/-- A layer that may be fetched is one of its network's. -/
theorem State.lt_top_of_fetchable {s : State} {net layer : Nat} (h : s.fetchable net layer = true) :
    layer < (nth ({} : Net) s.bt.img.nets net).main.top := by
  simp only [State.fetchable, Bool.and_eq_true, decide_eq_true_eq] at h
  exact h.1.1

/-- The task held for the layer that a prefetch brings goes on. -/
theorem weightsStaged_goesOn {s : State} {net cluster i since : Nat} (hn : net < 16) (hf : s.fetchable net (s.ins i).at' = true)
    (hg : bitOf (s.f F.TNS_NET_CTL_GROUP net) cluster = true) (hp : s.physOf 4 0 cluster ≠ none) (hi : i < 64) (hon : s.insOn i = true)
    (hnet : s.insNet i = net) (hc : cluster ∈ s.groupOn i) (hs : (s.ins i).heldAt = some since)
    (hb : (s.ins i).bands < s.snsBands (s.insSensor i)) (hready : s.bandReady i (s.ins i).bands = true)
    (hfb : s.onFallback i (s.ins i).bands = false) (href : s.refilling net false ((s.netOf i).main.layer (s.ins i).at') = false) :
    ((weightsStaged net (s.ins i).at' cluster s).ins i).held = (s.ins i).held + (s.mono - since)
      ∧ (s.ins i).at' < ((weightsStaged net (s.ins i).at' cluster s).ins i).at' := by
  have hv := SameWork.withStaged s net (s.ins i).at' cluster
  have hwork : s.insReady i = true := by
    rw [State.insReady, hon, hready, decide_eq_true hb]
    rfl
  have htop : (s.ins i).at' < (s.bodyOf i (s.ins i).bands).top := by
    rw [State.bodyOf, hfb, State.netOf, hnet]
    exact State.lt_top_of_fetchable hf
  have hw : (s.withStaged net (s.ins i).at' cluster).weightsHere i (s.ins i).bands (s.ins i).at' = true := by
    refine State.weightsHere_of_staged (c := cluster) ((hv.onFallback i _).trans hfb) (by rwa [hv.groupOn]) ?_ ?_
    · rw [hv.insNet, hnet]
      exact List.mem_cons_self
    · rwa [hv.insNet, hv.netOf, hv.refilling, hnet]
  rw [weightsStaged_fetched hn hf hg hp]
  exact State.tnsRun_goesOn (s := s.withStaged net (s.ins i).at' cluster) hi ((hv.insReady i).trans hwork) (by rw [hv.bodyOf]; exact htop) hw hs

/-! ## Deadlines (R192, R193) -/

theorem State.f_addSat_same (s : State) {x : Fld} {n i j : Nat} (h : x.ok = true) :
    (s.addSat x n i j).f x i j = satU (x.hi - x.lo + 1) (s.f x i j + n) := by
  rw [State.addSat, State.f_setF_same _ _ _ _ h, Nat.mod_eq_of_lt (satU_lt _ _)]

theorem State.f_addSat_ne (s : State) {x y : Fld} {n i j i' j' : Nat} (h : y.reg.clear x.reg = true) :
    (s.addSat x n i j).f y i' j' = s.f y i' j' := State.f_setF_addr _ _ (Reg.addr_ne h _ _ _ _)

/-- The unpublished bands of frame f, the one at work, go to the fallback network; `held`: a task was held. -/
def State.toFallback (s : State) (i f : Nat) (held : Bool) : State :=
  s.setIns i { s.ins i with late := (s.ins i).late ++ [(f, held)], fbFrom := some ((s.ins i).fbFrom.getD (s.ins i).bands), at' := 0 }

section
variable {s : State} {i : Nat}

theorem networkDeadline_late {f : Nat} (h : ∃ e ∈ (s.ins i).late, e.1 = f) : networkDeadline i f s = s := by
  have hany : (s.ins i).late.any (fun e => e.1 == f) = true := by simpa using h
  unfold networkDeadline
  dsimp only
  rw [hany, Bool.or_true, if_pos rfl, ite_self]

theorem networkDeadline_notDue {f : Nat} {x : Src} (hx : s.src (s.insSensor i) f = some x) (h : s.now < x.ts + s.insDeadline i) :
    networkDeadline i f s = s := by
  unfold networkDeadline
  dsimp only
  rw [hx]
  dsimp only
  rw [decide_eq_true h, Bool.or_true, if_pos rfl, ite_self, ite_self]

variable {x : Src} (hi : i < 64) (hon : s.insOn i = true) (hx : s.src (s.insSensor i) (s.ins i).next = some x) (habs : x.absent = false)
  (hfate : s.frontFate (s.insSensor i) (s.ins i).next ≠ 3) (hgrp : s.groupOn i ≠ []) (hlate : ∀ e ∈ (s.ins i).late, e.1 ≠ (s.ins i).next)
  (hdue : x.ts + s.insDeadline i ≤ s.now)
include hi hon hx habs hfate hgrp hlate hdue

/-- A deadline that is due for the frame at work counts as LATE_WEIGHTS where a task was held, else as LATE_OTHER. -/
theorem networkDeadline_due : networkDeadline i (s.ins i).next s = if (s.ins i).heldAt.isSome
    then ((((s.endHold i).toFallback i (s.ins i).next true).addSat F.TNS_LATE_WEIGHTS_COUNT).addSat F.TNS_INS_FALLBACKS_LATE_WEIGHTS 1 i).event
      0x6 0 i 0 2 x.id
    else (((s.endHold i).toFallback i (s.ins i).next false).addSat F.TNS_LATE_OTHER_COUNT).event 0x6 1 i 0 2 x.id := by
  have hany : (s.ins i).late.any (fun e => e.1 == (s.ins i).next) = false := by simpa using hlate
  have hnow : decide (s.now < x.ts + s.insDeadline i) = false := decide_eq_false (Nat.not_lt.mpr hdue)
  have hempty : (s.groupOn i).isEmpty = false := by simpa using hgrp
  unfold networkDeadline
  rw [if_neg (by simp [hi, hon])]
  dsimp only
  rw [if_neg (by simp [hany]), hx]
  dsimp only
  rw [if_neg (by simp [habs, hfate, hempty, hnow])]
  cases (s.ins i).heldAt.isSome
  · simp only [if_true, beq_self_eq_true, Bool.and_false, Bool.false_eq_true, if_false]
    rfl
  · simp only [if_true, beq_self_eq_true, Bool.and_true]
    rfl

end

/-- A task held at the deadline: its hold ends, the frame's unpublished bands go to the fallback, and the frame counts as LATE_WEIGHTS. -/
theorem networkDeadline_held {s : State} {i : Nat} {x : Src} (hi : i < 64) (hon : s.insOn i = true)
    (hx : s.src (s.insSensor i) (s.ins i).next = some x) (habs : x.absent = false) (hfate : s.frontFate (s.insSensor i) (s.ins i).next ≠ 3)
    (hgrp : s.groupOn i ≠ []) (hlate : ∀ e ∈ (s.ins i).late, e.1 ≠ (s.ins i).next) (hdue : x.ts + s.insDeadline i ≤ s.now) {since : Nat}
    (hs : (s.ins i).heldAt = some since) : ∃ t : State, networkDeadline i (s.ins i).next s = t
      ∧ t.ins i = { s.ins i with late := (s.ins i).late ++ [((s.ins i).next, true)], fbFrom := some ((s.ins i).fbFrom.getD (s.ins i).bands),
                                 at' := 0, heldAt := none, held := (s.ins i).held + (s.mono - since) }
      ∧ (∀ j, j ≠ i → t.ins j = s.ins j)
      ∧ t.f F.TNS_LATE_WEIGHTS_COUNT = satU 32 (s.f F.TNS_LATE_WEIGHTS_COUNT + 1)
      ∧ t.f F.TNS_INS_FALLBACKS_LATE_WEIGHTS i = satU 16 (s.f F.TNS_INS_FALLBACKS_LATE_WEIGHTS i + 1)
      ∧ t.f F.TNS_LATE_OTHER_COUNT = s.f F.TNS_LATE_OTHER_COUNT
      ∧ t.f F.TNS_STALL_US_US = satU 32 (s.f F.TNS_STALL_US_US + (s.mono - since) / 1000)
      ∧ t.fb F.TNS_EVT_LATE_WEIGHTS = true := by
  have hdone := networkDeadline_due hi hon hx habs hfate hgrp hlate hdue
  rw [hs, Option.isSome_some, if_pos rfl] at hdone
  have hend : (s.endHold i).ins i = { s.ins i with heldAt := none, held := (s.ins i).held + (s.mono - since) } := by
    rw [State.endHold_some s i hs]
    exact State.ins_setIns_same _ _ _
  have hf (y : Fld) (k : Nat) (hy : spares tasksMask y.reg = true) :
      ((s.endHold i).toFallback i (s.ins i).next true).f y k = s.f y k := (TaskStep.endHold s i).f y k 0 hy
  refine ⟨_, hdone, ?_, fun j hj => ?_, ?_, ?_, ?_, ?_, ?_⟩
  · rw [State.ins_congr (event_tns _ _ _ _ _ _ _)]
    refine (State.ins_setIns_same _ _ _).trans ?_
    rw [hend]
  · rw [State.ins_congr (event_tns _ _ _ _ _ _ _)]
    exact (State.ins_setIns_ne _ _ _ hj).trans ((TaskStep.endHold s i).others j hj)
  · rw [State.event_only.f _ _ _ (by decide), State.f_addSat_ne _ (by decide), State.f_addSat_same _ (by decide), hf _ _ (by decide)]
    rfl
  · rw [State.event_only.f _ _ _ (by decide), State.f_addSat_same _ (by decide), State.f_addSat_ne _ (by decide), hf _ _ (by decide)]
    rfl
  · rw [State.event_only.f _ _ _ (by decide), State.f_addSat_ne _ (by decide), State.f_addSat_ne _ (by decide), hf _ _ (by decide)]
  · rw [State.event_only.f _ _ _ (by decide), State.f_addSat_ne _ (by decide), State.f_addSat_ne _ (by decide), State.toFallback,
      State.endHold_some s i hs]
    exact State.f_addSat_same _ (by decide)
  · rw [event_fb _ _ _ _ _ _ _ _ rfl (by decide) rfl (by decide), Bool.or_eq_true, decide_eq_true_eq]
    exact .inr ⟨rfl, by decide, rfl⟩

end Sys2Proof.Machine
end

section
/-!
PROOFS. Bands of network instances (R180, R182, R186): when one can be formed, and what one that completes writes, counts and advances.
-/

namespace Sys2Proof.Machine
open Sys2Proof Sys2Proof.Safety

/-! ## Stores (R221) -/

theorem State.markStore_poison (s : State) (a n : Nat) : (s.markStore a n).mm.poison = s.mm.poison := by
  have htouch (u : State) (page k : Nat) : (u.touch page k true).mm.poison = u.mm.poison := by
    unfold State.touch
    dsimp only
    split <;> rfl
  unfold State.markStore
  dsimp only
  split
  · rfl
  · refine List.foldlRecOn (motive := fun u : State => u.mm.poison = s.mm.poison) _ _ ?_ fun u hu k _ => (htouch u _ _).trans hu
    split <;> split <;> rfl

/-- Without poisoned lines a store writes its bytes. -/
theorem State.wrList_mem {s : State} (h : s.mm.poison = []) (a : Nat) (bs : List Byte) : (s.wrList a bs).mem = s.mem.writeList a bs := by
  have hpoison : (s.markStore a bs.length).mm.poison.isEmpty = true := by rw [State.markStore_poison, h]; rfl
  rw [State.wrList, if_pos hpoison, State.markStore_only.mem rfl]

theorem State.tilesPoisoned_none {s : State} (h : s.mm.poison = []) (n f b : Nat) : s.tilesPoisoned n f b = false := by
  have hline (a k : Nat) : s.poisoned a k = false := by rw [State.poisoned, h]; rfl
  unfold State.tilesPoisoned
  dsimp only
  split
  · refine List.any_eq_false.mpr fun k _ => ?_
    split <;> simp [hline]
  · exact hline _ _

/-! ## Bands (R182, R186) -/

theorem leBytes_length (n : Nat) : ∀ v, (leBytes n v).length = n := by
  induction n with
  | zero => exact fun _ => rfl
  | succ n ih => exact fun v => congrArg (· + 1) (ih _)

/-- A KEYPOINTS band begins with its counts, of which at most MAX_BAND keypoints are listed. -/
theorem State.bandOut_keypoints {s : State} {i : Nat} (h : s.fb F.TNS_INS_CTL_KEYPOINTS i = true) (b : Nat) (e : TEnv) : ∃ kps : List Kp,
    (s.bandOut i b e).bytes.take 32
      = leBytes 4 (Nat.min (s.f F.TNS_INS_KP_MAX_BAND i) kps.length) ++ leBytes 4 kps.length ++ leBytes 1 b ++ zeroBytes 23 := by
  refine ⟨e.keypoints (s.f F.TNS_INS_KP_SCORE_THR i) (s.f F.TNS_INS_KP_NMS i) (s.bandRows i b).1 (s.bandRows i b).2 (s.ins i).inp, ?_⟩
  rw [State.bandOut, if_pos h, State.kpBand]
  dsimp only
  rw [List.length_take]
  exact List.take_left' (by simp [leBytes_length, zeroBytes])

section
variable (s : State) (i b core : Nat) (splits : List KSplit)

/-- The tensors once a band's rows are formed from the input delivered, and what counted. -/
def State.bandTensors : TEnv × Nat × Nat :=
  ((s.takeInput i).netEnv i splits).run ((s.takeInput i).f F.TNS_INS_KP_NMS i) ((s.takeInput i).bandRows i b).1 ((s.takeInput i).bandRows i b).2
    ((s.takeInput i).ins i).inp ((s.takeInput i).inputVal i)

/-- What the band's area is to hold. -/
def State.bandFormed : BandOut := (s.takeInput i).bandOut i b (s.bandTensors i b splits).1

/-- The tensors are kept for the frame's later bands. -/
def State.tensorsKept : State :=
  (s.takeInput i).setIns i (if (s.takeInput i).onFallback i b then { (s.takeInput i).ins i with fb := (s.bandTensors i b splits).1.acts }
    else { (s.takeInput i).ins i with main := (s.bandTensors i b splits).1.acts, whole := (s.ins i).whole + 1 })

/-- The core's engines hold the tiles they loaded. -/
def State.tilesLoaded : State := (s.tensorsKept i b splits).loadTiles ((s.tensorsKept i b splits).bodyOf i b) core

/-- The band's area is written, and its saturations and NaN conversions count. -/
def State.bandStored : State :=
  let u := s.tilesLoaded i b core splits
  let r := s.bandTensors i b splits
  let o := s.bandFormed i b splits
  ((u.wrList (u.bandArea i (s.ins i).next b) (o.bytes.take (u.areaSize i))).addSat F.TNS_SAT_COUNT_COUNT (r.2.1 + o.sat)).addSat
    F.TNS_NAN_COUNT_COUNT (r.2.2 + o.nan)

theorem TaskStep.takeInput : TaskStep (· = i) s (s.takeInput i) := .setIns s rfl

theorem TaskStep.loadTiles (w : WBody) (P : Nat → Prop) : TaskStep P s (s.loadTiles w core) := by
  have htiles : ∃ t, s.loadTiles w core = { s with tns.tiles := t } := by
    unfold State.loadTiles
    split
    · exact ⟨_, rfl⟩
    · refine List.foldlRecOn (motive := fun u : State => ∃ t, u = { s with tns.tiles := t }) _ _ ⟨_, rfl⟩ ?_
      rintro u ⟨t, rfl⟩ e -
      exact ⟨_, rfl⟩
  obtain ⟨t, ht⟩ := htiles
  rw [ht]
  exact ⟨⟨Only.ofTns.widen (by decide), rfl, fun _ => rfl⟩, rfl, fun _ _ => rfl⟩

theorem TaskStep.tensorsKept : TaskStep (· = i) s (s.tensorsKept i b splits) := by
  refine (TaskStep.takeInput s i).trans (.setIns _ ?_)
  split <;> rfl

theorem TaskStep.tilesLoaded : TaskStep (· = i) s (s.tilesLoaded i b core splits) :=
  (TaskStep.tensorsKept s i b splits).trans (.loadTiles _ core _ _)

theorem State.bandStored_ins : (s.bandStored i b core splits).ins = (s.tilesLoaded i b core splits).ins := by
  refine State.ins_congr ?_
  rw [State.bandStored, State.addSat_tns, State.addSat_tns, State.wrList_only.tns rfl]

theorem State.bandStored_only : Only 0x100413000000000001c00000000000000000000000000000000000000000000000000000c0002 s
    (s.bandStored i b core splits) :=
  (State.addSat_only (by decide)).then (by decide) ((State.addSat_only (by decide)).then (by decide)
    (State.wrList_only.then (by decide) ((TaskStep.tilesLoaded s i b core splits).only.widen (by decide))))

end

section
variable {s : State} {i b : Nat} (core : Nat) (splits : List KSplit)

/-- A band whose own input rows are not delivered cannot be formed. -/
theorem State.bandReady_late (hb : b < s.snsBands (s.insSensor i))
    (h : s.tv (s.f F.MILL_SNS_TALLY_FRONT (s.insSensor i)) < (s.ins i).next * s.snsBands (s.insSensor i) + (b + 1)) : s.bandReady i b = false := by
  have hin : b + 1 ≤ s.inputBands i b := Nat.le_min.mpr ⟨hb, Nat.le_max_left _ _⟩
  rw [State.bandReady, decide_eq_false (by omega)]
  rfl

/-- A band whose slot is not released cannot be formed. -/
theorem State.bandReady_full (h : s.tv (s.f F.TNS_INS_TALLY_RELEASE i) + s.f F.TNS_INS_CTL_OUT_FRAMES i ≤ (s.ins i).next) :
    s.bandReady i b = false := by
  have hfree : s.insFree i (s.ins i).next = false := decide_eq_false (Nat.not_lt.mpr h)
  rw [State.bandReady, hfree]
  simp

/-- A band of a frame whose input is all delivered, with a slot released and a cluster in service, can be formed. -/
theorem State.bandReady_delivered
    (h : ((s.ins i).next + 1) * s.snsBands (s.insSensor i) ≤ s.tv (s.f F.MILL_SNS_TALLY_FRONT (s.insSensor i)))
    (hfree : (s.ins i).next < s.tv (s.f F.TNS_INS_TALLY_RELEASE i) + s.f F.TNS_INS_CTL_OUT_FRAMES i) (hgrp : s.groupOn i ≠ [])
    (h2 : s.frontFate (s.insSensor i) (s.ins i).next ≠ 2) (h3 : s.frontFate (s.insSensor i) (s.ins i).next ≠ 3) : s.bandReady i b = true := by
  have hin : s.inputBands i b ≤ s.snsBands (s.insSensor i) := Nat.min_le_left _ _
  have hslot : s.insFree i (s.ins i).next = true := decide_eq_true hfree
  have hempty : (s.groupOn i).isEmpty = false := by simpa using hgrp
  rw [Nat.add_mul, Nat.one_mul] at h
  rw [State.bandReady, decide_eq_true (by omega), hslot, hempty]
  simp [h2, h3]

/-- A band that cannot be formed does not complete, and the tasks stay where they are. -/
theorem networkBandDone_notReady (hb : b = (s.ins i).bands) (h : s.bandReady i b = false) : networkBandDone i b core splits s = s := by
  have hidle : s.insRun i = s := State.insRun_idle (by rw [State.insReady, ← hb, h, Bool.and_false])
  unfold networkBandDone
  dsimp only
  rw [hidle]
  split
  · rfl
  · split
    · rfl
    · rw [if_pos (by simp [h])]

/-- On a core outside the group no band completes. -/
theorem networkBandDone_outside (hi : i < 64) (hon : s.insOn i = true) (hc : core / 4 ∉ s.groupOn i) :
    networkBandDone i b core splits s = s.insRun i := by
  have hgroup : core / 4 ∉ (s.insRun i).groupOn i := by rwa [(TaskStep.insRun s i).groupOn]
  unfold networkBandDone
  rw [if_neg (by simp [hi, hon])]
  dsimp only
  split
  · rfl
  · rw [if_pos (by simp [hgroup])]

/-- A band whose input rows and weights are there completes on a core of the group. -/
theorem networkBandDone_completes {x : Src} (hi : i < 64) (hon : s.insOn i = true) (hx : s.src (s.insSensor i) (s.ins i).next = some x)
    (habs : x.absent = false) (hb : b = (s.ins i).bands) (hlt : b < s.snsBands (s.insSensor i)) (hready : s.bandReady i b = true)
    (hc : core / 4 ∈ s.groupOn i) (hw : ∀ k, k < (s.bodyOf i b).top → s.weightsHere i b k = true) (hp : s.mm.poison = []) :
    ∃ flags listed found, networkBandDone i b core splits s = ((s.insRun i).bandStored i b core splits).bandOver i x flags listed found := by
  have h := TaskStep.insRun s i
  obtain ⟨hnext, hbands, -⟩ := h.parts i
  have hr : s.insReady i = true := by rw [State.insReady, hon, ← hb, decide_eq_true hlt, hready]; rfl
  have hat : ¬ ((s.insRun i).ins i).at' < (s.bodyOf i b).top := by
    rw [State.insRun_at hr, hb]
    exact Nat.not_lt.mpr (State.reached_top (by rwa [← hb]))
  have hpoison : (s.insRun i).tilesPoisoned (s.insSensor i) (s.ins i).next b = false := State.tilesPoisoned_none (by rw [h.only.mm rfl, hp]) _ _ _
  unfold networkBandDone
  rw [if_neg (by simp [hi, hon])]
  dsimp only
  rw [h.insSensor, h.src, hnext, hx]
  dsimp only
  rw [h.snsBands, h.bandReady, h.bodyOf, h.groupOn, hbands, if_neg (by simp [habs, hready, hlt, ← hb, hc, hat]),
    hpoison, if_neg (by decide), ← hnext]
  exact ⟨_, _, _, rfl⟩

end

/-- After a band that is not the frame's last the output Tally advances by one and the tasks go on. -/
theorem State.bandOver_next {s : State} {i : Nat} (hb : (s.ins i).bands + 1 < s.snsBands (s.insSensor i)) (x : Src) (flags listed found : Nat) :
    ∃ y : InsSt, y.bands = (s.ins i).bands + 1 ∧ y.next = (s.ins i).next
      ∧ s.bandOver i x flags listed found = (((s.endHold i).setIns i y).insAdvance i 1 x.ts).insRun i := by
  have h := TaskStep.endHold s i
  obtain ⟨hnext, hbands, -⟩ := h.parts i
  have honly (y : InsSt) : Only tasksMask s ((s.endHold i).setIns i y) :=
    State.setIns_only.then (by decide) h.only
  have hlt (y : InsSt) : ((s.endHold i).ins i).bands + 1 < ((s.endHold i).setIns i y).snsBands (((s.endHold i).setIns i y).insSensor i) := by
    rw [hbands, State.snsBands, State.insSensor, (honly y).f _ _ _ (by decide), (honly y).f _ _ _ (by decide)]
    exact hb
  unfold State.bandOver
  dsimp only
  rw [if_pos (hlt _)]
  refine ⟨_, ?_, ?_, rfl⟩
  · exact congrArg (· + 1) hbands
  · exact hnext

section
variable {s t : State} {i : Nat} {y : InsSt} {x : Src} (ht : t = (((s.endHold i).setIns i y).insAdvance i 1 x.ts).insRun i)
include ht

theorem bandOver_next_only :
    Only 0x20002000020100000000000211b800100000000001000000000000080000000000010000000000020000000000004000001001000000000000020000000000200000008000040000080000060c0e0c s t := by
  rw [ht]
  exact State.insRun_only.then (by decide) (State.insAdvance_only.then (by decide) (State.setIns_only.then (by decide)
    ((TaskStep.endHold s i).only.widen (by decide))))

theorem bandOver_next_ins : (t.ins i).bands = y.bands ∧ (t.ins i).next = y.next ∧ ∀ j, j ≠ i → t.ins j = s.ins j := by
  have hadv : (((s.endHold i).setIns i y).insAdvance i 1 x.ts).ins = ((s.endHold i).setIns i y).ins := State.ins_congr (State.insAdvance_only.tns rfl)
  have hrun := TaskStep.insRun (((s.endHold i).setIns i y).insAdvance i 1 x.ts) i
  obtain ⟨hnext, hbands, -⟩ := hrun.parts i
  rw [hadv, State.ins_setIns_same] at hnext hbands
  rw [ht]
  refine ⟨hbands, hnext, fun j hj => ?_⟩
  rw [hrun.others j hj, hadv, State.ins_setIns_ne _ _ _ hj, (TaskStep.endHold s i).others j hj]

theorem bandOver_next_tallyOf (k : Nat) : t.tallyOf k
    = if k = s.f F.TNS_INS_TALLY_OUT i ∧ s.producer 6 k = true then (s.tallyOf k).add 1 (some x.ts) else s.tallyOf k := by
  have honly : Only tasksMask s ((s.endHold i).setIns i y) :=
    State.setIns_only.then (by decide) (TaskStep.endHold s i).only
  rw [ht, State.tallyOf, State.insRun_only.tally rfl]
  refine (State.advance_tallyOf _ _ _ _ _ k).trans ?_
  rw [honly.f _ _ _ (by decide), State.producer_congr (honly.graph rfl), State.tallyOf, honly.tally rfl]
  simp only [ne_eq, Nat.one_ne_zero, not_false_eq_true, and_true]
  rfl

end

section
variable (s : State) (i b core : Nat) (splits : List KSplit)

theorem State.bandStored_mem (hp : s.mm.poison = []) : (s.bandStored i b core splits).mem
    = s.mem.writeList (s.bandArea i (s.ins i).next b) ((s.bandFormed i b splits).bytes.take (s.areaSize i)) := by
  have h := TaskStep.tilesLoaded s i b core splits
  have hpoison : (s.tilesLoaded i b core splits).mm.poison = [] := by rw [h.only.mm rfl, hp]
  rw [State.bandStored, State.addSat_mem, State.addSat_mem, State.wrList_mem hpoison, h.only.mem rfl, h.bandArea, h.areaSize]

/-- A saturating counter does not fall. -/
theorem State.f_le_addSat {x : Fld} {n i j : Nat} (h : x.ok = true) : s.f x i j ≤ (s.addSat x n i j).f x i j := by
  rw [State.f_addSat_same _ h, satU]
  have hlt := s.f_lt x i j
  split
  · exact Nat.le_add_right _ _
  · exact Nat.le_sub_one_of_lt hlt

theorem State.bandStored_counts : s.f F.TNS_SAT_COUNT_COUNT ≤ (s.bandStored i b core splits).f F.TNS_SAT_COUNT_COUNT
    ∧ s.f F.TNS_NAN_COUNT_COUNT ≤ (s.bandStored i b core splits).f F.TNS_NAN_COUNT_COUNT := by
  have h := TaskStep.tilesLoaded s i b core splits
  have hwr (a : Nat) (bs : List Byte) := State.wrList_only (s := s.tilesLoaded i b core splits) (x1 := a) (x2 := bs)
  rw [State.bandStored]
  constructor
  · rw [State.f_addSat_ne _ (by decide)]
    refine Nat.le_trans (Nat.le_of_eq ?_) (State.f_le_addSat _ (by decide))
    rw [(hwr _ _).f _ _ _ (by decide), h.f _ _ _ (by decide)]
  · refine Nat.le_trans (Nat.le_of_eq ?_) (State.f_le_addSat _ (by decide))
    rw [State.f_addSat_ne _ (by decide), (hwr _ _).f _ _ _ (by decide), h.f _ _ _ (by decide)]

end

/-- A band that completes: its area is written and counts, and the next band is at work. -/
theorem networkBandDone_writes {s : State} {i b core : Nat} {splits : List KSplit} {x : Src} (hi : i < 64) (hon : s.insOn i = true)
    (hx : s.src (s.insSensor i) (s.ins i).next = some x) (habs : x.absent = false) (hb : b = (s.ins i).bands)
    (hlast : b + 1 < s.snsBands (s.insSensor i)) (hready : s.bandReady i b = true) (hc : core / 4 ∈ s.groupOn i)
    (hw : ∀ k, k < (s.bodyOf i b).top → s.weightsHere i b k = true) (hp : s.mm.poison = []) :
    ∃ (t : State) (bytes : List Byte), networkBandDone i b core splits s = t
      ∧ t.mem = s.mem.writeList (s.bandArea i (s.ins i).next b) (bytes.take (s.areaSize i))
      ∧ (s.fb F.TNS_INS_CTL_KEYPOINTS i = true → ∃ kps : List Kp, bytes.take 32
          = leBytes 4 (Nat.min (s.f F.TNS_INS_KP_MAX_BAND i) kps.length) ++ leBytes 4 kps.length ++ leBytes 1 b ++ zeroBytes 23)
      ∧ (t.ins i).bands = b + 1 ∧ (t.ins i).next = (s.ins i).next ∧ (∀ j, j ≠ i → t.ins j = s.ins j)
      ∧ (∀ k, t.tallyOf k = if k = s.f F.TNS_INS_TALLY_OUT i ∧ s.producer 6 k = true then (s.tallyOf k).add 1 (some x.ts) else s.tallyOf k)
      ∧ s.f F.TNS_SAT_COUNT_COUNT ≤ t.f F.TNS_SAT_COUNT_COUNT ∧ s.f F.TNS_NAN_COUNT_COUNT ≤ t.f F.TNS_NAN_COUNT_COUNT := by
  obtain ⟨flags, listed, found, heq⟩ := networkBandDone_completes core splits hi hon hx habs hb (Nat.lt_of_succ_lt hlast) hready hc hw hp
  have hrun := TaskStep.insRun s i
  have htiles := TaskStep.tilesLoaded (s.insRun i) i b core splits
  have hstored := (s.insRun i).bandStored_only i b core splits
  have hins := (s.insRun i).bandStored_ins i b core splits
  obtain ⟨hsat, hnan⟩ := (s.insRun i).bandStored_counts i b core splits
  rw [hrun.f _ _ _ (by decide)] at hsat hnan
  obtain ⟨hnext, hbands, -⟩ := (hrun.trans htiles).parts i
  rw [← hins] at hnext hbands
  obtain ⟨y, hyb, hyn, hover⟩ := State.bandOver_next (s := (s.insRun i).bandStored i b core splits) (i := i) (by
    rw [hbands, ← hb, State.snsBands, State.insSensor, hstored.f _ _ _ (by decide), hstored.f _ _ _ (by decide)]
    rwa [← State.snsBands, ← State.insSensor, hrun.snsBands, hrun.insSensor]) x flags listed found
  obtain ⟨htb, htn, htj⟩ := bandOver_next_ins hover
  have honly := bandOver_next_only hover
  refine ⟨_, ((s.insRun i).bandFormed i b splits).bytes, heq, ?_, fun hk => ?_, ?_, ?_, fun j hj => ?_, fun k => ?_, ?_, ?_⟩
  · rw [honly.mem rfl, State.bandStored_mem _ _ _ _ _ (by rw [hrun.only.mm rfl, hp]), hrun.only.mem rfl, hrun.bandArea, hrun.areaSize,
      (hrun.parts i).1]
  · have htake := hrun.trans (TaskStep.takeInput (s.insRun i) i)
    obtain ⟨kps, hkps⟩ := State.bandOut_keypoints ((htake.fb _ _ _ (by decide)).trans hk) b ((s.insRun i).bandTensors i b splits).1
    exact ⟨kps, hkps.trans (by rw [htake.f _ _ _ (by decide)])⟩
  · rw [htb, hyb, hbands, hb]
  · rw [htn, hyn, hnext]
  · rw [htj j hj, hins, htiles.others j hj, hrun.others j hj]
  · rw [bandOver_next_tallyOf hover, hstored.f _ _ _ (by decide), State.producer_congr (hstored.graph rfl), State.tallyOf, hstored.tally rfl,
      hrun.f _ _ _ (by decide), State.producer_congr (hrun.only.graph rfl), hrun.only.tally rfl]
    rfl
  · rw [honly.f _ _ _ (by decide)]
    exact hsat
  · rw [honly.f _ _ _ (by decide)]
    exact hnan

/-- Settles O18: what the tasks can take decides whether a band completes; a deadline and a prefetch act where their conditions hold. How
much a cluster's staging holds is log entry 83. -/
theorem networkInstances : Obligations.NetworkInstances := by
  intro s hup
  have hexec {c : State → State} : done (whenUp c s) = .next (c s) := congrArg Host.Outcome.next (whenUp_up hup)
  refine ⟨?bands, ?deadline, fun net layer cluster hn => ⟨fun h => hexec.trans (congrArg _ (weightsStaged_ignored h)), fun hf hg hp => ?staged⟩⟩
  case bands =>
    rintro i b core n splits x hi hon rfl hx habs hb hlt h2 h3 hgrp
    refine ⟨fun h => hexec.trans (congrArg _ (networkBandDone_notReady core splits hb (State.bandReady_late hlt h))),
      fun h => hexec.trans (congrArg _ (networkBandDone_notReady core splits hb (State.bandReady_full h))),
      fun hc => hexec.trans (congrArg _ (networkBandDone_outside core splits hi hon hc)), fun hlast hin hfree hc hw hp => ?_⟩
    obtain ⟨t, bytes, ht, hrest⟩ := networkBandDone_writes (splits := splits) hi hon hx habs hb hlast
      (State.bandReady_delivered hin hfree hgrp h2 h3) hc hw hp
    exact ⟨t, bytes, hexec.trans (congrArg _ ht), hrest⟩
  case deadline =>
    rintro i f n x y hi hon rfl rfl hx habs hfate hgrp rfl
    refine ⟨fun h => hexec.trans (congrArg _ (networkDeadline_late h)), fun h => hexec.trans (congrArg _ (networkDeadline_notDue hx (by omega))),
      fun hlate hdue => ⟨fun hnone => ?_, fun since hs => ?_⟩⟩
    · have hdone := networkDeadline_due hi hon hx habs hfate hgrp hlate (by omega)
      rw [hnone, State.endHold_none s i hnone] at hdone
      exact hexec.trans (congrArg _ hdone)
    · obtain ⟨t, ht, hrest⟩ := networkDeadline_held hi hon hx habs hfate hgrp hlate (by omega) hs
      exact ⟨t, hexec.trans (congrArg _ ht), hrest⟩
  case staged =>
    have hrun := TaskStep.tnsRun (s.withStaged net layer cluster)
    have hwork := (SameWork.withStaged s net layer cluster).trans hrun.toSameWork
    have hfetched := weightsStaged_fetched hn hf hg hp
    have hstaged : (weightsStaged net layer cluster s).tns.staged = stagedWith net layer cluster (s.f F.TNS_NET_CTL_PREFETCH net) s.tns.staged := by
      rw [hfetched, hrun.staged]
      rfl
    refine ⟨_, hexec, by rw [hstaged]; rfl, ?_, ?_, ?_, ?_, ?_, fun i => ?_, ?_⟩
    · rw [hstaged]
      exact fun e he => mem_stagedWith _ _ _ _ _ he
    · rw [hstaged]
      exact stagedWith_here_length _ _ _ _ _
    · rw [hstaged]
      exact fun m c h => stagedWith_elsewhere _ _ _ _ _ h
    · rw [hfetched, hwork.only.mem rfl]
    · rw [hfetched, hwork.only.tally rfl]
    · obtain ⟨hnext, hbands, hlate, -⟩ := hwork.parts i
      rw [hfetched]
      exact ⟨hnext, hbands, hlate⟩
    · rintro i since hi hon hnet hc hs rfl hb hready hfb href
      exact weightsStaged_goesOn hn hf hg hp hi hon hnet hc hs hb hready hfb href

end Sys2Proof.Machine
end
